-- ==== Sys2Proof/Word.lean ====
section
/-! DEFINITION. The words of DZ36-A: bit 0 is the least significant bit (R4), all stores move whole 512 B rows (R184). -/

namespace Sys2Proof

/-- One byte. -/
abbrev Byte := BitVec 8

/-- A 64-bit register slot, descriptor word or table word. -/
abbrev Word := BitVec 64

/-- One 512 B row of a near store, loft or LPDDR channel, little-endian (R4, R184, R208).
A line of 128 FP32 values (R64, R105) has the same width. -/
abbrev Row := BitVec 4096

/-- One FP32 bit pattern (R61). -/
abbrev F32 := BitVec 32

/-- A sparse collection: pairs of a key and a value, keys strictly rising,
no value equal to what an unlisted key holds (Machine/SMap.lean). -/
abbrev SMap (α : Type) := List (Nat × α)

end Sys2Proof
end

