-- ==== Sys2Proof/Syntax.lean ====
section
/-! DEFINITION. The commands of the block, one constructor per row of spec/opcode_table.json, and the types of their
operands. The table gives its rows no operands: they are this model's (log 2), what the row's rule needs to be named. -/

namespace Sys2Proof

/-- A block with RW-S fields, named as completion records name it (Table 17-4) with its instance.
`co`, `vu`, `mvp`, `silo` take a device core, `me` a device engine, `loftSilo`, `cl`, `dma`, `dsp` a device cluster,
`grn` a granary, `gate` a gate, `tt`, `win` and `hatch` the replica of a table in a granary or a gate (log 4). -/
inductive Blk where
  | beat
  | co (core : Nat)
  | me (eng : Nat)
  | vu (core : Nat)
  | mvp (core : Nat)
  | silo (core : Nat)
  | loftSilo (cl : Nat)
  | cl (cl : Nat)
  | dma (cl : Nat)
  | dsp (cl : Nat)
  | grn (g : Nat)
  | tt (g : Nat)
  | win (g : Nat)
  | seq
  | gate (g : Nat)
  | hatch (g : Nat)
  | pwr
  | mgt
  | atb
  deriving DecidableEq, Repr

/-- A row of a near store or of a cluster's loft (Table 1-8, spaces 0x2 and 0x1), by device core or device cluster. -/
inductive RowRef where
  | near (core row : Nat)
  | loft (cl row : Nat)
  deriving DecidableEq, Repr

/-- What the codes of R190 and R191 find in a row when it is accessed. -/
inductive RowErr where
  | none
  | single
  | double
  | parity
  deriving DecidableEq, Repr

/-- An upset of a cell of LPDDR5X: physical row (frame and row of the frame), byte (512 to 527 the check bytes), and the bits that flip. -/
structure LpHit where
  row : Nat
  pos : Nat
  flip : Byte
  deriving DecidableEq, Repr

/-- A gather on a core, with the lines of its cluster's cache that turn out uncorrectable (R200). -/
structure CacheUse where
  core : Nat
  worn : List Nat
  deriving DecidableEq, Repr

/-- A fill of a gather context, with the lines that turn out uncorrectable as it goes on (R200). -/
structure CacheFill where
  ctx : Nat
  worn : List Nat
  deriving DecidableEq, Repr

/-- A beat of a cluster's patrol: the rows whose codes find errors, and how many rows of each store it had no cycles for (R192). -/
structure PatrolIn where
  errs : List (RowRef × RowErr)
  missed : List Nat
  deriving DecidableEq, Repr

/-- A page of a partition. -/
structure PageAt where
  part : Nat
  page : Nat
  deriving DecidableEq, Repr

/-- A bring-up's tensor and how many of its rows land (R220). -/
structure Landing where
  tensor : Nat
  rows : Nat
  deriving DecidableEq, Repr

/-- A channel of a cluster that a write of RESUME names, and whether the write sets ABANDON too (R251). -/
structure ChanResume where
  ch : Nat
  abandon : Bool
  deriving DecidableEq, Repr

/-- A network interface with a translation cache of its own (R212). -/
inductive Via where
  | cluster (cl : Nat)
  | gate (g : Nat)
  deriving DecidableEq, Repr

/-- The units of a core that a task owns (R80, R124, R140). -/
inductive CoreUnit where
  | me0
  | me1
  | mvp
  | enc
  deriving DecidableEq, Repr

/-- An entropy source: one per core and one per granary (R74, R228). -/
inductive RngUnit where
  | core (core : Nat)
  | granary (g : Nat)
  deriving DecidableEq, Repr

/-- A transient hardware fault of a pass: one pass result replaced by another word before the tally checks see it
(R97, R100). A sound engine has none. -/
structure Upset where
  row : Nat
  col : Nat
  bits : F32
  deriving DecidableEq, Repr

/-- The row or rows of an accumulate-write (R227): BF16 or two FP32 rows. -/
inductive AccData where
  | bf16 (r : Row)
  | fp32 (lo hi : Row)
  deriving DecidableEq, Repr

/-- A junction sensor reading in thousandths of a degree Celsius: SITE and number of the die, sensor (R449). -/
structure Temp where
  site : Nat
  index : Nat
  sensor : Nat
  milliC : Int
  deriving DecidableEq, Repr

/-- Cycles of a logical engine (2 x core + number) that a task held it or ran beside it: the engine's owner, else the task of the core's running
slot (R312); with its job, since the task may be gone by the tick. -/
structure EngTime where
  eng : Nat
  task : Nat
  job : Nat
  cycles : Nat
  deriving DecidableEq, Repr

/-- What the device measured over the beat that a tick ends: engine cycles of each task (R312), mean draw in watts of
each compute die and of all other dies with the LPDDR5X devices (R321), sensor readings. -/
structure TickIn where
  cycles : List EngTime
  dieDraw : List (Nat × Nat)
  edgeDraw : Nat
  temps : List Temp
  deriving DecidableEq, Repr

/-- A frame's header H0 and payload, bytes 0 to 523 (R326). A frame that arrives carries its CRC as an operand of its own. -/
structure Frame where
  hdr : BitVec 96
  payload : Row
  deriving DecidableEq, Repr

/-- A frame as it arrives, with the four bytes of its CRC (R326). -/
structure RxFrame where
  frame : Frame
  crc : BitVec 32
  deriving DecidableEq, Repr

/-- What the reduction of a layer norm finds: the rows in which its packets arrive, and whether REDUCE_TIMEOUT has passed (R265, R275). -/
structure NormRows where
  rows : List RowRef
  late : Bool
  deriving DecidableEq, Repr

/-- A partition whose reset ends, with the portions of the image as its control cores read them, by agent ID and attempt, where they differ from
the image (R318, R397). -/
structure PartReset where
  part : Nat
  damaged : List (Nat × Nat × List Byte)
  deriving DecidableEq, Repr

/-- A HELLO (R332): the sender's fabric ID, nonce, ephemeral ECDH P-521 public key and ENCRYPT setting, its identity chain of three certificates,
and its quote with the log entries that it reflects. -/
structure Hello where
  fabric : BitVec 16
  nonce : BitVec 512
  ecdh : List Byte
  encrypt : Bool
  chain : List (List Byte)
  quote : List Byte
  deriving DecidableEq, Repr

/-- A handshake message (R332): a HELLO, or a PROOF with its signature. -/
inductive Handshake where
  | hello (h : Hello)
  | proof (sig : List Byte)
  deriving DecidableEq, Repr

/-- The lanes usable after a UCIe module's training and repair (Table 16-1): all 64, one half (lanes 32 to 63 if upper), or neither half. -/
inductive Lanes where
  | all
  | half (upper : Bool)
  | neither
  deriving DecidableEq, Repr

/-- A mailbox block (Table 16-5). -/
inductive MbxBlk where
  | mgmt
  | die (d : Nat)
  | granary (g : Nat)
  | gate (g : Nat)
  | cluster (cl : Nat)
  deriving DecidableEq, Repr

/-- A firmware command as firmware read it: the inbound mailbox, the sender's agent tag and the mailbox word
(Table 17-1). -/
structure FwCmd where
  mbox : Nat
  sender : Nat
  word : Word
  deriving DecidableEq, Repr

/-- The board's power-good pins (R446). -/
inductive PgPin where
  | cmp
  | loft
  | edge
  | phy
  | lp
  deriving DecidableEq, Repr

/-- What a port finds in step 12 (R405): whether its training and PCS lock complete, and the bits and codewords that the decoder corrected and the
codewords it could not correct in the window. -/
structure PortFound where
  port : Nat
  lock : Bool
  bits : Nat
  words : Nat
  uncorr : Nat
  deriving DecidableEq, Repr

/-- A row in which a march of step 9 corrects a single-bit error (R398): of a cluster's physical core, or of its loft. -/
inductive MarchRow where
  | near (cl phys row : Nat)
  | loft (cl row : Nat)
  deriving DecidableEq, Repr

/-- What bring-up steps 6 to 12 meet: whether the non-volatile store can be read; slices of stitch links that do not train, as link and slice
(R396); dies that the multicast of the image misses; portions as a control core received them, by agent ID and attempt, where they differ
from what was sent (R397); dies, clusters, physical cores, granaries and gates that fail a test and rows in which a march corrects an error
(R398); LPDDR5X devices whose full training fails twice (R403); what each port finds (R405). -/
structure BringIn where
  nvReadable : Bool
  lostSlices : List (Nat × Nat)
  missed : List Nat
  damaged : List (Nat × Nat × List Byte)
  badDies : List Nat
  badClusters : List Nat
  badCores : List (Nat × Nat)
  badGranaries : List Nat
  badGates : List Nat
  march : List MarchRow
  badLpddr : List Nat
  ports : List PortFound
  deriving DecidableEq, Repr

/-- One field-test result (Table 20-3), with the patterns run on the unit (Table 20-6), and whether its test controller did not answer (R427). -/
structure TestRes where
  cluster : Nat
  bank : Bool
  unit : Nat
  outcome : Nat
  stress : Nat
  vmargin : Nat
  fmargin : Nat
  failUnit : Nat
  pattern : Nat
  ce : Nat
  patterns : Nat
  silent : Bool
  deriving DecidableEq, Repr

/-- A calibration record captured in a test window (R411, R412): its number, its class data, and the package power and hottest junction of its
capture header. -/
structure CalBody where
  record : Nat
  data : List Byte
  pkgW : F32
  tjC : F32
  deriving DecidableEq, Repr

/-- The commands of the block: the rows of spec/opcode_table.json. -/
inductive Instr where
  /-- TICK (R58): The beat generator's tick edge reaches every agent, BEAT_NUMBER advances, and the tick's commit, apply, rest, charge and dispatch events run in their fixed cycles. -/
  | tick (m : TickIn)
  /-- VERDICT_TIMEOUT (R47): A group held for more than CARRY_LIMIT ticks is discarded, and its verifier is faulted with VERDICT_TIMEOUT. -/
  | verdictTimeout (cl group : Nat)
  /-- CARRY_LIMIT_ABORT (R49): A task whose carry count exceeds CARRY_LIMIT is aborted with cause CARRY_LIMIT and is not re-queued. -/
  | carryLimitAbort (task : Nat)
  /-- BEAT_RUN (R35): Setting BEAT_CTRL.RUN starts tick generation, which then runs until power-off or a full reset. -/
  | beatRun
  /-- BEAT_NUMBER_SET_WRITE (R34): A write to BEAT_NUMBER_SET marks its value as pending for the next BEAT apply that takes effect. -/
  | beatNumberSetWrite (agent : Nat) (v : BitVec 64)
  /-- ARM (R52): A write of ARM arms a block for the coming tick, or for the tick after when it arrives later than cycle -16. -/
  | arm (b : Blk) (late : Bool)
  /-- DISARM (R51): A write of DISARM cancels an armed request and takes precedence over ARM in the same write. -/
  | disarm (b : Blk) (withArm : Bool)
  /-- SHADOW_WRITE (R53): A write to an RW-S field is held in the shadow, and it disarms the block when it falls between the ARM write and cycle -1. -/
  | shadowWrite (agent addr : Nat) (v : BitVec 64)
  /-- REGISTER_WRITE (R5): A write to a register field that has no row of its own takes the effect of its access type. -/
  | registerWrite (agent addr : Nat) (v : BitVec 64)
  /-- BEAT_IN_PULSE (R37): A follower measures its phase error at a BEAT_IN pulse, adjusts its next beat, updates LOCKED, and checks long pulses against its own BEAT_NUMBER. -/
  | beatInPulse (lag : Int) (long : Bool)
  /-- BEAT_IN_LOSS (R37): When no BEAT_IN pulse arrives for two beats, LOCKED is cleared, LOCK_LOST is set and a fault event is posted. -/
  | beatInLoss
  /-- DESC_LOAD (R155): Cluster firmware loads a task descriptor into the dispatcher pool, which checks it in order and refuses it or drops it when it must. -/
  | descLoad (cl : Nat) (d : BitVec 512)
  /-- DISPATCH (R311): In each cycle the dispatcher chooses the job with the least ACCT/SHARES ratio and places its candidate on the lowest-numbered free core on which it is ready. -/
  | dispatch (cl : Nat)
  /-- CTL_END (R166): The command marks the last command of the task. -/
  | ctlEnd (core : Nat)
  /-- CTL_FENCE (R159): Issue waits until every earlier command of the task is complete. -/
  | ctlFence (core : Nat)
  /-- ME_LOAD (R83): The command reads a stationary block into the engine's staging buffer. -/
  | meLoad (core : Nat)
  /-- ME_STREAM (R79): The command streams operand rows through the stationary block in force and writes the results into accumulator entries. -/
  | meStream (core : Nat) (upsets : List Upset)
  /-- ME_DRAIN (R93): The command reads accumulator entries, rounds and packs them into near-store rows, and may tap them and encode tiles. -/
  | meDrain (core : Nat)
  /-- VU_LD (R107): The command widens one line of a near-store row into a line register, by peek or take. -/
  | vuLd (core : Nat)
  /-- VU_ST (R107): The command rounds and packs line registers into one row written as a task write, and assembles MX scale rows. -/
  | vuSt (core : Nat)
  /-- VU_OP (R106): The command performs an elementwise vector or scalar operation selected by SUBOP. -/
  | vuOp (core : Nat)
  /-- VU_TX (R109): The command computes a transcendental function of a line or scalar. -/
  | vuTx (core : Nat)
  /-- VU_REDUCE (R111): The command reduces lines from registers or near-store rows to a scalar on RA or RB. -/
  | vuReduce (core : Nat)
  /-- VU_TAPLD (R114): The command loads 128 tap entries of an engine into a line register once the tapping drains have written them. -/
  | vuTapld (core : Nat)
  /-- VU_NBWD (R115): The command runs the fused softmax or normalisation backward kernel over up to 128 token rows. -/
  | vuNbwd (core : Nat)
  /-- ROW_BUFFER_GRANT (R116): A vu.nbwd that waited for the VU row buffer takes it when the holding command completes. -/
  | rowBufferGrant (core : Nat)
  /-- MVP_RUN (R119): The command multiplies loft-resident weights by up to eight BF16 vectors, or writes a gleaner mask when PRED is 1. -/
  | mvpRun (core : Nat)
  /-- MVP_GLEAN (R143): The command runs an up or down projection over the neurons that the mask selects, or over all neurons in an audit task. -/
  | mvpGlean (core : Nat)
  /-- SP_ENC (R140): The command encodes dense blocks into an N:M, BITMAP or DENSE_FALLBACK tile. -/
  | spEnc (core : Nat)
  /-- DMA_KICK (R233): The command supplies a DIRECT descriptor or releases RING descriptors to a channel, subject to the kick mask. -/
  | dmaKick (core : Nat)
  /-- TAG_TAKE (R159): The command takes each named row without reading it. -/
  | tagTake (core : Nat)
  /-- TAG_WAIT (R159): The command completes when every named row is FULL and faults the task when a row is POISON. -/
  | tagWait (core : Nat)
  /-- SILO_PUSH (R194): The command appends near-store rows to a silo at TAIL_PEND as pending task writes. -/
  | siloPush (core : Nat)
  /-- SILO_POP (R195): The command reads silo rows into the near store, taking them and advancing HEAD_PEND when TAKE is 1. -/
  | siloPop (core : Nat)
  /-- CC_COUNT (R198): The command counts the elements of a row range that meet a predicate and may write a match mask. -/
  | ccCount (core : Nat)
  /-- GA_GATHER (R167): The command fetches indexed table rows through the cluster cache into the near store and may touch a bitmap. -/
  | gaGather (use_ : CacheUse)
  /-- ROW_STATE_RETRY (R189): When a row changes state, the operations that wait on it are retried in the order in which they began to wait, which may unblock tasks. -/
  | rowStateRetry (r : RowRef) (err : RowErr)
  /-- TASK_RETIRE (R166): A task retires when every issued command is complete, raises its retire-time fault causes, and enters the retire table. -/
  | taskRetire (core slot : Nat)
  /-- FAULT_JOB_STOP (R180): At the tick after a non-speculative fault record arrives, firmware stops the job and reports KS_FAULT. -/
  | faultJobStop (part job : Nat)
  /-- STATIONARY_SHIFT_IN (R84): Once the previous pass's last row has entered and staging is complete, the staged block shifts into the cells over 128 cycles. -/
  | stationaryShiftIn (core eng : Nat)
  /-- ENGINE_RELEASE (R80): An engine, MVP or encoder becomes unowned when its task has issued its last command and holds no command that has not started there. -/
  | engineRelease (core : Nat) (u : CoreUnit)
  /-- CACHE_FILL_COMPLETE (R200): A cluster-cache fill from the loft or LPDDR lands, allocates a line, and resumes the parked gather context. -/
  | cacheFillComplete (core : Nat) (fill : CacheFill)
  /-- CC_INVALIDATE (R201): Writing CL_CC_CTRL.INVALIDATE invalidates every line of the cluster cache within 256 cycles. -/
  | ccInvalidate (cl : Nat)
  /-- RNG_HEALTH_FAIL (R74): A failed entropy health test sets FAIL, posts a fault event and puts SR writes into RNE fallback. -/
  | rngHealthFail (u : RngUnit)
  /-- RNG_FALLBACK_EXIT (R74): The entropy source leaves fallback at the first tick after a full beat in which both health tests passed. -/
  | rngFallbackExit (u : RngUnit)
  /-- PATROL_SCRUB (R192): In each beat the patrol checks one near-store row and 2^LOFT_LOG2 loft rows using idle bank cycles. -/
  | patrolScrub (cl : Nat) (found : PatrolIn)
  /-- LPDDR_PATROL (R211): In each beat each controller patrols 2^SCRUB_LOG2 data rows per channel during idle cycles. -/
  | lpddrPatrol (g : Nat) (hits : List LpHit)
  /-- PAGE_WALK (R212): A translation-cache miss is answered by the granary walker from its walk cache or from the leaf in LPDDR. -/
  | pageWalk (via : Via) (page : PageAt)
  /-- BRINGUP_DONE (R220): When every row of a bring-up has landed, the tensor's RES becomes RESIDENT. -/
  | bringupDone (landing : Landing)
  /-- DEADLINE_MISS (R221): A touch whose rows are not all FULL at beat b + DEADLINE misses and takes its fallback in generation or scoring, or waits in learning. -/
  | deadlineMiss (cl ch : Nat)
  /-- ACCUM_WRITE (R227): A granary applies an accumulate-write to a gradient row, overwriting the row on the first write of the step and adding to it otherwise. -/
  | accumWrite (part job addr : Nat) (data : AccData) (final : Bool)
  /-- EPOCH_CLEAR_DONE (R227): The epoch clear of the job's ACCUM tensors ends, and the accumulate-writes that waited for it proceed. -/
  | epochClearDone (part job : Nat)
  /-- UNSEAL_PINS_CLEAR (R223): An unseal that waited for PINS to reach 0 takes effect, bumping GEN and dropping the loft copy. -/
  | unsealPinsClear (tensor : Nat)
  /-- DMA_DESC_START (R236): A channel starts its next descriptor, refusing it with DESC_INVALID when it is malformed. -/
  | dmaDescStart (cl ch : Nat)
  /-- DMA_RING_FETCH (R234): While FETCH differs from LIMIT and the buffer has room, a channel fetches up to 16 ring descriptors by peek. -/
  | dmaRingFetch (cl ch : Nat)
  /-- DMA_TRANSFER_END (R242): When a descriptor's last row has landed or it stops, the channel appends its completion record to the completion silo. -/
  | dmaTransferEnd (cl ch : Nat)
  /-- DMA_RECORD_FLUSH (R242): Records held for want of completion-silo credit are appended once credit returns. -/
  | dmaRecordFlush (cl ch : Nat)
  /-- FIRMWARE_COPY_START (R235): Setting DMA_CTRLn.START on an IDLE FIRMWARE channel starts a row copy from DMA_SRCn to DMA_DSTn. -/
  | firmwareCopyStart (cl ch : Nat)
  /-- DMA_RESUME (R244): Writing RESUME to a PAUSED channel continues the transfer from its stop point. -/
  | dmaResume (cl : Nat) (chan : ChanResume)
  /-- DMA_ABANDON (R243): Writing ABANDON to a PAUSED channel stops it with an ABANDONED record. -/
  | dmaAbandon (cl ch : Nat)
  /-- DMA_RESTART (R243): Writing RESTART to a STOPPED channel clears its queue, sets FETCH to LIMIT, and makes it IDLE. -/
  | dmaRestart (cl ch : Nat)
  /-- PF_STALE_REFETCH (R247): A run-ahead row found stale at use is made EMPTY and read again by its filling channel under the current GEN. -/
  | pfStaleRefetch (r : RowRef)
  /-- REMOTE_TIMEOUT (R336): A remote request with no response within TIMEOUT_US expires, its read row becomes POISON or its transfer stops, and its entry becomes EXPIRED. -/
  | remoteTimeout (gate tag : Nat)
  /-- KILL_DRAIN_DONE (R203): When no DMA or hatch write of a killed job can still land, the kill scrub zeroes the job's storage. -/
  | killDrainDone (part job : Nat)
  /-- KILL_SCRUB_COMPLETE (R319): After the granaries have zero-filled the job's pages, firmware invalidates its entries, clears its quotas and sets the job FREE. -/
  | killScrubComplete (part job : Nat)
  /-- END_OF_BACKWARD (R262): When the marked last backward task has committed everywhere and every channel is IDLE, firmware declares end of backward, and the granaries check skew and send norm packets. -/
  | endOfBackward (part job : Nat)
  /-- DEVICE_PACKET_FORMED (R264): Management core 0, holding all 24 granary packets, forms the device's norm packet. -/
  | devicePacketFormed (part job : Nat)
  /-- REDUCTION_COMPLETE (R265): ROOT, holding a packet from every member, forms the reduction result and sends it to every member. -/
  | reductionComplete (part job : Nat) (rows : List RowRef)
  /-- REDUCE_TIMEOUT (R265): At ROOT, REDUCE_TIMEOUT expires with a member's packet missing, and the result is formed void with reason TIMEOUT. -/
  | reduceTimeout (part job : Nat) (rows : List RowRef)
  /-- RESULT_WAIT_TIMEOUT (R265): A member with no result 2 x REDUCE_TIMEOUT after end of backward reports KS_TIMEOUT and goes on waiting. -/
  | resultWaitTimeout (part job : Nat)
  /-- REDUCTION_RESULT (R266): A member receives the result, skips the update when it is void, or otherwise forms the clip factor and posts the update. -/
  | reductionResult (part job : Nat) (rows : List RowRef)
  /-- PHASE_CHANGE (R268): At the first tick at which the step has ended, all tasks have committed and all channels are IDLE, the partition changes phase. -/
  | phaseChange (part : Nat)
  /-- WIN_GO (R286): Writing GO makes a winnower check the update command and its records and report PASS or FAIL. -/
  | winGo (g : Nat)
  /-- WIN_RELEASE (R286): Writing RELEASE runs a command that passed its check through the winnower pass. -/
  | winRelease (g : Nat)
  /-- WIN_WITHHOLD (R286): Writing WITHHOLD drops the command, and nothing is written. -/
  | winWithhold (g : Nat)
  /-- WIN_PASS_DONE (R289): When every winnower reports DONE, firmware seals the weights and publication tensors, starts the layer-norm reductions, and completes the command. -/
  | winPassDone (part job : Nat)
  /-- LAYER_NORM_RESULT (R275): A layer-norm reduction result returns, and firmware writes WNORMSQ and NORM_STEP into every granary's state entry. -/
  | layerNormResult (part job record : Nat) (pkt : NormRows)
  /-- GEN_STEP_BOUNDARY (R299): At a generation step boundary the sequence manager applies results, adopts the view, takes leaves, grows, pre-empts and admits sequences, and writes the plan. -/
  | genStepBoundary (part : Nat)
  /-- PARTITION_RESET_DONE (R318): When the reset's steps have completed on every die, the partition's STATE becomes READY at a tick. -/
  | partitionResetDone (part : PartReset)
  /-- HATCH_CLOSED_DONE (R344): At the first tick after every accepted request has landed in every gate die, a CLOSING hatch becomes CLOSED. -/
  | hatchClosedDone (hatch : Nat)
  /-- PORT_REKEY (R333): An applied REKEY bit starts a new handshake that rekeys the port without leaving READY. -/
  | portRekey (port : Nat)
  /-- SEGMENT_REKEY (R333): After 2^32 segments the port rekeys with a new handshake. -/
  | segmentRekey (port : Nat)
  /-- LINK_TRAINED (R330): Link training and PCS lock complete on all 8 lanes, and the port enters AUTHENTICATING and sends its HELLO. -/
  | linkTrained (port : Nat)
  /-- LINK_TRAIN_TIMEOUT (R330): With no lock within 1 s, the port is held down with reason NO_SIGNAL. -/
  | linkTrainTimeout (port : Nat)
  /-- AUTH_TIMEOUT (R332): A handshake not complete within 100 ms holds the port down with reason AUTH_TIMEOUT. -/
  | authTimeout (port : Nat)
  /-- LINK_BER_WINDOW (R404): At the end of each 1 s window, the pre-FEC error rate sets the port READY, DEGRADED or HELD_DOWN. -/
  | linkBerWindow (port bits words uncorr : Nat)
  /-- LINK_LOCK_LOSS (R331): Loss of lock ends the port's transactions as timed out and sends it back to TRAINING. -/
  | linkLockLoss (port : Nat) (fourth : Bool)
  /-- LINK_RETRAIN (R328): After 16 replays without ACK progress the port retrains, and the fourth such entry within 60 s holds it down. -/
  | linkRetrain (port : Nat) (fourth : Bool)
  /-- REPLAY_TIMER (R328): A sender with no ACK progress for 4 us sends REPLAY for its oldest frame and resends from it. -/
  | replayTimer (port : Nat)
  /-- NAK_TIMER (R328): A receiver waiting for a replay sends its NAK again every 4 us. -/
  | nakTimer (port : Nat)
  /-- ACK_TIMER (R329): The receiver sends an ACK at least every 256 ns while frames are unacknowledged. -/
  | ackTimer (port : Nat)
  /-- FRAME_WRITE (R335): An arriving WRITE frame is checked against its hatch and lands as a normal fill, is parked, or is NACKed. -/
  | frameWrite (port : Nat) (f : RxFrame)
  /-- FRAME_WRITE_OW (R335): An arriving WRITE_OW frame is checked and lands as an overwrite fill, is parked, or is NACKed. -/
  | frameWriteOw (port : Nat) (f : RxFrame)
  /-- FRAME_ACCUM (R335): An arriving ACCUM frame is checked and applied as an accumulate-write, and is ACKed once the granary has applied it. -/
  | frameAccum (port : Nat) (f : RxFrame)
  /-- FRAME_COUNT_REQ (R342): An arriving COUNT_REQ runs compare-and-count over hatch rows and returns mask rows and COUNT_DONE. -/
  | frameCountReq (port : Nat) (f : RxFrame)
  /-- FRAME_SREDUCE (R343): An arriving SREDUCE writes a packet into its slot of a hatch row and sets the slot's arrival bit. -/
  | frameSreduce (port : Nat) (f : RxFrame)
  /-- FRAME_RDATA (R327): An arriving RDATA fills the initiator's destination row, POISON when flagged, for a read or a count. -/
  | frameRdata (port : Nat) (f : RxFrame)
  /-- FRAME_BATCH (R327): An arriving BATCH frame delivers its 1 to 42 entries for processing in order. -/
  | frameBatch (port : Nat) (f : RxFrame)
  /-- CTL_ACK (R329): An ACK control frame acknowledges frames up to a number and returns credits. -/
  | ctlAck (port : Nat) (hdr : BitVec 96)
  /-- CTL_NAK (R328): A NAK control frame makes the sender replay from the expected number. -/
  | ctlNak (port : Nat) (hdr : BitVec 96)
  /-- CTL_REPLAY (R328): A REPLAY control frame tells the receiver to accept frames again from the numbered frame. -/
  | ctlReplay (port : Nat) (hdr : BitVec 96)
  /-- CTL_SEG_TAG (R333): A SEG_TAG control frame is verified against its segment, and the segment is passed up or discarded and NAKed. -/
  | ctlSegTag (port : Nat) (hdr : BitVec 96) (gcm : BitVec 128)
  /-- CTL_HANDSHAKE (R332): A HANDSHAKE fragment carrying a HELLO or PROOF is verified, and the port is qualified or held down. -/
  | ctlHandshake (port : Nat) (msg : Handshake)
  /-- CTL_IDLE (R329): An IDLE control frame fills a control slot and carries nothing. -/
  | ctlIdle (port : Nat) (hdr : BitVec 96)
  /-- MODULE_TRAIN_REQUEST (R349): The host requests training or retraining of a UCIe module over the sideband. -/
  | moduleTrainRequest (mdl : Nat)
  /-- MODULE_TRAINED (R349): Module training completes at X64 or X32 after repair, or fails to DOWN. -/
  | moduleTrained (mdl : Nat) (lanes : Lanes) (repaired : Nat)
  /-- MODULE_TRAIN_TIMEOUT (R349): Training not complete within 100 ms returns the module to DOWN. -/
  | moduleTrainTimeout (mdl : Nat)
  /-- MODULE_LINK_LOSS (R354): Adapter retry failure or lost lock sends the module to TRAINING, and its unperformed transactions are dropped. -/
  | moduleLinkLoss (mdl : Nat)
  /-- HOST_READ (R352): A host READ transaction of the aperture is checked and answered with a RESPONSE. -/
  | hostRead (mdl : Nat) (hdr : BitVec 128)
  /-- HOST_WRITE (R352): A host WRITE transaction to the window, a mailbox or a lock register is checked and performed, or refused. -/
  | hostWrite (mdl : Nat) (hdr : BitVec 128) (data : BitVec 2048)
  /-- SIDEBAND_ACCESS (R351): A sideband register-access message is mapped onto a limited host transaction. -/
  | sidebandAccess (mdl : Nat) (hdr : BitVec 128) (data : BitVec 64)
  /-- HOST_LOSS (R430): After 1 s with no module up, the host is lost, and jobs park at their step ends. -/
  | hostLoss
  /-- MAILBOX_WRITE (R359): A write to a mailbox lands and notifies the receiver when the mailbox is empty, or waits when it is FULL. -/
  | mailboxWrite (b : MbxBlk) (n sender : Nat) (data : BitVec 64)
  /-- MAILBOX_READ (R360): A receiver's read of MBX_DATAn returns the word, empties the mailbox, and lets a waiting write land. -/
  | mailboxRead (b : MbxBlk) (n reader : Nat)
  /-- MAILBOX_WAIT_TIMEOUT (R359): A waiting mailbox write not landed within MS ms ends with TIMEOUT RECEIVER_SLOW. -/
  | mailboxWaitTimeout (b : MbxBlk) (n : Nat)
  /-- LOCK_READ (R362): A read of MBX_LOCKk acquires a free lock for the reader or returns the owner. -/
  | lockRead (b : MbxBlk) (k agent : Nat)
  /-- LOCK_RELEASE (R362): A write of 0 by the owner releases the lock. -/
  | lockRelease (b : MbxBlk) (k agent : Nat)
  /-- LOCK_FORCE (R362): A management core's write with FORCE 1 releases the lock whatever its owner. -/
  | lockForce (b : MbxBlk) (k agent : Nat)
  /-- DEVICE_RESET (R372): The command performs a full device reset and restarts bring-up from step 2. -/
  | deviceReset (c : FwCmd)
  /-- PARTITION_CREATE (R308): The command creates a partition rectangle by MGT apply. -/
  | partitionCreate (c : FwCmd)
  /-- PARTITION_DESTROY (R318): The command resets a partition, then clears its EN and frees its frames. -/
  | partitionDestroy (c : FwCmd)
  /-- PARTITION_RESET (R318): The command resets every compute unit of a partition while the rest of the device runs. -/
  | partitionReset (c : FwCmd)
  /-- JOB_START (R310): The command starts a FREE job with quotas and a manifest, or resumes a STOPPED job, at one tick. -/
  | jobStart (c : FwCmd)
  /-- JOB_STOP (R316): The command pre-empts a job by clearing its RUN bit. -/
  | jobStop (c : FwCmd)
  /-- JOB_KILL (R319): The command kills a job and runs the kill scrub. -/
  | jobKill (c : FwCmd)
  /-- TENSOR_SEAL (R223): The command seals an UPDATE_OWNED tensor and bumps its GEN. -/
  | tensorSeal (c : FwCmd)
  /-- TENSOR_UNSEAL (R223): The command requests the unseal of a SEALED tensor, which waits for its pins. -/
  | tensorUnseal (c : FwCmd)
  /-- STEP_VOID (R267): The command voids a step awaiting a reduction result with reason HOST_VOID. -/
  | stepVoid (c : FwCmd)
  /-- PHASE_SET (R268): The command requests a phase change, which completes when it has taken effect. -/
  | phaseSet (c : FwCmd)
  /-- LAYER_NORM (R287): The command runs NORM_ONLY over records and the layer-norm reduction. -/
  | layerNorm (c : FwCmd)
  /-- SEQ_CANCEL (R299): The command ends a sequence at the next step boundary. -/
  | seqCancel (c : FwCmd)
  /-- HATCH_CLOSE (R344): The command moves an OPEN hatch to CLOSING, NACKs its parked requests, and completes when it is CLOSED. -/
  | hatchClose (c : FwCmd)
  /-- POWER_LIMIT (R323): The command applies a new sustained power limit and credit bank. -/
  | powerLimit (c : FwCmd)
  /-- POWER_WEIGHT (R321): The command applies a partition's power budget weight. -/
  | powerWeight (c : FwCmd)
  /-- TELEMETRY (R443): The command returns package power, hottest junction and beat from the latest snapshot. -/
  | telemetry (c : FwCmd)
  /-- DEVICE_QUERY (R377): The command writes the device shape record. -/
  | deviceQuery (c : FwCmd)
  /-- INVENTORY (R378): The command writes the inventory of dies and LPDDR5X devices. -/
  | inventory (c : FwCmd)
  /-- ENV_SET (R450): The command gives the time, the coolant temperature and FLOW_OK, which the device takes as given. -/
  | envSet (c : FwCmd)
  /-- BEAT_CONFIG (R39): The command arms a BEAT apply of mode, length, carry limit, input delay and optionally the beat number. -/
  | beatConfig (c : FwCmd)
  /-- IMAGE_LOAD (R385): The command verifies the firmware image and carries bring-up through to READY. -/
  | imageLoad (c : FwCmd) (found : BringIn)
  /-- SEEDPACK_LOAD (R425): The command verifies and installs a field-test seed pack. -/
  | seedpackLoad (c : FwCmd)
  /-- CAL_READ (R409): The command returns a calibration record in its signed envelope. -/
  | calRead (c : FwCmd)
  /-- CAL_WRITE (R409): The command verifies and replaces a calibration record. -/
  | calWrite (c : FwCmd)
  /-- ATTEST_QUOTE (R390): The command returns a signed quote with log and chain, or a partner's last quote. -/
  | attestQuote (c : FwCmd)
  /-- JOB_CONFIG (R257): The command sets the job's frozen setting and list from the next step start. -/
  | jobConfig (c : FwCmd)
  /-- TENSOR_REGISTER (R219): The command writes a tensor-table entry by TT apply. -/
  | tensorRegister (c : FwCmd)
  /-- PAGE_MAP (R212): The command maps pages PRESENT with zeroed frames, or unmaps them. -/
  | pageMap (c : FwCmd)
  /-- PAGE_IN (R214): The command copies a piece of a HOST page into its frame and resumes paused channels at the last piece, or declines the page-in. -/
  | pageIn (c : FwCmd)
  /-- PAGE_OUT (R214): The command copies a PRESENT page out in pieces and makes it HOST. -/
  | pageOut (c : FwCmd)
  /-- LAYER_REGISTER (R291): The command writes a layer record and optionally its state entry by WIN apply. -/
  | layerRegister (c : FwCmd)
  /-- JOB_RESTORE (R435): The command rewrites every granule of a stopped job from the buddy's tithe or a checkpoint. -/
  | jobRestore (c : FwCmd)
  /-- TITHE_CONFIG (R431): The command names the buddy, its tithe hatches and the fraction. -/
  | titheConfig (c : FwCmd)
  /-- STEP_CONFIG (R263): The command sets the reduction and update settings from the next step start. -/
  | stepConfig (c : FwCmd)
  /-- STEP_BEGIN (R262): The command starts learning step t with epoch clear, spill reset and publication unseal request. -/
  | stepBegin (c : FwCmd)
  /-- STEP_RESULT (R265): The command delivers ROOT's reduction result to a holding member. -/
  | stepResult (c : FwCmd)
  /-- SEQ_CONFIG (R304): The command writes the sequence manager's share, pool and step settings by SEQ apply. -/
  | seqConfig (c : FwCmd)
  /-- SEQ_JOIN (R294): The command queues a new sequence in a FREE entry of the share. -/
  | seqJoin (c : FwCmd)
  /-- LINK_CONFIG (R345): The command applies the fabric ID and the port settings in all four gate dies. -/
  | linkConfig (c : FwCmd)
  /-- HATCH_OPEN (R337): The command opens a CLOSED hatch with new fields and bumps its GEN. -/
  | hatchOpen (c : FwCmd)
  /-- TEST_WINDOW (R420): The command grants a field-test window of BEATS beats on the dies of the mask. -/
  | testWindow (c : FwCmd)
  /-- COUNTERS_READ (R442): The command requests a snapshot and writes counter entries for the scope. -/
  | countersRead (c : FwCmd)
  /-- COUNTER_SNAPSHOT (R441): At cycle 64 of the next tick, every unit latches its counters and gauges, and the held reads complete. -/
  | counterSnapshot (gauges : List (Nat × BitVec 32))
  /-- TEST_WINDOW_START (R420): At the first tick after the check, the window's dies stop dispatch and field tests begin under stress. -/
  | testWindowStart
  /-- TEST_WINDOW_END (R424): After BEATS beats, trims and clocks return to calibration, the results are written, and the command completes. -/
  | testWindowEnd (results : List TestRes) (recaptured : List CalBody)
  /-- CORE_WATCHDOG (R427): A RUNNING core that issues and retires nothing for 16 beats is declared dead. -/
  | coreWatchdog (core : Nat)
  /-- ROW_RETIRE_COPY_DONE (R418): The copy of a retired LPDDR5X row to a spare ends, and the row is remapped for later accesses. -/
  | rowRetireCopyDone (dev ch row : Nat)
  /-- MGT_RESET_RELEASE (R446): MGT_RST_N is released after the auxiliary rails have been in tolerance, and the boot ROM starts. -/
  | mgtResetRelease
  /-- POWER_GOOD_LOSS (R448): A power-good pin deasserted for more than 10 us deasserts PWR_EN_MAIN and makes the device fail as fatal. -/
  | powerGoodLoss (pin : PgPin)
  /-- THERMAL_TRIP (R449): A sensor at 110 C asserts THERM_TRIP_N and deasserts PWR_EN_MAIN without firmware. -/
  | thermalTrip (site index sensor : Nat)
  /-- JTAG_EXTEST (R455): The instruction lets the boundary cells drive the power-control, beat, clock-detect and ATB contacts. -/
  | jtagExtest
  /-- JTAG_SAMPLE_PRELOAD (R455): The instruction captures the boundary contacts without disturbing them. -/
  | jtagSamplePreload (pre : BitVec 18)
  /-- JTAG_IDCODE (R455): The instruction returns the 32-bit IDCODE. -/
  | jtagIdcode
  /-- JTAG_CLAMP (R455): The instruction holds the preloaded values and selects BYPASS. -/
  | jtagClamp
  /-- JTAG_HIGHZ (R455): The instruction makes the outputs high-impedance, except THERM_TRIP_N. -/
  | jtagHighz
  /-- JTAG_STATUS (R455): The instruction returns BOOT_STAGE, SHAPE_GEN and the trip and enable pins. -/
  | jtagStatus
  /-- JTAG_BYPASS (R455): The instruction selects the 1-bit bypass path. -/
  | jtagBypass
  /-- JTAG_RESET (R456): Asserting TRST_N resets the TAP to IDCODE while bring-up continues. -/
  | jtagReset
  /-- BAD_CRC_FRAME (R328): A frame arrives with a bad CRC, and the receiver discards it and every later non-control frame and sends NAK with its expected number. -/
  | badCrcFrame (port : Nat)
  /-- RESERVED_TYPE_FRAME (R341): A frame with a good CRC and a reserved TYPE is malformed, and is discarded without response but still consumes and returns its credit. -/
  | reservedTypeFrame (port : Nat) (hdr : BitVec 96)
  /-- MAIN_POWER_GOOD (R446): The board asserts a group's power-good pin once its main rails are in tolerance after PWR_EN_MAIN, letting bring-up step 6 continue. -/
  | mainPowerGood (pin : PgPin)
  /-- MAIN_RAIL_TIMEOUT (R395): A main rail not good within 1 s of PWR_EN_MAIN is fatal, and BOOT_STAGE becomes 0xFF. -/
  | mainRailTimeout
  /-- ATB_SETTLE (R454): 50 us after an ATB apply, the converter settles and ATB_READk.VALID becomes 1. -/
  | atbSettle (k : Nat) (code : BitVec 16)
  deriving DecidableEq, Repr

end Sys2Proof
end

