-- ==== Sys2Proof/Decode.lean ====
section
/-! DEFINITION. Words to commands. The table gives none of its rows any bits (every row's field list is empty), so no word
spells a command (log 2). -/

namespace Sys2Proof

/-- The command that a word spells by the table's bits: none. -/
def decodeTableWord (_nbits _w : Nat) : Option Instr := none

end Sys2Proof
end

