-- ==== Sys2Proof/Machine/SMap.lean ====
section
/-! DEFINITION. Sparse collections in one canonical form: keys strictly rising, and no entry equal to what an unlisted
key holds, so that equal contents are equal lists. `d` says what an unlisted key holds. -/

namespace Sys2Proof

/-- The listed value at a key. -/
def SMap.find? {α : Type} : SMap α → Nat → Option α
  | [], _ => none
  | (k, v) :: m, x => if k = x then some v else SMap.find? m x

/-- What a key holds. -/
def SMap.get {α : Type} (d : Nat → α) (m : SMap α) (x : Nat) : α :=
  (SMap.find? m x).getD (d x)

/-- Remove a key's entry. -/
def SMap.erase {α : Type} : SMap α → Nat → SMap α
  | [], _ => []
  | (k, v) :: m, x => if k = x then SMap.erase m x else (k, v) :: SMap.erase m x

/-- Insert an entry at its place, replacing the key's entry. -/
def SMap.insert {α : Type} : SMap α → Nat → α → SMap α
  | [], x, w => [(x, w)]
  | (k, v) :: m, x, w =>
    if x < k then (x, w) :: (k, v) :: m
    else if x = k then (x, w) :: m
    else (k, v) :: SMap.insert m x w

/-- Write a key; writing what an unlisted key holds removes the entry. -/
def SMap.put {α : Type} [DecidableEq α] (d : Nat → α) (m : SMap α) (x : Nat) (w : α) : SMap α :=
  if w = d x then SMap.erase m x else SMap.insert m x w

/-- Change every listed value, dropping those that become what an unlisted key holds. -/
def SMap.mapVals {α : Type} [DecidableEq α] (d : Nat → α) (f : Nat → α → α) : SMap α → SMap α
  | [] => []
  | (k, v) :: m => if f k v = d k then SMap.mapVals d f m else (k, f k v) :: SMap.mapVals d f m

/-- Every key of the list lies above `x`. -/
def SMap.above {α : Type} (x : Nat) : SMap α → Bool
  | [] => true
  | (k, _) :: m => decide (x < k) && SMap.above x m

/-- The canonical form. -/
def SMap.wf {α : Type} [DecidableEq α] (d : Nat → α) : SMap α → Bool
  | [] => true
  | (k, v) :: m => SMap.above k m && !decide (v = d k) && SMap.wf d m

/-- The listed keys in a range, in rising order. -/
def SMap.keysIn {α : Type} (m : SMap α) (lo hi : Nat) : List Nat :=
  (m.map Prod.fst).filter fun k => decide (lo ≤ k) && decide (k < hi)

end Sys2Proof
end

