-- ==== Sys2Proof/Machine/Bits.lean ====
section
/-! DEFINITION. Bit fields of words, rows and descriptors (R4: bit 0 is the least significant), and small list helpers. -/

namespace Sys2Proof

/-- The field of `len` bits that starts at bit `lo`. -/
def bits {n : Nat} (w : BitVec n) (lo len : Nat) : Nat := (w.extractLsb' lo len).toNat

/-- One bit of a word. -/
def bitAt {n : Nat} (w : BitVec n) (i : Nat) : Bool := w.getLsbD i

/-- The bits a field takes. -/
def fieldMask (n lo len : Nat) : BitVec n := (BitVec.ofNat n (2 ^ len - 1)) <<< lo

/-- Write a field; the other bits stand. -/
def setBits {n : Nat} (w : BitVec n) (lo len v : Nat) : BitVec n :=
  (w &&& ~~~ fieldMask n lo len) ||| (fieldMask n lo len &&& (BitVec.ofNat n v <<< lo))

def setBit {n : Nat} (w : BitVec n) (i : Nat) (b : Bool) : BitVec n := setBits w i 1 (if b then 1 else 0)

/-- A number of the fields given from the lowest bit up, as (width, value). -/
def packBits : List (Nat × Nat) → Nat
  | [] => 0
  | (w, v) :: t => v % 2 ^ w + packBits t * 2 ^ w

/-- Numbers of `w` bits laid out from bit 0 up. -/
def packNat (w : Nat) : List Nat → Nat
  | [] => 0
  | v :: t => v % 2 ^ w + packNat w t * 2 ^ w

/-- `n` fields of `w` bits from bit `lo` up. -/
def unpack {k : Nat} (x : BitVec k) (lo w n : Nat) : List Nat := (List.range n).map fun i => bits x (lo + w * i) w

/-- A two's complement field as an integer. -/
def signed (w v : Nat) : Int := if v < 2 ^ (w - 1) then (v : Int) else (v : Int) - (2 ^ w : Nat)

/-- An integer in `w` bits of two's complement. -/
def twos (w : Nat) (v : Int) : Nat := (v % (2 ^ w : Nat)).toNat

def b2n (b : Bool) : Nat := if b then 1 else 0

/-- How many bits of a word are set among its lowest `n`. -/
def popcount {k : Nat} (x : BitVec k) (n : Nat) : Nat := ((List.range n).filter fun i => bitAt x i).length

/-- Replace or add one list position. -/
def setIdx {α : Type} (l : List α) (i : Nat) (v : α) : List α := l.set i v

/-- Remove repeats, keeping first occurrences, by a key comparison. -/
def dedup {α : Type} [DecidableEq α] : List α → List α
  | [] => []
  | x :: t => x :: (dedup t).filter fun y => !decide (y = x)

/-- Insert into a list kept in rising order by a key. -/
def insertBy {α : Type} (key : α → Nat) (x : α) : List α → List α
  | [] => [x]
  | y :: t => if key x ≤ key y then x :: y :: t else y :: insertBy key x t

/-- Sort by a key, equal keys in their order. -/
def sortBy {α : Type} (key : α → Nat) : List α → List α
  | [] => []
  | x :: t => insertBy key x (sortBy key t)

/-- Split a list into pieces of `n`, at most `k` pieces. -/
def chunks {α : Type} (n : Nat) : Nat → List α → List (List α)
  | 0, _ => []
  | k + 1, l => if l.isEmpty then [] else l.take n :: chunks n k (l.drop n)

end Sys2Proof
end

