-- ==== Sys2Proof/Machine/Rs.lean ====
section
/-! DEFINITION. The outer code of LPDDR5X (R210): a shortened Reed-Solomon code over 8-bit symbols, 128 data and 4 check symbols to a
codeword, minimum distance 5. The manual gives the code's parameters; the field polynomial 0x11D, the roots 1, 2, 4, 8 of the generator
and the places of a codeword's symbols are the model's (log 9). -/

namespace Sys2Proof.Machine

/-- Multiplication by x in the field. -/
def gfDouble (a : Nat) : Nat := if 128 ≤ a then (2 * a) % 256 ^^^ 0x1D else 2 * a

/-- Multiplication in the field, over the bits of the second factor. -/
def gfMulBits : Nat → Nat → Nat → Nat
  | 0, _, _ => 0
  | n + 1, a, b => (if b % 2 = 1 then a else 0) ^^^ gfMulBits n (gfDouble a) (b / 2)

def gfMul (a b : Nat) : Nat := gfMulBits 8 a b

/-- The generator's lower coefficients 15, 54, 120 and 64, times a symbol, highest first. -/
def rsFeed (f : Nat) : Nat := gfMul 15 f * 2 ^ 24 + gfMul 54 f * 2 ^ 16 + gfMul 120 f * 2 ^ 8 + gfMul 64 f

/-- One data symbol enters the encoder's four symbols. -/
def rsStep (r d : Nat) : Nat := (r % 2 ^ 24 * 256) ^^^ rsFeed (r / 2 ^ 24 ^^^ d)

/-- The four check symbols of 128 data symbols. -/
def rsEncode (ds : List Nat) : Nat := ds.foldl rsStep 0

/-- Byte i of codeword k of a row: the codeword is the sectors 2k and 2k + 1, bytes 128k to 128k + 127. -/
def rsBytes (d : BitVec 4096) (k : Nat) : List Nat := (List.range 128).map fun i => bits d (8 * (128 * k + i)) 8

/-- The 16 check bytes of a row: four of each codeword in turn. -/
def rsCheck (d : BitVec 4096) : BitVec 128 :=
  if d = 0 then 0 else BitVec.ofNat 128 (packNat 32 ((List.range 4).map fun k => rsEncode (rsBytes d k)))

/-- What decoding finds in a codeword: nothing, a symbol of a degree and its error, or an error that it cannot correct. -/
inductive RsFound where
  | clean
  | symbol (degree value : Nat)
  | bad
  deriving DecidableEq, Repr

/-- The value at 2^j of the four symbols by which a codeword's check differs from its data's. -/
def rsSyndrome (e j : Nat) : Nat :=
  (List.range 4).foldl (fun (a : Nat) i => a ^^^ gfMul (e / 2 ^ (8 * i) % 256) (gfPow (i * j))) 0
where
  gfPow : Nat → Nat
    | 0 => 1
    | n + 1 => gfDouble (gfPow n)

/-- Powers of x paired with their exponents, from a power on. -/
def gfPowers : Nat → Nat → Nat → List (Nat × Nat)
  | 0, _, _ => []
  | n + 1, i, x => (i, x) :: gfPowers n (i + 1) (gfDouble x)

/-- Decoding of one codeword (R210): a single symbol in error is found, two or three are detected. -/
def rsDecode (e : Nat) : RsFound :=
  if e = 0 then .clean else
  let s0 := rsSyndrome e 0; let s1 := rsSyndrome e 1; let s2 := rsSyndrome e 2; let s3 := rsSyndrome e 3
  if s0 = 0 then .bad else
  match List.find? (fun (p : Nat × Nat) => gfMul s0 p.2 == s1 && gfMul s1 p.2 == s2 && gfMul s2 p.2 == s3) (gfPowers 132 0 1) with
  | some p => .symbol p.1 s0
  | none => .bad

/-- The check symbols that always decode as uncorrectable differ from valid ones in two symbols of each codeword (R211). -/
def rsPoison : BitVec 128 := 0x00000101000001010000010100000101

/-- Where the check bytes of a channel data row lie: check row and first byte (R210). -/
def checkPlace (row : Nat) : Nat × Nat := (24379392 + row / 32, 16 * (row % 32))

end Sys2Proof.Machine
end

