-- ==== Sys2Proof/Config.lean ====
section
/-! DEFINITION. What the manual leaves open: opaque constants, of which no proof can know a value (logs 1 and 10). -/

namespace Sys2Proof

/-- Free values, by the number of the draw (log 1). -/
opaque Config.freeWord : Nat → Word

/-- vu.tx: the result of function FN at an argument, at full accuracy or at that of TX_FAST; the model takes it where Table 5-3 and R110 allow it
(R109, R110). -/
opaque Config.tx : Nat → Bool → F32 → F32

/-- The result of a vu.nbwd element of a MODE from its constants and inputs; the model takes it where three roundings allow it: their order is
not stated (R115). -/
opaque Config.nbwd : Nat → List F32 → F32

/-- A gradient sum that no BF16 value holds: the row's element (R227). -/
opaque Config.accumOverflow : F32 → BitVec 16

/-- Which neuron record a row of a GLEAN transfer belongs to: the descriptor does not say how many rows a record has (Table
9-6). -/
opaque Config.gleanRecord : BitVec 1024 → Nat → Nat

/-- The generation and token that a remote request carries: the descriptor has no place for them (Tables 10-2 and 15-2). -/
opaque Config.remoteGen : BitVec 1024 → BitVec 8
opaque Config.remoteToken : BitVec 1024 → BitVec 32

/-- An ephemeral ECDH P-521 key pair by the number of its draw: its public key, and the secret that it shares with a partner's public key
(R332). The manual names the algorithms and does not state them. -/
opaque Config.ecdhPublic : Nat → List Byte
opaque Config.ecdhShared : Nat → List Byte → List Byte

/-- Where a device of a fabric ID takes the reduction packets of a job, or of a layer norm of a record: hatch, row offset, generation and token. The
manual gives the transactions (R263, R343) and names no hatch for them. -/
opaque Config.reduceAt : Nat → Nat → Nat → Option Nat → Nat × Nat × Nat × Nat

/-- The SHA-512 of both HELLOs, the lower fabric ID's first (R332): the manual gives a HELLO no byte layout. -/
opaque Config.helloDigest : Hello → Hello → BitVec 512

/-- The key that HKDF over SHA-512 derives from a shared secret, salted with both nonces, the lower fabric ID's first, for the direction
from the lower fabric ID, or to it (R332): the manual does not say how the salt and the two keys are laid out. -/
opaque Config.linkKey : List Byte → BitVec 512 → BitVec 512 → Bool → BitVec 256

/-- The AES-256-GCM key stream over bytes 0 to 523 of a frame, by key, segment number and place in the segment: the counter mode adds it bit
by bit (R333). -/
opaque Config.gcmStream : BitVec 256 → Nat → Nat → BitVec 96 × Row

/-- The GCM tag of a segment under a key and segment number (R333). -/
opaque Config.gcmTag : BitVec 256 → Nat → List (BitVec 96 × Row) → BitVec 128

/-- The SHA-512 function and the check of an ECDSA P-521 signature: public key, digest, signature (R380, R383). The manual names
them and does not state them. -/
opaque Config.sha512 : List Byte → BitVec 512
opaque Config.ecdsaOk : List Byte → BitVec 512 → List Byte → Bool

/-- The identity key's signature of a digest, 132 bytes r then s (R381). -/
opaque Config.sign : BitVec 512 → BitVec 1056

/-- The root public key whose hash the boot ROM holds (R380). -/
opaque Config.rootKey : List Byte

/-- FUSE_REV and DIE_ID of an inventory entry, by KIND and INDEX (Table 17-10). -/
opaque Config.fuseRev : Nat → Nat → BitVec 8
opaque Config.dieId : Nat → Nat → BitVec 64

/-- DEVICE_ID is the DIE_ID of the management die (Table 18-1). -/
def Config.deviceId : BitVec 64 := Config.dieId 4 0

/-- The ROM version (Table 18-6). -/
opaque Config.romVersion : BitVec 8

/-- The three certificates that manufacture puts into the store, root first; the last names a DIE_ID (R381). -/
opaque Config.certificate : Nat → BitVec 64 → List Byte

/-- The public key of a certificate; whether a chain of certificates leads to a root key (R332, R380). X.509 is not in the manual. -/
opaque Config.certKey : List Byte → List Byte
opaque Config.chainLeads : List Byte → List (List Byte) → Bool

/-- The identity chain and its key (R381). -/
def Config.identityChain : List (List Byte) := (List.range 3).map fun i => Config.certificate i Config.deviceId
def Config.identityKey : List Byte := Config.certKey (Config.certificate 2 Config.deviceId)

/-- What a verified image's manifest gives: the minimum SVN of seed packs and calibration records (Table 18-4, order 7). The
format of an image body is not in the manual. -/
opaque Config.imageMinSvn : List Byte → Nat

/-- An image body's portion for a control core, by agent ID, and the hash that the image's manifest gives for it (R397). -/
opaque Config.imagePortion : List Byte → Nat → List Byte
opaque Config.imageHash : List Byte → Nat → BitVec 512

/-- The trim in mV that a margin or droop record gives a cluster: the class data of Table 19-4 has no layout in the manual. -/
opaque Config.calTrim : List Byte → Nat → Int

/-- A job manifest, whose format the manual leaves to the toolchain reference (Table 17-7): how many rows it has, from its first
row (0: none); whether it matches its hash; the logical dies, device clusters and device cores it names; its register images as
device address and word. -/
opaque Config.manifestRows : Row → Nat
opaque Config.manifestOk : List Row → Bool
opaque Config.manifestDies : List Row → List Nat
opaque Config.manifestClusters : List Row → List Nat
opaque Config.manifestCores : List Row → List Nat
opaque Config.manifestRegs : List Row → List (Nat × Word)

/-- How many FP32 steps a power of R282 lies from the power rounded once; the model bounds it by 2. -/
opaque Config.powSteps : F32 → Nat → Int

end Sys2Proof
end

