-- ==== Sys2Proof/Machine/Fp.lean ====
section
/-! DEFINITION. Numbers and their formats (chapter 3): exact values, the element encodings of Table 3-2, rounding by R68,
writes by R70 and R71 with the flags of Table 3-5, row packing by Table 3-3. -/

namespace Sys2Proof.Machine

/-- A number as the formats hold it: NaN, an infinity, or (-1)^neg * m * 2^e exactly. -/
inductive Num where
  | nan
  | inf (neg : Bool)
  | fin (neg : Bool) (m : Nat) (e : Int)
  deriving DecidableEq, Repr

/-- The sticky exception flags of a task (Table 3-5). -/
structure Flags where
  ni : Bool
  nv : Bool
  of : Bool
  uf : Bool
  deriving DecidableEq, Repr

def Flags.none : Flags := ⟨false, false, false, false⟩
def Flags.setNv : Flags := ⟨false, true, false, false⟩
def Flags.setOf : Flags := ⟨false, false, true, false⟩
def Flags.or (a b : Flags) : Flags := ⟨a.ni || b.ni, a.nv || b.nv, a.of || b.of, a.uf || b.uf⟩
def Flags.all (l : List Flags) : Flags := l.foldl Flags.or Flags.none
/-- The flags as CO_ARITH_FLAGS lays them out. -/
def Flags.toNat (f : Flags) : Nat := b2n f.ni + 2 * b2n f.nv + 4 * b2n f.of + 8 * b2n f.uf

def Num.zero : Num := .fin false 0 0
def Num.ofInt (i : Int) : Num := .fin (decide (i < 0)) i.natAbs 0
def Num.pow2 (e : Int) : Num := .fin false 1 e

def Num.isNan : Num → Bool
  | .nan => true
  | _ => false

def Num.isFin : Num → Bool
  | .fin _ _ _ => true
  | _ => false

def Num.isZero : Num → Bool
  | .fin _ m _ => m == 0
  | _ => false

def Num.sign : Num → Bool
  | .nan => false
  | .inf n => n
  | .fin n _ _ => n

def Num.neg : Num → Num
  | .nan => .nan
  | .inf n => .inf (!n)
  | .fin n m e => .fin (!n) m e

def Num.abs : Num → Num
  | .nan => .nan
  | .inf _ => .inf false
  | .fin _ m e => .fin false m e

/-- A finite value times 2^e0's inverse as an integer, for e0 no greater than its exponent. -/
def Num.scaled (neg : Bool) (m : Nat) (e e0 : Int) : Int :=
  let v : Int := (m * 2 ^ (e - e0).toNat : Nat)
  if neg then -v else v

/-- Exact sum; an exact zero sum of operands of opposite sign is +0 (R71). -/
def Num.add : Num → Num → Num
  | .nan, _ => .nan
  | _, .nan => .nan
  | .inf a, .inf b => if a = b then .inf a else .nan
  | .inf a, .fin _ _ _ => .inf a
  | .fin _ _ _, .inf b => .inf b
  | .fin n1 m1 e1, .fin n2 m2 e2 =>
    let e0 := min e1 e2
    let v := Num.scaled n1 m1 e1 e0 + Num.scaled n2 m2 e2 e0
    .fin (if v = 0 then n1 && n2 else decide (v < 0)) v.natAbs e0

/-- Exact product. -/
def Num.mul : Num → Num → Num
  | .nan, _ => .nan
  | _, .nan => .nan
  | .inf a, .inf b => .inf (a != b)
  | .inf a, .fin n m _ => if m = 0 then .nan else .inf (a != n)
  | .fin n m _, .inf b => if m = 0 then .nan else .inf (n != b)
  | .fin n1 m1 e1, .fin n2 m2 e2 => .fin (n1 != n2) (m1 * m2) (e1 + e2)

/-- x < y as IEEE 754 orders values; false where either is NaN. -/
def Num.lt : Num → Num → Bool
  | .nan, _ => false
  | _, .nan => false
  | .inf a, .inf b => a && !b
  | .inf a, .fin _ _ _ => a
  | .fin _ _ _, .inf b => !b
  | .fin n1 m1 e1, .fin n2 m2 e2 =>
    let e0 := min e1 e2
    decide (Num.scaled n1 m1 e1 e0 < Num.scaled n2 m2 e2 e0)

def Num.le (x y : Num) : Bool := !x.isNan && !y.isNan && !Num.lt y x
def Num.eq (x y : Num) : Bool := Num.le x y && Num.le y x

/-- An operation with no NaN input that gives NaN sets NV (Table 3-5); a NaN input sets NI where it is read. -/
def nvOf (inputs : List Num) (r : Num) : Flags := ⟨false, r.isNan && !inputs.any Num.isNan, false, false⟩

/-- A NaN read as an input sets NI (Table 3-5). -/
def niOf (inputs : List Num) : Flags := ⟨inputs.any Num.isNan, false, false, false⟩

/-- The floating-point element formats of Table 3-2. -/
inductive Elem where
  | fp32 | bf16 | e4m3 | e5m2 | e3m2 | e2m3 | e2m1
  deriving DecidableEq, Repr

def Elem.eb : Elem → Nat
  | .fp32 => 8 | .bf16 => 8 | .e4m3 => 4 | .e5m2 => 5 | .e3m2 => 3 | .e2m3 => 2 | .e2m1 => 2

def Elem.mb : Elem → Nat
  | .fp32 => 23 | .bf16 => 7 | .e4m3 => 3 | .e5m2 => 2 | .e3m2 => 2 | .e2m3 => 3 | .e2m1 => 1

def Elem.bias : Elem → Nat
  | .fp32 => 127 | .bf16 => 127 | .e4m3 => 7 | .e5m2 => 15 | .e3m2 => 3 | .e2m3 => 1 | .e2m1 => 1

def Elem.width (f : Elem) : Nat := 1 + f.eb + f.mb

/-- The code of the largest finite magnitude. -/
def Elem.top : Elem → Nat
  | .fp32 => 0x7F7FFFFF | .bf16 => 0x7F7F | .e4m3 => 0x7E | .e5m2 => 0x7B | .e3m2 => 0x1F | .e2m3 => 0x1F | .e2m1 => 0x7

/-- Whether the format has infinities. -/
def Elem.hasInf : Elem → Bool
  | .fp32 => true | .bf16 => true | .e5m2 => true | _ => false

/-- The exponent bound of MX scales (R70, step 2). -/
def Elem.emax : Elem → Int
  | .e4m3 => 8 | .e5m2 => 15 | .e3m2 => 4 | .e2m3 => 2 | .e2m1 => 2 | _ => 0

/-- The canonical NaN (R63); the MX element formats have none. -/
def Elem.nan : Elem → Nat
  | .fp32 => 0x7FC00000 | .bf16 => 0x7FC0 | .e4m3 => 0x7F | .e5m2 => 0x7E | _ => 0

def Elem.infCode (f : Elem) : Nat := (2 ^ f.eb - 1) * 2 ^ f.mb

/-- The value an element's bits encode (R61, Table 3-2). -/
def Elem.decode (f : Elem) (c : Nat) : Num :=
  let neg := c / 2 ^ (f.eb + f.mb) % 2 == 1
  let e := c / 2 ^ f.mb % 2 ^ f.eb
  let m := c % 2 ^ f.mb
  if f.hasInf && e == 2 ^ f.eb - 1 then (if m = 0 then .inf neg else .nan)
  else if f = .e4m3 ∧ e = 15 ∧ m = 7 then .nan
  else if e = 0 then .fin neg m (1 - (f.bias : Int) - f.mb)
  else .fin neg (m + 2 ^ f.mb) ((e : Int) - f.bias - f.mb)

/-- How one write rounds: to nearest even, or stochastically with the draw r (R68). -/
inductive Rnd where
  | rne
  | sr (r : Nat)
  deriving DecidableEq, Repr

/-- Round m / 2^d to an integer by R68. -/
def roundDiv (r : Rnd) (m d : Nat) : Nat :=
  let n := m / 2 ^ d
  let rem := m % 2 ^ d
  match r with
  | .rne => if 2 * rem > 2 ^ d ∨ (2 * rem = 2 ^ d ∧ n % 2 = 1) then n + 1 else n
  | .sr k => if rem * 65536 / 2 ^ d + k ≥ 65536 then n + 1 else n

/-- The exponent of a nonzero magnitude: floor(log2 (m * 2^e)). -/
def expOf (m : Nat) (e : Int) : Int := (Nat.log2 m : Int) + e

/-- Round a magnitude to a format with no bound above: its code without the sign, and whether it was inexact. A code past
`Elem.top` has overflowed. -/
def Elem.roundMag (f : Elem) (r : Rnd) (m : Nat) (e : Int) : Nat × Bool :=
  if m = 0 then (0, false) else
  let q := max (expOf m e) (1 - (f.bias : Int)) - f.mb
  let base := (q + f.mb + f.bias - 1).toNat * 2 ^ f.mb
  if q ≤ e then (base + m * 2 ^ (e - q).toNat, false)
  else
    let d := (q - e).toNat
    (base + roundDiv r m d, m % 2 ^ d != 0)

def Elem.signBit (f : Elem) (neg : Bool) : Nat := if neg then 2 ^ (f.eb + f.mb) else 0

/-- A result below the smallest normal that is inexact and not from zero sets UF (Table 3-5). -/
def ufOf (f : Elem) (m c : Nat) (inexact : Bool) : Bool := inexact && m != 0 && decide (c < 2 ^ f.mb)

/-- A non-MX write of one element (R71, R72). -/
def Elem.write (f : Elem) (sat : Bool) (r : Rnd) : Num → Nat × Flags
  | .nan => (f.nan, .none)
  | .inf n =>
    if f.hasInf then (f.signBit n + f.infCode, .none)
    else if sat then (f.signBit n + f.top, .none)
    else (f.nan, .setNv)
  | .fin n m e =>
    let (c, ix) := f.roundMag r m e
    if c > f.top then
      if sat then (f.signBit n + f.top, .setOf)
      else if f.hasInf then (f.signBit n + f.infCode, .setOf)
      else (f.nan, ⟨false, true, true, false⟩)
    else (f.signBit n + c, ⟨false, false, false, ufOf f m c ix⟩)

/-- An INT8 write (R71). -/
def int8Write (r : Rnd) : Num → Nat × Flags
  | .nan => (0, .none)
  | .inf n => (if n then 0x80 else 0x7F, .none)
  | .fin n m e =>
    let k := if 0 ≤ e then m * 2 ^ e.toNat else roundDiv r m (-e).toNat
    let ix := decide (e < 0) && m % 2 ^ (-e).toNat != 0
    let v : Int := if n then -(k : Int) else k
    if v > 127 then (0x7F, .setOf) else if v < -128 then (0x80, .setOf)
    else (twos 8 v, ⟨false, false, false, decide (k = 0) && ix⟩)

def int8Read (c : Nat) : Num := Num.ofInt (signed 8 (c % 256))

/-- FP32 arithmetic: an exact value rounded once by RNE; an overflow becomes infinity and sets OF (Table 3-6). -/
def rnd32 (x : Num) : F32 × Flags :=
  let (c, f) := Elem.fp32.write false .rne x
  (BitVec.ofNat 32 c, f)

def Num.of32 (w : F32) : Num := Elem.fp32.decode w.toNat

/-- An FP32 value rounded once, as a number. -/
def Num.r32 (x : Num) : Num := Num.of32 (rnd32 x).1

/-- FP32 sum with one rounding and the flags of the operation. -/
def add32 (x y : Num) : Num × Flags :=
  let v := Num.add x y
  let (w, f) := rnd32 v
  (Num.of32 w, f.or (nvOf [x, y] v))

/-- FP32 product with one rounding. -/
def mul32 (x y : Num) : Num × Flags :=
  let v := Num.mul x y
  let (w, f) := rnd32 v
  (Num.of32 w, f.or (nvOf [x, y] v))

/-- Fused multiply-add, a * b + c with one rounding (R67). -/
def fma32 (a b c : Num) : Num × Flags :=
  let v := Num.add (Num.mul a b) c
  let (w, f) := rnd32 v
  (Num.of32 w, f.or (nvOf [a, b, c] v))

/-- FP32 sum in list order, each addition rounded (R66, R67). -/
def sum32 (l : List Num) : Num × Flags :=
  match l with
  | [] => (.zero, .none)
  | x :: t => t.foldl (fun a y => let (v, f) := add32 a.1 y; (v, a.2.or f)) (x, Flags.none)

/-- The format codes of Table 3-1. -/
inductive Fmt where
  | fp32 | bf16 | e4m3 | e5m2 | mx8e4m3 | mx8e5m2 | mx6e3m2 | mx6e2m3 | mx4 | int8
  deriving DecidableEq, Repr

def Fmt.ofCode : Nat → Option Fmt
  | 0 => some .fp32 | 1 => some .bf16 | 2 => some .e4m3 | 3 => some .e5m2 | 4 => some .mx8e4m3 | 5 => some .mx8e5m2
  | 6 => some .mx6e3m2 | 7 => some .mx6e2m3 | 8 => some .mx4 | 9 => some .int8 | _ => none

/-- The element format; INT8 has none. -/
def Fmt.elem : Fmt → Option Elem
  | .fp32 => some .fp32 | .bf16 => some .bf16 | .e4m3 => some .e4m3 | .e5m2 => some .e5m2 | .mx8e4m3 => some .e4m3
  | .mx8e5m2 => some .e5m2 | .mx6e3m2 => some .e3m2 | .mx6e2m3 => some .e2m3 | .mx4 => some .e2m1 | .int8 => none

def Fmt.isMx : Fmt → Bool
  | .mx8e4m3 => true | .mx8e5m2 => true | .mx6e3m2 => true | .mx6e2m3 => true | .mx4 => true | _ => false

/-- Whether the scales lie in a sidecar scale row. -/
def Fmt.sidecar : Fmt → Bool
  | .mx8e4m3 => true | .mx8e5m2 => true | .mx4 => true | _ => false

def Fmt.width (f : Fmt) : Nat := match f.elem with
  | some e => e.width
  | none => 8

/-- Lines per row (Table 3-3). -/
def Fmt.lines : Fmt → Nat
  | .fp32 => 1 | .bf16 => 2 | .mx6e3m2 => 5 | .mx6e2m3 => 5 | .mx4 => 8 | _ => 4

def Fmt.perRow (f : Fmt) : Nat := 128 * f.lines

/-- Element rows that one sidecar scale row serves (R64). -/
def Fmt.served : Fmt → Nat
  | .mx4 => 16 | _ => 32

/-- Formats valid as an engine operand (Table 3-1). -/
def Fmt.engineOperand : Fmt → Bool
  | .fp32 => false | .int8 => false | _ => true

/-- Formats valid as a drain output. -/
def Fmt.drainOutput : Fmt → Bool
  | .int8 => false | _ => true

/-- Formats of MVP weights, INT8 aside (R120). -/
def Fmt.mvpWeight : Fmt → Bool
  | .fp32 => false | .bf16 => false | .int8 => false | _ => true

/-- Formats of the DMA holding register (R73). -/
def Fmt.dmaFormat : Fmt → Bool
  | .fp32 => true | .bf16 => true | .e4m3 => true | .e5m2 => true | _ => false

/-- An E8M0 scale (Table 3-2); 0xFF is NaN. -/
def scaleOf (x : Nat) : Num := if x = 255 then .nan else .pow2 ((x : Int) - 127)

/-- The scale of element k of an element row: inline for MXFP6, else from the sidecar row, where `i` is the row's index
among the rows the scale row serves. A format without scales has scale 1. -/
def scaleAt (f : Fmt) (row srow : Row) (i k : Nat) : Num :=
  if !f.isMx then .pow2 0
  else if f.sidecar then scaleOf (bits srow (8 * ((f.perRow / 32) * i + k / 32)) 8)
  else scaleOf (bits row (8 * (480 + k / 32)) 8)

/-- Element k of a row as it represents a value (R62). -/
def elemAt (f : Fmt) (row srow : Row) (i k : Nat) : Num :=
  match f.elem with
  | none => int8Read (bits row (8 * k) 8)
  | some e =>
    let p := e.decode (bits row (e.width * k) e.width)
    if f.isMx then Num.mul (scaleAt f row srow i k) p else p

/-- Line l of a row. -/
def lineAt (f : Fmt) (row srow : Row) (i l : Nat) : List Num := (List.range 128).map fun k => elemAt f row srow i (128 * l + k)

/-- One MX block written by R70: scale, element codes, flags. -/
def mxBlock (e : Elem) (rs : List Rnd) (xs : List Num) : Nat × List Nat × Flags :=
  if xs.any Num.isNan then (255, xs.map fun _ => 0, .none)
  else if !xs.all Num.isFin then (255, xs.map fun _ => 0, .setNv)
  else
    let amax := xs.foldl (fun a x => if Num.lt a x.abs then x.abs else a) Num.zero
    match amax with
    | .fin _ 0 _ => (0, xs.map fun _ => 0, .none)
    | .fin _ m x =>
      let e0 := expOf m x - e.emax
      let ec := min (max e0 (-127)) 127
      let ws := (xs.zip rs).map fun p => match p.1 with
        | .fin n m x =>
          let (c, ix) := e.roundMag p.2 m (x - ec)
          let c' := min c e.top
          (e.signBit n + c', (⟨false, false, false, ufOf e m c' ix⟩ : Flags))
        | _ => (0, Flags.none)
      ((ec + 127).toNat, ws.map Prod.fst,
        (Flags.all (ws.map Prod.snd)).or ⟨false, false, decide (127 < e0), decide (e0 < -127)⟩)
    | _ => (0, xs.map fun _ => 0, .none)

/-- A row of a format from its values (R64, R70, R71), missing values written as zero: the row, its scales where the format
has a sidecar, the flags. -/
def packRow (f : Fmt) (sat : Bool) (rs : List Rnd) (vals : List Num) : Row × List Nat × Flags :=
  let xs := (vals ++ List.replicate f.perRow Num.zero).take f.perRow
  let rs := (rs ++ List.replicate f.perRow Rnd.rne).take f.perRow
  match f.elem with
  | none =>
    let ws := (xs.zip rs).map fun p => int8Write p.2 p.1
    (BitVec.ofNat 4096 (packNat 8 (ws.map Prod.fst)), [], Flags.all (ws.map Prod.snd))
  | some e =>
    if f.isMx then
      let bs := ((chunks 32 64 xs).zip (chunks 32 64 rs)).map fun p => mxBlock e p.2 p.1
      let body := packNat e.width (bs.flatMap fun b => b.2.1)
      let scales := bs.map fun b => b.1
      let fl := Flags.all (bs.map fun b => b.2.2)
      if f.sidecar then (BitVec.ofNat 4096 body, scales, fl)
      else (BitVec.ofNat 4096 (body + packNat 8 scales * 2 ^ 3840), [], fl)
    else
      let ws := (xs.zip rs).map fun p => e.write sat p.2 p.1
      (BitVec.ofNat 4096 (packNat e.width (ws.map Prod.fst)), [], Flags.all (ws.map Prod.snd))

/-- The 128 FP32 patterns of a line or FP32 row. -/
def row32 (r : Row) : List F32 := (List.range 128).map fun k => r.extractLsb' (32 * k) 32

/-- A line of FP32 patterns. -/
def ofRow32 (l : List F32) : Row := BitVec.ofNat 4096 (packNat 32 (l.map BitVec.toNat))

def lineNums (r : Row) : List Num := (row32 r).map Num.of32

/-- A line of numbers that are FP32 values. -/
def lineOf32 (l : List Num) : Row := ofRow32 (l.map fun x => (rnd32 x).1)

/-- The draw of the seeded generator (R75): the next state and the 16-bit r. -/
def xorshift (s : Word) : Word × Nat :=
  let a := s ^^^ (s <<< 13)
  let b := a ^^^ (a >>> 7)
  let c := b ^^^ (b <<< 17)
  (c, bits c 48 16)

end Sys2Proof.Machine
end

