-- ==== Sys2Proof/Machine/Regs.lean ====
section
/-! DEFINITION. The registers of the manual: their fields with access type and reset value (Tables 0-3, R5 to R7, and each
chapter's register tables), their device addresses (R26, R29, Tables 1-8, 1-9) and the block each RW-S field belongs to.
The table entries that lie in register space (tensor table, hatch table, layer table, winnower state, sequence table) are
registers of eight or four words each. -/

namespace Sys2Proof.Machine

/-- Access types (Table 0-3). -/
inductive Acc where
  | ro | roh | rw | rws | rwi | w1c | w1s | wo | rc
  deriving DecidableEq, Repr

/-- A field: lowest bit, width, access type, reset value. -/
structure Fld where
  lo : Nat
  len : Nat
  acc : Acc
  reset : Nat
  deriving DecidableEq, Repr

def F.beatCtrlRun : Fld := ⟨0, 1, .w1s, 0x0⟩
def F.beatCtrlCarryLimit : Fld := ⟨8, 4, .rws, 0x2⟩
def F.beatLenLog2 : Fld := ⟨0, 5, .rws, 0xd⟩
def F.beatLenCycles : Fld := ⟨8, 17, .roh, 0x2000⟩
def F.beatNumberNumber : Fld := ⟨0, 64, .roh, 0x0⟩
def F.beatNumberSetValue : Fld := ⟨0, 64, .rws, 0x0⟩
def F.beatSyncMode : Fld := ⟨0, 2, .rws, 0x0⟩
def F.beatSyncInDelay : Fld := ⟨4, 12, .rws, 0x0⟩
def F.beatSyncLocked : Fld := ⟨16, 1, .roh, 0x0⟩
def F.beatSyncLockLost : Fld := ⟨17, 1, .w1c, 0x0⟩
def F.beatSyncMarkSkew : Fld := ⟨18, 1, .w1c, 0x0⟩
def F.beatSyncPhaseErr : Fld := ⟨24, 8, .roh, 0x0⟩
def F.coArithRoundDefault : Fld := ⟨0, 1, .rws, 0x0⟩
def F.coArithSat : Fld := ⟨1, 1, .rws, 0x1⟩
def F.coArithTrapNv : Fld := ⟨2, 1, .rws, 0x0⟩
def F.coArithTrapOf : Fld := ⟨3, 1, .rws, 0x0⟩
def F.coArithRngMode : Fld := ⟨4, 2, .rws, 0x0⟩
def F.coRngSeedSeed : Fld := ⟨0, 64, .rws, 0x0⟩
def F.coRngStatusFallback : Fld := ⟨0, 1, .roh, 0x0⟩
def F.coRngStatusFail : Fld := ⟨1, 1, .w1c, 0x0⟩
def F.coRngStatusSeeded : Fld := ⟨2, 1, .roh, 0x0⟩
def F.coRngStatusFailCount : Fld := ⟨16, 16, .roh, 0x0⟩
def F.coArithFlagsNi : Fld := ⟨0, 1, .w1c, 0x0⟩
def F.coArithFlagsNv : Fld := ⟨1, 1, .w1c, 0x0⟩
def F.coArithFlagsOf : Fld := ⟨2, 1, .w1c, 0x0⟩
def F.coArithFlagsUf : Fld := ⟨3, 1, .w1c, 0x0⟩
def F.meCfgTallyEn : Fld := ⟨0, 1, .rws, 0x1⟩
def F.meCfgTolRelExp : Fld := ⟨8, 5, .rws, 0xe⟩
def F.meCfgTolAbsExp : Fld := ⟨16, 5, .rws, 0x8⟩
def F.meStatusOwned : Fld := ⟨0, 1, .roh, 0x0⟩
def F.meStatusStaging : Fld := ⟨1, 1, .roh, 0x0⟩
def F.meStatusShifting : Fld := ⟨2, 1, .roh, 0x0⟩
def F.meStatusPass : Fld := ⟨3, 1, .roh, 0x0⟩
def F.meStatusDraining : Fld := ⟨4, 1, .roh, 0x0⟩
def F.meStatusOwnerSlot : Fld := ⟨5, 2, .roh, 0x0⟩
def F.meStatusFeedMin : Fld := ⟨8, 7, .roh, 0x0⟩
def F.meTallyLogValid : Fld := ⟨0, 1, .w1c, 0x0⟩
def F.meTallyLogKind : Fld := ⟨1, 3, .roh, 0x0⟩
def F.meTallyLogColumn : Fld := ⟨8, 8, .roh, 0x0⟩
def F.meTallyLogRow : Fld := ⟨16, 7, .roh, 0x0⟩
def F.meTallyLogFails : Fld := ⟨24, 8, .roh, 0x0⟩
def F.meTallyLogAtBeat : Fld := ⟨32, 32, .roh, 0x0⟩
def F.meSuspectCount : Fld := ⟨0, 16, .roh, 0x0⟩
def F.vuCfgTxFast : Fld := ⟨0, 1, .rws, 0x0⟩
def F.vuCfgNbwdOverlap : Fld := ⟨1, 1, .rws, 0x1⟩
def F.vuStatusBufOwned : Fld := ⟨0, 1, .roh, 0x0⟩
def F.vuStatusBufSlot : Fld := ⟨1, 2, .roh, 0x0⟩
def F.vuStatusTxBusy : Fld := ⟨3, 1, .roh, 0x0⟩
def F.vuStatusBufLines : Fld := ⟨4, 9, .roh, 0x0⟩
def F.mvpCfgReadAhead : Fld := ⟨0, 3, .rws, 0x5⟩
def F.mvpStatusOwned : Fld := ⟨0, 1, .roh, 0x0⟩
def F.mvpStatusOwnerSlot : Fld := ⟨1, 2, .roh, 0x0⟩
def F.mvpStatusRunning : Fld := ⟨3, 1, .roh, 0x0⟩
def F.mvpStatusStrip : Fld := ⟨16, 10, .roh, 0x0⟩
def F.meSpLogValid : Fld := ⟨0, 1, .w1c, 0x0⟩
def F.meSpLogKind : Fld := ⟨1, 3, .roh, 0x0⟩
def F.meSpLogRow : Fld := ⟨16, 14, .roh, 0x0⟩
def F.meSpLogAtBeat : Fld := ⟨32, 32, .roh, 0x0⟩
def F.mvpGlCfgEn : Fld := ⟨0, 1, .rws, 0x0⟩
def F.mvpGlCfgAuditEn : Fld := ⟨1, 1, .rws, 0x1⟩
def F.mvpGlCfgAuditLog2 : Fld := ⟨4, 4, .rws, 0x6⟩
def F.mvpGlThreshThresh : Fld := ⟨0, 32, .rws, 0x0⟩
def F.mvpGlActAct : Fld := ⟨0, 32, .rws, 0x0⟩
def F.coSlotsSlot0 : Fld := ⟨0, 3, .roh, 0x0⟩
def F.coSlotsSlot1 : Fld := ⟨4, 3, .roh, 0x0⟩
def F.coSlotsSlot2 : Fld := ⟨8, 3, .roh, 0x0⟩
def F.coSlotsSlot3 : Fld := ⟨12, 3, .roh, 0x0⟩
def F.coSlotsIssuing : Fld := ⟨16, 2, .roh, 0x0⟩
def F.coSlotsIdle : Fld := ⟨18, 1, .roh, 0x1⟩
def F.coSlotsRetired : Fld := ⟨24, 5, .roh, 0x0⟩
def F.coFaultLogValid : Fld := ⟨0, 1, .w1c, 0x0⟩
def F.coFaultLogCause : Fld := ⟨8, 8, .roh, 0x0⟩
def F.coFaultLogPc : Fld := ⟨16, 12, .roh, 0x0⟩
def F.coFaultLogSlot : Fld := ⟨28, 2, .roh, 0x0⟩
def F.coFaultLogAtBeat : Fld := ⟨32, 32, .roh, 0x0⟩
def F.coFaultAddrAddr : Fld := ⟨0, 56, .roh, 0x0⟩
def F.coFaultTaskTaskId : Fld := ⟨0, 16, .roh, 0x0⟩
def F.coFaultTaskJob : Fld := ⟨16, 4, .roh, 0x0⟩
def F.coGaBaseBase : Fld := ⟨0, 56, .rws, 0x0⟩
def F.coGaShapeEntries : Fld := ⟨0, 32, .rws, 0x0⟩
def F.coGaShapeStride : Fld := ⟨32, 12, .rws, 0x0⟩
def F.siloCfgBaseRow : Fld := ⟨0, 20, .rws, 0x0⟩
def F.siloCfgSizeRows : Fld := ⟨20, 21, .rws, 0x0⟩
def F.siloCfgJob : Fld := ⟨41, 4, .rws, 0x0⟩
def F.siloCfgEn : Fld := ⟨48, 1, .rws, 0x0⟩
def F.siloCfgProd : Fld := ⟨49, 1, .rws, 0x0⟩
def F.siloCfgCons : Fld := ⟨50, 1, .rws, 0x0⟩
def F.siloPtrHead : Fld := ⟨0, 22, .roh, 0x0⟩
def F.siloPtrTail : Fld := ⟨32, 22, .roh, 0x0⟩
def F.siloPendHeadPend : Fld := ⟨0, 22, .roh, 0x0⟩
def F.siloPendTailPend : Fld := ⟨32, 22, .roh, 0x0⟩
def F.siloPendPushCore : Fld := ⟨56, 3, .roh, 0x0⟩
def F.siloPendPushPend : Fld := ⟨59, 1, .roh, 0x0⟩
def F.siloPendPopCore : Fld := ⟨60, 3, .roh, 0x0⟩
def F.siloPendPopPend : Fld := ⟨63, 1, .roh, 0x0⟩
def F.clNquotaNsBase : Fld := ⟨0, 13, .rws, 0x0⟩
def F.clNquotaNsRows : Fld := ⟨16, 14, .rws, 0x0⟩
def F.clLquotaLoftBase : Fld := ⟨0, 20, .rws, 0x0⟩
def F.clLquotaLoftRows : Fld := ⟨32, 21, .rws, 0x0⟩
def F.clCcCtrlInvalidate : Fld := ⟨0, 1, .wo, 0x0⟩
def F.clCcCtrlInvBusy : Fld := ⟨1, 1, .roh, 0x0⟩
def F.clScrubPatrolEn : Fld := ⟨0, 1, .rws, 0x1⟩
def F.clScrubLoftLog2 : Fld := ⟨4, 3, .rws, 0x4⟩
def F.clMemLogValid : Fld := ⟨0, 1, .w1c, 0x0⟩
def F.clMemLogLoft : Fld := ⟨1, 1, .roh, 0x0⟩
def F.clMemLogTagpar : Fld := ⟨2, 1, .roh, 0x0⟩
def F.clMemLogCore : Fld := ⟨4, 3, .roh, 0x0⟩
def F.clMemLogRow : Fld := ⟨7, 20, .roh, 0x0⟩
def F.clMemLogAtBeat : Fld := ⟨32, 32, .roh, 0x0⟩
def F.grnCfgScrubEn : Fld := ⟨0, 1, .rws, 0x1⟩
def F.grnCfgScrubLog2 : Fld := ⟨4, 3, .rws, 0x3⟩
def F.grnStatusTrained : Fld := ⟨0, 1, .roh, 0x0⟩
def F.grnStatusEpochClearing : Fld := ⟨1, 1, .roh, 0x0⟩
def F.grnStatusBringups : Fld := ⟨4, 4, .roh, 0x0⟩
def F.grnStatusBringupQueued : Fld := ⟨16, 16, .roh, 0x0⟩
def F.grnErrLogValid : Fld := ⟨0, 1, .w1c, 0x0⟩
def F.grnErrLogDevice : Fld := ⟨2, 3, .roh, 0x0⟩
def F.grnErrLogChannel : Fld := ⟨5, 3, .roh, 0x0⟩
def F.grnErrLogAtBeat : Fld := ⟨32, 32, .roh, 0x0⟩
def F.grnErrRowRow : Fld := ⟨0, 25, .roh, 0x0⟩
def F.grnNormNormsq : Fld := ⟨0, 32, .roh, 0x0⟩
def F.grnNormStep : Fld := ⟨32, 32, .roh, 0x0⟩
def F.grnFinalRows : Fld := ⟨0, 40, .roh, 0x0⟩
def F.dmaChcfgMode : Fld := ⟨0, 2, .rws, 0x0⟩
def F.dmaChcfgJob : Fld := ⟨4, 4, .rws, 0x0⟩
def F.dmaChcfgCsLoft : Fld := ⟨8, 1, .rws, 0x0⟩
def F.dmaChcfgCsCore : Fld := ⟨9, 3, .rws, 0x0⟩
def F.dmaChcfgCsSilo : Fld := ⟨12, 8, .rws, 0x0⟩
def F.dmaRingRingBase : Fld := ⟨0, 20, .rws, 0x0⟩
def F.dmaRingRingLog2 : Fld := ⟨24, 5, .rws, 0x4⟩
def F.dmaRingPtrFetch : Fld := ⟨0, 32, .roh, 0x0⟩
def F.dmaRingPtrLimit : Fld := ⟨32, 32, .roh, 0x0⟩
def F.dmaSrcAddr : Fld := ⟨0, 56, .rw, 0x0⟩
def F.dmaCntRows : Fld := ⟨0, 24, .rw, 0x0⟩
def F.dmaCntOverwrite : Fld := ⟨24, 1, .rw, 0x0⟩
def F.dmaCntTake : Fld := ⟨25, 1, .rw, 0x0⟩
def F.dmaCtrlStart : Fld := ⟨0, 1, .w1s, 0x0⟩
def F.dmaCtrlResume : Fld := ⟨1, 1, .wo, 0x0⟩
def F.dmaCtrlAbandon : Fld := ⟨2, 1, .wo, 0x0⟩
def F.dmaCtrlRestart : Fld := ⟨3, 1, .wo, 0x0⟩
def F.dmaCtrlState : Fld := ⟨4, 3, .roh, 0x0⟩
def F.dmaCtrlQueued : Fld := ⟨8, 5, .roh, 0x0⟩
def F.dmaCtrlInflight : Fld := ⟨16, 7, .roh, 0x0⟩
def F.dmaLastRecord : Fld := ⟨0, 64, .roh, 0x0⟩
def F.winCmdWord : Fld := ⟨0, 64, .rw, 0x0⟩
def F.winCtrlGo : Fld := ⟨0, 1, .wo, 0x0⟩
def F.winCtrlRelease : Fld := ⟨1, 1, .wo, 0x0⟩
def F.winCtrlWithhold : Fld := ⟨2, 1, .wo, 0x0⟩
def F.winStatusState : Fld := ⟨0, 3, .roh, 0x0⟩
def F.winStatusFailStatus : Fld := ⟨8, 8, .roh, 0x0⟩
def F.winStatusRecord : Fld := ⟨16, 12, .roh, 0x0⟩
def F.winStatusGranule : Fld := ⟨32, 32, .roh, 0x0⟩
def F.winSkewLogValid : Fld := ⟨0, 1, .w1c, 0x0⟩
def F.winSkewLogNorm : Fld := ⟨1, 1, .roh, 0x0⟩
def F.winSkewLogRecord : Fld := ⟨4, 12, .roh, 0x0⟩
def F.winSkewLogFound : Fld := ⟨16, 48, .roh, 0x0⟩
def F.seqShareFirst : Fld := ⟨0, 14, .rws, 0x0⟩
def F.seqShareCount : Fld := ⟨16, 15, .rws, 0x0⟩
def F.seqShareJob : Fld := ⟨32, 4, .rws, 0x0⟩
def F.seqShareEn : Fld := ⟨36, 1, .rws, 0x0⟩
def F.seqPoolClFirst : Fld := ⟨0, 9, .rws, 0x0⟩
def F.seqPoolClCount : Fld := ⟨9, 9, .rws, 0x0⟩
def F.seqPoolLoftBase : Fld := ⟨18, 20, .rws, 0x0⟩
def F.seqPoolSets : Fld := ⟨40, 16, .rws, 0x0⟩
def F.seqSetSetPages : Fld := ⟨0, 14, .rws, 0x0⟩
def F.seqSetPtLog2 : Fld := ⟨16, 4, .rws, 0x4⟩
def F.seqSetSpillTensor : Fld := ⟨20, 15, .rws, 0x0⟩
def F.seqSetSpillSets : Fld := ⟨40, 24, .rws, 0x0⟩
def F.seqStepTokenBudget : Fld := ⟨0, 15, .rws, 0x2000⟩
def F.seqStepChunk : Fld := ⟨16, 6, .rws, 0x4⟩
def F.seqStepMaxRun : Fld := ⟨22, 15, .rws, 0x0⟩
def F.seqStepSpecK : Fld := ⟨40, 3, .rws, 0x0⟩
def F.seqStepGenPolicy : Fld := ⟨43, 1, .rws, 0x0⟩
def F.seqStepView : Fld := ⟨44, 15, .rws, 0x0⟩
def F.seqRowsMapBase : Fld := ⟨0, 20, .rws, 0x0⟩
def F.seqRowsMapRows : Fld := ⟨20, 7, .rws, 0x1⟩
def F.seqRowsPlanBase : Fld := ⟨28, 20, .rws, 0x0⟩
def F.seqStatusAdmitted : Fld := ⟨0, 15, .roh, 0x0⟩
def F.seqStatusQueued : Fld := ⟨16, 15, .roh, 0x0⟩
def F.seqStatusStep : Fld := ⟨32, 32, .roh, 0x0⟩
def F.seqFreeLoftFree : Fld := ⟨0, 24, .roh, 0x0⟩
def F.seqFreeSpillFree : Fld := ⟨24, 24, .roh, 0x0⟩
def F.mgtPartRow0 : Fld := ⟨0, 3, .rws, 0x0⟩
def F.mgtPartCol0 : Fld := ⟨4, 3, .rws, 0x0⟩
def F.mgtPartRows : Fld := ⟨8, 3, .rws, 0x0⟩
def F.mgtPartCols : Fld := ⟨12, 3, .rws, 0x0⟩
def F.mgtPartEn : Fld := ⟨16, 1, .rws, 0x0⟩
def F.mgtPartState : Fld := ⟨17, 3, .roh, 0x0⟩
def F.mgtPartJobs : Fld := ⟨20, 5, .roh, 0x0⟩
def F.dspJobRun : Fld := ⟨0, 1, .rws, 0x0⟩
def F.dspJobFrozen : Fld := ⟨1, 1, .rws, 0x0⟩
def F.dspJobShares : Fld := ⟨16, 16, .rws, 0x0⟩
def F.dspUsedUsed : Fld := ⟨0, 64, .roh, 0x0⟩
def F.dspAcctAcct : Fld := ⟨0, 64, .roh, 0x0⟩
def F.pwrLimitWatts : Fld := ⟨0, 15, .rws, 0x55f0⟩
def F.pwrCfgBankBeats : Fld := ⟨0, 4, .rws, 0x4⟩
def F.pwrWeightWeight : Fld := ⟨0, 8, .rws, 0x1⟩
def F.pwrStatusFixed : Fld := ⟨0, 15, .roh, 0x0⟩
def F.pwrStatusBudget : Fld := ⟨16, 15, .roh, 0x0⟩
def F.pwrStatusResting : Fld := ⟨32, 4, .roh, 0x0⟩
def F.gateCfgFabricId : Fld := ⟨0, 16, .rws, 0xffff⟩
def F.gateCfgTimeoutUs : Fld := ⟨16, 16, .rws, 0x3e8⟩
def F.gateNackBurst : Fld := ⟨0, 16, .rws, 0x100⟩
def F.gateNackRate : Fld := ⟨16, 16, .rws, 0x40⟩
def F.gateOtInUse : Fld := ⟨0, 14, .roh, 0x0⟩
def F.gateOtParked : Fld := ⟨16, 11, .roh, 0x0⟩
def F.gatePortEn : Fld := ⟨0, 1, .rws, 0x0⟩
def F.gatePortEncrypt : Fld := ⟨1, 1, .rws, 0x0⟩
def F.gatePortRekey : Fld := ⟨2, 1, .rws, 0x0⟩
def F.gatePortPartner : Fld := ⟨16, 16, .rws, 0xffff⟩
def F.gatePortState : Fld := ⟨32, 3, .roh, 0x0⟩
def F.gatePortReason : Fld := ⟨40, 4, .roh, 0x0⟩
def F.gatePkhashHash : Fld := ⟨0, 64, .rws, 0x0⟩
def F.mbxDataData : Fld := ⟨0, 64, .rw, 0x0⟩
def F.mbxSenderSender : Fld := ⟨0, 16, .roh, 0x0⟩
def F.mbxStatusFull : Fld := ⟨0, 64, .roh, 0x0⟩
def F.mbxWaitWaiting : Fld := ⟨0, 64, .roh, 0x0⟩
def F.mbxIntenEn : Fld := ⟨0, 64, .rw, 0x0⟩
def F.mbxTimeoutMs : Fld := ⟨0, 10, .rw, 0xa⟩
def F.mbxToutLogValid : Fld := ⟨0, 1, .w1c, 0x0⟩
def F.mbxToutLogMailbox : Fld := ⟨1, 6, .roh, 0x0⟩
def F.mbxToutLogReason : Fld := ⟨8, 2, .roh, 0x0⟩
def F.mbxToutLogSender : Fld := ⟨16, 16, .roh, 0x0⟩
def F.mbxToutLogAtBeat : Fld := ⟨32, 32, .roh, 0x0⟩
def F.mbxLockOwner : Fld := ⟨0, 16, .rw, 0x0⟩
def F.mbxLockForce : Fld := ⟨31, 1, .wo, 0x0⟩
def F.atbSelEn : Fld := ⟨0, 1, .rws, 0x0⟩
def F.atbSelSite : Fld := ⟨1, 2, .rws, 0x0⟩
def F.atbSelIndex : Fld := ⟨3, 6, .rws, 0x0⟩
def F.atbSelSource : Fld := ⟨10, 6, .rws, 0x0⟩
def F.atbReadCode : Fld := ⟨0, 16, .roh, 0x0⟩
def F.atbReadValid : Fld := ⟨16, 1, .roh, 0x0⟩
def F.dspSuspectCores : Fld := ⟨0, 8, .rwi, 0x0⟩
def F.dmaDstAddr : Fld := ⟨0, 56, .rw, 0x0⟩
def F.armArm : Fld := ⟨0, 1, .w1s, 0⟩
def F.armDisarm : Fld := ⟨1, 1, .wo, 0⟩
def F.applyState : Fld := ⟨0, 3, .roh, 0⟩
def F.applyRule : Fld := ⟨8, 8, .roh, 0⟩
def F.applyAtBeat : Fld := ⟨32, 32, .roh, 0⟩

/-- The registers, each with the unit it belongs to: `c` device core, `e` device engine, `cl` device cluster, `g` granary
or gate, `p` partition or device port, `b` mailbox block, the last argument the register's own index. -/
inductive Reg where
  | beatCtrl
  | beatLen
  | beatNumber
  | beatNumberSet
  | beatSync
  | coArith (c : Nat)
  | coRngSeed (c : Nat)
  | coRngStatus (c : Nat)
  | coArithFlags (c : Nat)
  | coSlots (c : Nat)
  | coFaultLog (c : Nat)
  | coFaultAddr (c : Nat)
  | coFaultTask (c : Nat)
  | coGaBase (c : Nat) (t : Nat)
  | coGaShape (c : Nat) (t : Nat)
  | meCfg (e : Nat)
  | meStatus (e : Nat)
  | meTallyLog (e : Nat)
  | meSuspect (e : Nat)
  | meSpLog (e : Nat)
  | vuCfg (c : Nat)
  | vuStatus (c : Nat)
  | mvpCfg (c : Nat)
  | mvpStatus (c : Nat)
  | mvpGlCfg (c : Nat)
  | mvpGlThresh (c : Nat)
  | mvpGlAct (c : Nat)
  | siloCfg (c : Nat) (n : Nat)
  | siloPtr (c : Nat) (n : Nat)
  | siloPend (c : Nat) (n : Nat)
  | siloLcfg (cl : Nat) (n : Nat)
  | siloLptr (cl : Nat) (n : Nat)
  | siloLpend (cl : Nat) (n : Nat)
  | clNquota (cl : Nat) (j : Nat)
  | clLquota (cl : Nat) (j : Nat)
  | clCcCtrl (cl : Nat)
  | clScrub (cl : Nat)
  | clMemLog (cl : Nat)
  | dspSuspect (cl : Nat)
  | dspJob (cl : Nat) (j : Nat)
  | dspUsed (cl : Nat) (j : Nat)
  | dspAcct (cl : Nat) (j : Nat)
  | dmaChcfg (cl : Nat) (n : Nat)
  | dmaRing (cl : Nat) (n : Nat)
  | dmaRingPtr (cl : Nat) (n : Nat)
  | dmaSrc (cl : Nat) (n : Nat)
  | dmaDst (cl : Nat) (n : Nat)
  | dmaCnt (cl : Nat) (n : Nat)
  | dmaCtrl (cl : Nat) (n : Nat)
  | dmaLast (cl : Nat) (n : Nat)
  | grnCfg (g : Nat)
  | grnStatus (g : Nat)
  | grnErrLog (g : Nat)
  | grnErrRow (g : Nat)
  | grnNorm (g : Nat) (j : Nat)
  | grnFinal (g : Nat) (j : Nat)
  | winCmd (g : Nat) (k : Nat)
  | winCtrl (g : Nat)
  | winStatus (g : Nat)
  | winSkewLog (g : Nat)
  | seqShare (p : Nat)
  | seqPool (p : Nat)
  | seqSet (p : Nat)
  | seqStep (p : Nat)
  | seqRows (p : Nat)
  | seqStatus (p : Nat)
  | seqFree (p : Nat)
  | mgtPart (p : Nat)
  | pwrLimit
  | pwrCfg
  | pwrWeight (p : Nat)
  | pwrStatus
  | gateCfg (g : Nat)
  | gateNack (g : Nat)
  | gateOt (g : Nat)
  | gatePort (p : Nat)
  | gatePkhash (p : Nat) (k : Nat)
  | mbxData (b : MbxBlk) (n : Nat)
  | mbxSender (b : MbxBlk) (n : Nat)
  | mbxStatus (b : MbxBlk)
  | mbxWait (b : MbxBlk)
  | mbxInten (b : MbxBlk)
  | mbxTimeout (b : MbxBlk)
  | mbxToutLog (b : MbxBlk)
  | mbxLock (b : MbxBlk) (k : Nat)
  | atbSel (k : Nat)
  | atbRead (k : Nat)
  | arm (k : Blk)
  | apply (k : Blk)
  | ttEntry (g n k : Nat)
  | hatchEntry (g n k : Nat)
  | layer (g n k : Nat)
  | winState (g n k : Nat)
  | seqEntry (n k : Nat)
  deriving DecidableEq, Repr

/-- Space 0x3 (Table 1-8) with SITE, INDEX, UNIT and CORE (Table 1-9). -/
def regBase (site index unit core : Nat) : Nat :=
  0x30000000000000 + site * 0x10000000000 + index * 0x400000000 + unit * 0x40000000 + core * 0x4000000

def mgtBase : Nat := regBase 3 0 0 15
/-- A core's registers; cores 2,304 and up are the fallow cores, one per cluster (CORE 0xE). -/
def coreBase (c : Nat) : Nat :=
  if c < 2304 then regBase 0 (c / 64) (c / 8 % 8 + 1) (c % 8)
  else regBase 0 ((c - 2304) / 8) ((c - 2304) % 8 + 1) 14
/-- ME0's registers of a core, ME1's 0x200 above them. -/
def engBase (e : Nat) : Nat := coreBase (e / 2) + 0x200 * (e % 2)
def clBase (cl : Nat) : Nat := regBase 0 (cl / 8) (cl % 8 + 1) 15
def grnBase (g : Nat) : Nat := regBase 1 g 0 15
def gateBase (g : Nat) : Nat := regBase 2 g 0 15

def mbxBase : MbxBlk → Nat
  | .mgmt => mgtBase
  | .die d => regBase 0 d 0 15
  | .granary g => grnBase g
  | .gate g => gateBase g
  | .cluster cl => clBase cl

/-- The ARM register of a block (R51; offsets with each block's registers); APPLY lies 8 above it. -/
def armAddr : Blk → Nat
  | .beat => mgtBase + 0xF0
  | .co c => coreBase c + 0xF0
  | .me e => engBase e + 0x4F0
  | .vu c => coreBase c + 0x8F0
  | .mvp c => coreBase c + 0xAF0
  | .silo c => coreBase c + 0x18F0
  | .loftSilo cl => clBase cl + 0x40F0
  | .cl cl => clBase cl + 0x2F0
  | .dma cl => clBase cl + 0x88F0
  | .dsp cl => clBase cl + 0x6F0
  | .grn g => grnBase g + 0xF0
  | .tt g => grnBase g + 0x2F0
  | .win g => grnBase g + 0x4F0
  | .seq => mgtBase + 0x33F0
  | .gate g => gateBase g + 0xF0
  | .hatch g => gateBase g + 0x10F0
  | .pwr => mgtBase + 0x10F0
  | .mgt => mgtBase + 0x20F0
  | .atb => mgtBase + 0x40F0

/-- The device address of a register. Each granary has its replica of the tensor table and of the layer table, each gate its replica of
the hatch table (R218, R286, R337). -/
def Reg.addr : Reg → Nat
  | .beatCtrl => mgtBase
  | .beatLen => mgtBase + (0x8)
  | .beatNumber => mgtBase + (0x10)
  | .beatNumberSet => mgtBase + (0x18)
  | .beatSync => mgtBase + (0x20)
  | .coArith c => coreBase c + (0x200)
  | .coRngSeed c => coreBase c + (0x208)
  | .coRngStatus c => coreBase c + (0x210)
  | .coArithFlags c => coreBase c + (0x218)
  | .coSlots c => coreBase c + (0x100)
  | .coFaultLog c => coreBase c + (0x108)
  | .coFaultAddr c => coreBase c + (0x110)
  | .coFaultTask c => coreBase c + (0x118)
  | .coGaBase c t => coreBase c + (0x300 + 0x10 * t)
  | .coGaShape c t => coreBase c + (0x308 + 0x10 * t)
  | .meCfg e => engBase e + (0x400)
  | .meStatus e => engBase e + (0x408)
  | .meTallyLog e => engBase e + (0x410)
  | .meSuspect e => engBase e + (0x418)
  | .meSpLog e => engBase e + (0x420)
  | .vuCfg c => coreBase c + (0x800)
  | .vuStatus c => coreBase c + (0x808)
  | .mvpCfg c => coreBase c + (0xA00)
  | .mvpStatus c => coreBase c + (0xA08)
  | .mvpGlCfg c => coreBase c + (0xA10)
  | .mvpGlThresh c => coreBase c + (0xA18)
  | .mvpGlAct c => coreBase c + (0xA20)
  | .siloCfg c n => coreBase c + (0x1000 + 0x20 * n)
  | .siloPtr c n => coreBase c + (0x1008 + 0x20 * n)
  | .siloPend c n => coreBase c + (0x1010 + 0x20 * n)
  | .siloLcfg cl n => clBase cl + (0x2000 + 0x20 * n)
  | .siloLptr cl n => clBase cl + (0x2008 + 0x20 * n)
  | .siloLpend cl n => clBase cl + (0x2010 + 0x20 * n)
  | .clNquota cl j => clBase cl + (0x100 + 0x10 * j)
  | .clLquota cl j => clBase cl + (0x108 + 0x10 * j)
  | .clCcCtrl cl => clBase cl + (0x200)
  | .clScrub cl => clBase cl + (0x208)
  | .clMemLog cl => clBase cl + (0x210)
  | .dspSuspect cl => clBase cl + (0x40)
  | .dspJob cl j => clBase cl + (0x400 + 0x20 * j)
  | .dspUsed cl j => clBase cl + (0x408 + 0x20 * j)
  | .dspAcct cl j => clBase cl + (0x410 + 0x20 * j)
  | .dmaChcfg cl n => clBase cl + (0x8000 + 0x40 * n)
  | .dmaRing cl n => clBase cl + (0x8008 + 0x40 * n)
  | .dmaRingPtr cl n => clBase cl + (0x8010 + 0x40 * n)
  | .dmaSrc cl n => clBase cl + (0x8018 + 0x40 * n)
  | .dmaDst cl n => clBase cl + (0x8020 + 0x40 * n)
  | .dmaCnt cl n => clBase cl + (0x8028 + 0x40 * n)
  | .dmaCtrl cl n => clBase cl + (0x8030 + 0x40 * n)
  | .dmaLast cl n => clBase cl + (0x8038 + 0x40 * n)
  | .grnCfg g => grnBase g
  | .grnStatus g => grnBase g + (0x8)
  | .grnErrLog g => grnBase g + (0x10)
  | .grnErrRow g => grnBase g + (0x18)
  | .grnNorm g j => grnBase g + (0x100 + 0x10 * j)
  | .grnFinal g j => grnBase g + (0x108 + 0x10 * j)
  | .winCmd g k => grnBase g + (0x500 + 8 * k)
  | .winCtrl g => grnBase g + (0x540)
  | .winStatus g => grnBase g + (0x548)
  | .winSkewLog g => grnBase g + (0x550)
  | .seqShare p => mgtBase + (0x3000 + 0x40 * p)
  | .seqPool p => mgtBase + (0x3008 + 0x40 * p)
  | .seqSet p => mgtBase + (0x3010 + 0x40 * p)
  | .seqStep p => mgtBase + (0x3018 + 0x40 * p)
  | .seqRows p => mgtBase + (0x3020 + 0x40 * p)
  | .seqStatus p => mgtBase + (0x3028 + 0x40 * p)
  | .seqFree p => mgtBase + (0x3030 + 0x40 * p)
  | .mgtPart p => mgtBase + (0x2000 + 0x10 * p)
  | .pwrLimit => mgtBase + (0x1000)
  | .pwrCfg => mgtBase + (0x1008)
  | .pwrWeight p => mgtBase + (0x1010 + 8 * p)
  | .pwrStatus => mgtBase + (0x1070)
  | .gateCfg g => gateBase g
  | .gateNack g => gateBase g + (0x8)
  | .gateOt g => gateBase g + (0x10)
  | .gatePort p => gateBase (p / 3) + (0x100 + 0x100 * (p % 3))
  | .gatePkhash p k => gateBase (p / 3) + (0x140 + 0x100 * (p % 3) + 8 * k)
  | .mbxData b n => mbxBase b + (0x5000 + 8 * n)
  | .mbxSender b n => mbxBase b + (0x5200 + 8 * n)
  | .mbxStatus b => mbxBase b + (0x5400)
  | .mbxWait b => mbxBase b + (0x5408)
  | .mbxInten b => mbxBase b + (0x5410)
  | .mbxTimeout b => mbxBase b + (0x5418)
  | .mbxToutLog b => mbxBase b + (0x5420)
  | .mbxLock b k => mbxBase b + (0x5500 + 8 * k)
  | .atbSel k => mgtBase + (0x4000 + 8 * k)
  | .atbRead k => mgtBase + (0x4010 + 8 * k)
  | .arm k => armAddr k
  | .apply k => armAddr k + 8
  | .ttEntry g n k => grnBase g + 0x100000 + 64 * n + 8 * k
  | .hatchEntry g n k => gateBase g + 0x80000 + 64 * n + 8 * k
  | .layer g n k => grnBase g + 0x400000 + 64 * n + 8 * k
  | .winState g n k => grnBase g + 0x480000 + 32 * n + 8 * k
  | .seqEntry n k => mgtBase + 0x200000 + 32 * n + 8 * k

/-- Fields of the words of a tensor-table entry (Table 9-5). -/
def ttFields : Nat → List Fld
  | 0 => [⟨0, 1, .rws, 0⟩, ⟨1, 4, .rws, 0⟩, ⟨5, 4, .rws, 0⟩, ⟨9, 2, .rws, 0⟩, ⟨11, 1, .rws, 0⟩, ⟨12, 8, .roh, 0⟩,
      ⟨20, 2, .roh, 0⟩, ⟨22, 1, .rws, 0⟩, ⟨23, 1, .rws, 0⟩, ⟨24, 3, .rws, 0⟩, ⟨27, 1, .rws, 0⟩, ⟨28, 1, .rws, 0⟩,
      ⟨32, 16, .rws, 0⟩, ⟨48, 15, .rws, 0⟩]
  | 1 => [⟨0, 45, .rws, 0⟩]
  | 2 => [⟨0, 36, .rws, 0⟩]
  | 3 => [⟨0, 9, .rws, 0⟩, ⟨9, 9, .rws, 0⟩, ⟨18, 20, .rws, 0⟩, ⟨38, 4, .rws, 0⟩]
  | 4 => [⟨0, 15, .rws, 0⟩, ⟨16, 8, .roh, 0⟩, ⟨24, 8, .rws, 0⟩]
  | _ => []

/-- Fields of the words of a hatch entry (Table 15-6). -/
def hatchFields : Nat → List Fld
  | 0 => [⟨0, 2, .rws, 0⟩, ⟨2, 1, .rws, 0⟩, ⟨3, 1, .rws, 0⟩, ⟨4, 1, .rws, 0⟩, ⟨5, 1, .rws, 0⟩, ⟨8, 4, .rws, 0⟩,
      ⟨12, 4, .rws, 0⟩, ⟨16, 8, .roh, 0⟩, ⟨24, 4, .rws, 0⟩, ⟨32, 32, .rws, 0⟩]
  | 1 => [⟨0, 56, .rws, 0⟩]
  | 2 => [⟨0, 26, .rws, 0⟩]
  | 3 => [⟨0, 64, .rws, 0⟩]
  | 4 => [⟨0, 64, .rws, 0⟩]
  | _ => []

/-- Fields of the words of a layer record (Table 12-3). -/
def layerFields : Nat → List Fld
  | 0 => [⟨0, 1, .rws, 0⟩, ⟨1, 4, .rws, 0⟩, ⟨5, 1, .rws, 0⟩, ⟨6, 1, .rws, 0⟩, ⟨7, 1, .rws, 0⟩, ⟨8, 1, .rws, 0⟩,
      ⟨16, 8, .rws, 0⟩, ⟨24, 40, .rws, 0⟩]
  | 1 => [⟨0, 60, .rws, 0⟩]
  | 2 => [⟨0, 60, .rws, 0⟩]
  | 3 => [⟨0, 64, .rws, 0⟩]
  | 4 => [⟨0, 32, .rws, 0⟩]
  | _ => []

/-- Fields of the words of a winnower state entry (Table 12-4). -/
def winStateFields : Nat → List Fld
  | 0 => [⟨0, 48, .rwi, 0⟩]
  | 1 => [⟨0, 48, .rwi, 0⟩]
  | 2 => [⟨0, 64, .rwi, 0⟩]
  | 3 => [⟨0, 48, .rwi, 0⟩]
  | _ => []

/-- The fields of each register. -/
def Reg.fields : Reg → List Fld
  | .beatCtrl => [F.beatCtrlRun, F.beatCtrlCarryLimit]
  | .beatLen => [F.beatLenLog2, F.beatLenCycles]
  | .beatNumber => [F.beatNumberNumber]
  | .beatNumberSet => [F.beatNumberSetValue]
  | .beatSync => [F.beatSyncMode, F.beatSyncInDelay, F.beatSyncLocked, F.beatSyncLockLost, F.beatSyncMarkSkew, F.beatSyncPhaseErr]
  | .coArith _ => [F.coArithRoundDefault, F.coArithSat, F.coArithTrapNv, F.coArithTrapOf, F.coArithRngMode]
  | .coRngSeed _ => [F.coRngSeedSeed]
  | .coRngStatus _ => [F.coRngStatusFallback, F.coRngStatusFail, F.coRngStatusSeeded, F.coRngStatusFailCount]
  | .coArithFlags _ => [F.coArithFlagsNi, F.coArithFlagsNv, F.coArithFlagsOf, F.coArithFlagsUf]
  | .coSlots _ => [F.coSlotsSlot0, F.coSlotsSlot1, F.coSlotsSlot2, F.coSlotsSlot3, F.coSlotsIssuing, F.coSlotsIdle, F.coSlotsRetired]
  | .coFaultLog _ => [F.coFaultLogValid, F.coFaultLogCause, F.coFaultLogPc, F.coFaultLogSlot, F.coFaultLogAtBeat]
  | .coFaultAddr _ => [F.coFaultAddrAddr]
  | .coFaultTask _ => [F.coFaultTaskTaskId, F.coFaultTaskJob]
  | .coGaBase _ _ => [F.coGaBaseBase]
  | .coGaShape _ _ => [F.coGaShapeEntries, F.coGaShapeStride]
  | .meCfg _ => [F.meCfgTallyEn, F.meCfgTolRelExp, F.meCfgTolAbsExp]
  | .meStatus _ => [F.meStatusOwned, F.meStatusStaging, F.meStatusShifting, F.meStatusPass, F.meStatusDraining, F.meStatusOwnerSlot, F.meStatusFeedMin]
  | .meTallyLog _ => [F.meTallyLogValid, F.meTallyLogKind, F.meTallyLogColumn, F.meTallyLogRow, F.meTallyLogFails, F.meTallyLogAtBeat]
  | .meSuspect _ => [F.meSuspectCount]
  | .meSpLog _ => [F.meSpLogValid, F.meSpLogKind, F.meSpLogRow, F.meSpLogAtBeat]
  | .vuCfg _ => [F.vuCfgTxFast, F.vuCfgNbwdOverlap]
  | .vuStatus _ => [F.vuStatusBufOwned, F.vuStatusBufSlot, F.vuStatusTxBusy, F.vuStatusBufLines]
  | .mvpCfg _ => [F.mvpCfgReadAhead]
  | .mvpStatus _ => [F.mvpStatusOwned, F.mvpStatusOwnerSlot, F.mvpStatusRunning, F.mvpStatusStrip]
  | .mvpGlCfg _ => [F.mvpGlCfgEn, F.mvpGlCfgAuditEn, F.mvpGlCfgAuditLog2]
  | .mvpGlThresh _ => [F.mvpGlThreshThresh]
  | .mvpGlAct _ => [F.mvpGlActAct]
  | .siloCfg _ _ => [F.siloCfgBaseRow, F.siloCfgSizeRows, F.siloCfgJob, F.siloCfgEn, F.siloCfgProd, F.siloCfgCons]
  | .siloPtr _ _ => [F.siloPtrHead, F.siloPtrTail]
  | .siloPend _ _ => [F.siloPendHeadPend, F.siloPendTailPend, F.siloPendPushCore, F.siloPendPushPend, F.siloPendPopCore, F.siloPendPopPend]
  | .siloLcfg _ _ => [F.siloCfgBaseRow, F.siloCfgSizeRows, F.siloCfgJob, F.siloCfgEn, F.siloCfgProd, F.siloCfgCons]
  | .siloLptr _ _ => [F.siloPtrHead, F.siloPtrTail]
  | .siloLpend _ _ => [F.siloPendHeadPend, F.siloPendTailPend, F.siloPendPushCore, F.siloPendPushPend, F.siloPendPopCore, F.siloPendPopPend]
  | .clNquota _ _ => [F.clNquotaNsBase, F.clNquotaNsRows]
  | .clLquota _ _ => [F.clLquotaLoftBase, F.clLquotaLoftRows]
  | .clCcCtrl _ => [F.clCcCtrlInvalidate, F.clCcCtrlInvBusy]
  | .clScrub _ => [F.clScrubPatrolEn, F.clScrubLoftLog2]
  | .clMemLog _ => [F.clMemLogValid, F.clMemLogLoft, F.clMemLogTagpar, F.clMemLogCore, F.clMemLogRow, F.clMemLogAtBeat]
  | .dspSuspect _ => [F.dspSuspectCores]
  | .dspJob _ _ => [F.dspJobRun, F.dspJobFrozen, F.dspJobShares]
  | .dspUsed _ _ => [F.dspUsedUsed]
  | .dspAcct _ _ => [F.dspAcctAcct]
  | .dmaChcfg _ _ => [F.dmaChcfgMode, F.dmaChcfgJob, F.dmaChcfgCsLoft, F.dmaChcfgCsCore, F.dmaChcfgCsSilo]
  | .dmaRing _ _ => [F.dmaRingRingBase, F.dmaRingRingLog2]
  | .dmaRingPtr _ _ => [F.dmaRingPtrFetch, F.dmaRingPtrLimit]
  | .dmaSrc _ _ => [F.dmaSrcAddr]
  | .dmaDst _ _ => [F.dmaDstAddr]
  | .dmaCnt _ _ => [F.dmaCntRows, F.dmaCntOverwrite, F.dmaCntTake]
  | .dmaCtrl _ _ => [F.dmaCtrlStart, F.dmaCtrlResume, F.dmaCtrlAbandon, F.dmaCtrlRestart, F.dmaCtrlState, F.dmaCtrlQueued, F.dmaCtrlInflight]
  | .dmaLast _ _ => [F.dmaLastRecord]
  | .grnCfg _ => [F.grnCfgScrubEn, F.grnCfgScrubLog2]
  | .grnStatus _ => [F.grnStatusTrained, F.grnStatusEpochClearing, F.grnStatusBringups, F.grnStatusBringupQueued]
  | .grnErrLog _ => [F.grnErrLogValid, F.grnErrLogDevice, F.grnErrLogChannel, F.grnErrLogAtBeat]
  | .grnErrRow _ => [F.grnErrRowRow]
  | .grnNorm _ _ => [F.grnNormNormsq, F.grnNormStep]
  | .grnFinal _ _ => [F.grnFinalRows]
  | .winCmd _ _ => [F.winCmdWord]
  | .winCtrl _ => [F.winCtrlGo, F.winCtrlRelease, F.winCtrlWithhold]
  | .winStatus _ => [F.winStatusState, F.winStatusFailStatus, F.winStatusRecord, F.winStatusGranule]
  | .winSkewLog _ => [F.winSkewLogValid, F.winSkewLogNorm, F.winSkewLogRecord, F.winSkewLogFound]
  | .seqShare _ => [F.seqShareFirst, F.seqShareCount, F.seqShareJob, F.seqShareEn]
  | .seqPool _ => [F.seqPoolClFirst, F.seqPoolClCount, F.seqPoolLoftBase, F.seqPoolSets]
  | .seqSet _ => [F.seqSetSetPages, F.seqSetPtLog2, F.seqSetSpillTensor, F.seqSetSpillSets]
  | .seqStep _ => [F.seqStepTokenBudget, F.seqStepChunk, F.seqStepMaxRun, F.seqStepSpecK, F.seqStepGenPolicy, F.seqStepView]
  | .seqRows _ => [F.seqRowsMapBase, F.seqRowsMapRows, F.seqRowsPlanBase]
  | .seqStatus _ => [F.seqStatusAdmitted, F.seqStatusQueued, F.seqStatusStep]
  | .seqFree _ => [F.seqFreeLoftFree, F.seqFreeSpillFree]
  | .mgtPart _ => [F.mgtPartRow0, F.mgtPartCol0, F.mgtPartRows, F.mgtPartCols, F.mgtPartEn, F.mgtPartState, F.mgtPartJobs]
  | .pwrLimit => [F.pwrLimitWatts]
  | .pwrCfg => [F.pwrCfgBankBeats]
  | .pwrWeight _ => [F.pwrWeightWeight]
  | .pwrStatus => [F.pwrStatusFixed, F.pwrStatusBudget, F.pwrStatusResting]
  | .gateCfg _ => [F.gateCfgFabricId, F.gateCfgTimeoutUs]
  | .gateNack _ => [F.gateNackBurst, F.gateNackRate]
  | .gateOt _ => [F.gateOtInUse, F.gateOtParked]
  | .gatePort _ => [F.gatePortEn, F.gatePortEncrypt, F.gatePortRekey, F.gatePortPartner, F.gatePortState, F.gatePortReason]
  | .gatePkhash _ _ => [F.gatePkhashHash]
  | .mbxData _ _ => [F.mbxDataData]
  | .mbxSender _ _ => [F.mbxSenderSender]
  | .mbxStatus _ => [F.mbxStatusFull]
  | .mbxWait _ => [F.mbxWaitWaiting]
  | .mbxInten _ => [F.mbxIntenEn]
  | .mbxTimeout _ => [F.mbxTimeoutMs]
  | .mbxToutLog _ => [F.mbxToutLogValid, F.mbxToutLogMailbox, F.mbxToutLogReason, F.mbxToutLogSender, F.mbxToutLogAtBeat]
  | .mbxLock _ _ => [F.mbxLockOwner, F.mbxLockForce]
  | .atbSel _ => [F.atbSelEn, F.atbSelSite, F.atbSelIndex, F.atbSelSource]
  | .atbRead _ => [F.atbReadCode, F.atbReadValid]
  | .arm _ => [F.armArm, F.armDisarm]
  | .apply _ => [F.applyState, F.applyRule, F.applyAtBeat]
  | .ttEntry _ _ k => ttFields k
  | .hatchEntry _ _ k => hatchFields k
  | .layer _ _ k => layerFields k
  | .winState _ _ k => winStateFields k
  | .seqEntry _ _ => [⟨0, 64, .roh, 0⟩]

/-- The block a register with RW-S fields is armed and applied with (R51). -/
def Reg.block : Reg → Option Blk
  | .beatCtrl => some (.beat)
  | .beatLen => some (.beat)
  | .beatNumberSet => some (.beat)
  | .beatSync => some (.beat)
  | .coArith c => some (.co c)
  | .coRngSeed c => some (.co c)
  | .coGaBase c _ => some (.co c)
  | .coGaShape c _ => some (.co c)
  | .meCfg e => some (.me e)
  | .vuCfg c => some (.vu c)
  | .mvpCfg c => some (.mvp c)
  | .mvpGlCfg c => some (.mvp c)
  | .mvpGlThresh c => some (.mvp c)
  | .mvpGlAct c => some (.mvp c)
  | .siloCfg c _ => some (.silo c)
  | .siloLcfg cl _ => some (.loftSilo cl)
  | .clNquota cl _ => some (.cl cl)
  | .clLquota cl _ => some (.cl cl)
  | .clScrub cl => some (.cl cl)
  | .dspJob cl _ => some (.dsp cl)
  | .dmaChcfg cl _ => some (.dma cl)
  | .dmaRing cl _ => some (.dma cl)
  | .grnCfg g => some (.grn g)
  | .seqShare _ => some (.seq)
  | .seqPool _ => some (.seq)
  | .seqSet _ => some (.seq)
  | .seqStep _ => some (.seq)
  | .seqRows _ => some (.seq)
  | .mgtPart _ => some (.mgt)
  | .pwrLimit => some (.pwr)
  | .pwrCfg => some (.pwr)
  | .pwrWeight _ => some (.pwr)
  | .gateCfg g => some (.gate g)
  | .gateNack g => some (.gate g)
  | .gatePort p => some (.gate (p / 3))
  | .gatePkhash p _ => some (.gate (p / 3))
  | .atbSel _ => some (.atb)
  | .ttEntry g _ _ => some (.tt g)
  | .hatchEntry g _ _ => some (.hatch g)
  | .layer g _ _ => some (.win g)
  | _ => none

/-- The word of a list of fields at reset (R7). -/
def fieldsReset (fs : List Fld) : Word :=
  BitVec.ofNat 64 (fs.foldl (fun a f => a + f.reset % 2 ^ f.len * 2 ^ f.lo) 0)

/-- A register's word at reset. -/
def Reg.reset (r : Reg) : Word := fieldsReset r.fields

/-- The mailbox register at an offset of a unit that has a mailbox block (Table 16-5). -/
def mbxRegAt (b : MbxBlk) (o : Nat) : Option Reg :=
  if 0x5000 ≤ o ∧ o < 0x5200 ∧ o % 8 = 0 then some (.mbxData b ((o - 0x5000) / 8)) else
  if 0x5200 ≤ o ∧ o < 0x5400 ∧ o % 8 = 0 then some (.mbxSender b ((o - 0x5200) / 8)) else
  if o = 0x5400 then some (.mbxStatus b) else
  if o = 0x5408 then some (.mbxWait b) else
  if o = 0x5410 then some (.mbxInten b) else
  if o = 0x5418 then some (.mbxTimeout b) else
  if o = 0x5420 then some (.mbxToutLog b) else
  if 0x5500 ≤ o ∧ o < 0x5580 ∧ o % 8 = 0 then some (.mbxLock b ((o - 0x5500) / 8)) else none

/-- The register at an offset of a unit: core level, cluster level, granary, gate, management die. -/
def coreRegAt (c : Nat) (o : Nat) : Option Reg :=
  if o = 0x100 then some (.coSlots c) else
  if o = 0x108 then some (.coFaultLog c) else
  if o = 0x110 then some (.coFaultAddr c) else
  if o = 0x118 then some (.coFaultTask c) else
  if o = 0x200 then some (.coArith c) else
  if o = 0x208 then some (.coRngSeed c) else
  if o = 0x210 then some (.coRngStatus c) else
  if o = 0x218 then some (.coArithFlags c) else
  if 0x300 ≤ o ∧ o < 0x340 ∧ (o - 0x300) % 16 = 0 then some (.coGaBase c ((o - 0x300) / 16)) else
  if 0x308 ≤ o ∧ o < 0x348 ∧ (o - 0x308) % 16 = 0 then some (.coGaShape c ((o - 0x308) / 16)) else
  if o = 0x400 then some (.meCfg (2 * c)) else if o = 0x600 then some (.meCfg (2 * c + 1)) else
  if o = 0x408 then some (.meStatus (2 * c)) else if o = 0x608 then some (.meStatus (2 * c + 1)) else
  if o = 0x410 then some (.meTallyLog (2 * c)) else if o = 0x610 then some (.meTallyLog (2 * c + 1)) else
  if o = 0x418 then some (.meSuspect (2 * c)) else if o = 0x618 then some (.meSuspect (2 * c + 1)) else
  if o = 0x420 then some (.meSpLog (2 * c)) else if o = 0x620 then some (.meSpLog (2 * c + 1)) else
  if o = 0x800 then some (.vuCfg c) else
  if o = 0x808 then some (.vuStatus c) else
  if o = 0xa00 then some (.mvpCfg c) else
  if o = 0xa08 then some (.mvpStatus c) else
  if o = 0xa10 then some (.mvpGlCfg c) else
  if o = 0xa18 then some (.mvpGlThresh c) else
  if o = 0xa20 then some (.mvpGlAct c) else
  if 0x1000 ≤ o ∧ o < 0x1800 ∧ (o - 0x1000) % 32 = 0 then some (.siloCfg c ((o - 0x1000) / 32)) else
  if 0x1008 ≤ o ∧ o < 0x1808 ∧ (o - 0x1008) % 32 = 0 then some (.siloPtr c ((o - 0x1008) / 32)) else
  if 0x1010 ≤ o ∧ o < 0x1810 ∧ (o - 0x1010) % 32 = 0 then some (.siloPend c ((o - 0x1010) / 32)) else
  if o = 0xf0 then some (.arm (.co c)) else if o = 0xf8 then some (.apply (.co c)) else
  if o = 0x4f0 then some (.arm (.me (2 * c))) else if o = 0x4f8 then some (.apply (.me (2 * c))) else
  if o = 0x6f0 then some (.arm (.me (2 * c + 1))) else if o = 0x6f8 then some (.apply (.me (2 * c + 1))) else
  if o = 0x8f0 then some (.arm (.vu c)) else if o = 0x8f8 then some (.apply (.vu c)) else
  if o = 0xaf0 then some (.arm (.mvp c)) else if o = 0xaf8 then some (.apply (.mvp c)) else
  if o = 0x18f0 then some (.arm (.silo c)) else if o = 0x18f8 then some (.apply (.silo c)) else
  none

def clRegAt (cl : Nat) (o : Nat) : Option Reg :=
  if o = 0x40 then some (.dspSuspect cl) else
  if 0x100 ≤ o ∧ o < 0x200 ∧ (o - 0x100) % 16 = 0 then some (.clNquota cl ((o - 0x100) / 16)) else
  if 0x108 ≤ o ∧ o < 0x208 ∧ (o - 0x108) % 16 = 0 then some (.clLquota cl ((o - 0x108) / 16)) else
  if o = 0x200 then some (.clCcCtrl cl) else
  if o = 0x208 then some (.clScrub cl) else
  if o = 0x210 then some (.clMemLog cl) else
  if 0x400 ≤ o ∧ o < 0x600 ∧ (o - 0x400) % 32 = 0 then some (.dspJob cl ((o - 0x400) / 32)) else
  if 0x408 ≤ o ∧ o < 0x608 ∧ (o - 0x408) % 32 = 0 then some (.dspUsed cl ((o - 0x408) / 32)) else
  if 0x410 ≤ o ∧ o < 0x610 ∧ (o - 0x410) % 32 = 0 then some (.dspAcct cl ((o - 0x410) / 32)) else
  if 0x2000 ≤ o ∧ o < 0x4000 ∧ (o - 0x2000) % 32 = 0 then some (.siloLcfg cl ((o - 0x2000) / 32)) else
  if 0x2008 ≤ o ∧ o < 0x4008 ∧ (o - 0x2008) % 32 = 0 then some (.siloLptr cl ((o - 0x2008) / 32)) else
  if 0x2010 ≤ o ∧ o < 0x4010 ∧ (o - 0x2010) % 32 = 0 then some (.siloLpend cl ((o - 0x2010) / 32)) else
  if 0x8000 ≤ o ∧ o < 0x8800 ∧ (o - 0x8000) % 64 = 0 then some (.dmaChcfg cl ((o - 0x8000) / 64)) else
  if 0x8008 ≤ o ∧ o < 0x8808 ∧ (o - 0x8008) % 64 = 0 then some (.dmaRing cl ((o - 0x8008) / 64)) else
  if 0x8010 ≤ o ∧ o < 0x8810 ∧ (o - 0x8010) % 64 = 0 then some (.dmaRingPtr cl ((o - 0x8010) / 64)) else
  if 0x8018 ≤ o ∧ o < 0x8818 ∧ (o - 0x8018) % 64 = 0 then some (.dmaSrc cl ((o - 0x8018) / 64)) else
  if 0x8020 ≤ o ∧ o < 0x8820 ∧ (o - 0x8020) % 64 = 0 then some (.dmaDst cl ((o - 0x8020) / 64)) else
  if 0x8028 ≤ o ∧ o < 0x8828 ∧ (o - 0x8028) % 64 = 0 then some (.dmaCnt cl ((o - 0x8028) / 64)) else
  if 0x8030 ≤ o ∧ o < 0x8830 ∧ (o - 0x8030) % 64 = 0 then some (.dmaCtrl cl ((o - 0x8030) / 64)) else
  if 0x8038 ≤ o ∧ o < 0x8838 ∧ (o - 0x8038) % 64 = 0 then some (.dmaLast cl ((o - 0x8038) / 64)) else
  if o = 0x40f0 then some (.arm (.loftSilo cl)) else if o = 0x40f8 then some (.apply (.loftSilo cl)) else
  if o = 0x2f0 then some (.arm (.cl cl)) else if o = 0x2f8 then some (.apply (.cl cl)) else
  if o = 0x88f0 then some (.arm (.dma cl)) else if o = 0x88f8 then some (.apply (.dma cl)) else
  if o = 0x6f0 then some (.arm (.dsp cl)) else if o = 0x6f8 then some (.apply (.dsp cl)) else
  mbxRegAt (.cluster cl) o

def grnRegAt (g : Nat) (o : Nat) : Option Reg :=
  if o = 0x0 then some (.grnCfg g) else
  if o = 0x8 then some (.grnStatus g) else
  if o = 0x10 then some (.grnErrLog g) else
  if o = 0x18 then some (.grnErrRow g) else
  if 0x100 ≤ o ∧ o < 0x200 ∧ (o - 0x100) % 16 = 0 then some (.grnNorm g ((o - 0x100) / 16)) else
  if 0x108 ≤ o ∧ o < 0x208 ∧ (o - 0x108) % 16 = 0 then some (.grnFinal g ((o - 0x108) / 16)) else
  if 0x500 ≤ o ∧ o < 0x540 ∧ (o - 0x500) % 8 = 0 then some (.winCmd g ((o - 0x500) / 8)) else
  if o = 0x540 then some (.winCtrl g) else
  if o = 0x548 then some (.winStatus g) else
  if o = 0x550 then some (.winSkewLog g) else
  if o = 0xf0 then some (.arm (.grn g)) else if o = 0xf8 then some (.apply (.grn g)) else
  if o = 0x2f0 then some (.arm (.tt g)) else if o = 0x2f8 then some (.apply (.tt g)) else
  if o = 0x4f0 then some (.arm (.win g)) else if o = 0x4f8 then some (.apply (.win g)) else
  if 0x100000 ≤ o ∧ o < 0x300000 ∧ o % 8 = 0 then some (.ttEntry g ((o - 0x100000) / 64) (o / 8 % 8)) else
  if 0x400000 ≤ o ∧ o < 0x440000 ∧ o % 8 = 0 then some (.layer g ((o - 0x400000) / 64) (o / 8 % 8)) else
  if 0x480000 ≤ o ∧ o < 0x4A0000 ∧ o % 8 = 0 then some (.winState g ((o - 0x480000) / 32) (o / 8 % 4)) else
  mbxRegAt (.granary g) o

def gateRegAt (g : Nat) (o : Nat) : Option Reg :=
  if o = 0x0 then some (.gateCfg g) else
  if o = 0x8 then some (.gateNack g) else
  if o = 0x10 then some (.gateOt g) else
  if o = 0xf0 then some (.arm (.gate g)) else if o = 0xf8 then some (.apply (.gate g)) else
  if o = 0x10f0 then some (.arm (.hatch g)) else if o = 0x10f8 then some (.apply (.hatch g)) else
  if 0x100 ≤ o ∧ o < 0x400 ∧ o % 0x100 = 0 then some (.gatePort (3 * g + (o - 0x100) / 0x100)) else
  if 0x100 ≤ o ∧ o < 0x400 ∧ 0x40 ≤ o % 0x100 ∧ o % 0x100 < 0x80 ∧ o % 8 = 0 then
    some (.gatePkhash (3 * g + (o - 0x100) / 0x100) ((o % 0x100 - 0x40) / 8)) else
  if 0x80000 ≤ o ∧ o < 0x90000 ∧ o % 8 = 0 then some (.hatchEntry g ((o - 0x80000) / 64) (o / 8 % 8)) else
  mbxRegAt (.gate g) o

def mgtRegAt (o : Nat) : Option Reg :=
  if o = 0x0 then some (.beatCtrl) else
  if o = 0x8 then some (.beatLen) else
  if o = 0x10 then some (.beatNumber) else
  if o = 0x18 then some (.beatNumberSet) else
  if o = 0x20 then some (.beatSync) else
  if o = 0x1000 then some (.pwrLimit) else
  if o = 0x1008 then some (.pwrCfg) else
  if 0x1010 ≤ o ∧ o < 0x1070 ∧ (o - 0x1010) % 8 = 0 then some (.pwrWeight ((o - 0x1010) / 8)) else
  if o = 0x1070 then some (.pwrStatus) else
  if 0x2000 ≤ o ∧ o < 0x20c0 ∧ (o - 0x2000) % 16 = 0 then some (.mgtPart ((o - 0x2000) / 16)) else
  if 0x3000 ≤ o ∧ o < 0x3300 ∧ (o - 0x3000) % 64 = 0 then some (.seqShare ((o - 0x3000) / 64)) else
  if 0x3008 ≤ o ∧ o < 0x3308 ∧ (o - 0x3008) % 64 = 0 then some (.seqPool ((o - 0x3008) / 64)) else
  if 0x3010 ≤ o ∧ o < 0x3310 ∧ (o - 0x3010) % 64 = 0 then some (.seqSet ((o - 0x3010) / 64)) else
  if 0x3018 ≤ o ∧ o < 0x3318 ∧ (o - 0x3018) % 64 = 0 then some (.seqStep ((o - 0x3018) / 64)) else
  if 0x3020 ≤ o ∧ o < 0x3320 ∧ (o - 0x3020) % 64 = 0 then some (.seqRows ((o - 0x3020) / 64)) else
  if 0x3028 ≤ o ∧ o < 0x3328 ∧ (o - 0x3028) % 64 = 0 then some (.seqStatus ((o - 0x3028) / 64)) else
  if 0x3030 ≤ o ∧ o < 0x3330 ∧ (o - 0x3030) % 64 = 0 then some (.seqFree ((o - 0x3030) / 64)) else
  if 0x4000 ≤ o ∧ o < 0x4010 ∧ (o - 0x4000) % 8 = 0 then some (.atbSel ((o - 0x4000) / 8)) else
  if 0x4010 ≤ o ∧ o < 0x4020 ∧ (o - 0x4010) % 8 = 0 then some (.atbRead ((o - 0x4010) / 8)) else
  if o = 0xf0 then some (.arm (.beat)) else if o = 0xf8 then some (.apply (.beat)) else
  if o = 0x10f0 then some (.arm (.pwr)) else if o = 0x10f8 then some (.apply (.pwr)) else
  if o = 0x20f0 then some (.arm (.mgt)) else if o = 0x20f8 then some (.apply (.mgt)) else
  if o = 0x33f0 then some (.arm (.seq)) else if o = 0x33f8 then some (.apply (.seq)) else
  if o = 0x40f0 then some (.arm (.atb)) else if o = 0x40f8 then some (.apply (.atb)) else
  if 0x200000 ≤ o ∧ o < 0x280000 ∧ o % 8 = 0 then some (.seqEntry ((o - 0x200000) / 32) (o / 8 % 4)) else
  mbxRegAt .mgmt o

/-- The unit fields of a register address (Table 1-9, space 0x3). -/
def regSite (a : Nat) : Nat := a / 0x10000000000 % 16
def regIndex (a : Nat) : Nat := a / 0x400000000 % 64
def regUnit (a : Nat) : Nat := a / 0x40000000 % 16
def regCore (a : Nat) : Nat := a / 0x4000000 % 16
def regOffset (a : Nat) : Nat := a % 0x4000000

/-- The register at a device address of space 0x3 (R29), none where the unit or the slot does not exist. -/
def Reg.ofAddr (a : Nat) : Option Reg :=
  if a / 0x10000000000000 ≠ 3 ∨ a / 0x100000000000 % 256 ≠ 0 ∨ a % 8 ≠ 0 then none else
  let i := regIndex a; let u := regUnit a; let k := regCore a; let o := regOffset a
  match regSite a with
  | 0 => if 36 ≤ i then none else
      if u = 0 then (if k = 15 then mbxRegAt (.die i) o else none)
      else if 8 < u then none
      else if k = 15 then clRegAt (8 * i + (u - 1)) o
      else if k < 8 then coreRegAt (64 * i + 8 * (u - 1) + k) o
      else if k = 14 then coreRegAt (2304 + 8 * i + (u - 1)) o
      else none
  | 1 => if 24 ≤ i ∨ u ≠ 0 ∨ k ≠ 15 then none else grnRegAt i o
  | 2 => if 4 ≤ i ∨ u ≠ 0 ∨ k ≠ 15 then none else gateRegAt i o
  | 3 => if i ≠ 0 ∨ u ≠ 0 ∨ k ≠ 15 then none else mgtRegAt o
  | _ => none

/-- What an unlisted register address holds: the register's reset value. -/
def resetAt (a : Nat) : Word :=
  match Reg.ofAddr a with
  | some r => r.reset
  | none => 0

end Sys2Proof.Machine
end

