-- ==== Sys2Proof/Machine/State.lean ====
section
/-! DEFINITION. The state of the block: every register, store, queue, table and pin the manual gives it, and the queue of
waiting commands. Plain data: sparse maps (Machine/SMap.lean), lists, numbers, bit vectors. -/

namespace Sys2Proof.Machine

/-- Why the machine stops. Raised by a meaning whose operands name a unit the device does not have (a core above 2,303, a
cluster above 287, ...; Table 1-6): safe, nothing is claimed of such a command. -/
inductive Fault where
  | noSuchUnit
  deriving DecidableEq, Repr

/-- Why a command has no meaning. -/
inductive Refusal where
  /-- The row has no meaning yet. Raised by an arm of Dispatch.lean only: safe. -/
  | notModelled (mnemonic : String)
  deriving DecidableEq, Repr

/-- Row tags (R187). -/
inductive Tag where
  | empty
  | full
  | pending
  | poison
  deriving DecidableEq, Repr

/-- What a copy of a tensor's row carries beside its tag (R226, R247): tensor, GEN, source row (partition row number), the filling channel,
and whether run-ahead filled it into a silo (else a bring-up into the loft copy); for run-ahead the descriptor and the number of the row, by
which the channel reads the same source again. -/
structure GenNote where
  tensor : Nat
  gen : Nat
  src : Nat
  cl : Nat
  ch : Nat
  ahead : Bool
  desc : BitVec 1024
  q : Nat
  deriving DecidableEq, Repr

/-- A row of a near store or loft with its tag, pending writer and taker, by task (R187). TAKEN is `taker` set. -/
structure RowSt where
  data : Row
  tag : Tag
  writer : Option Nat
  taker : Option Nat
  note : Option GenNote
  deriving DecidableEq, Repr

/-- A row of LPDDR5X: its 512 data bytes, and its 16 check bytes as their difference from the check that the code gives the data: 0 for a
valid row (R210, R211). -/
structure LpRow where
  data : Row
  err : BitVec 128
  deriving DecidableEq, Repr

/-- Task states (Table 7-1). -/
inductive TStat where
  | pooled
  | ready
  | running
  | blocked
  | completing
  | retired
  deriving DecidableEq, Repr

/-- A task fault as recorded (Table 7-9). -/
structure TFault where
  cause : Nat
  pc : Nat
  slot : Nat
  beat : Word
  addr : Nat
  detail : Nat
  deriving DecidableEq, Repr

/-- How an operation reaches a row (Table 8-2). -/
inductive Access where
  | peek
  | take
  | write
  | over
  deriving DecidableEq, Repr

/-- A near silo of a core or a loft silo of a cluster (R193). -/
inductive SiloRef where
  | near (core n : Nat)
  | loft (cl n : Nat)
  deriving DecidableEq, Repr

/-- A unit or shared resource that a command may find taken (R165). -/
inductive Taken where
  | unit (u : CoreUnit)
  | buf
  | gather
  deriving DecidableEq, Repr

/-- What an issued command waits on (R165). -/
inductive Wait where
  | row (r : RowRef) (a : Access)
  | silo (x : SiloRef)
  deriving DecidableEq, Repr

/-- Why a task is blocked (R165): its next program row, a unit or resource that its next command finds taken, or a command that it has
issued and that waits. -/
inductive Why where
  | row (r : RowRef) (a : Access)
  | unit (x : Taken)
  | issued
  deriving DecidableEq, Repr

/-- How far a command has come: rows finished; for a silo.pop the count that it began at, for a cc.count the elements that hold so far;
the bits of a mask row still to be written (R194, R195, R199). -/
structure Progress where
  rows : Nat
  base : Nat
  bits : List Bool
  deriving DecidableEq, Repr

/-- A command that has issued and is not complete (R54, R165): its task, position in the program, word and upsets, the registers that
govern it as they stood at its issue, the loads of the seeded generator before it, how far it has come, and what it waits on. -/
structure Cmd where
  task : Nat
  pc : Nat
  word : BitVec 128
  ups : List Upset
  env : List (Nat × Word)
  seed : Nat
  left : Progress
  wait : Option Wait
  deriving DecidableEq, Repr

/-- The MX scale assembly row of a slot (R107): scales, positions filled, group, destination, format code. -/
structure Asm where
  scales : Row
  filled : BitVec 32
  group : Nat
  sdst : Nat
  fmt : Nat
  deriving DecidableEq, Repr

/-- A task: descriptor (Table 7-2), place, progress, and the slot state it owns (R105, R163, R171). `id` is its arrival
number in the pools of the device; `prog` is its command buffer, the program rows fetched by number; `flight` is a command that has
issued and waits, where no engine or gather context holds it. -/
structure Task where
  id : Nat
  cl : Nat
  desc : BitVec 512
  stat : TStat
  core : Nat
  slot : Nat
  placed : Nat
  pc : Nat
  doneIssue : Bool
  carry : Nat
  kick : BitVec 8
  attempt : Nat
  streak : Nat
  excl : Option Nat
  badEngs : List Nat
  skipped : Bool
  flags : Flags
  trapped : Bool
  viol : Nat
  gatherBad : Bool
  audit : Bool
  fault : Option TFault
  deps : List Nat
  prog : SMap (Option Row)
  flight : Option Cmd
  why : Option Why
  abort : Bool
  cycles : Nat
  charges : List (Nat × Nat × Nat)
  pushes : List (SiloRef × Nat)
  pops : List (SiloRef × Nat)
  lines : SMap Row
  scalars : SMap F32
  asm : Option Asm
  deriving DecidableEq, Repr

/-- A speculative group (R174): members by task, verifier and its verdict row, the verifier as it stood when it committed, the core it is
bound to, holds, whether they exceed the limit (R47), and whether its discard or its commit is decided while a member is still held (Table 2-2). -/
structure Group where
  cl : Nat
  gid : Nat
  job : Nat
  members : List Nat
  verifier : Option Nat
  vrow : Option Nat
  vgone : Option Task
  core : Option Nat
  holds : Nat
  timedOut : Bool
  dropped : Bool
  won : Bool
  deriving DecidableEq, Repr

/-- A stationary block as staged (R83, R132): the command word, the rows it read, and the task that it shifts in for; none once that task
has released the engine (R80). -/
structure Block where
  word : BitVec 128
  rows : List Row
  scale : Row
  task : Option Nat
  deriving DecidableEq, Repr

/-- A matrix engine (R80, R83, R90, R113): owner, whether it has loaded a block, staging buffer, block in force, issued commands in order
(the first waits on a row or a shift-in), accumulator (none = CLEAR) and tap buffer (none = invalid). -/
structure Eng where
  owner : Option Nat
  loaded : Bool
  staging : Option Block
  cells : Option Block
  queue : List Cmd
  acc : SMap (Option Row)
  tap : SMap (Option F32)
  deriving DecidableEq, Repr

/-- A gather context (R169): the command it serves, the row it has reached, the table row its parked miss asks for, whether its fill is
among the 32 outstanding (R200), whether that may allocate a line (R201), and the table row that the fill has delivered. -/
structure GCtx where
  cmd : Cmd
  next : Nat
  asks : Option Nat
  fill : Bool
  alloc : Bool
  got : Option Row
  deriving DecidableEq, Repr

/-- What a core holds beside its registers, rows, engines and tasks: the row buffer's holder, its lines in use and who waits for it (R105,
R116), owners of the MVP and the encoder, gather contexts, the seeded generator with the loads it has had and what it stood at before
each load that an issued command still draws from (R75, R54). `rngBeat` follows the health of its entropy source: 1
failed in this beat, 2 a beat without failure runs, 0 such a beat is over (R74). `patrol` is the near store's patrol position, `owed` the rows
that earlier beats left unchecked (R192). -/
structure Core where
  buf : Option Nat
  bufLines : List Row
  bufWait : List (Nat × BitVec 128)
  mvp : Option Nat
  enc : Option Nat
  gctx : SMap (Option GCtx)
  rng : Word
  loads : Nat
  oldRng : SMap Word
  rngBeat : Nat
  seedNew : Bool
  patrol : Nat
  owed : Nat
  quiet : Nat
  active : Bool
  ueBeats : List Nat
  ceBeats : List Nat
  mmBeats : List Nat
  dead : Bool
  deriving DecidableEq, Repr

/-- What a cluster holds beside its registers and tasks: cluster cache by set, most recent line first (R200), patrol
position of the loft and the rows still owed (R192), translation cache (R212), errors of each loft bank (R415). -/
structure Clus where
  cache : SMap (List (Nat × Row))
  patrol : Nat
  owed : Nat
  tlb : List (Nat × Nat × Word)
  ceBeats : List (Nat × Nat)
  deriving DecidableEq, Repr

/-- A source row of a destination row in flight (R239, R240): not read yet, asked for at a remote hatch, or read. -/
inductive Piece where
  | todo
  | asked
  | got (data : Row) (poison : Bool) (note : Option GenNote)
  deriving DecidableEq, Repr

/-- A destination row in flight: its number in visiting order, its source rows, and whether it is on its way to a remote hatch. -/
structure Move where
  q : Nat
  src : List Piece
  sent : Bool
  deriving DecidableEq, Repr

/-- What ends or holds a transfer before its last row (R213, R243, R246): a stop with cause, detail and address; a HOST page; a clip. -/
inductive Halt where
  | stop (cause detail addr : Nat)
  | page (pg : Nat)
  | clip
  deriving DecidableEq, Repr

/-- A DMA transfer in progress: its number in the channel, descriptor, next destination row to issue, rows in flight, delivered rows,
saturations, record flags (Table 10-4), how it is served (Table 9-6), the tensor that it touches and the beat of the touch, whether the tick of its deadline
found rows of it that were not FULL, whether the miss has had its effect; of a COUNT the count, the bits of the mask row that is not complete and whether a poisoned row gave some, the
mask rows written and those received from a remote hatch; halt. -/
structure Xfer where
  id : Nat
  desc : BitVec 1024
  next : Nat
  moves : List Move
  rows : Nat
  sat : Nat
  lower : Bool
  skip : Bool
  glean : Bool
  poison : Bool
  resumed : Bool
  clipped : Bool
  touch : Option (Nat × Nat)
  due : Option Bool
  missed : Bool
  count : Nat
  known : List Bool
  knownBad : Bool
  masks : Nat
  got : SMap (Row × Bool)
  halt : Option Halt
  status : Nat
  cause : Nat
  detail : Nat
  deriving DecidableEq, Repr

/-- A DMA channel beside its registers: DIRECT queue, ring buffer, number of the next transfer, the transfer that issues, those whose reads
have all issued, those that wait for their record, held records, waiting page, stale rows to read again (R233 to R247). -/
structure Chan where
  queue : List (BitVec 1024)
  buf : List (BitVec 1024)
  seq : Nat
  cur : Option Xfer
  tail : List Xfer
  done : List Xfer
  held : List (BitVec 256)
  page : Option (Nat × Nat)
  refetch : List (RowRef × GenNote)
  deriving DecidableEq, Repr

/-- A bring-up (R220): tensor, first row, waiting to start or running, rows that have come from LPDDR in order, those of them that wait
for their place in the loft. -/
structure Bringup where
  tensor : Nat
  start : Nat
  running : Bool
  come : Nat
  held : List Nat
  deriving DecidableEq, Repr

/-- A seal or an unseal asked for (R223): tensor, kind, and whether a tick found it pinned. -/
structure SealWait where
  tensor : Nat
  undo : Bool
  waited : Bool
  deriving DecidableEq, Repr

/-- What waits on a row, in the order in which it began to wait (R189). -/
inductive Waiter where
  | task (id : Nat)
  | eng (e : Nat)
  | chan (cl ch : Nat)
  | gather (core ctx : Nat)
  | land (tensor n : Nat)
  | park (gate tag port : Nat)
  deriving DecidableEq, Repr

/-- What has reached a granary and waits there, for an epoch clear (R227) or a copy of the row (R214, R418): a row of a transfer, an accepted
request of a port, an accumulate-write of a cluster. -/
inductive Arrival where
  | row (cl ch xfer q : Nat)
  | park (gate tag port : Nat)
  | write (part job addr : Nat) (data : AccData) (final : Bool)
  deriving DecidableEq, Repr

/-- Step settings of a job (Table 11-3, STEP_CONFIG). -/
structure StepCfg where
  maxNorm : F32
  expectFinal : Nat
  root : Nat
  timeoutMs : Nat
  b1 : F32
  b2 : F32
  publish : Bool
  members : List Nat
  deriving DecidableEq, Repr

/-- Tithe settings (R431). -/
structure Tithe where
  buddy : Nat
  hatch : Nat
  token : Nat
  fraction : Nat
  gens : List Nat
  deriving DecidableEq, Repr

/-- Job states (Table 14-1). -/
inductive JStat where
  | free
  | running
  | stopped
  | killing
  deriving DecidableEq, Repr

/-- Stages of a learning step (Table 11-2). -/
inductive Stage where
  | none
  | backward
  | reduce
  | hold
  | update
  deriving DecidableEq, Repr

/-- What a winnower command serves (R287, R283, R435). -/
inductive WinKind where
  | update
  | layerNorm
  | lazyNorm
  | restore
  deriving DecidableEq, Repr

/-- A layer norm being reduced (R275, R283): record, this device's packet, whether it is a full sum, the run that it belongs to, and whether that run
had a granule poisoned (R293). -/
structure NormOut where
  record : Nat
  pkt : BitVec 128
  full : Bool
  kind : WinKind
  poisoned : Bool
  deriving DecidableEq, Repr

/-- A job of a partition beside its registers (R309, R257, R262 to R267, R319). `pub` are the tensors that its own learning step has asked to
unseal (R270), `restores` the steps of its restore-class events (R434), `report` the last step report (R222), `normOut` the layer norms being
reduced; `stopDue` a stop that waits for the tick (R309, R430),
`viewless` and `scrubbed` how far a kill has come after its step 6: the views are invalidated, the pages are zero (R203, R319); `arrived` a result that
waits for the tick (R262). -/
structure Job where
  stat : JStat
  manifest : List Row
  manifestNext : List Row
  frozen : List Nat
  frozenNext : Option (Bool × List Nat)
  drained : Bool
  record : BitVec 256
  stopSource : Nat
  stage : Stage
  t : Nat
  lastT : Option Nat
  lr : F32
  cfg : StepCfg
  cfgNext : Option StepCfg
  clearing : Bool
  packets : List (Nat × BitVec 128)
  device : Option (BitVec 128)
  result : Option (BitVec 128)
  clip : F32
  pub : List Nat
  pubSel : Nat
  tithe : Option Tithe
  titheNext : Option Tithe
  restores : List Nat
  report : SMap Nat
  reportT : Nat
  normOut : List NormOut
  stopDue : Bool
  viewless : Bool
  scrubbed : Bool
  arrived : Option (BitVec 128)
  deriving DecidableEq, Repr

/-- The sequence manager's state of a partition beside its registers and entries (R294 to R303): sets in use, sets that
return, sets of each slot, plan, cancels, next JOIN, the generation as the last boundary found it, the fallback count at the last composition, the step's
number, whether a composed step runs. A set is
4 x index + LOC (R297); a plan entry is slot, kind, LAST, POS, NTOK. -/
structure SeqMgr where
  nextJoin : Nat
  used : List Nat
  returning : List Nat
  sets : SMap (List Nat)
  plan : List (Nat × Nat × Bool × Nat × Nat)
  cancels : List Nat
  gen : Option Nat
  fb : Nat
  step : Nat
  open_ : Bool
  deriving DecidableEq, Repr

/-- A partition beside MGT_PARTp (R268, R318): owner tag, phase 0 learning 1 generation 2 scoring, requested phase with
its GLEAN_LEARN, a reset whose steps 1 to 5 are over, and a step rollback in progress (R428). -/
structure Part where
  owner : Nat
  phase : Nat
  gleanLearn : Bool
  request : Option (Nat × Bool)
  seq : SeqMgr
  resetOver : Bool
  rolling : Bool
  deriving DecidableEq, Repr

/-- The power controller's state of a compute die (R55, R321, R322): credit in watt-cycles, exactly; the last 15 decisions, newest
first; the draw measured over the beat that the last tick ended, in watts. -/
structure DiePower where
  credit : Rat
  history : List Bool
  draw : Nat
  deriving DecidableEq, Repr

/-- A port beside its registers (R328, R329, R331 to R333, R340). `rxNext` is the number of the next frame to accept, `rxArr`
that of the next frame to arrive; `rxHeld` are the requests that the full park table keeps in the receive buffer, by the number
of their frame; `segTags` are the SEG_TAG frames that follow numbered frames in the replay buffer; `mine` is this device's HELLO of the
handshake with the draw of its ephemeral key pair, `theirs` the partner's. On an encrypting port `replay` and the segments hold frames as they go
over the wire. -/
structure Port where
  txNext : Nat
  replay : List (Nat × Frame)
  credits : Nat
  sinceCtl : Nat
  replays : Nat
  rxNext : Nat
  rxArr : Nat
  rxHeld : List (Nat × Frame)
  rxFreed : Nat
  unacked : Nat
  nak : Bool
  bucket : Nat
  dry : Bool
  wasDry : Bool
  hello : Bool
  proof : Bool
  rekey : Bool
  rekeyAsk : Bool
  segment : List Frame
  rxSeg : Nat
  txSegment : List Frame
  txSeg : Nat
  segTags : List (Nat × Frame)
  segFail : Bool
  keyRx : BitVec 256
  keyTx : BitVec 256
  mine : Option (Nat × Hello)
  theirs : Option Hello
  quote : Option (List Byte)
  blocked : List Frame
  deriving DecidableEq, Repr

/-- What a remote request is (R335, R336). -/
inductive RKind where
  | read
  | write
  | accum
  | count
  | sreduce
  | tithe
  | restore
  | reduce
  deriving DecidableEq, Repr

/-- An outstanding entry of a gate (R336): port, kind, the channel, transfer, destination row and source row it serves, EXPIRED mark. -/
structure OtEnt where
  port : Nat
  kind : RKind
  cl : Nat
  ch : Nat
  xfer : Nat
  dst : Nat
  sub : Nat
  expired : Bool
  deriving DecidableEq, Repr

/-- A parked request (R338): arrival port (12 = loopback), the number of its frame on the port, its frame (a READ entry in a BATCH of one), the
row it waits on. With no row it has been accepted and waits in a granary (R227, R418); it has not landed, and keeps its frame's place
(R329); without a number its port has left READY since, and nothing answers it (R331). -/
structure ParkEnt where
  port : Nat
  num : Option Nat
  frame : Frame
  row : Option RowRef
  deriving DecidableEq, Repr

/-- A gate die beside its registers: outstanding entries, park table, translation cache (R212, R336, R338). -/
structure Gate where
  ot : SMap (Option OtEnt)
  park : List ParkEnt
  tlb : List (Nat × Nat × Word)
  deriving DecidableEq, Repr

/-- A mailbox write that waits (R359): mailbox, sender, word, limit in ms; `host` holds the header of the host transaction
to answer. -/
structure MbxWait where
  blk : MbxBlk
  n : Nat
  sender : Nat
  data : Word
  limit : Nat
  host : Option (BitVec 128)
  deriving DecidableEq, Repr

/-- What an outstanding firmware command waits for (Tables 17-6, 17-7). -/
inductive FwWait where
  | turn
  | gather (held : List (Nat × Nat × Option Nat))
  | apply (bs : List Blk)
  | seal (tensor : Nat)
  | hatch (n : Nat)
  | reset (part : Nat) (destroy : Bool)
  | kill (part job : Nat)
  | phase (part : Nat)
  | normAsk (part job : Nat)
  | norm (part job : Nat)
  | leave (part slot : Nat)
  | snapshot
  | window
  | bringup
  | stepStart (part job : Nat)
  | stop (part job : Nat)
  | restore (part job : Nat)
  | pageOut (page : Nat)
  deriving DecidableEq, Repr

/-- An outstanding firmware command (R368, R374): its block as firmware read it (log 17), what it waits for. -/
structure FwOut where
  cmd : FwCmd
  blk : BitVec 32768
  wait : FwWait
  deriving DecidableEq, Repr

/-- Module states (Table 16-1). X32 is on one half of the lanes. -/
inductive Mod where
  | down
  | training
  | x64
  | x32 (upper : Bool)
  deriving DecidableEq, Repr

/-- A watch-list entry (Table 20-1). KIND 1 core, 2 loft bank, 3 LPDDR5X row; STATE 1 SUSPECT, 2 RETIRED. -/
structure WlEnt where
  kind : Nat
  state : Nat
  where_ : Nat
  unit : Nat
  confirm : Nat
  passes : Nat
  cause : Nat
  row : Nat
  column : Nat
  lkind : Nat
  deriving DecidableEq, Repr

/-- The non-volatile store (chapters 18 to 20): the identity chain, calibration records by number and
those that failed verification at this bring-up, watch list, maps, SHAPE_GEN, and the stored shape: die, cluster and core holes, clusters with no fallow core left. -/
structure Nv where
  chain : List (List Byte)
  readable : Bool
  cal : SMap (List Byte)
  bad : List Nat
  watch : List WlEnt
  maps : SMap (BitVec 32)
  shapeGen : Nat
  shape : Option (List Nat × List Nat × List Nat × List Nat)
  deriving DecidableEq, Repr

/-- The factory defect map in the fuses (R399, R401): dies, clusters, physical cores of a cluster. -/
structure Defects where
  dies : List Nat
  clusters : List Nat
  cores : List (Nat × Nat)
  deriving DecidableEq, Repr

/-- The device's shape (R14, R23, R377): maps, holes, fallow cores left, absent devices, out-of-service granaries and
gates. -/
structure Shape where
  maps : SMap (BitVec 32)
  dieHoles : List Nat
  clusterHoles : List Nat
  noFallow : List Nat
  lpddrAbsent : List Nat
  deadGran : List Nat
  deadGate : List Nat
  gen : Nat
  deriving DecidableEq, Repr

/-- The routers of the data mesh (R11, R15, R17): the slices of each stitch link that are powered and trained; by router and destination where a
packet goes on (Mesh.lean numbers both); the multicast tree of the management die, as die and parent (36 the management
die). A link is 4 x die + side, side 0 N, 1 E, 2 S, 3 W; the link between two compute dies has the lower number. -/
structure Mesh where
  slices : SMap (BitVec 20)
  routes : SMap (Option Nat)
  tree : List (Nat × Nat)
  deriving DecidableEq, Repr

/-- The root of trust (R382, R387): fuses, measurement register and log, image in force with its body. -/
structure Sec where
  thermo : BitVec 64
  revoke : BitVec 64
  m : BitVec 512
  log : List (BitVec 768)
  logCount : Nat
  imageKey : Nat
  imageSvn : Nat
  imageRevoke : BitVec 64
  imageCommit : Bool
  imageOk : Bool
  image : List Byte
  deriving DecidableEq, Repr

/-- A test window granted (R420); once it has started, the beat, the watch list and the cores to be tested first, which give the order of its tests. -/
structure Window where
  cmd : FwCmd
  mask : BitVec 36
  beats : Nat
  pack : Nat
  stress : Nat
  started : Option Nat
  since : Nat
  watch : List WlEnt
  first : List Nat
  deriving DecidableEq, Repr

/-- Page-in and page-out progress of a page (R214): frame taken, pieces done. -/
structure PageMove where
  frame : Nat
  pieces : List Nat
  out : Bool
  deriving DecidableEq, Repr

/-- The command that the winnowers serve (R286): its job, what it serves, the step, the runs of records still to be commanded (first
and count), the head being in the registers once `posted`, the granaries that took its GO, whether a granule was poisoned, the status of
a withheld part, and the oldest slot of a restore. -/
structure WinRun where
  part : Nat
  job : Nat
  kind : WinKind
  step : Nat
  runs : List (Nat × Nat)
  posted : Bool
  asked : List Nat
  poisoned : Bool
  status : Nat
  oldest : Nat
  deriving DecidableEq, Repr

/-- A tithe slot on its way to the buddy (R432): granary, fabric, hatch, row offset, generation, token, its 25 rows, phase (1 zero
header, 2 data, 3 header), rows of the phase not yet issued and rows not acknowledged. -/
structure TitheRun where
  id : Nat
  g : Nat
  part : Nat
  job : Nat
  fabric : Nat
  hatch : Nat
  off : Nat
  gen : Nat
  token : Nat
  rows : List Row
  phase : Nat
  unsent : Nat
  left : Nat
  deriving DecidableEq, Repr

/-- A restore that has not yet copied its slots (R435): SOURCE, ADDR and STEP, whether its reads have begun; for the buddy's store the
settings it reads by, the next row to ask for of how many, rows received, requests in flight. -/
structure RestoreRun where
  part : Nat
  job : Nat
  source : Nat
  addr : Nat
  step : Nat
  begun : Bool
  fabric : Nat
  tithe : Tithe
  next : Nat
  total : Nat
  got : SMap Row
  out : Nat
  deriving DecidableEq, Repr

/-- A reduction packet on its way to another device (R263, R343): job, fabric ID, this device's place among the MEMBERS, the record of a layer
norm. -/
structure RedOut where
  part : Nat
  job : Nat
  fabric : Nat
  place : Nat
  record : Option Nat
  pkt : BitVec 128
  deriving DecidableEq, Repr

/-- The beat generator beside its registers (R34, R37): a number that waits to be set, consecutive beats in tolerance, whether the
last pulse belonged to the tick after it (1) or before it (0), cycles by which the next beat and the running beat are lengthened, ticks since the last pulse, cycles
of the beat that the last tick ended, whether the mark of a pulse awaits its tick (R38), whether a tick has been. -/
structure Beat where
  setPending : Bool
  lockRun : Nat
  pulseTick : Option Nat
  adjust : Int
  running : Int
  since : Nat
  ended : Nat
  markDue : Bool
  ticked : Bool
  deriving DecidableEq, Repr

/-- Board-side pins, sensors and given environment (R446 to R450), JTAG (R455); the power-good pins that were asserted at a thermal trip and have not been
reported since (Table 22-8). -/
structure Board where
  pwrEn : Bool
  good : List PgPin
  tripN : Bool
  temps : SMap Int
  time : Word
  coolant : F32
  flowOk : Bool
  ir : BitVec 8
  cells : BitVec 18
  goodAtTrip : List PgPin
  deriving DecidableEq, Repr

/-- What the device sends to the world. -/
inductive Emit where
  | response (hdr : BitVec 128) (data : BitVec 2048)
  | notify (hdr : BitVec 128)
  | access (agent status reason : Nat) (value : Word)
  | interrupt (b : MbxBlk) (n : Nat)
  | frame (port : Nat) (f : Frame) (crc : BitVec 32)
  | pulse (cycles : Nat)
  | pwrEn (on : Bool)
  | thermTrip
  | hello (port : Nat) (h : Hello)
  | proof (port : Nat) (sig : List Byte)
  | tdo (bits : Nat) (v : Word)
  deriving DecidableEq, Repr

/-- The state of the block. `stageWord`: what a DMA transfer has written over the header's
BOOT_STAGE since it was last set (R355); `shapeNew`: this bring-up has changed the shape (R406); `coresUp`: the dies', clusters', granaries' and gates' control
cores run (R361, R397); `fwTurn`: the mailbox at which firmware's rotation stands (R365); `calLate`: the records that a CAL_WRITE replaced
since the last tick, whose effect lasts until it (R407). -/
structure State where
  pending : List Instr
  free : Nat
  outbox : List Emit
  regs : SMap Word
  shadow : SMap Word
  suspects : SMap Nat
  late : List Blk
  ctrs : SMap Nat
  snap : SMap Nat
  snapBeat : Option Word
  snapAsked : Bool
  rows : SMap RowSt
  lpddr : SMap LpRow
  checks : SMap (List (Nat × Bool))
  lpPatrol : SMap Nat
  window : List Host.Cell
  moves : SMap (Option PageMove)
  ceRows : List (Nat × Nat × Nat)
  retiredRows : List (Nat × Nat × Nat)
  copying : List (Nat × Nat × Nat)
  epoch : SMap Bool
  walk : List (Nat × Nat × Word)
  bringups : List Bringup
  seals : List SealWait
  pinned : List Nat
  goneViews : List Nat
  copyGone : List Nat
  tasks : List Task
  taskSeq : Nat
  groups : List Group
  engs : SMap Eng
  cores : SMap Core
  clus : SMap Clus
  chans : SMap Chan
  waits : List (RowRef × Waiter)
  arrivals : List Arrival
  jobs : SMap Job
  parts : SMap Part
  power : SMap DiePower
  edgeDraw : Nat
  powerOver : Bool
  grng : SMap (Word × Bool)
  win : Option WinRun
  tithes : List TitheRun
  titheSeq : Nat
  packetsOut : List RedOut
  restore : Option RestoreRun
  ports : SMap Port
  gates : SMap Gate
  loop : List Frame
  beat : Beat
  mbxWaits : List MbxWait
  mods : List Mod
  lostTags : List Nat
  hostLost : Bool
  bootStage : Nat
  stageWord : Option Word
  evHead : Word
  evTail : Word
  evLost : Nat
  evOver : Nat
  fw : List FwOut
  cplq : SMap (List Word)
  sec : Sec
  nv : Nv
  shape : Shape
  mesh : Mesh
  bring : Option (FwCmd × BringIn)
  shapeNew : Bool
  coresUp : Bool
  defects : Defects
  fwTurn : Nat
  seedPack : Option Nat
  seedSets : List Nat
  minSvn : Nat
  calDue : List Nat
  calLate : List (Nat × Option (List Byte))
  passedAt : SMap Nat
  testFirst : List Nat
  window_ : Option Window
  board : Board
  deriving DecidableEq, Repr

/-! What an unlisted key of each sparse map holds. -/

def Progress.init : Progress := ⟨0, 0, []⟩

def RowSt.init : RowSt := ⟨0, .empty, none, none, none⟩

def LpRow.init : LpRow := ⟨0, 0⟩

def Eng.init : Eng := ⟨none, false, none, none, [], [], []⟩

def Core.init : Core := ⟨none, [], [], none, none, [], 0, 0, [], 0, false, 0, 0, 0, false, [], [], [], false⟩

def Clus.init : Clus := ⟨[], 0, 0, [], []⟩

def Chan.init : Chan := ⟨[], [], 0, none, [], [], [], none, []⟩

/-- The defaults of Table 11-3. -/
def StepCfg.init : StepCfg := ⟨0x3F800000, 0, 0, 50, 0, 0, false, []⟩

def Job.init : Job :=
  { stat := .free, manifest := [], manifestNext := [], frozen := [], frozenNext := none, drained := false, record := 0,
    stopSource := 0, stage := .none, t := 0, lastT := none, lr := 0, cfg := .init, cfgNext := none, clearing := false,
    packets := [], device := none, result := none, clip := 0, pub := [], pubSel := 0, tithe := none,
    titheNext := none, restores := [], report := [], reportT := 0, normOut := [], stopDue := false, viewless := false,
    scrubbed := false, arrived := none }

def Part.init : Part := ⟨0, 0, false, none, ⟨0, [], [], [], [], [], none, 0, 0, false⟩, false, false⟩

def DiePower.init : DiePower := ⟨0, [], 0⟩

def Port.init : Port :=
  { txNext := 0, replay := [], credits := 0, sinceCtl := 0, replays := 0, rxNext := 0, rxArr := 0, rxHeld := [],
    rxFreed := 0, unacked := 0, nak := false, bucket := 256, dry := false, wasDry := false, hello := false,
    proof := false, rekey := false, rekeyAsk := false, segment := [], rxSeg := 0, txSegment := [], txSeg := 0,
    segTags := [], segFail := false, keyRx := 0, keyTx := 0,
    mine := none, theirs := none, quote := none, blocked := [] }

def Gate.init : Gate := ⟨[], [], []⟩

def Nv.init : Nv := ⟨Config.identityChain, true, [], [], [], [], 0, none⟩

/-- The identity map of a cluster's cores (R400, first rule). A cluster's map before bring-up writes it has no reset value in the manual: the model
puts the identity map (DESIGN CHOICE, log 3). -/
def identityMap : BitVec 32 := 0x76543210

def Shape.init : Shape := ⟨[], [], [], [], [], [], [], 0⟩

/-- Nothing is powered and no table is written before bring-up. -/
def Mesh.init : Mesh := ⟨[], [], []⟩

def Sec.init : Sec := ⟨0, 0, 0, [], 0, 0, 0, 0, false, false, []⟩

def Board.init : Board := ⟨false, [], false, [], 0, 0, false, 2, 0, []⟩

/-- The device after power-on: MGT_RST_N is still asserted (R446), every register is at its reset value (R6, R7), every
store is zero and EMPTY, and no command waits. Values the manual does not give are those of log 3. -/
def State.reset : State :=
  { pending := [], free := 0, outbox := [], regs := [], shadow := [], suspects := [], late := [], ctrs := [], snap := [],
    snapBeat := none, snapAsked := false, rows := [], lpddr := [], checks := [], lpPatrol := [], window := [], moves := [],
    ceRows := [], retiredRows := [], copying := [], epoch := [], walk := [], bringups := [], seals := [], pinned := [], goneViews := [], copyGone := [], tasks := [], taskSeq := 0,
    groups := [], engs := [], cores := [], clus := [], chans := [], waits := [], arrivals := [], jobs := [], parts := [], power := [], edgeDraw := 0,
    powerOver := false, grng := [], win := none, tithes := [], titheSeq := 0, packetsOut := [], restore := none, ports := [], gates := [], loop := [], beat := ⟨false, 0, none, 0, 0, 0, 0, false, false⟩, mbxWaits := [],
    mods := [.down, .down], lostTags := [], hostLost := false, bootStage := 0, stageWord := none, evHead := 0, evTail := 0, evLost := 0,
    evOver := 0, fw := [], cplq := [], sec := .init, nv := .init, shape := .init, mesh := .init, bring := none, shapeNew := false,
    coresUp := false, defects := ⟨[], [], []⟩, fwTurn := 0, seedPack := none,
    seedSets := [], minSvn := 0, calDue := [], calLate := [], passedAt := [], testFirst := [], window_ := none, board := .init }

end Sys2Proof.Machine
end

