-- ==== Sys2Proof/Machine/Ops.lean ====
section
/-! DEFINITION. The named operations over registers, counters, the shape, rows, the host window, mailboxes and events that
the meanings share. -/

namespace Sys2Proof.Machine

/-- What a meaning answers. -/
abbrev Res := Host.Outcome State Fault Refusal

/-- The row's event has its effect where the state gives it an occasion; where it cannot happen, nothing changes (log 21). -/
def need (c : Bool) (s : State) (r : Res) : Res := if c then r else .next s

/-- The units the operands name must exist (Table 1-6). -/
def unitOk (c : Bool) (r : Res) : Res := if c then r else .fault .noSuchUnit

/-- The row exists (Table 1-6). -/
def rowExists : RowRef → Bool
  | .near c row => decide (c < 2304 ∧ row < 8192)
  | .loft cl row => decide (cl < 288 ∧ row < 1048576)

/-! Registers. -/

/-- The word in force at a register. -/
def State.rd (s : State) (r : Reg) : Word := SMap.get resetAt s.regs r.addr

def State.wr (s : State) (r : Reg) (w : Word) : State := { s with regs := SMap.put resetAt s.regs r.addr w }

/-- A field in force. -/
def State.fld (s : State) (r : Reg) (f : Fld) : Nat := bits (s.rd r) f.lo f.len

def State.flag (s : State) (r : Reg) (f : Fld) : Bool := s.fld r f != 0

/-- Hardware writes a field. -/
def State.setFld (s : State) (r : Reg) (f : Fld) (v : Nat) : State := s.wr r (setBits (s.rd r) f.lo f.len v)

def State.setBitOf (s : State) (r : Reg) (i : Nat) (b : Bool) : State := s.wr r (setBit (s.rd r) i b)

/-- The shadow word of a register with RW-S fields. -/
def State.rdS (s : State) (r : Reg) : Word := SMap.get resetAt s.shadow r.addr

def State.wrS (s : State) (r : Reg) (w : Word) : State := { s with shadow := SMap.put resetAt s.shadow r.addr w }

def State.fldS (s : State) (r : Reg) (f : Fld) : Nat := bits (s.rdS r) f.lo f.len

/-- BEAT_NUMBER (R34). -/
def State.beatNo (s : State) : Word := s.rd .beatNumber

/-- BEAT_NUMBER[31:0], as the logs record it. -/
def State.beat32 (s : State) : Nat := bits s.beatNo 0 32

/-! Free values (log 1). -/

def State.freshWord (s : State) : Word × State := (Config.freeWord s.free, { s with free := s.free + 1 })

/-! What the device sends. -/

def State.emit (s : State) (e : Emit) : State := { s with outbox := s.outbox ++ [e] }

/-! Shape. -/

/-- The cluster of a core of the register space: logical cores first, then each cluster's fallow core. -/
def coreCluster (c : Nat) : Nat := if c < 2304 then c / 8 else c - 2304
def coreDie (c : Nat) : Nat := c / 64
def clusterDie (cl : Nat) : Nat := cl / 8

/-- The logical-to-physical map of a cluster in force (R14). -/
def State.coreMap (s : State) (cl : Nat) : BitVec 32 := SMap.get (fun _ => identityMap) s.shape.maps cl

/-- The physical core that a cluster's map does not name: its fallow core where one is left. -/
def State.fallowPhys (s : State) (cl : Nat) : Nat :=
  ((List.range 9).find? fun p => !(List.range 8).any fun k => bits (s.coreMap cl) (4 * k) 4 == p).getD 8

/-- The physical core of a logical core, 15 for a hole; of a fallow core. -/
def State.physOf (s : State) (c : Nat) : Nat := if c < 2304 then bits (s.coreMap (c / 8)) (4 * (c % 8)) 4 else s.fallowPhys (c - 2304)

def State.coreHole (s : State) (c : Nat) : Bool :=
  decide (s.physOf c = 15) || s.shape.clusterHoles.contains (c / 8) || s.shape.dieHoles.contains (c / 64)

def State.clusterHole (s : State) (cl : Nat) : Bool :=
  s.shape.clusterHoles.contains cl || s.shape.dieHoles.contains (cl / 8)

def State.dieHole (s : State) (d : Nat) : Bool := s.shape.dieHoles.contains d

/-- Whether a partition is enabled (MGT_PARTp.EN). -/
def State.partEn (s : State) (p : Nat) : Bool := s.flag (.mgtPart p) F.mgtPartEn

/-- Whether a die lies in an enabled partition's rectangle (R306). -/
def State.dieIn (s : State) (p d : Nat) : Bool :=
  let r0 := s.fld (.mgtPart p) F.mgtPartRow0
  let c0 := s.fld (.mgtPart p) F.mgtPartCol0
  s.partEn p && decide (r0 ≤ d / 6 ∧ d / 6 < r0 + s.fld (.mgtPart p) F.mgtPartRows
    ∧ c0 ≤ d % 6 ∧ d % 6 < c0 + s.fld (.mgtPart p) F.mgtPartCols)

/-- The partition of a die. -/
def State.partOfDie (s : State) (d : Nat) : Option Nat := (List.range 12).find? fun p => s.dieIn p d

def State.partOfCluster (s : State) (cl : Nat) : Option Nat := s.partOfDie (cl / 8)
def State.partOfCore (s : State) (c : Nat) : Option Nat := s.partOfDie (c / 64)

/-- The dies of a partition that are not holes. -/
def State.diesOf (s : State) (p : Nat) : List Nat := (List.range 36).filter fun d => s.dieIn p d && !s.dieHole d

/-- The clusters of a partition that are not holes. -/
def State.clustersOf (s : State) (p : Nat) : List Nat :=
  (s.diesOf p).flatMap fun d => (List.range 8).filterMap fun k => if s.clusterHole (8 * d + k) then none else some (8 * d + k)

def State.coresOf (s : State) (p : Nat) : List Nat :=
  (s.clustersOf p).flatMap fun cl => (List.range 8).filterMap fun k => if s.coreHole (8 * cl + k) then none else some (8 * cl + k)

/-- A partition is RESETTING (Table 14-2). -/
def State.resetting (s : State) (p : Nat) : Bool := decide (s.fld (.mgtPart p) F.mgtPartState = 2)

/-- Agent IDs (Table 1-7). -/
def agentCore (c : Nat) : Nat := 0x1000 + c
def agentDie (d : Nat) : Nat := 0x200 + d
def agentCluster (cl : Nat) : Nat := 0x400 + cl
def agentGranary (g : Nat) : Nat := 0x600 + g
def agentGate (g : Nat) : Nat := 0x700 + g
def agentMgmt : Nat := 0x100
def isMgmt (a : Nat) : Bool := decide (0x100 ≤ a ∧ a < 0x104)
def isHost (a : Nat) : Bool := decide (1 ≤ a ∧ a < 0x100)

/-- A replicated table is read in the first granary, or gate, in service: its replicas are equal (R218, R286, R337). -/
def State.homeGran (s : State) : Nat := ((List.range 24).find? fun g => !s.shape.deadGran.contains g).getD 0
def State.homeGate (s : State) : Nat := ((List.range 4).find? fun g => !s.shape.deadGate.contains g).getD 0

/-! Counters (R437, R439). -/

/-- A counter's class and number within the class (Table 21-1). -/
structure Ctr where
  cls : Nat
  num : Nat
  deriving DecidableEq, Repr

def ctrKey (c : Ctr) (unit sub : Nat) : Nat := ((c.cls * 65536 + unit) * 4096 + c.num) * 256 + sub

def zeroNat (_ : Nat) : Nat := 0

def State.ctr (s : State) (c : Ctr) (unit : Nat) (sub : Nat := 0) : Nat := SMap.get zeroNat s.ctrs (ctrKey c unit sub)

def State.setCtr (s : State) (c : Ctr) (unit sub v : Nat) : State :=
  { s with ctrs := SMap.put zeroNat s.ctrs (ctrKey c unit sub) v }

/-- A counter counts upward and saturates (R437). -/
def State.count (s : State) (c : Ctr) (unit : Nat) (n : Nat := 1) (sub : Nat := 0) : State :=
  s.setCtr c unit sub (min (s.ctr c unit sub + n) (2 ^ 64 - 1))

/-- The counter instance of a core: that of the physical core (R438). -/
def State.physKey (s : State) (c : Nat) : Nat := 9 * coreCluster c + s.physOf c

def State.countCore (s : State) (c : Ctr) (core : Nat) (n : Nat := 1) : State := s.count c (s.physKey core) n

def State.countEng (s : State) (c : Ctr) (eng : Nat) (n : Nat := 1) : State := s.count c (s.physKey (eng / 2)) n (eng % 2)

def C.mePasses : Ctr := ⟨1, 0⟩
def C.meRowsFed : Ctr := ⟨1, 1⟩
def C.meRowsMasked : Ctr := ⟨1, 2⟩
def C.meLoadStall : Ctr := ⟨1, 3⟩
def C.meTallySlots : Ctr := ⟨1, 7⟩
def C.tallyChecks : Ctr := ⟨1, 9⟩
def C.tallyMismatch : Ctr := ⟨1, 10⟩
def C.tallySkip : Ctr := ⟨1, 11⟩
def C.tallyRerunSame : Ctr := ⟨1, 12⟩
def C.tallyRepeat : Ctr := ⟨1, 13⟩
def C.spNmTiles : Ctr := ⟨1, 14⟩
def C.spBitmapTiles : Ctr := ⟨1, 15⟩
def C.spFallbackTiles : Ctr := ⟨1, 16⟩
def C.spSlicesFed : Ctr := ⟨1, 17⟩
def C.spFloorSlots : Ctr := ⟨1, 18⟩
def C.spScatterAdds : Ctr := ⟨1, 19⟩
def C.spViolation : Ctr := ⟨1, 20⟩
def C.vuLines : Ctr := ⟨2, 0⟩
def C.vuTxLines : Ctr := ⟨2, 1⟩
def C.vuRedLines : Ctr := ⟨2, 2⟩
def C.vuNbwdRows : Ctr := ⟨2, 3⟩
def C.mvpBlocks : Ctr := ⟨2, 6⟩
def C.spEncFallback : Ctr := ⟨2, 9⟩
def C.glNeurons : Ctr := ⟨2, 10⟩
def C.glSelected : Ctr := ⟨2, 11⟩
def C.glAuditTasks : Ctr := ⟨2, 12⟩
def C.glAudTrue : Ctr := ⟨2, 13⟩
def C.glAudHit : Ctr := ⟨2, 14⟩
def C.glAudFalsePos : Ctr := ⟨2, 15⟩
def C.coSwitches : Ctr := ⟨2, 16⟩
def C.gaRows : Ctr := ⟨2, 20⟩
def C.gaMisses : Ctr := ⟨2, 21⟩
def C.gaRange : Ctr := ⟨2, 23⟩
def C.dmaKickSkipped : Ctr := ⟨2, 24⟩
def C.taskFaults : Ctr := ⟨2, 25⟩
def C.memCeNear : Ctr := ⟨2, 28⟩
def C.memUeNear : Ctr := ⟨2, 29⟩
def C.tagParityNear : Ctr := ⟨2, 30⟩
def C.poisonReadsNear : Ctr := ⟨2, 31⟩
def C.siloPushRows : Ctr := ⟨2, 32⟩
def C.siloPopRows : Ctr := ⟨2, 33⟩
def C.ccRows : Ctr := ⟨2, 36⟩
def C.srRneFallback : Ctr := ⟨2, 37⟩
def C.dspDispatched : Ctr := ⟨3, 0⟩
def C.dspDescRefused : Ctr := ⟨3, 1⟩
def C.dspFrozenDropped : Ctr := ⟨3, 2⟩
def C.dspCheckedSuspect : Ctr := ⟨3, 3⟩
def C.specCommit : Ctr := ⟨3, 4⟩
def C.specDiscard : Ctr := ⟨3, 5⟩
def C.specHeld : Ctr := ⟨3, 6⟩
def C.specBadVerdict : Ctr := ⟨3, 7⟩
def C.memCeLoft : Ctr := ⟨3, 9⟩
def C.memUeLoft : Ctr := ⟨3, 10⟩
def C.tagParityLoft : Ctr := ⟨3, 11⟩
def C.poisonReadsLoft : Ctr := ⟨3, 12⟩
def C.scrubDeferred : Ctr := ⟨3, 13⟩
def C.ccacheHits : Ctr := ⟨3, 14⟩
def C.ccacheMisses : Ctr := ⟨3, 15⟩
def C.ccacheUe : Ctr := ⟨3, 16⟩
def C.dspCarried : Ctr := ⟨3, 17⟩
def C.dspCarryAbort : Ctr := ⟨3, 18⟩
def C.coreWatchdog : Ctr := ⟨3, 19⟩
def C.dmaRowsRead : Ctr := ⟨4, 0⟩
def C.dmaRowsWritten : Ctr := ⟨4, 1⟩
def C.dmaConvSat : Ctr := ⟨4, 2⟩
def C.dmaDescFetch : Ctr := ⟨4, 3⟩
def C.dmaCsiloFull : Ctr := ⟨4, 5⟩
def C.dmaPartial : Ctr := ⟨4, 6⟩
def C.dmaErrors : Ctr := ⟨4, 7⟩
def C.pwrRestBeats : Ctr := ⟨5, 0⟩
def C.calGuardClamp : Ctr := ⟨5, 1⟩
def C.ftPatterns : Ctr := ⟨5, 2⟩
def C.ftFails : Ctr := ⟨5, 3⟩
def C.grnCe : Ctr := ⟨6, 0⟩
def C.grnUe : Ctr := ⟨6, 1⟩
def C.grnCheckMiss : Ctr := ⟨6, 2⟩
def C.grnPageFaults : Ctr := ⟨6, 3⟩
def C.grnClassRefused : Ctr := ⟨6, 4⟩
def C.grnAccRows : Ctr := ⟨6, 5⟩
def C.grnSrFallback : Ctr := ⟨6, 6⟩
def C.winElems : Ctr := ⟨6, 7⟩
def C.winGranules : Ctr := ⟨6, 8⟩
def C.winPubRows : Ctr := ⟨6, 9⟩
def C.winNonfinite : Ctr := ⟨6, 10⟩
def C.winPoisonGranules : Ctr := ⟨6, 11⟩
def C.winLazyRows : Ctr := ⟨6, 12⟩
def C.winLazySkipped : Ctr := ⟨6, 13⟩
def C.winLazySkew : Ctr := ⟨6, 14⟩
def C.winSkew : Ctr := ⟨6, 15⟩
def C.titheSlots : Ctr := ⟨6, 16⟩
def C.titheFailed : Ctr := ⟨6, 17⟩
def C.gateOtFull : Ctr := ⟨7, 0⟩
def C.gateParkFull : Ctr := ⟨7, 1⟩
def C.gateTimeouts : Ctr := ⟨7, 2⟩
def C.gateLateResp : Ctr := ⟨7, 3⟩
def C.linkFramesTx : Ctr := ⟨8, 0⟩
def C.linkFramesRx : Ctr := ⟨8, 1⟩
def C.linkFecCorr : Ctr := ⟨8, 2⟩
def C.linkFecUncorr : Ctr := ⟨8, 3⟩
def C.linkCrcErr : Ctr := ⟨8, 4⟩
def C.linkReplay : Ctr := ⟨8, 5⟩
def C.linkRetrain : Ctr := ⟨8, 6⟩
def C.linkAuthFail : Ctr := ⟨8, 7⟩
def C.linkSegTagFail : Ctr := ⟨8, 8⟩
def C.gateNackSent : Ctr := ⟨8, 9⟩
def C.gateNackRecv : Ctr := ⟨8, 10⟩
def C.gateNackThrottled : Ctr := ⟨8, 11⟩
def C.gateMalformed : Ctr := ⟨8, 12⟩
def C.used : Ctr := ⟨9, 0⟩
def C.pfIssued : Ctr := ⟨9, 1⟩
def C.pfUsed : Ctr := ⟨9, 2⟩
def C.pfLate : Ctr := ⟨9, 3⟩
def C.pfEvicted : Ctr := ⟨9, 4⟩
def C.pfClipped : Ctr := ⟨9, 5⟩
def C.pfStale : Ctr := ⟨9, 6⟩
def C.ttTouches : Ctr := ⟨9, 7⟩
def C.ttBringups : Ctr := ⟨9, 8⟩
def C.ttBringupRows : Ctr := ⟨9, 9⟩
def C.ttDeadlineMiss : Ctr := ⟨9, 10⟩
def C.ttFbLower : Ctr := ⟨9, 11⟩
def C.ttFbGlean : Ctr := ⟨9, 12⟩
def C.ttFbSkip : Ctr := ⟨9, 13⟩
def C.ttFbUnavailable : Ctr := ⟨9, 14⟩
def C.ttPinWait : Ctr := ⟨9, 15⟩
def C.rollbacks : Ctr := ⟨9, 16⟩
def C.redLate : Ctr := ⟨9, 17⟩
def C.wlSuspect : Ctr := ⟨10, 0⟩
def C.wlRetired : Ctr := ⟨10, 1⟩
def C.wlDue : Ctr := ⟨10, 2⟩
def C.wlFull : Ctr := ⟨10, 3⟩
def C.wlSpareExhausted : Ctr := ⟨10, 4⟩
def C.beatMarkSkew : Ctr := ⟨10, 5⟩
def C.hostLaneRepair : Ctr := ⟨10, 6⟩
def C.mbxTimeouts : Ctr := ⟨10, 7⟩
def C.mbxResetDrop : Ctr := ⟨10, 8⟩
def C.fwCplDropped : Ctr := ⟨10, 9⟩
def C.evLost : Ctr := ⟨10, 10⟩

/-- Job counters are kept per partition and job, summed over clusters (Table 21-1). -/
def jobKey (p j : Nat) : Nat := 16 * p + j

def State.countJob (s : State) (c : Ctr) (p j : Nat) (n : Nat := 1) : State := s.count c (jobKey p j) n

/-! The host window (R355). -/

/-- One byte of the window; a byte nothing has written is 0 (log 3). -/
def zeroByte (_ : Nat) : Byte := 0

def State.winByte (s : State) (a : Nat) : Byte := SMap.get zeroByte s.window a

/-- `n` little-endian bytes of the window as a number (R4). -/
def State.winRead (s : State) (a n : Nat) : Nat := packNat 8 ((List.range n).map fun i => (s.winByte (a + i)).toNat)

def winWriteBytes (m : List Host.Cell) (a : Nat) : List Byte → List Host.Cell
  | [] => m
  | b :: t => winWriteBytes (SMap.put zeroByte m a b) (a + 1) t

def bytesOf (n v : Nat) : List Byte := (List.range n).map fun i => BitVec.ofNat 8 (v / 2 ^ (8 * i))

def State.winWrite (s : State) (a n v : Nat) : State := { s with window := winWriteBytes s.window a (bytesOf n v) }

/-- A byte of the header: BOOT_STAGE, EV_HEAD, EV_TAIL, EV_LOST. -/
def State.headerByte (s : State) (a : Nat) : Byte :=
  let ws := [(s.stageWord.getD (BitVec.ofNat 64 s.bootStage)).toNat, s.evHead.toNat, s.evTail.toNat, s.evLost]
  BitVec.ofNat 8 (ws.getD (a / 8) 0 / 2 ^ (8 * (a % 8)))

/-- A row of the window as FIRMWARE DMA reads it (Table 16-4). -/
def State.winRow (s : State) (a : Nat) : Row :=
  BitVec.ofNat 4096 (packNat 8 ((List.range 512).map fun i => (if a + i < 32 then s.headerByte (a + i) else s.winByte (a + i)).toNat))

/-- A row of the window as FIRMWARE DMA writes it: the header's words are those that firmware keeps. -/
def State.winPutRow (s : State) (a : Nat) (d : Row) : State :=
  if a = 0 then
    State.winWrite { s with stageWord := some (d.extractLsb' 0 64), evHead := d.extractLsb' 64 64, evTail := d.extractLsb' 128 64,
                            evLost := bits d 192 64 } 32 480 (d.toNat / 2 ^ 256)
  else s.winWrite a 512 d.toNat

/-! Rows (R184, R187). -/

/-- Where a row is kept: near stores below 2^32, lofts above. -/
def rowKey : RowRef → Nat
  | .near c r => c * 8192 + r
  | .loft cl r => 2 ^ 32 + cl * 2 ^ 20 + r

/-- The cluster whose stores hold the row. -/
def rowCluster : RowRef → Nat
  | .near c _ => coreCluster c
  | .loft cl _ => cl

def rowIsNear : RowRef → Bool
  | .near _ _ => true
  | .loft _ _ => false

/-- A device address in space 0x2 or 0x1 (Tables 1-8, 1-9). -/
def rowAddr : RowRef → Nat
  | .near c r => 0x20000000000000 + c * 2 ^ 22 + r * 512
  | .loft cl r => 0x10000000000000 + cl * 2 ^ 29 + r * 512

def rowInit (_ : Nat) : RowSt := RowSt.init

def State.row (s : State) (r : RowRef) : RowSt := SMap.get rowInit s.rows (rowKey r)

def State.setRow (s : State) (r : RowRef) (x : RowSt) : State := { s with rows := SMap.put rowInit s.rows (rowKey r) x }

def lpInit (_ : Nat) : LpRow := LpRow.init

/-- A row of LPDDR5X by frame and row of the frame. -/
def State.lp (s : State) (k : Nat) : LpRow := SMap.get lpInit s.lpddr k

def State.setLp (s : State) (k : Nat) (x : LpRow) : State := { s with lpddr := SMap.put lpInit s.lpddr k x }

/-! Sparse structures by unit. -/

def State.eng (s : State) (e : Nat) : Eng := SMap.get (fun _ => Eng.init) s.engs e
def State.setEng (s : State) (e : Nat) (x : Eng) : State := { s with engs := SMap.put (fun _ => Eng.init) s.engs e x }
def State.core (s : State) (c : Nat) : Core := SMap.get (fun _ => Core.init) s.cores c
def State.setCore (s : State) (c : Nat) (x : Core) : State := { s with cores := SMap.put (fun _ => Core.init) s.cores c x }
def State.cl (s : State) (k : Nat) : Clus := SMap.get (fun _ => Clus.init) s.clus k
def State.setCl (s : State) (k : Nat) (x : Clus) : State := { s with clus := SMap.put (fun _ => Clus.init) s.clus k x }
def chanKey (cl ch : Nat) : Nat := 32 * cl + ch
def State.chan (s : State) (cl ch : Nat) : Chan := SMap.get (fun _ => Chan.init) s.chans (chanKey cl ch)
def State.setChan (s : State) (cl ch : Nat) (x : Chan) : State :=
  { s with chans := SMap.put (fun _ => Chan.init) s.chans (chanKey cl ch) x }
def State.job (s : State) (p j : Nat) : Job := SMap.get (fun _ => Job.init) s.jobs (jobKey p j)
def State.setJob (s : State) (p j : Nat) (x : Job) : State :=
  { s with jobs := SMap.put (fun _ => Job.init) s.jobs (jobKey p j) x }
def State.part (s : State) (p : Nat) : Part := SMap.get (fun _ => Part.init) s.parts p
def State.setPart (s : State) (p : Nat) (x : Part) : State := { s with parts := SMap.put (fun _ => Part.init) s.parts p x }
def State.port (s : State) (p : Nat) : Port := SMap.get (fun _ => Port.init) s.ports p
def State.setPort (s : State) (p : Nat) (x : Port) : State := { s with ports := SMap.put (fun _ => Port.init) s.ports p x }
def State.gate (s : State) (g : Nat) : Gate := SMap.get (fun _ => Gate.init) s.gates g
def State.setGate (s : State) (g : Nat) (x : Gate) : State := { s with gates := SMap.put (fun _ => Gate.init) s.gates g x }
def State.die (s : State) (d : Nat) : DiePower := SMap.get (fun _ => DiePower.init) s.power d
def State.setDie (s : State) (d : Nat) (x : DiePower) : State :=
  { s with power := SMap.put (fun _ => DiePower.init) s.power d x }

/-! Tasks. -/

def State.task? (s : State) (id : Nat) : Option Task := s.tasks.find? fun t => t.id == id

def State.setTask (s : State) (t : Task) : State :=
  { s with tasks := s.tasks.map fun x => if x.id = t.id then t else x }

def State.modTask (s : State) (id : Nat) (f : Task → Task) : State :=
  { s with tasks := s.tasks.map fun x => if x.id = id then f x else x }

def State.dropTask (s : State) (id : Nat) : State := { s with tasks := s.tasks.filter fun x => x.id != id }

/-- Whether a task holds a slot of a core. -/
def Task.resident (t : Task) : Bool := match t.stat with
  | .ready => true
  | .running => true
  | .blocked => true
  | .completing => true
  | _ => false

/-- The task that issues on a core. -/
def State.running (s : State) (c : Nat) : Option Task :=
  s.tasks.find? fun t => decide (t.stat = .running) && t.core == c

def State.taskIn (s : State) (c slot : Nat) : Option Task :=
  s.tasks.find? fun t => t.resident && t.core == c && t.slot == slot

/-! Mailboxes (R358 to R364). -/

/-- A module is in X64 or X32 (Table 16-1). -/
def Mod.up : Mod → Bool
  | .x64 => true
  | .x32 _ => true
  | _ => false

/-- The partition of a die is in reset. -/
def State.dieResetting (s : State) (d : Nat) : Bool := match s.partOfDie d with
  | some p => s.resetting p
  | none => false

/-- The receiver of a mailbox is in reset (R361): the control cores of the main domain until bring-up has started them (log 80), those of a
partition while it is reset. A core's test controller has no reset of its own. -/
def State.receiverInReset (s : State) (b : MbxBlk) (n : Nat) : Bool :=
  let mgmtDown := decide (s.bootStage < 2)
  match b with
  | .mgmt => if n < 32 then mgmtDown else !s.mods.any Mod.up
  | .die d => if n < 32 then !s.coresUp || s.dieResetting d else mgmtDown
  | .cluster cl => n < 32 && (!s.coresUp || s.dieResetting (cl / 8))
  | _ => if n < 32 then !s.coresUp else mgmtDown

/-- A mailbox write ends without landing (Table 16-7): counted, and recorded when the log is free. -/
def State.mbxTimeout (s : State) (b : MbxBlk) (n sender reason : Nat) : State :=
  let s := match b with
    | .mgmt => s.count C.mbxTimeouts 0
    | _ => s
  if s.flag (.mbxToutLog b) F.mbxToutLogValid then s
  else s.wr (.mbxToutLog b) (BitVec.ofNat 64
    (packBits [(1, 1), (6, n), (1, 0), (2, reason), (6, 0), (16, sender), (32, s.beat32)]))

/-- The answer of a mailbox write, to the host as a RESPONSE, to a control core as an access answer. -/
def answerHdr (hdr : BitVec 128) (status reason : Nat) : BitVec 128 :=
  setBits (setBits (setBits hdr 0 4 3) 24 2 status) 28 4 reason

def State.answer (s : State) (host : Option (BitVec 128)) (sender : Nat) (status reason : Nat) : State :=
  match host with
  | some h => s.emit (.response (answerHdr h status reason) 0)
  | none => s.emit (.access sender status reason 0)

/-- The header of a NOTIFY (Table 16-3). -/
def notifyHdr (n : Nat) : BitVec 128 := BitVec.ofNat 128 (4 + n * 2 ^ 64)

/-- A word lands in an empty mailbox (R359). -/
def State.mbxLand (s : State) (b : MbxBlk) (n sender : Nat) (w : Word) : State :=
  let s := s.wr (.mbxData b n) w
  let s := s.setFld (.mbxSender b n) F.mbxSenderSender sender
  let s := s.setBitOf (.mbxStatus b) n true
  if bitAt (s.rd (.mbxInten b)) n then
    (match b with
      | .mgmt => if n < 32 then s.emit (.interrupt b n) else s.emit (.notify (notifyHdr n))
      | _ => s.emit (.interrupt b n))
  else s

def State.mbxFull (s : State) (b : MbxBlk) (n : Nat) : Bool := bitAt (s.rd (.mbxStatus b)) n

def State.mbxWaiting (s : State) (b : MbxBlk) (n : Nat) : Bool := bitAt (s.rd (.mbxWait b)) n

/-- A write reaches a mailbox (R359): it lands, waits, or ends by Table 16-7. Answers whether it ended without landing. -/
def State.mbxWrite (s : State) (b : MbxBlk) (n sender : Nat) (w : Word) (host : Option (BitVec 128)) : State × Bool :=
  if s.receiverInReset b n then ((s.mbxTimeout b n sender 2).answer host sender 2 2, true)
  else if !s.mbxFull b n then ((s.mbxLand b n sender w).answer host sender 0 0, false)
  else if s.mbxWaiting b n then ((s.mbxTimeout b n sender 3).answer host sender 2 3, true)
  else
    ({ s.setBitOf (.mbxWait b) n true with
        mbxWaits := s.mbxWaits ++ [⟨b, n, sender, w, s.fld (.mbxTimeout b) F.mbxTimeoutMs, host⟩] }, false)

/-- Take the waiting write of a mailbox out of the block. -/
def State.takeWait (s : State) (b : MbxBlk) (n : Nat) : Option MbxWait × State :=
  (s.mbxWaits.find? (fun x => decide (x.blk = b ∧ x.n = n)),
   { s.setBitOf (.mbxWait b) n false with mbxWaits := s.mbxWaits.filter fun x => !decide (x.blk = b ∧ x.n = n) })

/-- The agents of a block's two sides (Table 16-5). -/
def mbxInner (b : MbxBlk) (a : Nat) : Bool :=
  match b with
  | .mgmt => isMgmt a
  | .die d => a == 0x200 + d
  | .granary g => a == agentGranary g
  | .gate g => a == agentGate g
  | .cluster cl => a == agentCluster cl

def mbxOuter (b : MbxBlk) (a : Nat) : Bool :=
  match b with
  | .mgmt => isHost a
  | .cluster cl => decide (0x1000 ≤ a ∧ a < 0x1900) && (a - 0x1000) / 8 == cl
  | _ => isMgmt a

/-- Whether an agent sends, or receives, mailbox n of a block. -/
def mbxSends (b : MbxBlk) (n a : Nat) : Bool := if n < 32 then mbxOuter b a else mbxInner b a
def mbxReceives (b : MbxBlk) (n a : Nat) : Bool := if n < 32 then mbxInner b a else mbxOuter b a

/-- Locks whose owner meets a test are released (R361, R362). -/
def State.dropLocks (s : State) (p : Nat → Bool) : State :=
  (s.regs.filterMap fun (x : Nat × Word) => Reg.ofAddr x.1).foldl (fun (s : State) r => match r with
    | .mbxLock _ _ => if s.fld r F.mbxLockOwner ≠ 0 ∧ p (s.fld r F.mbxLockOwner) = true then s.wr r 0 else s
    | _ => s) s

/-- A receiver enters reset (R361): the words it has not read are lost, the writes that wait on its mailboxes end. -/
def State.mbxReset (s : State) (b : MbxBlk) (lo : Nat) : State :=
  (List.range 32).foldl (fun (s : State) i =>
    let n := lo + i
    let s := if s.mbxFull b n then
        (match b with
          | .mgmt => (s.setBitOf (.mbxStatus b) n false).count C.mbxResetDrop 0
          | _ => s.setBitOf (.mbxStatus b) n false)
      else s
    match s.takeWait b n with
    | (some w, s') => (s'.mbxTimeout b n w.sender 2).answer w.host w.sender 2 2
    | (none, _) => s) s

/-! Completion words (R371) and events (R357, R376). -/

/-- Firmware writes the next completion word of an outbound mailbox when no write of it waits; a word whose write ends with
TIMEOUT is dropped and counted. -/
def State.pump (s : State) (n : Nat) : Nat → State
  | 0 => s
  | k + 1 =>
    if s.mbxWaiting .mgmt n then s else
    match SMap.get (fun _ => []) s.cplq n with
    | [] => s
    | w :: t =>
      let s := { s with cplq := SMap.put (fun _ => []) s.cplq n t }
      let (s, dropped) := s.mbxWrite .mgmt n agentMgmt w none
      (if dropped then s.count C.fwCplDropped 0 else s).pump n k

/-- Queue a completion word for outbound mailbox n. -/
def State.postWord (s : State) (n : Nat) (w : Word) : State :=
  ({ s with cplq := SMap.put (fun _ => []) s.cplq n (SMap.get (fun _ => []) s.cplq n ++ [w]) }).pump n 64

/-- The payload of an event record: byte offset, bytes, value. -/
abbrev Payload := List (Nat × Nat × Nat)

/-- Write one record to the event ring (Table 17-8) and advance EV_HEAD; mailbox 63 then carries EV_HEAD unless FULL. -/
def State.putEvent (s : State) (kind part job status : Nat) (pay : Payload) : State :=
  let a := 0x50000 + 64 * (s.evHead.toNat % 1024)
  let w0 := packBits [(8, kind), (4, part), (4, job), (16, status), (32, s.beat32)]
  let s := (s.winWrite a 64 0).winWrite a 8 w0
  let s := pay.foldl (fun s p => s.winWrite (a + p.1) p.2.1 p.2.2) s
  let s := { s with evHead := s.evHead + 1 }
  if s.mbxFull .mgmt 63 then s else (s.mbxWrite .mgmt 63 agentMgmt s.evHead none).1

/-- Room in the event ring; an EV_TAIL above EV_HEAD counts as EV_HEAD (R357). -/
def State.evRoom (s : State) : Bool := decide (s.evHead.toNat - min s.evTail.toNat s.evHead.toNat < 1024)

/-- Firmware reports an event (R357): lost while the ring is full; the first record after space returns is the overflow
record. -/
def State.post (s : State) (kind part job status : Nat) (pay : Payload) : State :=
  if !s.evRoom then ({ s with evLost := s.evLost + 1, evOver := s.evOver + 1 }).count C.evLost 0
  else
    let s := if s.evOver = 0 then s
      else { s.putEvent 0 0 0 0 [(8, 8, s.evOver)] with evOver := 0 }
    if !s.evRoom then ({ s with evLost := s.evLost + 1, evOver := s.evOver + 1 }).count C.evLost 0
    else s.putEvent kind part job status pay

/-- A FAULT event (R457, Table 17-12). -/
def State.fault (s : State) (agent cause detail index addr : Nat) : State :=
  s.post 8 0 0 0 [(8, 2, agent), (10, 1, cause), (11, 1, detail), (12, 4, index), (16, 8, addr)]

end Sys2Proof.Machine
end

