-- ==== Sys2Proof/Machine/Watch.lean ====
section
/-! DEFINITION. The watch list (R414 to R417) and errors found in near-store and loft rows (R190, R191). -/

namespace Sys2Proof.Machine

def sameUnit (e : WlEnt) (kind wh unit row : Nat) : Bool :=
  e.kind == kind && e.where_ == wh && e.unit == unit && (kind != 3 || e.row == row)

def State.wlFind (s : State) (kind wh unit row : Nat) : Option WlEnt := s.nv.watch.find? fun e => sameUnit e kind wh unit row

/-- The logical core, if any, that a physical core serves (R14). -/
def State.logicalOf (s : State) (cl phys : Nat) : Option Nat :=
  (List.range 8).find? fun k => s.physOf (8 * cl + k) == phys

/-- Whether a cluster still has a fallow core (FALLOW_LEFT). -/
def State.fallowLeft (s : State) (cl : Nat) : Bool := !s.shape.noFallow.contains cl && !s.clusterHole cl

/-- The core of the register space that a physical core answers as. -/
def State.coreOfPhys (s : State) (cl p : Nat) : Option Nat :=
  match s.logicalOf cl p with
  | some k => some (8 * cl + k)
  | none => if s.fallowLeft cl ∧ s.fallowPhys cl = p then some (2304 + cl) else none

/-- The places of a cluster's ME_SUSPECT registers: core of the register space and the physical core it shows, 15 for none. -/
def State.suspectPlaces (s : State) (cl : Nat) : List (Nat × Nat) :=
  ((List.range 8).map fun k => (8 * cl + k, s.physOf (8 * cl + k)))
    ++ [(2304 + cl, if s.fallowLeft cl then s.fallowPhys cl else 15)]

/-- ME_SUSPECT belongs to the physical core and is kept through every reset but power-on: before a map changes the counts are put
aside, and afterwards they show at their cores' new places. -/
def State.saveSuspects (s : State) (cl : Nat) : State :=
  let m := (s.suspectPlaces cl).foldl (fun (m : SMap Nat) q => if q.2 = 15 then m else
    [0, 1].foldl (fun (m : SMap Nat) e =>
      SMap.put (fun _ => 0) m ((9 * cl + q.2) * 2 + e) (s.fld (.meSuspect (2 * q.1 + e)) F.meSuspectCount)) m) s.suspects
  { s with suspects := m }

def State.loadSuspects (s : State) (cl : Nat) : State :=
  (s.suspectPlaces cl).foldl (fun (s : State) q => [0, 1].foldl (fun (s : State) e =>
    s.setFld (.meSuspect (2 * q.1 + e)) F.meSuspectCount
      (if q.2 = 15 then 0 else SMap.get (fun _ => 0) s.suspects ((9 * cl + q.2) * 2 + e))) s) s

/-- DSP_SUSPECT follows the watch list's suspect cores (R172, R417). -/
def State.syncSuspect (s : State) (cl : Nat) : State :=
  let v := ((List.range 8).filter fun k =>
    s.nv.watch.any fun e => e.kind == 1 && e.where_ == cl && e.unit == s.physOf (8 * cl + k) && e.state == 1)
  s.setFld (.dspSuspect cl) F.dspSuspectCores (v.foldl (fun a k => a + 2 ^ k) 0)

/-- Logical cores without a physical core. -/
def State.coreHoles (s : State) : List Nat :=
  s.shape.maps.flatMap fun (m : Nat × BitVec 32) => (List.range 8).filterMap fun k =>
    if bits m.2 (4 * k) 4 = 15 then some (8 * m.1 + k) else none

/-- The shape as the store keeps it (R402). -/
def State.shapeNow (s : State) : List Nat × List Nat × List Nat × List Nat :=
  (sortBy id s.shape.dieHoles, sortBy id s.shape.clusterHoles, sortBy id s.coreHoles, sortBy id s.shape.noFallow)

/-- The shape has changed: SHAPE_GEN counts, is stored with the maps, and a SHAPE event is posted (R377, R402). -/
def State.newShape (s : State) : State :=
  let g := s.shape.gen + 1
  ({ s with shape := { s.shape with gen := g },
            nv := { s.nv with maps := s.shape.maps, shapeGen := g, shape := some s.shapeNow } } : State).post 0x0C 0 0 0 [(8, 4, g)]

/-- A retired physical core is a dead core at once (R417, R427); a dead fallow core is simply removed. -/
def State.markDead (s : State) (cl phys : Nat) : State :=
  match s.logicalOf cl phys with
  | some k => s.setCore (8 * cl + k) { s.core (8 * cl + k) with dead := true }
  | none =>
    if s.fallowLeft cl ∧ s.fallowPhys cl = phys then
      State.newShape { s with shape := { s.shape with noFallow := s.shape.noFallow ++ [cl] } }
    else s

/-- The list's counts (Table 20-6), DSP_SUSPECT, and the store's fault event when it cannot be written (Table 20-5). -/
def State.wlSettle (s : State) (kind wh : Nat) : State :=
  let s := s.setCtr C.wlSuspect 0 0 (s.nv.watch.filter fun e => e.state == 1).length
  let s := s.setCtr C.wlRetired 0 0 (s.nv.watch.filter fun e => e.state == 2).length
  let s := if kind = 1 then s.syncSuspect wh else s
  if s.nv.readable then s else s.fault agentMgmt 0x13 0 0 0

/-- Change the entry of a unit, creating it (SUSPECT, or `fresh`) if it does not exist; a full list makes room or drops the
new entry (R416). An entry whose CONFIRM reaches 2 becomes RETIRED. -/
def State.wlChange (s : State) (kind wh unit row cause : Nat) (f : WlEnt → WlEnt) : State :=
  let fin := fun (e : WlEnt) =>
    let e := { f e with cause := cause }
    if kind != 3 && decide (2 ≤ e.confirm) then { e with state := 2 } else e
  let found := (s.wlFind kind wh unit row).isSome
  let fresh : WlEnt := ⟨kind, 1, wh, unit, 0, 0, cause, row, 0, 0⟩
  let oldest := s.nv.watch.find? fun e => e.state == 1 && e.confirm == 0
  let w' : Option (List WlEnt) :=
    if found then some (s.nv.watch.map fun e => if sameUnit e kind wh unit row then fin e else e)
    else if s.nv.watch.length < 3968 then some (s.nv.watch ++ [fin fresh])
    else match oldest with
      | some o => some (s.nv.watch.filter (fun e => !decide (e = o)) ++ [fin fresh])
      | none => none
  match w' with
  | none => s.count C.wlFull 0
  | some w =>
    let was := match s.wlFind kind wh unit row with
      | some e => e.state
      | none => 0
    let s := ({ s with nv := { s.nv with watch := w } }).wlSettle kind wh
    let now := match s.wlFind kind wh unit row with
      | some e => e.state
      | none => 0
    if kind = 1 ∧ now = 2 ∧ was ≠ 2 then s.markDead wh unit else s

/-- Keep the beats of evidence within a span that ends now. -/
def State.recent (s : State) (l : List Nat) (span : Nat) : List Nat :=
  (l ++ [s.beatNo.toNat]).filter fun b => decide (s.beatNo.toNat - b < span)

def State.suspectCore (s : State) (c cause : Nat) : State :=
  s.wlChange 1 (coreCluster c) (s.physOf c) 0 cause id

/-- CL_MEM_LOG records the first uncorrectable or parity error (R190, R191). -/
def State.memLog (s : State) (r : RowRef) (parity : Bool) : State :=
  let cl := rowCluster r
  if s.flag (.clMemLog cl) F.clMemLogValid then s else
  let (loft, core, row) := match r with
    | .near c n => (0, c % 8, n)
    | .loft _ n => (1, 0, n)
  s.wr (.clMemLog cl) (BitVec.ofNat 64
    (packBits [(1, 1), (1, loft), (1, b2n parity), (1, 0), (3, core), (20, row), (5, 0), (32, s.beat32)]))

/-- An uncorrectable or parity error as evidence (Table 20-2, sources 3 and 4) and as a death cause (R427). -/
def State.memEvidence (s : State) (r : RowRef) (parity : Bool) : State :=
  match r with
  | .near c _ =>
    let k := s.core c
    let l := s.recent k.ueBeats (2 ^ 20)
    let s := s.setCore c { k with ueBeats := l }
    let s := s.suspectCore c 3
    if 4 ≤ l.length then s.markDead (coreCluster c) (s.physOf c) else s
  | .loft cl n =>
    if parity then s else s.wlChange 2 cl (16 * (n / 524288) + n % 16) 0 4 id

/-- A corrected error as evidence: the sixteenth within 2^24 beats makes the unit SUSPECT. -/
def State.ceEvidence (s : State) (r : RowRef) : State :=
  match r with
  | .near c _ =>
    let k := s.core c
    let l := s.recent k.ceBeats (2 ^ 24)
    let s := s.setCore c { k with ceBeats := l }
    if 16 ≤ l.length then s.suspectCore c 3 else s
  | .loft cl n =>
    let bank := 16 * (n / 524288) + n % 16
    let k := s.cl cl
    let l := (k.ceBeats ++ [(bank, s.beatNo.toNat)]).filter fun p => decide (s.beatNo.toNat - p.2 < 2 ^ 24)
    let s := s.setCl cl { k with ceBeats := l }
    if 16 ≤ (l.filter fun p => p.1 == bank).length then s.wlChange 2 cl bank 0 4 id else s

/-- The agent a row error names: the near store's core, or the loft's cluster control core. -/
def rowAgent : RowRef → Nat
  | .near c _ => agentCore c
  | .loft cl _ => agentCluster cl

/-- What a read or the patrol finds in a row (R190, R191, Table 8-2). -/
def State.rowError (s : State) (r : RowRef) (e : RowErr) : State :=
  let near := rowIsNear r
  let det := if near then 0 else 1
  let x := s.row r
  match e with
  | .none => s
  | .single =>
    let s := match r with
      | .near c _ => s.countCore C.memCeNear c
      | .loft cl _ => s.count C.memCeLoft cl
    s.ceEvidence r
  | .double =>
    let s := match r with
      | .near c _ => s.countCore C.memUeNear c
      | .loft cl _ => s.count C.memUeLoft cl
    let s := if x.tag = .empty then s else s.setRow r { x with tag := .poison }
    ((s.memLog r false).fault (rowAgent r) 0x04 det 0 (rowAddr r)).memEvidence r false
  | .parity =>
    let s := match r with
      | .near c _ => s.countCore C.tagParityNear c
      | .loft cl _ => s.count C.tagParityLoft cl
    let s := s.setRow r { x with tag := .poison }
    ((s.memLog r true).fault (rowAgent r) 0x05 det 0 (rowAddr r)).memEvidence r true

end Sys2Proof.Machine
end

