-- ==== Sys2Proof/Machine/Operands.lean ====
section
/-! DEFINITION. Operand forms: task descriptors and their ranges (Tables 7-2, 7-3), command words (Tables 7-4 to 7-6), quotas
(R202) and output ranges (R162). -/

namespace Sys2Proof.Machine

/-! Task descriptors. -/

def Task.job (t : Task) : Nat := bits t.desc 0 4
def Task.spec (t : Task) : Bool := bitAt t.desc 8
def Task.checked (t : Task) : Bool := bitAt t.desc 9
def Task.frozenDw (t : Task) : Bool := bitAt t.desc 11
def Task.affinity (t : Task) : Nat := bits t.desc 16 8
def Task.group (t : Task) : Nat := bits t.desc 24 16
def Task.taskId (t : Task) : Nat := bits t.desc 48 16
def Task.progRow (t : Task) : Nat := bits t.desc 64 20
def Task.progLen (t : Task) : Nat := bits t.desc 84 12

/-- A range (Table 7-3). -/
structure Rng where
  kind : Nat
  core : Nat
  base : Nat
  count : Nat
  deriving DecidableEq, Repr

/-- Range i of a descriptor: 0 to 3 inputs, 4 and 5 outputs. -/
def descRange (d : BitVec 512) (i : Nat) : Rng :=
  let o := 128 + 64 * i
  ⟨bits d o 3, bits d (o + 3) 3, bits d (o + 8) 20, bits d (o + 28) 20⟩

def descInputs (d : BitVec 512) : List Rng := (List.range 4).map (descRange d)
def descOutputs (d : BitVec 512) : List Rng := [descRange d 4, descRange d 5]

/-- The verdict row of a descriptor: the base row of its VERDICT output. -/
def verdictRow (d : BitVec 512) : Option Nat := ((descOutputs d).find? fun r => r.kind == 6).map Rng.base

/-- A verifier has a VERDICT output (R174). -/
def Task.verifier (t : Task) : Bool := (verdictRow t.desc).isSome

/-! Quotas (R202). -/

def State.nearBase (s : State) (cl j : Nat) : Nat := s.fld (.clNquota cl j) F.clNquotaNsBase
def State.nearRows (s : State) (cl j : Nat) : Nat := s.fld (.clNquota cl j) F.clNquotaNsRows
def State.loftBase (s : State) (cl j : Nat) : Nat := s.fld (.clLquota cl j) F.clLquotaLoftBase
def State.loftRows (s : State) (cl j : Nat) : Nat := s.fld (.clLquota cl j) F.clLquotaLoftRows

def State.inNear (s : State) (cl j row : Nat) : Bool :=
  decide (s.nearBase cl j ≤ row ∧ row < s.nearBase cl j + s.nearRows cl j)

def State.inLoft (s : State) (cl j row : Nat) : Bool :=
  decide (s.loftBase cl j ≤ row ∧ row < s.loftBase cl j + s.loftRows cl j)

def rowLimit : RowRef → Nat
  | .near _ _ => 8192
  | .loft _ _ => 1048576

def rowNo : RowRef → Nat
  | .near _ r => r
  | .loft _ r => r

/-- The row lies in the job's quota. -/
def State.inQuota (s : State) (j : Nat) : RowRef → Bool
  | .near c r => s.inNear (c / 8) j r
  | .loft cl r => s.inLoft cl j r

def nearRowsOf (c base n : Nat) : List RowRef := (List.range n).map fun i => .near c (base + i)
def loftRowsOf (cl base n : Nat) : List RowRef := (List.range n).map fun i => .loft cl (base + i)

/-- Rows of a task's own near store, or of its cluster's loft. -/
def rowsOf (t : Task) (loft : Bool) (base n : Nat) : List RowRef :=
  if loft then loftRowsOf t.cl base n else nearRowsOf t.core base n

/-! Command words. -/

abbrev CmdWord := BitVec 128

/-- Bits of a word outside the fields it uses are not all 0 (R158, R159). -/
def stray {n : Nat} (w : BitVec n) (used : List (Nat × Nat)) : Bool :=
  (w &&& ~~~ (used.foldl (fun m f => m ||| fieldMask n f.1 f.2) 0)) != 0

def cwOp (w : CmdWord) : Nat := bits w 0 8
def cwFmt (w : CmdWord) : Nat := bits w 8 4
def cwRound (w : CmdWord) : Nat := bits w 12 2
def cwTrans (w : CmdWord) : Bool := bitAt w 14
def cwSpf (w : CmdWord) : Bool := bitAt w 15
def cwOver (w : CmdWord) : Bool := bitAt w 16
def cwEng (w : CmdWord) : Nat := bits w 17 1
def cwAcc (w : CmdWord) : Bool := bitAt w 18
def cwFmt2 (w : CmdWord) : Nat := bits w 20 4
def cwExt (w : CmdWord) : Nat := bits w 24 8

/-- The OP codes of Table 7-5; every other code is reserved. -/
def opCodes : List Nat :=
  [0x00, 0x01, 0x10, 0x11, 0x12, 0x20, 0x21, 0x22, 0x23, 0x24, 0x25, 0x26, 0x30, 0x31, 0x40, 0x50, 0x60, 0x61, 0x62, 0x63,
   0x70, 0x80]

/-- Why a command does not run to its end now. -/
inductive Stop where
  /-- It waits on a row (R188, R165). -/
  | row (r : RowRef) (a : Access)
  /-- It waits on a silo's credit or pending appends or takes (R194, R195). -/
  | silo (x : SiloRef)
  /-- Its unit or a shared resource is taken (R165). -/
  | unit (x : Taken)
  /-- It waits at issue for the task's own earlier work (R164): nothing changes. -/
  | stall
  /-- A read met a POISON row. -/
  | poison (r : RowRef)
  /-- A task fault of Table 7-8 with its address. -/
  | fault (cause addr : Nat)
  deriving DecidableEq, Repr

/-- A command's effect, or why it stops. -/
abbrev Ex (α : Type) := Except Stop α

def badCommand {α : Type} : Ex α := .error (.fault 1 0)
def addressFault {α : Type} (a : Nat) : Ex α := .error (.fault 2 a)

/-- Goes on only where the condition holds; else BAD_COMMAND. -/
def require (c : Bool) : Ex Unit := if c then .ok () else badCommand

/-- Rows named outside the job's quota fault with ADDRESS, and rows beyond the range of their field with BAD_COMMAND;
ADDRESS wins over every other cause (R161). -/
def State.quota (s : State) (t : Task) (rs : List RowRef) : Ex Unit :=
  match rs.find? fun r => decide (rowNo r < rowLimit r) && !s.inQuota t.job r with
  | some r => addressFault (rowAddr r)
  | none => .ok ()

def inRange (rs : List RowRef) : Bool := rs.all fun r => decide (rowNo r < rowLimit r)

/-- A near-store row lies in an output range of the task (R162). -/
def Task.mayWrite (t : Task) (row : Nat) : Bool :=
  (descOutputs t.desc).any fun r => (r.kind == 1 && decide (r.base ≤ row ∧ row < r.base + r.count))
    || (r.kind == 6 && r.base == row)

/-- Rows already appended by the task to a silo. -/
def Task.pushed (t : Task) (x : SiloRef) : Nat :=
  (t.pushes.filter fun p => decide (p.1 = x)).foldl (fun a p => a + p.2) 0

/-- Appends stay within the silo output's COUNT over the task (R162). -/
def Task.mayPush (t : Task) (x : SiloRef) (n : Nat) : Bool :=
  (descOutputs t.desc).any fun r => match x with
    | .near _ k => r.kind == 4 && r.base == k && decide (t.pushed x + n ≤ r.count)
    | .loft _ k => r.kind == 5 && r.base == k && decide (t.pushed x + n ≤ r.count)

def outputs (t : Task) (rows : List Nat) : Ex Unit :=
  if rows.all t.mayWrite then .ok () else .error (.fault 3 0)

/-- The checks at issue in the order of R161 and R162: quota, form, output ranges. -/
def State.issueChecks (s : State) (t : Task) (reads writes : List RowRef) (form : Bool) : Ex Unit := do
  s.quota t (reads ++ writes)
  require (form && inRange (reads ++ writes))
  outputs t (writes.map rowNo)

/-! Silos (R193). -/

def siloCfgReg : SiloRef → Reg
  | .near c n => .siloCfg c n
  | .loft cl n => .siloLcfg cl n

def siloPtrReg : SiloRef → Reg
  | .near c n => .siloPtr c n
  | .loft cl n => .siloLptr cl n

def siloPendReg : SiloRef → Reg
  | .near c n => .siloPend c n
  | .loft cl n => .siloLpend cl n

/-- A silo as its registers stand. -/
structure Silo where
  base : Nat
  size : Nat
  job : Nat
  en : Bool
  prodDma : Bool
  consDma : Bool
  head : Nat
  tail : Nat
  headP : Nat
  tailP : Nat
  pushCore : Nat
  popCore : Nat
  deriving DecidableEq, Repr

def State.silo (s : State) (x : SiloRef) : Silo :=
  let c := s.rd (siloCfgReg x); let p := s.rd (siloPtrReg x); let q := s.rd (siloPendReg x)
  ⟨bits c 0 20, bits c 20 21, bits c 41 4, bitAt c 48, bitAt c 49, bitAt c 50, bits p 0 22, bits p 32 22,
   bits q 0 22, bits q 32 22, bits q 56 3, bits q 60 3⟩

/-- Write a silo's counts back to SILO_PTR and SILO_PEND. -/
def State.setSiloPtrs (s : State) (x : SiloRef) (y : Silo) : State :=
  let s := s.wr (siloPtrReg x) (BitVec.ofNat 64 (packBits [(22, y.head), (10, 0), (22, y.tail)]))
  s.wr (siloPendReg x) (BitVec.ofNat 64 (packBits [(22, y.headP), (10, 0), (22, y.tailP), (2, 0), (3, y.pushCore),
    (1, b2n (y.tailP != y.tail)), (3, y.popCore), (1, b2n (y.headP != y.head))]))

def Silo.modulus (y : Silo) : Nat := 2 * y.size

/-- Counts run modulo 2 x SIZE_ROWS. -/
def Silo.plus (y : Silo) (c n : Nat) : Nat := if y.size = 0 then 0 else (c + n) % y.modulus
def Silo.minus (y : Silo) (a b : Nat) : Nat := if y.size = 0 then 0 else (a + y.modulus - b % y.modulus) % y.modulus
def Silo.fill (y : Silo) : Nat := y.minus y.tail y.head
def Silo.credit (y : Silo) : Nat := y.size - y.minus y.tailP y.head

/-- The row that a count names. -/
def siloRow (x : SiloRef) (y : Silo) (count : Nat) : RowRef :=
  let r := y.base + (if y.size = 0 then 0 else count % y.size)
  match x with
  | .near c _ => .near c r
  | .loft cl _ => .loft cl r

def siloRows (x : SiloRef) (y : Silo) (from_ n : Nat) : List RowRef :=
  (List.range n).map fun i => siloRow x y (y.plus from_ i)

/-- The silo a command or range names: one of the core's, or one of the cluster's loft silos. -/
def siloOf (loft : Bool) (core n : Nat) : SiloRef := if loft then .loft (core / 8) n else .near core n

end Sys2Proof.Machine
end

