-- ==== Sys2Proof/Machine/Flags.lean ====
section
/-! DEFINITION. Exception flags of tasks and cores (R72), rounding modes and their draws (R68, R69, R75). -/

namespace Sys2Proof.Machine

/-- Flags raised by an operation of a task on its core: sticky in the task, ORed into CO_ARITH_FLAGS; NV or OF under its trap
bit faults the task at retire (R72). -/
def State.addFlags (s : State) (id : Nat) (f : Flags) : State :=
  match s.task? id with
  | none => s
  | some t =>
    let r := Reg.coArithFlags t.core
    let s := s.wr r (s.rd r ||| BitVec.ofNat 64 f.toNat)
    let trap := (f.nv && s.flag (.coArith t.core) F.coArithTrapNv) || (f.of && s.flag (.coArith t.core) F.coArithTrapOf)
    s.setTask { t with flags := t.flags.or f, trapped := t.trapped || trap }

/-- A core's overflow setting (R71). -/
def State.sat (s : State) (c : Nat) : Bool := s.flag (.coArith c) F.coArithSat

def State.seeded (s : State) (c : Nat) : Bool := decide (s.fld (.coArith c) F.coArithRngMode = 1)

/-- One 16-bit draw of a core: from the seeded generator (R75), or a free value of the noise source. -/
def State.draw (s : State) (c : Nat) : Nat × State :=
  if s.seeded c then
    let k := s.core c
    let (x, r) := xorshift k.rng
    (r, s.setCore c { k with rng := x })
  else
    let (w, s) := s.freshWord
    (bits w 48 16, s)

def State.draws (s : State) (c : Nat) : Nat → List Rnd × State
  | 0 => ([], s)
  | n + 1 =>
    let (r, s) := s.draw c
    let (l, s) := State.draws s c n
    (.sr r :: l, s)

/-- Whether a ROUND field asks for stochastic rounding (2 is the core default). -/
def State.wantsSr (s : State) (c round : Nat) : Bool :=
  round == 1 || (round == 2 && s.flag (.coArith c) F.coArithRoundDefault)

/-- How the `n` elements of a write round: each takes a draw under SR, in ascending order; in fallback they round by RNE and the write is
counted once (R69, R75). An FP32 write draws and counts as any other (log 22). -/
def State.roundings (s : State) (c round n : Nat) : List Rnd × State :=
  if !s.wantsSr c round then (List.replicate n .rne, s)
  else if !s.seeded c && s.flag (.coRngStatus c) F.coRngStatusFallback then
    (List.replicate n .rne, s.countCore C.srRneFallback c)
  else s.draws c n

/-- Pack one row written by a task's command: the row, its scales, the state with draws taken and flags raised. One row is one write. -/
def State.packFor (s : State) (t : Task) (f : Fmt) (round : Nat) (vals : List Num) : Row × List Nat × State :=
  let (rs, s) := s.roundings t.core round f.perRow
  let (row, scales, fl) := packRow f (s.sat t.core) rs vals
  (row, scales, s.addFlags t.id fl)

end Sys2Proof.Machine
end

