-- ==== Sys2Proof/Machine/Storage.lean ====
section
/-! DEFINITION. Rows as tasks, DMA and the tick reach them (Table 8-2), and what the fate of a task does to them (R42). -/

namespace Sys2Proof.Machine

/-- A tensor's current generation (TT word 0, GEN). -/
def State.ttGen (s : State) (i : Nat) : Nat := bits (s.rd (.ttEntry s.homeGran i 0)) 12 8

/-- A run-ahead row read under another generation than its tensor's current one (R247). -/
def State.staleRow (s : State) (r : RowRef) : Bool :=
  match (s.row r).note with
  | some n => n.gen != s.ttGen n.tensor
  | none => false

/-- The writer W stands on the accessor's core. -/
def State.onCore (s : State) (w : Option Nat) (c : Nat) : Bool :=
  match w with
  | none => false
  | some id => match s.task? id with
    | some t => t.core == c
    | none => false

/-- What a task's peek or take of a row finds (Table 8-2, rows 1 and 2): a stop, or the writer that the task becomes bound
to, if any. -/
def State.readCheck (s : State) (t : Task) (r : RowRef) (take : Bool) : Ex (Option Nat) :=
  let x := s.row r
  let w : Stop := .row r (if take then .take else .peek)
  let other := match x.taker with
    | some k => k != t.id
    | none => false
  match x.tag with
  | .empty => .error w
  | .poison => .error (.poison r)
  | .full =>
    if other && (take || s.onCore x.taker t.core) then .error w else .ok none
  | .pending =>
    if !s.onCore x.writer t.core then .error w
    else .ok (match x.writer with
      | some k => if k = t.id then none else some k
      | none => none)

/-- A task becomes bound to a writer. -/
def State.bind (s : State) (id : Nat) (w : Option Nat) : State :=
  match w with
  | none => s
  | some k => s.modTask id fun t => if t.deps.contains k then t else { t with deps := t.deps ++ [k] }

/-- A task reads a row by peek or take. -/
def State.readRow (s : State) (t : Task) (r : RowRef) (take : Bool) : Ex (Row × State) := do
  let w ← s.readCheck t r take
  let x := s.row r
  let s := if take then s.setRow r { x with taker := some t.id } else s
  return (x.data, s.bind t.id w)

def State.readRows (s : State) (t : Task) (take : Bool) : List RowRef → Ex (List Row × State)
  | [] => .ok ([], s)
  | r :: rs => do
    let (d, s) ← s.readRow t r take
    let (ds, s) ← State.readRows s t take rs
    return (d :: ds, s)

/-- A silo that a descriptor's address field names (Table 10-2). -/
def siloOfAddr (cl kind a : Nat) : SiloRef := if kind = 2 then .loft cl (a % 256) else .near (8 * cl + a / 256 % 8) (a % 256)

/-- The silo that a run-ahead transfer fills (R245). -/
def Xfer.aheadSilo (cl : Nat) (x : Xfer) : Option SiloRef :=
  if bitAt x.desc 19 then some (siloOfAddr cl (bits x.desc 24 2) (bits x.desc 128 56)) else none

/-- Run-ahead reads of a cluster's channels that have issued into a silo and not landed. -/
def State.aheadInto (s : State) (cl : Nat) (y : SiloRef) : Nat :=
  (List.range 32).foldl (fun n ch =>
    ((s.chan cl ch).tail ++ (s.chan cl ch).cur.toList).foldl (fun n (x : Xfer) =>
      if x.aheadSilo cl = some y then n + x.moves.length else n) n) 0

/-- A use of a run-ahead row finds it stale (R247). -/
def State.staleUse (s : State) (r : RowRef) : Bool :=
  decide ((s.row r).tag = .full ∨ (s.row r).tag = .poison) && (s.row r).taker.isNone && s.staleRow r && match (s.row r).note with
    | some n => n.ahead
    | none => false

/-- A row that a use finds stale becomes EMPTY and is counted; its filling channel is to read it again (R247). -/
def State.staleDrop (s : State) (r : RowRef) : State :=
  match (s.row r).note with
  | none => s
  | some n =>
    let p := (s.partOfCluster n.cl).getD 12
    let j := s.fld (.dmaChcfg n.cl n.ch) F.dmaChcfgJob
    let k := s.chan n.cl n.ch
    ((((s.setRow r { s.row r with tag := .empty, note := none }).setChan n.cl n.ch { k with refetch := k.refetch ++ [(r, n)] }).countJob
      C.pfStale p j).countJob C.pfEvicted p j)

/-- What a task's write finds (Table 8-2, rows 3 and 4): a stop, or the writer it overwrites. -/
def State.writeCheck (s : State) (t : Task) (r : RowRef) (ow : Bool) : Ex (Option Nat) :=
  let x := s.row r
  let w : Stop := .row r (if ow then .over else .write)
  match x.tag with
  | .empty => .ok none
  | .poison => .ok none
  | .full => if ow && x.taker.isNone then .ok none else .error w
  | .pending =>
    if x.writer = some t.id then .ok none
    else if ow && s.onCore x.writer t.core then .ok x.writer
    else .error w

/-- A task writes a whole row: PENDING, owner the writer (R162, R184, R188). -/
def State.writeRow (s : State) (t : Task) (r : RowRef) (d : Row) (ow : Bool) : Ex State := do
  let w ← s.writeCheck t r ow
  let x := s.row r
  let s := s.setRow r { x with data := d, tag := .pending, writer := some t.id, note := none }
  return s.bind t.id w

def State.writeRows (s : State) (t : Task) (ow : Bool) : List (RowRef × Row) → Ex State
  | [] => .ok s
  | p :: ps => do
    let s ← s.writeRow t p.1 p.2 ow
    State.writeRows s t ow ps

/-! Fills and reads by DMA and remote agents (Table 8-2). -/

/-- What a fill finds: it may land, or waits. -/
def fillOk (x : RowSt) (ow : Bool) : Bool :=
  match x.tag with
  | .empty => true
  | .poison => true
  | .full => ow && x.taker.isNone
  | .pending => false

/-- A fill lands: FULL, or POISON for a poisoned row. -/
def State.fill (s : State) (r : RowRef) (d : Row) (poison : Bool) (note : Option GenNote) : State :=
  s.setRow r ⟨d, if poison then .poison else .full, none, none, note⟩

/-- What a DMA read finds: the data with a poison mark, or it waits. -/
def dmaReadOk (x : RowSt) (take : Bool) : Bool :=
  match x.tag with
  | .full => !take || x.taker.isNone
  | .poison => true
  | _ => false

/-- A DMA take empties the row it reads. -/
def State.dmaTaken (s : State) (r : RowRef) (take : Bool) : State :=
  if take then s.setRow r { s.row r with tag := .empty, writer := none, taker := none, note := none } else s

/-! What a commit or a discard does to rows (R42, R43). -/

def discardRow (id : Nat) (x : RowSt) : RowSt :=
  if x.tag = .pending ∧ x.writer = some id then { x with tag := .empty, writer := none, taker := none }
  else
    let x := if x.taker = some id then { x with taker := none } else x
    if x.writer = some id then { x with writer := none } else x

/-- `gone k` says that task k is committed by now. -/
def commitRow (ids : List Nat) (gone : Nat → Bool) (x : RowSt) : RowSt :=
  let mine := fun (o : Option Nat) => match o with
    | some k => ids.contains k
    | none => false
  let took := match x.taker with
    | some k => ids.contains k || gone k
    | none => false
  match x.tag with
  | .pending =>
    if mine x.writer then
      (if took then { x with tag := .empty, writer := none, taker := none, note := none }
       else { x with tag := .full, writer := none })
    else x
  | .full => if took then { x with tag := .empty, writer := none, taker := none, note := none } else x
  | .poison =>
    let x := if mine x.writer then { x with writer := none } else x
    if took then { x with taker := none } else x
  | .empty => x

def State.discardRows (s : State) (id : Nat) : State :=
  { s with rows := SMap.mapVals rowInit (fun _ x => discardRow id x) s.rows }

def State.commitRows (s : State) (ids : List Nat) : State :=
  let gone := fun k => (s.task? k).isNone
  { s with rows := SMap.mapVals rowInit (fun _ x => commitRow ids gone x) s.rows }

/-- Rows written to zero with tag EMPTY and marks cleared (R203, R318). -/
def State.zeroRows (s : State) (lo hi : Nat) (keep : Nat → Bool) : State :=
  { s with rows := s.rows.filter fun p => !decide (lo ≤ p.1 ∧ p.1 < hi) || keep p.1 }

/-! Silos. -/

/-- Tasks that hold pending appends or takes of a silo. -/
def State.pushers (s : State) (x : SiloRef) : List Task := s.tasks.filter fun t => t.pushes.any fun p => decide (p.1 = x)
def State.poppers (s : State) (x : SiloRef) : List Task := s.tasks.filter fun t => t.pops.any fun p => decide (p.1 = x)

def State.bindAll (s : State) (id : Nat) (ts : List Task) : State :=
  ts.foldl (fun s t => if t.id = id then s else s.bind id (some t.id)) s

def addTo (l : List (SiloRef × Nat)) (x : SiloRef) (n : Nat) : List (SiloRef × Nat) :=
  if l.any (fun p => decide (p.1 = x)) then l.map fun p => if p.1 = x then (p.1, p.2 + n) else p else l ++ [(x, n)]

/-- A task's appends and takes commit: the pointers follow (R196). -/
def State.commitSilos (s : State) (t : Task) : State :=
  let s := t.pushes.foldl (fun s p =>
    let y := s.silo p.1
    s.setSiloPtrs p.1 { y with tail := y.plus y.tail p.2 }) s
  t.pops.foldl (fun s p =>
    let y := s.silo p.1
    s.setSiloPtrs p.1 { y with head := y.plus y.head p.2 }) s

/-- A discard returns the pending pointers to the committed ones, less what other tasks still hold. -/
def State.discardSilos (s : State) (t : Task) : State :=
  let left := fun (f : Task → List (SiloRef × Nat)) (x : SiloRef) =>
    (s.tasks.filter fun u => u.id != t.id).foldl
      (fun a u => a + ((f u).filter fun p => decide (p.1 = x)).foldl (fun b p => b + p.2) 0) 0
  let s' := t.pushes.foldl (fun s p =>
    let y := s.silo p.1
    s.setSiloPtrs p.1 { y with tailP := y.plus y.tail (left Task.pushes p.1) }) s
  t.pops.foldl (fun s p =>
    let y := s.silo p.1
    s.setSiloPtrs p.1 { y with headP := y.plus y.head (left Task.pops p.1) }) s'

/-- A read that met a POISON row is counted (Table 8-4). -/
def State.poisonRead (s : State) (r : RowRef) : State :=
  match r with
  | .near c _ => s.countCore C.poisonReadsNear c
  | .loft cl _ => s.count C.poisonReadsLoft cl

/-- A read of a row counts it when it is POISON. -/
def State.meetRow (s : State) (r : RowRef) : State := if (s.row r).tag = .poison then s.poisonRead r else s

end Sys2Proof.Machine
end

