-- ==== Sys2Proof/Machine/Tasks.lean ====
section
/-! DEFINITION. Tasks on their cores: issue and blocking (R163 to R165), faults (R178, R179), discard and commit (R41, R42),
the shared form in which a core command issues. -/

namespace Sys2Proof.Machine

def statCode : TStat → Nat
  | .ready => 1 | .running => 2 | .blocked => 3 | .completing => 4 | _ => 0

/-- CO_SLOTS shows the slots, the issuing slot and the retire table (chapter 7, registers). -/
def State.syncSlots (s : State) (c : Nat) : State :=
  let st := fun i => match s.taskIn c i with
    | some t => statCode t.stat
    | none => 0
  let run := s.running c
  let issuing := match run with
    | some t => t.slot
    | none => bits (s.rd (.coSlots c)) 16 2
  let retired := (s.tasks.filter fun t => decide (t.stat = .retired) && t.core == c).length
  s.wr (.coSlots c) (BitVec.ofNat 64 (packBits [(3, st 0), (1, 0), (3, st 1), (1, 0), (3, st 2), (1, 0), (3, st 3), (1, 0),
    (2, issuing), (1, b2n run.isNone), (5, 0), (5, retired)]))

/-- The slot of a unit's owner. -/
def State.slotOf (s : State) (o : Option Nat) : Nat :=
  match o with
  | none => 0
  | some id => match s.task? id with
    | some t => t.slot
    | none => 0

/-- What a command in progress shows while it waits on a row (ME_STATUS, MVP_STATUS): its OP. -/
def waitingOp (l : List Cmd) : Nat :=
  match l with
  | q :: _ => if q.wait.isSome then bits q.word 0 8 else 0
  | [] => 0

/-- The column strip that a waiting mvp.run has come to, by the loft row it waits on (R119). -/
def stripOf (q : Cmd) : Nat :=
  match q.wait with
  | some (.row (.loft _ r) _) =>
    let fmt := bits q.word 8 4; let src := bits q.word 32 20; let scale := bits q.word 52 20; let kblk := bits q.word 72 9 + 1
    let strip := kblk * if fmt = 6 ∨ fmt = 7 then 26 else if fmt = 8 then 16 else 32
    if src ≤ r ∧ r < src + (bits q.word 81 10 + 1) * strip then (r - src) / strip
    else if fmt = 9 then r - scale else (r - scale) / kblk
  | _ => 0

/-- ME_STATUS shows the owner and what the engine is doing; the lowest queue occupancy of the beat is timing. -/
def State.syncEng (s : State) (e : Nat) : State :=
  let x := s.eng e
  let op := waitingOp x.queue
  s.wr (.meStatus e) (setBits (s.rd (.meStatus e)) 0 7 (packBits [(1, b2n x.owner.isSome), (1, b2n (op == 0x10)), (1, 0),
    (1, b2n (op == 0x11)), (1, b2n (op == 0x12)), (2, s.slotOf x.owner)]))

/-- The status registers of a core's units. -/
def State.syncUnits (s : State) (c : Nat) : State :=
  let k := s.core c
  let s := (s.syncEng (2 * c)).syncEng (2 * c + 1)
  let run := k.mvp.bind fun id => (s.task? id).bind fun t => t.flight.bind fun q => if bits q.word 0 8 = 0x30 then some q else none
  let s := s.wr (.mvpStatus c) (BitVec.ofNat 64 (packBits [(1, b2n k.mvp.isSome), (2, s.slotOf k.mvp), (1, b2n run.isSome), (12, 0),
    (10, (run.map stripOf).getD 0)]))
  s.wr (.vuStatus c) (BitVec.ofNat 64 (packBits [(1, b2n k.buf.isSome), (2, s.slotOf k.buf), (1, 0), (9, k.bufLines.length)]))

/-- The earliest-placed READY task of a core. -/
def State.nextReady (s : State) (c : Nat) : Option Task :=
  (s.tasks.filter fun t => decide (t.stat = .ready) && t.core == c).foldl
    (fun a t => match a with
      | none => some t
      | some u => if t.placed < u.placed then some t else some u) none

/-- With no task running, the core starts issuing from the READY task placed earliest (R165). -/
def State.schedule (s : State) (c : Nat) (switch : Bool) : State :=
  let s := match s.running c with
    | some _ => s
    | none => match s.nextReady c with
      | some t => (if switch then s.countCore C.coSwitches c else s).setTask { t with stat := .running }
      | none => s
  s.syncSlots c

/-- What waits on a row is kept in the order in which it began to wait (R189). -/
def State.waitOn (s : State) (r : RowRef) (w : Waiter) : State :=
  if s.waits.contains (r, w) then s else { s with waits := s.waits ++ [(r, w)] }

/-- A task becomes BLOCKED and its core switches tasks (R165). -/
def State.blockTask (s : State) (id : Nat) (y : Why) : State :=
  match s.task? id with
  | none => s
  | some t =>
    let s := s.setTask { t with stat := .blocked, why := some y }
    let s : State := match y with
      | .row r _ => s.waitOn r (.task id)
      | _ => s
    s.schedule t.core true

def TFault.record (t : Task) (f : TFault) : BitVec 256 :=
  BitVec.ofNat 256 (packBits [(8, f.cause), (4, t.job), (3, t.core % 8), (2, f.slot), (12, f.pc), (3, 0), (16, t.taskId),
    (16, t.group), (64, f.beat.toNat), (64, f.addr), (32, f.detail), (8, min t.attempt 255), (24, 0)])

/-- Firmware is to stop the job at the next tick for a cause and its record (R180, R243, R293, R155). -/
def State.requestStop (s : State) (p j source : Nat) (rec : BitVec 256) : State :=
  let b := s.job p j
  if b.stopSource = 0 then s.setJob p j { b with stopSource := source, record := rec } else s

/-- What a task fault reports: it is counted, latched in the core's log, and either stops the job or, for a member or verifier of a
group, is reported as a FAULT event (R178 to R180). -/
def State.reportFault (s : State) (t : Task) (f : TFault) : State :=
  let c := t.core
  let s := s.countCore C.taskFaults c
  -- an address fault is also posted by the interface (R31)
  let s := if f.cause = 2 then s.fault (agentCore c) 0x01 0 0 f.addr else s
  let s := if s.flag (.coFaultLog c) F.coFaultLogValid then s else
    let s := s.wr (.coFaultLog c) (BitVec.ofNat 64
      (packBits [(1, 1), (7, 0), (8, f.cause), (12, f.pc), (2, f.slot), (2, 0), (32, s.beat32)]))
    let s := s.wr (.coFaultAddr c) (BitVec.ofNat 64 (f.addr % 2 ^ 56))
    s.wr (.coFaultTask c) (BitVec.ofNat 64 (packBits [(16, t.taskId), (4, t.job)]))
  if t.spec || t.verifier then
    s.fault (agentCore c) 0x10 f.cause (t.taskId + t.group * 65536) f.addr
  else match s.partOfCluster t.cl with
    | some p => s.requestStop p t.job 1 (TFault.record t f)
    | none => s

/-- A task fault: only the first cause of a task is recorded (R178). -/
def State.taskFault (s : State) (id cause pc addr detail : Nat) : State :=
  match s.task? id with
  | none => s
  | some t =>
    if t.fault.isSome then s else
    let f : TFault := ⟨cause, pc, t.slot, s.beatNo, addr, detail⟩
    (s.setTask { t with fault := some f }).reportFault t f

/-- A task that has issued its last command, or stopped issuing, completes; the core switches. -/
def State.endIssue (s : State) (id : Nat) : State :=
  match s.task? id with
  | none => s
  | some t => (s.setTask { t with stat := .completing, doneIssue := true, why := none }).schedule t.core true

/-! Units. -/

/-- The task that owns a unit of a core. -/
def State.unitOwner (s : State) (c : Nat) : CoreUnit → Option Nat
  | .me0 => (s.eng (2 * c)).owner
  | .me1 => (s.eng (2 * c + 1)).owner
  | .mvp => (s.core c).mvp
  | .enc => (s.core c).enc

/-- An engine that its owner releases: what is staged shifts in for nobody (R80). -/
def Eng.released (x : Eng) (id : Nat) : Eng :=
  let x := { x with queue := x.queue.filter fun (q : Cmd) => q.task != id }
  if x.owner = some id then { x with owner := none, cells := none, staging := x.staging.map fun (b : Block) => { b with task := none } } else x

def GCtx.task (g : GCtx) : Nat := g.cmd.task

/-- The waiters that stand for commands of a task: itself, the engine queues and gather contexts that it heads. -/
def State.waiterOf (s : State) (t : Task) (w : Waiter) : Bool :=
  match w with
  | .task id => id == t.id
  | .eng e => e / 2 == t.core && (match (s.eng e).queue with
    | q :: _ => q.task == t.id
    | [] => false)
  | .gather c i => c == t.core && (match SMap.get (fun _ => none) (s.core c).gctx i with
    | some (g : GCtx) => g.task == t.id
    | none => false)
  | _ => false

/-- Release every unit and context that a task owns, and forget what its commands wait on. -/
def State.releaseAll (s : State) (t : Task) : State :=
  let c := t.core
  let s : State := { s with waits := s.waits.filter fun (w : RowRef × Waiter) => !s.waiterOf t w.2 }
  let s := (s.setEng (2 * c) ((s.eng (2 * c)).released t.id)).setEng (2 * c + 1) ((s.eng (2 * c + 1)).released t.id)
  let k := s.core c
  let drop := fun (o : Option Nat) => if o = some t.id then none else o
  let s := s.setCore c { k with
    buf := drop k.buf, bufLines := if k.buf = some t.id then [] else k.bufLines, bufWait := k.bufWait.filter (fun q => q.1 != t.id),
    mvp := drop k.mvp, enc := drop k.enc,
    gctx := k.gctx.filter fun p => match p.2 with
      | some (g : GCtx) => g.task != t.id
      | none => true }
  s.syncUnits c

/-- A free gather context (R169). -/
def freeCtx (k : Core) : Option Nat := (List.range 8).find? fun i => (SMap.get (fun _ => none) k.gctx i).isNone

/-- A unit or resource is taken for a task: another task owns it, or none is free (R80, R116, R124, R165). -/
def State.takenFor (s : State) (t : Task) (x : Taken) : Bool :=
  match x with
  | .unit u => (match s.unitOwner t.core u with
    | some k => k != t.id
    | none => false)
  | .buf => (match (s.core t.core).buf with
    | some k => k != t.id
    | none => !(s.core t.core).bufWait.isEmpty)
  | .gather => (freeCtx (s.core t.core)).isNone

/-- The units that a command word asks for at its issue. -/
def wordUnits (w : CmdWord) : List Taken :=
  let me := Taken.unit (if cwEng w = 0 then .me0 else .me1)
  match cwOp w with
  | 0x10 => [me]
  | 0x11 => [me]
  | 0x12 => me :: if cwSpf w then [.unit .enc] else []
  | 0x30 => [.unit .mvp]
  | 0x31 => [.unit .mvp]
  | 0x40 => [.unit .enc]
  | 0x26 => [.buf]
  | 0x80 => [.gather]
  | _ => []

/-! The command buffer (R163). -/

/-- The row of the program that holds a command, and whether it lies in the job's loft quota (R202). -/
def Task.progRef (t : Task) (k : Nat) : RowRef := .loft t.cl (t.progRow + k)

def State.progOk (s : State) (t : Task) (k : Nat) : Bool := decide (t.progRow + k < 1048576) && s.inQuota t.job (t.progRef k)

/-- A program row can be fetched: FULL, and not taken by another task of the core (Table 8-2). -/
def State.fetchable (s : State) (t : Task) (k : Nat) : Bool :=
  let x := s.row (t.progRef k)
  s.progOk t k && decide (x.tag = .full) && (match x.taker with
    | some u => u == t.id || !s.onCore x.taker t.core
    | none => true)

def noRow (_ : Nat) : Option Row := none

/-- The buffer holds the row in use and the next one, each as it stood when it was fetched. -/
def State.fillProg (s : State) (id : Nat) : State :=
  match s.task? id with
  | none => s
  | some t =>
    let want := [t.pc / 32, t.pc / 32 + 1].filter fun k => decide (32 * k < t.progLen)
    let prog := want.foldl (fun (m : SMap (Option Row)) k => match SMap.get noRow t.prog k with
      | some d => SMap.put noRow m k (some d)
      | none => if s.fetchable t k then SMap.put noRow m k (some (s.row (t.progRef k)).data) else m) []
    s.setTask { t with prog := prog }

/-- Fetch the next command word: from the buffer, else by peek. A row that is not FULL blocks, a POISON row faults (R163). -/
def State.fetch (s : State) (t : Task) : Ex CmdWord :=
  let k := t.pc / 32
  let word := fun (d : Row) => d.extractLsb' (128 * (t.pc % 32)) 128
  match SMap.get noRow t.prog k with
  | some d => .ok (word d)
  | none =>
    let r := t.progRef k
    if !s.progOk t k then addressFault (rowAddr r)
    else if (s.row r).tag = .poison then .error (.poison r)
    else if s.fetchable t k then .ok (word (s.row r).data) else .error (.row r .peek)

/-! Blocking (R165). -/

/-- A command of the task that an engine or a gather context holds waits on a row. -/
def State.heldUp (s : State) (t : Task) : Bool :=
  ((s.eng (2 * t.core)).queue ++ (s.eng (2 * t.core + 1)).queue).any (fun (q : Cmd) => q.task == t.id && q.wait.isSome)
    || (s.core t.core).gctx.any fun p => match p.2 with
      | some (g : GCtx) => g.task == t.id && g.cmd.wait.isSome
      | none => false

/-- An issued command of the task waits on a row or a silo. -/
def State.waiting (s : State) (t : Task) : Bool := t.flight.isSome || s.heldUp t

/-- Why a task's next command cannot issue. -/
def State.nextWhy (s : State) (t : Task) : Option Why :=
  match s.fetch t with
  | .error (.row r a) => some (.row r a)
  | .error _ => none
  | .ok w => ((wordUnits w).find? (s.takenFor t)).map Why.unit

/-- A task whose issued command begins to wait is BLOCKED, unless it has issued its last command. -/
def State.pause (s : State) (id : Nat) : State :=
  match s.task? id with
  | none => s
  | some t => if s.waiting t && decide (t.stat = .running ∨ t.stat = .ready) then s.blockTask id .issued else s

/-- A blocked task becomes READY when no issued command of it waits and its next command can issue. -/
def State.unblock (s : State) (id : Nat) : State :=
  match s.task? id with
  | none => s
  | some t =>
    if t.stat ≠ .blocked ∨ s.waiting t = true then s else
    match s.nextWhy t with
    | none => (s.setTask { t with stat := .ready, why := none }).schedule t.core true
    | some y => s.blockTask id y

/-- The tasks of a core that wait for a unit or resource are looked at again. -/
def State.wakeUnits (s : State) (c : Nat) : State :=
  let ids := (s.tasks.filter fun (t : Task) => t.core == c && decide (t.stat = .blocked) && (match t.why with
    | some (.unit _) => true
    | _ => false)).map Task.id
  (ids.foldl (fun (s : State) id => s.unblock id) s).syncSlots c

/-! The fate of a task. -/

/-- A cleared slot (R105, R163, R170). -/
def Task.cleared (t : Task) : Task :=
  { t with pc := 0, doneIssue := false, carry := 0, badEngs := [], skipped := false, flags := .none, trapped := false,
           viol := 0, gatherBad := false, audit := false, fault := none, deps := [], prog := [], flight := none, why := none,
           abort := false, cycles := 0, pushes := [], pops := [], lines := [], scalars := [], asm := none }

/-- Discard a task: its rows, takes, silo pointers and units are returned (R42, R80, R196); it is re-queued in a cleared slot,
or removed. -/
def State.discardTask (s : State) (id : Nat) (requeue : Bool) : State :=
  match s.task? id with
  | none => s
  | some t =>
    let s := ((s.discardRows id).discardSilos t).releaseAll t
    if requeue then s.setTask { t.cleared with stat := .pooled, attempt := t.attempt + 1 } else s.dropTask id

/-- Tasks bound to a discarded one are discarded with it, retired or executing (R45, R189, Table 2-2, row 3). -/
def bound (ts : List Task) : Nat → List Nat → List Nat
  | 0, d => d
  | k + 1, d =>
    let new := (ts.filter fun t => decide (t.stat ≠ .pooled) && !d.contains t.id && t.deps.any d.contains).map Task.id
    if new.isEmpty then d else bound ts k (d ++ new)

/-- Tasks and those bound to them. -/
def State.withBound (s : State) (ids : List Nat) : List Nat := bound s.tasks s.tasks.length (dedup ids)

/-- A task is discarded and re-queued with nothing held against it (R57, R189, R312). -/
def State.requeueTask (s : State) (id : Nat) : State := (s.discardTask id true).modTask id fun t => { t with streak := 0, charges := [] }

/-- Tasks are removed; those bound to them are re-queued. -/
def State.removeTasks (s : State) (ids : List Nat) : State :=
  let also := (bound s.tasks s.tasks.length ids).filter fun id => !ids.contains id
  also.foldl (fun (s : State) id => s.requeueTask id) (ids.foldl (fun (s : State) id => s.discardTask id false) s)

/-- Commit tasks together: rows, takes, silo pointers; kick masks end with them (R42, R171, R196). A group keeps its verifier as it
stood (R47). -/
def State.commitTasks (s : State) (ids : List Nat) : State :=
  let ts := s.tasks.filter fun t => ids.contains t.id
  let s := s.commitRows ids
  let s := ts.foldl (fun s t => (s.commitSilos t).releaseAll t) s
  { s with tasks := s.tasks.filter fun t => !ids.contains t.id, groups := s.groups.map fun (g : Group) =>
    match ts.find? fun t => g.verifier == some t.id with
    | some t => { g with vgone := some t }
    | none => g }

/-- Unit access that has the task as its owner, or takes an unowned unit for it; another task's unit blocks (R80, R124). -/
def ownUnit (o : Option Nat) (id : Nat) (u : CoreUnit) : Ex (Option Nat) :=
  match o with
  | none => .ok (some id)
  | some k => if k = id then .ok o else .error (.unit (.unit u))

/-- A task acquires an engine with its first command to it: no block in force, every entry CLEAR, every tap invalid; a block still staged for
its last owner stays staged (R80, R83, R90, R113). -/
def State.acquire (s : State) (t : Task) (e : Nat) : Ex State := do
  let x := s.eng e
  let _ ← ownUnit x.owner t.id (if e % 2 = 0 then .me0 else .me1)
  if x.owner = some t.id then return s
  else return (s.setEng e { Eng.init with owner := some t.id, staging := x.staging }).syncUnits t.core

/-! Issued commands (R54, R165). -/

/-- The registers that govern a command. -/
def envRegs (t : Task) (w : CmdWord) : List Reg :=
  let c := t.core
  [.clNquota t.cl t.job, .clLquota t.cl t.job] ++ match cwOp w with
  | 0x62 => [siloCfgReg (siloOf (bitAt w 32) c (bits w 33 8))]
  | 0x63 => [siloCfgReg (siloOf (bitAt w 32) c (bits w 33 8))]
  | 0x80 => [.coGaBase c (bits w 84 2), .coGaShape c (bits w 84 2)]
  | 0x30 => [.coArith c, .mvpGlCfg c, .mvpGlThresh c]
  | 0x31 => [.coArith c, .mvpGlCfg c, .mvpGlAct c]
  | 0x60 => []
  | 0x61 => []
  | op => if op < 0x20 then [.coArith c, .meCfg (2 * c + cwEng w)] else [.coArith c, .vuCfg c]

/-- The command that a word is, as it issues. -/
def State.cmd (s : State) (t : Task) (w : CmdWord) (ups : List Upset) : Cmd :=
  ⟨t.id, t.pc, w, ups, (envRegs t w).map fun r => (r.addr, s.rd r), (s.core t.core).loads, .init, none⟩

def putRegs (m : SMap Word) (l : List (Nat × Word)) : SMap Word := l.foldl (fun m p => SMap.put resetAt m p.1 p.2) m

/-- The state with the settings of a command's issue (R54): its registers and the generator it draws from. -/
def State.enter (s : State) (c : Nat) (q : Cmd) : State :=
  let k := s.core c
  let s : State := { s with regs := putRegs s.regs q.env }
  if q.seed = k.loads then s else s.setCore c { k with rng := SMap.get (fun _ => 0) k.oldRng q.seed }

/-- The settings in force before `enter` come back; `s` is the state it was made from. -/
def State.leave (s' s : State) (c : Nat) (q : Cmd) : State :=
  let s' : State := { s' with regs := putRegs s'.regs (q.env.map fun p => (p.1, SMap.get resetAt s.regs p.1)) }
  let k := s'.core c
  if q.seed = k.loads then s'
  else s'.setCore c { k with rng := (s.core c).rng, oldRng := SMap.put (fun _ => 0) k.oldRng q.seed k.rng }

/-- Run part of a command under the settings of its issue. -/
def State.under (s : State) (c : Nat) (q : Cmd) (k : State → Ex State) : Ex State := do
  let s' ← k (s.enter c q)
  return s'.leave s c q

/-- What a command comes to: complete, or a stop with how far it has come and the state that this leaves. -/
inductive Run where
  | done (s : State)
  | stop (x : Stop) (left : Progress) (s : State)
  deriving DecidableEq, Repr

/-- A command that takes effect whole, or not yet (log 11). -/
def Run.whole (s : State) : Ex State → Run
  | .ok s' => .done s'
  | .error x => .stop x .init s

/-- A command of a unit that one task owns: its checks and the taking of the unit, kept while the command waits, then its effect (R80, R124,
R165). -/
def Run.owned (s : State) (own : Ex State) (k : State → Ex State) : Run :=
  match own with
  | .error x => .stop x .init s
  | .ok s => .whole s (k s)

/-- A command that moves rows one by one until one of them waits: `f` does one step from its number. -/
def Run.rows (f : State → Progress → Ex (State × Progress)) (fin : State → Progress → State) : Nat → Progress → State → Run
  | 0, p, s => .done (fin s p)
  | k + 1, p, s => match f s p with
    | .ok (s', p') => Run.rows f fin k p' s'
    | .error x => .stop x p s

def Run.leave (s : State) (c : Nat) (q : Cmd) : Run → Run
  | .done s' => .done (s'.leave s c q)
  | .stop x n s' => .stop x n (s'.leave s c q)

/-- The task issued a command: its position moves on, though the command has begun to wait in an engine or a gather context; after ctl.end or
its PROG_LEN-th word it completes (R165, R166). -/
def State.advance (s : State) (id : Nat) (last : Bool) : State :=
  match s.task? id with
  | none => s
  | some t =>
    if ¬(t.stat = .running ∨ t.stat = .blocked ∧ t.why = some .issued) then s else
    let s := (s.setTask { t with pc := t.pc + 1 }).fillProg id
    let s := s.setCore t.core { s.core t.core with active := true }
    if last || decide (t.progLen ≤ t.pc + 1) then s.endIssue id else s

/-- A task faulted by one of its commands stops issuing; what it has issued completes (R178, R183). -/
def State.failCmd (s : State) (q : Cmd) (cause addr : Nat) : State := (s.taskFault q.task cause q.pc addr 0).endIssue q.task

/-- A command that held the row buffer and ends without completing gives it up (R116). -/
def State.dropBuf (s : State) (t : Task) : State :=
  let k := s.core t.core
  if k.buf = some t.id ∨ (k.bufWait.any fun q => q.1 == t.id) = true then
    (s.setCore t.core { k with buf := if k.buf = some t.id then none else k.buf, bufLines := if k.buf = some t.id then [] else k.bufLines,
                               bufWait := k.bufWait.filter fun q => q.1 != t.id }).syncUnits t.core
  else s

/-- The rows of tag.take and tag.wait. -/
def tagRows (t : Task) (w : CmdWord) : List RowRef := rowsOf t (bitAt w 32) (bits w 33 20) (bits w 53 13 + 1)

/-- The rows that a waiting command watches beside the one it waits on: a tag.wait looks at every row that is not FULL, for one that
becomes POISON (R159). -/
def State.watched (s : State) (t : Task) (q : Cmd) : List RowRef :=
  if cwOp q.word = 0x61 then (tagRows t q.word).filter fun r => decide ((s.row r).tag ≠ .full) else []

/-- A silo.pop that has to wait for its row: a stale row becomes EMPTY, to be read again; one whose run-ahead read has not landed is counted
(R247, Table 10-6). -/
def State.useWaits (s : State) (t : Task) (q : Cmd) (w : Wait) : State :=
  match w with
  | .silo _ => s
  | .row r _ =>
    if cwOp q.word ≠ 0x63 then s
    else if s.staleUse r then s.staleDrop r
    else
      let y := siloOf (bitAt q.word 32) t.core (bits q.word 33 8)
      if q.wait = some w ∨ (s.row r).tag ≠ .empty ∨ s.aheadInto t.cl y = 0 then s
      else s.countJob C.pfLate ((s.partOfCluster t.cl).getD 0) t.job

/-- A command begins to wait, or waits on: it stays issued (R165). -/
def State.await (s : State) (t : Task) (q : Cmd) (fresh : Bool) (left : Progress) (w : Wait) : State :=
  let s := (s.useWaits t q w).modTask t.id fun u => { u with flight := some { q with left := left, wait := some w } }
  let s := match w with
    | .row r _ => ((s.watched t q).foldl (fun (s : State) k => s.waitOn k (.task t.id)) s).waitOn r (.task t.id)
    -- credit comes back with the row at the head (R194)
    | .silo x => s.waitOn (siloRow x (s.silo x) (s.silo x).head) (.task t.id)
  let s := if fresh then (s.advance t.id (cwOp q.word == 0)).pause t.id else s
  s.syncUnits t.core

/-- A vu.nbwd that ends leaves the row buffer to the next (R116). -/
def State.bufFreed (s : State) (t : Task) (q : Cmd) : State := if cwOp q.word = 0x26 then s.wakeUnits t.core else s

/-- What a command's run leaves: `fresh` for one that issues now, else it was in flight (R164, R165, R183). -/
def State.settle (s : State) (t : Task) (q : Cmd) (fresh : Bool) : Run → State
  | .done s' =>
    let s' := if fresh then (s'.advance t.id (cwOp q.word == 0)).pause t.id
      else ((s'.modTask t.id fun u => { u with flight := none }).syncUnits t.core).unblock t.id
    s'.bufFreed t q
  | .stop (.row r a) n s' => s'.await t q fresh n (.row r a)
  | .stop (.silo x) n s' => s'.await t q fresh n (.silo x)
  | .stop (.unit x) _ s' => s'.blockTask t.id (.unit x)
  | .stop .stall _ _ => s
  | .stop (.poison r) _ s' => (((s'.modTask t.id fun u => { u with flight := none }).dropBuf t).poisonRead r).failCmd q 4 (rowAddr r) |>.bufFreed t q
  | .stop (.fault cause addr) _ s' => (((s'.modTask t.id fun u => { u with flight := none }).dropBuf t).failCmd q cause addr).bufFreed t q

/-- A core command: the running task's next word is this row's command and has its effect, waits issued, blocks the task or faults it. A
word with a reserved OP faults with BAD_COMMAND whichever row is named; a word of another command, or no running task, is no occasion for
the row. -/
def issueRun (op core : Nat) (ups : List Upset) (s : State) (k : Task → Cmd → State → Run) : Res :=
  unitOk (decide (core < 2304)) <|
  match s.running core with
  | none => .next s
  | some t =>
    if t.abort then .next s else
    match s.fetch t with
    | .error (.row r a) => .next (s.blockTask t.id (.row r a))
    | .error x => .next (s.settle t (s.cmd t 0 []) true (.stop x .init s))
    | .ok w =>
      if !opCodes.contains (cwOp w) then .next (s.settle t (s.cmd t w []) true (.stop (.fault 1 0) .init s))
      else if cwOp w ≠ op then .next s
      else .next (s.settle t (s.cmd t w ups) true (k t (s.cmd t w ups) s))

/-- A core command that takes effect whole. -/
def issue (op core : Nat) (s : State) (k : Task → CmdWord → State → Ex State) : Res :=
  issueRun op core [] s fun t q s => .whole s (k t q.word s)

end Sys2Proof.Machine
end

