-- ==== Sys2Proof/Machine/Lpddr.lean ====
section
/-! DEFINITION. The memory tiers behind space 0x0 (chapter 9): tensor-table entries, pages, region classes, rows of LPDDR5X with
their epoch bits, errors. -/

namespace Sys2Proof.Machine

/-! The tensor table (R218, Table 9-5): a replica in every granary. Hardware writes a field that it keeps in force and in the shadow alike, so
that an apply does not undo it (log 13). -/

structure Tt where
  valid : Bool
  part : Nat
  job : Nat
  cls : Nat
  drain : Bool
  gen : Nat
  res : Nat
  optional : Bool
  sr : Bool
  fallback : Nat
  view : Bool
  accum : Bool
  deadline : Nat
  fbTensor : Nat
  base : Nat
  rows : Nat
  clFirst : Nat
  clCount : Nat
  loftBase : Nat
  chunkLog2 : Nat
  source : Nat
  pins : Nat
  srcGen : Nat
  deriving DecidableEq, Repr

def ttOfWords (w0 w1 w2 w3 w4 : Word) : Tt :=
  { valid := bitAt w0 0, part := bits w0 1 4, job := bits w0 5 4, cls := bits w0 9 2, drain := bitAt w0 11, gen := bits w0 12 8,
    res := bits w0 20 2, optional := bitAt w0 22, sr := bitAt w0 23, fallback := bits w0 24 3, view := bitAt w0 27,
    accum := bitAt w0 28, deadline := bits w0 32 16, fbTensor := bits w0 48 15, base := bits w1 0 45, rows := bits w2 0 36,
    clFirst := bits w3 0 9, clCount := bits w3 9 9, loftBase := bits w3 18 20, chunkLog2 := bits w3 38 4,
    source := bits w4 0 15, pins := bits w4 16 8, srcGen := bits w4 24 8 }

/-- An entry of one replica. -/
def State.ttAt (s : State) (g i : Nat) : Tt :=
  ttOfWords (s.rd (.ttEntry g i 0)) (s.rd (.ttEntry g i 1)) (s.rd (.ttEntry g i 2)) (s.rd (.ttEntry g i 3)) (s.rd (.ttEntry g i 4))

def State.tt (s : State) (i : Nat) : Tt := s.ttAt s.homeGran i

/-- Hardware or firmware changes a field of a word in force and in the shadow. -/
def State.setBoth (s : State) (r : Reg) (lo len v : Nat) : State :=
  (s.wr r (setBits (s.rd r) lo len v)).wrS r (setBits (s.rdS r) lo len v)

def State.ttSetAt (s : State) (g i k lo len v : Nat) : State := s.setBoth (.ttEntry g i k) lo len v

/-- A hardware-kept field of an entry changes in every replica (R218). -/
def State.ttSet (s : State) (i k lo len v : Nat) : State :=
  (List.range 24).foldl (fun (s : State) g => s.ttSetAt g i k lo len v) s

def State.ttRes (s : State) (i v : Nat) : State := s.ttSet i 0 20 2 v
def State.ttClass (s : State) (i v : Nat) : State := s.ttSet i 0 9 2 v
def State.ttPins (s : State) (i v : Nat) : State := s.ttSet i 4 16 8 v
def State.bumpGen (s : State) (i : Nat) : State := s.ttSet i 0 12 8 (((s.tt i).gen + 1) % 256)

/-- A VIEW takes BASE, ROWS and CLASS from its source (Table 9-5), at the end of a chain of views from its first source that is none. -/
def State.ttSource (s : State) (g : Nat) : Nat → Nat → Nat
  | 0, i => i
  | n + 1, i => if (s.ttAt g i).view then State.ttSource s g n (s.ttAt g i).source else i

def State.ttEffAt (s : State) (g i : Nat) : Tt :=
  let e := s.ttAt g i
  if e.view then
    let r := s.ttAt g (s.ttSource g 8 i)
    { e with base := r.base, rows := r.rows, cls := r.cls }
  else e

def State.ttEff (s : State) (i : Nat) : Tt := s.ttEffAt s.homeGran i

/-- The tensor that a view reads, or the tensor itself. -/
def State.ttRoot (s : State) (i : Nat) : Nat := s.ttSource s.homeGran 8 i

/-- The entries whose words are listed. -/
def ttIndex (g k : Nat) : Option Nat :=
  let b := (Reg.ttEntry g 0 0).addr
  if b ≤ k ∧ k < b + 64 * 32768 then some ((k - b) / 64) else none

def State.ttListed (s : State) : List Nat := dedup (s.regs.filterMap fun p => ttIndex s.homeGran p.1)

/-- The valid entries of a job. -/
def State.tensorsOf (s : State) (p j : Nat) : List Nat :=
  s.ttListed.filter fun i => (s.tt i).valid && (s.tt i).part == p && (s.tt i).job == j

/-- Where row n of a tensor's loft copy lies: device cluster and loft row. -/
def Tt.placeOf (e : Tt) (n : Nat) : Nat × Nat :=
  let c := n / 2 ^ e.chunkLog2
  (e.clFirst + c % max e.clCount 1, e.loftBase + c / max e.clCount 1 * 2 ^ e.chunkLog2 + n % 2 ^ e.chunkLog2)

def Tt.loftRef (e : Tt) (n : Nat) : RowRef := .loft (e.placeOf n).1 (e.placeOf n).2

/-- The clusters of a placement. -/
def Tt.clusters (e : Tt) : List Nat := (List.range e.clCount).map fun i => e.clFirst + i

/-! Rows of LPDDR5X (R208, R210, R211). -/

/-- The granary that holds a physical row (Table 9-1). -/
def rowGranary (key : Nat) : Nat := key / 8 % 24

/-- The place of a physical row: device, channel, channel data row. -/
def lpPlace (key : Nat) : Nat × Nat × Nat :=
  let g := key / 8
  (8 * (g % 24) + g / 24 % 8, key % 8, g / 192)

/-- The physical row at a place. -/
def lpKey (dev ch row : Nat) : Nat := 8 * (192 * row + 24 * (dev % 8) + dev / 8) + ch

/-- A row of valid data, or with the poison pattern (R211). -/
def LpRow.of (d : Row) (poison : Bool) : LpRow := ⟨d, if poison then rsPoison else 0⟩

/-- The check bytes that the row holds in its check row. -/
def LpRow.check (x : LpRow) : BitVec 128 := rsCheck x.data ^^^ x.err

/-- What decoding finds in the four codewords. -/
def LpRow.found (x : LpRow) : List RsFound :=
  if x.err = 0 then [] else (List.range 4).map fun k => rsDecode (bits x.err (32 * k) 32)

/-- A codeword is uncorrectable: the row reads as poisoned. -/
def LpRow.poison (x : LpRow) : Bool := x.found.any fun f => decide (f = .bad)

/-- A symbol is in error and corrected. -/
def LpRow.worn (x : LpRow) : Bool := x.found.any fun f => match f with
  | .symbol _ _ => true
  | _ => false

/-- Bits of a cell flip: a data byte changes the check that its data would have. -/
def LpRow.upset (x : LpRow) (pos : Nat) (b : Byte) : LpRow :=
  if 512 ≤ pos then ⟨x.data, x.err ^^^ BitVec.ofNat 128 (b.toNat * 2 ^ (8 * (pos - 512)))⟩
  else
    let e : Row := BitVec.ofNat 4096 (b.toNat * 2 ^ (8 * pos))
    ⟨x.data ^^^ e, x.err ^^^ rsCheck e⟩

/-- One decoded codeword put right. -/
def LpRow.fix (x : LpRow) (k : Nat) : RsFound → LpRow
  | .symbol i v =>
    ⟨if i < 4 then x.data else x.data ^^^ BitVec.ofNat 4096 (v * 2 ^ (8 * (128 * k + (131 - i)))), setBits x.err (32 * k) 32 0⟩
  | _ => x

/-- The row as its decoder returns it, and as it is rewritten: every corrected codeword put right. -/
def LpRow.fixed (x : LpRow) : LpRow :=
  (x.found.zip (List.range 4)).foldl (fun (y : LpRow) p => y.fix p.2 p.1) x

/-- An access passes the controller's 256 check rows: a miss costs a read of the check row, the least recently used is written back if it is
dirty (R211). -/
def State.lpCheck (s : State) (key : Nat) (write : Bool) : State :=
  let (dev, ch, row) := lpPlace key
  let c := (checkPlace row).1 * 8 + ch
  let held := SMap.get (fun _ => []) s.checks dev
  let hit := held.find? fun (x : Nat × Bool) => x.1 == c
  let dirty := match hit with
    | some x => x.2 || write
    | none => write
  let s := { s with checks := SMap.put (fun _ => []) s.checks dev (((c, dirty) :: held.filter fun (x : Nat × Bool) => x.1 != c).take 256) }
  if hit.isSome then s else s.count C.grnCheckMiss (rowGranary key)

/-- A write of a whole row with its check symbols; valid data clears a poison pattern (R211). -/
def State.lpWrite (s : State) (key : Nat) (d : Row) (poison : Bool) : State := (s.lpCheck key true).setLp key (.of d poison)

/-- A data row retired by the watch list; its copy to a spare begins (R415, R418). -/
def State.retireRow (s : State) (dev ch row : Nat) : State :=
  let s := s.wlChange 3 dev ch row 7 fun e => { e with state := 2 }
  if s.copying.contains (dev, ch, row) || s.retiredRows.contains (dev, ch, row) then s
  else if 24576 ≤ ((s.copying ++ s.retiredRows).filter fun x => x.1 == dev && x.2.1 == ch).length then s.count C.wlSpareExhausted 0
  else { s with copying := s.copying ++ [(dev, ch, row)] }

/-- An uncorrectable codeword met at a row: counted, logged, posted (R211). -/
def State.lpUe (s : State) (key : Nat) : State :=
  let (dev, ch, row) := lpPlace key
  let g := rowGranary key
  let s := s.count C.grnUe g
  let s := if s.flag (.grnErrLog g) F.grnErrLogValid then s else
    (s.wr (.grnErrLog g) (BitVec.ofNat 64 (packBits [(1, 1), (1, 0), (3, dev % 8), (3, ch), (24, 0), (32, s.beat32)]))).wr
      (.grnErrRow g) (BitVec.ofNat 64 row)
  let s := s.fault (agentGranary g) 0x06 (dev % 8 + 8 * ch) g row
  s.retireRow dev ch row

/-- A corrected symbol: the row is rewritten and the event counted (R211); a second one of the row retires it (Table 20-2, source 7). -/
def State.lpCe (s : State) (key : Nat) : State :=
  let (dev, ch, row) := lpPlace key
  let s := (s.setLp key (s.lp key).fixed).count C.grnCe (rowGranary key)
  if s.ceRows.contains (dev, ch, row) then s.retireRow dev ch row else { s with ceRows := s.ceRows ++ [(dev, ch, row)] }

/-- What reading a physical row does beside returning it (R211). -/
def State.lpTouch (s : State) (key : Nat) : State :=
  let s := s.lpCheck key false
  let x := s.lp key
  let s := if x.worn then s.lpCe key else s
  if x.poison then s.lpUe key else s

/-! Pages (R209, R212, Table 9-2). -/

def pageKey (p pg : Nat) : Nat := p * 2 ^ 24 + pg

/-- The leaf that the directory entry of 8 GiB of a partition names, in every replica of the directory: firmware gives entry d of partition p
leaf 4,096 p + d of the 49,152 that the reserved frames hold (log 27). -/
def dirLeaf (p d : Nat) : Nat := 4096 * p + d

/-- Where the entry of a page lies: the physical row of its leaf, and the word of the row. -/
def leafPlace (p pg : Nat) : Nat × Nat :=
  let leaf := dirLeaf p (pg / 4096)
  ((9141504 + leaf / 64) * 4096 + leaf % 64 * 64 + pg % 4096 / 64, pg % 64)

def State.pageOf (s : State) (p pg : Nat) : Word :=
  BitVec.ofNat 64 (bits (s.lp (leafPlace p pg).1).fixed.data (64 * (leafPlace p pg).2) 64)

/-- An entry of a leaf changes: its row is read and written (R211, R212). -/
def State.setPage (s : State) (p pg : Nat) (w : Word) : State :=
  let a := leafPlace p pg
  let s := s.lpTouch a.1
  s.lpWrite a.1 (setBits (s.lp a.1).fixed.data (64 * a.2) 64 w.toNat) false

/-- The pages of the partitions whose entries are not 0, with their words. -/
def State.pageList (s : State) : List (Nat × Word) :=
  (s.lpddr.filter fun x => decide (9141504 * 4096 ≤ x.1)).flatMap fun x =>
    let row := x.1 - 9141504 * 4096
    (List.range 64).filterMap fun i =>
      let w := BitVec.ofNat 64 (bits x.2.fixed.data (64 * i) 64)
      if w = 0 then none else some (row / 64 * 4096 + row % 64 * 64 + i, w)

/-- An interface's translation of a page: from its own cache, from the walk cache of granary PAGE mod 24, or from the leaf (R212). Every cache
holds what the leaf holds, since a change invalidates them first. -/
def State.translate (s : State) (v : Option Via) (p pg : Nat) : Word :=
  let own := match v with
    | some (.cluster cl) => (s.cl cl).tlb
    | some (.gate g) => (s.gate g).tlb
    | none => []
  let hit := fun (x : Nat × Nat × Word) => x.1 == p && x.2.1 == pg
  match own.find? hit, s.walk.find? hit with
  | some x, _ => x.2.2
  | none, some x => x.2.2
  | none, none => s.pageOf p pg

def pgState (w : Word) : Nat := bits w 0 2
def pgFrame (w : Word) : Nat := bits w 2 24
def pgTensor (w : Word) : Nat := bits w 26 15
def pgJob (w : Word) : Nat := bits w 41 4
def mkPage (st frame tensor job : Nat) : Word := BitVec.ofNat 64 (packBits [(2, st), (24, frame), (15, tensor), (4, job)])

/-- A row of partition space as an access finds it: the page's word, the tensor (the view for an access through one), the
row within the tensor, the physical row, the partition and the row of its space. -/
structure LpLoc where
  page : Word
  tensor : Nat
  index : Nat
  key : Nat
  part : Nat
  row : Nat
  deriving DecidableEq, Repr

/-- A row of the partition's own space, through an interface's translation; `none` is a granary's own walker. -/
def State.ownLocVia (s : State) (v : Option Via) (p row : Nat) : LpLoc :=
  let w := s.translate v p (row / 4096)
  let e := s.tt (pgTensor w)
  ⟨w, pgTensor w, row - e.base / 512, pgFrame w * 4096 + row % 4096, p, row⟩

def State.ownLoc (s : State) (p row : Nat) : LpLoc := s.ownLocVia none p row

/-- A partition row for an access of a job: through the partition's own page, or, where that is ABSENT, through the source of
a view of the job that covers the row (R225, R27). -/
def State.locate (s : State) (v : Via) (p j row : Nat) : LpLoc :=
  let own := s.ownLocVia (some v) p row
  if pgState own.page ≠ 0 then own
  else match s.ttListed.find? fun i =>
      let e := s.ttEff i
      e.valid && e.view && e.part == p && e.job == j && decide (e.base / 512 ≤ row ∧ row < e.base / 512 + e.rows) with
    | some i =>
      let e := s.ttEff i
      let src := s.ownLocVia (some v) (s.tt (s.ttRoot i)).part row
      { src with tensor := i, index := row - e.base / 512 }
    | none => own

/-- The row lies in a view of the job that a kill has invalidated (R319). -/
def State.goneRow (s : State) (p j row : Nat) : Bool :=
  s.goneViews.any fun i =>
    let e := s.ttEff i
    e.part == p && e.job == j && decide (e.base / 512 ≤ row ∧ row < e.base / 512 + e.rows)

/-- Kinds of access of Table 9-4. -/
inductive LpUse where
  | read
  | write
  | accum
  | winnow
  deriving DecidableEq, Repr

/-- The tensor owns the page: a valid entry of the page's job (R216). -/
def State.hasClass (s : State) (l : LpLoc) : Bool :=
  let e := s.tt (pgTensor l.page)
  e.valid && e.job == pgJob l.page && e.part == l.part

/-- The winnowers copy a restore's slots, as they would write in an update (R435). -/
def State.restoring (s : State) (p j : Nat) : Bool := match s.win with
  | some w => decide (w.kind = .restore) && w.part == p && w.job == j
  | none => false

/-- Whether a job may make an access by class and phase (Table 9-4). Accumulate-writes are allowed in a learning step from
its start to its end of backward. -/
def State.classOk (s : State) (p j : Nat) (l : LpLoc) (u : LpUse) : Bool :=
  let e := s.tt (pgTensor l.page)
  let view := (s.tt l.tensor).view
  let owner := l.part == p && pgJob l.page == j
  -- the spill pool of a generating partition in either direction (R296)
  let kv := decide ((s.part p).phase = 1) && s.flag (.seqShare p) F.seqShareEn && s.fld (.seqShare p) F.seqShareJob == j
    && s.fld (.seqSet p) F.seqSetSpillSets != 0 && s.fld (.seqSet p) F.seqSetSpillTensor == pgTensor l.page
  s.hasClass l &&
  match e.cls, u with
  | 0, .read => owner || view
  | 1, .read => owner && (e.drain || kv)
  | 1, .write => owner && (!e.drain || kv)
  | 2, .read => owner
  | 2, .accum => owner && e.accum && decide ((s.part p).phase = 0 ∧ (s.job p j).stage = .backward)
  | 2, .winnow => owner && (decide ((s.job p j).stage = .update) || s.restoring p j)
  | _, _ => false

/-! Reads of located rows. -/

/-- What a read returns: the data, and whether a codeword was uncorrectable. -/
structure LpGot where
  data : Row
  poison : Bool
  deriving DecidableEq, Repr

/-- A granule of an ACCUM tensor whose epoch bit is clear: it reads zero, and nothing is read from the device (R227). -/
def State.unwritten (s : State) (l : LpLoc) : Bool :=
  (s.tt (pgTensor l.page)).accum && !SMap.get (fun _ => false) s.epoch (l.key / 8)

/-- Data of a row as a read returns it. -/
def State.lpRead (s : State) (l : LpLoc) : LpGot :=
  if s.unwritten l then ⟨0, false⟩ else ⟨(s.lp l.key).fixed.data, (s.lp l.key).poison⟩

/-- What the read does. -/
def State.lpMeet (s : State) (l : LpLoc) : State := if s.unwritten l then s else s.lpTouch l.key

def State.lpMeets (s : State) (ls : List LpLoc) : State := ls.foldl (fun (s : State) l => s.lpMeet l) s

/-- A refused access (R216). -/
def State.classRefused (s : State) (l : LpLoc) (agent detail row : Nat) : State :=
  (s.count C.grnClassRefused (rowGranary l.key)).fault agent 0x07 detail l.tensor (row * 512)

def State.pageFault (s : State) (row : Nat) : State := s.count C.grnPageFaults (row / 4096 % 24)

/-- A BF16 row's 256 values. -/
def bf16Nums (r : Row) : List Num := (List.range 256).map fun k => elemAt .bf16 r 0 0 k

/-- An access of the row waits: the row is being copied to a spare (R418), or its page is being paged out (R214). -/
def State.copyingRow (s : State) (key : Nat) : Bool :=
  s.copying.contains (lpPlace key) || s.moves.any fun (m : Nat × Option PageMove) => match m.2 with
    | some x => x.out && x.frame == key / 4096
    | none => false

/-- Rows of a job's pages are being copied, or paged out: a winnower pass over them waits (R214, R418). -/
def State.jobCopies (s : State) (p j : Nat) : Bool :=
  s.pageList.any fun x => decide (x.1 / 2 ^ 24 = p ∧ pgState x.2 = 1 ∧ pgJob x.2 = j) &&
    ((s.copying.any fun c => lpKey c.1 c.2.1 c.2.2 / 4096 == pgFrame x.2) || s.moves.any fun (m : Nat × Option PageMove) => match m.2 with
      | some y => y.out && y.frame == pgFrame x.2
      | none => false)

/-- An operation that has reached a granary waits there, behind those that arrived before it (R227). -/
def State.standBy (s : State) (a : Arrival) : State := if s.arrivals.contains a then s else { s with arrivals := s.arrivals ++ [a] }

end Sys2Proof.Machine
end

