-- ==== Sys2Proof/WellFormed.lean ====
section
/-! DEFINITION. Well-formed commands: the units and numbers that their operands name exist (Tables 1-6, 1-7, 7-1, 9-1, 16-5). A
meaning stops with the fault noSuchUnit on the same checks. -/

namespace Sys2Proof

def coreOk (c : Nat) : Bool := decide (c < 2304)
def clOk (cl : Nat) : Bool := decide (cl < 288)
def chOk (ch : Nat) : Bool := decide (ch < 32)
def granaryOk (g : Nat) : Bool := decide (g < 24)
def gateOk (g : Nat) : Bool := decide (g < 4)
def portOk (p : Nat) : Bool := decide (p < 12)
def partOk (p : Nat) : Bool := decide (p < 12)
def jobOk (j : Nat) : Bool := decide (j < 16)
def tensorOk (i : Nat) : Bool := decide (i < 32768)
def hatchOk (h : Nat) : Bool := decide (h < 1024)

def rowOk : RowRef → Bool
  | .near c r => coreOk c && decide (r < 8192)
  | .loft cl r => clOk cl && decide (r < 1048576)

/-- Core-level blocks exist for the fallow cores as well (CORE 0xE, R29): numbers 2,304 to 2,591. -/
def blkOk : Blk → Bool
  | .co c => decide (c < 2592)
  | .me e => decide (e < 5184)
  | .vu c => decide (c < 2592)
  | .mvp c => decide (c < 2592)
  | .silo c => decide (c < 2592)
  | .loftSilo cl => clOk cl
  | .cl cl => clOk cl
  | .dma cl => clOk cl
  | .dsp cl => clOk cl
  | .grn g => granaryOk g
  | .tt g => granaryOk g
  | .win g => granaryOk g
  | .gate g => gateOk g
  | .hatch g => gateOk g
  | _ => true

def mbxBlkOk : MbxBlk → Bool
  | .mgmt => true
  | .die d => decide (d < 36)
  | .granary g => granaryOk g
  | .gate g => gateOk g
  | .cluster cl => clOk cl

def viaOk : Via → Bool
  | .cluster cl => clOk cl
  | .gate g => gateOk g

def rngOk : RngUnit → Bool
  | .core c => coreOk c
  | .granary g => granaryOk g

/-- A site of Table 1-9 and the number of a unit in it. -/
def siteOk (site index : Nat) : Bool :=
  decide ((site = 0 ∧ index < 36) ∨ (site = 1 ∧ index < 24) ∨ (site = 2 ∧ index < 4) ∨ (site = 3 ∧ index = 0))

/-- A firmware command comes from an inbound mailbox and a host tag (R365, R24). -/
def fwWordOk (c : FwCmd) : Bool := decide (c.mbox < 32 ∧ 1 ≤ c.sender ∧ c.sender < 256)

def tickOk (m : TickIn) : Bool := m.temps.all fun t => siteOk t.site t.index && decide (t.sensor < 16)

/-- Well-formed commands. -/
def Instr.wf : Instr → Bool
  | .tick m => tickOk m
  | .verdictTimeout cl _ => clOk cl
  | .carryLimitAbort _ => true
  | .beatRun => true
  | .beatNumberSetWrite _ _ => true
  | .arm b _ => blkOk b
  | .disarm b _ => blkOk b
  | .shadowWrite _ _ _ => true
  | .registerWrite _ _ _ => true
  | .beatInPulse _ _ => true
  | .beatInLoss => true
  | .descLoad cl _ => clOk cl
  | .dispatch cl => clOk cl
  | .ctlEnd core => coreOk core
  | .ctlFence core => coreOk core
  | .meLoad core => coreOk core
  | .meStream core _ => coreOk core
  | .meDrain core => coreOk core
  | .vuLd core => coreOk core
  | .vuSt core => coreOk core
  | .vuOp core => coreOk core
  | .vuTx core => coreOk core
  | .vuReduce core => coreOk core
  | .vuTapld core => coreOk core
  | .vuNbwd core => coreOk core
  | .rowBufferGrant core => coreOk core
  | .mvpRun core => coreOk core
  | .mvpGlean core => coreOk core
  | .spEnc core => coreOk core
  | .dmaKick core => coreOk core
  | .tagTake core => coreOk core
  | .tagWait core => coreOk core
  | .siloPush core => coreOk core
  | .siloPop core => coreOk core
  | .ccCount core => coreOk core
  | .gaGather x => coreOk x.core
  | .rowStateRetry r _ => rowOk r
  | .taskRetire core slot => coreOk core && decide (slot < 4)
  | .faultJobStop part job => partOk part && jobOk job
  | .stationaryShiftIn core eng => coreOk core && decide (eng < 2)
  | .engineRelease core _ => coreOk core
  | .cacheFillComplete core x => coreOk core && decide (x.ctx < 8)
  | .ccInvalidate cl => clOk cl
  | .rngHealthFail u => rngOk u
  | .rngFallbackExit u => rngOk u
  | .patrolScrub cl _ => clOk cl
  | .lpddrPatrol g hits => granaryOk g && hits.all fun h => decide (h.pos < 528)
  | .pageWalk via x => viaOk via && partOk x.part && decide (x.page < 16777216)
  | .bringupDone x => tensorOk x.tensor
  | .deadlineMiss cl ch => clOk cl && chOk ch
  | .accumWrite part job _ _ _ => partOk part && jobOk job
  | .epochClearDone part job => partOk part && jobOk job
  | .unsealPinsClear tensor => tensorOk tensor
  | .dmaDescStart cl ch => clOk cl && chOk ch
  | .dmaRingFetch cl ch => clOk cl && chOk ch
  | .dmaTransferEnd cl ch => clOk cl && chOk ch
  | .dmaRecordFlush cl ch => clOk cl && chOk ch
  | .firmwareCopyStart cl ch => clOk cl && chOk ch
  | .dmaResume cl x => clOk cl && chOk x.ch
  | .dmaAbandon cl ch => clOk cl && chOk ch
  | .dmaRestart cl ch => clOk cl && chOk ch
  | .pfStaleRefetch r => rowOk r
  | .remoteTimeout gate tag => gateOk gate && decide (tag < 8192)
  | .killDrainDone part job => partOk part && jobOk job
  | .killScrubComplete part job => partOk part && jobOk job
  | .endOfBackward part job => partOk part && jobOk job
  | .devicePacketFormed part job => partOk part && jobOk job
  | .reductionComplete part job rows => partOk part && jobOk job && rows.all rowOk
  | .reduceTimeout part job rows => partOk part && jobOk job && rows.all rowOk
  | .resultWaitTimeout part job => partOk part && jobOk job
  | .reductionResult part job rows => partOk part && jobOk job && rows.all rowOk
  | .phaseChange part => partOk part
  | .winGo g => granaryOk g
  | .winRelease g => granaryOk g
  | .winWithhold g => granaryOk g
  | .winPassDone part job => partOk part && jobOk job
  | .layerNormResult part job record pkt => partOk part && jobOk job && decide (record < 4096) && pkt.rows.all rowOk
  | .genStepBoundary part => partOk part
  | .partitionResetDone x => partOk x.part
  | .hatchClosedDone hatch => hatchOk hatch
  | .portRekey port => portOk port
  | .segmentRekey port => portOk port
  | .linkTrained port => portOk port
  | .linkTrainTimeout port => portOk port
  | .authTimeout port => portOk port
  | .linkBerWindow port _ _ _ => portOk port
  | .linkLockLoss port _ => portOk port
  | .linkRetrain port _ => portOk port
  | .replayTimer port => portOk port
  | .nakTimer port => portOk port
  | .ackTimer port => portOk port
  | .frameWrite port _ => portOk port || port == 12
  | .frameWriteOw port _ => portOk port || port == 12
  | .frameAccum port _ => portOk port || port == 12
  | .frameCountReq port _ => portOk port || port == 12
  | .frameSreduce port _ => portOk port || port == 12
  | .frameRdata port _ => portOk port || port == 12
  | .frameBatch port _ => portOk port || port == 12
  | .ctlAck port _ => portOk port
  | .ctlNak port _ => portOk port
  | .ctlReplay port _ => portOk port
  | .ctlSegTag port _ _ => portOk port
  | .ctlHandshake port _ => portOk port
  | .ctlIdle port _ => portOk port
  | .moduleTrainRequest mdl => decide (mdl < 2)
  | .moduleTrained mdl _ _ => decide (mdl < 2)
  | .moduleTrainTimeout mdl => decide (mdl < 2)
  | .moduleLinkLoss mdl => decide (mdl < 2)
  | .hostRead mdl _ => decide (mdl < 2)
  | .hostWrite mdl _ _ => decide (mdl < 2)
  | .sidebandAccess mdl _ _ => decide (mdl < 2)
  | .hostLoss => true
  | .mailboxWrite b n _ _ => mbxBlkOk b && decide (n < 64)
  | .mailboxRead b n _ => mbxBlkOk b && decide (n < 64)
  | .mailboxWaitTimeout b n => mbxBlkOk b && decide (n < 64)
  | .lockRead b k _ => mbxBlkOk b && decide (k < 16)
  | .lockRelease b k _ => mbxBlkOk b && decide (k < 16)
  | .lockForce b k _ => mbxBlkOk b && decide (k < 16)
  | .deviceReset c => fwWordOk c
  | .partitionCreate c => fwWordOk c
  | .partitionDestroy c => fwWordOk c
  | .partitionReset c => fwWordOk c
  | .jobStart c => fwWordOk c
  | .jobStop c => fwWordOk c
  | .jobKill c => fwWordOk c
  | .tensorSeal c => fwWordOk c
  | .tensorUnseal c => fwWordOk c
  | .stepVoid c => fwWordOk c
  | .phaseSet c => fwWordOk c
  | .layerNorm c => fwWordOk c
  | .seqCancel c => fwWordOk c
  | .hatchClose c => fwWordOk c
  | .powerLimit c => fwWordOk c
  | .powerWeight c => fwWordOk c
  | .telemetry c => fwWordOk c
  | .deviceQuery c => fwWordOk c
  | .inventory c => fwWordOk c
  | .envSet c => fwWordOk c
  | .beatConfig c => fwWordOk c
  | .imageLoad c _ => fwWordOk c
  | .seedpackLoad c => fwWordOk c
  | .calRead c => fwWordOk c
  | .calWrite c => fwWordOk c
  | .attestQuote c => fwWordOk c
  | .jobConfig c => fwWordOk c
  | .tensorRegister c => fwWordOk c
  | .pageMap c => fwWordOk c
  | .pageIn c => fwWordOk c
  | .pageOut c => fwWordOk c
  | .layerRegister c => fwWordOk c
  | .jobRestore c => fwWordOk c
  | .titheConfig c => fwWordOk c
  | .stepConfig c => fwWordOk c
  | .stepBegin c => fwWordOk c
  | .stepResult c => fwWordOk c
  | .seqConfig c => fwWordOk c
  | .seqJoin c => fwWordOk c
  | .linkConfig c => fwWordOk c
  | .hatchOpen c => fwWordOk c
  | .testWindow c => fwWordOk c
  | .countersRead c => fwWordOk c
  | .counterSnapshot _ => true
  | .testWindowStart => true
  | .testWindowEnd _ _ => true
  | .coreWatchdog core => coreOk core
  | .rowRetireCopyDone dev ch row => decide (dev < 192) && decide (ch < 8) && decide (row < 33554432)
  | .mgtResetRelease => true
  | .powerGoodLoss _ => true
  | .thermalTrip site index sensor => siteOk site index && decide (sensor < 16)
  | .jtagExtest => true
  | .jtagSamplePreload _ => true
  | .jtagIdcode => true
  | .jtagClamp => true
  | .jtagHighz => true
  | .jtagStatus => true
  | .jtagBypass => true
  | .jtagReset => true
  | .badCrcFrame port => portOk port
  | .reservedTypeFrame port _ => portOk port
  | .mainPowerGood _ => true
  | .mainRailTimeout => true
  | .atbSettle k _ => decide (k < 2)

end Sys2Proof
end

