-- ==== Sys2Proof/Machine/TaskCmds.lean ====
section
/-! DEFINITION. Loading and placing tasks, the control, tag and silo commands, retire, fault stops and engine release (chapters
7 and 8). -/

namespace Sys2Proof.Machine

/-! Loading (R152 to R155, R173, R174). -/

/-- The bits of a descriptor that Tables 7-2 and 7-3 list. -/
def descUsed : List (Nat × Nat) :=
  [(0, 4), (8, 4), (16, 24), (48, 16), (64, 32)] ++
  (List.range 6).flatMap fun i => [(128 + 64 * i, 6), (136 + 64 * i, 40)]

def descJob (d : BitVec 512) : Nat := bits d 0 4

def rngFieldBad (r : Rng) : Bool :=
  if r.kind = 0 then r.core != 0 || r.base != 0 || r.count != 0
  else r.count == 0 || (r.kind == 6 && r.count != 1)
    || ((r.kind == 1 || r.kind == 2 || r.kind == 6) && decide (8192 ≤ r.base))
    || (r.kind == 4 && decide (64 ≤ r.base)) || (r.kind == 5 && decide (256 ≤ r.base))

def State.rngQuotaBad (s : State) (cl j : Nat) (r : Rng) : Bool :=
  if r.kind = 1 ∨ r.kind = 2 ∨ r.kind = 6 then
    decide (r.base < s.nearBase cl j ∨ s.nearBase cl j + s.nearRows cl j < r.base + r.count ∨ 8192 < r.base + r.count)
  else if r.kind = 3 then
    decide (r.base < s.loftBase cl j ∨ s.loftBase cl j + s.loftRows cl j < r.base + r.count ∨ 1048576 < r.base + r.count)
  else false

def affinityCores (d : BitVec 512) : List Nat := (List.range 8).filter fun i => bitAt d (16 + i)

/-- A group whose verdict has fallen is no longer open; a member that row 4 of Table 2-2 held then may still be on its way (R47, R174). -/
def Group.decided (g : Group) : Bool := g.won || g.dropped

/-- The open group of a number. -/
def isGroup (cl j gid : Nat) (g : Group) : Bool := g.cl == cl && g.job == j && g.gid == gid && !g.decided

def State.group? (s : State) (cl j gid : Nat) : Option Group := s.groups.find? (isGroup cl j gid)

/-- The number of the first failing condition of R155, 1 to 9; 0 for none. -/
def State.descFails (s : State) (cl : Nat) (d : BitVec 512) : Nat :=
  let j := descJob d
  let ins := descInputs d; let outs := descOutputs d
  let group := bits d 24 16
  if stray d descUsed then 1
  else if ins.any (fun r => decide (5 < r.kind)) || outs.any (fun r => r.kind == 2 || r.kind == 3 || r.kind == 7) then 2
  else if (ins ++ outs).any rngFieldBad then 3
  else if (ins ++ outs).any (s.rngQuotaBad cl j) then 4
  else if !bitAt d 10 then 5
  else if (affinityCores d).all fun i => s.coreHole (8 * cl + i) then 6
  else if bits d 84 12 = 0 then 7
  else if bitAt d 8 && group == 0 then 8
  else if (verdictRow d).isSome && (group == 0 || bitAt d 8) then 9
  else 0

/-- Condition 10, the group-loading rule of R174. -/
def State.groupFails (s : State) (cl : Nat) (d : BitVec 512) : Bool :=
  match s.group? cl (descJob d) (bits d 24 16) with
  | none => false
  | some g => (bitAt d 8 || (verdictRow d).isSome) && g.verifier.isSome

/-- A refused descriptor: counted, reported, and the job is to be stopped (R155). -/
def State.refuseDesc (s : State) (cl : Nat) (d : BitVec 512) (n : Nat) : State :=
  let s := (s.count C.dspDescRefused cl).fault (agentCluster cl) 0x0F n (bits d 48 16) 0
  match s.partOfCluster cl with
  | some p => s.requestStop p (descJob d) 4 (d.extractLsb' 0 256)
  | none => s

def newTask (id cl : Nat) (d : BitVec 512) : Task :=
  { id := id, cl := cl, desc := d, stat := .pooled, core := 0, slot := 0, placed := 0, pc := 0, doneIssue := false,
    carry := 0, kick := 0, attempt := 0, streak := 0, excl := none, badEngs := [], skipped := false, flags := .none,
    trapped := false, viol := 0, gatherBad := false, audit := false, fault := none, deps := [], prog := [], flight := none, why := none,
    abort := false, cycles := 0, charges := [], pushes := [], pops := [], lines := [], scalars := [], asm := none }

/-- A loaded member or verifier joins its group, opened by its first member (R174). -/
def State.joinGroup (s : State) (t : Task) : State :=
  if !(t.spec || t.verifier) then s else
  let upd := fun (g : Group) => if t.verifier then { g with verifier := some t.id, vrow := verdictRow t.desc } else { g with members := g.members ++ [t.id] }
  match s.group? t.cl t.job t.group with
  | some _ => { s with groups := s.groups.map fun g => if isGroup t.cl t.job t.group g then upd g else g }
  | none => { s with groups := s.groups ++ [upd ⟨t.cl, t.group, t.job, [], none, none, none, none, 0, false, false, false⟩] }

def State.loadDesc (s : State) (cl : Nat) (d : BitVec 512) : State :=
  let n := s.descFails cl d
  if n ≠ 0 then s.refuseDesc cl d n
  else if s.flag (.dspJob cl (descJob d)) F.dspJobFrozen && bitAt d 11 then s.count C.dspFrozenDropped cl
  else if s.groupFails cl d then s.refuseDesc cl d 10
  else
    let t := newTask s.taskSeq cl d
    ({ s with tasks := s.tasks ++ [t], taskSeq := s.taskSeq + 1 }).joinGroup t

/-- The pool has room and the job's loading is not paused (R152, Table 14-1). -/
def State.mayLoad (s : State) (cl : Nat) (d : BitVec 512) : Bool :=
  decide ((s.tasks.filter fun t => decide (t.stat = .pooled) && t.cl == cl).length < 1024)
    && s.flag (.dspJob cl (descJob d)) F.dspJobRun

/-- DESC_LOAD (R152, R153, R155). -/
def execDescLoad (cl : Nat) (d : BitVec 512) (s : State) : Res :=
  unitOk (clOk cl) <| need (s.mayLoad cl d) s <| .next (s.loadDesc cl d)

/-! Placement (R156, R157, R311). -/

/-- A row counts as FULL for a task: FULL, or PENDING for a member of the task's own group (R156). -/
def State.fullFor (s : State) (t : Task) (r : RowRef) : Bool :=
  let x := s.row r
  match x.tag with
  | .full => true
  | .pending => t.group != 0 && (match x.writer with
      | some k => match s.task? k with
        | some u => u.spec && u.cl == t.cl && u.job == t.job && u.group == t.group
        | none => false
      | none => false)
  | _ => false

/-- At least `n` consecutive rows of a silo from HEAD are FULL; a silo has no more rows than its size. -/
def State.siloReady (s : State) (t : Task) (x : SiloRef) (n : Nat) : Bool :=
  decide (n ≤ (s.silo x).size) && (siloRows x (s.silo x) (s.silo x).head n).all (s.fullFor t)

/-- A task's input range is ready on a core (R156). -/
def State.rngReady (s : State) (t : Task) (c : Nat) (r : Rng) : Bool :=
  match r.kind with
  | 0 => true
  | 1 => (nearRowsOf c r.base r.count).all (s.fullFor t)
  | 2 => (nearRowsOf (8 * t.cl + r.core) r.base r.count).all (s.fullFor t)
  | 3 => (loftRowsOf t.cl r.base r.count).all (s.fullFor t)
  | 4 => s.siloReady t (.near c r.base) r.count
  | _ => s.siloReady t (.loft t.cl r.base) r.count

def State.taskReady (s : State) (t : Task) (c : Nat) : Bool := (descInputs t.desc).all (s.rngReady t c)

def State.freeSlot (s : State) (c : Nat) : Option Nat := (List.range 4).find? fun i => (s.taskIn c i).isNone

/-- A core is free for dispatch (R157). -/
def State.coreFree (s : State) (c : Nat) : Bool :=
  (s.freeSlot c).isSome && !s.coreHole c
    && decide ((s.tasks.filter fun t => decide (t.stat = .retired) && t.core == c).length < 16)

/-- The group that a task belongs to, as a member or as its verifier. -/
def State.groupOf (s : State) (t : Task) : Option Group :=
  if !(t.spec || t.verifier) then none else s.groups.find? fun g => g.members.contains t.id || g.verifier == some t.id

/-- The cores a task may be placed on: its affinity without holes, for a CHECKED task no suspect core unless every core of its mask is one (R172);
then its group's core, on which a verifier waits until the first member has fixed it (R175), or all but the core that its last tally mismatch
excludes unless no other is left (R102). -/
def State.coresFor (s : State) (t : Task) : List Nat :=
  let mask := ((affinityCores t.desc).map fun i => 8 * t.cl + i).filter fun c => !s.coreHole c
  let sus := s.fld (.dspSuspect t.cl) F.dspSuspectCores
  let every := (affinityCores t.desc).all fun i => sus / 2 ^ i % 2 == 1
  let all := if t.checked && !every then mask.filter fun c => sus / 2 ^ (c % 8) % 2 == 0 else mask
  match (s.groupOf t).bind Group.core with
  | some c => all.filter fun x => x == c
  | none => if t.verifier then [] else match t.excl with
    | some e => let rest := all.filter fun x => x != e; if rest.isEmpty then all else rest
    | none => all

/-- A member of a new group waits in the pool while 256 groups are open in the cluster (R174). -/
def State.groupOpen (s : State) (t : Task) : Bool :=
  if !(t.spec || t.verifier) then true else
  match s.groupOf t with
  | none => false
  | some g => g.decided || ((s.groups.filter fun g => g.cl == t.cl && !g.decided).take 256).contains g

/-- The lowest-numbered free core on which a pooled task is ready. -/
def State.placeOn (s : State) (t : Task) : Option Nat :=
  if decide (t.stat = .pooled) && s.groupOpen t then
    (s.coresFor t).find? fun c => s.coreFree c && s.taskReady t c
  else none

/-- A job's candidate: its first task in the pool that is ready on some free core (R311). -/
def State.candidate (s : State) (cl j : Nat) : Option (Task × Nat) :=
  (s.tasks.filter fun t => t.cl == cl && t.job == j).findSome? fun t => (s.placeOn t).map fun c => (t, c)

/-- The die of the cluster dispatches: in an enabled partition that is not resetting, no rest beat, no test window (R307, R55,
R420). -/
def State.dispatches (s : State) (cl : Nat) : Bool :=
  !s.clusterHole cl && (match s.partOfCluster cl with
    | some p => !s.resetting p && !(s.part p).rolling
    | none => false)
  && !((s.die (cl / 8)).history.head?.getD false)
  && !(match s.window_ with
    | some w => w.started.isSome && bitAt w.mask (cl / 8)
    | none => false)

/-- Choose among the jobs with a candidate: the least ACCT / SHARES, the lower number on ties (R311). -/
def State.choose (s : State) (cl : Nat) : Option (Task × Nat) :=
  let acct := fun j => (s.rd (.dspAcct cl j)).toNat
  let shares := fun j => s.fld (.dspJob cl j) F.dspJobShares
  let cs := (List.range 16).filterMap fun j =>
    if s.flag (.dspJob cl j) F.dspJobRun then (s.candidate cl j).map fun p => (j, p) else none
  (cs.foldl (fun a p => match a with
    | none => some p
    | some q => if acct p.1 * shares q.1 < acct q.1 * shares p.1 then some p else some q) none).map Prod.snd

/-- An audit task (R146). -/
def State.isAudit (s : State) (c : Nat) : Bool :=
  s.flag (.mvpGlCfg c) F.mvpGlCfgEn && s.flag (.mvpGlCfg c) F.mvpGlCfgAuditEn
    && decide ((s.beatNo.toNat + c) % 2 ^ s.fld (.mvpGlCfg c) F.mvpGlCfgAuditLog2 = 0)

/-- Place a task on a core in a cleared slot (R151, R163, R170). -/
def State.place (s : State) (t : Task) (c : Nat) : State :=
  let audit := s.isAudit c
  let sus := s.fld (.dspSuspect t.cl) F.dspSuspectCores / 2 ^ (c % 8) % 2 == 1
  let s := s.setTask { t.cleared with stat := .ready, core := c, slot := (s.freeSlot c).getD 0, placed := s.taskSeq,
                                      audit := audit, excl := none }
  let s := { s with taskSeq := s.taskSeq + 1, groups := s.groups.map fun g =>
    if t.spec && s.groupOf t == some g && g.core.isNone then { g with core := some c } else g }
  let s := s.count C.dspDispatched t.cl
  let s := if audit then s.countCore C.glAuditTasks c else s
  let s := if t.checked && sus then s.count C.dspCheckedSuspect t.cl else s
  (s.fillProg t.id).schedule c false

def State.dispatch (s : State) (cl : Nat) : State :=
  if !s.dispatches cl then s else
  match s.choose cl with
  | some (t, c) => s.place t c
  | none => s

/-- DISPATCH (R156, R157, R311). A cycle with no candidate places nothing. -/
def execDispatch (cl : Nat) (s : State) : Res := unitOk (clOk cl) <| .next (s.dispatch cl)

/-! Control, tag and silo commands. -/

/-- The task has issued work that is not complete: a command in flight, commands of the engines, gathers. -/
def State.incomplete (s : State) (t : Task) : Bool :=
  t.flight.isSome || ((s.eng (2 * t.core)).queue ++ (s.eng (2 * t.core + 1)).queue).any (fun q => q.task == t.id)
    || (s.core t.core).gctx.any fun p => match p.2 with
      | some g => g.task == t.id
      | none => false

/-- CTL_END (R166). -/
def execCtlEnd (core : Nat) (s : State) : Res :=
  issue 0x00 core s fun _ w s => do
    require (!stray w [(0, 8)])
    return s

/-- CTL_FENCE (R159): waits for the task's own earlier commands. -/
def execCtlFence (core : Nat) (s : State) : Res :=
  issue 0x01 core s fun t w s => do
    require (!stray w [(0, 8)])
    if s.incomplete t then .error .stall else return s

def tagFields : List (Nat × Nat) := [(0, 8), (32, 1), (33, 20), (53, 13)]

/-- The checks of a command at its issue, then its rows one by one. -/
def Run.checked (s : State) (q : Cmd) (c : Ex Unit) (run : Run) : Run :=
  match c with
  | .ok _ => run
  | .error x => .stop x q.left s

def Progress.next (p : Progress) : Progress := { p with rows := p.rows + 1 }

/-- A row that does not exist in a list answers the first of the near store: never asked for. -/
def rowAt (l : List RowRef) (i : Nat) : RowRef := l.getD i (.near 0 0)

/-- tag.take of a task: it takes row by row. -/
def State.tagTake (s : State) (t : Task) (q : Cmd) : Run :=
  let rows := tagRows t q.word
  .checked s q (s.issueChecks t rows [] (!stray q.word tagFields)) <|
  .rows (fun s p => (s.readRow t (rowAt rows p.rows) true).map fun r => (r.2, p.next)) (fun s _ => s) (rows.length - q.left.rows) q.left s

/-- TAG_TAKE (R159, Table 8-2). -/
def execTagTake (core : Nat) (s : State) : Res := issueRun 0x60 core [] s fun t q s => s.tagTake t q

/-- tag.wait of a task: every row FULL, none POISON; nothing changes. -/
def State.tagWait (s : State) (t : Task) (w : CmdWord) : Ex State := do
  let rows := tagRows t w
  s.issueChecks t rows [] (!stray w tagFields)
  match rows.find? (fun r => decide ((s.row r).tag = .poison)), rows.find? fun r => decide ((s.row r).tag ≠ .full) with
  | some r, _ => .error (.poison r)
  | none, some r => .error (.row r .peek)
  | none, none => return s

/-- TAG_WAIT (R159). -/
def execTagWait (core : Nat) (s : State) : Res := issue 0x61 core s fun t w s => s.tagWait t w

/-- The form of silo.push, and the silo that it may use (R159, R194). -/
def State.pushForm (s : State) (t : Task) (w : CmdWord) : Bool :=
  let y := s.silo (siloOf (bitAt w 32) t.core (bits w 33 8))
  let n := bits w 54 13 + 1
  !stray w [(0, 8), (32, 35)] && inRange (nearRowsOf t.core (bits w 41 13) n) && (bitAt w 32 || decide (bits w 33 8 < 64)) && !y.prodDma
    && y.en && y.job == t.job && decide (n ≤ y.size)

/-- One row of a push: it waits for credit and while another core's appends are pending (R194). -/
def State.pushRow (s : State) (t : Task) (x : SiloRef) (r : RowRef) : Ex State := do
  let y := s.silo x
  if y.credit = 0 || (y.tailP != y.tail && y.pushCore != t.core % 8) then .error (.silo x) else
  let (d, s) ← s.readRow t r false
  let s ← s.writeRow t (siloRow x y y.tailP) d false
  let s := s.bindAll t.id (s.pushers x)
  let s := s.setSiloPtrs x { y with tailP := y.plus y.tailP 1, pushCore := t.core % 8 }
  let s := s.modTask t.id fun u => { u with pushes := addTo u.pushes x 1 }
  return s.countCore C.siloPushRows t.core

/-- silo.push of a task (R194). -/
def State.siloPush (s : State) (t : Task) (q : Cmd) : Run :=
  let w := q.word
  let x := siloOf (bitAt w 32) t.core (bits w 33 8)
  let n := bits w 54 13 + 1
  let src := nearRowsOf t.core (bits w 41 13) n
  .checked s q (do
    s.quota t src
    require (s.pushForm t w)
    if t.mayPush x (n - q.left.rows) then return () else .error (.fault 3 0)) <|
  .rows (fun s p => (s.pushRow t x (rowAt src p.rows)).map fun s => (s, p.next)) (fun s _ => s) (n - q.left.rows) q.left s

/-- SILO_PUSH (R194). -/
def execSiloPush (core : Nat) (s : State) : Res := issueRun 0x62 core [] s fun t q s => s.siloPush t q

/-- The form of silo.pop, and the silo that it may use (R159, R195). -/
def State.popForm (s : State) (t : Task) (w : CmdWord) : Bool :=
  let y := s.silo (siloOf (bitAt w 32) t.core (bits w 33 8))
  let n := bits w 54 13 + 1
  !stray w [(0, 8), (18, 1), (32, 35)] && inRange (nearRowsOf t.core (bits w 41 13) n) && (bitAt w 32 || decide (bits w 33 8 < 64))
    && !y.consDma && y.en && y.job == t.job && decide (n ≤ y.size)

/-- The count that a pop begins at (R195). -/
def Silo.popStart (y : Silo) (core : Nat) : Nat := if y.headP != y.head && y.popCore == core % 8 then y.headP else y.head

/-- One row of a pop into row `d`: the row at the count from the start; a take moves HEAD_PEND (R195). -/
def State.popRow (s : State) (t : Task) (x : SiloRef) (take : Bool) (d : RowRef) (p : Progress) : Ex (State × Progress) := do
  let y := s.silo x
  if take && y.headP != y.head && y.popCore != t.core % 8 then .error (.silo x) else
  let p := if p.rows = 0 then { p with base := y.popStart t.core } else p
  let r := siloRow x y (y.plus p.base p.rows)
  if s.staleUse r then .error (.row r .peek) else
  let (v, s) ← s.readRow t r take
  let s ← s.writeRow t d v false
  if !take then return (s, p.next) else
  let s := if (match (s.row r).note with
      | some n => n.ahead
      | none => false) then s.countJob C.pfUsed ((s.partOfCluster t.cl).getD 0) t.job else s
  let s := s.bindAll t.id (s.poppers x)
  let s := s.setSiloPtrs x { y with headP := y.plus p.base (p.rows + 1), popCore := t.core % 8 }
  let s := s.modTask t.id fun u => { u with pops := addTo u.pops x 1 }
  return (s.countCore C.siloPopRows t.core, p.next)

/-- silo.pop of a task (R195, R247). -/
def State.siloPop (s : State) (t : Task) (q : Cmd) : Run :=
  let w := q.word
  let x := siloOf (bitAt w 32) t.core (bits w 33 8)
  let n := bits w 54 13 + 1
  let dst := nearRowsOf t.core (bits w 41 13) n
  .checked s q (do
    s.quota t dst
    require (s.popForm t w)
    outputs t (dst.map rowNo)) <|
  .rows (fun s p => s.popRow t x (cwAcc w) (rowAt dst p.rows) p) (fun s _ => s) (n - q.left.rows) q.left s

/-- SILO_POP (R195). -/
def execSiloPop (core : Nat) (s : State) : Res := issueRun 0x63 core [] s fun t q s => s.siloPop t q

/-! Retire (R166, R178). -/

/-- A mismatch no longer counts in its source (R415). -/
def State.uncharge (s : State) (p : Nat × Nat × Nat) : State :=
  match p.2.1 with
  | 2 => s.wlChange 1 (p.1 / 9) (p.1 % 9) 0 1 fun e => if e.state = 1 then { e with confirm := e.confirm - 1 } else e
  | 3 => match s.coreOfPhys (p.1 / 9) (p.1 % 9) with
    | some c => s.setCore c { s.core c with mmBeats := (s.core c).mmBeats.erase p.2.2 }
    | none => s
  | _ => s

/-- Tally mismatches of a task that faults with TALLY_REPEAT: withdrawn from the evidence when its attempts ran on several physical cores; else they
stand, and the core is tested first in the next window granted on its die (R415). -/
def State.withdraw (s : State) (t : Task) : State :=
  match dedup (t.charges.map Prod.fst) with
  | [c] => { s with testFirst := if s.testFirst.contains c then s.testFirst else s.testFirst ++ [c] }
  | _ => t.charges.foldl (fun s p => s.uncharge p) s

/-- The causes raised at retire, lowest code first (R178). -/
def retireCause (t : Task) : Option (Nat × Nat) :=
  if !t.badEngs.isEmpty && decide (2 ≤ t.streak) then some (6, 0)
  else if t.viol ≠ 0 then some (7, t.viol)
  else if t.trapped then some (8, t.flags.toNat)
  else if t.checked && t.skipped then some (10, 0)
  else if t.gatherBad then some (11, 0)
  else none

/-- A task retires: retire-time causes, then the retire table (R166, R102, R178). -/
def State.retire (s : State) (t : Task) : State :=
  let s := match retireCause t with
    | none => s
    | some (k, det) =>
      let s := if k = 6 ∧ t.fault.isNone then
          ((dedup t.badEngs).foldl (fun (s : State) e => s.countEng C.tallyRepeat e) s).withdraw t
        else s
      s.taskFault t.id k (t.pc - 1) 0 det
  let s := s.modTask t.id fun u => { u with stat := .retired }
  let s := s.setCore t.core { s.core t.core with active := true }
  s.schedule t.core true

/-- TASK_RETIRE (R166, R178). -/
def execTaskRetire (core slot : Nat) (s : State) : Res :=
  unitOk (coreOk core && decide (slot < 4)) <|
  match s.taskIn core slot with
  | none => .next s
  | some t => need (decide (t.stat = .completing) && !t.abort && !s.incomplete t
      && decide ((s.tasks.filter fun u => decide (u.stat = .retired) && u.core == core).length < 16)) s <|
    .next (s.retire t)

/-! Release (R80, R124, R140). -/

/-- The task has a command of such an OP in flight. -/
def State.flightOp (s : State) (id : Nat) (ops : List Nat) : Bool :=
  match (s.task? id).bind Task.flight with
  | some q => ops.contains (cwOp q.word)
  | none => false

/-- The owner has issued its last command, or is gone, and holds no command that has not taken effect there: one that waits on a row has
not started (log 11). -/
def State.mayRelease (s : State) (c : Nat) (u : CoreUnit) : Bool :=
  match s.unitOwner c u with
  | none => false
  | some id =>
    (match s.task? id with
      | some t => t.doneIssue || !t.resident
      | none => true)
    && (match u with
      | .me0 => !(s.eng (2 * c)).queue.any fun q => q.task == id
      | .me1 => !(s.eng (2 * c + 1)).queue.any fun q => q.task == id
      | .mvp => !s.flightOp id [0x30, 0x31]
      | .enc => !s.flightOp id [0x40] && !((s.eng (2 * c)).queue ++ (s.eng (2 * c + 1)).queue).any fun q =>
          q.task == id && cwOp q.word == 0x12 && cwSpf q.word)

end Sys2Proof.Machine
end

