-- ==== Sys2Proof/Machine/Tile.lean ====
section
/-! DEFINITION. Stationary blocks and tiles (chapter 6): what the rows of a block put into the cells, tile headers, bitmap
slices, the encoder of R140, and violations (R141). -/

namespace Sys2Proof.Machine

/-- Element rows of a stationary block (Table 4-3). -/
def blockRows : Fmt → Nat
  | .bf16 => 64 | .mx6e3m2 => 26 | .mx6e2m3 => 26 | .mx4 => 16 | _ => 32

/-- Formats that have a tiled form (R126). -/
def Fmt.tiled : Fmt → Bool
  | .bf16 => true | .e4m3 => true | .e5m2 => true | _ => false

/-- Line l counted from the first of a list of rows by the packing of R64, with the scale rows that serve them in order. -/
def lineOf (f : Fmt) (rows srows : List Row) (l : Nat) : List Num :=
  let n := l / f.lines
  lineAt f (rows.getD n 0) (srows.getD (n / f.served) 0) (n % f.served) (l % f.lines)

/-! Headers (Table 6-2). -/

def hForm (r : Row) : Nat := bits r 0 4
def hFmt (r : Row) : Nat := bits r 4 4
def hRole (r : Row) : Nat := bits r 8 1
def hRows (r : Row) : Nat := bits r 16 16
def hLogical (r : Row) : Nat := bits r 32 10
def hNslice (r : Row) : Nat := bits r 48 11
def hCount (r : Row) (s : Nat) : Nat := bits r (64 + 8 * s) 8
def hBit (r : Row) (row s : Nat) : Bool := bitAt r (512 + 8 * row + s)

/-- N, M and index width of an N:M form. -/
def nmOf : Nat → Option (Nat × Nat × Nat)
  | 2 => some (2, 4, 2) | 3 => some (1, 4, 2) | 4 => some (2, 8, 3) | _ => none

/-- Dense sub-blocks of a DENSE_FALLBACK stationary tile (R133). -/
def subBlocks (logical : Nat) : Nat := max 1 (min 4 ((logical + 127) / 128))

/-- Rows of a stationary tile, header included (Table 6-3). -/
def stRows (form : Nat) (f : Fmt) (logical : Nat) : Nat :=
  match form with
  | 1 => 1 + blockRows f * subBlocks logical
  | 2 => 9 + blockRows f
  | 3 => 9 + blockRows f
  | 4 => 13 + blockRows f
  | _ => 1 + blockRows f

/-- Slices per row of a BITMAP tile (R135). -/
def slicesPerRow (f : Fmt) : Nat := if f = .bf16 then 16 else 32

/-- Rows of a streaming tile (Table 6-3). -/
def smRows (form : Nat) (f : Fmt) (nslice : Nat) : Nat :=
  if form = 5 then 1 + (nslice + slicesPerRow f - 1) / slicesPerRow f else 1 + blockRows f

/-- Rows from one streaming tile to the next. -/
def stride (f : Fmt) : Nat := 1 + blockRows f

/-- BAD_HEADER of a stationary tile (R141, KIND 5). -/
def badStHeader (h : Row) (fmt : Nat) (f : Fmt) : Bool :=
  decide (4 < hForm h) || hFmt h != fmt || hRole h != 0 || decide (stRows (hForm h) f (hLogical h) < hRows h)

/-- BAD_HEADER of a streaming tile. -/
def badSmHeader (h : Row) (fmt : Nat) (f : Fmt) : Bool :=
  !([0, 1, 5].contains (hForm h)) || hFmt h != fmt || hRole h != 1 || decide (smRows (hForm h) f (hNslice h) < hRows h)

/-! Cells. -/

/-- What an array computes with: logical rows, and for each column its cells in array-row order, each the logical row it
meets and its value (R78, R130). -/
structure Arr where
  width : Nat
  cols : List (List (Nat × Num))
  deriving DecidableEq, Repr

/-- A dense block from its rows: cell (i, j) is element j of line i, or element i of line j under TRANS (R78, R86). -/
def denseArr (f : Fmt) (trans : Bool) (rows : List Row) (scale : Row) : Arr :=
  let ls := (List.range 128).map fun i => lineOf f rows [scale] i
  let at_ := fun (i j : Nat) => (ls.getD i []).getD j Num.zero
  ⟨128, (List.range 128).map fun j => (List.range 128).map fun i => (i, if trans then at_ j i else at_ i j)⟩

/-- A field of a bit stream laid over rows from bit 0 of the first. -/
def streamBits (rows : List Row) (pos len : Nat) : Nat :=
  ((rows.getD (pos / 4096) 0).toNat / 2 ^ (pos % 4096) + (rows.getD (pos / 4096 + 1) 0).toNat * 2 ^ (4096 - pos % 4096)) % 2 ^ len

/-- The cells of an N:M tile's column with violating cells zeroed, and whether an index repeats or passes the logical rows
(R130, R132, R141). -/
def nmColumn (n m kt : Nat) (raw : List (Nat × Num)) : List (Nat × Num) × Bool × Bool :=
  let cells := (List.range 128).map fun i =>
    let c := raw.getD i (0, Num.zero)
    let k := m * (i / n) + c.1
    let dup := (List.range i).any fun i' => i' / n == i / n && (raw.getD i' (0, Num.zero)).1 == c.1
    ((k, if dup || decide (kt ≤ k) then Num.zero else c.2), dup, decide (kt ≤ k))
  (cells.map Prod.fst, cells.any (fun c => c.2.1), cells.any fun c => c.2.2)

def nmArr (f : Fmt) (nmb : Nat × Nat × Nat) (kt : Nat) (rows : List Row) : Arr × List Nat :=
  let b := nmb.2.2
  let idx := rows.drop (blockRows f)
  let ls := (List.range 128).map fun i => lineOf f rows [] i
  let cols := (List.range 128).map fun j => nmColumn nmb.1 nmb.2.1 kt ((List.range 128).map fun i =>
    (streamBits idx (b * (128 * i + j)) b, (ls.getD i []).getD j Num.zero))
  (⟨128 * nmb.2.1 / nmb.1, cols.map Prod.fst⟩,
    (if cols.any (fun c => c.2.1) then [1] else []) ++ (if cols.any fun c => c.2.2 then [2] else []))

def zeroArr : Arr := ⟨128, (List.range 128).map fun _ => (List.range 128).map fun i => (i, Num.zero)⟩

/-- A stationary block as it runs: its dense or N:M arrays in reduction order and the violations of its tile. -/
def blockArrs (b : Block) : List Arr × List Nat :=
  match Fmt.ofCode (cwFmt b.word) with
  | none => ([zeroArr], [])
  | some f =>
    if !cwSpf b.word then ([denseArr f (cwTrans b.word) b.rows b.scale], [])
    else
      let h := b.rows.headD 0
      let body := b.rows.drop 1
      if badStHeader h (cwFmt b.word) f then ([zeroArr], [5])
      else match nmOf (hForm h) with
        | some nm => let (a, v) := nmArr f nm (hLogical h) body; ([a], v)
        | none =>
          let n := if hForm h = 1 then subBlocks (hLogical h) else 1
          ((List.range n).map fun k => denseArr f false ((body.drop (k * blockRows f)).take (blockRows f)) 0, [])

/-- The form a staged block runs as: 0 for a plain one. -/
def blockForm (b : Block) : Nat := if cwSpf b.word then hForm (b.rows.headD 0) else 0

/-! Bitmap tiles (R135). -/

/-- One fed slice: streaming row within the tile, segment, and its 16 elements. -/
structure Slice where
  row : Nat
  seg : Nat
  xs : List Num
  deriving DecidableEq, Repr

def sliceAt (f : Fmt) (rows : List Row) (pos : Nat) : List Num :=
  (List.range 16).map fun k => elemAt f (rows.getD (pos / (f.perRow / 16)) 0) 0 0 (16 * (pos % (f.perRow / 16)) + k)

/-- The occupied slices in storage order with their storage and segment positions. -/
def storedSlices (h : Row) : List (Nat × Nat × Nat × Nat) :=
  let hits := (List.range 1024).filter fun b => bitAt h (512 + b)
  (hits.foldl (fun (a : List (Nat × Nat × Nat × Nat) × Nat × List Nat) b =>
    let s := b % 8
    (a.1 ++ [(b / 8, s, a.2.1, a.2.2.getD s 0)], a.2.1 + 1, a.2.2.set s (a.2.2.getD s 0 + 1)))
    ([], 0, [0, 0, 0, 0, 0, 0, 0, 0])).1

/-- The slices a BITMAP tile feeds, and the violations found (R141, KINDs 3 and 4). `rows` are the rows after the header. -/
def bitmapSlices (f : Fmt) (h : Row) (rows : List Row) : List Slice × List Nat :=
  let all := storedSlices h
  let ovr := fun (x : Nat × Nat × Nat × Nat) => decide (hNslice h ≤ x.2.2.1 ∨ hCount h x.2.1 ≤ x.2.2.2)
  let out := fun (x : Nat × Nat × Nat × Nat) => decide (hLogical h ≤ x.1 ∨ hRows h ≤ 1 + x.2.2.1 / slicesPerRow f)
  ((all.filter fun x => !ovr x && !out x).map fun x => ⟨x.1, x.2.1, sliceAt f rows x.2.2.1⟩,
    (if all.any ovr then [3] else []) ++ (if all.any out then [4] else []))

/-- Every slice of the valid rows of a dense streaming tile; those past ROWS are dropped (KIND 4). -/
def denseSlices (f : Fmt) (h : Row) (rows : List Row) : List Slice × List Nat :=
  let all := (List.range 1024).map fun b => (b / 8, b % 8)
  let out := fun (x : Nat × Nat) => decide (hRows h ≤ 1 + x.1 / f.lines)
  ((all.filter fun x => !out x).map fun x => ⟨x.1, x.2, sliceAt f rows (8 * x.1 + x.2)⟩, if all.any out then [4] else [])

/-! Encoding (R140). -/

/-- A tile header. -/
def mkHeader (form fmt role rows logical nslice : Nat) (counts : List Nat) (bitmap : Nat) : Row :=
  BitVec.ofNat 4096 (packBits ([(4, form), (4, fmt), (1, role), (7, 0), (16, rows), (10, logical), (6, 0), (11, nslice), (5, 0)]
    ++ (List.range 8).map (fun s => (8, counts.getD s 0))) + bitmap % 2 ^ 1024 * 2 ^ 512)

/-- Zero but for its sign. -/
def codeZero (f : Fmt) (c : Nat) : Bool := c % 2 ^ (f.width - 1) == 0

def codeAt (f : Fmt) (rows : List Row) (k : Nat) : Nat :=
  bits (rows.getD (k / f.perRow) 0) (f.width * (k % f.perRow)) f.width

/-- A streaming tile of 128 packed lines: BITMAP where it is shorter than the dense fallback, else DENSE_FALLBACK. -/
def encodeStream (f : Fmt) (fmt : Nat) (dense : List Row) (logical : Nat) : List Row × Bool :=
  let occ := (List.range 1024).map fun b => (List.range 16).any fun k => !codeZero f (codeAt f dense (16 * b + k))
  let hits := (List.range 1024).filter fun b => occ.getD b false
  let limit := if f = .bf16 then 1008 else 992
  if hits.length ≤ limit then
    let w := 16 * f.width
    let body := (chunks (slicesPerRow f) 64 (hits.map fun b => packNat f.width ((List.range 16).map fun k => codeAt f dense (16 * b + k)))).map
      fun g => BitVec.ofNat 4096 (packNat w g)
    (mkHeader 5 fmt 1 (smRows 5 f hits.length) logical hits.length
      ((List.range 8).map fun s => (hits.filter fun b => b % 8 == s).length)
      (packNat 1 (occ.map b2n)) :: body, false)
  else (mkHeader 1 fmt 1 (1 + blockRows f) logical 0 [] 0 :: dense.take (blockRows f), true)

/-- The cells of one column and group for an N:M tile: indices and codes of the nonzero values in ascending order, unused
positions zero with the lowest free index; none when the group is overfull. R140 fixes the unused positions only: that the nonzero values come
first and in rising index is the model's (DESIGN CHOICE, log 83). -/
def nmGroup (f : Fmt) (n m : Nat) (codes : List Nat) : Option (List (Nat × Nat)) :=
  let used := (List.range m).filter fun x => !codeZero f (codes.getD x 0)
  if n < used.length then none
  else
    let free := (List.range m).filter fun x => !used.contains x
    some (used.map (fun x => (x, codes.getD x 0)) ++ (free.take (n - used.length)).map fun x => (x, 0))

/-- An N:M tile of ceil(K_t / 128) dense blocks of codes, or its dense fallback. -/
def encodeStationary (f : Fmt) (fmt form kt : Nat) (nmb : Nat × Nat × Nat) (blocks : List Row) : List Row × Bool :=
  let (n, m, b) := nmb
  let code := fun (k j : Nat) => if k < kt then codeAt f blocks (128 * k + j) else 0
  let groups := (List.range (128 / n)).map fun g => (List.range 128).map fun j =>
    nmGroup f n m ((List.range m).map fun x => code (m * g + x) j)
  if groups.any fun r => r.any Option.isNone then
    (mkHeader 1 fmt 0 (stRows 1 f kt) kt 0 [] 0 :: blocks, true)
  else
    let cell := fun (i j : Nat) => (((groups.getD (i / n) []).getD j none).getD []).getD (i % n) (0, 0)
    let cells := (List.range 128).flatMap fun i => (List.range 128).map fun j => cell i j
    let vals := (chunks f.perRow 64 (cells.map Prod.snd)).map fun g => BitVec.ofNat 4096 (packNat f.width g)
    let idx := packNat b (cells.map Prod.fst)
    let idxRows := (List.range (if b = 2 then 8 else 12)).map fun r => BitVec.ofNat 4096 (idx / 2 ^ (4096 * r))
    (mkHeader form fmt 0 (stRows form f kt) kt 0 [] 0 :: (vals ++ idxRows), false)

/-! Violations (R141). -/

/-- One violation: sticky in the task, counted, logged when the log is free. -/
def State.violate (s : State) (id e kind header : Nat) : State :=
  let s := s.modTask id fun t => if t.viol = 0 then { t with viol := kind } else t
  let s := s.countEng C.spViolation e
  if s.flag (.meSpLog e) F.meSpLogValid then s
  else s.wr (.meSpLog e) (BitVec.ofNat 64 (packBits [(1, 1), (3, kind), (12, 0), (14, header), (2, 0), (32, s.beat32)]))

def State.violateAll (s : State) (id e header : Nat) (kinds : List Nat) : State :=
  kinds.foldl (fun (s : State) k => s.violate id e k header) s

end Sys2Proof.Machine
end

