-- ==== Sys2Proof/Machine/Tally.lean ====
section
/-! DEFINITION. Passes of the array (R66, R78, R136) and the tally checks made on them (R95 to R101, R134, R138). -/

namespace Sys2Proof.Machine

/-- A row fed to an array: its streaming row, elements, and the pass results of the columns as the checks see them. -/
structure Fed where
  row : Nat
  xs : List Num
  res : List Num
  deriving DecidableEq, Repr

/-- The products of a column with a fed row. -/
def products (xs : List Num) (cells : List (Nat × Num)) : List Num := cells.map fun c => Num.mul (xs.getD c.1 Num.zero) c.2

/-- One exact sum rounded once. -/
def exactSum (l : List Num) : Num × Flags :=
  let v := l.foldl Num.add Num.zero
  let (w, f) := rnd32 v
  (Num.of32 w, f.or (nvOf l v))

/-- A column's pass result by R66: `bf` where an operand is BF16, else groups of 32 products summed exactly. -/
def columnSum (bf : Bool) (ps : List Num) : Num × Flags :=
  if bf then
    match ps with
    | [] => (.zero, .none)
    | p :: t => t.foldl (fun a q => let (v, g) := add32 a.1 q; (v, a.2.or g)) (exactSum [p])
  else
    let gs := (chunks 32 8 ps).map exactSum
    let (v, g) := sum32 (gs.map Prod.fst)
    (v, (Flags.all (gs.map Prod.snd)).or g)

/-- One line of results. NV is judged over the column: an operation with no NaN input, so that a zero times an infinity beside a NaN of the
same column sets none (log 23). -/
def passLine (bf : Bool) (a : Arr) (xs : List Num) : List Num × Flags :=
  let rs := a.cols.map fun c => (columnSum bf (products xs c), nvOf (xs ++ c.map Prod.snd) (columnSum bf (products xs c)).1)
  (rs.map fun r => r.1.1, (Flags.all (rs.map fun r => r.1.2.or r.2)).or (niOf (xs ++ a.cols.flatMap fun c => c.map Prod.snd)))

/-- The results of a fed row with its transient upsets (R97). -/
def upset (ups : List Upset) (r : Nat) (l : List Num) : List Num :=
  ups.foldl (fun l u => if u.row = r then l.set u.col (Num.of32 u.bits) else l) l

/-- The array with the cells that meet some lines of a row zeroed: lines of a tile in violation contribute zero (R141). -/
def Arr.without (a : Arr) (bad : Nat → Bool) : Arr :=
  ⟨a.width, a.cols.map fun c => c.map fun (p : Nat × Num) => if bad (p.1 / 128) then (p.1, Num.zero) else p⟩

/-- The cells of segment s of a plain or DENSE block (R136). -/
def Arr.segment (a : Arr) (s : Nat) : Arr :=
  ⟨16, a.cols.map fun c => ((c.drop (16 * s)).take 16).map fun p => (p.1 - 16 * s, p.2)⟩

/-! Checks. -/

/-- What a group's checks found. -/
structure Verdict where
  checks : Nat
  skips : Nat
  fails : Nat
  kind : Nat
  column : Nat
  row : Nat
  deriving DecidableEq, Repr

/-- Ceiling of log2 of a nonzero finite magnitude. -/
def ceilLog (m : Nat) (e : Int) : Int := if m = 2 ^ Nat.log2 m then expOf m e else expOf m e + 1

/-- 2^E for the least E that bounds every finite magnitude, or 0 when all are 0 (R98). -/
def bound2 (l : List Num) : Num :=
  match l.foldl (fun a x => if x.isFin && Num.lt a x.abs then x.abs else a) Num.zero with
  | .fin _ 0 _ => .zero
  | .fin _ m e => .pow2 (ceilLog m e)
  | _ => .zero

/-- One check: none when it involves a non-finite value (R99), else whether it fails. `inv` are the further values that the
check involves. -/
def oneCheck (rel abs_ s : Num) (vals : List Num) (other : Num) (inv : List Num) : Option Bool :=
  let (c, _) := sum32 vals
  let (q, _) := sum32 (vals.map Num.abs)
  if !(vals ++ inv).all Num.isFin || !c.isFin || !q.isFin || !other.isFin then none
  else some (Num.lt (Num.add (Num.mul rel q) (Num.mul abs_ s)) (Num.add c other.neg).abs)

/-- A sum of rounded products. -/
def dot32 (a b : List Num) : Num := (sum32 ((a.zip b).map fun p => (mul32 p.1 p.2).1)).1

/-- The tally coefficients: for each logical row the exact sum of the values that name it, rounded once (R95, R134). -/
def coefs (a : Arr) : List Num := (List.range a.width).map fun k =>
  (exactSum (a.cols.flatMap fun c => (c.filter fun p => p.1 == k).map Prod.snd)).1

/-- The place of a failing group (Table 4-7). -/
def localize (rows cols : List Nat) : Nat × Nat × Nat :=
  match rows, cols with
  | [r], [j] => (1, j, r)
  | r :: _, [j] => (2, j, r)
  | r :: _, [] => (3, 128, r)
  | [], j :: _ => (4, j, 0)
  | _, _ => (5, 128, 0)

/-- A sum in order whose first value is rounded too (R96): one beyond FP32 is infinite. -/
def sumRounded (l : List Num) : Num :=
  match l with
  | [] => .zero
  | x :: t => (sum32 (x.r32 :: t)).1

/-- The checks of one group of fed rows (R97, R98). What the sums of the tally itself raise goes into no flag (log 23). -/
def groupVerdict (rel abs_ : Num) (a : Arr) (g : List Fed) : Verdict :=
  let cs := coefs a
  let ws := a.cols.flatMap fun c => c.map Prod.snd
  let ts := g.map fun f => dot32 f.xs cs
  let ssum := (List.range a.width).map fun k => sumRounded (g.map fun f => f.xs.getD k Num.zero)
  let scale := Num.mul (bound2 (g.flatMap Fed.xs)) (bound2 ws)
  let xs := g.flatMap Fed.xs
  let rowCs := (g.zip ts).map fun p => oneCheck rel abs_ scale p.1.res p.2 (p.1.xs ++ ws)
  let colCs := (List.range 128).map fun j =>
    let col := a.cols.getD j []
    oneCheck rel abs_ scale (g.map fun f => f.res.getD j Num.zero) (dot32 (col.map fun c => ssum.getD c.1 Num.zero) (col.map Prod.snd))
      (xs ++ col.map Prod.snd)
  let corner := oneCheck rel abs_ scale ts (dot32 ssum cs) (xs ++ ws)
  let failing := fun (l : List (Option Bool)) => (List.range l.length).filter fun i => l.getD i none == some true
  let all := rowCs ++ colCs ++ [corner]
  let n := (failing all).length
  let (k, c, r) := if n = 0 then (0, 0, 0) else localize (failing rowCs) (failing colCs)
  ⟨(all.filter Option.isSome).length, (all.filter Option.isNone).length, n, k, c, r⟩

/-- The groups of a sequence of fed rows: closed after every 128th and after the last (R96, R138). -/
def verdicts (rel abs_ : Num) (a : Arr) (fed : List Fed) : List Verdict := (chunks 128 (fed.length + 1) fed).map (groupVerdict rel abs_ a)

/-- The tolerances in force in ME_CFG (R98). -/
def State.tolerances (s : State) (e : Nat) : Num × Num :=
  let b := s.fld (.meCfg e) F.meCfgTolAbsExp
  (.pow2 (-(s.fld (.meCfg e) F.meCfgTolRelExp : Int)), if b = 31 then .zero else .pow2 (-(b : Int)))

/-! Mismatch (R101, R415). -/

/-- A charged mismatch as evidence against the engine's physical core (Table 20-2, sources 1 and 2); the code kept with the
task is 2 where CONFIRM rose and 3 for source 2, with the beat, so that R415 can withdraw it. -/
def State.tallyEvidence (s : State) (id core kind column : Nat) : State :=
  let cl := core / 8
  let ph := s.physOf core
  if kind = 1 ∨ kind = 2 then
    let again := match s.wlFind 1 cl ph 0 with
      | some w => w.state == 1 && w.column == column && w.lkind != 0
      | none => false
    let s := s.wlChange 1 cl ph 0 1 fun w =>
      { w with column := column, lkind := kind, passes := 0, confirm := if again then min (w.confirm + 1) 255 else w.confirm }
    s.modTask id fun t => { t with charges := t.charges ++ [(s.physKey core, if again then 2 else 1, s.beatNo.toNat)] }
  else
    let k := s.core core
    let l := s.recent k.mmBeats (2 ^ 24)
    let s := s.setCore core { k with mmBeats := l }
    let s := if 2 ≤ l.length then s.wlChange 1 cl ph 0 2 fun w => { w with passes := 0 } else s
    s.modTask id fun t => { t with charges := t.charges ++ [(s.physKey core, 3, s.beatNo.toNat)] }

/-- What the checks of one pass do (R96, R99, R101). -/
def State.tallied (s : State) (id e : Nat) (vs : List Verdict) : State :=
  let total := fun (f : Verdict → Nat) => vs.foldl (fun a v => a + f v) 0
  let s := s.countEng C.meTallySlots e vs.length
  let s := s.countEng C.tallyChecks e (total Verdict.checks)
  let s := s.countEng C.tallyMismatch e (total Verdict.fails)
  let s := s.countEng C.tallySkip e (total Verdict.skips)
  let s := if total Verdict.skips = 0 then s else s.modTask id fun t => { t with skipped := true }
  match vs.find? fun v => v.fails != 0 with
  | none => s
  | some v =>
    let s := s.setFld (.meSuspect e) F.meSuspectCount (min (s.fld (.meSuspect e) F.meSuspectCount + 1) 65535)
    let s := if s.flag (.meTallyLog e) F.meTallyLogValid then s else
      s.wr (.meTallyLog e) (BitVec.ofNat 64 (packBits [(1, 1), (3, v.kind), (4, 0), (8, v.column), (7, v.row), (1, 0),
        (8, min v.fails 255), (32, s.beat32)]))
    let s := s.fault (agentCore (e / 2)) 0x02 (e % 2) (packBits [(3, v.kind), (5, 0), (8, v.column), (7, v.row)]) 0
    let s := s.modTask id fun t => { t with badEngs := t.badEngs ++ [e] }
    s.tallyEvidence id (e / 2) v.kind v.column

end Sys2Proof.Machine
end

