-- ==== Sys2Proof/Machine/Engine.lean ====
section
/-! DEFINITION. The matrix engines: me.load, the shift-in, me.stream, me.drain (chapters 4 and 6). -/

namespace Sys2Proof.Machine

def cmdEng (t : Task) (w : CmdWord) : Nat := 2 * t.core + cwEng w

/-- A field of a command word is used only where the condition holds. -/
def fieldIf (c : Bool) (f : Nat × Nat) : List (Nat × Nat) := if c then [f] else []

def sideOf (f : Option Fmt) : Bool := match f with
  | some g => g.sidecar
  | none => false

/-! me.load -/

def loadUsed (f : Fmt) : List (Nat × Nat) := [(0, 8), (8, 4), (14, 1), (15, 1), (17, 1), (32, 13)] ++ fieldIf f.sidecar (45, 13)

/-- The rows that me.load names: the plain block or the header, and the scale row. Of a word with a reserved FMT only the first row is known
(R161). -/
def loadNames (t : Task) (w : CmdWord) (f : Option Fmt) : List RowRef :=
  match f with
  | none => [.near t.core (bits w 32 13)]
  | some f => nearRowsOf t.core (bits w 32 13) (if cwSpf w then 1 else blockRows f)
    ++ (if f.sidecar then [.near t.core (bits w 45 13)] else [])

/-- Staging (R83, R132): the rows are read into the staging buffer. -/
def State.stage (s : State) (t : Task) (w : CmdWord) : Ex State := do
  let e := cmdEng t w
  match Fmt.ofCode (cwFmt w) with
  | none => badCommand
  | some f =>
    let src := bits w 32 13
    let (hs, s) ← s.readRows t false (nearRowsOf t.core src (if cwSpf w then 1 else blockRows f))
    let h := hs.headD 0
    let bad := badStHeader h (cwFmt w) f
    let n := if !cwSpf w || bad then 0 else stRows (hForm h) f (hLogical h) - 1
    let more := nearRowsOf t.core (src + 1) n
    s.quota t more
    require (inRange more)
    let (ds, s) ← s.readRows t false more
    let (ss, s) ← if f.sidecar then s.readRows t false [.near t.core (bits w 45 13)] else (.ok ([], s))
    let b : Block := ⟨w, hs ++ ds, ss.headD 0, some t.id⟩
    let s := s.setEng e { s.eng e with staging := some b }
    if !cwSpf w then return s else
    let s := if bad then s else if hForm h = 1 then s.countEng C.spFallbackTiles e
      else if (nmOf (hForm h)).isSome then s.countEng C.spNmTiles e else s
    return s.violateAll t.id e src (blockArrs b).2

def State.loadChecks (s : State) (t : Task) (w : CmdWord) : Ex Unit :=
  let f? := Fmt.ofCode (cwFmt w)
  s.issueChecks t (loadNames t w f?) [] (match f? with
    | none => false
    | some f => f.engineOperand && !stray w (loadUsed f) && !(cwTrans w && (f.isMx || cwSpf w)) && !(cwSpf w && !f.tiled))

/-! me.stream -/

def streamUsed (f : Fmt) (w : CmdWord) : List (Nat × Nat) :=
  [(0, 8), (8, 4), (14, 1), (15, 1), (17, 1), (18, 1), (32, 13), (71, 1), (72, 10), (82, 10)] ++ fieldIf f.sidecar (45, 13)
    ++ fieldIf (bitAt w 71) (58, 13)

def stNrows (w : CmdWord) : Nat := bits w 72 10 + 1
def stBase (w : CmdWord) : Nat := bits w 82 10

/-- Lines of a streaming row that a block meets (R78, R131, R133). -/
def blockLines (b : Block) : Nat :=
  match nmOf (blockForm b) with
  | some x => x.2.1 / x.1
  | none => if blockForm b = 1 then subBlocks (hLogical (b.rows.headD 0)) else 1

/-- The lines to a row that a me.stream meets as far as its issue can tell: 1 while a me.load is still to read its tile. -/
def State.linesAhead (s : State) (e : Nat) : Nat :=
  let x := s.eng e
  if x.queue.any fun q => cwOp q.word == 0x10 then 1 else
  match x.staging, x.cells with
  | some b, _ => blockLines b
  | none, some b => blockLines b
  | none, none => 1

/-- The rows that me.stream names: its rows at `lines` lines to a row, or the headers of its tiles; the scale rows; the mask. -/
def streamNames (t : Task) (w : CmdWord) (f : Option Fmt) (lines : Nat) : List RowRef :=
  let src := bits w 32 13; let tiles := (stNrows w + 127) / 128
  let near := fun (n : Nat) => RowRef.near t.core n
  (match f with
    | none => [near src]
    | some f =>
      let n := if cwTrans w then tiles * (128 * lines / f.lines) else (stNrows w * lines + f.lines - 1) / f.lines
      if cwSpf w then (List.range tiles).map fun k => near (src + k * stride f)
      else nearRowsOf t.core src n ++ if f.sidecar then nearRowsOf t.core (bits w 45 13) ((n + f.served - 1) / f.served) else [])
    ++ (if bitAt w 71 then [near (bits w 58 13)] else [])

/-- R81, R127 and R161; a masked row is named too. -/
def State.streamChecks (s : State) (t : Task) (w : CmdWord) : Ex Unit :=
  let f? := Fmt.ofCode (cwFmt w)
  s.issueChecks t (streamNames t w f? (s.linesAhead (cmdEng t w))) [] (match f? with
    | none => false
    | some f => f.engineOperand && !stray w (streamUsed f w) && !(cwTrans w && (f.isMx || cwSpf w)) && !(cwSpf w && !f.tiled)
        && decide (stBase w + stNrows w ≤ 1024))

/-- Rows of a task's near store by number, read once each. -/
def State.readSet (s : State) (t : Task) (base : Nat) (ns : List Nat) : Ex (SMap Row × State) := do
  let refs := ns.map fun n => RowRef.near t.core (base + n)
  s.quota t refs
  require (inRange refs)
  let (ds, s) ← s.readRows t false refs
  return (ns.zip ds, s)

def rowOf (m : SMap Row) (n : Nat) : Row := (SMap.find? m n).getD 0

/-- The streaming rows of a plain operand: for each unmasked row its elements over `lines` lines (R78, R87, R131, R133). A transposed operand
over a block of several lines is taken as tiles of 128 x `lines` lines, and a transposed tile whose rows are all masked is not read
(log 24). -/
def State.plainRows (s : State) (t : Task) (w : CmdWord) (f : Fmt) (lines : Nat) (fed : List Nat) : Ex (List (List Num) × State) := do
  let perTile := 128 * lines / f.lines
  let need := dedup (if cwTrans w then fed.flatMap fun r => (List.range perTile).map fun k => r / 128 * perTile + k
    else fed.flatMap fun r => (List.range lines).map fun l => (lines * r + l) / f.lines)
  let (m, s) ← s.readSet t (bits w 32 13) need
  let (sm, s) ← if f.sidecar then s.readSet t (bits w 45 13) (dedup (need.map fun n => n / f.served)) else (.ok ([], s))
  let line := fun (l : Nat) =>
    let n := l / f.lines
    lineAt f (rowOf m n) (rowOf sm (n / f.served)) (n % f.served) (l % f.lines)
  return (fed.map fun r =>
    if cwTrans w then (List.range (128 * lines)).map fun i => (line (r / 128 * (128 * lines) + i)).getD (r % 128) Num.zero
    else (List.range lines).flatMap fun l => line (lines * r + l), s)

/-- A streaming tile as read (R135): number, header, rows after it, and whether its header is bad. -/
structure STile where
  no : Nat
  hdr : Row
  rows : List Row
  bad : Bool
  deriving DecidableEq, Repr

def State.readTiles (s : State) (t : Task) (w : CmdWord) (f : Fmt) : List Nat → Ex (List STile × State)
  | [] => .ok ([], s)
  | k :: ks => do
    let base := bits w 32 13 + k * stride f
    let (hm, s) ← s.readSet t base [0]
    let h := rowOf hm 0
    let bad := badSmHeader h (cwFmt w) f
    let (m, s) ← s.readSet t base ((List.range (if bad then 0 else hRows h - 1)).map fun i => i + 1)
    let (ts, s) ← State.readTiles s t w f ks
    return (⟨k, h, m.map Prod.snd, bad⟩ :: ts, s)

/-- What a pass adds to the accumulator: dense lines, then partial lines of segmented operation in arrival order. -/
structure PassOut where
  lines : List (Nat × List Num)
  parts : List (Nat × List Num)
  zeroed : List Nat
  flags : Flags
  verdicts : List Verdict
  slices : Nat
  adds : Nat
  floor : Nat
  deriving DecidableEq, Repr

/-- Segments' slices of a pass with their arrival: (tile, slot in the tile, row of the pass, elements); an injection follows
every 128th slice and the last (R136, R138). -/
def segSlots (tally : Bool) (sl : List (Nat × Nat × List Num)) : List (Nat × Nat × Nat × List Num) × (Nat → Nat) :=
  let n := sl.length
  let inj := fun (p : Nat) => tally && (decide ((p + 1) % 128 = 0) || decide (p + 1 = n))
  let r := sl.foldl (fun (a : List (Nat × Nat × Nat × List Num) × Nat × Nat × Nat) x =>
    -- list, position, tile, slot
    let slot := if x.1 = a.2.2.1 then a.2.2.2 else 0
    (a.1 ++ [(x.1, slot, x.2.1, x.2.2)], a.2.1 + 1, x.1, slot + (if inj a.2.1 then 2 else 1))) ([], 0, 0, 0)
  (r.1, fun tile => ((List.range n).filter fun p => (sl.getD p (0, 0, [])).1 == tile).foldl
    (fun a p => a + (if inj p then 2 else 1)) 0)

/-- Segmented operation over the slices of a pass (R136, R138). -/
def segmentedPass (bf tally : Bool) (tol : Num × Num) (a : Arr) (ups : List Upset) (tiles : List Nat)
    (sl : List (Nat × Nat × Nat × List Num)) : PassOut :=
  let lanes := (List.range 8).map fun g =>
    let mine := (sl.filter fun x => x.2.2.1 == g).map fun x => (x.1, x.2.1, x.2.2.2)
    let arr := a.segment g
    let first := fun (r : Nat) => !(sl.any fun x => x.2.1 == r && decide (x.2.2.1 < g))
    let fed := mine.map fun x =>
      let (l, fl) := passLine bf arr x.2.2
      ((⟨x.2.1, x.2.2, if first x.2.1 then upset ups x.2.1 l else l⟩ : Fed), fl)
    (segSlots tally mine, arr, fed)
  let slotOf := fun (g : Nat) => ((lanes.getD g (([], fun _ => 0), a, [])).1.1)
  let out := (List.range 8).flatMap fun g => ((slotOf g).zip ((lanes.getD g (([], fun _ => 0), a, [])).2.2)).map fun p =>
    (p.1.1, p.1.2.1, p.2.1.row, p.2.1.res)
  let keyed := sortBy (fun (x : Nat × Nat × Nat × List Num) => x.1 * 65536 + x.2.1) out
  -- partial lines of one entry and one slot combine in segment order
  let comb := keyed.foldl (fun (acc : List (Nat × Nat × Nat × List Num) × Flags) x =>
    if acc.1.any fun y => y.1 == x.1 && y.2.1 == x.2.1 && y.2.2.1 == x.2.2.1 then
      (acc.1.map fun y => if y.1 = x.1 ∧ y.2.1 = x.2.1 ∧ y.2.2.1 = x.2.2.1
        then (y.1, y.2.1, y.2.2.1, (y.2.2.2.zip x.2.2.2).map fun p => (add32 p.1 p.2).1) else y,
       acc.2.or (Flags.all ((acc.1.filter fun y => y.1 == x.1 && y.2.1 == x.2.1 && y.2.2.1 == x.2.2.1).flatMap fun y =>
        (y.2.2.2.zip x.2.2.2).map fun p => (add32 p.1 p.2).2)))
    else (acc.1 ++ [x], acc.2)) ([], Flags.none)
  let cost := fun (tile : Nat) => lanes.foldl (fun m l => max m (l.1.2 tile)) 0
  { lines := [], parts := comb.1.map fun x => (x.2.2.1, x.2.2.2), zeroed := [],
    flags := (Flags.all (lanes.flatMap fun l => l.2.2.map Prod.snd)).or comb.2,
    verdicts := if tally then lanes.flatMap fun l => verdicts tol.1 tol.2 l.2.1 (l.2.2.map Prod.fst) else [],
    slices := sl.length, adds := comb.1.length, floor := tiles.foldl (fun m t => m + (16 - cost t)) 0 }

/-- Dense operation of one sub-block over fed rows; `bad` are the lines of a row that contribute zero. -/
def densePass (bf tally : Bool) (tol : Num × Num) (a : Arr) (ups : List Upset) (bad : Nat → Nat → Bool) (rows : List (Nat × List Num)) :
    PassOut :=
  let fed := rows.map fun p =>
    let (l, fl) := passLine bf (if (List.range (a.width / 128)).any (bad p.1) then a.without (bad p.1) else a) p.2
    ((⟨p.1, p.2, upset ups p.1 l⟩ : Fed), fl)
  { lines := fed.map fun f => (f.1.row, f.1.res), parts := [], zeroed := [], flags := Flags.all (fed.map Prod.snd),
    verdicts := if tally then verdicts tol.1 tol.2 a (fed.map Prod.fst) else [], slices := 0, adds := 0, floor := 0 }

/-- A line enters an accumulator entry (R91). -/
def accLine (add : Bool) (acc : SMap (Option Row)) (e : Nat) (l : List Num) : SMap (Option Row) × Flags :=
  match add, SMap.get (fun _ => none) acc e with
  | true, some old =>
    let rs := ((lineNums old).zip l).map fun p => add32 p.1 p.2
    (SMap.put (fun _ => none) acc e (some (lineOf32 (rs.map Prod.fst))), Flags.all (rs.map Prod.snd))
  | _, _ => (SMap.put (fun _ => none) acc e (some (lineOf32 l)), .none)

def accLines (add : Bool) (base : Nat) (acc : SMap (Option Row)) (ls : List (Nat × List Num)) : SMap (Option Row) × Flags :=
  ls.foldl (fun a p => let (m, f) := accLine add a.1 (base + p.1) p.2; (m, a.2.or f)) (acc, Flags.none)

/-- The pass's outcome in the accumulator, flags, counters and checks. -/
def State.passDone (s : State) (t : Task) (w : CmdWord) (masked : List Nat) (fedRows : Nat) (outs : List PassOut) : State :=
  let e := cmdEng t w
  let base := stBase w
  let add := cwAcc w
  let none_ : Nat → Option Row := fun _ => none
  let x := s.eng e
  let acc := if add then x.acc else masked.foldl (fun (m : SMap (Option Row)) r => SMap.erase m (base + r)) x.acc
  let acc := outs.foldl (fun (m : SMap (Option Row)) o => if add then m else
    o.zeroed.foldl (fun m r => SMap.put none_ m (base + r) (some 0)) m) acc
  let r := (List.range outs.length).foldl (fun (a : SMap (Option Row) × Flags) i =>
    match outs[i]? with
    | none => a
    | some o =>
      let (m, f) := accLines (add || decide (0 < i)) base a.1 o.lines
      let (m, g) := accLines true base m o.parts
      (m, a.2.or (f.or (g.or o.flags)))) (acc, Flags.none)
  let s := s.setEng e { x with acc := r.1 }
  let s := s.addFlags t.id r.2
  let tot := fun (f : PassOut → Nat) => outs.foldl (fun a o => a + f o) 0
  let s := s.countEng C.mePasses e
  let s := s.countEng C.meRowsFed e fedRows
  let s := s.countEng C.meRowsMasked e masked.length
  let s := s.countEng C.spSlicesFed e (tot PassOut.slices)
  let s := s.countEng C.spScatterAdds e (tot PassOut.adds)
  let s := s.countEng C.spFloorSlots e (tot PassOut.floor)
  s.tallied t.id e (outs.flatMap PassOut.verdicts)

/-- The rows of DENSE tiles, `lines` lines of the tiles' line sequence to a row. -/
def tileRows (f : Fmt) (lines : Nat) (tiles : List STile) (r : Nat) : List Num :=
  (List.range lines).flatMap fun l =>
    let k := lines * r + l
    match tiles.find? fun x => x.no == k / 128 with
    | some x => if x.bad then List.replicate 128 Num.zero else lineOf f x.rows [] (k % 128)
    | none => List.replicate 128 Num.zero

/-- A pass of a tiled operand (R135 to R138, R141). -/
def State.tiledPass (s : State) (t : Task) (w : CmdWord) (f : Fmt) (bf tally : Bool) (tol : Num × Num) (arrs : List Arr)
    (conflict : Bool) (ups : List Upset) (fed masked : List Nat) : Ex State := do
  let e := cmdEng t w
  let lines := match arrs with
    | [a] => a.width / 128
    | _ => arrs.length
  let first := dedup (fed.map fun r => r / 128)
  let (tiles, s) ← s.readTiles t w f first
  let hdr := fun (x : STile) => bits w 32 13 + x.no * stride f
  let seg := fun (x : STile) => !x.bad && hForm x.hdr != 0
  let s := tiles.foldl (fun (s : State) x => if x.bad then s.violate t.id e 5 (hdr x) else s) s
  let refuse := fun (s : State) (x : STile) =>
    (s.violate t.id e 6 (hdr x)).passDone t w masked fed.length [⟨[], [], fed, .none, [], 0, 0, 0⟩]
  match conflict, tiles.find? seg with
  | true, some x => return refuse s x
  | _, _ =>
    -- dense tiles under a block of several lines to a row go on past them (R131, R133)
    let more := dedup ((fed.flatMap fun r => (List.range lines).map fun l => (lines * r + l) / 128).filter fun k => !first.contains k)
    let (tiles2, s) ← s.readTiles t w f more
    let s := tiles2.foldl (fun (s : State) x => if x.bad then s.violate t.id e 5 (hdr x) else s) s
    match conflict, tiles2.find? seg with
    | true, some x => return refuse s x
    | _, _ =>
    let tiles := tiles ++ tiles2
    let badLine := fun (r l : Nat) => tiles.any fun x => x.bad && x.no == (lines * r + l) / 128
    let inTile := fun (x : STile) (r : Nat) => r / 128 == x.no && fed.contains r
    let sl := (tiles.filter seg).map fun x => (x, if hForm x.hdr = 5 then bitmapSlices f x.hdr x.rows else denseSlices f x.hdr x.rows)
    let s := sl.foldl (fun (s : State) p => s.violateAll t.id e (hdr p.1) p.2.2) s
    let s := tiles.foldl (fun (s : State) x => if x.bad then s else match hForm x.hdr with
      | 5 => s.countEng C.spBitmapTiles e
      | 1 => s.countEng C.spFallbackTiles e
      | _ => s) s
    let short := (tiles.filter fun x => !x.bad && hForm x.hdr == 0 && decide (hRows x.hdr < smRows 0 f 0))
    let s := short.foldl (fun (s : State) x => s.violate t.id e 4 (hdr x)) s
    let segRow := fun (r : Nat) => lines == 1 && tiles.any fun x => seg x && x.no == r / 128
    let slices := sl.flatMap fun p => (p.2.1.filter fun y => inTile p.1 (128 * p.1.no + y.row)).map fun y =>
      (p.1.no, 128 * p.1.no + y.row, y.seg, y.xs)
    let denseFed := fed.filter fun r => !segRow r
    let dense := (List.range arrs.length).map fun b =>
      let a := arrs.getD b zeroArr
      densePass bf tally tol a (if b = 0 then ups else [])
        (if arrs.length = 1 then badLine else fun r _ => badLine r b) (denseFed.map fun r =>
        (r, if arrs.length = 1 then tileRows f lines tiles r else ((tileRows f lines tiles r).drop (128 * b)).take 128))
    let segd := segmentedPass bf tally tol (arrs.headD zeroArr) ups ((tiles.filter fun x => hForm x.hdr == 5 && !x.bad).map STile.no)
      slices
    return s.passDone t w masked fed.length (dense ++ [{ segd with zeroed := fed.filter segRow }])

/-- A pass (R78, R88, R89, R96, R133). A block staged while TALLY_EN was 0 is checked with its c_i all the same (log 23). With no block in
force, which only a faulted me.load leaves, there is nothing to stream against. -/
def State.runStream (s : State) (t : Task) (w : CmdWord) (ups : List Upset) : Ex State := do
  let e := cmdEng t w
  match Fmt.ofCode (cwFmt w), (s.eng e).cells with
  | some f, some b =>
    let (mrow, s) ← if bitAt w 71 then s.readRows t false [.near t.core (bits w 58 13)] else (.ok ([], s))
    let mask := mrow.headD 0
    let masked := (List.range (stNrows w)).filter fun r => bitAt mask r
    let fed := (List.range (stNrows w)).filter fun r => !bitAt mask r
    let (arrs, _) := blockArrs b
    let bf := f == .bf16 || decide (cwFmt b.word = 1)
    let tally := s.flag (.meCfg e) F.meCfgTallyEn
    let tol := s.tolerances e
    let conflict := (nmOf (blockForm b)).isSome || decide (blockForm b = 1)
    if cwSpf w then s.tiledPass t w f bf tally tol arrs conflict ups fed masked
    else
      let lines := match arrs with
        | [a] => a.width / 128
        | _ => arrs.length
      let (xs, s) ← s.plainRows t w f lines fed
      let outs := (List.range arrs.length).map fun k =>
        densePass bf tally tol (arrs.getD k zeroArr) (if k = 0 then ups else []) (fun _ _ => false)
          (fed.zip (if arrs.length = 1 then xs else xs.map fun x => (x.drop (128 * k)).take 128))
      return s.passDone t w masked fed.length outs
  | _, _ => return s

/-! me.drain -/

def drNrows (w : CmdWord) : Nat := bits w 71 10 + 1
def drBase (w : CmdWord) : Nat := bits w 81 10
def drTmode (w : CmdWord) : Nat := bits w 93 3

def drainUsed (f : Fmt) (w : CmdWord) : List (Nat × Nat) :=
  [(0, 8), (8, 4), (12, 2), (15, 1), (16, 1), (17, 1), (32, 13), (71, 10), (81, 10), (91, 1), (92, 1), (93, 3)]
    ++ fieldIf f.sidecar (45, 13) ++ fieldIf (drTmode w == 3) (58, 13) ++ fieldIf (drTmode w == 3) (20, 4)
    ++ fieldIf (drTmode w != 0) (96, 1)

/-- The destination rows of a plain drain: element rows, then scale rows. -/
def drainRows (w : CmdWord) (f : Fmt) : List Nat × List Nat :=
  let n := (drNrows w + f.lines - 1) / f.lines
  ((List.range n).map fun i => bits w 32 13 + i,
   if f.sidecar then (List.range ((n + f.served - 1) / f.served)).map fun i => bits w 45 13 + i else [])

/-- Rows of the neighbour operand of a tap (R113); under a reserved FMT2 the row that TSRC names. -/
def tapRows (t : Task) (w : CmdWord) : List RowRef :=
  match Fmt.ofCode (cwFmt2 w) with
  | some g => if drTmode w = 3 then nearRowsOf t.core (bits w 58 13) ((drNrows w + g.lines - 1) / g.lines) else []
  | none => if drTmode w = 3 then [.near t.core (bits w 58 13)] else []

/-- The rows that me.drain is sure to name: its destinations, or the header rows of its tiles, and its neighbour rows. -/
def drainNames (t : Task) (w : CmdWord) (f : Option Fmt) : List RowRef × List RowRef :=
  let near := fun (n : Nat) => RowRef.near t.core n
  match f with
  | none => ([near (bits w 32 13)], tapRows t w)
  | some f =>
    let (es, ss) := drainRows w f
    ((if cwSpf w then (List.range ((drNrows w + 127) / 128)).map fun k => near (bits w 32 13 + k * stride f) else (es ++ ss).map near),
      tapRows t w)

/-- R81, R127, R161 and R162. A skipped row is not written, so its range does not matter. -/
def State.drainChecks (s : State) (t : Task) (w : CmdWord) : Ex Unit := do
  let f? := Fmt.ofCode (cwFmt w)
  let (dst, tap) := drainNames t w f?
  s.quota t (dst ++ tap)
  require ((match f? with
    | none => false
    | some f => f.drainOutput && decide (cwRound w < 3) && !stray w (drainUsed f w) && decide (drBase w + drNrows w ≤ 1024)
      && decide (drTmode w ≤ 4) && !(drTmode w == 3 && decide (3 < cwFmt2 w))
      && !(cwSpf w && (!f.tiled || bitAt w 91 || drNrows w % 128 != 0))) && inRange (dst ++ tap))
  if bitAt w 91 then return () else outputs t (dst.map rowNo)

/-- Sum of values by the tree of R111: adjacent values pair, an odd last passes up. -/
def pairUp (f : Num → Num → Num × Flags) : List Num → List Num × Flags
  | [] => ([], .none)
  | [x] => ([x], .none)
  | x :: y :: t =>
    let (v, g) := f x y
    let (l, h) := pairUp f t
    (v :: l, g.or h)

def treeBy (f : Num → Num → Num × Flags) : Nat → List Num → Num × Flags
  | _, [] => (.zero, .none)
  | _, [x] => (x, .none)
  | 0, x :: _ => (x, .none)
  | k + 1, l =>
    let (l', g) := pairUp f l
    let (v, h) := treeBy f k l'
    (v, g.or h)

def treeSum (l : List Num) : Num × Flags := treeBy add32 64 l

/-- The VU's greater and lesser (R106): NaN where either is NaN, -0 below +0. -/
def maxNum (x y : Num) : Num :=
  if x.isNan || y.isNan then .nan else if Num.lt x y then y else if Num.lt y x then x else if x.sign then y else x

def minNum (x y : Num) : Num :=
  if x.isNan || y.isNan then .nan else if Num.lt x y then x else if Num.lt y x then y else if x.sign then x else y

/-- The scalar that a tap takes from a line (R113); a NaN of the neighbour is read as an input (Table 3-5). -/
def tapOf (mode : Nat) (y n : List Num) : Num × Flags :=
  let prods := fun (a b : List Num) =>
    let ps := (a.zip b).map fun p => mul32 p.1 p.2
    let (v, f) := treeSum (ps.map Prod.fst)
    (v, f.or (Flags.all (ps.map Prod.snd)))
  match mode with
  | 1 => treeSum y
  | 2 => prods y y
  | 3 => let (v, f) := prods y n; (v, f.or (niOf n))
  | _ => (y.foldl maxNum (y.headD .zero), .none)

/-- The tap of one drained entry: replaced or added to by TACC; a CLEAR line leaves the entry or the identity (R113, R114). -/
def tapEntry (mode : Nat) (tacc : Bool) (tap : SMap (Option F32)) (e : Nat) (y : Option (List Num)) (n : List Num) :
    SMap (Option F32) × Flags :=
  let none_ : Nat → Option F32 := fun _ => none
  let old := SMap.get none_ tap e
  let wr := fun (v : Num) => SMap.put none_ tap e (some (rnd32 v).1)
  match y with
  | none => if tacc && old.isSome then (tap, .none) else (wr (if mode = 4 then .inf true else .zero), .none)
  | some l =>
    let (v, f) := tapOf mode l n
    match tacc, old with
    | true, some o => if mode = 4 then (wr (maxNum (Num.of32 o) v), f)
      else let (u, g) := add32 (Num.of32 o) v; (wr u, f.or g)
    | _, _ => (wr v, f)

/-- Pack drained lines row by row (R64, R93): each row's content where it is written, and its scales. -/
def State.packDrain (s : State) (t : Task) (f : Fmt) (round : Nat) (skip : Bool) : List (List (Option (List Num))) →
    List (Option (Row × List Nat)) × State
  | [] => ([], s)
  | g :: gs =>
    if skip && g.all Option.isNone then
      let (l, s) := State.packDrain s t f round skip gs
      (none :: l, s)
    else
      let vals := g.flatMap fun l => l.getD (List.replicate 128 Num.zero)
      let (row, sc, s) := s.packFor t f round vals
      let (l, s) := State.packDrain s t f round skip gs
      (some (row, sc) :: l, s)

/-- The scale rows that go with packed rows; positions that serve no written row are 0 (R93). A scale row all of whose element rows are
skipped is not written (log 24). -/
def scaleRows (f : Fmt) (rs : List (Option (Row × List Nat))) : List (Option Row) :=
  (chunks f.served 1024 rs).map fun g =>
    if g.all Option.isNone then none
    else some (BitVec.ofNat 4096 (packNat 8 (g.flatMap fun r => match r with
      | some p => p.2
      | none => List.replicate (f.perRow / 32) 0)))

/-- A drain (R93, R113, R140). -/
def State.runDrain (s : State) (t : Task) (w : CmdWord) : Ex State := do
  let e := cmdEng t w
  match Fmt.ofCode (cwFmt w) with
  | none => badCommand
  | some f =>
    let near := fun (n : Nat) => RowRef.near t.core n
    let ents := (List.range (drNrows w)).map fun i => drBase w + i
    let get := fun (k : Nat) => (SMap.get (fun _ => none) (s.eng e).acc k).map lineNums
    let ls := ents.map get
    let (nrows, s) ← s.readRows t false (tapRows t w)
    let nf := (Fmt.ofCode (cwFmt2 w)).getD .fp32
    let tmode := drTmode w
    let (tap, tf) := if tmode = 0 then ((s.eng e).tap, Flags.none) else
      (List.range ents.length).foldl (fun (a : SMap (Option F32) × Flags) i =>
        let (m, g) := tapEntry tmode (bitAt w 96) a.1 (drBase w + i) (ls.getD i none)
          (if tmode = 3 then lineOf nf nrows [] i else [])
        (m, a.2.or g)) ((s.eng e).tap, Flags.none)
    let s := s.addFlags t.id tf
    let (packed, s) := s.packDrain t f (cwRound w) (bitAt w 91) (chunks f.lines 1024 ls)
    let s ← if cwSpf w then do
        let rows := packed.map fun r => match r with
          | some p => p.1
          | none => 0
        let tiles := (chunks (blockRows f) 64 rows).map fun g => encodeStream f (cwFmt w) g 128
        let ws := (List.range tiles.length).flatMap fun i =>
          let g := (tiles.getD i ([], false)).1
          (List.range g.length).map fun j => (near (bits w 32 13 + i * stride f + j), g.getD j 0)
        s.quota t (ws.map Prod.fst)
        require (inRange (ws.map Prod.fst))
        outputs t (ws.map fun p => rowNo p.1)
        let s ← s.writeRows t (cwOver w) ws
        (.ok (s.countCore C.spEncFallback t.core (tiles.filter Prod.snd).length))
      else
        let (es, ss) := drainRows w f
        let ws := (es.zip packed).filterMap fun p => p.2.map fun r => (near p.1, r.1)
        let sw := (ss.zip (scaleRows f packed)).filterMap fun p => p.2.map fun r => (near p.1, r)
        outputs t ((ws ++ sw).map fun p => rowNo p.1)
        s.writeRows t (cwOver w) (ws ++ sw)
    let x := s.eng e
    let acc := if bitAt w 92 then ents.foldl (fun (m : SMap (Option Row)) k => SMap.erase m k) x.acc else x.acc
    return s.setEng e { x with acc := acc, tap := tap }

/-! Issue, and the commands of an engine in order. -/

def State.runEng (s : State) (t : Task) (q : Cmd) : Ex State :=
  match cwOp q.word with
  | 0x10 => s.stage t q.word
  | 0x11 => s.runStream t q.word q.ups
  | _ => s.runDrain t q.word

/-- A command waits for a shift-in (R83): a load for the staging buffer, a stream for the block that its task has staged. A drain takes
nothing from the block. -/
def Eng.holds (x : Eng) (q : Cmd) : Bool :=
  match cwOp q.word with
  | 0x10 => x.staging.isSome
  | 0x11 => (match x.staging with
    | some b => b.task == some q.task
    | none => false)
  | _ => false

/-- The first command of an engine waits on a row (R165). -/
def State.engWait (s : State) (e : Nat) (q : Cmd) (rest : List Cmd) (r : RowRef) (a : Access) : State :=
  ((s.setEng e { s.eng e with queue := { q with wait := some (.row r a) } :: rest }).waitOn r (.eng e)).pause q.task

/-- Run the commands of an engine in issue order, as far as they go; one that faults is gone, those behind it complete (R81, R183). -/
def State.runQueue (s : State) (e : Nat) : Nat → State
  | 0 => s
  | k + 1 =>
    let x := s.eng e
    match x.queue with
    | [] => s
    | q :: rest =>
      if x.holds q then s else
      let out := s.setEng e { x with queue := rest }
      match s.task? q.task with
      | none => State.runQueue out e k
      | some t =>
        match out.under (e / 2) q fun s => s.runEng t q with
        | .ok s' => State.runQueue (s'.unblock q.task) e k
        | .error (.row r a) => s.engWait e q rest r a
        | .error (.poison r) => State.runQueue ((out.poisonRead r).failCmd q 4 (rowAddr r)) e k
        | .error (.fault cause addr) => State.runQueue (out.failCmd q cause addr) e k
        | .error _ => s

def State.runEngine (s : State) (e : Nat) : State := (s.runQueue e 4096).syncUnits (e / 2)

/-- A checked command of a task acquires its engine and takes its place behind the engine's earlier commands. -/
def State.engIssue (s : State) (t : Task) (q : Cmd) : Ex State := do
  let e := cmdEng t q.word
  let s ← s.acquire t e
  let x := s.eng e
  return (s.setEng e { x with queue := x.queue ++ [q], loaded := x.loaded || cwOp q.word == 0x10 }).runEngine e

/-- An engine's command as a task issues it. Its word is checked before its engine is looked at: a malformed command to an engine that another task
owns faults at once (DESIGN CHOICE, log 42). -/
def execEng (op core : Nat) (ups : List Upset) (s : State) (checks : State → Task → CmdWord → Ex State) : Res :=
  issueRun op core ups s fun t q s => .whole s (do
    let s ← checks s t q.word
    s.engIssue t q)

/-- ME_LOAD (R81, R83, R86, R127, R132). -/
def execMeLoad (core : Nat) (s : State) : Res := execEng 0x10 core [] s fun s t w => (s.loadChecks t w).map fun _ => s

/-- A stream needs a block that its task has loaded since it acquired the engine (R81); another task's engine blocks first. -/
def State.streamReady (s : State) (t : Task) (w : CmdWord) : Ex State := do
  s.streamChecks t w
  let s ← s.acquire t (cmdEng t w)
  require (s.eng (cmdEng t w)).loaded
  return s

/-- ME_STREAM (R79, R81, R88, R127, R135). -/
def execMeStream (core : Nat) (upsets : List Upset) (s : State) : Res := execEng 0x11 core upsets s fun s t w => s.streamReady t w

/-- A task takes the encoder (R140). -/
def State.ownEnc (s : State) (t : Task) : Ex State := do
  let k ← ownUnit (s.core t.core).enc t.id .enc
  return s.setCore t.core { s.core t.core with enc := k }

/-- A drain into tiles needs the encoder beside the engine, both or neither. -/
def State.drainReady (s : State) (t : Task) (w : CmdWord) : Ex State := do
  s.drainChecks t w
  let s ← s.acquire t (cmdEng t w)
  if cwSpf w then s.ownEnc t else return s

/-- ME_DRAIN (R81, R93, R113, R127). -/
def execMeDrain (core : Nat) (s : State) : Res := execEng 0x12 core [] s fun s t w => s.drainReady t w

/-- The staged block shifts in, one shift-in of 128 cycles for each sub-block (R83, R84, R133); it is in force only for the owner that loaded it
(R80). -/
def State.shiftIn (s : State) (e : Nat) : State :=
  let x := s.eng e
  match x.staging with
  | none => s
  | some b =>
    let mine := b.task.isSome && x.owner == b.task
    let s := s.setEng e { x with staging := none, cells := if mine then some b else x.cells }
    let s := s.countEng C.meLoadStall e (128 * (blockArrs b).1.length)
    s.runEngine e

/-- STATIONARY_SHIFT_IN (R83, R84). -/
def execStationaryShiftIn (core eng : Nat) (s : State) : Res :=
  unitOk (coreOk core && decide (eng < 2)) <|
  need (s.eng (2 * core + eng)).staging.isSome s <| .next (s.shiftIn (2 * core + eng))

/-- What its owner has staged shifts in for nobody (R80). -/
def State.freeEng (s : State) (e : Nat) : State :=
  match (s.eng e).owner with
  | some id => s.setEng e ((s.eng e).released id)
  | none => s

def State.releaseUnit (s : State) (c : Nat) (u : CoreUnit) : State :=
  let s := match u with
    | .me0 => s.freeEng (2 * c)
    | .me1 => s.freeEng (2 * c + 1)
    | .mvp => s.setCore c { s.core c with mvp := none }
    | .enc => s.setCore c { s.core c with enc := none }
  (s.syncUnits c).wakeUnits c

/-- ENGINE_RELEASE (R80, R124). -/
def execEngineRelease (core : Nat) (u : CoreUnit) (s : State) : Res :=
  unitOk (coreOk core) <| need (s.mayRelease core u) s <| .next (s.releaseUnit core u)

end Sys2Proof.Machine
end

