-- ==== Sys2Proof/Machine/Trans.lean ====
section
/-! DEFINITION. The functions of Table 5-3: their values by exact arithmetic to some 200 bits, and the results that the stated accuracy
allows (R109, R110). -/

namespace Sys2Proof.Machine

/-- Numbers below are fixed point: an integer over 2 ^ trP. -/
def trP : Nat := 320
def trOne : Int := (2 ^ trP : Nat)

def fixMul (a b : Int) : Int := a * b / trOne

/-- A number as fixed point. -/
def fixOf (x : Num) : Int :=
  match x with
  | .fin n m e => let v : Int := if 0 ≤ e + trP then (m * 2 ^ (e + trP).toNat : Nat) else (m / 2 ^ (-(e + trP)).toNat : Nat)
                  if n then -v else v
  | _ => 0

def numOfFix (v : Int) : Num := .fin (decide (v < 0)) v.natAbs (-(trP : Int))

/-- ln 2, the sum of 1 / (k * 2 ^ k). -/
def ln2Fix : Int := (List.range trP).foldl (fun (a : Int) k => a + trOne / (((k + 1) * 2 ^ (k + 1) : Nat) : Int)) 0

/-- The sum of a series whose term k + 1 is term k by `f k`. -/
def series (f : Nat → Int → Int) : Nat → Nat → Int → Int
  | 0, _, _ => 0
  | n + 1, k, t => t + series f n (k + 1) (f k t)

/-- e ^ r for 0 ≤ r < 1. -/
def expFix (r : Int) : Int := series (fun k t => fixMul t r / ((k + 1 : Nat) : Int)) 80 0 trOne

/-- 2 ^ y as a fixed-point mantissa in [1, 2) and an exponent. -/
def exp2Parts (y : Int) : Int × Int :=
  let n := y / trOne
  (expFix (fixMul (y - n * trOne) ln2Fix), n)

/-- e ^ x the same way. -/
def expParts (x : Int) : Int × Int :=
  let n := x / ln2Fix
  (expFix (x - n * ln2Fix), n)

def numOfParts (p : Int × Int) : Num := .fin false p.1.natAbs (p.2 - trP)

/-- A quotient of naturals to more than trP bits. -/
def quotNum (neg : Bool) (a b : Nat) (e : Int) : Num :=
  let k := trP + Nat.log2 b
  .fin neg (a * 2 ^ k / b) (e - k)

/-- The inverse tangent of 1 / n. -/
def atanInv (n : Nat) : Int :=
  (List.range trP).foldl (fun (a : Int) k =>
    let t : Int := trOne / (((2 * k + 1) * n ^ (2 * k + 1) : Nat) : Int)
    if k % 2 = 0 then a + t else a - t) 0

def halfPi : Int := 8 * atanInv 5 - 2 * atanInv 239

/-- The inverse hyperbolic tangent of z for |z| ≤ 1/3. -/
def atanhFix (z : Int) : Int :=
  let q := fixMul z z
  ((List.range 110).foldl (fun (a : Int × Int) k => (a.1 + a.2 / ((2 * k + 1 : Nat) : Int), fixMul a.2 q)) (0, z)).1

/-- log2 of m * 2 ^ e. -/
def log2Fix (m : Nat) (e : Int) : Int :=
  let n := Nat.log2 m
  let x : Int := if n ≤ trP then (m * 2 ^ (trP - n) : Nat) else (m / 2 ^ (n - trP) : Nat)
  (e + n) * trOne + 2 * atanhFix ((x - trOne) * trOne / (x + trOne)) * trOne / ln2Fix

/-- sin and cos of r for |r| ≤ 1. -/
def sinFix (r : Int) : Int := series (fun k t => -(fixMul (fixMul t r) r / (((2 * k + 2) * (2 * k + 3) : Nat) : Int))) 50 0 r
def cosFix (r : Int) : Int := series (fun k t => -(fixMul (fixMul t r) r / (((2 * k + 1) * (2 * k + 2) : Nat) : Int))) 50 0 trOne

/-- sin (q = 0) or cos (q = 1) of x, by quadrants. -/
def trig (q : Int) (x : Int) : Int :=
  let k := (2 * x + halfPi) / (2 * halfPi)
  let r := x - k * halfPi
  match (k + q) % 4 with
  | 0 => sinFix r
  | 1 => cosFix r
  | 2 => -sinFix r
  | _ => -cosFix r

/-- e ^ -|x| as a quotient of naturals. -/
def decay (x : Num) : Nat × Nat :=
  let p := expParts (-(fixOf x.abs))
  (p.1.natAbs, 2 ^ ((trP : Int) - p.2).toNat)

/-- The value of function FN at a finite argument of its domain. -/
def txValue (fn : Nat) (x : Num) : Num :=
  match fn, x with
  | 0, _ => numOfParts (exp2Parts (fixOf x))
  | 1, _ => numOfParts (expParts (fixOf x))
  | 2, .fin _ m e => numOfFix (log2Fix m e)
  | 3, .fin n m e => quotNum n 1 m (-e)
  | 4, .fin _ m e =>
    let (m, e) := if e % 2 = 0 then (m, e) else (2 * m, e - 1)
    .fin false (Nat.sqrt (2 ^ (2 * trP) * 2 ^ (2 * Nat.log2 m) / m)) (-(e / 2) - trP - Nat.log2 m)
  | 6, _ =>
    let (a, b) := decay (Num.mul (Num.ofInt 2) x)
    quotNum x.sign (b - a) (b + a) 0
  | 7, _ =>
    let (a, b) := decay x
    if x.sign then quotNum false a (b + a) 0 else quotNum false b (b + a) 0
  | 8, _ => numOfFix (trig 0 (fixOf x))
  | 9, _ => numOfFix (trig 1 (fixOf x))
  | _, _ => .nan

/-- The functions marked FAST: exp2, exp, tanh, sigmoid. -/
def txFast (fn : Nat) : Bool := [0, 1, 6, 7].contains fn

/-- The bound of Table 5-3, in units in the last place. -/
def txUlps (fn : Nat) : Nat := if [1, 6, 7, 8, 9].contains fn then 2 else 1

/-- One unit in the last place of a finite FP32 value. -/
def ulp32 (x : Num) : Num :=
  match x with
  | .fin _ m e => .pow2 (if m = 0 then -149 else max (expOf m e - 23) (-149))
  | _ => .zero

/-- The distance of two finite numbers. -/
def Num.dist (x y : Num) : Num := (Num.add x y.neg).abs

/-- How far the result may lie from the value: some ulps of the correctly rounded result, or 2^-16 of the value under TX_FAST. -/
def txBound (fn : Nat) (fast : Bool) (v : Num) : Num :=
  if fast then Num.mul v.abs (.pow2 (-16)) else Num.mul (Num.ofInt (txUlps fn)) (ulp32 v.r32)

/-- A free value where it lies within a bound of the exact one, else that one correctly rounded. -/
def pickNear (raw : F32) (v bound : Num) : F32 :=
  let r := Num.of32 raw
  if r.isFin && Num.le (Num.dist r v) bound then raw else (rnd32 v).1

/-- An FP32 value some steps away in the order of values; a non-finite value stays. -/
def stepBy (w : F32) (k : Int) : F32 :=
  if (Num.of32 w).isFin then
    let i : Int := if bitAt w 31 then -(bits w 0 31 : Int) else bits w 0 31
    let j := max (-0x7F7FFFFF) (min 0x7F7FFFFF (i + k))
    if k = 0 then w else if j < 0 then BitVec.ofNat 32 (2 ^ 31 + j.natAbs) else BitVec.ofNat 32 j.natAbs
  else w

/-- The exact value is an FP32 number: a power of two for exp2 and rcp. -/
def txExact (fn : Nat) (x : Num) : Bool :=
  match fn, x with
  | 0, .fin _ m e => decide (0 ≤ e) || m % 2 ^ (-e).toNat == 0
  | 3, .fin _ m _ => m == 2 ^ Nat.log2 m
  | _, _ => false

end Sys2Proof.Machine
end

