-- ==== Sys2Proof/Machine/Vector.lean ====
section
/-! DEFINITION. The vector unit: loads, stores, elementwise operations, transcendentals, reductions, tap loads and the fused
backward kernel (R105 to R117). -/

namespace Sys2Proof.Machine

/-! Registers (R105, R160). -/

def Task.line (t : Task) (i : Nat) : Row := SMap.get (fun _ => 0) t.lines i
def Task.scalar (t : Task) (i : Nat) : F32 := SMap.get (fun _ => 0) t.scalars i

def State.setLine (s : State) (id i : Nat) (r : Row) : State :=
  s.modTask id fun t => { t with lines := SMap.put (fun _ => 0) t.lines i r }

def State.setScalar (s : State) (id i : Nat) (v : F32) : State :=
  s.modTask id fun t => { t with scalars := SMap.put (fun _ => 0) t.scalars i v }

/-- A 5-bit register operand: scalar or line. -/
def isScalar (r : Nat) : Bool := decide (16 ≤ r)

/-- An operand's 128 lanes; a scalar register is broadcast. -/
def Task.operand (t : Task) (r : Nat) : List Num :=
  if isScalar r then List.replicate 128 (Num.of32 (t.scalar (r % 16))) else lineNums (t.line r)

/-- The value a lane or scalar takes with one rounding, and its flags. An overflow of a register result gives infinity whatever CO_ARITH.SAT says:
it is no write of R71 (log 25). -/
def lane (inputs : List Num) (v : Num) : F32 × Flags :=
  let (w, f) := rnd32 v
  (w, f.or ((nvOf inputs v).or (niOf inputs)))

/-! vu.ld (R107). -/

def vuLdUsed (f : Fmt) : List (Nat × Nat) := [(0, 8), (8, 4), (18, 1), (32, 13), (58, 4), (62, 3)] ++ fieldIf f.sidecar (45, 13)

/-- The rows that vu.ld names: the row and, with a sidecar, its scale row. -/
def vuLdRows (t : Task) (w : CmdWord) (f : Fmt) : List RowRef :=
  .near t.core (bits w 32 13) :: (if f.sidecar then [.near t.core (bits w 45 13)] else [])

/-- A word with a reserved FMT: a row that it names outside the quota is recorded first (R161). -/
def State.badFmt {α : Type} (s : State) (t : Task) (rs : List RowRef) : Ex α := do
  s.quota t rs
  badCommand

/-- vu.ld of a task. A LINE past the lines of FMT is refused as an operand beyond its range (log 25). TAKE takes row SRC; the SCALE row, of which the
manual does not speak there, is read by peek (DESIGN CHOICE, log 83). -/
def State.vuLd (s : State) (t : Task) (w : CmdWord) : Ex State := do
  match Fmt.ofCode (cwFmt w) with
  | none => s.badFmt t [.near t.core (bits w 32 13)]
  | some f =>
    let n := bits w 32 13
    s.issueChecks t (vuLdRows t w f) [] (!stray w (vuLdUsed f) && decide (bits w 62 3 < f.lines))
    let (r, s) ← s.readRow t (.near t.core n) (cwAcc w)
    let (ss, s) ← if f.sidecar then s.readRows t false [.near t.core (bits w 45 13)] else (.ok ([], s))
    let vs := (lineAt f r (ss.headD 0) (n % f.served) (bits w 62 3)).map fun v => lane [v] v
    return (s.setLine t.id (bits w 58 4) (ofRow32 (vs.map Prod.fst))).addFlags t.id (Flags.all (vs.map Prod.snd))

/-- VU_LD (R107). -/
def execVuLd (core : Nat) (s : State) : Res := issue 0x20 core s fun t w s => s.vuLd t w

/-! vu.st (R107). -/

def vuStUsed (f : Fmt) : List (Nat × Nat) :=
  [(0, 8), (8, 4), (12, 2), (16, 1), (32, 13), (58, 4)] ++ fieldIf f.sidecar (45, 13) ++ fieldIf f.sidecar (62, 1)

/-- The scales of a row placed in the slot's assembly row. -/
def Asm.place (a : Asm) (f : Fmt) (pos : Nat) (scales : List Nat) : Asm :=
  let per := f.perRow / 32
  { a with scales := setBits a.scales (8 * per * pos) (8 * per) (packNat 8 scales), filled := setBit a.filled pos true }

/-- The form of vu.st (R159): no stray bits, a ROUND in use, line registers that exist: one past L15 is refused as R111 refuses it (log 25). -/
def vuStForm (w : CmdWord) (f : Fmt) : Bool :=
  !stray w (vuStUsed f) && decide (cwRound w < 3) && decide (bits w 58 4 + f.lines ≤ 16)

/-- The slot's assembly row holds a group that a store to row n with its SDST does not belong to (R107). The element rows of MXFP8 and of
MXFP4 form different groups. -/
def Task.asmHeld (t : Task) (f : Fmt) (n sd : Nat) : Bool :=
  match t.asm with
  | some x => x.group != n / f.served || x.sdst != sd || (match Fmt.ofCode x.fmt with
    | some g => g.served != f.served
    | none => true)
  | none => false

/-- vu.st of a task. -/
def State.vuSt (s : State) (t : Task) (w : CmdWord) : Ex State := do
  match Fmt.ofCode (cwFmt w) with
  | none => s.badFmt t [.near t.core (bits w 32 13)]
  | some f =>
    let n := bits w 32 13
    let a := bits w 58 4
    let sd := bits w 45 13
    let near := fun (k : Nat) => RowRef.near t.core k
    let group := n / f.served
    s.quota t (near n :: (if f.sidecar then [near sd] else []))
    require (vuStForm w f && !(f.sidecar && t.asmHeld f n sd))
    outputs t [n]
    let vals := (List.range f.lines).flatMap fun l => lineNums (t.line (a + l))
    let (row, scales, s) := s.packFor t f (cwRound w) vals
    let s := s.addFlags t.id (niOf vals)
    if !f.sidecar then s.writeRow t (near n) row (cwOver w)
    else
      let asm := (t.asm.getD ⟨0, 0, group, sd, cwFmt w⟩).place f (n % f.served) scales
      let whole := decide (popcount asm.filled 32 = f.served) || bitAt w 62
      if whole then
        outputs t [sd]
        let s ← s.writeRows t (cwOver w) [(near n, row), (near sd, asm.scales)]
        return s.modTask t.id fun t => { t with asm := none }
      else
        let s ← s.writeRow t (near n) row (cwOver w)
        return s.modTask t.id fun t => { t with asm := some asm }

/-- VU_ST (R107). -/
def execVuSt (core : Nat) (s : State) : Res := issue 0x21 core s fun t w s => s.vuSt t w

/-! vu.op (R106). -/

def opD (w : CmdWord) : Nat := bits w 36 5
def opA (w : CmdWord) : Nat := bits w 41 5
def opB (w : CmdWord) : Nat := bits w 46 5
def opC (w : CmdWord) : Nat := bits w 51 5

/-- How many source registers a SUBOP names. -/
def subArity (k : Nat) : Nat :=
  if k = 3 ∨ k = 11 then 3 else if k = 6 ∨ k = 7 ∨ 12 ≤ k then 1 else 2

def vuOpUsed (k : Nat) : List (Nat × Nat) :=
  [(0, 8), (32, 4), (36, 5), (41, 5)] ++ fieldIf (decide (2 ≤ subArity k)) (46, 5) ++ fieldIf (decide (3 ≤ subArity k)) (51, 5)
    ++ fieldIf (k == 13) (8, 4) ++ fieldIf (k == 13) (12, 2) ++ fieldIf (decide (14 ≤ k)) (56, 7)

def truth (b : Bool) : Num := if b then .pow2 0 else .zero

/-- One lane of an elementwise operation (Table 5-1), before its rounding. -/
def subOp (k : Nat) (a b c : Num) : Num :=
  match k with
  | 0 => Num.add a b
  | 1 => Num.add a b.neg
  | 2 => Num.mul a b
  | 3 => Num.add (Num.mul a b) c
  | 4 => minNum a b
  | 5 => maxNum a b
  | 6 => a.abs
  | 7 => a.neg
  | 8 => truth (Num.lt a b)
  | 9 => truth (Num.le a b)
  | 10 => truth (Num.eq a b)
  | 11 => if a.isZero then c else b
  | _ => a

/-- Lanes of quant: rounded to a format and widened back (R70, R71, R106). -/
def quantLanes (f : Fmt) (sat : Bool) (rs : List Rnd) (xs : List Num) : List F32 × Flags :=
  let back := fun (l : List (Num × Flags)) => (l.map fun p => (rnd32 p.1).1, Flags.all (l.map Prod.snd))
  match f.elem with
  | none => back ((xs.zip rs).map fun p => let (c, g) := int8Write p.2 p.1; (int8Read c, g))
  | some e =>
    if f.isMx then
      let bs := ((chunks 32 64 xs).zip (chunks 32 64 rs)).map fun p => mxBlock e p.2 p.1
      (bs.flatMap fun b => b.2.1.map fun c => (rnd32 (Num.mul (scaleOf b.1) (e.decode c))).1, Flags.all (bs.map fun b => b.2.2))
    else back ((xs.zip rs).map fun p => let (c, g) := e.write sat p.2 p.1; (e.decode c, g))

/-- A vu.op that writes all lanes of a line, or a scalar as lane 0 of broadcast operands. -/
def State.vuLanes (s : State) (t : Task) (w : CmdWord) (lanes : Nat) : Ex (List F32 × Flags × State) :=
  let k := bits w 32 4
  let a := (t.operand (opA w)).take lanes
  let b := (t.operand (opB w)).take lanes
  let c := (t.operand (opC w)).take lanes
  if k = 13 then
    match Fmt.ofCode (cwFmt w) with
    | none => badCommand
    | some f =>
      let (rs, s) := s.roundings t.core (cwRound w) lanes
      let (vs, g) := quantLanes f (s.sat t.core) rs a
      .ok (vs, g.or (niOf a), s)
  else
    let rs := (List.range lanes).map fun i =>
      let x := a.getD i .zero; let y := b.getD i .zero; let z := c.getD i .zero
      lane ([x, y, z].take (subArity k)) (subOp k x y z)
    .ok (rs.map Prod.fst, Flags.all (rs.map Prod.snd), s)

/-- The form of vu.op (R106, R160): no stray bits, operands of the kind that the SUBOP takes. -/
def vuOpForm (w : CmdWord) : Bool :=
  let k := bits w 32 4
  let srcs := [opA w, opB w, opC w].take (subArity k)
  let form := if k = 14 then isScalar (opD w) && !isScalar (opA w)
    else if k = 15 then !isScalar (opD w) && isScalar (opA w)
    else !isScalar (opD w) || srcs.all isScalar
  !stray w (vuOpUsed k) && form && (k != 13 || (decide (cwRound w < 3) && (Fmt.ofCode (cwFmt w)).isSome))

/-- vu.op of a task. An operation with a scalar D counts in VU_LINES for getlane alone, and one of vu.tx not in VU_TX_LINES: the manual says whether a
scalar is a line nowhere (DESIGN CHOICE, log 83). -/
def State.vuOp (s : State) (t : Task) (w : CmdWord) : Ex State := do
  let k := bits w 32 4
  require (vuOpForm w)
  let d := opD w
  let lanes := bits w 56 7
  let s := if isScalar d && k != 14 then s else s.countCore C.vuLines t.core
  if k = 14 then
    let (v, f) := let x := (t.operand (opA w)).getD lanes .zero; lane [x] x
    return (s.setScalar t.id (d % 16) v).addFlags t.id f
  else if k = 15 then
    let x := Num.of32 (t.scalar (opA w % 16))
    let (v, f) := lane [x] x
    return (s.setLine t.id d (setBits (t.line d) (32 * lanes) 32 v.toNat)).addFlags t.id f
  else
    let (vs, f, s) ← s.vuLanes t w (if isScalar d then 1 else 128)
    let s := if isScalar d then s.setScalar t.id (d % 16) (vs.headD 0) else s.setLine t.id d (ofRow32 vs)
    return s.addFlags t.id f

/-- VU_OP (R106). -/
def execVuOp (core : Nat) (s : State) : Res := issue 0x22 core s fun t w s => s.vuOp t w

/-! vu.tx (R109, R110). -/

/-- The correctly rounded square root of a positive number. -/
def sqrtNum (m : Nat) (e : Int) : Num :=
  let (m, e) := if e % 2 = 0 then (m, e) else (2 * m, e - 1)
  let n := m * 2 ^ 64
  let r := Nat.sqrt n
  .fin false (2 * r + (if r * r = n then 0 else 1)) (e / 2 - 33)

def ofFlag : Flags := .setOf
def nvFlag : Flags := .setNv
def ufFlag : Flags := ⟨false, false, false, true⟩

/-- The stated results of Table 5-3, and those at infinities, which are the limits of the functions; none where only an accuracy is
stated. -/
def txStated (fn : Nat) (w : F32) : Option (F32 × Flags) :=
  let x := Num.of32 w
  let fin := x.isFin
  let infP : F32 := 0x7F800000
  let infN : F32 := 0xFF800000
  let nan : F32 := 0x7FC00000
  let ge := fun (k : F32) => Num.le (Num.of32 k) x
  let neg := x.sign && !x.isZero
  if x.isNan then some (nan, .none) else
  match fn with
  | 0 => if ge 0x43000000 then some (infP, if fin then ofFlag else .none)
         else if Num.lt x (Num.of32 0xC3160000) then some (0, if fin then ufFlag else .none) else none
  | 1 => if ge 0x42B17218 then some (infP, if fin then ofFlag else .none)
         else if Num.le x (Num.of32 0xC2CFF1B5) then some (0, if fin then ufFlag else .none) else none
  | 2 => if x.isZero then some (infN, ofFlag) else if neg then some (nan, nvFlag) else if fin then none else some (infP, .none)
  | 3 => if x.isZero then some (if x.sign then infN else infP, ofFlag) else if fin then none
         else some (if x.sign then 0x80000000 else 0, .none)
  | 4 => if x.isZero && !x.sign then some (infP, ofFlag) else if neg then some (nan, nvFlag) else if fin then none else some (0, .none)
  | 5 => match x with
    | .fin n m e => if m = 0 then some (w, .none) else if n then some (nan, nvFlag) else some (rnd32 (sqrtNum m e))
    | .inf true => some (nan, nvFlag)
    | _ => some (infP, .none)
  | 6 => if Num.lt x.abs (.pow2 (-12)) then some (w, .none) else if fin then none
         else some (if x.sign then 0xBF800000 else 0x3F800000, .none)
  | 7 => if Num.lt x (Num.of32 0xC2D00000) then some (0, if fin then ufFlag else .none) else if fin then none else some (0x3F800000, .none)
  | _ => none

/-- A finite FP32 result below the smallest normal that is inexact and not of an exact zero sets UF (Table 3-5). -/
def tinyFlag (r v : Num) (exact : Bool) : Flags :=
  if r.isFin && Num.lt r.abs (.pow2 (-126)) && !v.isZero && !(exact && Num.eq r v) then ufFlag else .none

/-- vu.tx of one value: the stated result, else one that the accuracy allows (log 10); for sin and cos past 65,536, and for an argument whose
result is not stated, any. -/
def txLane (fn : Nat) (fast : Bool) (w : F32) : F32 × Flags :=
  let x := Num.of32 w
  let fast := fast && txFast fn
  match txStated fn w with
  | some (v, f) => (v, f.or (niOf [x]))
  | none =>
    let raw := Config.tx fn fast w
    if !x.isFin || (decide (8 ≤ fn) && Num.lt (.pow2 16) x.abs) || (fn == 4 && x.isZero) then
      let r := Num.of32 raw
      (raw, (nvOf [x] r).or (tinyFlag r (.pow2 0) false))
    else
      let v := txValue fn x
      let r := pickNear raw v (txBound fn fast v)
      let u := Num.of32 r
      (r, (tinyFlag u v (txExact fn x)).or (if u.isFin then .none else ofFlag))

/-- The form of vu.tx (R109, R160). -/
def vuTxForm (w : CmdWord) : Bool :=
  !stray w [(0, 8), (32, 14)] && decide (bits w 32 4 ≤ 9) && (!isScalar (opD w) || isScalar (opA w))

def State.vuTx (s : State) (t : Task) (w : CmdWord) : Ex State := do
  let fn := bits w 32 4
  let d := opD w; let a := opA w
  require (vuTxForm w)
  let fast := s.flag (.vuCfg t.core) F.vuCfgTxFast
  if isScalar d then
    let (v, f) := txLane fn fast (t.scalar (a % 16))
    return (s.setScalar t.id (d % 16) v).addFlags t.id f
  else
    let xs := if isScalar a then List.replicate 128 (t.scalar (a % 16)) else row32 (t.line a)
    let rs := xs.map (txLane fn fast)
    return ((s.countCore C.vuTxLines t.core).setLine t.id d (ofRow32 (rs.map Prod.fst))).addFlags t.id (Flags.all (rs.map Prod.snd))

/-- VU_TX (R109). -/
def execVuTx (core : Nat) (s : State) : Res := issue 0x23 core s fun t w s => s.vuTx t w

/-! vu.reduce (R111). -/

/-- One line reduced to a scalar. -/
def reduceLine (rop : Nat) (a b : List Num) : Num × Flags :=
  let prods := fun (x y : List Num) =>
    let ps := (x.zip y).map fun p => mul32 p.1 p.2
    let (v, f) := treeSum (ps.map Prod.fst)
    (v, f.or (Flags.all (ps.map Prod.snd)))
  let fold := fun (g : Num → Num → Num) (l : List Num) => (l.tail.foldl g (l.headD .zero), Flags.none)
  let (v, f) := match rop with
    | 0 => treeSum a
    | 1 => prods a a
    | 2 => treeSum (a.map Num.abs)
    | 3 => prods a b
    | 4 => fold maxNum a
    | 5 => fold minNum a
    | _ => fold maxNum (a.map Num.abs)
  (v, f.or (niOf (a ++ if rop = 3 then b else [])))

/-- A prior value and a line's, or two lines'. maxabs takes the greater value: a negative prior D counts as it stands, not by its magnitude, which R111
leaves open (DESIGN CHOICE, log 83). -/
def combineLines (rop : Nat) (x y : Num) : Num × Flags :=
  if rop < 4 then add32 x y else ((if rop = 5 then minNum x y else maxNum x y), .none)

/-- Line results combined in line order, from a prior value under ACC. -/
def reduceAll (rop : Nat) (prior : Option Num) (ls : List (List Num × List Num)) : Num × Flags :=
  let rs := ls.map fun p => reduceLine rop p.1 p.2
  let fl := (Flags.all (rs.map Prod.snd)).or (niOf prior.toList)
  match prior, rs.map Prod.fst with
  | some p, vs => let r := vs.foldl (fun a v => let (x, f) := combineLines rop a.1 v; (x, a.2.or f)) (p, fl); r
  | none, v :: vs => vs.foldl (fun a v => let (x, f) := combineLines rop a.1 v; (x, a.2.or f)) (v, fl)
  | none, [] => (.zero, fl)

def reduceUsed (f : Fmt) (w : CmdWord) : List (Nat × Nat) :=
  let src := bitAt w 63
  [(0, 8), (8, 4), (18, 1), (32, 1), (33, 3), (36, 4), (63, 1), (64, 8)] ++ fieldIf src (50, 13)
    ++ fieldIf (!src) (40, 5) ++ fieldIf (bits w 33 3 == 3) (45, 5) ++ fieldIf (src && f.sidecar) (72, 13)

/-- The form of vu.reduce (R111, R160). -/
def reduceForm (w : CmdWord) (f : Fmt) : Bool :=
  let n := bits w 64 8 + 1
  !stray w (reduceUsed f w) && bits w 33 3 != 7 && (bitAt w 63 || decide (bits w 40 5 + n ≤ 16))
    && (bits w 33 3 != 3 || decide (bits w 45 5 + n ≤ 16))

/-- The element rows and the scale rows that vu.reduce reads. -/
def reduceRows (t : Task) (w : CmdWord) (f : Fmt) : List RowRef × List RowRef :=
  let src := bits w 50 13
  let nrows := (bits w 64 8 + 1 + f.lines - 1) / f.lines
  let g := fun (k : Nat) => k / f.served
  (if bitAt w 63 then nearRowsOf t.core src nrows else [],
   if bitAt w 63 && f.sidecar then nearRowsOf t.core (bits w 72 13) (g (src + nrows - 1) - g src + 1) else [])

/-- The lines that vu.reduce reads from rows, widened, with their flags: a value beyond FP32 becomes infinity and sets OF (R107). -/
def reduceSrc (w : CmdWord) (f : Fmt) (ds ss : List Row) (l : Nat) : List (F32 × Flags) :=
  let src := bits w 50 13
  let g := fun (k : Nat) => k / f.served
  let k := src + l / f.lines
  (lineAt f (ds.getD (l / f.lines) 0) (ss.getD (g k - g src) 0) (k % f.served) (l % f.lines)).map fun v => lane [v] v

/-- vu.reduce of a task. -/
def State.vuReduce (s : State) (t : Task) (w : CmdWord) : Ex State := do
  match Fmt.ofCode (cwFmt w) with
  | none => s.badFmt t (if bitAt w 63 then [.near t.core (bits w 50 13)] else [])
  | some f =>
    let rop := bits w 33 3
    let d := bits w 36 4
    let n := bits w 64 8 + 1
    let (rows, srows) := reduceRows t w f
    s.issueChecks t (rows ++ srows) [] (reduceForm w f)
    let (ds, s) ← s.readRows t false rows
    let (ss, s) ← s.readRows t false srows
    let src := if bitAt w 63 then (List.range n).map (reduceSrc w f ds ss) else []
    let lineA := fun (l : Nat) =>
      if bitAt w 63 then (src.getD l []).map fun p => Num.of32 p.1 else lineNums (t.line (bits w 40 5 + l))
    let lineB := fun (l : Nat) => if rop = 3 then lineNums (t.line (bits w 45 5 + l)) else []
    let prior := if cwAcc w then some (Num.of32 (t.scalar d)) else none
    let (v, fl) := reduceAll rop prior ((List.range n).map fun l => (lineA l, lineB l))
    let s := s.countCore C.vuRedLines t.core n
    return (s.setScalar t.id d (rnd32 v).1).addFlags t.id (fl.or (Flags.all (src.flatMap fun l => l.map Prod.snd)))

/-- VU_REDUCE (R111). -/
def execVuReduce (core : Nat) (s : State) : Res := issue 0x24 core s fun t w s => s.vuReduce t w

/-! vu.tapld (R114). -/

/-- A drain that taps some of the 128 entries from one (R113). -/
def tapsInto (w : CmdWord) (entry : Nat) : Bool :=
  cwOp w == 0x12 && drTmode w != 0 && decide (drBase w < entry + 128 ∧ entry < drBase w + drNrows w)

/-- vu.tapld of a task: it waits for the task's own earlier drains that tap its entries; an invalid entry reads +0 (R114). -/
def State.vuTapld (s : State) (t : Task) (w : CmdWord) : Ex State := do
  let x := s.eng (cmdEng t w)
  let entry := bits w 36 10
  require (!stray w [(0, 8), (17, 1), (32, 14)] && decide (entry % 128 = 0))
  if x.queue.any fun (q : Cmd) => q.task == t.id && tapsInto q.word entry then .error .stall
  else
    let vs := (List.range 128).map fun i =>
      if x.owner = some t.id then (SMap.get (fun _ => none) x.tap (entry + i)).getD 0 else 0
    return s.setLine t.id (bits w 32 4) (ofRow32 vs)

/-- VU_TAPLD (R114). -/
def execVuTapld (core : Nat) (s : State) : Res := issue 0x25 core s fun t w s => s.vuTapld t w

/-! vu.nbwd (R115 to R117). -/

/-- A quotient rounded once; a zero divisor gives infinity with OF, or NaN with NV (R117). -/
def div32 (x y : Num) : Num × Flags :=
  match x, y with
  | .nan, _ => (.nan, .none)
  | _, .nan => (.nan, .none)
  | .inf _, .inf _ => (.nan, nvFlag)
  | .inf a, .fin n _ _ => (.inf (a != n), .none)
  | .fin n _ _, .inf b => (.fin (n != b) 0 0, .none)
  | .fin n1 m1 e1, .fin n2 m2 e2 =>
    if m2 = 0 then (if m1 = 0 then (.nan, nvFlag) else (.inf (n1 != n2), ofFlag))
    else
      let n := m1 * 2 ^ (64 + Nat.log2 m2)
      let q := n / m2
      let (w, f) := rnd32 (.fin (n1 != n2) (2 * q + (if n % m2 = 0 then 0 else 1)) (e1 - e2 - 65 - (Nat.log2 m2 : Int)))
      (Num.of32 w, f)

/-- The bits of vu.nbwd that the table names. A field that MODE leaves without effect (WSRC, LR, LM and SN in MODE 0, LM and LOUT in MODE 1) may hold any
value: R159's list of the fields that must then be 0 does not name vu.nbwd (DESIGN CHOICE, log 83). -/
def nbwdUsed : List (Nat × Nat) := [(0, 8), (8, 4), (12, 2), (16, 1), (20, 4), (32, 69), (101, 4), (105, 4), (109, 4), (113, 4), (117, 4), (121, 4)]

/-- Exact values of an output element of Table 5-5 from the constants and its Y, X and W: the value, and the sum of the magnitudes of its terms.
-/
def nbwdElem (mode : Nat) (ks : List Num) (mu y x w : Num) : Num × Num :=
  let k := fun (i : Nat) => ks.getD i .zero
  match mode with
  | 0 => (Num.mul (Num.mul (k 0) y) (Num.add x (k 1).neg), Num.mul (Num.mul (k 0) y).abs (Num.add x.abs (k 1).abs))
  | 1 => (Num.mul (k 0) (Num.add (Num.mul w y) (Num.mul x (k 1)).neg),
      Num.mul (k 0).abs (Num.add (Num.mul w y).abs (Num.mul x (k 1)).abs))
  | _ => (Num.mul (k 0) (Num.add (Num.add (Num.mul w y) (k 1).neg) (Num.mul (Num.add x mu.neg) (k 2)).neg),
      Num.mul (k 0).abs (Num.add (Num.add (Num.mul w y).abs (k 1).abs) (Num.mul (Num.add x.abs mu.abs) (k 2)).abs))

/-- The magnitudes of the factors of an output element. -/
def nbwdFactors (mode : Nat) (ks : List Num) (mu y x w : Num) : List Num :=
  let k := fun (i : Nat) => (ks.getD i .zero).abs
  match mode with
  | 0 => [k 0, y.abs, Num.add x.abs (k 1)]
  | 1 => [k 0, w.abs, y.abs, x.abs, k 1]
  | _ => [k 0, w.abs, y.abs, k 1, Num.add x.abs mu.abs, k 2]

/-- What the roundings on the way to an output element may come to, in whichever order they are made: products of MODE 0, terms of the others. -/
def nbwdSteps (mode : Nat) (ks : List Num) (mu y x w : Num) : List Num :=
  let k := fun (i : Nat) => ks.getD i .zero
  match mode with
  | 0 =>
    let d := Num.add x (k 1).neg
    [Num.mul (k 0) y, Num.mul (k 0) d, Num.mul y d, d]
  | 1 => [Num.add (Num.mul w y).abs (Num.mul x (k 1)).abs]
  | _ => [Num.add (Num.add (Num.mul w y).abs (k 1).abs) (Num.mul (Num.add x mu.neg) (k 2)).abs]

/-- An element with three further roundings in some order (R115): a free value within what three roundings of its terms come to, those of
results below the normal range included; not a finite one only where a step on the way may pass FP32 (log 10). -/
def nbwdPick (mode : Nat) (ks : List Num) (mu y x w v terms : Num) : F32 :=
  let raw := Config.nbwd mode ((ks ++ [mu, y, x, w]).map fun q => (rnd32 q).1)
  let fs := nbwdFactors mode ks mu y x w
  -- the steps' own roundings before it are within 2 ^ -22 of each
  let wild := fun (a : Num) => Num.lt (.fin false (2 ^ 22 - 1) 106) a.abs
  if !v.isFin then (rnd32 v).1
  else if !(Num.of32 raw).isFin && (nbwdSteps mode ks mu y x w).any wild then raw
  else pickNear raw v (Num.add (Num.mul terms (.fin false 13 (-26))) (Num.mul (fs.foldl Num.add (.pow2 0)) (.pow2 (-148))))

/-- A per-row constant: a quotient rounded once, with the flags of its numerator (R115, R117). -/
def nbwdConst (ins : List Num) (num den : Num) : Num × Flags :=
  let (v, f) := div32 num den
  (v, f.or (nvOf ins num))

/-- The constants of a token row for a MODE from κ, N, c1, r, μ and the reduction of sweep 1. -/
def nbwdConsts (mode : Nat) (kappa n c1 r mu red : Num) : List Num × Flags :=
  match mode with
  | 0 =>
    let (a, f) := nbwdConst [kappa] kappa red
    let (b, g) := nbwdConst [c1] c1 red
    ([a, b], (f.or g).or (niOf [kappa, c1]))
  | 1 =>
    let (a, f) := mul32 kappa r
    let (b, g) := nbwdConst [r, c1] (Num.mul (Num.mul r r) c1) n
    ([a, b], (f.or g).or (niOf [kappa, c1, r, n]))
  | _ =>
    let (a, f) := mul32 kappa r
    let (b, g) := nbwdConst [red] red n
    let (c, h) := nbwdConst [r, c1, mu, red] (Num.mul (Num.mul r r) (Num.add c1 (Num.mul mu red).neg)) n
    ([a, b, c], (f.or (g.or h)).or (niOf [kappa, c1, r, mu, n]))

/-- Output lines of one token row (Table 5-5) with flags; and the reduction that LOUT keeps. -/
def nbwdRow (mode : Nat) (kappa n c1 r mu : Num) (y x w : List (List Num)) : List (List F32) × Num × Flags :=
  let (red, f0) := match mode with
    | 0 => reduceAll 0 none (y.map fun l => (l, []))
    | 2 => reduceAll 3 none (w.zip y)
    | _ => (Num.zero, Flags.none)
  let (ks, f1) := nbwdConsts mode kappa n c1 r mu red
  let lanes := (List.range y.length).map fun l => (List.range 128).map fun k =>
    let a := (y.getD l []).getD k .zero; let b := (x.getD l []).getD k .zero
    let c := if mode = 0 then .zero else (w.getD l []).getD k .zero
    let ins := if mode = 2 then [a, b, c, mu] else if mode = 1 then [a, b, c] else [a, b]
    let (v, terms) := nbwdElem mode ks mu a b c
    let z := nbwdPick mode ks (if mode = 2 then mu else .zero) a b c v terms
    let r := Num.of32 z
    (z, ((nvOf (ks ++ ins) r).or (niOf ins)).or ((tinyFlag r v true).or (if v.isFin && !r.isFin && !r.isNan then ofFlag else .none)))
  (lanes.map fun l => l.map Prod.fst, red, (f0.or f1).or (Flags.all (lanes.map fun l => Flags.all (l.map Prod.snd))))

/-- Pack and collect the output rows of the token rows. -/
def State.nbwdPack (s : State) (t : Task) (f : Fmt) (round base : Nat) : List (List (List F32)) → List (RowRef × Row) × State
  | [] => ([], s)
  | g :: gs =>
    let rows := chunks f.lines 256 g
    let (ws, s) := (List.range rows.length).foldl (fun (a : List (RowRef × Row) × State) i =>
      let (row, _, s) := a.2.packFor t f round ((rows.getD i []).flatMap fun l => l.map Num.of32)
      (a.1 ++ [(RowRef.near t.core (base + i), row)], s)) ([], s)
    let (rest, s) := State.nbwdPack s t f round (base + rows.length) gs
    (ws ++ rest, s)

/-- The form of vu.nbwd (R115). -/
def nbwdForm (w : CmdWord) (o : Fmt) : Bool :=
  !stray w nbwdUsed && decide (cwRound w < 3) && decide (bits w 32 2 < 3) && decide (cwFmt w < 4) && !o.isMx

/-- The rows that vu.nbwd reads, Y then X then W, and those it writes. -/
def nbwdRows (t : Task) (w : CmdWord) (f o : Fmt) : List RowRef × List RowRef × List RowRef × List RowRef :=
  let nrows := bits w 34 7 + 1
  let nl := bits w 41 8 + 1
  let per := (nl + f.lines - 1) / f.lines
  let oper := (nl + o.lines - 1) / o.lines
  (nearRowsOf t.core (bits w 49 13) (nrows * per), nearRowsOf t.core (bits w 62 13) (nrows * per),
   if bits w 32 2 = 0 then [] else nearRowsOf t.core (bits w 75 13) per, nearRowsOf t.core (bits w 88 13) (nrows * oper))

/-- The rows of each token row in the order of the sweeps: those of Y, then those of X and W (R115). -/
def nbwdSweeps (t : Task) (w : CmdWord) (f o : Fmt) : List (List RowRef × List RowRef) :=
  let nrows := bits w 34 7 + 1
  let per := (bits w 41 8 + 1 + f.lines - 1) / f.lines
  let (y, x, wr, _) := nbwdRows t w f o
  (List.range nrows).map fun i => ((y.drop (i * per)).take per, (x.drop (i * per)).take per ++ wr)

/-- The data of rows. -/
def State.datas (s : State) (rs : List RowRef) : List Row := rs.map fun r => (s.row r).data

/-- The token rows of vu.nbwd from its rows as they stand: output lines, reduction, flags. -/
def State.nbwdResults (s : State) (t : Task) (w : CmdWord) (f o : Fmt) : List (List (List F32) × Num × Flags) :=
  let nl := bits w 41 8 + 1
  let per := (nl + f.lines - 1) / f.lines
  let (y, x, wr, _) := nbwdRows t w f o
  let linesOf := fun (rows : List Row) (i : Nat) => (List.range nl).map fun l => (lineOf f (rows.drop (i * per)) [] l).map Num.r32
  let at_ := fun (reg i : Nat) => (lineNums (t.line reg)).getD i .zero
  (List.range (bits w 34 7 + 1)).map fun i => nbwdRow (bits w 32 2) (Num.of32 (t.scalar (bits w 117 4))) (Num.of32 (t.scalar (bits w 121 4)))
    (at_ (bits w 101 4) i) (at_ (bits w 105 4) i) (at_ (bits w 109 4) i) (linesOf (s.datas y) i) (linesOf (s.datas x) i)
    (linesOf (s.datas wr) 0)

/-- vu.nbwd of a task that owns the row buffer. -/
def State.vuNbwd (s : State) (t : Task) (w : CmdWord) : Ex State := do
  match Fmt.ofCode (cwFmt w), Fmt.ofCode (cwFmt2 w) with
  | some f, some o =>
    let mode := bits w 32 2
    let nrows := bits w 34 7 + 1
    let (_, s) ← s.readRows t false ((nbwdSweeps t w f o).flatMap fun p => p.1 ++ p.2)
    let res := s.nbwdResults t w f o
    let s := s.addFlags t.id (Flags.all (res.map fun r => r.2.2))
    let (out, s) := s.nbwdPack t o (cwRound w) (bits w 88 13) (res.map Prod.fst)
    let s ← s.writeRows t (cwOver w) out
    let s := if mode = 1 then s else s.setLine t.id (bits w 113 4) (lineOf32 ((res.map fun r => r.2.1) ++ List.replicate (128 - nrows) .zero))
    let k := s.core t.core
    let s := s.setCore t.core { k with buf := none, bufLines := [] }
    return (s.countCore C.vuNbwdRows t.core nrows).syncUnits t.core
  | _, _ => badCommand

/-- The checks of vu.nbwd at its issue (R115, R161, R162). -/
def State.nbwdChecks (s : State) (t : Task) (w : CmdWord) : Ex Unit :=
  match Fmt.ofCode (cwFmt w), Fmt.ofCode (cwFmt2 w) with
  | some f, some o =>
    let (y, x, wr, dst) := nbwdRows t w f o
    s.issueChecks t (y ++ x ++ wr) dst (nbwdForm w o)
  | _, _ => s.badFmt t ([.near t.core (bits w 49 13), .near t.core (bits w 62 13)] ++ (if bits w 32 2 = 0 then [] else [.near t.core (bits w 75 13)])
      ++ [.near t.core (bits w 88 13)])

/-- A task reads a row now. -/
def State.readable (s : State) (t : Task) (r : RowRef) : Bool := match s.readCheck t r false with
  | .ok _ => true
  | .error _ => false

/-- The lines of Y that the row buffer holds while the sweeps wait: those that sweep 1 of the waiting token row has read. -/
def State.nbwdBuffered (s : State) (t : Task) (w : CmdWord) : List Row :=
  match Fmt.ofCode (cwFmt w), Fmt.ofCode (cwFmt2 w) with
  | some f, some o =>
    match (nbwdSweeps t w f o).find? fun p => !(p.1 ++ p.2).all (s.readable t) with
    | some p =>
      let got := p.1.takeWhile (s.readable t)
      (List.range (min (bits w 41 8 + 1) (got.length * f.lines))).map fun l => lineOf32 (lineOf f (s.datas got) [] l)
    | none => []
  | _, _ => []

/-- A vu.nbwd that finds the row buffer taken waits for it in order (R116). -/
def State.bufQueue (s : State) (t : Task) (w : CmdWord) : State :=
  let k := s.core t.core
  if k.bufWait.any fun q => q.1 == t.id then s else s.setCore t.core { k with bufWait := k.bufWait ++ [(t.id, w)] }

/-- vu.nbwd: it waits for the row buffer, and holds it from its issue to its completion (R116). -/
def State.nbwdRun (s : State) (t : Task) (w : CmdWord) : Run :=
  match s.nbwdChecks t w with
  | .error x => .stop x .init s
  | .ok _ =>
    if s.takenFor t .buf then .stop (.unit .buf) .init (s.bufQueue t w) else
    let s1 := (s.setCore t.core { s.core t.core with buf := some t.id }).syncUnits t.core
    match s1.vuNbwd t w with
    | .ok s' => .done s'
    | .error x => .stop x .init ((s1.setCore t.core { s1.core t.core with bufLines := s1.nbwdBuffered t w }).syncUnits t.core)

/-- Tasks that leave their core (R112, Table 5-6): a vu.nbwd of them that has read lines into the row buffer completes, with the rows that it still
waits for as they stand (DESIGN CHOICE, log 11). Its flags and its count stay; its writes are discarded with the task. -/
def State.finishVu (s : State) (ids : List Nat) : State :=
  ids.foldl (fun (s : State) id => match s.task? id with
    | none => s
    | some t => match t.flight with
      | none => s
      | some q =>
        if cwOp q.word ≠ 0x26 ∨ (s.core t.core).buf ≠ some id ∨ (s.core t.core).bufLines.isEmpty = true then s else
        match Fmt.ofCode (cwFmt q.word), Fmt.ofCode (cwFmt2 q.word) with
        | some f, some o =>
          (s.addFlags id (Flags.all ((s.nbwdResults t q.word f o).map fun r => r.2.2))).countCore C.vuNbwdRows t.core (bits q.word 34 7 + 1)
        | _, _ => s) s

/-- VU_NBWD (R115, R116). -/
def execVuNbwd (core : Nat) (s : State) : Res := issueRun 0x26 core [] s fun t q s => s.nbwdRun t q.word

/-- The vu.nbwd that waited longest takes the free row buffer, and its task may issue. -/
def State.bufGrant (s : State) (c : Nat) : State :=
  let k := s.core c
  match k.bufWait with
  | [] => s
  | q :: rest => ((s.setCore c { k with buf := some q.1, bufWait := rest }).syncUnits c).unblock q.1

/-- ROW_BUFFER_GRANT (R116). -/
def execRowBufferGrant (core : Nat) (s : State) : Res :=
  unitOk (coreOk core) <|
  need ((s.core core).buf.isNone && !(s.core core).bufWait.isEmpty) s <| .next (s.bufGrant core)

end Sys2Proof.Machine
end

