-- ==== Sys2Proof/Machine/CoreMisc.lean ====
section
/-! DEFINITION. cc.count, ga.gather with the cluster cache, entropy health, the patrol of the SRAM stores (chapters 3, 7 and
8). -/

namespace Sys2Proof.Machine

/-! cc.count (R198, R199). -/

/-- The predicates of Table 8-3. -/
def ccHolds (pred : Nat) (e v : Num) : Bool :=
  let nan := e.isNan || v.isNan
  let sgn := fun (x : Num) => if x.isZero then (0 : Int) else if x.sign then -1 else 1
  match pred with
  | 0 => Num.eq e v
  | 1 => !Num.eq e v
  | 2 => Num.lt e v
  | 3 => Num.le v e
  | 4 => Num.lt e.abs v
  | _ => !nan && decide (sgn e = sgn v)

/-- Formats that compare-and-count takes. -/
def Fmt.counted : Fmt → Bool
  | .fp32 => true | .bf16 => true | .e4m3 => true | .e5m2 => true | .mx6e3m2 => true | .mx6e2m3 => true | .int8 => true
  | _ => false

/-- One bit for each element of rows, in order. -/
def ccBits (f : Fmt) (pred : Nat) (v : Num) (rows : List Row) : List Bool :=
  rows.flatMap fun r => (List.range f.perRow).map fun k => ccHolds pred (elemAt f r 0 0 k) v

/-- The rows that cc.count reads. -/
def ccRows (t : Task) (w : CmdWord) : List RowRef := rowsOf t (bitAt w 32) (bits w 33 20) (bits w 53 13 + 1)

/-- The mask rows that cc.count writes, where it writes a mask. -/
def ccMask (t : Task) (w : CmdWord) (f : Fmt) : List RowRef :=
  nearRowsOf t.core (bits w 73 13) (if bitAt w 86 then (f.perRow * (bits w 53 13 + 1) + 4095) / 4096 else 0)

/-- The form of cc.count (R198). -/
def ccForm (w : CmdWord) (f : Fmt) : Bool :=
  !stray w ([(0, 8), (8, 4), (32, 41), (86, 1), (96, 32)] ++ fieldIf (bitAt w 86) (73, 13)) && f.counted && decide (bits w 66 3 < 6)

/-- The bits of a mask row (R199). -/
def maskRow (bs : List Bool) : Row := BitVec.ofNat 4096 (packNat 1 (bs.map b2n))

/-- Write a mask row from the first `n` bits that wait, as the next row of the mask. -/
def State.putMask (s : State) (t : Task) (dst row n : Nat) (bs : List Bool) : Ex (State × List Bool) :=
  (s.writeRow t (.near t.core (dst + row)) (maskRow (bs.take n)) false).map fun s => (s, bs.drop n)

/-- One step of cc.count: a row is read and compared, and a mask row is written as soon as its 4,096 bits are known; after the last row the mask row
that is not complete is written, with zeros beyond the range (R199). -/
def State.ccRow (s : State) (t : Task) (w : CmdWord) (f : Fmt) (p : Progress) : Ex (State × Progress) := do
  let rows := ccRows t w
  if rows.length ≤ p.rows then
    (s.putMask t (bits w 73 13) ((f.perRow * rows.length) / 4096) 4096 p.bits).map fun r => (r.1, { p with rows := p.rows + 1, bits := r.2 })
  else
  let v := Num.of32 (w.extractLsb' 96 32)
  let (d, s) ← s.readRow t (rowAt rows p.rows) false
  let bs := ccBits f (bits w 66 3) v [d]
  let s := s.addFlags t.id (niOf (v :: (List.range f.perRow).map fun k => elemAt f d 0 0 k))
  let s := s.countCore C.ccRows t.core
  let done := (f.perRow * p.rows) / 4096
  let p := { p with rows := p.rows + 1, base := p.base + (bs.filter id).length, bits := if bitAt w 86 then p.bits ++ bs else [] }
  if 4096 ≤ p.bits.length then (s.putMask t (bits w 73 13) done 4096 p.bits).map fun r => (r.1, { p with bits := r.2 })
  else .ok (s, p)

/-- The steps of cc.count: its rows, and one for a last mask row that they do not fill. -/
def ccSteps (t : Task) (w : CmdWord) (f : Fmt) : Nat :=
  let n := (ccRows t w).length
  n + if bitAt w 86 ∧ f.perRow * n % 4096 ≠ 0 then 1 else 0

/-- cc.count of a task (R198, R199). -/
def State.ccCount (s : State) (t : Task) (q : Cmd) : Run :=
  let w := q.word
  match Fmt.ofCode (cwFmt w) with
  | none => .checked s q (s.badFmt t (ccRows t w ++ if bitAt w 86 then [.near t.core (bits w 73 13)] else [])) (.done s)
  | some f =>
    .checked s q (s.issueChecks t (ccRows t w) (ccMask t w f) (ccForm w f)) <|
    .rows (fun s p => s.ccRow t w f p) (fun s p => s.setScalar t.id (bits w 69 4) (rnd32 (Num.ofInt p.base)).1)
      (ccSteps t w f - q.left.rows) q.left s

/-- CC_COUNT (R198, R199). -/
def execCcCount (core : Nat) (s : State) : Res := issueRun 0x70 core [] s fun t q s => s.ccCount t q

/-! The cluster cache (R200). -/

def cacheSet (key : Nat) : Nat := key % 256

/-- What the cache holds beside a line. -/
def State.cacheSkip (s : State) (cl key : Nat) : State :=
  let k := s.cl cl
  let ls := SMap.get (fun _ => []) k.cache (cacheSet key)
  s.setCl cl { k with cache := SMap.put (fun _ => []) k.cache (cacheSet key) (ls.filter fun x => x.1 != key) }

/-- A hit moves the line to the front. A line in which the code finds an uncorrectable error is invalidated and counted, and the access is a miss
(R200); `worn` names such lines. -/
def State.cacheLook (s : State) (cl key : Nat) (worn : List Nat) : Option Row × State :=
  let k := s.cl cl
  let ls := SMap.get (fun _ => []) k.cache (cacheSet key)
  match ls.find? fun l => l.1 == key with
  | none => (none, s)
  | some l =>
    if worn.contains key then (none, (s.cacheSkip cl key).count C.ccacheUe cl)
    else (some l.2, s.setCl cl { k with cache := SMap.put (fun _ => []) k.cache (cacheSet key) (l :: ls.filter fun x => x.1 != key) })

def State.cacheFill (s : State) (cl key : Nat) (r : Row) : State :=
  let k := s.cl cl
  let ls := SMap.get (fun _ => []) k.cache (cacheSet key)
  s.setCl cl { k with cache := SMap.put (fun _ => []) k.cache (cacheSet key) (((key, r) :: ls.filter fun x => x.1 != key).take 16) }

/-- Invalidating drops every line; a fill in flight then allocates none (R201). -/
def State.cacheDrop (s : State) (cl : Nat) : State :=
  let s := s.setCl cl { s.cl cl with cache := [] }
  (List.range 8).foldl (fun s i =>
    let c := 8 * cl + i
    let k := s.core c
    s.setCore c { k with gctx := k.gctx.map fun p => (p.1, p.2.map fun g => { g with alloc := false }) }) s

/-- CC_INVALIDATE (R201). -/
def execCcInvalidate (cl : Nat) (s : State) : Res :=
  unitOk (clOk cl) <| need (!s.clusterHole cl) s <|
  .next ((s.cacheDrop cl).setFld (.clCcCtrl cl) F.clCcCtrlInvBusy 0)

/-! ga.gather (R167 to R169). -/

def gaCount (w : CmdWord) : Nat := bits w 45 12 + 1
def gaDst (w : CmdWord) : Nat := bits w 57 13
def gaTable (w : CmdWord) : Nat := bits w 84 2
def gaSub (w : CmdWord) : Nat := bits w 86 12
def gaSpan (w : CmdWord) : Nat := bits w 98 8 + 1

/-- Where a table row lies, or why the task may not reach it: an address outside the table's space or the quota, a page that is not present or has
no class, a class that refuses the read (R31, R181, R213, R216). -/
inductive TabRow where
  | loft (r : RowRef)
  | lp (l : LpLoc)
  | bad (addr : Nat)
  | page (addr : Nat)
  | refused (addr : Nat) (l : LpLoc)
  deriving DecidableEq, Repr

def State.tableRow (s : State) (t : Task) (w : CmdWord) (k : Nat) : TabRow :=
  let base := (s.rd (.coGaBase t.core (gaTable w))).toNat
  let a := base + 512 * k
  let p := (s.partOfCluster t.cl).getD 12
  if base / 2 ^ 52 = 1 then
    let row := base % 2 ^ 29 / 512 + k
    if base % 2 ^ 52 / 2 ^ 29 = t.cl ∧ row < 1048576 ∧ s.inLoft t.cl t.job row then .loft (.loft t.cl row) else .bad a
  else
    let l := s.locate (.cluster t.cl) p t.job (a / 512)
    if 2 ^ 45 ≤ a then .bad a
    else if pgState l.page ≠ 1 ∨ s.hasClass l = false then .page a
    else if s.classOk p t.job l .read then .lp l else .refused a l

def TabRow.key : TabRow → Nat
  | .loft r => rowKey r
  | .lp l => 2 ^ 60 + l.key
  | _ => 0

/-- The faulting address of a table row that cannot be reached, and what the granary counts and posts (R213, R216). -/
def State.tabFault (s : State) (t : Task) : TabRow → Option (Nat × State)
  | .bad a => some (a, s)
  | .page a => some (a, s.pageFault (a / 512))
  | .refused a l => some (a, s.classRefused l (agentCluster t.cl) 1 (a / 512))
  | _ => none

/-- The index at a position of the list. -/
def State.gaIndex (s : State) (t : Task) (w : CmdWord) (k : Nat) : Nat :=
  bits (s.row (.near t.core (bits w 32 13 + k / 128))).data (32 * (k % 128)) 32

/-- The table row that position q of a gather fetches. -/
def State.gaRowNo (s : State) (t : Task) (w : CmdWord) (q : Nat) : Nat :=
  s.gaIndex t w (q / gaSpan w) * bits (s.rd (.coGaShape t.core (gaTable w))) 32 12 + gaSub w + q % gaSpan w

/-- What one row of a gather comes to: written, a miss that asks for a table row, or a fault. -/
inductive GaStep where
  | row (s : State)
  | miss (s : State) (k : Nat)
  | fault (s : State) (addr : Nat)
  deriving DecidableEq, Repr

/-- One row of a gather (R167, R168). `given` is the row that a fill has just delivered. -/
def State.gatherRow (s : State) (t : Task) (w : CmdWord) (q : Nat) (given : Option Row) (worn : List Nat) : Ex GaStep := do
  let span := gaSpan w
  let (k, sp) := (q / span, q % span)
  let (_, s0) ← s.readRow t (.near t.core (bits w 32 13 + k / 128)) false
  let n := s0.gaIndex t w k
  let shape := s0.rd (.coGaShape t.core (gaTable w))
  let dst := RowRef.near t.core (gaDst w + q)
  let pad := decide (n = 0xFFFFFFFF)
  let wild := !pad && decide (bits shape 0 32 ≤ n ∨ 2 ^ 31 ≤ n)
  if pad || wild then
    let s1 ← s0.writeRow t dst 0 false
    return .row (if wild && sp == 0 then (s1.modTask t.id fun t => { t with gatherBad := true }).countCore C.gaRange t.core else s1)
  else
    let s1 ← if bitAt w 70 && sp == 0 then do
        let trow := bits w 71 13 + n / 4096
        let r := RowRef.near t.core trow
        s0.quota t [r]
        require (decide (trow < 8192))
        outputs t [trow]
        s0.writeRow t r (setBit (s0.row r).data (n % 4096) true) true
      else .ok s0
    let no := s1.gaRowNo t w q
    let tr := s1.tableRow t w no
    match s1.tabFault t tr with
    | some (a, s2) => return .fault s2 a
    | none =>
      match given with
      | some d => (s1.writeRow t dst d false).map fun s2 => GaStep.row (s2.countCore C.gaRows t.core)
      | none =>
        match s1.cacheLook t.cl tr.key worn with
        -- a miss parks the context before the row's writes, which it makes when the fill has landed
        | (none, _) => return .miss (s.cacheLook t.cl tr.key worn).2 no
        | (some d, s2) => (s2.writeRow t dst d false).map fun s3 => GaStep.row ((s3.count C.ccacheHits t.cl).countCore C.gaRows t.core)

def State.setCtx (s : State) (core ctx : Nat) (g : GCtx) : State :=
  let k := s.core core
  s.setCore core { k with gctx := SMap.put (fun _ => none) k.gctx ctx (some g) }

def State.ctx (s : State) (core ctx : Nat) : Option GCtx := SMap.get (fun _ => none) (s.core core).gctx ctx

/-- The gather contexts of a cluster. -/
def State.ctxsOf (s : State) (cl : Nat) : List (Nat × Nat × GCtx) :=
  (List.range 8).flatMap fun i => (List.range 8).filterMap fun x => (s.ctx (8 * cl + i) x).map fun (g : GCtx) => (8 * cl + i, x, g)

/-- Up to 32 fills of a cluster are outstanding (R200): parked contexts beyond them ask for theirs as others land, the lowest core and context first
(log 26). -/
def State.grantFills (s : State) (cl : Nat) : State :=
  let ctxs := s.ctxsOf cl
  let out := (ctxs.filter fun (p : Nat × Nat × GCtx) => p.2.2.fill).length
  ((ctxs.filter fun (p : Nat × Nat × GCtx) => p.2.2.asks.isSome && !p.2.2.fill).take (32 - out)).foldl
    (fun (s : State) (p : Nat × Nat × GCtx) => s.setCtx p.1 p.2.1 { p.2.2 with fill := true, alloc := true }) s

/-- A gather ends: its context is free for the next (R169, R165). -/
def State.endGather (s : State) (core ctx id : Nat) : State :=
  ((((s.setCore core { s.core core with gctx := SMap.erase (s.core core).gctx ctx }).grantFills (core / 8)).unblock id).wakeUnits core)

/-- A context runs, under the settings of its issue, to its end, to a miss, where it parks, or until a row makes it wait or a fault ends it. -/
def State.runGather (s : State) (core ctx : Nat) (worn : List Nat) : Nat → State
  | 0 => s
  | fuel + 1 =>
    match s.ctx core ctx with
    | none => s
    | some g =>
      let q := g.cmd
      match s.task? g.task with
      | none => s.endGather core ctx g.task
      | some t =>
        if gaCount q.word * gaSpan q.word ≤ g.next then s.endGather core ctx t.id
        else match (s.enter core q).gatherRow t q.word g.next g.got worn with
          | .ok (.row s') => State.runGather ((s'.leave s core q).setCtx core ctx { g with next := g.next + 1, got := none }) core ctx worn fuel
          | .ok (.miss s' no) =>
            let s1 := ((s'.leave s core q).count C.ccacheMisses t.cl).countCore C.gaMisses core
            ((s1.setCtx core ctx { g with asks := some no, fill := false, alloc := true }).grantFills t.cl)
          | .ok (.fault s' a) => ((s'.leave s core q).failCmd q 2 a).endGather core ctx t.id
          | .error (.row r a) => ((s.setCtx core ctx { g with cmd := { q with wait := some (.row r a) } }).waitOn r (.gather core ctx)).pause t.id
          | .error (.poison r) => ((s.poisonRead r).failCmd q 4 (rowAddr r)).endGather core ctx t.id
          | .error (.fault c a) => (s.failCmd q c a).endGather core ctx t.id
          | .error _ => s

def gaUsed (w : CmdWord) : List (Nat × Nat) := [(0, 8), (32, 39), (84, 22)] ++ fieldIf (bitAt w 70) (71, 13)

/-- The form of ga.gather (R159, R167). -/
def State.gatherForm (s : State) (t : Task) (w : CmdWord) : Bool :=
  let shape := s.rd (.coGaShape t.core (gaTable w))
  !stray w (gaUsed w) && decide (bits shape 0 32 ≠ 0) && decide (gaSub w + gaSpan w ≤ bits shape 32 12)
    && decide (gaDst w + gaCount w * gaSpan w ≤ 8192)

/-- ga.gather of a task: it takes a context and runs to its first miss. -/
def State.gaGather (s : State) (t : Task) (q : Cmd) (worn : List Nat) : Ex State := do
  let w := q.word
  let n := gaCount w * gaSpan w
  s.issueChecks t (nearRowsOf t.core (bits w 32 13) ((gaCount w + 127) / 128)) (nearRowsOf t.core (gaDst w) n) (s.gatherForm t w)
  match freeCtx (s.core t.core) with
  | none => .error (.unit .gather)
  | some i => return (s.setCtx t.core i ⟨q, 0, none, false, true, none⟩).runGather t.core i worn (n + 1)

/-- GA_GATHER (R167 to R169). -/
def execGaGather (x : CacheUse) (s : State) : Res :=
  issueRun 0x80 x.core [] s fun t q s => .whole s (s.gaGather t q x.worn)

/-- A fill lands: its row is delivered, and a line allocated unless the cache has been invalidated since (R201). -/
def State.fillLands (s : State) (core ctx : Nat) (g : GCtx) (cl key : Nat) (d : Row) (worn : List Nat) : State :=
  let s := (s.setCtx core ctx { g with asks := none, fill := false, alloc := true, got := some d }).grantFills cl
  (if g.alloc then s.cacheFill cl key d else s).runGather core ctx worn (gaCount g.cmd.word * gaSpan g.cmd.word + 1)

/-- The outstanding fill of a context (R169, R200): a loft row by peek, waiting while it is not FULL; a row of LPDDR5X; POISON and uncorrectable
rows fault the task; none where the fill cannot land yet. -/
def State.fillDone (s : State) (core ctx : Nat) (worn : List Nat) : Option State := do
  let g ← s.ctx core ctx
  let no ← g.asks
  let t ← s.task? g.task
  if !g.fill then none else
  let q := g.cmd
  let end_ := fun (s : State) (c a : Nat) => (s.failCmd q c a).endGather core ctx t.id
  match (s.enter core q).tableRow t q.word no with
  | .loft r =>
    match s.readCheck t r false with
    | .error (.poison _) => some (end_ (s.poisonRead r) 4 (rowAddr r))
    | .error _ => none
    | .ok _ => if (s.row r).tag = .full then some (s.fillLands core ctx g t.cl (rowKey r) (s.row r).data worn) else none
  | .lp l =>
    let s := s.lpMeet l
    let x := s.lpRead l
    if s.copyingRow l.key then none
    else if x.poison then some (end_ s 4 0) else some (s.fillLands core ctx g t.cl (2 ^ 60 + l.key) x.data worn)
  | tr => (s.tabFault t tr).map fun p => end_ p.2 2 p.1

/-- CACHE_FILL_COMPLETE (R169, R200, R201). -/
def execCacheFillComplete (core : Nat) (x : CacheFill) (s : State) : Res :=
  unitOk (coreOk core && decide (x.ctx < 8)) <|
  match s.fillDone core x.ctx x.worn with
  | some s' => .next s'
  | none => .next s

/-! Entropy (R69, R74, R228). -/

def rngAgent : RngUnit → Nat
  | .core c => agentCore c
  | .granary g => agentGranary g

/-- RNG_HEALTH_FAIL (R74, R228): fallback, FAIL, a fault event. A granary's fallback is kept beside its generator. A failure under RNG_MODE 1 does
not leave the source in fallback when the mode returns to 0, which R74 and R75 leave open (DESIGN CHOICE, log 83). -/
def State.rngFail (s : State) (u : RngUnit) : State :=
  match u with
  | .core c =>
    let r := Reg.coRngStatus c
    -- with the seeded generator no fallback occurs (R75)
    let s := if s.seeded c then s else s.setFld r F.coRngStatusFallback 1
    let s := (s.setFld r F.coRngStatusFail 1).setFld r F.coRngStatusFailCount (min (s.fld r F.coRngStatusFailCount + 1) 65535)
    let s := s.setCore c { s.core c with rngBeat := 1 }
    s.fault (agentCore c) 0x08 0 0 0
  | .granary g =>
    ({ s with grng := SMap.put (fun _ => (0, false)) s.grng g (1, true) }).fault (agentGranary g) 0x08 1 0 0

def rngOk : RngUnit → Bool
  | .core c => coreOk c
  | .granary g => granaryOk g

/-- RNG_HEALTH_FAIL (R74, R228). -/
def execRngHealthFail (u : RngUnit) (s : State) : Res := unitOk (rngOk u) <| .next (s.rngFail u)

/-- Whether a source is in fallback with a full clean beat behind it: none of its tests failed since the last tick but one. -/
def State.rngMayExit (s : State) (u : RngUnit) : Bool :=
  match u with
  | .core c => s.flag (.coRngStatus c) F.coRngStatusFallback && decide ((s.core c).rngBeat = 0)
  | .granary g => let x := SMap.get (fun _ => (0, false)) s.grng g; x.2 && decide (x.1 = 0)

def State.rngExit (s : State) (u : RngUnit) : State :=
  match u with
  | .core c => s.setFld (.coRngStatus c) F.coRngStatusFallback 0
  | .granary g => { s with grng := SMap.put (fun _ => (0, false)) s.grng g (0, false) }

/-- RNG_FALLBACK_EXIT (R74). -/
def execRngFallbackExit (u : RngUnit) (s : State) : Res :=
  unitOk (rngOk u) <| need (s.rngMayExit u) s <| .next (s.rngExit u)

/-! Patrol (R192). -/

/-- The rows due to the patrol of a store of the cluster, 0 to 7 its near stores and 8 its loft: those of this beat and those still owed. -/
def State.patrolDue (s : State) (cl i : Nat) : Nat :=
  if i < 8 then (if s.coreHole (8 * cl + i) then 0 else 1 + (s.core (8 * cl + i)).owed)
  else 2 ^ s.fld (.clScrub cl) F.clScrubLoftLog2 + (s.cl cl).owed

/-- How many of them find no idle bank cycle (`missed`, by store) and are carried into the next beat. -/
def State.patrolLeft (s : State) (cl : Nat) (missed : List Nat) (i : Nat) : Nat := min (missed.getD i 0) (s.patrolDue cl i)

/-- The rows that the next patrol of a cluster checks, in ascending order with a wrap at the end. -/
def State.patrolRows (s : State) (cl : Nat) (missed : List Nat) : List RowRef :=
  let n := fun (i : Nat) => s.patrolDue cl i - s.patrolLeft cl missed i
  ((List.range 8).flatMap fun i => (List.range (n i)).map fun k => RowRef.near (8 * cl + i) (((s.core (8 * cl + i)).patrol + k) % 8192))
    ++ (List.range (n 8)).map fun k => RowRef.loft cl (((s.cl cl).patrol + k) % 1048576)

/-- PATROL_SCRUB (R192): errors found are treated as a read treats them; the positions move on; a beat that leaves rows is counted. -/
def State.patrolled (s : State) (cl : Nat) (found : List (RowRef × RowErr)) (missed : List Nat) : State :=
  let rows := s.patrolRows cl missed
  let n := fun (i : Nat) => s.patrolDue cl i - s.patrolLeft cl missed i
  let left := s.patrolLeft cl missed
  let s1 := found.foldl (fun (s : State) (p : RowRef × RowErr) => if rows.contains p.1 then s.rowError p.1 p.2 else s) s
  let s2 := (List.range 8).foldl (fun (s : State) i =>
    let c := 8 * cl + i
    s.setCore c { s.core c with patrol := ((s.core c).patrol + n i) % 8192, owed := left i }) s1
  let s3 := s2.setCl cl { s2.cl cl with patrol := ((s2.cl cl).patrol + n 8) % 1048576, owed := left 8 }
  if (List.range 9).any fun i => decide (left i ≠ 0) then s3.count C.scrubDeferred cl else s3

/-- PATROL_SCRUB (R192). -/
def execPatrolScrub (cl : Nat) (x : PatrolIn) (s : State) : Res :=
  unitOk (clOk cl) <| need (!s.clusterHole cl && s.flag (.clScrub cl) F.clScrubPatrolEn) s <| .next (s.patrolled cl x.errs x.missed)

end Sys2Proof.Machine
end

