-- ==== Sys2Proof/Machine/LinkBase.lean ====
section
/-! DEFINITION. Ports, frames and hatch entries as every remote operation uses them: headers (Tables 15-1 to 15-3), sending
under replay and credits (R328, R329), routes (R334), outstanding entries (R336). Port 12 is gate 0's loopback (R30): a frame
sent on it waits there until its turn to be checked. -/

namespace Sys2Proof.Machine

/-! Hatches (Table 15-6). -/

structure Hatch where
  state : Nat
  permW : Bool
  permR : Bool
  permC : Bool
  any : Bool
  part : Nat
  job : Nat
  gen : Nat
  npeer : Nat
  token : Nat
  base : Nat
  rows : Nat
  peers : List Nat
  deriving DecidableEq, Repr

def hatchOfWords (w0 w1 w2 w3 w4 : Word) : Hatch :=
  { state := bits w0 0 2, permW := bitAt w0 2, permR := bitAt w0 3, permC := bitAt w0 4, any := bitAt w0 5,
    part := bits w0 8 4, job := bits w0 12 4, gen := bits w0 16 8, npeer := bits w0 24 4, token := bits w0 32 32,
    base := bits w1 0 56, rows := bits w2 0 26 + 1, peers := unpack w3 0 16 4 ++ unpack w4 0 16 4 }

/-- An entry of a gate's replica (R337). -/
def State.hatchAt (s : State) (g n : Nat) : Hatch :=
  hatchOfWords (s.rd (.hatchEntry g n 0)) (s.rd (.hatchEntry g n 1)) (s.rd (.hatchEntry g n 2)) (s.rd (.hatchEntry g n 3))
    (s.rd (.hatchEntry g n 4))

def State.hatch (s : State) (n : Nat) : Hatch := s.hatchAt s.homeGate n

def State.hatchSetAt (s : State) (g n lo len v : Nat) : State := s.setBoth (.hatchEntry g n 0) lo len v

/-- A hardware-kept field of a hatch entry changes in every replica (log 13). -/
def State.hatchSet (s : State) (n lo len v : Nat) : State :=
  (List.range 4).foldl (fun (s : State) g => s.hatchSetAt g n lo len v) s

/-! Headers (Table 15-2). -/

def fType (h : BitVec 96) : Nat := bits h 0 4
def fTag (h : BitVec 96) : Nat := bits h 4 13
def fFlag (h : BitVec 96) : Bool := bitAt h 17
def fPoison (h : BitVec 96) : Bool := bitAt h 18
def fHatch (h : BitVec 96) : Nat := bits h 20 10
def fOffset (h : BitVec 96) : Nat := bits h 30 26
def fGen (h : BitVec 96) : Nat := bits h 56 8
def fToken (h : BitVec 96) : Nat := bits h 64 32
def fCode (h : BitVec 96) : Nat := bits h 20 4
def fCount (h : BitVec 96) : Nat := bits h 24 40

/-- A remote address of space 0x4 (Table 1-9): fabric, hatch and row. -/
def remFabric (a : Nat) : Nat := a / 2 ^ 36 % 2 ^ 16
def remHatch (a : Nat) : Nat := a / 2 ^ 26 % 2 ^ 10
def remOffset (a : Nat) : Nat := a % 2 ^ 26

def requestHdr (type_ tag : Nat) (flag poison : Bool) (hatch offset gen token : Nat) : BitVec 96 :=
  BitVec.ofNat 96 (packBits [(4, type_), (13, tag), (1, b2n flag), (1, b2n poison), (1, 0), (10, hatch), (26, offset), (8, gen),
    (32, token)])

def responseHdr (kind tag : Nat) (poison : Bool) : BitVec 96 :=
  BitVec.ofNat 96 (packBits [(4, kind), (13, tag), (1, 0), (1, b2n poison)])

def nackHdr (tag code : Nat) : BitVec 96 := BitVec.ofNat 96 (packBits [(4, 3), (13, tag), (3, 0), (4, code)])
def countHdr (tag count : Nat) : BitVec 96 := BitVec.ofNat 96 (packBits [(4, 4), (13, tag), (7, 0), (40, count)])
def controlHdr (kind : Nat) (fields : List (Nat × Nat)) : BitVec 96 := BitVec.ofNat 96 (packBits ([(4, 9), (4, kind)] ++ fields))

/-- A BATCH frame of one entry. -/
def batchOf (entry : BitVec 96) : Frame := ⟨BitVec.ofNat 96 (packBits [(4, 8), (6, 1)]), entry.zeroExtend 4096⟩

/-! Ports. -/

def State.portState (s : State) (p : Nat) : Nat := s.fld (.gatePort p) F.gatePortState
def State.portUp (s : State) (p : Nat) : Bool := decide (s.portState p = 4 ∨ s.portState p = 5)
/-- The device's fabric ID, as the host gave it to every gate (R2). -/
def State.ownFabric (s : State) : Nat := s.fld (.gateCfg s.homeGate) F.gateCfgFabricId

/-- The partner's fabric ID; the device's own on loopback (R339). -/
def State.partner (s : State) (p : Nat) : Nat := if p = 12 then s.ownFabric else s.fld (.gatePort p) F.gatePortPartner

/-- The gate die of a port; loopback is gate 0's. -/
def gateOf (p : Nat) : Nat := if p = 12 then 0 else p / 3

/-- The port that a transaction uses (R334, R30). -/
def State.route (s : State) (fabric hatch offset : Nat) : Option Nat :=
  if fabric = s.ownFabric then (if s.shape.deadGate.contains 0 then none else some 12)
  else
    let ps := (List.range 12).filter fun p => s.portUp p && s.partner p == fabric
    ps[(hatch + offset) % max ps.length 1]?

/-! The frame check sequence (R326): the CRC-32 of IEEE 802.3 in its reflected form (log 78). -/

/-- One bit of the division by the generator polynomial. -/
def crcBit (c : Nat) : Nat := if c % 2 = 1 then c / 2 ^^^ 0xEDB88320 else c / 2

def crcByte (c b : Nat) : Nat := crcBit (crcBit (crcBit (crcBit (crcBit (crcBit (crcBit (crcBit (c ^^^ b))))))))

/-- The register after bytes of a number, its lowest first. -/
def crcBytes : Nat → Nat → Nat → Nat
  | 0, _, c => c
  | n + 1, v, c => crcBytes n (v / 256) (crcByte c (v % 256))

/-- Bytes 524 to 527 of a frame, from its bytes 0 to 523. -/
def crc32 (f : Frame) : BitVec 32 :=
  BitVec.ofNat 32 (crcBytes 512 f.payload.toNat (crcBytes 12 f.hdr.toNat 0xFFFFFFFF) ^^^ 0xFFFFFFFF)

/-- A frame goes onto the wire. -/
def State.sendWire (s : State) (p : Nat) (f : Frame) : State := s.emit (.frame p f (crc32 f))

/-- Bytes 0 to 523 of a frame under AES-256-GCM, by its place in a segment; applied again it gives the frame back (R333). -/
def cipher (key : BitVec 256) (seg i : Nat) (f : Frame) : Frame :=
  let k := Config.gcmStream key seg i
  ⟨f.hdr ^^^ k.1, f.payload ^^^ k.2⟩

def State.encrypts (s : State) (p : Nat) : Bool := s.flag (.gatePort p) F.gatePortEncrypt

def State.sendControl (s : State) (p : Nat) (h : BitVec 96) : State :=
  (s.sendWire p ⟨h, 0⟩).setPort p { s.port p with sinceCtl := 0 }

/-- The tag of the outgoing segment follows its last frame (R333). -/
def State.closeSegment (s : State) (p : Nat) : State :=
  let x := s.port p
  if x.txSegment.isEmpty then s else
  let tag := Config.gcmTag x.keyTx x.txSeg (x.txSegment.map fun f => (f.hdr, f.payload))
  let f : Frame := ⟨controlHdr 4 [(24, 0), (32, x.txSeg)], tag.zeroExtend 4096⟩
  let tags := x.segTags ++ [((x.txNext + 65535) % 65536, f)]
  (s.sendWire p f).setPort p { x with sinceCtl := 0, txSeg := x.txSeg + 1, txSegment := [], segTags := tags }

/-- A numbered frame goes out. A control frame follows at most 49 of them: IDLE, or on an encrypting port the tag of their
segment, which closes earlier when nothing waits behind it (R328, R329, R333; log 15). The replay buffer holds what went onto the wire. -/
def State.sendNow (s : State) (p : Nat) (f : Frame) : State :=
  let x := s.port p
  let enc := s.encrypts p
  let w := if enc then cipher x.keyTx x.txSeg x.txSegment.length f else f
  let seg := if enc then x.txSegment ++ [w] else x.txSegment
  let s := (s.sendWire p w).setPort p
    { x with txNext := (x.txNext + 1) % 65536, replay := x.replay ++ [(x.txNext, w)], credits := x.credits - 1, sinceCtl := x.sinceCtl + 1, txSegment := seg }
  let s := s.count C.linkFramesTx p
  if enc then (if 49 ≤ (s.port p).txSegment.length ∨ x.blocked.isEmpty then s.closeSegment p else s)
  else if 49 ≤ x.sinceCtl + 1 then s.sendControl p (controlHdr 6 []) else s

/-- Nothing new goes out while the replay buffer is full, no credit is left, or the port rekeys (R328, R329, R333). -/
def Port.stalled (x : Port) : Bool := x.credits == 0 || decide (1024 ≤ x.replay.length) || x.rekey

/-- A numbered frame is sent in order, at once or when the port can; a port that is not up carries nothing (R331). -/
def State.sendFrame (s : State) (p : Nat) (f : Frame) : State :=
  if p = 12 then { s with loop := s.loop ++ [f] }
  else if !s.portUp p then s
  else
    let x := s.port p
    if x.stalled || !x.blocked.isEmpty then s.setPort p { x with blocked := x.blocked ++ [f] } else s.sendNow p f

/-- Frames that waited for credit or room. -/
def State.drainPort (s : State) (p : Nat) : Nat → State
  | 0 => s
  | k + 1 =>
    let x := s.port p
    match x.blocked with
    | [] => s
    | f :: rest => if x.stalled then s else ((s.setPort p { x with blocked := rest }).sendNow p f).drainPort p k

/-! Outstanding entries (R336). -/

def otInit (_ : Nat) : Option OtEnt := none

def State.syncGate (s : State) (g : Nat) : State :=
  let x := s.gate g
  (s.setFld (.gateOt g) F.gateOtInUse x.ot.length).setFld (.gateOt g) F.gateOtParked x.park.length

/-- Take the lowest free entry of a gate; none when all 8,192 are in use. -/
def State.otAlloc (s : State) (g : Nat) (e : OtEnt) : Option (Nat × State) :=
  let x := s.gate g
  if 8192 ≤ x.ot.length then none
  else
    let used := x.ot.map Prod.fst
    match (List.range 8192).find? fun i => !used.contains i with
    | none => none
    | some i => some (i, (s.setGate g { x with ot := SMap.put otInit x.ot i (some e) }).syncGate g)

def State.otFree (s : State) (g tag : Nat) : State :=
  (s.setGate g { s.gate g with ot := SMap.erase (s.gate g).ot tag }).syncGate g

def State.otGet (s : State) (g tag : Nat) : Option OtEnt := SMap.get otInit (s.gate g).ot tag

/-- Issue a request: an outstanding entry, then its frame; none while no entry is free. -/
def State.request (s : State) (p : Nat) (e : OtEnt) (mk : Nat → Frame) : Option State :=
  match s.otAlloc (gateOf p) e with
  | none => none
  | some (tag, s) => some (s.sendFrame p (mk tag))

/-- A link event (Table 17-8). -/
def State.linkEvent (s : State) (p : Nat) : State :=
  let x := s.port p
  s.post 5 0 0 0 [(8, 1, p), (9, 1, s.portState p), (10, 1, s.fld (.gatePort p) F.gatePortReason), (11, 1, b2n x.quote.isSome)]

/-- A link event for a counter's count. -/
def State.linkCount (s : State) (p : Nat) (c : Ctr) : State :=
  s.post 5 0 0 0 [(8, 1, p), (9, 1, s.portState p), (10, 1, s.fld (.gatePort p) F.gatePortReason),
    (11, 1, b2n (s.port p).quote.isSome), (12, 4, c.cls * 2 ^ 20 + c.num * 256), (16, 8, s.ctr c p)]

end Sys2Proof.Machine
end

