-- ==== Sys2Proof/Machine/Granary.lean ====
section
/-! DEFINITION. The granaries' own operations: accumulate-writes, bring-ups, unseals, patrol, page walks (chapter 9). -/

namespace Sys2Proof.Machine

/-- GRN_STATUS shows an epoch clear while any job has one. -/
def State.syncEpoch (s : State) : State :=
  let any := s.jobs.any fun (x : Nat × Job) => x.2.clearing
  (List.range 24).foldl (fun (s : State) g => s.setFld (.grnStatus g) F.grnStatusEpochClearing (b2n any)) s

/-! Accumulate-writes (R227 to R229). -/

def State.granaryFallback (s : State) (g : Nat) : Bool := (SMap.get (fun _ => ((0 : Word), false)) s.grng g).2

/-- Draws of a granary's entropy source: free values. -/
def State.freeDraws (s : State) : Nat → List Rnd × State
  | 0 => ([], s)
  | n + 1 =>
    let (w, s) := s.freshWord
    let (l, s) := State.freeDraws s n
    (.sr (bits w 48 16) :: l, s)

/-- How a granary's write rounds `n` elements: SR, or RNE; a write in fallback is counted (R228). -/
def State.granaryRoundings (s : State) (g : Nat) (sr : Bool) (n : Nat) : List Rnd × State :=
  if !sr then (List.replicate n .rne, s)
  else if s.granaryFallback g then (List.replicate n .rne, s.count C.grnSrFallback g)
  else s.freeDraws n

/-- BF16 elements of FP32 sums; a sum that overflows is a free value (log 14). -/
def accumElem (r : Rnd) (v : Num) : Nat :=
  let (c, f) := Elem.bf16.write false r v
  if f.of then (Config.accumOverflow (rnd32 v).1).toNat else c

def accumRow (rs : List Rnd) (vs : List Num) : Row := BitVec.ofNat 4096 (packNat 16 ((vs.zip rs).map fun p => accumElem p.2 p.1))

/-- A FINAL write is counted (R229). -/
def State.accumCount (s : State) (g j : Nat) : State :=
  s.setFld (.grnFinal g j) F.grnFinalRows (s.fld (.grnFinal g j) F.grnFinalRows + 1)

/-- A FINAL write's square sum joins the job's partial norm (R229). -/
def State.accumNorm (s : State) (g j : Nat) (row : Row) : State :=
  let sq := (treeSum' ((bf16Nums row).map fun v => (mul32 v v).1))
  let r := Reg.grnNorm g j
  s.setFld r F.grnNormNormsq (rnd32 (Num.add (Num.of32 (s.rd r |>.truncate 32)) sq)).1.toNat
where
  treeSum' (l : List Num) : Num := treeFold 64 l
  pairs : List Num → List Num
    | [] => []
    | [x] => [x]
    | x :: y :: t => (add32 x y).1 :: pairs t
  treeFold : Nat → List Num → Num
    | _, [] => .zero
    | _, [x] => x
    | 0, x :: _ => x
    | k + 1, l => treeFold k (pairs l)

/-- The 256 values of an accumulate-write. -/
def accumVals : AccData → List Num
  | .bf16 r => bf16Nums r
  | .fp32 lo hi => lineNums lo ++ lineNums hi

/-- A valid LAZY record names the tensor as its touch map (R281). -/
def State.isTouch (s : State) (tensor : Nat) : Bool :=
  s.regs.any fun p => match Reg.ofAddr p.1 with
    | some (.layer g n 0) => g == s.homeGran && bitAt p.2 0 && bitAt p.2 5 && bits (s.rd (.layer g n 2)) 45 15 == tensor
    | _ => false

/-- The row that an accumulate-write leaves in a touch map (R281). -/
def touchRow (first : Bool) (old : Row) (d : AccData) : Row :=
  let r := match d with
    | .bf16 r => r
    | .fp32 lo _ => lo
  if first then r else old ||| r

/-- The BF16 row that the first accumulate-write to a granule leaves: BF16 values as they come, a NaN canonical (R63, R227). -/
def canonBf16 (r : Row) : Row := BitVec.ofNat 4096 (packNat 16 ((bf16Nums r).map fun v => (Elem.bf16.write false .rne v).1))

/-- One accumulate-write applied to a located row (R227, R229, R281). -/
def State.accumApply (s : State) (j : Nat) (l : LpLoc) (d : AccData) (final poison : Bool) : State :=
  let g := rowGranary l.key
  let e := s.tt (pgTensor l.page)
  let gran := l.key / 8
  let first := !SMap.get (fun _ => false) s.epoch gran
  let s := s.count C.grnAccRows g
  let s := if first then
      let s := (List.range 8).foldl (fun (s : State) i => if 8 * gran + i = l.key then s else s.lpWrite (8 * gran + i) 0 false) s
      { s with epoch := SMap.put (fun _ => false) s.epoch gran true }
    else s
  -- a later write reads the row first; one whose codeword is uncorrectable becomes the poison pattern
  let bad := !first && (s.lp l.key).poison
  let s := if first then s else s.lpTouch l.key
  let old := s.lp l.key
  -- a FINAL write is counted whatever it leaves; a poisoned row and a touch map have no values to square
  let counted := fun (s : State) => if final then s.accumCount g j else s
  if poison || bad then counted (s.lpWrite l.key 0 true)
  else if s.isTouch (pgTensor l.page) then counted (s.lpWrite l.key (touchRow first old.data d) false)
  else
    let (row, s) := match first, d with
      | true, .bf16 r => (canonBf16 r, s)
      | true, _ =>
        let (rs, s) := s.granaryRoundings g e.sr 256
        (accumRow rs (accumVals d), s)
      | false, _ =>
        let (rs, s) := s.granaryRoundings g e.sr 256
        (accumRow rs (((bf16Nums old.data).zip (accumVals d)).map fun (p : Num × Num) => (add32 p.1 p.2).1), s)
    let s := s.lpWrite l.key row false
    if final then (s.accumNorm g j row).accumCount g j else s

/-- An accumulate-write to the row waits: its job's epoch clear is in progress (R227), or the row is being copied (R214, R418). -/
def State.accumWaits (s : State) (p j : Nat) (l : LpLoc) : Bool := (s.job p j).clearing || s.copyingRow l.key

/-- ACCUM_WRITE (R227) from a cluster of the partition: refused by page state or class, else applied in its turn. -/
def State.accumWrite (s : State) (p j addr : Nat) (d : AccData) (final : Bool) : State :=
  let row := addr / 512
  let l := s.locate (.cluster ((s.clustersOf p).headD 0)) p j row
  if pgState l.page ≠ 1 then s.pageFault row
  else if !s.classOk p j l .accum then s.classRefused l (agentGranary (rowGranary l.key)) 3 row
  else if s.accumWaits p j l then s.standBy (.write p j addr d final)
  else s.accumApply j l d final false

/-- ACCUM_WRITE (R216, R227 to R229). -/
def execAccumWrite (part job addr : Nat) (data : AccData) (final : Bool) (s : State) : Res :=
  unitOk (decide (part < 12 ∧ job < 16)) <|
  need (s.partEn part && decide (addr % 512 = 0 ∧ addr < 2 ^ 45)) s <|
  .next (s.accumWrite part job addr data final)

/-! Bring-ups (R220). -/

/-- GRN_STATUS shows the bring-ups. -/
def State.syncBringups (s : State) : State :=
  let run := (s.bringups.filter Bringup.running).length
  let wait := s.bringups.length - run
  (List.range 24).foldl (fun (s : State) g =>
    (s.setFld (.grnStatus g) F.grnStatusBringups run).setFld (.grnStatus g) F.grnStatusBringupQueued wait) s

/-- Up to 8 run at once; others queue in touch order. -/
def State.startBringups (s : State) : State :=
  { s with bringups := (List.range s.bringups.length).map fun i =>
      let b := s.bringups.getD i ⟨0, 0, false, 0, []⟩
      { b with running := b.running || decide (i < 8) } }

/-- A touch of a tensor with RES 0 starts its bring-up at the chunk that holds the touched row (R220). -/
def State.bringUp (s : State) (i row : Nat) : State :=
  let e := s.ttEff i
  let s := s.ttRes i 1
  let s := s.countJob C.ttBringups e.part e.job
  let start := row / 2 ^ e.chunkLog2 * 2 ^ e.chunkLog2
  ({ s with bringups := s.bringups ++ [(⟨i, start, false, 0, []⟩ : Bringup)] } : State).startBringups.syncBringups

/-- Where row n of a tensor's own LPDDR rows lies. -/
def State.tensorLoc (s : State) (i n : Nat) : LpLoc :=
  s.ownLoc (s.tt (s.ttRoot i)).part ((s.ttEff i).base / 512 + n)

/-- Row n as its granary reads it for the loft. -/
def State.tensorRow (s : State) (i n : Nat) : LpGot := s.lpRead (s.tensorLoc i n)

/-- The bring-up of a tensor changes. -/
def State.modBringup (s : State) (i : Nat) (f : Bringup → Bringup) : State :=
  { s with bringups := s.bringups.map fun (b : Bringup) => if b.tensor = i then f b else b }

/-- The row comes and is held. -/
def State.holdRow (s : State) (i n : Nat) : State :=
  s.modBringup i fun (b : Bringup) => { b with held := if b.held.contains n then b.held else b.held ++ [n] }

def State.holdsRow (s : State) (i n : Nat) : Bool := s.bringups.any fun b => b.tensor == i && b.held.contains n

/-- A row of the copy lands as a DMA fill, carrying the tensor's GEN (R46, R220, R226); where Table 8-2 makes the fill wait, it waits for its
place. A row on a page that is not PRESENT is a page fault, and waits until the page is mapped (R213; DESIGN CHOICE, log 28); a row that is being
copied to a spare waits for its copy (R418). -/
def State.landRow (s : State) (i n : Nat) : State :=
  let r := (s.ttEff i).loftRef n
  let l := s.tensorLoc i n
  if pgState l.page ≠ 1 then (if s.holdsRow i n then s else s.pageFault l.row).holdRow i n
  else if s.copying.contains (lpPlace l.key) then s.holdRow i n
  else if fillOk (s.row r) true then
    let s := s.lpMeet l
    let d := s.lpRead l
    let s := s.modBringup i fun (b : Bringup) => { b with held := b.held.filter fun k => k != n }
    (s.fill r d.data d.poison (some ⟨i, s.ttGen i, (s.ttEff i).base / 512 + n, 0, 0, false, 0, 0⟩)).countJob C.ttBringupRows
      (s.tt i).part (s.tt i).job
  else (s.holdRow i n).waitOn r (.land i n)

def State.dropBringup (s : State) (i : Nat) : State :=
  ({ s with bringups := s.bringups.filter (fun b => b.tensor != i),
            waits := s.waits.filter fun w => match w.2 with
              | .land k _ => k != i
              | _ => true }.startBringups).syncBringups

/-- Row k of a bring-up's order: ascending chunks from the first, wrapping. -/
def Bringup.rowAt (b : Bringup) (rows k : Nat) : Nat := (b.start + k) % max rows 1

/-- Every row has come and none waits for its place: the tensor is RESIDENT (R220). -/
def State.endBringup (s : State) (i : Nat) : State :=
  match s.bringups.find? fun (b : Bringup) => b.tensor == i with
  | some b => if (s.ttEff i).rows ≤ b.come ∧ b.held = [] then (s.ttRes i 2).dropBringup i else s
  | none => s

/-- The next rows of a bring-up come, in its order. -/
def State.comeRows (s : State) (i n : Nat) : State :=
  match s.bringups.find? fun (b : Bringup) => b.tensor == i with
  | none => s
  | some b =>
    let rows := (s.ttEff i).rows
    let m := min n (rows - b.come)
    let s := s.modBringup i fun (b : Bringup) => { b with come := b.come + m }
    ((List.range m).foldl (fun (s : State) k => s.landRow i (b.rowAt rows (b.come + k))) s).endBringup i

/-- A row that waited for its place lands. -/
def State.landWaiter (s : State) (i n : Nat) : State :=
  match s.bringups.find? fun (b : Bringup) => b.tensor == i with
  | some b => if b.held.contains n then (s.landRow i n).endBringup i else s
  | none => s

/-- Every row of a bring-up that is held is tried again: a page is mapped, or a copy to a spare is over. -/
def State.landHeldRows (s : State) : State :=
  s.bringups.foldl (fun (s : State) (b : Bringup) => b.held.foldl (fun (s : State) n => s.landWaiter b.tensor n) s) s

/-- Row n of a copy that is being brought up or resident has landed. -/
def State.landed (s : State) (i n : Nat) : Bool :=
  let e := s.ttEff i
  e.res == 2 || (e.res == 1 && match s.bringups.find? fun (b : Bringup) => b.tensor == i with
    | some b => decide ((n + e.rows - b.start) % max e.rows 1 < b.come) && !b.held.contains n
    | none => false)

/-- BRINGUP_DONE (R220): the next rows of a bring-up land (log 28); with the last the tensor is RESIDENT. -/
def execBringupDone (x : Landing) (s : State) : Res :=
  unitOk (decide (x.tensor < 32768)) <|
  need (s.bringups.any fun b => b.tensor == x.tensor && b.running) s <| .next (s.comeRows x.tensor x.rows)

/-! Seals and unseals (R223, R224). -/

/-- Whether a loft row holds a row of the tensor's copy. -/
def Tt.holdsRow (e : Tt) (cl row : Nat) : Bool :=
  let c := 2 ^ e.chunkLog2
  let k := (row - e.loftBase) / c * max e.clCount 1 + (cl - e.clFirst)
  decide (e.loftBase ≤ row ∧ e.clFirst ≤ cl ∧ cl < e.clFirst + e.clCount) && decide (k * c + (row - e.loftBase) % c < e.rows)

def Tt.holdsKey (e : Tt) (k : Nat) : Bool := decide (2 ^ 32 ≤ k) && e.holdsRow ((k - 2 ^ 32) / 2 ^ 20) ((k - 2 ^ 32) % 2 ^ 20)

/-- The loft copy is dropped (R224): FULL rows become EMPTY, their tags only; a taken or PENDING row becomes EMPTY after the tick has resolved
it, so its mark goes and `copyGone` holds it until then. -/
def State.dropCopy (s : State) (i : Nat) : State :=
  let e := s.ttEff i
  let stays := fun (x : RowSt) => decide (x.tag = Tag.pending) || (decide (x.tag = Tag.full) && x.taker.isSome)
  let late := (s.rows.filter fun (p : Nat × RowSt) => e.holdsKey p.1 && stays p.2).map Prod.fst
  let s := { s with
    rows := SMap.mapVals rowInit (fun k (x : RowSt) =>
      if e.holdsKey k && decide (x.tag = Tag.full) && x.taker.isNone then { x with tag := Tag.empty, note := none } else x) s.rows,
    copyGone := s.copyGone ++ late.filter fun k => !s.copyGone.contains k }
  let s := if e.res = 1 then s.dropBringup i else s
  s.ttRes i (if e.clCount = 0 then 3 else 0)

/-- After a tick has resolved them, the rows of dropped copies are EMPTY (R224). -/
def State.dropLate (s : State) : State :=
  let done := s.copyGone.filter fun k => let x := SMap.get rowInit s.rows k; !decide (x.tag = Tag.pending) && x.taker.isNone
  { s with
    rows := SMap.mapVals rowInit (fun k (x : RowSt) =>
      if done.contains k && decide (x.tag = Tag.full) then { x with tag := Tag.empty, note := none } else x) s.rows,
    copyGone := s.copyGone.filter fun k => !done.contains k }

/-- Firmware invalidates the cluster caches of a partition (R201). -/
def State.dropCaches (s : State) (p : Nat) : State :=
  (s.clustersOf p).foldl (fun (s : State) cl =>
    (List.range 8).foldl (fun (s : State) i =>
      let c := 8 * cl + i
      let k := s.core c
      s.setCore c { k with gctx := k.gctx.map fun q => (q.1, q.2.map fun g => { g with alloc := false }) })
      (s.setCl cl { s.cl cl with cache := [] })) s

/-- A gather table of the tensor's, or the view's, partition names its region: its rows in LPDDR or those of its loft copy (R167, R201). -/
def State.gathered (s : State) (i : Nat) : Bool :=
  let e := s.ttEff i
  (s.coresOf e.part).any fun c => (List.range 4).any fun k =>
    let base := (s.rd (.coGaBase c k)).toNat
    let n := s.fld (.coGaShape c k) F.coGaShapeEntries * s.fld (.coGaShape c k) F.coGaShapeStride
    let meets := fun (a lo len : Nat) => decide (a < lo + len ∧ lo < a + n)
    if base / 2 ^ 52 = 1 then
      let cl := base % 2 ^ 52 / 2 ^ 29
      decide (e.clFirst ≤ cl ∧ cl < e.clFirst + e.clCount) && meets (base % 2 ^ 29 / 512) e.loftBase e.rows
    else meets (base / 512) (e.base / 512) e.rows

/-- Partitions whose gather tables name a tensor's region, their own or through a view. -/
def State.gatherParts (s : State) (i : Nat) : List Nat :=
  dedup ((s.ttListed.filter fun v => (s.tt v).valid && s.ttRoot v == i && s.gathered v).map fun v => (s.tt v).part)

/-- An unseal takes effect (R223, R224), and the cluster caches of the partitions whose gather tables name the region are invalidated (R201). -/
def State.unseal (s : State) (i : Nat) : State :=
  let e := s.tt i
  let ps := s.gatherParts i
  ps.foldl (fun (s : State) p => s.dropCaches p) ((((s.dropCopy i).ttClass i 2).bumpGen i).ttRes i (if e.clCount = 0 then 3 else 0))

/-- A seal takes effect (R223). -/
def State.seal (s : State) (i : Nat) : State :=
  let e := s.tt i
  ((s.ttClass i 0).bumpGen i).ttRes i (if e.clCount = 0 then 3 else 0)

/-- A SEALED tensor's unseal that waited takes effect at the tick (R223). The firmware command that asked completes then. -/
def State.pinsClear (s : State) (i : Nat) : Bool :=
  decide ((s.tt i).pins = 0) && s.seals.any fun w => w.tensor == i && w.undo

/-! LPDDR patrol and walks. -/

/-- What the patrol of a granary does in a beat (R211): the next 2^SCRUB_LOG2 data rows of each channel, ascending with wrap, are read, and errors treated as reads do. A row of zeros that
nothing has written holds none. -/
def State.lpPatrolled (s : State) (g : Nat) : State :=
  let n := 2 ^ s.fld (.grnCfg g) F.grnCfgScrubLog2
  let from_ := SMap.get (fun _ => 0) s.lpPatrol g
  let keys := (List.range n).flatMap fun i => (List.range 64).map fun k =>
    lpKey (8 * g + k / 8) (k % 8) ((from_ + i) % 24379392)
  let s := keys.foldl (fun (s : State) k => s.lpTouch k) s
  { s with lpPatrol := SMap.put (fun _ => 0) s.lpPatrol g ((from_ + n) % 24379392) }

/-- Cells flip. -/
def State.lpUpset (s : State) (h : LpHit) : State := s.setLp h.row ((s.lp h.row).upset h.pos h.flip)

/-- LPDDR_PATROL (R211): the cells of the granary that have flipped (log 8), and the patrol's rows of this beat. -/
def execLpddrPatrol (g : Nat) (hits : List LpHit) (s : State) : Res :=
  unitOk (decide (g < 24)) <|
  need (!s.shape.deadGran.contains g && s.flag (.grnCfg g) F.grnCfgScrubEn
      && hits.all fun h => rowGranary h.row == g && decide (h.pos < 528 ∧ (lpPlace h.row).2.2 < 24379392)) s <|
  .next ((hits.foldl (fun (s : State) h => s.lpUpset h) s).lpPatrolled g)

/-- The translation cache of an interface. -/
def State.tlbOf (s : State) : Via → List (Nat × Nat × Word)
  | .cluster cl => (s.cl cl).tlb
  | .gate g => (s.gate g).tlb

def State.setTlb (s : State) (v : Via) (l : List (Nat × Nat × Word)) : State :=
  match v with
  | .cluster cl => s.setCl cl { s.cl cl with tlb := l }
  | .gate g => s.setGate g { s.gate g with tlb := l }

/-- PAGE_WALK (R212): the walker of granary PAGE mod 24 answers; the requester's translation cache of 512 entries and the walk
cache of 4,096 hold the page. -/
def State.pageWalk (s : State) (v : Via) (p page : Nat) : State :=
  let hit := s.walk.any fun x => x.1 == p && x.2.1 == page
  -- a miss of the walk cache reads the leaf's row
  let s := if hit then s else s.lpTouch (leafPlace p page).1
  let w := s.translate none p page
  let other := fun (x : Nat × Nat × Word) => !(x.1 == p && x.2.1 == page)
  let s := s.setTlb v (((p, page, w) :: (s.tlbOf v).filter other).take 512)
  let here := fun (x : Nat × Nat × Word) => x.2.1 % 24 == page % 24
  { s with walk := (p, page, w) :: (((s.walk.filter here).filter other).take 4095 ++ s.walk.filter fun x => !here x) }

/-- The interface is in service, and may act for the partition. -/
def State.viaUp (s : State) (v : Via) (p : Nat) : Bool :=
  match v with
  | .cluster cl => !s.clusterHole cl && decide (s.partOfCluster cl = some p)
  | .gate g => !s.shape.deadGate.contains g && s.partEn p

/-- PAGE_WALK (R212). -/
def execPageWalk (via : Via) (x : PageAt) (s : State) : Res :=
  unitOk (match via with
    | .cluster cl => decide (cl < 288 ∧ x.part < 12)
    | .gate g => decide (g < 4 ∧ x.part < 12)) <|
  need (s.viaUp via x.part && decide (x.page < 2 ^ 24) && !((s.tlbOf via).any fun e => e.1 == x.part && e.2.1 == x.page)) s <|
  .next (s.pageWalk via x.part x.page)

end Sys2Proof.Machine
end

