-- ==== Sys2Proof/Machine/Dma.lean ====
section
/-! DEFINITION. The cluster DMA (chapter 10): descriptors, rows in flight, stops, run-ahead, completion records. A transfer issues its rows
in visiting order as far as it can; a row in flight reads its source and lands as its rows' tags let it, and what it waits for calls the
channel again. -/

namespace Sys2Proof.Machine

/-! Descriptors (Tables 10-2 and 10-3). -/

abbrev Desc := BitVec 1024

def dOp (d : Desc) : Nat := bits d 0 4
def dElem (d : Desc) : Bool := bitAt d 4
def dSfmt (d : Desc) : Nat := bits d 8 4
def dDfmt (d : Desc) : Nat := bits d 12 4
def dTake (d : Desc) : Bool := bitAt d 16
def dOver (d : Desc) : Bool := bitAt d 17
def dFinal (d : Desc) : Bool := bitAt d 18
def dAhead (d : Desc) : Bool := bitAt d 19
def dFence (d : Desc) : Bool := bitAt d 20
def dQuiet (d : Desc) : Bool := bitAt d 21
def dSkind (d : Desc) : Nat := bits d 22 2
def dDkind (d : Desc) : Nat := bits d 24 2
def dPred (d : Desc) : Nat := bits d 28 3
def dMaskEn (d : Desc) : Bool := bitAt d 31
def dTag (d : Desc) : Nat := bits d 32 16
def dSrc (d : Desc) : Nat := bits d 64 56
def dDst (d : Desc) : Nat := bits d 128 56
def dN (d : Desc) (i : Nat) : Nat := bits d (192 + 24 * i) 24 + 1
def dSstride (d : Desc) (i : Nat) : Nat := bits d (320 + 32 * (i - 1)) 32
def dDstride (d : Desc) (i : Nat) : Nat := bits d (448 + 32 * (i - 1)) 32
def dMask (d : Desc) : Nat := bits d 576 56
def dValue (d : Desc) : F32 := d.extractLsb' 640 32
def dExtent (d : Desc) : Nat := bits d 704 40

/-- The descriptor of a FIRMWARE copy (R235). -/
def fwDesc (src dst rows : Nat) (ow take : Bool) : Desc :=
  BitVec.ofNat 1024 (packBits [(16, 0), (1, b2n take), (1, b2n ow), (46, 0), (64, src), (64, dst), (24, rows - 1)])

/-- Element size in bytes of a holding-register format (R237). -/
def elemSize (code : Nat) : Nat := if code = 0 then 4 else if code = 1 then 2 else 1

def space (a : Nat) : Nat := a / 2 ^ 52

/-- Elements of a destination row in the element unit. -/
def dPerRow (d : Desc) : Nat := 512 / elemSize (dDfmt d)

/-- Rows of a run. -/
def dRun (d : Desc) : Nat := if dElem d then (dN d 0 + dPerRow d - 1) / dPerRow d else dN d 0

/-- Rows that the transfer issues: destination rows; the source rows of a COUNT at home; one request or turn. -/
def dTotal (d : Desc) : Nat :=
  if dOp d = 2 then (if space (dSrc d) = 4 then 1 else dN d 0)
  else if 3 ≤ dOp d then 1
  else dRun d * dN d 1 * dN d 2 * dN d 3 * dN d 4

/-- The coordinates of destination row q's first element. -/
def dCoord (d : Desc) (q : Nat) : List Nat :=
  let c := q / dRun d
  let i0 := q % dRun d * if dElem d then dPerRow d else 1
  [i0, c % dN d 1, c / dN d 1 % dN d 2, c / dN d 1 / dN d 2 % dN d 3, c / dN d 1 / dN d 2 / dN d 3]

def strided (d : Desc) (f : Desc → Nat → Nat) (q : Nat) : Nat :=
  let c := dCoord d q
  c.getD 1 0 * f d 1 + c.getD 2 0 * f d 2 + c.getD 3 0 * f d 3 + c.getD 4 0 * f d 4

/-- The destination row of row q, counted from DST. -/
def dDrow (d : Desc) (q : Nat) : Nat := strided d dDstride q + q % dRun d

/-- No destination row is written twice (R238). -/
def extentsOk (d : Desc) : Bool :=
  ([1, 2, 3, 4].foldl (fun (a : Bool × Nat) i =>
    (a.1 && (decide (dN d i = 1) || decide (a.2 ≤ dDstride d i)), dDstride d i * (dN d i - 1) + a.2)) (true, dRun d)).1

def descDmaUsed : List (Nat × Nat) :=
  [(0, 5), (8, 18), (28, 20), (64, 56), (128, 56), (192, 120), (320, 128), (448, 128), (576, 56), (640, 32), (704, 40)]

def siloAddrBad (kind a : Nat) : Bool :=
  (kind == 1 && (decide (64 ≤ a % 256) || a / 2048 != 0)) || (kind == 2 && a / 256 != 0) || kind == 3

/-- Spaces that DMA may name for a program (R32); an access of another is an address fault (R31), no matter of the descriptor's form. -/
def dmaSpace (x : Nat) : Bool := [0, 1, 2, 4].contains x

/-- The form of a descriptor (R236 to R238, Table 10-3). -/
def descForm (d : Desc) : Bool :=
  let op := dOp d
  let sp := space (dSrc d); let dp := space (dDst d)
  let sil := dSkind d != 0; let dil := dDkind d != 0
  let sram := fun (x : Nat) => x == 1 || x == 2 || !dmaSpace x
  let lp := fun (x : Nat) => x == 0 || x == 4 || !dmaSpace x
  !stray d descDmaUsed && decide (op ≤ 4)
  && (op == 3 || !siloAddrBad (dSkind d) (dSrc d)) && !siloAddrBad (dDkind d) (dDst d)
  && (dil || op == 3 || decide (dDst d % 512 = 0 ∨ dp = 4))
  && (!dElem d || (decide (dSfmt d < 4) && decide (dDfmt d < 4) && !dTake d && !sil
      && decide (sp = 4 ∨ dSrc d % elemSize (dSfmt d) = 0)))
  && (!dAhead d || (op == 0 && dil))
  && (dil || extentsOk d)
  && (match op with
    | 0 => !(!sil && !dil && sp == 4 && dp == 4) && (!dMaskEn d || space (dMask d) == 1 || space (dMask d) == 2)
    | 1 => !sil && !dil && sram sp && lp dp && !dElem d && decide (dSfmt d < 2) && !(dp == 4 && dSfmt d == 0)
    | 2 => !sil && lp sp && !dElem d && decide (dN d 1 = 1 ∧ dN d 2 = 1 ∧ dN d 3 = 1 ∧ dN d 4 = 1)
        && decide (dPred d < 6) && (match Fmt.ofCode (dSfmt d) with
          | some f => f.counted
          | none => false) && (!dMaskEn d || (!dil && sram dp))
    | 3 => !sil && dSrc d / 2 ^ 17 == 0 && bits d 79 1 == 0
    | _ => !sil && !dil && sram sp && (dp == 4 || !dmaSpace dp))

/-! The channel's rights. -/

structure Agent where
  cl : Nat
  ch : Nat
  part : Nat
  job : Nat
  fw : Bool
  deriving DecidableEq, Repr

def State.agentOf (s : State) (cl ch : Nat) : Agent :=
  ⟨cl, ch, (s.partOfCluster cl).getD 12, s.fld (.dmaChcfg cl ch) F.dmaChcfgJob, decide (s.fld (.dmaChcfg cl ch) F.dmaChcfgMode = 3)⟩

/-- A silo serves a channel (R238). -/
def State.siloServes (s : State) (g : Agent) (x : SiloRef) (dst : Bool) : Bool :=
  let y := s.silo x
  y.en && (y.job == g.job) && (if dst then y.prodDma else y.consDma)

/-- The refusal conditions that look at the machine (R236, R238, Table 10-3). -/
def State.descOk (s : State) (g : Agent) (d : Desc) : Bool :=
  descForm d
  && (dSkind d == 0 || dOp d == 3 || s.siloServes g (siloOfAddr g.cl (dSkind d) (dSrc d)) false)
  && (dDkind d == 0 || s.siloServes g (siloOfAddr g.cl (dDkind d) (dDst d)) true)
  && (dOp d != 3 || (let e := s.tt (bits d 64 15); e.valid && e.part == g.part && e.job == g.job && decide (e.cls = 1)))

/-- A row address of spaces 0x1 and 0x2 as a channel may reach it: R26, R31 and the job's quota (R202, R240). -/
def State.sramRow (s : State) (g : Agent) (a off : Nat) : Option RowRef :=
  let r : Option RowRef :=
    if a % 512 ≠ 0 then none
    else if space a = 1 then
      let cl := a % 2 ^ 52 / 2 ^ 29
      let row := a % 2 ^ 29 / 512 + off
      if cl < 288 ∧ row < 1048576 ∧ s.clusterHole cl = false ∧ s.partOfCluster cl = some g.part then some (.loft cl row) else none
    else if space a = 2 then
      let c := a % 2 ^ 52 / 2 ^ 22
      let row := a % 2 ^ 22 / 512 + off
      if c < 2304 ∧ row < 8192 ∧ s.coreHole c = false ∧ s.partOfCore c = some g.part then some (.near c row) else none
    else none
  r.filter fun x => g.fw || s.inQuota g.job x

/-! Rows of a transfer. -/

def Xfer.fresh (id : Nat) (d : Desc) : Xfer :=
  { id := id, desc := d, next := 0, moves := [], rows := 0, sat := 0, lower := false, skip := false, glean := false, poison := false,
    resumed := false, clipped := false, touch := none, due := none, missed := false, count := 0, known := [], knownBad := false, masks := 0, got := [],
    halt := none, status := 0, cause := 0, detail := 0 }

/-- Where a source or destination row lies. -/
inductive Place where
  | row (r : RowRef)
  | lp (l : LpLoc) (row : Nat)
  | window (off : Nat)
  | remote (port addr : Nat)
  | silo (x : SiloRef)
  deriving DecidableEq, Repr

/-- What the checks before a read find (R240). -/
inductive Check where
  | ok (p : Place)
  /-- The row is not issued yet. -/
  | hold
  | halt (h : Halt) (s : State)

/-- The source rows of row q of a transfer: row offsets from SRC's row, the byte of the first element in the first of them, and the elements.
A row of the row unit in space 0x0 may lie across two rows of LPDDR (R237). A remote-hatch address counts rows (R27), so its elements
start at byte 0. -/
def srcRows (d : Desc) (q : Nat) : List Nat × Nat × Nat :=
  let skew := if dSkind d = 0 ∧ space (dSrc d) = 0 then dSrc d % 512 else 0
  let span := fun (b n : Nat) => ((List.range ((b + n - 1) / 512 - b / 512 + 1)).map fun k => b / 512 + k, b % 512)
  if dElem d then
    let i0 := (dCoord d q).getD 0 0
    let n := min (dPerRow d) (dN d 0 - i0)
    let r := span (skew + (i0 + strided d dSstride q) * elemSize (dSfmt d)) (n * elemSize (dSfmt d))
    (r.1, r.2, n)
  else if dOp d = 1 ∧ dSfmt d = 0 then
    let r := 2 * (q % dRun d) + strided d dSstride q
    ([r, r + 1], 0, 0)
  else if dOp d = 2 then
    let r := span (skew + 512 * q) 512
    (r.1, r.2, 0)
  else if dOp d = 4 then ([0], 0, 0)
  else
    let r := span (skew + 512 * (q % dRun d + strided d dSstride q)) 512
    (r.1, r.2, 0)

/-- The row that starts at a byte of its pieces. -/
def joined (ds : List Row) (byte : Nat) : Row :=
  match ds with
  | [d] => if byte = 0 then d else BitVec.ofNat 4096 (d.toNat / 2 ^ (8 * byte))
  | _ => BitVec.ofNat 4096 (packNat 4096 (ds.map BitVec.toNat) / 2 ^ (8 * byte))

/-- The mask row of a glean (R221, R241): bits when it is FULL. -/
def State.gleanMask (s : State) (g : Agent) (d : Desc) : Option Row :=
  if !dMaskEn d then none else
  match s.sramRow g (dMask d) 0 with
  | none => none
  | some r => if (s.row r).tag = .full then some (s.row r).data else none

/-! Checks (R240, R246). -/

/-- A row of partition space as a source (R213, R216, R225, R246). -/
def State.lpAllowed (s : State) (g : Agent) (d : Desc) (row : Nat) : Check :=
  let l := s.locate (.cluster g.cl) g.part g.job row
  let first := (s.locate (.cluster g.cl) g.part g.job (dSrc d % 2 ^ 52 / 512)).tensor
  let ahead := dAhead d
  if 2 ^ 36 ≤ row then .halt (.stop 2 0 (row * 512)) s
  else if (s.tt l.tensor).view && pgState l.page != 0 && !s.pinned.contains l.tensor then
    -- a view that has not adopted its source waits for its partition's step boundary (R225)
    if ahead then .halt .clip s else .hold
  else if pgState l.page ≠ 1 then
    if ahead then .halt .clip s
    else if pgState l.page = 2 then .halt (.page (row / 4096)) (s.pageFault row)
    else if s.goneRow g.part g.job row then .halt (.stop 2 0 (row * 512)) s
    else .halt (.stop 3 0 (row * 512)) (s.pageFault row)
  else if ahead && (pgJob l.page != g.job || l.tensor != first) then .halt .clip s
  else if !(s.classOk g.part (if g.fw then pgJob l.page else g.job) l .read) then
    if ahead then .halt .clip s else .halt (.stop 4 0 (row * 512)) (s.classRefused l (agentCluster g.cl) 1 row)
  else .ok (.lp l row)

/-- A row of space 0x4: its port, by the address that the row has (R27, R31, R246). -/
def State.remoteAt (s : State) (d : Desc) (a off : Nat) (source : Bool) : Check :=
  let b := a % 2 ^ 52 + off
  if space a ≠ 4 ∨ 2 ^ 52 ≤ b then .halt (.stop 2 0 a) s
  else if source && dAhead d && (remFabric b != remFabric a || remHatch b != remHatch a) then .halt .clip s
  else match s.route (remFabric b) (remHatch b) (remOffset b) with
    | none => .halt (if source && dAhead d then .clip else .stop 2 0 (a + off)) s
    | some p => .ok (.remote p b)

/-- A row of the host window, for FIRMWARE channels, which only read the command blocks (R26, R356, Table 16-4). -/
def State.windowAt (s : State) (g : Agent) (a off : Nat) (write : Bool) : Check :=
  let o := a % 2 ^ 52 + 512 * off
  if (g.fw ∧ o + 512 ≤ 2 ^ 20) ∧ ¬(write = true ∧ 0x1000 ≤ o ∧ o < 0x40000) then .ok (.window o) else .halt (.stop 2 0 (a + 512 * off)) s

/-- A source row of a transfer. -/
def State.srcPlace (s : State) (g : Agent) (d : Desc) (off : Nat) : Check :=
  let a := dSrc d
  if dSkind d ≠ 0 then .ok (.silo (siloOfAddr g.cl (dSkind d) a))
  else match space a with
    | 0 => if a % 2 ^ 52 / 2 ^ 45 ≠ 0 then .halt (.stop 2 0 a) s else s.lpAllowed g d (a / 512 + off)
    | 4 => s.remoteAt d a off true
    | 15 => s.windowAt g a off false
    | _ => match s.sramRow g a off with
      | some r => .ok (.row r)
      | none => .halt (.stop 2 0 (a + 512 * off)) s

/-- The destination of row q. -/
def State.dstPlace (s : State) (g : Agent) (d : Desc) (q : Nat) : Check :=
  let a := dDst d
  let off := dDrow d q
  if dDkind d ≠ 0 then .ok (.silo (siloOfAddr g.cl (dDkind d) a))
  else match space a with
    | 0 =>
      let row := a / 512 + off
      if a % 2 ^ 52 / 2 ^ 45 ≠ 0 ∨ 2 ^ 36 ≤ row then .halt (.stop 2 0 (a + 512 * off)) s
      else
        let l := s.locate (.cluster g.cl) g.part g.job row
        let use : LpUse := if dOp d = 1 then .accum else .write
        if pgState l.page = 2 then .halt (.page (row / 4096)) (s.pageFault row)
        else if pgState l.page ≠ 1 then .halt (.stop 3 0 (row * 512)) (s.pageFault row)
        else if !s.classOk g.part (if g.fw then pgJob l.page else g.job) l use then
          .halt (.stop 4 0 (row * 512)) (s.classRefused l (agentCluster g.cl) (if dOp d = 1 then 3 else 1) row)
        else .ok (.lp l row)
    | 4 => s.remoteAt d a off false
    | 15 => s.windowAt g a off true
    | _ => match s.sramRow g a off with
      | some r => .ok (.row r)
      | none => .halt (.stop 2 0 (a + 512 * off)) s

/-- Mask row k of a COUNT. -/
def State.maskPlace (s : State) (g : Agent) (d : Desc) (k : Nat) : Check :=
  match s.sramRow g (dDst d) k with
  | some r => .ok (.row r)
  | none => .halt (.stop 2 0 (dDst d + 512 * k)) s

/-- Elements of a row of a COUNT. -/
def dCounted (d : Desc) : Nat := match Fmt.ofCode (dSfmt d) with
  | some f => f.perRow
  | none => 1

/-- The first of several checks that does not pass. -/
def firstCheck : List Check → Option Check
  | [] => none
  | .ok _ :: t => firstCheck t
  | c :: _ => some c

/-- The checks of row q, in element order: its source rows, its destination, the mask row that it names. -/
def State.rowChecks (s : State) (g : Agent) (d : Desc) (q : Nat) : List Check :=
  let src := (srcRows d q).1.map fun off => s.srcPlace g d off
  let dst := match dOp d with
    | 2 =>
      let n := dCounted d
      let ks := if space (dSrc d) = 4 then List.range ((n * dN d 0 + 4095) / 4096)
        else (List.range ((n * q + n - 1) / 4096 - n * q / 4096 + 1)).map fun k => n * q / 4096 + k
      if dMaskEn d then ks.map fun k => s.maskPlace g d k else []
    | 3 => []
    | 4 => [s.remoteAt d (dDst d) 0 false]
    | _ => [s.dstPlace g d q]
  let mask := if dOp d = 0 ∧ dMaskEn d = true ∧ (s.sramRow g (dMask d) 0).isNone then [Check.halt (.stop 2 0 (dMask d)) s] else []
  if dOp d = 3 then [] else src ++ dst ++ mask

/-! Reading (R220, R221, R240, R241, R245). -/

/-- A transfer touches a sealed tensor: the touch is counted and dated (R220, R221, R241). -/
def State.touchTensor (s : State) (g : Agent) (x : Xfer) (l : LpLoc) : Xfer × State :=
  let d := x.desc
  if x.touch.isNone && !dAhead d && !g.fw && decide (dOp d < 2 ∧ (s.ttEff l.tensor).cls = 0) then
    ({ x with touch := some (l.tensor, s.beatNo.toNat) }, s.countJob C.ttTouches g.part g.job)
  else (x, s)

/-- A row of a loft copy: served when it has landed, is readable and carries the tensor's GEN (R220, R226, R241). One that carries another GEN
is discarded and read again. -/
def State.fromCopy (s : State) (g : Agent) (i n : Nat) (note : Option GenNote) : Piece × State :=
  let ref := (s.ttEff i).loftRef n
  let w : Waiter := .chan g.cl g.ch
  if !s.landed i n then (.todo, s.waitOn ref w)
  else
    let old := match (s.row ref).note with
      | some k => k.tensor == i && k.gen != s.ttGen i
      | none => false
    let s := if old && decide (pgState (s.tensorLoc i n).page = 1) && (s.row ref).taker.isNone && decide ((s.row ref).tag = .full ∨ (s.row ref).tag = .poison) then
        ((s.setRow ref { s.row ref with tag := .empty, note := none }).countJob C.pfStale g.part g.job).landRow i n
      else s
    let y := s.row ref
    if dmaReadOk y false then (.got y.data (decide (y.tag = .poison)) note, s.meetRow ref) else (.todo, s.waitOn ref w)

/-- A row of space 0x0 as it is served. -/
def State.lpPiece (s : State) (g : Agent) (x : Xfer) (row : Nat) : Piece × Xfer × State :=
  let d := x.desc
  let l := s.locate (.cluster g.cl) g.part g.job row
  let e := s.ttEff l.tensor
  let (x, s) := s.touchTensor g x l
  let note : Option GenNote := if dAhead d && decide (e.cls = 0) then some ⟨l.tensor, e.gen, row, g.cl, g.ch, true, 0, 0⟩ else none
  let direct : Unit → Piece × Xfer × State := fun _ =>
    if s.copyingRow l.key then (.todo, x, s)
    else
      let s := s.lpMeet l
      let y := s.lpRead l
      (.got y.data y.poison note, x, s)
  let touched := match x.touch with
    | some t => t.1 == l.tensor
    | none => false
  if (s.tt l.tensor).view && !s.pinned.contains l.tensor then (.todo, x, s)
  else if e.cls ≠ 0 then (if touched then (.todo, x, s) else direct ())
  else if g.fw || decide (e.res = 3 ∨ dOp d = 2) then direct ()
  else if x.skip then (.got 0 false none, x, s)
  else if x.glean then
    match s.gleanMask g d with
    | some m => if bitAt m (Config.gleanRecord d l.index % 4096) then direct () else (.got 0 false none, x, s)
    | none => (.todo, x, s)
  else if dAhead d then
    if e.res = 2 then let r := s.fromCopy g l.tensor l.index note; (r.1, x, r.2) else direct ()
  else if x.lower then
    if (s.ttEff e.fbTensor).res = 2 then let r := s.fromCopy g e.fbTensor l.index none; (r.1, x, r.2) else (.todo, x, s)
  else
    let s := if e.res = 0 then s.bringUp l.tensor l.index else s
    let r := s.fromCopy g l.tensor l.index none
    (r.1, x, r.2)

/-- A row taken from the head of a silo (R197, R238, R247). -/
def State.siloPiece (s : State) (g : Agent) (y : SiloRef) : Piece × State :=
  let z := s.silo y
  let r := siloRow y z z.head
  let w : Waiter := .chan g.cl g.ch
  let x := s.row r
  if s.staleUse r then (.todo, (s.staleDrop r).waitOn r w)
  else if dmaReadOk x true then
    let ran := match x.note with
      | some n => n.ahead
      | none => false
    let s := ((s.meetRow r).dmaTaken r true).setSiloPtrs y { z with head := z.plus z.head 1, headP := z.plus z.headP 1 }
    (.got x.data (decide (x.tag = .poison)) none, if ran then s.countJob C.pfUsed g.part g.job else s)
  else
    let s := if x.tag = .empty ∧ z.head = z.tail ∧ 0 < s.aheadInto g.cl y ∧ s.waits.contains (r, w) = false then
      s.countJob C.pfLate g.part g.job else s
    (.todo, s.waitOn r w)

/-- One source row of row q of a transfer: `i` is its place among them. -/
def State.readPiece (s : State) (g : Agent) (x : Xfer) (q i off : Nat) : Piece × Xfer × State :=
  let d := x.desc
  if dSkind d = 0 ∧ space (dSrc d) = 0 then s.lpPiece g x (dSrc d / 512 + off)
  else match s.srcPlace g d off with
    | .ok (.silo y) => let r := s.siloPiece g y; (r.1, x, r.2)
    | .ok (.row r) =>
      let y := s.row r
      if dmaReadOk y (dTake d) then (.got y.data (decide (y.tag = .poison)) none, x, (s.meetRow r).dmaTaken r (dTake d))
      else (.todo, x, s.waitOn r (.chan g.cl g.ch))
    | .ok (.window o) => (.got (s.winRow o) false none, x, s)
    | .ok (.remote p b) =>
      match s.request p ⟨p, .read, g.cl, g.ch, x.id, q, i, false⟩ fun tag =>
          batchOf (requestHdr 1 tag (dTake d) false (remHatch b) (remOffset b) (Config.remoteGen d).toNat (Config.remoteToken d).toNat) with
      | none => (.todo, x, s.count C.gateOtFull (gateOf p))
      | some s => (.asked, x, s)
    | _ => (.todo, x, s)

/-- The source rows of a row in flight, read as far as they can be, each counted once. -/
def State.readMove (s : State) (g : Agent) (x : Xfer) (m : Move) : Move × Xfer × State :=
  let offs := (srcRows x.desc m.q).1
  let r := (List.range m.src.length).foldl (fun (a : List Piece × Xfer × State) i =>
    match m.src.getD i .todo with
    | .todo =>
      let y := a.2.2.readPiece g a.2.1 m.q i (offs.getD i 0)
      let s := match y.1 with
        | .got _ _ _ => y.2.2.count C.dmaRowsRead g.cl 1 g.ch
        | _ => y.2.2
      (a.1 ++ [y.1], y.2.1, s)
    | p => (a.1 ++ [p], a.2)) ([], x, s)
  ({ m with src := r.1 }, r.2)

def Piece.data : Piece → Row
  | .got d _ _ => d
  | _ => 0

def Piece.bad : Piece → Bool
  | .got _ p _ => p
  | _ => false

def Piece.note : Piece → Option GenNote
  | .got _ _ n => n
  | _ => none

def Piece.ready : Piece → Bool
  | .got _ _ _ => true
  | _ => false

/-- One element through the holding register (R73): its code and whether it saturated, written as the largest finite value in place of a value
beyond it. -/
def convElem (sf df : Elem) (c : Nat) : Nat × Bool :=
  let v := sf.decode c
  let (w, _) := df.write true .rne v
  match v with
  | .nan => (w, false)
  | .inf _ => (w, !df.hasInf)
  | .fin _ _ _ => (w, Num.lt (df.decode df.top) v.abs)

/-- A destination row assembled from source bytes; positions past the run are zero (R237, R238). -/
def assemble (d : Desc) (rows : List Row) (byte n : Nat) : Row × Nat :=
  let sw := 8 * elemSize (dSfmt d); let dw := 8 * elemSize (dDfmt d)
  let all := packNat 4096 (rows.map BitVec.toNat)
  match (Fmt.ofCode (dSfmt d)).bind Fmt.elem, (Fmt.ofCode (dDfmt d)).bind Fmt.elem with
  | some sf, some df =>
    let es := (List.range n).map fun i => convElem sf df (all / 2 ^ (8 * byte + sw * i) % 2 ^ sw)
    (BitVec.ofNat 4096 (packNat dw (es.map Prod.fst)), (es.filter Prod.snd).length)
  | _, _ => (0, 0)

/-! Landing (R46, R238, R240, R335). -/

inductive Landed where
  | done (x : Xfer) (s : State)
  /-- The mask row that the row completes is written; the last one that it begins is still to be. -/
  | part (x : Xfer) (s : State)
  | sent (x : Xfer) (s : State)
  | wait (s : State)
  | halt (h : Halt) (s : State)

/-- A row that has landed is counted. -/
def State.landedRow (s : State) (g : Agent) (x : Xfer) (sat : Nat) (poison : Bool) : Landed :=
  .done { x with rows := x.rows + 1, sat := x.sat + sat, poison := x.poison || poison }
    ((s.count C.dmaRowsWritten g.cl 1 g.ch).count C.dmaConvSat g.cl sat g.ch)

/-- A row that all of its source rows have been read for lands, or its request goes out. -/
def State.landMove (s : State) (g : Agent) (x : Xfer) (m : Move) : Landed :=
  let d := x.desc
  let r := srcRows d m.q
  let ds := m.src.map Piece.data
  let poison := m.src.any Piece.bad
  let (row, sat) := if dElem d then assemble d ds r.2.1 r.2.2 else (joined ds r.2.1, 0)
  let w : Waiter := .chan g.cl g.ch
  let gen := (Config.remoteGen d).toNat; let tok := (Config.remoteToken d).toNat
  match (if dOp d = 4 then s.remoteAt d (dDst d) 0 false else s.dstPlace g d m.q) with
  -- the translation was made when the row issued; a page that has gone to the host since holds the row
  | .halt (.page _) _ => .wait s
  | .halt h s => .halt h s
  | .hold => .wait s
  | .ok (.row q) => if fillOk (s.row q) (dOver d) then (s.fill q row poison none).landedRow g x sat poison else .wait (s.waitOn q w)
  | .ok (.silo y) =>
    let z := s.silo y
    let q := siloRow y z z.tail
    if z.credit = 0 ∨ fillOk (s.row q) (dOver d) = false then .wait (s.waitOn q w)
    else
      let note := (m.src.headD .todo).note.map fun n => { n with desc := d, q := m.q }
      ((s.fill q row poison note).setSiloPtrs y { z with tail := z.plus z.tail 1, tailP := z.plus z.tailP 1 }).landedRow
        g x sat poison
  | .ok (.lp l _) =>
    if s.copyingRow l.key || (dOp d == 1 && s.accumWaits g.part g.job l) then .wait (s.standBy (.row g.cl g.ch x.id m.q))
    else if dOp d = 1 then
      let data : AccData := match ds with
        | [a, b] => .fp32 a b
        | _ => .bf16 row
      (s.accumApply g.job l data (dFinal d) poison).landedRow g x sat poison
    else (s.lpWrite l.key row poison).landedRow g x sat poison
  | .ok (.window o) => (s.winPutRow o row).landedRow g x sat poison
  | .ok (.remote p b) =>
    let k : RKind := if dOp d = 4 then .sreduce else if dOp d = 1 then .accum else .write
    let f : Nat → Frame := fun tag =>
      if dOp d = 4 then ⟨requestHdr 5 tag false false (remHatch b) (remOffset b) gen tok,
        BitVec.ofNat 4096 (bits row 0 128 + bits d 640 5 * 2 ^ 128)⟩
      else ⟨requestHdr (if dOp d = 1 then 3 else if dOver d then 2 else 1) tag (dOp d == 1 && dFinal d) poison (remHatch b) (remOffset b)
        gen tok, if poison then 0 else row⟩
    match s.request p ⟨p, k, g.cl, g.ch, x.id, m.q, 0, false⟩ f with
    | none => .wait (s.count C.gateOtFull (gateOf p))
    | some s => .sent { x with sat := x.sat + sat, poison := x.poison || poison }
        ((s.count C.dmaRowsWritten g.cl 1 g.ch).count C.dmaConvSat g.cl sat g.ch)

/-- A mask row of bits is complete (R198, R199, R238): it is written, and its elements counted. -/
def State.putMaskRow (s : State) (g : Agent) (x : Xfer) (bs rest : List Bool) (bad : Bool) : Landed :=
  match s.maskPlace g x.desc x.masks with
  | .ok (.row r) =>
    if fillOk (s.row r) (dOver x.desc) then
      (s.fill r (BitVec.ofNat 4096 (packNat 1 (bs.map b2n))) x.knownBad none).landedRow g
        { x with known := rest, knownBad := bad, masks := x.masks + 1, count := x.count + (bs.filter id).length } 0 x.knownBad
    else .wait (s.waitOn r (.chan g.cl g.ch))
  | .halt h s => .halt h s
  | _ => .wait s

/-- A source row of a COUNT at home joins the count, in order; a mask row is written as soon as its 4,096 bits are known. The last row may complete
one mask row and begin the last. -/
def State.countMove (s : State) (g : Agent) (x : Xfer) (m : Move) : Landed :=
  let d := x.desc
  match Fmt.ofCode (dSfmt d) with
  | none => .halt (.stop 1 0 0) s
  | some f =>
    let poison := m.src.any Piece.bad
    let row := joined (m.src.map Piece.data) (srcRows d m.q).2.1
    let all := ccBits f (dPred d) (Num.of32 (dValue d)) [row]
    if !dMaskEn d then .done { x with count := x.count + (all.filter id).length, poison := x.poison || poison } s
    else
      -- a row that two mask rows share is read again after a stop: what the first of them has taken is skipped
      let bs := x.known ++ all.drop (4096 * x.masks + x.known.length - f.perRow * m.q)
      let y := { x with knownBad := x.knownBad || poison }
      let last := decide (m.q + 1 = dTotal d)
      if 4096 ≤ bs.length then match s.putMaskRow g y (bs.take 4096) (bs.drop 4096) (poison && decide (4096 < bs.length)) with
        | .done y s => if last && !y.known.isEmpty then .part y s else .done y s
        | r => r
      else if last then s.putMaskRow g y bs [] false
      else .done { y with known := bs, poison := x.poison || poison } s

/-- Row q of a transfer lies at or behind its stop point: nothing more is read for it (R244). -/
def Xfer.past (x : Xfer) (q : Nat) : Bool := x.halt.isSome && decide (x.next ≤ q)

/-- A row lands, or joins its count with the mask rows that it completes and begins. -/
def State.settleMove (s : State) (g : Agent) (x : Xfer) (m : Move) : Landed :=
  if dOp x.desc ≠ 2 then s.landMove g x m else
  match s.countMove g x m with
  | .part y s => (match s.countMove g y m with
    | .wait s => .part y s
    -- the first mask row stands in the record of the stop at the last (R244)
    | .halt h s => .done { y with halt := some h, next := m.q } s
    | r => r)
  | r => r

/-- The rows in flight of a transfer, oldest first, go as far as they can. A silo gives its rows, and takes them, in order, and so do the rows
of a COUNT. A row that can no longer land ends the transfer there (R217, R244). -/
def State.passMoves (s : State) (g : Agent) (x : Xfer) : List Move → Bool → Bool → List Move × Xfer × State
  | [], _, _ => ([], x, s)
  | m :: rest, noSrc, noDst =>
    let d := x.desc
    let keep := fun (m : Move) (x : Xfer) (s : State) (a b : Bool) =>
      let r := State.passMoves s g x rest a b
      (m :: r.1, r.2)
    if m.sent then keep m x s noSrc noDst
    else
      let (m, x, s) := if noSrc || x.past m.q then (m, x, s) else s.readMove g x m
      let ready := m.src.all Piece.ready
      let noSrc := noSrc || (decide (dSkind d ≠ 0) && !ready)
      if !ready || noDst then keep m x s noSrc (noDst || decide (dDkind d ≠ 0 ∨ dOp d = 2))
      else match s.settleMove g x m with
        | .done x s => State.passMoves s g x rest noSrc noDst
        | .part x s => keep m x s noSrc true
        | .sent x s => keep { m with sent := true } x s noSrc noDst
        | .wait s => keep m x s noSrc (noDst || decide (dDkind d ≠ 0 ∨ dOp d = 2))
        | .halt h s => (rest.filter Move.sent, { x with halt := some h, next := m.q }, s)

def State.pass (s : State) (g : Agent) (x : Xfer) : Xfer × State :=
  let r := s.passMoves g x x.moves false false
  ({ r.2.1 with moves := r.1 }, r.2.2)

/-! Issuing (R239, R240). -/

/-- Rows in flight of a channel and of a cluster. -/
def Chan.flight (k : Chan) : Nat := (k.tail ++ k.cur.toList).foldl (fun n (x : Xfer) => n + x.moves.length) 0

def State.clFlight (s : State) (cl : Nat) : Nat := (List.range 32).foldl (fun n ch => n + (s.chan cl ch).flight) 0

inductive Issue where
  | go (m : Move) (s : State)
  | hold
  | halt (h : Halt) (s : State)

/-- Spill turn (R217): applied to every replica at once. -/
def State.turn (s : State) (d : Desc) : State := s.ttSet (bits d 64 15) 0 11 1 (bits d 80 1)

/-- A remote COUNT goes out once (R335, R342). -/
def State.askCount (s : State) (g : Agent) (x : Xfer) : Issue :=
  let d := x.desc
  let b := dSrc d % 2 ^ 52
  let body := packBits [(32, (dValue d).toNat), (3, dPred d), (1, b2n (dMaskEn d)), (4, dSfmt d), (24, 0), (24, dN d 0 - 1)]
  match s.route (remFabric b) (remHatch b) (remOffset b) with
  | none => .halt (.stop 2 0 (dSrc d)) s
  | some p =>
    match s.request p ⟨p, .count, g.cl, g.ch, x.id, 0, 0, false⟩ fun tag =>
        ⟨requestHdr 4 tag false false (remHatch b) (remOffset b) (Config.remoteGen d).toNat (Config.remoteToken d).toNat,
          BitVec.ofNat 4096 body⟩ with
    | none => .hold
    | some s => .go ⟨0, [], true⟩ s

/-- Row x.next of a transfer, with `used` rows of the channel and `total` of the cluster in flight: the credit of run-ahead first, then the
checks (R239, R240, R245, R246). -/
def State.issueRow (s : State) (g : Agent) (x : Xfer) (used total : Nat) : Issue :=
  let d := x.desc
  let q := x.next
  let offs := (srcRows d q).1
  let silo := siloOfAddr g.cl (dDkind d) (dDst d)
  if 64 ≤ used ∨ 512 ≤ total then .hold
  else if dAhead d && decide ((s.silo silo).credit ≤
      (s.setChan g.cl g.ch { s.chan g.cl g.ch with cur := some x }).aheadInto g.cl silo) then .hold
  else if dAhead d && decide (dExtent d ≠ 0) && offs.any (fun o => decide (dExtent d ≤ o)) then .halt .clip s
  else match firstCheck (s.rowChecks g d q) with
    | some (.halt h s) => .halt h s
    | some _ => .hold
    | none =>
      if dOp d = 3 then .go ⟨0, [], false⟩ (s.turn d)
      else if dOp d = 2 ∧ space (dSrc d) = 4 then s.askCount g x
      else .go ⟨q, offs.map fun _ => .todo, false⟩ (if dAhead d then s.countJob C.pfIssued g.part g.job else s)

/-- Rows are issued until one is held, the transfer halts or none is left. -/
def State.issueRows (s : State) (g : Agent) (x : Xfer) (used total : Nat) : Nat → Xfer × State
  | 0 => (x, s)
  | n + 1 =>
    if dTotal x.desc ≤ x.next ∨ x.halt.isSome = true then (x, s) else
    match s.issueRow g x used total with
    | .hold => (x, s)
    | .halt h s =>
      ({ x with halt := some h }, if h = .clip then s.countJob C.pfClipped g.part g.job else s)
    | .go m s =>
      let ms := if dOp x.desc = 3 then x.moves else x.moves ++ [m]
      State.issueRows s g { x with next := x.next + 1, moves := ms } (used + 1) (total + 1) n

/-- Rows land and further ones issue, until nothing more issues. -/
def State.runXfer (s : State) (g : Agent) (x : Xfer) (tail other : Nat) : Nat → Xfer × State
  | 0 => (x, s)
  | n + 1 =>
    let (x, s) := s.pass g x
    let used := tail + x.moves.length
    let (y, s) := s.issueRows g x used (other + used) 64
    if y.next = x.next then (y, s) else State.runXfer s g y tail other n

/-! Channel states. -/

def State.chState (s : State) (cl ch : Nat) : Nat := s.fld (.dmaCtrl cl ch) F.dmaCtrlState
def State.setChState (s : State) (cl ch v : Nat) : State := s.setFld (.dmaCtrl cl ch) F.dmaCtrlState v

/-- DMA_CTRLn shows queue entries and the rows in flight. -/
def State.syncChan (s : State) (cl ch : Nat) : State :=
  let k := s.chan cl ch
  (s.setFld (.dmaCtrl cl ch) F.dmaCtrlQueued k.queue.length).setFld (.dmaCtrl cl ch) F.dmaCtrlInflight k.flight

/-- Mask rows of a remote COUNT land from DST on, in order (R342). -/
def State.flushMask (s : State) (g : Agent) (x : Xfer) : Nat → Xfer × State
  | 0 => (x, s)
  | n + 1 =>
    match SMap.find? x.got x.masks, s.maskPlace g x.desc x.masks with
    | some p, .ok (.row r) =>
      if !fillOk (s.row r) (dOver x.desc) then (x, s.waitOn r (.chan g.cl g.ch))
      else State.flushMask ((s.fill r p.1 p.2 none).count C.dmaRowsWritten g.cl 1 g.ch) g
        { x with got := SMap.erase x.got x.masks, masks := x.masks + 1, rows := x.rows + 1, poison := x.poison || p.2 } n
    | some _, .halt h s => ({ x with got := [], halt := some h }, s)
    | _, _ => (x, s)

/-- Nothing of the transfer is in flight. -/
def Xfer.drained (x : Xfer) : Bool := x.moves.isEmpty && x.got.isEmpty

/-- The stop of a transfer whose rows have landed (R243): an ERROR record waits, the channel is STOPPED, and the fault is posted; an address
fault posts ADDRESS only (R457). Table 1-7 has no ID for a channel: the event names the cluster's control core (DESIGN CHOICE, log 64). -/
def State.stopChan (s : State) (cl ch : Nat) (x : Xfer) (cause detail addr : Nat) : State :=
  let k := s.chan cl ch
  let s := if cause = 2 then s.fault (agentCluster cl) 0x01 0 0 addr else s.fault (agentCluster cl) 0x0E ch cause 0
  (s.setChan cl ch { k with done := k.done ++ [{ x with status := 2, cause := cause, detail := detail }] }).setChState cl ch 3

/-- A transfer that has ended waits for its record. -/
def State.endXfer (s : State) (cl ch : Nat) (x : Xfer) : State :=
  match x.halt with
  | some (.stop c e a) => s.stopChan cl ch x c e a
  | some .clip => s.setChan cl ch { s.chan cl ch with done := (s.chan cl ch).done ++ [{ x with clipped := true }] }
  | _ => s.setChan cl ch { s.chan cl ch with done := (s.chan cl ch).done ++ [x] }

/-- The transfers at the head of those whose reads have all issued end in descriptor order once nothing of them is in flight (R239). -/
def State.endTail (s : State) (cl ch : Nat) : Nat → State
  | 0 => s
  | n + 1 =>
    let k := s.chan cl ch
    match k.tail with
    | [] => s
    | x :: rest => if x.drained then ((s.setChan cl ch { k with tail := rest }).endXfer cl ch x).endTail cl ch n else s

/-- A halted transfer whose earlier rows have landed, behind no other: PARTIAL and PAUSED at a HOST page, with the page-in event; else its end
(R213, R243, R244). -/
def State.endCur (s : State) (cl ch : Nat) : State :=
  let k := s.chan cl ch
  match k.cur with
  | none => s
  | some x =>
    if !(x.drained && k.tail.isEmpty) then s
    else match x.halt with
      | none => s
      | some (.page pg) =>
        let g := s.agentOf cl ch
        let s := s.setChan cl ch { k with page := some (g.part, pg), done := k.done ++ [{ x with status := 1 }] }
        (s.setChState cl ch 2).post 2 g.part g.job 0 [(8, 3, pg), (12, 2, cl), (14, 1, ch)]
      | some _ => (s.setChan cl ch { k with cur := none }).endXfer cl ch x

/-- A channel's transfers go on as far as they can (R239, R240, R243 to R246). What is in flight lands in any state; rows issue while the
channel is ACTIVE. -/
def State.resumeChan (s : State) (cl ch : Nat) : State :=
  let g := s.agentOf cl ch
  if s.chState cl ch = 0 ∨ s.chState cl ch = 2 then s
  else
    let step := fun (a : List Xfer × State) (x : Xfer) =>
      let (x, s) := a.2.pass g x
      let (x, s) := s.flushMask g x x.got.length
      (a.1 ++ [x], s)
    let (tail, s) := (s.chan cl ch).tail.foldl step ([], s)
    let s := s.setChan cl ch { s.chan cl ch with tail := tail }
    let s := match (s.chan cl ch).cur with
      | none => s
      | some x =>
        let used := tail.foldl (fun n (y : Xfer) => n + y.moves.length) 0
        let other := s.clFlight cl - (s.chan cl ch).flight
        let (x, s) := if s.chState cl ch = 1 ∧ x.halt.isNone = true then s.runXfer g x used other (dTotal x.desc + 2) else s.pass g x
        let k := s.chan cl ch
        if dTotal x.desc ≤ x.next ∧ x.halt.isNone = true ∨ x.halt = some Halt.clip then s.setChan cl ch { k with cur := none, tail := k.tail ++ [x] }
        else s.setChan cl ch { k with cur := some x }
    ((s.endTail cl ch ((s.chan cl ch).tail.length)).endCur cl ch).syncChan cl ch

/-- One transfer of a channel changes, and the channel goes on. -/
def State.modXfer (s : State) (cl ch id : Nat) (f : Xfer → Xfer) : State :=
  let k := s.chan cl ch
  let h := fun (x : Xfer) => if x.id = id then f x else x
  (s.setChan cl ch { k with cur := k.cur.map h, tail := k.tail.map h }).resumeChan cl ch

def State.xfer? (s : State) (cl ch id : Nat) : Option Xfer :=
  ((s.chan cl ch).tail ++ (s.chan cl ch).cur.toList).find? fun (x : Xfer) => x.id == id

/-- The next descriptor of a channel: from its queue, or its ring buffer. -/
def Chan.next? (k : Chan) : Option (Desc × Chan) :=
  match k.queue, k.buf with
  | d :: q, _ => some (d, { k with queue := q })
  | [], d :: b => some (d, { k with buf := b })
  | [], [] => none

/-- A channel starts its next descriptor, or refuses it (R236, R239). -/
def State.startDesc (s : State) (cl ch : Nat) (d : Desc) (k : Chan) : State :=
  let x := Xfer.fresh k.seq d
  let x := if s.descOk (s.agentOf cl ch) d then x else { x with halt := some (.stop 1 0 0) }
  ((s.setChan cl ch { k with seq := k.seq + 1, cur := some x }).setChState cl ch 1).resumeChan cl ch

/-- Every earlier descriptor of the channel has completed, where the next one fences (R239). -/
def Chan.fenceOk (k : Chan) (d : Desc) : Bool := !dFence d || (k.tail.isEmpty && k.done.isEmpty)

/-! Rings (R233, R234). -/

def State.ringGap (s : State) (cl ch : Nat) : Nat :=
  (s.fld (.dmaRingPtr cl ch) F.dmaRingPtrLimit + 2 ^ 32 - s.fld (.dmaRingPtr cl ch) F.dmaRingPtrFetch) % 2 ^ 32

/-- One descriptor of the ring: FULL rows only (R234). -/
def State.ringSlot (s : State) (cl ch i : Nat) : Option Desc :=
  let count := s.fld (.dmaRingPtr cl ch) F.dmaRingPtrFetch + i
  let slot := count % 2 ^ s.fld (.dmaRing cl ch) F.dmaRingRingLog2
  let x := s.row (.loft cl (s.fld (.dmaRing cl ch) F.dmaRingRingBase + slot / 4))
  if x.tag = .full then some (x.data.extractLsb' (1024 * (slot % 4)) 1024) else none

/-- DMA_RING_FETCH (R234). -/
def execDmaRingFetch (cl ch : Nat) (s : State) : Res :=
  unitOk (decide (cl < 288 ∧ ch < 32)) <|
  let n := min 16 (s.ringGap cl ch)
  let ds := (List.range n).filterMap fun i => s.ringSlot cl ch i
  let k := s.chan cl ch
  need (decide (s.fld (.dmaChcfg cl ch) F.dmaChcfgMode = 2 ∧ 0 < n ∧ ds.length = n ∧ k.buf.length ≤ 16)) s <|
  .next (((s.setChan cl ch { k with buf := k.buf ++ ds }).setFld (.dmaRingPtr cl ch) F.dmaRingPtrFetch
    ((s.fld (.dmaRingPtr cl ch) F.dmaRingPtrFetch + n) % 2 ^ 32)).count C.dmaDescFetch cl 1 ch)

/-! Records (R242). -/

/-- The destination row at which a transfer stopped (R244): of a COUNT that writes a mask, the first source row of the mask row that is not
complete. -/
def Xfer.stopRow (x : Xfer) : Nat :=
  if dOp x.desc = 2 ∧ dMaskEn x.desc = true ∧ space (dSrc x.desc) ≠ 4 then 4096 * x.masks / dCounted x.desc else x.next

def record (s : State) (g : Agent) (x : Xfer) : BitVec 256 :=
  let tail := if x.status ≠ 0 ∨ x.clipped then packNat 24 (dCoord x.desc x.stopRow)
    else if dOp x.desc = 2 then x.count % 2 ^ 40 else 0
  BitVec.ofNat 256 (packBits [(2, x.status), (1, b2n x.lower), (1, b2n x.skip), (1, b2n x.glean), (1, b2n x.poison),
    (1, b2n (x.sat != 0)), (1, b2n x.resumed), (1, b2n x.clipped), (3, 0), (4, x.cause), (5, g.ch), (4, g.job), (7, x.detail),
    (16, dTag x.desc), (16, s.beatNo.toNat % 65536), (40, x.rows), (16, min x.sat 65535), (8, 0), (128, tail)])

def State.csSilo (s : State) (cl ch : Nat) : SiloRef :=
  let r := Reg.dmaChcfg cl ch
  if s.flag r F.dmaChcfgCsLoft then .loft cl (s.fld r F.dmaChcfgCsSilo)
  else .near (8 * cl + s.fld r F.dmaChcfgCsCore) (s.fld r F.dmaChcfgCsSilo)

/-- Append held records while the completion silo has credit; each is one FULL row (R197, R242). -/
def State.flushRecords (s : State) (cl ch : Nat) : Nat → State
  | 0 => s
  | n + 1 =>
    let k := s.chan cl ch
    let x := s.csSilo cl ch
    let y := s.silo x
    let r := siloRow x y y.tail
    match k.held with
    | [] => s
    | h :: rest =>
      if y.credit = 0 ∨ !fillOk (s.row r) false then s
      else
        let s := (s.setChan cl ch { k with held := rest }).fill r (h.zeroExtend 4096) false none
        State.flushRecords (s.setSiloPtrs x { y with tail := y.plus y.tail 1, tailP := y.plus y.tailP 1 }) cl ch n

/-- A record is due unless QUIET and DONE with no flag (Table 10-2). -/
def recordDue (x : Xfer) : Bool :=
  !(dQuiet x.desc && x.status == 0 && !(x.lower || x.skip || x.glean || x.poison || x.sat != 0 || x.resumed || x.clipped))

/-- With nothing left to do the channel is IDLE (Table 10-5). -/
def State.settleChan (s : State) (cl ch : Nat) : State :=
  let k := s.chan cl ch
  if s.chState cl ch = 1 ∧ k.cur.isNone ∧ k.tail.isEmpty ∧ k.done.isEmpty ∧ k.queue.isEmpty ∧ k.buf.isEmpty then s.setChState cl ch 0 else s

/-- The end of a transfer (R242, R243): its record, the counters, and for ERROR or ABANDONED the job's stop. -/
def State.transferEnd (s : State) (cl ch : Nat) (x : Xfer) (rest : List Xfer) : State :=
  let g := s.agentOf cl ch
  let s := s.setChan cl ch { s.chan cl ch with done := rest }
  let rec_ := record s g x
  let s := if x.status = 1 then s.count C.dmaPartial cl 1 ch else if x.status = 2 then s.count C.dmaErrors cl 1 ch else s
  let s := s.wr (.dmaLast cl ch) (rec_.extractLsb' 0 64)
  -- a channel of a killed job appends no record (R249)
  let s := if g.fw || !recordDue x || decide ((s.job g.part g.job).stat = .killing) then s else
    (s.setChan cl ch { s.chan cl ch with held := (s.chan cl ch).held ++ [rec_] }).flushRecords cl ch 8
  let s := if !g.fw && decide (2 ≤ x.status) then s.requestStop g.part g.job 2 rec_ else s
  s.settleChan cl ch

/-- DMA_TRANSFER_END (R242). -/
def execDmaTransferEnd (cl ch : Nat) (s : State) : Res :=
  unitOk (decide (cl < 288 ∧ ch < 32)) <|
  match (s.chan cl ch).done with
  | [] => .next s
  | x :: rest => .next (s.transferEnd cl ch x rest)

/-- DMA_RECORD_FLUSH (R242). -/
def execDmaRecordFlush (cl ch : Nat) (s : State) : Res :=
  unitOk (decide (cl < 288 ∧ ch < 32)) <|
  let x := s.csSilo cl ch
  let y := s.silo x
  need (!(s.chan cl ch).held.isEmpty && y.credit != 0 && fillOk (s.row (siloRow x y y.tail)) false) s <|
  .next (s.flushRecords cl ch 8)

/-! Control writes (R235, Table 10-5). In any other state they are ignored. -/

/-- FIRMWARE_COPY_START (R235). -/
def execFirmwareCopyStart (cl ch : Nat) (s : State) : Res :=
  unitOk (decide (cl < 288 ∧ ch < 32)) <|
  let c := Reg.dmaCnt cl ch
  let rows := s.fld c F.dmaCntRows
  if s.chState cl ch ≠ 0 ∨ s.fld (.dmaChcfg cl ch) F.dmaChcfgMode ≠ 3 ∨ rows = 0 then .next s
  else .next (s.startDesc cl ch (fwDesc (s.fld (.dmaSrc cl ch) F.dmaSrcAddr) (s.fld (.dmaDst cl ch) F.dmaDstAddr) rows
    (s.flag c F.dmaCntOverwrite) (s.flag c F.dmaCntTake)) (s.chan cl ch))

/-- A PAUSED channel goes on from its stop point; its record counts ROWS from there, with RESUMED set (R244, Table 10-4). -/
def State.resumePaused (s : State) (cl ch : Nat) : State :=
  let k := s.chan cl ch
  if s.chState cl ch ≠ 2 then s
  else
    let cur := k.cur.map fun (x : Xfer) => { x with next := x.stopRow, rows := 0, resumed := true, halt := none, known := [], knownBad := false }
    ((s.setChan cl ch { k with cur := cur, page := none }).setChState cl ch 1).resumeChan cl ch

/-- ABANDON of a PAUSED channel: STOPPED with an ABANDONED record and a fault event (R243). -/
def State.abandonChan (s : State) (cl ch : Nat) : State :=
  let k := s.chan cl ch
  match k.cur with
  | none => s
  | some x =>
    if s.chState cl ch ≠ 2 then s else
    (((s.setChan cl ch { k with cur := none, page := none, done := k.done ++ [{ x with status := 3 }] }).setChState cl ch 3).syncChan
      cl ch).fault (agentCluster cl) 0x0E ch 0 0

/-- DMA_RESUME (R243, R244); with ABANDON in the same write ABANDON takes effect (R251). -/
def execDmaResume (cl : Nat) (x : ChanResume) (s : State) : Res :=
  unitOk (decide (cl < 288 ∧ x.ch < 32)) <| .next (if x.abandon then s.abandonChan cl x.ch else s.resumePaused cl x.ch)

/-- DMA_ABANDON (R243). -/
def execDmaAbandon (cl ch : Nat) (s : State) : Res :=
  unitOk (decide (cl < 288 ∧ ch < 32)) <| .next (s.abandonChan cl ch)

/-- DMA_RESTART (R243). -/
def execDmaRestart (cl ch : Nat) (s : State) : Res :=
  unitOk (decide (cl < 288 ∧ ch < 32)) <|
  if s.chState cl ch ≠ 3 then .next s
  else .next ((((s.setChan cl ch { s.chan cl ch with queue := [], buf := [], cur := none, tail := [] }).setFld (.dmaRingPtr cl ch) F.dmaRingPtrFetch
    (s.fld (.dmaRingPtr cl ch) F.dmaRingPtrLimit)).setChState cl ch 0).syncChan cl ch)

/-! Run-ahead rows found stale (R247). -/

/-- The channel of a row's cluster that is to read the row again. -/
def State.refetchOf (s : State) (r : RowRef) : Option (Nat × GenNote) :=
  (List.range 32).findSome? fun ch => ((s.chan (rowCluster r) ch).refetch.find? fun (q : RowRef × GenNote) => decide (q.1 = r)).map
    fun q => (ch, q.2)

/-- A row of partition space read again for a slot: from its tensor's loft copy where that serves it, else from LPDDR. -/
def State.rereadRow (s : State) (cl p j row : Nat) : (Row × Bool) × State :=
  let l := s.locate (.cluster cl) p j row
  let e := s.ttEff l.tensor
  let copy := s.row (e.loftRef l.index)
  if e.res = 2 ∧ dmaReadOk copy false = true then ((copy.data, decide (copy.tag = .poison)), s.meetRow (e.loftRef l.index))
  else
    let s := s.lpMeet l
    let x := s.lpRead l
    ((x.data, x.poison), s)

/-- The source rows of a slot, by row of partition space: those from which its channel assembled it. -/
def GenNote.rows (n : GenNote) : List Nat := (srcRows n.desc n.q).1.map fun off => dSrc n.desc % 2 ^ 52 / 512 + off

/-- The row is read again under the current GEN and fills its slot in place; a page that is not PRESENT poisons it. -/
def State.refetch (s : State) (ch : Nat) (r : RowRef) (n : GenNote) : State :=
  let cl := rowCluster r
  let k := s.chan cl ch
  let s := s.setChan cl ch { k with refetch := k.refetch.filter fun (q : RowRef × GenNote) => !decide (q.1 = r) }
  let e := s.ttEff n.tensor
  if n.rows.any fun row => decide (pgState (s.locate (.cluster cl) e.part e.job row).page ≠ 1) then
    (s.fill r 0 true none).fault (agentCluster cl) 0x0D ch n.tensor (rowAddr r)
  else
    let (ds, s) := n.rows.foldl (fun (a : List (Row × Bool) × State) row =>
      let y := a.2.rereadRow cl e.part e.job row
      (a.1 ++ [y.1], y.2)) ([], s)
    let q := srcRows n.desc n.q
    let data := if dElem n.desc then (assemble n.desc (ds.map Prod.fst) q.2.1 q.2.2).1 else joined (ds.map Prod.fst) q.2.1
    s.fill r data (ds.any Prod.snd) (some { n with gen := e.gen })

/-- PF_STALE_REFETCH (R247): waits while the tensor is not SEALED. -/
def execPfStaleRefetch (r : RowRef) (s : State) : Res :=
  unitOk (rowOk r) <|
  match s.refetchOf r with
  | none => .next s
  | some (ch, n) => need (decide ((s.ttEff n.tensor).cls = 0) && decide ((s.row r).tag = .empty)) s <| .next (s.refetch ch r n)

/-! Deadlines (R221). -/

/-- A row that a transfer has yet to read from the tensor that it touches has not landed FULL. -/
def State.touchUnmet (s : State) (g : Agent) (x : Xfer) (tensor : Nat) : Bool :=
  let late := fun (off : Nat) =>
    let l := s.locate (.cluster g.cl) g.part g.job (dSrc x.desc / 512 + off)
    l.tensor == tensor && !(s.landed tensor l.index && decide ((s.row ((s.ttEff tensor).loftRef l.index)).tag = .full))
  let unread := x.moves.flatMap fun (m : Move) =>
    ((srcRows x.desc m.q).1.zip m.src).filterMap fun (p : Nat × Piece) => if p.2.ready then none else some p.1
  (unread ++ ((List.range (dTotal x.desc - x.next)).flatMap fun i => (srcRows x.desc (x.next + i)).1)).any late

/-- The tick DEADLINE beats after the beat of a touch finds whether its rows are all FULL (R221); a transfer PAUSED at a HOST page is no
exception. A touch of a tensor with no loft placement never misses (R220). -/
def State.dateTouch (s : State) (g : Agent) (x : Xfer) : Xfer :=
  match x.touch with
  | none => x
  | some t =>
    let e := s.ttEff t.1
    let live := match x.halt with
      | none => true
      | some (.page _) => true
      | some _ => false
    if x.due.isNone && live && decide (e.deadline ≠ 0 ∧ t.2 + e.deadline ≤ s.beatNo.toNat ∧ e.res ≠ 3) then
      { x with due := some (s.touchUnmet g x t.1) }
    else x

/-- The deadlines of a tick, of every channel. -/
def State.deadlineTick (s : State) : State :=
  s.chans.foldl (fun (s : State) (c : Nat × Chan) =>
    let cl := c.1 / 32; let ch := c.1 % 32
    let g := s.agentOf cl ch
    let k := s.chan cl ch
    if (k.tail ++ k.cur.toList).any fun x => x.touch.isSome && x.due.isNone then
      s.setChan cl ch { k with cur := k.cur.map (s.dateTouch g), tail := k.tail.map (s.dateTouch g) }
    else s) s

/-- A touch has missed its deadline, and the miss has had no effect yet. -/
def Xfer.late (x : Xfer) : Bool := !x.missed && decide (x.due = some true)

/-- The fallback of a touching transfer that missed (Table 9-6); in learning it waits. -/
def State.deadlineMiss (s : State) (g : Agent) (x : Xfer) : State :=
  let e := s.ttEff (x.touch.getD (0, 0)).1
  let s := s.countJob C.ttDeadlineMiss g.part g.job
  let go := fun (s : State) (f : Xfer → Xfer) => s.modXfer g.cl g.ch x.id fun y => f { y with missed := true }
  if (s.part g.part).phase = 0 then go s id
  else match e.fallback with
    | 1 =>
      let fb := s.ttEff e.fbTensor
      if fb.valid && fb.cls == 0 && fb.res == 2 then go (s.countJob C.ttFbLower g.part g.job) fun y => { y with lower := true }
      else go (s.countJob C.ttFbUnavailable g.part g.job) id
    | 2 => if (s.gleanMask g x.desc).isSome then go (s.countJob C.ttFbGlean g.part g.job) fun y => { y with glean := true } else go s id
    | 3 => go (s.countJob C.ttFbSkip g.part g.job) fun y => { y with skip := true }
    | _ => go s id

/-- DEADLINE_MISS (R221): a touch of the channel whose rows are not all FULL DEADLINE beats after its beat. -/
def execDeadlineMiss (cl ch : Nat) (s : State) : Res :=
  unitOk (decide (cl < 288 ∧ ch < 32)) <|
  let g := s.agentOf cl ch
  let k := s.chan cl ch
  match (k.tail ++ k.cur.toList).find? Xfer.late with
  | none => .next s
  | some x => .next (s.deadlineMiss g x)

/-! Kicks (R171, R233). -/

/-- The channel that a kick may use (R233). -/
def State.kickOk (s : State) (t : Task) (ch : Nat) : Bool :=
  let mode := s.fld (.dmaChcfg t.cl ch) F.dmaChcfgMode
  (mode == 1 || mode == 2) && s.fld (.dmaChcfg t.cl ch) F.dmaChcfgJob == t.job

/-- dma.kick (R171, R233): the kick mask comes before the checks of the channel. -/
def State.dmaKick (s : State) (t : Task) (w : CmdWord) : Ex State := do
  let ch := bits w 32 5
  let desc := bits w 37 13
  let k := bits w 50 3
  let once := bitAt w 53
  let mode := s.fld (.dmaChcfg t.cl ch) F.dmaChcfgMode
  let ref := RowRef.near t.core desc
  let clean := !stray w [(0, 8), (32, 22)]
  if clean && once && bitAt t.kick k then return s.countCore C.dmaKickSkipped t.core
  else
    if mode = 1 then s.quota t [ref] else .ok ()
    require (clean && s.kickOk t ch)
    let s ← if mode = 1 then
        if 16 ≤ (s.chan t.cl ch).queue.length then .error .stall
        else do
          let (row, s) ← s.readRow t ref false
          let c := s.chan t.cl ch
          .ok ((s.setChan t.cl ch { c with queue := c.queue ++ [row.extractLsb' 0 1024] }).syncChan t.cl ch)
      else .ok (s.setFld (.dmaRingPtr t.cl ch) F.dmaRingPtrLimit
          ((s.fld (.dmaRingPtr t.cl ch) F.dmaRingPtrLimit + desc + 1) % 2 ^ 32))
    return if once then s.modTask t.id fun t => { t with kick := setBit t.kick k true } else s

/-- DMA_KICK (R171, R233). -/
def execDmaKick (core : Nat) (s : State) : Res := issue 0x50 core s fun t w s => s.dmaKick t w

/-- Every channel of a partition goes on as far as it may. -/
def State.resumePart (s : State) (p : Nat) : State :=
  (s.clustersOf p).foldl (fun (s : State) cl => (List.range 32).foldl (fun s ch => s.resumeChan cl ch) s) s

end Sys2Proof.Machine
end

