-- ==== Sys2Proof/Machine/HatchRx.lean ====
section
/-! DEFINITION. Incoming transactions: their form, the hatch checks, landing and parking at the target, responses at the
initiator (chapter 15). -/

namespace Sys2Proof.Machine

/-! Requests. A READ is an entry; it is kept as a BATCH frame of one entry. -/

/-- The kind of a single request: the frame's TYPE, or 8 for a READ. -/
def reqKind (f : Frame) : Nat := fType f.hdr

/-- The request's header of Table 15-2. -/
def reqHdr (f : Frame) : BitVec 96 := if reqKind f = 8 then f.payload.extractLsb' 0 96 else f.hdr

/-- COUNT_REQ parameters (R342): VALUE, PRED, MASK, FMT, rows. -/
structure CountReq where
  value : F32
  pred : Nat
  mask : Bool
  fmt : Nat
  rows : Nat
  deriving DecidableEq, Repr

def countReq (p : Row) : CountReq :=
  ⟨p.extractLsb' 0 32, bits p 32 3, bitAt p 35, bits p 36 4, bits p 64 24 + 1⟩

/-- How many rows a request names. -/
def reqRows (f : Frame) : Nat := if reqKind f = 4 then (countReq f.payload).rows else 1

/-! Where a request leads. -/

inductive Target where
  | row (r : RowRef)
  | lp (l : LpLoc) (row : Nat)
  | bad
  deriving DecidableEq, Repr

/-- The hatch that a request on a port names, in the replica of the port's gate (R337). -/
def State.hatchFor (s : State) (port n : Nat) : Hatch := s.hatchAt (gateOf port) n

/-- Row r of a hatch, translated by the gate of the port (R212, R337). -/
def State.hatchRow (s : State) (port : Nat) (h : Hatch) (r : Nat) : Target :=
  let a := h.base
  match space a with
  | 0 =>
    let row := a / 512 + r
    if 2 ^ 36 ≤ row then .bad else .lp (s.locate (.gate (gateOf port)) h.part h.job row) row
  | 1 =>
    let cl := a % 2 ^ 52 / 2 ^ 29
    let row := a % 2 ^ 29 / 512 + r
    if cl < 288 ∧ row < 1048576 ∧ s.clusterHole cl = false then .row (.loft cl row) else .bad
  | 2 =>
    let c := a % 2 ^ 52 / 2 ^ 22
    let row := a % 2 ^ 22 / 512 + r
    if c < 2304 ∧ row < 8192 ∧ s.coreHole c = false then .row (.near c row) else .bad
  | _ => .bad

/-- Whether a hatch admits reads and writes of a SPILL tensor in either direction (R433). -/
def Hatch.store (h : Hatch) : Bool := h.permW && h.permR

def reqUse (kind : Nat) : LpUse := if kind = 3 then .accum else if kind = 4 ∨ kind = 8 then .read else .write

/-- Whether the target of a request may be reached by page state and class (R213, R216, R433). -/
def State.targetOk (s : State) (h : Hatch) (kind : Nat) (t : Target) : Bool :=
  match t with
  | .bad => false
  | .row _ => kind != 3
  | .lp l _ => decide (pgState l.page = 1) && (s.classOk h.part h.job l (reqUse kind)
      || (h.store && decide ((s.tt (pgTensor l.page)).cls = 1) && s.hasClass l && pgJob l.page == h.job && kind != 3))

/-- The first check of Table 15-7 that fails, 0 for none. -/
def State.hatchCheck (s : State) (port : Nat) (f : Frame) : Nat :=
  let q := reqHdr f
  let kind := reqKind f
  let h := s.hatchFor port (fHatch q)
  let c := countReq f.payload
  let perm := if kind = 8 then h.permR else if kind = 4 then h.permC else h.permW
  if !h.any && !(h.peers.take (min h.npeer 8)).contains (s.partner port) then 5
  else if s.resetting h.part then 6
  else if h.state ≠ 1 then 1
  else if fGen q ≠ h.gen then 4
  else if fToken q ≠ h.token then 2
  else if !perm || decide (h.rows < fOffset q + reqRows f) then 3
  else if kind = 4 && (decide (6 ≤ c.pred) || !((Fmt.ofCode c.fmt).elim false Fmt.counted)) then 3
  else if kind = 5 && (decide (31 ≤ bits f.payload 128 8) || space h.base == 0) then 3
  else if !(List.range (reqRows f)).all fun i => s.targetOk h kind (s.hatchRow port h (fOffset q + i)) then 3
  else 0

/-- Page faults and class refusals that a refused request met are counted and posted (R213, R216). -/
def State.refusedEffects (s : State) (port : Nat) (f : Frame) : State :=
  let q := reqHdr f
  let h := s.hatchFor port (fHatch q)
  match (List.range (reqRows f)).find? fun i => !s.targetOk h (reqKind f) (s.hatchRow port h (fOffset q + i)) with
  | none => s
  | some i => match s.hatchRow port h (fOffset q + i) with
    | .lp l row =>
      if pgState l.page ≠ 1 then s.pageFault row
      else s.classRefused l (agentGate (gateOf port)) (if reqKind f = 3 then 3 else 2) row
    | _ => s

/-! Answers. -/

/-- A NACK takes a token of the port's bucket; on an empty bucket the beat is throttled (R339, R340). Loopback has no port. -/
def State.nack (s : State) (port : Nat) (f : Frame) (code : Nat) : State :=
  let s := s.sendFrame port (batchOf (nackHdr (fTag (reqHdr f)) code))
  if port = 12 then s else
  let s := s.count C.gateNackSent port 1 code
  let x := s.port port
  s.setPort port (if x.bucket = 0 then { x with dry := true } else { x with bucket := x.bucket - 1 })

def State.ack (s : State) (port tag : Nat) : State := s.sendFrame port (batchOf (responseHdr 2 tag false))

def State.rdata (s : State) (port tag : Nat) (d : Row) (poison : Bool) : State :=
  s.sendFrame port ⟨responseHdr 6 tag poison, if poison then 0 else d⟩

/-! Landing (R335, R342, R343). -/

inductive Served where
  | done (s : State)
  | park (r : RowRef)
  | held

/-- The first row of a list that Table 8-2 makes a peek wait on. -/
def State.firstUnread (s : State) : List Target → Option RowRef
  | [] => none
  | .row r :: t => if dmaReadOk (s.row r) false then State.firstUnread s t else some r
  | _ :: t => State.firstUnread s t

/-- What a read of the target does beside answering (R205, R211). -/
def State.meetTarget (s : State) (t : Target) : State :=
  match t with
  | .lp l _ => s.lpMeet l
  | .row r => s.meetRow r
  | _ => s

/-- A row's data and its poison mark as a remote read finds them. -/
def State.targetRow (s : State) (t : Target) : Row × Bool :=
  match t with
  | .row r => ((s.row r).data, decide ((s.row r).tag = .poison))
  | .lp l _ => let x := s.lpRead l; (x.data, x.poison)
  | .bad => (0, false)

/-- The mask rows of a count, with the poison of the rows that gave their bits, and the count. -/
def countRows (f : Fmt) (c : CountReq) (rows : List (Row × Bool)) : List (Row × Bool) × Nat :=
  let bs := rows.flatMap fun r => (ccBits f c.pred (Num.of32 c.value) [r.1]).map fun b => (b, r.2)
  let gs := chunks 4096 (bs.length / 4096 + 1) bs
  (gs.map fun g => (BitVec.ofNat 4096 (packNat 1 (g.map fun b => b2n b.1)), g.any Prod.snd), (bs.filter Prod.fst).length)

/-- Set a reduction packet into its slot (R343). -/
def reduceSlot (d p : Row) : Row :=
  let slot := bits p 128 8
  setBit (setBits d (128 * slot) 128 (bits p 0 128)) (3968 + slot) true

/-- A request that passed its checks: it lands and is answered, or waits. -/
def State.land (s : State) (port : Nat) (f : Frame) : Served :=
  let q := reqHdr f
  let h := s.hatchFor port (fHatch q)
  let kind := reqKind f
  let poison := fPoison q
  let t := s.hatchRow port h (fOffset q)
  let waitsLp := (List.range (reqRows f)).any fun i => match s.hatchRow port h (fOffset q + i) with
    | .lp l _ => s.copyingRow l.key
    | _ => false
  if waitsLp || (kind == 3 && (s.job h.part h.job).clearing) then .held else
  match kind, t with
  | 3, .lp l _ => .done ((s.accumApply h.job l (.bf16 f.payload) (fFlag q) poison).ack port (fTag q))
  | 4, _ =>
    let c := countReq f.payload
    let ts := (List.range c.rows).map fun i => s.hatchRow port h (fOffset q + i)
    match s.firstUnread ts, Fmt.ofCode c.fmt with
    | some r, _ => .park r
    | none, none => .held
    | none, some fm =>
      let s := ts.foldl (fun (s : State) t => s.meetTarget t) s
      let (ms, n) := countRows fm c (ts.map fun t => s.targetRow t)
      let s := if c.mask then ms.foldl (fun (s : State) m => s.rdata port (fTag q) m.1 m.2) s else s
      .done (s.sendFrame port (batchOf (countHdr (fTag q) n)))
  | 5, .row r =>
    let x := s.row r
    if decide (x.tag = .pending) || x.taker.isSome then .park r
    else .done ((s.fill r (reduceSlot (if x.tag = .empty then 0 else x.data) f.payload) false none).ack port (fTag q))
  | 8, .row r =>
    let x := s.row r
    if dmaReadOk x (fFlag q) then
      .done (((s.meetRow r).dmaTaken r (fFlag q)).rdata port (fTag q) x.data (decide (x.tag = .poison)))
    else .park r
  | 8, .lp l _ =>
    let s := s.meetTarget t
    let x := s.lpRead l
    .done (s.rdata port (fTag q) x.data x.poison)
  | _, .row r =>
    if fillOk (s.row r) (kind == 2) then .done ((s.fill r f.payload poison none).ack port (fTag q)) else .park r
  | _, .lp l _ => .done ((s.lpWrite l.key f.payload poison).ack port (fTag q))
  | _, .bad => .held

/-! Parking (R338). -/

/-- The rows a request names in the SRAM stores. -/
def State.reqRefs (s : State) (port : Nat) (f : Frame) : List RowRef :=
  let h := s.hatchFor port (fHatch (reqHdr f))
  (List.range (reqRows f)).filterMap fun i => match s.hatchRow port h (fOffset (reqHdr f) + i) with
    | .row r => some r
    | _ => none

/-- Two requests of a port name a row in common. -/
def State.share (s : State) (port : Nat) (f h : Frame) : Bool := (s.reqRefs port f).any (s.reqRefs port h).contains

/-- The row that a request of the same port waits on which is parked ahead and names a row of this one. -/
def State.behind (s : State) (ahead : List ParkEnt) (port : Nat) (f : Frame) : Option RowRef :=
  ahead.findSome? fun e => if e.port = port ∧ s.share port e.frame f = true then e.row else none

def State.addPark (s : State) (port num : Nat) (f : Frame) (r : Option RowRef) : State :=
  let g := gateOf port
  let x := s.gate g
  let s := (s.setGate g { x with park := x.park ++ [⟨port, some num, f, r⟩] }).syncGate g
  match r with
  | some r => { s with waits := s.waits ++ [(r, .park g (fTag (reqHdr f)) port)] }
  | none => s.standBy (.park g (fTag (reqHdr f)) port)

/-- Check a request and land it, but behind what its port has parked for the same row. -/
def State.serveReq (s : State) (ahead : List ParkEnt) (port : Nat) (f : Frame) : Served :=
  let code := s.hatchCheck port f
  if code ≠ 0 then .done ((if code = 3 then s.refusedEffects port f else s).nack port f code)
  else match s.behind ahead port f with
    | some r => .park r
    | none => s.land port f

/-- Try a request: refused, landed, parked, accepted into a granary's wait, or (with the park table full) not taken: none. -/
def State.tryReq (s : State) (port num : Nat) (f : Frame) : Option State :=
  let full := decide (1024 ≤ ((s.gate (gateOf port)).park.filter fun e => e.row.isSome).length)
  match s.serveReq (s.gate (gateOf port)).park port f with
  | .done s => some s
  | .park r => if full then none else some (s.addPark port num f (some r))
  | .held => some (s.addPark port num f none)

/-- A frame of the receive buffer is done with: its place is free unless a request of it stays there, or has been accepted and has not
landed (R329). -/
def State.freePlace (s : State) (port num : Nat) : State :=
  let x := s.port port
  let kept := (x.rxHeld.any fun q => q.1 == num)
    || (s.gate (gateOf port)).park.any fun e => e.port == port && e.row.isNone && decide (e.num = some num)
  if port == 12 || kept then s else s.setPort port { x with rxFreed := x.rxFreed + 1 }

/-- Requests kept in a port's receive buffer go on while the park table has room; the last one of a frame frees its place. -/
def State.retryHeld (s : State) (port : Nat) : Nat → State
  | 0 => s
  | k + 1 =>
    let x := s.port port
    match x.rxHeld with
    | [] => s
    | (n, f) :: rest => match s.tryReq port n f with
      | none => s
      | some s => State.retryHeld ((s.setPort port { s.port port with rxHeld := rest }).freePlace port n) port k

/-- A gate's park table has room: the requests that its ports keep go on. -/
def State.retryGate (s : State) (g : Nat) : State :=
  ((List.range 13).filter fun p => gateOf p == g).foldl (fun (s : State) p => s.retryHeld p 512) s

/-- A parked entry waits on: it keeps its place in the table, and among the waiters of a row it waited on before. -/
def State.keepPark (s : State) (g : Nat) (e : ParkEnt) (r : Option RowRef) : State :=
  let x := s.gate g
  let s := (s.setGate g { x with park := x.park.map fun (q : ParkEnt) => if q = e then { e with row := r } else q }).syncGate g
  let w : Waiter := .park g (fTag (reqHdr e.frame)) e.port
  match r with
  | some r => if s.waits.contains (r, w) then s else { s with waits := s.waits ++ [(r, w)] }
  | none => s.standBy (.park g (fTag (reqHdr e.frame)) e.port)

/-- An accepted request lands; what it answers is dropped when its port has left READY since (R331). -/
def State.landHeld (s : State) (e : ParkEnt) : Served :=
  match e.num with
  | some _ => s.land e.port e.frame
  | none => match (s.setFld (.gatePort e.port) F.gatePortState 0).land e.port e.frame with
    | .done t => .done (t.setFld (.gatePort e.port) F.gatePortState (s.portState e.port))
    | r => r

/-- A parked entry is tried again with a fresh check, an accepted one without (R344); it leaves the table once it is answered. -/
def State.tryPark (s : State) (g : Nat) (e : ParkEnt) : State :=
  let drop := fun (s : State) (keep : Option RowRef) =>
    let w : Waiter := .park g (fTag (reqHdr e.frame)) e.port
    { s with waits := s.waits.filter fun q => !decide (q.2 = w ∧ some q.1 = e.row ∧ some q.1 ≠ keep) }
  let place := fun (s : State) => match e.row, e.num with
    | none, some n => s.freePlace e.port n
    | _, _ => s
  match (if e.row.isNone then s.landHeld e else s.serveReq ((s.gate g).park.takeWhile fun q => !decide (q = e)) e.port e.frame) with
  | .done s =>
    let x := s.gate g
    place (drop ((s.setGate g { x with park := x.park.erase e }).syncGate g) none)
  | .park r => place ((drop s (some r)).keepPark g e (some r))
  | .held => (drop s none).keepPark g e none

/-- A parked entry is tried again; when it has left the table, so are those that were parked behind it and meet a test, and the requests that
the full table turned away (R338). -/
def State.retryPark (s : State) (g : Nat) (e : ParkEnt) (p : ParkEnt → Bool) : State :=
  let after := ((s.gate g).park.dropWhile fun q => !decide (q = e)).drop 1
  let n := (s.gate g).park.length
  let s := s.tryPark g e
  if (s.gate g).park.length < n then
    ((after.filter fun q => q.port == e.port && q.row.isSome && p q && s.share e.port e.frame q.frame).foldl
      (fun (s : State) q => if (s.gate g).park.contains q then s.tryPark g q else s) s).retryGate g
  else s

/-- Every parked request that meets a test is retried, in the order of the table. -/
def State.retryParked (s : State) (p : ParkEnt → Bool) : State :=
  (List.range 4).foldl (fun (s : State) g => ((s.gate g).park.filter p).foldl
    (fun (s : State) e => if (s.gate g).park.contains e then s.retryPark g e fun _ => true else s) s) s

/-- A row of a transfer that reached a granary lands, or waits on (R227). -/
def State.landArrived (s : State) (cl ch xfer q : Nat) : State :=
  match s.xfer? cl ch xfer with
  | none => s
  | some x => match x.moves.find? fun (m : Move) => m.q == q with
    | none => s
    | some m =>
      if m.sent || !m.src.all Piece.ready then s else
      let put := fun (s : State) (y : Xfer) =>
        let k := s.chan cl ch
        let h := fun (z : Xfer) => if z.id = xfer then { y with moves := y.moves.filter fun (n : Move) => n.q != q } else z
        s.setChan cl ch { k with cur := k.cur.map h, tail := k.tail.map h }
      match s.landMove (s.agentOf cl ch) x m with
      | .done y s => put s y
      | .wait s => s
      | _ => s

/-- One operation that waits in a granary is tried again. -/
def State.retryArrival (s : State) (a : Arrival) : State :=
  match a with
  | .row cl ch xfer q => s.landArrived cl ch xfer q
  | .park g tag port => match (s.gate g).park.find? fun e => decide (e.port = port ∧ fTag (reqHdr e.frame) = tag ∧ e.row = none) with
    | some e => s.retryPark g e fun _ => true
    | none => s
  | .write p j addr d final => s.accumWrite p j addr d final

/-- What waits in the granaries goes on, in the order in which it arrived (R227, R260); then the channels whose rows it held, and those that wait
to read a row that has been copied (R418). -/
def State.granariesGo (s : State) : State :=
  let s := s.landHeldRows
  let as := s.arrivals
  let s := as.foldl (fun (s : State) a => s.retryArrival a) { s with arrivals := [] }
  (List.range 12).foldl (fun (s : State) p => s.resumePart p) s

/-- The hatch of a parked request. -/
def ParkEnt.hatch (e : ParkEnt) : Nat := fHatch (reqHdr e.frame)

/-! Responses at the initiator (R336, R341). -/

/-- Which responses answer which requests: 1 RDATA, 2 ACK, 3 NACK, 4 COUNT_DONE. -/
def answers (resp : Nat) (k : RKind) : Bool :=
  match resp, k with
  | 3, _ => true
  | 1, .read => true
  | 1, .count => true
  | 4, .count => true
  | 2, .write => true
  | 2, .accum => true
  | 2, .sreduce => true
  | 2, .reduce => true
  | 2, .tithe => true
  | 1, .restore => true
  | _, _ => false

/-- A response names an entry of its port of a kind that it answers. -/
def State.respOk (s : State) (port resp tag : Nat) : Bool :=
  match s.otGet (gateOf port) tag with
  | some e => e.port == port && answers resp e.kind
  | none => false

/-! Tithes and restores (R431 to R435): requests that serve no channel; `dst` is the tithe's number, or the row asked for. -/

/-- The rows of a slot that a phase writes, as row of the slot and data. -/
def TitheRun.phaseRows (t : TitheRun) : List (Nat × Row) :=
  if t.phase = 2 then (List.range 24).map fun i => (i, t.rows.getD i 0)
  else [(24, if t.phase = 1 then 0 else t.rows.getD 24 0)]

def State.tithe? (s : State) (id : Nat) : Option TitheRun := s.tithes.find? fun t => t.id == id

def State.setTithe (s : State) (t : TitheRun) : State := { s with tithes := s.tithes.map fun x => if x.id = t.id then t else x }

/-- A granule's place is free again; a winnower whose pass is over and whose tithes are all answered is DONE (R434, R289). -/
def State.settleWin (s : State) (g : Nat) : State :=
  if s.fld (.winStatus g) F.winStatusState = 4 ∧ s.tithes.all (fun t => t.g != g) then s.setFld (.winStatus g) F.winStatusState 5 else s

/-- A tithe ends; one that was refused or timed out, or found no route, is counted and not retried (R434). -/
def State.endTithe (s : State) (t : TitheRun) (failed : Bool) : State :=
  let s := { s with tithes := s.tithes.filter fun x => x.id != t.id }
  (if failed then s.count C.titheFailed t.g else s).settleWin t.g

/-- Issue what is left of a tithe's phase, as far as outstanding entries are free. -/
def State.pushTithe (s : State) (id : Nat) : Nat → State
  | 0 => s
  | k + 1 => match s.tithe? id with
    | none => s
    | some t =>
      if t.unsent = 0 then s else
      match t.phaseRows[t.phaseRows.length - t.unsent]? with
      | none => s
      | some (r, d) => match s.route t.fabric t.hatch (t.off + r) with
        | none => s.endTithe t true
        | some p => match s.request p ⟨p, .tithe, 0, 0, 0, id, 0, false⟩ fun tag =>
            ⟨requestHdr 2 tag false false t.hatch (t.off + r) t.gen t.token, d⟩ with
          | none => s
          | some s => (s.setTithe { t with unsent := t.unsent - 1 }).pushTithe id k

/-- A row of a tithe was acknowledged: the next phase follows its last (R432). -/
def State.titheAck (s : State) (id : Nat) : State :=
  match s.tithe? id with
  | none => s
  | some t =>
    if 1 < t.left then (s.setTithe { t with left := t.left - 1 }).pushTithe id 24
    else if t.phase = 3 then s.endTithe t false
    else
      let n := if t.phase = 1 then 24 else 1
      (s.setTithe { t with phase := t.phase + 1, unsent := n, left := n }).pushTithe id 24

/-- Row offset and hatch of a row of the slots (R431): slots of 25 rows, 2,684,354 slots to a hatch. -/
def slotPlace (row : Nat) : Nat × Nat := (row / 25 / 2684354, 25 * (row / 25 % 2684354) + row % 25)

/-- A restore asks for its rows, as far as outstanding entries are free; a row without a route or beyond the hatches is not read. -/
def State.pushRestore (s : State) : Nat → State
  | 0 => s
  | k + 1 => match s.restore with
    | none => s
    | some r =>
      if r.total ≤ r.next then s else
      let (h, off) := slotPlace r.next
      let skip : State := { s with restore := some { r with next := r.next + 1 } }
      match r.tithe.gens[h]?, s.route r.fabric (r.tithe.hatch + h) off with
      | some gen, some p =>
        (match s.request p ⟨p, .restore, 0, 0, 0, r.next, 0, false⟩ fun tag =>
            batchOf (requestHdr 1 tag false false (r.tithe.hatch + h) off gen r.tithe.token) with
        | none => s
        | some s => State.pushRestore { s with restore := some { r with next := r.next + 1, out := r.out + 1 } } k)
      | _, _ => skip.pushRestore k

/-- A row of a restore is answered, with data or without. -/
def State.restoreAns (s : State) (row : Nat) (d : Option Row) : State :=
  match s.restore with
  | none => s
  | some r =>
    let got := match d with
      | some d => SMap.insert r.got row d
      | none => r.got
    State.pushRestore { s with restore := some { r with out := r.out - 1, got := got } } 8192

/-- Send a reduction packet: to the place of its sender among 31 to a row (R343). One without a route is lost, and ROOT's timeout or the host follows
(R265); none while no outstanding entry is free. -/
def State.sendPacket (s : State) (x : RedOut) : Option State :=
  let (hatch, first, gen, token) := Config.reduceAt x.fabric x.part x.job x.record
  let off := first + x.place / 31
  match s.route x.fabric hatch off with
  | none => some s
  | some p => s.request p ⟨p, .reduce, 0, 0, 0, 0, 0, false⟩ fun tag =>
      ⟨requestHdr 5 tag false false hatch off gen token, BitVec.ofNat 4096 (x.pkt.toNat + x.place % 31 * 2 ^ 128)⟩

/-- Packets go out in order, as far as outstanding entries are free. -/
def State.pushPackets (s : State) : State := go s.packetsOut.length s
where
  go : Nat → State → State
    | 0, s => s
    | k + 1, s => match s.packetsOut with
      | [] => s
      | x :: rest => match s.sendPacket x with
        | some s => go k { s with packetsOut := rest }
        | none => s

/-- The row q of a transfer is no longer in flight. -/
def Xfer.drop (x : Xfer) (q : Nat) : Xfer := { x with moves := x.moves.filter fun (m : Move) => m.q != q }

/-- The row whose number a stop at row q names: of a remote COUNT the first mask row that has not been received (R244). -/
def Xfer.failRow (x : Xfer) (k : RKind) (q : Nat) : Nat := if k = .count then 4096 * (x.masks + x.got.length) / dCounted x.desc else q

/-- A row in flight can no longer be written: its request failed, or it lies behind the stop point and is assembled only in part, or its place in
a silo, which takes rows in order, cannot come (R238, R244; log 53). -/
def Xfer.lost (x : Xfer) (m : Move) : Bool :=
  x.past m.q && !m.sent && !m.src.contains .asked && (m.src.contains .todo || decide (dDkind x.desc ≠ 0))

/-- A request of row q failed: the transfer halts at the lowest row that failed; what is on its way behind it lands or is refused (R244). -/
def Xfer.failAt (x : Xfer) (q : Nat) (h : Halt) : Xfer :=
  let x := x.drop q
  let x := if x.past q then x else { x with halt := some h, next := q }
  { x with moves := x.moves.filter fun (m : Move) => !x.lost m }

/-- A source row of row q has come from a remote hatch. -/
def Xfer.arrived (x : Xfer) (q i : Nat) (d : Row) (poison : Bool) : Xfer :=
  let ms := x.moves.map fun (m : Move) => if m.q = q then { m with src := m.src.set i (.got d poison none) } else m
  { x with moves := ms.filter fun (m : Move) => !x.lost m }

/-- A NACK: a run-ahead row refused as OUT_OF_BOUNDS is a clip (R246); anything else stops the transfer (R243). -/
def State.nacked (s : State) (e : OtEnt) (code : Nat) : State :=
  match e.kind with
  | .tithe => (match s.tithe? e.dst with
    | some t => s.endTithe t true
    | none => s)
  | .restore => s.restoreAns e.dst none
  -- a packet that is refused is lost (R265)
  | .reduce => s
  | _ => match s.xfer? e.cl e.ch e.xfer with
    | none => s
    | some x =>
      let g := s.agentOf e.cl e.ch
      let clip := decide (e.kind = .read) && dAhead x.desc && code == 3
      let s := if clip && !decide (x.halt = some .clip) then s.countJob C.pfClipped g.part g.job else s
      s.modXfer e.cl e.ch e.xfer fun y => (y.drop (if e.kind = .count then 0 else e.dst)).failAt (y.failRow e.kind e.dst) (if clip then .clip else .stop 5 code 0)

/-- A request timed out: a read's row becomes POISON, any other stops its transfer (R248, R336). -/
def State.timedOut (s : State) (e : OtEnt) : State :=
  match e.kind with
  | .read => s.modXfer e.cl e.ch e.xfer fun x => { x.arrived e.dst e.sub 0 true with cause := 6 }
  | .tithe => s.nacked e 0
  | .restore => s.nacked e 0
  | .reduce => s
  | k => s.modXfer e.cl e.ch e.xfer fun x => (x.drop (if k = .count then 0 else e.dst)).failAt (x.failRow k e.dst) (.stop 6 0 0)

/-- What waits for an outstanding entry goes on: channels, tithes, a restore, reduction packets (R336). -/
def State.otRoom (s : State) : State :=
  let s := s.chans.foldl (fun (s : State) (c : Nat × Chan) => s.resumeChan (c.1 / 32) (c.1 % 32)) s
  ((s.tithes.map TitheRun.id).foldl (fun (s : State) id => s.pushTithe id 24) s).pushRestore 8192 |>.pushPackets

/-- An outstanding entry of a gate is freed. -/
def State.otFreed (s : State) (g tag : Nat) : State :=
  let full := decide (8192 ≤ (s.gate g).ot.length)
  let s := s.otFree g tag
  if full then s.otRoom else s

/-- A response arrives: it is late for an EXPIRED entry, or answers its request. -/
def State.respond (s : State) (port resp : Nat) (hdr : BitVec 96) (d : Row) : State :=
  let g := gateOf port
  let tag := fTag hdr
  match s.otGet g tag with
  | none => s
  | some e =>
    if e.expired then (s.otFreed g tag).count C.gateLateResp g
    else match resp, e.kind with
      | 1, .count =>
        let s := s.setGate g { s.gate g with ot := SMap.insert (s.gate g).ot tag (some { e with dst := e.dst + 1 }) }
        s.modXfer e.cl e.ch e.xfer fun x => { x with got := SMap.insert x.got e.dst (d, fPoison hdr) }
      | 1, .restore => (s.otFreed g tag).restoreAns e.dst (if fPoison hdr then none else some d)
      | 2, .tithe => (s.otFreed g tag).titheAck e.dst
      | 2, .reduce => s.otFreed g tag
      | 1, _ => ((s.count C.dmaRowsRead e.cl 1 e.ch).otFreed g tag).modXfer e.cl e.ch e.xfer fun x => x.arrived e.dst e.sub d (fPoison hdr)
      | 2, _ => (s.otFreed g tag).modXfer e.cl e.ch e.xfer fun x => { x.drop e.dst with rows := x.rows + 1 }
      | 3, _ =>
        let s := if port = 12 then s else s.count C.gateNackRecv port 1 (fCode hdr)
        (s.otFreed g tag).nacked e (fCode hdr)
      | _, _ => (s.otFreed g tag).modXfer e.cl e.ch e.xfer fun x => { x.drop 0 with count := fCount hdr }

/-! Frames (R326, R327, R341). -/

/-- The entries of a BATCH. -/
def batchEntries (f : Frame) : List (BitVec 96) :=
  (List.range (bits f.hdr 4 6)).map fun k => f.payload.extractLsb' (96 * k) 96

/-- The bits of a header or entry that its kind does not use (Table 15-2). -/
def unusedBits (kind : Nat) (entry : Bool) : List (Nat × Nat) :=
  match kind, entry with
  | 1, true => [(18, 2)]
  | 2, true => [(17, 79)]
  | 3, true => [(17, 3), (24, 72)]
  | 4, true => [(17, 7), (64, 32)]
  | 1, false => [(17, 1), (19, 1)]
  | 2, false => [(17, 1), (19, 1)]
  | 3, false => [(19, 1)]
  | 4, false => [(17, 3)]
  | 5, false => [(17, 3)]
  | 6, false => [(17, 1), (19, 77)]
  | _, _ => [(10, 86)]

def clean (h : BitVec 96) (l : List (Nat × Nat)) : Bool := l.all fun p => bits h p.1 p.2 == 0

/-- The responses that a frame carries, as (kind of response, header). -/
def State.responsesOk (s : State) (port : Nat) (f : Frame) : Bool :=
  match fType f.hdr with
  | 6 => s.respOk port 1 (fTag f.hdr)
  | 8 => (batchEntries f).all fun e => fType e == 1 || s.respOk port (fType e) (fTag e)
  | _ => true

/-- A frame with a good CRC is not malformed (R341). -/
def State.wellFormed (s : State) (port : Nat) (f : Frame) : Bool :=
  let t := fType f.hdr
  (decide (1 ≤ t ∧ t ≤ 6) || t == 8) && clean f.hdr (unusedBits t false)
  && (t != 8 || (decide (1 ≤ bits f.hdr 4 6 ∧ bits f.hdr 4 6 ≤ 42)
      && (batchEntries f).all fun e => decide (1 ≤ fType e ∧ fType e ≤ 4) && clean e (unusedBits (fType e) true)))
  && s.responsesOk port f

/-- The requests of a frame that has been accepted, each as its own frame. -/
def requestsOf (f : Frame) : List Frame :=
  match fType f.hdr with
  | 6 => []
  | 8 => ((batchEntries f).filter fun e => fType e == 1).map batchOf
  | _ => [f]

/-- What a well-formed frame delivers, entry by entry; requests that the full park table turns away stay in the receive buffer
under the frame's number. -/
def State.deliverOne (s : State) (port num : Nat) (f : Frame) : State :=
  match fType f.hdr with
  | 6 => s.respond port 1 f.hdr f.payload
  | 8 =>
    let e := f.payload.extractLsb' 0 96
    if fType e = 1 then put s else s.respond port (fType e) e 0
  | _ => put s
where
  put (s : State) : State :=
    if (s.port port).rxHeld.any fun q => s.share port q.2 f then hold s
    else (s.tryReq port num f).getD (hold s)
  hold (s : State) : State := s.setPort port { s.port port with rxHeld := (s.port port).rxHeld ++ [(num, f)] }

/-- A frame passes to the transaction layer. -/
def State.deliverFrame (s : State) (port num : Nat) (f : Frame) : State :=
  if !s.wellFormed port f then
    if port = 12 then s else (s.count C.gateMalformed port).linkCount port C.gateMalformed
  else
    let parts := if fType f.hdr = 8 then (batchEntries f).map batchOf else [f]
    parts.foldl (fun (s : State) q => s.deliverOne port num q) s

/-- The number of the first frame not yet passed up: on an encrypting port the first of the segment in progress (R333). -/
def Port.ackNext (x : Port) : Nat := (x.rxNext + 65536 - x.segment.length) % 65536

/-- An ACK with the credits of freed places, none while the bucket is empty (R329, R340). -/
def State.sendAck (s : State) (port : Nat) : State :=
  let x := s.port port
  let n := if x.dry then 0 else x.rxFreed
  (s.setPort port { x with unacked := 0, rxFreed := x.rxFreed - n }).sendControl port (controlHdr 1 [(8, 0), (16, x.ackNext), (16, n)])

/-- A non-control frame with a good CRC arrives; on an encrypting port its segment keeps it as it came (R328, R329, R333). -/
def State.receive (s : State) (port : Nat) (f : Frame) : State :=
  if port = 12 then s.deliverFrame 12 0 f else
  let x := s.port port
  if x.nak then s
  else if x.rxArr ≠ x.rxNext then s.setPort port { x with rxArr := (x.rxArr + 1) % 65536 }
  else
    let num := x.rxNext
    let s := s.setPort port { x with rxArr := (num + 1) % 65536, rxNext := (num + 1) % 65536, unacked := x.unacked + 1 }
    let s := s.count C.linkFramesRx port
    let s := if s.encrypts port then
        s.setPort port { s.port port with segment := (s.port port).segment ++ [f] }
      else (s.deliverFrame port num f).freePlace port num
    if 32 ≤ (s.port port).unacked then s.sendAck port else s

end Sys2Proof.Machine
end

