-- ==== Sys2Proof/Machine/Quote.lean ====
section
/-! DEFINITION. What the device signs and shows of itself: fuses, signatures, quotes with their log and chain (R381, R382, R389, R390). -/

namespace Sys2Proof.Machine

/-- The value of THERMO: the blown bits that are consecutive from bit 0 (Table 18-1). -/
def thermoOf (w : BitVec 64) : Nat := ((List.range 64).takeWhile fun i => bitAt w i).length

def State.thermo (s : State) : Nat := thermoOf s.sec.thermo

/-- THERMO bits are blown in ascending order until the thermometer equals a value (R386); a blown bit is never cleared. -/
def blowThermo (w : BitVec 64) (v : Nat) : BitVec 64 := (List.range (min v 64)).foldl (fun w i => setBit w i true) w

def State.fuseBytes (s : State) : List Byte := bytesOf 8 s.sec.revoke.toNat ++ bytesOf 8 s.sec.thermo.toNat

/-- A signature of a digest verifies under a public key; what the identity key has signed does under that key (R380, R381, R384). -/
def signedBy (key : List Byte) (digest : BitVec 512) (sig : List Byte) : Bool :=
  (decide (key = Config.identityKey) && decide (sig = bytesOf 132 (Config.sign digest).toNat)) || Config.ecdsaOk key digest sig

/-- A quote over a nonce (Table 18-7). -/
def State.quoteOf (s : State) (nonce : List Byte) : List Byte :=
  let truncated := decide (s.sec.log.length < s.sec.logCount)
  let l := nonce ++ bytesOf 64 s.sec.m.toNat ++ bytesOf 4 s.sec.log.length ++ bytesOf 4 (b2n truncated)
    ++ bytesOf 8 s.beatNo.toNat ++ bytesOf 4 s.ownFabric ++ bytesOf 4 s.shape.gen ++ bytesOf 8 s.sec.thermo.toNat
    ++ bytesOf 8 s.sec.revoke.toNat ++ bytesOf 8 Config.deviceId.toNat
  l ++ bytesOf 132 (Config.sign (Config.sha512 l)).toNat ++ bytesOf 12 0

/-- Certificates, each preceded by its 4 B length (R390). -/
def chainBytes (l : List (List Byte)) : List Byte := l.flatMap fun c => bytesOf 4 c.length ++ c

/-- A quote over a nonce with the log entries that it reflects. -/
def State.quoted (s : State) (nonce : List Byte) : List Byte := s.quoteOf nonce ++ s.sec.log.flatMap fun e => bytesOf 96 e.toNat

/-- What ATTEST_QUOTE returns for this device (R390). -/
def State.attest (s : State) (nonce : List Byte) : List Byte := s.quoted nonce ++ chainBytes s.nv.chain

end Sys2Proof.Machine
end

