-- ==== Sys2Proof/Machine/Link.lean ====
section
/-! DEFINITION. The ports: their states, the handshake, replay and credits, and the frames that arrive on them (chapter 15). -/

namespace Sys2Proof.Machine

/-! Port states (Table 15-4). -/

/-- The HELLO of a handshake round goes out (R332, R391): nonce and ephemeral key pair are drawn for it. -/
def State.hello (s : State) (p : Nat) : State :=
  let n := s.free
  let nonce := BitVec.ofNat 512 (packNat 64 ((List.range 8).map fun i => (Config.freeWord (n + i)).toNat))
  let h : Hello := ⟨BitVec.ofNat 16 s.ownFabric, nonce, Config.ecdhPublic (n + 8), s.encrypts p, s.nv.chain, s.quoted (bytesOf 64 nonce.toNat)⟩
  let s := { s with free := n + 9 }
  (s.setPort p { s.port p with hello := false, proof := false, mine := some (n + 8, h), theirs := none }).emit (.hello p h)

/-- Entry to READY: numbers, credits and segments start again (R328, R329). -/
def Port.started (x : Port) : Port :=
  { x with txNext := 0, replay := [], credits := 512, sinceCtl := 0, replays := 0, rxNext := 0, rxArr := 0, rxHeld := [], rxFreed := 0,
           unacked := 0, nak := false, rekey := false, rekeyAsk := false, segment := [], rxSeg := 0, txSegment := [], txSeg := 0,
           segTags := [], segFail := false, blocked := [] }

/-- A port leaves READY and DEGRADED (R331): its outstanding transactions end as timed out, EXPIRED entries are freed, its parked
requests are dropped without response; accepted requests that wait in a granary stay. -/
def State.dropPort (s : State) (p : Nat) : State :=
  let g := gateOf p
  let x := s.gate g
  let mine := x.ot.filterMap fun q => q.2.bind fun e => if e.port = p then some (q.1, e) else none
  let parked := x.park.filter fun e => e.port == p && e.row.isSome
  let ot := x.ot.filter fun q => q.2.elim true fun e => e.port != p
  let park := (x.park.filter fun e => !(e.port == p && e.row.isSome)).map fun e => if e.port = p then { e with num := none } else e
  let s := (s.setGate g { x with ot := ot, park := park }).syncGate g
  let gone := fun (w : RowRef × Waiter) => parked.any fun e => decide (w.2 = Waiter.park g (fTag (reqHdr e.frame)) p ∧ some w.1 = e.row)
  let s := { s with waits := s.waits.filter fun w => !gone w }
  let s := s.setPort p (s.port p).started
  let s := mine.foldl (fun (s : State) q => if q.2.expired then s else (s.count C.gateTimeouts g).timedOut q.2) s
  (if decide (8192 ≤ x.ot.length) && !mine.isEmpty then s.otRoom else s).retryGate g

/-- A port changes state: the event names port, state and reason (R331). -/
def State.enterPort (s : State) (p st reason : Nat) : State :=
  let was := s.portUp p
  let s := if st = 2 then s.setPort p { s.port p with quote := none } else s
  let s := (s.setFld (.gatePort p) F.gatePortState st).setFld (.gatePort p) F.gatePortReason reason
  let now := s.portUp p
  let s := if was && !now then s.dropPort p else s
  let s := if !was && now then s.setPort p (s.port p).started else s
  let s := s.linkEvent p
  if st = 2 then s.hello p else s

/-- A retrain, or the fourth within 60 s (Table 15-4). -/
def State.retrain (s : State) (p : Nat) (fourth : Bool) : State :=
  let s := s.count C.linkRetrain p
  if fourth then s.enterPort p 6 9 else s.enterPort p 1 0

/-- A handshake failure holds the port down (R332). -/
def State.authFail (s : State) (p reason : Nat) : State := (s.count C.linkAuthFail p).enterPort p 6 reason

/-- LINK_TRAINED (Table 15-4). -/
def execLinkTrained (port : Nat) (s : State) : Res :=
  unitOk (portOk port) <| need (decide (s.portState port = 1) && !s.shape.deadGate.contains (gateOf port)) s <|
  .next (s.enterPort port 2 0)

/-- LINK_TRAIN_TIMEOUT (Table 15-4). -/
def execLinkTrainTimeout (port : Nat) (s : State) : Res :=
  unitOk (portOk port) <| need (decide (s.portState port = 1)) s <| .next (s.enterPort port 6 1)

/-- AUTH_TIMEOUT (R332): a handshake of AUTHENTICATING or of a rekey. -/
def execAuthTimeout (port : Nat) (s : State) : Res :=
  unitOk (portOk port) <| need (decide (s.portState port = 2) || (s.port port).rekey) s <| .next (s.authFail port 6)

/-- The outcome of a window of 1 s by corrected bits and uncorrectable codewords (Table 19-2). -/
def berOutcome (bits uncorr : Nat) : Nat :=
  if bits ≤ 1700000 then (if uncorr = 0 then 4 else 5) else if bits ≤ 17000000 then 5 else 6

/-- A window ends: the counts, and the state by the thresholds. -/
def State.berWindow (s : State) (p bits words uncorr : Nat) : State :=
  let s := (s.count C.linkFecCorr p words).count C.linkFecUncorr p uncorr
  let st := berOutcome bits uncorr
  if st = s.portState p then s else s.enterPort p st (if st = 6 then 2 else 0)

/-- LINK_BER_WINDOW (R404, Table 15-4). -/
def execLinkBerWindow (port bits words uncorr : Nat) (s : State) : Res :=
  unitOk (portOk port) <| need (decide (s.portState port = 3) || s.portUp port) s <|
  .next (s.berWindow port bits words uncorr)

/-- LINK_LOCK_LOSS (R331, Table 15-4). -/
def execLinkLockLoss (port : Nat) (fourth : Bool) (s : State) : Res :=
  unitOk (portOk port) <| need (s.portUp port) s <| .next (s.retrain port fourth)

/-- LINK_RETRAIN (R328, Table 15-4): 16 consecutive replays without ACK progress. -/
def execLinkRetrain (port : Nat) (fourth : Bool) (s : State) : Res :=
  unitOk (portOk port) <| need (s.portUp port && decide (16 ≤ (s.port port).replays)) s <| .next (s.retrain port fourth)

/-! Replay (R328). -/

/-- A numbered frame goes out again, and after it its segment's tag, or IDLE after 49 frames without a control frame (R329). -/
def State.resendOne (s : State) (p : Nat) (q : Nat × Frame) : State :=
  let s := s.sendWire p q.2
  let x := s.port p
  let s := s.setPort p { x with sinceCtl := x.sinceCtl + 1 }
  match x.segTags.find? fun t => t.1 == q.1 with
  | some t => (s.sendWire p t.2).setPort p { x with sinceCtl := 0 }
  | none => if 49 ≤ x.sinceCtl + 1 then s.sendControl p (controlHdr 6 []) else s

/-- Resend numbered frames. -/
def State.resend (s : State) (p : Nat) (l : List (Nat × Frame)) : State := l.foldl (fun (s : State) q => s.resendOne p q) s

/-- REPLAY and the resend from a number: of the oldest frame, or the one a NAK names. -/
def State.replayFrom (s : State) (p n : Nat) : State :=
  let l := (s.port p).replay.dropWhile fun q => q.1 != n
  if l.isEmpty then s
  else
    let s := s.sendControl p (controlHdr 3 [(8, 0), (16, n)])
    let s := (s.count C.linkReplay p).resend p l
    s.setPort p { s.port p with replays := (s.port p).replays + 1 }

/-- REPLAY_TIMER (R328). -/
def execReplayTimer (port : Nat) (s : State) : Res :=
  unitOk (portOk port) <|
  match (s.port port).replay with
  | [] => .next s
  | q :: _ => need (s.portUp port) s <| .next (s.replayFrom port q.1)

/-- NAK with the expected number; a segment in progress is given up (R328, R333). -/
def State.sendNak (s : State) (p : Nat) : State :=
  let x := s.port p
  let n := x.ackNext
  (s.setPort p { x with nak := true, rxNext := n, segment := [] }).sendControl p (controlHdr 2 [(8, 0), (16, n)])

/-- NAK_TIMER (R328). -/
def execNakTimer (port : Nat) (s : State) : Res :=
  unitOk (portOk port) <| need (s.portUp port && (s.port port).nak) s <| .next (s.sendNak port)

/-- ACK_TIMER (R329): frames are unacknowledged, or freed places have not been returned (log 16). -/
def execAckTimer (port : Nat) (s : State) : Res :=
  unitOk (portOk port) <|
  let x := s.port port
  need (s.portUp port && (decide (0 < x.unacked) || (decide (0 < x.rxFreed) && !x.dry))) s <| .next (s.sendAck port)

/-- BAD_CRC_FRAME (R328): discarded; the first of a run sends NAK. -/
def State.badCrc (s : State) (p : Nat) : State :=
  let s := s.count C.linkCrcErr p
  if (s.port p).nak then s else s.sendNak p

/-- BAD_CRC_FRAME (R328). -/
def execBadCrcFrame (port : Nat) (s : State) : Res :=
  unitOk (portOk port) <| need (s.portUp port) s <| .next (s.badCrc port)

/-! Control frames (Table 15-3). -/

/-- A control frame's KIND and the bits its KIND does not use. -/
def cKind (h : BitVec 96) : Nat := bits h 4 4

def controlOk (h : BitVec 96) : Bool :=
  fType h == 9 &&
  match cKind h with
  | 1 => clean h [(8, 8), (48, 48)]
  | 2 => clean h [(8, 8), (32, 64)]
  | 3 => clean h [(8, 8), (32, 64)]
  | 4 => clean h [(8, 24), (64, 32)]
  | _ => clean h [(8, 88)]

/-- A malformed control frame is discarded and counted (R341). -/
def State.badControl (s : State) (p : Nat) : State := (s.count C.gateMalformed p).linkCount p C.gateMalformed

/-- The frame as its sender meant it: on an encrypting port the key stream of its place in the segment in progress is taken off. -/
def State.plain (s : State) (p : Nat) (f : Frame) : Frame :=
  let x := s.port p
  if p ≠ 12 ∧ s.encrypts p = true then cipher x.keyRx x.rxSeg x.segment.length f else f

/-- RESERVED_TYPE_FRAME (R341): malformed. A numbered frame takes its number and credit like any other; a control frame of a
reserved KIND has neither. On an encrypting port the header is what the frame decrypts to. -/
def execReservedTypeFrame (port : Nat) (hdr : BitVec 96) (s : State) : Res :=
  unitOk (portOk port) <|
  let t := fType hdr
  let ctl := t == 9 && decide (cKind hdr = 0 ∨ 7 ≤ cKind hdr)
  need (s.portUp port && (ctl || decide (t = 0 ∨ t = 7 ∨ 10 ≤ t))) s <|
  .next (if ctl then s.badControl port else s.receive port (s.plain port ⟨hdr, 0⟩))

/-- A control frame arrives: one of this row's kind takes effect, one with stray bits is malformed. -/
def control (kind port : Nat) (hdr : BitVec 96) (s : State) (k : Unit → State) : Res :=
  unitOk (portOk port) <| need (s.portUp port && fType hdr == 9 && cKind hdr == kind) s <|
  .next (if controlOk hdr then k () else s.badControl port)

/-- Frames before `n` are acknowledged when `n` lies in the window; credits return (R328, R329). -/
def State.acked (s : State) (p n credits : Nat) : State :=
  let x := s.port p
  let oldest := match x.replay with
    | q :: _ => q.1
    | [] => x.txNext
  let k := (n + 65536 - oldest) % 65536
  let x := if 0 < k ∧ k ≤ x.replay.length then
      let gone := (x.replay.take k).map Prod.fst
      { x with replay := x.replay.drop k, replays := 0, segTags := x.segTags.filter fun t => !gone.contains t.1 }
    else x
  (s.setPort p { x with credits := min (x.credits + credits) 512 }).drainPort p 65536

/-- CTL_ACK (R329). -/
def execCtlAck (port : Nat) (hdr : BitVec 96) (s : State) : Res :=
  control 1 port hdr s fun _ => s.acked port (bits hdr 16 16) (bits hdr 32 16)

/-- CTL_NAK (R328). -/
def execCtlNak (port : Nat) (hdr : BitVec 96) (s : State) : Res :=
  control 2 port hdr s fun _ => s.replayFrom port (bits hdr 16 16)

/-- The frames that follow have numbers from `n` on; a NAK stands until its own number is replayed (R328, R333). -/
def State.replayed (s : State) (p n : Nat) : State :=
  let x := s.port p
  if x.nak then (if n = x.rxNext then s.setPort p { x with nak := false, rxArr := n } else s)
  else s.setPort p { x with rxArr := n, rxNext := x.ackNext, segment := [] }

/-- CTL_REPLAY (R328). -/
def execCtlReplay (port : Nat) (hdr : BitVec 96) (s : State) : Res :=
  control 3 port hdr s fun _ => s.replayed port (bits hdr 16 16)

/-- The segment in progress passes up when its number and tag verify; else it is discarded and NAKed, and a second failure of
it holds the port down (R333). -/
def State.segTag (s : State) (p n : Nat) (gcm : BitVec 128) : State :=
  let x := s.port p
  let first := x.ackNext
  if x.nak || x.segment.isEmpty then s
  else if n = x.rxSeg % 2 ^ 32 ∧ gcm = Config.gcmTag x.keyRx x.rxSeg (x.segment.map fun f => (f.hdr, f.payload)) then
    let fs := x.segment
    let s := s.setPort p { x with segment := [], rxSeg := x.rxSeg + 1, segFail := false }
    (List.range fs.length).foldl (fun (s : State) i =>
      match fs[i]? with
      | some f => (s.deliverFrame p ((first + i) % 65536) (cipher x.keyRx x.rxSeg i f)).freePlace p ((first + i) % 65536)
      | none => s) s
  else
    let s := s.count C.linkSegTagFail p
    if x.segFail then s.enterPort p 6 8 else (s.setPort p { x with segFail := true }).sendNak p

/-- CTL_SEG_TAG (R333). -/
def execCtlSegTag (port : Nat) (hdr : BitVec 96) (gcm : BitVec 128) (s : State) : Res :=
  control 4 port hdr s fun _ => s.segTag port (bits hdr 32 32) gcm

/-- CTL_IDLE (R329): carries nothing. -/
def execCtlIdle (port : Nat) (hdr : BitVec 96) (s : State) : Res := control 6 port hdr s fun _ => s

/-! The handshake (R332, R333). -/

/-- The partner key's hash that the host gave (GATE_PKHASH). -/
def State.keyHash (s : State) (p : Nat) : BitVec 512 :=
  BitVec.ofNat 512 (packNat 64 ((List.range 8).map fun k => (s.rd (.gatePkhash p k)).toNat))

/-- This device's HELLO and its partner's, the lower fabric ID's first (R332). -/
def helloPair (mine theirs : Hello) : Hello × Hello := if mine.fabric.toNat ≤ theirs.fabric.toNat then (mine, theirs) else (theirs, mine)

/-- The digest that a PROOF signs. -/
def proofDigest (mine theirs : Hello) : BitVec 512 := let q := helloPair mine theirs; Config.helloDigest q.1 q.2

/-- The key of one direction (R332): from the lower fabric ID, or to it. -/
def pairKey (draw : Nat) (mine theirs : Hello) (fromLow : Bool) : BitVec 256 :=
  let q := helloPair mine theirs
  Config.linkKey (Config.ecdhShared draw theirs.ecdh) q.1.nonce q.2.nonce fromLow

/-- The partner's identity key: that of the last certificate of its chain. -/
def helloKey (h : Hello) : List Byte := Config.certKey (h.chain.getLast?.getD [])

/-- Both sides' messages verified: new keys; AUTHENTICATING goes on to QUALIFYING, a rekey ends and what waited goes out. -/
def State.handshakeDone (s : State) (p draw : Nat) (mine theirs : Hello) : State :=
  let x := s.port p
  let low := decide (mine.fabric.toNat ≤ theirs.fabric.toNat)
  let s := s.setPort p { x with keyRx := pairKey draw mine theirs !low, keyTx := pairKey draw mine theirs low, rxSeg := 0, txSeg := 0,
                                rekey := false, proof := true, mine := none }
  if x.rekey then s.drainPort p 65536 else s.enterPort p 3 0

/-- A HELLO is judged, and answered by a PROOF; the first listed failure gives the reason (R332). The quote is kept with the chain, as received,
unjudged (R390, R391). -/
def State.helloIn (s : State) (p : Nat) (h : Hello) : State :=
  if !Config.chainLeads Config.rootKey h.chain then s.authFail p 3
  else if Config.sha512 (helloKey h) ≠ s.keyHash p then s.authFail p 4
  else if h.fabric.toNat ≠ s.fld (.gatePort p) F.gatePortPartner ∨ h.fabric.toNat = s.ownFabric then s.authFail p 5
  else if h.encrypt ≠ s.encrypts p then s.authFail p 7
  else
    let s := s.setPort p { s.port p with hello := true, theirs := some h, quote := some (h.quote ++ chainBytes h.chain) }
    match (s.port p).mine with
    | some m => s.emit (.proof p (bytesOf 132 (Config.sign (proofDigest m.2 h)).toNat))
    | none => s

/-- A PROOF is verified under the partner's identity key (R332). -/
def State.proofIn (s : State) (p : Nat) (sig : List Byte) : State :=
  match (s.port p).mine, (s.port p).theirs with
  | some m, some h => if signedBy (helloKey h) (proofDigest m.2 h) sig then s.handshakeDone p m.1 m.2 h else s.authFail p 3
  | _, _ => s

/-- CTL_HANDSHAKE (R332): in AUTHENTICATING or during a rekey; a PROOF follows its HELLO. -/
def State.handshake (s : State) (p : Nat) (m : Handshake) : State :=
  match m with
  | .hello h => s.helloIn p h
  | .proof sig => s.proofIn p sig

def isProof : Handshake → Bool
  | .proof _ => true
  | .hello _ => false

/-- CTL_HANDSHAKE (R332). -/
def execCtlHandshake (port : Nat) (msg : Handshake) (s : State) : Res :=
  unitOk (portOk port) <|
  need ((decide (s.portState port = 2) || (s.port port).rekey) && ((s.port port).hello == isProof msg)) s <|
  .next (s.handshake port msg)

/-- A new handshake without leaving READY; the segment in progress ends, and transactions wait (R333). -/
def State.startRekey (s : State) (p : Nat) : State :=
  let s := s.closeSegment p
  (s.setPort p { s.port p with rekey := true, rekeyAsk := false }).hello p

/-- PORT_REKEY (R333): REKEY was applied as 1. -/
def execPortRekey (port : Nat) (s : State) : Res :=
  unitOk (portOk port) <| need (s.portUp port && (s.port port).rekeyAsk) s <| .next (s.startRekey port)

/-- SEGMENT_REKEY (R333): 2^32 segments were sent or received under the keys in force. -/
def execSegmentRekey (port : Nat) (s : State) : Res :=
  unitOk (portOk port) <|
  let x := s.port port
  need (s.portUp port && s.flag (.gatePort port) F.gatePortEncrypt && !x.rekey && decide (2 ^ 32 ≤ x.txSeg ∨ 2 ^ 32 ≤ x.rxSeg)) s <|
  .next (s.startRekey port)

/-! Frames (R326, R335). Port 12 is gate 0's loopback (R30). -/

/-- A frame reaches a port: one that is up, or gate 0's loopback, whose frames are those that the device has sent there, in order. -/
def State.reaches (s : State) (port : Nat) (f : Frame) : Bool :=
  if port = 12 then !s.shape.deadGate.contains 0 && decide (s.loop.head? = some f) else s.portUp port

/-- It leaves the loopback's queue. -/
def State.unloop (s : State) (port : Nat) : State := if port = 12 then { s with loop := s.loop.drop 1 } else s

/-- A frame arrives: one whose CRC does not fit its bytes is discarded (R328); loopback has no wire. -/
def State.arrive (s : State) (port : Nat) (f : Frame) (crc : BitVec 32) : State :=
  if port ≠ 12 ∧ crc ≠ crc32 f then s.badCrc port else (s.unloop port).receive port f

/-- An encrypting port cannot tell the TYPE of a frame that it discards. -/
def State.unread (s : State) (port : Nat) (f : Frame) (crc : BitVec 32) : Bool :=
  let x := s.port port
  port != 12 && s.encrypts port && (crc != crc32 f || x.nak || x.rxArr != x.rxNext)

/-- A frame of this row's TYPE arrives. -/
def frameIn (type_ port : Nat) (f : Frame) (crc : BitVec 32) (s : State) : Res :=
  unitOk (portOk port || port == 12) <|
  need (s.reaches port f && (s.unread port f crc || fType (s.plain port f).hdr == type_)) s <| .next (s.arrive port f crc)

/-- FRAME_WRITE (R335). -/
def execFrameWrite (port : Nat) (f : RxFrame) (s : State) : Res := frameIn 1 port f.frame f.crc s

/-- FRAME_WRITE_OW (R335). -/
def execFrameWriteOw (port : Nat) (f : RxFrame) (s : State) : Res := frameIn 2 port f.frame f.crc s

/-- FRAME_ACCUM (R335). -/
def execFrameAccum (port : Nat) (f : RxFrame) (s : State) : Res := frameIn 3 port f.frame f.crc s

/-- FRAME_COUNT_REQ (R342). -/
def execFrameCountReq (port : Nat) (f : RxFrame) (s : State) : Res := frameIn 4 port f.frame f.crc s

/-- FRAME_SREDUCE (R343). -/
def execFrameSreduce (port : Nat) (f : RxFrame) (s : State) : Res := frameIn 5 port f.frame f.crc s

/-- FRAME_RDATA (R327, R341). -/
def execFrameRdata (port : Nat) (f : RxFrame) (s : State) : Res := frameIn 6 port f.frame f.crc s

/-- FRAME_BATCH (R327). -/
def execFrameBatch (port : Nat) (f : RxFrame) (s : State) : Res := frameIn 8 port f.frame f.crc s

/-! Timeouts of remote requests (R336). -/

/-- An outstanding request with no response expires. -/
def State.remoteTimeout (s : State) (g tag : Nat) (e : OtEnt) : State :=
  let x := s.gate g
  let s := s.setGate g { x with ot := SMap.insert x.ot tag (some { e with expired := true }) }
  (s.count C.gateTimeouts g).timedOut e

/-- REMOTE_TIMEOUT (R336). -/
def execRemoteTimeout (gate tag : Nat) (s : State) : Res :=
  unitOk (gateOk gate) <|
  match s.otGet gate tag with
  | none => .next s
  | some e => need (!e.expired) s <| .next (s.remoteTimeout gate tag e)

end Sys2Proof.Machine
end

