-- ==== Sys2Proof/Machine/Apply.lean ====
section
/-! DEFINITION. Shadowed configuration: writes by access type (R5, R29, R31), arming (R51 to R53), each block's consistency rules,
and what an apply does beside moving the shadow (R52, R54). -/

namespace Sys2Proof.Machine

/-! Arming. -/

/-- APPLY (Table 2-6): 0 IDLE, 1 ARMED, 2 APPLIED, 3 REFUSED_INCONSISTENT, 4 DISARMED. -/
def State.setApply (s : State) (b : Blk) (st rule : Nat) (stamp : Bool) : State :=
  let r := Reg.apply b
  let s := (s.setFld r F.applyState st).setFld r F.applyRule rule
  if stamp then s.setFld r F.applyAtBeat s.beat32 else s

def State.armed (s : State) (b : Blk) : Bool := s.flag (.arm b) F.armArm

/-- A late ARM arms the block for the tick after (R52). -/
def State.armBlk (s : State) (b : Blk) (late : Bool) : State :=
  if s.armed b then s else
  let s := (s.setFld (.arm b) F.armArm 1).setApply b 1 0 false
  if late then { s with late := s.late ++ [b] } else s

def State.unarm (s : State) (b : Blk) : State := { s.setFld (.arm b) F.armArm 0 with late := s.late.filter fun x => !decide (x = b) }

/-- An armed request is cancelled (R51, R53). -/
def State.disarm (s : State) (b : Blk) : State := if s.armed b then (s.unarm b).setApply b 4 0 false else s

/-! Register writes (R5, R6). -/

/-- One field of a write to the word in force. The actions of WO fields and of W1S fields with a row of their own are those
rows'. -/
def writeField (w v : Word) (f : Fld) : Word :=
  match f.acc with
  | .rw => setBits w f.lo f.len (bits v f.lo f.len)
  | .rwi => setBits w f.lo f.len (bits v f.lo f.len)
  | .w1c => w &&& ~~~(fieldMask 64 f.lo f.len &&& v)
  | .w1s => w ||| (fieldMask 64 f.lo f.len &&& v)
  | _ => w

def shadowField (w v : Word) (f : Fld) : Word :=
  match f.acc with
  | .rws => setBits w f.lo f.len (bits v f.lo f.len)
  | _ => w

def Reg.hasShadow (r : Reg) : Bool := r.fields.any fun f => decide (f.acc = .rws)

/-- A winnower's command in a state of WIN_STATUS names a record. -/
def State.winNamesIn (s : State) (sts : List Nat) (g i : Nat) : Bool :=
  let w := s.rd (.winCmd g 0)
  sts.contains (s.fld (.winStatus g) F.winStatusState) && decide (bits w 8 12 ≤ i ∧ i < bits w 8 12 + bits w 20 13)

/-- A command in CHECKING or RUNNING names a record: writes of its state entry are ignored (R292). -/
def State.winHolds (s : State) (i : Nat) : Bool := (List.range 24).any fun g => s.winNamesIn [1, 4] g i

/-- A write takes each field by its access type; a shadow write disarms an armed block (R53). -/
def State.regWrite (s : State) (r : Reg) (v : Word) : State :=
  if (match r with
    | .winState _ n _ => s.winHolds n
    | _ => false) then s else
  let s := s.wr r (r.fields.foldl (fun w f => writeField w v f) (s.rd r))
  if r.hasShadow then
    let s := s.wrS r (r.fields.foldl (fun w f => shadowField w v f) (s.rdS r))
    match r.block with
    | some b => s.disarm b
    | none => s
  else s

/-- A write of TOUCH or SEED marks what it wrote since the last apply (R34, R75). -/
def State.markWrite (s : State) (r : Reg) : State :=
  match r with
  | .beatNumberSet => { s with beat := { s.beat with setPending := true } }
  | .coRngSeed c => s.setCore c { s.core c with seedNew := true }
  | _ => s

/-- What a control core's read of a register returns (R5): of fields with a shadow the value last written there, of fields that are only
written 0. -/
def State.regRead (s : State) (r : Reg) : Word :=
  r.fields.foldl (fun (w : Word) (f : Fld) => match f.acc with
    | .rws => setBits w f.lo f.len (bits (s.rdS r) f.lo f.len)
    | .wo => w
    | _ => setBits w f.lo f.len (bits (s.rd r) f.lo f.len)) 0

/-- Whether an agent may reach a register's unit (R29): a management core all; others their own site; a cluster's control core
its cluster and cores; the fallow cores only die and management control cores. -/
def agentReaches (agent addr : Nat) : Bool :=
  let site := regSite addr; let i := regIndex addr; let u := regUnit addr; let k := regCore addr
  if isMgmt agent then true
  else if 0x200 ≤ agent ∧ agent < 0x224 then site == 0 && i == agent - 0x200
  else if 0x400 ≤ agent ∧ agent < 0x520 then site == 0 && u != 0 && 8 * i + (u - 1) == agent - 0x400 && k != 14
  else if 0x600 ≤ agent ∧ agent < 0x618 then site == 1 && i == agent - 0x600
  else if 0x700 ≤ agent ∧ agent < 0x704 then site == 2 && i == agent - 0x700
  else false

/-- The unit of a register address is in service: no hole, no fenced granary or gate (R31). DESIGN CHOICE (log 29): CORE 0xE of a cluster that
has no fallow core left names its registers all the same. -/
def State.unitUp (s : State) (addr : Nat) : Bool :=
  let i := regIndex addr; let u := regUnit addr; let k := regCore addr
  match regSite addr with
  | 0 => !s.dieHole i && (u == 0 || !s.clusterHole (8 * i + (u - 1))) && (!decide (k < 8) || u == 0 || !s.coreHole (64 * i + 8 * (u - 1) + k))
  | 1 => !s.shape.deadGran.contains i
  | 2 => !s.shape.deadGate.contains i
  | _ => true

/-- The register that an access of an agent names, or none for an address fault (R29, R31). A slot that no register occupies is one that R29
permits to no one (DESIGN CHOICE, log 81). -/
def State.reach (s : State) (agent addr : Nat) : Option Reg :=
  match Reg.ofAddr addr with
  | some r => if agentReaches agent addr && s.unitUp addr then some r else none
  | none => none

/-- The unit lies in a partition that is in reset: its network interfaces accept nothing (R22). -/
def State.inReset (s : State) (addr : Nat) : Bool :=
  decide (regSite addr = 0) && (match s.partOfDie (regIndex addr) with
    | some p => s.resetting p
    | none => false)

/-- The answer TARGET_RESETTING to a control core (R22). -/
def State.resetAnswer (s : State) (agent : Nat) : State := s.emit (.access agent 2 0 0)

/-- An address fault of a control core: a bus error and a fault event (R31). -/
def State.busError (s : State) (agent addr : Nat) : State := (s.fault agent 0x01 0 0 addr).emit (.access agent 1 0 0)

/-- The agents that stamp accesses (Table 1-7). -/
def controlAgent (a : Nat) : Bool :=
  isMgmt a || decide ((0x200 ≤ a ∧ a < 0x224) ∨ (0x400 ≤ a ∧ a < 0x520) ∨ (0x600 ≤ a ∧ a < 0x618) ∨ (0x700 ≤ a ∧ a < 0x704))

/-- What an agent may write of a mailbox block's registers beside DATA and the locks (R363): the value written, or none where the rights
are broken. A write of MBX_INTEN that would change a bit of the other side's breaks them (DEDUCED, log 79). -/
def State.mbxRegValue (s : State) (agent : Nat) (r : Reg) (v : Word) : Option Word :=
  match r with
  | .mbxInten b =>
    let w := s.rd r
    if (mbxInner b agent && bits v 32 32 == bits w 32 32) || (mbxOuter b agent && bits v 0 32 == bits w 0 32) then some v else none
  | .mbxTimeout b => if mbxInner b agent then some v else none
  | .mbxToutLog b => if mbxInner b agent then some v else none
  | .mbxSender _ _ => none
  | .mbxStatus _ => none
  | .mbxWait _ => none
  | _ => some v

/-- A write by a control core, answered. -/
def State.agentWrite (s : State) (agent addr : Nat) (v : Word) : State :=
  match s.reach agent addr with
  | none => s.busError agent addr
  | some r =>
    if s.inReset addr then s.resetAnswer agent
    else match s.mbxRegValue agent r v with
      | none => s.busError agent addr
      | some v => ((s.regWrite r v).markWrite r).emit (.access agent 0 0 0)

/-! Candidates of an apply (R52). -/

/-- The listed registers of a block with RW-S fields. -/
def State.blkRegs (s : State) (b : Blk) : List Reg :=
  (dedup ((s.regs.map Prod.fst) ++ s.shadow.map Prod.fst)).filterMap fun k =>
    (Reg.ofAddr k).filter fun r => decide (r.block = some b)

/-- The word a register would have: its RW-S fields from the shadow, its other fields as in force. -/
def State.merged (s : State) (r : Reg) : Word := r.fields.foldl (fun w f => shadowField w (s.rdS r) f) (s.rd r)

/-- The state with a block's sampled values in force. -/
def State.withShadow (s : State) (b : Blk) : State := (s.blkRegs b).foldl (fun (n : State) r => n.wr r (s.merged r)) s

/-- The shadow of a block back at the values in force. -/
def State.revert (s : State) (b : Blk) : State :=
  (s.blkRegs b).foldl (fun (n : State) r => n.wrS r (r.fields.foldl (fun w f => shadowField w (s.rd r) f) (s.rdS r))) s

/-! Consistency rules: each list holds whether the rule of that number fails, for the state `s` before and `n` with the sampled
values. -/

/-- Entries of a table whose words are listed. -/
def State.listedOf (s : State) (f : Reg → Option Nat) : List Nat :=
  dedup (((s.regs.map Prod.fst) ++ s.shadow.map Prod.fst).filterMap fun k => (Reg.ofAddr k).bind f)

def ttNo (g : Nat) : Reg → Option Nat
  | .ttEntry h n _ => if h = g then some n else none
  | _ => none

def hatchNo (g : Nat) : Reg → Option Nat
  | .hatchEntry h n _ => if h = g then some n else none
  | _ => none

def layerNo (g : Nat) : Reg → Option Nat
  | .layer h n _ => if h = g then some n else none
  | _ => none

/-- Rows that a loft placement takes in its cluster number q: chunks go round the clusters, and the last one may be short. -/
def Tt.rowsAt (e : Tt) (q : Nat) : Nat :=
  let c := 2 ^ e.chunkLog2
  let n := max e.clCount 1
  let all := (e.rows + c - 1) / c
  let m := (all + n - 1 - q) / n
  if m = 0 then 0 else if (m - 1) * n + q + 1 = all then e.rows - (all - m) * c else m * c

/-- Whether a run of loft rows lies in a job's quota in a cluster of a partition. -/
def State.loftHolds (s : State) (p j cl base n : Nat) : Bool :=
  decide (s.partOfCluster cl = some p) && !s.clusterHole cl
    && (n == 0 || decide (s.loftBase cl j ≤ base ∧ base + n ≤ s.loftBase cl j + s.loftRows cl j))

/-- Some mapped page of a range of partition rows belongs to another job. -/
def State.foreignPage (s : State) (p j base rows : Nat) : Bool :=
  let lo := pageKey p (base / 4096)
  let hi := pageKey p ((base + rows + 4095) / 4096)
  s.pageList.any fun q => decide (lo ≤ q.1 ∧ q.1 < hi) && pgState q.2 != 0 && pgJob q.2 != j

/-- TT of a granary (R219). -/
def ttRules (s n : State) (g : Nat) : List Bool :=
  let all := s.listedOf (ttNo g)
  let on := all.filter fun i => (n.ttAt g i).valid
  let each := fun (f : Nat → Tt → Bool) => on.any fun i => f i (n.ttAt g i)
  [ each fun i e =>
      let x := n.ttEffAt g i
      decide (2 ^ 45 < x.base + 512 * x.rows) || (!e.view && n.foreignPage e.part e.job (x.base / 512) x.rows)
      || (e.clCount != 0 && (decide (288 < e.clFirst + e.clCount)
        || !(e.clusters.all fun cl => n.loftHolds e.part e.job cl e.loftBase (({ e with rows := x.rows } : Tt).rowsAt (cl - e.clFirst))))),
    each fun i e =>
      let c := (n.ttEffAt g i).cls
      let same := (s.ttEffAt g i).cls == c
      (c != 0 && same && (e.res == 1 || e.res == 2)) || (c == 1 && e.clCount != 0),
    each fun _ e => (e.fallback == 3 && !e.optional)
      || (e.fallback == 1 && (let t := n.ttEffAt g e.fbTensor
          !(t.valid && t.part == e.part && t.job == e.job && t.cls == 0 && t.res == 2)))
      || decide (4 ≤ e.fallback),
    all.any fun i => let o := s.ttAt g i; let e := n.ttAt g i
      o.pins != 0 && (o.cls != e.cls || o.base != e.base || o.rows != e.rows),
    each fun i e => e.accum && ((n.ttEffAt g i).cls != 2
      || decide (4608 * 2 ^ 30 < (on.filter fun k => (n.ttAt g k).accum && (n.ttAt g k).part == e.part && (n.ttAt g k).job == e.job).foldl
          (fun a k => a + 512 * (n.ttAt g k).rows) 0)),
    each fun _ e => e.view && !((n.ttAt g e.source).valid && (n.ttEffAt g e.source).cls == 0) ]

/-- HATCH of a gate (R346). -/
def hatchRules (s n : State) (g : Nat) : List Bool :=
  let all := s.listedOf (hatchNo g)
  let each := fun (f : Hatch → Bool) => all.any fun i => (n.hatchAt g i).state == 1 && f (n.hatchAt g i)
  [ each fun h => decide (2 < space h.base) || h.base % 512 != 0,
    each fun h => !n.partEn h.part || decide ((n.job h.part h.job).stat = .free),
    each fun h =>
      let first := n.hatchRow (3 * g) h 0
      match first with
      | .row (.loft cl r) => !n.loftHolds h.part h.job cl r h.rows
      | .row (.near c r) => n.coreHole c || !decide (n.partOfCore c = some h.part) || decide (8192 < r + h.rows)
          || decide (r < n.nearBase (c / 8) h.job ∨ n.nearBase (c / 8) h.job + n.nearRows (c / 8) h.job < r + h.rows)
      | .bad => decide (space h.base = 1 ∨ space h.base = 2)
      | .lp _ _ => false,
    each fun h => !(h.permW || h.permR || h.permC) || decide (8 < h.npeer) || (h.npeer == 0 && !h.any),
    all.any fun i => let o := s.hatchAt g i; let e := n.hatchAt g i
      o.state != 0 && ((o.state == 2 && e.state == 1) || !decide ({ e with state := o.state } = o)) ]

/-- GATE (R345), over the gate's own ports; rule 3 over all twelve. -/
def gateRules (s n : State) (g : Nat) : List Bool :=
  let ps := [3 * g, 3 * g + 1, 3 * g + 2]
  let en := fun p => n.flag (.gatePort p) F.gatePortEn
  let fab := n.fld (.gateCfg g) F.gateCfgFabricId
  [ (fab == 0xFFFF && ps.any en) || decide (n.fld (.gateCfg g) F.gateCfgTimeoutUs < 10),
    ps.any fun p => en p && (n.partner p == 0xFFFF || n.partner p == fab),
    fab != s.fld (.gateCfg g) F.gateCfgFabricId && (List.range 12).any fun p => s.portState p != 0,
    ps.any fun p => s.portState p != 0 && (n.flag (.gatePort p) F.gatePortEncrypt != s.flag (.gatePort p) F.gatePortEncrypt
      || n.partner p != s.partner p || (List.range 8).any fun k => n.rd (.gatePkhash p k) != s.rd (.gatePkhash p k)) ]

/-- The silos of a SILO block. -/
def siloBlk (b : Blk) : List SiloRef :=
  match b with
  | .silo c => (List.range 64).map fun i => SiloRef.near c i
  | .loftSilo cl => (List.range 256).map fun i => SiloRef.loft cl i
  | _ => []

def siloLimit : SiloRef → Nat
  | .near _ _ => 8192
  | .loft _ _ => 1048576

def State.siloInQuota (s : State) (x : SiloRef) (y : Silo) : Bool :=
  match x with
  | .near c _ => decide (s.nearBase (c / 8) y.job ≤ y.base ∧ y.base + y.size ≤ s.nearBase (c / 8) y.job + s.nearRows (c / 8) y.job)
  | .loft cl _ => decide (s.loftBase cl y.job ≤ y.base ∧ y.base + y.size ≤ s.loftBase cl y.job + s.loftRows cl y.job)

/-- A silo's configuration changes. -/
def State.siloChanged (s n : State) (x : SiloRef) : Bool := bits (s.rd (siloCfgReg x)) 0 51 != bits (n.rd (siloCfgReg x)) 0 51

/-- SILO (R204). -/
def siloRules (s n : State) (b : Blk) : List Bool :=
  let xs := siloBlk b
  let on := xs.filter fun x => (n.silo x).en
  [ on.any fun x => (n.silo x).size == 0 || decide (siloLimit x < (n.silo x).size),
    on.any fun x => !n.siloInQuota x (n.silo x),
    on.any fun x => on.any fun z => !decide (x = z) && decide ((n.silo x).base < (n.silo z).base + (n.silo z).size
      ∧ (n.silo z).base < (n.silo x).base + (n.silo x).size),
    xs.any fun x => s.siloChanged n x && ((s.silo x).head != (s.silo x).tail || (s.silo x).headP != (s.silo x).head
      || (s.silo x).tailP != (s.silo x).tail) ]

/-- Job j holds something in a cluster: a task, or an enabled silo (R205). -/
def State.jobUses (s : State) (cl j : Nat) : Bool :=
  s.tasks.any (fun t => t.cl == cl && t.job == j)
    || (siloBlk (.loftSilo cl) ++ (List.range 8).flatMap fun i => siloBlk (.silo (8 * cl + i))).any fun x =>
        (s.silo x).en && (s.silo x).job == j

/-- CL (R205). -/
def clRules (s n : State) (cl : Nat) : List Bool :=
  let js := List.range 16
  let clash := fun (b r : Nat → Nat) => js.any fun i => js.any fun j => decide (i < j ∧ 0 < r i ∧ 0 < r j ∧ b i < b j + r j ∧ b j < b i + r i)
  [ js.any fun j => decide (8192 < n.nearBase cl j + n.nearRows cl j ∨ 1048576 < n.loftBase cl j + n.loftRows cl j),
    clash (n.nearBase cl) (n.nearRows cl) || clash (n.loftBase cl) (n.loftRows cl),
    js.any fun j => s.jobUses cl j && (s.nearBase cl j != n.nearBase cl j || s.nearRows cl j != n.nearRows cl j
      || s.loftBase cl j != n.loftBase cl j || s.loftRows cl j != n.loftRows cl j),
    decide (6 < n.fld (.clScrub cl) F.clScrubLoftLog2) ]

/-- DMA (R250). -/
def dmaRules (s n : State) (cl : Nat) : List Bool :=
  let chs := List.range 32
  let mode := fun ch => n.fld (.dmaChcfg cl ch) F.dmaChcfgMode
  let job := fun ch => n.fld (.dmaChcfg cl ch) F.dmaChcfgJob
  [ chs.any fun ch =>
      let k := n.fld (.dmaRing cl ch) F.dmaRingRingLog2
      let b := n.fld (.dmaRing cl ch) F.dmaRingRingBase
      mode ch == 2 && (decide (k < 4 ∨ 16 < k) || decide (b < n.loftBase cl (job ch)
        ∨ n.loftBase cl (job ch) + n.loftRows cl (job ch) < b + 2 ^ k / 4)),
    chs.any fun ch =>
      let y := n.silo (n.csSilo cl ch)
      (mode ch == 1 || mode ch == 2) && (!y.en || !y.prodDma || y.job != job ch),
    chs.any fun ch =>
      (n.rd (.dmaChcfg cl ch) != s.rd (.dmaChcfg cl ch) || n.rd (.dmaRing cl ch) != s.rd (.dmaRing cl ch))
        && (s.chState cl ch != 0 || !(s.chan cl ch).queue.isEmpty || s.ringGap cl ch != 0) ]

/-- Bytes of FP32 registers and record fields. -/
def f32Of (w : Word) (lo : Nat) : Num := Num.of32 (w.extractLsb' lo 32)

/-- CO (R76, R181). -/
def coRules (n : State) (c : Nat) : List Bool :=
  let on := (List.range 4).filter fun k => n.fld (.coGaShape c k) F.coGaShapeEntries != 0
  [ decide (2 ≤ n.fld (.coArith c) F.coArithRngMode),
    on.any fun k => decide (1 < bits (n.rd (.coGaBase c k)) 52 4),
    on.any fun k => bits (n.rd (.coGaBase c k)) 0 9 != 0,
    on.any fun k => n.fld (.coGaShape c k) F.coGaShapeStride == 0 ]

/-- Whether the rows of a layer record's tensors suffice, and the other rules of R291. -/
structure Layer where
  valid : Bool
  job : Nat
  lazy_ : Bool
  pub : Bool
  srW : Bool
  srM : Bool
  width : Nat
  n : Nat
  w : Nat
  g : Nat
  m : Nat
  ms : Nat
  p0 : Nat
  p1 : Nat
  trow : Nat
  touch : Nat
  wd : F32
  smin : F32
  smax : F32
  deriving DecidableEq, Repr

/-- A record of a granary's replica. -/
def State.layerAt (s : State) (g i : Nat) : Layer :=
  let a := s.rd (.layer g i 0); let b := s.rd (.layer g i 1); let c := s.rd (.layer g i 2); let d := s.rd (.layer g i 3)
  let e := s.rd (.layer g i 4)
  { valid := bitAt a 0, job := bits a 1 4, lazy_ := bitAt a 5, pub := bitAt a 6, srW := bitAt a 7, srM := bitAt a 8,
    width := bits a 16 8 + 1, n := bits a 24 40, w := bits b 0 15, g := bits b 15 15, m := bits b 30 15, ms := bits b 45 15,
    p0 := bits c 0 15, p1 := bits c 15 15, trow := bits c 30 15, touch := bits c 45 15, wd := d.extractLsb' 0 32,
    smin := d.extractLsb' 32 32, smax := e.extractLsb' 0 32 }

def State.layer (s : State) (i : Nat) : Layer := s.layerAt s.homeGran i

/-- Tensor fields a record uses. -/
def Layer.tensors (r : Layer) : List Nat :=
  [r.w, r.g, r.m, r.ms] ++ (if r.pub then [r.p0, r.p1] else []) ++ (if r.lazy_ then [r.trow, r.touch] else [])

/-- Rows a lazy record has (R282). -/
def Layer.lazyRows (r : Layer) : Nat := r.n / (128 * r.width)

/-- WIN of a granary (R291). -/
def winRules (s n : State) (g : Nat) : List Bool :=
  let all := s.listedOf (layerNo g)
  let each := fun (f : Layer → Bool) => all.any fun i => (n.layerAt g i).valid && f (n.layerAt g i)
  let tt := fun t => n.ttAt g t
  let rows := fun t => (tt t).rows
  [ each fun r => r.tensors.any fun t => !(tt t).valid || (tt t).job != r.job || (tt t).part != (tt r.w).part,
    each fun r => r.n == 0 || r.n % 4096 != 0 || decide (rows r.w < 2 * r.n / 512 ∨ rows r.g < 2 * r.n / 512 ∨ rows r.m < r.n / 512
      ∨ rows r.ms < (r.n / 4096 + 511) / 512),
    each fun r => (tt r.w).base % 8192 != 0 || (tt r.g).base % 8192 != 0 || (tt r.m).base % 4096 != 0,
    each fun r => r.pub && (decide (rows r.p0 < r.n / 1024 + (r.n + 16383) / 16384 ∨ rows r.p1 < r.n / 1024 + (r.n + 16383) / 16384)
      || r.p0 == r.p1),
    each fun r => r.lazy_ && (r.n % (128 * r.width) != 0 || decide (rows r.trow < (r.lazyRows + 127) / 128)
      || decide (rows r.touch < (r.lazyRows + 4095) / 4096) || r.g == r.touch || r.pub),
    each fun r =>
      let lo := Num.of32 r.smin; let hi := Num.of32 r.smax; let wd := Num.of32 r.wd
      !Num.lt .zero lo || !Num.lt .zero hi || Num.lt hi lo || wd.isNan || Num.lt wd .zero,
    all.any fun i => s.winNamesIn [1, 2, 4] g i && !decide (s.layerAt g i = n.layerAt g i) ]

/-- The share of a partition overlaps another's (R304). -/
def State.shareSpan (s : State) (p : Nat) : Nat × Nat := (s.fld (.seqShare p) F.seqShareFirst, s.fld (.seqShare p) F.seqShareCount)

def State.shareEn (s : State) (p : Nat) : Bool := s.flag (.seqShare p) F.seqShareEn

/-- The state of a sequence entry (word 0, bits 2 to 0). -/
def State.seqState (s : State) (slot : Nat) : Nat := bits (s.rd (.seqEntry slot 0)) 0 3

/-- Entries of a share that are not FREE. -/
def State.seqLive (s : State) (p : Nat) : List Nat :=
  (s.listedOf fun r => match r with
    | .seqEntry n _ => some n
    | _ => none).filter fun i => decide ((s.shareSpan p).1 ≤ i ∧ i < (s.shareSpan p).1 + (s.shareSpan p).2) && s.seqState i != 0

/-- SEQ (R304). -/
def seqRules (s n : State) : List Bool :=
  let ps := (List.range 12).filter fun p => n.shareEn p
  let job := fun p => n.fld (.seqShare p) F.seqShareJob
  let clF := fun p => n.fld (.seqPool p) F.seqPoolClFirst
  let clN := fun p => n.fld (.seqPool p) F.seqPoolClCount
  let base := fun p => n.fld (.seqPool p) F.seqPoolLoftBase
  let pages := fun p => n.fld (.seqSet p) F.seqSetSetPages
  let sets := fun p => n.fld (.seqPool p) F.seqPoolSets
  let spill := fun p => n.fld (.seqSet p) F.seqSetSpillSets
  let frame := fun p => n.rd (.seqShare p) != s.rd (.seqShare p) || n.rd (.seqPool p) != s.rd (.seqPool p)
    || n.rd (.seqSet p) != s.rd (.seqSet p) || n.rd (.seqRows p) != s.rd (.seqRows p)
    || n.fld (.seqStep p) F.seqStepMaxRun != s.fld (.seqStep p) F.seqStepMaxRun
    || n.fld (.seqStep p) F.seqStepSpecK != s.fld (.seqStep p) F.seqStepSpecK
    || n.fld (.seqStep p) F.seqStepView != s.fld (.seqStep p) F.seqStepView
  let cls := fun p => (List.range (clN p)).map fun i => clF p + i
  let rowsIn := fun p cl at_ k => n.loftHolds p (job p) cl at_ k
  let plan := fun p => n.fld (.seqRows p) F.seqRowsPlanBase
  [ ps.any fun p =>
      let a := n.shareSpan p
      decide (16384 < a.1 + a.2) || decide (a.2 < n.fld (.seqStep p) F.seqStepMaxRun)
        || ps.any fun q => q != p && (let b := n.shareSpan q; decide (a.1 < b.1 + b.2 ∧ b.1 < a.1 + a.2)),
    ps.any fun p => clN p == 0 || pages p % clN p != 0 || base p % 128 != 0 || decide (288 < clF p + clN p)
      || !((cls p).all fun cl => rowsIn p cl (base p) (sets p * (pages p / clN p) * 128)
        -- a map for every slot; the plan in every cluster of the pool, the results in its first (R297, R300, R301)
        && rowsIn p cl (n.fld (.seqRows p) F.seqRowsMapBase) ((n.shareSpan p).2 * n.fld (.seqRows p) F.seqRowsMapRows) && rowsIn p cl (plan p) 513)
      || !rowsIn p (clF p) (plan p) 769,
    ps.any fun p => spill p != 0 &&
      (let e := n.tt (n.fld (.seqSet p) F.seqSetSpillTensor)
       !(e.valid && e.part == p && e.job == job p && e.cls == 1) || decide (e.rows < spill p * pages p * 128)),
    ps.any fun p => decide (n.fld (.seqStep p) F.seqStepTokenBudget
      < n.fld (.seqStep p) F.seqStepMaxRun * (1 + n.fld (.seqStep p) F.seqStepSpecK) + 128),
    (List.range 12).any fun p => frame p && !(s.seqLive p).isEmpty,
    ps.any fun p =>
      let e := n.tt (n.fld (.seqStep p) F.seqStepView)
      !(e.valid && e.part == p && e.job == job p && (e.view || e.cls == 0)) ]

/-- The sources of an analogue bus (Table 22-6). -/
def atbSource (site src : Nat) : Bool :=
  decide (src = 0x1C ∨ src = 0x1D) ||
  match site with
  | 0 => decide (src ≤ 0x1B)
  | 1 => decide (src ≤ 0x0A)
  | 2 => decide (src ≤ 0x06)
  | _ => decide (src ≤ 0x03)

/-- ATB (R454). -/
def atbRules (n : State) : List Bool :=
  let on := [0, 1].filter fun k => n.flag (.atbSel k) F.atbSelEn
  let site := fun k => n.fld (.atbSel k) F.atbSelSite
  let idx := fun k => n.fld (.atbSel k) F.atbSelIndex
  [ on.any fun k => !atbSource (site k) (n.fld (.atbSel k) F.atbSelSource)
      || !decide ((site k = 0 ∧ idx k < 36) ∨ (site k = 1 ∧ idx k < 24) ∨ (site k = 2 ∧ idx k < 4) ∨ (site k = 3 ∧ idx k = 0))
      || (site k == 0 && n.dieHole (idx k)) || (site k == 1 && n.shape.deadGran.contains (idx k))
      || (site k == 2 && n.shape.deadGate.contains (idx k)),
    on.length == 2 && site 0 == site 1 && idx 0 == idx 1
      && n.fld (.atbSel 0) F.atbSelSource == n.fld (.atbSel 1) F.atbSelSource ]

/-- MGT (R308). -/
def mgtRules (s n : State) : List Bool :=
  let ps := (List.range 12).filter fun p => n.partEn p
  let g := fun (p : Nat) (f : Fld) => n.fld (.mgtPart p) f
  let holds := fun p => (List.range 36).filter fun d => n.dieIn p d
  [ ps.any fun p => decide (g p F.mgtPartRows = 0 ∨ g p F.mgtPartCols = 0 ∨ 6 < g p F.mgtPartRow0 + g p F.mgtPartRows
      ∨ 6 < g p F.mgtPartCol0 + g p F.mgtPartCols) || (holds p).all fun d => n.dieHole d,
    ps.any fun p => ps.any fun q => decide (p < q) && (holds p).any fun d => n.dieIn q d,
    (List.range 12).any fun p => bits (n.rd (.mgtPart p)) 0 17 != bits (s.rd (.mgtPart p)) 0 17
      && (s.fld (.mgtPart p) F.mgtPartJobs != 0 || s.resetting p) ]

/-- A core is free of partitions within a test window that has started on its die (R103). -/
def State.inWindow (s : State) (c : Nat) : Bool :=
  match s.window_ with
  | some w => w.started.isSome && bitAt w.mask (c / 64)
  | none => false

/-- The rules of a block, in the order of its list (R39, R76, R103, R125, R149, R181, R204, R205, R219, R230, R250, R291, R304, R308,
R315, R323, R345, R346, R454). -/
def blkRules (s n : State) (b : Blk) : List Bool :=
  match b with
  | .beat =>
    let k := n.fld .beatLen F.beatLenLog2
    [ decide (k < 11 ∨ 16 < k), n.fld .beatCtrl F.beatCtrlCarryLimit == 0, n.fld .beatSync F.beatSyncMode == 3,
      n.fld .beatSync F.beatSyncMode == 2 && decide (2 ^ k / 2 ≤ n.fld .beatSync F.beatSyncInDelay) ]
  | .co c => coRules n c
  | .me e => [ decide (n.fld (.meCfg e) F.meCfgTolRelExp < 6 ∨ 24 < n.fld (.meCfg e) F.meCfgTolRelExp),
      !n.flag (.meCfg e) F.meCfgTallyEn && decide (e / 2 < 2304) && (n.partOfCore (e / 2)).isSome && !n.inWindow (e / 2) ]
  | .vu _ => []
  | .mvp c => [ decide (n.fld (.mvpCfg c) F.mvpCfgReadAhead < 3 ∨ 6 < n.fld (.mvpCfg c) F.mvpCfgReadAhead),
      (f32Of (n.rd (.mvpGlThresh c)) 0).isNan || (f32Of (n.rd (.mvpGlAct c)) 0).isNan ]
  | .silo _ => siloRules s n b
  | .loftSilo _ => siloRules s n b
  | .cl cl => clRules s n cl
  | .dma cl => dmaRules s n cl
  | .dsp cl => [ (List.range 16).any fun j => n.flag (.dspJob cl j) F.dspJobRun && n.fld (.dspJob cl j) F.dspJobShares == 0 ]
  | .grn g => [ decide (7 < n.fld (.grnCfg g) F.grnCfgScrubLog2) ]
  | .tt g => ttRules s n g
  | .win g => winRules s n g
  | .seq => seqRules s n
  | .gate g => gateRules s n g
  | .hatch g => hatchRules s n g
  | .pwr => [ decide (n.fld .pwrLimit F.pwrLimitWatts < 6000 ∨ 24000 < n.fld .pwrLimit F.pwrLimitWatts)
      || (List.range 12).any fun p => n.fld (.pwrWeight p) F.pwrWeightWeight == 0 ]
  | .mgt => mgtRules s n
  | .atb => atbRules n

/-- The number of the first failing rule, 0 for none. -/
def firstFail (l : List Bool) : Nat :=
  match (List.range l.length).find? fun i => l.getD i false with
  | some i => i + 1
  | none => 0

def State.ruleFails (s : State) (b : Blk) : Nat := firstFail (blkRules s (s.withShadow b) b)

/-- The armed blocks of this tick, in the order in which the checks build on each other: CL before SILO before DMA (R204, R205,
R250), MGT first. -/
def blkOrder : Blk → Nat
  | .beat => 0 | .mgt => 1 | .cl _ => 2 | .silo _ => 3 | .loftSilo _ => 3 | .dma _ => 4 | .tt _ => 5 | .dsp _ => 6 | .co _ => 7 | .me _ => 7
  | .vu _ => 7 | .mvp _ => 7 | .grn _ => 7 | .win _ => 8 | .seq => 8 | .gate _ => 8 | .hatch _ => 9 | .pwr => 9 | .atb => 9

def armOf : Reg → Option Blk
  | .arm b => some b
  | _ => none

/-- The blocks that are armed now and not late. -/
def State.armedNow (s : State) : List Blk :=
  sortBy blkOrder ((s.regs.filterMap fun p => (Reg.ofAddr p.1).bind armOf).filter fun b => s.armed b && !s.late.contains b)

/-- The checks of the armed blocks at cycle 0: each block with its first failing rule. A block is checked against the sampled
values of the blocks before it that passed. -/
def State.checkAll (s : State) : List (Blk × Nat) :=
  (s.armedNow.foldl (fun (a : State × List (Blk × Nat)) b =>
    let n := a.1.withShadow b
    let k := firstFail (blkRules a.1 n b)
    (if k = 0 then n else a.1, a.2 ++ [(b, k)])) (s, [])).2

/-! Effects of an apply beside the values. -/

/-- RES of a replica after an apply that wrote an entry (R219); what the device keeps beside the table follows the first replica in service. -/
def ttApplied (o n : State) (g : Nat) : State :=
  (n.listedOf (ttNo g)).foldl (fun (s : State) i =>
    let a := o.ttAt g i; let b := n.ttAt g i
    let home := decide (g = n.homeGran)
    let s := if home && b.valid then { s with goneViews := s.goneViews.filter fun k => k != i } else s
    let same := a.cls == b.cls && a.base == b.base && a.rows == b.rows && a.clFirst == b.clFirst && a.clCount == b.clCount
      && a.loftBase == b.loftBase && a.chunkLog2 == b.chunkLog2
    if same then s else
    let s := if home && a.res == 1 then s.dropBringup i else s
    s.ttSetAt g i 0 20 2 (if b.clCount = 0 then 3 else 0)) n

/-- A view that goes, or changes its source, releases its pin (R225, R319). -/
def viewPins (o n : State) (g : Nat) : State :=
  if g ≠ n.homeGran then n else
  (n.listedOf (ttNo g)).foldl (fun (s : State) i =>
    let a := o.tt i; let b := n.tt i
    if o.pinned.contains i && !(b.valid && b.view && b.source == a.source) then
      { s.ttPins a.source ((s.tt a.source).pins - 1) with pinned := s.pinned.filter fun k => k != i }
    else s) n

/-- GEN of the hatches that an apply opens in a gate's replica (R337). -/
def hatchApplied (o n : State) (g : Nat) : State :=
  (n.listedOf (hatchNo g)).foldl (fun (s : State) i =>
    if (o.hatchAt g i).state = 0 ∧ (n.hatchAt g i).state = 1 then s.hatchSetAt g i 16 8 (((o.hatchAt g i).gen + 1) % 256) else s) n

/-- Ports follow EN and REKEY (Table 15-4, R333); REKEY reads 0. -/
def gateApplied (o n : State) (g : Nat) : State :=
  [3 * g, 3 * g + 1, 3 * g + 2].foldl (fun (s : State) p =>
    let ask := n.flag (.gatePort p) F.gatePortRekey
    let s := (s.setFld (.gatePort p) F.gatePortRekey 0).wrS (.gatePort p) (setBits (s.rdS (.gatePort p)) 2 1 0)
    let on := n.flag (.gatePort p) F.gatePortEn
    let s := if !on && o.portState p != 0 then s.enterPort p 0 0
      else if on && o.portState p == 0 then s.enterPort p 1 0 else s
    if ask && s.portUp p then s.setPort p { s.port p with rekeyAsk := true } else s) n

/-- A silo whose configuration changed starts empty (R204). -/
def siloApplied (o n : State) (b : Blk) : State :=
  (siloBlk b).foldl (fun (s : State) x =>
    if o.siloChanged n x then (s.wr (siloPtrReg x) 0).wr (siloPendReg x) 0 else s) n

/-- The commands that a core has issued and that are not complete. -/
def State.cmdsOf (s : State) (c : Nat) : List Cmd :=
  (s.tasks.filterMap fun (t : Task) => if t.core = c then t.flight else none) ++ (s.eng (2 * c)).queue ++ (s.eng (2 * c + 1)).queue
    ++ (s.core c).gctx.filterMap fun p => p.2.map GCtx.cmd

/-- The seeded generator loads, and under it no fallback occurs (R75); commands that have issued go on drawing from the generator as it stood before (R54). -/
def coApplied (o n : State) (c : Nat) : State :=
  let mode := fun (s : State) => s.fld (.coArith c) F.coArithRngMode
  let k := n.core c
  let load := mode n == 1 && (mode o != 1 || k.seedNew)
  let seed := n.rd (.coRngSeed c)
  let cmds := n.cmdsOf c
  let held := k.oldRng.filter fun (p : Nat × Word) => cmds.any fun q => q.seed == p.1
  let old := if cmds.any fun q => q.seed == k.loads then SMap.put (fun _ => 0) held k.loads k.rng else held
  let s := n.setCore c (if load then { k with rng := if seed = 0 then 0x9E3779B97F4A7C15 else seed, loads := k.loads + 1, oldRng := old, seedNew := false }
    else { k with seedNew := false })
  let s := s.setFld (.coRngStatus c) F.coRngStatusSeeded (if mode n = 1 then 1 else 0)
  if mode n = 1 then s.setFld (.coRngStatus c) F.coRngStatusFallback 0 else s

/-- A job entering RUNNING starts its account at 0 (R314). -/
def dspApplied (o n : State) (cl : Nat) : State :=
  (List.range 16).foldl (fun (s : State) j =>
    if n.flag (.dspJob cl j) F.dspJobRun && !o.flag (.dspJob cl j) F.dspJobRun then s.wr (.dspAcct cl j) 0 else s) n

/-- Partitions appear READY and vanish FREE (R308). -/
def mgtApplied (o n : State) : State :=
  (List.range 12).foldl (fun (s : State) p =>
    if n.partEn p && !o.partEn p then s.setFld (.mgtPart p) F.mgtPartState 1
    else if !n.partEn p && o.partEn p then s.setFld (.mgtPart p) F.mgtPartState 0 else s) n

/-- The loft rows of freed sets of a pool, as its settings in `o` lay it out, become EMPTY in `s`, their tags only (R298). -/
def State.emptySets (o : State) (p : Nat) (ids : List Nat) (s : State) : State :=
  let first := o.fld (.seqPool p) F.seqPoolClFirst; let n := o.fld (.seqPool p) F.seqPoolClCount
  let base := o.fld (.seqPool p) F.seqPoolLoftBase
  let per := o.fld (.seqSet p) F.seqSetSetPages / max n 1
  let hit := fun (k : Nat) =>
    let cl := (k - 2 ^ 32) / 2 ^ 20; let row := (k - 2 ^ 32) % 2 ^ 20
    decide (2 ^ 32 ≤ k ∧ first ≤ cl ∧ cl < first + n ∧ base ≤ row ∧ 0 < per)
      && ids.contains (4 * ((row - base) / 128 / max per 1) + 1)
  { s with rows := SMap.mapVals rowInit (fun k (x : RowSt) => if hit k then { x with tag := .empty } else x) s.rows }

/-- Any change to the pool, share or map fields frees every set (R304). -/
def seqApplied (o n : State) : State :=
  (List.range 12).foldl (fun (s : State) p =>
    if n.rd (.seqShare p) != o.rd (.seqShare p) || n.rd (.seqPool p) != o.rd (.seqPool p) || n.rd (.seqSet p) != o.rd (.seqSet p)
        || n.rd (.seqRows p) != o.rd (.seqRows p) then
      let x := s.part p
      let s := (o.emptySets p (x.seq.used ++ x.seq.returning) s).setPart p
        { x with seq := { x.seq with used := [], returning := [], sets := [], plan := [] } }
      (s.setFld (.seqFree p) F.seqFreeLoftFree (n.fld (.seqPool p) F.seqPoolSets)).setFld (.seqFree p) F.seqFreeSpillFree
        (n.fld (.seqSet p) F.seqSetSpillSets)
    else s) n

/-- The buses settle for 50 us after an apply (R454). -/
def atbApplied (n : State) : State :=
  [0, 1].foldl (fun (s : State) k => s.setFld (.atbRead k) F.atbReadValid 0) n

/-- The BEAT block's values, in force from cycle 0 (R34, R35, R52): the length in cycles, and a pending number. -/
def beatApplied (n : State) : State :=
  n.setFld .beatLen F.beatLenCycles (2 ^ n.fld .beatLen F.beatLenLog2)

/-- What an apply does beside the values; the clear of RUN (R316) and the closing of hatches are the tick's. -/
def applied (o n : State) (b : Blk) : State :=
  match b with
  | .beat => beatApplied n
  | .co c => coApplied o n c
  | .silo _ => siloApplied o n b
  | .loftSilo _ => siloApplied o n b
  | .dsp cl => dspApplied o n cl
  | .tt g => viewPins o (ttApplied o n g) g
  | .seq => seqApplied o n
  | .gate g => gateApplied o n g
  | .hatch g => hatchApplied o n g
  | .mgt => mgtApplied o n
  | .atb => atbApplied n
  | _ => n

/-- One checked block takes effect, or is refused (R52). -/
def State.applyBlk (s : State) (b : Blk) (rule : Nat) : State :=
  let s' := if rule = 0 then applied s (s.withShadow b) b else s
  (s'.unarm b).setApply b (if rule = 0 then 2 else 3) rule true

/-- Firmware's armed apply of registers of one block, at the tick that the row stands for (R309): their shadows are written and the block's
sampled values take effect together. Where a rule refuses what else the shadow holds, firmware restores it and applies its own words (log
20). A block that is armed already keeps its request, which carries the words; they are in force with it. -/
def State.fwApply (s : State) (b : Blk) (l : List (Reg × Word)) : State :=
  let put := fun (s : State) => l.foldl (fun (s : State) x => s.wrS x.1 (x.1.fields.foldl (fun w f => shadowField w x.2 f) (s.rdS x.1))) s
  let n := put s
  if s.armed b then l.foldl (fun (s : State) x => s.wr x.1 (s.merged x.1)) n
  else if n.ruleFails b = 0 then n.applyBlk b 0
  else (put (s.revert b)).applyBlk b 0

/-! The rows. -/

/-- A write of a block's ARM register, as management core 0 makes it (log 31): a unit out of service is an address fault (R31), a partition in
reset accepts nothing (R22). -/
def State.armWrite (s : State) (b : Blk) (k : State → State) : State :=
  let a := Reg.addr (.arm b)
  if !s.unitUp a then s.busError agentMgmt a else if s.inReset a then s.resetAnswer agentMgmt else k s

/-- ARM (R51, R52). -/
def execArm (b : Blk) (late : Bool) (s : State) : Res := unitOk (blkOk b) <| .next (s.armWrite b fun s => s.armBlk b late)

/-- DISARM (R51): it takes precedence over ARM in the same write. -/
def execDisarm (b : Blk) (withArm : Bool) (s : State) : Res :=
  unitOk (blkOk b) <| .next (s.armWrite b fun s => let _ := withArm; s.disarm b)

/-- SHADOW_WRITE (R53). -/
def execShadowWrite (agent addr : Nat) (v : BitVec 64) (s : State) : Res :=
  need (controlAgent agent && (match s.reach agent addr with
    | some r => r.hasShadow && !decide (r = .beatNumberSet)
    | none => true)) s <| .next (s.agentWrite agent addr v)

/-- Registers whose writes have rows of their own. -/
def ownRow : Reg → Bool
  | .arm _ => true
  | .mbxData _ _ => true
  | .mbxLock _ _ => true
  | .dmaCtrl _ _ => true
  | .clCcCtrl _ => true
  | .winCtrl _ => true
  | r => r.hasShadow

/-- REGISTER_WRITE (R5, R29, R31). -/
def execRegisterWrite (agent addr : Nat) (v : BitVec 64) (s : State) : Res :=
  need (controlAgent agent && (match s.reach agent addr with
    | some r => !ownRow r
    | none => true)) s <| .next (s.agentWrite agent addr v)

/-- BEAT_NUMBER_SET_WRITE (R34): a shadow write whose value stays pending. -/
def execBeatNumberSetWrite (agent : Nat) (v : BitVec 64) (s : State) : Res :=
  need (controlAgent agent) s <| .next (s.agentWrite agent (Reg.addr .beatNumberSet) v)

/-- BEAT_RUN (R35). -/
def execBeatRun (s : State) : Res := .next (s.setFld .beatCtrl F.beatCtrlRun 1)

end Sys2Proof.Machine
end

