-- ==== Sys2Proof/Machine/Mesh.lean ====
section
/-! DEFINITION. The data mesh between the dies (R11, R15, R17, R21): stitch links and their slices, routing tables, the multicast tree. -/

namespace Sys2Proof.Machine

/-! Stitch links (Tables 1-1 and 1-2). -/

/-- The compute die at a side of a compute die: 0 N, 1 E, 2 S, 3 W. -/
def neighbour (d side : Nat) : Option Nat :=
  match side with
  | 0 => if 6 ≤ d then some (d - 6) else none
  | 1 => if d % 6 < 5 then some (d + 1) else none
  | 2 => if d < 30 then some (d + 6) else none
  | _ => if 0 < d % 6 then some (d - 1) else none

/-- The number of the link at a side of a compute die. -/
def linkAt (d side : Nat) : Nat :=
  match side, neighbour d side with
  | 0, some e => 4 * e + 2
  | 3, some e => 4 * e + 1
  | _, _ => 4 * d + side

/-- The links: 60 between compute dies, 24 outward ones. -/
def stitchLinks : List Nat := dedup ((List.range 144).map fun k => linkAt (k / 4) (k % 4))

/-- The link of a granary, of a gate and of the management die at die 32 or 33 (R8, R9). -/
def granaryLink (g : Nat) : Nat :=
  if g < 6 then linkAt g 0 else if g < 12 then linkAt (5 + 6 * (g - 6)) 1 else if g < 18 then linkAt (30 + (g - 12)) 2 else linkAt (6 * (g - 18)) 3

def gateLink (g : Nat) : Nat := [linkAt 0 0, linkAt 5 0, linkAt 30 2, linkAt 35 2].getD g 0

def mgtLinks : List Nat := [linkAt 32 2, linkAt 33 2]

/-- The slices of an outward link that serve its granary, its gate and the management die (Table 1-2), by number in that order (DESIGN CHOICE,
log 32: the table counts them). -/
def granarySlices : BitVec 20 := 0x1F
def gateSlices : BitVec 20 := 0x1E0
def mgtSlices : BitVec 20 := 0x60

/-- The slices of a link that are assigned; the others are powered down (R11). -/
def assigned (k : Nat) : BitVec 20 :=
  if (neighbour (k / 4) (k % 4)).isSome then BitVec.allOnes 20
  else granarySlices ||| (if (List.range 4).any fun g => gateLink g == k then gateSlices else 0) |||
    (if mgtLinks.contains k then mgtSlices else 0)

/-- The slices of a link that carry traffic. -/
def Mesh.live (m : Mesh) (k : Nat) : BitVec 20 := SMap.get (fun _ => 0) m.slices k

/-- Step 7: each assigned slice that trains is powered (R396). -/
def trained (lost : List (Nat × Nat)) : SMap (BitVec 20) :=
  stitchLinks.foldl (fun (m : SMap (BitVec 20)) k =>
    SMap.put (fun _ => 0) m k (assigned k &&& ~~~BitVec.ofNat 20 ((List.range 20).foldl (fun a i => if lost.contains (k, i) then a + 2 ^ i else a) 0))) []

/-- Granaries, gates and links of the management die that have no slice left (R396, Table 19-3). -/
def Mesh.lostGranaries (m : Mesh) : List Nat := (List.range 24).filter fun g => m.live (granaryLink g) &&& granarySlices == 0
def Mesh.lostGates (m : Mesh) : List Nat := (List.range 4).filter fun g => m.live (gateLink g) &&& gateSlices == 0
def Mesh.mgtUp (m : Mesh) : Bool := mgtLinks.any fun k => m.live k &&& mgtSlices != 0

/-- Compute dies that have lost every stitch link to the rest of the mesh (R401). -/
def Mesh.lostDies (m : Mesh) : List Nat :=
  (List.range 36).filter fun d => (List.range 4).all fun side => (neighbour d side).isNone || m.live (linkAt d side) == 0

/-! Routes (R15). A link without a slice is avoided as a hole is (DEDUCED, log 33). -/

/-- The die that a packet reaches from die d by a side: over a live link, no hole. -/
def State.hop (s : State) (d side : Nat) : Option Nat :=
  (neighbour d side).filter fun e => !s.dieHole e && s.mesh.live (linkAt d side) != 0

/-- The side of the dimension-ordered route: along the row to the column, then along the column. -/
def firstSide (d dst : Nat) : Nat :=
  if d % 6 < dst % 6 then 1 else if dst % 6 < d % 6 then 3 else if d / 6 < dst / 6 then 2 else 0

/-- No hole lies on the dimension-ordered route. -/
def State.straight (s : State) (dst : Nat) : Nat → Nat → Bool
  | 0, d => d == dst
  | n + 1, d => d == dst || match s.hop d (firstSide d dst) with
    | some e => s.straight dst n e
    | none => false

/-- The dies that can reach a die, each with its distance around holes. -/
def State.distances (s : State) (dst : Nat) : List (Nat × Nat) :=
  (List.range 36).foldl (fun (l : List (Nat × Nat)) n =>
    l ++ (List.range 36).filterMap fun d =>
      if l.any (fun p => p.1 == d) || s.dieHole d || !((List.range 4).any fun side => match s.hop d side with
        | some e => l.contains (e, n)
        | none => false) then none else some (d, n + 1)) (if s.dieHole dst then [] else [(dst, 0)])

/-- The side by which die d sends on what goes to another die: the dimension-ordered one where that route has no hole, else one that firmware
chooses of those that lie on a shortest path; `pick` is its choice. -/
def State.routeSide (s : State) (dist : List (Nat × Nat)) (dst pick d : Nat) : Option Nat :=
  match dist.find? fun p => p.1 == d with
  | none => none
  | some p =>
    if p.2 = 0 then none
    else if s.straight dst 10 d then some (firstSide d dst)
    else
      let near := (List.range 4).filter fun side => match s.hop d side with
        | some e => dist.contains (e, p.2 - 1)
        | none => false
      near[pick % near.length]?

/-- Routers: of compute dies 0 to 35, of device clusters from 36, of granaries from 324, of gates from 348, of the management die 352. A router
of a compute die names as destinations the dies 0 to 35, the granaries from 36, the gates from 60, the management die 64, and the clusters
of its own die from 65; a cluster's router the other clusters of its die and, by 0, all else; an edge die's the dies and edge dies. -/
def routeKey (router dst : Nat) : Nat := 128 * router + dst

/-- The compute die beside an edge die through which its traffic goes, and the side of that die. -/
def linkEnd (k : Nat) : Nat × Nat := (k / 4, k % 4)

/-- The compute die beside the management die through which its traffic goes. -/
def State.mgtDie (s : State) : Option Nat :=
  [32, 33].find? fun d => !s.dieHole d && s.mesh.live (linkAt d 2) &&& mgtSlices != 0

/-- Where an edge die (a granary, a gate from 24, the management die 28) meets the mesh: the compute die and its side (Table 1-1). -/
def State.beside (s : State) (e : Nat) : Option (Nat × Nat) :=
  if e < 24 then some (linkEnd (granaryLink e)) else if e < 28 then some (linkEnd (gateLink (e - 24))) else s.mgtDie.map fun d => (d, 2)

/-- Where a router sends a packet on: by a side of its die (0 to 3), to the router of its die (4), to a cluster of the die (from 5); an edge
die by its link to a compute die (from 13). -/
abbrev RouteOut := Nat

/-- The cluster routers of a die form a mesh of four rows and two columns. -/
def clusterNear (a b : Nat) : Bool := (a / 2 == b / 2 && a != b) || (a % 2 == b % 2 && (a / 2 == b / 2 + 1 || b / 2 == a / 2 + 1))

/-- Where cluster a of a die sends what goes to cluster b of it: a neighbour at once; else through the die's router, or through a neighbour of
both that is no hole, as firmware chooses (log 33). -/
def State.clusterOut (s : State) (d a b pick : Nat) : Option RouteOut :=
  if a = b || s.clusterHole (8 * d + b) then none
  else if clusterNear a b then some (5 + b)
  else
    let near := 4 :: ((List.range 8).filter fun c => clusterNear a c && clusterNear c b && !s.clusterHole (8 * d + c)).map fun c => 5 + c
    near[pick % near.length]?

/-- The table of a compute die's router, from the routes between compute dies. -/
def State.dieTable (s : State) (between : List (List (Option Nat))) (d : Nat) : List (Nat × Option RouteOut) :=
  let go := fun dst => (between.getD dst []).getD d none
  let l := (List.range 36).map (fun dst => (dst, go dst))
    ++ (List.range 29).map (fun e => (36 + e, match s.beside e with
        | some (b, side) => if b = d then some side else go b
        | none => none))
    ++ (List.range 8).map fun k => (65 + k, if s.clusterHole (8 * d + k) then none else some (5 + k))
  if s.dieHole d then [] else l

/-- The table of an edge die's router: it reaches the mesh through its own link only. -/
def State.edgeTable (s : State) (between : List (List (Option Nat))) (e : Nat) : List (Nat × Option RouteOut) :=
  match s.beside e with
  | none => []
  | some (b, _) =>
    let reach := fun d => d = b || ((between.getD d []).getD b none).isSome
    (List.range 36).map (fun d => (d, if reach d && !s.dieHole d then some (13 + b) else none))
      ++ (List.range 29).map fun f => (36 + f, match s.beside f with
        | some (c, _) => if f ≠ e && reach c then some (13 + b) else none
        | none => none)

/-- The routing tables of every router, with firmware's free choices from draw `n` on (log 33). -/
def State.routeTable (s : State) (n : Nat) : SMap (Option RouteOut) :=
  let between := (List.range 36).map fun dst =>
    let dist := s.distances dst
    (List.range 36).map fun d => s.routeSide dist dst (Config.freeWord (n + 36 * d + dst)).toNat d
  let dies := (List.range 36).flatMap fun d => (s.dieTable between d).map fun x => (routeKey d x.1, x.2)
  let clusters := (List.range 288).flatMap fun cl =>
    if s.clusterHole cl then [] else (routeKey (36 + cl) 0, some 4) :: (List.range 8).map fun k =>
      (routeKey (36 + cl) (65 + k), s.clusterOut (cl / 8) (cl % 8) k (Config.freeWord (n + 1296 + 8 * cl + k)).toNat)
  let edges := (List.range 29).flatMap fun e => (s.edgeTable between e).map fun x => (routeKey (324 + e) x.1, x.2)
  (dies ++ clusters ++ edges).filter fun x => x.2.isSome

/-- The tree along which the management die's multicasts are replicated: every die hangs from the next on its route to the root. -/
def State.multicastTree (s : State) (routes : SMap (Option Nat)) : List (Nat × Nat) :=
  match s.mgtDie with
  | none => []
  | some root => (root, 36) :: (List.range 36).filterMap fun d =>
      ((SMap.get (fun _ => none) routes (routeKey d root)).bind (neighbour d)).map fun e => (d, e)

/-- The management plane writes the routing tables and the multicast tree into the routers (R15, R17): at bring-up, and whenever a hole is
created. -/
def State.writeRoutes (s : State) : State :=
  let r := s.routeTable s.free
  { s with free := s.free + 3600, mesh := { s.mesh with routes := r, tree := s.multicastTree r } }

/-- A multicast of an agent misses a member of its group: its interface reports it (R17). -/
def State.multicastMissed (s : State) (agent : Nat) : State := s.fault agent 0x0B 0 0 0

end Sys2Proof.Machine
end

