-- ==== Sys2Proof/Machine/Mvp.lean ====
section
/-! DEFINITION. The matrix-vector path and the gleaner: mvp.run and mvp.glean (R119 to R124, R142 to R146). -/

namespace Sys2Proof.Machine

/-- The first row of a span of rows that lies inside the field's range and outside the job's quota. -/
def State.spanFault (s : State) (t : Task) (loft : Bool) (base n : Nat) : Option RowRef :=
  let qb := if loft then s.loftBase t.cl t.job else s.nearBase t.cl t.job
  let qe := qb + if loft then s.loftRows t.cl t.job else s.nearRows t.cl t.job
  let bad := if base < qb ∨ qe ≤ base then base else qe
  if decide (bad < base + n) && decide (bad < if loft then 1048576 else 8192) then
    some (if loft then .loft t.cl bad else .near t.core bad) else none

/-- Quota and range of the spans that a command names (R120, R161). -/
def State.spans (s : State) (t : Task) (ss : List (Bool × Nat × Nat)) (form : Bool) : Ex Unit :=
  match ss.findSome? fun x => s.spanFault t x.1 x.2.1 x.2.2 with
  | some r => addressFault (rowAddr r)
  | none => require (form && ss.all fun x => decide (x.2.1 + x.2.2 ≤ if x.1 then 1048576 else 8192))

/-- Half rows that hold NVEC vectors (R119). -/
def vecRows (nvec : Nat) : Nat := (nvec + 1) / 2

/-- Reduction block kb of vector v in the vector layout. -/
def vecLine (rows : List Row) (nvec kb v : Nat) : List Num :=
  lineAt .bf16 (rows.getD (kb * vecRows nvec + v / 2) 0) 0 0 (v % 2)

/-- Output rows of a strip count in a format. -/
def outRows (ofmt nvec strips : Nat) : Nat := strips * if ofmt = 1 then vecRows nvec else nvec

/-- Rows that write results, given by strip and vector (R119). -/
def State.packOut (s : State) (t : Task) (ofmt round dst : Nat) (strips : List (List (List Num))) : List (RowRef × Row) × State :=
  let f : Fmt := if ofmt = 1 then .bf16 else .fp32
  let groups := strips.flatMap fun st => if ofmt = 1 then chunks 2 8 st else st.map fun l => [l]
  (List.range groups.length).foldl (fun (a : List (RowRef × Row) × State) i =>
    let (row, _, s) := a.2.packFor t f round ((groups.getD i []).flatMap fun l => l)
    (a.1 ++ [(RowRef.near t.core (dst + i), row)], s)) ([], s)

/-- Add in order with one rounding each, the first exactly (R121, R144). -/
def addUp (l : List (Num × Flags)) : Num × Flags :=
  let (v, f) := sum32 (l.map Prod.fst)
  (v, f.or (Flags.all (l.map Prod.snd)))

/-- The tree sum of the rounded products of a vector line and weights (R121). -/
def blockDot (x w : List Num) : Num × Flags :=
  let ps := (x.zip w).map fun p => mul32 p.1 p.2
  let (v, f) := treeSum (ps.map Prod.fst)
  (v, (f.or (Flags.all (ps.map Prod.snd))).or (niOf (x ++ w)))

/-- A task takes the MVP (R124). -/
def State.ownMvp (s : State) (t : Task) : Ex State := do
  let k ← ownUnit (s.core t.core).mvp t.id .mvp
  return (s.setCore t.core { s.core t.core with mvp := k }).syncUnits t.core

def mvpUsed (f : Fmt) : List (Nat × Nat) :=
  [(0, 8), (8, 4), (12, 2), (16, 1), (20, 4), (32, 20), (72, 49)] ++ fieldIf (f.sidecar || f == .int8) (52, 20)

/-- A mask packed into rows (R142). -/
def maskRows (dst core : Nat) (bs : List Bool) : List (RowRef × Row) :=
  let gs := chunks 4096 64 bs
  (List.range gs.length).map fun i => (RowRef.near core (dst + i), BitVec.ofNat 4096 (packNat 1 ((gs.getD i []).map b2n)))

/-- The form of mvp.run (R120). -/
def mvpForm (w : CmdWord) (f : Fmt) : Bool :=
  !stray w (mvpUsed f) && (f.mvpWeight || (f == .int8 && bitAt w 120))
    && (bitAt w 120 || (decide (cwFmt2 w < 2) && decide (cwRound w < 3)))

/-- The spans of mvp.run: weights and scales in the loft, vectors and output in the near store. The first sentence of R119 puts the scales in the near
store, its layouts and Table 5-7 in the loft: the model follows these (DESIGN CHOICE, log 83). -/
def mvpSpans (w : CmdWord) (f : Fmt) : List (Bool × Nat × Nat) :=
  let kblk := bits w 72 9 + 1; let ncb := bits w 81 10 + 1; let nvec := bits w 91 3 + 1
  [(true, bits w 32 20, ncb * kblk * blockRows f),
   (true, bits w 52 20, if f.sidecar then ncb * kblk else if f = .int8 then ncb else 0),
   (false, bits w 94 13, kblk * vecRows nvec),
   (false, bits w 107 13, if bitAt w 120 then (128 * ncb + 4095) / 4096 else outRows (cwFmt2 w) nvec ncb)]

/-- The rows of a span. -/
def spanRows (t : Task) (x : Bool × Nat × Nat) : List RowRef := rowsOf t x.1 x.2.1 x.2.2

/-- The output rows of mvp.run. -/
def mvpOuts (w : CmdWord) : Nat :=
  let ncb := bits w 81 10 + 1
  if bitAt w 120 then (128 * ncb + 4095) / 4096 else outRows (cwFmt2 w) (bits w 91 3 + 1) ncb

/-- The checks of mvp.run at its issue (R120, R161, R162). -/
def State.mvpChecks (s : State) (t : Task) (w : CmdWord) : Ex Unit := do
  match Fmt.ofCode (cwFmt w) with
  | none => s.spans t [(true, bits w 32 20, 1), (false, bits w 94 13, 1), (false, bits w 107 13, 1)] false
  | some f =>
    s.spans t (mvpSpans w f) (mvpForm w f)
    outputs t ((List.range (mvpOuts w)).map fun i => bits w 107 13 + i)

def State.mvpTaken (s : State) (t : Task) (w : CmdWord) : Ex State := do
  s.mvpChecks t w
  s.ownMvp t

/-- mvp.run of a task that owns the MVP (R119, R121, R142). -/
def State.mvpRun (s : State) (t : Task) (w : CmdWord) : Ex State := do
  match Fmt.ofCode (cwFmt w) with
  | none => badCommand
  | some f =>
    let src := bits w 32 20; let scale := bits w 52 20
    let kblk := bits w 72 9 + 1; let ncb := bits w 81 10 + 1; let nvec := bits w 91 3 + 1
    let vsrc := bits w 94 13; let dst := bits w 107 13; let pred := bitAt w 120
    let rf := blockRows f
    let nscale := if f.sidecar then ncb * kblk else if f = .int8 then ncb else 0
    let (ws, s) ← s.readRows t false (loftRowsOf t.cl src (ncb * kblk * rf))
    let (ss, s) ← s.readRows t false (loftRowsOf t.cl scale nscale)
    let (vs, s) ← s.readRows t false (nearRowsOf t.core vsrc (kblk * vecRows nvec))
    let blockLines := fun (b : Nat) => (List.range 128).map fun i =>
      lineOf f ((ws.drop (b * rf)).take rf) [if f.sidecar then ss.getD b 0 else 0] i
    let strip := fun (cb : Nat) =>
      let blocks := (List.range kblk).map fun kb => blockLines (cb * kblk + kb)
      (List.range nvec).map fun v => (List.range 128).map fun c =>
        let (y, g) := addUp ((List.range kblk).map fun kb =>
          blockDot (vecLine vs nvec kb v) ((blocks.getD kb []).map fun l => l.getD c .zero))
        let sc := elemAt .fp32 (ss.getD cb 0) 0 0 c
        if f = .int8 then let (z, h) := mul32 y sc; (z, g.or (h.or (niOf [sc]))) else (y, g)
    let res := (List.range ncb).map strip
    let fl := Flags.all (res.flatMap fun st => st.flatMap fun l => l.map Prod.snd)
    let s := (s.addFlags t.id fl).countCore C.mvpBlocks t.core (ncb * kblk)
    if pred then
      let th := Num.of32 (s.rd (.mvpGlThresh t.core) |>.truncate 32)
      let on := s.flag (.mvpGlCfg t.core) F.mvpGlCfgEn
      let bs := res.flatMap fun st => (List.range 128).map fun c =>
        !on || st.any fun l => Num.le th (l.getD c (.nan, .none)).1
      s.writeRows t (cwOver w) (maskRows dst t.core bs)
    else
      let (out, s) := s.packOut t (cwFmt2 w) (cwRound w) dst (res.map fun st => st.map fun l => l.map Prod.fst)
      s.writeRows t (cwOver w) out

/-- MVP_RUN (R119 to R124, R142). -/
def execMvpRun (core : Nat) (s : State) : Res :=
  issueRun 0x30 core [] s fun t q s => .owned s (s.mvpTaken t q.word) fun s => s.mvpRun t q.word

/-! mvp.glean -/

def gleanUsed (down : Bool) : List (Nat × Nat) :=
  [(0, 8), (8, 4), (12, 2), (16, 1), (20, 4), (32, 83)] ++ fieldIf down (24, 8) ++ fieldIf down (115, 8)

/-- Element e of a neuron record from its rows by number (R143). -/
def recordElem (f : Fmt) (re : Nat) (m : SMap Row) (e : Nat) : Num :=
  let n := e / f.perRow
  elemAt f (rowOf m n) (if f.sidecar then rowOf m (re + n / f.served) else 0) (n % f.served) (e % f.perRow)

/-- Read the wanted rows of each selected record. -/
def State.readRecords (s : State) (t : Task) (src rn : Nat) (want : List Nat) : List Nat → Ex (List (Nat × SMap Row) × State)
  | [] => .ok ([], s)
  | k :: ks => do
    let (ds, s) ← s.readRows t false (want.map fun i => RowRef.loft t.cl (src + k * rn + i))
    let (rest, s) ← State.readRecords s t src rn want ks
    return ((k, want.zip ds) :: rest, s)

/-- Audit counts of an UP command (R146). -/
def State.auditCount (s : State) (t : Task) (nvec : Nat) (mask : Nat → Bool) (us : List (Nat × List Num)) : State :=
  let act := Num.of32 (s.rd (.mvpGlAct t.core) |>.truncate 32)
  let truly := fun (p : Nat × List Num) => (p.2.take nvec).any fun u => Num.lt act u
  let n := fun (f : Nat × List Num → Bool) => (us.filter f).length
  let s := s.countCore C.glAudTrue t.core (n truly)
  let s := s.countCore C.glAudHit t.core (n fun p => truly p && mask p.1)
  s.countCore C.glAudFalsePos t.core (n fun p => !truly p && mask p.1)

/-- Rows of a neuron record: elements and, with a sidecar, scales (R143). -/
def recordRows (w : CmdWord) (f : Fmt) : Nat × Nat :=
  let width := bits w 53 8 + 1
  ((128 * width + f.perRow - 1) / f.perRow, if f.sidecar then (128 * width + 16383) / 16384 else 0)

/-- The form of mvp.glean (R143, R145). -/
def gleanForm (w : CmdWord) (f : Fmt) : Bool :=
  let down := bitAt w 52
  let nl := bits w 115 8 + 1
  !stray w (gleanUsed down) && f.mvpWeight && decide (cwFmt2 w < 2) && decide (cwRound w < 3)
    && (!down || (decide (nl * (bits w 86 3 + 1) ≤ 384) && decide (cwExt w + nl ≤ bits w 53 8 + 1)))

/-- The spans of mvp.glean: records in the loft, mask, vectors and output in the near store. -/
def gleanSpans (w : CmdWord) (f : Fmt) : List (Bool × Nat × Nat) :=
  let down := bitAt w 52
  let neur := bits w 61 12 + 1; let nvec := bits w 86 3 + 1
  let rn := (recordRows w f).1 + (recordRows w f).2
  [(true, bits w 32 20, neur * rn), (false, bits w 73 13, (neur + 4095) / 4096),
   (false, bits w 89 13, (if down then (neur + 127) / 128 else bits w 53 8 + 1) * vecRows nvec),
   (false, bits w 102 13, outRows (cwFmt2 w) nvec (if down then bits w 115 8 + 1 else (neur + 127) / 128))]

/-- The output strips of mvp.glean. -/
def gleanStrips (w : CmdWord) : Nat := if bitAt w 52 then bits w 115 8 + 1 else (bits w 61 12 + 1 + 127) / 128

/-- The checks of mvp.glean at its issue (R143, R161, R162). -/
def State.gleanChecks (s : State) (t : Task) (w : CmdWord) : Ex Unit := do
  match Fmt.ofCode (cwFmt w) with
  | none => s.spans t [(true, bits w 32 20, 1), (false, bits w 73 13, 1), (false, bits w 89 13, 1), (false, bits w 102 13, 1)] false
  | some f =>
    s.spans t (gleanSpans w f) (gleanForm w f)
    outputs t ((List.range (outRows (cwFmt2 w) (bits w 86 3 + 1) (gleanStrips w))).map fun i => bits w 102 13 + i)

def State.gleanTaken (s : State) (t : Task) (w : CmdWord) : Ex State := do
  s.gleanChecks t w
  s.ownMvp t

/-- mvp.glean of a task that owns the MVP (R143 to R146). -/
def State.mvpGlean (s : State) (t : Task) (w : CmdWord) : Ex State := do
  match Fmt.ofCode (cwFmt w) with
  | none => badCommand
  | some f =>
    let src := bits w 32 20; let down := bitAt w 52
    let width := bits w 53 8 + 1; let neur := bits w 61 12 + 1; let msrc := bits w 73 13
    let nvec := bits w 86 3 + 1; let vsrc := bits w 89 13; let dst := bits w 102 13
    let line0 := cwExt w; let nl := bits w 115 8 + 1
    let re := (recordRows w f).1
    let rn := re + (recordRows w f).2
    let nvrows := (if down then (neur + 127) / 128 else width) * vecRows nvec
    let nmask := (neur + 4095) / 4096
    let strips := gleanStrips w
    let (ms, s) ← s.readRows t false (nearRowsOf t.core msrc nmask)
    let (vs, s) ← s.readRows t false (nearRowsOf t.core vsrc nvrows)
    let mask := fun (k : Nat) => bitAt (ms.getD (k / 4096) 0) (k % 4096)
    let all := !s.flag (.mvpGlCfg t.core) F.mvpGlCfgEn || t.audit
    let sel := (List.range neur).filter fun k => all || mask k
    let rowsDown := dedup ((List.range (128 * nl)).map fun i => (128 * line0 + i) / f.perRow)
    let want := if down then rowsDown ++ (if f.sidecar then dedup (rowsDown.map fun n => re + n / f.served) else [])
      else List.range rn
    let (recs, s) ← s.readRecords t src rn want sel
    let elem := fun (k e : Nat) => match recs.find? fun r => r.1 == k with
      | some r => recordElem f re r.2 e
      | none => .zero
    let s := (s.countCore C.glNeurons t.core neur).countCore C.glSelected t.core sel.length
    if down then
      let res := (List.range nl).map fun l => (List.range nvec).map fun v => (List.range 128).map fun j =>
        addUp (sel.map fun k =>
          let a := (vecLine vs nvec (k / 128) v).getD (k % 128) .zero
          let b := elem k (128 * (line0 + l) + j)
          let (p, g) := mul32 a b
          (p, g.or (niOf [a, b])))
      let s := s.addFlags t.id (Flags.all (res.flatMap fun st => st.flatMap fun l => l.map Prod.snd))
      let (out, s) := s.packOut t (cwFmt2 w) (cwRound w) dst (res.map fun st => st.map fun l => l.map Prod.fst)
      s.writeRows t (cwOver w) out
    else
      let us := sel.map fun k => (k, (List.range nvec).map fun v => addUp ((List.range width).map fun l =>
        blockDot (vecLine vs nvec l v) ((List.range 128).map fun j => elem k (128 * l + j))))
      let s := s.addFlags t.id (Flags.all (us.flatMap fun u => u.2.map Prod.snd))
      let s := if t.audit then s.auditCount t nvec mask (us.map fun u => (u.1, u.2.map Prod.fst)) else s
      let res := (List.range strips).map fun c => (List.range nvec).map fun v => (List.range 128).map fun i =>
        match us.find? fun u => u.1 == 128 * c + i with
        | some u => (u.2.getD v (.zero, .none)).1
        | none => Num.zero
      let (out, s) := s.packOut t (cwFmt2 w) (cwRound w) dst res
      s.writeRows t (cwOver w) out

/-- MVP_GLEAN (R143 to R146). -/
def execMvpGlean (core : Nat) (s : State) : Res :=
  issueRun 0x31 core [] s fun t q s => .owned s (s.gleanTaken t q.word) fun s => s.mvpGlean t q.word

end Sys2Proof.Machine
end

