-- ==== Sys2Proof/Machine/Sparse.lean ====
section
/-! DEFINITION. sp.enc (R140). -/

namespace Sys2Proof.Machine

/-- The source rows of sp.enc. -/
def encSrc (t : Task) (w : CmdWord) (f : Fmt) : List RowRef :=
  let n := bits w 62 10 + 1
  nearRowsOf t.core (bits w 32 13)
    (if (nmOf (bits w 58 4)).isSome then blockRows f * ((n + 127) / 128) else (n + f.lines - 1) / f.lines)

/-- The form of sp.enc (R140). -/
def encForm (w : CmdWord) (f : Fmt) : Bool :=
  let nm := nmOf (bits w 58 4)
  let limit := match nm with
    | some x => 128 * x.2.1 / x.1
    | none => 1024
  f.tiled && (nm.isSome || bits w 58 4 == 5) && decide (bits w 62 10 + 1 ≤ limit) && !stray w [(0, 8), (8, 4), (32, 40)]

/-- A row's elements with every NaN code canonical. -/
def encCanon (f : Fmt) (r : Row) : Row :=
  match f.elem with
  | some e => BitVec.ofNat 4096 (packNat f.width ((List.range f.perRow).map fun i =>
      let c := bits r (f.width * i) f.width
      if (e.decode c).isNan then e.nan else c))
  | none => r

/-- The tiles that sp.enc makes of its source rows, each with whether it is a fallback. -/
def encTiles (w : CmdWord) (f : Fmt) (rows : List Row) : List (List Row × Bool) :=
  let form := bits w 58 4
  let n := bits w 62 10 + 1
  match nmOf form with
  | some x => [encodeStationary f (cwFmt w) form n x rows]
  | none => (List.range ((n + 127) / 128)).map fun i =>
      let valid := min 128 (n - 128 * i)
      let lines := (List.range 128).flatMap fun l =>
        (List.range 128).map fun c => if l < valid then codeAt f rows (128 * (128 * i + l) + c) else 0
      let g := (chunks f.perRow 128 lines).map fun cs => BitVec.ofNat 4096 (packNat f.width cs)
      encodeStream f (cwFmt w) g valid

/-- Where the rows of the tiles go. -/
def encWrites (t : Task) (w : CmdWord) (f : Fmt) (tiles : List (List Row × Bool)) : List (RowRef × Row) :=
  (List.range tiles.length).flatMap fun i =>
    let g := (tiles.getD i ([], false)).1
    (List.range g.length).map fun j => (RowRef.near t.core (bits w 45 13 + i * stride f + j), g.getD j 0)

/-- The first rows of the tiles of sp.enc that are written whatever its source holds (R162): the rows of the shorter of the two forms of an N:M
tile, the header row of each streaming tile. -/
def encSure (t : Task) (w : CmdWord) (f : Fmt) : List RowRef :=
  let n := bits w 62 10 + 1
  match nmOf (bits w 58 4) with
  | some _ => nearRowsOf t.core (bits w 45 13) (min (stRows (bits w 58 4) f n) (stRows 1 f n))
  | none => (List.range ((n + 127) / 128)).map fun i => RowRef.near t.core (bits w 45 13 + i * stride f)

/-- The checks of sp.enc at its issue (R140, R161, R162). -/
def State.encChecks (s : State) (t : Task) (w : CmdWord) : Ex Unit :=
  match Fmt.ofCode (cwFmt w) with
  | none => do
    s.quota t [.near t.core (bits w 32 13), .near t.core (bits w 45 13)]
    badCommand
  | some f => s.issueChecks t (encSrc t w f) (encSure t w f) (encForm w f)

/-- A task takes the encoder (R140). -/
def State.encTaken (s : State) (t : Task) (w : CmdWord) : Ex State := do
  s.encChecks t w
  s.ownEnc t

/-- sp.enc of a task: reads dense blocks or lines and writes one tile, or the tiles of its lines. -/
def State.spEnc (s : State) (t : Task) (w : CmdWord) : Ex State := do
  match Fmt.ofCode (cwFmt w) with
  | none => badCommand
  | some f =>
    let (rows, s) ← s.readRows t false (encSrc t w f)
    let rows := rows.map (encCanon f)
    let s := s.addFlags t.id (niOf ((List.range rows.length).flatMap fun i => (List.range f.perRow).map fun j => elemAt f (rows.getD i 0) 0 0 j))
    let tiles := encTiles w f rows
    let ws := encWrites t w f tiles
    s.quota t (ws.map Prod.fst)
    require (inRange (ws.map Prod.fst))
    outputs t (ws.map fun p => rowNo p.1)
    let s ← s.writeRows t false ws
    return s.countCore C.spEncFallback t.core (tiles.filter Prod.snd).length

/-- SP_ENC (R140). -/
def execSpEnc (core : Nat) (s : State) : Res :=
  issueRun 0x40 core [] s fun t q s => .owned s (s.encTaken t q.word) fun s => s.spEnc t q.word

end Sys2Proof.Machine
end

