-- ==== Sys2Proof/Machine/Resume.lean ====
section
/-! DEFINITION. What waits goes on (R165, R189): commands that have issued, engines, gathers, channels, bring-ups, parked requests. -/

namespace Sys2Proof.Machine

/-- What a command that has issued comes to when it is tried again, for the commands that wait in a task's flight. -/
def State.runCmd (s : State) (t : Task) (q : Cmd) : Run :=
  match cwOp q.word with
  | 0x20 => .whole s (s.vuLd t q.word)
  | 0x21 => .whole s (s.vuSt t q.word)
  | 0x22 => .whole s (s.vuOp t q.word)
  | 0x23 => .whole s (s.vuTx t q.word)
  | 0x24 => .whole s (s.vuReduce t q.word)
  | 0x25 => .whole s (s.vuTapld t q.word)
  | 0x26 => s.nbwdRun t q.word
  | 0x30 => .owned s (s.mvpTaken t q.word) fun s => s.mvpRun t q.word
  | 0x31 => .owned s (s.gleanTaken t q.word) fun s => s.mvpGlean t q.word
  | 0x40 => .owned s (s.encTaken t q.word) fun s => s.spEnc t q.word
  | 0x50 => .whole s (s.dmaKick t q.word)
  | 0x60 => s.tagTake t q
  | 0x61 => .whole s (s.tagWait t q.word)
  | 0x62 => s.siloPush t q
  | 0x63 => s.siloPop t q
  | 0x70 => s.ccCount t q
  | _ => .done s

/-- A task's command in flight goes on under the settings of its issue, as far as it can (R54, R165). -/
def State.resumeFlight (s : State) (id : Nat) : State :=
  match s.task? id with
  | none => s
  | some t => match t.flight with
    | none => s
    | some q => s.settle t q false (((s.enter t.core q).runCmd t q).leave s t.core q)

/-- A waiting task: its command in flight goes on, or its next command may issue. -/
def State.resumeTask (s : State) (id : Nat) : State :=
  match s.task? id with
  | none => s
  | some t => if t.flight.isSome then s.resumeFlight id else s.unblock id

/-- An engine's first command goes on. -/
def State.resumeEng (s : State) (e : Nat) : State :=
  let x := s.eng e
  match x.queue with
  | [] => s
  | q :: rest => ((s.setEng e { x with queue := { q with wait := none } :: rest }).runEngine e).unblock q.task

/-- A gather context goes on. -/
def State.resumeGather (s : State) (core ctx : Nat) : State :=
  match s.ctx core ctx with
  | none => s
  | some g =>
    if g.cmd.wait.isNone then s else
    let s := s.setCtx core ctx { g with cmd := { g.cmd with wait := none } }
    (s.runGather core ctx [] (gaCount g.cmd.word * gaSpan g.cmd.word + 1)).unblock g.cmd.task

/-- The parked request of a waiter. -/
def State.parkedAs (s : State) (r : RowRef) (g tag port : Nat) : Option ParkEnt :=
  (s.gate g).park.find? fun e => decide (e.port = port ∧ fTag (reqHdr e.frame) = tag ∧ e.row = some r)

/-- One waiter of a row goes on as far as the row, as it now stands, lets it; what still waits waits behind those before it. -/
def State.retryOne (s : State) (r : RowRef) (w : Waiter) : State :=
  match w with
  | .task id => s.resumeTask id
  | .eng e => s.resumeEng e
  | .gather core ctx => s.resumeGather core ctx
  | .chan cl ch => s.resumeChan cl ch
  | .land i n => s.landWaiter i n
  | .park g tag port => match s.parkedAs r g tag port with
    | some e => s.retryPark g e fun q => decide (q.row ≠ some r)
    | none => s

/-- The waiters of a row, in the order in which they began to wait (R189). -/
def State.retryRow (s : State) (r : RowRef) : State :=
  let ws := (s.waits.filter fun (w : RowRef × Waiter) => decide (w.1 = r)).map Prod.snd
  let s : State := { s with waits := s.waits.filter fun (w : RowRef × Waiter) => !decide (w.1 = r) }
  ws.foldl (fun (s : State) w => s.retryOne r w) s

/-- The commands of a cluster that wait for a silo's credit, or for another core's pending appends or takes to be decided (R194, R195). -/
def State.wakeSilos (s : State) (cl : Nat) : State :=
  let ids := (s.tasks.filter fun (t : Task) => t.cl == cl && match t.flight with
    | some q => (match q.wait with
      | some (.silo _) => true
      | _ => false)
    | none => false).map Task.id
  ids.foldl (fun (s : State) id => s.resumeFlight id) s

/-- Cores and silos that tasks leave: what waits on them may go on. -/
def State.wakeAfter (s : State) (ts : List Task) : State :=
  let s := (dedup (ts.map Task.core)).foldl (fun (s : State) c => s.wakeUnits c) s
  (dedup ((ts.filter fun (t : Task) => !t.pushes.isEmpty || !t.pops.isEmpty).map Task.cl)).foldl (fun (s : State) cl => s.wakeSilos cl) s

end Sys2Proof.Machine
end

