-- ==== Sys2Proof/Machine/FwBase.lean ====
section
/-! DEFINITION. Firmware commands (chapter 17): words and blocks, the checks of Table 17-3 that need no performing, completion
records and words, which commands wait for which. -/

namespace Sys2Proof

def FwCmd.op (c : FwCmd) : Nat := bits c.word 0 8
def FwCmd.blk (c : FwCmd) : Bool := bitAt c.word 8
def FwCmd.cid (c : FwCmd) : Nat := bits c.word 16 16
def FwCmd.block (c : FwCmd) : Nat := bits c.word 32 18
def FwCmd.len (c : FwCmd) : Nat := 64 * (bits c.word 50 6 + 1)

end Sys2Proof

namespace Sys2Proof.Machine

/-! Words and blocks (R366, R367). -/

def FwOut.op (o : FwOut) : Nat := o.cmd.op
/-- PART and JOB have the same bits in a word's ARG and in a block's header. -/
def FwOut.part (o : FwOut) : Nat := bits o.blk 32 4
def FwOut.job (o : FwOut) : Nat := bits o.blk 36 4
def FwOut.resultAt (o : FwOut) : Nat := bits o.blk 64 20
def FwOut.resultLen (o : FwOut) : Nat := bits o.blk 96 20
/-- Bits of a word's ARG, at their positions in the word. -/
def FwOut.arg (o : FwOut) (lo len : Nat) : Nat := bits o.blk lo len
/-- Bits of a block, counted from a byte offset. -/
def FwOut.body (o : FwOut) (byte lo len : Nat) : Nat := bits o.blk (8 * byte + lo) len

/-- The command with its block, as firmware reads both (log 17). A word command keeps its word in the block's place. -/
def State.readCmd (s : State) (c : FwCmd) : FwOut :=
  ⟨c, if c.blk then BitVec.ofNat 32768 (s.winRead c.block c.len) else c.word.zeroExtend 32768, .turn⟩

/-- ARG fields of the word commands of Table 17-6, by OP. -/
def wordArgs (op : Nat) : Option (List (Nat × Nat)) :=
  let p := (32, 4); let j := (36, 4)
  match op with
  | 0x03 => some [(32, 1)]
  | 0x20 => some [p, (40, 3), (44, 3), (48, 3), (52, 3), (56, 8)]
  | 0x21 => some [p]
  | 0x22 => some [p]
  | 0x23 => some [p, j]
  | 0x24 => some [p, j]
  | 0x25 => some [p, j]
  | 0x31 => some [p, j, (40, 15)]
  | 0x32 => some [p, j, (40, 15)]
  | 0x43 => some [p, j]
  | 0x44 => some [p, (40, 3)]
  | 0x45 => some [p, j, (40, 24)]
  | 0x52 => some [p, (40, 14)]
  | 0x62 => some [(32, 10)]
  | 0x70 => some [(32, 15), (48, 4)]
  | 0x71 => some [p, (40, 8)]
  | 0x82 => some []
  | _ => none

/-- Body fields of the block commands of Table 17-7, by OP, as (byte, bit, width). -/
def blockBody (op : Nat) : Option (List (Nat × Nat × Nat)) :=
  match op with
  | 0x01 => some []
  | 0x02 => some []
  | 0x04 => some [(16, 0, 64), (24, 0, 32), (28, 0, 1)]
  | 0x05 => some [(16, 0, 2), (16, 8, 5), (16, 16, 4), (16, 32, 12), (16, 63, 1), (24, 0, 64)]
  | 0x10 => some [(16, 0, 32), (20, 0, 32)]
  | 0x11 => some [(16, 0, 32), (20, 0, 32)]
  | 0x12 => some [(16, 0, 32)]
  | 0x13 => some [(16, 0, 32), (20, 0, 32), (24, 0, 32)]
  | 0x14 => some [(16, 0, 512), (80, 0, 8)]
  | 0x23 => some [(16, 0, 45), (24, 0, 13), (24, 16, 14), (24, 32, 16), (32, 0, 20), (32, 32, 21), (40, 0, 1)]
  | 0x27 => some [(16, 0, 1), (18, 0, 16), (32, 0, 32512)]
  | 0x30 => some [(16, 0, 16), (64, 0, 512)]
  | 0x33 => some [(16, 0, 24), (20, 0, 32), (24, 0, 8), (26, 0, 16)]
  | 0x34 => some [(16, 0, 24), (19, 0, 3), (20, 0, 32)]
  | 0x35 => some [(16, 0, 24), (19, 0, 2), (20, 0, 32), (24, 0, 24)]
  | 0x36 => some [(16, 0, 16), (18, 0, 1), (64, 0, 512), (128, 0, 256)]
  | 0x37 => some [(16, 0, 8), (24, 0, 64), (32, 0, 64)]
  | 0x38 => some [(16, 0, 16), (18, 0, 16), (20, 0, 32), (24, 0, 8), (26, 0, 16), (32, 0, 32512)]
  | 0x40 => some [(16, 0, 32), (20, 0, 40), (26, 0, 16), (28, 0, 16), (30, 0, 8), (32, 0, 32), (36, 0, 32), (40, 0, 1),
      (64, 0, 32256)]
  | 0x41 => some [(16, 0, 48), (24, 0, 32)]
  | 0x42 => some [(16, 0, 128)]
  | 0x50 => some [(16, 0, 320)]
  | 0x51 => some [(16, 0, 45), (24, 0, 32), (28, 0, 32)]
  | 0x60 => some [(16, 0, 16), (18, 0, 16), (32, 0, 32512)]
  | 0x61 => some [(16, 0, 16), (64, 0, 512)]
  | 0x80 => some [(16, 0, 36), (24, 0, 32), (28, 0, 16), (30, 0, 3)]
  | 0x81 => some [(16, 0, 8), (18, 0, 16), (20, 0, 8), (21, 0, 8)]
  | _ => none

/-- The OP codes of Tables 17-6 and 17-7. -/
def fwOps : List Nat :=
  [0x01, 0x02, 0x03, 0x04, 0x05, 0x10, 0x11, 0x12, 0x13, 0x14, 0x20, 0x21, 0x22, 0x23, 0x24, 0x25, 0x27, 0x30, 0x31, 0x32, 0x33,
   0x34, 0x35, 0x36, 0x37, 0x38, 0x40, 0x41, 0x42, 0x43, 0x44, 0x45, 0x50, 0x51, 0x52, 0x60, 0x61, 0x62, 0x70, 0x71, 0x80, 0x81,
   0x82]

/-- The commands that mailbox 31 accepts (R365). -/
def urgentOp (op : Nat) : Bool := op == 0x03 || op == 0x25 || op == 0x22 || op == 0x43

def blockHeader : List (Nat × Nat) := [(0, 8), (16, 16), (32, 8), (64, 20), (96, 20)]

/-- The word and the block have the form of Tables 17-1, 17-2, 17-6 and 17-7; body bits that no field names are reserved
(DEDUCED from R6, log 18). -/
def FwOut.formOk (o : FwOut) : Bool :=
  let c := o.cmd
  if c.mbox == 31 && !urgentOp o.op then false
  else if c.blk then
    match blockBody o.op with
    | none => false
    | some fs =>
      !stray c.word [(0, 9), (16, 16), (32, 24)] && c.block % 64 == 0 && decide (0x1000 ≤ c.block ∧ c.block + c.len ≤ 0x40000)
        && bits o.blk 0 8 == o.op && bits o.blk 16 16 == c.cid
        && !stray o.blk (blockHeader ++ fs.map fun f => (8 * f.1 + f.2.1, f.2.2))
  else
    match wordArgs o.op with
    | none => false
    | some fs => !stray c.word ([(0, 8), (16, 16)] ++ fs)

/-- Entries of a COUNTERS_READ scope (R442, Table 21-2). -/
def scopeEntries (scope : Nat) : Nat := [14, 31, 277, 83, 21, 7, 24, 20].getD scope 0

/-- The dies of a mask. -/
def dieMask (m : Nat) : List Nat := (List.range 36).filter fun d => m / 2 ^ d % 2 == 1

/-- A calibration record that is not missing (R407). -/
def State.cal (s : State) (n : Nat) : Option (List Byte) := if s.nv.bad.contains n then none else SMap.find? s.nv.cal n

/-- Bytes that a command needs at RESULT_AT. -/
def State.resultNeed (s : State) (o : FwOut) : Nat :=
  if !o.cmd.blk then 0 else
  match o.op with
  | 0x01 => 512
  | 0x02 => 16 * 330
  | 0x10 => 512
  | 0x12 => ((s.cal (o.body 16 0 32)).getD []).length
  | 0x14 =>
    let src := o.body 80 0 8
    if src = 0 then 320 + 96 * s.sec.log.length + (chainBytes s.nv.chain).length
    else match (s.port (src - 1)).quote with
      | some q => q.length
      | none => 0
  | 0x35 => if o.resultAt = 0 then 0 else 128
  | 0x80 => 16 + 16 * 41 * 8 * (dieMask (o.body 16 0 36)).length
  | 0x81 => 12 * scopeEntries (o.body 16 0 8)
  | _ => 0

/-- RESULT_AT lies in the staging area and RESULT_LEN suffices (Table 17-3, order 1). -/
def State.resultOk (s : State) (o : FwOut) : Bool :=
  if !o.cmd.blk then true else
  let n := s.resultNeed o
  if o.resultAt = 0 ∧ n = 0 then true
  else o.resultAt % 64 == 0 && decide (0x60000 ≤ o.resultAt ∧ o.resultAt + o.resultLen ≤ 0x100000 ∧ n ≤ o.resultLen)

/-! The inbound mailboxes (R360, R365). -/

/-- A read of a mailbox by an agent of one of its sides: the value, and by the receiver the next write lands (R360). -/
def State.mbxRead (s : State) (b : MbxBlk) (n agent : Nat) : Word × State :=
  let v := s.rd (.mbxData b n)
  if !mbxReceives b n agent then (v, s)
  else if !s.mbxFull b n then (0, s)
  else
    let s := s.setBitOf (.mbxStatus b) n false
    let s := match s.takeWait b n with
      | (some w, s') => (s'.mbxLand b n w.sender w.data).answer w.host w.sender 0 0
      | (none, _) => s
    (v, match b with
      | .mgmt => if 32 ≤ n then s.pump n 64 else s
      | _ => s)

/-- Firmware reads a mailbox that holds a word, but none whose completion queue is full (R371). -/
def State.mbxReadable (s : State) (n : Nat) : Bool :=
  s.mbxFull .mgmt n && (n == 31 || decide ((SMap.get (fun _ => []) s.cplq (32 + n)).length < 64))

/-- The mailbox that firmware reads next: 31 first, then 0 to 30 in rotation. -/
def State.nextMbx (s : State) : Option Nat :=
  if s.mbxReadable 31 then some 31 else ((List.range 31).map fun i => (s.fwTurn + i) % 31).find? s.mbxReadable

/-- The command is the word of the mailbox that is read next, or one that a management core has read from its mailbox already. -/
def State.fwHolds (s : State) (c : FwCmd) : Bool :=
  !s.mbxFull .mgmt c.mbox || (decide (s.nextMbx = some c.mbox) && s.rd (.mbxData .mgmt c.mbox) == c.word
    && s.fld (.mbxSender .mgmt c.mbox) F.mbxSenderSender == c.sender)

/-- Firmware reads the word: its mailbox is EMPTY, and the rotation goes on from the one after it. -/
def State.fwTake (s : State) (c : FwCmd) : State :=
  if !s.mbxFull .mgmt c.mbox then s
  else { (s.mbxRead .mgmt c.mbox agentMgmt).2 with fwTurn := if c.mbox = 31 then s.fwTurn else (c.mbox + 1) % 31 }

/-! Rights and what a command names (R367, R368). -/

/-- The partition a command names, if any: HATCH_CLOSE names its entry's, COUNTERS_READ scope 7 that of its body. -/
def State.namedPart (s : State) (o : FwOut) : Option Nat :=
  if o.op = 0x62 then some (s.hatch (o.arg 32 10)).part
  else if o.op = 0x81 then (if o.body 16 0 8 = 7 then some (o.body 20 0 8) else none)
  else if [0x20, 0x21, 0x22, 0x23, 0x24, 0x25, 0x27, 0x30, 0x31, 0x32, 0x33, 0x34, 0x35, 0x36, 0x37, 0x38, 0x40, 0x41, 0x42, 0x43,
      0x44, 0x45, 0x50, 0x51, 0x52, 0x61, 0x71].contains o.op then some o.part
  else none

/-- The job a command names, if any. -/
def FwOut.namedJob (o : FwOut) : Option Nat :=
  if o.op = 0x81 then (if o.body 16 0 8 = 7 then some (o.body 21 0 8) else none)
  else if [0x23, 0x24, 0x25, 0x27, 0x30, 0x31, 0x32, 0x33, 0x34, 0x35, 0x36, 0x37, 0x38, 0x40, 0x41, 0x42, 0x43, 0x45].contains o.op
  then some o.job else none

/-- Whether a partition exists and is enabled. -/
def State.partOn (s : State) (p : Nat) : Bool := decide (p < 12) && s.partEn p

/-- The sender holds the right (R368). -/
def State.hasRight (s : State) (o : FwOut) : Bool :=
  if o.cmd.sender = 1 then true
  else if [0x03, 0x20, 0x21, 0x70, 0x71, 0x04, 0x05, 0x10, 0x11, 0x12, 0x13, 0x60, 0x80].contains o.op then false
  else match s.namedPart o with
    | some p => s.partOn p && (s.part p).owner == o.cmd.sender
    | none => true

/-- What the current bring-up stage serves (R369, R394). -/
def stageServes (stage op : Nat) : Bool :=
  let rom := op == 0x02 || op == 0x03
  if stage = 0xFF then rom
  else if stage < 6 then rom || op == 0x10
  else if stage < 13 then rom || [0x01, 0x04, 0x05, 0x12, 0x13, 0x14, 0x82].contains op
  else op != 0x10

/-! Status codes (Table 17-5). -/

def KS.ok : Nat := 0
def KS.busy : Nat := 1
def KS.badArg : Nat := 2
def KS.noResource : Nat := 3
def KS.denied : Nat := 4
def KS.timeout : Nat := 5
def KS.fault : Nat := 6
def KS.stepSkew : Nat := 7
def KS.hatchClosed : Nat := 8
def KS.targetResetting : Nat := 9
def KS.notReady : Nat := 10
def KS.signature : Nat := 11
def KS.revoked : Nat := 12
def KS.cancelled : Nat := 13

/-! Completions (R370, R371, Table 17-4). -/

/-- How a command ends: STATUS, RESULT0, RESULT from record byte 16, BLOCKCODE and RULE of a refused apply. -/
structure FwEnd where
  status : Nat
  r0 : Nat
  result : Nat
  code : Nat
  rule : Nat
  deriving DecidableEq, Repr

def FwEnd.of (status : Nat) : FwEnd := ⟨status, 0, 0, 0, 0⟩
def FwEnd.good : FwEnd := FwEnd.of KS.ok

/-- What performing a command answers: its end, or what it waits for. -/
inductive FwRes where
  | done (e : FwEnd) (s : State)
  | wait (w : FwWait) (s : State)
  /-- DEVICE_RESET ends every command without completion. -/
  | silent (s : State)

def FwRes.bad (s : State) (status : Nat) : FwRes := .done (.of status) s

/-- The completion word; an urgent command's goes into an event record. -/
def State.completeWord (s : State) (c : FwCmd) (e : FwEnd) : State :=
  let w := packBits [(16, e.status), (16, c.cid), (8, c.op), (24, e.r0)]
  if c.mbox = 31 then s.post 0x0B 0 0 0 [(8, 8, w)] else s.postWord (32 + c.mbox) (BitVec.ofNat 64 w)

/-- The completion record, then the word. -/
def State.complete (s : State) (c : FwCmd) (e : FwEnd) : State :=
  let a := 0x40000 + 64 * (c.cid % 1024)
  let w0 := packBits [(16, e.status), (16, c.cid), (8, c.op), (8, c.mbox), (8, e.code), (8, e.rule)]
  (((s.winWrite a 8 w0).winWrite (a + 8) 8 s.beatNo.toNat).winWrite (a + 16) 48 e.result).completeWord c e

/-- An outstanding command ends. -/
def State.endCmd (s : State) (o : FwOut) (e : FwEnd) : State :=
  ({ s with fw := s.fw.filter fun x => !decide (x.cmd.cid % 1024 = o.cmd.cid % 1024) } : State).complete o.cmd e

/-- Every outstanding command that meets a test ends with a status. -/
def State.cancel (s : State) (status : Nat) (p : FwOut → Bool) : State :=
  (s.fw.filter p).foldl (fun (s : State) o => s.endCmd o (.of status)) s

/-- Outstanding commands that wait for something. -/
def State.fwWaiting (s : State) (w : FwWait) : List FwOut := s.fw.filter fun o => decide (o.wait = w)

/-- Those commands complete. -/
def State.complete? (s : State) (w : FwWait) (e : FwOut → FwEnd) : State :=
  (s.fwWaiting w).foldl (fun (s : State) o => s.endCmd o (e o)) s

def State.setWait (s : State) (o : FwOut) (w : FwWait) : State :=
  { s with fw := s.fw.map fun x => if x.cmd.cid % 1024 = o.cmd.cid % 1024 then { x with wait := w } else x }

/-! Turns (R374). Device-wide commands and commands of other partitions that change the same block's shadow are also kept one
behind the other, which R374 leaves open (log 19). -/

/-- Commands that are performed at once. -/
def noTurn (op : Nat) : Bool := [0x01, 0x82, 0x81, 0x14, 0x51, 0x52].contains op

/-- The shadowed block that a command's apply uses, by a number. -/
def applyClass (op : Nat) : Nat :=
  match op with
  | 0x20 => 1 | 0x21 => 1
  | 0x30 => 2
  | 0x36 => 3
  | 0x50 => 4
  | 0x61 => 5 | 0x62 => 5
  | 0x70 => 6 | 0x71 => 6
  | 0x05 => 7
  | 0x60 => 8
  -- one restore at a time reads a tithe store
  | 0x37 => 9
  | _ => 0

/-- An earlier outstanding command keeps a later one waiting. -/
def State.before (s : State) (a b : FwOut) : Bool :=
  if noTurn a.op || noTurn b.op then false
  else if b.op = 0x62 then
    -- two closes of one hatch may both be outstanding (Table 17-11)
    (a.op == 0x61 && a.body 16 0 16 == b.arg 32 10) || (a.op != 0x62 && applyClass a.op == 5)
  else
    let samePart := a.op != 0x62 && (match s.namedPart a, s.namedPart b with
      | some p, some q => p == q
      | _, _ => false)
    samePart || (applyClass b.op != 0 && applyClass a.op == applyClass b.op && (match a.wait with
      | .hatch _ => false
      | .reset _ _ => false
      | _ => true))

/-- The commands outstanding that firmware read before this one. -/
def State.ahead (s : State) (o : FwOut) : List FwOut :=
  s.fw.takeWhile fun x => !decide (x.cmd.cid % 1024 = o.cmd.cid % 1024)

def State.hasTurn (s : State) (o : FwOut) : Bool := !(s.ahead o).any fun a => s.before a o

/-- Commands of the same partition that wait for their turn. -/
def State.queueLen (s : State) (o : FwOut) : Nat :=
  (s.fw.filter fun x => decide (x.wait = FwWait.turn) && !noTurn x.op && (match s.namedPart x, s.namedPart o with
    | some p, some q => p == q
    | _, _ => false)).length

/-! Shadows as firmware writes them (R52). -/

/-- Firmware writes the shadow of a register and arms its block for the coming tick. -/
def State.fwShadow (s : State) (r : Reg) (v : Word) : State :=
  let s := s.wrS r (r.fields.foldl (fun w f => shadowField w v f) (s.rdS r))
  -- a seed written is a seed to load (R75)
  match r with
  | .coRngSeed _ => s.markWrite r
  | _ => s

def State.fwArm (s : State) (bs : List Blk) : State := bs.foldl (fun (s : State) b => (s.unarm b).armBlk b false) s

/-- BLOCKCODE (Table 17-4). -/
def blockCode : Blk → Nat
  | .beat => 1 | .co _ => 2 | .me _ => 3 | .vu _ => 4 | .mvp _ => 5 | .silo _ => 6 | .loftSilo _ => 6 | .cl _ => 7 | .dma _ => 8
  | .dsp _ => 9 | .grn _ => 10 | .tt _ => 11 | .win _ => 12 | .seq => 13 | .gate _ => 14 | .hatch _ => 15 | .pwr => 16 | .mgt => 17 | .atb => 0

/-- Firmware restores the shadows it wrote when an apply that it made is refused (log 20). -/
def State.fwRefused (s : State) (bs : List Blk) : State :=
  -- a number that waits to be set is no setting of the refused apply (R34)
  let v := s.rdS .beatNumberSet
  (bs.foldl (fun (s : State) b => (s.unarm b).revert b) s).wrS .beatNumberSet v

/-- The first failing rule of several blocks that firmware would arm together, checked in their order. -/
def State.firstRule (s : State) (bs : List Blk) : Option (Blk × Nat) :=
  match bs with
  | [] => none
  | b :: t =>
    let n := s.withShadow b
    let k := firstFail (blkRules s n b)
    if k = 0 then State.firstRule n t else some (b, k)

end Sys2Proof.Machine
end

