-- ==== Sys2Proof/Machine/Security.lean ====
section
/-! DEFINITION. The root of trust: signed objects, the measurement log, quotes (chapter 18). -/

namespace Sys2Proof.Machine

/-- Little-endian bytes as a number. -/
def leOf (l : List Byte) : Nat := packNat 8 (l.map BitVec.toNat)

/-- A piece of an object. -/
def subBytes (l : List Byte) (a n : Nat) : List Byte := (l.drop a).take n

def State.winBytes (s : State) (a n : Nat) : List Byte := (List.range n).map fun i => s.winByte (a + i)

def State.winPut (s : State) (a : Nat) (l : List Byte) : State := { s with window := winWriteBytes s.window a l }

/-- A range lies in the staging area (Table 16-4). -/
def staged (a n : Nat) : Bool := decide (0x60000 ≤ a ∧ a + n ≤ 0x100000)

/-! Signed objects (Tables 18-2, 18-3). -/

def objNum (l : List Byte) (a n : Nat) : Nat := leOf (subBytes l a n)
def objSvn (l : List Byte) : Nat := objNum l 5 1
def objKey (l : List Byte) : Nat := objNum l 7 1
def objBodyLen (l : List Byte) : Nat := objNum l 8 4
def objBody (l : List Byte) : List Byte := subBytes l 128 (objBodyLen l)
def objCert (l : List Byte) : List Byte := subBytes l (128 + objBodyLen l) 288
def objSig (l : List Byte) : List Byte := subBytes l (416 + objBodyLen l) 132

/-- A reserved field of the header or the certificate is not 0. -/
def objReserved (kind : Nat) (l : List Byte) : Bool :=
  let c := objCert l
  decide (1 < objNum l 6 1) || (kind != 1 && (objNum l 6 1 != 0 || objNum l 12 8 != 0)) || (kind != 3 && objNum l 20 8 != 0)
    || objNum l 28 36 != 0 || objNum c 137 7 != 0 || objNum c 276 12 != 0

/-- The checks of Table 18-4 in order; KS_OK when none fails (R383). -/
def State.verify (s : State) (kind : Nat) (l : List Byte) : Nat :=
  let key := objKey l
  let own := key == 0xFF
  let cert := objCert l
  let svn := objSvn l
  if objNum l 0 4 ≠ 0x5A445347 ∨ objNum l 4 1 ≠ kind ∨ objReserved kind l ∨ objBodyLen l + 548 ≠ l.length then KS.badArg
  else if !own && (!signedBy Config.rootKey (Config.sha512 (cert.take 144)) (subBytes cert 144 132) || objNum cert 2 1 != key) then
    KS.signature
  else if decide (key < 64) && bitAt s.sec.revoke key then KS.revoked
  else if (if own then kind != 3 else objNum cert 3 1 / 2 ^ (kind - 1) % 2 == 0) then KS.signature
  else if !signedBy (if own then Config.identityKey else subBytes cert 4 133) (Config.sha512 (l.take 128)) (objSig l) then
    KS.signature
  else if decide (Config.sha512 (objBody l) ≠ BitVec.ofNat 512 (objNum l 64 64)) then KS.signature
  else if svn < (if kind = 1 then s.thermo else s.minSvn) then KS.revoked
  else if kind = 3 ∧ objNum l 20 8 ≠ Config.deviceId.toNat then KS.badArg
  else if kind = 1 ∧ (objNum l 12 8 / 2 ^ key % 2 = 1 ∨ (objNum l 6 1 = 1 ∧ svn < s.thermo)) then KS.badArg
  else KS.ok

/-! Measurement (R387, R388). -/

/-- A log entry (Table 18-5). -/
def State.logEntry (s : State) (kind detail : Nat) (digest : BitVec 512) : BitVec 768 :=
  BitVec.ofNat 768 (packBits [(64, kind), (64, s.beatNo.toNat), (64, detail), (64, 0), (512, digest.toNat)])

/-- An event is measured: M is extended; the entry is kept while the log has room. -/
def State.measure (s : State) (kind detail : Nat) (over_ : List Byte) : State :=
  let e := s.logEntry kind detail (Config.sha512 over_)
  let m := Config.sha512 (bytesOf 64 s.sec.m.toNat ++ bytesOf 96 e.toNat)
  let log := if s.sec.log.length < 4096 then s.sec.log ++ [e] else s.sec.log
  { s with sec := { s.sec with m := m, log := log, logCount := s.sec.logCount + 1 } }

/-- An image with COMMIT reaches READY: fuses are programmed and measured (R386). -/
def State.commitFuses (s : State) : State :=
  if !s.sec.imageCommit then s else
  let s := { s with sec := { s.sec with thermo := blowThermo s.sec.thermo s.sec.imageSvn, revoke := s.sec.revoke ||| s.sec.imageRevoke } }
  s.measure 8 s.thermo s.fuseBytes

/-- An accepted image (R383, R385, R388). -/
def State.acceptImage (s : State) (l : List Byte) : State :=
  let s := s.measure 2 (objSvn l + objKey l * 256 + objNum l 6 1 * 65536) (l.take 128)
  { s with minSvn := Config.imageMinSvn (objBody l),
           sec := { s.sec with imageKey := objKey l, imageSvn := objSvn l, imageRevoke := BitVec.ofNat 64 (objNum l 12 8),
                               imageCommit := decide (objNum l 6 1 = 1), imageOk := true, image := objBody l } }

/-! The calibration set (R407 to R411). -/

/-- The records of Table 19-4. -/
def calRecord (n : Nat) : Bool :=
  let k := n % 65536
  match n / 65536 with
  | 1 => k == 0
  | 2 => decide (k < 12)
  | 3 => decide (k < 192)
  | 4 => decide (k < 36)
  | 5 => decide (k < 36)
  | 6 => decide (k < 36)
  | _ => false

/-- The record that CAL_WRITE or a capture replaces serves until the next tick (Table 19-4). -/
def State.calKeep (s : State) (n : Nat) : State :=
  if s.calLate.any fun x => x.1 == n then s else { s with calLate := s.calLate ++ [(n, s.cal n)] }

/-- The record in force. -/
def State.calNow (s : State) (n : Nat) : Option (List Byte) :=
  match s.calLate.find? fun x => x.1 == n with
  | some x => x.2
  | none => s.cal n

def State.setCal (s : State) (n : Nat) (l : List Byte) : State :=
  let s := s.calKeep n
  { s with nv := { s.nv with cal := SMap.put (fun _ => []) s.nv.cal n l, bad := s.nv.bad.filter fun k => k != n } }

/-- Bytes that the set takes (R409). -/
def State.calBytes (s : State) : Nat := s.nv.cal.foldl (fun a p => a + p.2.length) 0

/-- PROVISIONAL of a record (Table 19-5). -/
def calProvisional (l : List Byte) : Bool := objNum (objBody l) 4 1 / 2 % 2 == 1

/-- The dies that a record serves. -/
def calDies (n : Nat) : List Nat := if 4 ≤ n / 65536 then [n % 65536] else []

/-- A record of a class that takes effect at the next tick does so. -/
def State.calTakes (s : State) (n : Nat) : State := { s with calDue := dedup (s.calDue ++ calDies n) }

/-- A cluster's LDO trim before the clamp; none where the margin or droop record is missing (R410, R411). -/
def State.ldoTrim (s : State) (d k : Nat) : Option Int :=
  match s.calNow (0x40000 + d), s.calNow (0x50000 + d) with
  | some m, some g =>
    some (Config.calTrim (objBody m) k + Config.calTrim (objBody g) k + (if calProvisional m || calProvisional g then 15 else 0))
  | _, _ => none

/-- The trims of a die take effect: each clamp is counted (R410). -/
def State.trimDie (s : State) (d : Nat) : State :=
  let n := ((List.range 8).filter fun k => match s.ldoTrim d k with
    | some v => decide (v < -60 ∨ 30 < v)
    | none => false).length
  if n = 0 then s else s.count C.calGuardClamp d n

/-- The tick brings the new records into force and applies the trims due (Table 19-4). -/
def State.applyTrims (s : State) : State :=
  { s.calDue.foldl (fun (s : State) d => s.trimDie d) { s with calLate := [] } with calDue := [] }

end Sys2Proof.Machine
end

