-- ==== Sys2Proof/Machine/Seq.lean ====
section
/-! DEFINITION. The sequence manager (chapter 13): entries, page sets, the step boundary of Table 13-2, the plan; the adoption of
generations by views (R225). -/

namespace Sys2Proof.Machine

/-! Entries (Table 13-1). -/

structure SeqEnt where
  state : Nat
  preempts : Nat
  join : Nat
  length : Nat
  prompt : Nat
  sets : Nat
  tokens : Nat
  genFirst : Nat
  genLast : Nat
  fb : Nat
  limit : Nat
  deriving DecidableEq, Repr

def State.seqEnt (s : State) (n : Nat) : SeqEnt :=
  let a := s.rd (.seqEntry n 0); let b := s.rd (.seqEntry n 1); let d := s.rd (.seqEntry n 3)
  { state := bits a 0 3, preempts := bits a 3 5, join := bits a 32 32, length := bits b 0 24, prompt := bits b 24 24,
    sets := bits b 48 16, tokens := bits (s.rd (.seqEntry n 2)) 0 45, genFirst := bits d 0 8, genLast := bits d 8 8,
    fb := bits d 16 24, limit := bits d 40 24 }

def word (l : List (Nat × Nat)) : Word := BitVec.ofNat 64 (packBits l)

def State.setSeqEnt (s : State) (n : Nat) (e : SeqEnt) : State :=
  (((s.wr (.seqEntry n 0) (word [(3, e.state), (5, e.preempts), (24, 0), (32, e.join)])).wr (.seqEntry n 1)
    (word [(24, e.length), (24, e.prompt), (16, e.sets)])).wr (.seqEntry n 2) (word [(45, e.tokens)])).wr (.seqEntry n 3)
    (word [(8, e.genFirst), (8, e.genLast), (24, e.fb), (24, e.limit)])

/-! Settings (SEQ registers). -/

structure SeqCfg where
  first : Nat
  count : Nat
  job : Nat
  en : Bool
  clFirst : Nat
  clCount : Nat
  loftBase : Nat
  sets : Nat
  setPages : Nat
  pageTokens : Nat
  spillSets : Nat
  budget : Nat
  chunk : Nat
  maxRun : Nat
  specK : Nat
  reprefill : Bool
  view : Nat
  mapBase : Nat
  mapRows : Nat
  planBase : Nat
  deriving DecidableEq, Repr

def State.seqCfg (s : State) (p : Nat) : SeqCfg :=
  { first := s.fld (.seqShare p) F.seqShareFirst, count := s.fld (.seqShare p) F.seqShareCount, job := s.fld (.seqShare p) F.seqShareJob,
    en := s.flag (.seqShare p) F.seqShareEn, clFirst := s.fld (.seqPool p) F.seqPoolClFirst,
    clCount := s.fld (.seqPool p) F.seqPoolClCount, loftBase := s.fld (.seqPool p) F.seqPoolLoftBase,
    sets := s.fld (.seqPool p) F.seqPoolSets, setPages := s.fld (.seqSet p) F.seqSetSetPages,
    pageTokens := 2 ^ s.fld (.seqSet p) F.seqSetPtLog2, spillSets := s.fld (.seqSet p) F.seqSetSpillSets,
    budget := s.fld (.seqStep p) F.seqStepTokenBudget, chunk := s.fld (.seqStep p) F.seqStepChunk,
    maxRun := s.fld (.seqStep p) F.seqStepMaxRun, specK := s.fld (.seqStep p) F.seqStepSpecK,
    reprefill := s.flag (.seqStep p) F.seqStepGenPolicy, view := s.fld (.seqStep p) F.seqStepView,
    mapBase := s.fld (.seqRows p) F.seqRowsMapBase, mapRows := s.fld (.seqRows p) F.seqRowsMapRows,
    planBase := s.fld (.seqRows p) F.seqRowsPlanBase }

def SeqCfg.clusters (c : SeqCfg) : List Nat := (List.range c.clCount).map fun i => c.clFirst + i

def State.seqMgr (s : State) (p : Nat) : SeqMgr := (s.part p).seq
def State.setSeq (s : State) (p : Nat) (m : SeqMgr) : State := s.setPart p { s.part p with seq := m }

/-- The slots of a share in a state, in ascending JOIN order. -/
def State.slotsIn (s : State) (p : Nat) (st : Nat → Bool) : List Nat :=
  let c := s.seqCfg p
  let l := ((s.seqLive p).map fun n => n - c.first).filter fun i => st (s.seqEnt (c.first + i)).state
  sortBy (fun i => (s.seqEnt (c.first + i)).join) l

def State.slotEnt (s : State) (p i : Nat) : SeqEnt := s.seqEnt ((s.seqCfg p).first + i)
def State.setSlot (s : State) (p i : Nat) (e : SeqEnt) : State := s.setSeqEnt ((s.seqCfg p).first + i) e

/-! Page sets (R296 to R298). -/

def State.setsOf (s : State) (p i : Nat) : List Nat := SMap.get (fun _ => []) (s.seqMgr p).sets i

def State.loftFree (s : State) (p : Nat) : Nat := (s.seqCfg p).sets - ((s.seqMgr p).used.filter fun x => x % 4 == 1).length
def State.spillFree (s : State) (p : Nat) : Nat := (s.seqCfg p).spillSets - ((s.seqMgr p).used.filter fun x => x % 4 == 2).length

/-- SEQ_STATUS and SEQ_FREE. -/
def State.syncSeq (s : State) (p : Nat) : State :=
  let r := Reg.seqStatus p
  let s := ((s.setFld r F.seqStatusAdmitted (s.slotsIn p fun x => x == 2 || x == 3).length).setFld r F.seqStatusQueued
    (s.slotsIn p fun x => x == 1).length).setFld r F.seqStatusStep (s.seqMgr p).step
  (s.setFld (.seqFree p) F.seqFreeLoftFree (s.loftFree p)).setFld (.seqFree p) F.seqFreeSpillFree (s.spillFree p)

/-- The lowest free set of a pool. -/
def freeSet (used : List Nat) (loc n : Nat) : Option Nat :=
  (List.range (min n (used.length + 1))).findSome? fun i => if used.contains (4 * i + loc) then none else some (4 * i + loc)

/-- A row of the map in every cluster of the pool (R297). -/
def State.writePool (s : State) (c : SeqCfg) (row : Nat) (d : Row) : State :=
  c.clusters.foldl (fun (s : State) cl => s.fill (.loft cl row) d false none) s

/-- The map of a slot is written from its sets; entry j lies at byte 4j. -/
def State.writeMap (s : State) (p i : Nat) : State :=
  let c := s.seqCfg p
  (List.range c.mapRows).foldl (fun (s : State) r =>
    s.writePool c (c.mapBase + i * c.mapRows + r) (BitVec.ofNat 4096 (packNat 32 (((s.setsOf p i).drop (128 * r)).take 128)))) s

/-- A slot takes one set, loft first (R298). -/
def State.takeSet (s : State) (p i : Nat) : State :=
  let c := s.seqCfg p; let m := s.seqMgr p
  let x := match freeSet m.used 1 c.sets with
    | some x => some x
    | none => freeSet m.used 2 c.spillSets
  match x with
  | none => s
  | some x => s.setSeq p { m with used := m.used ++ [x], sets := SMap.put (fun _ => []) m.sets i (s.setsOf p i ++ [x]) }

/-- A slot takes n sets and its map is written. -/
def State.takeSets (s : State) (p i n : Nat) : State :=
  let s := (List.range n).foldl (fun (s : State) _ => s.takeSet p i) s
  let e := s.slotEnt p i
  (s.setSlot p i { e with sets := (s.setsOf p i).length }).writeMap p i

/-- The sets of a slot return; they are free from the following boundary on. -/
def State.returnSets (s : State) (p i : Nat) : State :=
  let m := s.seqMgr p
  s.setSeq p { m with returning := m.returning ++ s.setsOf p i, sets := SMap.put (fun _ => []) m.sets i [] }

/-- Sets freed at the previous boundary become free (Table 13-2, order 1). -/
def State.freeReturned (s : State) (p : Nat) : State :=
  let m := s.seqMgr p
  (s.emptySets p m.returning s).setSeq p { m with used := m.used.filter (fun x => !m.returning.contains x), returning := [] }

/-! Leaves, pre-emption, re-entry. -/

/-- The leave event (Table 17-8). -/
def State.leaveEvent (s : State) (p i reason : Nat) : State :=
  let e := s.slotEnt p i
  s.post 3 p (s.seqCfg p).job 0 [(8, 2, i), (12, 4, e.join), (16, 1, reason), (20, 4, e.length), (24, 1, e.genFirst), (25, 1, e.genLast),
    (28, 4, e.fb)]

/-- A sequence leaves: LEAVING with its sets returned, or FREE at once where it is cancelled in QUEUED; the cancel of it completes (Table 13-2). -/
def State.seqLeave (s : State) (p i reason : Nat) : State :=
  let e := s.slotEnt p i
  let s := s.leaveEvent p i reason
  let s := if e.state = 1 ∧ reason = 2 then s.setSlot p i { e with state := 0 } else (s.returnSets p i).setSlot p i { e with state := 4 }
  let m := s.seqMgr p
  (s.setSeq p { m with cancels := m.cancels.filter fun k => k != i }).complete? (.leave p i) fun _ => .good

/-- A sequence re-enters as a prompt (Table 13-2, order 5). -/
def State.reenter (s : State) (p i : Nat) : State :=
  let s := s.returnSets p i
  let e := s.slotEnt p i
  (s.setSlot p i { e with state := 1, prompt := e.length + 1, length := 0, sets := 0, preempts := min (e.preempts + 1) 31 }).writeMap p i

/-! The boundary (Table 13-2). -/

/-- The result word of plan entry e (R301). -/
def State.seqResult (s : State) (c : SeqCfg) (e : Nat) : Nat :=
  bits (s.row (.loft c.clFirst (c.planBase + 513 + e / 64))).data (64 * (e % 64)) 64

/-- Rows that hold the results of a plan. -/
def resultRows (n : Nat) : Nat := (n + 63) / 64

/-- Fallback counts of a job (Table 9-7). -/
def State.fallbacks (s : State) (p j : Nat) : Nat :=
  let k := jobKey p j
  s.ctr C.ttFbLower k + s.ctr C.ttFbGlean k + s.ctr C.ttFbSkip k + s.ctr C.ttFbUnavailable k

/-- One result applied: the state, whether it asked to finish, whether it was bad (R301, R303). -/
def State.applyResult (s : State) (p e : Nat) (q : Nat × Nat × Bool × Nat × Nat) (fell : Bool) : State × Bool × Bool :=
  let c := s.seqCfg p
  let (slot, kind, last, _, ntok) := q
  let w := s.seqResult c e
  let adv := w % 16; let fin := w / 16 % 2 == 1
  let x := s.slotEnt p slot
  let ok := w / 32 == 0 && (if kind = 0 then decide (1 ≤ adv ∧ adv ≤ 1 + c.specK) else adv == 0 && (!fin || last))
  if !ok then (s, false, true)
  else
    let n := if kind = 0 then adv else ntok
    (s.setSlot p slot { x with length := x.length + n, fb := if fell then min (x.fb + n) (2 ^ 24 - 1) else x.fb,
                               state := if last then 3 else x.state }, fin, false)

/-- Order 1: LEAVING entries become FREE, results are applied and their rows taken, returned sets become free. Answers the
slots that asked to finish and those with bad results. -/
def State.seqResults (s : State) (p : Nat) : State × List Nat × List Nat :=
  let c := s.seqCfg p; let m := s.seqMgr p
  let s := (s.slotsIn p fun x => x == 4).foldl (fun (s : State) i => s.setSlot p i { s.slotEnt p i with state := 0 }) s
  let fell := decide (m.fb < s.fallbacks p c.job)
  let (s, fins, bads) := (List.range m.plan.length).foldl (fun (a : State × List Nat × List Nat) e =>
    match m.plan[e]? with
    | none => a
    | some q =>
      let r := a.1.applyResult p e q fell
      (r.1, if r.2.1 then a.2.1 ++ [q.1] else a.2.1, if r.2.2 then a.2.2 ++ [q.1] else a.2.2)) (s, [], [])
  let s := (List.range (resultRows m.plan.length)).foldl (fun (s : State) r =>
    s.dmaTaken (.loft c.clFirst (c.planBase + 513 + r)) true) s
  (s.freeReturned p, fins, bads)

/-- A view adopts its source, or lets it go, at a boundary of its partition (R225). An unseal waits once a tick has found its tensor pinned: one asked
for since the last tick does not keep the view from adopting, and then waits (Table 9-8). -/
def State.adoptView (s : State) (i : Nat) : State :=
  let e := s.tt i
  let src := s.tt e.source
  let pinned := s.pinned.contains i
  let unsealing := s.seals.any fun w => w.tensor == e.source && w.undo && w.waited
  let unpin := fun (s : State) => if pinned then { s.ttPins e.source (src.pins - 1) with pinned := s.pinned.filter fun k => k != i } else s
  if unsealing then (if pinned then ((s.dropCopy i).ttRes i (if e.clCount = 0 then 3 else 0)) |> unpin else s)
  else if src.valid && (s.ttEff e.source).cls == 0 && (src.gen != e.srcGen || !pinned) then
    let s := ((s.dropCopy i).ttSet i 4 24 8 src.gen).bumpGen i
    if pinned then s else { s.ttPins e.source ((s.tt e.source).pins + 1) with pinned := s.pinned ++ [i] }
  else s

/-- Every view of a partition at its step boundary. -/
def State.adoptViews (s : State) (p : Nat) : State :=
  (s.ttListed.filter fun i => (s.tt i).valid && (s.tt i).view && (s.tt i).part == p).foldl (fun (s : State) i => s.adoptView i) s

/-- Order 2: the view's generation; under REPREFILL one that is new since the boundary before makes every admitted sequence re-enter. -/
def State.seqAdopt (s : State) (p : Nat) : State :=
  let c := s.seqCfg p
  let s := s.adoptViews p
  let g := (s.tt c.view).gen
  let old := (s.seqMgr p).gen
  let s := s.setSeq p { s.seqMgr p with gen := some g }
  if c.reprefill && old.isSome && old != some g then (s.slotsIn p fun x => x == 2 || x == 3).foldl (fun (s : State) i => s.reenter p i) s
  else s

/-- Order 3: the reason for which a sequence leaves, if any (Table 13-4; log 55). -/
def State.leaveReason (s : State) (p i : Nat) (fins bads : List Nat) : Option Nat :=
  let e := s.slotEnt p i
  if fins.contains i then some 1
  else if bads.contains i then some 4
  else if (s.seqMgr p).cancels.contains i then some 2
  else if e.limit ≤ e.length + 1 then some 3
  else none

def State.seqLeaves (s : State) (p : Nat) (fins bads : List Nat) : State :=
  (s.slotsIn p fun x => decide (1 ≤ x ∧ x ≤ 3)).foldl (fun (s : State) i => match s.leaveReason p i fins bads with
    | some r => s.seqLeave p i r
    | none => s) s

/-- The sets a DECODE sequence needs in all (order 4), and those it lacks. -/
def State.needAll (s : State) (p i : Nat) : Nat :=
  let c := s.seqCfg p
  ((s.slotEnt p i).length + c.specK) / c.pageTokens + 1

def State.needNew (s : State) (p i : Nat) : Nat := s.needAll p i - (s.setsOf p i).length

/-- Order 4: a need beyond the map makes the sequence leave. -/
def State.seqGrowth (s : State) (p : Nat) : State :=
  (s.slotsIn p fun x => x == 3).foldl (fun (s : State) i =>
    if 128 * (s.seqCfg p).mapRows < s.needAll p i then s.seqLeave p i 3 else s) s

/-- Order 5: the youngest DECODE sequences are pre-empted while the need exceeds the free sets. -/
def State.seqPreempt (s : State) (p : Nat) : Nat → State
  | 0 => s
  | k + 1 =>
    let l := s.slotsIn p fun x => x == 3
    let need := l.foldl (fun a i => a + s.needNew p i) 0
    match l.getLast? with
    | some i => if s.loftFree p + s.spillFree p < need then (s.reenter p i).seqPreempt p k else s
    | none => s

/-- Order 6. -/
def State.seqAllocate (s : State) (p : Nat) : State :=
  (s.slotsIn p fun x => x == 3).foldl (fun (s : State) i =>
    let n := s.needNew p i
    if n = 0 then s else s.takeSets p i n) s

/-- Order 7: QUEUED sequences are admitted in JOIN order until one cannot be. -/
def State.seqJoins (s : State) (p : Nat) : List Nat → State
  | [] => s
  | i :: t =>
    let c := s.seqCfg p
    let e := s.slotEnt p i
    let n := (e.prompt + c.pageTokens - 1) / c.pageTokens
    if (s.slotsIn p fun x => x == 2 || x == 3).length + 1 ≤ c.maxRun ∧ n ≤ s.loftFree p + s.spillFree p then
      ((s.setSlot p i { e with state := 2 }).takeSets p i n).seqJoins p t
    else s

/-- Prefill entries while the budget lasts (R300): slot, chunk and whether it ends the prompt. -/
def State.prefills (s : State) (p left : Nat) : List Nat → List (Nat × Nat × Bool × Nat × Nat)
  | [] => []
  | i :: t =>
    let c := s.seqCfg p
    let e := s.slotEnt p i
    let rest := e.prompt - e.length
    let want := min (128 * c.chunk) rest
    let n := if want ≤ left then want else left / 128 * 128
    if n = 0 ∧ left < want then []
    else (i, 1, decide (n = rest), e.length, n) :: s.prefills p (left - n) t

/-- The batch of a step (R300). -/
def State.seqBatch (s : State) (p : Nat) : List (Nat × Nat × Bool × Nat × Nat) :=
  let c := s.seqCfg p
  let ds := (s.slotsIn p fun x => x == 3).map fun i => (i, 0, false, (s.slotEnt p i).length, 1 + c.specK)
  ds ++ s.prefills p (c.budget - ds.length * (1 + c.specK)) (s.slotsIn p fun x => x == 2)

/-- Plan entries as Table 13-3 lays them out, each with the batch index of its first token. -/
def planWords (l : List (Nat × Nat × Bool × Nat × Nat)) : List Nat :=
  (l.foldl (fun (a : List Nat × Nat) q =>
    let (slot, kind, last, pos, ntok) := q
    (a.1 ++ [packBits [(14, slot), (1, kind), (1, b2n last), (24, pos), (13, ntok), (11, 0), (14, a.2)]], a.2 + ntok)) ([], 0)).1

/-- The plan rows become EMPTY, their tags only (R300). -/
def State.emptyPlan (s : State) (p : Nat) : State :=
  let c := s.seqCfg p
  (List.range 513).foldl (fun (s : State) r => c.clusters.foldl (fun (s : State) cl =>
    let x := s.row (.loft cl (c.planBase + r))
    s.setRow (.loft cl (c.planBase + r)) { x with tag := .empty }) s) s

/-- Order 8: the plan, every row of it; generations are recorded (R300, R303). -/
def State.seqCompose (s : State) (p : Nat) : State :=
  let c := s.seqCfg p; let m := s.seqMgr p
  let b := s.seqBatch p
  let g := (s.tt c.view).gen
  let tokens := b.foldl (fun a q => a + q.2.2.2.2) 0
  let head : Row := BitVec.ofNat 4096 (packBits [(48, m.step), (8, g), (8, 0), (15, b.length), (1, 0), (15, tokens)])
  let s := s.writePool c c.planBase head
  let rows := chunks 32 512 (planWords b)
  let s := (List.range 512).foldl (fun (s : State) r =>
    s.writePool c (c.planBase + 1 + r) (BitVec.ofNat 4096 (packNat 128 (rows.getD r [])))) s
  let s := b.foldl (fun (s : State) q =>
    let e := s.slotEnt p q.1
    s.setSlot p q.1 { e with genLast := g, genFirst := if q.2.1 = 1 ∧ q.2.2.2.1 = 0 then g else e.genFirst }) s
  s.setSeq p { m with plan := b, fb := s.fallbacks p c.job, step := m.step + 1, open_ := true }

/-- The boundary; `compose` is false where no step follows: a phase change waits, or the host is lost (R268, R430). -/
def State.seqBoundary (s : State) (p : Nat) (compose : Bool) : State :=
  let (s, fins, bads) := s.seqResults p
  let s := (s.seqAdopt p).seqLeaves p fins bads
  let s := s.seqGrowth p
  let s := s.seqPreempt p ((s.slotsIn p fun x => x == 3).length + 1)
  let s := s.seqAllocate p
  let s := s.seqJoins p (s.slotsIn p fun x => x == 1)
  let s := (s.setSeq p { s.seqMgr p with plan := [], open_ := false }).emptyPlan p
  let s := if compose then s.seqCompose p else s
  s.syncSeq p

/-- The step has ended (R299, R302): no task of the job holds a core, no group of it is undecided, the result rows are FULL, every channel of the job is
IDLE. The marked last task is the world's to know. -/
def State.seqEnded (s : State) (p : Nat) : Bool :=
  let c := s.seqCfg p
  let cls := s.clustersOf p
  !(s.tasks.any fun t => cls.contains t.cl && t.job == c.job && !decide (t.stat = .pooled))
    && !(s.groups.any fun g => cls.contains g.cl && g.job == c.job)
    && ((List.range (resultRows (s.seqMgr p).plan.length)).all fun r =>
        decide ((s.row (.loft c.clFirst (c.planBase + 513 + r))).tag = .full))
    && (cls.all fun cl => (List.range 32).all fun ch =>
        !(s.fld (.dmaChcfg cl ch) F.dmaChcfgJob == c.job && s.fld (.dmaChcfg cl ch) F.dmaChcfgMode != 0) || s.chState cl ch == 0)

/-! Rollback and kill (R428, R319). -/

/-- Every admitted sequence re-enters and the pool is freed; the step's results are not applied. -/
def State.seqRollback (s : State) (p : Nat) : State :=
  let s := (s.slotsIn p fun x => x == 2 || x == 3).foldl (fun (s : State) i => s.reenter p i) s
  let s := (s.slotsIn p fun x => x == 4).foldl (fun (s : State) i => s.setSlot p i { s.slotEnt p i with state := 0 }) s
  (s.setSeq p { s.seqMgr p with used := [], returning := [], sets := [], plan := [], open_ := false }).syncSeq p

/-- The share of a killed job is freed with leave events of reason KILLED, but of those that have left already; the cancels of its sequences complete. -/
def State.seqKill (s : State) (p j : Nat) : State :=
  let c := s.seqCfg p
  if c.job ≠ j then s else
  let s := (s.slotsIn p fun _ => true).foldl (fun (s : State) i =>
    let s := if (s.slotEnt p i).state = 4 then s else s.leaveEvent p i 5
    (s.setSlot p i { s.slotEnt p i with state := 0 }).complete? (.leave p i) fun _ => .good) s
  (s.setSeq p { s.seqMgr p with used := [], returning := [], sets := [], plan := [], cancels := [], gen := none, open_ := false }).syncSeq p

/-! The commands (Tables 17-6 and 17-7). -/

/-- SEQ_JOIN (R294): the lowest FREE entry of the share. -/
def State.performSeqJoin (s : State) (o : FwOut) : FwRes :=
  let p := o.part
  let c := s.seqCfg p
  if !s.partOn p || !c.en || decide (2 ^ 24 ≤ o.body 24 0 32 ∨ 2 ^ 24 ≤ o.body 28 0 32) then .bad s KS.badArg else
  match (List.range c.count).find? fun i => (s.slotEnt p i).state == 0 with
  | none => .bad s KS.noResource
  | some i =>
    let m := s.seqMgr p
    let e : SeqEnt := { state := 1, preempts := 0, join := m.nextJoin, length := 0, prompt := o.body 24 0 24, sets := 0,
                        tokens := o.body 16 0 45, genFirst := 0, genLast := 0, fb := 0, limit := o.body 28 0 24 }
    let s := ((s.setSlot p i e).setSeq p { m with nextJoin := (m.nextJoin + 1) % 2 ^ 32 }).syncSeq p
    .done ⟨KS.ok, i, m.nextJoin, 0, 0⟩ s

/-- SEQ_CANCEL (R294, R299). -/
def State.performSeqCancel (s : State) (o : FwOut) : FwRes :=
  let p := o.part; let i := o.arg 40 14
  let c := s.seqCfg p
  if !s.partOn p || decide (c.count ≤ i) then .bad s KS.badArg
  else match (s.slotEnt p i).state with
    | 0 => .bad s KS.badArg
    | 4 => .done .good s
    | _ =>
      let m := s.seqMgr p
      .wait (.leave p i) (s.setSeq p { m with cancels := if m.cancels.contains i then m.cancels else m.cancels ++ [i] })

/-- SEQ_CONFIG (R304): the images of the partition's registers by SEQ apply. -/
def State.performSeqConfig (s : State) (o : FwOut) : FwRes :=
  let p := o.part
  let w := fun k => BitVec.ofNat 64 (o.body (16 + 8 * k) 0 64)
  let rs := [Reg.seqShare p, .seqPool p, .seqSet p, .seqStep p, .seqRows p]
  let clear := (List.range 5).all fun k => !stray (w k) ((rs.getD k .beatCtrl).fields.map fun f => (f.lo, f.len))
  if !s.partOn p || !clear then .bad s KS.badArg else
  let s := ((((s.fwShadow (.seqShare p) (w 0)).fwShadow (.seqPool p) (w 1)).fwShadow (.seqSet p) (w 2)).fwShadow (.seqStep p) (w 3)).fwShadow
    (.seqRows p) (w 4)
  .wait (.apply [.seq]) (s.fwArm [.seq])

end Sys2Proof.Machine
end

