-- ==== Sys2Proof/Machine/Jobs.lean ====
section
/-! DEFINITION. Frames and pages (R209, R212), the kill of a job (R203, R249, R319), partition reset (R318), step rollback and fallow
remap (R428, R429), phase changes (R268), stops (R180, R316). -/

namespace Sys2Proof.Machine

/-! Frames. -/

/-- Frames that page allocation can assign (R403, Table 17-9). -/
def State.frames (s : State) : Nat := if s.shape.lpddrAbsent.isEmpty then 9141504 else 0

def State.usedFrames (s : State) : List Nat :=
  (s.pageList.filterMap fun (p : Nat × Word) => if pgState p.2 = 1 then some (pgFrame p.2) else none)
    ++ s.moves.filterMap fun (m : Nat × Option PageMove) => m.2.bind fun x => if x.out then none else some x.frame

def State.freeFrames (s : State) : Nat := s.frames - s.usedFrames.length

/-- The lowest free frame. -/
def State.freeFrame (s : State) : Option Nat :=
  let used := s.usedFrames
  (List.range (min s.frames (used.length + 1))).find? fun i => !used.contains i

/-- A frame is written to zero with valid codes, row by row through the check-row caches (R211), and its granules count as unwritten. -/
def State.zeroFrame (s : State) (f : Nat) : State :=
  let s := (List.range 4096).foldl (fun (s : State) r => s.lpCheck (f * 4096 + r) true) s
  { s with lpddr := s.lpddr.filter fun p => !decide (f * 4096 ≤ p.1 ∧ p.1 < (f + 1) * 4096),
           epoch := s.epoch.filter fun p => !decide (f * 512 ≤ p.1 ∧ p.1 < (f + 1) * 512) }

/-- Firmware invalidates a page's entry in every translation and walk cache (R212). -/
def State.dropTrans (s : State) (p pg : Nat) : State :=
  let keep := fun (l : List (Nat × Nat × Word)) => l.filter fun x => !(x.1 == p && x.2.1 == pg)
  { s with walk := keep s.walk,
           clus := SMap.mapVals (fun _ => Clus.init) (fun _ (k : Clus) => { k with tlb := keep k.tlb }) s.clus,
           gates := SMap.mapVals (fun _ => Gate.init) (fun _ (k : Gate) => { k with tlb := keep k.tlb }) s.gates }

/-- A page's entry changes; rows of bring-ups that wait for a page land once it is PRESENT (R220). -/
def State.newPage (s : State) (p pg : Nat) (w : Word) : State :=
  let s := (s.dropTrans p pg).setPage p pg w
  if pgState w = 1 then s.landHeldRows else s

def State.noMove (s : State) (p pg : Nat) : State := { s with moves := SMap.erase s.moves (pageKey p pg) }

/-- A page becomes ABSENT: its frame is zeroed and freed; a HOST page is reported released (Table 17-7, R215). -/
def State.unmap (s : State) (p pg : Nat) : State :=
  let w := s.pageOf p pg
  let s := match SMap.get (fun _ => none) s.moves (pageKey p pg) with
    | some x => if x.out then s else s.zeroFrame x.frame
    | none => s
  let s := (s.noMove p pg).newPage p pg 0
  match pgState w with
  | 1 => s.zeroFrame (pgFrame w)
  | 2 => s.post 10 p (pgJob w) 0 [(8, 3, pg), (12, 3, pgFrame w)]
  | _ => s

/-- The pages of a job. -/
def State.jobPages (s : State) (p j : Nat) : List Nat :=
  s.pageList.filterMap fun (x : Nat × Word) =>
    if x.1 / 2 ^ 24 = p ∧ pgState x.2 ≠ 0 ∧ pgJob x.2 = j then some (x.1 % 2 ^ 24) else none

/-! Jobs of a partition. -/

/-- MGT_PARTp.JOBS (R308). -/
def State.syncJobs (s : State) (p : Nat) : State :=
  s.setFld (.mgtPart p) F.mgtPartJobs ((List.range 16).filter fun j => decide ((s.job p j).stat ≠ .free)).length

/-! Stopping a job (R57, R180, R309, R316). -/

/-- Running jobs of a partition whose RUN an apply of the DSP blocks as they stand would clear. -/
def State.runCleared (s : State) (p : Nat) : List Nat :=
  (List.range 16).filter fun j => decide ((s.job p j).stat = .running) && (s.clustersOf p).any fun cl =>
    !s.armed (.dsp cl) && s.flag (.dspJob cl j) F.dspJobRun && !bitAt (s.rdS (.dspJob cl j)) 0

/-- RUN of one job cleared in a cluster. -/
def runOff (j : Nat) (s : State) (cl : Nat) : Reg × Word := (.dspJob cl j, setBits (s.rdS (.dspJob cl j)) F.dspJobRun.lo F.dspJobRun.len 0)

/-- RUN of jobs is cleared in every cluster of the partition, by the apply of its DSP blocks. -/
def State.clearRun (s : State) (p : Nat) (js : List Nat) : State :=
  (s.clustersOf p).foldl (fun (s : State) cl =>
    s.fwApply (.dsp cl) (js.map fun j => runOff j s cl)) s

/-- Pre-emption of jobs: dispatch stops, executing tasks are discarded and re-queued (Table 14-2). -/
def State.preemptAll (s : State) (p : Nat) (js : List Nat) : State :=
  let cls := s.clustersOf p
  let s := s.clearRun p js
  let ts := s.tasks.filter fun t => t.resident && js.contains t.job && cls.contains t.cl
  let ids := bound s.tasks s.tasks.length (ts.map Task.id)
  let leaving := s.tasks.filter fun t => ids.contains t.id
  let s := ids.foldl (fun (s : State) id => s.requeueTask id) (s.finishVu ids)
  js.foldl (fun (s : State) j => s.setJob p j { s.job p j with stat := .stopped }) (s.wakeAfter leaving)

/-- Firmware's apply of registers of the DSP block in every cluster of the partition; jobs whose RUN it clears with them are pre-empted. -/
def State.dspPut (s : State) (p : Nat) (put : State → Nat → List (Reg × Word)) : State :=
  let others := s.runCleared p
  let s := (s.clustersOf p).foldl (fun (s : State) cl => s.fwApply (.dsp cl) (put s cl)) s
  if others.isEmpty then s else s.preemptAll p others

/-- Pre-emption of a job, with those whose RUN the same apply clears. -/
def State.preempt (s : State) (p j : Nat) : State := s.preemptAll p (dedup (j :: s.runCleared p))

/-- The status a stop reports (R155, R180, R243, R293). -/
def stopStatus (source : Nat) : Nat := if source = 4 then 2 else 6

/-- A job stopped by firmware: pre-empted, and reported by JOB_STOPPED with the record of its cause (Table 17-8). -/
def State.stopForFault (s : State) (p j : Nat) : State :=
  let b := s.job p j
  let s := (s.preempt p j).post 1 p j (stopStatus b.stopSource) [(8, 32, b.record.toNat), (40, 1, b.stopSource)]
  s.setJob p j { s.job p j with stopSource := 0, record := 0, stopDue := false }

/-- FAULT_JOB_STOP (R180, R155, R243): firmware's stop after a fault takes effect at the next tick (R309). -/
def execFaultJobStop (part job : Nat) (s : State) : Res :=
  unitOk (decide (part < 12 ∧ job < 16)) <|
  need (decide ((s.job part job).stopSource ≠ 0 ∧ (s.job part job).stat = .running)) s <|
  .next (s.setJob part job { s.job part job with stopDue := true })

/-! Channels and hatches of a job. -/

/-- Channels configured for a job, as cluster and channel; a FIRMWARE channel belongs to no job (R232). -/
def State.jobChans (s : State) (p j : Nat) : List (Nat × Nat) :=
  (s.clustersOf p).flatMap fun cl => (List.range 32).filterMap fun ch =>
    let mode := s.fld (.dmaChcfg cl ch) F.dmaChcfgMode
    if s.fld (.dmaChcfg cl ch) F.dmaChcfgJob = j ∧ mode ≠ 0 ∧ mode ≠ 3 then some (cl, ch) else none

/-- The request serves a channel: not a tithe, a restore or a reduction. -/
def RKind.ofChan (k : RKind) : Bool := !decide (k = .tithe) && !decide (k = .restore) && !decide (k = .reduce)

/-- A remote request of a channel may still land. -/
def State.chanBusy (s : State) (cl ch : Nat) : Bool :=
  (List.range 4).any fun g => (s.gate g).ot.any fun (e : Nat × Option OtEnt) => match e.2 with
    | some e => !e.expired && e.cl == cl && e.ch == ch && e.kind.ofChan
    | none => false

/-- MODE becomes OFF (R249); `both` when no later resume brings it back. -/
def State.chanOff (s : State) (cl ch : Nat) (both : Bool) : State :=
  let r := Reg.dmaChcfg cl ch
  let s := s.setFld r F.dmaChcfgMode 0
  if both then s.wrS r (setBits (s.rdS r) F.dmaChcfgMode.lo F.dmaChcfgMode.len 0) else s

/-- A transfer of a channel that stops issues no more rows; of those in flight the requests that are out land or are refused, and those that
wait for a row's tag alone go (R249). -/
def Xfer.drain (x : Xfer) : Xfer :=
  let out := fun (m : Move) => m.sent || (m.src.any (fun q => decide (q = Piece.asked)) && !m.src.any fun q => decide (q = Piece.todo))
  { x with next := dTotal x.desc, moves := x.moves.filter out, halt := none }

/-- A channel stops: its queue and ring counts are cleared, a PAUSED transfer is abandoned, no record is appended; with nothing in
flight MODE becomes OFF (R249). -/
def State.drainChan (s : State) (cl ch : Nat) (both : Bool) : State :=
  let k := s.chan cl ch
  let cur := if s.chState cl ch = 2 then [] else k.cur.toList
  let s := s.setChan cl ch { k with queue := [], buf := [], cur := none, tail := (k.tail ++ cur).map Xfer.drain, done := [], held := [],
                                    page := none, refetch := [] }
  let s := { s with waits := s.waits.filter fun w => !decide (w.2 = Waiter.chan cl ch) }
  let s := s.wr (.dmaRingPtr cl ch) 0
  if s.chanBusy cl ch then (s.setChState cl ch 1).syncChan cl ch
  else ((s.setChan cl ch { s.chan cl ch with tail := [] }).setChState cl ch 0).syncChan cl ch |>.chanOff cl ch both

def State.liveGates (s : State) : List Nat := (List.range 4).filter fun g => !s.shape.deadGate.contains g

/-- Granaries in service. -/
def State.granaries (s : State) : List Nat := (List.range 24).filter fun g => !s.shape.deadGran.contains g

/-- The entries of the hatch table that some gate's replica lists. -/
def State.hatchList (s : State) : List Nat := s.listedOf (hatchNo s.homeGate)

/-- The state of hatches changes, by the apply of every gate's replica (R344). -/
def State.applyHatches (s : State) (is : List Nat) (st : Nat) : State :=
  if is.isEmpty then s else
  s.liveGates.foldl (fun (s : State) g =>
    s.fwApply (.hatch g) (is.map fun i => (Reg.hatchEntry g i 0, setBits (s.rdS (.hatchEntry g i 0)) 0 2 st))) s

/-- The hatches of a job that are OPEN become CLOSING, and what is parked on them is answered (R319, R344). -/
def State.closeHatches (s : State) (p j : Nat) : State :=
  let mine := s.hatchList.filter fun i => let h := s.hatch i; h.state == 1 && h.part == p && h.job == j
  let s := s.applyHatches mine 2
  if mine.isEmpty then s else s.retryParked fun e => e.row.isSome && mine.contains e.hatch

/-- Requests that passed a hatch's check and wait in a granary. -/
def State.hatchBusy (s : State) (i : Nat) : Bool :=
  (List.range 4).any fun g => (s.gate g).park.any fun e => e.row.isNone && e.hatch == i

/-- Every hatch of a job is CLOSED. -/
def State.hatchesClosed (s : State) (p j : Nat) : Bool :=
  !s.hatchList.any fun i => let h := s.hatch i; h.state != 0 && h.part == p && h.job == j

/-- Tasks of a job in its partition's clusters. -/
def State.jobTasks (s : State) (p j : Nat) : List Nat :=
  let cls := s.clustersOf p
  (s.tasks.filter fun t => t.job == j && cls.contains t.cl).map Task.id

/-- A job's tasks and kick masks are cleared: pools, slots, retire entries (R203, step 1). -/
def State.clearTasks (s : State) (p j : Nat) : State :=
  let ids := s.jobTasks p j
  let cls := s.clustersOf p
  let leaving := s.tasks.filter fun t => ids.contains t.id
  let s := (s.finishVu (s.withBound ids)).removeTasks ids
  let s := { s with groups := s.groups.filter fun g => !(g.job == j && cls.contains g.cl) }
  if ids.isEmpty then s else (s.coresOf p).foldl (fun (s : State) c => (s.wakeUnits c).syncSlots c) (s.wakeAfter leaving)

/-- The winnowers' state (R286). -/
def State.winSt (s : State) (g : Nat) : Nat := s.fld (.winStatus g) F.winStatusState

/-- A job's command that is not released is withheld (R319). -/
def State.dropWin (s : State) (p j : Nat) : State :=
  match s.win with
  | none => s
  | some w => if w.part ≠ p ∨ w.job ≠ j then s else
    let s := s.granaries.foldl (fun (s : State) g =>
      if s.winSt g = 1 ∨ s.winSt g = 2 ∨ s.winSt g = 3 then s.setFld (.winStatus g) F.winStatusState 6 else s) s
    { s with win := none }

/-- A job's epoch clear is given up: what waited in the granaries for its end goes on, but its own accumulate-writes end with it (R227, R231). -/
def State.endClear (s : State) (p j : Nat) : State :=
  if !(s.job p j).clearing then s else
  let mine := fun (a : Arrival) => match a with
    | .write part job _ _ _ => part == p && job == j
    | _ => false
  let s := ({ s.setJob p j { s.job p j with clearing := false } with arrivals := s.arrivals.filter fun a => !mine a } : State).syncEpoch
  s.granariesGo

/-- Step 1 of the kill scrub with what R319 adds, and the start of step 2 (R249). -/
def State.killStart (s : State) (p j : Nat) : State :=
  let s := (s.dspPut p fun s cl => [runOff j s cl]).clearTasks p j
  let s := (s.seqKill p j).dropWin p j
  let gs := dedup ((s.tithes.filter fun (t : TitheRun) => t.part == p && t.job == j).map TitheRun.g)
  let s := { s with tithes := s.tithes.filter fun (t : TitheRun) => !(t.part == p && t.job == j),
                    packetsOut := s.packetsOut.filter fun (x : RedOut) => !(x.part == p && x.job == j),
                    restore := s.restore.filter fun (r : RestoreRun) => !(r.part == p && r.job == j),
                    seals := s.seals.filter fun w => !((s.tt w.tensor).part == p && (s.tt w.tensor).job == j) }
  let s := gs.foldl (fun (s : State) g => s.settleWin g) s
  let s := (s.jobChans p j).foldl (fun (s : State) c => s.drainChan c.1 c.2 true) s
  let s := (s.endClear p j).setJob p j { s.job p j with
    stat := .killing, drained := false, viewless := false, scrubbed := false, stopSource := 0, record := 0, stopDue := false, stage := .none,
    clearing := false, packets := [], device := none, result := none, arrived := none, normOut := [] }
  (s.closeHatches p j).syncJobs p

/-- Step 2 has ended (R319). -/
def State.killDrained (s : State) (p j : Nat) : Bool :=
  decide ((s.job p j).stat = .killing) && !(s.job p j).drained && s.hatchesClosed p j
    && (s.jobChans p j).all fun c => !s.chanBusy c.1 c.2

/-- Rows of a job's quota: near stores and lofts of the partition (R203, steps 3 and 4). -/
def State.quotaKeys (s : State) (p j : Nat) (k : Nat) : Bool :=
  if k < 2 ^ 32 then
    let c := k / 8192; let r := k % 8192
    decide (s.partOfCore c = some p) && s.inNear (c / 8) j r
  else
    let cl := (k - 2 ^ 32) / 2 ^ 20; let r := (k - 2 ^ 32) % 2 ^ 20
    decide (s.partOfCluster cl = some p) && s.inLoft cl j r

/-- The silos of a job are reset: pointers 0, EN 0 where asked (R203 step 5, R428 step 3). -/
def State.resetSilos (s : State) (p j : Nat) (dropEn : Bool) : State :=
  ((s.clustersOf p).flatMap fun cl => siloBlk (.loftSilo cl) ++ (List.range 8).flatMap fun i => siloBlk (.silo (8 * cl + i))).foldl
    (fun (s : State) x =>
      let y := s.silo x
      if !y.en || y.job != j then s else
      let s := (s.wr (siloPtrReg x) 0).wr (siloPendReg x) 0
      let r := siloCfgReg x
      if dropEn then (s.setFld r F.siloCfgEn 0).wrS r (setBits (s.rdS r) F.siloCfgEn.lo F.siloCfgEn.len 0) else s) s

/-- Rows that run-ahead filled and no one took are made EMPTY (Table 10-6). -/
def State.evict (s : State) (p j : Nat) (gone : Nat → Bool) : State :=
  let l := s.rows.filter fun (x : Nat × RowSt) => gone x.1 && decide (x.2.tag = .full ∨ x.2.tag = .poison) && match x.2.note with
    | some n => n.ahead
    | none => false
  if l.isEmpty then s else s.countJob C.pfEvicted p j l.length

/-- Steps 3 to 6 of the kill scrub. -/
def State.killScrub (s : State) (p j : Nat) : State :=
  let s := (s.jobChans p j).foldl (fun (s : State) c =>
    ((s.setChan c.1 c.2 Chan.init).setChState c.1 c.2 0).syncChan c.1 c.2 |>.chanOff c.1 c.2 true) s
  let s := (s.tensorsOf p j).foldl (fun (s : State) i => if (s.tt i).res = 1 then s.dropBringup i else s) s
  let s := s.evict p j (s.quotaKeys p j)
  let s : State := { s with rows := s.rows.filter fun x => !s.quotaKeys p j x.1 }
  let s := (s.resetSilos p j true).dropCaches p
  s.setJob p j { s.job p j with drained := true }

/-- Entries of the tensor table are invalidated, by the apply of every replica; a view's pin goes with it (R219, R225). -/
def State.invalidate (s : State) (is : List Nat) : State :=
  if is.isEmpty then s else
  s.granaries.foldl (fun (s : State) g =>
    s.fwApply (.tt g) (is.map fun i => (Reg.ttEntry g i 0, setBits (s.rdS (.ttEntry g i 0)) 0 1 0))) s

/-- The views of a killed job's tensors are invalidated, in any partition (R319). -/
def State.dropViews (s : State) (p j : Nat) : State :=
  (s.ttListed.filter fun i => let e := s.tt i; e.valid && e.view
      && (let q := s.tt e.source; q.valid && q.part == p && q.job == j)).foldl (fun (s : State) i =>
    let e := s.tt i
    let s := s.dropCopy i
    let s : State := { s.invalidate [i] with goneViews := s.goneViews ++ [i] }
    s.post 9 e.part e.job 0 [(8, 2, i), (10, 2, e.source)]) s

/-- The layer records of a job: those whose weight is a tensor of its partition. -/
def State.layersOf (s : State) (p j : Nat) : List Nat :=
  sortBy id ((s.listedOf (layerNo s.homeGran)).filter fun i => (s.layer i).valid && (s.layer i).job == j && (s.tt (s.layer i).w).part == p)

/-- Before step 7, at a tick: the views of the job's tensors go (R319). -/
def State.killViews (s : State) (p j : Nat) : State :=
  let s := s.dropViews p j
  s.setJob p j { s.job p j with viewless := true }

/-- Step 7 of the kill scrub: the pages (R203, R215). -/
def State.killPages (s : State) (p j : Nat) : State :=
  let s := (s.jobPages p j).foldl (fun (s : State) pg => s.unmap p pg) s
  s.setJob p j { s.job p j with scrubbed := true }

/-- After step 7, at a tick: the job's entries go, and it is FREE (R309, R319). -/
def State.killDone (s : State) (p j : Nat) : State :=
  let layers := s.layersOf p j
  let s := if layers.isEmpty then s else s.granaries.foldl (fun (s : State) g =>
    let s := s.fwApply (.win g) (layers.map fun i => (Reg.layer g i 0, setBits (s.rdS (.layer g i 0)) 0 1 0))
    layers.foldl (fun (s : State) i => (List.range 4).foldl (fun (s : State) k => s.wr (.winState g i k) 0) s) s) s
  let s := s.invalidate (s.tensorsOf p j)
  let s := (s.clustersOf p).foldl (fun (s : State) cl =>
    s.fwApply (.cl cl) [(.clNquota cl j, 0), (.clLquota cl j, 0)]) s
  let s := s.dspPut p fun _ cl => [(.dspJob cl j, 0)]
  let b := s.job p j
  (s.setJob p j { Job.init with report := b.report, reportT := b.reportT }).syncJobs p

/-! Partition reset (R318). -/

/-- Step 1: RESETTING, executing tasks discarded, every job killed; requests parked on the partition's hatches are answered. -/
def State.resetStart (s : State) (p : Nat) : State :=
  let s := s.setFld (.mgtPart p) F.mgtPartState 2
  let s := (List.range 16).foldl (fun (s : State) j => match (s.job p j).stat with
    | .free => s
    | .killing => s
    | _ => s.killStart p j) s
  -- the control cores of the partition are in reset until the reset is over (R361)
  let s := (s.diesOf p).foldl (fun (s : State) d => s.mbxReset (.die d) 0) s
  let s := (s.clustersOf p).foldl (fun (s : State) cl => s.mbxReset (.cluster cl) 0) s
  let dies := s.diesOf p; let cls := s.clustersOf p
  let s := s.dropLocks fun a => (decide (0x200 ≤ a ∧ a < 0x224) && dies.contains (a - 0x200))
    || (decide (0x400 ≤ a ∧ a < 0x520) && cls.contains (a - 0x400))
  s.retryParked fun e => e.row.isSome && (s.hatch e.hatch).part == p

/-- A register of a compute unit of the partition that takes its reset value (step 4): mailboxes, ME_SUSPECT and the accounts
stand. -/
def State.resetsReg (s : State) (p a : Nat) : Bool :=
  regSite a == 0 && regUnit a != 0 && regCore a != 14 && (s.diesOf p).contains (regIndex a)
  && match Reg.ofAddr a with
    | some (.meSuspect _) => false
    | some (.dspUsed _ _) => false
    | some (.mbxData _ _) => false
    | some (.mbxSender _ _) => false
    | some (.mbxStatus _) => false
    | some (.mbxWait _) => false
    | some (.mbxInten _) => false
    | some (.mbxTimeout _) => false
    | some (.mbxToutLog _) => false
    | some (.mbxLock _ _) => false
    | _ => true

/-- Steps 3 and 4. -/
def State.resetUnits (s : State) (p : Nat) : State :=
  let dies := s.diesOf p
  let cls := s.clustersOf p
  let inCl := fun (cl : Nat) => dies.contains (cl / 8)
  let s : State := { s with
    rows := s.rows.filter fun x => !inCl (if x.1 < 2 ^ 32 then x.1 / 8192 / 8 else (x.1 - 2 ^ 32) / 2 ^ 20),
    engs := s.engs.filter fun x => !inCl (x.1 / 16),
    cores := SMap.mapVals (fun _ => Core.init) (fun i (k : Core) => if inCl (i / 8) then
      { Core.init with ueBeats := k.ueBeats, ceBeats := k.ceBeats, mmBeats := k.mmBeats, dead := k.dead } else k) s.cores,
    clus := SMap.mapVals (fun _ => Clus.init) (fun i (k : Clus) => if inCl i then { Clus.init with ceBeats := k.ceBeats } else k) s.clus,
    chans := s.chans.filter fun x => !inCl (x.1 / 32),
    tasks := s.tasks.filter fun t => !inCl t.cl,
    groups := s.groups.filter fun g => !inCl g.cl,
    late := s.late.filter fun b => !decide ((armAddr b) / 0x10000000000 % 16 = 0 ∧ inCl (8 * regIndex (armAddr b) + (regUnit (armAddr b) - 1))),
    regs := s.regs.filter fun x => !s.resetsReg p x.1,
    shadow := s.shadow.filter fun x => !s.resetsReg p x.1 }
  let s := cls.foldl (fun (s : State) cl => s.syncSuspect cl) s
  s.setPart p { s.part p with phase := 0, gleanLearn := false, request := none, resetOver := true }

/-- Step 6, at a tick; DESTROY then clears EN and frees the frames. -/
def State.resetEnd (s : State) (p : Nat) (destroy : Bool) : State :=
  let s := s.setPart p { s.part p with resetOver := false }
  if !destroy then s.setFld (.mgtPart p) F.mgtPartState 1
  else
    let s := (s.pageList.filterMap fun (x : Nat × Word) => if x.1 / 2 ^ 24 = p then some (x.1 % 2 ^ 24) else none).foldl
      (fun (s : State) pg => s.unmap p pg) s
    ((s.setFld (.mgtPart p) F.mgtPartState 1).fwApply .mgt [(.mgtPart p, 0)]).setPart p Part.init

/-! Core death, rollback, remap (R427 to R429). -/

/-- Cores of a partition that have died and still serve a logical number. -/
def State.deadCores (s : State) (p : Nat) : List Nat := (s.coresOf p).filter fun c => (s.core c).dead

/-- Rows of a loft copy of a RESIDENT sealed tensor of the job. -/
def State.copyKey (s : State) (p j k : Nat) : Bool :=
  decide (2 ^ 32 ≤ k) && (s.tensorsOf p j).any fun i =>
    let x := s.ttEff i
    x.cls == 0 && x.res == 2 && x.holdsKey k

/-- Steps 1 and 2 for one job: pre-empted, its channels drain and its hatches close (R249, R344). -/
def State.rollStart (s : State) (p j : Nat) : State :=
  let s := (if decide ((s.job p j).stat = .running) then s.preempt p j else s).endClear p j
  let s := (s.jobChans p j).foldl (fun (s : State) (c : Nat × Nat) => s.drainChan c.1 c.2 false) s
  (s.closeHatches p j).setJob p j { s.job p j with stopSource := 0, record := 0, stopDue := false }

/-- Step 2 is over: nothing of the job's channels is in flight, and its hatches are CLOSED. -/
def State.rollReady (s : State) (p j : Nat) : Bool := s.hatchesClosed p j && (s.jobChans p j).all fun c => !s.chanBusy c.1 c.2

/-- Steps 3 and 4 for one job. -/
def State.rollJob (s : State) (p j : Nat) : State :=
  let s := (s.jobChans p j).foldl (fun (s : State) (c : Nat × Nat) => s.drainChan c.1 c.2 false) s
  let keep := s.copyKey p j
  let s := s.evict p j fun k => s.quotaKeys p j k && !keep k
  let s : State := { s with rows := s.rows.filter fun x => !s.quotaKeys p j x.1 || keep x.1 }
  let s := (s.resetSilos p j false).clearTasks p j
  let c := s.seqCfg p
  let s := if c.en && c.job == j then s.seqRollback p else s
  let b := s.job p j
  s.setJob p j { b with stage := .none, clearing := false, packets := [], device := none, result := none, arrived := none,
                        stopSource := 0, record := 0, stopDue := false, restores := b.restores ++ [b.t] }

/-- The registers of the fallow core answer at the dead core's address from now on. -/
def moveCore (c : Nat) (m : SMap Word) : SMap Word :=
  let fb := coreBase (2304 + c / 8)
  let at_ := fun (b a : Nat) => decide (b ≤ a ∧ a < b + 0x4000000)
  let rest := m.filter fun x => !at_ (coreBase c) x.1 && !at_ fb x.1
  (m.filter fun x => at_ fb x.1).foldl (fun (r : SMap Word) x => SMap.put resetAt r (x.1 - fb + coreBase c) x.2) rest

/-- The core's registers are those of its fallow core now, its near store zero and EMPTY (R13, R429). -/
def State.swapCore (s : State) (c : Nat) : State :=
  { s with regs := moveCore c s.regs, shadow := moveCore c s.shadow,
           rows := s.rows.filter (fun x => !decide (c * 8192 ≤ x.1 ∧ x.1 < (c + 1) * 8192)),
           engs := s.engs.filter (fun x => x.1 / 2 != c),
           cores := SMap.put (fun _ => Core.init) (SMap.erase s.cores (2304 + c / 8)) c (s.core (2304 + c / 8)) }

/-- The map entry of a dead core names the fallow core, or the core becomes a hole (R429). -/
def State.remap (s : State) (c : Nat) : State :=
  let cl := c / 8
  let fallow := s.fallowLeft cl
  let phys := if fallow then s.fallowPhys cl else 15
  let m := setBits (s.coreMap cl) (4 * (c % 8)) 4 phys
  let s := (s.saveSuspects cl).swapCore c
  let maps := SMap.put (fun _ => identityMap) s.shape.maps cl m
  let used := if fallow then s.shape.noFallow ++ [cl] else s.shape.noFallow
  let s : State := { s with shape := { s.shape with maps := maps, noFallow := used } }
  let s := ((s.loadSuspects cl).syncSuspect cl).newShape
  -- a hole was made: the routing tables are written anew (R15)
  if fallow then s else s.writeRoutes

/-- The jobs of a partition that a rollback takes. -/
def State.rollJobs (s : State) (p : Nat) : List Nat :=
  (List.range 16).filter fun j => decide ((s.job p j).stat = .running ∨ (s.job p j).stat = .stopped)

/-- A rollback of a partition begins: every RUNNING or STOPPED job (R428, steps 1 and 2). -/
def State.rollBegin (s : State) (p : Nat) : State :=
  let s := (s.rollJobs p).foldl (fun (s : State) j => s.rollStart p j) s
  s.setPart p { s.part p with rolling := true }

/-- Steps 3 to 6, once every channel has drained and every hatch is CLOSED: the jobs, then the map of each dead core in rising logical order, then the
events (R428, Table 20-5). -/
def State.rollback (s : State) (p : Nat) : State :=
  let js := s.rollJobs p
  if !(s.part p).rolling || s.resetting p || !js.all (s.rollReady p) then s else
  let dead := s.deadCores p
  let s := js.foldl (fun (s : State) j => s.rollJob p j) s
  let hole := dead.any fun c => !s.fallowLeft (c / 8) || dead.any fun d => d / 8 == c / 8 && decide (d < c)
  let s := dead.foldl (fun (s : State) c => s.remap c) s
  let s := s.setPart p { s.part p with rolling := false }
  js.foldl (fun (s : State) j =>
    (s.countJob C.rollbacks p j).post 1 p j (if hole then KS.fault else KS.ok) [(40, 1, 5)]) s

/-- The winnowers are at work on a command of the partition; its seals outstanding count with it. -/
def State.passRuns (s : State) (p : Nat) : Bool :=
  ((List.range 16).any fun j => decide ((s.job p j).stage = .update))
    || (s.seals.any fun w => (s.tt w.tensor).part == p && !w.undo)
    || match s.win with
      | some w => w.part == p
      | none => false

/-- The core's die is in a test window. -/
def State.windowed (s : State) (c : Nat) : Bool := match s.window_ with
  | some w => w.started.isSome && bitAt w.mask (c / 64)
  | none => false

/-- The partitions whose rollback a tick begins (R428). -/
def State.rollsNow (s : State) : List Nat :=
  (List.range 12).filter fun p => !((s.part p).rolling || (s.deadCores p).isEmpty || s.passRuns p || (s.deadCores p).any s.windowed || s.resetting p)

/-- At the tick: dead cores of partitions are rolled back; those of no partition are remapped at once; on a die in a test window
they wait for its end and are remapped without rollback (R427 to R429, Table 20-5). -/
def State.deathTick (s : State) (rolls : List Nat) : State :=
  let windowed := s.windowed
  let dead := s.cores.filterMap fun (x : Nat × Core) => if x.2.dead && !s.coreHole x.1 then some x.1 else none
  let s := (dead.filter fun c => (s.partOfCore c).isNone && !windowed c).foldl (fun (s : State) c => s.remap c) s
  let s := rolls.foldl (fun (s : State) p => s.rollBegin p) s
  (List.range 12).foldl (fun (s : State) p => s.rollback p) s

/-! Phases (R268). -/

/-- The current step of the partition has ended, every task has committed and every channel is IDLE. -/
def State.phaseReady (s : State) (p : Nat) : Bool :=
  let cls := s.clustersOf p
  (List.range 16).all (fun j => decide ((s.job p j).stage = .none))
    && ((s.part p).phase != 1 || !(s.seqMgr p).open_)
    && !(s.tasks.any fun t => cls.contains t.cl)
    && (cls.all fun cl => (List.range 32).all fun ch => s.chState cl ch == 0)

/-- The phase changes: the gleaner of every core by MVP apply (R147), the caches, the sequence manager's hold. -/
def State.phaseChange (s : State) (p ph : Nat) (glean : Bool) : State :=
  let en := b2n (ph != 0 || glean)
  let s := (s.coresOf p).foldl (fun (s : State) c =>
    s.fwApply (.mvp c) [(.mvpGlCfg c, setBits (s.rdS (.mvpGlCfg c)) F.mvpGlCfgEn.lo F.mvpGlCfgEn.len en)]) s
  let s := s.dropCaches p
  (s.setPart p { s.part p with phase := ph, gleanLearn := glean, request := none }).complete? (.phase p) fun _ => .good

end Sys2Proof.Machine
end

