-- ==== Sys2Proof/Machine/FwDevice.lean ====
section
/-! DEFINITION. Device-wide firmware commands (chapter 17), bring-up (chapter 19), full device reset (R372). -/

namespace Sys2Proof.Machine

/-! Shape record and inventory (R377, R378). -/

def maskOf (l : List Nat) : Nat := (dedup l).foldl (fun a i => a + 2 ^ i) 0

def modCode : Mod → Nat
  | .down => 0
  | .training => 1
  | .x64 => 2
  | .x32 _ => 3

def State.modOf (s : State) (m : Nat) : Mod := s.mods.getD m .down

/-- The device shape record (Table 17-9). -/
def State.shapeRecord (s : State) : List Byte :=
  bytesOf 512 (packBits [(8, 1), (8, 0xA0), (32, s.shape.gen), (16, 0), (64, maskOf ((List.range 36).filter s.dieHole)),
    (288, maskOf ((List.range 288).filter s.clusterHole)), (2304, maskOf ((List.range 2304).filter s.coreHole)),
    (288, maskOf ((List.range 288).filter s.fallowLeft)), (192, maskOf s.shape.lpddrAbsent), (32, s.frames), (32, 0),
    (48, packNat 4 ((List.range 12).map s.portState)), (16, 0), (3, modCode (s.modOf 0)), (1, 0), (3, modCode (s.modOf 1))])

/-- An inventory entry (Table 17-10). -/
def invEntry (kind index st : Nat) : List Byte :=
  bytesOf 8 (packBits [(4, kind), (4, 0), (8, index), (2, st), (6, 0), (8, (Config.fuseRev kind index).toNat)])
    ++ bytesOf 8 (Config.dieId kind index).toNat

/-- The inventory, by KIND and INDEX: 330 entries. -/
def State.inventoryList (s : State) : List Byte :=
  ((List.range 36).flatMap fun d => invEntry 0 d (b2n (s.dieHole d)))
    ++ ((List.range 72).flatMap fun i => invEntry 1 i (b2n (s.dieHole (i / 2))))
    ++ ((List.range 24).flatMap fun g => invEntry 2 g (b2n (s.shape.deadGran.contains g)))
    ++ ((List.range 4).flatMap fun g => invEntry 3 g (b2n (s.shape.deadGate.contains g)))
    ++ invEntry 4 0 0 ++ invEntry 5 0 0
    ++ ((List.range 192).flatMap fun n => invEntry 6 n (if s.shape.lpddrAbsent.contains n then 2 else 0))

def State.performQuery (s : State) (o : FwOut) : FwRes := .done .good (s.winPut o.resultAt s.shapeRecord)

def State.performInventory (s : State) (o : FwOut) : FwRes :=
  .done { FwEnd.good with r0 := 330 } (s.winPut o.resultAt s.inventoryList)

/-! Full device reset (R372, R394, R447, R450). -/

def tempKey (site index sensor : Nat) : Nat := (site * 64 + index) * 16 + sensor

/-- A sensor reads 95 °C or more. -/
def State.hot (s : State) : Bool := s.board.temps.any fun t => decide (95000 ≤ t.2)

/-- Clusters whose cores have counted a mismatch. -/
def State.suspectClusters (s : State) : List Nat :=
  dedup ((s.regs.filterMap fun x => match Reg.ofAddr x.1 with
    | some (.meSuspect e) => some (if e < 4608 then e / 16 else e / 2 - 2304)
    | _ => none) ++ s.suspects.map fun x => x.1 / 18)

/-- What a full reset keeps: the non-volatile store, fuses, modules, ME_SUSPECT of each physical core, rails and sensors. -/
def State.restarted (s : State) : State :=
  let k := s.suspectClusters.foldl (fun (k : State) cl => k.saveSuspects cl) s
  let sec := { Sec.init with thermo := s.sec.thermo, revoke := s.sec.revoke }
  let board := { s.board with tripN := false, time := 0, coolant := 0, flowOk := false, goodAtTrip := [] }
  { State.reset with
    pending := s.pending, free := s.free, outbox := s.outbox, suspects := k.suspects, nv := s.nv, mods := s.mods,
    lostTags := s.lostTags, hostLost := s.hostLost, sec := sec, board := board, defects := s.defects }

/-- A step of bring-up is entered: BOOT_STAGE is written (R393). -/
def State.enterStage (s : State) (n : Nat) : State := { s with bootStage := n, stageWord := none }

/-- The boot ROM starts: step 2 with the measurement of KIND 1, step 3, whose sidebands answer, and step 4, in which it waits for an image. -/
def State.romStart (s : State) : State :=
  let s := s.enterStage 2
  ((s.measure 1 (s.thermo + Config.romVersion.toNat * 256) s.fuseBytes).enterStage 3).enterStage 4

/-- Mailbox writes that wait end with TIMEOUT RECEIVER_RESET (R361). -/
def State.dropMbxWaits (s : State) : State :=
  s.mbxWaits.foldl (fun (s : State) w => s.answer w.host w.sender 2 2) { s with mbxWaits := [] }

def State.performReset (s : State) (o : FwOut) : FwRes :=
  if o.arg 32 1 = 0 then .bad s KS.badArg
  else if s.hot then .bad s KS.busy
  else .silent s.dropMbxWaits.restarted.romStart

/-! Environment and beat. -/

def State.performEnv (s : State) (o : FwOut) : FwRes :=
  .done .good { s with board := { s.board with time := BitVec.ofNat 64 (o.body 16 0 64), coolant := BitVec.ofNat 32 (o.body 24 0 32),
                                               flowOk := decide (o.body 28 0 1 = 1) } }

/-- Shadow words from an image: firmware writes each register. -/
def State.fwWords (s : State) (l : List (Reg × Nat)) : State :=
  l.foldl (fun (s : State) p => s.fwShadow p.1 (BitVec.ofNat 64 p.2)) s

def State.performBeat (s : State) (o : FwOut) : FwRes :=
  let s := s.fwWords [(.beatSync, packBits [(2, o.body 16 0 2), (2, 0), (12, o.body 16 32 12)]), (.beatLen, o.body 16 8 5),
    (.beatCtrl, packBits [(8, 0), (4, o.body 16 16 4)])]
  let s := if o.body 16 63 1 = 1 then
      let s := s.fwWords [(.beatNumberSet, o.body 24 0 64)]
      { s with beat := { s.beat with setPending := true } }
    else s
  .wait (.apply [.beat]) (s.fwArm [.beat])

def State.performPower (s : State) (o : FwOut) : FwRes :=
  .wait (.apply [.pwr]) ((s.fwWords [(.pwrLimit, o.arg 32 15), (.pwrCfg, o.arg 48 4)]).fwArm [.pwr])

def State.performWeight (s : State) (o : FwOut) : FwRes :=
  if 12 ≤ o.part then .bad s KS.badArg
  else .wait (.apply [.pwr]) ((s.fwWords [(.pwrWeight o.part, o.arg 40 8)]).fwArm [.pwr])

/-! Signed objects. -/

def State.performSeedpack (s : State) (o : FwOut) : FwRes :=
  let a := o.body 16 0 32; let n := o.body 20 0 32
  if s.window_.isSome then .bad s KS.busy
  else if !staged a n then .bad s KS.badArg
  else
    let l := s.winBytes a n
    match s.verify 2 l with
    | 0 =>
      let b := objBody l
      let v := objNum b 0 4
      let s := s.measure 5 (objSvn l + v * 65536) (l.take 128)
      .done { FwEnd.good with r0 := v }
        { s with seedPack := some v, seedSets := (List.range (objNum b 4 2)).map fun i => objNum b (16 + 16 * i) 2 }
    | k => .bad s k

def State.performCalRead (s : State) (o : FwOut) : FwRes :=
  let n := o.body 16 0 32
  if !calRecord n then .bad s KS.badArg
  else match s.cal n with
    | none => .bad s KS.noResource
    | some l => .done .good (s.winPut o.resultAt l)

/-- A job RUNNING on one of some dies. -/
def State.runningOn (s : State) (ds : List Nat) : Bool :=
  ds.any fun d => match s.partOfDie d with
    | some p => (List.range 16).any fun j => decide ((s.job p j).stat = .running)
    | none => false

def State.performCalWrite (s : State) (o : FwOut) : FwRes :=
  let n := o.body 16 0 32; let a := o.body 20 0 32; let len := o.body 24 0 32
  let fullCal := match s.window_ with
    | some w => w.pack == 0xFFFF
    | none => false
  if !calRecord n || !staged a len || s.runningOn (calDies n) then .bad s KS.badArg
  else if fullCal then .bad s KS.busy
  else
    let l := s.winBytes a len
    match s.verify 3 l with
    | 0 =>
      if objNum (objBody l) 0 4 ≠ n then .bad s KS.badArg
      else if 448 * 1024 < s.calBytes - ((s.cal n).getD []).length + l.length then .bad s KS.noResource
      else .done .good (((s.measure 4 (n + objKey l * 2 ^ 32) (l.take 128)).setCal n l).calTakes n)
    | k => .bad s k

def State.performQuote (s : State) (o : FwOut) : FwRes :=
  let src := o.body 80 0 8
  if src = 0 then .done .good (s.winPut o.resultAt (s.attest (bytesOf 64 (o.body 16 0 512))))
  else if 12 < src then .bad s KS.badArg
  else match (s.port (src - 1)).quote with
    | some q => .done .good (s.winPut o.resultAt q)
    | none => .bad s KS.noResource

/-! Counters and telemetry: both wait for the next tick's snapshot (R441, R443). -/

def State.performTelemetry (s : State) : FwRes := .wait .snapshot { s with snapAsked := true }

/-- INDEX of a scope is out of range or names a hole (R442). -/
def State.scopeBad (s : State) (o : FwOut) : Bool :=
  let i := o.body 18 0 16
  match o.body 16 0 8 with
  | 0 => i != 0
  | 1 => decide (36 ≤ i) || s.dieHole i
  | 2 => decide (288 ≤ i) || s.clusterHole i
  | 3 => decide (2304 ≤ i) || s.coreHole i
  | 4 => decide (24 ≤ i)
  | 5 => decide (4 ≤ i)
  | 6 => decide (12 ≤ i)
  | 7 => !s.partOn (o.body 20 0 8) || decide (16 ≤ o.body 21 0 8)
  | _ => true

def State.performCounters (s : State) (o : FwOut) : FwRes :=
  if s.scopeBad o then .bad s KS.badArg else .wait .snapshot { s with snapAsked := true }

/-! Links and hatches. -/

def FwOut.ports (o : FwOut) : List Nat := (List.range 12).filter fun p => o.body 18 p 1 == 1

/-- Blocks that are armed together: a rule that fails refuses them all before they are armed. -/
def State.armAll (s : State) (bs : List Blk) : FwRes :=
  match s.firstRule bs with
  | some (b, k) => .done ⟨KS.badArg, 0, 0, blockCode b, k⟩ (s.fwRefused bs)
  | none => .wait (.apply bs) (s.fwArm bs)



/-- The shadows that LINK_CONFIG writes: the fabric ID of every gate in service, and the registers of each port named. -/
def State.linkShadow (s : State) (o : FwOut) : State :=
  let at_ := fun i => 32 + 72 * i
  let s := s.liveGates.foldl (fun (s : State) g => s.fwShadow (.gateCfg g) (setBits (s.rdS (.gateCfg g)) 0 16 (o.body 16 0 16))) s
  (List.range o.ports.length).foldl (fun (s : State) i =>
    let p := o.ports.getD i 0
    let s := s.fwShadow (.gatePort p) (BitVec.ofNat 64 (o.body (at_ i) 0 64))
    (List.range 8).foldl (fun (s : State) k => s.fwShadow (.gatePkhash p k) (BitVec.ofNat 64 (o.body (at_ i + 8 + 8 * k) 0 64))) s) s

def State.performLink (s : State) (o : FwOut) : FwRes :=
  let ps := o.ports
  let at_ := fun i => 32 + 72 * i
  let w := fun i => BitVec.ofNat 64 (o.body (at_ i) 0 64)
  if o.body 18 12 4 ≠ 0 ∨ o.cmd.len < at_ ps.length
      ∨ ((List.range ps.length).any fun i => stray (w i) [(0, 3), (16, 16)]) = true then .bad s KS.badArg
  else if (List.range ps.length).any fun i => bitAt (w i) 0 && s.shape.deadGate.contains (ps.getD i 0 / 3) then .bad s KS.noResource
  else
    (s.linkShadow o).armAll (s.liveGates.map Blk.gate)

/-- LINK_CONFIG is measured as its apply succeeds (R388). -/
def State.measureLink (s : State) (o : FwOut) : State := s.measure 6 (o.body 18 0 12) (bytesOf (o.cmd.len - 16) (o.blk.toNat / 2 ^ 128))

/-- A table entry's image has a reserved bit set. -/
def imageBad (o : FwOut) (byte : Nat) (r : Nat → Reg) : Bool :=
  (List.range 8).any fun k => stray (BitVec.ofNat 64 (o.body (byte + 8 * k) 0 64)) ((r k).fields.map fun f => (f.lo, f.len))

/-- A table entry's image goes to the shadow of every replica. -/
def State.fwImage (s : State) (o : FwOut) (byte n : Nat) (gs : List Nat) (r : Nat → Nat → Reg) : State :=
  gs.foldl (fun (s : State) g =>
    (List.range n).foldl (fun (s : State) k => s.fwShadow (r g k) (BitVec.ofNat 64 (o.body (byte + 8 * k) 0 64))) s) s

/-- STATE of a hatch entry in the shadow of every gate's replica. -/
def State.hatchShadow (s : State) (n st : Nat) : State :=
  s.liveGates.foldl (fun (s : State) g => s.wrS (.hatchEntry g n 0) (setBits (s.rdS (.hatchEntry g n 0)) 0 2 st)) s

/-- The replicas of a table are armed for the same tick (R218, R286, R337). -/
def State.fwTables (s : State) (bs : List Blk) : FwRes := .wait (.apply bs) (s.fwArm bs)

def State.performHatchOpen (s : State) (o : FwOut) : FwRes :=
  let n := o.body 16 0 16
  if 1024 ≤ n ∨ imageBad o 64 (.hatchEntry 0 n) = true ∨ o.body 64 8 4 ≠ o.part then .bad s KS.badArg
  else if (s.hatch n).state ≠ 0 then .bad s KS.busy
  else ((s.fwImage o 64 5 s.liveGates fun g k => .hatchEntry g n k).hatchShadow n 1).fwTables (s.liveGates.map Blk.hatch)

def State.performHatchClose (s : State) (o : FwOut) : FwRes :=
  let n := o.arg 32 10
  match (s.hatch n).state with
  | 0 => .bad s KS.hatchClosed
  | 1 => (s.hatchShadow n 2).fwTables (s.liveGates.map Blk.hatch)
  | _ => .wait (.hatch n) s

/-! Test windows (R420). -/

def State.performWindow (s : State) (o : FwOut) : FwRes :=
  let mask := BitVec.ofNat 36 (o.body 16 0 36)
  let pack := o.body 28 0 16
  if s.window_.isSome then .bad s KS.busy
  else if s.runningOn (dieMask mask.toNat)
      || !(pack == 0 || (pack == 0xFFFF && decide (mask = BitVec.allOnes 36)) || (pack != 0xFFFF && s.seedSets.contains pack)) then
    .bad s KS.badArg
  else .wait .window { s with window_ := some ⟨o.cmd, mask, o.body 24 0 32, pack, o.body 30 0 3, none, 0, [], []⟩ }

/-! Bring-up (R393 to R413). -/

/-- The contacts are held by the test access port (R455). -/
def State.jtagHolds (s : State) : Bool := s.board.ir == 0 || s.board.ir == 3 || s.board.ir == 4

/-- A fatal failure (R394). -/
def State.fatal (s : State) (c : FwCmd) (step : Nat) : State :=
  let s : State := { s.enterStage 0xFF with bring := none }
  match s.fw.find? fun o => decide (o.cmd = c) with
  | some o => s.endCmd o ⟨KS.fault, step, 0, 0, 0⟩
  | none => s

/-- The map of one cluster (R400), and the fallow core left. -/
def buildMap (stored : BitVec 32) (good suspect : Nat → Bool) (count : Nat → Nat) : BitVec 32 × Option Nat :=
  let old := fun k => bits stored (4 * k) 4
  let kept := (List.range 8).map fun k => if old k < 9 ∧ good (old k) = true then old k else 15
  let spare := fun (a : List Nat) => (List.range 9).find? fun p => good p && !a.contains p
  let full := (List.range 8).foldl (fun (a : List Nat) k => if a.getD k 15 = 15 then a.set k ((spare a).getD 15) else a) kept
  let sus := (List.range 8).filter fun k => decide (full.getD k 15 < 9) && suspect (full.getD k 15)
  let worst := sus.foldl (fun (b : Option Nat) k => match b with
    | none => some k
    | some j => if count (full.getD j 15) < count (full.getD k 15) then some k else b) none
  let a := match spare full, worst with
    | some p, some k => if suspect p then full else full.set k p
    | _, _ => full
  (BitVec.ofNat 32 (packNat 4 a), spare a)

/-- A unit that the watch list marks RETIRED. -/
def State.isRetired (s : State) (kind wh unit : Nat) : Bool :=
  s.nv.watch.any fun e => e.kind == kind && e.where_ == wh && e.unit == unit && e.state == 2

/-- Step 10, the maps (R399 to R402): a physical core is good when its fuse bit is clear, it passed step 9 and it is not RETIRED. -/
def State.buildMaps (s : State) (f : BringIn) : State :=
  let stored := if s.nv.shape.isNone then [] else s.nv.maps
  let built := (List.range 288).map fun cl =>
    buildMap (SMap.get (fun _ => identityMap) stored cl)
      (fun p => !s.defects.cores.contains (cl, p) && !f.badCores.contains (cl, p) && !s.isRetired 1 cl p)
      (fun p => s.nv.watch.any fun e => e.kind == 1 && e.where_ == cl && e.unit == p && e.state == 1)
      (fun p => SMap.get (fun _ => 0) s.suspects ((9 * cl + p) * 2) + SMap.get (fun _ => 0) s.suspects ((9 * cl + p) * 2 + 1))
  let maps := (List.range 288).foldl (fun (m : SMap (BitVec 32)) cl =>
    SMap.put (fun _ => identityMap) m cl (built.getD cl (identityMap, some 8)).1) []
  let sh := { s.shape with maps := maps, noFallow := (List.range 288).filter fun cl => (built.getD cl (identityMap, some 8)).2.isNone }
  let s := { s with shape := sh }
  let s := (s.suspects.map fun x => x.1 / 18).foldl (fun (s : State) cl => s.loadSuspects cl) s
  (List.range 288).foldl (fun (s : State) cl => s.syncSuspect cl) s

/-- SHAPE_GEN at step 10 (R402); answers whether it changed. -/
def State.setShapeGen (s : State) : State × Bool :=
  let changed := match s.nv.shape with
    | none => true
    | some x => !decide (x = s.shapeNow)
  let g := match s.nv.shape with
    | none => 1
    | some _ => s.nv.shapeGen + b2n changed
  ({ s with shape := { s.shape with gen := g }, nv := { s.nv with maps := s.shape.maps, shapeGen := g, shape := some s.shapeNow } },
   changed)

/-- Every main rail is good. -/
def State.railsGood (s : State) : Bool := [PgPin.cmp, .loft, .edge, .phy, .lp].all s.board.good.contains

/-- Step 6 with the main rails up: the store, the calibration set, the beat (R395, R406, R407). -/
def State.step6 (s : State) (f : BringIn) : State :=
  let s := if f.nvReadable then { s with nv := { s.nv with readable := true } }
    else State.fault { s with nv := { Nv.init with readable := false } } agentMgmt 0x13 0 0 0
  let bad := s.nv.cal.filterMap fun (x : Nat × List Byte) => if s.verify 3 x.2 = 0 then none else some x.1
  let s := { s with nv := { s.nv with bad := bad } }
  let good := s.nv.cal.filter fun (x : Nat × List Byte) => !bad.contains x.1
  let s := s.measure 3 good.length (good.flatMap Prod.snd)
  { s.setFld .beatCtrl F.beatCtrlRun 1 with calDue := List.range 36 }

/-- Units are fenced: they become holes. -/
def State.fence (s : State) (dies clusters : List Nat) : State :=
  { s with shape := { s.shape with dieHoles := sortBy id (dedup (s.shape.dieHoles ++ dies)),
                                   clusterHoles := sortBy id (dedup (s.shape.clusterHoles ++ clusters)) } }

/-- The dies without a link, and what the fuses fence (R401). -/
def State.fused (s : State) : State := s.fence (s.mesh.lostDies ++ s.defects.dies) s.defects.clusters

/-- Step 7 (R396, R401): the slices that train are powered, and the first routing tables are written around what the fuses fence. -/
def State.step7 (s : State) (f : BringIn) : State :=
  let s : State := { s with mesh := { s.mesh with slices := trained f.lostSlices } }
  let s := s.fused
  State.writeRoutes { s with shape := { s.shape with deadGran := s.mesh.lostGranaries, deadGate := s.mesh.lostGates } }

/-- A portion as a control core receives it, at its first attempt and up to three more: nothing where the multicast misses it (R397). -/
def State.received (s : State) (f : BringIn) (agent k : Nat) : List Byte :=
  match f.damaged.find? fun x => x.1 == agent && x.2.1 == k with
  | some x => x.2.2
  | none => if k = 0 ∧ f.missed.any (fun d => agentDie d == agent) then [] else Config.imagePortion s.sec.image agent

/-- One of the attempts passes the control core's check against the manifest. -/
def State.portionOk (s : State) (f : BringIn) (agent : Nat) : Bool :=
  (List.range 4).any fun k => decide (Config.sha512 (s.received f agent k) = Config.imageHash s.sec.image agent)

/-- Step 8 (R397): a die that the multicast misses is reported; dies and clusters whose portions never pass are fenced; the control cores run. -/
def State.step8 (s : State) (f : BringIn) : State :=
  let s := (f.missed.filter fun d => decide (d < 36) && !s.dieHole d).foldl (fun (s : State) _ => s.multicastMissed agentMgmt) s
  let s := s.fence ((List.range 36).filter fun d => !s.dieHole d && !s.portionOk f (agentDie d)) []
  let s := s.fence [] ((List.range 288).filter fun cl => !s.clusterHole cl && !s.portionOk f (agentCluster cl))
  { s with coresUp := true }

/-- A corrected error of a march is counted, and its row reported to the watch list (R398, Table 20-2, source 8). -/
def State.marchRow (s : State) (m : MarchRow) : State :=
  match m with
  | .near cl p n => if s.clusterHole cl then s else match s.coreOfPhys cl p with
    | some c => s.rowError (.near c n) .single
    | none => s
  | .loft cl n => if s.clusterHole cl then s else s.rowError (.loft cl n) .single

/-- Step 9 (R398, R401): dies and clusters that fail are fenced, granaries and gates that fail are out of service. -/
def State.step9 (s : State) (f : BringIn) : State :=
  let s := f.march.foldl (fun (s : State) m => s.marchRow m) s
  let s := s.fence f.badDies f.badClusters
  { s with shape := { s.shape with deadGran := sortBy id (dedup (s.shape.deadGran ++ f.badGranaries)),
                                   deadGate := sortBy id (dedup (s.shape.deadGate ++ f.badGates)) } }

/-- Step 10 (R402): the maps; the routing tables anew where holes have appeared (R396); every near-store and loft row zero and EMPTY. -/
def State.step10 (s : State) (f : BringIn) : State :=
  let bankBad := s.nv.watch.filterMap fun e => if e.kind = 2 ∧ e.state = 2 then some e.where_ else none
  let s := (s.fence [] bankBad).buildMaps f
  let first := ({ s with shape := { s.shape with dieHoles := [], clusterHoles := [] } } : State).fused.shape
  let s := if s.shape.dieHoles = first.dieHoles ∧ s.shape.clusterHoles = first.clusterHoles then s else s.writeRoutes
  let (s, changed) := State.setShapeGen { s with rows := [] }
  { s with shapeNew := changed }

/-- Step 11 (R403): LPDDR5X. -/
def State.step11 (s : State) (f : BringIn) : State :=
  let absent := sortBy id (dedup (f.badLpddr ++ s.shape.deadGran.flatMap fun g => (List.range 8).map fun i => 8 * g + i))
  let retired := s.nv.watch.filterMap fun e => if e.kind = 3 ∧ e.state = 2 then some (e.where_, e.unit, e.row) else none
  let s := { s with lpddr := [], epoch := [], retiredRows := retired, shape := { s.shape with lpddrAbsent := absent } }
  s.granaries.foldl (fun (s : State) g => s.setFld (.grnStatus g) F.grnStatusTrained 1) s

/-- What step 12 finds of a port: the state and the reason of its LINK event (R404, R405, Tables 19-2 and 19-3). -/
def State.qualified (s : State) (f : BringIn) (p : Nat) : Nat × Nat :=
  if s.shape.deadGate.contains (p / 3) then (6, 1) else
  match f.ports.find? fun x => x.port == p && x.lock with
  | some x => let st := berOutcome x.bits x.uncorr; (st, if st = 6 then 2 else 0)
  | none => (6, 1)

/-- Step 12 (R405): each port's window is counted and posted; every port stays DISABLED. -/
def State.step12 (s : State) (f : BringIn) : State :=
  (List.range 12).foldl (fun (s : State) p =>
    let s := match f.ports.find? fun x => x.port == p && x.lock && !s.shape.deadGate.contains (p / 3) with
      | some x => (s.count C.linkFecCorr p x.words).count C.linkFecUncorr p x.uncorr
      | none => s
    let q := s.qualified f p
    s.post 5 0 0 0 [(8, 1, p), (9, 1, q.1), (10, 1, q.2)]) s

/-- Step 13 (R386, R413). -/
def State.ready (s : State) (c : FwCmd) : State :=
  let s : State := { s.commitFuses.enterStage 13 with bring := none }
  let s := if s.shapeNew then s.post 0x0C 0 0 0 [(8, 4, s.shape.gen)] else s
  match s.fw.find? fun o => decide (o.cmd = c) with
  | some o => (s.winPut o.resultAt s.shapeRecord).endCmd o .good
  | none => s

/-- One of the steps 7 to 13 is entered and run (R393). -/
def State.bringStep (s : State) (c : FwCmd) (f : BringIn) (n : Nat) : State :=
  match n with
  | 7 => let s := (s.enterStage 7).step7 f; if s.mesh.mgtUp then s else s.fatal c 7
  | 8 => (s.enterStage 8).step8 f
  | 9 => (s.enterStage 9).step9 f
  | 10 => let s := (s.enterStage 10).step10 f; if (List.range 36).all s.dieHole then s.fatal c 10 else s
  | 11 => (s.enterStage 11).step11 f
  | 12 => (s.enterStage 12).step12 f
  | 13 => s.ready c
  | _ => s

/-- At a tick, bring-up enters the step after the one it is in, from step 7 on (log 82). -/
def State.bringTick (s : State) : State :=
  match s.bring with
  | none => s
  | some (c, f) => if 6 ≤ s.bootStage ∧ s.bootStage < 13 then s.bringStep c f (s.bootStage + 1) else s

/-- Bring-up goes on through step 6 as far as it can: the test access port may hold it before, the rails within. -/
def State.bringOn (s : State) : State :=
  match s.bring with
  | none => s
  | some (_, f) =>
    if s.bootStage < 6 ∧ s.jtagHolds = true then s else
    let s := if s.bootStage < 6 then s.enterStage 6 else s
    let s := if s.board.pwrEn then s else State.emit { s with board := { s.board with pwrEn := true } } (.pwrEn true)
    if s.bootStage = 6 ∧ s.railsGood = true ∧ s.flag .beatCtrl F.beatCtrlRun = false then s.step6 f else s

/-- IMAGE_LOAD (R385, R393). The ROM takes another image after a refused one (step 4 again). -/
def State.performImage (s : State) (o : FwOut) (f : BringIn) : FwRes :=
  let a := o.body 16 0 32; let n := o.body 20 0 32
  if 655360 < n ∨ staged a n = false then .bad s KS.badArg
  else
    let l := s.winBytes a n
    match s.verify 1 l with
    | 0 => .wait .bringup { (s.enterStage 5).acceptImage l with bring := some (o.cmd, f) }
    | k => .bad (s.enterStage 4) k

end Sys2Proof.Machine
end

