-- ==== Sys2Proof/Machine/FwPart.lean ====
section
/-! DEFINITION. Firmware commands that name a partition, a job, a tensor or pages (Tables 17-6 and 17-7), and what their applies leave
behind. -/

namespace Sys2Proof.Machine

def FwRes.good (s : State) (r0 : Nat := 0) : FwRes := .done { FwEnd.good with r0 := r0 } s

/-- Commands end because of a kill or reset; what they had armed is taken back. -/
def State.cancelFor (s : State) (status : Nat) (o : FwOut) (p : FwOut → Bool) : State :=
  let other := fun (x : FwOut) => p x && !decide (x.cmd.cid % 1024 = o.cmd.cid % 1024)
  let s := (s.fw.filter other).foldl (fun (s : State) x => match x.wait with
    | .apply bs => s.fwRefused bs
    | _ => s) s
  s.cancel status other

/-! Partitions. -/

def State.performCreate (s : State) (o : FwOut) : FwRes :=
  let p := o.part
  if 12 ≤ p ∨ o.arg 56 8 = 0 ∨ s.partEn p = true then .bad s KS.badArg
  else
    let w := packBits [(3, o.arg 40 3), (1, 0), (3, o.arg 44 3), (1, 0), (3, o.arg 48 3), (1, 0), (3, o.arg 52 3), (1, 0), (1, 1)]
    .wait (.apply [.mgt]) ((s.fwWords [(.mgtPart p, w)]).fwArm [.mgt])

/-- PARTITION_RESET and PARTITION_DESTROY (R318, R375): the reset begins at the next tick. -/
def State.performPartReset (s : State) (o : FwOut) (destroy : Bool) : FwRes :=
  if !s.partOn o.part then .bad s KS.badArg
  else .wait (.reset o.part destroy) (s.cancelFor KS.targetResetting o fun x => decide (s.namedPart x = some o.part))

/-! Jobs. -/

/-- A command's job by state: FREE is a bad argument, KILLING is busy (R458). -/
def State.jobCheck (s : State) (o : FwOut) (k : FwRes) : FwRes :=
  if !s.partOn o.part then .bad s KS.badArg
  else match (s.job o.part o.job).stat with
    | .free => .bad s KS.badArg
    | .killing => .bad s KS.busy
    | _ => k

/-- A manifest names a hole. -/
def State.manifestHole (s : State) (m : List Row) : Bool :=
  (Config.manifestDies m).any s.dieHole || (Config.manifestClusters m).any s.clusterHole || (Config.manifestCores m).any s.coreHole

/-- What reading a manifest finds. -/
inductive Manifest where
  | rows (m : List Row)
  | foreign
  | unreadable
  | none

/-- The manifest at a partition address: rows of PRESENT pages of the job. -/
def State.readManifest (s : State) (p j addr : Nat) : Manifest :=
  let loc := fun i => s.ownLoc p (addr / 512 + i)
  let foreign := fun i => let w := (loc i).page; decide (pgState w ≠ 0 ∧ pgJob w ≠ j)
  let here := fun i => decide (pgState (loc i).page = 1)
  if addr % 512 ≠ 0 then .unreadable
  else if foreign 0 then .foreign
  else if !here 0 then .unreadable
  else
    let n := Config.manifestRows (s.lpRead (loc 0)).data
    let is := List.range n
    if is.any foreign then .foreign
    else if n = 0 then .none
    else if !is.all here then .unreadable
    else if is.any fun i => (s.lpRead (loc i)).poison then .none
    else
      let m := is.map fun i => (s.lpRead (loc i)).data
      if Config.manifestOk m then .rows m else .none

/-- The blocks that a manifest's register images may name: the partition's own (R309). -/
def State.imageBlk (s : State) (p : Nat) (fresh : Bool) (b : Blk) : Bool :=
  match b with
  | .co c => s.partOfCore c == some p
  | .me e => s.partOfCore (e / 2) == some p
  | .vu c => s.partOfCore c == some p
  | .mvp c => s.partOfCore c == some p
  | .silo c => fresh && s.partOfCore c == some p
  | .loftSilo cl => fresh && s.partOfCluster cl == some p
  | .dma cl => s.partOfCluster cl == some p
  | _ => false

def State.manifestImages (s : State) (p : Nat) (fresh : Bool) (m : List Row) : List (Reg × Word) :=
  (Config.manifestRegs m).filterMap fun x => (Reg.ofAddr x.1).bind fun r =>
    match r.block with
    | some b => if s.imageBlk p fresh b then some (r, x.2) else none
    | none => none

/-- JOB_START is measured as its apply succeeds (R388): over the manifest given, or that of a resumed job. -/
def State.measureStart (s : State) (o : FwOut) : State :=
  let b := s.job o.part o.job
  let m := if o.cmd.blk then b.manifestNext else b.manifest
  s.measure 7 (o.part + o.job * 16) (m.flatMap fun r => bytesOf 512 r.toNat)

/-- DSP_JOB's shadow in every cluster of the partition. -/
def State.dspShadow (s : State) (p j : Nat) (f : Word → Word) : State :=
  (s.clustersOf p).foldl (fun (s : State) cl => s.fwShadow (.dspJob cl j) (f (s.rdS (.dspJob cl j)))) s

/-- The blocks that a resume arms. -/
def State.resumeBlks (s : State) (p j : Nat) : List Blk :=
  let cls := s.clustersOf p
  let dmas := cls.filter fun cl => (List.range 32).any fun ch =>
    s.fld (.dmaChcfg cl ch) F.dmaChcfgJob == j && s.rd (.dmaChcfg cl ch) != s.rdS (.dmaChcfg cl ch)
  dmas.map Blk.dma ++ cls.map Blk.dsp

/-- The word form of JOB_START: resume (R310). The channels that a rollback left OFF take the mode of their shadows again. -/
def State.performResume (s : State) (o : FwOut) : FwRes :=
  let p := o.part; let j := o.job
  s.jobCheck o <|
  let b := s.job p j
  if b.stat ≠ .stopped ∨ s.manifestHole b.manifest = true then .bad s KS.badArg
  else
    (s.dspShadow p j fun w => setBits w 0 1 1).armAll (s.resumeBlks p j)

/-- The quotas of a start, as their registers hold them. -/
def FwOut.nearQuota (o : FwOut) : Nat := packBits [(13, o.body 24 0 13), (3, 0), (14, o.body 24 16 14)]
def FwOut.loftQuota (o : FwOut) : Nat := packBits [(20, o.body 32 0 20), (12, 0), (21, o.body 32 32 21)]

/-- The job is inside a learning step. -/
def State.midStep (s : State) (p j : Nat) : Bool := decide ((s.job p j).stage ≠ .none)

/-- The shadows that a start writes: the quotas of a new job, its DSP_JOB, the manifest's images. -/
def State.startShadow (s : State) (o : FwOut) (fresh : Bool) (m : List Row) : State :=
  let p := o.part; let j := o.job
  let imgs := s.manifestImages p fresh m
  let cls := s.clustersOf p
  let s := s.setJob p j { s.job p j with manifestNext := m }
  let s := if fresh then cls.foldl (fun (s : State) cl => s.fwWords [(.clNquota cl j, o.nearQuota), (.clLquota cl j, o.loftQuota)]) s else s
  -- the frozen setting of a job stopped inside a step changes at the next step start (R257)
  let frozen := fun (w : Word) => if s.midStep p j then b2n (bitAt w 1) else o.body 40 0 1
  let s := s.dspShadow p j fun w => BitVec.ofNat 64 (packBits [(1, 1), (1, frozen w), (14, 0), (16, o.body 24 32 16)])
  imgs.foldl (fun (s : State) x => s.fwShadow x.1 x.2) s

/-- The blocks that a start arms. -/
def State.startBlks (s : State) (p : Nat) (fresh : Bool) (m : List Row) : List Blk :=
  let cls := s.clustersOf p
  sortBy blkOrder (dedup ((if fresh then cls.map Blk.cl else []) ++ (s.manifestImages p fresh m).filterMap (fun x => x.1.block)
    ++ cls.map Blk.dsp))

/-- The block form of JOB_START (R309, R310). -/
def State.performStart (s : State) (o : FwOut) : FwRes :=
  let p := o.part; let j := o.job
  let b := s.job p j
  if !s.partOn p then .bad s KS.badArg else
  match s.readManifest p j (o.body 16 0 45), b.stat with
  | .foreign, _ => .bad s KS.denied
  | _, .killing => .bad s KS.busy
  | .none, _ => .bad s KS.signature
  | .unreadable, _ => .bad s KS.badArg
  | .rows _, .running => .bad s KS.badArg
  | .rows m, _ =>
    -- a rollback is a transition that ends by itself (R428, R458)
    if (s.part p).rolling then .bad s KS.busy else
    let fresh := decide (b.stat = .free)
    let cls := s.clustersOf p
    let same := cls.all fun cl => (s.rd (.clNquota cl j)).toNat == o.nearQuota && (s.rd (.clLquota cl j)).toNat == o.loftQuota
    if s.manifestHole m || (!fresh && !same) then .bad s KS.badArg
    else
      (s.startShadow o fresh m).armAll (s.startBlks p fresh m)

/-- The start has applied (R309, R314, R437). -/
def State.started (s : State) (o : FwOut) : State :=
  let p := o.part; let j := o.job
  let b := s.job p j
  let m := b.manifestNext
  if o.cmd.blk then
    if b.stat = .free then
      let s := (s.clustersOf p).foldl (fun (s : State) cl => s.wr (.dspUsed cl j) 0) s
      let s := { s with ctrs := s.ctrs.filter fun x => !decide (x.1 / (65536 * 4096 * 256) = 9 ∧ x.1 / (4096 * 256) % 65536 = jobKey p j) }
      (s.setJob p j { Job.init with stat := .running, manifest := m }).syncJobs p
    else
      let late := if s.midStep p j then some (o.body 40 0 1 == 1, (b.frozenNext.map Prod.snd).getD b.frozen) else b.frozenNext
      (s.clearTasks p j).setJob p j { b with stat := .running, manifest := m, manifestNext := [], frozenNext := late }
  else s.setJob p j { b with stat := .running }

def State.performStop (s : State) (o : FwOut) : FwRes :=
  s.jobCheck o <|
  if (s.job o.part o.job).stat = .stopped then .good s else .wait (.stop o.part o.job) s

/-- JOB_KILL (R319, R375): commands that name the job end; the kill begins at the next tick. Where they hold a JOB_START of a FREE job, the kill
proceeds all the same (Table 17-11). -/
def State.performKill (s : State) (o : FwOut) : FwRes :=
  let p := o.part; let j := o.job
  let mine := fun (x : FwOut) => decide (s.namedPart x = some p ∧ x.namedJob = some j)
  let kill : FwRes := .wait (.kill p j) (s.cancelFor KS.cancelled o mine)
  if s.partOn p && decide ((s.job p j).stat = .free) && s.fw.any (fun x => decide (x.op = 0x23) && mine x) then kill
  else s.jobCheck o kill

/-- A tensor index held by another job. -/
def State.foreignTensor (s : State) (o : FwOut) (t : Nat) : Bool :=
  (s.tt t).valid && ((s.tt t).part != o.part || (s.tt t).job != o.job)

def State.performJobConfig (s : State) (o : FwOut) : FwRes :=
  let n := o.body 18 0 16
  let l := (List.range n).map fun i => o.body (32 + 2 * i) 0 16
  if 240 < n ∨ o.cmd.len < 32 + 2 * n ∨ s.partOn o.part = false then .bad s KS.badArg
  else if l.any (s.foreignTensor o) then .bad s KS.denied
  else s.jobCheck o <|
    if l.any fun t => decide (32768 ≤ t) then .bad s KS.badArg
    else .good (s.setJob o.part o.job { s.job o.part o.job with frozenNext := some (o.body 16 0 1 == 1, l) })

def State.performTithe (s : State) (o : FwOut) : FwRes :=
  let n := o.body 26 0 16; let h := o.body 18 0 16; let k := o.body 24 0 8
  s.jobCheck o <|
  if n = 0 ∨ 1024 < h + n ∨ o.cmd.len < 32 + n ∨ (8 < k ∧ k ≠ 0xFF) then .bad s KS.badArg
  else
    let t : Tithe := ⟨o.body 16 0 16, h, o.body 20 0 32, k, (List.range n).map fun i => o.body (32 + i) 0 8⟩
    .good (s.setJob o.part o.job { s.job o.part o.job with titheNext := some t })

/-! Seals (R223). -/

def State.performSeal (s : State) (o : FwOut) (undo : Bool) : FwRes :=
  let t := o.arg 40 15
  if s.foreignTensor o t then .bad s KS.denied
  else s.jobCheck o <|
    if s.seals.any fun w => w.tensor == t then .bad s KS.busy
    else if !(s.tt t).valid || (s.tt t).view || (s.tt t).cls != (if undo then 0 else 2) then .bad s KS.badArg
    else .wait (.seal t) { s with seals := s.seals ++ [⟨t, undo, false⟩] }

/-- A seal or unseal takes effect; the command that asked for it completes with the new GEN (R223). -/
def State.sealNow (s : State) (w : SealWait) : State :=
  let t := w.tensor
  let s := { s with seals := s.seals.filter fun x => x.tensor != t }
  let s := if w.undo then s.unseal t else s.seal t
  s.complete? (.seal t) fun _ => { FwEnd.good with r0 := (s.tt t).gen }

/-! Tables. -/

def State.performTensor (s : State) (o : FwOut) : FwRes :=
  let t := o.body 16 0 16
  if s.foreignTensor o t then .bad s KS.noResource
  else s.jobCheck o <|
    if s.seals.any fun w => w.tensor == t then .bad s KS.busy
    else if decide (32768 ≤ t) || imageBad o 64 (.ttEntry 0 t) || decide (o.body 64 1 4 ≠ o.part ∨ o.body 64 5 4 ≠ o.job) then .bad s KS.badArg
    else (s.fwImage o 64 5 s.granaries fun g k => .ttEntry g t k).fwTables (s.granaries.map Blk.tt)

/-- LAYER_REGISTER (R291, R292). -/
def State.performLayer (s : State) (o : FwOut) : FwRes :=
  let n := o.body 16 0 16
  let old := s.layer n
  let st := (List.range 4).any fun k => stray (BitVec.ofNat 64 (o.body (128 + 8 * k) 0 64)) ((winStateFields k).map fun f => (f.lo, f.len))
  if old.valid && (old.job != o.job || (s.tt old.w).part != o.part) then .bad s KS.denied
  else s.jobCheck o <|
    if decide (4096 ≤ n) || imageBad o 64 (.layer 0 n) || decide (o.body 64 1 4 ≠ o.job)
        || (o.body 18 0 1 == 1 && (st || decide ((s.job o.part o.job).stat ≠ .stopped))) then .bad s KS.badArg
    else (s.fwImage o 64 5 s.granaries fun g k => .layer g n k).fwTables (s.granaries.map Blk.win)

/-- The state entry goes to every granary with the record, unless a command that is CHECKING or RUNNING names it (R292). -/
def State.layerState (s : State) (o : FwOut) : State :=
  if o.body 18 0 1 = 0 ∨ s.winHolds (o.body 16 0 16) = true then s else
  s.granaries.foldl (fun (s : State) g => (List.range 4).foldl (fun (s : State) k =>
    s.wr (.winState g (o.body 16 0 16) k) (BitVec.ofNat 64 (o.body (128 + 8 * k) 0 64))) s) s

/-! Pages (R209, R212 to R215). -/

def State.mapPage (s : State) (o : FwOut) (pg : Nat) : State :=
  let w := s.pageOf o.part pg
  let t := o.body 26 0 16
  if o.body 24 0 8 = 0 then s.unmap o.part pg
  else if pgState w = 1 then s.newPage o.part pg (mkPage 1 (pgFrame w) t o.job)
  else match s.freeFrame with
    | some f => (s.zeroFrame f).newPage o.part pg (mkPage 1 f t o.job)
    | none => s

def State.performPageMap (s : State) (o : FwOut) : FwRes :=
  let p := o.part; let j := o.job
  let first := o.body 16 0 24; let n := o.body 20 0 32; let st := o.body 24 0 8; let t := o.body 26 0 16
  if !s.partOn p || decide (2 ^ 24 < first + n) then .bad s KS.badArg else
  let pgs := (List.range n).map fun i => first + i
  let state := fun pg => pgState (s.pageOf p pg)
  if (pgs.any fun pg => decide (state pg ≠ 0 ∧ pgJob (s.pageOf p pg) ≠ j)) || (st == 1 && s.foreignTensor o t) then .bad s KS.denied
  else if (s.job p j).stat = .killing then .bad s KS.busy
  else if decide (1 < st ∨ 32768 ≤ t) || (st == 1 && pgs.any fun pg => decide (state pg = 2)) then .bad s KS.badArg
  else if st = 1 ∧ s.freeFrames < (pgs.filter fun pg => state pg == 0).length then .bad s KS.noResource
  else
    let s := pgs.foldl (fun (s : State) pg => s.mapPage o pg) s
    .good s s.freeFrames

/-- Channels PAUSED on a page. -/
def State.pausedOn (s : State) (p pg : Nat) : List (Nat × Nat) :=
  s.chans.filterMap fun (x : Nat × Chan) => if x.2.page = some (p, pg) then some (x.1 / 32, x.1 % 32) else none

def pieceRows (k : Nat) : List Nat := (List.range 1024).map fun r => 1024 * k + r

/-- A piece's rows come in with valid codes; its granules count as written (DEDUCED). -/
def State.copyIn (s : State) (f k at_ : Nat) : State :=
  (List.range 1024).foldl (fun (s : State) r =>
    let key := f * 4096 + 1024 * k + r
    let s := s.lpWrite key (BitVec.ofNat 4096 (s.winRead (at_ + 512 * r) 512)) false
    { s with epoch := SMap.put (fun _ => false) s.epoch (key / 8) true }) s

def State.performPageIn (s : State) (o : FwOut) : FwRes :=
  let p := o.part; let pg := o.body 16 0 24
  let w := s.pageOf p pg
  if pgState w ≠ 0 ∧ pgJob w ≠ o.job then .bad s KS.denied
  else s.jobCheck o <|
  let cur := SMap.get (fun _ => none) s.moves (pageKey p pg)
  let k := o.body 19 0 2; let at_ := o.body 20 0 32
  if pgState w ≠ 2 then .bad s KS.badArg
  else if o.body 19 2 1 = 1 then
    let s := match cur with
      | some x => (s.zeroFrame x.frame).noMove p pg
      | none => s
    .good ((s.pausedOn p pg).foldl (fun (s : State) c => s.abandonChan c.1 c.2) s)
  else if !staged at_ (512 * 1024) then .bad s KS.badArg
  else
    let frame := match cur with
      | some x => some x.frame
      | none => s.freeFrame
    match frame with
    | none => .bad s KS.noResource
    | some f =>
      let s := if cur.isSome then s else s.zeroFrame f
      let s := s.copyIn f k at_
      let done := dedup ((match cur with
        | some x => x.pieces
        | none => []) ++ [k])
      if done.length = 4 then
        let s := (s.noMove p pg).newPage p pg (mkPage 1 f (pgTensor w) o.job)
        -- the PAUSED transfers resume, and rows that wait on the page land (R244)
        .good (((s.pausedOn p pg).foldl (fun (s : State) c => s.resumePaused c.1 c.2) s).resumePart p)
      else .good { s with moves := SMap.put (fun _ => none) s.moves (pageKey p pg) (some ⟨f, done, false⟩) }

/-- A bring-up or a winnower pass is at work on a page. -/
def State.pageInUse (s : State) (p pg : Nat) : Bool :=
  let overlaps := fun (i : Nat) =>
    let e := s.ttEff i
    (s.tt (s.ttRoot i)).part == p && decide (e.base / 512 < (pg + 1) * 4096 ∧ pg * 4096 < e.base / 512 + e.rows)
  (s.bringups.any fun b => overlaps b.tensor) || match s.win with
    | some w => w.part == p && pgJob (s.pageOf p pg) == w.job
    | none => false

/-- Rows of a piece as they go out: uncorrectable rows as zero, with the map of them. -/
def State.pieceOut (s : State) (p pg k : Nat) : List Row × List Nat :=
  let xs := (pieceRows k).map fun r => s.lpRead (s.ownLoc p (pg * 4096 + r))
  (xs.map fun x => if x.poison then 0 else x.data,
   (List.range 1024).filter fun r => match xs[r]? with
     | some x => x.poison
     | none => false)

def State.performPageOut (s : State) (o : FwOut) : FwRes :=
  let p := o.part; let pg := o.body 16 0 24
  let w := s.pageOf p pg
  if pgState w ≠ 0 ∧ pgJob w ≠ o.job then .bad s KS.denied
  else s.jobCheck o <|
  let k := o.body 19 0 2; let at_ := o.body 20 0 32
  let held := (SMap.get (fun _ => none) s.moves (pageKey p pg)).isSome
  if decide (pgState w ≠ 1) || !staged at_ (512 * 1024) || (k != 0 && !held) then .bad s KS.badArg
  else if !held && s.pageInUse p pg then .wait (.pageOut pg) s
  else
    let (rows, bad) := s.pieceOut p pg k
    let s := s.lpMeets ((pieceRows k).map fun r => s.ownLoc p (pg * 4096 + r))
    let s := s.winPut at_ (rows.flatMap fun r => bytesOf 512 r.toNat)
    let s := if o.resultAt = 0 then s else s.winPut o.resultAt (bytesOf 128 (maskOf bad))
    if k = 3 then
      let s := (s.noMove p pg).newPage p pg (mkPage 2 (o.body 24 0 24) (pgTensor w) o.job)
      .good ((s.zeroFrame (pgFrame w)).granariesGo) bad.length
    else .good { s with moves := SMap.put (fun _ => none) s.moves (pageKey p pg) (some ⟨pgFrame w, [], true⟩) } bad.length

/-! Phases (R268). -/

def State.performPhase (s : State) (o : FwOut) : FwRes :=
  let ph := o.arg 40 2
  if !s.partOn o.part || ph == 3 then .bad s KS.badArg
  else .wait (.phase o.part) (s.setPart o.part { s.part o.part with request := some (ph, o.arg 42 1 == 1) })

/-! Applies that have taken effect. -/

/-- What follows a command's apply: its end, or what it waits for next. -/
def State.fwApplied (s : State) (o : FwOut) : State :=
  match o.op with
  | 0x20 => (s.setPart o.part { Part.init with owner := o.arg 56 8 }).endCmd o { FwEnd.good with r0 := (s.diesOf o.part).length }
  | 0x23 =>
    let s := (s.measureStart o).started o
    if (s.job o.part o.job).stopSource = 0 then s.endCmd o .good
    else (s.stopForFault o.part o.job).endCmd o (.of KS.fault)
  | 0x36 => (s.layerState o).endCmd o .good
  | 0x60 => (s.measureLink o).endCmd o .good
  | 0x61 => s.endCmd o { FwEnd.good with r0 := (s.hatch (o.body 16 0 16)).gen }
  | 0x62 => s.setWait o (.hatch (o.arg 32 10))
  | _ => s.endCmd o .good

end Sys2Proof.Machine
end

