-- ==== Sys2Proof/Machine/Winnower.lean ====
section
/-! DEFINITION. The winnower (chapter 12): the update of a granule, publication copies, lazy records, the check and the pass of a
command, tithes sent with the pass (R431, R432). -/

namespace Sys2Proof.Machine

/-! The command (Table 12-2). -/

structure WinCmd where
  norm : Bool
  publish : Bool
  pubSel : Nat
  job : Nat
  first : Nat
  count : Nat
  t : Nat
  clip : F32
  lr : F32
  b1 : F32
  b2 : F32
  deriving DecidableEq, Repr

def WinCmd.words (c : WinCmd) : List Nat :=
  [packBits [(2, b2n c.norm), (1, b2n c.publish), (1, c.pubSel), (4, c.job), (12, c.first), (13, c.count)], c.t % 2 ^ 48,
   packBits [(32, c.clip.toNat), (32, c.lr.toNat)], packBits [(32, c.b1.toNat), (32, c.b2.toNat)], 0, 0, 0, 0]

/-- The command in a granary's WIN_CMD registers. -/
def State.winCmd (s : State) (g : Nat) : WinCmd :=
  let w := fun k => s.rd (.winCmd g k)
  { norm := bits (w 0) 0 2 != 0, publish := bitAt (w 0) 2, pubSel := bits (w 0) 3 1, job := bits (w 0) 4 4, first := bits (w 0) 8 12,
    count := bits (w 0) 20 13, t := bits (w 1) 0 48, clip := (w 2).extractLsb' 0 32, lr := (w 2).extractLsb' 32 32,
    b1 := (w 3).extractLsb' 0 32, b2 := (w 3).extractLsb' 32 32 }

/-- The partition of a command's records. -/
def State.winPart (s : State) (g : Nat) : Nat := (s.tt (s.layerAt g (s.winCmd g).first).w).part

/-- A reserved bit or code of the command is not 0. -/
def State.winCmdBad (s : State) (g : Nat) : Bool :=
  let w := fun k => s.rd (.winCmd g k)
  decide (2 ≤ bits (w 0) 0 2 ∨ bits (w 0) 33 31 ≠ 0 ∨ bits (w 1) 48 16 ≠ 0) || [4, 5, 6, 7].any fun k => w k != 0

def State.setWinState (s : State) (g st : Nat) : State := s.setFld (.winStatus g) F.winStatusState st

/-! State entries (Table 12-4). -/

def State.lastStep (s : State) (g i : Nat) : Nat := bits (s.rd (.winState g i 0)) 0 48
def State.normStep (s : State) (g i : Nat) : Nat := bits (s.rd (.winState g i 1)) 0 48
def State.wnormsq (s : State) (g i : Nat) : F32 := (s.rd (.winState g i 2)).extractLsb' 0 32
def State.partialOf (s : State) (g i : Nat) : F32 := (s.rd (.winState g i 2)).extractLsb' 32 32

def State.setState (s : State) (g i k lo len v : Nat) : State := s.wr (.winState g i k) (setBits (s.rd (.winState g i k)) lo len v)

/-! Checks (R285, R286, R288). -/

/-- The step before t, modulo 2^48. -/
def prevStep (t : Nat) : Nat := (t + 2 ^ 48 - 1) % 2 ^ 48

/-- Which step field of a record fails: LAST_STEP, or NORM_STEP, with what was found. -/
def State.skewOf (s : State) (g i t : Nat) (norm : Bool) : Option (Bool × Nat) :=
  if s.lastStep g i ≠ (if norm then t else prevStep t) then some (false, s.lastStep g i)
  else if !norm ∧ s.normStep g i ≠ prevStep t then some (true, s.normStep g i)
  else none

/-- The records that fail, counted; the first is logged. Answers whether any failed. -/
def State.skewCheck (s : State) (g t : Nat) (norm : Bool) (is : List Nat) : Bool × State :=
  let bad := is.filterMap fun i => (s.skewOf g i t norm).map fun x => (i, x)
  match bad with
  | [] => (false, s)
  | (i, n, found) :: _ =>
    let s := s.count C.winSkew g bad.length
    (true, if s.flag (.winSkewLog g) F.winSkewLogValid then s
      else s.wr (.winSkewLog g) (BitVec.ofNat 64 (packBits [(1, 1), (1, b2n n), (2, 0), (12, i), (48, found)])))

/-- A number lies in a range of which the lower end may be open. -/
def within (lo hi : Num) (strict : Bool) (x : Num) : Bool := (if strict then Num.lt lo x else Num.le lo x) && Num.le x hi

/-- The tensors that a command needs update-owned, or readable for NORM_ONLY. -/
def WinCmd.needs (c : WinCmd) (r : Layer) : List Nat :=
  if c.norm then [r.w] else [r.w, r.m, r.ms, r.g] ++ if c.publish && r.pub then [if c.pubSel = 0 then r.p0 else r.p1] else []

/-- The first tensor of a command whose class refuses it (R280, R287, R288). -/
def State.winDenied (s : State) (g : Nat) : Option Nat :=
  let c := s.winCmd g
  let ok := fun t => let e := s.ttAt g t; if c.norm then e.cls != 1 || e.drain else e.cls == 2
  ((List.range c.count).flatMap fun i => c.needs (s.layerAt g (c.first + i))).find? fun t => !ok t

/-- The status of a refused command, 0 when it passes (R288). -/
def State.winRefusal (s : State) (g : Nat) : Nat :=
  let c := s.winCmd g
  let is := (List.range c.count).map fun i => c.first + i
  let one : Num := .pow2 0
  let lr := Num.of32 c.lr
  if s.winCmdBad g || c.count == 0 || decide (4096 < c.first + c.count) || !(is.all fun i => (s.layerAt g i).valid && (s.layerAt g i).job == c.job)
      || !within .zero one true (.of32 c.clip) || lr.isNan || Num.lt lr .zero || !within .zero one false (.of32 c.b1)
      || !within .zero one false (.of32 c.b2) then KS.badArg
  else if (s.winDenied g).isSome then KS.denied else KS.ok

/-- The check phase of one winnower (R286). -/
def State.winCheck (s : State) (g : Nat) : State :=
  let c := s.winCmd g
  let refusal := s.winRefusal g
  -- a class refusal is counted and posted (R216)
  let s := match (if refusal = KS.denied then s.winDenied g else none) with
    | some t => (s.count C.grnClassRefused g).fault (agentGranary g) 0x07 4 t (s.ttAt g t).base
    | none => s
  let (st, s) := if refusal ≠ 0 then (refusal, s) else
    let (bad, s) := s.skewCheck g c.t c.norm ((List.range c.count).map fun i => c.first + i)
    (if bad then KS.stepSkew else 0, s)
  (s.setFld (.winStatus g) F.winStatusFailStatus st).setWinState g (if st = 0 then 2 else 3)

/-! Arithmetic (R272 to R275, R277, R282). -/

/-- A square root rounded once. -/
def sqrt32 : Num → Num
  | .nan => .nan
  | .inf n => if n then .nan else .inf false
  | .fin n m e => if m = 0 then .fin n 0 0 else if n then .nan else (sqrtNum m e).r32

/-- s_l and eta (R274). -/
def layerEta (r : Layer) (wnormsq lr : F32) : Num :=
  let q := sqrt32 (div32 (.of32 wnormsq) (.ofInt r.n)).1
  let lo := if Num.lt q (.of32 r.smin) then Num.of32 r.smin else q
  let sl := if Num.lt (.of32 r.smax) lo then Num.of32 r.smax else lo
  (mul32 (.of32 lr) sl).1

def one32 : Num := .pow2 0

/-- 1 - x in FP32. -/
def oneLess (x : Num) : Num := (add32 one32 x.neg).1

/-- sign(u), with sign(0) = 0. -/
def signOf (x : Num) : Num := if x.isZero then .zero else if x.sign then one32.neg else one32

/-- The new momentum and weight of an element (R272). -/
def element (c : WinCmd) (wd eta w m g : Num) : Num × Num :=
  let gp := (mul32 (.of32 c.clip) g).1
  let b1 := Num.of32 c.b1; let b2 := Num.of32 c.b2
  let u := (fma32 b1 m (mul32 (oneLess b1) gp).1).1
  let mn := (fma32 b2 m (mul32 (oneLess b2) gp).1).1
  let d := (fma32 wd w (signOf u)).1
  (mn, (fma32 eta.neg d w).1)

/-- pow(x, k): the exact power rounded once, within 2 steps of it (R282, log 10). -/
def powNum (x : Num) (k : Nat) : Num :=
  let w := match x with
    | .fin n m e => (rnd32 (.fin (n && k % 2 == 1) (m ^ k) (e * k))).1
    | y => (rnd32 y).1
  Num.of32 (stepBy w (max (-2) (min 2 (Config.powSteps (rnd32 x).1 k))))

/-- One element of a granule as read: weight code and momentum code; whether it is written, and with which factors on momentum and
weight (R282). -/
structure ElemIn where
  w : Nat
  m : Nat
  g : Nat
  touched : Bool
  fm : Option Num
  fw : Option Num

/-- One element as written: the value of the new momentum unless the code stays, the new weight (FP32) unless the code stays. -/
structure ElemOut where
  w : Option Num
  m : Option Num
  bad : Bool

def elementOut (c : WinCmd) (wd eta : Num) (scale : Nat) (x : ElemIn) : ElemOut :=
  if !x.touched then ⟨none, none, false⟩ else
  let w0 := Elem.bf16.decode x.w
  let m0 := (mul32 (scaleOf scale) (Elem.e4m3.decode x.m)).1
  let g := Elem.bf16.decode x.g
  let w := match x.fw with
    | some f => (mul32 w0 f).1
    | none => w0
  let m := match x.fm with
    | some f => (mul32 m0 f).1
    | none => m0
  let (mn, wn) := element c wd eta w m g
  if w0.isFin && m0.isFin && g.isFin && wn.isFin && mn.isFin then ⟨some wn, some mn, false⟩
  else ⟨none, if m0.isFin then some m0 else none, true⟩

/-- Rounding modes of a granule's write: SR or RNE; every row of a write in fallback is counted (R228). -/
def State.winRoundings (s : State) (g : Nat) (sr : Bool) (rows : Nat) : List Rnd × State :=
  if sr && !s.granaryFallback g then s.freeDraws 4096
  else (List.replicate 4096 .rne, if sr then s.count C.grnSrFallback g rows else s)

/-- A granule's momentum: scale byte and codes. The scale is formed over the finite values written; a code without a value stays, and so does the scale where
there is no value at all (R277). -/
def momentumOut (rs : List Rnd) (scale : Nat) (old : List Nat) (vals : List (Option Num)) : Nat × List Nat :=
  if vals.all Option.isNone then (scale, old) else
  let (sc, codes, _) := mxBlock .e4m3 rs (vals.map fun v => v.getD .zero)
  (sc, (List.range 4096).map fun i => if (vals.getD i none).isSome then codes.getD i 0 else old.getD i 0)

/-! Granules in LPDDR5X. -/

/-- Physical rows of a run of a tensor's rows, with the pages that hold them. -/
def State.tensorRows (s : State) (t from_ n : Nat) : List LpLoc :=
  let e := s.tt t
  (List.range n).map fun i => s.ownLoc e.part (e.base / 512 + from_ + i)

def State.readsOf (s : State) (ls : List LpLoc) : List LpGot := ls.map s.lpRead

/-- Codes of a width over rows. -/
def codesOf (w : Nat) (rs : List LpGot) : List Nat := rs.flatMap fun r => unpack r.data 0 w (4096 / w)

/-- Codes are written to those of the rows that are live. -/
def State.writeCodes (s : State) (ls : List LpLoc) (live : Nat → Bool) (w : Nat) (cs : List Nat) : State :=
  let rows := chunks (4096 / w) ls.length cs
  (List.range ls.length).foldl (fun (s : State) i => match ls[i]? with
    | some l => if live i then s.lpWrite l.key (BitVec.ofNat 4096 (packNat w (rows.getD i []))) false else s
    | none => s) s

def State.poisonRows (s : State) (ls : List LpLoc) : State := ls.foldl (fun (s : State) l => s.lpWrite l.key 0 true) s

/-- The granary whose winnower updates granule k of a record (R276). -/
def State.granuleOwner (s : State) (r : Layer) (k : Nat) : Nat := match (s.tensorRows r.m (8 * k) 1) with
  | l :: _ => rowGranary l.key
  | [] => 0

/-- A winnower may use the rows for a job: PRESENT pages that it may read, or write in update (Table 9-4). -/
def State.winMay (s : State) (p j : Nat) (ls : List LpLoc) (write : Bool) : Bool :=
  ls.all fun l => decide (pgState l.page = 1) && s.classOk p j l (if write then .winnow else .read)

/-- A refused granule (R216): page faults and class refusals are counted, and nothing of it is written. A class refusal raises KS_DENIED. -/
def State.winRefused (s : State) (g p j : Nat) (ls : List LpLoc) (write : Bool) : State :=
  match ls.find? fun l => !s.winMay p j [l] write with
  | some l =>
    if pgState l.page = 1 then
      let s := s.classRefused l (agentGranary g) 4 l.row
      { s with win := s.win.map fun (w : WinRun) => if w.part = p ∧ w.job = j ∧ w.status = 0 then { w with status := KS.denied } else w }
    else s.pageFault l.row
  | none => s

/-- One byte of a scale tensor. -/
def State.scaleByte (s : State) (l : LpLoc) (k : Nat) : Nat := bits (s.lpRead l).data (8 * (k % 512)) 8

def State.setRowBits (s : State) (l : LpLoc) (lo len v : Nat) : State :=
  let x := s.lpRead l
  if x.poison then s else s.lpWrite l.key (setBits x.data lo len v) false

/-! Lazy rows (R282). -/

/-- Embedding rows that overlap a granule. -/
def Layer.rowsIn (r : Layer) (k : Nat) : List Nat :=
  let n := 128 * r.width
  let a := 4096 * k / n
  (List.range ((4096 * k + 4095) / n - a + 1)).map fun i => a + i

def State.touched (s : State) (r : Layer) (row : Nat) : Bool := match s.tensorRows r.touch (row / 4096) 1 with
  | l :: _ => bitAt (s.lpRead l).data (row % 4096)
  | [] => false

def State.tRow (s : State) (r : Layer) (row : Nat) : Nat := match s.tensorRows r.trow (row / 128) 1 with
  | l :: _ => bits (s.lpRead l).data (32 * (row % 128)) 32
  | [] => 0

/-- Delta of a row, and whether it is a skew (R282). -/
def State.rowDelta (s : State) (r : Layer) (t row : Nat) : Nat × Bool :=
  let d := (t + 2 ^ 32 - s.tRow r row) % 2 ^ 32
  if d = 0 ∨ 2 ^ 31 ≤ d then (1, true) else (d, false)

/-- A record's whole row set takes t when the pass of the device is over: every granule of a row is updated from one t_row. -/
def State.setTrows (s : State) (r : Layer) (t : Nat) : State :=
  let hit := (List.range r.lazyRows).filter fun row => s.touched r row
  let p := (s.tt r.w).part
  -- the rows of row steps, each with the touched rows it holds; a refused one is not written (R216)
  (dedup (hit.map fun row => row / 128)).foldl (fun (s : State) q =>
    let ls := s.tensorRows r.trow q 1
    if !s.winMay p r.job ls true then s.winRefused (s.granuleOwner r (128 * q * (128 * r.width) / 4096)) p r.job ls true
    else (hit.filter fun row => row / 128 == q).foldl (fun (s : State) row => match ls with
      | l :: _ => s.setRowBits l (32 * (row % 128)) 32 (t % 2 ^ 32)
      | [] => s) (s.lpMeets ls)) s

/-! Tithes (R431, R432, R434). -/

/-- The valid records of a job, and the slots before a record. -/
def State.slotBase (s : State) (p j i : Nat) : Nat :=
  ((s.layersOf p j).filter fun k => decide (k < i)).foldl (fun a k => a + (s.layer k).n / 4096) 0

/-- FRACTION_LOG2 in force (R434). -/
def State.fraction (s : State) (p j : Nat) (x : Tithe) : Nat :=
  if x.fraction ≠ 0xFF then x.fraction
  else
    let b := s.job p j
    let e := (b.restores.filter fun u => decide (b.t < u + 1024)).length
    8 - min 8 (Nat.log2 (1 + e))

/-- A slot's header row (R432). -/
def slotHeader (t i k scale : Nat) (lazy_ : Bool) (trows : List Nat) : Row :=
  BitVec.ofNat 4096 (packBits [(48, t), (15, 0), (1, 1), (16, i), (16, 0), (32, k), (8, scale), (8, b2n lazy_), (16, trows.length)]
    + packNat 32 (trows.take 33) * 2 ^ 512)

/-- The winnower sends the granule it has written. -/
def State.sendTithe (s : State) (g p j i k : Nat) (r : Layer) (t : Nat) : State :=
  match (s.job p j).tithe with
  | none => s
  | some x =>
    let slot := s.slotBase p j i + k
    if !r.lazy_ && (slot + t) % 2 ^ s.fraction p j x != 0 then s
    else match x.gens[slot / 2684354]? with
      | none => s.count C.titheFailed g
      | some gen =>
        let rows := (s.readsOf (s.tensorRows r.w (16 * k) 16) ++ s.readsOf (s.tensorRows r.m (8 * k) 8)).map LpGot.data
        let scale := match s.tensorRows r.ms (k / 512) 1 with
          | l :: _ => s.scaleByte l k
          | [] => 0
        let trows := if r.lazy_ then (r.rowsIn k).map fun row => if s.touched r row then t % 2 ^ 32 else s.tRow r row else []
        let id := s.titheSeq
        let all := rows ++ [slotHeader t i k scale r.lazy_ trows]
        let run : TitheRun := ⟨id, g, p, j, x.buddy, x.hatch + slot / 2684354, 25 * (slot % 2684354), gen, x.token, all, 1, 1, 1⟩
        (State.pushTithe { s with tithes := s.tithes ++ [run], titheSeq := id + 1 } id 1).count C.titheSlots g

/-! The pass (R276). -/

/-- The job's run had a granule poisoned: it will end with KS_FAULT (R293). -/
def State.markPoisoned (s : State) (p j t : Nat) : State :=
  let b := s.job p j
  let s := s.setJob p j { b with restores := b.restores ++ [t] }
  match s.win with
  | some w => if w.part = p ∧ w.job = j then { s with win := some { w with poisoned := true } } else s
  | none => s

def sumSquares (l : List Num) : Num := (treeSum (l.map fun x => (mul32 x x).1)).1

def State.addPartial (s : State) (g i : Nat) (x : Num) : State :=
  s.setState g i 2 32 32 (rnd32 (add32 (.of32 (s.partialOf g i)) x).1).1.toNat

/-- NORM_ONLY of a granule (R287). -/
def State.normGranule (s : State) (g p j i k : Nat) (r : Layer) (t : Nat) : State :=
  let ls := s.tensorRows r.w (16 * k) 16
  let xs := s.readsOf ls
  if !s.winMay p j ls false then s.winRefused g p j ls false else
  let s := s.lpMeets ls
  if xs.any LpGot.poison then s.markPoisoned p j t
  else
    let ws := (codesOf 16 xs).map fun c => let v := Elem.bf16.decode c; if v.isFin then v else .zero
    s.addPartial g i (sumSquares ws)

/-- The publication copy of a granule (R279). -/
def State.publish (s : State) (g k : Nat) (r : Layer) (tensor : Nat) (vals : List Num) : State :=
  let bs : List (Nat × List Nat × Flags) := (chunks 32 128 vals).map fun b => mxBlock .e2m1 (List.replicate 32 .rne) b
  let s := s.writeCodes (s.tensorRows tensor (4 * k) 4) (fun _ => true) 4 (bs.flatMap fun (b : Nat × List Nat × Flags) => b.2.1)
  let s := match s.tensorRows tensor (r.n / 1024 + k / 4) 1 with
    | l :: _ =>
      let s := s.lpMeet l
      s.lpWrite l.key (setBits (s.lpRead l).data (1024 * (k % 4)) 1024 (packNat 8 (bs.map fun (b : Nat × List Nat × Flags) => b.1))) false
    | [] => s
  s.count C.winPubRows g (4 + b2n (k % 4 == 0))

/-- UPDATE of a granule. -/
def State.updateGranule (s : State) (g p j i k : Nat) (r : Layer) (c : WinCmd) (eta : Num) : State :=
  let lw := s.tensorRows r.w (16 * k) 16; let lm := s.tensorRows r.m (8 * k) 8
  let lg := s.tensorRows r.g (16 * k) 16; let ls := s.tensorRows r.ms (k / 512) 1
  let pub := if r.pub && c.publish then some (if c.pubSel = 0 then r.p0 else r.p1) else none
  let lp := match pub with
    | some t => s.tensorRows t (4 * k) 4
    | none => []
  let lps := match pub with
    | some t => s.tensorRows t (r.n / 1024 + k / 4) 1
    | none => []
  let rows := if r.lazy_ then r.rowsIn k else []
  -- the touch-map rows that the granule's embedding rows name (R282)
  let lt := dedup (rows.flatMap fun row => s.tensorRows r.touch (row / 4096) 1)
  if !s.winMay p j lt false then s.winRefused g p j lt false else
  let s := s.lpMeets lt
  let hit := rows.filter fun row => s.touched r row
  let n := 128 * r.width
  -- whether part a of the granule, of d elements, holds elements of a touched row; no other is read or written (R282)
  let live := fun (d a : Nat) => !r.lazy_ || hit.any fun row => decide (row * n < 4096 * k + d * (a + 1) ∧ 4096 * k + d * a < (row + 1) * n)
  let lives := fun (d : Nat) (l : List LpLoc) => (List.range l.length).filterMap fun a => if live d a then l[a]? else none
  let rw := lives 256 lw; let rm := lives 512 lm; let rg := lives 256 lg
  let lr := dedup (hit.flatMap fun row => s.tensorRows r.trow (row / 128) 1)
  -- a row is counted where its first element lies
  let mine := fun (row : Nat) => row * n / 4096 == k
  let s := if r.lazy_ then
      let s := (s.count C.winLazyRows g (hit.filter mine).length).count C.winLazySkipped g
        (rows.filter fun row => mine row && !hit.contains row).length
      s.count C.winLazySkew g (hit.filter fun row => mine row && (s.rowDelta r c.t row).2).length
    else s
  if r.lazy_ && hit.isEmpty then s
  else if !s.winMay p j (rw ++ rm ++ rg ++ ls ++ lp ++ lps ++ lr) true then
    s.winRefused g p j (rw ++ rm ++ rg ++ ls ++ lp ++ lps ++ lr) true
  else
    let all := rw ++ rm ++ rg ++ ls
    let s := s.lpMeets (all ++ lr)
    if all.any fun l => (s.lpRead l).poison then
      let s := ((s.poisonRows rw).poisonRows rm).poisonRows lp
      let s := s.setState g i 3 32 16 (min (bits (s.rd (.winState g i 3)) 32 16 + 1) 65535)
      (s.count C.winPoisonGranules g).markPoisoned p j c.t
    else
      let sc := match ls with
        | l :: _ => s.scaleByte l k
        | [] => 0
      let ws := codesOf 16 (s.readsOf lw); let ms := codesOf 8 (s.readsOf lm); let gs := codesOf 16 (s.readsOf lg)
      let b2 := Num.of32 c.b2
      let decay := oneLess (mul32 eta (.of32 r.wd)).1
      let miss := rows.map fun row => (row, hit.contains row, (s.rowDelta r c.t row).1 - 1)
      let xs := (List.range 4096).map fun e =>
        let base : ElemIn := ⟨ws.getD e 0, ms.getD e 0, gs.getD e 0, true, none, none⟩
        if !r.lazy_ then base else
        match miss.find? fun m => m.1 == (4096 * k + e) / n with
        | some (_, true, d) => { base with fm := some (powNum b2 d), fw := some (powNum decay d) }
        | _ => { base with touched := false }
      let os := xs.map (elementOut c (.of32 r.wd) eta sc)
      let (dw, s) := s.winRoundings g r.srW rw.length
      let (dm, s) := s.winRoundings g r.srM rm.length
      let wn := (List.range 4096).map fun e => match (os.getD e ⟨none, none, false⟩).w with
        | some v => (Elem.bf16.write false (dw.getD e .rne) v).1
        | none => ws.getD e 0
      let (sc', mn) := momentumOut dm sc ms (os.map ElemOut.m)
      let s := (s.writeCodes lw (live 256) 16 wn).writeCodes lm (live 512) 8 mn
      let s := match ls with
        | l :: _ => s.setRowBits l (8 * (k % 512)) 8 sc'
        | [] => s
      let s := match pub with
        | some t => s.publish g k r t ((List.range 4096).map fun e => ((os.getD e ⟨none, none, false⟩).w).getD (Elem.bf16.decode (ws.getD e 0)))
        | none => s
      let done := os.map fun o => o.w.isSome
      let sq := fun (cs : List Nat) => sumSquares ((List.range 4096).map fun e => if done.getD e false then Elem.bf16.decode (cs.getD e 0) else .zero)
      let s := s.addPartial g i (if r.lazy_ then (add32 (sq wn) (sq ws).neg).1 else sq wn)
      let nbad := (os.filter ElemOut.bad).length
      let was := bits (s.rd (.winState g i 3)) 0 32
      let s := if nbad = 0 then s else
        let s := (s.setState g i 3 0 32 (was + nbad)).count C.winNonfinite g nbad
        if was = 0 then s.fault (agentGranary g) 0x0C 0 i k else s
      let s := (s.count C.winElems g (done.filter id).length).count C.winGranules g
      s.sendTithe g p j i k r c.t

/-- One record of a pass (R276, R286). -/
def State.passRecord (s : State) (g : Nat) (c : WinCmd) (i : Nat) : State :=
  let r := s.layerAt g i
  let p := (s.tt r.w).part
  let eta := layerEta r (s.wnormsq g i) c.lr
  let mine := (List.range (r.n / 4096)).filter fun k => s.granuleOwner r k == g
  let s := (s.setState g i 2 32 32 0).setFld (.winStatus g) F.winStatusRecord i
  if c.norm then
    (mine.foldl (fun (s : State) k => s.normGranule g p c.job i k r c.t) s)
  else
    let s := (s.setState g i 3 0 32 0).setState g i 3 32 16 0
    let s := mine.foldl (fun (s : State) k => (s.updateGranule g p c.job i k r c eta).setFld (.winStatus g) F.winStatusGranule k) s
    s.setState g i 0 0 48 c.t

/-- The pass of one winnower: RUNNING until its tithes are answered (R289, R434). -/
def State.winPass (s : State) (g : Nat) : State :=
  let c := s.winCmd g
  let s := (List.range c.count).foldl (fun (s : State) i => s.passRecord g c (c.first + i)) (s.setWinState g 4)
  (s.setWinState g 4).settleWin g

end Sys2Proof.Machine
end

