-- ==== Sys2Proof/Machine/Steps.lean ====
section
/-! DEFINITION. The learning step (chapter 11): its start, the norm reduction, the result, the update and its end; layer norms
(R275, R283); the restore of a job (R435). -/

namespace Sys2Proof.Machine

/-! Reduction packets (Table 11-3). -/

structure Packet where
  step : Nat
  void : Bool
  reason : Nat
  rows : Nat
  normsq : F32
  deriving DecidableEq, Repr

def packetOf (w : BitVec 128) : Packet := ⟨bits w 0 48, bitAt w 48, bits w 49 7, bits w 56 40, w.extractLsb' 96 32⟩

def Packet.word (k : Packet) : BitVec 128 :=
  BitVec.ofNat 128 (packBits [(48, k.step), (1, b2n k.void), (7, k.reason), (40, k.rows), (32, k.normsq.toNat)])

/-- FP32 sum in list order, rounded at each addition. -/
def packetSum (l : List F32) : F32 := match l with
  | [] => 0
  | x :: t => t.foldl (fun a y => (rnd32 (add32 (.of32 a) (.of32 y)).1).1) x

/-- Packets combined in list order at step t, void for the lowest of the given causes and of those the packets carry (Table 11-4). -/
def combine (t : Nat) (l : List Packet) (missing : Bool) (expect : Option Nat) : Packet :=
  let n := packetSum (l.map Packet.normsq)
  let rows := l.foldl (fun a k => a + k.rows) 0 % 2 ^ 40
  let skew := l.any fun k => k.step != t
  let own := (l.filter fun k => k.void).map Packet.reason
  let causes := (if skew then [1] else []) ++ own ++ (if missing then [2] else [])
    ++ match expect with
      | some e => (if (Num.of32 n).isFin then [] else [3]) ++ (if e ≠ 0 ∧ rows ≠ e then [4] else [])
      | none => []
  match causes with
  | [] => ⟨t, false, 0, rows, n⟩
  | c :: cs => ⟨t, true, cs.foldl min c, rows, n⟩

/-- The status that a void reason is reported with (Table 11-4). -/
def voidStatus (reason : Nat) : Nat :=
  match reason with
  | 1 => KS.stepSkew
  | 2 => KS.timeout
  | 5 => KS.ok
  | _ => KS.fault

/-! Members (R263, R265). -/

/-- The other devices that take part. -/
def State.others (s : State) (c : StepCfg) : List Nat := dedup (c.members.filter fun m => m != s.ownFabric)

def State.alone (s : State) (c : StepCfg) : Bool := (s.others c).isEmpty

def State.isRoot (s : State) (c : StepCfg) : Bool := s.alone c || c.root == s.ownFabric

/-! Packets between devices (R263, R275, R343). ROOT takes those of the members at a place that it has given them, each at its number among the
MEMBERS, 31 to a row; a member takes ROOT's the same way. The rows are EMPTY once they have been read (DESIGN CHOICE, log 57). -/

/-- The packet of a member in the rows, if it has arrived. -/
def State.packetIn (s : State) (rows : List RowRef) (place : Nat) : Option (BitVec 128) :=
  match rows[place / 31]? with
  | none => none
  | some r =>
    let x := s.row r
    if decide (x.tag = .full) && bitAt x.data (3968 + place % 31) then some (x.data.extractLsb' (128 * (place % 31)) 128) else none

/-- The packets of the other members that have arrived. -/
def State.memberPackets (s : State) (c : StepCfg) (rows : List RowRef) : List (Nat × BitVec 128) :=
  (s.others c).filterMap fun m => (s.packetIn rows (c.members.idxOf m)).map fun w => (m, w)

def State.emptyRows (s : State) (rows : List RowRef) : State :=
  rows.foldl (fun (s : State) r => s.setRow r { s.row r with data := 0, tag := .empty }) s

/-- Send a packet to devices. -/
def State.sendPackets (s : State) (p j : Nat) (c : StepCfg) (ms : List Nat) (record : Option Nat) (w : BitVec 128) : State :=
  State.pushPackets { s with packetsOut := s.packetsOut ++ ms.map fun m => ⟨p, j, m, c.members.idxOf s.ownFabric, record, w⟩ }

/-! Step reports (R222). -/

/-- The counters of a step report. -/
def reportNums : List Nat := [7, 8, 9, 10, 11, 12, 13, 14]

def State.takeReport (s : State) (p j t : Nat) : State :=
  let k := jobKey p j
  let rep := reportNums.foldl (fun (m : SMap Nat) n => SMap.put zeroNat m n (s.ctr ⟨9, n⟩ k)) []
  let s := reportNums.foldl (fun (s : State) n => s.setCtr ⟨9, n⟩ k 0 0) s
  s.setJob p j { s.job p j with report := rep, reportT := t }

/-! Frozen tensors and records (R257). -/

def State.frozenW (s : State) (p j t : Nat) : Bool :=
  (s.job p j).frozen.contains t && (s.clustersOf p).any fun cl => s.flag (.dspJob cl j) F.dspJobFrozen

/-- The records that the update names. -/
def State.updated (s : State) (p j : Nat) : List Nat := (s.layersOf p j).filter fun i => !s.frozenW p j (s.layer i).w

/-- Contiguous runs of a rising list: first and count. -/
def runsOf : List Nat → List (Nat × Nat)
  | [] => []
  | x :: t => match runsOf t with
    | (a, n) :: r => if a = x + 1 then (x, n + 1) :: r else (x, 1) :: (a, n) :: r
    | [] => [(x, 1)]

/-- The publication tensor of a record that PUB_SEL selects. -/
def pubOf (r : Layer) (sel : Nat) : Nat := if sel = 0 then r.p0 else r.p1

/-- The step of the last update: LAST_STEP of the job's first record, else of its last step. -/
def State.lastUpdated (s : State) (p j : Nat) : Nat := match s.updated p j with
  | i :: _ => s.lastStep s.homeGran i
  | [] => (s.job p j).lastT.getD 0

/-! Commands (Table 17-7). -/

/-- STEP_CONFIG: the settings wait for the next step start. -/
def State.performStepConfig (s : State) (o : FwOut) : FwRes :=
  let n := o.body 30 0 8
  let ms := (List.range n).map fun i => o.body (64 + 2 * i) 0 16
  let ms' := o.body 28 0 16
  s.jobCheck o <|
  if n = 0 ∨ 64 < n ∨ o.cmd.len < 64 + 2 * n ∨ ms' = 0 ∨ 10000 < ms' ∨ ms.contains (o.body 26 0 16) = false then .bad s KS.badArg
  else
    let f := fun (b : Nat) => BitVec.ofNat 32 (o.body b 0 32)
    let c : StepCfg := ⟨f 16, o.body 20 0 40, o.body 26 0 16, ms', f 32, f 36, o.body 40 0 1 == 1, ms⟩
    .good (s.setJob o.part o.job { s.job o.part o.job with cfgNext := some c })

/-- The weights and publication tensors of a job's records. -/
def State.stepTensors (s : State) (p j : Nat) : List Nat :=
  dedup ((s.layersOf p j).flatMap fun i => let r := s.layer i; r.w :: if r.pub then [r.p0, r.p1] else [])

/-- STEP_BEGIN (R262, R270): the step starts at the next tick. -/
def State.performStepBegin (s : State) (o : FwOut) : FwRes :=
  let p := o.part; let j := o.job
  s.jobCheck o <|
  let b := s.job p j
  let ts := (s.stepTensors p j).filter fun t => !b.pub.contains t
  if ts.any fun t => s.seals.any fun w => w.tensor == t then .bad s KS.busy
  else if (s.part p).phase ≠ 0 ∨ b.stage ≠ .none ∨ ts.any (fun t => (s.tt t).cls != 0) = true then .bad s KS.badArg
  else if o.body 16 0 48 ≠ (s.lastUpdated p j + 1) % 2 ^ 48 then .bad s KS.stepSkew
  else .wait (.stepStart p j) s

/-! Step start (Table 11-2). -/

/-- The epoch bits of a job's ACCUM tensors are cleared; its accumulate-writes wait until the clear has ended (R227). -/
def State.epochClear (s : State) (p j : Nat) : State :=
  let ts := (s.tensorsOf p j).filter fun i => (s.tt i).accum
  -- every granule that the tensors reach, of pages that have a frame
  let keys := ts.flatMap fun i =>
    let a := (s.tt i).base / 512
    (List.range ((a + (s.tt i).rows + 7) / 8 - a / 8)).filterMap fun k =>
      let l := s.ownLoc p (8 * (a / 8 + k))
      if pgState l.page = 1 then some (l.key / 8) else none
  let s := keys.foldl (fun (s : State) k => { s with epoch := SMap.erase s.epoch k }) s
  (s.setJob p j { s.job p j with clearing := true }).syncEpoch

/-- An unseal that the job's own step asks for. -/
def State.askUnseal (s : State) (p j t : Nat) : State :=
  let b := s.job p j
  let s := if b.pub.contains t then s else s.setJob p j { b with pub := b.pub ++ [t] }
  if decide ((s.tt t).cls = 0) && !(s.seals.any fun w => w.tensor == t) then { s with seals := s.seals ++ [⟨t, true, false⟩] } else s

/-- Which publication tensor the step writes: the one that does not hold the newest sealed generation (R270). -/
def State.pickPub (s : State) (p j : Nat) : Nat :=
  match (s.updated p j).find? fun i => (s.layer i).pub with
  | some i =>
    let r := s.layer i
    if (s.tt r.p0).cls = 2 then 0 else if (s.tt r.p1).cls = 2 then 1 else (s.job p j).pubSel
  | none => (s.job p j).pubSel

/-- Settings that waited for the step start. -/
def State.takeNext (s : State) (p j : Nat) : State :=
  let b := s.job p j
  let s := match b.frozenNext with
    | some (on, _) => s.dspPut p fun s cl => [(.dspJob cl j, setBits (s.rdS (.dspJob cl j)) F.dspJobFrozen.lo F.dspJobFrozen.len (b2n on))]
    | none => s
  let frozen := match b.frozenNext with
    | some (_, l) => l
    | none => b.frozen
  s.setJob p j { b with frozen := frozen, frozenNext := none, cfg := b.cfgNext.getD b.cfg, cfgNext := none }

/-- The start of learning step t (Table 11-2, order 1). -/
def State.stepStart (s : State) (p j t : Nat) (lr : F32) : State :=
  let s := (s.takeNext p j).adoptViews p
  let b := s.job p j
  let s := s.setJob p j { b with stage := .backward, t := t, lr := lr, packets := [], device := none, result := none, pubSel := s.pickPub p j }
  let s := (List.range 24).foldl (fun (s : State) g =>
    (s.wr (.grnNorm g j) (BitVec.ofNat 64 (packBits [(32, 0), (32, t % 2 ^ 32)]))).wr (.grnFinal g j) 0) s
  let s := s.epochClear p j
  let s := ((s.tensorsOf p j).filter fun i => (s.tt i).cls == 1).foldl (fun (s : State) i => s.ttSet i 0 11 1 0) s
  let s := if b.cfg.publish then
      ((s.updated p j).filter fun i => (s.layer i).pub).foldl (fun (s : State) i => s.askUnseal p j (pubOf (s.layer i) (s.job p j).pubSel)) s
    else s
  s.complete? (.stepStart p j) fun _ => .good

/-! The step's end. -/

/-- The STEP event (Table 17-8). -/
def State.stepEvent (s : State) (p j status : Nat) (normsq clip : F32) (reason : Nat) : State :=
  s.post 4 p j status [(8, 6, (s.job p j).t), (16, 4, normsq.toNat), (20, 4, clip.toNat), (24, 1, reason)]

/-- The step is over: report (R222). While the host is lost the job stops at the next tick (R309, R430). -/
def State.endStep (s : State) (p j : Nat) : State :=
  let s := s.takeReport p j (s.job p j).t
  s.setJob p j { s.job p j with stage := .none, packets := [], device := none, result := none, arrived := none }

/-- A void result skips the update (R267). -/
def State.voidStep (s : State) (p j reason : Nat) (normsq : F32) : State :=
  (s.stepEvent p j (voidStatus reason) normsq 0 reason).endStep p j

/-! The reduction (R264 to R267, R285). -/

/-- Every channel of the job is IDLE, with no PAUSED transfer. -/
def State.jobIdle (s : State) (p j : Nat) : Bool := (s.jobChans p j).all fun c => s.chState c.1 c.2 == 0

/-- One granary's packet, after its skew check. -/
def State.granaryPacket (s : State) (p j g : Nat) : State :=
  let t := (s.job p j).t
  let (skew, s) := s.skewCheck g t false (s.layersOf p j)
  let n := s.rd (.grnNorm g j)
  let bad := skew || bits n 32 32 != t % 2 ^ 32
  let k : Packet := ⟨t, bad, b2n bad, s.fld (.grnFinal g j) F.grnFinalRows, n.extractLsb' 0 32⟩
  let b := s.job p j
  s.setJob p j { b with packets := b.packets ++ [(g, k.word)] }

/-- END_OF_BACKWARD: the gradients stay fixed from here; the granaries check and send their packets. The marked task list is the
world's to know. -/
def execEndOfBackward (part job : Nat) (s : State) : Res :=
  unitOk (decide (part < 12 ∧ job < 16)) <|
  need (decide ((s.job part job).stage = .backward) && !(s.job part job).clearing && s.jobIdle part job) s <|
  .next <|
    let s := s.setJob part job { s.job part job with stage := .reduce, packets := [] }
    s.granaries.foldl (fun (s : State) g => s.granaryPacket part job g) s

/-- The result that ROOT, or a device alone, forms from packets by rising fabric ID (R265). -/
def State.formResult (s : State) (p j : Nat) (l : List (Nat × BitVec 128)) (missing : Bool) : State :=
  let b := s.job p j
  let own := (s.ownFabric, b.device.getD 0)
  let ks := (sortBy (fun (x : Nat × BitVec 128) => x.1) (own :: l)).map fun (x : Nat × BitVec 128) => packetOf x.2
  let r := (combine b.t ks missing (some b.cfg.expectFinal)).word
  (s.setJob p j { b with result := some r }).sendPackets p j b.cfg (s.others b.cfg) none r

/-- DEVICE_PACKET_FORMED (R264): alone, this is the result; a member sends its packet to ROOT. -/
def execDevicePacketFormed (part job : Nat) (s : State) : Res :=
  unitOk (decide (part < 12 ∧ job < 16)) <|
  need (decide ((s.job part job).stage = .reduce)) s <|
  .next <|
    let b := s.job part job
    let d := (combine b.t (b.packets.map fun (x : Nat × BitVec 128) => packetOf x.2) false none).word
    let s := s.setJob part job { b with stage := .hold, device := some d }
    if s.alone b.cfg then s.formResult part job [] false
    else if s.isRoot b.cfg then s else s.sendPackets part job b.cfg [b.cfg.root] none d

/-- ROOT waits for packets of a step. -/
def State.rootWaits (s : State) (p j : Nat) : Bool :=
  let b := s.job p j
  decide (b.stage = .hold) && b.result.isNone && s.isRoot b.cfg && !s.alone b.cfg

/-- REDUCTION_COMPLETE (R265): ROOT reads the rows of its members' packets. One that arrives after the result has been formed is counted and
ignored. -/
def execReductionComplete (part job : Nat) (rows : List RowRef) (s : State) : Res :=
  unitOk (decide (part < 12 ∧ job < 16) && rows.all rowExists) <|
  let c := (s.job part job).cfg
  let l := s.memberPackets c rows
  if !s.rootWaits part job then .next ((s.countJob C.redLate part job l.length).emptyRows rows)
  else need (l.length == (s.others c).length) s <| .next ((s.emptyRows rows).formResult part job l false)

/-- REDUCE_TIMEOUT (R265). -/
def execReduceTimeout (part job : Nat) (rows : List RowRef) (s : State) : Res :=
  unitOk (decide (part < 12 ∧ job < 16) && rows.all rowExists) <|
  let c := (s.job part job).cfg
  let l := s.memberPackets c rows
  need (s.rootWaits part job && decide (l.length < (s.others c).length)) s <| .next ((s.emptyRows rows).formResult part job l true)

/-- RESULT_WAIT_TIMEOUT (R265): the device reports and goes on waiting. -/
def execResultWaitTimeout (part job : Nat) (s : State) : Res :=
  unitOk (decide (part < 12 ∧ job < 16)) <|
  need (decide ((s.job part job).stage = .hold) && (s.job part job).result.isNone) s <|
  .next (s.stepEvent part job KS.timeout 0 0 0)

/-- The clip factor (R266). -/
def clipOf (maxNorm normsq : F32) : F32 :=
  let m := Num.of32 maxNorm
  let n := sqrt32 (.of32 normsq)
  if m.isZero || n.isZero then 0x3F800000
  else
    let q := (div32 m n).1
    (rnd32 (if Num.lt q one32 then q else one32)).1

/-- A result is used (R266, R267): a void one skips the update; else the unseal of the step's weights is asked for, and the update
follows it. -/
def State.useResult (s : State) (p j : Nat) (w : BitVec 128) : State :=
  let b := s.job p j
  let k := packetOf w
  if k.void then s.voidStep p j k.reason k.normsq
  else if k.step ≠ b.t then s.voidStep p j 1 k.normsq
  else
    let b := { b with stage := .update, result := some w, arrived := none, clip := clipOf b.cfg.maxNorm k.normsq, tithe := match b.titheNext with
      | some t => some t
      | none => b.tithe }
    let s := s.setJob p j { b with titheNext := none }
    (s.updated p j).foldl (fun (s : State) i => s.askUnseal p j (s.layer i).w) s

/-- The result as it reaches the device: ROOT and a device alone take the one that they formed, a member reads ROOT's packet. -/
def State.resultIn (s : State) (p j : Nat) (rows : List RowRef) : Option (BitVec 128) :=
  let b := s.job p j
  if s.isRoot b.cfg then b.result else s.packetIn rows (b.cfg.members.idxOf b.cfg.root)

/-- A result that has arrived is used at the next tick (R262). -/
def State.holdResult (s : State) (p j : Nat) (w : BitVec 128) : State := s.setJob p j { s.job p j with arrived := some w }

/-- The device holds its update for a result, and none has arrived. -/
def State.awaits (s : State) (p j : Nat) : Bool := decide ((s.job p j).stage = .hold) && (s.job p j).arrived.isNone

/-- REDUCTION_RESULT (R265, R266); one that arrives when none is awaited is counted and ignored (Table 17-11). -/
def execReductionResult (part job : Nat) (rows : List RowRef) (s : State) : Res :=
  unitOk (decide (part < 12 ∧ job < 16) && rows.all rowExists) <|
  match s.resultIn part job rows with
  | none => .next s
  | some w => .next ((if s.awaits part job then s.holdResult part job w else s.countJob C.redLate part job).emptyRows rows)

/-- At a tick the results that have arrived are used. -/
def State.resultTick (s : State) : State :=
  (List.range 192).foldl (fun (s : State) k => match (s.job (k / 16) (k % 16)).arrived with
    | some w => s.useResult (k / 16) (k % 16) w
    | none => s) s

/-- STEP_RESULT: the host delivers ROOT's result (R265), to be used at the next tick. -/
def State.performStepResult (s : State) (o : FwOut) : FwRes :=
  let p := o.part; let j := o.job
  let w := BitVec.ofNat 128 (o.body 16 0 128)
  s.jobCheck o <|
  let b := s.job p j
  if b.stage ≠ .hold ∨ b.result.isSome = true ∨ b.arrived.isSome = true then .bad s KS.badArg
  else if (packetOf w).step ≠ b.t then .bad s KS.stepSkew
  else .good (s.holdResult p j w)

/-- STEP_VOID (R265, R267). A result that has arrived since the last tick is ignored and counted (Table 17-11). -/
def State.performStepVoid (s : State) (o : FwOut) : FwRes :=
  let p := o.part; let j := o.job
  s.jobCheck o <|
  let b := s.job p j
  if b.stage ≠ .reduce ∧ b.stage ≠ .hold then .bad s KS.badArg
  else .good ((if b.arrived.isSome then s.countJob C.redLate p j else s).voidStep p j 5 0)

/-! The winnowers' commands (R286 to R289). -/

/-- No command is being checked or run. -/
def State.winResting (s : State) : Bool := s.granaries.all fun g => s.winSt g == 0 || s.winSt g == 5 || s.winSt g == 6

/-- Firmware writes the command of the run's head into every granary. -/
def State.postRun (s : State) (w : WinRun) : State :=
  match w.runs with
  | [] => { s with win := some w }
  | (first, n) :: _ =>
    let b := s.job w.part w.job
    let upd := decide (w.kind = .update)
    let c : WinCmd := ⟨!upd, upd && b.cfg.publish, if upd then b.pubSel else 0, w.job, first, n, w.step, if upd then b.clip else 0x3F800000,
      if upd then b.lr else 0, if upd then b.cfg.b1 else 0, if upd then b.cfg.b2 else 0⟩
    let ws := c.words
    let s := s.granaries.foldl (fun (s : State) g =>
      let s := (List.range 8).foldl (fun (s : State) k => s.wr (.winCmd g k) (BitVec.ofNat 64 (ws.getD k 0))) s
      -- a winnower that withheld the last command waits for GO again (DESIGN CHOICE, log 58)
      if s.winSt g = 6 then s.setWinState g 0 else s) s
    { s with win := some { w with posted := true, asked := [] } }

def WinRun.start (p j : Nat) (kind : WinKind) (step : Nat) (runs : List (Nat × Nat)) : WinRun := ⟨p, j, kind, step, runs, false, [], false, 0, 0⟩

/-- The unseals of a job that wait. -/
def State.unsealing (s : State) (p j : Nat) : Bool := s.seals.any fun w => w.undo && (s.tt w.tensor).part == p && (s.tt w.tensor).job == j

/-- The next job or command whose turn on the winnowers has come. -/
def State.postWin (s : State) : State :=
  if s.win.isSome || !s.winResting then s else
  let jobs := (List.range 192).filter fun k => decide ((s.job (k / 16) (k % 16)).stage = .update) && !s.unsealing (k / 16) (k % 16)
  match jobs with
  | k :: _ => s.postRun (.start (k / 16) (k % 16) .update (s.job (k / 16) (k % 16)).t (runsOf (s.updated (k / 16) (k % 16))))
  | [] => match List.find? (fun (o : FwOut) => match o.wait with
      | .normAsk _ _ => true
      | _ => false) s.fw with
    | some o =>
      let s := s.setWait o (.norm o.part o.job)
      s.postRun (.start o.part o.job .layerNorm (s.lastUpdated o.part o.job) [(o.arg 40 12, o.arg 52 12 + 1)])
    | none => s

/-- LAYER_NORM: between steps; the command waits for the winnowers, then for the layer norms. -/
def State.performLayerNorm (s : State) (o : FwOut) : FwRes :=
  s.jobCheck o <|
  let b := s.job o.part o.job
  if b.stat ≠ .stopped ∧ b.stage ≠ .none then .bad s KS.badArg else .wait (.normAsk o.part o.job) s

/-- WIN_GO (R286, R288): ignored while the winnower is not IDLE or DONE; firmware reports KS_BUSY, by a STEP event of the command in force (DESIGN
CHOICE, log 58). -/
def execWinGo (g : Nat) (s : State) : Res :=
  unitOk (decide (g < 24 ∧ s.shape.deadGran.contains g = false)) <|
  if s.winSt g ≠ 0 ∧ s.winSt g ≠ 5 then .next (match s.win with
    | some w => s.stepEvent w.part w.job KS.busy 0 0 0
    | none => s)
  else .next <|
    let s := s.winCheck g
    match s.win with
    | some w => if w.posted then { s with win := some { w with asked := dedup (w.asked ++ [g]) } } else s
    | none => s

/-- Every winnower in service has answered the command in force: PASS, or further on. -/
def State.allAsked (s : State) : Bool := match s.win with
  | some w => s.granaries.all fun g => w.asked.contains g
  | none => true

/-- WIN_RELEASE (R286): management core 0 writes it when every winnower has passed. -/
def execWinRelease (g : Nat) (s : State) : Res :=
  unitOk (decide (g < 24 ∧ s.shape.deadGran.contains g = false)) <|
  need (s.winSt g == 2 && s.allAsked && !s.jobCopies (s.winPart g) (s.winCmd g).job && s.granaries.all fun h => s.winSt h == 2 || s.winSt h == 4 || s.winSt h == 5) s <|
  .next (s.winPass g)

/-! Layer norms (R275, R283). -/

/-- This device's packet of a record: the PARTIALs in granary order. -/
def State.normPacket (s : State) (i t : Nat) : BitVec 128 :=
  (⟨t, false, 0, i, packetSum (s.granaries.map fun g => s.partialOf g i)⟩ : Packet).word

/-- The reductions of the records of a run start; a device with other members sends its packets to ROOT. -/
def State.startNorms (s : State) (w : WinRun) (is : List Nat) (full : Bool) : State :=
  is.foldl (fun (s : State) i =>
    let b := s.job w.part w.job
    let k := s.normPacket i w.step
    let n : NormOut := ⟨i, k, full || !(s.layer i).lazy_, w.kind, w.poisoned⟩
    let s := s.setJob w.part w.job { b with normOut := (b.normOut.filter fun x => x.record != i) ++ [n] }
    if s.isRoot b.cfg then s else s.sendPackets w.part w.job b.cfg [b.cfg.root] (some i) k) s

/-- A seal that the update ends with. -/
def State.askSeal (s : State) (t : Nat) : State :=
  if decide ((s.tt t).cls = 2) && !(s.seals.any fun w => w.tensor == t) then { s with seals := s.seals ++ [⟨t, false, false⟩] } else s

/-- Firmware asks for the seals of the weights, and of the publication tensors written (R289). -/
def State.askSeals (s : State) (w : WinRun) : State :=
  let b := s.job w.part w.job
  let is := if w.kind = .restore then s.layersOf w.part w.job else s.updated w.part w.job
  is.foldl (fun (s : State) i =>
    let r := s.layer i
    let s := s.askSeal r.w
    if r.pub && b.cfg.publish && decide (w.kind ≠ .restore) then s.askSeal (pubOf r b.pubSel) else s) s

/-- Firmware's stop after a poisoned granule, at the next tick (R293, R309). -/
def State.faultStop (s : State) (p j : Nat) : State :=
  let s := s.requestStop p j 3 0
  s.setJob p j { s.job p j with stopDue := decide ((s.job p j).stat = .running) }

/-- The command's last run is over: what follows (R283, R289, R435). -/
def State.afterRuns (s : State) (w : WinRun) : State :=
  let p := w.part; let j := w.job
  let w' : WinRun := { w with runs := [], posted := false, asked := [] }
  match w.kind with
  | .update =>
    let is := s.updated p j
    let lazies := is.filter fun i => (s.layer i).lazy_
    let s := lazies.foldl (fun (s : State) i => s.setTrows (s.layer i) w.step) s
    if w.step % 1024 = 0 ∧ lazies.isEmpty = false then
      (s.startNorms w (is.filter fun i => !(s.layer i).lazy_) false).postRun
        { w' with kind := .lazyNorm, runs := runsOf lazies }
    else ({ s.startNorms w is false with win := some w' } : State).askSeals w'
  | .lazyNorm =>
    ({ s.startNorms w ((s.updated p j).filter fun i => (s.layer i).lazy_) true with win := some w' } : State).askSeals w'
  | .layerNorm =>
    let is := match w.runs with
      | (a, n) :: _ => (List.range n).map fun k => a + k
      | [] => []
    let s := if w.poisoned then s.faultStop p j else s
    { s.startNorms w is true with win := none }
  | .restore => { s.startNorms w (s.layersOf p j) true with win := some w' }

/-- WIN_PASS_DONE (R289): every winnower reports DONE. -/
def execWinPassDone (part job : Nat) (s : State) : Res :=
  unitOk (decide (part < 12 ∧ job < 16)) <|
  match s.win with
  | none => .next s
  | some w =>
    need (w.part == part && w.job == job && w.posted && !s.jobCopies part job && s.allAsked && s.granaries.all fun g => s.winSt g == 5) s <|
    .next <| match w.runs with
      | _ :: r :: rs => s.postRun { w with runs := r :: rs }
      | _ => s.afterRuns w

/-- The update has been sealed, or the restore has (R289, R293, R435). -/
def State.finishRun (s : State) (w : WinRun) : State :=
  let p := w.part; let j := w.job
  let s : State := { s with win := none }
  let b := s.job p j
  match w.kind with
  | .restore =>
    let st := if w.poisoned then KS.fault else w.status
    (s.setJob p j { b with lastT := some w.step, pub := [] }).complete? (.restore p j) fun _ => { FwEnd.of st with result := w.oldest }
  | _ =>
    let st := if w.poisoned then KS.fault else w.status
    let r := packetOf (b.result.getD 0)
    let s := s.setJob p j { b with lastT := some b.t, pub := [], pubSel := if b.cfg.publish then 1 - b.pubSel else b.pubSel }
    let s := (s.stepEvent p j st r.normsq b.clip 0).endStep p j
    if !w.poisoned then s
    else s.faultStop p j

/-- The seals that a run ends with have all taken effect; a restore also waits for its layer norms before it seals. -/
def State.settleRun (s : State) : State :=
  match s.win with
  | none => s
  | some w =>
    if !w.runs.isEmpty || w.posted then s
    else
      let sealing := s.seals.any fun q => !q.undo && (s.tt q.tensor).part == w.part && (s.tt q.tensor).job == w.job
      if sealing then s
      else if w.kind = .restore then
        if (s.job w.part w.job).normOut.any (fun x => decide (x.kind = .restore)) then s
        else if (s.layersOf w.part w.job).any (fun i => (s.tt (s.layer i).w).cls == 2) then s.askSeals w
        else s.finishRun w
      else s.finishRun w

/-- A withheld command (R286): nothing of it is written. -/
def State.withheld (s : State) (w : WinRun) : State :=
  let st := ((s.granaries.map fun g => s.fld (.winStatus g) F.winStatusFailStatus).filter fun x => x != 0).headD KS.stepSkew
  match w.kind with
  | .update =>
    let s : State := { s with win := none }
    (s.stepEvent w.part w.job st (packetOf ((s.job w.part w.job).result.getD 0)).normsq (s.job w.part w.job).clip 0).endStep w.part w.job
  | .layerNorm => ({ s with win := none } : State).complete? (.norm w.part w.job) fun _ => .of st
  | _ =>
    let w' : WinRun := { w with runs := [], posted := false, asked := [], status := st }
    ({ s with win := some w' } : State).askSeals w'

/-- WIN_WITHHOLD (R286): management core 0 writes it to every winnower when one has failed. -/
def execWinWithhold (g : Nat) (s : State) : Res :=
  unitOk (decide (g < 24 ∧ s.shape.deadGran.contains g = false)) <|
  need ((s.winSt g == 2 || s.winSt g == 3) && s.allAsked && s.granaries.any fun h => s.winSt h == 3 || s.winSt h == 6) s <|
  .next <|
    let s := s.setWinState g 6
    match s.win with
    | some w => if w.posted && s.granaries.all fun h => s.winSt h == 6 then s.withheld w else s
    | none => s

/-- The result of a layer norm is used: the entries take it, but those of a record that a running command names (R275, R283, R292). -/
def State.normResult (s : State) (p j : Nat) (n : NormOut) (res : Packet) : State :=
  let b := s.job p j
  let i := n.record
  let own := packetOf n.pkt
  let s := s.setJob p j { b with normOut := b.normOut.filter fun x => x.record != i }
  let void := res.void || res.step != own.step
  let s := if void || s.winHolds i then s else
    s.granaries.foldl (fun (s : State) g =>
      let v := if n.full then res.normsq else (rnd32 (add32 (.of32 (s.wnormsq g i)) (.of32 res.normsq)).1).1
      (s.setState g i 2 0 32 v.toNat).setState g i 1 0 48 own.step) s
  if void then
    let st := if res.void then voidStatus res.reason else KS.stepSkew
    let s := match s.win with
      | some w => if n.kind = WinKind.restore ∧ w.kind = WinKind.restore ∧ w.part = p ∧ w.job = j ∧ w.status = 0 then { s with win := some { w with status := st } } else s
      | none => s
    if n.kind ≠ .layerNorm then s else
    -- the command ends; what is left of its reductions ends no later one
    let b := s.job p j
    let rest := b.normOut.map fun x => if x.kind = .layerNorm then { x with kind := .update } else x
    (s.setJob p j { b with normOut := rest }).complete? (.norm p j) fun _ => .of (if n.poisoned then KS.fault else st)
  else if n.kind = .layerNorm ∧ (s.job p j).normOut.all (fun x => decide (x.kind ≠ .layerNorm)) = true then
    s.complete? (.norm p j) fun _ => .of (if n.poisoned then KS.fault else KS.ok)
  else s

/-- The packets of a record among those that have arrived. -/
def ofRecord (i : Nat) (l : List (Nat × BitVec 128)) : List (Nat × BitVec 128) := l.filter fun x => (packetOf x.2).rows == i

/-- The members' values of a record at ROOT, in rising fabric ID; void where one is missing at the timeout (R275, R265). -/
def State.formNorm (s : State) (n : NormOut) (l : List (Nat × BitVec 128)) (late : Bool) : Packet :=
  let ks := (sortBy (fun (x : Nat × BitVec 128) => x.1) ((s.ownFabric, n.pkt) :: l)).map fun (x : Nat × BitVec 128) => packetOf x.2
  { combine (packetOf n.pkt).step ks late none with rows := n.record }

/-- The result of a layer norm, if it is there: ROOT's once every member's packet has come, or at the timeout; a member's as ROOT sends it. -/
def State.normIn (s : State) (c : StepCfg) (n : NormOut) (rows : List RowRef) (late : Bool) : Option Packet :=
  if s.isRoot c then
    let l := ofRecord n.record (s.memberPackets c rows)
    if l.length = (s.others c).length then some (s.formNorm n l false)
    else if late then some (s.formNorm n l true) else none
  else match s.packetIn rows (c.members.idxOf c.root) with
    | some w => if (packetOf w).rows = n.record then some (packetOf w) else none
    | none => if late then some ⟨(packetOf n.pkt).step, true, 2, n.record, 0⟩ else none

/-- LAYER_NORM_RESULT (R275, R283, R292). ROOT returns the result to the members. -/
def execLayerNormResult (part job record : Nat) (x : NormRows) (s : State) : Res :=
  unitOk (decide (part < 12 ∧ job < 16) && x.rows.all rowExists) <|
  let c := (s.job part job).cfg
  match (s.job part job).normOut.find? fun n => n.record == record with
  | none => .next s
  | some n => match s.normIn c n x.rows x.late with
    | none => .next s
    | some r =>
      let s := s.emptyRows x.rows
      let s := if s.isRoot c then s.sendPackets part job c (s.others c) (some record) r.word else s
      .next (s.normResult part job n r)

/-! The restore of a job (R435). -/

/-- Granule slots of a job. -/
def State.slots (s : State) (p j : Nat) : Nat := (s.layersOf p j).foldl (fun a i => a + (s.layer i).n / 4096) 0

/-- JOB_RESTORE: firmware asks for the unseal of the weights. -/
def State.performRestore (s : State) (o : FwOut) : FwRes :=
  let p := o.part; let j := o.job
  let src := o.body 16 0 8; let addr := o.body 24 0 64
  let n := s.slots p j
  let pages := (List.range ((25 * n + 4095) / 4096 + 1)).map fun k => addr / 512 / 4096 + k
  let pages := pages.filter fun g => decide (g * 4096 < addr / 512 + 25 * n)
  let foreign := pages.any fun g => decide (pgState (s.pageOf p g) ≠ 0 ∧ pgJob (s.pageOf p g) ≠ j)
  if src = 0 ∧ foreign = true then .bad s KS.denied
  else s.jobCheck o <|
  let b := s.job p j
  let ws := (s.layersOf p j).map fun i => (s.layer i).w
  let tithe := match b.titheNext with
    | some t => some t
    | none => b.tithe
  if ws.any fun t => s.seals.any fun w => w.tensor == t && !b.pub.contains t then .bad s KS.busy
  else if b.stat ≠ .stopped ∨ 1 < src ∨ 2 ^ 48 ≤ o.body 32 0 64 ∨ (src = 1 ∧ (tithe.isNone = true ∨ 2 ^ 16 ≤ addr))
    ∨ (src = 0 ∧ (addr % 512 ≠ 0 ∨ 2 ^ 45 ≤ addr ∨ pages.any (fun g => decide (pgState (s.pageOf p g) ≠ 1)) = true)) then .bad s KS.badArg
  else
    let s := s.setJob p j { b with stage := .none, packets := [], device := none, result := none }
    let s := ws.foldl (fun (s : State) t => s.askUnseal p j t) s
    let r : RestoreRun := ⟨p, j, src, addr, o.body 32 0 64, false, addr, tithe.getD ⟨0, 0, 0, 0, []⟩, 0, if src = 1 then 25 * n else 0, [], 0⟩
    .wait (.restore p j) { s with restore := some r }

/-- A row of a restore's source: none where it was not received or cannot be read. -/
def State.restoreRow (s : State) (r : RestoreRun) (row : Nat) : Option Row :=
  if r.source = 1 then SMap.find? r.got row
  else
    let x := s.lpRead (s.ownLoc r.part (r.addr / 512 + row))
    if x.poison then none else some x.data

/-- The 25 rows of a complete slot that belongs to its position. -/
def State.slotRows (s : State) (r : RestoreRun) (slot i k : Nat) : Option (List Row) :=
  let rows := (List.range 25).map fun q => s.restoreRow r (25 * slot + q)
  if rows.any Option.isNone then none else
  let rows := rows.map fun x => x.getD 0
  let h := rows.getD 24 0
  if bitAt h 63 && bits h 64 16 == i && bits h 96 32 == k then some rows else none

/-- One granule is rewritten from its slot, or poisoned; answers the slot's STEP. -/
def State.restoreGranule (s : State) (r : RestoreRun) (slot i k : Nat) (q : Layer) : Option Nat × State :=
  let g := s.granuleOwner q k
  let lw := s.tensorRows q.w (16 * k) 16; let lm := s.tensorRows q.m (8 * k) 8; let ls := s.tensorRows q.ms (k / 512) 1
  let lr := if q.lazy_ then dedup ((q.rowsIn k).flatMap fun row => s.tensorRows q.trow (row / 128) 1) else []
  let all := lw ++ lm ++ ls ++ lr
  if !s.winMay r.part r.job all true then (none, s.winRefused g r.part r.job all true) else
  let s := s.lpMeets (ls ++ lr)
  let s := if r.source = 1 then s else s.lpMeets ((List.range 25).map fun n => s.ownLoc r.part (r.addr / 512 + 25 * slot + n))
  match s.slotRows r slot i k with
  | none =>
    let s := (s.poisonRows lw).poisonRows lm
    let s := s.setState g i 3 32 16 (min (bits (s.rd (.winState g i 3)) 32 16 + 1) 65535)
    (none, s.markPoisoned r.part r.job r.step)
  | some rows =>
    let put := fun (s : State) (x : LpLoc × Row) => s.lpWrite x.1.key x.2 false
    let h := rows.getD 24 0
    let s := (lw.zip (rows.take 16)).foldl put s
    let s := (lm.zip ((rows.drop 16).take 8)).foldl put s
    let s := match ls with
      | l :: _ => s.setRowBits l (8 * (k % 512)) 8 (bits h 128 8)
      | [] => s
    let ts := if q.lazy_ then (q.rowsIn k).take (bits h 144 16) else []
    let s := (List.range ts.length).foldl (fun (s : State) x => match s.tensorRows q.trow (ts.getD x 0 / 128) 1 with
      | l :: _ => s.setRowBits l (32 * (ts.getD x 0 % 128)) 32 (bits h (512 + 32 * x) 32)
      | [] => s) s
    (some (bits h 0 48), s.count C.winGranules g)

/-- Every granule of the job; answers the oldest slot STEP found. -/
def State.restoreAll (s : State) (r : RestoreRun) : Nat × State :=
  let is := s.layersOf r.part r.job
  let s := is.foldl (fun (s : State) i => (List.range 24).foldl (fun (s : State) g => s.setState g i 3 32 16 0) s) s
  let items := is.flatMap fun i => (List.range ((s.layer i).n / 4096)).map fun k => (i, k)
  let (old, s, _) := items.foldl (fun (a : Option Nat × State × Nat) (x : Nat × Nat) =>
    let (t, s) := a.2.1.restoreGranule r a.2.2 x.1 x.2 (s.layer x.1)
    let old := match a.1, t with
      | some m, some t => some (min m t)
      | some m, none => some m
      | none, t => t
    (old, s, a.2.2 + 1)) (none, s, 0)
  (old.getD 0, s)

/-- The granules are copied, LAST_STEP is set, and NORM_ONLY follows. -/
def State.restoreCopy (s : State) (r : RestoreRun) : State :=
  let is := s.layersOf r.part r.job
  let w := WinRun.start r.part r.job .restore r.step (runsOf is)
  let (old, s) := ({ s with restore := none, win := some w } : State).restoreAll r
  let s := is.foldl (fun (s : State) i => (List.range 24).foldl (fun (s : State) g => s.setState g i 0 0 48 r.step) s) s
  let b := s.job r.part r.job
  let s := s.setJob r.part r.job { b with lastT := some r.step, restores := b.restores ++ [r.step] }
  match s.win with
  | some w => s.postRun { w with oldest := old }
  | none => s

/-- A restore goes on at a tick: its reads begin once the weights are unsealed, and its copy once they have all been answered. -/
def State.restoreTick (s : State) : State :=
  match s.restore with
  | none => s
  | some r =>
    if s.unsealing r.part r.job then s
    else
      let s := if r.begun then s else ({ s with restore := some { r with begun := true } } : State).pushRestore 8192
      match s.restore with
      | none => s
      | some r =>
        if r.next < r.total then s.pushRestore 8192
        else if r.out ≠ 0 ∨ s.win.isSome = true ∨ s.winResting = false ∨ s.jobCopies r.part r.job = true then s
        else s.restoreCopy r

end Sys2Proof.Machine
end

