-- ==== Sys2Proof/Machine/Fw.lean ====
section
/-! DEFINITION. Firmware reads a command: the checks of Table 17-3, turns, and its performance (R365 to R375). -/

namespace Sys2Proof.Machine

/-- What bring-up finds when it is not asked: nothing amiss. Only IMAGE_LOAD uses findings (log 7). -/
def BringIn.none : BringIn := ⟨true, [], [], [], [], [], [], [], [], [], [], []⟩

/-- Performing a command (Tables 17-6 and 17-7). -/
def State.perform (s : State) (o : FwOut) (f : BringIn) : FwRes :=
  match o.op with
  | 0x01 => s.performQuery o
  | 0x02 => s.performInventory o
  | 0x03 => s.performReset o
  | 0x04 => s.performEnv o
  | 0x05 => s.performBeat o
  | 0x10 => s.performImage o f
  | 0x11 => s.performSeedpack o
  | 0x12 => s.performCalRead o
  | 0x13 => s.performCalWrite o
  | 0x14 => s.performQuote o
  | 0x20 => s.performCreate o
  | 0x21 => s.performPartReset o true
  | 0x22 => s.performPartReset o false
  | 0x23 => if o.cmd.blk then s.performStart o else s.performResume o
  | 0x24 => s.performStop o
  | 0x25 => s.performKill o
  | 0x27 => s.performJobConfig o
  | 0x30 => s.performTensor o
  | 0x31 => s.performSeal o false
  | 0x32 => s.performSeal o true
  | 0x33 => s.performPageMap o
  | 0x34 => s.performPageIn o
  | 0x35 => s.performPageOut o
  | 0x36 => s.performLayer o
  | 0x37 => s.performRestore o
  | 0x38 => s.performTithe o
  | 0x40 => s.performStepConfig o
  | 0x41 => s.performStepBegin o
  | 0x42 => s.performStepResult o
  | 0x43 => s.performStepVoid o
  | 0x44 => s.performPhase o
  | 0x45 => s.performLayerNorm o
  | 0x50 => s.performSeqConfig o
  | 0x51 => s.performSeqJoin o
  | 0x52 => s.performSeqCancel o
  | 0x60 => s.performLink o
  | 0x61 => s.performHatchOpen o
  | 0x62 => s.performHatchClose o
  | 0x70 => s.performPower o
  | 0x71 => s.performWeight o
  | 0x80 => s.performWindow o
  | 0x81 => s.performCounters o
  | 0x82 => s.performTelemetry
  | _ => .bad s KS.badArg

/-- A command is performed: it ends, or waits for what it started. -/
def State.performNow (s : State) (o : FwOut) (f : BringIn) : State :=
  match s.perform o f with
  | .done e s => s.endCmd o e
  | .wait w s => (s.setWait o w).bringOn
  | .silent s => s

/-- Commands whose turn has come are performed, in read order (R374). -/
def State.turns (s : State) : State := go s.fw.length s
where
  go : Nat → State → State
    | 0, s => s
    | n + 1, s => match List.find? (fun (o : FwOut) => decide (o.wait = FwWait.turn) && s.hasTurn o) s.fw with
      | some o => go n (s.performNow o BringIn.none)
      | none => s

/-- The status of the first failing check of orders 1 and 3 to 5 of Table 17-3, and of R374; 0 when they pass. -/
def State.readStatus (s : State) (o : FwOut) : Nat :=
  if !o.formOk || !s.resultOk o then KS.badArg
  else if !stageServes s.bootStage o.op || (o.op == 0x10 && s.bring.isSome) then KS.notReady
  else if !s.hasRight o then KS.denied
  else if (match s.namedPart o with
      | some p => decide (p < 12) && s.resetting p
      | none => false) then KS.targetResetting
  else if o.cmd.mbox ≠ 31 ∧ noTurn o.op = false ∧ s.hasTurn o = false ∧ 32 ≤ s.queueLen o then KS.busy
  else KS.ok

/-- A command as firmware reads it (R368, R374, R375). One with an outstanding CID is refused by the word alone; one from mailbox 31
goes ahead of those that wait. -/
def State.fwRun (s : State) (c : FwCmd) (f : BringIn) : State :=
  let s := s.fwTake c
  let o := s.readCmd c
  let twin := s.fw.any fun x => decide (x.cmd.cid % 1024 = c.cid % 1024)
  if (o.formOk && s.resultOk o) && twin then s.completeWord c (.of KS.busy)
  else
    let st := s.readStatus o
    if st ≠ 0 then s.complete c (.of st)
    else
      let now := c.mbox == 31 || noTurn o.op || s.hasTurn o
      let s := { s with fw := s.fw ++ [o] }
      if now then (s.performNow o f).turns else s

def fwOk (c : FwCmd) : Bool := decide (c.mbox < 32 ∧ 1 ≤ c.sender ∧ c.sender < 256)

/-- Firmware does not read a mailbox whose completion queue is full, and reads the mailboxes in their order (R365, R371). The words of reserved OP codes are read by any row. -/
def State.fwReads (s : State) (op : Nat) (c : FwCmd) : Bool :=
  decide (2 ≤ s.bootStage) && (c.op == op || !fwOps.contains c.op)
    && (c.mbox == 31 || decide ((SMap.get (fun _ => []) s.cplq (32 + c.mbox)).length < 64)) && s.fwHolds c

def fwExec (op : Nat) (c : FwCmd) (s : State) : Res :=
  unitOk (fwOk c) <| need (s.fwReads op c) s <| .next (s.fwRun c BringIn.none)

/-- IMAGE_LOAD (R385), with what bring-up will find of the device's own parts. -/
def execImageLoad (c : FwCmd) (found : BringIn) (s : State) : Res :=
  unitOk (fwOk c) <| need (s.fwReads 0x10 c) s <| .next (s.fwRun c found)

/-- DEVICE_RESET (R372). -/
def execDeviceReset (c : FwCmd) (s : State) : Res := fwExec 0x03 c s

/-- PARTITION_CREATE (R308). -/
def execPartitionCreate (c : FwCmd) (s : State) : Res := fwExec 0x20 c s

/-- PARTITION_DESTROY (R318). -/
def execPartitionDestroy (c : FwCmd) (s : State) : Res := fwExec 0x21 c s

/-- PARTITION_RESET (R318). -/
def execPartitionReset (c : FwCmd) (s : State) : Res := fwExec 0x22 c s

/-- JOB_START (R310). -/
def execJobStart (c : FwCmd) (s : State) : Res := fwExec 0x23 c s

/-- JOB_STOP (R316). -/
def execJobStop (c : FwCmd) (s : State) : Res := fwExec 0x24 c s

/-- JOB_KILL (R319). -/
def execJobKill (c : FwCmd) (s : State) : Res := fwExec 0x25 c s

/-- TENSOR_SEAL (R223). -/
def execTensorSeal (c : FwCmd) (s : State) : Res := fwExec 0x31 c s

/-- TENSOR_UNSEAL (R223). -/
def execTensorUnseal (c : FwCmd) (s : State) : Res := fwExec 0x32 c s

/-- STEP_VOID (R267). -/
def execStepVoid (c : FwCmd) (s : State) : Res := fwExec 0x43 c s

/-- PHASE_SET (R268). -/
def execPhaseSet (c : FwCmd) (s : State) : Res := fwExec 0x44 c s

/-- LAYER_NORM (R287). -/
def execLayerNorm (c : FwCmd) (s : State) : Res := fwExec 0x45 c s

/-- SEQ_CANCEL (R299). -/
def execSeqCancel (c : FwCmd) (s : State) : Res := fwExec 0x52 c s

/-- HATCH_CLOSE (R344). -/
def execHatchClose (c : FwCmd) (s : State) : Res := fwExec 0x62 c s

/-- POWER_LIMIT (R323). -/
def execPowerLimit (c : FwCmd) (s : State) : Res := fwExec 0x70 c s

/-- POWER_WEIGHT (R321). -/
def execPowerWeight (c : FwCmd) (s : State) : Res := fwExec 0x71 c s

/-- TELEMETRY (R443). -/
def execTelemetry (c : FwCmd) (s : State) : Res := fwExec 0x82 c s

/-- DEVICE_QUERY (R377). -/
def execDeviceQuery (c : FwCmd) (s : State) : Res := fwExec 0x01 c s

/-- INVENTORY (R378). -/
def execInventory (c : FwCmd) (s : State) : Res := fwExec 0x02 c s

/-- ENV_SET (R450). -/
def execEnvSet (c : FwCmd) (s : State) : Res := fwExec 0x04 c s

/-- BEAT_CONFIG (R39). -/
def execBeatConfig (c : FwCmd) (s : State) : Res := fwExec 0x05 c s

/-- SEEDPACK_LOAD (R425). -/
def execSeedpackLoad (c : FwCmd) (s : State) : Res := fwExec 0x11 c s

/-- CAL_READ (R409). -/
def execCalRead (c : FwCmd) (s : State) : Res := fwExec 0x12 c s

/-- CAL_WRITE (R409). -/
def execCalWrite (c : FwCmd) (s : State) : Res := fwExec 0x13 c s

/-- ATTEST_QUOTE (R390). -/
def execAttestQuote (c : FwCmd) (s : State) : Res := fwExec 0x14 c s

/-- JOB_CONFIG (R257). -/
def execJobConfig (c : FwCmd) (s : State) : Res := fwExec 0x27 c s

/-- TENSOR_REGISTER (R219). -/
def execTensorRegister (c : FwCmd) (s : State) : Res := fwExec 0x30 c s

/-- PAGE_MAP (R212). -/
def execPageMap (c : FwCmd) (s : State) : Res := fwExec 0x33 c s

/-- PAGE_IN (R214). -/
def execPageIn (c : FwCmd) (s : State) : Res := fwExec 0x34 c s

/-- PAGE_OUT (R214). -/
def execPageOut (c : FwCmd) (s : State) : Res := fwExec 0x35 c s

/-- LAYER_REGISTER (R291). -/
def execLayerRegister (c : FwCmd) (s : State) : Res := fwExec 0x36 c s

/-- JOB_RESTORE (R435). -/
def execJobRestore (c : FwCmd) (s : State) : Res := fwExec 0x37 c s

/-- TITHE_CONFIG (R431). -/
def execTitheConfig (c : FwCmd) (s : State) : Res := fwExec 0x38 c s

/-- STEP_CONFIG (R263). -/
def execStepConfig (c : FwCmd) (s : State) : Res := fwExec 0x40 c s

/-- STEP_BEGIN (R262). -/
def execStepBegin (c : FwCmd) (s : State) : Res := fwExec 0x41 c s

/-- STEP_RESULT (R265). -/
def execStepResult (c : FwCmd) (s : State) : Res := fwExec 0x42 c s

/-- SEQ_CONFIG (R304). -/
def execSeqConfig (c : FwCmd) (s : State) : Res := fwExec 0x50 c s

/-- SEQ_JOIN (R294). -/
def execSeqJoin (c : FwCmd) (s : State) : Res := fwExec 0x51 c s

/-- LINK_CONFIG (R345). -/
def execLinkConfig (c : FwCmd) (s : State) : Res := fwExec 0x60 c s

/-- HATCH_OPEN (R337). -/
def execHatchOpen (c : FwCmd) (s : State) : Res := fwExec 0x61 c s

/-- TEST_WINDOW (R420). -/
def execTestWindow (c : FwCmd) (s : State) : Res := fwExec 0x80 c s

/-- COUNTERS_READ (R442). -/
def execCountersRead (c : FwCmd) (s : State) : Res := fwExec 0x81 c s

end Sys2Proof.Machine
end

