-- ==== Sys2Proof/Machine/JobRows.lean ====
section
/-! DEFINITION. What ends by itself after a command: kills, partition resets, hatch closes, unseals, phase changes, generation step
boundaries (R203, R268, R299, R318, R319, R344, R223). -/

namespace Sys2Proof.Machine

/-- KILL_DRAIN_DONE: step 2 of the kill scrub has ended; the storage is scrubbed (R203, R249, R319). -/
def execKillDrainDone (part job : Nat) (s : State) : Res :=
  unitOk (decide (part < 12 ∧ job < 16)) <|
  need (s.killDrained part job) s <| .next (s.killScrub part job)

/-- KILL_SCRUB_COMPLETE: the views of the job's tensors have gone at a tick; the pages are zero, and at the next tick the job's entries go and the
job is FREE (R203, R309, R319). -/
def execKillScrubComplete (part job : Nat) (s : State) : Res :=
  unitOk (decide (part < 12 ∧ job < 16)) <|
  need (decide ((s.job part job).stat = .killing) && (s.job part job).viewless && !(s.job part job).scrubbed) s <|
  .next (s.killPages part job)

/-- Nothing that a channel of the partition has issued can still land (R318, step 2). -/
def State.partQuiet (s : State) (p : Nat) : Bool :=
  (s.clustersOf p).all fun cl => (List.range 32).all fun ch => !s.chanBusy cl ch

/-- Step 5: the control cores of the partition are restarted, and each checks its portion of the image; a die or a cluster whose portions never pass
is fenced as at bring-up (R318, R397). -/
def State.restartCores (s : State) (p : Nat) (damaged : List (Nat × Nat × List Byte)) : State :=
  let f := { BringIn.none with damaged := damaged }
  let dies := (s.diesOf p).filter fun d => !s.dieHole d && !s.portionOk f (agentDie d)
  let cls := (s.clustersOf p).filter fun cl => !s.clusterHole cl && !s.portionOk f (agentCluster cl)
  if dies.isEmpty && cls.isEmpty then s else (s.fence dies cls).newShape.writeRoutes

/-- PARTITION_RESET_DONE: every job is FREE; the units take their reset values and the control cores are restarted; STATE becomes READY at the
next tick (R318). -/
def execPartitionResetDone (x : PartReset) (s : State) : Res :=
  unitOk (decide (x.part < 12)) <|
  need (s.resetting x.part && !(s.part x.part).resetOver && ((List.range 16).all fun j => decide ((s.job x.part j).stat = .free))
    && s.partQuiet x.part) s <|
  .next ((s.resetUnits x.part).restartCores x.part x.damaged)

/-- HATCH_CLOSED_DONE: every request that passed its check has landed (R344). -/
def execHatchClosedDone (hatch : Nat) (s : State) : Res :=
  unitOk (decide (hatch < 1024)) <|
  need (decide ((s.hatch hatch).state = 2) && !s.hatchBusy hatch) s <|
  .next ((s.hatchSet hatch 0 2 0).complete? (.hatch hatch) fun _ => .good).turns

/-- UNSEAL_PINS_CLEAR: an unseal that a tick found pinned takes effect (R223). -/
def execUnsealPinsClear (tensor : Nat) (s : State) : Res :=
  unitOk (decide (tensor < 32768)) <|
  need (s.pinsClear tensor && s.seals.any fun w => w.tensor == tensor && w.undo && w.waited) s <|
  .next (s.sealNow ⟨tensor, true, true⟩).turns

/-- PHASE_CHANGE (R268). -/
def execPhaseChange (part : Nat) (s : State) : Res :=
  unitOk (decide (part < 12)) <|
  match (s.part part).request with
  | none => .next s
  | some (ph, glean) => need (s.phaseReady part) s <| .next (s.phaseChange part ph glean).turns

/-- GEN_STEP_BOUNDARY (R299). No step is composed while a phase change waits, or while the host is lost, when the job then stops at the
next tick (R268, R309, R430). A step that was composed leaves its report (R222). -/
def State.genBoundary (s : State) (p : Nat) : State :=
  let j := (s.seqCfg p).job
  let m := s.seqMgr p
  let compose := (s.part p).request.isNone && !s.hostLost
  let s := s.seqBoundary p compose
  let s := if !m.open_ then s else
    let s := s.takeReport p j (m.step - 1)
    s.setSeq p { s.seqMgr p with fb := 0 }
  if s.hostLost then s.setJob p j { s.job p j with stopDue := true } else s

def execGenStepBoundary (part : Nat) (s : State) : Res :=
  unitOk (decide (part < 12)) <|
  need (s.shareEn part && decide ((s.part part).phase = 1) && s.seqEnded part
    && decide ((s.job part (s.seqCfg part).job).stat = .running)) s <|
  .next (s.genBoundary part).turns

end Sys2Proof.Machine
end

