-- ==== Sys2Proof/Machine/Retry.lean ====
section
/-! DEFINITION. Operations that waited go on: on a row (R189), on an epoch clear (R227), on the copy of a retired row (R418). -/

namespace Sys2Proof.Machine

/-- ROW_STATE_RETRY (R189 to R191): an access of the row, with what its codes find (log 8), and the retry of what waits on it. -/
def execRowStateRetry (r : RowRef) (err : RowErr) (s : State) : Res :=
  unitOk (rowExists r) <| .next ((s.rowError r err).retryRow r)

/-- A kick that has issued and waits for room in the queue of its channel goes on (R165, R233). -/
def State.wakeKicks (s : State) (cl ch : Nat) : State :=
  let ids := (s.tasks.filter fun (t : Task) => t.cl == cl && match t.flight with
    | some q => cwOp q.word == 0x50 && bits q.word 32 5 == ch
    | none => false).map Task.id
  ids.foldl (fun (s : State) id => s.resumeFlight id) s

/-- DMA_DESC_START (R236, R239, R242): the channel is IDLE or ACTIVE, the reads of the descriptor before have all issued, no FENCE holds it
back and fewer than five records are held. -/
def execDmaDescStart (cl ch : Nat) (s : State) : Res :=
  unitOk (decide (cl < 288 ∧ ch < 32)) <|
  let k := s.chan cl ch
  match k.next? with
  | none => .next s
  | some (d, k') =>
    need (k.cur.isNone && decide (s.chState cl ch < 2) && decide (k.held.length ≤ 4) && k.fenceOk d) s <|
    .next ((s.startDesc cl ch d k').wakeKicks cl ch)

/-- EPOCH_CLEAR_DONE (R227): the waiting accumulate-writes proceed. -/
def execEpochClearDone (part job : Nat) (s : State) : Res :=
  unitOk (decide (part < 12 ∧ job < 16)) <|
  need (s.job part job).clearing s <|
  let s := (s.setJob part job { s.job part job with clearing := false }).syncEpoch
  .next s.granariesGo

/-- ROW_RETIRE_COPY_DONE (R418): later accesses go to the spare; those that waited proceed. -/
def execRowRetireCopyDone (dev ch row : Nat) (s : State) : Res :=
  unitOk (decide (dev < 192 ∧ ch < 8)) <|
  need (s.copying.contains (dev, ch, row)) s <|
  let s := { s with copying := s.copying.filter fun x => !decide (x = (dev, ch, row)), retiredRows := s.retiredRows ++ [(dev, ch, row)] }
  .next s.granariesGo

end Sys2Proof.Machine
end

