-- ==== Sys2Proof/Machine/HostIf.lean ====
section
/-! DEFINITION. The host's side: UCIe modules, host transactions, the sideband, mailboxes and locks, host loss (chapter 16, R430). -/

namespace Sys2Proof.Machine

/-! Modules (R349, R354). -/

def State.anyUp (s : State) : Bool := s.mods.any Mod.up

/-- Every state change is posted (Table 17-8). -/
def State.setMod (s : State) (m : Nat) (x : Mod) : State :=
  if s.modOf m = x then s else ({ s with mods := s.mods.set m x }).post 6 0 0 0 [(8, 1, m), (9, 1, modCode x)]

/-- The tags that a module carries: its half when both are up, else every tag. -/
def State.tagsOf (s : State) (m : Nat) : List Nat :=
  let both := (s.modOf 0).up && (s.modOf 1).up
  (List.range 256).filter fun t => t != 0 && (!both || t % 2 == m)

/-- A module leaves X64 or X32: its transactions not yet performed are dropped, the next mailbox or lock write of its tags will be
refused, their locks are released. With no module left the host is in reset, and writes that wait for it end (R354, R361, R362). -/
def State.loseModule (s : State) (m : Nat) (next : Mod) : State :=
  if !(s.modOf m).up then s.setMod m next else
  let tags := s.tagsOf m
  let mine := fun (w : MbxWait) => isHost w.sender && tags.contains w.sender
  let s := (s.mbxWaits.filter mine).foldl (fun (s : State) w => s.setBitOf (.mbxWait w.blk) w.n false) s
  let s : State := { s with mbxWaits := s.mbxWaits.filter fun w => !mine w, lostTags := dedup (s.lostTags ++ tags) }
  let s := s.dropLocks fun a => tags.contains a
  let s : State := { s with mods := s.mods.set m next }
  let s := if s.anyUp then s else
    (s.mbxWaits.filter fun w => decide (w.blk = MbxBlk.mgmt ∧ 32 ≤ w.n)).foldl (fun (s : State) w =>
      let s := (s.takeWait .mgmt w.n).2
      let s := (s.mbxTimeout .mgmt w.n w.sender 2).answer w.host w.sender 2 2
      (if w.n < 63 then s.count C.fwCplDropped 0 else s).pump w.n 64) s
  s.post 6 0 0 0 [(8, 1, m), (9, 1, modCode next)]

/-- The sideband is up from step 3 of bring-up (R351). -/
def State.sidebandUp (s : State) : Bool := decide (3 ≤ s.bootStage)

/-- MODULE_TRAIN_REQUEST (Table 16-1): from any state. -/
def execModuleTrainRequest (mdl : Nat) (s : State) : Res :=
  unitOk (decide (mdl < 2)) <| need s.sidebandUp s <| .next (s.loseModule mdl .training)

/-- MODULE_TRAINED (Table 16-1); repaired lanes are counted. A module that comes up ends the loss of the host (R430). -/
def execModuleTrained (mdl : Nat) (lanes : Lanes) (repaired : Nat) (s : State) : Res :=
  unitOk (decide (mdl < 2)) <|
  need (decide (s.modOf mdl = .training)) s <|
  .next <|
    let s := s.count C.hostLaneRepair 0 repaired
    match lanes with
    | .all => ({ s with hostLost := false } : State).setMod mdl .x64
    | .half upper => ({ s with hostLost := false } : State).setMod mdl (.x32 upper)
    | .neither => s.setMod mdl .down

/-- MODULE_TRAIN_TIMEOUT (Table 16-1). -/
def execModuleTrainTimeout (mdl : Nat) (s : State) : Res :=
  unitOk (decide (mdl < 2)) <|
  need (decide (s.modOf mdl = .training)) s <| .next (s.setMod mdl .down)

/-- MODULE_LINK_LOSS (Table 16-1, R354). -/
def execModuleLinkLoss (mdl : Nat) (s : State) : Res :=
  unitOk (decide (mdl < 2)) <| need (s.modOf mdl).up s <| .next (s.loseModule mdl .training)

/-- HOST_LOSS (R430): from here jobs park at their step ends. -/
def execHostLoss (s : State) : Res := need (!s.anyUp && !s.hostLost) s <| .next { s with hostLost := true }

/-! Reads and writes of a block (R359 to R362). -/

/-- A read of a lock (R362). -/
def State.lockRead (s : State) (b : MbxBlk) (k agent : Nat) : Nat × State :=
  let r := Reg.mbxLock b k
  let own := s.fld r F.mbxLockOwner
  if own = 0 then (0, s.wr r (BitVec.ofNat 64 agent)) else if own = agent then (0, s) else (own, s)

/-- A write of a lock (R362): FORCE by a management core, or 0 by the owner; any other is ignored. -/
def State.lockWrite (s : State) (b : MbxBlk) (k agent : Nat) (v : Word) : State :=
  let r := Reg.mbxLock b k
  let own := s.fld r F.mbxLockOwner
  let force := bitAt v 31
  if bits v 0 16 = 0 ∧ ((force = true ∧ isMgmt agent = true) ∨ (force = false ∧ own = agent)) then s.wr r 0 else s

/-! Host transactions (R352 to R355). -/

def hType (h : BitVec 128) : Nat := bits h 0 4
def hTag (h : BitVec 128) : Nat := bits h 4 8
def hSize (h : BitVec 128) : Nat := bits h 20 3
def hAddr (h : BitVec 128) : Nat := bits h 32 21
def hLen (h : BitVec 128) : Nat := [8, 64, 256].getD (hSize h) 0

/-- The register that an aperture address names (Table 16-4). -/
def hReg (a : Nat) : Option Reg := if 0x100000 ≤ a ∧ a < 0x100600 then mbxRegAt .mgmt (a - 0x100000 + 0x5000) else none

def hReserved (a : Nat) : Bool := decide ((0x20 ≤ a ∧ a < 0x1000) ∨ 0x100000 ≤ a) && (hReg a).isNone

/-- Whether the host may write an address (Table 16-4, R363). -/
def hMayWrite (a len : Nat) : Bool :=
  if a < 0x1000 then a == 0x10 && len == 8
  else if a < 0x40000 then true
  else if a < 0x60000 then false
  else match hReg a with
    | some (.mbxData _ n) => decide (n < 32)
    | some (.mbxInten _) => true
    | some (.mbxLock _ _) => true
    | some _ => false
    | none => true

/-- A mailbox or a lock. -/
def hBox (a : Nat) : Bool := match hReg a with
  | some (.mbxData _ _) => true
  | some (.mbxLock _ _) => true
  | _ => false

/-- The REASON of Table 16-6 for which a transaction is refused, in the order of R353; 0 for none. -/
def State.hostRefusal (s : State) (h : BitVec 128) (write : Bool) : Nat :=
  let a := hAddr h
  if hTag h = 0 then 3
  else if hReserved a || (hLen h != 0 && a % hLen h != 0) then 1
  else if hLen h = 0 ∨ (0x100000 ≤ a ∧ hSize h ≠ 0) then 5
  else if write && !hMayWrite a (hLen h) then 2
  else if write && hBox a && s.lostTags.contains (hTag h) then 4
  else 0

def State.respondHost (s : State) (h : BitVec 128) (status reason : Nat) (d : BitVec 2048) : State :=
  s.emit (.response (answerHdr h status reason) d)

/-- A refused transaction performs nothing; a module's loss is told once to each of its tags (R354). -/
def State.refuseHost (s : State) (h : BitVec 128) (reason : Nat) : State :=
  let s : State := if reason = 4 then { s with lostTags := s.lostTags.filter fun t => t != hTag h } else s
  s.respondHost h 1 reason 0

/-- A READ (R352, R353, R355). -/
def State.hostRead (s : State) (h : BitVec 128) : State :=
  let a := hAddr h
  let reason := s.hostRefusal h false
  if reason ≠ 0 then s.refuseHost h reason
  else match hReg a with
    | some (.mbxData b n) => let (v, s) := s.mbxRead b n (hTag h); s.respondHost h 0 0 (v.zeroExtend 2048)
    | some (.mbxLock b k) => let (v, s) := s.lockRead b k (hTag h); s.respondHost h 0 0 (BitVec.ofNat 2048 v)
    | some r => s.respondHost h 0 0 ((s.regRead r).zeroExtend 2048)
    | none =>
      let bytes := (List.range (hLen h)).map fun i => if a < 0x1000 then s.headerByte (a + i) else s.winByte (a + i)
      s.respondHost h 0 0 (BitVec.ofNat 2048 (packNat 8 (bytes.map BitVec.toNat)))

/-- A WRITE (R352 to R355, R359, R362, R363). -/
def State.hostWrite (s : State) (h : BitVec 128) (d : BitVec 2048) : State :=
  let a := hAddr h
  let w : Word := d.extractLsb' 0 64
  let reason := s.hostRefusal h true
  if reason ≠ 0 then s.refuseHost h reason
  else match hReg a with
    | some (.mbxData b n) => (s.mbxWrite b n (hTag h) w (some h)).1
    | some (.mbxLock b k) => (s.lockWrite b k (hTag h) w).respondHost h 0 0 0
    | some r => match s.mbxRegValue (hTag h) r w with
      | some v => (s.wr r v).respondHost h 0 0 0
      | none => s.refuseHost h 2
    | none => if a = 0x10 then { s with evTail := w } else s.winWrite a (hLen h) (bits d 0 (8 * hLen h))

/-- The module that carries a tag (R349). -/
def State.carries (s : State) (m tag : Nat) : Bool :=
  (s.modOf m).up && (!((s.modOf 0).up && (s.modOf 1).up) || tag % 2 == m)

/-- HOST_READ. -/
def execHostRead (mdl : Nat) (hdr : BitVec 128) (s : State) : Res :=
  unitOk (decide (mdl < 2)) <|
  need (s.carries mdl (hTag hdr) && hType hdr == 1) s <| .next (s.hostRead hdr)

/-- HOST_WRITE. -/
def execHostWrite (mdl : Nat) (hdr : BitVec 128) (data : BitVec 2048) (s : State) : Res :=
  unitOk (decide (mdl < 2)) <|
  need (s.carries mdl (hTag hdr) && hType hdr == 2) s <| .next (s.hostWrite hdr data)

/-- What the sideband gives the host (R351). -/
def sidebandMay (h : BitVec 128) : Bool :=
  let a := hAddr h
  match hType h with
  | 1 => decide (a < 0x1000) || (hReg a).isSome
  | 2 => (match hReg a with
    | some (.mbxData _ n) => decide (n < 32)
    | some (.mbxLock _ _) => true
    | _ => false)
  | _ => false

/-- SIDEBAND_ACCESS (R351). -/
def execSidebandAccess (mdl : Nat) (hdr : BitVec 128) (data : BitVec 64) (s : State) : Res :=
  unitOk (decide (mdl < 2)) <|
  need s.sidebandUp s <|
  .next <|
    if !sidebandMay hdr then s.refuseHost hdr 2
    else if hType hdr = 1 then s.hostRead hdr else s.hostWrite hdr (data.zeroExtend 2048)

/-! Mailboxes and locks, as their blocks see them (R359 to R363). -/

def mbxOk : MbxBlk → Bool
  | .mgmt => true
  | .die d => decide (d < 36)
  | .granary g => decide (g < 24)
  | .gate g => decide (g < 4)
  | .cluster cl => decide (cl < 288)

/-- A core's test controller writes its cluster's block during a field test (R358). -/
def State.testing (s : State) (a : Nat) : Bool := match s.window_ with
  | some w => w.started.isSome && decide (0x1000 ≤ a ∧ a < 0x1900) && bitAt w.mask ((a - 0x1000) / 64)
  | none => false

/-- The block can be reached by an agent of one of its sides. -/
def State.mbxReach (s : State) (b : MbxBlk) (agent : Nat) : Bool :=
  if controlAgent agent then (s.reach agent (Reg.addr (.mbxStatus b))).isSome
  else isHost agent || s.testing agent

/-- An access that breaks the rights (R363). -/
def State.mbxRefuse (s : State) (b : MbxBlk) (agent addr : Nat) : State := match b with
  | .mgmt => if isHost agent then s.emit (.access agent 1 2 0) else s.busError agent addr
  | _ => s.busError agent addr

/-- The block of a die or cluster of a partition in reset answers a control core TARGET_RESETTING (R22); a write of a mailbox ends by R361
instead (log 79). -/
def State.mbxResets (s : State) (b : MbxBlk) (agent : Nat) : Bool := controlAgent agent && s.inReset (Reg.addr (.mbxStatus b))

/-- A host agent's first mailbox or lock write after the loss of its tag's module is refused (R354). -/
def State.tagLost (s : State) (agent : Nat) : Bool := isHost agent && s.lostTags.contains agent

def State.refuseTag (s : State) (agent : Nat) : State :=
  ({ s with lostTags := s.lostTags.filter fun t => t != agent } : State).emit (.access agent 1 4 0)

/-- MAILBOX_WRITE (R359). -/
def execMailboxWrite (b : MbxBlk) (n sender : Nat) (data : BitVec 64) (s : State) : Res :=
  unitOk (mbxOk b && decide (n < 64 ∧ 1 ≤ sender)) <|
  .next <|
    if !s.mbxReach b sender || !mbxSends b n sender then s.mbxRefuse b sender (Reg.addr (.mbxData b n))
    else if s.tagLost sender then s.refuseTag sender
    else (s.mbxWrite b n sender data none).1

/-- MAILBOX_READ (R360). Firmware leaves an inbound mailbox alone while its completion queue is full (R371). -/
def execMailboxRead (b : MbxBlk) (n reader : Nat) (s : State) : Res :=
  unitOk (mbxOk b && decide (n < 64 ∧ 1 ≤ reader)) <|
  need (!(decide (b = .mgmt ∧ n < 31) && isMgmt reader && decide (64 ≤ (SMap.get (fun _ => []) s.cplq (32 + n)).length))) s <|
  .next <|
    if !s.mbxReach b reader || !(mbxSends b n reader || mbxReceives b n reader) then s.mbxRefuse b reader (Reg.addr (.mbxData b n))
    else if s.mbxResets b reader then s.resetAnswer reader
    else
      let (v, s) := s.mbxRead b n reader
      s.emit (.access reader 0 0 v)

/-- MAILBOX_WAIT_TIMEOUT (R359): RECEIVER_SLOW. Firmware drops a completion word that ends so (R371). -/
def execMailboxWaitTimeout (b : MbxBlk) (n : Nat) (s : State) : Res :=
  unitOk (mbxOk b && decide (n < 64)) <|
  match s.takeWait b n with
  | (none, _) => .next s
  | (some w, s) =>
    .next <|
      let s := (s.mbxTimeout b n w.sender 1).answer w.host w.sender 2 1
      match b with
      | .mgmt => if 32 ≤ n ∧ n < 63 then (s.count C.fwCplDropped 0).pump n 64 else s
      | _ => s

/-- LOCK_READ (R362). -/
def execLockRead (b : MbxBlk) (k agent : Nat) (s : State) : Res :=
  unitOk (mbxOk b && decide (k < 16 ∧ 1 ≤ agent)) <|
  .next <|
    if !s.mbxReach b agent || !(mbxInner b agent || mbxOuter b agent) then s.mbxRefuse b agent (Reg.addr (.mbxLock b k))
    else if s.mbxResets b agent then s.resetAnswer agent
    else
      let (v, s) := s.lockRead b k agent
      s.emit (.access agent 0 0 (BitVec.ofNat 64 v))

/-- LOCK_RELEASE (R362): a write of 0. -/
def execLockRelease (b : MbxBlk) (k agent : Nat) (s : State) : Res :=
  unitOk (mbxOk b && decide (k < 16 ∧ 1 ≤ agent)) <|
  .next <|
    if !s.mbxReach b agent || !(mbxInner b agent || mbxOuter b agent) then s.mbxRefuse b agent (Reg.addr (.mbxLock b k))
    else if s.mbxResets b agent then s.resetAnswer agent
    else if s.tagLost agent then s.refuseTag agent
    else (s.lockWrite b k agent 0).emit (.access agent 0 0 0)

/-- LOCK_FORCE (R362): a write of 0 with FORCE; ignored from any agent but a management core, which may release any lock. -/
def execLockForce (b : MbxBlk) (k agent : Nat) (s : State) : Res :=
  unitOk (mbxOk b && decide (k < 16 ∧ 1 ≤ agent)) <|
  .next <|
    if !s.mbxReach b agent || !(mbxInner b agent || mbxOuter b agent || isMgmt agent) then s.mbxRefuse b agent (Reg.addr (.mbxLock b k))
    else if s.mbxResets b agent then s.resetAnswer agent
    else if s.tagLost agent then s.refuseTag agent
    else (s.lockWrite b k agent 0x80000000).emit (.access agent 0 0 0)

end Sys2Proof.Machine
end

