-- ==== Sys2Proof/Machine/Elec.lean ====
section
/-! DEFINITION. Power, thermal trip, the test access port, the analogue buses (chapter 22, R395). -/

namespace Sys2Proof.Machine

/-- The number of a power-good pin in a FAULT event (Table 17-12). -/
def pinNo : PgPin → Nat
  | .cmp => 0
  | .loft => 1
  | .edge => 2
  | .phy => 3
  | .lp => 4

/-- MGT_RESET_RELEASE (R446): step 1; the boot ROM runs to where it waits for an image. -/
def execMgtResetRelease (s : State) : Res := need (s.bootStage == 0) s <| .next (s.enterStage 1).romStart

/-- MAIN_POWER_GOOD (R446). -/
def execMainPowerGood (pin : PgPin) (s : State) : Res :=
  need s.board.pwrEn s <|
  .next (State.bringOn { s with board := { s.board with good := dedup (s.board.good ++ [pin]) } })

/-- MAIN_RAIL_TIMEOUT (R395): a rail not good within 1 s; fatal at step 6. -/
def execMainRailTimeout (s : State) : Res :=
  match s.bring with
  | none => .next s
  | some (c, _) => need (s.bootStage == 6 && !s.railsGood) s <| .next (s.fatal c 6)

/-- The control cores of the main domain enter reset (R361). -/
def State.coresDown (s : State) : State :=
  let bs := (List.range 36).map MbxBlk.die ++ (List.range 288).map MbxBlk.cluster ++ (List.range 24).map MbxBlk.granary
    ++ (List.range 4).map MbxBlk.gate
  let busy := fun (b : MbxBlk) => s.rd (.mbxStatus b) != 0 || s.rd (.mbxWait b) != 0
  { (bs.filter busy).foldl (fun (s : State) b => s.mbxReset b 0) s with coresUp := false }

/-- PWR_EN_MAIN is deasserted: the main domain loses its rows and all that ran there, its clocks and its ticks (R447, R448). A bring-up that
runs fails. -/
def State.powerLost (s : State) : State :=
  let s := if s.board.pwrEn then s.emit (.pwrEn false) else s
  let s := match s.bring with
    | some (c, _) => s.fatal c s.bootStage
    | none => s
  { (s.coresDown.enterStage 0xFF).setFld .beatCtrl F.beatCtrlRun 0 with
      rows := [], lpddr := [], tasks := [], groups := [], engs := [], waits := [],
      board := { s.board with pwrEn := false, good := [] } }

/-- POWER_GOOD_LOSS (R448): with PWR_EN_MAIN asserted, or at once with the thermal trip that deasserts it; both are reported (Table 22-8). -/
def execPowerGoodLoss (pin : PgPin) (s : State) : Res :=
  need ((s.board.pwrEn && s.board.good.contains pin) || s.board.goodAtTrip.contains pin) s <|
  .next <|
    let s := (s.fault agentMgmt 0x11 (pinNo pin) 0 0).powerLost
    { s with board := { s.board with goodAtTrip := s.board.goodAtTrip.filter fun q => !decide (q = pin) } }

/-- The sensors of a site (R449, Table 22-6). -/
def sensorOk (site index sensor : Nat) : Bool :=
  match site with
  | 0 => decide (index < 36 ∧ sensor < 16)
  | 1 => decide (index < 24 ∧ sensor < 1)
  | 2 => decide (index < 4 ∧ sensor < 1)
  | 3 => decide (index < 1 ∧ sensor < 1)
  | _ => false

/-- A compute die's thermal trim record is missing (R449, Table 19-4): it trips and throttles earlier. -/
def State.noThermal (s : State) (d : Nat) : Bool := (s.calNow (0x60000 + d)).isNone

/-- The reading at which a sensor trips, in thousandths of a degree. -/
def State.tripAt (s : State) (site index : Nat) : Int := if site = 0 ∧ s.noThermal index = true then 102000 else 110000

/-- A sensor has tripped (R449, Table 22-8): a test window ends without results. -/
def State.trip (s : State) (site index sensor : Nat) : State :=
  let s : State := { s with board := { s.board with tripN := true, goodAtTrip := if s.board.pwrEn then s.board.good else s.board.goodAtTrip } }
  let s := (s.emit .thermTrip).fault agentMgmt 0x12 sensor (site + index * 256) 0
  let s := ({ s with window_ := none } : State).complete? .window fun _ => .of KS.fault
  s.powerLost

/-- THERMAL_TRIP (R449). -/
def execThermalTrip (site index sensor : Nat) (s : State) : Res :=
  unitOk (sensorOk site index sensor) <|
  .next <|
    let temps := SMap.put (fun _ => (0 : Int)) s.board.temps (tempKey site index sensor) (s.tripAt site index)
    State.trip { s with board := { s.board with temps := temps } } site index sensor

/-- Sensors that a tick's readings find at their trip point; one trip is enough (R449). -/
def State.tripHot (s : State) (l : List Temp) : State :=
  if s.board.tripN then s else
  (l.filter fun x => decide (s.tripAt x.site x.index ≤ x.milliC)).foldl (fun (s : State) x => s.trip x.site x.index x.sensor) s

/-! JTAG (R455, R456). -/

/-- An instruction is in force; bring-up goes on when the contacts are no longer held. -/
def State.jtag (s : State) (ir : BitVec 8) : State := State.bringOn { s with board := { s.board with ir := ir } }

/-- EXTEST, CLAMP and HIGHZ are accepted below BOOT_STAGE 6 and at 0xFF; else they act as BYPASS. -/
def State.jtagHold (s : State) (ir : BitVec 8) : State := s.jtag (if s.bootStage < 6 ∨ s.bootStage = 0xFF then ir else 0xFF)

def execJtagExtest (s : State) : Res := .next (s.jtagHold 0)

/-- SAMPLE/PRELOAD: which cell is which contact is not given, so what is captured is a free value (log 1). -/
def execJtagSamplePreload (pre : BitVec 18) (s : State) : Res :=
  let (w, s) := s.freshWord
  .next <| ({ s.jtag 1 with board := { (s.jtag 1).board with cells := pre } } : State).emit (.tdo 18 (w &&& 0x3FFFF))

def execJtagIdcode (s : State) : Res := .next ((s.jtag 2).emit (.tdo 32 0x0D2365AB))

def execJtagClamp (s : State) : Res := .next (s.jtagHold 3)

def execJtagHighz (s : State) : Res := .next (s.jtagHold 4)

/-- STATUS: the pins as levels; THERM_TRIP_N is low while asserted. -/
def State.jtagWord (s : State) : Word :=
  BitVec.ofNat 64 (packBits [(8, s.bootStage), (32, s.shape.gen), (1, b2n (!s.board.tripN)), (1, b2n s.board.pwrEn)])

def execJtagStatus (s : State) : Res := .next (let s := s.jtag 0x10; s.emit (.tdo 64 s.jtagWord))

def execJtagBypass (s : State) : Res := .next (s.jtag 0xFF)

/-- TRST_N: the TAP resets to IDCODE; bring-up continues. -/
def execJtagReset (s : State) : Res := .next (s.jtag 2)

/-! Analogue buses (R454). -/

/-- ATB_SETTLE: the converter has settled on a bus whose reading is not valid; a die without main rails reads as VSS. -/
def execAtbSettle (k : Nat) (code : BitVec 16) (s : State) : Res :=
  unitOk (decide (k < 2)) <|
  need (!s.flag (.atbRead k) F.atbReadValid) s <|
  .next <|
    let sel := s.rd (.atbSel k)
    let dark := bitAt sel 0 && bits sel 1 2 != 3 && !s.board.pwrEn
    (s.setFld (.atbRead k) F.atbReadCode (if dark then 0 else code.toNat)).setFld (.atbRead k) F.atbReadValid 1

end Sys2Proof.Machine
end

