-- ==== Sys2Proof/Machine/Reliab.lean ====
section
/-! DEFINITION. Field tests and core death (chapter 20): the test window, its results and recaptured records, the watchdog. -/

namespace Sys2Proof.Machine

/-! The test window (R420 to R424). -/

/-- TEST_WINDOW_START (R420): the window runs for BEATS ticks; its dies dispatch no task meanwhile. -/
def execTestWindowStart (s : State) : Res :=
  match s.window_ with
  | none => .next s
  | some w =>
    need (w.started.isNone && s.flag .beatCtrl F.beatCtrlRun) s <|
    .next { s with window_ := some { w with started := some w.beats, since := s.beatNo.toNat, watch := s.nv.watch, first := s.testFirst } }

/-- A result names a unit of a die of the mask that is no hole, in the ranges of Table 20-3, under stress that the window enables: V and F give their
margins, a test fails in a unit that it has, under stress or without (R422). -/
def State.resultFits (s : State) (w : Window) (r : TestRes) : Bool :=
  let failed := decide (2 ≤ r.outcome)
  decide (r.cluster < 288) && bitAt w.mask (r.cluster / 8) && !s.clusterHole r.cluster
    && decide (r.unit < (if r.bank then 32 else 9) ∧ r.outcome < 4 ∧ r.vmargin ≤ (if w.stress % 2 = 1 then 60 else 0)
        ∧ r.fmargin ≤ (if w.stress / 2 % 2 = 1 then 16 else 0) ∧ r.pattern < 65536)
    && decide (r.stress &&& w.stress = r.stress) && (decide (r.failUnit ≠ 0) == failed) && (failed || r.pattern == 0)
    && (!failed || (if r.bank then r.failUnit == 8 else decide (r.failUnit < 8))) && (r.outcome != 2 || r.stress != 0)
    && (r.outcome != 3 || r.stress == 0) && !(r.silent && (r.bank || r.outcome != 0))

/-- The number under which a unit's due state is kept: 9 cores and 32 banks for each cluster (R419). -/
def unitKey (r : TestRes) : Nat := 41 * r.cluster + (if r.bank then 9 + r.unit else r.unit)

/-- Units of a cluster in the order in which a window tests them, numbered with the 9 cores before the banks (R415, R419, R420). -/
def State.testOrder (s : State) (w : Window) (cl : Nat) : List Nat :=
  let st := fun (i : Nat) => match w.watch.find? fun e => sameUnit e (if i < 9 then 1 else 2) cl (if i < 9 then i else i - 9) 0 with
    | some e => e.state
    | none => 0
  let at_ := fun (i : Nat) => SMap.get zeroNat s.passedAt (41 * cl + i)
  let dueAt := fun (i : Nat) => if at_ i = 0 then 0 else at_ i - 1 + 2 ^ (if st i = 1 then 28 else 32)
  let us := (List.range 41).filter fun i => !(decide (9 ≤ i) && st i == 2)
  let first := us.filter fun i => decide (i < 9) && w.first.contains (9 * cl + i)
  let suspects := us.filter fun i => st i == 1 && !first.contains i
  let rest := us.filter fun i => st i != 1 && !first.contains i
  first ++ suspects ++ sortBy dueAt (rest.filter fun i => decide (dueAt i ≤ w.since)) ++ rest.filter fun i => !decide (dueAt i ≤ w.since)

/-- The units reached in each cluster are the first of its order. -/
def State.resultsInOrder (s : State) (w : Window) (rs : List TestRes) : Bool :=
  (dedup (rs.map TestRes.cluster)).all fun cl =>
    let got := (rs.filter fun r => r.cluster == cl && (r.outcome != 0 || r.silent)).map fun r => if r.bank then 9 + r.unit else r.unit
    ((s.testOrder w cl).take got.length).all got.contains

/-- The engine, tap and VU registers of a core (R424); ME_SUSPECT stands as in a partition reset (R318). -/
def testResets (c a : Nat) : Bool :=
  match Reg.ofAddr a with
  | some (.meCfg e) => e / 2 == c
  | some (.meStatus e) => e / 2 == c
  | some (.meTallyLog e) => e / 2 == c
  | some (.meSpLog e) => e / 2 == c
  | some (.vuCfg k) => k == c
  | some (.vuStatus k) => k == c
  | _ => false

/-- What testing leaves in a core: engines and VU as after a partition reset, rows outside every quota zero and EMPTY, all rows of the
fallow core (R421, R424). -/
def State.coreTested (s : State) (c : Nat) : State :=
  let cl := coreCluster c
  let held := fun (k : Nat) => decide (c < 2304) && (List.range 16).any fun j => s.inNear cl j (k % 8192)
  { s with engs := s.engs.filter fun x => x.1 / 2 != c,
           regs := s.regs.filter fun x => !testResets c x.1,
           shadow := s.shadow.filter fun x => !testResets c x.1,
           rows := s.rows.filter fun x => !(decide (x.1 < 2 ^ 32 ∧ x.1 / 8192 = c) && !held x.1) }

/-- The rows of a bank outside every quota are zero and EMPTY (R421). -/
def State.bankTested (s : State) (cl bank : Nat) : State :=
  let held := fun (n : Nat) => (List.range 16).any fun j => s.inLoft cl j n
  { s with rows := s.rows.filter fun x =>
      let n := (x.1 - 2 ^ 32) % 2 ^ 20
      !(decide (2 ^ 32 ≤ x.1 ∧ (x.1 - 2 ^ 32) / 2 ^ 20 = cl ∧ 16 * (n / 524288) + n % 16 = bank) && !held n) }

/-- A stressed pass (R416, R419). -/
def State.wlPass (s : State) (kind cl unit : Nat) : State :=
  match s.wlFind kind cl unit 0 with
  | some e =>
    if e.state ≠ 1 then s
    else
      let keep := s.nv.watch.filter fun x => !sameUnit x kind cl unit 0
      let next := s.nv.watch.map fun x => if sameUnit x kind cl unit 0 then { x with passes := x.passes + 1 } else x
      let watch := if 4 ≤ e.passes + 1 then keep else next
      ({ s with nv := { s.nv with watch := watch } }).wlSettle kind cl
  | none => s

/-- A field-test failure (Table 20-2, sources 5 and 6): any march of a loft bank counts as one without stress. -/
def State.wlFail (s : State) (kind cl unit : Nat) (weak : Bool) : State :=
  let n := if weak then 2 else 1
  s.wlChange kind cl unit 0 (if weak then 6 else 5) fun e => { e with confirm := min 255 (e.confirm + n), passes := 0 }

/-- Single-bit corrections found by a test count as those of R190. -/
def State.testCes (s : State) (r : TestRes) : State :=
  let at_ := if r.bank then some (RowRef.loft r.cluster (524288 * (r.unit / 16) + r.unit % 16))
    else (s.coreOfPhys r.cluster r.unit).map fun c => RowRef.near c 0
  match at_ with
  | some x => (List.range r.ce).foldl (fun (s : State) _ => s.rowError x .single) s
  | none => s

/-- What one reached unit leaves behind; a core whose test controller does not answer is dead (R427). -/
def State.unitTested (s : State) (r : TestRes) : State :=
  let kind := if r.bank then 2 else 1
  let die := r.cluster / 8
  if r.silent then s.markDead r.cluster r.unit else
  let s := if r.bank then s else { s with testFirst := s.testFirst.filter fun k => k != 9 * r.cluster + r.unit }
  let s := if r.bank then s.bankTested r.cluster r.unit else
    match s.coreOfPhys r.cluster r.unit with
    | some c => s.coreTested c
    | none => s
  let s := (s.count C.ftPatterns die r.patterns).testCes r
  match r.outcome with
  | 1 => if r.stress = 0 then s else
      (State.wlPass { s with passedAt := SMap.put zeroNat s.passedAt (unitKey r) (s.beatNo.toNat + 1) } kind r.cluster r.unit)
  | 2 => (s.count C.ftFails die).wlFail kind r.cluster r.unit r.bank
  | 3 => (s.count C.ftFails die).wlFail kind r.cluster r.unit true
  | _ => s

/-- A result entry (Table 20-3). -/
def State.testEntry (s : State) (r : TestRes) : List Byte :=
  let st := match s.wlFind (if r.bank then 2 else 1) r.cluster r.unit 0 with
    | some e => e.state
    | none => 0
  bytesOf 16 (packBits [(16, r.cluster), (8, r.unit + (if r.bank then 128 else 0)), (8, r.outcome), (8, r.stress), (8, r.vmargin),
    (8, r.fmargin), (8, r.failUnit), (16, r.pattern), (8, st), (8, 0), (32, r.ce)])

/-- The entries of a mask, by cluster, cores before banks; a unit without a result was not reached. -/
def windowUnits (w : Window) (rs : List TestRes) : List TestRes :=
  (dieMask w.mask.toNat).flatMap fun d => (List.range 8).flatMap fun k => (List.range 41).map fun i =>
    let bank := decide (9 ≤ i); let unit := if i < 9 then i else i - 9
    (rs.find? fun r => r.cluster == 8 * d + k && r.bank == bank && r.unit == unit).getD ⟨8 * d + k, bank, unit, 0, 0, 0, 0, 0, 0, 0, 0, false⟩

/-- PWR_LIMIT.WATTS in force, as FP32 (Table 19-5). -/
def State.limitW (s : State) : F32 := (rnd32 (Num.ofInt (s.fld .pwrLimit F.pwrLimitWatts))).1

/-- The device signs what it captures itself (R384, Tables 18-2 and 19-5); SVN is the least that a load accepts. -/
def State.selfRecord (s : State) (b : CalBody) (prov : Bool) : List Byte :=
  let body := bytesOf 4 b.record ++ bytesOf 4 (if prov then 2 else 0) ++ bytesOf 8 s.board.time.toNat ++ bytesOf 8 s.beatNo.toNat
    ++ bytesOf 4 b.pkgW.toNat ++ bytesOf 4 s.limitW.toNat ++ bytesOf 4 b.tjC.toNat ++ bytesOf 4 s.board.coolant.toNat
    ++ bytesOf 24 0 ++ b.data
  let hdr := bytesOf 4 0x5A445347 ++ bytesOf 4 (packBits [(8, 3), (8, s.minSvn), (8, 0), (8, 0xFF)]) ++ bytesOf 4 body.length
    ++ bytesOf 8 0 ++ bytesOf 8 Config.deviceId.toNat ++ bytesOf 36 0 ++ bytesOf 64 (Config.sha512 body).toNat
  hdr ++ body ++ bytesOf 288 0 ++ bytesOf 132 (Config.sign (Config.sha512 hdr)).toNat

/-- PKG_W is below 0.6 of LIMIT_W (R411). -/
def lowPower (pkg limit : F32) : Bool :=
  Num.lt (Num.mul (Num.ofInt 10) (Num.of32 pkg)) (Num.mul (Num.ofInt 6) (Num.of32 limit))

/-- A captured record replaces the one in force: every record in a full calibration (R412); else a provisional margin or droop record
of a die of the mask, when the capture reached the load (R411). -/
def State.capture (s : State) (w : Window) (b : CalBody) : State :=
  let cls := b.record / 65536
  let prov := (cls == 4 || cls == 5) && lowPower b.pkgW s.limitW
  let takes := if w.pack = 0xFFFF then calRecord b.record else
    (cls == 4 || cls == 5) && calRecord b.record && bitAt w.mask (b.record % 65536) && !prov && (match s.cal b.record with
      | some l => calProvisional l
      | none => false)
  if takes then (s.setCal b.record (s.selfRecord b prov)).calTakes b.record else s

/-- Dead cores of the window's dies are remapped now, without rollback (Table 20-5). -/
def State.remapTested (s : State) (w : Window) : State :=
  ((s.cores.filterMap fun (x : Nat × Core) =>
    if x.2.dead && decide (x.1 < 2304) && bitAt w.mask (x.1 / 64) && !s.coreHole x.1 then some x.1 else none)).foldl
    (fun (s : State) c => s.remap c) s

/-- TEST_WINDOW_END (R423, R424): the results are what the test controllers found. -/
def execTestWindowEnd (results : List TestRes) (recaptured : List CalBody) (s : State) : Res :=
  match s.window_ with
  | none => .next s
  | some w =>
    need (decide (w.started = some 0)) s <|
    unitOk (results.all (fun r => s.resultFits w r) && s.resultsInOrder w results) <|
    .next <|
      let full := w.pack == 0xFFFF
      let units := windowUnits w (if full then [] else results)
      let s := units.foldl (fun (s : State) r => if r.outcome = 0 ∧ r.silent = false then s else s.unitTested r) s
      let s := recaptured.foldl (fun (s : State) b => s.capture w b) s
      let fails := (units.filter fun r => decide (2 ≤ r.outcome)).length
      let hdr := bytesOf 16 (packBits [(32, units.length), (32, w.beats), (32, s.seedPack.getD 0), (16, w.pack)])
      let body := units.flatMap fun r => s.testEntry r
      let s := match s.fwWaiting .window with
        | o :: _ => s.winPut o.resultAt (hdr ++ body)
        | [] => s
      let s := s.remapTested w
      ({ s with window_ := none } : State).complete? .window fun _ => { FwEnd.good with r0 := fails }

/-! The watchdog (R427). -/

/-- CORE_WATCHDOG (R427): 16 beats without a command issued or a retire while the core's task RUNS; the rollback follows at the next
tick (R428). -/
def execCoreWatchdog (core : Nat) (s : State) : Res :=
  unitOk (decide (core < 2304)) <|
  need (!s.coreHole core && (s.running core).isSome && decide (16 ≤ (s.core core).quiet)) s <|
  .next <|
    let s := s.count C.coreWatchdog (core / 8)
    s.setCore core { s.core core with dead := true }

end Sys2Proof.Machine
end

