-- ==== Sys2Proof/Machine/Counters.lean ====
section
/-! DEFINITION. The counter snapshot and what it answers (chapter 21). -/

namespace Sys2Proof.Machine

/-! Gauges (R440). -/

/-- A whole number as FP32. -/
def natF32 (n : Nat) : Nat := (rnd32 (Num.ofInt n)).1.toNat

/-- Thousandths of a degree as an FP32 in degrees Celsius. -/
def milliF32 (m : Int) : Nat :=
  let x := m.natAbs * 2 ^ 40
  let q := 2 * (x / 1000) + (if x % 1000 = 0 then 0 else 1)
  (rnd32 (.fin (decide (m < 0)) q (-41))).1.toNat

def State.temp (s : State) (site index sensor : Nat) : Int := SMap.get (fun _ => (0 : Int)) s.board.temps (tempKey site index sensor)

/-- Sensors of a site's unit (Table 22-6). -/
def sensorsOf (site : Nat) : Nat := if site = 0 then 16 else 1

def maxInt : List Int → Int
  | [] => 0
  | x :: t => t.foldl max x

def State.hottest (s : State) (site index : Nat) : Int := maxInt ((List.range (sensorsOf site)).map fun k => s.temp site index k)

/-- The hottest sensor of the device. -/
def State.hottestAll (s : State) : Int :=
  maxInt ((List.range 36).map (s.hottest 0) ++ (List.range 24).map (s.hottest 1) ++ (List.range 4).map (s.hottest 2) ++ [s.hottest 3 0])

/-- Package power as the controller measured it, the host-die allowance included. -/
def State.pkgPower (s : State) : Nat := 200 + s.edgeDraw + ((List.range 36).map fun d => (s.die d).draw).foldl (fun a b => a + b) 0

/-- The trim in force of a cluster's LDO, in mV (R407, R410). -/
def State.ldoNow (s : State) (d k : Nat) : Int :=
  match s.ldoTrim d k with
  | some v => max (-60) (min 30 v)
  | none => 30

def intF32 (i : Int) : Nat := (rnd32 (Num.ofInt i)).1.toNat

/-- A gauge's value: what the state holds; the draws of granary and gate dies, and the trims under a window's stress, it does not hold. -/
def State.gauge (s : State) (cls unit num sub : Nat) : Option Nat :=
  let stressed := match s.window_ with
    | some w => w.started.isSome && bitAt w.mask unit
    | none => false
  match cls, num with
  | 5, 4 => some (natF32 (s.die unit).draw)
  | 5, 5 => some (milliF32 (s.hottest 0 unit))
  | 5, 6 => some (milliF32 (s.temp 0 unit sub))
  | 5, _ => if stressed then none else some (intF32 (s.ldoNow unit sub))
  | 6, 18 => none
  | 6, _ => some (milliF32 (s.hottest 1 unit))
  | 7, 4 => none
  | 7, _ => some (milliF32 (s.hottest 2 unit))
  | _, 11 => some (natF32 s.pkgPower)
  | _, _ => some (milliF32 s.hottestAll)

/-- The numbers of a class that are gauges: from this number on (Table 21-1). -/
def gaugeFrom (cls : Nat) : Nat := [1000, 1000, 1000, 1000, 1000, 4, 18, 4, 1000, 1000, 11].getD cls 1000

/-! Entries (R439, Table 21-1). -/

/-- The entries of a class in ascending ID: number and SUB. -/
def classEntries (cls : Nat) : List (Nat × Nat) :=
  let plain := fun n => (List.range n).map fun (k : Nat) => (k, 0)
  let many := fun k n => (List.range n).map fun (i : Nat) => (k, i)
  match cls with
  | 1 => (List.range 22).flatMap fun k => many k 2
  | 2 => plain 38
  | 3 => plain 20
  | 4 => (List.range 8).flatMap fun k => many k 32
  | 5 => plain 6 ++ many 6 16 ++ many 7 8
  | 6 => plain 20
  | 7 => plain 6
  | 8 => plain 9 ++ (many 9 7).drop 1 ++ (many 10 7).drop 1 ++ [(11, 0), (12, 0)]
  | 9 => plain 19
  | 10 => plain 13
  | _ => plain 1

def ctrId (cls num sub : Nat) : Nat := sub + 2 ^ 8 * num + 2 ^ 20 * cls

/-- Units due for a test (R419): a stressed pass lasts 2^32 beats, 2^28 while the unit is SUSPECT. -/
def State.dueCount (s : State) : Nat :=
  let units := ((List.range 288).filter fun cl => !s.clusterHole cl).flatMap fun cl => (List.range 41).map fun i => (cl, i)
  (units.filter fun (u : Nat × Nat) =>
    let kind := if u.2 < 9 then 1 else 2; let unit := if u.2 < 9 then u.2 else u.2 - 9
    let suspect := match s.wlFind kind u.1 unit 0 with
      | some e => e.state == 1
      | none => false
    let at_ := SMap.get zeroNat s.passedAt (41 * u.1 + u.2)
    at_ == 0 || decide (2 ^ (if suspect then 28 else 32) ≤ s.beatNo.toNat + 1 - at_)).length

/-- A counter of the latched copy. -/
def State.latched (s : State) (cls unit num sub : Nat) : Nat := SMap.get zeroNat s.snap (ctrKey ⟨cls, num⟩ unit sub)

/-- Job values (R439): USED over the partition's clusters; the TT counters and REPORT_STEP of the last report. -/
def State.jobValue (s : State) (p j num : Nat) : Nat :=
  let b := s.job p j
  if num = 0 then ((s.clustersOf p).map fun cl => (s.rd (.dspUsed cl j)).toNat).foldl (fun a b => a + b) 0
  else if 7 ≤ num ∧ num ≤ 14 then SMap.get zeroNat b.report num
  else if num = 18 then b.reportT
  else s.latched 9 (jobKey p j) num 0

/-- The value of one entry as the units latch it; none for a gauge that the state does not hold. -/
def State.entryValue (s : State) (cls unit num sub : Nat) : Option Nat :=
  if gaugeFrom cls ≤ num then s.gauge cls unit num sub
  else some <| match cls with
    | 0 => s.beatNo.toNat
    | 1 => s.latched 1 (s.physKey unit) num sub
    | 2 => s.latched 2 (s.physKey unit) num 0
    -- an instance of channel counters is its channel
    | 9 => s.jobValue (unit / 16) (unit % 16) num
    | 10 => if num = 2 then s.dueCount else s.latched 10 0 num 0
    | _ => s.latched cls unit num sub

/-- The classes of a scope (Table 21-2). -/
def scopeClasses (scope : Nat) : List Nat := [[0, 10], [0, 5], [0, 3, 4], [0, 1, 2], [0, 6], [0, 7], [0, 8], [0, 9]].getD scope []

/-- The entries of a COUNTERS_READ as latched (R442): ID, gauge, value. -/
def State.scopeHeld (s : State) (o : FwOut) : List (Nat × Nat × Option Nat) :=
  let scope := o.body 16 0 8
  let unit := if scope = 7 then jobKey (o.body 20 0 8) (o.body 21 0 8) else o.body 18 0 16
  (scopeClasses scope).flatMap fun cls => (classEntries cls).map fun (e : Nat × Nat) =>
    (ctrId cls e.1 e.2, ctrKey ⟨cls, e.1⟩ unit e.2, s.entryValue cls unit e.1 e.2)

/-- What TELEMETRY answers (Table 17-6). -/
def State.telemetryResult (s : State) : Nat :=
  let resting := ((List.range 36).filter fun d => !s.dieHole d && (s.die d).history.head?.getD false).length
  packBits [(32, natF32 s.pkgPower), (32, milliF32 s.hottestAll), (64, s.beatNo.toNat), (32, s.fld .pwrStatus F.pwrStatusFixed),
    (8, resting)]

/-- Cycle 64 of a tick that a snapshot is asked for: every unit latches, and each read that has passed its checks holds its values (R441, R443). -/
def State.latch (s : State) : State :=
  if !s.snapAsked then s else
  let n : State := { s with snap := s.ctrs, snapBeat := some s.beatNo, snapAsked := false }
  { n with fw := n.fw.map fun (o : FwOut) => match o.wait with
    | .snapshot => { o with wait := .gather (if o.op = 0x82 then [(0, 0, some n.telemetryResult)] else n.scopeHeld o) }
    | _ => o }

/-- The bytes of the entries of a read; `given` supplies the gauges that the state does not hold. -/
def State.heldBytes (s : State) (given : List (Nat × BitVec 32)) (l : List (Nat × Nat × Option Nat)) : List Byte :=
  l.flatMap fun (id, key, v) =>
    let g := match given.find? fun x => x.1 == key with
      | some x => x.2.toNat
      | none => (Config.freeWord s.free).toNat % 2 ^ 32
    bytesOf 4 id ++ bytesOf 8 (v.getD g)

/-- One read that holds its snapshot completes. -/
def State.gathered1 (s : State) (bytes : List (Nat × Nat × Option Nat) → List Byte) (o : FwOut) : State :=
  match o.wait with
  | .gather l =>
    if o.op = 0x82 then s.endCmd o { FwEnd.good with result := match l with
      | (_, _, some r) :: _ => r
      | _ => 0 }
    else (s.winPut o.resultAt (bytes l)).endCmd o { FwEnd.good with r0 := scopeEntries (o.body 16 0 8) }
  | _ => s

/-- A read holds the copy of a snapshot. -/
def FwOut.gathers (o : FwOut) : Bool := match o.wait with
  | .gather _ => true
  | _ => false

/-- COUNTER_SNAPSHOT (R441, R443): firmware has gathered the latched copy, and the reads that hold it complete. -/
def execCounterSnapshot (gauges : List (Nat × BitVec 32)) (s : State) : Res :=
  need (s.fw.any FwOut.gathers) s <|
  .next (s.fw.foldl (fun (n : State) o => n.gathered1 (s.heldBytes gauges) o) { s with free := s.free + 1 })

end Sys2Proof.Machine
end

