-- ==== Sys2Proof/Machine/Beat.lean ====
section
/-! DEFINITION. The tick (R33 to R58, R311 to R323): commit decisions, applies, rest beats, accounts, what firmware does at a tick; the
rows that a tick leads to, and the beat pins. -/

namespace Sys2Proof.Machine

/-! The power limit (R55, R321 to R323, R449, R450). -/

def sumNat (l : List Nat) : Nat := l.foldl (fun a b => a + b) 0

def sumRat (l : List Rat) : Rat := l.foldl (fun a b => a + b) 0

/-- A partition's claim on the budget: its number, weight, cap in watts and dies. -/
structure Claim where
  part : Nat
  weight : Nat
  dies : Nat
  deriving DecidableEq, Repr

/-- 560 W for each die (R321). -/
def Claim.cap (c : Claim) : Rat := 560 * c.dies

/-- The division by weight, what lies above a cap passing on (R321, steps 2 and 3): each partition with its budget. -/
def divide : Nat → Rat → List Claim → List (Nat × Rat)
  | 0, _, _ => []
  | k + 1, rest, l =>
    let tw : Rat := sumNat (l.map Claim.weight)
    let part := fun (c : Claim) => rest * c.weight / tw
    let high := l.filter fun c => decide (c.cap < part c)
    if high.isEmpty then l.map fun c => (c.part, part c)
    else high.map (fun c => (c.part, c.cap)) ++ divide k (rest - sumRat (high.map Claim.cap)) (l.filter fun c => !decide (c.cap < part c))

/-- The partitions with a RUNNING job. -/
def State.activeParts (s : State) : List Nat :=
  (List.range 12).filter fun p => s.partEn p && (List.range 16).any fun j => decide ((s.job p j).stat = .running)

def State.claims (s : State) : List Claim :=
  s.activeParts.map fun p => ⟨p, s.fld (.pwrWeight p) F.pwrWeightWeight, (s.diesOf p).length⟩

/-- F: the host-die allowance, the draw of every other die and of the LPDDR5X devices, and of every compute die not in a partition with
a RUNNING job, as measured up to the previous tick. -/
def State.fixedDraw (s : State) : Nat :=
  let act := s.activeParts
  200 + s.edgeDraw + sumNat (((List.range 36).filter fun d => !act.any fun p => s.dieIn p d && !s.dieHole d).map fun d => (s.die d).draw)

/-- Credit after a tick, for a die with a budget (R322). -/
def nextCredit (credit b : Rat) (draw t bank : Nat) : Rat :=
  if b = 0 then 0
  else max (-16 * b * t) (min (bank * b * t) (credit + (b - draw) * t))

/-- The point from which a die is given rest beats, in thousandths of a degree. -/
def State.throttleAt (s : State) (d : Nat) : Int := if s.noThermal d then 90000 else 98000

/-- The rest decision of one die, at most 15 in any 16 (R55). A die of no partition with a RUNNING job has no budget: its credit stands, but while
the fixed draw exceeds the limit every die rests at zero credit (R323). Of a hole the draw alone is taken. -/
def State.restDie (s : State) (budget : List (Nat × Rat)) (over_ : Bool) (m : TickIn) (d : Nat) : State :=
  let x := s.die d
  let draw := match m.dieDraw.find? fun q => q.1 == d with
    | some q => q.2
    | none => 0
  if s.dieHole d then s.setDie d { x with draw := draw } else
  let own := s.partOfDie d
  let b? : Option Rat := if over_ then some 0 else match own with
    | some p => (budget.find? fun q => q.1 == p).map fun q => q.2 / (s.diesOf p).length
    | none => none
  let credit := match b? with
    | some b => nextCredit x.credit b x.draw s.beat.ended (s.fld .pwrCfg F.pwrCfgBankBeats)
    | none => x.credit
  let short := match b? with
    | some b => decide (b = 0) || decide (credit < 0)
    | none => false
  let want := short || decide (s.throttleAt d ≤ s.hottest 0 d) || !s.board.flowOk
  let rest := want && !(decide (x.history.length = 15) && x.history.all id)
  let s := s.setDie d ⟨credit, (rest :: x.history).take 15, draw⟩
  if rest then s.count C.pwrRestBeats d else s

/-- The power controller at cycle 0: every decision under the values in force before the tick (R44). -/
def State.powerTick (s : State) (m : TickIn) : State :=
  let f := s.fixedDraw
  let limit := s.fld .pwrLimit F.pwrLimitWatts
  let over_ := decide (limit < f)
  let cl := s.claims
  let budget := divide (cl.length + 1) ((limit - f : Nat) : Rat) cl
  let s := (List.range 36).foldl (fun (s : State) d => s.restDie budget over_ m d) s
  let resting := (List.range 12).filter fun p => (s.diesOf p).any fun d => (s.die d).history.head?.getD false
  let s := ((s.setFld .pwrStatus F.pwrStatusFixed (min f 32767)).setFld .pwrStatus F.pwrStatusBudget (limit - f)).setFld .pwrStatus
    F.pwrStatusResting resting.length
  let s := if over_ = s.powerOver then s else s.post 7 0 0 0 [(8, 4, f), (12, 4, limit)]
  { s with powerOver := over_, edgeDraw := m.edgeDraw }

/-- The sensor readings at the tick. -/
def State.takeTemps (s : State) (l : List Temp) : State :=
  let temps := l.foldl (fun (t : SMap Int) x => SMap.put (fun _ => (0 : Int)) t (tempKey x.site x.index x.sensor) x.milliC) s.board.temps
  { s with board := { s.board with temps := temps } }

/-! Commit decisions (R40 to R48, Tables 2-2 and 2-8). -/

/-- A group's verdict at cycle 16 (R47, R177). -/
inductive Verdict16 where
  | open_
  | held
  | commit
  | discard
  | bad
  deriving DecidableEq, Repr

/-- The tasks of a group that are there: members and verifier. -/
def Group.all (g : Group) : List Nat := g.members ++ g.verifier.toList

def Group.verdictRef (g : Group) : Option RowRef :=
  match g.core, g.vrow with
  | some c, some r => some (.near c r)
  | _, _ => none

/-- Every member has retired and stays clean under the discards of this tick. -/
def State.membersIn (s : State) (g : Group) (disc : List Nat) : Bool :=
  !g.members.isEmpty && g.members.all fun id => !disc.contains id && match s.task? id with
    | some t => decide (t.stat = .retired)
    | none => false

/-- The verdict row as the dispatcher samples it (Tables 7-7 and 7-12): a FULL row that is not the group's verdict, or a POISON row, discards
the group at any tick; a verdict decides it once every member is in. A group whose discard is decided stays so. -/
def State.sample (s : State) (g : Group) (disc : List Nat) : Verdict16 :=
  if g.dropped then .discard else
  let early := fun (v : Verdict16) => if s.membersIn g disc then v else .open_
  match g.verdictRef with
  | none => early .held
  | some r =>
    let x := s.row r
    match x.tag with
    | .poison => .bad
    | .full =>
      if bits x.data 0 16 ≠ g.gid then .bad
      else match bits x.data 16 2 with
        | 1 => early .commit
        | 2 => early .discard
        | _ => .bad
    | _ => early .held

/-- The tick's decisions. `out` are the groups discarded, `bad` those of them with an invalid verdict row, `kept` the members of those that an
executing task holds back (Table 2-2, row 4 before row 6); `carried` the executing tasks that are carried, `aborts` those of them that
exceed the limit (R49). -/
structure Decision where
  faulted : List Nat
  rerun : List Nat
  dropped : List Nat
  requeue : List Nat
  commit : List Nat
  carried : List Nat
  aborts : List Nat
  failing : List Group
  out : List Group
  bad : List Group
  done : List Group
  held : List Group
  kept : List Nat
  deriving DecidableEq, Repr

/-- Held tasks (Table 2-2, rows 4 and 5): bound to one that is executing or held, or members of an undecided group. A verifier is not
bound to a retired member of its own group (R176). -/
def heldTasks (s : State) (undecided : Nat → Bool) (disc : List Nat) : Nat → List Nat → List Nat
  | 0, h => h
  | k + 1, h =>
    let waits := fun (t : Task) => t.deps.any fun id => match s.task? id with
      | none => false
      | some u =>
        if t.verifier && u.spec && u.group == t.group && u.job == t.job && u.cl == t.cl && decide (u.stat = .retired) then false
        else u.resident || h.contains id
    let new := (s.tasks.filter fun t => decide (t.stat = .retired) && !disc.contains t.id && !h.contains t.id && (undecided t.id || waits t)).map
      Task.id
    if new.isEmpty then h else heldTasks s undecided disc k (h ++ new)

/-- The members and the verifier of groups, as far as they are there. -/
def State.groupTasks (s : State) (gs : List Group) : List Nat := (gs.flatMap Group.all).filter fun id => (s.task? id).isSome

/-- An executing task that this tick carries: every one but those that it pre-empts (R57) and those bound to a task that it discards (R189). -/
def carriedOn (pre disc : List Nat) (t : Task) : Bool := t.resident && !t.abort && !pre.contains t.id && !t.deps.any disc.contains

/-- The executing tasks that this tick carries past the limit, given what it discards otherwise: one bound to another is discarded with it and
not carried (R49, R189). -/
def State.overLimit (s : State) (pre disc : List Nat) (limit : Nat) : List Nat :=
  let c := (s.tasks.filter fun t => carriedOn pre disc t && decide (limit < t.carry + 1)).map Task.id
  let after := fun (a b : Nat) => (s.withBound [a]).contains b
  c.filter fun b => !c.any fun a => a != b && after a b && !after b a

/-- A member of a discarded group read a pending row of a task that goes on executing (Table 2-2, row 4). -/
def State.heldBack (s : State) (disc : List Nat) (id : Nat) : Bool :=
  match s.task? id with
  | none => false
  | some t => decide (t.stat = .retired) && t.deps.any fun k => !disc.contains k && match s.task? k with
      | some u => u.resident
      | none => false

/-- `pre` are the executing tasks of jobs that this tick pre-empts, kills or rolls back and of partitions whose reset it begins: they have no carry
(R57, Table 2-8). The verifier of a group whose holds exceed the limit is not committed: it is discarded with the group (R47). A member with a
tally mismatch is dropped with its group, and not refunded, at a tick whose FULL verdict row is invalid, where Table 2-2 row 2 would run it again and
R177 discards the group (DESIGN CHOICE, log 41). A group whose commit is decided is no longer decided here: its members commit as any task. -/
def State.decide_ (s : State) (pre : List Nat) (limit : Nat) : Decision :=
  let ret := s.tasks.filter fun t => decide (t.stat = .retired)
  let ids := fun (p : Task → Bool) => (ret.filter p).map Task.id
  let faulted := ids fun t => t.fault.isSome
  let rerun := ids fun t => t.fault.isNone && !t.badEngs.isEmpty
  let marked := (s.tasks.filter fun t => t.abort).map Task.id
  let live := s.groups.filter fun g => !g.won
  let fails := fun (l : List Nat) => live.filter fun g => g.all.any l.contains
  let outs := fun (gs : List Group) (d : List Nat) => gs.filter fun g => decide (s.sample g d = .discard ∨ s.sample g d = .bad)
  -- what is discarded whatever the carry counts
  let base := faulted ++ rerun ++ pre ++ marked
  let d0 := s.withBound (base ++ s.groupTasks (fails (faulted ++ marked)))
  let aborts := s.overLimit pre (s.withBound (d0 ++ s.groupTasks (outs live d0))) limit
  let lost := faulted ++ marked ++ aborts
  let failing := fails lost
  let gdrop := (s.groupTasks failing).filter fun id => !lost.contains id
  let d1 := s.withBound (base ++ aborts ++ gdrop)
  let rest := live.filter fun g => !failing.contains g
  let out := outs rest d1
  let vall := s.groupTasks out
  let kept := vall.filter (s.heldBack (dedup (d1 ++ vall)))
  let vdrop := vall.filter fun id => !kept.contains id
  let disc := s.withBound (d1 ++ vdrop)
  let done := rest.filter fun g => !out.contains g && decide (s.sample g disc = .commit)
  let held := rest.filter fun g => !out.contains g && decide (s.sample g disc = .held)
  let undecided := fun id => (rest.any fun g => !done.contains g && g.members.contains id)
    || held.any fun g => g.verifier == some id && decide (limit < g.holds + 1)
  let h := heldTasks s undecided disc s.tasks.length []
  let dropped := (dedup (gdrop ++ vdrop)).filter fun id => !marked.contains id
  { faulted := faulted, rerun := rerun.filter (fun id => !dropped.contains id), dropped := dropped,
    requeue := disc.filter fun id => !lost.contains id && !rerun.contains id && !pre.contains id && !dropped.contains id,
    commit := (ret.map Task.id).filter fun id => !disc.contains id && !h.contains id,
    carried := (s.tasks.filter fun t => aborts.contains t.id || carriedOn pre disc t).map Task.id, aborts := aborts,
    failing := failing, out := out, bad := out.filter (fun g => !g.dropped && decide (s.sample g [] = .bad)), done := done, held := held,
    kept := kept.filter fun id => !disc.contains id }

/-- A re-run after a tally mismatch (R102, R175): the failing core is excluded where another may be used. -/
def State.rerunTask (s : State) (id : Nat) : State :=
  match s.task? id with
  | none => s
  | some t =>
    let others := ((affinityCores t.desc).map fun i => 8 * t.cl + i).any fun c => !s.coreHole c && c != t.core
    let same := !others || t.spec || t.verifier
    let s := if same then (dedup t.badEngs).foldl (fun (s : State) e => s.countEng C.tallyRerunSame e) s else s
    let next := { t.cleared with stat := .pooled, attempt := t.attempt + 1, streak := t.streak + 1, excl := some t.core }
    (s.discardTask id true).modTask id fun _ => next

/-- A BAD_VERDICT event names the verifier's core and the verdict row (R177, Table 17-12). -/
def State.badVerdict (s : State) (g : Group) : State :=
  let s := s.count C.specBadVerdict g.cl
  match g.verdictRef with
  | some r => s.fault (agentCore (g.core.getD 0)) 0x03 0 g.gid (rowAddr r)
  | none => s

/-- Cycles 16 to 56: groups, commits, discards (R41, R42, R47). -/
def State.resolve (s : State) (x : Decision) (limit : Nat) : State :=
  let leaving := s.tasks.filter fun t => [x.faulted, x.rerun, x.dropped, x.requeue, x.commit].any fun l => l.contains t.id
  let over_ := x.failing ++ x.out
  let s := (over_.filter fun g => !g.dropped).foldl (fun (s : State) g => s.count C.specDiscard g.cl) s
  let s := x.bad.foldl (fun (s : State) g => s.badVerdict g) s
  let s := x.done.foldl (fun (s : State) g => s.count C.specCommit g.cl) s
  let s := x.held.foldl (fun (s : State) g => s.count C.specHeld g.cl) s
  let left := fun (g : Group) => g.members.filter x.kept.contains
  let groups := (s.groups.filter fun g => !x.failing.contains g && !(x.out.contains g && (left g).isEmpty)).map fun g =>
    if x.held.contains g then { g with holds := g.holds + 1, timedOut := decide (limit < g.holds + 1) }
    else if x.out.contains g then { g with members := left g, verifier := none, dropped := true }
    else if x.done.contains g then { g with won := true } else g
  let s : State := { s with groups := groups }
  let s := (s.commitTasks x.commit).finishVu (x.faulted ++ x.dropped ++ x.rerun ++ x.requeue)
  let s := (x.faulted ++ x.dropped).foldl (fun (s : State) id => s.discardTask id false) s
  let s := x.rerun.foldl (fun (s : State) id => s.rerunTask id) s
  let s := x.requeue.foldl (fun (s : State) id => s.requeueTask id) s
  -- a group whose commit is decided lasts until its last member has gone; a verifier without members leaves nothing to decide
  let here := fun (g : Group) => if g.won then { g with members := g.members.filter fun id => (s.task? id).isSome } else g
  let s : State := { s with groups := (s.groups.map here).filter fun g => !g.members.isEmpty || match g.verifier with
    | some v => (s.task? v).isSome
    | none => false }
  s.wakeAfter leaving

/-! Carried tasks (R49). -/

/-- The carry counts of the tasks that the tick carries; those past the limit are marked for abort. -/
def State.carryTick (s : State) (x : Decision) : State :=
  let ts := s.tasks.filter fun t => x.carried.contains t.id
  let count := fun (t : Task) => if x.carried.contains t.id then { t with carry := t.carry + 1, abort := x.aborts.contains t.id } else t
  let s : State := { s with tasks := s.tasks.map count }
  ts.foldl (fun (s : State) t => s.count C.dspCarried t.cl) s

/-! Accounts (R312, R313). -/

/-- The cycles of the ending beat that can be charged (R312): an engine has no more than the beat's, and each of its cycles one job; a task that is
still there is named with its cluster and job. Anything else that an operand says is no cycle of this device (log 36). -/
def State.chargeable (s : State) (len : Nat) (l : List EngTime) : List EngTime :=
  l.filter fun x => decide (sumNat ((l.filter fun y => y.eng == x.eng).map EngTime.cycles) ≤ len)
    && match s.task? x.task with
      | some t => t.cl == x.eng / 16 && t.job == x.job
      | none => decide (x.task < s.taskSeq)

/-- The cycles of the ending beat go to their tasks, so that a refund covers every beat. -/
def State.addCycles (s : State) (l : List EngTime) : State :=
  { s with tasks := s.tasks.map fun (t : Task) => { t with cycles := t.cycles + sumNat ((l.filter fun q => q.task == t.id).map EngTime.cycles) } }

/-- Cycles by cluster and job: those of tasks that have gone during the beat are charged too (R56). -/
def byJob (l : List EngTime) : List (Nat × Nat × Nat) := l.map fun q => (q.eng / 16, q.job, q.cycles)

def cyclesOf (l : List (Nat × Nat × Nat)) (cl j : Nat) : Nat :=
  sumNat ((l.filter fun (q : Nat × Nat × Nat) => q.1 == cl && q.2.1 == j).map fun q => q.2.2)

/-- R313 in one cluster: charges less refunds, then the normalization. -/
def State.settleAccts (s : State) (charged refunds : List (Nat × Nat × Nat)) (cl : Nat) : State :=
  let s := (List.range 16).foldl (fun (s : State) j =>
    let c := cyclesOf charged cl j; let r := cyclesOf refunds cl j
    if c = 0 ∧ r = 0 then s else
    let u := (s.rd (.dspUsed cl j)).toNat; let a := (s.rd (.dspAcct cl j)).toNat
    (s.wr (.dspUsed cl j) (BitVec.ofNat 64 (u + c - r))).wr (.dspAcct cl j) (BitVec.ofNat 64 (a + c - r))) s
  let run := (List.range 16).filter fun j => s.flag (.dspJob cl j) F.dspJobRun && decide (0 < s.fld (.dspJob cl j) F.dspJobShares)
  let ratio := fun (j : Nat) => (s.rd (.dspAcct cl j)).toNat / s.fld (.dspJob cl j) F.dspJobShares
  match run.map ratio with
  | [] => s
  | x :: xs =>
    let m := xs.foldl min x
    if m = 0 then s else
    run.foldl (fun (s : State) j =>
      s.wr (.dspAcct cl j) (BitVec.ofNat 64 ((s.rd (.dspAcct cl j)).toNat - m * s.fld (.dspJob cl j) F.dspJobShares))) s

def State.accounts (s : State) (charged refunds : List (Nat × Nat × Nat)) : State :=
  ((List.range 12).filter s.partEn).foldl (fun (s : State) p => (s.clustersOf p).foldl (fun (s : State) cl => s.settleAccts charged refunds cl) s) s

/-! The beat at cycle 0 (R34 to R37). -/

/-- The beat that ends at a tick has had so many cycles; before the first tick there was none. -/
def State.beatRan (s : State) : Nat :=
  if !s.beat.ticked then 0 else (((s.fld .beatLen F.beatLenCycles : Nat) : Int) + s.beat.running).toNat

/-- A long pulse whose beat has a number that is no multiple of 256 (R38). -/
def State.markSkew (s : State) (n : Nat) : State :=
  if n % 256 = 0 then s else ((s.setFld .beatSync F.beatSyncMarkSkew 1).count C.beatMarkSkew 0).fault agentMgmt 0x0A 0 0 n

/-- BEAT_NUMBER, the BEAT block's apply, BEAT_OUT, and the beat's length; a long pulse that came ahead of this tick is held to its number. -/
def State.beatEdge (s : State) (checks : List (Blk × Nat)) : State :=
  let mine := checks.find? fun c => decide (c.1 = Blk.beat)
  let takes := decide (mine = some (Blk.beat, 0)) && s.beat.setPending
  let n : Word := if takes then s.rdS .beatNumberSet else s.beatNo + 1
  let due := s.beat.markDue
  let b : Beat := ⟨s.beat.setPending && !takes, s.beat.lockRun, s.beat.pulseTick, 0, s.beat.adjust, s.beat.since + 1, s.beatRan, false, true⟩
  let s : State := { s.wr .beatNumber n with beat := b }
  let s := if due then s.markSkew n.toNat else s
  let s := match mine with
    | some (b, k) => s.applyBlk b k
    | none => s
  let mode := s.fld .beatSync F.beatSyncMode
  if mode = 1 ∨ mode = 2 then s.emit (.pulse (if n.toNat % 256 = 0 then 32 else 8)) else s

/-! Applies at cycle 48 (R52, R344). -/

/-- Every other checked block takes effect or is refused; requests parked on hatches that close are answered. -/
def State.applyTick (s : State) (checks : List (Blk × Nat)) : State :=
  let opened := s.liveGates.flatMap fun g => ((s.listedOf (hatchNo g)).filter fun i => (s.hatchAt g i).state == 1).map fun i => (g, i)
  let s := (checks.filter fun c => !decide (c.1 = Blk.beat)).foldl (fun (s : State) c => s.applyBlk c.1 c.2) s
  let closing := opened.filter fun (q : Nat × Nat) => (s.hatchAt q.1 q.2).state != 1
  if closing.isEmpty then s else s.retryParked fun e => e.row.isSome && closing.any fun q => q.2 == e.hatch

/-- What an apply means for the command that waits for it: its end, its refusal, or, for blocks disarmed meanwhile, another request. -/
def State.applied1 (s : State) (checks : List (Blk × Nat)) (o : FwOut) (bs : List Blk) : State :=
  let found := bs.filterMap fun b => checks.find? fun c => decide (c.1 = b)
  match found.find? fun c => c.2 != 0 with
  | some c => (s.fwRefused bs).endCmd o ⟨KS.badArg, 0, 0, blockCode c.1, c.2⟩
  | none =>
    let left := bs.filter fun b => !found.any fun c => decide (c.1 = b)
    if left.isEmpty then s.fwApplied o
    else (s.fwArm (left.filter fun b => !s.armed b)).setWait o (.apply left)

def State.appliesDone (s : State) (checks : List (Blk × Nat)) : State :=
  s.fw.foldl (fun (s : State) o => match o.wait with
    | .apply bs => s.applied1 checks o bs
    | _ => s) s

/-! What firmware does at a tick. -/

/-- Seals and unseals (R218, R223): each beat in which an unseal finds its tensor pinned is counted. -/
def State.sealTick (s : State) : State :=
  s.seals.foldl (fun (s : State) w =>
    if !w.undo || s.pinsClear w.tensor then s.sealNow w
    else
      let e := s.tt w.tensor
      ({ s with seals := s.seals.map fun x => if x.tensor = w.tensor then { x with waited := true } else x } : State).countJob C.ttPinWait e.part e.job) s

/-- Commands that a tick performs or tries again. -/
def State.fwTick (s : State) : State :=
  s.fw.foldl (fun (s : State) o => match o.wait with
    | .kill p j => if decide ((s.job p j).stat = .killing) then s else s.killStart p j
    | .stepStart p j => s.stepStart p j (o.body 16 0 48) (BitVec.ofNat 32 (o.body 24 0 32))
    | .pageOut _ => (match s.performPageOut o with
      | .done e s => s.endCmd o e
      | .wait _ s => s
      | .silent s => s)
    | _ => s) s

/-- What kills and partition resets have come to takes effect (R309, R318, R319): views of a killed job's tensors go once its storage is scrubbed, and
once its pages are zero the job is FREE; a partition whose reset is over is READY. -/
def State.endTick (s : State) : State :=
  let s := (List.range 192).foldl (fun (s : State) k =>
    let p := k / 16; let j := k % 16
    let b := s.job p j
    if b.stat ≠ .killing then s
    else if b.scrubbed then (s.killDone p j).complete? (.kill p j) fun _ => .good
    else if b.drained && !b.viewless then s.killViews p j else s) s
  (List.range 12).foldl (fun (s : State) p =>
    if !(s.part p).resetOver then s else
    let destroy := s.fw.any fun o => decide (o.wait = FwWait.reset p true)
    ((s.resetEnd p destroy).complete? (.reset p true) fun _ => .good).complete? (.reset p false) fun _ => .good) s

/-- Every JOB_STOP whose job has stopped completes, whatever stopped it. -/
def State.stopsDone (s : State) : State :=
  s.fw.foldl (fun (s : State) o => match o.wait with
    | .stop p j => if decide ((s.job p j).stat = .stopped) then s.endCmd o .good else s
    | _ => s) s

/-- Partition resets begin (R318). -/
def State.resetTick (s : State) : State :=
  s.fw.foldl (fun (s : State) o => match o.wait with
    | .reset p _ => if s.fld (.mgtPart p) F.mgtPartState = 1 then s.resetStart p else s
    | _ => s) s

/-! Ports, entropy, cores, windows. -/

/-- Refusal buckets refill; a throttled beat that follows another kind of beat posts a LINK event (R340). -/
def State.portTick (s : State) (p : Nat) : State :=
  let x := s.port p
  let r := Reg.gateNack (gateOf p)
  let next := { x with bucket := min (s.fld r F.gateNackBurst) (x.bucket + s.fld r F.gateNackRate), wasDry := x.dry, dry := false }
  let s := s.setPort p next
  if !x.dry then s else
  let s := s.count C.gateNackThrottled p
  if x.wasDry then s else s.linkCount p C.gateNackThrottled

/-- Health of the entropy sources: 1 failed in this beat, 2 a clean beat runs, 0 such a beat is over (R74). -/
def healthNext (n : Nat) : Nat := if n = 1 then 2 else 0

/-- Watchdogs count beats in which a RUNNING task issues nothing (R427). -/
def State.coreTick (s : State) : State :=
  let run := (s.tasks.filter fun t => decide (t.stat = .running)).map Task.core
  let s : State := { s with
    cores := SMap.mapVals (fun _ => Core.init) (fun i (k : Core) =>
      { k with rngBeat := healthNext k.rngBeat, active := false, quiet := if run.contains i && !k.active then k.quiet + 1 else 0 }) s.cores,
    grng := SMap.mapVals (fun _ => (0, false)) (fun _ (x : Word × Bool) => (BitVec.ofNat 64 (healthNext x.1.toNat), x.2)) s.grng }
  (dedup run).foldl (fun (s : State) c => if (SMap.find? s.cores c).isSome then s else s.setCore c { Core.init with quiet := 1 }) s

def State.windowTick (s : State) : State :=
  { s with window_ := s.window_.map fun w => { w with started := w.started.map fun n => n - 1 } }

/-! The row TICK. -/

/-- The jobs that this tick stops: RUN cleared by an apply, JOB_STOP, firmware's stops, and those that park while the host is lost (R309, R316,
R430). -/
def State.stopping (s : State) (checks : List (Blk × Nat)) : List (Nat × Nat) :=
  let byApply := checks.flatMap fun (c : Blk × Nat) => match c.1 with
    | .dsp cl => if c.2 ≠ 0 then [] else match s.partOfCluster cl with
      | some p => (List.range 16).filterMap fun j =>
          if s.flag (.dspJob cl j) F.dspJobRun && !bitAt (s.rdS (.dspJob cl j)) 0 then some (p, j) else none
      | none => []
    | _ => []
  let byStop := s.fw.filterMap fun o => match o.wait with
    | .stop p j => some (p, j)
    | _ => none
  let byLoss := if !s.hostLost then [] else (List.range 12).flatMap fun p => (List.range 16).filterMap fun j =>
    let share := s.seqCfg p
    if decide ((s.job p j).stage = .none) && !(share.en && share.job == j && decide ((s.part p).phase = 1 ∨ (s.part p).phase = 2)) then some (p, j)
    else none
  let byFw := ((List.range 192).map fun k => (k / 16, k % 16)).filter fun q => (s.job q.1 q.2).stopDue
  (dedup (byApply ++ byStop ++ byFw ++ byLoss)).filter fun q => decide ((s.job q.1 q.2).stat = .running)

/-- Partitions whose reset this tick begins. -/
def State.resetsNow (s : State) : List Nat :=
  dedup (s.fw.filterMap fun o => match o.wait with
    | .reset p _ => if s.fld (.mgtPart p) F.mgtPartState = 1 then some p else none
    | _ => none)

/-- The jobs whose kill this tick begins. -/
def State.killsNow (s : State) : List (Nat × Nat) :=
  dedup (s.fw.filterMap fun o => match o.wait with
    | .kill p j => if decide ((s.job p j).stat = .killing) then none else some (p, j)
    | _ => none)

/-- Executing tasks of the jobs that a tick stops or kills and of the partitions whose reset it begins or which it rolls back (R57, R316, R318, R324,
R428). -/
def State.stopped (s : State) (jobs : List (Nat × Nat)) (parts : List Nat) : List Nat :=
  (s.tasks.filter fun t => t.resident && match s.partOfCluster t.cl with
    | some p => parts.contains p || jobs.contains (p, t.job)
    | none => false).map Task.id

/-- A job stops: with its event where it is for a fault. -/
def State.stopNow (s : State) (p j : Nat) : State :=
  let b := s.job p j
  if b.stopDue && b.stopSource != 0 then s.stopForFault p j
  else
    let s := s.preempt p j
    s.setJob p j { s.job p j with stopDue := false }

/-- Views of partitions whose boundary no step marks: in scoring, or between steps, a tick at which every task has committed and every channel
is IDLE is one (DESIGN CHOICE, log 34; R225, R268, R269). -/
def State.adoptIdle (s : State) : State :=
  (List.range 12).foldl (fun (s : State) p =>
    if s.partEn p && !(decide ((s.part p).phase = 1) && s.shareEn p) && s.phaseReady p then s.adoptViews p else s) s

/-- One tick (Table 2-7). A router forwards what it holds within the row that sends it: the priority classes of R18 order nothing else. -/
def State.tick (s : State) (m : TickIn) : State :=
  let limit := s.fld .beatCtrl F.beatCtrlCarryLimit
  let checks := s.checkAll
  let stops := s.stopping checks
  let rolls := s.rollsNow.filter fun p => !s.resetsNow.contains p
  let pre := s.stopped (stops ++ s.killsNow) (s.resetsNow ++ rolls)
  let cycles := s.chargeable s.beatRan m.cycles
  let charged := byJob cycles
  -- cycle 0
  let s := ({ s.addCycles cycles with late := [] } : State).takeTemps m.temps
  let s := ((s.powerTick m).beatEdge checks).deadlineTick
  let s := (List.range 12).foldl (fun (s : State) p => s.portTick p) s
  -- cycles 16 to 56
  let x := s.decide_ pre limit
  let refunds := x.rerun.filterMap fun id => (s.task? id).map fun t => (t.cl, t.job, t.cycles)
  let s := (((s.carryTick x).resolve x limit).dropLate).applyTick checks
  let s := stops.foldl (fun (s : State) q => s.stopNow q.1 q.2) s
  let s := s.resetTick
  -- cycle 64
  let s := (s.accounts charged refunds).latch.appliesDone checks
  let s := s.fwTick.endTick.stopsDone
  let s := ((s.deathTick rolls).resultTick.adoptIdle.sealTick.settleRun).restoreTick.postWin
  let s := s.tithes.foldl (fun (s : State) (t : TitheRun) => if t.unsent = 0 then s else s.pushTithe t.id 64) s.applyTrims
  s.pushPackets.coreTick.windowTick.bringTick.turns

/-- TICK (R58). While no tick is generated the sensors' readings come all the same: the management plane runs from the auxiliary rail (R19). A reading at the
trip point trips (R449). -/
def execTick (m : TickIn) (s : State) : Res :=
  .next ((if s.flag .beatCtrl F.beatCtrlRun then s.tick m else s.takeTemps m.temps).tripHot m.temps)

/-! The rows that a tick leads to. -/

/-- The fault report of a group's verifier (R47): one in the pool with the group's core, SLOT 0 and PC 0, one that has committed as it stood. -/
def State.reportVerifier (s : State) (g : Group) : State :=
  match g.verifier, g.vgone with
  | some v, _ =>
    match s.task? v, g.vgone with
    | some t, _ =>
      let s := if t.stat = .pooled then s.setTask { t with core := g.core.getD (8 * g.cl), slot := 0, pc := 0 } else s
      s.taskFault v 9 (if t.stat = .pooled then 0 else t.pc) 0 0
    | none, some t => s.reportFault t ⟨9, t.pc, t.slot, s.beatNo, 0, 0⟩
    | none, none => s
  | none, _ => s

/-- VERDICT_TIMEOUT (R47). -/
def execVerdictTimeout (cl group : Nat) (s : State) : Res :=
  unitOk (clOk cl) <|
  match s.groups.find? fun g => g.cl == cl && g.gid == group && g.timedOut with
  | none => .next s
  | some g => .next <|
    let ids := s.groupTasks [g]
    let leaving := s.tasks.filter fun t => (s.withBound ids).contains t.id
    let s := (((s.count C.specDiscard cl).reportVerifier g).finishVu (leaving.map Task.id)).removeTasks ids
    ({ s with groups := s.groups.filter fun x => !decide (x = g) } : State).wakeAfter leaving

/-- CARRY_LIMIT_ABORT (R49). -/
def execCarryLimitAbort (task : Nat) (s : State) : Res :=
  match s.task? task with
  | none => .next s
  | some t => need t.abort s <| .next <|
    let leaving := s.tasks.filter fun t => (s.withBound [task]).contains t.id
    let s := (s.count C.dspCarryAbort t.cl).taskFault task 5 t.pc 0 0
    ((s.finishVu (leaving.map Task.id)).removeTasks [task]).wakeAfter leaving

/-! The beat pins (R37, R38). -/

/-- LOCKED is cleared (R37). -/
def State.loseLock (s : State) : State :=
  let s : State := { s with beat := { s.beat with lockRun := 0 } }
  if !s.flag .beatSync F.beatSyncLocked then s else
  ((s.setFld .beatSync F.beatSyncLocked 0).setFld .beatSync F.beatSyncLockLost 1).fault agentMgmt 0x09 0 0 0

/-- Limit an integer to -n to n. -/
def clampInt (n : Nat) (i : Int) : Int := max (-(n : Int)) (min n i)

/-- BEAT_IN_PULSE (R37, R38). `lag` is the own tick's time less the pulse's arrival, in cycles; the arrival less BEAT_IN_DELAY is what
e is measured against. A pulse before its tick belongs to the coming tick, any other to the last one; a run of beats in tolerance is of
consecutive ticks. -/
def State.beatIn (s : State) (lag : Int) (long : Bool) : State :=
  let e := lag + ((s.fld .beatSync F.beatSyncInDelay : Nat) : Int)
  let s := s.setFld .beatSync F.beatSyncPhaseErr (twos 8 (clampInt 127 e))
  let ahead := if 0 < lag then 1 else 0
  let next := match s.beat.pulseTick with
    | some a => decide (s.beat.since + ahead = a + 1)
    | none => false
  let run := if 16 < e.natAbs then 0 else if next then s.beat.lockRun + 1 else 1
  let s : State := { s with beat := { s.beat with adjust := clampInt 8 e, since := 0, lockRun := run, pulseTick := some ahead } }
  let s := if 64 < e.natAbs then s.loseLock else if 16 ≤ run then s.setFld .beatSync F.beatSyncLocked 1 else s
  if !long then s
  else if ahead = 1 then { s with beat := { s.beat with markDue := true } }
  else s.markSkew s.beatNo.toNat

def State.follows (s : State) : Bool := decide (s.fld .beatSync F.beatSyncMode = 2)

/-- BEAT_IN_PULSE (R37, R38); in the other modes BEAT_IN is ignored (Table 2-1). -/
def execBeatInPulse (lag : Int) (long : Bool) (s : State) : Res := .next (if s.follows then s.beatIn lag long else s)

/-- BEAT_IN_LOSS (R37). DESIGN CHOICE (log 30): LOCKED, the run of beats in tolerance and the ticks since the last pulse stand and count on while
MODE is not FOLLOW, so that a loss may be found at once after MODE enters FOLLOW. -/
def execBeatInLoss (s : State) : Res := need (s.follows && decide (2 ≤ s.beat.since)) s <| .next s.loseLock

end Sys2Proof.Machine
end

