-- ==== Sys2Proof/Machine/Dispatch.lean ====
section
/-! DEFINITION. The meaning of every command, one arm per row of the table. -/

namespace Sys2Proof.Machine

def exec (i : Instr) (s : State) : Host.Outcome State Fault Refusal :=
  match i with
  | .tick m => Sys2Proof.Machine.execTick m s
  | .verdictTimeout cl group => Sys2Proof.Machine.execVerdictTimeout cl group s
  | .carryLimitAbort task => Sys2Proof.Machine.execCarryLimitAbort task s
  | .beatRun => Sys2Proof.Machine.execBeatRun s
  | .beatNumberSetWrite agent v => Sys2Proof.Machine.execBeatNumberSetWrite agent v s
  | .arm b late => Sys2Proof.Machine.execArm b late s
  | .disarm b withArm => Sys2Proof.Machine.execDisarm b withArm s
  | .shadowWrite agent addr v => Sys2Proof.Machine.execShadowWrite agent addr v s
  | .registerWrite agent addr v => Sys2Proof.Machine.execRegisterWrite agent addr v s
  | .beatInPulse lag long => Sys2Proof.Machine.execBeatInPulse lag long s
  | .beatInLoss => Sys2Proof.Machine.execBeatInLoss s
  | .descLoad cl d => Sys2Proof.Machine.execDescLoad cl d s
  | .dispatch cl => Sys2Proof.Machine.execDispatch cl s
  | .ctlEnd core => Sys2Proof.Machine.execCtlEnd core s
  | .ctlFence core => Sys2Proof.Machine.execCtlFence core s
  | .meLoad core => Sys2Proof.Machine.execMeLoad core s
  | .meStream core upsets => Sys2Proof.Machine.execMeStream core upsets s
  | .meDrain core => Sys2Proof.Machine.execMeDrain core s
  | .vuLd core => Sys2Proof.Machine.execVuLd core s
  | .vuSt core => Sys2Proof.Machine.execVuSt core s
  | .vuOp core => Sys2Proof.Machine.execVuOp core s
  | .vuTx core => Sys2Proof.Machine.execVuTx core s
  | .vuReduce core => Sys2Proof.Machine.execVuReduce core s
  | .vuTapld core => Sys2Proof.Machine.execVuTapld core s
  | .vuNbwd core => Sys2Proof.Machine.execVuNbwd core s
  | .rowBufferGrant core => Sys2Proof.Machine.execRowBufferGrant core s
  | .mvpRun core => Sys2Proof.Machine.execMvpRun core s
  | .mvpGlean core => Sys2Proof.Machine.execMvpGlean core s
  | .spEnc core => Sys2Proof.Machine.execSpEnc core s
  | .dmaKick core => Sys2Proof.Machine.execDmaKick core s
  | .tagTake core => Sys2Proof.Machine.execTagTake core s
  | .tagWait core => Sys2Proof.Machine.execTagWait core s
  | .siloPush core => Sys2Proof.Machine.execSiloPush core s
  | .siloPop core => Sys2Proof.Machine.execSiloPop core s
  | .ccCount core => Sys2Proof.Machine.execCcCount core s
  | .gaGather use_ => Sys2Proof.Machine.execGaGather use_ s
  | .rowStateRetry r err => Sys2Proof.Machine.execRowStateRetry r err s
  | .taskRetire core slot => Sys2Proof.Machine.execTaskRetire core slot s
  | .faultJobStop part job => Sys2Proof.Machine.execFaultJobStop part job s
  | .stationaryShiftIn core eng => Sys2Proof.Machine.execStationaryShiftIn core eng s
  | .engineRelease core u => Sys2Proof.Machine.execEngineRelease core u s
  | .cacheFillComplete core fill => Sys2Proof.Machine.execCacheFillComplete core fill s
  | .ccInvalidate cl => Sys2Proof.Machine.execCcInvalidate cl s
  | .rngHealthFail u => Sys2Proof.Machine.execRngHealthFail u s
  | .rngFallbackExit u => Sys2Proof.Machine.execRngFallbackExit u s
  | .patrolScrub cl found => Sys2Proof.Machine.execPatrolScrub cl found s
  | .lpddrPatrol g hits => Sys2Proof.Machine.execLpddrPatrol g hits s
  | .pageWalk via page => Sys2Proof.Machine.execPageWalk via page s
  | .bringupDone landing => Sys2Proof.Machine.execBringupDone landing s
  | .deadlineMiss cl ch => Sys2Proof.Machine.execDeadlineMiss cl ch s
  | .accumWrite part job addr data final => Sys2Proof.Machine.execAccumWrite part job addr data final s
  | .epochClearDone part job => Sys2Proof.Machine.execEpochClearDone part job s
  | .unsealPinsClear tensor => Sys2Proof.Machine.execUnsealPinsClear tensor s
  | .dmaDescStart cl ch => Sys2Proof.Machine.execDmaDescStart cl ch s
  | .dmaRingFetch cl ch => Sys2Proof.Machine.execDmaRingFetch cl ch s
  | .dmaTransferEnd cl ch => Sys2Proof.Machine.execDmaTransferEnd cl ch s
  | .dmaRecordFlush cl ch => Sys2Proof.Machine.execDmaRecordFlush cl ch s
  | .firmwareCopyStart cl ch => Sys2Proof.Machine.execFirmwareCopyStart cl ch s
  | .dmaResume cl chan => Sys2Proof.Machine.execDmaResume cl chan s
  | .dmaAbandon cl ch => Sys2Proof.Machine.execDmaAbandon cl ch s
  | .dmaRestart cl ch => Sys2Proof.Machine.execDmaRestart cl ch s
  | .pfStaleRefetch r => Sys2Proof.Machine.execPfStaleRefetch r s
  | .remoteTimeout gate tag => Sys2Proof.Machine.execRemoteTimeout gate tag s
  | .killDrainDone part job => Sys2Proof.Machine.execKillDrainDone part job s
  | .killScrubComplete part job => Sys2Proof.Machine.execKillScrubComplete part job s
  | .endOfBackward part job => Sys2Proof.Machine.execEndOfBackward part job s
  | .devicePacketFormed part job => Sys2Proof.Machine.execDevicePacketFormed part job s
  | .reductionComplete part job rows => Sys2Proof.Machine.execReductionComplete part job rows s
  | .reduceTimeout part job rows => Sys2Proof.Machine.execReduceTimeout part job rows s
  | .resultWaitTimeout part job => Sys2Proof.Machine.execResultWaitTimeout part job s
  | .reductionResult part job rows => Sys2Proof.Machine.execReductionResult part job rows s
  | .phaseChange part => Sys2Proof.Machine.execPhaseChange part s
  | .winGo g => Sys2Proof.Machine.execWinGo g s
  | .winRelease g => Sys2Proof.Machine.execWinRelease g s
  | .winWithhold g => Sys2Proof.Machine.execWinWithhold g s
  | .winPassDone part job => Sys2Proof.Machine.execWinPassDone part job s
  | .layerNormResult part job record pkt => Sys2Proof.Machine.execLayerNormResult part job record pkt s
  | .genStepBoundary part => Sys2Proof.Machine.execGenStepBoundary part s
  | .partitionResetDone part => Sys2Proof.Machine.execPartitionResetDone part s
  | .hatchClosedDone hatch => Sys2Proof.Machine.execHatchClosedDone hatch s
  | .portRekey port => Sys2Proof.Machine.execPortRekey port s
  | .segmentRekey port => Sys2Proof.Machine.execSegmentRekey port s
  | .linkTrained port => Sys2Proof.Machine.execLinkTrained port s
  | .linkTrainTimeout port => Sys2Proof.Machine.execLinkTrainTimeout port s
  | .authTimeout port => Sys2Proof.Machine.execAuthTimeout port s
  | .linkBerWindow port bits words uncorr => Sys2Proof.Machine.execLinkBerWindow port bits words uncorr s
  | .linkLockLoss port fourth => Sys2Proof.Machine.execLinkLockLoss port fourth s
  | .linkRetrain port fourth => Sys2Proof.Machine.execLinkRetrain port fourth s
  | .replayTimer port => Sys2Proof.Machine.execReplayTimer port s
  | .nakTimer port => Sys2Proof.Machine.execNakTimer port s
  | .ackTimer port => Sys2Proof.Machine.execAckTimer port s
  | .frameWrite port f => Sys2Proof.Machine.execFrameWrite port f s
  | .frameWriteOw port f => Sys2Proof.Machine.execFrameWriteOw port f s
  | .frameAccum port f => Sys2Proof.Machine.execFrameAccum port f s
  | .frameCountReq port f => Sys2Proof.Machine.execFrameCountReq port f s
  | .frameSreduce port f => Sys2Proof.Machine.execFrameSreduce port f s
  | .frameRdata port f => Sys2Proof.Machine.execFrameRdata port f s
  | .frameBatch port f => Sys2Proof.Machine.execFrameBatch port f s
  | .ctlAck port hdr => Sys2Proof.Machine.execCtlAck port hdr s
  | .ctlNak port hdr => Sys2Proof.Machine.execCtlNak port hdr s
  | .ctlReplay port hdr => Sys2Proof.Machine.execCtlReplay port hdr s
  | .ctlSegTag port hdr gcm => Sys2Proof.Machine.execCtlSegTag port hdr gcm s
  | .ctlHandshake port msg => Sys2Proof.Machine.execCtlHandshake port msg s
  | .ctlIdle port hdr => Sys2Proof.Machine.execCtlIdle port hdr s
  | .moduleTrainRequest mdl => Sys2Proof.Machine.execModuleTrainRequest mdl s
  | .moduleTrained mdl lanes repaired => Sys2Proof.Machine.execModuleTrained mdl lanes repaired s
  | .moduleTrainTimeout mdl => Sys2Proof.Machine.execModuleTrainTimeout mdl s
  | .moduleLinkLoss mdl => Sys2Proof.Machine.execModuleLinkLoss mdl s
  | .hostRead mdl hdr => Sys2Proof.Machine.execHostRead mdl hdr s
  | .hostWrite mdl hdr data => Sys2Proof.Machine.execHostWrite mdl hdr data s
  | .sidebandAccess mdl hdr data => Sys2Proof.Machine.execSidebandAccess mdl hdr data s
  | .hostLoss => Sys2Proof.Machine.execHostLoss s
  | .mailboxWrite b n sender data => Sys2Proof.Machine.execMailboxWrite b n sender data s
  | .mailboxRead b n reader => Sys2Proof.Machine.execMailboxRead b n reader s
  | .mailboxWaitTimeout b n => Sys2Proof.Machine.execMailboxWaitTimeout b n s
  | .lockRead b k agent => Sys2Proof.Machine.execLockRead b k agent s
  | .lockRelease b k agent => Sys2Proof.Machine.execLockRelease b k agent s
  | .lockForce b k agent => Sys2Proof.Machine.execLockForce b k agent s
  | .deviceReset c => Sys2Proof.Machine.execDeviceReset c s
  | .partitionCreate c => Sys2Proof.Machine.execPartitionCreate c s
  | .partitionDestroy c => Sys2Proof.Machine.execPartitionDestroy c s
  | .partitionReset c => Sys2Proof.Machine.execPartitionReset c s
  | .jobStart c => Sys2Proof.Machine.execJobStart c s
  | .jobStop c => Sys2Proof.Machine.execJobStop c s
  | .jobKill c => Sys2Proof.Machine.execJobKill c s
  | .tensorSeal c => Sys2Proof.Machine.execTensorSeal c s
  | .tensorUnseal c => Sys2Proof.Machine.execTensorUnseal c s
  | .stepVoid c => Sys2Proof.Machine.execStepVoid c s
  | .phaseSet c => Sys2Proof.Machine.execPhaseSet c s
  | .layerNorm c => Sys2Proof.Machine.execLayerNorm c s
  | .seqCancel c => Sys2Proof.Machine.execSeqCancel c s
  | .hatchClose c => Sys2Proof.Machine.execHatchClose c s
  | .powerLimit c => Sys2Proof.Machine.execPowerLimit c s
  | .powerWeight c => Sys2Proof.Machine.execPowerWeight c s
  | .telemetry c => Sys2Proof.Machine.execTelemetry c s
  | .deviceQuery c => Sys2Proof.Machine.execDeviceQuery c s
  | .inventory c => Sys2Proof.Machine.execInventory c s
  | .envSet c => Sys2Proof.Machine.execEnvSet c s
  | .beatConfig c => Sys2Proof.Machine.execBeatConfig c s
  | .imageLoad c found => Sys2Proof.Machine.execImageLoad c found s
  | .seedpackLoad c => Sys2Proof.Machine.execSeedpackLoad c s
  | .calRead c => Sys2Proof.Machine.execCalRead c s
  | .calWrite c => Sys2Proof.Machine.execCalWrite c s
  | .attestQuote c => Sys2Proof.Machine.execAttestQuote c s
  | .jobConfig c => Sys2Proof.Machine.execJobConfig c s
  | .tensorRegister c => Sys2Proof.Machine.execTensorRegister c s
  | .pageMap c => Sys2Proof.Machine.execPageMap c s
  | .pageIn c => Sys2Proof.Machine.execPageIn c s
  | .pageOut c => Sys2Proof.Machine.execPageOut c s
  | .layerRegister c => Sys2Proof.Machine.execLayerRegister c s
  | .jobRestore c => Sys2Proof.Machine.execJobRestore c s
  | .titheConfig c => Sys2Proof.Machine.execTitheConfig c s
  | .stepConfig c => Sys2Proof.Machine.execStepConfig c s
  | .stepBegin c => Sys2Proof.Machine.execStepBegin c s
  | .stepResult c => Sys2Proof.Machine.execStepResult c s
  | .seqConfig c => Sys2Proof.Machine.execSeqConfig c s
  | .seqJoin c => Sys2Proof.Machine.execSeqJoin c s
  | .linkConfig c => Sys2Proof.Machine.execLinkConfig c s
  | .hatchOpen c => Sys2Proof.Machine.execHatchOpen c s
  | .testWindow c => Sys2Proof.Machine.execTestWindow c s
  | .countersRead c => Sys2Proof.Machine.execCountersRead c s
  | .counterSnapshot gauges => Sys2Proof.Machine.execCounterSnapshot gauges s
  | .testWindowStart => Sys2Proof.Machine.execTestWindowStart s
  | .testWindowEnd results recaptured => Sys2Proof.Machine.execTestWindowEnd results recaptured s
  | .coreWatchdog core => Sys2Proof.Machine.execCoreWatchdog core s
  | .rowRetireCopyDone dev ch row => Sys2Proof.Machine.execRowRetireCopyDone dev ch row s
  | .mgtResetRelease => Sys2Proof.Machine.execMgtResetRelease s
  | .powerGoodLoss pin => Sys2Proof.Machine.execPowerGoodLoss pin s
  | .thermalTrip site index sensor => Sys2Proof.Machine.execThermalTrip site index sensor s
  | .jtagExtest => Sys2Proof.Machine.execJtagExtest s
  | .jtagSamplePreload pre => Sys2Proof.Machine.execJtagSamplePreload pre s
  | .jtagIdcode => Sys2Proof.Machine.execJtagIdcode s
  | .jtagClamp => Sys2Proof.Machine.execJtagClamp s
  | .jtagHighz => Sys2Proof.Machine.execJtagHighz s
  | .jtagStatus => Sys2Proof.Machine.execJtagStatus s
  | .jtagBypass => Sys2Proof.Machine.execJtagBypass s
  | .jtagReset => Sys2Proof.Machine.execJtagReset s
  | .badCrcFrame port => Sys2Proof.Machine.execBadCrcFrame port s
  | .reservedTypeFrame port hdr => Sys2Proof.Machine.execReservedTypeFrame port hdr s
  | .mainPowerGood pin => Sys2Proof.Machine.execMainPowerGood pin s
  | .mainRailTimeout => Sys2Proof.Machine.execMainRailTimeout s
  | .atbSettle k code => Sys2Proof.Machine.execAtbSettle k code s

end Sys2Proof.Machine
end

