-- ==== Sys2Proof/Safety.lean ====
section
/-! DEFINITION. What a safe run is, in the terms the statements use. -/

namespace Sys2Proof.Machine

/-- Every store and register file is in its canonical form: keys rising, no entry equal to what an unlisted key holds. -/
def State.storesWf (s : State) : Bool :=
  SMap.wf rowInit s.rows && SMap.wf lpInit s.lpddr && SMap.wf zeroByte s.window
    && SMap.wf resetAt s.regs && SMap.wf resetAt s.shadow && SMap.wf zeroNat s.ctrs

/-- The tasks of the device have different arrival numbers, all below the next one. -/
def State.taskIdsOk (s : State) : Prop :=
  (s.tasks.map Task.id).Nodup ∧ ∀ t ∈ s.tasks, t.id < s.taskSeq

/-- The task that issues on a core and its next command word, where the word can be fetched, no issued command of the task waits and nothing
stops the task. -/
def State.nextCmd (s : State) (core : Nat) : Option (Task × CmdWord) :=
  match s.running core with
  | none => none
  | some t =>
    if t.abort || s.waiting t || !decide (s.task? t.id = some t) then none else
    match s.fetch t with
    | .ok w => some (t, w)
    | .error _ => none

/-- An engine as a task's next command finds it: its own, or freshly acquired (R80, R83). -/
def State.engFor (s : State) (t : Task) (e : Nat) : Eng :=
  if (s.eng e).owner = some t.id then s.eng e else { Eng.init with owner := some t.id, staging := (s.eng e).staging }

/-- An engine that a task owns, or may acquire. -/
def State.engFree (s : State) (t : Task) (e : Nat) : Prop := (s.eng e).owner = none ∨ (s.eng e).owner = some t.id

/-- A device with nothing to decide, apply or perform at a tick: no partition, job, task, group, armed block, outstanding command, seal,
winnower run, restore, tithe, dropped copy, transfer, packet, bring-up or calibration, and no core that has been used. -/
def State.quiet (s : State) : Prop :=
  (∀ p, s.partEn p = false) ∧ s.jobs = [] ∧ s.tasks = [] ∧ s.groups = [] ∧ s.armedNow = [] ∧ s.fw = [] ∧ s.seals = [] ∧ s.win = none
    ∧ s.restore = none ∧ s.tithes = [] ∧ s.copyGone = [] ∧ s.calDue = [] ∧ s.cores = []
    ∧ s.parts = [] ∧ s.chans = [] ∧ s.packetsOut = [] ∧ s.bring = none

/-- The task has issued one more command: it goes on, or completes after its PROG_LEN-th word (R166). -/
def State.issuedOne (u : State) (t : Task) : Prop :=
  ∃ t', u.task? t.id = some t' ∧ t'.pc = t.pc + 1 ∧ t'.stat = (if t.pc + 1 < t.progLen then TStat.running else .completing)

/-- Every row is FULL, and no other task than `id` has taken it. -/
def State.canRead (s : State) (id : Nat) (rs : List RowRef) : Prop :=
  ∀ r ∈ rs, (s.row r).tag = .full ∧ ((s.row r).taker = none ∨ (s.row r).taker = some id)

/-- Every row is EMPTY. -/
def State.writable (s : State) (rs : List RowRef) : Prop := ∀ r ∈ rs, (s.row r).tag = .empty

/-- Rows that hold what a task wrote and has not committed. -/
def State.pendingOf (s : State) (id : Nat) (rs : List RowRef) : Prop :=
  ∀ r ∈ rs, (s.row r).tag = .pending ∧ (s.row r).writer = some id

/-- Every row outside a list is as it was. -/
def State.rowsElsewhere (s t : State) (rs : List RowRef) : Prop :=
  ∀ r, (∀ x ∈ rs, rowKey x ≠ rowKey r) → t.row r = s.row r

/-- A firmware command that is performed when it is read: nothing is outstanding, its mailbox is read, and every check of Table 17-3
that needs no performing passes. -/
def State.fwFirst (s : State) (op : Nat) (c : FwCmd) : Prop :=
  fwOk c = true ∧ s.fwReads op c = true ∧ s.fw = [] ∧ s.readStatus (s.readCmd c) = 0

/-- Descriptor d is a COPY of one row of the SRAM stores, from a to b, that may run at once (R236 to R240): no row of the channel and fewer than
512 of the cluster are in flight. -/
def State.oneRow (s : State) (g : Agent) (d : Desc) (a b : RowRef) : Prop :=
  dOp d = 0 ∧ dElem d = false ∧ dAhead d = false ∧ dMaskEn d = false ∧ dSkind d = 0 ∧ dDkind d = 0 ∧ dTotal d = 1
    ∧ (s.chan g.cl g.ch).tail = [] ∧ s.clFlight g.cl < 512 ∧ (space (dSrc d) = 1 ∨ space (dSrc d) = 2) ∧ (space (dDst d) = 1 ∨ space (dDst d) = 2)
    ∧ s.sramRow g (dSrc d) 0 = some a ∧ s.sramRow g (dDst d) 0 = some b ∧ rowKey a ≠ rowKey b
    ∧ dmaReadOk (s.row a) (dTake d) = true ∧ fillOk (s.row b) (dOver d) = true

/-- What that copy leaves in the rows: the source's data and poison in b, a taken source EMPTY. -/
def State.copied (s u : State) (d : Desc) (a b : RowRef) : Prop :=
  u.row b = ⟨(s.row a).data, if (s.row a).tag = .poison then .poison else .full, none, none, none⟩
    ∧ u.row a = (if dTake d then { s.row a with tag := .empty, writer := none, taker := none, note := none } else s.row a)
    ∧ s.rowsElsewhere u [a, b] ∧ u.lpddr = s.lpddr

/-- Its transfer as it ends. -/
def State.oneRowDone (s : State) (x : Xfer) (a : RowRef) : Xfer :=
  { x with next := 1, rows := 1, poison := decide ((s.row a).tag = .poison) }

/-- The firmware commands by OP, all from one mailbox word. -/
def fwRows (c : FwCmd) (f : BringIn) : List (Nat × Instr) :=
  [(0x10, .imageLoad c f), (0x01, .deviceQuery c), (0x02, .inventory c), (0x03, .deviceReset c), (0x04, .envSet c),
    (0x05, .beatConfig c), (0x11, .seedpackLoad c), (0x12, .calRead c), (0x13, .calWrite c), (0x14, .attestQuote c),
    (0x20, .partitionCreate c), (0x21, .partitionDestroy c), (0x22, .partitionReset c), (0x23, .jobStart c), (0x24, .jobStop c),
    (0x25, .jobKill c), (0x27, .jobConfig c), (0x30, .tensorRegister c), (0x31, .tensorSeal c), (0x32, .tensorUnseal c),
    (0x33, .pageMap c), (0x34, .pageIn c), (0x35, .pageOut c), (0x36, .layerRegister c), (0x37, .jobRestore c),
    (0x38, .titheConfig c), (0x40, .stepConfig c), (0x41, .stepBegin c), (0x42, .stepResult c), (0x43, .stepVoid c),
    (0x44, .phaseSet c), (0x45, .layerNorm c), (0x50, .seqConfig c), (0x51, .seqJoin c), (0x52, .seqCancel c),
    (0x60, .linkConfig c), (0x61, .hatchOpen c), (0x62, .hatchClose c), (0x70, .powerLimit c), (0x71, .powerWeight c),
    (0x80, .testWindow c), (0x81, .countersRead c), (0x82, .telemetry c)]

/-- No firmware command is outstanding, and the completion record of c carries its CID and a status (Table 17-4). -/
def State.completed (u : State) (c : FwCmd) (status : Nat) : Prop :=
  u.fw = [] ∧ u.winRead (0x40000 + 64 * (c.cid % 1024)) 2 = status ∧ u.winRead (0x40000 + 64 * (c.cid % 1024) + 2) 2 = c.cid

/-- The one outstanding command is o, and it waits. -/
def State.waitsFor (u : State) (o : FwOut) (w : FwWait) : Prop := u.fw = [{ o with wait := w }]

/-- The host window holds the bytes of a list. -/
def State.holds (u : State) (a : Nat) (l : List Byte) : Prop := ∀ i, i < l.length → u.winByte (a + i) = l.getD i 0

/-- The shadow of a register is what firmware makes of it by writing a word: its RW-S fields take the word's. -/
def State.shadowed (s u : State) (r : Reg) (v : Nat) : Prop := u.rdS r = (s.fwShadow r (BitVec.ofNat 64 v)).rdS r

/-- Every block of a list is armed. -/
def State.allArmed (u : State) (bs : List Blk) : Prop := ∀ b ∈ bs, u.armed b = true

/-- A well-formed frame arrives, on loopback the next that the device has sent there, that the port passes up at once, with no request of the port
or its gate waiting before it. -/
def State.takesFrame (s : State) (p : Nat) (f : Frame) (crc : BitVec 32) : Prop :=
  ((p = 12 ∧ s.loop.head? = some f ∧ 0 ∉ s.shape.deadGate) ∨ (p < 12 ∧ s.portUp p = true ∧ (s.port p).nak = false ∧ (s.port p).rxArr = (s.port p).rxNext
    ∧ s.flag (.gatePort p) F.gatePortEncrypt = false ∧ crc = crc32 f))
    ∧ s.wellFormed p f = true ∧ (s.port p).rxHeld = [] ∧ (s.gate (gateOf p)).park = []

/-- The channel of an outstanding entry awaits, with it, the one row of a COPY from a remote hatch to row b of the SRAM stores, which may take it;
no other transfer of the channel is in flight. -/
def State.awaitsRow (s : State) (e : OtEnt) (d : Desc) (b : RowRef) : Prop :=
  dOp d = 0 ∧ dElem d = false ∧ dAhead d = false ∧ dMaskEn d = false ∧ dSkind d = 0 ∧ dDkind d = 0 ∧ dTotal d = 1 ∧ space (dSrc d) = 4
    ∧ (space (dDst d) = 1 ∨ space (dDst d) = 2) ∧ s.sramRow (s.agentOf e.cl e.ch) (dDst d) 0 = some b ∧ fillOk (s.row b) (dOver d) = true
    ∧ s.chState e.cl e.ch = 1 ∧ (s.chan e.cl e.ch).cur = none
    ∧ (s.chan e.cl e.ch).tail = [{ (Xfer.fresh e.xfer d) with next := 1, moves := [⟨0, [.asked], false⟩] }]

/-- A control frame of a kind arrives on a port that is up. -/
def State.ctlArrives (s : State) (p kind : Nat) (h : BitVec 96) : Prop := p < 12 ∧ s.portUp p = true ∧ fType h = 9 ∧ cKind h = kind

/-- A port in a state for a reason. -/
def State.portIn (s : State) (p st reason : Nat) : Prop := s.portState p = st ∧ s.fld (.gatePort p) F.gatePortReason = reason

/-- Nothing waits in the granaries or on a channel that the change of a page could let go on. -/
def State.still (s : State) : Prop := s.chans = [] ∧ s.arrivals = [] ∧ ∀ b ∈ s.bringups, b.held = []

/-- The stores of the two states are the same. -/
def State.sameMem (s t : State) : Prop := t.rows = s.rows ∧ t.lpddr = s.lpddr

/-- The two states differ in registers, in what was sent, in mailbox writes that wait, in completion words, in counters and in firmware's rotation at
most: what mailboxes change. -/
def State.mbxSame (s t : State) : Prop :=
  { t with regs := s.regs, outbox := s.outbox, mbxWaits := s.mbxWaits, cplq := s.cplq, ctrs := s.ctrs, fwTurn := s.fwTurn } = s

/-- The bits of a register that its field table lists. -/
def Reg.listed (r : Reg) : Word := r.fields.foldl (fun m f => m ||| fieldMask 64 f.lo f.len) 0

/-- The fields of a register lie within its 64 bits and apart from each other. -/
def Reg.fieldsApart (r : Reg) : Bool :=
  (r.fields.all fun f => decide (f.lo + f.len ≤ 64))
    && decide (r.fields.Pairwise fun f g => f.lo + f.len ≤ g.lo ∨ g.lo + g.len ≤ f.lo)

/-- Two states that differ in nothing but the registers in force, the shadows, the late arms, the beat generator's mark and what was
sent. -/
def State.sameStores (s t : State) : Prop :=
  t.rows = s.rows ∧ t.lpddr = s.lpddr ∧ t.window = s.window ∧ t.ctrs = s.ctrs ∧ t.tasks = s.tasks
    ∧ t.engs = s.engs ∧ t.chans = s.chans ∧ t.jobs = s.jobs ∧ t.parts = s.parts ∧ t.ports = s.ports ∧ t.gates = s.gates
    ∧ t.fw = s.fw ∧ t.nv = s.nv ∧ t.shape = s.shape ∧ t.pending = s.pending

end Sys2Proof.Machine
end

