-- ==== Sys2Proof/Certificates/Slice0/Obligations.lean ====
section
/-! DEFINITION. The statements of this model, for the provers. -/

open Sys2Proof Sys2Proof.Machine

/-! The queue. -/

/-- A step performs the command at the front of the queue on the state with the queue's rest. -/
def Obligations.StepRunsFrontCommand : Prop :=
  ∀ (c : Instr) (q : List Instr) (s : State), step { s with pending := c :: q } = exec c { s with pending := q }

/-- With no command waiting a step leaves the state alone. This is the model's choice (log 12). -/
def Obligations.EmptyQueueIdles : Prop := ∀ s : State, s.pending = [] → step s = .next s

/-! Reset and the stores. -/

/-- After power-on no tick has come, RUN is 0, a beat has 8,192 cycles, CARRY_LIMIT is 2 (R34, R35, R49), SAT and the tally checks are
on, every row is EMPTY and no task, command or frame is held. -/
def Obligations.ResetLeavesSpecValues : Prop :=
  State.reset.beatNo = 0 ∧ State.reset.flag .beatCtrl F.beatCtrlRun = false ∧ State.reset.fld .beatLen F.beatLenCycles = 8192
    ∧ State.reset.fld .beatLen F.beatLenLog2 = 13 ∧ State.reset.fld .beatCtrl F.beatCtrlCarryLimit = 2
    ∧ (∀ r : RowRef, (State.reset.row r).tag = .empty ∧ (State.reset.row r).taker = none)
    ∧ State.reset.tasks = [] ∧ State.reset.pending = [] ∧ State.reset.outbox = [] ∧ State.reset.fw = []
    ∧ (∀ (c : Ctr) (u b : Nat), State.reset.ctr c u b = 0)

/-- The stores and register files are in canonical form after power-on. -/
def Obligations.StoresCanonicalAtReset : Prop := State.reset.storesWf = true

/-- Every step keeps the stores and register files in canonical form, whatever command it performs. -/
def Obligations.StepKeepsStoresCanonical : Prop :=
  ∀ s t : State, s.storesWf = true → step s = .next t → t.storesWf = true

/-! Registers (R5, R6, R29, R31, R51, R53). -/

/-- REGISTER_WRITE takes each field by its access type (Table 0-3): RW and RW-I take the written bits, each 1 clears a W1C bit and sets
a W1S bit, all other fields stand; no other register and no store changes. A unit of a partition in reset takes nothing: the answer is
TARGET_RESETTING (R22); nor does a record that a winnower command in force names (R292). -/
def Obligations.RegisterWriteByAccessType : Prop :=
  ∀ (a addr : Nat) (v : Word) (s : State) (r : Reg), controlAgent a = true → s.reach a addr = some r → ownRow r = false →
    s.mbxRegValue a r v = some v →
    (s.inReset addr = true → exec (.registerWrite a addr v) s = .next (s.emit (.access a 2 0 0)))
    ∧ (∀ g n i, r = .winState g n i → s.inReset addr = false → s.winHolds n = true →
      exec (.registerWrite a addr v) s = .next (s.emit (.access a 0 0 0)))
    ∧ (s.inReset addr = false → (∀ g n i, r = .winState g n i → s.winHolds n = false) → ∃ t, exec (.registerWrite a addr v) s = .next t
      ∧ (∀ f ∈ r.fields, bits (t.rd r) f.lo f.len = match f.acc with
            | .rw => bits v f.lo f.len
            | .rwi => bits v f.lo f.len
            | .w1c => bits (s.rd r &&& ~~~v) f.lo f.len
            | .w1s => bits (s.rd r ||| v) f.lo f.len
            | _ => bits (s.rd r) f.lo f.len)
      ∧ (∀ x : Reg, x.addr ≠ r.addr → t.rd x = s.rd x) ∧ t.shadow = s.shadow ∧ s.sameStores t)

/-- Reserved bits: a write of them is performed as though they were 0, and no write of a register sets them. -/
def Obligations.ReservedBitsAreIgnored : Prop :=
  ∀ (a addr : Nat) (v : Word) (s : State) (r : Reg), s.reach a addr = some r →
    exec (.registerWrite a addr v) s = exec (.registerWrite a addr (v &&& r.listed)) s
      ∧ exec (.shadowWrite a addr v) s = exec (.shadowWrite a addr (v &&& r.listed)) s
      ∧ (∀ t, exec (.registerWrite a addr v) s = .next t → s.rd r &&& ~~~r.listed = 0 → t.rd r &&& ~~~r.listed = 0)
      ∧ (∀ t, exec (.shadowWrite a addr v) s = .next t → s.rdS r &&& ~~~r.listed = 0 → t.rdS r &&& ~~~r.listed = 0)
      ∧ r.reset &&& ~~~r.listed = 0

/-- An access that R29 or R31 does not permit is not performed: the control core gets a bus error, a fault event names the address and
the agent, and no register changes but those of the event's mailbox. -/
def Obligations.FaultingAccessIsNotPerformed : Prop :=
  ∀ (a addr : Nat) (v : Word) (s : State), controlAgent a = true → s.reach a addr = none →
    ∃ t, exec (.registerWrite a addr v) s = .next t ∧ exec (.shadowWrite a addr v) s = .next t
      ∧ t = (s.fault a 0x01 0 0 addr).emit (.access a 1 0 0) ∧ t.shadow = s.shadow ∧ t.rows = s.rows ∧ t.lpddr = s.lpddr

/-- SHADOW_WRITE holds the written RW-S fields in the shadow, leaves their values in force, and disarms an armed block: STATE becomes
DISARMED, and the block is not among those that the tick applies. -/
def Obligations.ShadowWriteDisarms : Prop :=
  ∀ (a addr : Nat) (v : Word) (s : State) (r : Reg) (b : Blk), controlAgent a = true → s.reach a addr = some r → r.hasShadow = true →
    r.block = some b → r ≠ .beatNumberSet → s.inReset addr = false → ∃ t, exec (.shadowWrite a addr v) s = .next t
      ∧ (∀ f ∈ r.fields, f.acc = .rws → bits (t.rdS r) f.lo f.len = bits v f.lo f.len
          ∧ bits (t.rd r) f.lo f.len = bits (s.rd r) f.lo f.len)
      ∧ (∀ x : Reg, x.addr ≠ r.addr → t.rdS x = s.rdS x)
      ∧ (∀ x : Reg, x.addr ≠ r.addr → x.addr ≠ (Reg.arm b).addr → x.addr ≠ (Reg.apply b).addr → t.rd x = s.rd x)
      ∧ t.armed b = false ∧ b ∉ t.armedNow
      ∧ (s.armed b = true → t.fld (.apply b) F.applyState = 4)
      ∧ t.rows = s.rows ∧ t.lpddr = s.lpddr ∧ t.tasks = s.tasks

/-- ARM arms a block that is not armed: ARM reads 1 and STATE is ARMED; one that reaches the block after cycle -16 is for the tick
after. DISARM cancels the request, also in a write that sets ARM. A unit out of service is an address fault, one of a partition in reset
answers TARGET_RESETTING, and neither is performed (log 31). -/
def Obligations.ArmAndDisarm : Prop :=
  ∀ (b : Blk) (late withArm : Bool) (s : State), blkOk b = true →
    (s.unitUp (Reg.arm b).addr = false → exec (.arm b late) s = .next (s.busError agentMgmt (Reg.arm b).addr)
      ∧ exec (.disarm b withArm) s = .next (s.busError agentMgmt (Reg.arm b).addr))
    ∧ (s.unitUp (Reg.arm b).addr = true → s.inReset (Reg.arm b).addr = true →
      exec (.arm b late) s = .next (s.emit (.access agentMgmt 2 0 0)) ∧ exec (.disarm b withArm) s = .next (s.emit (.access agentMgmt 2 0 0)))
    ∧ (s.unitUp (Reg.arm b).addr = true → s.inReset (Reg.arm b).addr = false → (∃ t, exec (.arm b late) s = .next t ∧ t.armed b = true
      ∧ (s.armed b = false → t.fld (.apply b) F.applyState = 1 ∧ (late = true → b ∈ t.late))
      ∧ (∀ x : Reg, x.addr ≠ (Reg.arm b).addr → x.addr ≠ (Reg.apply b).addr → t.rd x = s.rd x)
      ∧ t.shadow = s.shadow ∧ s.sameStores t)
    ∧ (∃ t, exec (.disarm b withArm) s = .next t ∧ t.armed b = false ∧ (s.armed b = true → t.fld (.apply b) F.applyState = 4)
      ∧ (∀ x : Reg, x.addr ≠ (Reg.arm b).addr → x.addr ≠ (Reg.apply b).addr → t.rd x = s.rd x)
      ∧ t.shadow = s.shadow ∧ s.sameStores t))

/-- BEAT_RUN starts the ticks: RUN becomes 1 and nothing else changes; from then on every TICK completes. A write of BEAT_NUMBER_SET
holds the value and marks it pending; BEAT_NUMBER stands. -/
def Obligations.BeatRunAndNumberSet : Prop :=
  (∀ s : State, ∃ t, exec .beatRun s = .next t ∧ t.flag .beatCtrl F.beatCtrlRun = true
      ∧ t.fld .beatCtrl F.beatCtrlCarryLimit = s.fld .beatCtrl F.beatCtrlCarryLimit
      ∧ (∀ m : TickIn, ∃ u, exec (.tick m) t = .next u)
      ∧ (∀ x : Reg, x.addr ≠ Reg.beatCtrl.addr → t.rd x = s.rd x) ∧ t.shadow = s.shadow ∧ s.sameStores t)
    ∧ (∀ (a : Nat) (v : Word) (s : State), isMgmt a = true → ∃ t, exec (.beatNumberSetWrite a v) s = .next t
      ∧ t.rdS .beatNumberSet = v ∧ t.beat.setPending = true ∧ t.beatNo = s.beatNo ∧ t.armed .beat = false
      ∧ t.rows = s.rows ∧ t.lpddr = s.lpddr ∧ t.tasks = s.tasks)

/-- TICK completes in every state: with RUN 1, all that R58 asks, it is a tick; before, it brings the sensors' readings and changes nothing
else (the model's choice, log 21 and R19). The tick of a quiet device makes BEAT_NUMBER one more and clears the adjustment of the beat's
length, and no row, task or die changes hands. Cycle 0 of every tick makes BEAT_NUMBER one more, or the pending value where a BEAT apply
takes effect; only then is the mark cleared. A device that leads or follows sends one pulse, 32 cycles long where the new number has bits
[7:0] equal to 0 and 8 cycles otherwise. A long pulse that came ahead of the tick is held to the tick's number (R38). -/
def Obligations.TickAdvancesTheBeat : Prop :=
  (∀ (m : TickIn) (s : State), s.flag .beatCtrl F.beatCtrlRun = true → ∃ t, exec (.tick m) s = .next t
      ∧ t = (s.tick m).tripHot m.temps)
    ∧ (∀ (m : TickIn) (s : State), s.flag .beatCtrl F.beatCtrlRun = false → (∀ x ∈ m.temps, x.milliC < s.tripAt x.site x.index) →
      ∃ t, exec (.tick m) s = .next t ∧ t.regs = s.regs
      ∧ t.shadow = s.shadow ∧ s.sameStores t ∧ t.beat = s.beat ∧ t.outbox = s.outbox ∧ t.board = { s.board with temps := t.board.temps }
      ∧ (m.temps = [] → t = s))
    ∧ (∀ (m : TickIn) (s : State), s.flag .beatCtrl F.beatCtrlRun = true → s.storesWf = true → s.quiet →
      (∀ x ∈ m.temps, x.milliC < 102000) → ∃ t, exec (.tick m) s = .next t
      ∧ t.beatNo = s.beatNo + 1 ∧ t.beat.adjust = 0 ∧ t.beat.running = s.beat.adjust ∧ t.beat.since = s.beat.since + 1
      ∧ t.rows = s.rows ∧ t.lpddr = s.lpddr ∧ t.tasks = [] ∧ t.shape = s.shape ∧ t.edgeDraw = m.edgeDraw ∧ t.late = []
      ∧ (s.snapAsked = true → t.snapAsked = false ∧ t.snapBeat = some t.beatNo))
    ∧ ∀ (s : State) (cs : List (Blk × Nat)),
      let mine := cs.find? fun c => decide (c.1 = Blk.beat)
      (mine = none → (s.beatEdge cs).beatNo = s.beatNo + 1 ∧ (s.beatEdge cs).beat.setPending = s.beat.setPending)
      ∧ (∀ k, mine = some (.beat, k + 1) → (s.beatEdge cs).beatNo = s.beatNo + 1
          ∧ (s.beatEdge cs).beat.setPending = s.beat.setPending)
      ∧ (mine = some (.beat, 0) → s.beat.setPending = true → (s.beatEdge cs).beat.setPending = false)
      ∧ (mine = none → s.beat.markDue = true → (s.beatNo + 1).toNat % 256 ≠ 0 → (s.beatEdge cs).flag .beatSync F.beatSyncMarkSkew = true)
      ∧ (s.beatEdge cs).beat.markDue = false
      ∧ (mine = none → s.beat.markDue = false → s.fld .beatSync F.beatSyncMode = 1 ∨ s.fld .beatSync F.beatSyncMode = 2 →
          (s.beatEdge cs).outbox = s.outbox ++ [.pulse (if (s.beatNo + 1).toNat % 256 = 0 then 32 else 8)])
      ∧ (mine = none → s.beat.markDue = false → s.fld .beatSync F.beatSyncMode ≠ 1 → s.fld .beatSync F.beatSyncMode ≠ 2 →
          (s.beatEdge cs).outbox = s.outbox)

/-- A pulse at a follower sets its phase error, limited to 127, and changes the next beat by at most 8 cycles; it leaves BEAT_NUMBER alone;
pulses within 16 cycles in 16 consecutive beats lock it, one beyond 64 cycles unlocks it, and a long pulse in a beat whose number has bits
[7:0] other than 0 sets the mark skew, one ahead of its tick when that comes. In the other modes BEAT_IN is ignored. No pulse for two beats unlocks a follower; before, and in the
other modes, the loss has no occasion (log 21, log 30). -/
def Obligations.BeatInPulses : Prop :=
  (∀ (lag : Int) (long : Bool) (s : State), s.fld .beatSync F.beatSyncMode ≠ 2 → exec (.beatInPulse lag long) s = .next s)
    ∧ (∀ (lag : Int) (s : State), s.fld .beatSync F.beatSyncMode = 2 → ∃ t, exec (.beatInPulse lag false) s = .next t
      ∧ t.beat.adjust = max (-8) (min 8 (lag + (s.fld .beatSync F.beatSyncInDelay : Nat)))
      ∧ t.beat.since = 0 ∧ t.beatNo = s.beatNo
      ∧ (let e := lag + (s.fld .beatSync F.beatSyncInDelay : Nat)
         (e.natAbs ≤ 64 → t.fld .beatSync F.beatSyncPhaseErr = twos 8 (max (-127) (min 127 e)))
         ∧ (∀ a, s.beat.pulseTick = some a → s.beat.since + (if 0 < lag then 1 else 0) = a + 1 → e.natAbs ≤ 16 →
            t.beat.lockRun = s.beat.lockRun + 1 ∧ (15 ≤ s.beat.lockRun → t.flag .beatSync F.beatSyncLocked = true))
         ∧ (64 < e.natAbs → t.flag .beatSync F.beatSyncLocked = false ∧ t.beat.lockRun = 0))
      ∧ t.rows = s.rows ∧ t.lpddr = s.lpddr ∧ t.tasks = s.tasks)
    ∧ (∀ (lag : Int) (s : State), s.fld .beatSync F.beatSyncMode = 2 → 0 < lag → ∃ t, exec (.beatInPulse lag true) s = .next t
      ∧ t.beat.markDue = true ∧ t.beatNo = s.beatNo ∧ t.flag .beatSync F.beatSyncMarkSkew = s.flag .beatSync F.beatSyncMarkSkew)
    ∧ (∀ (lag : Int) (s : State), s.fld .beatSync F.beatSyncMode = 2 → lag ≤ 0 → s.beatNo.toNat % 256 ≠ 0 → ∃ t, exec (.beatInPulse lag true) s = .next t ∧ t.flag .beatSync F.beatSyncMarkSkew = true ∧ t.beatNo = s.beatNo
        ∧ t.ctr C.beatMarkSkew 0 = min (s.ctr C.beatMarkSkew 0 + 1) (2 ^ 64 - 1))
    ∧ (∀ s : State, s.fld .beatSync F.beatSyncMode ≠ 2 ∨ s.beat.since < 2 → exec .beatInLoss s = .next s)
    ∧ (∀ s : State, s.fld .beatSync F.beatSyncMode = 2 → 2 ≤ s.beat.since → ∃ t, exec .beatInLoss s = .next t
      ∧ t.flag .beatSync F.beatSyncLocked = false ∧ (s.flag .beatSync F.beatSyncLocked = true → t.flag .beatSync F.beatSyncLockLost = true)
      ∧ t.rows = s.rows ∧ t.lpddr = s.lpddr ∧ t.tasks = s.tasks)

/-! Tasks (chapters 2 and 7). -/

/-- VERDICT_TIMEOUT discards the group: it is gone, its members and its verifier are no tasks any more. LPDDR5X stands. -/
def Obligations.VerdictTimeoutDiscardsGroup : Prop :=
  ∀ (cl gid : Nat) (s : State) (g : Group), clOk cl = true →
    (s.groups.find? fun x => x.cl == cl && x.gid == gid && x.timedOut) = some g →
    ∃ t, exec (.verdictTimeout cl gid) s = .next t ∧ g ∉ t.groups ∧ (∀ id ∈ g.all, t.task? id = none)
      ∧ (∀ id, s.task? id = none → t.task? id = none) ∧ t.lpddr = s.lpddr

/-- CARRY_LIMIT_ABORT of a task past its limit: the task is gone and not re-queued; where no task that is discarded with it has appended to or
taken from a silo, what it wrote is EMPTY again, its takes are released, and every row that none of them has written or taken stands. -/
def Obligations.CarryAbortDiscardsTask : Prop :=
  ∀ (id : Nat) (s : State) (k : Task), s.storesWf = true → s.task? id = some k → k.abort = true →
    ∃ t, exec (.carryLimitAbort id) s = .next t ∧ t.task? id = none
      ∧ ((∀ u ∈ s.tasks, u.id ∈ s.withBound [id] → u.pushes = [] ∧ u.pops = []) →
        (∀ r, (s.row r).tag = .pending → (s.row r).writer = some id → (t.row r).tag = .empty)
        ∧ (∀ r, (s.row r).tag = .full → (s.row r).taker = some id → (t.row r).taker = none ∧ (t.row r).tag = .full)
        ∧ (∀ r, (∀ i ∈ s.withBound [id], (s.row r).writer ≠ some i ∧ (s.row r).taker ≠ some i) → t.row r = s.row r))
      ∧ t.lpddr = s.lpddr

/-- DESC_LOAD of a descriptor that passes every check puts a new task at the end of the pool; one that fails a check loads nothing and is
counted in DSP_DESC_REFUSED; a frozen one of a frozen job is dropped and counted. -/
def Obligations.DescriptorsLoadOrAreRefused : Prop :=
  ∀ (cl : Nat) (d : BitVec 512) (s : State), clOk cl = true → s.mayLoad cl d = true →
    ∃ t, exec (.descLoad cl d) s = .next t ∧ t.rows = s.rows ∧ t.lpddr = s.lpddr ∧ t.shadow = s.shadow
      ∧ (s.descFails cl d ≠ 0 → t.tasks = s.tasks ∧ t.groups = s.groups
          ∧ t.ctr C.dspDescRefused cl = min (s.ctr C.dspDescRefused cl + 1) (2 ^ 64 - 1))
      ∧ (s.descFails cl d = 0 → s.flag (.dspJob cl (descJob d)) F.dspJobFrozen = true → bitAt d 11 = true →
          t.tasks = s.tasks ∧ t.regs = s.regs ∧ t.ctr C.dspFrozenDropped cl = min (s.ctr C.dspFrozenDropped cl + 1) (2 ^ 64 - 1))
      ∧ (s.descFails cl d = 0 → (s.flag (.dspJob cl (descJob d)) F.dspJobFrozen && bitAt d 11) = false → s.groupFails cl d = false →
          t.tasks = s.tasks ++ [newTask s.taskSeq cl d] ∧ t.taskSeq = s.taskSeq + 1 ∧ t.regs = s.regs)

/-- DISPATCH places the chosen task on its core in a cleared slot, READY or already issuing; a cycle that chooses none, and a cluster
that does not dispatch, changes nothing. -/
def Obligations.DispatchPlacesTheChosen : Prop :=
  ∀ (cl : Nat) (s : State), clOk cl = true →
    (∀ (k : Task) (c : Nat), s.dispatches cl = true → s.choose cl = some (k, c) → ∃ t x, exec (.dispatch cl) s = .next t
      ∧ t.task? k.id = some x ∧ x.core = c ∧ x.pc = 0 ∧ x.carry = 0 ∧ (x.stat = .ready ∨ x.stat = .running)
      ∧ s.freeSlot c = some x.slot ∧ t.rows = s.rows ∧ t.lpddr = s.lpddr ∧ t.shadow = s.shadow)
    ∧ (s.dispatches cl = false ∨ s.choose cl = none → exec (.dispatch cl) s = .next s)

/-- ctl.end completes the task. ctl.fence goes on once every earlier command of the task is complete and changes nothing until then.
tag.wait goes on when every named row is FULL. None of them changes a row. -/
def Obligations.ControlCommandsIssue : Prop :=
  ∀ (core : Nat) (s : State) (t : Task) (w : CmdWord), core < 2304 → s.nextCmd core = some (t, w) →
    (cwOp w = 0x00 → stray w [(0, 8)] = false → ∃ u t', exec (.ctlEnd core) s = .next u ∧ u.task? t.id = some t'
      ∧ t'.stat = .completing ∧ t'.pc = t.pc + 1 ∧ u.rows = s.rows ∧ u.lpddr = s.lpddr
      ∧ (∀ x : Reg, x.addr ≠ (Reg.coSlots t.core).addr → u.rd x = s.rd x))
    ∧ (cwOp w = 0x01 → stray w [(0, 8)] = false →
      (s.incomplete t = true → exec (.ctlFence core) s = .next s)
      ∧ (s.incomplete t = false → ∃ u, exec (.ctlFence core) s = .next u ∧ u.issuedOne t ∧ u.rows = s.rows ∧ u.lpddr = s.lpddr
        ∧ (∀ x : Reg, x.addr ≠ (Reg.coSlots t.core).addr → u.rd x = s.rd x)))
    ∧ (cwOp w = 0x61 → s.issueChecks t (tagRows t w) [] (!stray w tagFields) = .ok () →
      (∀ r ∈ tagRows t w, (s.row r).tag = .full) →
      ∃ u, exec (.tagWait core) s = .next u ∧ u.issuedOne t ∧ u.rows = s.rows ∧ u.lpddr = s.lpddr
        ∧ (∀ x : Reg, x.addr ≠ (Reg.coSlots t.core).addr → u.rd x = s.rd x))

/-- tag.take takes each named FULL row for the task without changing its data or tag; every other row stands (Table 8-2). -/
def Obligations.TagTakeTakesRows : Prop :=
  ∀ (core : Nat) (s : State) (t : Task) (w : CmdWord), core < 2304 → s.nextCmd core = some (t, w) → cwOp w = 0x60 →
    s.issueChecks t (tagRows t w) [] (!stray w tagFields) = .ok () → s.canRead t.id (tagRows t w) →
    ∃ u, exec (.tagTake core) s = .next u ∧ u.issuedOne t
      ∧ (∀ r ∈ tagRows t w, u.row r = { s.row r with taker := some t.id }) ∧ s.rowsElsewhere u (tagRows t w)
      ∧ u.lpddr = s.lpddr ∧ (∀ x : Reg, x.addr ≠ (Reg.coSlots t.core).addr → u.rd x = s.rd x)

/-- The first two lines of Table 8-2: what a task's peek or take of a row finds. An EMPTY row waits; a POISON row faults the task; a FULL
row is read unless another task holds it and the access is a take or stands on that task's core; a PENDING row is read on its
writer's core, the reader then bound to the writer. -/
def Obligations.ReadsFollowTable82 : Prop :=
  ∀ (s : State) (t : Task) (r : RowRef) (take : Bool),
    ((s.row r).tag = .empty → s.readRow t r take = .error (.row r (if take then .take else .peek)))
    ∧ ((s.row r).tag = .poison → s.readRow t r take = .error (.poison r))
    ∧ ((s.row r).tag = .full → (s.row r).taker = none ∨ (s.row r).taker = some t.id → ∃ u,
        s.readRow t r take = .ok ((s.row r).data, u) ∧ u.tasks = s.tasks
          ∧ u.row r = (if take then { s.row r with taker := some t.id } else s.row r) ∧ s.rowsElsewhere u [r])
    ∧ (∀ k, (s.row r).tag = .full → (s.row r).taker = some k → k ≠ t.id →
        (take = true ∨ s.onCore (some k) t.core = true → s.readRow t r take = .error (.row r (if take then .take else .peek)))
        ∧ (take = false → s.onCore (some k) t.core = false → s.readRow t r take = .ok ((s.row r).data, s)))
    ∧ (∀ k, (s.row r).tag = .pending → (s.row r).writer = some k → k ≠ t.id →
        (s.onCore (some k) t.core = false → s.readRow t r take = .error (.row r (if take then .take else .peek)))
        ∧ (s.onCore (some k) t.core = true → ∃ u, s.readRow t r take = .ok ((s.row r).data, u)
          ∧ (∀ x ∈ u.tasks, x.id = t.id → k ∈ x.deps) ∧ (u.row r).tag = .pending ∧ s.rowsElsewhere u [r]))

/-- Lines 3 and 4 of Table 8-2: a task's write of a row. An EMPTY or POISON row becomes PENDING, owner the writer; a FULL row waits in
normal mode and, when taken, in overwrite mode; the writer's own PENDING row is written again; another's waits in normal mode and on
another core. -/
def Obligations.WritesFollowTable82 : Prop :=
  ∀ (s : State) (t : Task) (r : RowRef) (d : Row) (ow : Bool),
    let landed := fun (u : State) => (u.row r).data = d ∧ (u.row r).tag = .pending ∧ (u.row r).writer = some t.id ∧ s.rowsElsewhere u [r]
    ((s.row r).tag = .empty ∨ (s.row r).tag = .poison → ∃ u, s.writeRow t r d ow = .ok u ∧ landed u)
    ∧ ((s.row r).tag = .full → ow = false ∨ (s.row r).taker ≠ none → s.writeRow t r d ow = .error (.row r (if ow then .over else .write)))
    ∧ ((s.row r).tag = .full → ow = true → (s.row r).taker = none → ∃ u, s.writeRow t r d ow = .ok u ∧ landed u)
    ∧ ((s.row r).tag = .pending → (s.row r).writer = some t.id → ∃ u, s.writeRow t r d ow = .ok u ∧ landed u)
    ∧ (∀ k, (s.row r).tag = .pending → (s.row r).writer = some k → k ≠ t.id →
        (ow = false ∨ s.onCore (some k) t.core = false → s.writeRow t r d ow = .error (.row r (if ow then .over else .write)))
        ∧ (ow = true → s.onCore (some k) t.core = true → ∃ u, s.writeRow t r d ow = .ok u ∧ landed u
          ∧ ∀ x ∈ u.tasks, x.id = t.id → k ∈ x.deps))

/-- The lines of Table 8-2 for commit and discard: a committed writer's row is FULL, or EMPTY where its taker commits with it; a row that
a committed task has taken is EMPTY; a discarded writer's row is EMPTY; a discarded task's take is released. -/
def Obligations.CommitAndDiscardFollowTable82 : Prop :=
  (∀ (s : State) (ids : List Nat) (r : RowRef), s.storesWf = true →
    (∀ k, (s.row r).tag = .pending → (s.row r).writer = some k → k ∈ ids →
      ((s.row r).taker = none → ((s.commitRows ids).row r).tag = .full ∧ ((s.commitRows ids).row r).data = (s.row r).data)
      ∧ (∀ j ∈ ids, (s.row r).taker = some j → ((s.commitRows ids).row r).tag = .empty)
      ∧ (∀ j, j ∉ ids → (s.task? j).isSome = true → (s.row r).taker = some j →
          ((s.commitRows ids).row r).tag = .full ∧ ((s.commitRows ids).row r).taker = some j))
    ∧ (∀ k ∈ ids, (s.row r).tag = .full → (s.row r).taker = some k → ((s.commitRows ids).row r).tag = .empty)
    ∧ ((s.row r).tag = .full → (s.row r).taker = none → (s.commitRows ids).row r = s.row r)
    ∧ (∀ k, (s.row r).tag = .pending → (s.row r).writer = some k → k ∉ ids → (s.commitRows ids).row r = s.row r))
  ∧ (∀ (s : State) (id : Nat) (r : RowRef), s.storesWf = true →
    ((s.row r).tag = .pending → (s.row r).writer = some id → ((s.discardRows id).row r).tag = .empty)
    ∧ ((s.row r).tag = .full → (s.row r).taker = some id →
        ((s.discardRows id).row r).tag = .full ∧ ((s.discardRows id).row r).taker = none
          ∧ ((s.discardRows id).row r).data = (s.row r).data)
    ∧ ((s.row r).writer ≠ some id → (s.row r).taker ≠ some id → (s.discardRows id).row r = s.row r))

/-! Vector, matrix-vector and encoder commands (chapters 5 and 6). -/

/-- vu.ld writes one widened line of a FULL row into its line register, by peek or take. Every other register, row and LPDDR5X row
stands. -/
def Obligations.VectorLoadWidensALine : Prop :=
  ∀ (core : Nat) (s : State) (t : Task) (w : CmdWord) (f : Fmt), core < 2304 → s.nextCmd core = some (t, w) → cwOp w = 0x20 →
    Fmt.ofCode (cwFmt w) = some f → s.issueChecks t (vuLdRows t w f) [] (!stray w (vuLdUsed f) && decide (bits w 62 3 < f.lines)) = .ok () →
    s.canRead t.id (vuLdRows t w f) →
    let n := bits w 32 13
    let sc := if f.sidecar then (s.row (.near t.core (bits w 45 13))).data else 0
    ∃ u t', exec (.vuLd core) s = .next u ∧ u.issuedOne t ∧ u.task? t.id = some t'
      ∧ t'.line (bits w 58 4)
          = ofRow32 ((lineAt f (s.row (.near t.core n)).data sc (n % f.served) (bits w 62 3)).map fun v => (lane [v] v).1)
      ∧ (∀ i, i ≠ bits w 58 4 → t'.line i = t.line i) ∧ t'.scalars = t.scalars
      ∧ u.row (.near t.core n) = (if cwAcc w then { s.row (.near t.core n) with taker := some t.id } else s.row (.near t.core n))
      ∧ s.rowsElsewhere u [.near t.core n] ∧ u.lpddr = s.lpddr

/-- vu.st without a sidecar packs its line registers into one row that the task writes, PENDING until it commits; every other row
stands. Under RNE the row is the packed lines. -/
def Obligations.VectorStoreWritesARow : Prop :=
  ∀ (core : Nat) (s : State) (t : Task) (w : CmdWord) (f : Fmt), core < 2304 → s.nextCmd core = some (t, w) → cwOp w = 0x21 →
    Fmt.ofCode (cwFmt w) = some f → f.sidecar = false → vuStForm w f = true → s.quota t [.near t.core (bits w 32 13)] = .ok () →
    t.mayWrite (bits w 32 13) = true → s.writable [.near t.core (bits w 32 13)] →
    ∃ u, exec (.vuSt core) s = .next u ∧ u.issuedOne t ∧ u.pendingOf t.id [.near t.core (bits w 32 13)]
      ∧ (s.wantsSr t.core (cwRound w) = false → (u.row (.near t.core (bits w 32 13))).data
          = (packRow f (s.sat t.core) (List.replicate f.perRow .rne)
              ((List.range f.lines).flatMap fun l => lineNums (t.line (bits w 58 4 + l)))).1)
      ∧ s.rowsElsewhere u [.near t.core (bits w 32 13)] ∧ u.lpddr = s.lpddr

/-- vu.op on lines: each lane of the destination is the operation of the source lanes, rounded once (R106). vu.op, vu.tx and the
register form of vu.reduce write registers only: no row changes. -/
def Obligations.VectorArithmeticStaysInRegisters : Prop :=
  ∀ (core : Nat) (s : State) (t : Task) (w : CmdWord), core < 2304 → s.nextCmd core = some (t, w) →
    (cwOp w = 0x22 → vuOpForm w = true → ∃ u t', exec (.vuOp core) s = .next u ∧ u.issuedOne t ∧ u.task? t.id = some t'
      ∧ u.rows = s.rows ∧ u.lpddr = s.lpddr
      ∧ (bits w 32 4 < 13 → isScalar (opD w) = false →
          t'.line (opD w) = ofRow32 ((List.range 128).map fun i =>
            let x := (t.operand (opA w)).getD i .zero; let y := (t.operand (opB w)).getD i .zero
            let z := (t.operand (opC w)).getD i .zero
            (lane ([x, y, z].take (subArity (bits w 32 4))) (subOp (bits w 32 4) x y z)).1)
          ∧ (∀ i, i ≠ opD w → t'.line i = t.line i) ∧ t'.scalars = t.scalars))
    ∧ (cwOp w = 0x23 → vuTxForm w = true → ∃ u t', exec (.vuTx core) s = .next u ∧ u.issuedOne t ∧ u.task? t.id = some t'
      ∧ u.rows = s.rows ∧ u.lpddr = s.lpddr
      ∧ (isScalar (opD w) = true → t'.lines = t.lines
          ∧ t'.scalar (opD w % 16) = (txLane (bits w 32 4) (s.flag (.vuCfg t.core) F.vuCfgTxFast) (t.scalar (opA w % 16))).1))
    ∧ (∀ f, cwOp w = 0x24 → Fmt.ofCode (cwFmt w) = some f → reduceForm w f = true →
      s.issueChecks t ((reduceRows t w f).1 ++ (reduceRows t w f).2) [] true = .ok () →
      s.canRead t.id ((reduceRows t w f).1 ++ (reduceRows t w f).2) →
      ∃ u t', exec (.vuReduce core) s = .next u ∧ u.issuedOne t ∧ u.task? t.id = some t' ∧ u.rows = s.rows ∧ u.lpddr = s.lpddr
        ∧ t'.lines = t.lines ∧ (∀ i, i ≠ bits w 36 4 → t'.scalar i = t.scalar i))

/-- vu.tapld loads 128 tap entries, an invalid one as 0, once no tapping drain of the task waits for its engine. vu.nbwd writes its
output rows as the task's and frees the row buffer; one that finds the buffer taken waits, and the grant gives it to the longest
waiter. -/
def Obligations.TapLoadsAndBackwardKernel : Prop :=
  (∀ (core : Nat) (s : State) (t : Task) (w : CmdWord), core < 2304 → s.nextCmd core = some (t, w) →
    (cwOp w = 0x25 → stray w [(0, 8), (17, 1), (32, 14)] = false → bits w 36 10 % 128 = 0 → (s.eng (cmdEng t w)).owner = some t.id →
      ((s.eng (cmdEng t w)).queue.any fun (q : Cmd) => q.task == t.id && tapsInto q.word (bits w 36 10)) = false → ∃ u t', exec (.vuTapld core) s = .next u ∧ u.issuedOne t ∧ u.task? t.id = some t'
      ∧ t'.line (bits w 32 4) = ofRow32 ((List.range 128).map fun i =>
          (SMap.get (fun _ => none) (s.eng (cmdEng t w)).tap (bits w 36 10 + i)).getD 0)
      ∧ u.rows = s.rows ∧ u.engs = s.engs ∧ u.lpddr = s.lpddr)
    ∧ (∀ f o, cwOp w = 0x26 → Fmt.ofCode (cwFmt w) = some f → Fmt.ofCode (cwFmt2 w) = some o →
      s.issueChecks t ((nbwdRows t w f o).1 ++ (nbwdRows t w f o).2.1 ++ (nbwdRows t w f o).2.2.1) (nbwdRows t w f o).2.2.2
        (nbwdForm w o) = .ok () →
      s.canRead t.id ((nbwdRows t w f o).1 ++ (nbwdRows t w f o).2.1 ++ (nbwdRows t w f o).2.2.1) →
      s.writable (nbwdRows t w f o).2.2.2 → (s.core t.core).buf = none → (s.core t.core).bufWait = [] →
      ∃ u, exec (.vuNbwd core) s = .next u ∧ u.issuedOne t ∧ (u.core t.core).buf = none
        ∧ u.pendingOf t.id (nbwdRows t w f o).2.2.2 ∧ s.rowsElsewhere u (nbwdRows t w f o).2.2.2 ∧ u.lpddr = s.lpddr))
  ∧ (∀ (core : Nat) (s : State) (q : Nat × BitVec 128) (rest : List (Nat × BitVec 128)), coreOk core = true →
      (s.core core).buf = none → (s.core core).bufWait = q :: rest →
      ∃ u, exec (.rowBufferGrant core) s = .next u ∧ (u.core core).buf = some q.1 ∧ (u.core core).bufWait = rest
        ∧ u.rows = s.rows ∧ u.lpddr = s.lpddr)

/-- mvp.run and mvp.glean take the unit, read their spans and write their output rows as the task's; no other row changes. -/
def Obligations.MatrixVectorWritesItsOutput : Prop :=
  ∀ (core : Nat) (s : State) (t : Task) (w : CmdWord) (f : Fmt) (a b c d : Bool × Nat × Nat), core < 2304 →
    s.nextCmd core = some (t, w) → Fmt.ofCode (cwFmt w) = some f →
    (s.core t.core).mvp = none ∨ (s.core t.core).mvp = some t.id →
    s.canRead t.id (spanRows t a ++ spanRows t b ++ spanRows t c) → s.writable (spanRows t d) →
    (cwOp w = 0x30 → mvpSpans w f = [a, b, c, d] → s.mvpChecks t w = .ok () →
      ∃ u, exec (.mvpRun core) s = .next u ∧ u.issuedOne t ∧ (u.core t.core).mvp = some t.id
        ∧ u.pendingOf t.id (spanRows t d) ∧ s.rowsElsewhere u (spanRows t d) ∧ u.lpddr = s.lpddr)
    ∧ (cwOp w = 0x31 → gleanSpans w f = [a, b, c, d] → s.gleanChecks t w = .ok () →
      ∃ u, exec (.mvpGlean core) s = .next u ∧ u.issuedOne t ∧ (u.core t.core).mvp = some t.id
        ∧ u.pendingOf t.id (spanRows t d) ∧ s.rowsElsewhere u (spanRows t d) ∧ u.lpddr = s.lpddr)

/-- sp.enc takes the encoder, reads its source rows and writes the tiles it forms as the task's; no other row changes. -/
def Obligations.EncoderWritesTiles : Prop :=
  ∀ (core : Nat) (s : State) (t : Task) (w : CmdWord) (f : Fmt), core < 2304 → s.nextCmd core = some (t, w) → cwOp w = 0x40 →
    Fmt.ofCode (cwFmt w) = some f → s.encChecks t w = .ok () →
    (s.core t.core).enc = none ∨ (s.core t.core).enc = some t.id → s.canRead t.id (encSrc t w f) →
    let ws := encWrites t w f (encTiles w f ((encSrc t w f).map fun r => encCanon f (s.row r).data))
    s.quota t (ws.map Prod.fst) = .ok () → inRange (ws.map Prod.fst) = true → (∀ p ∈ ws, t.mayWrite (rowNo p.1) = true) →
    s.writable (ws.map Prod.fst) → (ws.map Prod.fst).Nodup →
    ∃ u, exec (.spEnc core) s = .next u ∧ u.issuedOne t ∧ (u.core t.core).enc = some t.id
      ∧ (∀ p ∈ ws, (u.row p.1).data = p.2) ∧ u.pendingOf t.id (ws.map Prod.fst) ∧ s.rowsElsewhere u (ws.map Prod.fst)
      ∧ u.lpddr = s.lpddr

/-- cc.count puts the number of elements that meet its predicate into its scalar register and, where it writes a mask, fills the mask
rows as the task's; no other row changes. -/
def Obligations.CompareAndCountCounts : Prop :=
  ∀ (core : Nat) (s : State) (t : Task) (w : CmdWord) (f : Fmt), core < 2304 → s.nextCmd core = some (t, w) → cwOp w = 0x70 →
    Fmt.ofCode (cwFmt w) = some f → s.issueChecks t (ccRows t w) (ccMask t w f) (ccForm w f) = .ok () →
    s.canRead t.id (ccRows t w) → s.writable (ccMask t w f) →
    ∃ u t', exec (.ccCount core) s = .next u ∧ u.issuedOne t ∧ u.task? t.id = some t'
      ∧ t'.scalar (bits w 69 4) = (rnd32 (Num.ofInt (((ccBits f (bits w 66 3) (Num.of32 (w.extractLsb' 96 32))
          ((ccRows t w).map fun r => (s.row r).data)).filter id).length))).1
      ∧ t'.lines = t.lines ∧ u.pendingOf t.id (ccMask t w f) ∧ s.rowsElsewhere u (ccMask t w f) ∧ u.lpddr = s.lpddr


/-- silo.push appends near-store rows at TAIL_PEND as the task's rows and moves TAIL_PEND on; silo.pop with TAKE takes rows from HEAD,
writes them to the near store and moves HEAD_PEND on. TAIL and HEAD stand until the task commits (R194 to R196). -/
def Obligations.SiloPushAndPop : Prop :=
  ∀ (core : Nat) (s : State) (t : Task) (w : CmdWord), core < 2304 → s.nextCmd core = some (t, w) →
    let x := siloOf (bitAt w 32) t.core (bits w 33 8)
    let y := s.silo x
    let n := bits w 54 13 + 1
    let near := nearRowsOf t.core (bits w 41 13) n
    (cwOp w = 0x62 → s.quota t near = .ok () → s.pushForm t w = true → t.mayPush x n = true → n ≤ y.credit →
      y.tailP = y.tail ∨ y.pushCore = t.core % 8 → s.canRead t.id near → s.writable (siloRows x y y.tailP n) →
      (siloRows x y y.tailP n).Nodup → ∃ u, exec (.siloPush core) s = .next u ∧ u.issuedOne t
        ∧ u.pendingOf t.id (siloRows x y y.tailP n) ∧ s.rowsElsewhere u (siloRows x y y.tailP n)
        ∧ (∀ p ∈ (siloRows x y y.tailP n).zip near, (u.row p.1).data = (s.row p.2).data)
        ∧ (u.silo x).tailP = y.plus y.tailP n ∧ (u.silo x).tail = y.tail ∧ (u.silo x).head = y.head ∧ u.lpddr = s.lpddr)
    ∧ (cwOp w = 0x63 → cwAcc w = true → s.quota t near = .ok () → s.popForm t w = true → (∀ r ∈ near, t.mayWrite (rowNo r) = true) →
      y.headP = y.head → (∀ r ∈ siloRows x y y.head n, (s.row r).note = none) → s.canRead t.id (siloRows x y y.head n) →
      s.writable near → ∃ u, exec (.siloPop core) s = .next u ∧ u.issuedOne t ∧ u.pendingOf t.id near
        ∧ (∀ p ∈ near.zip (siloRows x y y.head n), (u.row p.1).data = (s.row p.2).data)
        ∧ (∀ r ∈ siloRows x y y.head n, u.row r = { s.row r with taker := some t.id })
        ∧ s.rowsElsewhere u (near ++ siloRows x y y.head n)
        ∧ (u.silo x).headP = y.plus y.head n ∧ (u.silo x).head = y.head ∧ (u.silo x).tail = y.tail ∧ u.lpddr = s.lpddr)

/-- ga.gather takes a free context and parks it at its first index whose table row the cluster cache does not hold; a row that it holds
goes to the destination; a padding index writes a zero row. The fill of a parked context's last row ends the gather (R167 to R169,
R200). -/
def Obligations.GatherParksAndFills : Prop :=
  (∀ (core : Nat) (worn : List Nat) (s : State) (t : Task) (w : CmdWord) (i : Nat), core < 2304 → s.nextCmd core = some (t, w) → cwOp w = 0x80 →
    s.issueChecks t (nearRowsOf t.core (bits w 32 13) ((gaCount w + 127) / 128)) (nearRowsOf t.core (gaDst w) (gaCount w * gaSpan w))
      (s.gatherForm t w) = .ok () → freeCtx (s.core t.core) = some i → s.canRead t.id [.near t.core (bits w 32 13)] →
    let n := s.gaIndex t w 0
    let dst := RowRef.near t.core (gaDst w)
    let no := s.gaRowNo t w 0
    let place := s.tableRow t w no
    let found := (s.cacheLook t.cl place.key worn).1
    let inTable := n < bits (s.rd (.coGaShape t.core (gaTable w))) 0 32 ∧ n < 2 ^ 31 ∧ bitAt w 70 = false ∧ s.tabFault t place = none
    (inTable → found = none → ∃ u fill, exec (.gaGather ⟨core, worn⟩) s = .next u ∧ u.issuedOne t
        ∧ u.ctx t.core i = some ⟨s.cmd t w [], 0, some no, fill, true, none⟩ ∧ u.rows = s.rows ∧ u.lpddr = s.lpddr)
    ∧ (∀ d, gaCount w = 1 → gaSpan w = 1 → inTable → found = some d → s.writable [dst] →
      ∃ u, exec (.gaGather ⟨core, worn⟩) s = .next u ∧ u.issuedOne t ∧ u.ctx t.core i = none
        ∧ u.pendingOf t.id [dst] ∧ (u.row dst).data = d ∧ s.rowsElsewhere u [dst] ∧ u.lpddr = s.lpddr)
    ∧ (gaCount w = 1 → gaSpan w = 1 → n = 0xFFFFFFFF → s.writable [dst] →
      ∃ u, exec (.gaGather ⟨core, worn⟩) s = .next u ∧ u.issuedOne t ∧ u.ctx t.core i = none
        ∧ u.pendingOf t.id [dst] ∧ (u.row dst).data = 0 ∧ s.rowsElsewhere u [dst] ∧ u.lpddr = s.lpddr))
  ∧ (∀ (core ctx : Nat) (worn : List Nat) (s : State) (g : GCtx) (t : Task) (r : RowRef), core < 2304 → ctx < 8 →
    s.ctx core ctx = some g → g.fill = true → s.task? g.task = some t → t.core = core →
    let w := g.cmd.word
    let q := g.next
    let e := s.enter core g.cmd
    let no := e.gaRowNo t w q
    let n := s.gaIndex t w (q / gaSpan w)
    let dst := RowRef.near core (gaDst w + q)
    g.asks = some no → e.tableRow t w no = .loft r → s.canRead t.id [r, .near core (bits w 32 13 + q / gaSpan w / 128)] →
    n < bits (e.rd (.coGaShape core (gaTable w))) 0 32 → n < 2 ^ 31 → bitAt w 70 = false → q + 1 = gaCount w * gaSpan w →
    s.writable [dst] → ∃ u, exec (.cacheFillComplete core ⟨ctx, worn⟩) s = .next u
      ∧ u.pendingOf t.id [dst] ∧ (u.row dst).data = (s.row r).data ∧ s.rowsElsewhere u [dst]
      ∧ u.ctx core ctx = none ∧ u.lpddr = s.lpddr)

/-- dma.kick appends its descriptor to a DIRECT channel's queue or raises a RING channel's LIMIT by its count; a kick with ONCE marks its
bit of the kick mask, and one whose bit is already set does nothing (R171, R233). -/
def Obligations.KickSuppliesDescriptors : Prop :=
  ∀ (core : Nat) (s : State) (t : Task) (w : CmdWord), core < 2304 → s.nextCmd core = some (t, w) → cwOp w = 0x50 → t.cl < 288 →
    let ch := bits w 32 5
    let ref := RowRef.near t.core (bits w 37 13)
    let mode := s.fld (.dmaChcfg t.cl ch) F.dmaChcfgMode
    stray w [(0, 8), (32, 22)] = false → s.kickOk t ch = true → (mode = 1 → s.quota t [ref] = .ok ()) →
    (bitAt w 53 = true → bitAt t.kick (bits w 50 3) = true →
      ∃ u, exec (.dmaKick core) s = .next u ∧ u.issuedOne t ∧ u.rows = s.rows ∧ u.chans = s.chans
        ∧ (∀ x : Reg, x.addr ≠ (Reg.coSlots t.core).addr → u.rd x = s.rd x))
    ∧ (bitAt w 53 = false ∨ bitAt t.kick (bits w 50 3) = false → mode = 1 → (s.chan t.cl ch).queue.length < 16 → s.canRead t.id [ref] →
      ∃ u t', exec (.dmaKick core) s = .next u ∧ u.issuedOne t ∧ u.task? t.id = some t'
        ∧ (bitAt w 53 = true → bitAt t'.kick (bits w 50 3) = true)
        ∧ u.chan t.cl ch = { s.chan t.cl ch with queue := (s.chan t.cl ch).queue ++ [(s.row ref).data.extractLsb' 0 1024] }
        ∧ u.rows = s.rows ∧ u.lpddr = s.lpddr)
    ∧ (bitAt w 53 = false ∨ bitAt t.kick (bits w 50 3) = false → mode = 2 →
      ∃ u t', exec (.dmaKick core) s = .next u ∧ u.issuedOne t ∧ u.task? t.id = some t'
        ∧ (bitAt w 53 = true → bitAt t'.kick (bits w 50 3) = true)
        ∧ u.fld (.dmaRingPtr t.cl ch) F.dmaRingPtrLimit = (s.fld (.dmaRingPtr t.cl ch) F.dmaRingPtrLimit + bits w 37 13 + 1) % 2 ^ 32
        ∧ u.fld (.dmaRingPtr t.cl ch) F.dmaRingPtrFetch = s.fld (.dmaRingPtr t.cl ch) F.dmaRingPtrFetch
        ∧ u.chans = s.chans ∧ u.rows = s.rows ∧ u.lpddr = s.lpddr)

/-! The matrix engines (chapter 4). -/

/-- me.load stages a plain block; STATIONARY_SHIFT_IN puts the staged block in force where the engine's owner has loaded it; me.stream of a plain
operand writes accumulator entries of its range only; me.drain of a plain output packs the entries into rows that the task writes and
clears them where it says so; a load behind a block still to be shifted in, and what comes after a command that waits, take their place in
the engine's order; no other engine and no other row changes (R80 to R83, R88, R93). -/
def Obligations.EngineCommands : Prop :=
  (∀ (core : Nat) (s : State) (t : Task) (w : CmdWord) (f : Fmt), core < 2304 → s.nextCmd core = some (t, w) →
    Fmt.ofCode (cwFmt w) = some f → cwSpf w = false →
    let e := cmdEng t w
    let x := s.engFor t e
    let alone := fun (u : State) => u.issuedOne t ∧ (u.eng e).owner = some t.id ∧ (∀ k, k ≠ e → u.eng k = s.eng k) ∧ u.lpddr = s.lpddr
    s.engFree t e →
    (cwOp w = 0x10 → s.loadChecks t w = .ok () → s.canRead t.id (loadNames t w (some f)) → x.queue = [] → x.staging = none →
      ∃ u, exec (.meLoad core) s = .next u ∧ alone u ∧ u.rows = s.rows
        ∧ u.eng e = { x with loaded := true, staging := some ⟨w, (nearRowsOf t.core (bits w 32 13) (blockRows f)).map fun r => (s.row r).data,
            if f.sidecar then (s.row (.near t.core (bits w 45 13))).data else 0, some t.id⟩ })
    ∧ (∀ ups b xs v, cwOp w = 0x11 → s.streamChecks t w = .ok () → bitAt w 71 = false → x.loaded = true → x.queue = [] → x.staging = none →
      x.cells = some b → s.plainRows t w f (match (blockArrs b).1 with
        | [a] => a.width / 128
        | l => l.length) (List.range (stNrows w)) = .ok (xs, v) →
      ∃ u, exec (.meStream core ups) s = .next u ∧ alone u ∧ u.rows = s.rows ∧ (u.eng e).cells = some b ∧ (u.eng e).tap = x.tap
        ∧ (∀ k, k < stBase w ∨ stBase w + stNrows w ≤ k →
            SMap.get (fun _ => none) (u.eng e).acc k = SMap.get (fun _ => none) x.acc k))
    ∧ (cwOp w = 0x12 → s.drainChecks t w = .ok () → x.queue = [] → drTmode w = 0 → bitAt w 91 = false →
      let out := ((drainRows w f).1 ++ (drainRows w f).2).map (RowRef.near t.core)
      s.writable out → ∃ u, exec (.meDrain core) s = .next u ∧ alone u ∧ u.pendingOf t.id out ∧ s.rowsElsewhere u out
        ∧ (u.eng e).tap = x.tap ∧ (bitAt w 92 = false → (u.eng e).acc = x.acc)
        ∧ (bitAt w 92 = true → ∀ k, SMap.get (fun _ => none) (u.eng e).acc k
            = if drBase w ≤ k ∧ k < drBase w + drNrows w then none else SMap.get (fun _ => none) x.acc k))
    ∧ (∀ ups, let q := s.cmd t w ups
      x.holds ((x.queue ++ [q]).headD q) = true →
      let queued := fun (i : Instr) => ∃ u, exec i s = .next u ∧ alone u ∧ u.rows = s.rows
        ∧ u.eng e = { x with queue := x.queue ++ [q], loaded := x.loaded || cwOp w == 0x10 }
      (cwOp w = 0x10 → ups = [] → s.loadChecks t w = .ok () → queued (.meLoad core))
      ∧ (cwOp w = 0x11 → x.loaded = true → s.streamChecks t w = .ok () → queued (.meStream core ups))
      ∧ (cwOp w = 0x12 → ups = [] → s.drainChecks t w = .ok () → queued (.meDrain core))))
  ∧ (∀ (core e : Nat) (s : State) (b : Block), core < 2304 → e < 2 → (s.eng (2 * core + e)).staging = some b →
      (s.eng (2 * core + e)).queue = [] → ∃ u, exec (.stationaryShiftIn core e) s = .next u
        ∧ u.eng (2 * core + e) = { s.eng (2 * core + e) with staging := none, cells :=
            if b.task.isSome && (s.eng (2 * core + e)).owner == b.task then some b else (s.eng (2 * core + e)).cells }
        ∧ (∀ k, k ≠ 2 * core + e → u.eng k = s.eng k) ∧ u.rows = s.rows ∧ u.lpddr = s.lpddr ∧ u.tasks = s.tasks)

/-! Units, retire, row states (chapters 7 and 8). -/

/-- ENGINE_RELEASE leaves its unit without an owner; TASK_RETIRE makes a completing task RETIRED, with the first of its retire-time
causes where it has no fault yet; FAULT_JOB_STOP makes firmware's stop of a job whose stop was asked for due: it takes effect at the next
tick, and until then no task is touched. -/
def Obligations.ReleaseRetireAndStop : Prop :=
  (∀ (core : Nat) (v : CoreUnit) (s : State), core < 2304 → s.mayRelease core v = true →
      ∃ u, exec (.engineRelease core v) s = .next u ∧ u.unitOwner core v = none ∧ u.rows = s.rows ∧ u.lpddr = s.lpddr)
  ∧ (∀ (core slot : Nat) (s : State) (t : Task), core < 2304 → slot < 4 → s.taskIn core slot = some t → s.task? t.id = some t →
      t.stat = .completing → t.abort = false → s.incomplete t = false →
      (s.tasks.filter fun u => decide (u.stat = .retired) && u.core == core).length < 16 →
      ∃ u t', exec (.taskRetire core slot) s = .next u ∧ u.task? t.id = some t' ∧ t'.stat = .retired
        ∧ (retireCause t = none → t'.fault = t.fault)
        ∧ (∀ f, t.fault = some f → t'.fault = some f)
        ∧ (∀ k d, t.fault = none → retireCause t = some (k, d) → t'.fault.map TFault.cause = some k)
        ∧ u.rows = s.rows ∧ u.lpddr = s.lpddr)
  ∧ (∀ (p j : Nat) (s : State), p < 12 → j < 16 → (s.job p j).stopSource ≠ 0 → (s.job p j).stat = .running →
      ∃ u, exec (.faultJobStop p j) s = .next u ∧ u.job p j = { s.job p j with stopDue := true } ∧ u.tasks = s.tasks ∧ s.sameMem u)

/-- ROW_STATE_RETRY: what the codes of R190 and R191 find in a row, and the retry of what waits on it: an uncorrectable error poisons a
row that is not EMPTY, a parity error any row, a corrected one none; the one task that waited for its next command's row and may issue it is
READY or RUNNING, and a tag.wait in flight whose rows are all FULL ends. -/
def Obligations.RowStateRetry : Prop :=
  ∀ (r : RowRef) (s : State), rowExists r = true →
    ((∀ w ∈ s.waits, w.1 ≠ r) → exec (.rowStateRetry r .none) s = .next s
      ∧ (∃ u, exec (.rowStateRetry r .single) s = .next u ∧ u.rows = s.rows ∧ u.lpddr = s.lpddr)
      ∧ (∃ u, exec (.rowStateRetry r .double) s = .next u ∧ u.lpddr = s.lpddr ∧ s.rowsElsewhere u [r]
          ∧ u.row r = (if (s.row r).tag = .empty then s.row r else { s.row r with tag := .poison }))
      ∧ (∃ u, exec (.rowStateRetry r .parity) s = .next u ∧ u.lpddr = s.lpddr ∧ s.rowsElsewhere u [r]
          ∧ u.row r = { s.row r with tag := .poison }))
    ∧ (∀ (id : Nat) (t : Task), (s.waits.filter fun w => decide (w.1 = r)) = [(r, .task id)] → s.task? id = some t → t.id = id →
      (t.stat = .blocked → s.waiting t = false → s.nextWhy t = none →
        ∃ u t', exec (.rowStateRetry r .none) s = .next u ∧ u.task? id = some t' ∧ (t'.stat = .ready ∨ t'.stat = .running) ∧ t'.why = none
          ∧ (∀ w ∈ u.waits, w.1 ≠ r) ∧ u.rows = s.rows ∧ u.lpddr = s.lpddr)
      ∧ (∀ q v, t.flight = some q → cwOp q.word = 0x61 → (s.enter t.core q).tagWait t q.word = .ok v →
        ∃ u t', exec (.rowStateRetry r .none) s = .next u ∧ u.task? id = some t' ∧ t'.flight = none ∧ u.rows = s.rows ∧ u.lpddr = s.lpddr))

/-- The entropy source of a core: a failed test sets FAIL, FALLBACK unless the seeded generator is in force (R75), and counts, saturating, in
FAIL_COUNT; fallback ends only after a beat without failure. A granary's source is held in its own fallback (R74, R228). -/
def Obligations.EntropyFallback : Prop :=
  (∀ (c : Nat) (s : State), c < 2304 → ∃ u, exec (.rngHealthFail (.core c)) s = .next u
      ∧ u.flag (.coRngStatus c) F.coRngStatusFallback = (!s.seeded c || s.flag (.coRngStatus c) F.coRngStatusFallback)
      ∧ u.flag (.coRngStatus c) F.coRngStatusFail = true
      ∧ u.fld (.coRngStatus c) F.coRngStatusFailCount = min (s.fld (.coRngStatus c) F.coRngStatusFailCount + 1) 65535
      ∧ exec (.rngFallbackExit (.core c)) u = .next u ∧ u.rows = s.rows ∧ u.lpddr = s.lpddr)
  ∧ (∀ (c : Nat) (s : State), c < 2304 → s.flag (.coRngStatus c) F.coRngStatusFallback = true → (s.core c).rngBeat = 0 →
      ∃ u, exec (.rngFallbackExit (.core c)) s = .next u ∧ u.flag (.coRngStatus c) F.coRngStatusFallback = false
        ∧ u.flag (.coRngStatus c) F.coRngStatusFail = s.flag (.coRngStatus c) F.coRngStatusFail
        ∧ (∀ x : Reg, x.addr ≠ (Reg.coRngStatus c).addr → u.rd x = s.rd x) ∧ s.sameStores u)
  ∧ (∀ (g : Nat) (s : State), g < 24 → ∃ u, exec (.rngHealthFail (.granary g)) s = .next u ∧ u.granaryFallback g = true
      ∧ u.rows = s.rows ∧ u.lpddr = s.lpddr)

/-! Memory (chapters 8 and 9). -/

/-- CC_INVALIDATE empties the cluster cache; PATROL_SCRUB moves the patrol positions on by the rows due less those missed, which are owed to the
next beat, and touches no row but those it found bad; LPDDR_PATROL leaves every row as its cells stand or as its decoder corrects it, and
moves on by 2^SCRUB_LOG2 rows; PAGE_WALK puts the page's entry into the requester's translation cache and the walk cache, reading the leaf
where the walk cache does not hold it; a leaf without errors stays as it is (R192, R201, R211, R212). What the cells do and which rows are missed are the commands' operands (log 8). -/
def Obligations.CachesPatrolsAndWalks : Prop :=
  (∀ (cl : Nat) (s : State), cl < 288 → s.clusterHole cl = false → ∃ u, exec (.ccInvalidate cl) s = .next u
      ∧ (u.cl cl).cache = [] ∧ (∀ k, k ≠ cl → u.cl k = s.cl k) ∧ u.rows = s.rows ∧ u.lpddr = s.lpddr)
  ∧ (∀ (cl : Nat) (found : List (RowRef × RowErr)) (missed : List Nat) (s : State), cl < 288 → s.clusterHole cl = false →
      s.flag (.clScrub cl) F.clScrubPatrolEn = true → ∃ u, exec (.patrolScrub cl ⟨found, missed⟩) s = .next u
      ∧ (u.cl cl).patrol = ((s.cl cl).patrol + (s.patrolDue cl 8 - s.patrolLeft cl missed 8)) % 1048576
      ∧ (u.cl cl).owed = s.patrolLeft cl missed 8
      ∧ (∀ i, i < 8 → (u.core (8 * cl + i)).patrol
            = ((s.core (8 * cl + i)).patrol + (s.patrolDue cl i - s.patrolLeft cl missed i)) % 8192
          ∧ (u.core (8 * cl + i)).owed = s.patrolLeft cl missed i)
      ∧ s.rowsElsewhere u (found.map Prod.fst) ∧ u.lpddr = s.lpddr)
  ∧ (∀ (g : Nat) (hits : List LpHit) (s : State), g < 24 → g ∉ s.shape.deadGran → s.flag (.grnCfg g) F.grnCfgScrubEn = true →
      (∀ h ∈ hits, rowGranary h.row = g ∧ h.pos < 528 ∧ (lpPlace h.row).2.2 < 24379392) → ∃ u, exec (.lpddrPatrol g hits) s = .next u
      ∧ (let s1 := hits.foldl (fun (s : State) h => s.lpUpset h) s
         ∀ k, u.lp k = s1.lp k ∨ u.lp k = (s1.lp k).fixed)
      ∧ (∀ k, rowGranary k ≠ g → u.lp k = s.lp k)
      ∧ SMap.get (fun _ => 0) u.lpPatrol g
          = (SMap.get (fun _ => 0) s.lpPatrol g + 2 ^ s.fld (.grnCfg g) F.grnCfgScrubLog2) % 24379392 ∧ u.rows = s.rows)
  ∧ (∀ (via : Via) (p page : Nat) (s : State), p < 12 → page < 2 ^ 24 → s.viaUp via p = true →
      (match via with
        | .cluster cl => cl < 288
        | .gate g => g < 4) →
      (∀ x ∈ s.tlbOf via, ¬ (x.1 = p ∧ x.2.1 = page)) →
      ∃ u, exec (.pageWalk via ⟨p, page⟩) s = .next u
      ∧ (u.tlbOf via).head? = some (p, page, s.translate none p page) ∧ (u.tlbOf via).length ≤ 512
      ∧ (p, page, s.translate none p page) ∈ u.walk ∧ u.rows = s.rows ∧ u.tasks = s.tasks
      ∧ ((∃ x ∈ s.walk, x.1 = p ∧ x.2.1 = page) ∨ (s.lp (leafPlace p page).1).err = 0 → u.lpddr = s.lpddr ∧ u.regs = s.regs)
      ∧ ((∃ x ∈ s.walk, x.1 = p ∧ x.2.1 = page) → u.ctrs = s.ctrs))

/-- BRINGUP_DONE with the last rows of a tensor on PRESENT pages makes it RESIDENT and ends its bring-up, UNSEAL_PINS_CLEAR makes it UPDATE_OWNED with its GEN
one more and its copy gone from RES, and a deadline missed is counted and followed by the tensor's fallback: in learning the transfer
waits, SKIP and GLEAN mark it, LOWER marks it where the lower tensor is sealed and RESIDENT and is counted unavailable otherwise (R220,
R221, R223, R224). -/
def Obligations.TensorCopiesAndDeadlines : Prop :=
  (∀ (i n : Nat) (s : State) (b : Bringup), i < 32768 → s.bringups.find? (fun b => b.tensor == i) = some b → b.running = true →
      (s.ttEff i).rows ≤ b.come + n → b.held = [] → (∀ k, k < (s.ttEff i).rows → fillOk (s.row ((s.ttEff i).loftRef k)) true = true) →
      (∀ k, k < (s.ttEff i).rows → pgState (s.tensorLoc i k).page = 1 ∧ s.copying.contains (lpPlace (s.tensorLoc i k).key) = false) →
      ∃ u, exec (.bringupDone ⟨i, n⟩) s = .next u ∧ (u.tt i).res = 2 ∧ (u.tt i).gen = (s.tt i).gen ∧ (u.tt i).cls = (s.tt i).cls
        ∧ (∀ x ∈ u.bringups, x.tensor ≠ i) ∧ (∀ c r, c < 2304 → r < 8192 → u.row (.near c r) = s.row (.near c r))
        ∧ (∀ k, u.lp k = s.lp k ∨ u.lp k = (s.lp k).fixed) ∧ u.tasks = s.tasks)
  ∧ (∀ (i : Nat) (s : State), i < 32768 → (s.tt i).pins = 0 → (∃ w ∈ s.seals, w.tensor = i ∧ w.undo = true ∧ w.waited = true) →
      s.fw = [] → ∃ u, exec (.unsealPinsClear i) s = .next u ∧ (u.tt i).cls = 2 ∧ (u.tt i).gen = ((s.tt i).gen + 1) % 256
        ∧ (u.tt i).res = (if (s.tt i).clCount = 0 then 3 else 0) ∧ (∀ w ∈ u.seals, w.tensor ≠ i)
        ∧ u.lpddr = s.lpddr ∧ u.tasks = s.tasks)
  ∧ (∀ (cl ch i b : Nat) (s : State) (x : Xfer), cl < 288 → ch < 32 → x.touch = some (i, b) →
      let g := s.agentOf cl ch
      let e := s.ttEff i
      let fb := s.ttEff e.fbTensor
      let k := jobKey g.part g.job
      let learning := (s.part g.part).phase = 0
      ((s.chan cl ch).tail ++ (s.chan cl ch).cur.toList).find? Xfer.late = some x →
      let goes := fun (c : Option Ctr) (f : Xfer → Xfer) =>
        let s1 := s.count C.ttDeadlineMiss k
        let s2 := match c with
          | some c => s1.count c k
          | none => s1
        exec (.deadlineMiss cl ch) s = .next (s2.modXfer cl ch x.id fun y => f { y with missed := true })
      (learning ∨ e.fallback = 0 → goes none id)
      ∧ (¬ learning → e.fallback = 1 → fb.valid = true → fb.cls = 0 → fb.res = 2 →
        goes (some C.ttFbLower) fun y => { y with lower := true })
      ∧ (¬ learning → e.fallback = 1 → fb.valid = false ∨ fb.cls ≠ 0 ∨ fb.res ≠ 2 → goes (some C.ttFbUnavailable) id)
      ∧ (¬ learning → e.fallback = 2 → (s.gleanMask g x.desc).isSome = true → goes (some C.ttFbGlean) fun y => { y with glean := true })
      ∧ (¬ learning → e.fallback = 2 → s.gleanMask g x.desc = none → goes none id)
      ∧ (¬ learning → e.fallback = 3 → goes (some C.ttFbSkip) fun y => { y with skip := true }))

/-- ACCUM_WRITE: the first BF16 write of a granule in a step is taken as it is, a NaN canonical, and zeroes the granule's other rows; a later one
adds to the row, element by element, here under RNE; a write that its page's state or class refuses changes no row, nor does one while its job's
clear or a copy of its row is in progress: it waits in its granary. No other row of LPDDR5X changes (R214, R216, R227). -/
def Obligations.AccumulateWritesAdd : Prop :=
  ∀ (p j addr : Nat) (r : Row) (s : State), p < 12 → j < 16 → s.partEn p = true → addr % 512 = 0 →
    addr < 2 ^ 45 →
    let l := s.locate (.cluster ((s.clustersOf p).headD 0)) p j (addr / 512)
    (pgState l.page ≠ 1 ∨ s.classOk p j l .accum = false → ∃ u, exec (.accumWrite p j addr (.bf16 r) false) s = .next u
      ∧ u.lpddr = s.lpddr ∧ u.rows = s.rows ∧ u.epoch = s.epoch)
    ∧ (pgState l.page = 1 → s.classOk p j l .accum = true → s.accumWaits p j l = true → ∃ u, exec (.accumWrite p j addr (.bf16 r) false) s = .next u
      ∧ .write p j addr (.bf16 r) false ∈ u.arrivals ∧ u.lpddr = s.lpddr ∧ u.rows = s.rows ∧ u.epoch = s.epoch)
    ∧ (pgState l.page = 1 → s.classOk p j l .accum = true → s.accumWaits p j l = false → s.isTouch (pgTensor l.page) = false →
      (SMap.get (fun _ => false) s.epoch (l.key / 8) = false → ∃ u, exec (.accumWrite p j addr (.bf16 r) false) s = .next u
        ∧ u.lp l.key = .of (canonBf16 r) false ∧ (∀ k, k / 8 = l.key / 8 → k ≠ l.key → u.lp k = .of 0 false)
        ∧ (∀ k, k / 8 ≠ l.key / 8 → u.lp k = s.lp k) ∧ SMap.get (fun _ => false) u.epoch (l.key / 8) = true ∧ u.rows = s.rows)
      ∧ (SMap.get (fun _ => false) s.epoch (l.key / 8) = true → (s.lp l.key).err = 0 → (s.tt (pgTensor l.page)).sr = false →
        ∃ u, exec (.accumWrite p j addr (.bf16 r) false) s = .next u
        ∧ u.lp l.key = .of (accumRow (List.replicate 256 .rne)
            (((bf16Nums (s.lp l.key).data).zip (bf16Nums r)).map fun q => (add32 q.1 q.2).1)) false
        ∧ (∀ k, k ≠ l.key → u.lp k = s.lp k) ∧ u.rows = s.rows))

/-- EPOCH_CLEAR_DONE ends the clear, and ROW_RETIRE_COPY_DONE sends later accesses to the spare; with no transfer, no parked request and nothing in a granary
waiting neither does anything else to the stores (R227, R418). -/
def Obligations.ClearsAndCopiesEnd : Prop :=
  ∀ (s : State), (∀ cl ch, (s.chan cl ch).cur = none ∧ (s.chan cl ch).tail = []) → (∀ g, (s.gate g).park = []) →
    s.arrivals = [] → (∀ b ∈ s.bringups, b.held = []) →
    (∀ p j, p < 12 → j < 16 → (s.job p j).clearing = true → ∃ u, exec (.epochClearDone p j) s = .next u
      ∧ u.job p j = { s.job p j with clearing := false } ∧ u.rows = s.rows ∧ u.lpddr = s.lpddr ∧ u.tasks = s.tasks)
    ∧ (∀ dev ch row, dev < 192 → ch < 8 → (dev, ch, row) ∈ s.copying → ∃ u, exec (.rowRetireCopyDone dev ch row) s = .next u
      ∧ (dev, ch, row) ∉ u.copying ∧ (dev, ch, row) ∈ u.retiredRows ∧ u.rows = s.rows ∧ u.lpddr = s.lpddr ∧ u.tasks = s.tasks)

/-! The cluster DMA (chapter 10). -/

/-- DMA_DESC_START refuses a malformed descriptor: the channel is STOPPED, its transfer ends with ERROR and cause 1. A one-row COPY
between SRAM rows fills its destination from its source, empties a source it takes, and ends DONE. FIRMWARE_COPY_START starts the
same copy from its registers on an IDLE channel of mode 3, and is ignored in any other state; DMA_RESUME goes on with a PAUSED transfer,
or abandons it where ABANDON stands in the same write (R251) (R235 to R240, R242 to R244, Table 10-5). -/
def Obligations.DescriptorsRunOrStop : Prop :=
  (∀ (cl ch : Nat) (s : State) (d : Desc) (k : Chan), cl < 288 → ch < 32 → (s.chan cl ch).next? = some (d, k) → (s.chan cl ch).cur = none →
      s.chState cl ch < 2 → (s.chan cl ch).held.length ≤ 4 → (s.chan cl ch).tail = [] → dFence d = false ∨ (s.chan cl ch).done = [] →
      (∀ t ∈ s.tasks, t.flight = none) →
      (s.descOk (s.agentOf cl ch) d = false → ∃ u, exec (.dmaDescStart cl ch) s = .next u ∧ u.chState cl ch = 3
        ∧ u.chan cl ch = { k with
            seq := k.seq + 1, cur := none, done := k.done ++ [{ (Xfer.fresh k.seq d) with halt := some (.stop 1 0 0), status := 2, cause := 1 }] }
        ∧ u.rows = s.rows ∧ u.lpddr = s.lpddr ∧ u.tasks = s.tasks)
      ∧ (∀ a b, s.descOk (s.agentOf cl ch) d = true → s.oneRow (s.agentOf cl ch) d a b →
        ∃ u, exec (.dmaDescStart cl ch) s = .next u ∧ s.copied u d a b ∧ u.chState cl ch = 1
          ∧ u.chan cl ch = { k with seq := k.seq + 1, cur := none, done := k.done ++ [s.oneRowDone (Xfer.fresh k.seq d) a] }))
  ∧ (∀ (cl ch : Nat) (s : State), cl < 288 → ch < 32 →
      (s.chState cl ch ≠ 0 → exec (.firmwareCopyStart cl ch) s = .next s)
      ∧ (∀ a b, s.chState cl ch = 0 → s.fld (.dmaChcfg cl ch) F.dmaChcfgMode = 3 → s.fld (.dmaCnt cl ch) F.dmaCntRows = 1 →
        (s.chan cl ch).cur = none →
        let d := fwDesc (s.fld (.dmaSrc cl ch) F.dmaSrcAddr) (s.fld (.dmaDst cl ch) F.dmaDstAddr) 1
          (s.flag (.dmaCnt cl ch) F.dmaCntOverwrite) (s.flag (.dmaCnt cl ch) F.dmaCntTake)
        s.descOk (s.agentOf cl ch) d = true → s.oneRow (s.agentOf cl ch) d a b →
        ∃ u, exec (.firmwareCopyStart cl ch) s = .next u ∧ s.copied u d a b ∧ u.chState cl ch = 1
          ∧ u.chan cl ch = { s.chan cl ch with
              seq := (s.chan cl ch).seq + 1, cur := none, done := (s.chan cl ch).done ++ [s.oneRowDone (Xfer.fresh (s.chan cl ch).seq d) a] }))
  ∧ (∀ (cl ch : Nat) (s : State), cl < 288 → ch < 32 →
      exec (.dmaResume cl ⟨ch, true⟩) s = exec (.dmaAbandon cl ch) s
      ∧ (s.chState cl ch ≠ 2 → exec (.dmaResume cl ⟨ch, false⟩) s = .next s)
      ∧ (∀ i h d a b, s.chState cl ch = 2 → (s.chan cl ch).cur = some { (Xfer.fresh i d) with halt := h } → s.oneRow (s.agentOf cl ch) d a b →
        ∃ u, exec (.dmaResume cl ⟨ch, false⟩) s = .next u ∧ s.copied u d a b ∧ u.chState cl ch = 1
          ∧ u.chan cl ch = { s.chan cl ch with
              cur := none, page := none, done := (s.chan cl ch).done ++ [{ (s.oneRowDone (Xfer.fresh i d) a) with resumed := true }] }))

/-- ABANDON of a PAUSED channel and RESTART of a STOPPED one, each ignored in any other state: an abandoned transfer ends with status 3
and the channel is STOPPED; a restarted channel has no descriptor left, FETCH equal to LIMIT, and is IDLE (R243, Table 10-5). -/
def Obligations.AbandonAndRestart : Prop :=
  ∀ (cl ch : Nat) (s : State), cl < 288 → ch < 32 →
    (s.chState cl ch ≠ 2 → exec (.dmaAbandon cl ch) s = .next s)
    ∧ (∀ x, s.chState cl ch = 2 → (s.chan cl ch).cur = some x → ∃ u, exec (.dmaAbandon cl ch) s = .next u ∧ u.chState cl ch = 3
      ∧ u.chan cl ch = { s.chan cl ch with cur := none, page := none, done := (s.chan cl ch).done ++ [{ x with status := 3 }] }
      ∧ u.rows = s.rows ∧ u.lpddr = s.lpddr ∧ u.tasks = s.tasks)
    ∧ (s.chState cl ch ≠ 3 → exec (.dmaRestart cl ch) s = .next s)
    ∧ (s.chState cl ch = 3 → ∃ u, exec (.dmaRestart cl ch) s = .next u ∧ u.chState cl ch = 0
      ∧ u.chan cl ch = { s.chan cl ch with queue := [], buf := [], cur := none, tail := [] }
      ∧ u.fld (.dmaRingPtr cl ch) F.dmaRingPtrFetch = s.fld (.dmaRingPtr cl ch) F.dmaRingPtrLimit
      ∧ u.fld (.dmaRingPtr cl ch) F.dmaRingPtrLimit = s.fld (.dmaRingPtr cl ch) F.dmaRingPtrLimit
      ∧ u.rows = s.rows ∧ u.lpddr = s.lpddr ∧ u.tasks = s.tasks)

/-- DMA_RING_FETCH takes up to 16 descriptors by peek and moves FETCH on; the end of a transfer that owes no record leaves its record's
first word in DMA_LAST; a record that is due, or one that was held, lands as one FULL row at the completion silo's TAIL (R234, R242). -/
def Obligations.RingsAndRecords : Prop :=
  ∀ (cl ch : Nat) (s : State), cl < 288 → ch < 32 →
    let n := min 16 (s.ringGap cl ch)
    let ds := (List.range n).filterMap fun i => s.ringSlot cl ch i
    let x := s.csSilo cl ch
    let tail := siloRow x (s.silo x) (s.silo x).tail
    (s.fld (.dmaChcfg cl ch) F.dmaChcfgMode = 2 → 0 < n → ds.length = n → (s.chan cl ch).buf.length ≤ 16 →
      ∃ u, exec (.dmaRingFetch cl ch) s = .next u ∧ u.chan cl ch = { s.chan cl ch with buf := (s.chan cl ch).buf ++ ds }
        ∧ u.fld (.dmaRingPtr cl ch) F.dmaRingPtrFetch = (s.fld (.dmaRingPtr cl ch) F.dmaRingPtrFetch + n) % 2 ^ 32
        ∧ u.fld (.dmaRingPtr cl ch) F.dmaRingPtrLimit = s.fld (.dmaRingPtr cl ch) F.dmaRingPtrLimit
        ∧ u.rows = s.rows ∧ u.lpddr = s.lpddr ∧ u.tasks = s.tasks)
    ∧ (∀ y rest, (s.chan cl ch).done = y :: rest → recordDue y = false → ∃ u, exec (.dmaTransferEnd cl ch) s = .next u
        ∧ u.chan cl ch = { s.chan cl ch with done := rest }
        ∧ u.rd (.dmaLast cl ch) = (record s (s.agentOf cl ch) y).extractLsb' 0 64
        ∧ u.rows = s.rows ∧ u.lpddr = s.lpddr ∧ u.tasks = s.tasks)
    ∧ (∀ y rest, (s.chan cl ch).done = y :: rest → recordDue y = true → (s.agentOf cl ch).fw = false → (s.chan cl ch).held = [] →
        (s.job (s.agentOf cl ch).part (s.agentOf cl ch).job).stat ≠ .killing → (s.silo x).credit ≠ 0 → fillOk (s.row tail) false = true →
        ∃ u, exec (.dmaTransferEnd cl ch) s = .next u ∧ u.chan cl ch = { s.chan cl ch with done := rest }
        ∧ u.row tail = ⟨(record s (s.agentOf cl ch) y).zeroExtend 4096, .full, none, none, none⟩
        ∧ s.rowsElsewhere u [tail] ∧ u.lpddr = s.lpddr ∧ u.tasks = s.tasks)
    ∧ (∀ h, (s.chan cl ch).held = [h] → (s.silo x).credit ≠ 0 → fillOk (s.row tail) false = true →
        ∃ u, exec (.dmaRecordFlush cl ch) s = .next u ∧ u.chan cl ch = { s.chan cl ch with held := [] }
        ∧ u.row tail = ⟨h.zeroExtend 4096, .full, none, none, none⟩
        ∧ s.rowsElsewhere u [tail] ∧ u.lpddr = s.lpddr ∧ u.tasks = s.tasks)

/-- The slot of a run-ahead row that a use found stale is filled again under its tensor's current GEN, or poisoned where the page is not PRESENT;
a remote read or write with no response leaves an EXPIRED entry (R247, R336). -/
def Obligations.StaleRowsAndTimeouts : Prop :=
  (∀ (r : RowRef) (s : State) (ch src : Nat) (n : GenNote), rowOk r = true → s.refetchOf r = some (ch, n) → (s.row r).tag = .empty →
      (s.ttEff n.tensor).cls = 0 → n.rows = [src] →
      let e := s.ttEff n.tensor
      let l := s.locate (.cluster (rowCluster r)) e.part e.job src
      (pgState l.page = 1 → (s.ttEff l.tensor).res ≠ 2 → (s.lp l.key).err = 0 → dElem n.desc = false → (srcRows n.desc n.q).2.1 = 0 →
        ∃ u, exec (.pfStaleRefetch r) s = .next u
        ∧ u.row r = ⟨(s.lpRead l).data, .full, none, none, some { n with gen := e.gen }⟩
        ∧ s.rowsElsewhere u [r] ∧ u.lpddr = s.lpddr)
      ∧ (pgState l.page ≠ 1 → ∃ u, exec (.pfStaleRefetch r) s = .next u ∧ u.row r = ⟨0, .poison, none, none, none⟩
        ∧ s.rowsElsewhere u [r] ∧ u.lpddr = s.lpddr))
  ∧ (∀ (g tag : Nat) (s : State) (e : OtEnt), g < 4 → s.otGet g tag = some e → e.expired = false → (s.chan e.cl e.ch).cur = none →
      (s.chan e.cl e.ch).tail = [] → e.kind = .read ∨ e.kind = .write → ∃ u, exec (.remoteTimeout g tag) s = .next u ∧ u.otGet g tag = some { e with expired := true }
        ∧ u.rows = s.rows ∧ u.lpddr = s.lpddr ∧ u.tasks = s.tasks ∧ (∀ cl ch, u.chan cl ch = s.chan cl ch))

/-! What ends by itself, and learning steps (chapters 11, 13, 14, 17). -/

/-- KILL_DRAIN_DONE empties every row of the job's quotas; KILL_SCRUB_COMPLETE unmaps the pages of a job whose views have gone, and the next tick
frees it; PARTITION_RESET_DONE empties every near row of the partition, for the next tick to make it READY, and fences a die whose image portions fail; HATCH_CLOSED_DONE makes a drained hatch CLOSED (R203, R309, R318, R319, R344). No firmware command waits for any of them here; page entries name frames that may be assigned (R403). -/
def Obligations.KillAndResetEnds : Prop :=
  ∀ (s : State), s.fw = [] →
    (∀ p j, p < 12 → j < 16 → s.killDrained p j = true → ∃ u, exec (.killDrainDone p j) s = .next u ∧ (u.job p j).drained = true
      ∧ (∀ r, u.row r = if s.quotaKeys p j (rowKey r) then rowInit (rowKey r) else s.row r)
      ∧ u.lpddr = s.lpddr ∧ u.tasks = s.tasks)
    ∧ (∀ p j, p < 12 → j < 16 → (s.job p j).stat = .killing → (s.job p j).viewless = true → (s.job p j).scrubbed = false → s.storesWf = true →
      (∀ x ∈ s.pageList, pgFrame x.2 < 9141504) → (∀ m ∈ s.moves, ∀ x, m.2 = some x → x.frame < 9141504) →
      ∃ u, exec (.killScrubComplete p j) s = .next u
      ∧ u.job p j = { s.job p j with scrubbed := true }
      ∧ (∀ q pg, pg < 2 ^ 24 → u.pageOf q pg = if q = p ∧ pg ∈ s.jobPages p j then 0 else s.pageOf q pg)
      ∧ u.tasks = s.tasks ∧ u.rows = s.rows)
    ∧ (∀ p damaged, p < 12 → s.resetting p = true → (s.part p).resetOver = false → (∀ j, j < 16 → (s.job p j).stat = .free) → s.partQuiet p = true →
      ∃ u, exec (.partitionResetDone ⟨p, damaged⟩) s = .next u
      ∧ (∀ d ∈ s.diesOf p, s.dieHole d = false → s.portionOk { BringIn.none with damaged := damaged } (agentDie d) = false → u.dieHole d = true)
      ∧ u.fld (.mgtPart p) F.mgtPartState = 2 ∧ u.part p = { s.part p with phase := 0, gleanLearn := false, request := none, resetOver := true }
      ∧ (∀ t ∈ u.tasks, t ∈ s.tasks ∧ t.cl / 8 ∉ s.diesOf p)
      ∧ (∀ c r, c < 2304 → r < 8192 →
          u.row (.near c r) = if c / 64 ∈ s.diesOf p then rowInit (c * 8192 + r) else s.row (.near c r)) ∧ u.lpddr = s.lpddr)
    ∧ (∀ n, n < 1024 → (s.hatch n).state = 2 → s.hatchBusy n = false → ∃ u, exec (.hatchClosedDone n) s = .next u
      ∧ u.hatch n = { s.hatch n with state := 0 } ∧ (∀ k, k < 1024 → k ≠ n → u.hatch k = s.hatch k) ∧ s.sameStores u)

/-- PHASE_CHANGE makes the requested phase the partition's, with the gleaner of every core on outside learning; the boundary of a
generation step forms the next step's plan where no phase change waits, and else leaves no step open (R268, R299, R300). Near stores stand. -/
def Obligations.PhasesAndGenerationSteps : Prop :=
  ∀ (p : Nat) (s : State), p < 12 → s.fw = [] →
    (∀ ph gl, (s.part p).request = some (ph, gl) → s.phaseReady p = true → ∃ u, exec (.phaseChange p) s = .next u
      ∧ u.part p = { s.part p with phase := ph, gleanLearn := gl, request := none }
      ∧ (∀ c ∈ s.coresOf p, u.flag (.mvpGlCfg c) F.mvpGlCfgEn = (ph != 0 || gl)) ∧ (∀ cl ∈ s.clustersOf p, (u.cl cl).cache = [])
      ∧ u.rows = s.rows ∧ u.lpddr = s.lpddr ∧ u.tasks = s.tasks)
    ∧ (s.shareEn p = true → (s.part p).phase = 1 → s.seqEnded p = true → (s.job p (s.seqCfg p).job).stat = .running →
      s.hostLost = false → ∃ u, exec (.genStepBoundary p) s = .next u
      ∧ ((s.part p).request = none → (u.seqMgr p).step = (s.seqMgr p).step + 1 ∧ (u.seqMgr p).gen.isSome = true ∧ (u.seqMgr p).open_ = true)
      ∧ ((s.part p).request ≠ none → (u.seqMgr p).step = (s.seqMgr p).step ∧ (u.seqMgr p).open_ = false)
      ∧ (∀ c r, c < 2304 → r < 8192 → u.row (.near c r) = s.row (.near c r)))

/-- END_OF_BACKWARD takes a packet of every granary in service; DEVICE_PACKET_FORMED combines them, and a device alone forms the
result, a member sends its packet to ROOT; REDUCTION_COMPLETE forms the result from the members' packets, read from their rows, and sends it to
each, REDUCE_TIMEOUT a void one; the rows read are EMPTY. RESULT_WAIT_TIMEOUT reports. REDUCTION_RESULT keeps an awaited result for the next
tick, and counts and ignores any other; the tick starts the update with the clip factor, or skips it where the result is void;
LAYER_NORM_RESULT sets the record's norm and step in every granary (R262, R264 to R267, R275, R283). Other rows and LPDDR5X stand. -/
def Obligations.LearningStepRows : Prop :=
  ∀ (p j : Nat) (s : State), p < 12 → j < 16 →
    let b := s.job p j
    let stands := fun (u : State) (l : List RowRef) => s.rowsElsewhere u l ∧ u.lpddr = s.lpddr ∧ u.tasks = s.tasks
    let result := fun (l : List (Nat × BitVec 128)) (miss : Bool) => (combine b.t ((sortBy (fun (x : Nat × BitVec 128) => x.1)
      ((s.ownFabric, b.device.getD 0) :: l)).map fun (x : Nat × BitVec 128) => packetOf x.2) miss (some b.cfg.expectFinal)).word
    let own := (combine b.t (b.packets.map fun (x : Nat × BitVec 128) => packetOf x.2) false none).word
    let held := s.setJob p j { b with stage := .hold, device := some own }
    (b.stage = .backward → b.clearing = false → s.jobIdle p j = true → ∃ u, exec (.endOfBackward p j) s = .next u
      ∧ (u.job p j).stage = .reduce ∧ (u.job p j).packets.map Prod.fst = s.granaries ∧ stands u [])
    ∧ (b.stage = .reduce → ∃ u, exec (.devicePacketFormed p j) s = .next u ∧ (u.job p j).stage = .hold
      ∧ (u.job p j).device = some own ∧ (s.alone b.cfg = true → (u.job p j).result.isSome = true ∧ u.outbox = held.pushPackets.outbox)
      ∧ (s.isRoot b.cfg = false → u = held.sendPackets p j b.cfg [b.cfg.root] none own) ∧ stands u [])
    ∧ (∀ rows, rows.all rowExists = true → s.rootWaits p j = true →
      let l := s.memberPackets b.cfg rows
      (l.length = (s.others b.cfg).length → ∃ u, exec (.reductionComplete p j rows) s = .next u
        ∧ (u.job p j).result = some (result l false) ∧ (∀ r ∈ rows, (u.row r).tag = .empty) ∧ stands u rows
        ∧ u = ((s.emptyRows rows).setJob p j { b with result := some (result l false) }).sendPackets p j b.cfg (s.others b.cfg) none (result l false))
      ∧ (l.length < (s.others b.cfg).length → ∃ u r, exec (.reduceTimeout p j rows) s = .next u ∧ (u.job p j).result = some r
        ∧ (packetOf r).void = true ∧ (packetOf r).reason ≤ 2 ∧ (packetOf r).step = b.t % 2 ^ 48 ∧ stands u rows))
    ∧ (b.stage = .hold → b.result = none → exec (.resultWaitTimeout p j) s = .next (s.stepEvent p j KS.timeout 0 0 0)
      ∧ (s.stepEvent p j KS.timeout 0 0 0).jobs = s.jobs)
    ∧ (∀ rows w, rows.all rowExists = true → s.resultIn p j rows = some w →
      (s.awaits p j = true → ∃ u, exec (.reductionResult p j rows) s = .next u ∧ u.job p j = { b with arrived := some w }
        ∧ (∀ r ∈ rows, (u.row r).tag = .empty) ∧ stands u rows)
      ∧ (s.awaits p j = false → exec (.reductionResult p j rows) s = .next ((s.countJob C.redLate p j).emptyRows rows)))
    ∧ (∀ w, ((packetOf w).void = false → (packetOf w).step = b.t →
        let v := (s.useResult p j w).job p j
        v.stage = .update ∧ v.clip = clipOf b.cfg.maxNorm (packetOf w).normsq ∧ v.result = some w)
      ∧ ((packetOf w).void = true → let v := (s.useResult p j w).job p j
        v.stage = .none ∧ v.result = none) ∧ stands (s.useResult p j w) [])
    ∧ (∀ rec rows late n r, rows.all rowExists = true → List.find? (fun (x : NormOut) => x.record == rec) b.normOut = some n →
      s.normIn b.cfg n rows late = some r → rec < 4096 → s.fw = [] → s.winHolds rec = false → r.void = false →
      r.step = (packetOf n.pkt).step → ∃ u, exec (.layerNormResult p j rec ⟨rows, late⟩) s = .next u
      ∧ (∀ x ∈ (u.job p j).normOut, x.record ≠ rec) ∧ stands u rows
      ∧ (∀ g ∈ s.granaries, u.normStep g rec = r.step
        ∧ u.wnormsq g rec = if n.full then r.normsq else (rnd32 (add32 (.of32 (s.wnormsq g rec)) (.of32 r.normsq)).1).1))

/-- Every row of a winnower in service completes where its state allows it. WIN_GO outside IDLE and DONE changes nothing, and firmware reports
KS_BUSY of the command in force (log 58); else a refused command fails with its status, a step skew with KS_STEP_SKEW, and the rest pass. A
released UPDATE leaves its step in every record it names, and NORM_ONLY changes no
row but by correcting it (R211); a withheld command writes no row; the end of the last run of an UPDATE asks for the seals, in a step divisible
by 1,024 after the norms of the lazy records (R283, R286 to R289). -/
def Obligations.WinnowerRows : Prop :=
  ∀ (s : State),
    (∀ g, g < 24 → g ∉ s.shape.deadGran →
      let c := s.winCmd g
      let skew := (List.range c.count).any fun i => (s.skewOf g (c.first + i) c.t c.norm).isSome
      (s.winSt g ≠ 0 → s.winSt g ≠ 5 → (s.win = none → exec (.winGo g) s = .next s)
        ∧ ∀ w, s.win = some w → exec (.winGo g) s = .next (s.stepEvent w.part w.job KS.busy 0 0 0)
          ∧ (s.stepEvent w.part w.job KS.busy 0 0 0).win = s.win ∧ (s.stepEvent w.part w.job KS.busy 0 0 0).winSt g = s.winSt g)
      ∧ (s.winSt g = 0 ∨ s.winSt g = 5 → ∃ u, exec (.winGo g) s = .next u ∧ u.rows = s.rows ∧ u.lpddr = s.lpddr
        ∧ u.winSt g = (if s.winRefusal g ≠ 0 ∨ skew = true then 3 else 2)
        ∧ u.fld (.winStatus g) F.winStatusFailStatus
            = if s.winRefusal g ≠ 0 then s.winRefusal g else if skew then KS.stepSkew else 0)
      ∧ (s.winSt g = 2 → s.allAsked = true → s.jobCopies (s.winPart g) c.job = false → (∀ h ∈ s.granaries, s.winSt h = 2 ∨ s.winSt h = 4 ∨ s.winSt h = 5) →
        ∃ u, exec (.winRelease g) s = .next u ∧ (u.winSt g = 4 ∨ u.winSt g = 5) ∧ u.rows = s.rows
        ∧ (c.norm = true → ∀ k, u.lp k = s.lp k ∨ u.lp k = (s.lp k).fixed)
        ∧ (c.norm = false → c.first + c.count ≤ 4096 → ∀ i, i < c.count → u.lastStep g (c.first + i) = c.t))
      ∧ (s.winSt g = 2 ∨ s.winSt g = 3 → s.allAsked = true → (∃ h ∈ s.granaries, s.winSt h = 3 ∨ s.winSt h = 6) → s.hostLost = false →
        ∃ u, exec (.winWithhold g) s = .next u ∧ u.winSt g = 6 ∧ u.rows = s.rows ∧ u.lpddr = s.lpddr))
    ∧ (∀ w, s.win = some w → w.part < 12 → w.job < 16 → w.posted = true → s.allAsked = true → s.jobCopies w.part w.job = false → (∀ h ∈ s.granaries, s.winSt h = 5) →
      (∀ x r rs, w.runs = x :: r :: rs → ∃ u, exec (.winPassDone w.part w.job) s = .next u
        ∧ u.win = some { w with runs := r :: rs, posted := true, asked := [] }
        ∧ (r.1 < 4096 → r.2 ≤ 4096 → ∀ g ∈ s.granaries, (u.winCmd g).first = r.1 ∧ (u.winCmd g).count = r.2 ∧ (u.winCmd g).job = w.job)
        ∧ u.rows = s.rows ∧ u.lpddr = s.lpddr)
      ∧ (∀ x, w.runs = [x] →
        (w.kind = .layerNorm → ∃ u, exec (.winPassDone w.part w.job) s = .next u ∧ u.win = none ∧ u.rows = s.rows ∧ u.lpddr = s.lpddr)
        ∧ (w.kind ≠ .layerNorm → let lazies := (s.updated w.part w.job).filter fun i => (s.layer i).lazy_
          let again := w.kind = .update ∧ lazies ≠ [] ∧ w.step % 1024 = 0
          ∃ u, exec (.winPassDone w.part w.job) s = .next u ∧ u.rows = s.rows ∧ (w.kind ≠ .update ∨ lazies = [] → u.lpddr = s.lpddr)
          ∧ (¬ again → u.win = some { w with runs := [], posted := false, asked := [] })
          ∧ (¬ again → w.kind ≠ .restore → ∀ i ∈ s.updated w.part w.job, (s.tt (s.layer i).w).cls = 2 → ∃ q ∈ u.seals, q.tensor = (s.layer i).w)
          ∧ (again → ∃ v, u.win = some v ∧ v.kind = .lazyNorm ∧ v.runs = runsOf lazies ∧ v.posted = true))))

/-! Links (chapter 15). Where a port leaves READY, no request of its gate is outstanding here and none is kept in a receive buffer. -/

/-- The states of a port (Tables 15-4 and 19-2): training, authentication, the error-rate windows, the loss of lock, retrains and rekeys;
a port that leaves READY starts again with empty replay and receive buffers. Rows and LPDDR5X stand. -/
def Obligations.LinkPortStates : Prop :=
  ∀ (p : Nat) (s : State), p < 12 → (s.gate (gateOf p)).ot = [] → (∀ q, (s.port q).rxHeld = []) →
    let x := s.port p
    let speaks := fun (h : Hello) => h.fabric = BitVec.ofNat 16 s.ownFabric ∧ h.encrypt = s.encrypts p ∧ h.chain = s.nv.chain
      ∧ h.quote = s.quoted (bytesOf 64 h.nonce.toNat)
    let rekeys := fun (i : Instr) => ∃ u h, exec i s = .next u ∧ u.regs = s.regs ∧ s.sameMem u ∧ speaks h ∧ u.outbox = s.outbox ++ [.hello p h]
      ∧ u.port p = { x with rekey := true, rekeyAsk := false, hello := false, proof := false, mine := some (s.free + 8, h), theirs := none }
    (s.portState p = 1 → gateOf p ∉ s.shape.deadGate → ∃ u h, exec (.linkTrained p) s = .next u ∧ u.portIn p 2 0
      ∧ u.port p = { x with quote := none, hello := false, proof := false, mine := some (s.free + 8, h), theirs := none }
      ∧ u.outbox.getLast? = some (.hello p h) ∧ h.fabric = BitVec.ofNat 16 s.ownFabric ∧ h.encrypt = s.encrypts p ∧ h.chain = s.nv.chain ∧ s.sameMem u)
    ∧ (s.portState p = 1 → ∃ u, exec (.linkTrainTimeout p) s = .next u ∧ u.portIn p 6 1 ∧ u.port p = x ∧ s.sameMem u)
    ∧ (s.portState p = 2 ∨ x.rekey = true → ∃ u, exec (.authTimeout p) s = .next u ∧ u.portIn p 6 6 ∧ s.sameMem u)
    ∧ (∀ b c k, s.portState p = 3 ∨ s.portUp p = true → ∃ u, exec (.linkBerWindow p b c k) s = .next u
      ∧ u.portState p = berOutcome b k ∧ (s.portState p = 3 → berOutcome b k ≠ 6 → u.port p = x.started) ∧ s.sameMem u)
    ∧ (∀ fourth, s.portUp p = true →
      (∃ u, exec (.linkLockLoss p fourth) s = .next u ∧ (if fourth then u.portIn p 6 9 else u.portIn p 1 0) ∧ u.port p = x.started
        ∧ s.sameMem u)
      ∧ (16 ≤ x.replays → ∃ u, exec (.linkRetrain p fourth) s = .next u ∧ (if fourth then u.portIn p 6 9 else u.portIn p 1 0)
        ∧ u.port p = x.started ∧ s.sameMem u))
    ∧ (s.portUp p = true → x.rekeyAsk = true → x.txSegment = [] → rekeys (.portRekey p))
    ∧ (s.portUp p = true → s.flag (.gatePort p) F.gatePortEncrypt = true → x.rekey = false → 2 ^ 32 ≤ x.txSeg ∨ 2 ^ 32 ≤ x.rxSeg → x.txSegment = [] →
      rekeys (.segmentRekey p))

/-- Replay and acknowledgement (R328, R329): REPLAY_TIMER sends REPLAY and every frame from the oldest; NAK_TIMER and the first
bad frame of a run send NAK with the expected number; ACK_TIMER sends ACK with the freed places; a frame of a reserved TYPE takes its
number and returns its place, a control frame of a reserved KIND has neither. -/
def Obligations.ReplayAndAcknowledge : Prop :=
  ∀ (p : Nat) (s : State), p < 12 → s.portUp p = true →
    let x := s.port p
    let wire := fun (f : Frame) => Emit.frame p f (crc32 f)
    let ctl := fun (kind : Nat) (l : List (Nat × Nat)) => wire ⟨controlHdr kind l, 0⟩
    let naked := { x with nak := true, rxNext := x.ackNext, segment := [], sinceCtl := 0 }
    (∀ q r, x.replay = q :: r → x.segTags = [] → x.replay.length < 49 → ∃ u, exec (.replayTimer p) s = .next u
      ∧ u.outbox = s.outbox ++ ctl 3 [(8, 0), (16, q.1)] :: x.replay.map (fun f => wire f.2)
      ∧ u.port p = { x with sinceCtl := x.replay.length, replays := x.replays + 1 } ∧ s.sameMem u ∧ u.regs = s.regs)
    ∧ (x.nak = true → ∃ u, exec (.nakTimer p) s = .next u ∧ u.outbox = s.outbox ++ [ctl 2 [(8, 0), (16, x.ackNext)]]
      ∧ u.port p = naked ∧ s.sameMem u ∧ u.regs = s.regs ∧ u.ctrs = s.ctrs)
    ∧ (0 < x.unacked → x.dry = false → ∃ u, exec (.ackTimer p) s = .next u
      ∧ u.outbox = s.outbox ++ [ctl 1 [(8, 0), (16, x.ackNext), (16, x.rxFreed)]]
      ∧ u.port p = { x with unacked := 0, rxFreed := 0, sinceCtl := 0 } ∧ s.sameMem u ∧ u.regs = s.regs ∧ u.ctrs = s.ctrs)
    ∧ (0 < x.unacked → x.dry = true → ∃ u, exec (.ackTimer p) s = .next u
      ∧ u.outbox = s.outbox ++ [ctl 1 [(8, 0), (16, x.ackNext), (16, 0)]]
      ∧ u.port p = { x with unacked := 0, sinceCtl := 0 } ∧ s.sameMem u ∧ u.regs = s.regs ∧ u.ctrs = s.ctrs)
    ∧ (∃ u, exec (.badCrcFrame p) s = .next u ∧ u.ctr C.linkCrcErr p = min (s.ctr C.linkCrcErr p + 1) (2 ^ 64 - 1)
      ∧ u.port p = (if x.nak then x else naked)
      ∧ u.outbox = s.outbox ++ (if x.nak then [] else [ctl 2 [(8, 0), (16, x.ackNext)]]) ∧ s.sameMem u ∧ u.regs = s.regs)
    ∧ (∀ h, (fType h = 9 → cKind h = 0 ∨ 7 ≤ cKind h → ∃ u, exec (.reservedTypeFrame p h) s = .next u ∧ u.ports = s.ports ∧ s.sameMem u)
      ∧ (fType h = 0 ∨ fType h = 7 ∨ 10 ≤ fType h → x.nak = false → x.rxArr = x.rxNext → x.rxHeld = [] → x.unacked < 31 → (s.gate (gateOf p)).park = [] →
        s.flag (.gatePort p) F.gatePortEncrypt = false → ∃ u, exec (.reservedTypeFrame p h) s = .next u ∧ s.sameMem u
        ∧ u.port p = { x with rxArr := (x.rxNext + 1) % 65536, rxNext := (x.rxNext + 1) % 65536, unacked := x.unacked + 1, rxFreed := x.rxFreed + 1 }))

/-- Frames that pass their checks (R327, R335, R342, R343): a WRITE fills its row or granary row, or is parked; ACCUM adds as the
accumulate-write of its hatch's job does; COUNT_REQ is answered with the mask rows and the count; SREDUCE sets its slot; a READ is
answered with the row, which it may take; RDATA lands the row that a COPY awaits, and a late or unawaited one frees its entry. Gate 0's answers on loopback join its queue. A request that its hatch refuses changes no
row. -/
def Obligations.FramesLand : Prop :=
  ∀ (p : Nat) (f : Frame) (crc : BitVec 32) (s : State), s.takesFrame p f crc → (∀ k, s.copyingRow k = false) →
    let q := f.hdr
    let h := s.hatchFor p (fHatch q)
    let t := s.hatchRow p h (fOffset q)
    let left := s.loop.drop 1
    let ok := s.hatchCheck p f = 0
    (∀ c ∈ [(1, Instr.frameWrite p ⟨f, crc⟩), (2, .frameWriteOw p ⟨f, crc⟩), (3, .frameAccum p ⟨f, crc⟩), (4, .frameCountReq p ⟨f, crc⟩), (5, .frameSreduce p ⟨f, crc⟩)],
      fType q = c.1 → ¬ok → ∃ u, exec c.2 s = .next u ∧ s.sameMem u
        ∧ (p = 12 → u.loop = left ++ [batchOf (nackHdr (fTag q) (s.hatchCheck p f))]))
    ∧ (∀ c ∈ [(1, Instr.frameWrite p ⟨f, crc⟩), (2, .frameWriteOw p ⟨f, crc⟩)], fType q = c.1 → ok →
      (∀ r, t = .row r → fillOk (s.row r) (c.1 == 2) = true → ∃ u, exec c.2 s = .next u
        ∧ u.row r = ⟨f.payload, if fPoison q then .poison else .full, none, none, none⟩ ∧ s.rowsElsewhere u [r] ∧ u.lpddr = s.lpddr)
      ∧ (∀ r, t = .row r → fillOk (s.row r) (c.1 == 2) = false → ∃ u, exec c.2 s = .next u
        ∧ (u.gate (gateOf p)).park = [⟨p, some (if p = 12 then 0 else (s.port p).rxNext), f, some r⟩] ∧ (r, Waiter.park (gateOf p) (fTag q) p) ∈ u.waits ∧ s.sameMem u)
      ∧ (∀ l n, t = .lp l n → ∃ u, exec c.2 s = .next u ∧ u.lp l.key = .of f.payload (fPoison q)
        ∧ (∀ k, k ≠ l.key → u.lp k = s.lp k) ∧ u.rows = s.rows))
    ∧ (∀ l n, fType q = 3 → ok → t = .lp l n → (s.job h.part h.job).clearing = false → ∃ u, exec (.frameAccum p ⟨f, crc⟩) s = .next u
      ∧ u.lpddr = (s.accumApply h.job l (.bf16 f.payload) (fFlag q) (fPoison q)).lpddr
      ∧ u.epoch = (s.accumApply h.job l (.bf16 f.payload) (fFlag q) (fPoison q)).epoch ∧ u.rows = s.rows)
    ∧ (∀ fm, fType q = 4 → ok → p = 12 → Fmt.ofCode (countReq f.payload).fmt = some fm →
      let c := countReq f.payload
      let ts := (List.range c.rows).map fun i => s.hatchRow p h (fOffset q + i)
      let ms := countRows fm c (ts.map fun t => s.targetRow t)
      s.firstUnread ts = none → ∃ u, exec (.frameCountReq p ⟨f, crc⟩) s = .next u ∧ u.rows = s.rows
      ∧ (∀ k, u.lp k = s.lp k ∨ u.lp k = (s.lp k).fixed)
      ∧ u.loop = left ++ (if c.mask then ms.1.map (fun m => (⟨responseHdr 6 (fTag q) m.2, if m.2 then 0 else m.1⟩ : Frame)) else [])
          ++ [batchOf (countHdr (fTag q) ms.2)])
    ∧ (∀ r, fType q = 5 → ok → t = .row r → (s.row r).tag ≠ .pending → (s.row r).taker = none →
      ∃ u, exec (.frameSreduce p ⟨f, crc⟩) s = .next u
      ∧ u.row r = ⟨reduceSlot (if (s.row r).tag = .empty then 0 else (s.row r).data) f.payload, .full, none, none, none⟩
      ∧ s.rowsElsewhere u [r] ∧ u.lpddr = s.lpddr)
    ∧ (∀ e, fType q = 6 → s.otGet (gateOf p) (fTag q) = some e →
      (s.gate (gateOf p)).ot.length < 8192 →
      (e.expired = true ∨ (e.kind = .read ∧ (s.chan e.cl e.ch).cur = none ∧ (s.chan e.cl e.ch).tail = []) → ∃ u, exec (.frameRdata p ⟨f, crc⟩) s = .next u
        ∧ u.otGet (gateOf p) (fTag q) = none ∧ s.sameMem u)
      ∧ (∀ d b, e.expired = false → e.kind = .read → e.dst = 0 → e.sub = 0 → s.awaitsRow e d b →
        let k := s.chan e.cl e.ch
        ∃ u, exec (.frameRdata p ⟨f, crc⟩) s = .next u ∧ u.otGet (gateOf p) (fTag q) = none
        ∧ u.row b = ⟨f.payload, if fPoison q then .poison else .full, none, none, none⟩ ∧ s.rowsElsewhere u [b] ∧ u.lpddr = s.lpddr
        ∧ u.chan e.cl e.ch = { k with tail := [], done := k.done ++ [{ (Xfer.fresh e.xfer d) with next := 1, rows := 1, poison := fPoison q }] }))
    ∧ (∀ e r, fType q = 8 → batchEntries f = [e] → fType e = 1 → s.hatchCheck p (batchOf e) = 0 →
      s.hatchRow p (s.hatchFor p (fHatch e)) (fOffset e) = .row r → dmaReadOk (s.row r) (fFlag e) = true →
      ∃ u, exec (.frameBatch p ⟨f, crc⟩) s = .next u ∧ s.rowsElsewhere u [r] ∧ u.lpddr = s.lpddr
      ∧ u.row r = (if fFlag e then { s.row r with tag := .empty, writer := none, taker := none, note := none } else s.row r)
      ∧ (p = 12 → let bad := decide ((s.row r).tag = .poison)
          u.loop = left ++ [⟨responseHdr 6 (fTag e) bad, if bad then 0 else (s.row r).data⟩]))

/-- Control frames (R328, R329, R332, R333): ACK drops the acknowledged frames and returns credits, NAK replays from its number, REPLAY
sets the number of the frames that follow, SEG_TAG passes its segment up or has it sent again, a HELLO that fails a check or a PROOF that
does not verify holds the port down with its reason, IDLE carries nothing; one with a stray bit changes no port. -/
def Obligations.ControlFramesActOnPorts : Prop :=
  ∀ (p : Nat) (s : State),
    let x := s.port p
    let wire := fun (f : Frame) => Emit.frame p f (crc32 f)
    let refused := fun (i : Instr) => ∃ u, exec i s = .next u ∧ u.ports = s.ports ∧ s.sameMem u
    (∀ h g, ∀ c ∈ [(1, Instr.ctlAck p h), (2, .ctlNak p h), (3, .ctlReplay p h), (4, .ctlSegTag p h g), (6, .ctlIdle p h)],
      s.ctlArrives p c.1 h → controlOk h = false → refused c.2)
    ∧ (∀ h, s.ctlArrives p 1 h → controlOk h = true → x.blocked = [] →
      let oldest := (x.replay.head?.map Prod.fst).getD x.txNext
      let k := (bits h 16 16 + 65536 - oldest) % 65536
      ∃ u, exec (.ctlAck p h) s = .next u ∧ u.outbox = s.outbox ∧ s.sameMem u ∧ u.regs = s.regs
      ∧ (u.port p).credits = min (x.credits + bits h 32 16) 512
      ∧ (u.port p).replay = (if 0 < k ∧ k ≤ x.replay.length then x.replay.drop k else x.replay)
      ∧ (u.port p).rxNext = x.rxNext ∧ (u.port p).txNext = x.txNext)
    ∧ (∀ h, s.ctlArrives p 2 h → controlOk h = true → x.segTags = [] →
      let l := x.replay.dropWhile fun q => q.1 != bits h 16 16
      (l = [] → exec (.ctlNak p h) s = .next s)
      ∧ (l ≠ [] → l.length < 49 → ∃ u, exec (.ctlNak p h) s = .next u ∧ s.sameMem u ∧ u.regs = s.regs
        ∧ u.outbox = s.outbox ++ wire ⟨controlHdr 3 [(8, 0), (16, bits h 16 16)], 0⟩ :: l.map (fun f => wire f.2)
        ∧ u.port p = { x with sinceCtl := l.length, replays := x.replays + 1 }))
    ∧ (∀ h, s.ctlArrives p 3 h → controlOk h = true → ∃ u, exec (.ctlReplay p h) s = .next u ∧ u.outbox = s.outbox ∧ s.sameMem u
      ∧ (x.nak = true → bits h 16 16 = x.rxNext → u.port p = { x with nak := false, rxArr := bits h 16 16 })
      ∧ (x.nak = true → bits h 16 16 ≠ x.rxNext → u = s)
      ∧ (x.nak = false → u.port p = { x with rxArr := bits h 16 16, rxNext := x.ackNext, segment := [] }))
    ∧ (∀ h g, s.ctlArrives p 4 h → controlOk h = true →
      let good := bits h 32 32 = x.rxSeg % 2 ^ 32 ∧ g = Config.gcmTag x.keyRx x.rxSeg (x.segment.map fun f => (f.hdr, f.payload))
      (x.nak = true ∨ x.segment = [] → exec (.ctlSegTag p h g) s = .next s)
      ∧ (x.nak = false → x.segment ≠ [] → good → ∃ u, exec (.ctlSegTag p h g) s = .next u ∧ (u.port p).segment = []
        ∧ (u.port p).rxSeg = x.rxSeg + 1 ∧ (u.port p).segFail = false)
      ∧ (x.nak = false → x.segment ≠ [] → ¬good → x.segFail = false → ∃ u, exec (.ctlSegTag p h g) s = .next u ∧ s.sameMem u
        ∧ u.port p = { x with segFail := true, nak := true, rxNext := x.ackNext, segment := [], sinceCtl := 0 })
      ∧ (x.nak = false → x.segment ≠ [] → ¬good → x.segFail = true → (s.gate (gateOf p)).ot = [] → (∀ q, (s.port q).rxHeld = []) →
        ∃ u, exec (.ctlSegTag p h g) s = .next u ∧ u.portIn p 6 8 ∧ s.sameMem u))
    ∧ (∀ h, s.ctlArrives p 6 h → controlOk h = true → exec (.ctlIdle p h) s = .next s)
    ∧ (∀ h m, p < 12 → s.portState p = 2 → x.hello = false → x.mine = some m →
      let reason := if Config.chainLeads Config.rootKey h.chain = false then 3 else if Config.sha512 (helloKey h) ≠ s.keyHash p then 4
        else if h.fabric.toNat ≠ s.fld (.gatePort p) F.gatePortPartner ∨ h.fabric.toNat = s.ownFabric then 5
        else if h.encrypt ≠ s.encrypts p then 7 else 0
      ∃ u, exec (.ctlHandshake p (.hello h)) s = .next u ∧ s.sameMem u
      ∧ (if reason = 0 then u.outbox = s.outbox ++ [.proof p (bytesOf 132 (Config.sign (proofDigest m.2 h)).toNat)] ∧ u.regs = s.regs
            ∧ u.port p = { x with hello := true, theirs := some h, quote := some (h.quote ++ chainBytes h.chain) }
         else u.portIn p 6 reason))
    ∧ (∀ sig m h, p < 12 → s.portState p = 2 → x.hello = true → x.rekey = false → x.mine = some m → x.theirs = some h →
      let low := decide (m.2.fabric.toNat ≤ h.fabric.toNat)
      ∃ u, exec (.ctlHandshake p (.proof sig)) s = .next u ∧ s.sameMem u
      ∧ (if signedBy (helloKey h) (proofDigest m.2 h) sig = true then u.portIn p 3 0 ∧ u.port p =
            { x with rxSeg := 0, txSeg := 0, rekey := false, proof := true, mine := none, keyRx := pairKey m.1 m.2 h (!low),
                     keyTx := pairKey m.1 m.2 h low }
         else u.portIn p 6 3))


/-! The host (chapter 16). -/

/-- The modules' states (Table 16-1) and the loss of one: its tags' waiting mailbox writes are dropped and its locks released (R354, R361,
R362); host transactions: a refused one is answered with its reason and performs nothing, a window read answers the bytes, a window
write changes those bytes and no others, EV_TAIL is taken (R352 to R355); the sideband gives less (R351). No row changes. -/
def Obligations.HostModulesAndTransactions : Prop :=
  ∀ (s : State),
    (∀ m, m < 2 → s.mods.length = 2 →
      (3 ≤ s.bootStage → ∃ u, exec (.moduleTrainRequest m) s = .next u ∧ u.modOf m = .training ∧ u.modOf (1 - m) = s.modOf (1 - m)
        ∧ s.sameMem u)
      ∧ ((s.modOf m).up = true → ∃ u, exec (.moduleLinkLoss m) s = .next u ∧ u.modOf m = .training ∧ s.sameMem u
        ∧ (∀ t ∈ s.tagsOf m, t ∈ u.lostTags) ∧ (∀ w ∈ u.mbxWaits, isHost w.sender = true → w.sender ∉ s.tagsOf m)
        ∧ (∀ k, k < 16 → u.fld (.mbxLock .mgmt k) F.mbxLockOwner ∉ s.tagsOf m))
      ∧ (s.modOf m = .training →
        (∀ n, (∃ u, exec (.moduleTrained m .all n) s = .next u ∧ u.modOf m = .x64 ∧ u.hostLost = false ∧ s.sameMem u)
          ∧ (∀ up, ∃ u, exec (.moduleTrained m (.half up) n) s = .next u ∧ u.modOf m = .x32 up ∧ u.hostLost = false ∧ s.sameMem u)
          ∧ (∃ u, exec (.moduleTrained m .neither n) s = .next u ∧ u.modOf m = .down ∧ u.hostLost = s.hostLost ∧ s.sameMem u))
        ∧ (∃ u, exec (.moduleTrainTimeout m) s = .next u ∧ u.modOf m = .down ∧ s.sameMem u)))
    ∧ (s.anyUp = false → s.hostLost = false → exec .hostLoss s = .next { s with hostLost := true })
    ∧ (∀ m h, m < 2 → s.carries m (hTag h) = true → hType h = 1 →
      (s.hostRefusal h false ≠ 0 → ∃ u, exec (.hostRead m h) s = .next u
        ∧ u.outbox = s.outbox ++ [.response (answerHdr h 1 (s.hostRefusal h false)) 0] ∧ s.sameMem u ∧ u.regs = s.regs
        ∧ u.window = s.window)
      ∧ (s.hostRefusal h false = 0 → 0x1000 ≤ hAddr h → hAddr h < 0x100000 → exec (.hostRead m h) s = .next (s.emit (.response
          (answerHdr h 0 0) (BitVec.ofNat 2048 (s.winRead (hAddr h) (hLen h)))))))
    ∧ (∀ m h d, m < 2 → s.carries m (hTag h) = true → hType h = 2 →
      (s.hostRefusal h true ≠ 0 → ∃ u, exec (.hostWrite m h d) s = .next u
        ∧ u.outbox = s.outbox ++ [.response (answerHdr h 1 (s.hostRefusal h true)) 0] ∧ s.sameMem u ∧ u.regs = s.regs
        ∧ u.window = s.window)
      ∧ (s.hostRefusal h true = 0 → hAddr h = 0x10 → exec (.hostWrite m h d) s = .next { s with evTail := d.extractLsb' 0 64 })
      ∧ (s.hostRefusal h true = 0 → 0x1000 ≤ hAddr h → hAddr h < 0x100000 → ∃ u, exec (.hostWrite m h d) s = .next u
        ∧ (∀ i, i < hLen h → u.winByte (hAddr h + i) = d.extractLsb' (8 * i) 8)
        ∧ (∀ a, a < hAddr h ∨ hAddr h + hLen h ≤ a → u.winByte a = s.winByte a)
        ∧ s.sameMem u ∧ u.regs = s.regs ∧ u.outbox = s.outbox))
    ∧ (∀ m h d, m < 2 → 3 ≤ s.bootStage →
      (sidebandMay h = false → exec (.sidebandAccess m h d) s = .next (s.emit (.response (answerHdr h 1 2) 0)))
      ∧ (hType h = 1 → hAddr h < 0x20 → s.hostRefusal h false = 0 → exec (.sidebandAccess m h d) s = .next (s.emit (.response
          (answerHdr h 0 0) (BitVec.ofNat 2048 (packNat 8 ((List.range (hLen h)).map fun i => (s.headerByte (hAddr h + i)).toNat)))))))

/-- Mailboxes and locks (R359, R360, R362): MAILBOX_WRITE by a sender of the mailbox completes, and its word is in the empty mailbox; it waits for a
full one behind which nothing waits, and ends with a timeout behind a waiting one; a read by the receiver empties the mailbox and lets the waiting word land, a read by the
sender changes nothing; a wait that times out ends with RECEIVER_SLOW; a free lock goes to its reader, and its owner, or a management
core by FORCE, releases it. A block of a partition in reset answers TARGET_RESETTING (R22). -/
def Obligations.MailboxesAndLocks : Prop :=
  ∀ (b : MbxBlk) (n a : Nat) (s : State), mbxOk b = true → 1 ≤ a → s.mbxReach b a = true →
    (n < 64 →
      let refused := fun (v : Word) => ∃ u, exec (.mailboxWrite b n a v) s = .next u ∧ u.rd (.mbxData b n) = s.rd (.mbxData b n)
        ∧ u.mbxFull b n = s.mbxFull b n ∧ u.mbxWaits = s.mbxWaits ∧ s.sameMem u
      (∀ v, mbxSends b n a = true → a ∉ s.lostTags → s.receiverInReset b n = false →
        (s.mbxFull b n = false → ∃ u, exec (.mailboxWrite b n a v) s = .next u ∧ u.rd (.mbxData b n) = v ∧ u.mbxFull b n = true
          ∧ u.fld (.mbxSender b n) F.mbxSenderSender = a ∧ u.outbox.getLast? = some (.access a 0 0 0) ∧ s.sameMem u)
        ∧ (s.mbxFull b n = true → s.mbxWaiting b n = false → ∃ u, exec (.mailboxWrite b n a v) s = .next u
          ∧ u.mbxWaits = s.mbxWaits ++ [⟨b, n, a, v, s.fld (.mbxTimeout b) F.mbxTimeoutMs, none⟩] ∧ u.mbxWaiting b n = true
          ∧ u.rd (.mbxData b n) = s.rd (.mbxData b n) ∧ u.outbox = s.outbox ∧ s.sameMem u)
        ∧ (s.mbxFull b n = true → s.mbxWaiting b n = true → refused v ∧ ∃ u, exec (.mailboxWrite b n a v) s = .next u
          ∧ u.outbox = s.outbox ++ [.access a 2 3 0]))
      ∧ (∀ v, mbxSends b n a = false → (b = .mgmt → n ≠ 63) → refused v)
      ∧ (s.mbxResets b a = true → b ≠ .mgmt → mbxSends b n a = true ∨ mbxReceives b n a = true → exec (.mailboxRead b n a) s = .next (s.resetAnswer a))
      ∧ (s.mbxResets b a = false → (b = .mgmt → (SMap.get (fun _ => []) s.cplq n).length = 0 ∧ (SMap.get (fun _ => []) s.cplq (32 + n)).length < 64) →
        let seen := fun (u : State) (v : Word) => u.outbox.getLast? = some (.access a 0 0 v) ∧ s.sameMem u
        (mbxReceives b n a = true → s.mbxFull b n = true → (s.takeWait b n).1 = none → ∃ u, exec (.mailboxRead b n a) s = .next u
          ∧ seen u (s.rd (.mbxData b n)) ∧ u.mbxFull b n = false ∧ u.rd (.mbxSender b n) = s.rd (.mbxSender b n))
        ∧ (∀ w, mbxReceives b n a = true → s.mbxFull b n = true → (s.takeWait b n).1 = some w →
          ∃ u, exec (.mailboxRead b n a) s = .next u ∧ seen u (s.rd (.mbxData b n)) ∧ u.mbxFull b n = true
          ∧ u.rd (.mbxData b n) = w.data ∧ u.mbxWaiting b n = false)
        ∧ (mbxReceives b n a = true → s.mbxFull b n = false → exec (.mailboxRead b n a) s = .next (s.emit (.access a 0 0 0)))
        ∧ (mbxReceives b n a = false → mbxSends b n a = true →
          exec (.mailboxRead b n a) s = .next (s.emit (.access a 0 0 (s.rd (.mbxData b n)))))
        ∧ (∀ w, (s.takeWait b n).1 = some w → ∃ u, exec (.mailboxWaitTimeout b n) s = .next u
          ∧ u.mbxWaits = (s.takeWait b n).2.mbxWaits ∧ u.mbxWaiting b n = false ∧ u.outbox = (s.answer w.host w.sender 2 1).outbox
          ∧ u.rd (.mbxData b n) = s.rd (.mbxData b n) ∧ s.sameMem u)))
    ∧ (∀ k, k < 16 → mbxInner b a = true ∨ mbxOuter b a = true →
      let r := Reg.mbxLock b k
      let own := s.fld r F.mbxLockOwner
      s.mbxResets b a = false → exec (.lockRead b k a) s = .next ((if own = 0 then s.wr r (BitVec.ofNat 64 a) else s).emit
          (.access a 0 0 (if own = a then 0 else BitVec.ofNat 64 own)))
      ∧ (a ∉ s.lostTags → exec (.lockRelease b k a) s = .next ((if own = a then s.wr r 0 else s).emit (.access a 0 0 0))
      ∧ exec (.lockForce b k a) s = .next ((if isMgmt a then s.wr r 0 else s).emit (.access a 0 0 0))))

/-! Firmware commands (chapter 17). Where a command completes here, no other is outstanding. -/

/-- A command that fails a check of Table 17-3 ends with that check's status in its record and completion word, and is not performed; one
with the CID of an outstanding command ends with KS_BUSY by the word alone. Either way its mailbox has been read: t is the state then (R360,
R365, R368, R370, R371, R374). -/
def Obligations.FirmwareRefusesByItsChecks : Prop :=
  ∀ (c : FwCmd) (f : BringIn) (s : State), ∀ q ∈ fwRows c f, fwOk c = true → s.fwReads q.1 c = true →
    let t := s.fwTake c
    let o := t.readCmd c
    let st := t.readStatus o
    let twin := t.fw.any fun x => decide (x.cmd.cid % 1024 = c.cid % 1024)
    (o.formOk = true → t.resultOk o = true → twin = true → exec q.2 s = .next (t.completeWord c (.of KS.busy)))
    ∧ ((o.formOk && t.resultOk o) = false ∨ twin = false → st ≠ 0 → exec q.2 s = .next (t.complete c (.of st))
      ∧ s.sameMem (t.complete c (.of st)) ∧ (t.complete c (.of st)).fw = s.fw
      ∧ (t.complete c (.of st)).winRead (0x40000 + 64 * (c.cid % 1024)) 2 = st)
    ∧ (s.mbxFull .mgmt c.mbox = true →
      (∀ w ∈ s.mbxWaits, w.blk = .mgmt → w.n ≠ c.mbox) → t.mbxFull .mgmt c.mbox = false)

/-- Device-wide commands that answer at once: DEVICE_RESET, DEVICE_QUERY, INVENTORY, ENV_SET, CAL_READ, ATTEST_QUOTE, SEEDPACK_LOAD and
CAL_WRITE (R372, R377, R378, R387, R390, R407 to R409, R425, R450). Rows and LPDDR5X stand but for a reset. A new record serves from the
next tick; until then the old one stands in force. -/
def Obligations.FirmwareAnswersForTheDevice : Prop :=
  ∀ (c : FwCmd) (s : State),
    let o := s.readCmd c
    let num := fun (lo : Nat) => o.body lo 0 32
    (s.fwFirst 0x03 c →
      (o.arg 32 1 = 1 → s.hot = false → ∃ u, exec (.deviceReset c) s = .next u ∧ u.bootStage = 4 ∧ u.fw = [] ∧ u.rows = [] ∧ u.lpddr = []
        ∧ u.tasks = [] ∧ u.jobs = [] ∧ u.beatNo = 0 ∧ u.nv = s.nv ∧ u.pending = s.pending ∧ u.sec.logCount = 1
        ∧ u.sec.thermo = s.sec.thermo ∧ u.sec.revoke = s.sec.revoke ∧ u.mods = s.mods ∧ u.defects = s.defects)
      ∧ (o.arg 32 1 = 1 → s.hot = true → ∃ u, exec (.deviceReset c) s = .next u ∧ u.completed c KS.busy ∧ s.sameMem u)
      ∧ (o.arg 32 1 = 0 → ∃ u, exec (.deviceReset c) s = .next u ∧ u.completed c KS.badArg ∧ s.sameMem u))
    ∧ (s.fwFirst 0x01 c → ∃ u, exec (.deviceQuery c) s = .next u ∧ u.completed c 0 ∧ u.holds o.resultAt s.shapeRecord ∧ s.sameMem u)
    ∧ (s.fwFirst 0x02 c → ∃ u, exec (.inventory c) s = .next u ∧ u.completed c 0 ∧ u.holds o.resultAt s.inventoryList ∧ s.sameMem u)
    ∧ (s.fwFirst 0x04 c → ∃ u, exec (.envSet c) s = .next u ∧ u.completed c 0 ∧ s.sameMem u ∧ u.board = { s.board with
        time := BitVec.ofNat 64 (o.body 16 0 64), coolant := BitVec.ofNat 32 (num 24), flowOk := decide (o.body 28 0 1 = 1) })
    ∧ (s.fwFirst 0x12 c → calRecord (num 16) = true →
      (s.cal (num 16) = none → ∃ u, exec (.calRead c) s = .next u ∧ u.completed c KS.noResource ∧ s.sameMem u)
      ∧ (∀ l, s.cal (num 16) = some l → ∃ u, exec (.calRead c) s = .next u ∧ u.completed c 0 ∧ u.holds o.resultAt l ∧ s.sameMem u))
    ∧ (s.fwFirst 0x14 c → o.body 80 0 8 = 0 → ∃ u, exec (.attestQuote c) s = .next u ∧ u.completed c 0 ∧ s.sameMem u
      ∧ u.holds o.resultAt (s.attest (bytesOf 64 (o.body 16 0 512))))
    ∧ (s.fwFirst 0x14 c → 1 ≤ o.body 80 0 8 → 12 < o.body 80 0 8 ∨ (s.port (o.body 80 0 8 - 1)).quote = none →
      ∃ u, exec (.attestQuote c) s = .next u ∧ u.completed c (if 12 < o.body 80 0 8 then KS.badArg else KS.noResource) ∧ s.sameMem u)
    ∧ (∀ q, s.fwFirst 0x14 c → 1 ≤ o.body 80 0 8 → o.body 80 0 8 ≤ 12 → (s.port (o.body 80 0 8 - 1)).quote = some q →
      ∃ u, exec (.attestQuote c) s = .next u ∧ u.completed c 0 ∧ u.holds o.resultAt q ∧ s.sameMem u)
    ∧ (s.fwFirst 0x11 c → s.window_ = none → staged (num 16) (num 20) = true →
      let l := s.winBytes (num 16) (num 20)
      ∃ u, exec (.seedpackLoad c) s = .next u ∧ u.completed c (s.verify 2 l) ∧ s.sameMem u
        ∧ (s.verify 2 l = 0 → u.seedPack = some (objNum (objBody l) 0 4) ∧ u.sec.logCount = s.sec.logCount + 1
          ∧ u.seedSets = (List.range (objNum (objBody l) 4 2)).map fun i => objNum (objBody l) (16 + 16 * i) 2)
        ∧ (s.verify 2 l ≠ 0 → u.seedPack = s.seedPack ∧ u.sec = s.sec))
    ∧ (s.fwFirst 0x13 c → (∀ w, s.window_ = some w → w.pack ≠ 0xFFFF) → calRecord (num 16) = true → staged (num 20) (num 24) = true →
      s.runningOn (calDies (num 16)) = false →
      let l := s.winBytes (num 20) (num 24)
      let st := if s.verify 3 l ≠ 0 then s.verify 3 l else if objNum (objBody l) 0 4 ≠ num 16 then KS.badArg
        else if 448 * 1024 < s.calBytes - ((s.cal (num 16)).getD []).length + l.length then KS.noResource else 0
      ∃ u, exec (.calWrite c) s = .next u ∧ u.completed c st ∧ s.sameMem u
        ∧ (st = 0 → u.cal (num 16) = some l ∧ u.calNow (num 16) = s.calNow (num 16) ∧ u.sec.logCount = s.sec.logCount + 1)
        ∧ (st ≠ 0 → u.nv = s.nv ∧ u.sec = s.sec))

/-- Commands of a partition that end at once (Tables 17-6 and 17-7): JOB_CONFIG, TITHE_CONFIG and STEP_CONFIG keep settings for the next
step; PAGE_MAP maps or unmaps; the first piece of a page-in lands in a free frame, its last makes the page PRESENT; the first
piece of a page-out is copied out, its last makes the page HOST; a page-in may be abandoned; STEP_RESULT brings the result that the
next tick uses, STEP_VOID ends the step; SEQ_JOIN queues a sequence. What happens to pages is stated where nothing waits in the granaries or
on a channel (State.still); the command completes all the same. -/
def Obligations.FirmwarePagesStepsAndSettings : Prop :=
  ∀ (c : FwCmd) (s : State),
    let o := s.readCmd c
    let p := o.part
    let j := o.job
    let b := s.job p j
    let live := s.partOn p = true ∧ (b.stat = .running ∨ b.stat = .stopped)
    let pg := o.body 16 0 24
    let w := s.pageOf p pg
    let at_ := o.body 20 0 32
    let pkt := BitVec.ofNat 128 (o.body 16 0 128)
    (s.fwFirst 0x27 c → live → o.body 18 0 16 ≤ 240 → 32 + 2 * o.body 18 0 16 ≤ c.len →
      let l := (List.range (o.body 18 0 16)).map fun i => o.body (32 + 2 * i) 0 16
      (∀ t ∈ l, s.foreignTensor o t = false ∧ t < 32768) → ∃ u, exec (.jobConfig c) s = .next u ∧ u.completed c 0
      ∧ u.job p j = { b with frozenNext := some (o.body 16 0 1 == 1, l) } ∧ s.sameMem u)
    ∧ (s.fwFirst 0x38 c → live → o.body 26 0 16 ≠ 0 → o.body 18 0 16 + o.body 26 0 16 ≤ 1024 → 32 + o.body 26 0 16 ≤ c.len →
      o.body 24 0 8 ≤ 8 ∨ o.body 24 0 8 = 0xFF → ∃ u, exec (.titheConfig c) s = .next u ∧ u.completed c 0 ∧ s.sameMem u
      ∧ (let x : Tithe := ⟨o.body 16 0 16, o.body 18 0 16, at_, o.body 24 0 8, (List.range (o.body 26 0 16)).map fun i => o.body (32 + i) 0 8⟩
         u.job p j = { b with titheNext := some x }))
    ∧ (s.fwFirst 0x40 c → live →
      let ms := (List.range (o.body 30 0 8)).map fun i => o.body (64 + 2 * i) 0 16
      let f := fun (a : Nat) => BitVec.ofNat 32 (o.body a 0 32)
      1 ≤ ms.length → ms.length ≤ 64 → 64 + 2 * ms.length ≤ c.len → 1 ≤ o.body 28 0 16 → o.body 28 0 16 ≤ 10000 → o.body 26 0 16 ∈ ms →
      ∃ u, exec (.stepConfig c) s = .next u ∧ u.completed c 0 ∧ s.sameMem u
      ∧ (let cfg : StepCfg := ⟨f 16, o.body 20 0 40, o.body 26 0 16, o.body 28 0 16, f 32, f 36, o.body 40 0 1 == 1, ms⟩
         u.job p j = { b with cfgNext := some cfg }))
    ∧ (s.fwFirst 0x33 c → s.partOn p = true → b.stat ≠ .killing → pg + at_ ≤ 2 ^ 24 →
      let t := o.body 26 0 16
      (o.body 24 0 8 = 1 → (∀ i, i < at_ → pgState (s.pageOf p (pg + i)) = 0) → s.foreignTensor o t = false → t < 32768 →
        s.storesWf = true → at_ ≤ s.freeFrames → ∃ u, exec (.pageMap c) s = .next u ∧ u.completed c 0 ∧ (s.still → u.rows = s.rows
        ∧ ∀ i, i < at_ → let v := u.pageOf p (pg + i); pgState v = 1 ∧ pgJob v = j ∧ pgTensor v = t
          ∧ ∀ r, r < 4096 → u.lp (pgFrame v * 4096 + r) = LpRow.init))
      ∧ (o.body 24 0 8 = 0 → t < 32768 → (∀ i, i < at_ → pgState (s.pageOf p (pg + i)) = 0 ∨ pgJob (s.pageOf p (pg + i)) = j) →
        ∃ u, exec (.pageMap c) s = .next u ∧ u.completed c 0 ∧ u.rows = s.rows ∧ (∀ i, i < at_ → u.pageOf p (pg + i) = 0)))
    ∧ (s.fwFirst 0x34 c → live → pgState w = 2 → pgJob w = j → o.body 19 2 1 = 0 → staged at_ (512 * 1024) = true →
      let k := o.body 19 0 2
      (∀ f, SMap.get (fun _ => none) s.moves (pageKey p pg) = none → s.freeFrame = some f → ∃ u, exec (.pageIn c) s = .next u
        ∧ u.completed c 0 ∧ SMap.get (fun _ => none) u.moves (pageKey p pg) = some ⟨f, [k], false⟩ ∧ u.rows = s.rows
        ∧ (∀ r, r < 1024 → u.lp (f * 4096 + 1024 * k + r) = .of (BitVec.ofNat 4096 (s.winRead (at_ + 512 * r) 512)) false))
      ∧ (∀ f l, SMap.get (fun _ => none) s.moves (pageKey p pg) = some ⟨f, l, false⟩ → (dedup (l ++ [k])).length = 4 →
        f < 9141504 → ∃ u, exec (.pageIn c) s = .next u ∧ u.completed c 0 ∧ (s.still → u.rows = s.rows
        ∧ u.pageOf p pg = mkPage 1 f (pgTensor w) j
        ∧ (∀ r, r < 1024 → u.lp (f * 4096 + 1024 * k + r) = .of (BitVec.ofNat 4096 (s.winRead (at_ + 512 * r) 512)) false))))
    ∧ (s.fwFirst 0x34 c → live → pgState w = 2 → pgJob w = j → o.body 19 2 1 = 1 → ∃ u, exec (.pageIn c) s = .next u ∧ u.completed c 0
      ∧ (s.still → u.rows = s.rows ∧ SMap.get (fun _ => none) u.moves (pageKey p pg) = none))
    ∧ (s.fwFirst 0x35 c → live → pgState w = 1 → pgJob w = j → staged at_ (512 * 1024) = true →
      let k := o.body 19 0 2
      let held := SMap.get (fun _ => none) s.moves (pageKey p pg)
      let out := fun (u : State) => (o.resultAt = 0 → u.holds at_ ((s.pieceOut p pg k).1.flatMap fun r => bytesOf 512 r.toNat))
        ∧ (o.resultAt ≠ 0 → u.holds o.resultAt (bytesOf 128 (maskOf (s.pieceOut p pg k).2)))
      (k ≠ 3 → held.isSome = true ∨ (k = 0 ∧ s.pageInUse p pg = false) → ∃ u, exec (.pageOut c) s = .next u ∧ u.completed c 0 ∧ u.rows = s.rows
        ∧ (∀ a, u.lp a = s.lp a ∨ u.lp a = (s.lp a).fixed) ∧ SMap.get (fun _ => none) u.moves (pageKey p pg) = some ⟨pgFrame w, [], true⟩ ∧ out u)
      ∧ (k = 3 → held.isSome = true → pgFrame w < 9141504 → ∃ u, exec (.pageOut c) s = .next u ∧ u.completed c 0 ∧ (s.still → out u
        ∧ u.rows = s.rows ∧ (∀ r, r < 4096 → u.lp (pgFrame w * 4096 + r) = LpRow.init) ∧ u.pageOf p pg = mkPage 2 (o.body 24 0 24) (pgTensor w) j
        ∧ SMap.get (fun _ => none) u.moves (pageKey p pg) = none)))
    ∧ (s.fwFirst 0x42 c → live → b.stage = .hold → b.result = none → b.arrived = none → ∃ u, exec (.stepResult c) s = .next u ∧ s.sameMem u
      ∧ (if (packetOf pkt).step = b.t then u.completed c 0 ∧ u.job p j = { b with arrived := some pkt }
        else u.completed c KS.stepSkew ∧ u.job p j = b))
    ∧ (s.fwFirst 0x43 c → live → b.stage = .reduce ∨ b.stage = .hold → s.hostLost = false → ∃ u, exec (.stepVoid c) s = .next u
      ∧ u.completed c 0 ∧ (u.job p j).stage = .none ∧ s.sameMem u)
    ∧ (∀ i, s.fwFirst 0x51 c → s.partOn p = true → (s.seqCfg p).en = true → o.body 24 0 32 < 2 ^ 24 → o.body 28 0 32 < 2 ^ 24 →
      (List.find? (fun i => (s.slotEnt p i).state == 0) (List.range (s.seqCfg p).count)) = some i → (s.seqCfg p).first + i < 16384 →
      ∃ u, exec (.seqJoin c) s = .next u ∧ u.completed c 0 ∧ s.sameMem u ∧ (u.slotEnt p i).state = 1
      ∧ (u.slotEnt p i).prompt = o.body 24 0 32 ∧ (u.slotEnt p i).tokens = o.body 16 0 45 ∧ (u.slotEnt p i).limit = o.body 28 0 32
      ∧ (u.seqMgr p).nextJoin = ((s.seqMgr p).nextJoin + 1) % 2 ^ 32)

/-- Commands that end with an apply (R52, R374): firmware writes the shadows, arms the blocks, and waits for the tick; nothing is in
force yet, and nothing is measured. A start or a link configuration whose blocks fail a rule ends with KS_BAD_ARG, and arms nothing. -/
def Obligations.FirmwareArmsApplies : Prop :=
  ∀ (c : FwCmd) (s : State), s.bring = none →
    let o := s.readCmd c
    let p := o.part
    let j := o.job
    let k := { s.fwTake c with fw := [o] }
    let arms := fun (i : Instr) (bs : List Blk) (l : List (Reg × Nat)) => ∃ u, exec i s = .next u ∧ u.waitsFor o (.apply bs)
      ∧ u.allArmed bs ∧ (∀ q ∈ l, s.shadowed u q.1 q.2) ∧ s.sameMem u ∧ u.jobs = s.jobs ∧ u.parts = s.parts ∧ u.sec = s.sec
    let image := fun (r : Nat → Reg) (from_ n : Nat) => (List.range n).map fun i => (r i, o.body (from_ + 8 * i) 0 64)
    let named := fun (i : Instr) (st : Nat) => ∃ u, exec i s = .next u ∧ u.completed c st ∧ s.sameMem u
    let live := s.partOn p = true ∧ ((s.job p j).stat = .running ∨ (s.job p j).stat = .stopped)
    let hs := s.liveGates.map Blk.hatch
    (s.fwFirst 0x05 c → arms (.beatConfig c) [.beat] [(.beatSync, packBits [(2, o.body 16 0 2), (2, 0), (12, o.body 16 32 12)]),
      (.beatLen, o.body 16 8 5)])
    ∧ (s.fwFirst 0x70 c → arms (.powerLimit c) [.pwr] [(.pwrLimit, o.arg 32 15), (.pwrCfg, o.arg 48 4)])
    ∧ (s.fwFirst 0x71 c → p < 12 → arms (.powerWeight c) [.pwr] [(.pwrWeight p, o.arg 40 8)])
    ∧ (s.fwFirst 0x20 c → p < 12 → o.arg 56 8 ≠ 0 → s.partEn p = false → arms (.partitionCreate c) [.mgt] [(.mgtPart p,
      packBits [(3, o.arg 40 3), (1, 0), (3, o.arg 44 3), (1, 0), (3, o.arg 48 3), (1, 0), (3, o.arg 52 3), (1, 0), (1, 1)])])
    ∧ (s.fwFirst 0x30 c → live →
      let t := o.body 16 0 16
      t < 32768 → s.foreignTensor o t = false → (∀ q ∈ s.seals, q.tensor ≠ t) → imageBad o 64 (.ttEntry 0 t) = false →
      o.body 64 1 4 = p → o.body 64 5 4 = j → arms (.tensorRegister c) (s.granaries.map Blk.tt) (s.granaries.flatMap fun g => image (.ttEntry g t) 64 5))
    ∧ (s.fwFirst 0x36 c → live →
      let n := o.body 16 0 16
      n < 4096 → ((s.layer n).valid = true → (s.layer n).job = j ∧ (s.tt (s.layer n).w).part = p) → imageBad o 64 (.layer 0 n) = false →
      o.body 64 1 4 = j → (o.body 18 0 1 = 1 → (s.job p j).stat = .stopped ∧
        ∀ i, i < 4 → stray (BitVec.ofNat 64 (o.body (128 + 8 * i) 0 64)) ((winStateFields i).map fun f => (f.lo, f.len)) = false) →
      arms (.layerRegister c) (s.granaries.map Blk.win) (s.granaries.flatMap fun g => image (.layer g n) 64 5))
    ∧ (s.fwFirst 0x61 c →
      let n := o.body 16 0 16
      n < 1024 → imageBad o 64 (.hatchEntry 0 n) = false → o.body 64 8 4 = p → (s.hatch n).state = 0 →
      arms (.hatchOpen c) hs (s.liveGates.flatMap fun g => image (fun i => .hatchEntry g n (i + 1)) 72 4)
      ∧ ∃ u, exec (.hatchOpen c) s = .next u ∧ ∀ g ∈ s.liveGates, bits (u.rdS (.hatchEntry g n 0)) 0 2 = 1)
    ∧ (s.fwFirst 0x62 c →
      ((s.hatch (o.arg 32 10)).state = 1 → arms (.hatchClose c) hs []
        ∧ ∃ u, exec (.hatchClose c) s = .next u ∧ ∀ g ∈ s.liveGates, bits (u.rdS (.hatchEntry g (o.arg 32 10) 0)) 0 2 = 2)
      ∧ ((s.hatch (o.arg 32 10)).state = 2 → ∃ u, exec (.hatchClose c) s = .next u ∧ u.waitsFor o (.hatch (o.arg 32 10)) ∧ s.sameMem u)
      ∧ ((s.hatch (o.arg 32 10)).state = 0 → named (.hatchClose c) KS.hatchClosed))
    ∧ (s.fwFirst 0x50 c → s.partOn p = true →
      let rs := [Reg.seqShare p, .seqPool p, .seqSet p, .seqStep p, .seqRows p]
      (∀ i, i < 5 → stray (BitVec.ofNat 64 (o.body (16 + 8 * i) 0 64)) ((rs.getD i .beatCtrl).fields.map fun f => (f.lo, f.len)) = false) →
      arms (.seqConfig c) [.seq] (image (fun i => rs.getD i .beatCtrl) 16 5))
    ∧ (s.fwFirst 0x60 c → o.body 18 12 4 = 0 → 32 + 72 * o.ports.length ≤ c.len →
      (∀ i, i < o.ports.length → stray (BitVec.ofNat 64 (o.body (32 + 72 * i) 0 64)) [(0, 3), (16, 16)] = false) →
      (∀ i, i < o.ports.length → o.body (32 + 72 * i) 0 1 = 1 → o.ports.getD i 0 / 3 ∉ s.shape.deadGate) →
      let gs := s.liveGates.map Blk.gate
      ((k.linkShadow o).firstRule gs = none → arms (.linkConfig c) gs []
        ∧ ∃ u, exec (.linkConfig c) s = .next u ∧ ∀ g ∈ s.liveGates, u.fldS (.gateCfg g) F.gateCfgFabricId = o.body 16 0 16)
      ∧ ((k.linkShadow o).firstRule gs ≠ none → named (.linkConfig c) KS.badArg))
    ∧ (s.fwFirst 0x23 c → c.blk = false → s.partOn p = true → (s.job p j).stat = .stopped → s.manifestHole (s.job p j).manifest = false →
      let x := k.dspShadow p j fun v => setBits v 0 1 1
      (x.firstRule (s.resumeBlks p j) = none → arms (.jobStart c) (s.resumeBlks p j) []
        ∧ ∃ u, exec (.jobStart c) s = .next u ∧ (∀ cl ∈ s.clustersOf p, u.fldS (.dspJob cl j) F.dspJobRun = 1))
      ∧ (x.firstRule (s.resumeBlks p j) ≠ none → named (.jobStart c) KS.badArg))
    ∧ (s.fwFirst 0x23 c → c.blk = true → s.partOn p = true → (s.job p j).stat = .free ∨ (s.job p j).stat = .stopped →
      match s.readManifest p j (o.body 16 0 45) with
      | .foreign => named (.jobStart c) KS.denied
      | .none => named (.jobStart c) KS.signature
      | .unreadable => named (.jobStart c) KS.badArg
      | .rows m =>
        let fresh := decide ((s.job p j).stat = .free)
        let x := k.startShadow o fresh m
        let bs := s.startBlks p fresh m
        let quotas := fresh = true ∨ ∀ cl ∈ s.clustersOf p, (s.rd (.clNquota cl j)).toNat = o.nearQuota ∧ (s.rd (.clLquota cl j)).toNat = o.loftQuota
        ((s.part p).rolling = true → named (.jobStart c) KS.busy)
        ∧ ((s.part p).rolling = false → s.manifestHole m = true ∨ ¬ quotas ∨ x.firstRule bs ≠ none → named (.jobStart c) KS.badArg)
        ∧ ((s.part p).rolling = false → s.manifestHole m = false → quotas → x.firstRule bs = none → ∃ u, exec (.jobStart c) s = .next u
          ∧ u.waitsFor o (.apply bs) ∧ u.allArmed bs ∧ u.job p j = { s.job p j with manifestNext := m } ∧ u.sec = s.sec ∧ s.sameMem u))

/-- Commands that wait for what they ask for: the reset of a partition, a job's stop or kill, a seal, a phase, layer norms, a leave, the
snapshot, a window, the step start, a restore, bring-up. Asking changes neither rows nor LPDDR5X (R223, R262, R268, R287, R299, R318,
R319, R374, R385, R393, R420, R435, R441). -/
def Obligations.FirmwareAsksAndWaits : Prop :=
  ∀ (c : FwCmd) (s : State), s.bring = none →
    let o := s.readCmd c
    let p := o.part
    let j := o.job
    let b := s.job p j
    let on := s.partOn p = true
    let live := s.partOn p = true ∧ (b.stat = .running ∨ b.stat = .stopped)
    let t := o.arg 40 15
    let asks := fun (i : Instr) (w : FwWait) (k : State → Prop) => ∃ u, exec i s = .next u ∧ u.waitsFor o w ∧ s.sameMem u ∧ k u
    let ok := fun (_ : State) => True
    (s.fwFirst 0x21 c → on → asks (.partitionDestroy c) (.reset p true) fun u => u.parts = s.parts)
    ∧ (s.fwFirst 0x22 c → on → asks (.partitionReset c) (.reset p false) fun u => u.parts = s.parts)
    ∧ (s.fwFirst 0x24 c → on → b.stat = .running → asks (.jobStop c) (.stop p j) fun u => u.jobs = s.jobs)
    ∧ (s.fwFirst 0x24 c → on → b.stat = .stopped → ∃ u, exec (.jobStop c) s = .next u ∧ u.completed c 0 ∧ s.sameMem u)
    ∧ (s.fwFirst 0x25 c → live → asks (.jobKill c) (.kill p j) fun u => u.jobs = s.jobs)
    ∧ (s.fwFirst 0x31 c → live → s.foreignTensor o t = false → (∀ q ∈ s.seals, q.tensor ≠ t) → (s.tt t).valid = true →
      (s.tt t).view = false → (s.tt t).cls = 2 → asks (.tensorSeal c) (.seal t) fun u => u.seals = s.seals ++ [⟨t, false, false⟩])
    ∧ (s.fwFirst 0x32 c → live → s.foreignTensor o t = false → (∀ q ∈ s.seals, q.tensor ≠ t) → (s.tt t).valid = true →
      (s.tt t).view = false → (s.tt t).cls = 0 → asks (.tensorUnseal c) (.seal t) fun u => u.seals = s.seals ++ [⟨t, true, false⟩])
    ∧ (s.fwFirst 0x44 c → on → o.arg 40 2 ≠ 3 → asks (.phaseSet c) (.phase p) fun u =>
      u.part p = { s.part p with request := some (o.arg 40 2, o.arg 42 1 == 1) })
    ∧ (s.fwFirst 0x45 c → on → b.stat = .stopped ∨ (b.stat = .running ∧ b.stage = .none) → asks (.layerNorm c) (.normAsk p j) ok)
    ∧ (s.fwFirst 0x52 c → on → o.arg 40 14 < (s.seqCfg p).count →
      ((s.slotEnt p (o.arg 40 14)).state = 4 → ∃ u, exec (.seqCancel c) s = .next u ∧ u.completed c 0 ∧ s.sameMem u)
      ∧ (1 ≤ (s.slotEnt p (o.arg 40 14)).state → (s.slotEnt p (o.arg 40 14)).state ≤ 3 →
        asks (.seqCancel c) (.leave p (o.arg 40 14)) fun u => o.arg 40 14 ∈ (u.seqMgr p).cancels))
    ∧ (s.fwFirst 0x82 c → asks (.telemetry c) .snapshot fun u => u.snapAsked = true)
    ∧ (s.fwFirst 0x81 c → s.scopeBad o = false → asks (.countersRead c) .snapshot fun u => u.snapAsked = true)
    ∧ (s.fwFirst 0x80 c → s.window_ = none →
      let mask := BitVec.ofNat 36 (o.body 16 0 36)
      let pack := o.body 28 0 16
      s.runningOn (dieMask mask.toNat) = false → pack = 0 ∨ (if pack = 0xFFFF then mask = BitVec.allOnes 36 else pack ∈ s.seedSets) →
      asks (.testWindow c) .window fun u => u.window_ = some ⟨c, mask, o.body 24 0 32, pack, o.body 30 0 3, none, 0, [], []⟩)
    ∧ (s.fwFirst 0x41 c → live → (s.part p).phase = 0 → b.stage = .none → o.body 16 0 48 = (s.lastUpdated p j + 1) % 2 ^ 48 →
      (∀ q ∈ s.stepTensors p j, q ∉ b.pub → (s.tt q).cls = 0 ∧ ∀ x ∈ s.seals, x.tensor ≠ q) →
      asks (.stepBegin c) (.stepStart p j) fun u => u.jobs = s.jobs)
    ∧ (s.fwFirst 0x37 c → on → b.stat = .stopped → o.body 32 0 64 < 2 ^ 48 →
      let src := o.body 16 0 8
      let at_ := o.body 24 0 64
      (∀ q ∈ s.seals, q.tensor ∈ (s.layersOf p j).map (fun i => (s.layer i).w) → q.tensor ∈ b.pub) →
      (src = 0 ∧ at_ % 512 = 0 ∧ at_ < 2 ^ 45 ∧ ∀ g, at_ / 512 / 4096 ≤ g → g * 4096 < at_ / 512 + 25 * s.slots p j →
          pgState (s.pageOf p g) = 1 ∧ pgJob (s.pageOf p g) = j)
        ∨ (src = 1 ∧ at_ < 2 ^ 16 ∧ (b.titheNext.isSome = true ∨ b.tithe.isSome = true)) →
      asks (.jobRestore c) (.restore p j) fun u => (u.job p j).stage = .none
        ∧ ∃ r, u.restore = some r ∧ r.part = p ∧ r.job = j ∧ r.source = src ∧ r.addr = at_ ∧ r.step = o.body 32 0 64 ∧ r.begun = false)
    ∧ (∀ f, s.fwFirst 0x10 c →
      let l := s.winBytes (o.body 16 0 32) (o.body 20 0 32)
      staged (o.body 16 0 32) (o.body 20 0 32) = true → o.body 20 0 32 ≤ 655360 →
      ∃ u, exec (.imageLoad c f) s = .next u ∧ s.sameMem u
      ∧ (s.verify 1 l = 0 → u.waitsFor o .bringup ∧ u.bring = some (c, f) ∧ u.sec.imageOk = true
        ∧ u.bootStage = (if s.jtagHolds then 5 else 6) ∧ (s.jtagHolds = false → u.board.pwrEn = true)
        ∧ (s.railsGood = false → u.sec.logCount = s.sec.logCount + 1))
      ∧ (s.verify 1 l ≠ 0 → u.completed c (s.verify 1 l) ∧ u.bring = none ∧ u.bootStage = 4))

/-! Counters, tests, power and the test access port (chapters 19 to 22). -/

/-- COUNTER_SNAPSHOT ends a read that holds what a tick latched for it: a COUNTERS_READ puts its entries at RESULT_AT, TELEMETRY has
its values in the record; a test window starts and ends, ending its command; 16
quiet beats of a RUNNING core make it dead; MGT_RST_N starts the boot ROM; rails come up one by one, one that does not is fatal, and the
loss of one or a thermal trip takes PWR_EN_MAIN away and leaves no row and no task; the analogue reading becomes valid; the test
access port takes its instructions (R395, R420, R424, R427, R441, R446 to R449, R454 to R456). -/
def Obligations.BoardAndTestRows : Prop :=
  ∀ (s : State),
    (∀ gs o l, s.fw = [o] → o.wait = .gather l → 0x60000 ≤ o.resultAt → ∃ u, exec (.counterSnapshot gs) s = .next u ∧ u.completed o.cmd 0
      ∧ s.sameMem u ∧ u.ctrs = s.ctrs ∧ (o.op ≠ 0x82 → u.holds o.resultAt (s.heldBytes gs l))
      ∧ (o.op = 0x82 → ∀ a k v t, l = (a, k, some v) :: t → u.winRead (0x40000 + 64 * (o.cmd.cid % 1024) + 16) 48 = v % 2 ^ 384))
    ∧ (∀ w, s.window_ = some w → w.started = none → s.flag .beatCtrl F.beatCtrlRun = true →
      exec .testWindowStart s = .next { s with window_ := some { w with
        started := some w.beats, since := s.beatNo.toNat, watch := s.nv.watch, first := s.testFirst } })
    ∧ (∀ w o rs cs, s.window_ = some w → w.started = some 0 → (∀ r ∈ rs, s.resultFits w r = true) → s.resultsInOrder w rs = true → s.fw = [o] → o.wait = .window →
      0x60000 ≤ o.resultAt → ∃ u, exec (.testWindowEnd rs cs) s = .next u ∧ u.window_ = none ∧ u.completed o.cmd 0)
    ∧ (∀ c, c < 2304 → s.coreHole c = false → (s.running c).isSome = true → 16 ≤ (s.core c).quiet →
      ∃ u, exec (.coreWatchdog c) s = .next u ∧ u.core c = { s.core c with dead := true } ∧ (∀ k, k ≠ c → u.core k = s.core k)
      ∧ s.sameMem u ∧ u.tasks = s.tasks ∧ u.regs = s.regs)
    ∧ (s.bootStage = 0 → ∃ u, exec .mgtResetRelease s = .next u ∧ u.bootStage = 4 ∧ u.sec.logCount = s.sec.logCount + 1 ∧ s.sameMem u)
    ∧ (∀ pin, s.board.pwrEn = true → ∃ u, exec (.mainPowerGood pin) s = .next u ∧ pin ∈ u.board.good
      ∧ (∀ q ∈ s.board.good, q ∈ u.board.good) ∧ s.sameMem u ∧ (s.bring = none → u.bootStage = s.bootStage))
    ∧ (∀ o f, s.bring = some (o.cmd, f) → s.bootStage = 6 → s.railsGood = false → s.fw = [o] → ∃ u, exec .mainRailTimeout s = .next u ∧ u.bootStage = 0xFF
      ∧ u.bring = none ∧ u.completed o.cmd KS.fault ∧ s.sameMem u)
    ∧ (∀ pin, (s.board.pwrEn = true ∧ pin ∈ s.board.good) ∨ pin ∈ s.board.goodAtTrip → ∃ u, exec (.powerGoodLoss pin) s = .next u ∧ u.board.pwrEn = false
      ∧ u.bootStage = 0xFF ∧ u.rows = [] ∧ u.lpddr = [] ∧ u.tasks = [] ∧ u.flag .beatCtrl F.beatCtrlRun = false ∧ u.nv = s.nv
      ∧ pin ∉ u.board.goodAtTrip)
    ∧ (∀ site i k, sensorOk site i k = true → ∃ u, exec (.thermalTrip site i k) s = .next u ∧ u.board.tripN = true
      ∧ u.board.pwrEn = false ∧ u.bootStage = 0xFF ∧ u.rows = [] ∧ u.lpddr = [] ∧ u.window_ = none ∧ Emit.thermTrip ∈ u.outbox
      ∧ (s.board.pwrEn = true → u.board.goodAtTrip = s.board.good))
    ∧ (∀ k code, k < 2 → s.flag (.atbRead k) F.atbReadValid = false → ∃ u, exec (.atbSettle k code) s = .next u
      ∧ u.flag (.atbRead k) F.atbReadValid = true ∧ s.sameMem u
      ∧ (s.board.pwrEn = true → u.fld (.atbRead k) F.atbReadCode = code.toNat))
    ∧ (let ir := fun (i : Instr) (v : BitVec 8) (l : List Emit) => ∃ u, exec i s = .next u ∧ u.board.ir = v ∧ s.sameMem u ∧ (s.bring = none →
        u.outbox = s.outbox ++ l ∧ u.bootStage = s.bootStage ∧ u.board.pwrEn = s.board.pwrEn ∧ u.regs = s.regs)
      let hold := fun (v : BitVec 8) => if s.bootStage < 6 ∨ s.bootStage = 0xFF then v else 0xFF
      ir .jtagExtest (hold 0) [] ∧ ir .jtagClamp (hold 3) [] ∧ ir .jtagHighz (hold 4) []
      ∧ ir .jtagIdcode 2 [.tdo 32 0x0D2365AB] ∧ ir .jtagStatus 0x10 [.tdo 64 s.jtagWord] ∧ ir .jtagBypass 0xFF [] ∧ ir .jtagReset 2 []
      ∧ (∀ pre, ir (.jtagSamplePreload pre) 1 [.tdo 18 (Config.freeWord s.free &&& 0x3FFFF)]
        ∧ ∃ u, exec (.jtagSamplePreload pre) s = .next u ∧ u.board.cells = pre))
end

