-- ==== Sys2Proof/Laws/Bits.lean ====
section
/-! SUPPORT. The laws of bit fields: a field reads back as written, and a write leaves the bits outside its field alone. -/

namespace Sys2Proof

theorem getLsbD_fieldMask {n : Nat} (lo len i : Nat) :
    (fieldMask n lo len).getLsbD i = (decide (i < n) && decide (lo ≤ i) && decide (i < lo + len)) := by
  unfold fieldMask
  simp only [BitVec.getLsbD_shiftLeft, BitVec.getLsbD_ofNat, Nat.testBit_two_pow_sub_one]
  by_cases h1 : i < n <;> by_cases h2 : lo ≤ i <;> by_cases h3 : i < lo + len <;> simp [h1, h2, h3] <;> omega

theorem getLsbD_setBits {n : Nat} (w : BitVec n) (lo len v i : Nat) :
    (setBits w lo len v).getLsbD i =
      if i < n ∧ lo ≤ i ∧ i < lo + len then v.testBit (i - lo) else w.getLsbD i := by
  unfold setBits
  simp only [BitVec.getLsbD_or, BitVec.getLsbD_and, BitVec.getLsbD_not, getLsbD_fieldMask, BitVec.getLsbD_shiftLeft,
    BitVec.getLsbD_ofNat]
  by_cases h1 : i < n
  · by_cases h2 : lo ≤ i <;> by_cases h3 : i < lo + len <;> simp [h1, h2, h3]
    rw [decide_eq_false (by omega), decide_eq_true (show i - lo < n by omega)]
    simp
  · have : w.getLsbD i = false := BitVec.getLsbD_of_ge w i (by omega)
    simp [h1, this]

theorem testBit_bits {n : Nat} (w : BitVec n) (lo len i : Nat) :
    (bits w lo len).testBit i = (decide (i < len) && w.getLsbD (lo + i)) := by
  unfold bits
  rw [BitVec.testBit_toNat, BitVec.getLsbD_extractLsb']

/-- A field reads back as what was written to it, cut to its width. -/
theorem bits_setBits_same {n : Nat} (w : BitVec n) (lo len v : Nat) (h : lo + len ≤ n) :
    bits (setBits w lo len v) lo len = v % 2 ^ len := by
  apply Nat.eq_of_testBit_eq
  intro i
  rw [testBit_bits, Nat.testBit_mod_two_pow, getLsbD_setBits]
  by_cases hi : i < len
  · have : lo + i < n ∧ lo ≤ lo + i ∧ lo + i < lo + len := by omega
    simp [hi, this]
  · simp [hi]

/-- A write of one field leaves every field apart from it alone. -/
theorem bits_setBits_apart {n : Nat} (w : BitVec n) (lo len v lo' len' : Nat) (h : lo + len ≤ lo' ∨ lo' + len' ≤ lo) :
    bits (setBits w lo len v) lo' len' = bits w lo' len' := by
  apply Nat.eq_of_testBit_eq
  intro i
  rw [testBit_bits, testBit_bits, getLsbD_setBits]
  by_cases hi : i < len'
  · have : ¬ (lo' + i < n ∧ lo ≤ lo' + i ∧ lo' + i < lo + len) := by omega
    simp [hi, this]
  · simp [hi]

theorem bits_lt {n : Nat} (w : BitVec n) (lo len : Nat) : bits w lo len < 2 ^ len := (w.extractLsb' lo len).isLt

/-- Writing a field's own value changes nothing. -/
theorem setBits_bits {n : Nat} (w : BitVec n) (lo len : Nat) : setBits w lo len (bits w lo len) = w := by
  apply BitVec.eq_of_getLsbD_eq
  intro i hi
  rw [getLsbD_setBits]
  split
  · rename_i h
    rw [testBit_bits]
    have : i - lo < len := by omega
    simp [this, Nat.add_sub_cancel' h.2.1]
  · rfl

theorem bitAt_setBit_same {n : Nat} (w : BitVec n) (i : Nat) (b : Bool) (h : i < n) : bitAt (setBit w i b) i = b := by
  unfold bitAt setBit
  rw [getLsbD_setBits]
  cases b <;> simp [h]

theorem bitAt_setBit_ne {n : Nat} (w : BitVec n) (i j : Nat) (b : Bool) (h : i ≠ j) : bitAt (setBit w i b) j = bitAt w j := by
  unfold bitAt setBit
  rw [getLsbD_setBits, if_neg (by omega)]

end Sys2Proof
end

