-- ==== Sys2Proof/Laws/Mailboxes.lean ====
section
/-! SUPPORT. What the operations over mailboxes can change, said once: a firmware command's mailbox is read before the command is
performed, so every frame of a firmware command rests on these. -/

namespace Sys2Proof.Machine

variable {s t u : State}

theorem State.mbxSame_refl (s : State) : s.mbxSame s := rfl

theorem State.mbxSame_trans (h : s.mbxSame t) (k : t.mbxSame u) : s.mbxSame u := by
  have e : { u with regs := s.regs, outbox := s.outbox, mbxWaits := s.mbxWaits, cplq := s.cplq, ctrs := s.ctrs, fwTurn := s.fwTurn }
      = { ({ u with regs := t.regs, outbox := t.outbox, mbxWaits := t.mbxWaits, cplq := t.cplq, ctrs := t.ctrs, fwTurn := t.fwTurn } : State) with
          regs := s.regs, outbox := s.outbox, mbxWaits := s.mbxWaits, cplq := s.cplq, ctrs := s.ctrs, fwTurn := s.fwTurn } := rfl
  unfold State.mbxSame
  rw [e, show { u with regs := t.regs, outbox := t.outbox, mbxWaits := t.mbxWaits, cplq := t.cplq, ctrs := t.ctrs, fwTurn := t.fwTurn } = t from k]
  exact h

theorem State.mbxSame_wr (r : Reg) (w : Word) : s.mbxSame (s.wr r w) := rfl
theorem State.mbxSame_emit (e : Emit) : s.mbxSame (s.emit e) := rfl
theorem State.mbxSame_count (c : Ctr) (k n b : Nat) : s.mbxSame (s.count c k n b) := rfl

theorem State.mbxSame_answer (h : Option (BitVec 128)) (a st r : Nat) : s.mbxSame (s.answer h a st r) := by
  cases h <;> rfl

theorem State.mbxSame_ite {p : Prop} [Decidable p] (h : s.mbxSame t) (k : s.mbxSame u) : s.mbxSame (if p then t else u) := by
  split <;> assumption

/-- A word that lands. -/
theorem State.mbxSame_mbxLand (b : MbxBlk) (n a : Nat) (w : Word) : s.mbxSame (s.mbxLand b n a w) := by
  refine State.mbxSame_trans (t := ((s.wr (.mbxData b n) w).setFld (.mbxSender b n) F.mbxSenderSender a).setBitOf (.mbxStatus b) n true) ?_ ?_
  · exact State.mbxSame_trans (State.mbxSame_trans (State.mbxSame_wr _ _) (State.mbxSame_wr _ _)) (State.mbxSame_wr _ _)
  · unfold State.mbxLand
    refine State.mbxSame_ite ?_ (State.mbxSame_refl _)
    cases b
    · exact State.mbxSame_ite (State.mbxSame_emit _) (State.mbxSame_emit _)
    all_goals exact State.mbxSame_emit _

/-- A write of a mailbox that waits is taken out. -/
theorem State.mbxSame_takeWait (b : MbxBlk) (n : Nat) : s.mbxSame (s.takeWait b n).2 := rfl

theorem State.mbxSame_mbxTimeout (b : MbxBlk) (n a r : Nat) : s.mbxSame (s.mbxTimeout b n a r) := by
  have h : s.mbxSame (match b with
      | .mgmt => s.count C.mbxTimeouts 0
      | _ => s) := by
    cases b
    · exact State.mbxSame_count ..
    all_goals exact State.mbxSame_refl _
  exact State.mbxSame_trans h (State.mbxSame_ite (State.mbxSame_refl _) (State.mbxSame_wr ..))

theorem State.mbxSame_mbxWrite (b : MbxBlk) (n a : Nat) (w : Word) (h : Option (BitVec 128)) : s.mbxSame (s.mbxWrite b n a w h).1 := by
  unfold State.mbxWrite
  split
  · exact State.mbxSame_trans (State.mbxSame_mbxTimeout ..) (State.mbxSame_answer ..)
  split
  · exact State.mbxSame_trans (State.mbxSame_mbxLand ..) (State.mbxSame_answer ..)
  split
  · exact State.mbxSame_trans (State.mbxSame_mbxTimeout ..) (State.mbxSame_answer ..)
  · rfl

theorem State.mbxSame_pump (n k : Nat) : s.mbxSame (s.pump n k) := by
  induction k generalizing s with
  | zero => exact State.mbxSame_refl _
  | succ k ih =>
    unfold State.pump
    split
    · exact State.mbxSame_refl _
    split
    · exact State.mbxSame_refl _
    · rename_i w l _
      refine State.mbxSame_trans (t := { s with cplq := SMap.put (fun _ => []) s.cplq n l }) rfl (State.mbxSame_trans ?_ ih)
      exact State.mbxSame_trans (State.mbxSame_mbxWrite ..) (State.mbxSame_ite (State.mbxSame_count ..) (State.mbxSame_refl _))

theorem State.mbxSame_mbxRead (b : MbxBlk) (n a : Nat) : s.mbxSame (s.mbxRead b n a).2 := by
  unfold State.mbxRead
  split
  · exact State.mbxSame_refl _
  split
  · exact State.mbxSame_refl _
  dsimp only
  have h0 : s.mbxSame (s.setBitOf (.mbxStatus b) n false) := State.mbxSame_wr ..
  generalize s.setBitOf (.mbxStatus b) n false = x at h0 ⊢
  have h1 : x.mbxSame (match x.takeWait b n with
      | (some w, s') => (s'.mbxLand b n w.sender w.data).answer w.host w.sender 0 0
      | (none, _) => x) := by
    have h := State.mbxSame_takeWait (s := x) b n
    generalize x.takeWait b n = q at h ⊢
    obtain ⟨o, y⟩ := q
    cases o
    · exact State.mbxSame_refl _
    · exact State.mbxSame_trans h (State.mbxSame_trans (State.mbxSame_mbxLand ..) (State.mbxSame_answer ..))
  refine State.mbxSame_trans h0 (State.mbxSame_trans h1 ?_)
  clear h0 h1
  cases b
  · exact State.mbxSame_ite (State.mbxSame_pump ..) (State.mbxSame_refl _)
  all_goals exact State.mbxSame_refl _

/-- Firmware reads a command's mailbox. -/
theorem State.mbxSame_fwTake (c : FwCmd) : s.mbxSame (s.fwTake c) := by
  unfold State.fwTake
  split
  · exact State.mbxSame_refl _
  · exact State.mbxSame_trans (State.mbxSame_mbxRead ..) rfl

theorem State.mbxSame_rows (h : s.mbxSame t) : t.rows = s.rows := by
  unfold State.mbxSame at h
  rw [← h]
theorem State.mbxSame_lpddr (h : s.mbxSame t) : t.lpddr = s.lpddr := by
  unfold State.mbxSame at h
  rw [← h]
theorem State.mbxSame_jobs (h : s.mbxSame t) : t.jobs = s.jobs := by
  unfold State.mbxSame at h
  rw [← h]
theorem State.mbxSame_tasks (h : s.mbxSame t) : t.tasks = s.tasks := by
  unfold State.mbxSame at h
  rw [← h]
theorem State.mbxSame_window (h : s.mbxSame t) : t.window = s.window := by
  unfold State.mbxSame at h
  rw [← h]
theorem State.mbxSame_shadow (h : s.mbxSame t) : t.shadow = s.shadow := by
  unfold State.mbxSame at h
  rw [← h]
theorem State.mbxSame_fw (h : s.mbxSame t) : t.fw = s.fw := by
  unfold State.mbxSame at h
  rw [← h]
theorem State.mbxSame_bring (h : s.mbxSame t) : t.bring = s.bring := by
  unfold State.mbxSame at h
  rw [← h]

end Sys2Proof.Machine
end

