-- ==== Sys2Proof/Laws/SMap.lean ====
section
/-! SUPPORT. The laws of sparse collections: a read after a write, writes elsewhere, and the canonical form kept. -/

namespace Sys2Proof

variable {α : Type}

theorem SMap.find?_erase (m : SMap α) (x y : Nat) :
    SMap.find? (SMap.erase m x) y = if x = y then none else SMap.find? m y := by
  induction m with
  | nil => simp [SMap.erase, SMap.find?]
  | cons p m ih =>
    obtain ⟨k, v⟩ := p
    by_cases hkx : k = x
    · subst hkx
      simp only [SMap.erase, if_true, ih, SMap.find?]
      split <;> simp_all
    · simp only [SMap.erase, if_neg hkx, SMap.find?, ih]
      by_cases hky : k = y
      · subst hky; simp [Ne.symm hkx]
      · simp [hky]

theorem SMap.above_erase {m : SMap α} {x k : Nat} (h : SMap.above k m = true) :
    SMap.above k (SMap.erase m x) = true := by
  induction m with
  | nil => rfl
  | cons p m ih =>
    obtain ⟨j, v⟩ := p
    simp only [SMap.above, Bool.and_eq_true] at h
    simp only [SMap.erase]
    split
    · exact ih h.2
    · simp [SMap.above, h.1, ih h.2]

theorem SMap.above_insert {m : SMap α} {x k : Nat} {w : α} (h : SMap.above k m = true) (hk : k < x) :
    SMap.above k (SMap.insert m x w) = true := by
  induction m with
  | nil => simp [SMap.insert, SMap.above, hk]
  | cons p m ih =>
    obtain ⟨j, v⟩ := p
    have h' := h
    simp only [SMap.above, Bool.and_eq_true] at h
    simp only [SMap.insert]
    split
    · simp [SMap.above, hk, h]
    · split
      · simp [SMap.above, hk, h.2]
      · simp [SMap.above, h.1, ih h.2]

theorem SMap.above_mono {m : SMap α} {x k : Nat} (h : SMap.above k m = true) (hk : x ≤ k) :
    SMap.above x m = true := by
  induction m with
  | nil => rfl
  | cons p m ih =>
    obtain ⟨j, v⟩ := p
    simp only [SMap.above, Bool.and_eq_true, decide_eq_true_eq] at h ⊢
    exact ⟨by omega, ih h.2⟩

theorem SMap.find?_above {m : SMap α} {x k : Nat} (h : SMap.above k m = true) (hx : x ≤ k) :
    SMap.find? m x = none := by
  induction m with
  | nil => rfl
  | cons p m ih =>
    obtain ⟨j, v⟩ := p
    simp only [SMap.above, Bool.and_eq_true, decide_eq_true_eq] at h
    simp only [SMap.find?]
    rw [if_neg (by omega), ih h.2]

theorem SMap.find?_insert (m : SMap α) (x y : Nat) (w : α) :
    SMap.find? (SMap.insert m x w) y = if x = y then some w else SMap.find? m y := by
  induction m with
  | nil => simp [SMap.insert, SMap.find?]
  | cons p m ih =>
    obtain ⟨k, v⟩ := p
    simp only [SMap.insert]
    split
    · simp [SMap.find?]
    · split
      · rename_i _ h; subst h
        by_cases hy : x = y <;> simp [SMap.find?, hy]
      · rename_i _ h
        simp only [SMap.find?, ih]
        by_cases hy : x = y
        · subst hy; simp [Ne.symm h]
        · simp [hy]

/-- A read after a write of the same key answers the value written. -/
@[simp] theorem SMap.get_put_same [DecidableEq α] (d : Nat → α) (m : SMap α) (x : Nat) (w : α) :
    SMap.get d (SMap.put d m x w) x = w := by
  unfold SMap.get SMap.put
  split
  · rename_i h; simp [SMap.find?_erase, h]
  · simp [SMap.find?_insert]

/-- A write leaves every other key alone. -/
theorem SMap.get_put_ne [DecidableEq α] (d : Nat → α) (m : SMap α) {x y : Nat} (w : α) (h : x ≠ y) :
    SMap.get d (SMap.put d m x w) y = SMap.get d m y := by
  unfold SMap.get SMap.put
  split
  · simp [SMap.find?_erase, h]
  · simp [SMap.find?_insert, h]

theorem SMap.get_put [DecidableEq α] (d : Nat → α) (m : SMap α) (x y : Nat) (w : α) :
    SMap.get d (SMap.put d m x w) y = if x = y then w else SMap.get d m y := by
  by_cases h : x = y
  · subst h; simp
  · simp [h, SMap.get_put_ne d m w h]

theorem SMap.wf_erase [DecidableEq α] {d : Nat → α} {m : SMap α} {x : Nat} (h : SMap.wf d m = true) :
    SMap.wf d (SMap.erase m x) = true := by
  induction m with
  | nil => rfl
  | cons p m ih =>
    obtain ⟨k, v⟩ := p
    simp only [SMap.wf, Bool.and_eq_true] at h
    simp only [SMap.erase]
    split
    · exact ih h.2
    · simp only [SMap.wf, Bool.and_eq_true]
      exact ⟨⟨SMap.above_erase h.1.1, h.1.2⟩, ih h.2⟩

theorem SMap.wf_insert [DecidableEq α] {d : Nat → α} {m : SMap α} {x : Nat} {w : α} (h : SMap.wf d m = true)
    (hw : w ≠ d x) : SMap.wf d (SMap.insert m x w) = true := by
  induction m with
  | nil => simp [SMap.insert, SMap.wf, SMap.above, hw]
  | cons p m ih =>
    obtain ⟨k, v⟩ := p
    simp only [SMap.wf, Bool.and_eq_true] at h
    simp only [SMap.insert]
    split
    · rename_i hx
      simp [SMap.wf, SMap.above, hx, hw, h, SMap.above_mono h.1.1 (Nat.le_of_lt hx)]
    · split
      · rename_i hx; subst hx; simp [SMap.wf, h, hw]
      · simp only [SMap.wf, Bool.and_eq_true]
        exact ⟨⟨SMap.above_insert h.1.1 (by omega), h.1.2⟩, ih h.2⟩

/-- Every write keeps the canonical form. -/
theorem SMap.wf_put [DecidableEq α] {d : Nat → α} {m : SMap α} (x : Nat) (w : α) (h : SMap.wf d m = true) :
    SMap.wf d (SMap.put d m x w) = true := by
  unfold SMap.put
  split
  · exact SMap.wf_erase h
  · rename_i hw; exact SMap.wf_insert h hw

/-- Changing every listed value keeps the canonical form. -/
theorem SMap.above_mapVals [DecidableEq α] (d : Nat → α) (f : Nat → α → α) {m : SMap α} {x : Nat} (h : SMap.above x m = true) :
    SMap.above x (SMap.mapVals d f m) = true := by
  induction m with
  | nil => rfl
  | cons p m ih =>
    obtain ⟨k, v⟩ := p
    simp only [SMap.above, Bool.and_eq_true] at h
    simp only [SMap.mapVals]
    split
    · exact ih h.2
    · simp [SMap.above, h.1, ih h.2]

theorem SMap.wf_mapVals [DecidableEq α] (d : Nat → α) (f : Nat → α → α) {m : SMap α} (h : SMap.wf d m = true) :
    SMap.wf d (SMap.mapVals d f m) = true := by
  induction m with
  | nil => rfl
  | cons p m ih =>
    obtain ⟨k, v⟩ := p
    simp only [SMap.wf, Bool.and_eq_true] at h
    simp only [SMap.mapVals]
    split
    · exact ih h.2
    · rename_i hv
      simp only [SMap.wf, Bool.and_eq_true]
      exact ⟨⟨SMap.above_mapVals d f h.1.1, by simpa using hv⟩, ih h.2⟩

end Sys2Proof
end

