-- ==== Sys2Proof/Laws/State.lean ====
section
/-! SUPPORT. What each update of the state leaves alone: one lemma per update and field, so that no proof unfolds a record
update. -/

namespace Sys2Proof.Machine

variable (s : State)

/-! `State.wr`. -/

@[simp] theorem State.wr_pending (r : Reg) (w : Word) : (s.wr r w).pending = s.pending := rfl
@[simp] theorem State.wr_free (r : Reg) (w : Word) : (s.wr r w).free = s.free := rfl
@[simp] theorem State.wr_outbox (r : Reg) (w : Word) : (s.wr r w).outbox = s.outbox := rfl
@[simp] theorem State.wr_shadow (r : Reg) (w : Word) : (s.wr r w).shadow = s.shadow := rfl
@[simp] theorem State.wr_suspects (r : Reg) (w : Word) : (s.wr r w).suspects = s.suspects := rfl
@[simp] theorem State.wr_late (r : Reg) (w : Word) : (s.wr r w).late = s.late := rfl
@[simp] theorem State.wr_ctrs (r : Reg) (w : Word) : (s.wr r w).ctrs = s.ctrs := rfl
@[simp] theorem State.wr_snap (r : Reg) (w : Word) : (s.wr r w).snap = s.snap := rfl
@[simp] theorem State.wr_snapBeat (r : Reg) (w : Word) : (s.wr r w).snapBeat = s.snapBeat := rfl
@[simp] theorem State.wr_snapAsked (r : Reg) (w : Word) : (s.wr r w).snapAsked = s.snapAsked := rfl
@[simp] theorem State.wr_rows (r : Reg) (w : Word) : (s.wr r w).rows = s.rows := rfl
@[simp] theorem State.wr_lpddr (r : Reg) (w : Word) : (s.wr r w).lpddr = s.lpddr := rfl
@[simp] theorem State.wr_checks (r : Reg) (w : Word) : (s.wr r w).checks = s.checks := rfl
@[simp] theorem State.wr_lpPatrol (r : Reg) (w : Word) : (s.wr r w).lpPatrol = s.lpPatrol := rfl
@[simp] theorem State.wr_window (r : Reg) (w : Word) : (s.wr r w).window = s.window := rfl
@[simp] theorem State.wr_moves (r : Reg) (w : Word) : (s.wr r w).moves = s.moves := rfl
@[simp] theorem State.wr_ceRows (r : Reg) (w : Word) : (s.wr r w).ceRows = s.ceRows := rfl
@[simp] theorem State.wr_retiredRows (r : Reg) (w : Word) : (s.wr r w).retiredRows = s.retiredRows := rfl
@[simp] theorem State.wr_copying (r : Reg) (w : Word) : (s.wr r w).copying = s.copying := rfl
@[simp] theorem State.wr_epoch (r : Reg) (w : Word) : (s.wr r w).epoch = s.epoch := rfl
@[simp] theorem State.wr_walk (r : Reg) (w : Word) : (s.wr r w).walk = s.walk := rfl
@[simp] theorem State.wr_bringups (r : Reg) (w : Word) : (s.wr r w).bringups = s.bringups := rfl
@[simp] theorem State.wr_seals (r : Reg) (w : Word) : (s.wr r w).seals = s.seals := rfl
@[simp] theorem State.wr_pinned (r : Reg) (w : Word) : (s.wr r w).pinned = s.pinned := rfl
@[simp] theorem State.wr_goneViews (r : Reg) (w : Word) : (s.wr r w).goneViews = s.goneViews := rfl
@[simp] theorem State.wr_copyGone (r : Reg) (w : Word) : (s.wr r w).copyGone = s.copyGone := rfl
@[simp] theorem State.wr_tasks (r : Reg) (w : Word) : (s.wr r w).tasks = s.tasks := rfl
@[simp] theorem State.wr_taskSeq (r : Reg) (w : Word) : (s.wr r w).taskSeq = s.taskSeq := rfl
@[simp] theorem State.wr_groups (r : Reg) (w : Word) : (s.wr r w).groups = s.groups := rfl
@[simp] theorem State.wr_engs (r : Reg) (w : Word) : (s.wr r w).engs = s.engs := rfl
@[simp] theorem State.wr_cores (r : Reg) (w : Word) : (s.wr r w).cores = s.cores := rfl
@[simp] theorem State.wr_clus (r : Reg) (w : Word) : (s.wr r w).clus = s.clus := rfl
@[simp] theorem State.wr_chans (r : Reg) (w : Word) : (s.wr r w).chans = s.chans := rfl
@[simp] theorem State.wr_waits (r : Reg) (w : Word) : (s.wr r w).waits = s.waits := rfl
@[simp] theorem State.wr_arrivals (r : Reg) (w : Word) : (s.wr r w).arrivals = s.arrivals := rfl
@[simp] theorem State.wr_jobs (r : Reg) (w : Word) : (s.wr r w).jobs = s.jobs := rfl
@[simp] theorem State.wr_parts (r : Reg) (w : Word) : (s.wr r w).parts = s.parts := rfl
@[simp] theorem State.wr_power (r : Reg) (w : Word) : (s.wr r w).power = s.power := rfl
@[simp] theorem State.wr_edgeDraw (r : Reg) (w : Word) : (s.wr r w).edgeDraw = s.edgeDraw := rfl
@[simp] theorem State.wr_powerOver (r : Reg) (w : Word) : (s.wr r w).powerOver = s.powerOver := rfl
@[simp] theorem State.wr_grng (r : Reg) (w : Word) : (s.wr r w).grng = s.grng := rfl
@[simp] theorem State.wr_win (r : Reg) (w : Word) : (s.wr r w).win = s.win := rfl
@[simp] theorem State.wr_tithes (r : Reg) (w : Word) : (s.wr r w).tithes = s.tithes := rfl
@[simp] theorem State.wr_titheSeq (r : Reg) (w : Word) : (s.wr r w).titheSeq = s.titheSeq := rfl
@[simp] theorem State.wr_packetsOut (r : Reg) (w : Word) : (s.wr r w).packetsOut = s.packetsOut := rfl
@[simp] theorem State.wr_restore (r : Reg) (w : Word) : (s.wr r w).restore = s.restore := rfl
@[simp] theorem State.wr_ports (r : Reg) (w : Word) : (s.wr r w).ports = s.ports := rfl
@[simp] theorem State.wr_gates (r : Reg) (w : Word) : (s.wr r w).gates = s.gates := rfl
@[simp] theorem State.wr_loop (r : Reg) (w : Word) : (s.wr r w).loop = s.loop := rfl
@[simp] theorem State.wr_beat (r : Reg) (w : Word) : (s.wr r w).beat = s.beat := rfl
@[simp] theorem State.wr_mbxWaits (r : Reg) (w : Word) : (s.wr r w).mbxWaits = s.mbxWaits := rfl
@[simp] theorem State.wr_mods (r : Reg) (w : Word) : (s.wr r w).mods = s.mods := rfl
@[simp] theorem State.wr_lostTags (r : Reg) (w : Word) : (s.wr r w).lostTags = s.lostTags := rfl
@[simp] theorem State.wr_hostLost (r : Reg) (w : Word) : (s.wr r w).hostLost = s.hostLost := rfl
@[simp] theorem State.wr_bootStage (r : Reg) (w : Word) : (s.wr r w).bootStage = s.bootStage := rfl
@[simp] theorem State.wr_stageWord (r : Reg) (w : Word) : (s.wr r w).stageWord = s.stageWord := rfl
@[simp] theorem State.wr_evHead (r : Reg) (w : Word) : (s.wr r w).evHead = s.evHead := rfl
@[simp] theorem State.wr_evTail (r : Reg) (w : Word) : (s.wr r w).evTail = s.evTail := rfl
@[simp] theorem State.wr_evLost (r : Reg) (w : Word) : (s.wr r w).evLost = s.evLost := rfl
@[simp] theorem State.wr_evOver (r : Reg) (w : Word) : (s.wr r w).evOver = s.evOver := rfl
@[simp] theorem State.wr_fw (r : Reg) (w : Word) : (s.wr r w).fw = s.fw := rfl
@[simp] theorem State.wr_cplq (r : Reg) (w : Word) : (s.wr r w).cplq = s.cplq := rfl
@[simp] theorem State.wr_sec (r : Reg) (w : Word) : (s.wr r w).sec = s.sec := rfl
@[simp] theorem State.wr_nv (r : Reg) (w : Word) : (s.wr r w).nv = s.nv := rfl
@[simp] theorem State.wr_shape (r : Reg) (w : Word) : (s.wr r w).shape = s.shape := rfl
@[simp] theorem State.wr_mesh (r : Reg) (w : Word) : (s.wr r w).mesh = s.mesh := rfl
@[simp] theorem State.wr_bring (r : Reg) (w : Word) : (s.wr r w).bring = s.bring := rfl
@[simp] theorem State.wr_shapeNew (r : Reg) (w : Word) : (s.wr r w).shapeNew = s.shapeNew := rfl
@[simp] theorem State.wr_coresUp (r : Reg) (w : Word) : (s.wr r w).coresUp = s.coresUp := rfl
@[simp] theorem State.wr_defects (r : Reg) (w : Word) : (s.wr r w).defects = s.defects := rfl
@[simp] theorem State.wr_fwTurn (r : Reg) (w : Word) : (s.wr r w).fwTurn = s.fwTurn := rfl
@[simp] theorem State.wr_seedPack (r : Reg) (w : Word) : (s.wr r w).seedPack = s.seedPack := rfl
@[simp] theorem State.wr_seedSets (r : Reg) (w : Word) : (s.wr r w).seedSets = s.seedSets := rfl
@[simp] theorem State.wr_minSvn (r : Reg) (w : Word) : (s.wr r w).minSvn = s.minSvn := rfl
@[simp] theorem State.wr_calDue (r : Reg) (w : Word) : (s.wr r w).calDue = s.calDue := rfl
@[simp] theorem State.wr_calLate (r : Reg) (w : Word) : (s.wr r w).calLate = s.calLate := rfl
@[simp] theorem State.wr_passedAt (r : Reg) (w : Word) : (s.wr r w).passedAt = s.passedAt := rfl
@[simp] theorem State.wr_testFirst (r : Reg) (w : Word) : (s.wr r w).testFirst = s.testFirst := rfl
@[simp] theorem State.wr_window_ (r : Reg) (w : Word) : (s.wr r w).window_ = s.window_ := rfl
@[simp] theorem State.wr_board (r : Reg) (w : Word) : (s.wr r w).board = s.board := rfl

/-! `State.wrS`. -/

@[simp] theorem State.wrS_pending (r : Reg) (w : Word) : (s.wrS r w).pending = s.pending := rfl
@[simp] theorem State.wrS_free (r : Reg) (w : Word) : (s.wrS r w).free = s.free := rfl
@[simp] theorem State.wrS_outbox (r : Reg) (w : Word) : (s.wrS r w).outbox = s.outbox := rfl
@[simp] theorem State.wrS_regs (r : Reg) (w : Word) : (s.wrS r w).regs = s.regs := rfl
@[simp] theorem State.wrS_suspects (r : Reg) (w : Word) : (s.wrS r w).suspects = s.suspects := rfl
@[simp] theorem State.wrS_late (r : Reg) (w : Word) : (s.wrS r w).late = s.late := rfl
@[simp] theorem State.wrS_ctrs (r : Reg) (w : Word) : (s.wrS r w).ctrs = s.ctrs := rfl
@[simp] theorem State.wrS_snap (r : Reg) (w : Word) : (s.wrS r w).snap = s.snap := rfl
@[simp] theorem State.wrS_snapBeat (r : Reg) (w : Word) : (s.wrS r w).snapBeat = s.snapBeat := rfl
@[simp] theorem State.wrS_snapAsked (r : Reg) (w : Word) : (s.wrS r w).snapAsked = s.snapAsked := rfl
@[simp] theorem State.wrS_rows (r : Reg) (w : Word) : (s.wrS r w).rows = s.rows := rfl
@[simp] theorem State.wrS_lpddr (r : Reg) (w : Word) : (s.wrS r w).lpddr = s.lpddr := rfl
@[simp] theorem State.wrS_checks (r : Reg) (w : Word) : (s.wrS r w).checks = s.checks := rfl
@[simp] theorem State.wrS_lpPatrol (r : Reg) (w : Word) : (s.wrS r w).lpPatrol = s.lpPatrol := rfl
@[simp] theorem State.wrS_window (r : Reg) (w : Word) : (s.wrS r w).window = s.window := rfl
@[simp] theorem State.wrS_moves (r : Reg) (w : Word) : (s.wrS r w).moves = s.moves := rfl
@[simp] theorem State.wrS_ceRows (r : Reg) (w : Word) : (s.wrS r w).ceRows = s.ceRows := rfl
@[simp] theorem State.wrS_retiredRows (r : Reg) (w : Word) : (s.wrS r w).retiredRows = s.retiredRows := rfl
@[simp] theorem State.wrS_copying (r : Reg) (w : Word) : (s.wrS r w).copying = s.copying := rfl
@[simp] theorem State.wrS_epoch (r : Reg) (w : Word) : (s.wrS r w).epoch = s.epoch := rfl
@[simp] theorem State.wrS_walk (r : Reg) (w : Word) : (s.wrS r w).walk = s.walk := rfl
@[simp] theorem State.wrS_bringups (r : Reg) (w : Word) : (s.wrS r w).bringups = s.bringups := rfl
@[simp] theorem State.wrS_seals (r : Reg) (w : Word) : (s.wrS r w).seals = s.seals := rfl
@[simp] theorem State.wrS_pinned (r : Reg) (w : Word) : (s.wrS r w).pinned = s.pinned := rfl
@[simp] theorem State.wrS_goneViews (r : Reg) (w : Word) : (s.wrS r w).goneViews = s.goneViews := rfl
@[simp] theorem State.wrS_copyGone (r : Reg) (w : Word) : (s.wrS r w).copyGone = s.copyGone := rfl
@[simp] theorem State.wrS_tasks (r : Reg) (w : Word) : (s.wrS r w).tasks = s.tasks := rfl
@[simp] theorem State.wrS_taskSeq (r : Reg) (w : Word) : (s.wrS r w).taskSeq = s.taskSeq := rfl
@[simp] theorem State.wrS_groups (r : Reg) (w : Word) : (s.wrS r w).groups = s.groups := rfl
@[simp] theorem State.wrS_engs (r : Reg) (w : Word) : (s.wrS r w).engs = s.engs := rfl
@[simp] theorem State.wrS_cores (r : Reg) (w : Word) : (s.wrS r w).cores = s.cores := rfl
@[simp] theorem State.wrS_clus (r : Reg) (w : Word) : (s.wrS r w).clus = s.clus := rfl
@[simp] theorem State.wrS_chans (r : Reg) (w : Word) : (s.wrS r w).chans = s.chans := rfl
@[simp] theorem State.wrS_waits (r : Reg) (w : Word) : (s.wrS r w).waits = s.waits := rfl
@[simp] theorem State.wrS_arrivals (r : Reg) (w : Word) : (s.wrS r w).arrivals = s.arrivals := rfl
@[simp] theorem State.wrS_jobs (r : Reg) (w : Word) : (s.wrS r w).jobs = s.jobs := rfl
@[simp] theorem State.wrS_parts (r : Reg) (w : Word) : (s.wrS r w).parts = s.parts := rfl
@[simp] theorem State.wrS_power (r : Reg) (w : Word) : (s.wrS r w).power = s.power := rfl
@[simp] theorem State.wrS_edgeDraw (r : Reg) (w : Word) : (s.wrS r w).edgeDraw = s.edgeDraw := rfl
@[simp] theorem State.wrS_powerOver (r : Reg) (w : Word) : (s.wrS r w).powerOver = s.powerOver := rfl
@[simp] theorem State.wrS_grng (r : Reg) (w : Word) : (s.wrS r w).grng = s.grng := rfl
@[simp] theorem State.wrS_win (r : Reg) (w : Word) : (s.wrS r w).win = s.win := rfl
@[simp] theorem State.wrS_tithes (r : Reg) (w : Word) : (s.wrS r w).tithes = s.tithes := rfl
@[simp] theorem State.wrS_titheSeq (r : Reg) (w : Word) : (s.wrS r w).titheSeq = s.titheSeq := rfl
@[simp] theorem State.wrS_packetsOut (r : Reg) (w : Word) : (s.wrS r w).packetsOut = s.packetsOut := rfl
@[simp] theorem State.wrS_restore (r : Reg) (w : Word) : (s.wrS r w).restore = s.restore := rfl
@[simp] theorem State.wrS_ports (r : Reg) (w : Word) : (s.wrS r w).ports = s.ports := rfl
@[simp] theorem State.wrS_gates (r : Reg) (w : Word) : (s.wrS r w).gates = s.gates := rfl
@[simp] theorem State.wrS_loop (r : Reg) (w : Word) : (s.wrS r w).loop = s.loop := rfl
@[simp] theorem State.wrS_beat (r : Reg) (w : Word) : (s.wrS r w).beat = s.beat := rfl
@[simp] theorem State.wrS_mbxWaits (r : Reg) (w : Word) : (s.wrS r w).mbxWaits = s.mbxWaits := rfl
@[simp] theorem State.wrS_mods (r : Reg) (w : Word) : (s.wrS r w).mods = s.mods := rfl
@[simp] theorem State.wrS_lostTags (r : Reg) (w : Word) : (s.wrS r w).lostTags = s.lostTags := rfl
@[simp] theorem State.wrS_hostLost (r : Reg) (w : Word) : (s.wrS r w).hostLost = s.hostLost := rfl
@[simp] theorem State.wrS_bootStage (r : Reg) (w : Word) : (s.wrS r w).bootStage = s.bootStage := rfl
@[simp] theorem State.wrS_stageWord (r : Reg) (w : Word) : (s.wrS r w).stageWord = s.stageWord := rfl
@[simp] theorem State.wrS_evHead (r : Reg) (w : Word) : (s.wrS r w).evHead = s.evHead := rfl
@[simp] theorem State.wrS_evTail (r : Reg) (w : Word) : (s.wrS r w).evTail = s.evTail := rfl
@[simp] theorem State.wrS_evLost (r : Reg) (w : Word) : (s.wrS r w).evLost = s.evLost := rfl
@[simp] theorem State.wrS_evOver (r : Reg) (w : Word) : (s.wrS r w).evOver = s.evOver := rfl
@[simp] theorem State.wrS_fw (r : Reg) (w : Word) : (s.wrS r w).fw = s.fw := rfl
@[simp] theorem State.wrS_cplq (r : Reg) (w : Word) : (s.wrS r w).cplq = s.cplq := rfl
@[simp] theorem State.wrS_sec (r : Reg) (w : Word) : (s.wrS r w).sec = s.sec := rfl
@[simp] theorem State.wrS_nv (r : Reg) (w : Word) : (s.wrS r w).nv = s.nv := rfl
@[simp] theorem State.wrS_shape (r : Reg) (w : Word) : (s.wrS r w).shape = s.shape := rfl
@[simp] theorem State.wrS_mesh (r : Reg) (w : Word) : (s.wrS r w).mesh = s.mesh := rfl
@[simp] theorem State.wrS_bring (r : Reg) (w : Word) : (s.wrS r w).bring = s.bring := rfl
@[simp] theorem State.wrS_shapeNew (r : Reg) (w : Word) : (s.wrS r w).shapeNew = s.shapeNew := rfl
@[simp] theorem State.wrS_coresUp (r : Reg) (w : Word) : (s.wrS r w).coresUp = s.coresUp := rfl
@[simp] theorem State.wrS_defects (r : Reg) (w : Word) : (s.wrS r w).defects = s.defects := rfl
@[simp] theorem State.wrS_fwTurn (r : Reg) (w : Word) : (s.wrS r w).fwTurn = s.fwTurn := rfl
@[simp] theorem State.wrS_seedPack (r : Reg) (w : Word) : (s.wrS r w).seedPack = s.seedPack := rfl
@[simp] theorem State.wrS_seedSets (r : Reg) (w : Word) : (s.wrS r w).seedSets = s.seedSets := rfl
@[simp] theorem State.wrS_minSvn (r : Reg) (w : Word) : (s.wrS r w).minSvn = s.minSvn := rfl
@[simp] theorem State.wrS_calDue (r : Reg) (w : Word) : (s.wrS r w).calDue = s.calDue := rfl
@[simp] theorem State.wrS_calLate (r : Reg) (w : Word) : (s.wrS r w).calLate = s.calLate := rfl
@[simp] theorem State.wrS_passedAt (r : Reg) (w : Word) : (s.wrS r w).passedAt = s.passedAt := rfl
@[simp] theorem State.wrS_testFirst (r : Reg) (w : Word) : (s.wrS r w).testFirst = s.testFirst := rfl
@[simp] theorem State.wrS_window_ (r : Reg) (w : Word) : (s.wrS r w).window_ = s.window_ := rfl
@[simp] theorem State.wrS_board (r : Reg) (w : Word) : (s.wrS r w).board = s.board := rfl

/-! `State.setFld`. -/

@[simp] theorem State.setFld_pending (r : Reg) (f : Fld) (v : Nat) : (s.setFld r f v).pending = s.pending := rfl
@[simp] theorem State.setFld_free (r : Reg) (f : Fld) (v : Nat) : (s.setFld r f v).free = s.free := rfl
@[simp] theorem State.setFld_outbox (r : Reg) (f : Fld) (v : Nat) : (s.setFld r f v).outbox = s.outbox := rfl
@[simp] theorem State.setFld_shadow (r : Reg) (f : Fld) (v : Nat) : (s.setFld r f v).shadow = s.shadow := rfl
@[simp] theorem State.setFld_suspects (r : Reg) (f : Fld) (v : Nat) : (s.setFld r f v).suspects = s.suspects := rfl
@[simp] theorem State.setFld_late (r : Reg) (f : Fld) (v : Nat) : (s.setFld r f v).late = s.late := rfl
@[simp] theorem State.setFld_ctrs (r : Reg) (f : Fld) (v : Nat) : (s.setFld r f v).ctrs = s.ctrs := rfl
@[simp] theorem State.setFld_snap (r : Reg) (f : Fld) (v : Nat) : (s.setFld r f v).snap = s.snap := rfl
@[simp] theorem State.setFld_snapBeat (r : Reg) (f : Fld) (v : Nat) : (s.setFld r f v).snapBeat = s.snapBeat := rfl
@[simp] theorem State.setFld_snapAsked (r : Reg) (f : Fld) (v : Nat) : (s.setFld r f v).snapAsked = s.snapAsked := rfl
@[simp] theorem State.setFld_rows (r : Reg) (f : Fld) (v : Nat) : (s.setFld r f v).rows = s.rows := rfl
@[simp] theorem State.setFld_lpddr (r : Reg) (f : Fld) (v : Nat) : (s.setFld r f v).lpddr = s.lpddr := rfl
@[simp] theorem State.setFld_checks (r : Reg) (f : Fld) (v : Nat) : (s.setFld r f v).checks = s.checks := rfl
@[simp] theorem State.setFld_lpPatrol (r : Reg) (f : Fld) (v : Nat) : (s.setFld r f v).lpPatrol = s.lpPatrol := rfl
@[simp] theorem State.setFld_window (r : Reg) (f : Fld) (v : Nat) : (s.setFld r f v).window = s.window := rfl
@[simp] theorem State.setFld_moves (r : Reg) (f : Fld) (v : Nat) : (s.setFld r f v).moves = s.moves := rfl
@[simp] theorem State.setFld_ceRows (r : Reg) (f : Fld) (v : Nat) : (s.setFld r f v).ceRows = s.ceRows := rfl
@[simp] theorem State.setFld_retiredRows (r : Reg) (f : Fld) (v : Nat) : (s.setFld r f v).retiredRows = s.retiredRows := rfl
@[simp] theorem State.setFld_copying (r : Reg) (f : Fld) (v : Nat) : (s.setFld r f v).copying = s.copying := rfl
@[simp] theorem State.setFld_epoch (r : Reg) (f : Fld) (v : Nat) : (s.setFld r f v).epoch = s.epoch := rfl
@[simp] theorem State.setFld_walk (r : Reg) (f : Fld) (v : Nat) : (s.setFld r f v).walk = s.walk := rfl
@[simp] theorem State.setFld_bringups (r : Reg) (f : Fld) (v : Nat) : (s.setFld r f v).bringups = s.bringups := rfl
@[simp] theorem State.setFld_seals (r : Reg) (f : Fld) (v : Nat) : (s.setFld r f v).seals = s.seals := rfl
@[simp] theorem State.setFld_pinned (r : Reg) (f : Fld) (v : Nat) : (s.setFld r f v).pinned = s.pinned := rfl
@[simp] theorem State.setFld_goneViews (r : Reg) (f : Fld) (v : Nat) : (s.setFld r f v).goneViews = s.goneViews := rfl
@[simp] theorem State.setFld_copyGone (r : Reg) (f : Fld) (v : Nat) : (s.setFld r f v).copyGone = s.copyGone := rfl
@[simp] theorem State.setFld_tasks (r : Reg) (f : Fld) (v : Nat) : (s.setFld r f v).tasks = s.tasks := rfl
@[simp] theorem State.setFld_taskSeq (r : Reg) (f : Fld) (v : Nat) : (s.setFld r f v).taskSeq = s.taskSeq := rfl
@[simp] theorem State.setFld_groups (r : Reg) (f : Fld) (v : Nat) : (s.setFld r f v).groups = s.groups := rfl
@[simp] theorem State.setFld_engs (r : Reg) (f : Fld) (v : Nat) : (s.setFld r f v).engs = s.engs := rfl
@[simp] theorem State.setFld_cores (r : Reg) (f : Fld) (v : Nat) : (s.setFld r f v).cores = s.cores := rfl
@[simp] theorem State.setFld_clus (r : Reg) (f : Fld) (v : Nat) : (s.setFld r f v).clus = s.clus := rfl
@[simp] theorem State.setFld_chans (r : Reg) (f : Fld) (v : Nat) : (s.setFld r f v).chans = s.chans := rfl
@[simp] theorem State.setFld_waits (r : Reg) (f : Fld) (v : Nat) : (s.setFld r f v).waits = s.waits := rfl
@[simp] theorem State.setFld_arrivals (r : Reg) (f : Fld) (v : Nat) : (s.setFld r f v).arrivals = s.arrivals := rfl
@[simp] theorem State.setFld_jobs (r : Reg) (f : Fld) (v : Nat) : (s.setFld r f v).jobs = s.jobs := rfl
@[simp] theorem State.setFld_parts (r : Reg) (f : Fld) (v : Nat) : (s.setFld r f v).parts = s.parts := rfl
@[simp] theorem State.setFld_power (r : Reg) (f : Fld) (v : Nat) : (s.setFld r f v).power = s.power := rfl
@[simp] theorem State.setFld_edgeDraw (r : Reg) (f : Fld) (v : Nat) : (s.setFld r f v).edgeDraw = s.edgeDraw := rfl
@[simp] theorem State.setFld_powerOver (r : Reg) (f : Fld) (v : Nat) : (s.setFld r f v).powerOver = s.powerOver := rfl
@[simp] theorem State.setFld_grng (r : Reg) (f : Fld) (v : Nat) : (s.setFld r f v).grng = s.grng := rfl
@[simp] theorem State.setFld_win (r : Reg) (f : Fld) (v : Nat) : (s.setFld r f v).win = s.win := rfl
@[simp] theorem State.setFld_tithes (r : Reg) (f : Fld) (v : Nat) : (s.setFld r f v).tithes = s.tithes := rfl
@[simp] theorem State.setFld_titheSeq (r : Reg) (f : Fld) (v : Nat) : (s.setFld r f v).titheSeq = s.titheSeq := rfl
@[simp] theorem State.setFld_packetsOut (r : Reg) (f : Fld) (v : Nat) : (s.setFld r f v).packetsOut = s.packetsOut := rfl
@[simp] theorem State.setFld_restore (r : Reg) (f : Fld) (v : Nat) : (s.setFld r f v).restore = s.restore := rfl
@[simp] theorem State.setFld_ports (r : Reg) (f : Fld) (v : Nat) : (s.setFld r f v).ports = s.ports := rfl
@[simp] theorem State.setFld_gates (r : Reg) (f : Fld) (v : Nat) : (s.setFld r f v).gates = s.gates := rfl
@[simp] theorem State.setFld_loop (r : Reg) (f : Fld) (v : Nat) : (s.setFld r f v).loop = s.loop := rfl
@[simp] theorem State.setFld_beat (r : Reg) (f : Fld) (v : Nat) : (s.setFld r f v).beat = s.beat := rfl
@[simp] theorem State.setFld_mbxWaits (r : Reg) (f : Fld) (v : Nat) : (s.setFld r f v).mbxWaits = s.mbxWaits := rfl
@[simp] theorem State.setFld_mods (r : Reg) (f : Fld) (v : Nat) : (s.setFld r f v).mods = s.mods := rfl
@[simp] theorem State.setFld_lostTags (r : Reg) (f : Fld) (v : Nat) : (s.setFld r f v).lostTags = s.lostTags := rfl
@[simp] theorem State.setFld_hostLost (r : Reg) (f : Fld) (v : Nat) : (s.setFld r f v).hostLost = s.hostLost := rfl
@[simp] theorem State.setFld_bootStage (r : Reg) (f : Fld) (v : Nat) : (s.setFld r f v).bootStage = s.bootStage := rfl
@[simp] theorem State.setFld_stageWord (r : Reg) (f : Fld) (v : Nat) : (s.setFld r f v).stageWord = s.stageWord := rfl
@[simp] theorem State.setFld_evHead (r : Reg) (f : Fld) (v : Nat) : (s.setFld r f v).evHead = s.evHead := rfl
@[simp] theorem State.setFld_evTail (r : Reg) (f : Fld) (v : Nat) : (s.setFld r f v).evTail = s.evTail := rfl
@[simp] theorem State.setFld_evLost (r : Reg) (f : Fld) (v : Nat) : (s.setFld r f v).evLost = s.evLost := rfl
@[simp] theorem State.setFld_evOver (r : Reg) (f : Fld) (v : Nat) : (s.setFld r f v).evOver = s.evOver := rfl
@[simp] theorem State.setFld_fw (r : Reg) (f : Fld) (v : Nat) : (s.setFld r f v).fw = s.fw := rfl
@[simp] theorem State.setFld_cplq (r : Reg) (f : Fld) (v : Nat) : (s.setFld r f v).cplq = s.cplq := rfl
@[simp] theorem State.setFld_sec (r : Reg) (f : Fld) (v : Nat) : (s.setFld r f v).sec = s.sec := rfl
@[simp] theorem State.setFld_nv (r : Reg) (f : Fld) (v : Nat) : (s.setFld r f v).nv = s.nv := rfl
@[simp] theorem State.setFld_shape (r : Reg) (f : Fld) (v : Nat) : (s.setFld r f v).shape = s.shape := rfl
@[simp] theorem State.setFld_mesh (r : Reg) (f : Fld) (v : Nat) : (s.setFld r f v).mesh = s.mesh := rfl
@[simp] theorem State.setFld_bring (r : Reg) (f : Fld) (v : Nat) : (s.setFld r f v).bring = s.bring := rfl
@[simp] theorem State.setFld_shapeNew (r : Reg) (f : Fld) (v : Nat) : (s.setFld r f v).shapeNew = s.shapeNew := rfl
@[simp] theorem State.setFld_coresUp (r : Reg) (f : Fld) (v : Nat) : (s.setFld r f v).coresUp = s.coresUp := rfl
@[simp] theorem State.setFld_defects (r : Reg) (f : Fld) (v : Nat) : (s.setFld r f v).defects = s.defects := rfl
@[simp] theorem State.setFld_fwTurn (r : Reg) (f : Fld) (v : Nat) : (s.setFld r f v).fwTurn = s.fwTurn := rfl
@[simp] theorem State.setFld_seedPack (r : Reg) (f : Fld) (v : Nat) : (s.setFld r f v).seedPack = s.seedPack := rfl
@[simp] theorem State.setFld_seedSets (r : Reg) (f : Fld) (v : Nat) : (s.setFld r f v).seedSets = s.seedSets := rfl
@[simp] theorem State.setFld_minSvn (r : Reg) (f : Fld) (v : Nat) : (s.setFld r f v).minSvn = s.minSvn := rfl
@[simp] theorem State.setFld_calDue (r : Reg) (f : Fld) (v : Nat) : (s.setFld r f v).calDue = s.calDue := rfl
@[simp] theorem State.setFld_calLate (r : Reg) (f : Fld) (v : Nat) : (s.setFld r f v).calLate = s.calLate := rfl
@[simp] theorem State.setFld_passedAt (r : Reg) (f : Fld) (v : Nat) : (s.setFld r f v).passedAt = s.passedAt := rfl
@[simp] theorem State.setFld_testFirst (r : Reg) (f : Fld) (v : Nat) : (s.setFld r f v).testFirst = s.testFirst := rfl
@[simp] theorem State.setFld_window_ (r : Reg) (f : Fld) (v : Nat) : (s.setFld r f v).window_ = s.window_ := rfl
@[simp] theorem State.setFld_board (r : Reg) (f : Fld) (v : Nat) : (s.setFld r f v).board = s.board := rfl

/-! `State.setBitOf`. -/

@[simp] theorem State.setBitOf_pending (r : Reg) (i : Nat) (b : Bool) : (s.setBitOf r i b).pending = s.pending := rfl
@[simp] theorem State.setBitOf_free (r : Reg) (i : Nat) (b : Bool) : (s.setBitOf r i b).free = s.free := rfl
@[simp] theorem State.setBitOf_outbox (r : Reg) (i : Nat) (b : Bool) : (s.setBitOf r i b).outbox = s.outbox := rfl
@[simp] theorem State.setBitOf_shadow (r : Reg) (i : Nat) (b : Bool) : (s.setBitOf r i b).shadow = s.shadow := rfl
@[simp] theorem State.setBitOf_suspects (r : Reg) (i : Nat) (b : Bool) : (s.setBitOf r i b).suspects = s.suspects := rfl
@[simp] theorem State.setBitOf_late (r : Reg) (i : Nat) (b : Bool) : (s.setBitOf r i b).late = s.late := rfl
@[simp] theorem State.setBitOf_ctrs (r : Reg) (i : Nat) (b : Bool) : (s.setBitOf r i b).ctrs = s.ctrs := rfl
@[simp] theorem State.setBitOf_snap (r : Reg) (i : Nat) (b : Bool) : (s.setBitOf r i b).snap = s.snap := rfl
@[simp] theorem State.setBitOf_snapBeat (r : Reg) (i : Nat) (b : Bool) : (s.setBitOf r i b).snapBeat = s.snapBeat := rfl
@[simp] theorem State.setBitOf_snapAsked (r : Reg) (i : Nat) (b : Bool) : (s.setBitOf r i b).snapAsked = s.snapAsked := rfl
@[simp] theorem State.setBitOf_rows (r : Reg) (i : Nat) (b : Bool) : (s.setBitOf r i b).rows = s.rows := rfl
@[simp] theorem State.setBitOf_lpddr (r : Reg) (i : Nat) (b : Bool) : (s.setBitOf r i b).lpddr = s.lpddr := rfl
@[simp] theorem State.setBitOf_checks (r : Reg) (i : Nat) (b : Bool) : (s.setBitOf r i b).checks = s.checks := rfl
@[simp] theorem State.setBitOf_lpPatrol (r : Reg) (i : Nat) (b : Bool) : (s.setBitOf r i b).lpPatrol = s.lpPatrol := rfl
@[simp] theorem State.setBitOf_window (r : Reg) (i : Nat) (b : Bool) : (s.setBitOf r i b).window = s.window := rfl
@[simp] theorem State.setBitOf_moves (r : Reg) (i : Nat) (b : Bool) : (s.setBitOf r i b).moves = s.moves := rfl
@[simp] theorem State.setBitOf_ceRows (r : Reg) (i : Nat) (b : Bool) : (s.setBitOf r i b).ceRows = s.ceRows := rfl
@[simp] theorem State.setBitOf_retiredRows (r : Reg) (i : Nat) (b : Bool) : (s.setBitOf r i b).retiredRows = s.retiredRows := rfl
@[simp] theorem State.setBitOf_copying (r : Reg) (i : Nat) (b : Bool) : (s.setBitOf r i b).copying = s.copying := rfl
@[simp] theorem State.setBitOf_epoch (r : Reg) (i : Nat) (b : Bool) : (s.setBitOf r i b).epoch = s.epoch := rfl
@[simp] theorem State.setBitOf_walk (r : Reg) (i : Nat) (b : Bool) : (s.setBitOf r i b).walk = s.walk := rfl
@[simp] theorem State.setBitOf_bringups (r : Reg) (i : Nat) (b : Bool) : (s.setBitOf r i b).bringups = s.bringups := rfl
@[simp] theorem State.setBitOf_seals (r : Reg) (i : Nat) (b : Bool) : (s.setBitOf r i b).seals = s.seals := rfl
@[simp] theorem State.setBitOf_pinned (r : Reg) (i : Nat) (b : Bool) : (s.setBitOf r i b).pinned = s.pinned := rfl
@[simp] theorem State.setBitOf_goneViews (r : Reg) (i : Nat) (b : Bool) : (s.setBitOf r i b).goneViews = s.goneViews := rfl
@[simp] theorem State.setBitOf_copyGone (r : Reg) (i : Nat) (b : Bool) : (s.setBitOf r i b).copyGone = s.copyGone := rfl
@[simp] theorem State.setBitOf_tasks (r : Reg) (i : Nat) (b : Bool) : (s.setBitOf r i b).tasks = s.tasks := rfl
@[simp] theorem State.setBitOf_taskSeq (r : Reg) (i : Nat) (b : Bool) : (s.setBitOf r i b).taskSeq = s.taskSeq := rfl
@[simp] theorem State.setBitOf_groups (r : Reg) (i : Nat) (b : Bool) : (s.setBitOf r i b).groups = s.groups := rfl
@[simp] theorem State.setBitOf_engs (r : Reg) (i : Nat) (b : Bool) : (s.setBitOf r i b).engs = s.engs := rfl
@[simp] theorem State.setBitOf_cores (r : Reg) (i : Nat) (b : Bool) : (s.setBitOf r i b).cores = s.cores := rfl
@[simp] theorem State.setBitOf_clus (r : Reg) (i : Nat) (b : Bool) : (s.setBitOf r i b).clus = s.clus := rfl
@[simp] theorem State.setBitOf_chans (r : Reg) (i : Nat) (b : Bool) : (s.setBitOf r i b).chans = s.chans := rfl
@[simp] theorem State.setBitOf_waits (r : Reg) (i : Nat) (b : Bool) : (s.setBitOf r i b).waits = s.waits := rfl
@[simp] theorem State.setBitOf_arrivals (r : Reg) (i : Nat) (b : Bool) : (s.setBitOf r i b).arrivals = s.arrivals := rfl
@[simp] theorem State.setBitOf_jobs (r : Reg) (i : Nat) (b : Bool) : (s.setBitOf r i b).jobs = s.jobs := rfl
@[simp] theorem State.setBitOf_parts (r : Reg) (i : Nat) (b : Bool) : (s.setBitOf r i b).parts = s.parts := rfl
@[simp] theorem State.setBitOf_power (r : Reg) (i : Nat) (b : Bool) : (s.setBitOf r i b).power = s.power := rfl
@[simp] theorem State.setBitOf_edgeDraw (r : Reg) (i : Nat) (b : Bool) : (s.setBitOf r i b).edgeDraw = s.edgeDraw := rfl
@[simp] theorem State.setBitOf_powerOver (r : Reg) (i : Nat) (b : Bool) : (s.setBitOf r i b).powerOver = s.powerOver := rfl
@[simp] theorem State.setBitOf_grng (r : Reg) (i : Nat) (b : Bool) : (s.setBitOf r i b).grng = s.grng := rfl
@[simp] theorem State.setBitOf_win (r : Reg) (i : Nat) (b : Bool) : (s.setBitOf r i b).win = s.win := rfl
@[simp] theorem State.setBitOf_tithes (r : Reg) (i : Nat) (b : Bool) : (s.setBitOf r i b).tithes = s.tithes := rfl
@[simp] theorem State.setBitOf_titheSeq (r : Reg) (i : Nat) (b : Bool) : (s.setBitOf r i b).titheSeq = s.titheSeq := rfl
@[simp] theorem State.setBitOf_packetsOut (r : Reg) (i : Nat) (b : Bool) : (s.setBitOf r i b).packetsOut = s.packetsOut := rfl
@[simp] theorem State.setBitOf_restore (r : Reg) (i : Nat) (b : Bool) : (s.setBitOf r i b).restore = s.restore := rfl
@[simp] theorem State.setBitOf_ports (r : Reg) (i : Nat) (b : Bool) : (s.setBitOf r i b).ports = s.ports := rfl
@[simp] theorem State.setBitOf_gates (r : Reg) (i : Nat) (b : Bool) : (s.setBitOf r i b).gates = s.gates := rfl
@[simp] theorem State.setBitOf_loop (r : Reg) (i : Nat) (b : Bool) : (s.setBitOf r i b).loop = s.loop := rfl
@[simp] theorem State.setBitOf_beat (r : Reg) (i : Nat) (b : Bool) : (s.setBitOf r i b).beat = s.beat := rfl
@[simp] theorem State.setBitOf_mbxWaits (r : Reg) (i : Nat) (b : Bool) : (s.setBitOf r i b).mbxWaits = s.mbxWaits := rfl
@[simp] theorem State.setBitOf_mods (r : Reg) (i : Nat) (b : Bool) : (s.setBitOf r i b).mods = s.mods := rfl
@[simp] theorem State.setBitOf_lostTags (r : Reg) (i : Nat) (b : Bool) : (s.setBitOf r i b).lostTags = s.lostTags := rfl
@[simp] theorem State.setBitOf_hostLost (r : Reg) (i : Nat) (b : Bool) : (s.setBitOf r i b).hostLost = s.hostLost := rfl
@[simp] theorem State.setBitOf_bootStage (r : Reg) (i : Nat) (b : Bool) : (s.setBitOf r i b).bootStage = s.bootStage := rfl
@[simp] theorem State.setBitOf_stageWord (r : Reg) (i : Nat) (b : Bool) : (s.setBitOf r i b).stageWord = s.stageWord := rfl
@[simp] theorem State.setBitOf_evHead (r : Reg) (i : Nat) (b : Bool) : (s.setBitOf r i b).evHead = s.evHead := rfl
@[simp] theorem State.setBitOf_evTail (r : Reg) (i : Nat) (b : Bool) : (s.setBitOf r i b).evTail = s.evTail := rfl
@[simp] theorem State.setBitOf_evLost (r : Reg) (i : Nat) (b : Bool) : (s.setBitOf r i b).evLost = s.evLost := rfl
@[simp] theorem State.setBitOf_evOver (r : Reg) (i : Nat) (b : Bool) : (s.setBitOf r i b).evOver = s.evOver := rfl
@[simp] theorem State.setBitOf_fw (r : Reg) (i : Nat) (b : Bool) : (s.setBitOf r i b).fw = s.fw := rfl
@[simp] theorem State.setBitOf_cplq (r : Reg) (i : Nat) (b : Bool) : (s.setBitOf r i b).cplq = s.cplq := rfl
@[simp] theorem State.setBitOf_sec (r : Reg) (i : Nat) (b : Bool) : (s.setBitOf r i b).sec = s.sec := rfl
@[simp] theorem State.setBitOf_nv (r : Reg) (i : Nat) (b : Bool) : (s.setBitOf r i b).nv = s.nv := rfl
@[simp] theorem State.setBitOf_shape (r : Reg) (i : Nat) (b : Bool) : (s.setBitOf r i b).shape = s.shape := rfl
@[simp] theorem State.setBitOf_mesh (r : Reg) (i : Nat) (b : Bool) : (s.setBitOf r i b).mesh = s.mesh := rfl
@[simp] theorem State.setBitOf_bring (r : Reg) (i : Nat) (b : Bool) : (s.setBitOf r i b).bring = s.bring := rfl
@[simp] theorem State.setBitOf_shapeNew (r : Reg) (i : Nat) (b : Bool) : (s.setBitOf r i b).shapeNew = s.shapeNew := rfl
@[simp] theorem State.setBitOf_coresUp (r : Reg) (i : Nat) (b : Bool) : (s.setBitOf r i b).coresUp = s.coresUp := rfl
@[simp] theorem State.setBitOf_defects (r : Reg) (i : Nat) (b : Bool) : (s.setBitOf r i b).defects = s.defects := rfl
@[simp] theorem State.setBitOf_fwTurn (r : Reg) (i : Nat) (b : Bool) : (s.setBitOf r i b).fwTurn = s.fwTurn := rfl
@[simp] theorem State.setBitOf_seedPack (r : Reg) (i : Nat) (b : Bool) : (s.setBitOf r i b).seedPack = s.seedPack := rfl
@[simp] theorem State.setBitOf_seedSets (r : Reg) (i : Nat) (b : Bool) : (s.setBitOf r i b).seedSets = s.seedSets := rfl
@[simp] theorem State.setBitOf_minSvn (r : Reg) (i : Nat) (b : Bool) : (s.setBitOf r i b).minSvn = s.minSvn := rfl
@[simp] theorem State.setBitOf_calDue (r : Reg) (i : Nat) (b : Bool) : (s.setBitOf r i b).calDue = s.calDue := rfl
@[simp] theorem State.setBitOf_calLate (r : Reg) (i : Nat) (b : Bool) : (s.setBitOf r i b).calLate = s.calLate := rfl
@[simp] theorem State.setBitOf_passedAt (r : Reg) (i : Nat) (b : Bool) : (s.setBitOf r i b).passedAt = s.passedAt := rfl
@[simp] theorem State.setBitOf_testFirst (r : Reg) (i : Nat) (b : Bool) : (s.setBitOf r i b).testFirst = s.testFirst := rfl
@[simp] theorem State.setBitOf_window_ (r : Reg) (i : Nat) (b : Bool) : (s.setBitOf r i b).window_ = s.window_ := rfl
@[simp] theorem State.setBitOf_board (r : Reg) (i : Nat) (b : Bool) : (s.setBitOf r i b).board = s.board := rfl

/-! `State.setCtr`. -/

@[simp] theorem State.setCtr_pending (c : Ctr) (u b v : Nat) : (s.setCtr c u b v).pending = s.pending := rfl
@[simp] theorem State.setCtr_free (c : Ctr) (u b v : Nat) : (s.setCtr c u b v).free = s.free := rfl
@[simp] theorem State.setCtr_outbox (c : Ctr) (u b v : Nat) : (s.setCtr c u b v).outbox = s.outbox := rfl
@[simp] theorem State.setCtr_regs (c : Ctr) (u b v : Nat) : (s.setCtr c u b v).regs = s.regs := rfl
@[simp] theorem State.setCtr_shadow (c : Ctr) (u b v : Nat) : (s.setCtr c u b v).shadow = s.shadow := rfl
@[simp] theorem State.setCtr_suspects (c : Ctr) (u b v : Nat) : (s.setCtr c u b v).suspects = s.suspects := rfl
@[simp] theorem State.setCtr_late (c : Ctr) (u b v : Nat) : (s.setCtr c u b v).late = s.late := rfl
@[simp] theorem State.setCtr_snap (c : Ctr) (u b v : Nat) : (s.setCtr c u b v).snap = s.snap := rfl
@[simp] theorem State.setCtr_snapBeat (c : Ctr) (u b v : Nat) : (s.setCtr c u b v).snapBeat = s.snapBeat := rfl
@[simp] theorem State.setCtr_snapAsked (c : Ctr) (u b v : Nat) : (s.setCtr c u b v).snapAsked = s.snapAsked := rfl
@[simp] theorem State.setCtr_rows (c : Ctr) (u b v : Nat) : (s.setCtr c u b v).rows = s.rows := rfl
@[simp] theorem State.setCtr_lpddr (c : Ctr) (u b v : Nat) : (s.setCtr c u b v).lpddr = s.lpddr := rfl
@[simp] theorem State.setCtr_checks (c : Ctr) (u b v : Nat) : (s.setCtr c u b v).checks = s.checks := rfl
@[simp] theorem State.setCtr_lpPatrol (c : Ctr) (u b v : Nat) : (s.setCtr c u b v).lpPatrol = s.lpPatrol := rfl
@[simp] theorem State.setCtr_window (c : Ctr) (u b v : Nat) : (s.setCtr c u b v).window = s.window := rfl
@[simp] theorem State.setCtr_moves (c : Ctr) (u b v : Nat) : (s.setCtr c u b v).moves = s.moves := rfl
@[simp] theorem State.setCtr_ceRows (c : Ctr) (u b v : Nat) : (s.setCtr c u b v).ceRows = s.ceRows := rfl
@[simp] theorem State.setCtr_retiredRows (c : Ctr) (u b v : Nat) : (s.setCtr c u b v).retiredRows = s.retiredRows := rfl
@[simp] theorem State.setCtr_copying (c : Ctr) (u b v : Nat) : (s.setCtr c u b v).copying = s.copying := rfl
@[simp] theorem State.setCtr_epoch (c : Ctr) (u b v : Nat) : (s.setCtr c u b v).epoch = s.epoch := rfl
@[simp] theorem State.setCtr_walk (c : Ctr) (u b v : Nat) : (s.setCtr c u b v).walk = s.walk := rfl
@[simp] theorem State.setCtr_bringups (c : Ctr) (u b v : Nat) : (s.setCtr c u b v).bringups = s.bringups := rfl
@[simp] theorem State.setCtr_seals (c : Ctr) (u b v : Nat) : (s.setCtr c u b v).seals = s.seals := rfl
@[simp] theorem State.setCtr_pinned (c : Ctr) (u b v : Nat) : (s.setCtr c u b v).pinned = s.pinned := rfl
@[simp] theorem State.setCtr_goneViews (c : Ctr) (u b v : Nat) : (s.setCtr c u b v).goneViews = s.goneViews := rfl
@[simp] theorem State.setCtr_copyGone (c : Ctr) (u b v : Nat) : (s.setCtr c u b v).copyGone = s.copyGone := rfl
@[simp] theorem State.setCtr_tasks (c : Ctr) (u b v : Nat) : (s.setCtr c u b v).tasks = s.tasks := rfl
@[simp] theorem State.setCtr_taskSeq (c : Ctr) (u b v : Nat) : (s.setCtr c u b v).taskSeq = s.taskSeq := rfl
@[simp] theorem State.setCtr_groups (c : Ctr) (u b v : Nat) : (s.setCtr c u b v).groups = s.groups := rfl
@[simp] theorem State.setCtr_engs (c : Ctr) (u b v : Nat) : (s.setCtr c u b v).engs = s.engs := rfl
@[simp] theorem State.setCtr_cores (c : Ctr) (u b v : Nat) : (s.setCtr c u b v).cores = s.cores := rfl
@[simp] theorem State.setCtr_clus (c : Ctr) (u b v : Nat) : (s.setCtr c u b v).clus = s.clus := rfl
@[simp] theorem State.setCtr_chans (c : Ctr) (u b v : Nat) : (s.setCtr c u b v).chans = s.chans := rfl
@[simp] theorem State.setCtr_waits (c : Ctr) (u b v : Nat) : (s.setCtr c u b v).waits = s.waits := rfl
@[simp] theorem State.setCtr_arrivals (c : Ctr) (u b v : Nat) : (s.setCtr c u b v).arrivals = s.arrivals := rfl
@[simp] theorem State.setCtr_jobs (c : Ctr) (u b v : Nat) : (s.setCtr c u b v).jobs = s.jobs := rfl
@[simp] theorem State.setCtr_parts (c : Ctr) (u b v : Nat) : (s.setCtr c u b v).parts = s.parts := rfl
@[simp] theorem State.setCtr_power (c : Ctr) (u b v : Nat) : (s.setCtr c u b v).power = s.power := rfl
@[simp] theorem State.setCtr_edgeDraw (c : Ctr) (u b v : Nat) : (s.setCtr c u b v).edgeDraw = s.edgeDraw := rfl
@[simp] theorem State.setCtr_powerOver (c : Ctr) (u b v : Nat) : (s.setCtr c u b v).powerOver = s.powerOver := rfl
@[simp] theorem State.setCtr_grng (c : Ctr) (u b v : Nat) : (s.setCtr c u b v).grng = s.grng := rfl
@[simp] theorem State.setCtr_win (c : Ctr) (u b v : Nat) : (s.setCtr c u b v).win = s.win := rfl
@[simp] theorem State.setCtr_tithes (c : Ctr) (u b v : Nat) : (s.setCtr c u b v).tithes = s.tithes := rfl
@[simp] theorem State.setCtr_titheSeq (c : Ctr) (u b v : Nat) : (s.setCtr c u b v).titheSeq = s.titheSeq := rfl
@[simp] theorem State.setCtr_packetsOut (c : Ctr) (u b v : Nat) : (s.setCtr c u b v).packetsOut = s.packetsOut := rfl
@[simp] theorem State.setCtr_restore (c : Ctr) (u b v : Nat) : (s.setCtr c u b v).restore = s.restore := rfl
@[simp] theorem State.setCtr_ports (c : Ctr) (u b v : Nat) : (s.setCtr c u b v).ports = s.ports := rfl
@[simp] theorem State.setCtr_gates (c : Ctr) (u b v : Nat) : (s.setCtr c u b v).gates = s.gates := rfl
@[simp] theorem State.setCtr_loop (c : Ctr) (u b v : Nat) : (s.setCtr c u b v).loop = s.loop := rfl
@[simp] theorem State.setCtr_beat (c : Ctr) (u b v : Nat) : (s.setCtr c u b v).beat = s.beat := rfl
@[simp] theorem State.setCtr_mbxWaits (c : Ctr) (u b v : Nat) : (s.setCtr c u b v).mbxWaits = s.mbxWaits := rfl
@[simp] theorem State.setCtr_mods (c : Ctr) (u b v : Nat) : (s.setCtr c u b v).mods = s.mods := rfl
@[simp] theorem State.setCtr_lostTags (c : Ctr) (u b v : Nat) : (s.setCtr c u b v).lostTags = s.lostTags := rfl
@[simp] theorem State.setCtr_hostLost (c : Ctr) (u b v : Nat) : (s.setCtr c u b v).hostLost = s.hostLost := rfl
@[simp] theorem State.setCtr_bootStage (c : Ctr) (u b v : Nat) : (s.setCtr c u b v).bootStage = s.bootStage := rfl
@[simp] theorem State.setCtr_stageWord (c : Ctr) (u b v : Nat) : (s.setCtr c u b v).stageWord = s.stageWord := rfl
@[simp] theorem State.setCtr_evHead (c : Ctr) (u b v : Nat) : (s.setCtr c u b v).evHead = s.evHead := rfl
@[simp] theorem State.setCtr_evTail (c : Ctr) (u b v : Nat) : (s.setCtr c u b v).evTail = s.evTail := rfl
@[simp] theorem State.setCtr_evLost (c : Ctr) (u b v : Nat) : (s.setCtr c u b v).evLost = s.evLost := rfl
@[simp] theorem State.setCtr_evOver (c : Ctr) (u b v : Nat) : (s.setCtr c u b v).evOver = s.evOver := rfl
@[simp] theorem State.setCtr_fw (c : Ctr) (u b v : Nat) : (s.setCtr c u b v).fw = s.fw := rfl
@[simp] theorem State.setCtr_cplq (c : Ctr) (u b v : Nat) : (s.setCtr c u b v).cplq = s.cplq := rfl
@[simp] theorem State.setCtr_sec (c : Ctr) (u b v : Nat) : (s.setCtr c u b v).sec = s.sec := rfl
@[simp] theorem State.setCtr_nv (c : Ctr) (u b v : Nat) : (s.setCtr c u b v).nv = s.nv := rfl
@[simp] theorem State.setCtr_shape (c : Ctr) (u b v : Nat) : (s.setCtr c u b v).shape = s.shape := rfl
@[simp] theorem State.setCtr_mesh (c : Ctr) (u b v : Nat) : (s.setCtr c u b v).mesh = s.mesh := rfl
@[simp] theorem State.setCtr_bring (c : Ctr) (u b v : Nat) : (s.setCtr c u b v).bring = s.bring := rfl
@[simp] theorem State.setCtr_shapeNew (c : Ctr) (u b v : Nat) : (s.setCtr c u b v).shapeNew = s.shapeNew := rfl
@[simp] theorem State.setCtr_coresUp (c : Ctr) (u b v : Nat) : (s.setCtr c u b v).coresUp = s.coresUp := rfl
@[simp] theorem State.setCtr_defects (c : Ctr) (u b v : Nat) : (s.setCtr c u b v).defects = s.defects := rfl
@[simp] theorem State.setCtr_fwTurn (c : Ctr) (u b v : Nat) : (s.setCtr c u b v).fwTurn = s.fwTurn := rfl
@[simp] theorem State.setCtr_seedPack (c : Ctr) (u b v : Nat) : (s.setCtr c u b v).seedPack = s.seedPack := rfl
@[simp] theorem State.setCtr_seedSets (c : Ctr) (u b v : Nat) : (s.setCtr c u b v).seedSets = s.seedSets := rfl
@[simp] theorem State.setCtr_minSvn (c : Ctr) (u b v : Nat) : (s.setCtr c u b v).minSvn = s.minSvn := rfl
@[simp] theorem State.setCtr_calDue (c : Ctr) (u b v : Nat) : (s.setCtr c u b v).calDue = s.calDue := rfl
@[simp] theorem State.setCtr_calLate (c : Ctr) (u b v : Nat) : (s.setCtr c u b v).calLate = s.calLate := rfl
@[simp] theorem State.setCtr_passedAt (c : Ctr) (u b v : Nat) : (s.setCtr c u b v).passedAt = s.passedAt := rfl
@[simp] theorem State.setCtr_testFirst (c : Ctr) (u b v : Nat) : (s.setCtr c u b v).testFirst = s.testFirst := rfl
@[simp] theorem State.setCtr_window_ (c : Ctr) (u b v : Nat) : (s.setCtr c u b v).window_ = s.window_ := rfl
@[simp] theorem State.setCtr_board (c : Ctr) (u b v : Nat) : (s.setCtr c u b v).board = s.board := rfl

/-! `State.count`. -/

@[simp] theorem State.count_pending (c : Ctr) (u n b : Nat) : (s.count c u n b).pending = s.pending := rfl
@[simp] theorem State.count_free (c : Ctr) (u n b : Nat) : (s.count c u n b).free = s.free := rfl
@[simp] theorem State.count_outbox (c : Ctr) (u n b : Nat) : (s.count c u n b).outbox = s.outbox := rfl
@[simp] theorem State.count_regs (c : Ctr) (u n b : Nat) : (s.count c u n b).regs = s.regs := rfl
@[simp] theorem State.count_shadow (c : Ctr) (u n b : Nat) : (s.count c u n b).shadow = s.shadow := rfl
@[simp] theorem State.count_suspects (c : Ctr) (u n b : Nat) : (s.count c u n b).suspects = s.suspects := rfl
@[simp] theorem State.count_late (c : Ctr) (u n b : Nat) : (s.count c u n b).late = s.late := rfl
@[simp] theorem State.count_snap (c : Ctr) (u n b : Nat) : (s.count c u n b).snap = s.snap := rfl
@[simp] theorem State.count_snapBeat (c : Ctr) (u n b : Nat) : (s.count c u n b).snapBeat = s.snapBeat := rfl
@[simp] theorem State.count_snapAsked (c : Ctr) (u n b : Nat) : (s.count c u n b).snapAsked = s.snapAsked := rfl
@[simp] theorem State.count_rows (c : Ctr) (u n b : Nat) : (s.count c u n b).rows = s.rows := rfl
@[simp] theorem State.count_lpddr (c : Ctr) (u n b : Nat) : (s.count c u n b).lpddr = s.lpddr := rfl
@[simp] theorem State.count_checks (c : Ctr) (u n b : Nat) : (s.count c u n b).checks = s.checks := rfl
@[simp] theorem State.count_lpPatrol (c : Ctr) (u n b : Nat) : (s.count c u n b).lpPatrol = s.lpPatrol := rfl
@[simp] theorem State.count_window (c : Ctr) (u n b : Nat) : (s.count c u n b).window = s.window := rfl
@[simp] theorem State.count_moves (c : Ctr) (u n b : Nat) : (s.count c u n b).moves = s.moves := rfl
@[simp] theorem State.count_ceRows (c : Ctr) (u n b : Nat) : (s.count c u n b).ceRows = s.ceRows := rfl
@[simp] theorem State.count_retiredRows (c : Ctr) (u n b : Nat) : (s.count c u n b).retiredRows = s.retiredRows := rfl
@[simp] theorem State.count_copying (c : Ctr) (u n b : Nat) : (s.count c u n b).copying = s.copying := rfl
@[simp] theorem State.count_epoch (c : Ctr) (u n b : Nat) : (s.count c u n b).epoch = s.epoch := rfl
@[simp] theorem State.count_walk (c : Ctr) (u n b : Nat) : (s.count c u n b).walk = s.walk := rfl
@[simp] theorem State.count_bringups (c : Ctr) (u n b : Nat) : (s.count c u n b).bringups = s.bringups := rfl
@[simp] theorem State.count_seals (c : Ctr) (u n b : Nat) : (s.count c u n b).seals = s.seals := rfl
@[simp] theorem State.count_pinned (c : Ctr) (u n b : Nat) : (s.count c u n b).pinned = s.pinned := rfl
@[simp] theorem State.count_goneViews (c : Ctr) (u n b : Nat) : (s.count c u n b).goneViews = s.goneViews := rfl
@[simp] theorem State.count_copyGone (c : Ctr) (u n b : Nat) : (s.count c u n b).copyGone = s.copyGone := rfl
@[simp] theorem State.count_tasks (c : Ctr) (u n b : Nat) : (s.count c u n b).tasks = s.tasks := rfl
@[simp] theorem State.count_taskSeq (c : Ctr) (u n b : Nat) : (s.count c u n b).taskSeq = s.taskSeq := rfl
@[simp] theorem State.count_groups (c : Ctr) (u n b : Nat) : (s.count c u n b).groups = s.groups := rfl
@[simp] theorem State.count_engs (c : Ctr) (u n b : Nat) : (s.count c u n b).engs = s.engs := rfl
@[simp] theorem State.count_cores (c : Ctr) (u n b : Nat) : (s.count c u n b).cores = s.cores := rfl
@[simp] theorem State.count_clus (c : Ctr) (u n b : Nat) : (s.count c u n b).clus = s.clus := rfl
@[simp] theorem State.count_chans (c : Ctr) (u n b : Nat) : (s.count c u n b).chans = s.chans := rfl
@[simp] theorem State.count_waits (c : Ctr) (u n b : Nat) : (s.count c u n b).waits = s.waits := rfl
@[simp] theorem State.count_arrivals (c : Ctr) (u n b : Nat) : (s.count c u n b).arrivals = s.arrivals := rfl
@[simp] theorem State.count_jobs (c : Ctr) (u n b : Nat) : (s.count c u n b).jobs = s.jobs := rfl
@[simp] theorem State.count_parts (c : Ctr) (u n b : Nat) : (s.count c u n b).parts = s.parts := rfl
@[simp] theorem State.count_power (c : Ctr) (u n b : Nat) : (s.count c u n b).power = s.power := rfl
@[simp] theorem State.count_edgeDraw (c : Ctr) (u n b : Nat) : (s.count c u n b).edgeDraw = s.edgeDraw := rfl
@[simp] theorem State.count_powerOver (c : Ctr) (u n b : Nat) : (s.count c u n b).powerOver = s.powerOver := rfl
@[simp] theorem State.count_grng (c : Ctr) (u n b : Nat) : (s.count c u n b).grng = s.grng := rfl
@[simp] theorem State.count_win (c : Ctr) (u n b : Nat) : (s.count c u n b).win = s.win := rfl
@[simp] theorem State.count_tithes (c : Ctr) (u n b : Nat) : (s.count c u n b).tithes = s.tithes := rfl
@[simp] theorem State.count_titheSeq (c : Ctr) (u n b : Nat) : (s.count c u n b).titheSeq = s.titheSeq := rfl
@[simp] theorem State.count_packetsOut (c : Ctr) (u n b : Nat) : (s.count c u n b).packetsOut = s.packetsOut := rfl
@[simp] theorem State.count_restore (c : Ctr) (u n b : Nat) : (s.count c u n b).restore = s.restore := rfl
@[simp] theorem State.count_ports (c : Ctr) (u n b : Nat) : (s.count c u n b).ports = s.ports := rfl
@[simp] theorem State.count_gates (c : Ctr) (u n b : Nat) : (s.count c u n b).gates = s.gates := rfl
@[simp] theorem State.count_loop (c : Ctr) (u n b : Nat) : (s.count c u n b).loop = s.loop := rfl
@[simp] theorem State.count_beat (c : Ctr) (u n b : Nat) : (s.count c u n b).beat = s.beat := rfl
@[simp] theorem State.count_mbxWaits (c : Ctr) (u n b : Nat) : (s.count c u n b).mbxWaits = s.mbxWaits := rfl
@[simp] theorem State.count_mods (c : Ctr) (u n b : Nat) : (s.count c u n b).mods = s.mods := rfl
@[simp] theorem State.count_lostTags (c : Ctr) (u n b : Nat) : (s.count c u n b).lostTags = s.lostTags := rfl
@[simp] theorem State.count_hostLost (c : Ctr) (u n b : Nat) : (s.count c u n b).hostLost = s.hostLost := rfl
@[simp] theorem State.count_bootStage (c : Ctr) (u n b : Nat) : (s.count c u n b).bootStage = s.bootStage := rfl
@[simp] theorem State.count_stageWord (c : Ctr) (u n b : Nat) : (s.count c u n b).stageWord = s.stageWord := rfl
@[simp] theorem State.count_evHead (c : Ctr) (u n b : Nat) : (s.count c u n b).evHead = s.evHead := rfl
@[simp] theorem State.count_evTail (c : Ctr) (u n b : Nat) : (s.count c u n b).evTail = s.evTail := rfl
@[simp] theorem State.count_evLost (c : Ctr) (u n b : Nat) : (s.count c u n b).evLost = s.evLost := rfl
@[simp] theorem State.count_evOver (c : Ctr) (u n b : Nat) : (s.count c u n b).evOver = s.evOver := rfl
@[simp] theorem State.count_fw (c : Ctr) (u n b : Nat) : (s.count c u n b).fw = s.fw := rfl
@[simp] theorem State.count_cplq (c : Ctr) (u n b : Nat) : (s.count c u n b).cplq = s.cplq := rfl
@[simp] theorem State.count_sec (c : Ctr) (u n b : Nat) : (s.count c u n b).sec = s.sec := rfl
@[simp] theorem State.count_nv (c : Ctr) (u n b : Nat) : (s.count c u n b).nv = s.nv := rfl
@[simp] theorem State.count_shape (c : Ctr) (u n b : Nat) : (s.count c u n b).shape = s.shape := rfl
@[simp] theorem State.count_mesh (c : Ctr) (u n b : Nat) : (s.count c u n b).mesh = s.mesh := rfl
@[simp] theorem State.count_bring (c : Ctr) (u n b : Nat) : (s.count c u n b).bring = s.bring := rfl
@[simp] theorem State.count_shapeNew (c : Ctr) (u n b : Nat) : (s.count c u n b).shapeNew = s.shapeNew := rfl
@[simp] theorem State.count_coresUp (c : Ctr) (u n b : Nat) : (s.count c u n b).coresUp = s.coresUp := rfl
@[simp] theorem State.count_defects (c : Ctr) (u n b : Nat) : (s.count c u n b).defects = s.defects := rfl
@[simp] theorem State.count_fwTurn (c : Ctr) (u n b : Nat) : (s.count c u n b).fwTurn = s.fwTurn := rfl
@[simp] theorem State.count_seedPack (c : Ctr) (u n b : Nat) : (s.count c u n b).seedPack = s.seedPack := rfl
@[simp] theorem State.count_seedSets (c : Ctr) (u n b : Nat) : (s.count c u n b).seedSets = s.seedSets := rfl
@[simp] theorem State.count_minSvn (c : Ctr) (u n b : Nat) : (s.count c u n b).minSvn = s.minSvn := rfl
@[simp] theorem State.count_calDue (c : Ctr) (u n b : Nat) : (s.count c u n b).calDue = s.calDue := rfl
@[simp] theorem State.count_calLate (c : Ctr) (u n b : Nat) : (s.count c u n b).calLate = s.calLate := rfl
@[simp] theorem State.count_passedAt (c : Ctr) (u n b : Nat) : (s.count c u n b).passedAt = s.passedAt := rfl
@[simp] theorem State.count_testFirst (c : Ctr) (u n b : Nat) : (s.count c u n b).testFirst = s.testFirst := rfl
@[simp] theorem State.count_window_ (c : Ctr) (u n b : Nat) : (s.count c u n b).window_ = s.window_ := rfl
@[simp] theorem State.count_board (c : Ctr) (u n b : Nat) : (s.count c u n b).board = s.board := rfl

/-! `State.countCore`. -/

@[simp] theorem State.countCore_pending (c : Ctr) (k n : Nat) : (s.countCore c k n).pending = s.pending := rfl
@[simp] theorem State.countCore_free (c : Ctr) (k n : Nat) : (s.countCore c k n).free = s.free := rfl
@[simp] theorem State.countCore_outbox (c : Ctr) (k n : Nat) : (s.countCore c k n).outbox = s.outbox := rfl
@[simp] theorem State.countCore_regs (c : Ctr) (k n : Nat) : (s.countCore c k n).regs = s.regs := rfl
@[simp] theorem State.countCore_shadow (c : Ctr) (k n : Nat) : (s.countCore c k n).shadow = s.shadow := rfl
@[simp] theorem State.countCore_suspects (c : Ctr) (k n : Nat) : (s.countCore c k n).suspects = s.suspects := rfl
@[simp] theorem State.countCore_late (c : Ctr) (k n : Nat) : (s.countCore c k n).late = s.late := rfl
@[simp] theorem State.countCore_snap (c : Ctr) (k n : Nat) : (s.countCore c k n).snap = s.snap := rfl
@[simp] theorem State.countCore_snapBeat (c : Ctr) (k n : Nat) : (s.countCore c k n).snapBeat = s.snapBeat := rfl
@[simp] theorem State.countCore_snapAsked (c : Ctr) (k n : Nat) : (s.countCore c k n).snapAsked = s.snapAsked := rfl
@[simp] theorem State.countCore_rows (c : Ctr) (k n : Nat) : (s.countCore c k n).rows = s.rows := rfl
@[simp] theorem State.countCore_lpddr (c : Ctr) (k n : Nat) : (s.countCore c k n).lpddr = s.lpddr := rfl
@[simp] theorem State.countCore_checks (c : Ctr) (k n : Nat) : (s.countCore c k n).checks = s.checks := rfl
@[simp] theorem State.countCore_lpPatrol (c : Ctr) (k n : Nat) : (s.countCore c k n).lpPatrol = s.lpPatrol := rfl
@[simp] theorem State.countCore_window (c : Ctr) (k n : Nat) : (s.countCore c k n).window = s.window := rfl
@[simp] theorem State.countCore_moves (c : Ctr) (k n : Nat) : (s.countCore c k n).moves = s.moves := rfl
@[simp] theorem State.countCore_ceRows (c : Ctr) (k n : Nat) : (s.countCore c k n).ceRows = s.ceRows := rfl
@[simp] theorem State.countCore_retiredRows (c : Ctr) (k n : Nat) : (s.countCore c k n).retiredRows = s.retiredRows := rfl
@[simp] theorem State.countCore_copying (c : Ctr) (k n : Nat) : (s.countCore c k n).copying = s.copying := rfl
@[simp] theorem State.countCore_epoch (c : Ctr) (k n : Nat) : (s.countCore c k n).epoch = s.epoch := rfl
@[simp] theorem State.countCore_walk (c : Ctr) (k n : Nat) : (s.countCore c k n).walk = s.walk := rfl
@[simp] theorem State.countCore_bringups (c : Ctr) (k n : Nat) : (s.countCore c k n).bringups = s.bringups := rfl
@[simp] theorem State.countCore_seals (c : Ctr) (k n : Nat) : (s.countCore c k n).seals = s.seals := rfl
@[simp] theorem State.countCore_pinned (c : Ctr) (k n : Nat) : (s.countCore c k n).pinned = s.pinned := rfl
@[simp] theorem State.countCore_goneViews (c : Ctr) (k n : Nat) : (s.countCore c k n).goneViews = s.goneViews := rfl
@[simp] theorem State.countCore_copyGone (c : Ctr) (k n : Nat) : (s.countCore c k n).copyGone = s.copyGone := rfl
@[simp] theorem State.countCore_tasks (c : Ctr) (k n : Nat) : (s.countCore c k n).tasks = s.tasks := rfl
@[simp] theorem State.countCore_taskSeq (c : Ctr) (k n : Nat) : (s.countCore c k n).taskSeq = s.taskSeq := rfl
@[simp] theorem State.countCore_groups (c : Ctr) (k n : Nat) : (s.countCore c k n).groups = s.groups := rfl
@[simp] theorem State.countCore_engs (c : Ctr) (k n : Nat) : (s.countCore c k n).engs = s.engs := rfl
@[simp] theorem State.countCore_cores (c : Ctr) (k n : Nat) : (s.countCore c k n).cores = s.cores := rfl
@[simp] theorem State.countCore_clus (c : Ctr) (k n : Nat) : (s.countCore c k n).clus = s.clus := rfl
@[simp] theorem State.countCore_chans (c : Ctr) (k n : Nat) : (s.countCore c k n).chans = s.chans := rfl
@[simp] theorem State.countCore_waits (c : Ctr) (k n : Nat) : (s.countCore c k n).waits = s.waits := rfl
@[simp] theorem State.countCore_arrivals (c : Ctr) (k n : Nat) : (s.countCore c k n).arrivals = s.arrivals := rfl
@[simp] theorem State.countCore_jobs (c : Ctr) (k n : Nat) : (s.countCore c k n).jobs = s.jobs := rfl
@[simp] theorem State.countCore_parts (c : Ctr) (k n : Nat) : (s.countCore c k n).parts = s.parts := rfl
@[simp] theorem State.countCore_power (c : Ctr) (k n : Nat) : (s.countCore c k n).power = s.power := rfl
@[simp] theorem State.countCore_edgeDraw (c : Ctr) (k n : Nat) : (s.countCore c k n).edgeDraw = s.edgeDraw := rfl
@[simp] theorem State.countCore_powerOver (c : Ctr) (k n : Nat) : (s.countCore c k n).powerOver = s.powerOver := rfl
@[simp] theorem State.countCore_grng (c : Ctr) (k n : Nat) : (s.countCore c k n).grng = s.grng := rfl
@[simp] theorem State.countCore_win (c : Ctr) (k n : Nat) : (s.countCore c k n).win = s.win := rfl
@[simp] theorem State.countCore_tithes (c : Ctr) (k n : Nat) : (s.countCore c k n).tithes = s.tithes := rfl
@[simp] theorem State.countCore_titheSeq (c : Ctr) (k n : Nat) : (s.countCore c k n).titheSeq = s.titheSeq := rfl
@[simp] theorem State.countCore_packetsOut (c : Ctr) (k n : Nat) : (s.countCore c k n).packetsOut = s.packetsOut := rfl
@[simp] theorem State.countCore_restore (c : Ctr) (k n : Nat) : (s.countCore c k n).restore = s.restore := rfl
@[simp] theorem State.countCore_ports (c : Ctr) (k n : Nat) : (s.countCore c k n).ports = s.ports := rfl
@[simp] theorem State.countCore_gates (c : Ctr) (k n : Nat) : (s.countCore c k n).gates = s.gates := rfl
@[simp] theorem State.countCore_loop (c : Ctr) (k n : Nat) : (s.countCore c k n).loop = s.loop := rfl
@[simp] theorem State.countCore_beat (c : Ctr) (k n : Nat) : (s.countCore c k n).beat = s.beat := rfl
@[simp] theorem State.countCore_mbxWaits (c : Ctr) (k n : Nat) : (s.countCore c k n).mbxWaits = s.mbxWaits := rfl
@[simp] theorem State.countCore_mods (c : Ctr) (k n : Nat) : (s.countCore c k n).mods = s.mods := rfl
@[simp] theorem State.countCore_lostTags (c : Ctr) (k n : Nat) : (s.countCore c k n).lostTags = s.lostTags := rfl
@[simp] theorem State.countCore_hostLost (c : Ctr) (k n : Nat) : (s.countCore c k n).hostLost = s.hostLost := rfl
@[simp] theorem State.countCore_bootStage (c : Ctr) (k n : Nat) : (s.countCore c k n).bootStage = s.bootStage := rfl
@[simp] theorem State.countCore_stageWord (c : Ctr) (k n : Nat) : (s.countCore c k n).stageWord = s.stageWord := rfl
@[simp] theorem State.countCore_evHead (c : Ctr) (k n : Nat) : (s.countCore c k n).evHead = s.evHead := rfl
@[simp] theorem State.countCore_evTail (c : Ctr) (k n : Nat) : (s.countCore c k n).evTail = s.evTail := rfl
@[simp] theorem State.countCore_evLost (c : Ctr) (k n : Nat) : (s.countCore c k n).evLost = s.evLost := rfl
@[simp] theorem State.countCore_evOver (c : Ctr) (k n : Nat) : (s.countCore c k n).evOver = s.evOver := rfl
@[simp] theorem State.countCore_fw (c : Ctr) (k n : Nat) : (s.countCore c k n).fw = s.fw := rfl
@[simp] theorem State.countCore_cplq (c : Ctr) (k n : Nat) : (s.countCore c k n).cplq = s.cplq := rfl
@[simp] theorem State.countCore_sec (c : Ctr) (k n : Nat) : (s.countCore c k n).sec = s.sec := rfl
@[simp] theorem State.countCore_nv (c : Ctr) (k n : Nat) : (s.countCore c k n).nv = s.nv := rfl
@[simp] theorem State.countCore_shape (c : Ctr) (k n : Nat) : (s.countCore c k n).shape = s.shape := rfl
@[simp] theorem State.countCore_mesh (c : Ctr) (k n : Nat) : (s.countCore c k n).mesh = s.mesh := rfl
@[simp] theorem State.countCore_bring (c : Ctr) (k n : Nat) : (s.countCore c k n).bring = s.bring := rfl
@[simp] theorem State.countCore_shapeNew (c : Ctr) (k n : Nat) : (s.countCore c k n).shapeNew = s.shapeNew := rfl
@[simp] theorem State.countCore_coresUp (c : Ctr) (k n : Nat) : (s.countCore c k n).coresUp = s.coresUp := rfl
@[simp] theorem State.countCore_defects (c : Ctr) (k n : Nat) : (s.countCore c k n).defects = s.defects := rfl
@[simp] theorem State.countCore_fwTurn (c : Ctr) (k n : Nat) : (s.countCore c k n).fwTurn = s.fwTurn := rfl
@[simp] theorem State.countCore_seedPack (c : Ctr) (k n : Nat) : (s.countCore c k n).seedPack = s.seedPack := rfl
@[simp] theorem State.countCore_seedSets (c : Ctr) (k n : Nat) : (s.countCore c k n).seedSets = s.seedSets := rfl
@[simp] theorem State.countCore_minSvn (c : Ctr) (k n : Nat) : (s.countCore c k n).minSvn = s.minSvn := rfl
@[simp] theorem State.countCore_calDue (c : Ctr) (k n : Nat) : (s.countCore c k n).calDue = s.calDue := rfl
@[simp] theorem State.countCore_calLate (c : Ctr) (k n : Nat) : (s.countCore c k n).calLate = s.calLate := rfl
@[simp] theorem State.countCore_passedAt (c : Ctr) (k n : Nat) : (s.countCore c k n).passedAt = s.passedAt := rfl
@[simp] theorem State.countCore_testFirst (c : Ctr) (k n : Nat) : (s.countCore c k n).testFirst = s.testFirst := rfl
@[simp] theorem State.countCore_window_ (c : Ctr) (k n : Nat) : (s.countCore c k n).window_ = s.window_ := rfl
@[simp] theorem State.countCore_board (c : Ctr) (k n : Nat) : (s.countCore c k n).board = s.board := rfl

/-! `State.emit`. -/

@[simp] theorem State.emit_pending (e : Emit) : (s.emit e).pending = s.pending := rfl
@[simp] theorem State.emit_free (e : Emit) : (s.emit e).free = s.free := rfl
@[simp] theorem State.emit_regs (e : Emit) : (s.emit e).regs = s.regs := rfl
@[simp] theorem State.emit_shadow (e : Emit) : (s.emit e).shadow = s.shadow := rfl
@[simp] theorem State.emit_suspects (e : Emit) : (s.emit e).suspects = s.suspects := rfl
@[simp] theorem State.emit_late (e : Emit) : (s.emit e).late = s.late := rfl
@[simp] theorem State.emit_ctrs (e : Emit) : (s.emit e).ctrs = s.ctrs := rfl
@[simp] theorem State.emit_snap (e : Emit) : (s.emit e).snap = s.snap := rfl
@[simp] theorem State.emit_snapBeat (e : Emit) : (s.emit e).snapBeat = s.snapBeat := rfl
@[simp] theorem State.emit_snapAsked (e : Emit) : (s.emit e).snapAsked = s.snapAsked := rfl
@[simp] theorem State.emit_rows (e : Emit) : (s.emit e).rows = s.rows := rfl
@[simp] theorem State.emit_lpddr (e : Emit) : (s.emit e).lpddr = s.lpddr := rfl
@[simp] theorem State.emit_checks (e : Emit) : (s.emit e).checks = s.checks := rfl
@[simp] theorem State.emit_lpPatrol (e : Emit) : (s.emit e).lpPatrol = s.lpPatrol := rfl
@[simp] theorem State.emit_window (e : Emit) : (s.emit e).window = s.window := rfl
@[simp] theorem State.emit_moves (e : Emit) : (s.emit e).moves = s.moves := rfl
@[simp] theorem State.emit_ceRows (e : Emit) : (s.emit e).ceRows = s.ceRows := rfl
@[simp] theorem State.emit_retiredRows (e : Emit) : (s.emit e).retiredRows = s.retiredRows := rfl
@[simp] theorem State.emit_copying (e : Emit) : (s.emit e).copying = s.copying := rfl
@[simp] theorem State.emit_epoch (e : Emit) : (s.emit e).epoch = s.epoch := rfl
@[simp] theorem State.emit_walk (e : Emit) : (s.emit e).walk = s.walk := rfl
@[simp] theorem State.emit_bringups (e : Emit) : (s.emit e).bringups = s.bringups := rfl
@[simp] theorem State.emit_seals (e : Emit) : (s.emit e).seals = s.seals := rfl
@[simp] theorem State.emit_pinned (e : Emit) : (s.emit e).pinned = s.pinned := rfl
@[simp] theorem State.emit_goneViews (e : Emit) : (s.emit e).goneViews = s.goneViews := rfl
@[simp] theorem State.emit_copyGone (e : Emit) : (s.emit e).copyGone = s.copyGone := rfl
@[simp] theorem State.emit_tasks (e : Emit) : (s.emit e).tasks = s.tasks := rfl
@[simp] theorem State.emit_taskSeq (e : Emit) : (s.emit e).taskSeq = s.taskSeq := rfl
@[simp] theorem State.emit_groups (e : Emit) : (s.emit e).groups = s.groups := rfl
@[simp] theorem State.emit_engs (e : Emit) : (s.emit e).engs = s.engs := rfl
@[simp] theorem State.emit_cores (e : Emit) : (s.emit e).cores = s.cores := rfl
@[simp] theorem State.emit_clus (e : Emit) : (s.emit e).clus = s.clus := rfl
@[simp] theorem State.emit_chans (e : Emit) : (s.emit e).chans = s.chans := rfl
@[simp] theorem State.emit_waits (e : Emit) : (s.emit e).waits = s.waits := rfl
@[simp] theorem State.emit_arrivals (e : Emit) : (s.emit e).arrivals = s.arrivals := rfl
@[simp] theorem State.emit_jobs (e : Emit) : (s.emit e).jobs = s.jobs := rfl
@[simp] theorem State.emit_parts (e : Emit) : (s.emit e).parts = s.parts := rfl
@[simp] theorem State.emit_power (e : Emit) : (s.emit e).power = s.power := rfl
@[simp] theorem State.emit_edgeDraw (e : Emit) : (s.emit e).edgeDraw = s.edgeDraw := rfl
@[simp] theorem State.emit_powerOver (e : Emit) : (s.emit e).powerOver = s.powerOver := rfl
@[simp] theorem State.emit_grng (e : Emit) : (s.emit e).grng = s.grng := rfl
@[simp] theorem State.emit_win (e : Emit) : (s.emit e).win = s.win := rfl
@[simp] theorem State.emit_tithes (e : Emit) : (s.emit e).tithes = s.tithes := rfl
@[simp] theorem State.emit_titheSeq (e : Emit) : (s.emit e).titheSeq = s.titheSeq := rfl
@[simp] theorem State.emit_packetsOut (e : Emit) : (s.emit e).packetsOut = s.packetsOut := rfl
@[simp] theorem State.emit_restore (e : Emit) : (s.emit e).restore = s.restore := rfl
@[simp] theorem State.emit_ports (e : Emit) : (s.emit e).ports = s.ports := rfl
@[simp] theorem State.emit_gates (e : Emit) : (s.emit e).gates = s.gates := rfl
@[simp] theorem State.emit_loop (e : Emit) : (s.emit e).loop = s.loop := rfl
@[simp] theorem State.emit_beat (e : Emit) : (s.emit e).beat = s.beat := rfl
@[simp] theorem State.emit_mbxWaits (e : Emit) : (s.emit e).mbxWaits = s.mbxWaits := rfl
@[simp] theorem State.emit_mods (e : Emit) : (s.emit e).mods = s.mods := rfl
@[simp] theorem State.emit_lostTags (e : Emit) : (s.emit e).lostTags = s.lostTags := rfl
@[simp] theorem State.emit_hostLost (e : Emit) : (s.emit e).hostLost = s.hostLost := rfl
@[simp] theorem State.emit_bootStage (e : Emit) : (s.emit e).bootStage = s.bootStage := rfl
@[simp] theorem State.emit_stageWord (e : Emit) : (s.emit e).stageWord = s.stageWord := rfl
@[simp] theorem State.emit_evHead (e : Emit) : (s.emit e).evHead = s.evHead := rfl
@[simp] theorem State.emit_evTail (e : Emit) : (s.emit e).evTail = s.evTail := rfl
@[simp] theorem State.emit_evLost (e : Emit) : (s.emit e).evLost = s.evLost := rfl
@[simp] theorem State.emit_evOver (e : Emit) : (s.emit e).evOver = s.evOver := rfl
@[simp] theorem State.emit_fw (e : Emit) : (s.emit e).fw = s.fw := rfl
@[simp] theorem State.emit_cplq (e : Emit) : (s.emit e).cplq = s.cplq := rfl
@[simp] theorem State.emit_sec (e : Emit) : (s.emit e).sec = s.sec := rfl
@[simp] theorem State.emit_nv (e : Emit) : (s.emit e).nv = s.nv := rfl
@[simp] theorem State.emit_shape (e : Emit) : (s.emit e).shape = s.shape := rfl
@[simp] theorem State.emit_mesh (e : Emit) : (s.emit e).mesh = s.mesh := rfl
@[simp] theorem State.emit_bring (e : Emit) : (s.emit e).bring = s.bring := rfl
@[simp] theorem State.emit_shapeNew (e : Emit) : (s.emit e).shapeNew = s.shapeNew := rfl
@[simp] theorem State.emit_coresUp (e : Emit) : (s.emit e).coresUp = s.coresUp := rfl
@[simp] theorem State.emit_defects (e : Emit) : (s.emit e).defects = s.defects := rfl
@[simp] theorem State.emit_fwTurn (e : Emit) : (s.emit e).fwTurn = s.fwTurn := rfl
@[simp] theorem State.emit_seedPack (e : Emit) : (s.emit e).seedPack = s.seedPack := rfl
@[simp] theorem State.emit_seedSets (e : Emit) : (s.emit e).seedSets = s.seedSets := rfl
@[simp] theorem State.emit_minSvn (e : Emit) : (s.emit e).minSvn = s.minSvn := rfl
@[simp] theorem State.emit_calDue (e : Emit) : (s.emit e).calDue = s.calDue := rfl
@[simp] theorem State.emit_calLate (e : Emit) : (s.emit e).calLate = s.calLate := rfl
@[simp] theorem State.emit_passedAt (e : Emit) : (s.emit e).passedAt = s.passedAt := rfl
@[simp] theorem State.emit_testFirst (e : Emit) : (s.emit e).testFirst = s.testFirst := rfl
@[simp] theorem State.emit_window_ (e : Emit) : (s.emit e).window_ = s.window_ := rfl
@[simp] theorem State.emit_board (e : Emit) : (s.emit e).board = s.board := rfl

/-! `State.winWrite`. -/

@[simp] theorem State.winWrite_pending (a n v : Nat) : (s.winWrite a n v).pending = s.pending := rfl
@[simp] theorem State.winWrite_free (a n v : Nat) : (s.winWrite a n v).free = s.free := rfl
@[simp] theorem State.winWrite_outbox (a n v : Nat) : (s.winWrite a n v).outbox = s.outbox := rfl
@[simp] theorem State.winWrite_regs (a n v : Nat) : (s.winWrite a n v).regs = s.regs := rfl
@[simp] theorem State.winWrite_shadow (a n v : Nat) : (s.winWrite a n v).shadow = s.shadow := rfl
@[simp] theorem State.winWrite_suspects (a n v : Nat) : (s.winWrite a n v).suspects = s.suspects := rfl
@[simp] theorem State.winWrite_late (a n v : Nat) : (s.winWrite a n v).late = s.late := rfl
@[simp] theorem State.winWrite_ctrs (a n v : Nat) : (s.winWrite a n v).ctrs = s.ctrs := rfl
@[simp] theorem State.winWrite_snap (a n v : Nat) : (s.winWrite a n v).snap = s.snap := rfl
@[simp] theorem State.winWrite_snapBeat (a n v : Nat) : (s.winWrite a n v).snapBeat = s.snapBeat := rfl
@[simp] theorem State.winWrite_snapAsked (a n v : Nat) : (s.winWrite a n v).snapAsked = s.snapAsked := rfl
@[simp] theorem State.winWrite_rows (a n v : Nat) : (s.winWrite a n v).rows = s.rows := rfl
@[simp] theorem State.winWrite_lpddr (a n v : Nat) : (s.winWrite a n v).lpddr = s.lpddr := rfl
@[simp] theorem State.winWrite_checks (a n v : Nat) : (s.winWrite a n v).checks = s.checks := rfl
@[simp] theorem State.winWrite_lpPatrol (a n v : Nat) : (s.winWrite a n v).lpPatrol = s.lpPatrol := rfl
@[simp] theorem State.winWrite_moves (a n v : Nat) : (s.winWrite a n v).moves = s.moves := rfl
@[simp] theorem State.winWrite_ceRows (a n v : Nat) : (s.winWrite a n v).ceRows = s.ceRows := rfl
@[simp] theorem State.winWrite_retiredRows (a n v : Nat) : (s.winWrite a n v).retiredRows = s.retiredRows := rfl
@[simp] theorem State.winWrite_copying (a n v : Nat) : (s.winWrite a n v).copying = s.copying := rfl
@[simp] theorem State.winWrite_epoch (a n v : Nat) : (s.winWrite a n v).epoch = s.epoch := rfl
@[simp] theorem State.winWrite_walk (a n v : Nat) : (s.winWrite a n v).walk = s.walk := rfl
@[simp] theorem State.winWrite_bringups (a n v : Nat) : (s.winWrite a n v).bringups = s.bringups := rfl
@[simp] theorem State.winWrite_seals (a n v : Nat) : (s.winWrite a n v).seals = s.seals := rfl
@[simp] theorem State.winWrite_pinned (a n v : Nat) : (s.winWrite a n v).pinned = s.pinned := rfl
@[simp] theorem State.winWrite_goneViews (a n v : Nat) : (s.winWrite a n v).goneViews = s.goneViews := rfl
@[simp] theorem State.winWrite_copyGone (a n v : Nat) : (s.winWrite a n v).copyGone = s.copyGone := rfl
@[simp] theorem State.winWrite_tasks (a n v : Nat) : (s.winWrite a n v).tasks = s.tasks := rfl
@[simp] theorem State.winWrite_taskSeq (a n v : Nat) : (s.winWrite a n v).taskSeq = s.taskSeq := rfl
@[simp] theorem State.winWrite_groups (a n v : Nat) : (s.winWrite a n v).groups = s.groups := rfl
@[simp] theorem State.winWrite_engs (a n v : Nat) : (s.winWrite a n v).engs = s.engs := rfl
@[simp] theorem State.winWrite_cores (a n v : Nat) : (s.winWrite a n v).cores = s.cores := rfl
@[simp] theorem State.winWrite_clus (a n v : Nat) : (s.winWrite a n v).clus = s.clus := rfl
@[simp] theorem State.winWrite_chans (a n v : Nat) : (s.winWrite a n v).chans = s.chans := rfl
@[simp] theorem State.winWrite_waits (a n v : Nat) : (s.winWrite a n v).waits = s.waits := rfl
@[simp] theorem State.winWrite_arrivals (a n v : Nat) : (s.winWrite a n v).arrivals = s.arrivals := rfl
@[simp] theorem State.winWrite_jobs (a n v : Nat) : (s.winWrite a n v).jobs = s.jobs := rfl
@[simp] theorem State.winWrite_parts (a n v : Nat) : (s.winWrite a n v).parts = s.parts := rfl
@[simp] theorem State.winWrite_power (a n v : Nat) : (s.winWrite a n v).power = s.power := rfl
@[simp] theorem State.winWrite_edgeDraw (a n v : Nat) : (s.winWrite a n v).edgeDraw = s.edgeDraw := rfl
@[simp] theorem State.winWrite_powerOver (a n v : Nat) : (s.winWrite a n v).powerOver = s.powerOver := rfl
@[simp] theorem State.winWrite_grng (a n v : Nat) : (s.winWrite a n v).grng = s.grng := rfl
@[simp] theorem State.winWrite_win (a n v : Nat) : (s.winWrite a n v).win = s.win := rfl
@[simp] theorem State.winWrite_tithes (a n v : Nat) : (s.winWrite a n v).tithes = s.tithes := rfl
@[simp] theorem State.winWrite_titheSeq (a n v : Nat) : (s.winWrite a n v).titheSeq = s.titheSeq := rfl
@[simp] theorem State.winWrite_packetsOut (a n v : Nat) : (s.winWrite a n v).packetsOut = s.packetsOut := rfl
@[simp] theorem State.winWrite_restore (a n v : Nat) : (s.winWrite a n v).restore = s.restore := rfl
@[simp] theorem State.winWrite_ports (a n v : Nat) : (s.winWrite a n v).ports = s.ports := rfl
@[simp] theorem State.winWrite_gates (a n v : Nat) : (s.winWrite a n v).gates = s.gates := rfl
@[simp] theorem State.winWrite_loop (a n v : Nat) : (s.winWrite a n v).loop = s.loop := rfl
@[simp] theorem State.winWrite_beat (a n v : Nat) : (s.winWrite a n v).beat = s.beat := rfl
@[simp] theorem State.winWrite_mbxWaits (a n v : Nat) : (s.winWrite a n v).mbxWaits = s.mbxWaits := rfl
@[simp] theorem State.winWrite_mods (a n v : Nat) : (s.winWrite a n v).mods = s.mods := rfl
@[simp] theorem State.winWrite_lostTags (a n v : Nat) : (s.winWrite a n v).lostTags = s.lostTags := rfl
@[simp] theorem State.winWrite_hostLost (a n v : Nat) : (s.winWrite a n v).hostLost = s.hostLost := rfl
@[simp] theorem State.winWrite_bootStage (a n v : Nat) : (s.winWrite a n v).bootStage = s.bootStage := rfl
@[simp] theorem State.winWrite_stageWord (a n v : Nat) : (s.winWrite a n v).stageWord = s.stageWord := rfl
@[simp] theorem State.winWrite_evHead (a n v : Nat) : (s.winWrite a n v).evHead = s.evHead := rfl
@[simp] theorem State.winWrite_evTail (a n v : Nat) : (s.winWrite a n v).evTail = s.evTail := rfl
@[simp] theorem State.winWrite_evLost (a n v : Nat) : (s.winWrite a n v).evLost = s.evLost := rfl
@[simp] theorem State.winWrite_evOver (a n v : Nat) : (s.winWrite a n v).evOver = s.evOver := rfl
@[simp] theorem State.winWrite_fw (a n v : Nat) : (s.winWrite a n v).fw = s.fw := rfl
@[simp] theorem State.winWrite_cplq (a n v : Nat) : (s.winWrite a n v).cplq = s.cplq := rfl
@[simp] theorem State.winWrite_sec (a n v : Nat) : (s.winWrite a n v).sec = s.sec := rfl
@[simp] theorem State.winWrite_nv (a n v : Nat) : (s.winWrite a n v).nv = s.nv := rfl
@[simp] theorem State.winWrite_shape (a n v : Nat) : (s.winWrite a n v).shape = s.shape := rfl
@[simp] theorem State.winWrite_mesh (a n v : Nat) : (s.winWrite a n v).mesh = s.mesh := rfl
@[simp] theorem State.winWrite_bring (a n v : Nat) : (s.winWrite a n v).bring = s.bring := rfl
@[simp] theorem State.winWrite_shapeNew (a n v : Nat) : (s.winWrite a n v).shapeNew = s.shapeNew := rfl
@[simp] theorem State.winWrite_coresUp (a n v : Nat) : (s.winWrite a n v).coresUp = s.coresUp := rfl
@[simp] theorem State.winWrite_defects (a n v : Nat) : (s.winWrite a n v).defects = s.defects := rfl
@[simp] theorem State.winWrite_fwTurn (a n v : Nat) : (s.winWrite a n v).fwTurn = s.fwTurn := rfl
@[simp] theorem State.winWrite_seedPack (a n v : Nat) : (s.winWrite a n v).seedPack = s.seedPack := rfl
@[simp] theorem State.winWrite_seedSets (a n v : Nat) : (s.winWrite a n v).seedSets = s.seedSets := rfl
@[simp] theorem State.winWrite_minSvn (a n v : Nat) : (s.winWrite a n v).minSvn = s.minSvn := rfl
@[simp] theorem State.winWrite_calDue (a n v : Nat) : (s.winWrite a n v).calDue = s.calDue := rfl
@[simp] theorem State.winWrite_calLate (a n v : Nat) : (s.winWrite a n v).calLate = s.calLate := rfl
@[simp] theorem State.winWrite_passedAt (a n v : Nat) : (s.winWrite a n v).passedAt = s.passedAt := rfl
@[simp] theorem State.winWrite_testFirst (a n v : Nat) : (s.winWrite a n v).testFirst = s.testFirst := rfl
@[simp] theorem State.winWrite_window_ (a n v : Nat) : (s.winWrite a n v).window_ = s.window_ := rfl
@[simp] theorem State.winWrite_board (a n v : Nat) : (s.winWrite a n v).board = s.board := rfl

/-! `State.setRow`. -/

@[simp] theorem State.setRow_pending (r : RowRef) (x : RowSt) : (s.setRow r x).pending = s.pending := rfl
@[simp] theorem State.setRow_free (r : RowRef) (x : RowSt) : (s.setRow r x).free = s.free := rfl
@[simp] theorem State.setRow_outbox (r : RowRef) (x : RowSt) : (s.setRow r x).outbox = s.outbox := rfl
@[simp] theorem State.setRow_regs (r : RowRef) (x : RowSt) : (s.setRow r x).regs = s.regs := rfl
@[simp] theorem State.setRow_shadow (r : RowRef) (x : RowSt) : (s.setRow r x).shadow = s.shadow := rfl
@[simp] theorem State.setRow_suspects (r : RowRef) (x : RowSt) : (s.setRow r x).suspects = s.suspects := rfl
@[simp] theorem State.setRow_late (r : RowRef) (x : RowSt) : (s.setRow r x).late = s.late := rfl
@[simp] theorem State.setRow_ctrs (r : RowRef) (x : RowSt) : (s.setRow r x).ctrs = s.ctrs := rfl
@[simp] theorem State.setRow_snap (r : RowRef) (x : RowSt) : (s.setRow r x).snap = s.snap := rfl
@[simp] theorem State.setRow_snapBeat (r : RowRef) (x : RowSt) : (s.setRow r x).snapBeat = s.snapBeat := rfl
@[simp] theorem State.setRow_snapAsked (r : RowRef) (x : RowSt) : (s.setRow r x).snapAsked = s.snapAsked := rfl
@[simp] theorem State.setRow_lpddr (r : RowRef) (x : RowSt) : (s.setRow r x).lpddr = s.lpddr := rfl
@[simp] theorem State.setRow_checks (r : RowRef) (x : RowSt) : (s.setRow r x).checks = s.checks := rfl
@[simp] theorem State.setRow_lpPatrol (r : RowRef) (x : RowSt) : (s.setRow r x).lpPatrol = s.lpPatrol := rfl
@[simp] theorem State.setRow_window (r : RowRef) (x : RowSt) : (s.setRow r x).window = s.window := rfl
@[simp] theorem State.setRow_moves (r : RowRef) (x : RowSt) : (s.setRow r x).moves = s.moves := rfl
@[simp] theorem State.setRow_ceRows (r : RowRef) (x : RowSt) : (s.setRow r x).ceRows = s.ceRows := rfl
@[simp] theorem State.setRow_retiredRows (r : RowRef) (x : RowSt) : (s.setRow r x).retiredRows = s.retiredRows := rfl
@[simp] theorem State.setRow_copying (r : RowRef) (x : RowSt) : (s.setRow r x).copying = s.copying := rfl
@[simp] theorem State.setRow_epoch (r : RowRef) (x : RowSt) : (s.setRow r x).epoch = s.epoch := rfl
@[simp] theorem State.setRow_walk (r : RowRef) (x : RowSt) : (s.setRow r x).walk = s.walk := rfl
@[simp] theorem State.setRow_bringups (r : RowRef) (x : RowSt) : (s.setRow r x).bringups = s.bringups := rfl
@[simp] theorem State.setRow_seals (r : RowRef) (x : RowSt) : (s.setRow r x).seals = s.seals := rfl
@[simp] theorem State.setRow_pinned (r : RowRef) (x : RowSt) : (s.setRow r x).pinned = s.pinned := rfl
@[simp] theorem State.setRow_goneViews (r : RowRef) (x : RowSt) : (s.setRow r x).goneViews = s.goneViews := rfl
@[simp] theorem State.setRow_copyGone (r : RowRef) (x : RowSt) : (s.setRow r x).copyGone = s.copyGone := rfl
@[simp] theorem State.setRow_tasks (r : RowRef) (x : RowSt) : (s.setRow r x).tasks = s.tasks := rfl
@[simp] theorem State.setRow_taskSeq (r : RowRef) (x : RowSt) : (s.setRow r x).taskSeq = s.taskSeq := rfl
@[simp] theorem State.setRow_groups (r : RowRef) (x : RowSt) : (s.setRow r x).groups = s.groups := rfl
@[simp] theorem State.setRow_engs (r : RowRef) (x : RowSt) : (s.setRow r x).engs = s.engs := rfl
@[simp] theorem State.setRow_cores (r : RowRef) (x : RowSt) : (s.setRow r x).cores = s.cores := rfl
@[simp] theorem State.setRow_clus (r : RowRef) (x : RowSt) : (s.setRow r x).clus = s.clus := rfl
@[simp] theorem State.setRow_chans (r : RowRef) (x : RowSt) : (s.setRow r x).chans = s.chans := rfl
@[simp] theorem State.setRow_waits (r : RowRef) (x : RowSt) : (s.setRow r x).waits = s.waits := rfl
@[simp] theorem State.setRow_arrivals (r : RowRef) (x : RowSt) : (s.setRow r x).arrivals = s.arrivals := rfl
@[simp] theorem State.setRow_jobs (r : RowRef) (x : RowSt) : (s.setRow r x).jobs = s.jobs := rfl
@[simp] theorem State.setRow_parts (r : RowRef) (x : RowSt) : (s.setRow r x).parts = s.parts := rfl
@[simp] theorem State.setRow_power (r : RowRef) (x : RowSt) : (s.setRow r x).power = s.power := rfl
@[simp] theorem State.setRow_edgeDraw (r : RowRef) (x : RowSt) : (s.setRow r x).edgeDraw = s.edgeDraw := rfl
@[simp] theorem State.setRow_powerOver (r : RowRef) (x : RowSt) : (s.setRow r x).powerOver = s.powerOver := rfl
@[simp] theorem State.setRow_grng (r : RowRef) (x : RowSt) : (s.setRow r x).grng = s.grng := rfl
@[simp] theorem State.setRow_win (r : RowRef) (x : RowSt) : (s.setRow r x).win = s.win := rfl
@[simp] theorem State.setRow_tithes (r : RowRef) (x : RowSt) : (s.setRow r x).tithes = s.tithes := rfl
@[simp] theorem State.setRow_titheSeq (r : RowRef) (x : RowSt) : (s.setRow r x).titheSeq = s.titheSeq := rfl
@[simp] theorem State.setRow_packetsOut (r : RowRef) (x : RowSt) : (s.setRow r x).packetsOut = s.packetsOut := rfl
@[simp] theorem State.setRow_restore (r : RowRef) (x : RowSt) : (s.setRow r x).restore = s.restore := rfl
@[simp] theorem State.setRow_ports (r : RowRef) (x : RowSt) : (s.setRow r x).ports = s.ports := rfl
@[simp] theorem State.setRow_gates (r : RowRef) (x : RowSt) : (s.setRow r x).gates = s.gates := rfl
@[simp] theorem State.setRow_loop (r : RowRef) (x : RowSt) : (s.setRow r x).loop = s.loop := rfl
@[simp] theorem State.setRow_beat (r : RowRef) (x : RowSt) : (s.setRow r x).beat = s.beat := rfl
@[simp] theorem State.setRow_mbxWaits (r : RowRef) (x : RowSt) : (s.setRow r x).mbxWaits = s.mbxWaits := rfl
@[simp] theorem State.setRow_mods (r : RowRef) (x : RowSt) : (s.setRow r x).mods = s.mods := rfl
@[simp] theorem State.setRow_lostTags (r : RowRef) (x : RowSt) : (s.setRow r x).lostTags = s.lostTags := rfl
@[simp] theorem State.setRow_hostLost (r : RowRef) (x : RowSt) : (s.setRow r x).hostLost = s.hostLost := rfl
@[simp] theorem State.setRow_bootStage (r : RowRef) (x : RowSt) : (s.setRow r x).bootStage = s.bootStage := rfl
@[simp] theorem State.setRow_stageWord (r : RowRef) (x : RowSt) : (s.setRow r x).stageWord = s.stageWord := rfl
@[simp] theorem State.setRow_evHead (r : RowRef) (x : RowSt) : (s.setRow r x).evHead = s.evHead := rfl
@[simp] theorem State.setRow_evTail (r : RowRef) (x : RowSt) : (s.setRow r x).evTail = s.evTail := rfl
@[simp] theorem State.setRow_evLost (r : RowRef) (x : RowSt) : (s.setRow r x).evLost = s.evLost := rfl
@[simp] theorem State.setRow_evOver (r : RowRef) (x : RowSt) : (s.setRow r x).evOver = s.evOver := rfl
@[simp] theorem State.setRow_fw (r : RowRef) (x : RowSt) : (s.setRow r x).fw = s.fw := rfl
@[simp] theorem State.setRow_cplq (r : RowRef) (x : RowSt) : (s.setRow r x).cplq = s.cplq := rfl
@[simp] theorem State.setRow_sec (r : RowRef) (x : RowSt) : (s.setRow r x).sec = s.sec := rfl
@[simp] theorem State.setRow_nv (r : RowRef) (x : RowSt) : (s.setRow r x).nv = s.nv := rfl
@[simp] theorem State.setRow_shape (r : RowRef) (x : RowSt) : (s.setRow r x).shape = s.shape := rfl
@[simp] theorem State.setRow_mesh (r : RowRef) (x : RowSt) : (s.setRow r x).mesh = s.mesh := rfl
@[simp] theorem State.setRow_bring (r : RowRef) (x : RowSt) : (s.setRow r x).bring = s.bring := rfl
@[simp] theorem State.setRow_shapeNew (r : RowRef) (x : RowSt) : (s.setRow r x).shapeNew = s.shapeNew := rfl
@[simp] theorem State.setRow_coresUp (r : RowRef) (x : RowSt) : (s.setRow r x).coresUp = s.coresUp := rfl
@[simp] theorem State.setRow_defects (r : RowRef) (x : RowSt) : (s.setRow r x).defects = s.defects := rfl
@[simp] theorem State.setRow_fwTurn (r : RowRef) (x : RowSt) : (s.setRow r x).fwTurn = s.fwTurn := rfl
@[simp] theorem State.setRow_seedPack (r : RowRef) (x : RowSt) : (s.setRow r x).seedPack = s.seedPack := rfl
@[simp] theorem State.setRow_seedSets (r : RowRef) (x : RowSt) : (s.setRow r x).seedSets = s.seedSets := rfl
@[simp] theorem State.setRow_minSvn (r : RowRef) (x : RowSt) : (s.setRow r x).minSvn = s.minSvn := rfl
@[simp] theorem State.setRow_calDue (r : RowRef) (x : RowSt) : (s.setRow r x).calDue = s.calDue := rfl
@[simp] theorem State.setRow_calLate (r : RowRef) (x : RowSt) : (s.setRow r x).calLate = s.calLate := rfl
@[simp] theorem State.setRow_passedAt (r : RowRef) (x : RowSt) : (s.setRow r x).passedAt = s.passedAt := rfl
@[simp] theorem State.setRow_testFirst (r : RowRef) (x : RowSt) : (s.setRow r x).testFirst = s.testFirst := rfl
@[simp] theorem State.setRow_window_ (r : RowRef) (x : RowSt) : (s.setRow r x).window_ = s.window_ := rfl
@[simp] theorem State.setRow_board (r : RowRef) (x : RowSt) : (s.setRow r x).board = s.board := rfl

/-! `State.setLp`. -/

@[simp] theorem State.setLp_pending (k : Nat) (x : LpRow) : (s.setLp k x).pending = s.pending := rfl
@[simp] theorem State.setLp_free (k : Nat) (x : LpRow) : (s.setLp k x).free = s.free := rfl
@[simp] theorem State.setLp_outbox (k : Nat) (x : LpRow) : (s.setLp k x).outbox = s.outbox := rfl
@[simp] theorem State.setLp_regs (k : Nat) (x : LpRow) : (s.setLp k x).regs = s.regs := rfl
@[simp] theorem State.setLp_shadow (k : Nat) (x : LpRow) : (s.setLp k x).shadow = s.shadow := rfl
@[simp] theorem State.setLp_suspects (k : Nat) (x : LpRow) : (s.setLp k x).suspects = s.suspects := rfl
@[simp] theorem State.setLp_late (k : Nat) (x : LpRow) : (s.setLp k x).late = s.late := rfl
@[simp] theorem State.setLp_ctrs (k : Nat) (x : LpRow) : (s.setLp k x).ctrs = s.ctrs := rfl
@[simp] theorem State.setLp_snap (k : Nat) (x : LpRow) : (s.setLp k x).snap = s.snap := rfl
@[simp] theorem State.setLp_snapBeat (k : Nat) (x : LpRow) : (s.setLp k x).snapBeat = s.snapBeat := rfl
@[simp] theorem State.setLp_snapAsked (k : Nat) (x : LpRow) : (s.setLp k x).snapAsked = s.snapAsked := rfl
@[simp] theorem State.setLp_rows (k : Nat) (x : LpRow) : (s.setLp k x).rows = s.rows := rfl
@[simp] theorem State.setLp_checks (k : Nat) (x : LpRow) : (s.setLp k x).checks = s.checks := rfl
@[simp] theorem State.setLp_lpPatrol (k : Nat) (x : LpRow) : (s.setLp k x).lpPatrol = s.lpPatrol := rfl
@[simp] theorem State.setLp_window (k : Nat) (x : LpRow) : (s.setLp k x).window = s.window := rfl
@[simp] theorem State.setLp_moves (k : Nat) (x : LpRow) : (s.setLp k x).moves = s.moves := rfl
@[simp] theorem State.setLp_ceRows (k : Nat) (x : LpRow) : (s.setLp k x).ceRows = s.ceRows := rfl
@[simp] theorem State.setLp_retiredRows (k : Nat) (x : LpRow) : (s.setLp k x).retiredRows = s.retiredRows := rfl
@[simp] theorem State.setLp_copying (k : Nat) (x : LpRow) : (s.setLp k x).copying = s.copying := rfl
@[simp] theorem State.setLp_epoch (k : Nat) (x : LpRow) : (s.setLp k x).epoch = s.epoch := rfl
@[simp] theorem State.setLp_walk (k : Nat) (x : LpRow) : (s.setLp k x).walk = s.walk := rfl
@[simp] theorem State.setLp_bringups (k : Nat) (x : LpRow) : (s.setLp k x).bringups = s.bringups := rfl
@[simp] theorem State.setLp_seals (k : Nat) (x : LpRow) : (s.setLp k x).seals = s.seals := rfl
@[simp] theorem State.setLp_pinned (k : Nat) (x : LpRow) : (s.setLp k x).pinned = s.pinned := rfl
@[simp] theorem State.setLp_goneViews (k : Nat) (x : LpRow) : (s.setLp k x).goneViews = s.goneViews := rfl
@[simp] theorem State.setLp_copyGone (k : Nat) (x : LpRow) : (s.setLp k x).copyGone = s.copyGone := rfl
@[simp] theorem State.setLp_tasks (k : Nat) (x : LpRow) : (s.setLp k x).tasks = s.tasks := rfl
@[simp] theorem State.setLp_taskSeq (k : Nat) (x : LpRow) : (s.setLp k x).taskSeq = s.taskSeq := rfl
@[simp] theorem State.setLp_groups (k : Nat) (x : LpRow) : (s.setLp k x).groups = s.groups := rfl
@[simp] theorem State.setLp_engs (k : Nat) (x : LpRow) : (s.setLp k x).engs = s.engs := rfl
@[simp] theorem State.setLp_cores (k : Nat) (x : LpRow) : (s.setLp k x).cores = s.cores := rfl
@[simp] theorem State.setLp_clus (k : Nat) (x : LpRow) : (s.setLp k x).clus = s.clus := rfl
@[simp] theorem State.setLp_chans (k : Nat) (x : LpRow) : (s.setLp k x).chans = s.chans := rfl
@[simp] theorem State.setLp_waits (k : Nat) (x : LpRow) : (s.setLp k x).waits = s.waits := rfl
@[simp] theorem State.setLp_arrivals (k : Nat) (x : LpRow) : (s.setLp k x).arrivals = s.arrivals := rfl
@[simp] theorem State.setLp_jobs (k : Nat) (x : LpRow) : (s.setLp k x).jobs = s.jobs := rfl
@[simp] theorem State.setLp_parts (k : Nat) (x : LpRow) : (s.setLp k x).parts = s.parts := rfl
@[simp] theorem State.setLp_power (k : Nat) (x : LpRow) : (s.setLp k x).power = s.power := rfl
@[simp] theorem State.setLp_edgeDraw (k : Nat) (x : LpRow) : (s.setLp k x).edgeDraw = s.edgeDraw := rfl
@[simp] theorem State.setLp_powerOver (k : Nat) (x : LpRow) : (s.setLp k x).powerOver = s.powerOver := rfl
@[simp] theorem State.setLp_grng (k : Nat) (x : LpRow) : (s.setLp k x).grng = s.grng := rfl
@[simp] theorem State.setLp_win (k : Nat) (x : LpRow) : (s.setLp k x).win = s.win := rfl
@[simp] theorem State.setLp_tithes (k : Nat) (x : LpRow) : (s.setLp k x).tithes = s.tithes := rfl
@[simp] theorem State.setLp_titheSeq (k : Nat) (x : LpRow) : (s.setLp k x).titheSeq = s.titheSeq := rfl
@[simp] theorem State.setLp_packetsOut (k : Nat) (x : LpRow) : (s.setLp k x).packetsOut = s.packetsOut := rfl
@[simp] theorem State.setLp_restore (k : Nat) (x : LpRow) : (s.setLp k x).restore = s.restore := rfl
@[simp] theorem State.setLp_ports (k : Nat) (x : LpRow) : (s.setLp k x).ports = s.ports := rfl
@[simp] theorem State.setLp_gates (k : Nat) (x : LpRow) : (s.setLp k x).gates = s.gates := rfl
@[simp] theorem State.setLp_loop (k : Nat) (x : LpRow) : (s.setLp k x).loop = s.loop := rfl
@[simp] theorem State.setLp_beat (k : Nat) (x : LpRow) : (s.setLp k x).beat = s.beat := rfl
@[simp] theorem State.setLp_mbxWaits (k : Nat) (x : LpRow) : (s.setLp k x).mbxWaits = s.mbxWaits := rfl
@[simp] theorem State.setLp_mods (k : Nat) (x : LpRow) : (s.setLp k x).mods = s.mods := rfl
@[simp] theorem State.setLp_lostTags (k : Nat) (x : LpRow) : (s.setLp k x).lostTags = s.lostTags := rfl
@[simp] theorem State.setLp_hostLost (k : Nat) (x : LpRow) : (s.setLp k x).hostLost = s.hostLost := rfl
@[simp] theorem State.setLp_bootStage (k : Nat) (x : LpRow) : (s.setLp k x).bootStage = s.bootStage := rfl
@[simp] theorem State.setLp_stageWord (k : Nat) (x : LpRow) : (s.setLp k x).stageWord = s.stageWord := rfl
@[simp] theorem State.setLp_evHead (k : Nat) (x : LpRow) : (s.setLp k x).evHead = s.evHead := rfl
@[simp] theorem State.setLp_evTail (k : Nat) (x : LpRow) : (s.setLp k x).evTail = s.evTail := rfl
@[simp] theorem State.setLp_evLost (k : Nat) (x : LpRow) : (s.setLp k x).evLost = s.evLost := rfl
@[simp] theorem State.setLp_evOver (k : Nat) (x : LpRow) : (s.setLp k x).evOver = s.evOver := rfl
@[simp] theorem State.setLp_fw (k : Nat) (x : LpRow) : (s.setLp k x).fw = s.fw := rfl
@[simp] theorem State.setLp_cplq (k : Nat) (x : LpRow) : (s.setLp k x).cplq = s.cplq := rfl
@[simp] theorem State.setLp_sec (k : Nat) (x : LpRow) : (s.setLp k x).sec = s.sec := rfl
@[simp] theorem State.setLp_nv (k : Nat) (x : LpRow) : (s.setLp k x).nv = s.nv := rfl
@[simp] theorem State.setLp_shape (k : Nat) (x : LpRow) : (s.setLp k x).shape = s.shape := rfl
@[simp] theorem State.setLp_mesh (k : Nat) (x : LpRow) : (s.setLp k x).mesh = s.mesh := rfl
@[simp] theorem State.setLp_bring (k : Nat) (x : LpRow) : (s.setLp k x).bring = s.bring := rfl
@[simp] theorem State.setLp_shapeNew (k : Nat) (x : LpRow) : (s.setLp k x).shapeNew = s.shapeNew := rfl
@[simp] theorem State.setLp_coresUp (k : Nat) (x : LpRow) : (s.setLp k x).coresUp = s.coresUp := rfl
@[simp] theorem State.setLp_defects (k : Nat) (x : LpRow) : (s.setLp k x).defects = s.defects := rfl
@[simp] theorem State.setLp_fwTurn (k : Nat) (x : LpRow) : (s.setLp k x).fwTurn = s.fwTurn := rfl
@[simp] theorem State.setLp_seedPack (k : Nat) (x : LpRow) : (s.setLp k x).seedPack = s.seedPack := rfl
@[simp] theorem State.setLp_seedSets (k : Nat) (x : LpRow) : (s.setLp k x).seedSets = s.seedSets := rfl
@[simp] theorem State.setLp_minSvn (k : Nat) (x : LpRow) : (s.setLp k x).minSvn = s.minSvn := rfl
@[simp] theorem State.setLp_calDue (k : Nat) (x : LpRow) : (s.setLp k x).calDue = s.calDue := rfl
@[simp] theorem State.setLp_calLate (k : Nat) (x : LpRow) : (s.setLp k x).calLate = s.calLate := rfl
@[simp] theorem State.setLp_passedAt (k : Nat) (x : LpRow) : (s.setLp k x).passedAt = s.passedAt := rfl
@[simp] theorem State.setLp_testFirst (k : Nat) (x : LpRow) : (s.setLp k x).testFirst = s.testFirst := rfl
@[simp] theorem State.setLp_window_ (k : Nat) (x : LpRow) : (s.setLp k x).window_ = s.window_ := rfl
@[simp] theorem State.setLp_board (k : Nat) (x : LpRow) : (s.setLp k x).board = s.board := rfl

/-! `State.setEng`. -/

@[simp] theorem State.setEng_pending (e : Nat) (x : Eng) : (s.setEng e x).pending = s.pending := rfl
@[simp] theorem State.setEng_free (e : Nat) (x : Eng) : (s.setEng e x).free = s.free := rfl
@[simp] theorem State.setEng_outbox (e : Nat) (x : Eng) : (s.setEng e x).outbox = s.outbox := rfl
@[simp] theorem State.setEng_regs (e : Nat) (x : Eng) : (s.setEng e x).regs = s.regs := rfl
@[simp] theorem State.setEng_shadow (e : Nat) (x : Eng) : (s.setEng e x).shadow = s.shadow := rfl
@[simp] theorem State.setEng_suspects (e : Nat) (x : Eng) : (s.setEng e x).suspects = s.suspects := rfl
@[simp] theorem State.setEng_late (e : Nat) (x : Eng) : (s.setEng e x).late = s.late := rfl
@[simp] theorem State.setEng_ctrs (e : Nat) (x : Eng) : (s.setEng e x).ctrs = s.ctrs := rfl
@[simp] theorem State.setEng_snap (e : Nat) (x : Eng) : (s.setEng e x).snap = s.snap := rfl
@[simp] theorem State.setEng_snapBeat (e : Nat) (x : Eng) : (s.setEng e x).snapBeat = s.snapBeat := rfl
@[simp] theorem State.setEng_snapAsked (e : Nat) (x : Eng) : (s.setEng e x).snapAsked = s.snapAsked := rfl
@[simp] theorem State.setEng_rows (e : Nat) (x : Eng) : (s.setEng e x).rows = s.rows := rfl
@[simp] theorem State.setEng_lpddr (e : Nat) (x : Eng) : (s.setEng e x).lpddr = s.lpddr := rfl
@[simp] theorem State.setEng_checks (e : Nat) (x : Eng) : (s.setEng e x).checks = s.checks := rfl
@[simp] theorem State.setEng_lpPatrol (e : Nat) (x : Eng) : (s.setEng e x).lpPatrol = s.lpPatrol := rfl
@[simp] theorem State.setEng_window (e : Nat) (x : Eng) : (s.setEng e x).window = s.window := rfl
@[simp] theorem State.setEng_moves (e : Nat) (x : Eng) : (s.setEng e x).moves = s.moves := rfl
@[simp] theorem State.setEng_ceRows (e : Nat) (x : Eng) : (s.setEng e x).ceRows = s.ceRows := rfl
@[simp] theorem State.setEng_retiredRows (e : Nat) (x : Eng) : (s.setEng e x).retiredRows = s.retiredRows := rfl
@[simp] theorem State.setEng_copying (e : Nat) (x : Eng) : (s.setEng e x).copying = s.copying := rfl
@[simp] theorem State.setEng_epoch (e : Nat) (x : Eng) : (s.setEng e x).epoch = s.epoch := rfl
@[simp] theorem State.setEng_walk (e : Nat) (x : Eng) : (s.setEng e x).walk = s.walk := rfl
@[simp] theorem State.setEng_bringups (e : Nat) (x : Eng) : (s.setEng e x).bringups = s.bringups := rfl
@[simp] theorem State.setEng_seals (e : Nat) (x : Eng) : (s.setEng e x).seals = s.seals := rfl
@[simp] theorem State.setEng_pinned (e : Nat) (x : Eng) : (s.setEng e x).pinned = s.pinned := rfl
@[simp] theorem State.setEng_goneViews (e : Nat) (x : Eng) : (s.setEng e x).goneViews = s.goneViews := rfl
@[simp] theorem State.setEng_copyGone (e : Nat) (x : Eng) : (s.setEng e x).copyGone = s.copyGone := rfl
@[simp] theorem State.setEng_tasks (e : Nat) (x : Eng) : (s.setEng e x).tasks = s.tasks := rfl
@[simp] theorem State.setEng_taskSeq (e : Nat) (x : Eng) : (s.setEng e x).taskSeq = s.taskSeq := rfl
@[simp] theorem State.setEng_groups (e : Nat) (x : Eng) : (s.setEng e x).groups = s.groups := rfl
@[simp] theorem State.setEng_cores (e : Nat) (x : Eng) : (s.setEng e x).cores = s.cores := rfl
@[simp] theorem State.setEng_clus (e : Nat) (x : Eng) : (s.setEng e x).clus = s.clus := rfl
@[simp] theorem State.setEng_chans (e : Nat) (x : Eng) : (s.setEng e x).chans = s.chans := rfl
@[simp] theorem State.setEng_waits (e : Nat) (x : Eng) : (s.setEng e x).waits = s.waits := rfl
@[simp] theorem State.setEng_arrivals (e : Nat) (x : Eng) : (s.setEng e x).arrivals = s.arrivals := rfl
@[simp] theorem State.setEng_jobs (e : Nat) (x : Eng) : (s.setEng e x).jobs = s.jobs := rfl
@[simp] theorem State.setEng_parts (e : Nat) (x : Eng) : (s.setEng e x).parts = s.parts := rfl
@[simp] theorem State.setEng_power (e : Nat) (x : Eng) : (s.setEng e x).power = s.power := rfl
@[simp] theorem State.setEng_edgeDraw (e : Nat) (x : Eng) : (s.setEng e x).edgeDraw = s.edgeDraw := rfl
@[simp] theorem State.setEng_powerOver (e : Nat) (x : Eng) : (s.setEng e x).powerOver = s.powerOver := rfl
@[simp] theorem State.setEng_grng (e : Nat) (x : Eng) : (s.setEng e x).grng = s.grng := rfl
@[simp] theorem State.setEng_win (e : Nat) (x : Eng) : (s.setEng e x).win = s.win := rfl
@[simp] theorem State.setEng_tithes (e : Nat) (x : Eng) : (s.setEng e x).tithes = s.tithes := rfl
@[simp] theorem State.setEng_titheSeq (e : Nat) (x : Eng) : (s.setEng e x).titheSeq = s.titheSeq := rfl
@[simp] theorem State.setEng_packetsOut (e : Nat) (x : Eng) : (s.setEng e x).packetsOut = s.packetsOut := rfl
@[simp] theorem State.setEng_restore (e : Nat) (x : Eng) : (s.setEng e x).restore = s.restore := rfl
@[simp] theorem State.setEng_ports (e : Nat) (x : Eng) : (s.setEng e x).ports = s.ports := rfl
@[simp] theorem State.setEng_gates (e : Nat) (x : Eng) : (s.setEng e x).gates = s.gates := rfl
@[simp] theorem State.setEng_loop (e : Nat) (x : Eng) : (s.setEng e x).loop = s.loop := rfl
@[simp] theorem State.setEng_beat (e : Nat) (x : Eng) : (s.setEng e x).beat = s.beat := rfl
@[simp] theorem State.setEng_mbxWaits (e : Nat) (x : Eng) : (s.setEng e x).mbxWaits = s.mbxWaits := rfl
@[simp] theorem State.setEng_mods (e : Nat) (x : Eng) : (s.setEng e x).mods = s.mods := rfl
@[simp] theorem State.setEng_lostTags (e : Nat) (x : Eng) : (s.setEng e x).lostTags = s.lostTags := rfl
@[simp] theorem State.setEng_hostLost (e : Nat) (x : Eng) : (s.setEng e x).hostLost = s.hostLost := rfl
@[simp] theorem State.setEng_bootStage (e : Nat) (x : Eng) : (s.setEng e x).bootStage = s.bootStage := rfl
@[simp] theorem State.setEng_stageWord (e : Nat) (x : Eng) : (s.setEng e x).stageWord = s.stageWord := rfl
@[simp] theorem State.setEng_evHead (e : Nat) (x : Eng) : (s.setEng e x).evHead = s.evHead := rfl
@[simp] theorem State.setEng_evTail (e : Nat) (x : Eng) : (s.setEng e x).evTail = s.evTail := rfl
@[simp] theorem State.setEng_evLost (e : Nat) (x : Eng) : (s.setEng e x).evLost = s.evLost := rfl
@[simp] theorem State.setEng_evOver (e : Nat) (x : Eng) : (s.setEng e x).evOver = s.evOver := rfl
@[simp] theorem State.setEng_fw (e : Nat) (x : Eng) : (s.setEng e x).fw = s.fw := rfl
@[simp] theorem State.setEng_cplq (e : Nat) (x : Eng) : (s.setEng e x).cplq = s.cplq := rfl
@[simp] theorem State.setEng_sec (e : Nat) (x : Eng) : (s.setEng e x).sec = s.sec := rfl
@[simp] theorem State.setEng_nv (e : Nat) (x : Eng) : (s.setEng e x).nv = s.nv := rfl
@[simp] theorem State.setEng_shape (e : Nat) (x : Eng) : (s.setEng e x).shape = s.shape := rfl
@[simp] theorem State.setEng_mesh (e : Nat) (x : Eng) : (s.setEng e x).mesh = s.mesh := rfl
@[simp] theorem State.setEng_bring (e : Nat) (x : Eng) : (s.setEng e x).bring = s.bring := rfl
@[simp] theorem State.setEng_shapeNew (e : Nat) (x : Eng) : (s.setEng e x).shapeNew = s.shapeNew := rfl
@[simp] theorem State.setEng_coresUp (e : Nat) (x : Eng) : (s.setEng e x).coresUp = s.coresUp := rfl
@[simp] theorem State.setEng_defects (e : Nat) (x : Eng) : (s.setEng e x).defects = s.defects := rfl
@[simp] theorem State.setEng_fwTurn (e : Nat) (x : Eng) : (s.setEng e x).fwTurn = s.fwTurn := rfl
@[simp] theorem State.setEng_seedPack (e : Nat) (x : Eng) : (s.setEng e x).seedPack = s.seedPack := rfl
@[simp] theorem State.setEng_seedSets (e : Nat) (x : Eng) : (s.setEng e x).seedSets = s.seedSets := rfl
@[simp] theorem State.setEng_minSvn (e : Nat) (x : Eng) : (s.setEng e x).minSvn = s.minSvn := rfl
@[simp] theorem State.setEng_calDue (e : Nat) (x : Eng) : (s.setEng e x).calDue = s.calDue := rfl
@[simp] theorem State.setEng_calLate (e : Nat) (x : Eng) : (s.setEng e x).calLate = s.calLate := rfl
@[simp] theorem State.setEng_passedAt (e : Nat) (x : Eng) : (s.setEng e x).passedAt = s.passedAt := rfl
@[simp] theorem State.setEng_testFirst (e : Nat) (x : Eng) : (s.setEng e x).testFirst = s.testFirst := rfl
@[simp] theorem State.setEng_window_ (e : Nat) (x : Eng) : (s.setEng e x).window_ = s.window_ := rfl
@[simp] theorem State.setEng_board (e : Nat) (x : Eng) : (s.setEng e x).board = s.board := rfl

/-! `State.setCore`. -/

@[simp] theorem State.setCore_pending (c : Nat) (x : Core) : (s.setCore c x).pending = s.pending := rfl
@[simp] theorem State.setCore_free (c : Nat) (x : Core) : (s.setCore c x).free = s.free := rfl
@[simp] theorem State.setCore_outbox (c : Nat) (x : Core) : (s.setCore c x).outbox = s.outbox := rfl
@[simp] theorem State.setCore_regs (c : Nat) (x : Core) : (s.setCore c x).regs = s.regs := rfl
@[simp] theorem State.setCore_shadow (c : Nat) (x : Core) : (s.setCore c x).shadow = s.shadow := rfl
@[simp] theorem State.setCore_suspects (c : Nat) (x : Core) : (s.setCore c x).suspects = s.suspects := rfl
@[simp] theorem State.setCore_late (c : Nat) (x : Core) : (s.setCore c x).late = s.late := rfl
@[simp] theorem State.setCore_ctrs (c : Nat) (x : Core) : (s.setCore c x).ctrs = s.ctrs := rfl
@[simp] theorem State.setCore_snap (c : Nat) (x : Core) : (s.setCore c x).snap = s.snap := rfl
@[simp] theorem State.setCore_snapBeat (c : Nat) (x : Core) : (s.setCore c x).snapBeat = s.snapBeat := rfl
@[simp] theorem State.setCore_snapAsked (c : Nat) (x : Core) : (s.setCore c x).snapAsked = s.snapAsked := rfl
@[simp] theorem State.setCore_rows (c : Nat) (x : Core) : (s.setCore c x).rows = s.rows := rfl
@[simp] theorem State.setCore_lpddr (c : Nat) (x : Core) : (s.setCore c x).lpddr = s.lpddr := rfl
@[simp] theorem State.setCore_checks (c : Nat) (x : Core) : (s.setCore c x).checks = s.checks := rfl
@[simp] theorem State.setCore_lpPatrol (c : Nat) (x : Core) : (s.setCore c x).lpPatrol = s.lpPatrol := rfl
@[simp] theorem State.setCore_window (c : Nat) (x : Core) : (s.setCore c x).window = s.window := rfl
@[simp] theorem State.setCore_moves (c : Nat) (x : Core) : (s.setCore c x).moves = s.moves := rfl
@[simp] theorem State.setCore_ceRows (c : Nat) (x : Core) : (s.setCore c x).ceRows = s.ceRows := rfl
@[simp] theorem State.setCore_retiredRows (c : Nat) (x : Core) : (s.setCore c x).retiredRows = s.retiredRows := rfl
@[simp] theorem State.setCore_copying (c : Nat) (x : Core) : (s.setCore c x).copying = s.copying := rfl
@[simp] theorem State.setCore_epoch (c : Nat) (x : Core) : (s.setCore c x).epoch = s.epoch := rfl
@[simp] theorem State.setCore_walk (c : Nat) (x : Core) : (s.setCore c x).walk = s.walk := rfl
@[simp] theorem State.setCore_bringups (c : Nat) (x : Core) : (s.setCore c x).bringups = s.bringups := rfl
@[simp] theorem State.setCore_seals (c : Nat) (x : Core) : (s.setCore c x).seals = s.seals := rfl
@[simp] theorem State.setCore_pinned (c : Nat) (x : Core) : (s.setCore c x).pinned = s.pinned := rfl
@[simp] theorem State.setCore_goneViews (c : Nat) (x : Core) : (s.setCore c x).goneViews = s.goneViews := rfl
@[simp] theorem State.setCore_copyGone (c : Nat) (x : Core) : (s.setCore c x).copyGone = s.copyGone := rfl
@[simp] theorem State.setCore_tasks (c : Nat) (x : Core) : (s.setCore c x).tasks = s.tasks := rfl
@[simp] theorem State.setCore_taskSeq (c : Nat) (x : Core) : (s.setCore c x).taskSeq = s.taskSeq := rfl
@[simp] theorem State.setCore_groups (c : Nat) (x : Core) : (s.setCore c x).groups = s.groups := rfl
@[simp] theorem State.setCore_engs (c : Nat) (x : Core) : (s.setCore c x).engs = s.engs := rfl
@[simp] theorem State.setCore_clus (c : Nat) (x : Core) : (s.setCore c x).clus = s.clus := rfl
@[simp] theorem State.setCore_chans (c : Nat) (x : Core) : (s.setCore c x).chans = s.chans := rfl
@[simp] theorem State.setCore_waits (c : Nat) (x : Core) : (s.setCore c x).waits = s.waits := rfl
@[simp] theorem State.setCore_arrivals (c : Nat) (x : Core) : (s.setCore c x).arrivals = s.arrivals := rfl
@[simp] theorem State.setCore_jobs (c : Nat) (x : Core) : (s.setCore c x).jobs = s.jobs := rfl
@[simp] theorem State.setCore_parts (c : Nat) (x : Core) : (s.setCore c x).parts = s.parts := rfl
@[simp] theorem State.setCore_power (c : Nat) (x : Core) : (s.setCore c x).power = s.power := rfl
@[simp] theorem State.setCore_edgeDraw (c : Nat) (x : Core) : (s.setCore c x).edgeDraw = s.edgeDraw := rfl
@[simp] theorem State.setCore_powerOver (c : Nat) (x : Core) : (s.setCore c x).powerOver = s.powerOver := rfl
@[simp] theorem State.setCore_grng (c : Nat) (x : Core) : (s.setCore c x).grng = s.grng := rfl
@[simp] theorem State.setCore_win (c : Nat) (x : Core) : (s.setCore c x).win = s.win := rfl
@[simp] theorem State.setCore_tithes (c : Nat) (x : Core) : (s.setCore c x).tithes = s.tithes := rfl
@[simp] theorem State.setCore_titheSeq (c : Nat) (x : Core) : (s.setCore c x).titheSeq = s.titheSeq := rfl
@[simp] theorem State.setCore_packetsOut (c : Nat) (x : Core) : (s.setCore c x).packetsOut = s.packetsOut := rfl
@[simp] theorem State.setCore_restore (c : Nat) (x : Core) : (s.setCore c x).restore = s.restore := rfl
@[simp] theorem State.setCore_ports (c : Nat) (x : Core) : (s.setCore c x).ports = s.ports := rfl
@[simp] theorem State.setCore_gates (c : Nat) (x : Core) : (s.setCore c x).gates = s.gates := rfl
@[simp] theorem State.setCore_loop (c : Nat) (x : Core) : (s.setCore c x).loop = s.loop := rfl
@[simp] theorem State.setCore_beat (c : Nat) (x : Core) : (s.setCore c x).beat = s.beat := rfl
@[simp] theorem State.setCore_mbxWaits (c : Nat) (x : Core) : (s.setCore c x).mbxWaits = s.mbxWaits := rfl
@[simp] theorem State.setCore_mods (c : Nat) (x : Core) : (s.setCore c x).mods = s.mods := rfl
@[simp] theorem State.setCore_lostTags (c : Nat) (x : Core) : (s.setCore c x).lostTags = s.lostTags := rfl
@[simp] theorem State.setCore_hostLost (c : Nat) (x : Core) : (s.setCore c x).hostLost = s.hostLost := rfl
@[simp] theorem State.setCore_bootStage (c : Nat) (x : Core) : (s.setCore c x).bootStage = s.bootStage := rfl
@[simp] theorem State.setCore_stageWord (c : Nat) (x : Core) : (s.setCore c x).stageWord = s.stageWord := rfl
@[simp] theorem State.setCore_evHead (c : Nat) (x : Core) : (s.setCore c x).evHead = s.evHead := rfl
@[simp] theorem State.setCore_evTail (c : Nat) (x : Core) : (s.setCore c x).evTail = s.evTail := rfl
@[simp] theorem State.setCore_evLost (c : Nat) (x : Core) : (s.setCore c x).evLost = s.evLost := rfl
@[simp] theorem State.setCore_evOver (c : Nat) (x : Core) : (s.setCore c x).evOver = s.evOver := rfl
@[simp] theorem State.setCore_fw (c : Nat) (x : Core) : (s.setCore c x).fw = s.fw := rfl
@[simp] theorem State.setCore_cplq (c : Nat) (x : Core) : (s.setCore c x).cplq = s.cplq := rfl
@[simp] theorem State.setCore_sec (c : Nat) (x : Core) : (s.setCore c x).sec = s.sec := rfl
@[simp] theorem State.setCore_nv (c : Nat) (x : Core) : (s.setCore c x).nv = s.nv := rfl
@[simp] theorem State.setCore_shape (c : Nat) (x : Core) : (s.setCore c x).shape = s.shape := rfl
@[simp] theorem State.setCore_mesh (c : Nat) (x : Core) : (s.setCore c x).mesh = s.mesh := rfl
@[simp] theorem State.setCore_bring (c : Nat) (x : Core) : (s.setCore c x).bring = s.bring := rfl
@[simp] theorem State.setCore_shapeNew (c : Nat) (x : Core) : (s.setCore c x).shapeNew = s.shapeNew := rfl
@[simp] theorem State.setCore_coresUp (c : Nat) (x : Core) : (s.setCore c x).coresUp = s.coresUp := rfl
@[simp] theorem State.setCore_defects (c : Nat) (x : Core) : (s.setCore c x).defects = s.defects := rfl
@[simp] theorem State.setCore_fwTurn (c : Nat) (x : Core) : (s.setCore c x).fwTurn = s.fwTurn := rfl
@[simp] theorem State.setCore_seedPack (c : Nat) (x : Core) : (s.setCore c x).seedPack = s.seedPack := rfl
@[simp] theorem State.setCore_seedSets (c : Nat) (x : Core) : (s.setCore c x).seedSets = s.seedSets := rfl
@[simp] theorem State.setCore_minSvn (c : Nat) (x : Core) : (s.setCore c x).minSvn = s.minSvn := rfl
@[simp] theorem State.setCore_calDue (c : Nat) (x : Core) : (s.setCore c x).calDue = s.calDue := rfl
@[simp] theorem State.setCore_calLate (c : Nat) (x : Core) : (s.setCore c x).calLate = s.calLate := rfl
@[simp] theorem State.setCore_passedAt (c : Nat) (x : Core) : (s.setCore c x).passedAt = s.passedAt := rfl
@[simp] theorem State.setCore_testFirst (c : Nat) (x : Core) : (s.setCore c x).testFirst = s.testFirst := rfl
@[simp] theorem State.setCore_window_ (c : Nat) (x : Core) : (s.setCore c x).window_ = s.window_ := rfl
@[simp] theorem State.setCore_board (c : Nat) (x : Core) : (s.setCore c x).board = s.board := rfl

/-! `State.setCl`. -/

@[simp] theorem State.setCl_pending (k : Nat) (x : Clus) : (s.setCl k x).pending = s.pending := rfl
@[simp] theorem State.setCl_free (k : Nat) (x : Clus) : (s.setCl k x).free = s.free := rfl
@[simp] theorem State.setCl_outbox (k : Nat) (x : Clus) : (s.setCl k x).outbox = s.outbox := rfl
@[simp] theorem State.setCl_regs (k : Nat) (x : Clus) : (s.setCl k x).regs = s.regs := rfl
@[simp] theorem State.setCl_shadow (k : Nat) (x : Clus) : (s.setCl k x).shadow = s.shadow := rfl
@[simp] theorem State.setCl_suspects (k : Nat) (x : Clus) : (s.setCl k x).suspects = s.suspects := rfl
@[simp] theorem State.setCl_late (k : Nat) (x : Clus) : (s.setCl k x).late = s.late := rfl
@[simp] theorem State.setCl_ctrs (k : Nat) (x : Clus) : (s.setCl k x).ctrs = s.ctrs := rfl
@[simp] theorem State.setCl_snap (k : Nat) (x : Clus) : (s.setCl k x).snap = s.snap := rfl
@[simp] theorem State.setCl_snapBeat (k : Nat) (x : Clus) : (s.setCl k x).snapBeat = s.snapBeat := rfl
@[simp] theorem State.setCl_snapAsked (k : Nat) (x : Clus) : (s.setCl k x).snapAsked = s.snapAsked := rfl
@[simp] theorem State.setCl_rows (k : Nat) (x : Clus) : (s.setCl k x).rows = s.rows := rfl
@[simp] theorem State.setCl_lpddr (k : Nat) (x : Clus) : (s.setCl k x).lpddr = s.lpddr := rfl
@[simp] theorem State.setCl_checks (k : Nat) (x : Clus) : (s.setCl k x).checks = s.checks := rfl
@[simp] theorem State.setCl_lpPatrol (k : Nat) (x : Clus) : (s.setCl k x).lpPatrol = s.lpPatrol := rfl
@[simp] theorem State.setCl_window (k : Nat) (x : Clus) : (s.setCl k x).window = s.window := rfl
@[simp] theorem State.setCl_moves (k : Nat) (x : Clus) : (s.setCl k x).moves = s.moves := rfl
@[simp] theorem State.setCl_ceRows (k : Nat) (x : Clus) : (s.setCl k x).ceRows = s.ceRows := rfl
@[simp] theorem State.setCl_retiredRows (k : Nat) (x : Clus) : (s.setCl k x).retiredRows = s.retiredRows := rfl
@[simp] theorem State.setCl_copying (k : Nat) (x : Clus) : (s.setCl k x).copying = s.copying := rfl
@[simp] theorem State.setCl_epoch (k : Nat) (x : Clus) : (s.setCl k x).epoch = s.epoch := rfl
@[simp] theorem State.setCl_walk (k : Nat) (x : Clus) : (s.setCl k x).walk = s.walk := rfl
@[simp] theorem State.setCl_bringups (k : Nat) (x : Clus) : (s.setCl k x).bringups = s.bringups := rfl
@[simp] theorem State.setCl_seals (k : Nat) (x : Clus) : (s.setCl k x).seals = s.seals := rfl
@[simp] theorem State.setCl_pinned (k : Nat) (x : Clus) : (s.setCl k x).pinned = s.pinned := rfl
@[simp] theorem State.setCl_goneViews (k : Nat) (x : Clus) : (s.setCl k x).goneViews = s.goneViews := rfl
@[simp] theorem State.setCl_copyGone (k : Nat) (x : Clus) : (s.setCl k x).copyGone = s.copyGone := rfl
@[simp] theorem State.setCl_tasks (k : Nat) (x : Clus) : (s.setCl k x).tasks = s.tasks := rfl
@[simp] theorem State.setCl_taskSeq (k : Nat) (x : Clus) : (s.setCl k x).taskSeq = s.taskSeq := rfl
@[simp] theorem State.setCl_groups (k : Nat) (x : Clus) : (s.setCl k x).groups = s.groups := rfl
@[simp] theorem State.setCl_engs (k : Nat) (x : Clus) : (s.setCl k x).engs = s.engs := rfl
@[simp] theorem State.setCl_cores (k : Nat) (x : Clus) : (s.setCl k x).cores = s.cores := rfl
@[simp] theorem State.setCl_chans (k : Nat) (x : Clus) : (s.setCl k x).chans = s.chans := rfl
@[simp] theorem State.setCl_waits (k : Nat) (x : Clus) : (s.setCl k x).waits = s.waits := rfl
@[simp] theorem State.setCl_arrivals (k : Nat) (x : Clus) : (s.setCl k x).arrivals = s.arrivals := rfl
@[simp] theorem State.setCl_jobs (k : Nat) (x : Clus) : (s.setCl k x).jobs = s.jobs := rfl
@[simp] theorem State.setCl_parts (k : Nat) (x : Clus) : (s.setCl k x).parts = s.parts := rfl
@[simp] theorem State.setCl_power (k : Nat) (x : Clus) : (s.setCl k x).power = s.power := rfl
@[simp] theorem State.setCl_edgeDraw (k : Nat) (x : Clus) : (s.setCl k x).edgeDraw = s.edgeDraw := rfl
@[simp] theorem State.setCl_powerOver (k : Nat) (x : Clus) : (s.setCl k x).powerOver = s.powerOver := rfl
@[simp] theorem State.setCl_grng (k : Nat) (x : Clus) : (s.setCl k x).grng = s.grng := rfl
@[simp] theorem State.setCl_win (k : Nat) (x : Clus) : (s.setCl k x).win = s.win := rfl
@[simp] theorem State.setCl_tithes (k : Nat) (x : Clus) : (s.setCl k x).tithes = s.tithes := rfl
@[simp] theorem State.setCl_titheSeq (k : Nat) (x : Clus) : (s.setCl k x).titheSeq = s.titheSeq := rfl
@[simp] theorem State.setCl_packetsOut (k : Nat) (x : Clus) : (s.setCl k x).packetsOut = s.packetsOut := rfl
@[simp] theorem State.setCl_restore (k : Nat) (x : Clus) : (s.setCl k x).restore = s.restore := rfl
@[simp] theorem State.setCl_ports (k : Nat) (x : Clus) : (s.setCl k x).ports = s.ports := rfl
@[simp] theorem State.setCl_gates (k : Nat) (x : Clus) : (s.setCl k x).gates = s.gates := rfl
@[simp] theorem State.setCl_loop (k : Nat) (x : Clus) : (s.setCl k x).loop = s.loop := rfl
@[simp] theorem State.setCl_beat (k : Nat) (x : Clus) : (s.setCl k x).beat = s.beat := rfl
@[simp] theorem State.setCl_mbxWaits (k : Nat) (x : Clus) : (s.setCl k x).mbxWaits = s.mbxWaits := rfl
@[simp] theorem State.setCl_mods (k : Nat) (x : Clus) : (s.setCl k x).mods = s.mods := rfl
@[simp] theorem State.setCl_lostTags (k : Nat) (x : Clus) : (s.setCl k x).lostTags = s.lostTags := rfl
@[simp] theorem State.setCl_hostLost (k : Nat) (x : Clus) : (s.setCl k x).hostLost = s.hostLost := rfl
@[simp] theorem State.setCl_bootStage (k : Nat) (x : Clus) : (s.setCl k x).bootStage = s.bootStage := rfl
@[simp] theorem State.setCl_stageWord (k : Nat) (x : Clus) : (s.setCl k x).stageWord = s.stageWord := rfl
@[simp] theorem State.setCl_evHead (k : Nat) (x : Clus) : (s.setCl k x).evHead = s.evHead := rfl
@[simp] theorem State.setCl_evTail (k : Nat) (x : Clus) : (s.setCl k x).evTail = s.evTail := rfl
@[simp] theorem State.setCl_evLost (k : Nat) (x : Clus) : (s.setCl k x).evLost = s.evLost := rfl
@[simp] theorem State.setCl_evOver (k : Nat) (x : Clus) : (s.setCl k x).evOver = s.evOver := rfl
@[simp] theorem State.setCl_fw (k : Nat) (x : Clus) : (s.setCl k x).fw = s.fw := rfl
@[simp] theorem State.setCl_cplq (k : Nat) (x : Clus) : (s.setCl k x).cplq = s.cplq := rfl
@[simp] theorem State.setCl_sec (k : Nat) (x : Clus) : (s.setCl k x).sec = s.sec := rfl
@[simp] theorem State.setCl_nv (k : Nat) (x : Clus) : (s.setCl k x).nv = s.nv := rfl
@[simp] theorem State.setCl_shape (k : Nat) (x : Clus) : (s.setCl k x).shape = s.shape := rfl
@[simp] theorem State.setCl_mesh (k : Nat) (x : Clus) : (s.setCl k x).mesh = s.mesh := rfl
@[simp] theorem State.setCl_bring (k : Nat) (x : Clus) : (s.setCl k x).bring = s.bring := rfl
@[simp] theorem State.setCl_shapeNew (k : Nat) (x : Clus) : (s.setCl k x).shapeNew = s.shapeNew := rfl
@[simp] theorem State.setCl_coresUp (k : Nat) (x : Clus) : (s.setCl k x).coresUp = s.coresUp := rfl
@[simp] theorem State.setCl_defects (k : Nat) (x : Clus) : (s.setCl k x).defects = s.defects := rfl
@[simp] theorem State.setCl_fwTurn (k : Nat) (x : Clus) : (s.setCl k x).fwTurn = s.fwTurn := rfl
@[simp] theorem State.setCl_seedPack (k : Nat) (x : Clus) : (s.setCl k x).seedPack = s.seedPack := rfl
@[simp] theorem State.setCl_seedSets (k : Nat) (x : Clus) : (s.setCl k x).seedSets = s.seedSets := rfl
@[simp] theorem State.setCl_minSvn (k : Nat) (x : Clus) : (s.setCl k x).minSvn = s.minSvn := rfl
@[simp] theorem State.setCl_calDue (k : Nat) (x : Clus) : (s.setCl k x).calDue = s.calDue := rfl
@[simp] theorem State.setCl_calLate (k : Nat) (x : Clus) : (s.setCl k x).calLate = s.calLate := rfl
@[simp] theorem State.setCl_passedAt (k : Nat) (x : Clus) : (s.setCl k x).passedAt = s.passedAt := rfl
@[simp] theorem State.setCl_testFirst (k : Nat) (x : Clus) : (s.setCl k x).testFirst = s.testFirst := rfl
@[simp] theorem State.setCl_window_ (k : Nat) (x : Clus) : (s.setCl k x).window_ = s.window_ := rfl
@[simp] theorem State.setCl_board (k : Nat) (x : Clus) : (s.setCl k x).board = s.board := rfl

/-! `State.setChan`. -/

@[simp] theorem State.setChan_pending (cl ch : Nat) (x : Chan) : (s.setChan cl ch x).pending = s.pending := rfl
@[simp] theorem State.setChan_free (cl ch : Nat) (x : Chan) : (s.setChan cl ch x).free = s.free := rfl
@[simp] theorem State.setChan_outbox (cl ch : Nat) (x : Chan) : (s.setChan cl ch x).outbox = s.outbox := rfl
@[simp] theorem State.setChan_regs (cl ch : Nat) (x : Chan) : (s.setChan cl ch x).regs = s.regs := rfl
@[simp] theorem State.setChan_shadow (cl ch : Nat) (x : Chan) : (s.setChan cl ch x).shadow = s.shadow := rfl
@[simp] theorem State.setChan_suspects (cl ch : Nat) (x : Chan) : (s.setChan cl ch x).suspects = s.suspects := rfl
@[simp] theorem State.setChan_late (cl ch : Nat) (x : Chan) : (s.setChan cl ch x).late = s.late := rfl
@[simp] theorem State.setChan_ctrs (cl ch : Nat) (x : Chan) : (s.setChan cl ch x).ctrs = s.ctrs := rfl
@[simp] theorem State.setChan_snap (cl ch : Nat) (x : Chan) : (s.setChan cl ch x).snap = s.snap := rfl
@[simp] theorem State.setChan_snapBeat (cl ch : Nat) (x : Chan) : (s.setChan cl ch x).snapBeat = s.snapBeat := rfl
@[simp] theorem State.setChan_snapAsked (cl ch : Nat) (x : Chan) : (s.setChan cl ch x).snapAsked = s.snapAsked := rfl
@[simp] theorem State.setChan_rows (cl ch : Nat) (x : Chan) : (s.setChan cl ch x).rows = s.rows := rfl
@[simp] theorem State.setChan_lpddr (cl ch : Nat) (x : Chan) : (s.setChan cl ch x).lpddr = s.lpddr := rfl
@[simp] theorem State.setChan_checks (cl ch : Nat) (x : Chan) : (s.setChan cl ch x).checks = s.checks := rfl
@[simp] theorem State.setChan_lpPatrol (cl ch : Nat) (x : Chan) : (s.setChan cl ch x).lpPatrol = s.lpPatrol := rfl
@[simp] theorem State.setChan_window (cl ch : Nat) (x : Chan) : (s.setChan cl ch x).window = s.window := rfl
@[simp] theorem State.setChan_moves (cl ch : Nat) (x : Chan) : (s.setChan cl ch x).moves = s.moves := rfl
@[simp] theorem State.setChan_ceRows (cl ch : Nat) (x : Chan) : (s.setChan cl ch x).ceRows = s.ceRows := rfl
@[simp] theorem State.setChan_retiredRows (cl ch : Nat) (x : Chan) : (s.setChan cl ch x).retiredRows = s.retiredRows := rfl
@[simp] theorem State.setChan_copying (cl ch : Nat) (x : Chan) : (s.setChan cl ch x).copying = s.copying := rfl
@[simp] theorem State.setChan_epoch (cl ch : Nat) (x : Chan) : (s.setChan cl ch x).epoch = s.epoch := rfl
@[simp] theorem State.setChan_walk (cl ch : Nat) (x : Chan) : (s.setChan cl ch x).walk = s.walk := rfl
@[simp] theorem State.setChan_bringups (cl ch : Nat) (x : Chan) : (s.setChan cl ch x).bringups = s.bringups := rfl
@[simp] theorem State.setChan_seals (cl ch : Nat) (x : Chan) : (s.setChan cl ch x).seals = s.seals := rfl
@[simp] theorem State.setChan_pinned (cl ch : Nat) (x : Chan) : (s.setChan cl ch x).pinned = s.pinned := rfl
@[simp] theorem State.setChan_goneViews (cl ch : Nat) (x : Chan) : (s.setChan cl ch x).goneViews = s.goneViews := rfl
@[simp] theorem State.setChan_copyGone (cl ch : Nat) (x : Chan) : (s.setChan cl ch x).copyGone = s.copyGone := rfl
@[simp] theorem State.setChan_tasks (cl ch : Nat) (x : Chan) : (s.setChan cl ch x).tasks = s.tasks := rfl
@[simp] theorem State.setChan_taskSeq (cl ch : Nat) (x : Chan) : (s.setChan cl ch x).taskSeq = s.taskSeq := rfl
@[simp] theorem State.setChan_groups (cl ch : Nat) (x : Chan) : (s.setChan cl ch x).groups = s.groups := rfl
@[simp] theorem State.setChan_engs (cl ch : Nat) (x : Chan) : (s.setChan cl ch x).engs = s.engs := rfl
@[simp] theorem State.setChan_cores (cl ch : Nat) (x : Chan) : (s.setChan cl ch x).cores = s.cores := rfl
@[simp] theorem State.setChan_clus (cl ch : Nat) (x : Chan) : (s.setChan cl ch x).clus = s.clus := rfl
@[simp] theorem State.setChan_waits (cl ch : Nat) (x : Chan) : (s.setChan cl ch x).waits = s.waits := rfl
@[simp] theorem State.setChan_arrivals (cl ch : Nat) (x : Chan) : (s.setChan cl ch x).arrivals = s.arrivals := rfl
@[simp] theorem State.setChan_jobs (cl ch : Nat) (x : Chan) : (s.setChan cl ch x).jobs = s.jobs := rfl
@[simp] theorem State.setChan_parts (cl ch : Nat) (x : Chan) : (s.setChan cl ch x).parts = s.parts := rfl
@[simp] theorem State.setChan_power (cl ch : Nat) (x : Chan) : (s.setChan cl ch x).power = s.power := rfl
@[simp] theorem State.setChan_edgeDraw (cl ch : Nat) (x : Chan) : (s.setChan cl ch x).edgeDraw = s.edgeDraw := rfl
@[simp] theorem State.setChan_powerOver (cl ch : Nat) (x : Chan) : (s.setChan cl ch x).powerOver = s.powerOver := rfl
@[simp] theorem State.setChan_grng (cl ch : Nat) (x : Chan) : (s.setChan cl ch x).grng = s.grng := rfl
@[simp] theorem State.setChan_win (cl ch : Nat) (x : Chan) : (s.setChan cl ch x).win = s.win := rfl
@[simp] theorem State.setChan_tithes (cl ch : Nat) (x : Chan) : (s.setChan cl ch x).tithes = s.tithes := rfl
@[simp] theorem State.setChan_titheSeq (cl ch : Nat) (x : Chan) : (s.setChan cl ch x).titheSeq = s.titheSeq := rfl
@[simp] theorem State.setChan_packetsOut (cl ch : Nat) (x : Chan) : (s.setChan cl ch x).packetsOut = s.packetsOut := rfl
@[simp] theorem State.setChan_restore (cl ch : Nat) (x : Chan) : (s.setChan cl ch x).restore = s.restore := rfl
@[simp] theorem State.setChan_ports (cl ch : Nat) (x : Chan) : (s.setChan cl ch x).ports = s.ports := rfl
@[simp] theorem State.setChan_gates (cl ch : Nat) (x : Chan) : (s.setChan cl ch x).gates = s.gates := rfl
@[simp] theorem State.setChan_loop (cl ch : Nat) (x : Chan) : (s.setChan cl ch x).loop = s.loop := rfl
@[simp] theorem State.setChan_beat (cl ch : Nat) (x : Chan) : (s.setChan cl ch x).beat = s.beat := rfl
@[simp] theorem State.setChan_mbxWaits (cl ch : Nat) (x : Chan) : (s.setChan cl ch x).mbxWaits = s.mbxWaits := rfl
@[simp] theorem State.setChan_mods (cl ch : Nat) (x : Chan) : (s.setChan cl ch x).mods = s.mods := rfl
@[simp] theorem State.setChan_lostTags (cl ch : Nat) (x : Chan) : (s.setChan cl ch x).lostTags = s.lostTags := rfl
@[simp] theorem State.setChan_hostLost (cl ch : Nat) (x : Chan) : (s.setChan cl ch x).hostLost = s.hostLost := rfl
@[simp] theorem State.setChan_bootStage (cl ch : Nat) (x : Chan) : (s.setChan cl ch x).bootStage = s.bootStage := rfl
@[simp] theorem State.setChan_stageWord (cl ch : Nat) (x : Chan) : (s.setChan cl ch x).stageWord = s.stageWord := rfl
@[simp] theorem State.setChan_evHead (cl ch : Nat) (x : Chan) : (s.setChan cl ch x).evHead = s.evHead := rfl
@[simp] theorem State.setChan_evTail (cl ch : Nat) (x : Chan) : (s.setChan cl ch x).evTail = s.evTail := rfl
@[simp] theorem State.setChan_evLost (cl ch : Nat) (x : Chan) : (s.setChan cl ch x).evLost = s.evLost := rfl
@[simp] theorem State.setChan_evOver (cl ch : Nat) (x : Chan) : (s.setChan cl ch x).evOver = s.evOver := rfl
@[simp] theorem State.setChan_fw (cl ch : Nat) (x : Chan) : (s.setChan cl ch x).fw = s.fw := rfl
@[simp] theorem State.setChan_cplq (cl ch : Nat) (x : Chan) : (s.setChan cl ch x).cplq = s.cplq := rfl
@[simp] theorem State.setChan_sec (cl ch : Nat) (x : Chan) : (s.setChan cl ch x).sec = s.sec := rfl
@[simp] theorem State.setChan_nv (cl ch : Nat) (x : Chan) : (s.setChan cl ch x).nv = s.nv := rfl
@[simp] theorem State.setChan_shape (cl ch : Nat) (x : Chan) : (s.setChan cl ch x).shape = s.shape := rfl
@[simp] theorem State.setChan_mesh (cl ch : Nat) (x : Chan) : (s.setChan cl ch x).mesh = s.mesh := rfl
@[simp] theorem State.setChan_bring (cl ch : Nat) (x : Chan) : (s.setChan cl ch x).bring = s.bring := rfl
@[simp] theorem State.setChan_shapeNew (cl ch : Nat) (x : Chan) : (s.setChan cl ch x).shapeNew = s.shapeNew := rfl
@[simp] theorem State.setChan_coresUp (cl ch : Nat) (x : Chan) : (s.setChan cl ch x).coresUp = s.coresUp := rfl
@[simp] theorem State.setChan_defects (cl ch : Nat) (x : Chan) : (s.setChan cl ch x).defects = s.defects := rfl
@[simp] theorem State.setChan_fwTurn (cl ch : Nat) (x : Chan) : (s.setChan cl ch x).fwTurn = s.fwTurn := rfl
@[simp] theorem State.setChan_seedPack (cl ch : Nat) (x : Chan) : (s.setChan cl ch x).seedPack = s.seedPack := rfl
@[simp] theorem State.setChan_seedSets (cl ch : Nat) (x : Chan) : (s.setChan cl ch x).seedSets = s.seedSets := rfl
@[simp] theorem State.setChan_minSvn (cl ch : Nat) (x : Chan) : (s.setChan cl ch x).minSvn = s.minSvn := rfl
@[simp] theorem State.setChan_calDue (cl ch : Nat) (x : Chan) : (s.setChan cl ch x).calDue = s.calDue := rfl
@[simp] theorem State.setChan_calLate (cl ch : Nat) (x : Chan) : (s.setChan cl ch x).calLate = s.calLate := rfl
@[simp] theorem State.setChan_passedAt (cl ch : Nat) (x : Chan) : (s.setChan cl ch x).passedAt = s.passedAt := rfl
@[simp] theorem State.setChan_testFirst (cl ch : Nat) (x : Chan) : (s.setChan cl ch x).testFirst = s.testFirst := rfl
@[simp] theorem State.setChan_window_ (cl ch : Nat) (x : Chan) : (s.setChan cl ch x).window_ = s.window_ := rfl
@[simp] theorem State.setChan_board (cl ch : Nat) (x : Chan) : (s.setChan cl ch x).board = s.board := rfl

/-! `State.setJob`. -/

@[simp] theorem State.setJob_pending (p j : Nat) (x : Job) : (s.setJob p j x).pending = s.pending := rfl
@[simp] theorem State.setJob_free (p j : Nat) (x : Job) : (s.setJob p j x).free = s.free := rfl
@[simp] theorem State.setJob_outbox (p j : Nat) (x : Job) : (s.setJob p j x).outbox = s.outbox := rfl
@[simp] theorem State.setJob_regs (p j : Nat) (x : Job) : (s.setJob p j x).regs = s.regs := rfl
@[simp] theorem State.setJob_shadow (p j : Nat) (x : Job) : (s.setJob p j x).shadow = s.shadow := rfl
@[simp] theorem State.setJob_suspects (p j : Nat) (x : Job) : (s.setJob p j x).suspects = s.suspects := rfl
@[simp] theorem State.setJob_late (p j : Nat) (x : Job) : (s.setJob p j x).late = s.late := rfl
@[simp] theorem State.setJob_ctrs (p j : Nat) (x : Job) : (s.setJob p j x).ctrs = s.ctrs := rfl
@[simp] theorem State.setJob_snap (p j : Nat) (x : Job) : (s.setJob p j x).snap = s.snap := rfl
@[simp] theorem State.setJob_snapBeat (p j : Nat) (x : Job) : (s.setJob p j x).snapBeat = s.snapBeat := rfl
@[simp] theorem State.setJob_snapAsked (p j : Nat) (x : Job) : (s.setJob p j x).snapAsked = s.snapAsked := rfl
@[simp] theorem State.setJob_rows (p j : Nat) (x : Job) : (s.setJob p j x).rows = s.rows := rfl
@[simp] theorem State.setJob_lpddr (p j : Nat) (x : Job) : (s.setJob p j x).lpddr = s.lpddr := rfl
@[simp] theorem State.setJob_checks (p j : Nat) (x : Job) : (s.setJob p j x).checks = s.checks := rfl
@[simp] theorem State.setJob_lpPatrol (p j : Nat) (x : Job) : (s.setJob p j x).lpPatrol = s.lpPatrol := rfl
@[simp] theorem State.setJob_window (p j : Nat) (x : Job) : (s.setJob p j x).window = s.window := rfl
@[simp] theorem State.setJob_moves (p j : Nat) (x : Job) : (s.setJob p j x).moves = s.moves := rfl
@[simp] theorem State.setJob_ceRows (p j : Nat) (x : Job) : (s.setJob p j x).ceRows = s.ceRows := rfl
@[simp] theorem State.setJob_retiredRows (p j : Nat) (x : Job) : (s.setJob p j x).retiredRows = s.retiredRows := rfl
@[simp] theorem State.setJob_copying (p j : Nat) (x : Job) : (s.setJob p j x).copying = s.copying := rfl
@[simp] theorem State.setJob_epoch (p j : Nat) (x : Job) : (s.setJob p j x).epoch = s.epoch := rfl
@[simp] theorem State.setJob_walk (p j : Nat) (x : Job) : (s.setJob p j x).walk = s.walk := rfl
@[simp] theorem State.setJob_bringups (p j : Nat) (x : Job) : (s.setJob p j x).bringups = s.bringups := rfl
@[simp] theorem State.setJob_seals (p j : Nat) (x : Job) : (s.setJob p j x).seals = s.seals := rfl
@[simp] theorem State.setJob_pinned (p j : Nat) (x : Job) : (s.setJob p j x).pinned = s.pinned := rfl
@[simp] theorem State.setJob_goneViews (p j : Nat) (x : Job) : (s.setJob p j x).goneViews = s.goneViews := rfl
@[simp] theorem State.setJob_copyGone (p j : Nat) (x : Job) : (s.setJob p j x).copyGone = s.copyGone := rfl
@[simp] theorem State.setJob_tasks (p j : Nat) (x : Job) : (s.setJob p j x).tasks = s.tasks := rfl
@[simp] theorem State.setJob_taskSeq (p j : Nat) (x : Job) : (s.setJob p j x).taskSeq = s.taskSeq := rfl
@[simp] theorem State.setJob_groups (p j : Nat) (x : Job) : (s.setJob p j x).groups = s.groups := rfl
@[simp] theorem State.setJob_engs (p j : Nat) (x : Job) : (s.setJob p j x).engs = s.engs := rfl
@[simp] theorem State.setJob_cores (p j : Nat) (x : Job) : (s.setJob p j x).cores = s.cores := rfl
@[simp] theorem State.setJob_clus (p j : Nat) (x : Job) : (s.setJob p j x).clus = s.clus := rfl
@[simp] theorem State.setJob_chans (p j : Nat) (x : Job) : (s.setJob p j x).chans = s.chans := rfl
@[simp] theorem State.setJob_waits (p j : Nat) (x : Job) : (s.setJob p j x).waits = s.waits := rfl
@[simp] theorem State.setJob_arrivals (p j : Nat) (x : Job) : (s.setJob p j x).arrivals = s.arrivals := rfl
@[simp] theorem State.setJob_parts (p j : Nat) (x : Job) : (s.setJob p j x).parts = s.parts := rfl
@[simp] theorem State.setJob_power (p j : Nat) (x : Job) : (s.setJob p j x).power = s.power := rfl
@[simp] theorem State.setJob_edgeDraw (p j : Nat) (x : Job) : (s.setJob p j x).edgeDraw = s.edgeDraw := rfl
@[simp] theorem State.setJob_powerOver (p j : Nat) (x : Job) : (s.setJob p j x).powerOver = s.powerOver := rfl
@[simp] theorem State.setJob_grng (p j : Nat) (x : Job) : (s.setJob p j x).grng = s.grng := rfl
@[simp] theorem State.setJob_win (p j : Nat) (x : Job) : (s.setJob p j x).win = s.win := rfl
@[simp] theorem State.setJob_tithes (p j : Nat) (x : Job) : (s.setJob p j x).tithes = s.tithes := rfl
@[simp] theorem State.setJob_titheSeq (p j : Nat) (x : Job) : (s.setJob p j x).titheSeq = s.titheSeq := rfl
@[simp] theorem State.setJob_packetsOut (p j : Nat) (x : Job) : (s.setJob p j x).packetsOut = s.packetsOut := rfl
@[simp] theorem State.setJob_restore (p j : Nat) (x : Job) : (s.setJob p j x).restore = s.restore := rfl
@[simp] theorem State.setJob_ports (p j : Nat) (x : Job) : (s.setJob p j x).ports = s.ports := rfl
@[simp] theorem State.setJob_gates (p j : Nat) (x : Job) : (s.setJob p j x).gates = s.gates := rfl
@[simp] theorem State.setJob_loop (p j : Nat) (x : Job) : (s.setJob p j x).loop = s.loop := rfl
@[simp] theorem State.setJob_beat (p j : Nat) (x : Job) : (s.setJob p j x).beat = s.beat := rfl
@[simp] theorem State.setJob_mbxWaits (p j : Nat) (x : Job) : (s.setJob p j x).mbxWaits = s.mbxWaits := rfl
@[simp] theorem State.setJob_mods (p j : Nat) (x : Job) : (s.setJob p j x).mods = s.mods := rfl
@[simp] theorem State.setJob_lostTags (p j : Nat) (x : Job) : (s.setJob p j x).lostTags = s.lostTags := rfl
@[simp] theorem State.setJob_hostLost (p j : Nat) (x : Job) : (s.setJob p j x).hostLost = s.hostLost := rfl
@[simp] theorem State.setJob_bootStage (p j : Nat) (x : Job) : (s.setJob p j x).bootStage = s.bootStage := rfl
@[simp] theorem State.setJob_stageWord (p j : Nat) (x : Job) : (s.setJob p j x).stageWord = s.stageWord := rfl
@[simp] theorem State.setJob_evHead (p j : Nat) (x : Job) : (s.setJob p j x).evHead = s.evHead := rfl
@[simp] theorem State.setJob_evTail (p j : Nat) (x : Job) : (s.setJob p j x).evTail = s.evTail := rfl
@[simp] theorem State.setJob_evLost (p j : Nat) (x : Job) : (s.setJob p j x).evLost = s.evLost := rfl
@[simp] theorem State.setJob_evOver (p j : Nat) (x : Job) : (s.setJob p j x).evOver = s.evOver := rfl
@[simp] theorem State.setJob_fw (p j : Nat) (x : Job) : (s.setJob p j x).fw = s.fw := rfl
@[simp] theorem State.setJob_cplq (p j : Nat) (x : Job) : (s.setJob p j x).cplq = s.cplq := rfl
@[simp] theorem State.setJob_sec (p j : Nat) (x : Job) : (s.setJob p j x).sec = s.sec := rfl
@[simp] theorem State.setJob_nv (p j : Nat) (x : Job) : (s.setJob p j x).nv = s.nv := rfl
@[simp] theorem State.setJob_shape (p j : Nat) (x : Job) : (s.setJob p j x).shape = s.shape := rfl
@[simp] theorem State.setJob_mesh (p j : Nat) (x : Job) : (s.setJob p j x).mesh = s.mesh := rfl
@[simp] theorem State.setJob_bring (p j : Nat) (x : Job) : (s.setJob p j x).bring = s.bring := rfl
@[simp] theorem State.setJob_shapeNew (p j : Nat) (x : Job) : (s.setJob p j x).shapeNew = s.shapeNew := rfl
@[simp] theorem State.setJob_coresUp (p j : Nat) (x : Job) : (s.setJob p j x).coresUp = s.coresUp := rfl
@[simp] theorem State.setJob_defects (p j : Nat) (x : Job) : (s.setJob p j x).defects = s.defects := rfl
@[simp] theorem State.setJob_fwTurn (p j : Nat) (x : Job) : (s.setJob p j x).fwTurn = s.fwTurn := rfl
@[simp] theorem State.setJob_seedPack (p j : Nat) (x : Job) : (s.setJob p j x).seedPack = s.seedPack := rfl
@[simp] theorem State.setJob_seedSets (p j : Nat) (x : Job) : (s.setJob p j x).seedSets = s.seedSets := rfl
@[simp] theorem State.setJob_minSvn (p j : Nat) (x : Job) : (s.setJob p j x).minSvn = s.minSvn := rfl
@[simp] theorem State.setJob_calDue (p j : Nat) (x : Job) : (s.setJob p j x).calDue = s.calDue := rfl
@[simp] theorem State.setJob_calLate (p j : Nat) (x : Job) : (s.setJob p j x).calLate = s.calLate := rfl
@[simp] theorem State.setJob_passedAt (p j : Nat) (x : Job) : (s.setJob p j x).passedAt = s.passedAt := rfl
@[simp] theorem State.setJob_testFirst (p j : Nat) (x : Job) : (s.setJob p j x).testFirst = s.testFirst := rfl
@[simp] theorem State.setJob_window_ (p j : Nat) (x : Job) : (s.setJob p j x).window_ = s.window_ := rfl
@[simp] theorem State.setJob_board (p j : Nat) (x : Job) : (s.setJob p j x).board = s.board := rfl

/-! `State.setPart`. -/

@[simp] theorem State.setPart_pending (p : Nat) (x : Part) : (s.setPart p x).pending = s.pending := rfl
@[simp] theorem State.setPart_free (p : Nat) (x : Part) : (s.setPart p x).free = s.free := rfl
@[simp] theorem State.setPart_outbox (p : Nat) (x : Part) : (s.setPart p x).outbox = s.outbox := rfl
@[simp] theorem State.setPart_regs (p : Nat) (x : Part) : (s.setPart p x).regs = s.regs := rfl
@[simp] theorem State.setPart_shadow (p : Nat) (x : Part) : (s.setPart p x).shadow = s.shadow := rfl
@[simp] theorem State.setPart_suspects (p : Nat) (x : Part) : (s.setPart p x).suspects = s.suspects := rfl
@[simp] theorem State.setPart_late (p : Nat) (x : Part) : (s.setPart p x).late = s.late := rfl
@[simp] theorem State.setPart_ctrs (p : Nat) (x : Part) : (s.setPart p x).ctrs = s.ctrs := rfl
@[simp] theorem State.setPart_snap (p : Nat) (x : Part) : (s.setPart p x).snap = s.snap := rfl
@[simp] theorem State.setPart_snapBeat (p : Nat) (x : Part) : (s.setPart p x).snapBeat = s.snapBeat := rfl
@[simp] theorem State.setPart_snapAsked (p : Nat) (x : Part) : (s.setPart p x).snapAsked = s.snapAsked := rfl
@[simp] theorem State.setPart_rows (p : Nat) (x : Part) : (s.setPart p x).rows = s.rows := rfl
@[simp] theorem State.setPart_lpddr (p : Nat) (x : Part) : (s.setPart p x).lpddr = s.lpddr := rfl
@[simp] theorem State.setPart_checks (p : Nat) (x : Part) : (s.setPart p x).checks = s.checks := rfl
@[simp] theorem State.setPart_lpPatrol (p : Nat) (x : Part) : (s.setPart p x).lpPatrol = s.lpPatrol := rfl
@[simp] theorem State.setPart_window (p : Nat) (x : Part) : (s.setPart p x).window = s.window := rfl
@[simp] theorem State.setPart_moves (p : Nat) (x : Part) : (s.setPart p x).moves = s.moves := rfl
@[simp] theorem State.setPart_ceRows (p : Nat) (x : Part) : (s.setPart p x).ceRows = s.ceRows := rfl
@[simp] theorem State.setPart_retiredRows (p : Nat) (x : Part) : (s.setPart p x).retiredRows = s.retiredRows := rfl
@[simp] theorem State.setPart_copying (p : Nat) (x : Part) : (s.setPart p x).copying = s.copying := rfl
@[simp] theorem State.setPart_epoch (p : Nat) (x : Part) : (s.setPart p x).epoch = s.epoch := rfl
@[simp] theorem State.setPart_walk (p : Nat) (x : Part) : (s.setPart p x).walk = s.walk := rfl
@[simp] theorem State.setPart_bringups (p : Nat) (x : Part) : (s.setPart p x).bringups = s.bringups := rfl
@[simp] theorem State.setPart_seals (p : Nat) (x : Part) : (s.setPart p x).seals = s.seals := rfl
@[simp] theorem State.setPart_pinned (p : Nat) (x : Part) : (s.setPart p x).pinned = s.pinned := rfl
@[simp] theorem State.setPart_goneViews (p : Nat) (x : Part) : (s.setPart p x).goneViews = s.goneViews := rfl
@[simp] theorem State.setPart_copyGone (p : Nat) (x : Part) : (s.setPart p x).copyGone = s.copyGone := rfl
@[simp] theorem State.setPart_tasks (p : Nat) (x : Part) : (s.setPart p x).tasks = s.tasks := rfl
@[simp] theorem State.setPart_taskSeq (p : Nat) (x : Part) : (s.setPart p x).taskSeq = s.taskSeq := rfl
@[simp] theorem State.setPart_groups (p : Nat) (x : Part) : (s.setPart p x).groups = s.groups := rfl
@[simp] theorem State.setPart_engs (p : Nat) (x : Part) : (s.setPart p x).engs = s.engs := rfl
@[simp] theorem State.setPart_cores (p : Nat) (x : Part) : (s.setPart p x).cores = s.cores := rfl
@[simp] theorem State.setPart_clus (p : Nat) (x : Part) : (s.setPart p x).clus = s.clus := rfl
@[simp] theorem State.setPart_chans (p : Nat) (x : Part) : (s.setPart p x).chans = s.chans := rfl
@[simp] theorem State.setPart_waits (p : Nat) (x : Part) : (s.setPart p x).waits = s.waits := rfl
@[simp] theorem State.setPart_arrivals (p : Nat) (x : Part) : (s.setPart p x).arrivals = s.arrivals := rfl
@[simp] theorem State.setPart_jobs (p : Nat) (x : Part) : (s.setPart p x).jobs = s.jobs := rfl
@[simp] theorem State.setPart_power (p : Nat) (x : Part) : (s.setPart p x).power = s.power := rfl
@[simp] theorem State.setPart_edgeDraw (p : Nat) (x : Part) : (s.setPart p x).edgeDraw = s.edgeDraw := rfl
@[simp] theorem State.setPart_powerOver (p : Nat) (x : Part) : (s.setPart p x).powerOver = s.powerOver := rfl
@[simp] theorem State.setPart_grng (p : Nat) (x : Part) : (s.setPart p x).grng = s.grng := rfl
@[simp] theorem State.setPart_win (p : Nat) (x : Part) : (s.setPart p x).win = s.win := rfl
@[simp] theorem State.setPart_tithes (p : Nat) (x : Part) : (s.setPart p x).tithes = s.tithes := rfl
@[simp] theorem State.setPart_titheSeq (p : Nat) (x : Part) : (s.setPart p x).titheSeq = s.titheSeq := rfl
@[simp] theorem State.setPart_packetsOut (p : Nat) (x : Part) : (s.setPart p x).packetsOut = s.packetsOut := rfl
@[simp] theorem State.setPart_restore (p : Nat) (x : Part) : (s.setPart p x).restore = s.restore := rfl
@[simp] theorem State.setPart_ports (p : Nat) (x : Part) : (s.setPart p x).ports = s.ports := rfl
@[simp] theorem State.setPart_gates (p : Nat) (x : Part) : (s.setPart p x).gates = s.gates := rfl
@[simp] theorem State.setPart_loop (p : Nat) (x : Part) : (s.setPart p x).loop = s.loop := rfl
@[simp] theorem State.setPart_beat (p : Nat) (x : Part) : (s.setPart p x).beat = s.beat := rfl
@[simp] theorem State.setPart_mbxWaits (p : Nat) (x : Part) : (s.setPart p x).mbxWaits = s.mbxWaits := rfl
@[simp] theorem State.setPart_mods (p : Nat) (x : Part) : (s.setPart p x).mods = s.mods := rfl
@[simp] theorem State.setPart_lostTags (p : Nat) (x : Part) : (s.setPart p x).lostTags = s.lostTags := rfl
@[simp] theorem State.setPart_hostLost (p : Nat) (x : Part) : (s.setPart p x).hostLost = s.hostLost := rfl
@[simp] theorem State.setPart_bootStage (p : Nat) (x : Part) : (s.setPart p x).bootStage = s.bootStage := rfl
@[simp] theorem State.setPart_stageWord (p : Nat) (x : Part) : (s.setPart p x).stageWord = s.stageWord := rfl
@[simp] theorem State.setPart_evHead (p : Nat) (x : Part) : (s.setPart p x).evHead = s.evHead := rfl
@[simp] theorem State.setPart_evTail (p : Nat) (x : Part) : (s.setPart p x).evTail = s.evTail := rfl
@[simp] theorem State.setPart_evLost (p : Nat) (x : Part) : (s.setPart p x).evLost = s.evLost := rfl
@[simp] theorem State.setPart_evOver (p : Nat) (x : Part) : (s.setPart p x).evOver = s.evOver := rfl
@[simp] theorem State.setPart_fw (p : Nat) (x : Part) : (s.setPart p x).fw = s.fw := rfl
@[simp] theorem State.setPart_cplq (p : Nat) (x : Part) : (s.setPart p x).cplq = s.cplq := rfl
@[simp] theorem State.setPart_sec (p : Nat) (x : Part) : (s.setPart p x).sec = s.sec := rfl
@[simp] theorem State.setPart_nv (p : Nat) (x : Part) : (s.setPart p x).nv = s.nv := rfl
@[simp] theorem State.setPart_shape (p : Nat) (x : Part) : (s.setPart p x).shape = s.shape := rfl
@[simp] theorem State.setPart_mesh (p : Nat) (x : Part) : (s.setPart p x).mesh = s.mesh := rfl
@[simp] theorem State.setPart_bring (p : Nat) (x : Part) : (s.setPart p x).bring = s.bring := rfl
@[simp] theorem State.setPart_shapeNew (p : Nat) (x : Part) : (s.setPart p x).shapeNew = s.shapeNew := rfl
@[simp] theorem State.setPart_coresUp (p : Nat) (x : Part) : (s.setPart p x).coresUp = s.coresUp := rfl
@[simp] theorem State.setPart_defects (p : Nat) (x : Part) : (s.setPart p x).defects = s.defects := rfl
@[simp] theorem State.setPart_fwTurn (p : Nat) (x : Part) : (s.setPart p x).fwTurn = s.fwTurn := rfl
@[simp] theorem State.setPart_seedPack (p : Nat) (x : Part) : (s.setPart p x).seedPack = s.seedPack := rfl
@[simp] theorem State.setPart_seedSets (p : Nat) (x : Part) : (s.setPart p x).seedSets = s.seedSets := rfl
@[simp] theorem State.setPart_minSvn (p : Nat) (x : Part) : (s.setPart p x).minSvn = s.minSvn := rfl
@[simp] theorem State.setPart_calDue (p : Nat) (x : Part) : (s.setPart p x).calDue = s.calDue := rfl
@[simp] theorem State.setPart_calLate (p : Nat) (x : Part) : (s.setPart p x).calLate = s.calLate := rfl
@[simp] theorem State.setPart_passedAt (p : Nat) (x : Part) : (s.setPart p x).passedAt = s.passedAt := rfl
@[simp] theorem State.setPart_testFirst (p : Nat) (x : Part) : (s.setPart p x).testFirst = s.testFirst := rfl
@[simp] theorem State.setPart_window_ (p : Nat) (x : Part) : (s.setPart p x).window_ = s.window_ := rfl
@[simp] theorem State.setPart_board (p : Nat) (x : Part) : (s.setPart p x).board = s.board := rfl

/-! `State.setPort`. -/

@[simp] theorem State.setPort_pending (p : Nat) (x : Port) : (s.setPort p x).pending = s.pending := rfl
@[simp] theorem State.setPort_free (p : Nat) (x : Port) : (s.setPort p x).free = s.free := rfl
@[simp] theorem State.setPort_outbox (p : Nat) (x : Port) : (s.setPort p x).outbox = s.outbox := rfl
@[simp] theorem State.setPort_regs (p : Nat) (x : Port) : (s.setPort p x).regs = s.regs := rfl
@[simp] theorem State.setPort_shadow (p : Nat) (x : Port) : (s.setPort p x).shadow = s.shadow := rfl
@[simp] theorem State.setPort_suspects (p : Nat) (x : Port) : (s.setPort p x).suspects = s.suspects := rfl
@[simp] theorem State.setPort_late (p : Nat) (x : Port) : (s.setPort p x).late = s.late := rfl
@[simp] theorem State.setPort_ctrs (p : Nat) (x : Port) : (s.setPort p x).ctrs = s.ctrs := rfl
@[simp] theorem State.setPort_snap (p : Nat) (x : Port) : (s.setPort p x).snap = s.snap := rfl
@[simp] theorem State.setPort_snapBeat (p : Nat) (x : Port) : (s.setPort p x).snapBeat = s.snapBeat := rfl
@[simp] theorem State.setPort_snapAsked (p : Nat) (x : Port) : (s.setPort p x).snapAsked = s.snapAsked := rfl
@[simp] theorem State.setPort_rows (p : Nat) (x : Port) : (s.setPort p x).rows = s.rows := rfl
@[simp] theorem State.setPort_lpddr (p : Nat) (x : Port) : (s.setPort p x).lpddr = s.lpddr := rfl
@[simp] theorem State.setPort_checks (p : Nat) (x : Port) : (s.setPort p x).checks = s.checks := rfl
@[simp] theorem State.setPort_lpPatrol (p : Nat) (x : Port) : (s.setPort p x).lpPatrol = s.lpPatrol := rfl
@[simp] theorem State.setPort_window (p : Nat) (x : Port) : (s.setPort p x).window = s.window := rfl
@[simp] theorem State.setPort_moves (p : Nat) (x : Port) : (s.setPort p x).moves = s.moves := rfl
@[simp] theorem State.setPort_ceRows (p : Nat) (x : Port) : (s.setPort p x).ceRows = s.ceRows := rfl
@[simp] theorem State.setPort_retiredRows (p : Nat) (x : Port) : (s.setPort p x).retiredRows = s.retiredRows := rfl
@[simp] theorem State.setPort_copying (p : Nat) (x : Port) : (s.setPort p x).copying = s.copying := rfl
@[simp] theorem State.setPort_epoch (p : Nat) (x : Port) : (s.setPort p x).epoch = s.epoch := rfl
@[simp] theorem State.setPort_walk (p : Nat) (x : Port) : (s.setPort p x).walk = s.walk := rfl
@[simp] theorem State.setPort_bringups (p : Nat) (x : Port) : (s.setPort p x).bringups = s.bringups := rfl
@[simp] theorem State.setPort_seals (p : Nat) (x : Port) : (s.setPort p x).seals = s.seals := rfl
@[simp] theorem State.setPort_pinned (p : Nat) (x : Port) : (s.setPort p x).pinned = s.pinned := rfl
@[simp] theorem State.setPort_goneViews (p : Nat) (x : Port) : (s.setPort p x).goneViews = s.goneViews := rfl
@[simp] theorem State.setPort_copyGone (p : Nat) (x : Port) : (s.setPort p x).copyGone = s.copyGone := rfl
@[simp] theorem State.setPort_tasks (p : Nat) (x : Port) : (s.setPort p x).tasks = s.tasks := rfl
@[simp] theorem State.setPort_taskSeq (p : Nat) (x : Port) : (s.setPort p x).taskSeq = s.taskSeq := rfl
@[simp] theorem State.setPort_groups (p : Nat) (x : Port) : (s.setPort p x).groups = s.groups := rfl
@[simp] theorem State.setPort_engs (p : Nat) (x : Port) : (s.setPort p x).engs = s.engs := rfl
@[simp] theorem State.setPort_cores (p : Nat) (x : Port) : (s.setPort p x).cores = s.cores := rfl
@[simp] theorem State.setPort_clus (p : Nat) (x : Port) : (s.setPort p x).clus = s.clus := rfl
@[simp] theorem State.setPort_chans (p : Nat) (x : Port) : (s.setPort p x).chans = s.chans := rfl
@[simp] theorem State.setPort_waits (p : Nat) (x : Port) : (s.setPort p x).waits = s.waits := rfl
@[simp] theorem State.setPort_arrivals (p : Nat) (x : Port) : (s.setPort p x).arrivals = s.arrivals := rfl
@[simp] theorem State.setPort_jobs (p : Nat) (x : Port) : (s.setPort p x).jobs = s.jobs := rfl
@[simp] theorem State.setPort_parts (p : Nat) (x : Port) : (s.setPort p x).parts = s.parts := rfl
@[simp] theorem State.setPort_power (p : Nat) (x : Port) : (s.setPort p x).power = s.power := rfl
@[simp] theorem State.setPort_edgeDraw (p : Nat) (x : Port) : (s.setPort p x).edgeDraw = s.edgeDraw := rfl
@[simp] theorem State.setPort_powerOver (p : Nat) (x : Port) : (s.setPort p x).powerOver = s.powerOver := rfl
@[simp] theorem State.setPort_grng (p : Nat) (x : Port) : (s.setPort p x).grng = s.grng := rfl
@[simp] theorem State.setPort_win (p : Nat) (x : Port) : (s.setPort p x).win = s.win := rfl
@[simp] theorem State.setPort_tithes (p : Nat) (x : Port) : (s.setPort p x).tithes = s.tithes := rfl
@[simp] theorem State.setPort_titheSeq (p : Nat) (x : Port) : (s.setPort p x).titheSeq = s.titheSeq := rfl
@[simp] theorem State.setPort_packetsOut (p : Nat) (x : Port) : (s.setPort p x).packetsOut = s.packetsOut := rfl
@[simp] theorem State.setPort_restore (p : Nat) (x : Port) : (s.setPort p x).restore = s.restore := rfl
@[simp] theorem State.setPort_gates (p : Nat) (x : Port) : (s.setPort p x).gates = s.gates := rfl
@[simp] theorem State.setPort_loop (p : Nat) (x : Port) : (s.setPort p x).loop = s.loop := rfl
@[simp] theorem State.setPort_beat (p : Nat) (x : Port) : (s.setPort p x).beat = s.beat := rfl
@[simp] theorem State.setPort_mbxWaits (p : Nat) (x : Port) : (s.setPort p x).mbxWaits = s.mbxWaits := rfl
@[simp] theorem State.setPort_mods (p : Nat) (x : Port) : (s.setPort p x).mods = s.mods := rfl
@[simp] theorem State.setPort_lostTags (p : Nat) (x : Port) : (s.setPort p x).lostTags = s.lostTags := rfl
@[simp] theorem State.setPort_hostLost (p : Nat) (x : Port) : (s.setPort p x).hostLost = s.hostLost := rfl
@[simp] theorem State.setPort_bootStage (p : Nat) (x : Port) : (s.setPort p x).bootStage = s.bootStage := rfl
@[simp] theorem State.setPort_stageWord (p : Nat) (x : Port) : (s.setPort p x).stageWord = s.stageWord := rfl
@[simp] theorem State.setPort_evHead (p : Nat) (x : Port) : (s.setPort p x).evHead = s.evHead := rfl
@[simp] theorem State.setPort_evTail (p : Nat) (x : Port) : (s.setPort p x).evTail = s.evTail := rfl
@[simp] theorem State.setPort_evLost (p : Nat) (x : Port) : (s.setPort p x).evLost = s.evLost := rfl
@[simp] theorem State.setPort_evOver (p : Nat) (x : Port) : (s.setPort p x).evOver = s.evOver := rfl
@[simp] theorem State.setPort_fw (p : Nat) (x : Port) : (s.setPort p x).fw = s.fw := rfl
@[simp] theorem State.setPort_cplq (p : Nat) (x : Port) : (s.setPort p x).cplq = s.cplq := rfl
@[simp] theorem State.setPort_sec (p : Nat) (x : Port) : (s.setPort p x).sec = s.sec := rfl
@[simp] theorem State.setPort_nv (p : Nat) (x : Port) : (s.setPort p x).nv = s.nv := rfl
@[simp] theorem State.setPort_shape (p : Nat) (x : Port) : (s.setPort p x).shape = s.shape := rfl
@[simp] theorem State.setPort_mesh (p : Nat) (x : Port) : (s.setPort p x).mesh = s.mesh := rfl
@[simp] theorem State.setPort_bring (p : Nat) (x : Port) : (s.setPort p x).bring = s.bring := rfl
@[simp] theorem State.setPort_shapeNew (p : Nat) (x : Port) : (s.setPort p x).shapeNew = s.shapeNew := rfl
@[simp] theorem State.setPort_coresUp (p : Nat) (x : Port) : (s.setPort p x).coresUp = s.coresUp := rfl
@[simp] theorem State.setPort_defects (p : Nat) (x : Port) : (s.setPort p x).defects = s.defects := rfl
@[simp] theorem State.setPort_fwTurn (p : Nat) (x : Port) : (s.setPort p x).fwTurn = s.fwTurn := rfl
@[simp] theorem State.setPort_seedPack (p : Nat) (x : Port) : (s.setPort p x).seedPack = s.seedPack := rfl
@[simp] theorem State.setPort_seedSets (p : Nat) (x : Port) : (s.setPort p x).seedSets = s.seedSets := rfl
@[simp] theorem State.setPort_minSvn (p : Nat) (x : Port) : (s.setPort p x).minSvn = s.minSvn := rfl
@[simp] theorem State.setPort_calDue (p : Nat) (x : Port) : (s.setPort p x).calDue = s.calDue := rfl
@[simp] theorem State.setPort_calLate (p : Nat) (x : Port) : (s.setPort p x).calLate = s.calLate := rfl
@[simp] theorem State.setPort_passedAt (p : Nat) (x : Port) : (s.setPort p x).passedAt = s.passedAt := rfl
@[simp] theorem State.setPort_testFirst (p : Nat) (x : Port) : (s.setPort p x).testFirst = s.testFirst := rfl
@[simp] theorem State.setPort_window_ (p : Nat) (x : Port) : (s.setPort p x).window_ = s.window_ := rfl
@[simp] theorem State.setPort_board (p : Nat) (x : Port) : (s.setPort p x).board = s.board := rfl

/-! `State.setGate`. -/

@[simp] theorem State.setGate_pending (g : Nat) (x : Gate) : (s.setGate g x).pending = s.pending := rfl
@[simp] theorem State.setGate_free (g : Nat) (x : Gate) : (s.setGate g x).free = s.free := rfl
@[simp] theorem State.setGate_outbox (g : Nat) (x : Gate) : (s.setGate g x).outbox = s.outbox := rfl
@[simp] theorem State.setGate_regs (g : Nat) (x : Gate) : (s.setGate g x).regs = s.regs := rfl
@[simp] theorem State.setGate_shadow (g : Nat) (x : Gate) : (s.setGate g x).shadow = s.shadow := rfl
@[simp] theorem State.setGate_suspects (g : Nat) (x : Gate) : (s.setGate g x).suspects = s.suspects := rfl
@[simp] theorem State.setGate_late (g : Nat) (x : Gate) : (s.setGate g x).late = s.late := rfl
@[simp] theorem State.setGate_ctrs (g : Nat) (x : Gate) : (s.setGate g x).ctrs = s.ctrs := rfl
@[simp] theorem State.setGate_snap (g : Nat) (x : Gate) : (s.setGate g x).snap = s.snap := rfl
@[simp] theorem State.setGate_snapBeat (g : Nat) (x : Gate) : (s.setGate g x).snapBeat = s.snapBeat := rfl
@[simp] theorem State.setGate_snapAsked (g : Nat) (x : Gate) : (s.setGate g x).snapAsked = s.snapAsked := rfl
@[simp] theorem State.setGate_rows (g : Nat) (x : Gate) : (s.setGate g x).rows = s.rows := rfl
@[simp] theorem State.setGate_lpddr (g : Nat) (x : Gate) : (s.setGate g x).lpddr = s.lpddr := rfl
@[simp] theorem State.setGate_checks (g : Nat) (x : Gate) : (s.setGate g x).checks = s.checks := rfl
@[simp] theorem State.setGate_lpPatrol (g : Nat) (x : Gate) : (s.setGate g x).lpPatrol = s.lpPatrol := rfl
@[simp] theorem State.setGate_window (g : Nat) (x : Gate) : (s.setGate g x).window = s.window := rfl
@[simp] theorem State.setGate_moves (g : Nat) (x : Gate) : (s.setGate g x).moves = s.moves := rfl
@[simp] theorem State.setGate_ceRows (g : Nat) (x : Gate) : (s.setGate g x).ceRows = s.ceRows := rfl
@[simp] theorem State.setGate_retiredRows (g : Nat) (x : Gate) : (s.setGate g x).retiredRows = s.retiredRows := rfl
@[simp] theorem State.setGate_copying (g : Nat) (x : Gate) : (s.setGate g x).copying = s.copying := rfl
@[simp] theorem State.setGate_epoch (g : Nat) (x : Gate) : (s.setGate g x).epoch = s.epoch := rfl
@[simp] theorem State.setGate_walk (g : Nat) (x : Gate) : (s.setGate g x).walk = s.walk := rfl
@[simp] theorem State.setGate_bringups (g : Nat) (x : Gate) : (s.setGate g x).bringups = s.bringups := rfl
@[simp] theorem State.setGate_seals (g : Nat) (x : Gate) : (s.setGate g x).seals = s.seals := rfl
@[simp] theorem State.setGate_pinned (g : Nat) (x : Gate) : (s.setGate g x).pinned = s.pinned := rfl
@[simp] theorem State.setGate_goneViews (g : Nat) (x : Gate) : (s.setGate g x).goneViews = s.goneViews := rfl
@[simp] theorem State.setGate_copyGone (g : Nat) (x : Gate) : (s.setGate g x).copyGone = s.copyGone := rfl
@[simp] theorem State.setGate_tasks (g : Nat) (x : Gate) : (s.setGate g x).tasks = s.tasks := rfl
@[simp] theorem State.setGate_taskSeq (g : Nat) (x : Gate) : (s.setGate g x).taskSeq = s.taskSeq := rfl
@[simp] theorem State.setGate_groups (g : Nat) (x : Gate) : (s.setGate g x).groups = s.groups := rfl
@[simp] theorem State.setGate_engs (g : Nat) (x : Gate) : (s.setGate g x).engs = s.engs := rfl
@[simp] theorem State.setGate_cores (g : Nat) (x : Gate) : (s.setGate g x).cores = s.cores := rfl
@[simp] theorem State.setGate_clus (g : Nat) (x : Gate) : (s.setGate g x).clus = s.clus := rfl
@[simp] theorem State.setGate_chans (g : Nat) (x : Gate) : (s.setGate g x).chans = s.chans := rfl
@[simp] theorem State.setGate_waits (g : Nat) (x : Gate) : (s.setGate g x).waits = s.waits := rfl
@[simp] theorem State.setGate_arrivals (g : Nat) (x : Gate) : (s.setGate g x).arrivals = s.arrivals := rfl
@[simp] theorem State.setGate_jobs (g : Nat) (x : Gate) : (s.setGate g x).jobs = s.jobs := rfl
@[simp] theorem State.setGate_parts (g : Nat) (x : Gate) : (s.setGate g x).parts = s.parts := rfl
@[simp] theorem State.setGate_power (g : Nat) (x : Gate) : (s.setGate g x).power = s.power := rfl
@[simp] theorem State.setGate_edgeDraw (g : Nat) (x : Gate) : (s.setGate g x).edgeDraw = s.edgeDraw := rfl
@[simp] theorem State.setGate_powerOver (g : Nat) (x : Gate) : (s.setGate g x).powerOver = s.powerOver := rfl
@[simp] theorem State.setGate_grng (g : Nat) (x : Gate) : (s.setGate g x).grng = s.grng := rfl
@[simp] theorem State.setGate_win (g : Nat) (x : Gate) : (s.setGate g x).win = s.win := rfl
@[simp] theorem State.setGate_tithes (g : Nat) (x : Gate) : (s.setGate g x).tithes = s.tithes := rfl
@[simp] theorem State.setGate_titheSeq (g : Nat) (x : Gate) : (s.setGate g x).titheSeq = s.titheSeq := rfl
@[simp] theorem State.setGate_packetsOut (g : Nat) (x : Gate) : (s.setGate g x).packetsOut = s.packetsOut := rfl
@[simp] theorem State.setGate_restore (g : Nat) (x : Gate) : (s.setGate g x).restore = s.restore := rfl
@[simp] theorem State.setGate_ports (g : Nat) (x : Gate) : (s.setGate g x).ports = s.ports := rfl
@[simp] theorem State.setGate_loop (g : Nat) (x : Gate) : (s.setGate g x).loop = s.loop := rfl
@[simp] theorem State.setGate_beat (g : Nat) (x : Gate) : (s.setGate g x).beat = s.beat := rfl
@[simp] theorem State.setGate_mbxWaits (g : Nat) (x : Gate) : (s.setGate g x).mbxWaits = s.mbxWaits := rfl
@[simp] theorem State.setGate_mods (g : Nat) (x : Gate) : (s.setGate g x).mods = s.mods := rfl
@[simp] theorem State.setGate_lostTags (g : Nat) (x : Gate) : (s.setGate g x).lostTags = s.lostTags := rfl
@[simp] theorem State.setGate_hostLost (g : Nat) (x : Gate) : (s.setGate g x).hostLost = s.hostLost := rfl
@[simp] theorem State.setGate_bootStage (g : Nat) (x : Gate) : (s.setGate g x).bootStage = s.bootStage := rfl
@[simp] theorem State.setGate_stageWord (g : Nat) (x : Gate) : (s.setGate g x).stageWord = s.stageWord := rfl
@[simp] theorem State.setGate_evHead (g : Nat) (x : Gate) : (s.setGate g x).evHead = s.evHead := rfl
@[simp] theorem State.setGate_evTail (g : Nat) (x : Gate) : (s.setGate g x).evTail = s.evTail := rfl
@[simp] theorem State.setGate_evLost (g : Nat) (x : Gate) : (s.setGate g x).evLost = s.evLost := rfl
@[simp] theorem State.setGate_evOver (g : Nat) (x : Gate) : (s.setGate g x).evOver = s.evOver := rfl
@[simp] theorem State.setGate_fw (g : Nat) (x : Gate) : (s.setGate g x).fw = s.fw := rfl
@[simp] theorem State.setGate_cplq (g : Nat) (x : Gate) : (s.setGate g x).cplq = s.cplq := rfl
@[simp] theorem State.setGate_sec (g : Nat) (x : Gate) : (s.setGate g x).sec = s.sec := rfl
@[simp] theorem State.setGate_nv (g : Nat) (x : Gate) : (s.setGate g x).nv = s.nv := rfl
@[simp] theorem State.setGate_shape (g : Nat) (x : Gate) : (s.setGate g x).shape = s.shape := rfl
@[simp] theorem State.setGate_mesh (g : Nat) (x : Gate) : (s.setGate g x).mesh = s.mesh := rfl
@[simp] theorem State.setGate_bring (g : Nat) (x : Gate) : (s.setGate g x).bring = s.bring := rfl
@[simp] theorem State.setGate_shapeNew (g : Nat) (x : Gate) : (s.setGate g x).shapeNew = s.shapeNew := rfl
@[simp] theorem State.setGate_coresUp (g : Nat) (x : Gate) : (s.setGate g x).coresUp = s.coresUp := rfl
@[simp] theorem State.setGate_defects (g : Nat) (x : Gate) : (s.setGate g x).defects = s.defects := rfl
@[simp] theorem State.setGate_fwTurn (g : Nat) (x : Gate) : (s.setGate g x).fwTurn = s.fwTurn := rfl
@[simp] theorem State.setGate_seedPack (g : Nat) (x : Gate) : (s.setGate g x).seedPack = s.seedPack := rfl
@[simp] theorem State.setGate_seedSets (g : Nat) (x : Gate) : (s.setGate g x).seedSets = s.seedSets := rfl
@[simp] theorem State.setGate_minSvn (g : Nat) (x : Gate) : (s.setGate g x).minSvn = s.minSvn := rfl
@[simp] theorem State.setGate_calDue (g : Nat) (x : Gate) : (s.setGate g x).calDue = s.calDue := rfl
@[simp] theorem State.setGate_calLate (g : Nat) (x : Gate) : (s.setGate g x).calLate = s.calLate := rfl
@[simp] theorem State.setGate_passedAt (g : Nat) (x : Gate) : (s.setGate g x).passedAt = s.passedAt := rfl
@[simp] theorem State.setGate_testFirst (g : Nat) (x : Gate) : (s.setGate g x).testFirst = s.testFirst := rfl
@[simp] theorem State.setGate_window_ (g : Nat) (x : Gate) : (s.setGate g x).window_ = s.window_ := rfl
@[simp] theorem State.setGate_board (g : Nat) (x : Gate) : (s.setGate g x).board = s.board := rfl

/-! `State.setDie`. -/

@[simp] theorem State.setDie_pending (d : Nat) (x : DiePower) : (s.setDie d x).pending = s.pending := rfl
@[simp] theorem State.setDie_free (d : Nat) (x : DiePower) : (s.setDie d x).free = s.free := rfl
@[simp] theorem State.setDie_outbox (d : Nat) (x : DiePower) : (s.setDie d x).outbox = s.outbox := rfl
@[simp] theorem State.setDie_regs (d : Nat) (x : DiePower) : (s.setDie d x).regs = s.regs := rfl
@[simp] theorem State.setDie_shadow (d : Nat) (x : DiePower) : (s.setDie d x).shadow = s.shadow := rfl
@[simp] theorem State.setDie_suspects (d : Nat) (x : DiePower) : (s.setDie d x).suspects = s.suspects := rfl
@[simp] theorem State.setDie_late (d : Nat) (x : DiePower) : (s.setDie d x).late = s.late := rfl
@[simp] theorem State.setDie_ctrs (d : Nat) (x : DiePower) : (s.setDie d x).ctrs = s.ctrs := rfl
@[simp] theorem State.setDie_snap (d : Nat) (x : DiePower) : (s.setDie d x).snap = s.snap := rfl
@[simp] theorem State.setDie_snapBeat (d : Nat) (x : DiePower) : (s.setDie d x).snapBeat = s.snapBeat := rfl
@[simp] theorem State.setDie_snapAsked (d : Nat) (x : DiePower) : (s.setDie d x).snapAsked = s.snapAsked := rfl
@[simp] theorem State.setDie_rows (d : Nat) (x : DiePower) : (s.setDie d x).rows = s.rows := rfl
@[simp] theorem State.setDie_lpddr (d : Nat) (x : DiePower) : (s.setDie d x).lpddr = s.lpddr := rfl
@[simp] theorem State.setDie_checks (d : Nat) (x : DiePower) : (s.setDie d x).checks = s.checks := rfl
@[simp] theorem State.setDie_lpPatrol (d : Nat) (x : DiePower) : (s.setDie d x).lpPatrol = s.lpPatrol := rfl
@[simp] theorem State.setDie_window (d : Nat) (x : DiePower) : (s.setDie d x).window = s.window := rfl
@[simp] theorem State.setDie_moves (d : Nat) (x : DiePower) : (s.setDie d x).moves = s.moves := rfl
@[simp] theorem State.setDie_ceRows (d : Nat) (x : DiePower) : (s.setDie d x).ceRows = s.ceRows := rfl
@[simp] theorem State.setDie_retiredRows (d : Nat) (x : DiePower) : (s.setDie d x).retiredRows = s.retiredRows := rfl
@[simp] theorem State.setDie_copying (d : Nat) (x : DiePower) : (s.setDie d x).copying = s.copying := rfl
@[simp] theorem State.setDie_epoch (d : Nat) (x : DiePower) : (s.setDie d x).epoch = s.epoch := rfl
@[simp] theorem State.setDie_walk (d : Nat) (x : DiePower) : (s.setDie d x).walk = s.walk := rfl
@[simp] theorem State.setDie_bringups (d : Nat) (x : DiePower) : (s.setDie d x).bringups = s.bringups := rfl
@[simp] theorem State.setDie_seals (d : Nat) (x : DiePower) : (s.setDie d x).seals = s.seals := rfl
@[simp] theorem State.setDie_pinned (d : Nat) (x : DiePower) : (s.setDie d x).pinned = s.pinned := rfl
@[simp] theorem State.setDie_goneViews (d : Nat) (x : DiePower) : (s.setDie d x).goneViews = s.goneViews := rfl
@[simp] theorem State.setDie_copyGone (d : Nat) (x : DiePower) : (s.setDie d x).copyGone = s.copyGone := rfl
@[simp] theorem State.setDie_tasks (d : Nat) (x : DiePower) : (s.setDie d x).tasks = s.tasks := rfl
@[simp] theorem State.setDie_taskSeq (d : Nat) (x : DiePower) : (s.setDie d x).taskSeq = s.taskSeq := rfl
@[simp] theorem State.setDie_groups (d : Nat) (x : DiePower) : (s.setDie d x).groups = s.groups := rfl
@[simp] theorem State.setDie_engs (d : Nat) (x : DiePower) : (s.setDie d x).engs = s.engs := rfl
@[simp] theorem State.setDie_cores (d : Nat) (x : DiePower) : (s.setDie d x).cores = s.cores := rfl
@[simp] theorem State.setDie_clus (d : Nat) (x : DiePower) : (s.setDie d x).clus = s.clus := rfl
@[simp] theorem State.setDie_chans (d : Nat) (x : DiePower) : (s.setDie d x).chans = s.chans := rfl
@[simp] theorem State.setDie_waits (d : Nat) (x : DiePower) : (s.setDie d x).waits = s.waits := rfl
@[simp] theorem State.setDie_arrivals (d : Nat) (x : DiePower) : (s.setDie d x).arrivals = s.arrivals := rfl
@[simp] theorem State.setDie_jobs (d : Nat) (x : DiePower) : (s.setDie d x).jobs = s.jobs := rfl
@[simp] theorem State.setDie_parts (d : Nat) (x : DiePower) : (s.setDie d x).parts = s.parts := rfl
@[simp] theorem State.setDie_edgeDraw (d : Nat) (x : DiePower) : (s.setDie d x).edgeDraw = s.edgeDraw := rfl
@[simp] theorem State.setDie_powerOver (d : Nat) (x : DiePower) : (s.setDie d x).powerOver = s.powerOver := rfl
@[simp] theorem State.setDie_grng (d : Nat) (x : DiePower) : (s.setDie d x).grng = s.grng := rfl
@[simp] theorem State.setDie_win (d : Nat) (x : DiePower) : (s.setDie d x).win = s.win := rfl
@[simp] theorem State.setDie_tithes (d : Nat) (x : DiePower) : (s.setDie d x).tithes = s.tithes := rfl
@[simp] theorem State.setDie_titheSeq (d : Nat) (x : DiePower) : (s.setDie d x).titheSeq = s.titheSeq := rfl
@[simp] theorem State.setDie_packetsOut (d : Nat) (x : DiePower) : (s.setDie d x).packetsOut = s.packetsOut := rfl
@[simp] theorem State.setDie_restore (d : Nat) (x : DiePower) : (s.setDie d x).restore = s.restore := rfl
@[simp] theorem State.setDie_ports (d : Nat) (x : DiePower) : (s.setDie d x).ports = s.ports := rfl
@[simp] theorem State.setDie_gates (d : Nat) (x : DiePower) : (s.setDie d x).gates = s.gates := rfl
@[simp] theorem State.setDie_loop (d : Nat) (x : DiePower) : (s.setDie d x).loop = s.loop := rfl
@[simp] theorem State.setDie_beat (d : Nat) (x : DiePower) : (s.setDie d x).beat = s.beat := rfl
@[simp] theorem State.setDie_mbxWaits (d : Nat) (x : DiePower) : (s.setDie d x).mbxWaits = s.mbxWaits := rfl
@[simp] theorem State.setDie_mods (d : Nat) (x : DiePower) : (s.setDie d x).mods = s.mods := rfl
@[simp] theorem State.setDie_lostTags (d : Nat) (x : DiePower) : (s.setDie d x).lostTags = s.lostTags := rfl
@[simp] theorem State.setDie_hostLost (d : Nat) (x : DiePower) : (s.setDie d x).hostLost = s.hostLost := rfl
@[simp] theorem State.setDie_bootStage (d : Nat) (x : DiePower) : (s.setDie d x).bootStage = s.bootStage := rfl
@[simp] theorem State.setDie_stageWord (d : Nat) (x : DiePower) : (s.setDie d x).stageWord = s.stageWord := rfl
@[simp] theorem State.setDie_evHead (d : Nat) (x : DiePower) : (s.setDie d x).evHead = s.evHead := rfl
@[simp] theorem State.setDie_evTail (d : Nat) (x : DiePower) : (s.setDie d x).evTail = s.evTail := rfl
@[simp] theorem State.setDie_evLost (d : Nat) (x : DiePower) : (s.setDie d x).evLost = s.evLost := rfl
@[simp] theorem State.setDie_evOver (d : Nat) (x : DiePower) : (s.setDie d x).evOver = s.evOver := rfl
@[simp] theorem State.setDie_fw (d : Nat) (x : DiePower) : (s.setDie d x).fw = s.fw := rfl
@[simp] theorem State.setDie_cplq (d : Nat) (x : DiePower) : (s.setDie d x).cplq = s.cplq := rfl
@[simp] theorem State.setDie_sec (d : Nat) (x : DiePower) : (s.setDie d x).sec = s.sec := rfl
@[simp] theorem State.setDie_nv (d : Nat) (x : DiePower) : (s.setDie d x).nv = s.nv := rfl
@[simp] theorem State.setDie_shape (d : Nat) (x : DiePower) : (s.setDie d x).shape = s.shape := rfl
@[simp] theorem State.setDie_mesh (d : Nat) (x : DiePower) : (s.setDie d x).mesh = s.mesh := rfl
@[simp] theorem State.setDie_bring (d : Nat) (x : DiePower) : (s.setDie d x).bring = s.bring := rfl
@[simp] theorem State.setDie_shapeNew (d : Nat) (x : DiePower) : (s.setDie d x).shapeNew = s.shapeNew := rfl
@[simp] theorem State.setDie_coresUp (d : Nat) (x : DiePower) : (s.setDie d x).coresUp = s.coresUp := rfl
@[simp] theorem State.setDie_defects (d : Nat) (x : DiePower) : (s.setDie d x).defects = s.defects := rfl
@[simp] theorem State.setDie_fwTurn (d : Nat) (x : DiePower) : (s.setDie d x).fwTurn = s.fwTurn := rfl
@[simp] theorem State.setDie_seedPack (d : Nat) (x : DiePower) : (s.setDie d x).seedPack = s.seedPack := rfl
@[simp] theorem State.setDie_seedSets (d : Nat) (x : DiePower) : (s.setDie d x).seedSets = s.seedSets := rfl
@[simp] theorem State.setDie_minSvn (d : Nat) (x : DiePower) : (s.setDie d x).minSvn = s.minSvn := rfl
@[simp] theorem State.setDie_calDue (d : Nat) (x : DiePower) : (s.setDie d x).calDue = s.calDue := rfl
@[simp] theorem State.setDie_calLate (d : Nat) (x : DiePower) : (s.setDie d x).calLate = s.calLate := rfl
@[simp] theorem State.setDie_passedAt (d : Nat) (x : DiePower) : (s.setDie d x).passedAt = s.passedAt := rfl
@[simp] theorem State.setDie_testFirst (d : Nat) (x : DiePower) : (s.setDie d x).testFirst = s.testFirst := rfl
@[simp] theorem State.setDie_window_ (d : Nat) (x : DiePower) : (s.setDie d x).window_ = s.window_ := rfl
@[simp] theorem State.setDie_board (d : Nat) (x : DiePower) : (s.setDie d x).board = s.board := rfl

/-! `State.setTask`. -/

@[simp] theorem State.setTask_pending (t : Task) : (s.setTask t).pending = s.pending := rfl
@[simp] theorem State.setTask_free (t : Task) : (s.setTask t).free = s.free := rfl
@[simp] theorem State.setTask_outbox (t : Task) : (s.setTask t).outbox = s.outbox := rfl
@[simp] theorem State.setTask_regs (t : Task) : (s.setTask t).regs = s.regs := rfl
@[simp] theorem State.setTask_shadow (t : Task) : (s.setTask t).shadow = s.shadow := rfl
@[simp] theorem State.setTask_suspects (t : Task) : (s.setTask t).suspects = s.suspects := rfl
@[simp] theorem State.setTask_late (t : Task) : (s.setTask t).late = s.late := rfl
@[simp] theorem State.setTask_ctrs (t : Task) : (s.setTask t).ctrs = s.ctrs := rfl
@[simp] theorem State.setTask_snap (t : Task) : (s.setTask t).snap = s.snap := rfl
@[simp] theorem State.setTask_snapBeat (t : Task) : (s.setTask t).snapBeat = s.snapBeat := rfl
@[simp] theorem State.setTask_snapAsked (t : Task) : (s.setTask t).snapAsked = s.snapAsked := rfl
@[simp] theorem State.setTask_rows (t : Task) : (s.setTask t).rows = s.rows := rfl
@[simp] theorem State.setTask_lpddr (t : Task) : (s.setTask t).lpddr = s.lpddr := rfl
@[simp] theorem State.setTask_checks (t : Task) : (s.setTask t).checks = s.checks := rfl
@[simp] theorem State.setTask_lpPatrol (t : Task) : (s.setTask t).lpPatrol = s.lpPatrol := rfl
@[simp] theorem State.setTask_window (t : Task) : (s.setTask t).window = s.window := rfl
@[simp] theorem State.setTask_moves (t : Task) : (s.setTask t).moves = s.moves := rfl
@[simp] theorem State.setTask_ceRows (t : Task) : (s.setTask t).ceRows = s.ceRows := rfl
@[simp] theorem State.setTask_retiredRows (t : Task) : (s.setTask t).retiredRows = s.retiredRows := rfl
@[simp] theorem State.setTask_copying (t : Task) : (s.setTask t).copying = s.copying := rfl
@[simp] theorem State.setTask_epoch (t : Task) : (s.setTask t).epoch = s.epoch := rfl
@[simp] theorem State.setTask_walk (t : Task) : (s.setTask t).walk = s.walk := rfl
@[simp] theorem State.setTask_bringups (t : Task) : (s.setTask t).bringups = s.bringups := rfl
@[simp] theorem State.setTask_seals (t : Task) : (s.setTask t).seals = s.seals := rfl
@[simp] theorem State.setTask_pinned (t : Task) : (s.setTask t).pinned = s.pinned := rfl
@[simp] theorem State.setTask_goneViews (t : Task) : (s.setTask t).goneViews = s.goneViews := rfl
@[simp] theorem State.setTask_copyGone (t : Task) : (s.setTask t).copyGone = s.copyGone := rfl
@[simp] theorem State.setTask_taskSeq (t : Task) : (s.setTask t).taskSeq = s.taskSeq := rfl
@[simp] theorem State.setTask_groups (t : Task) : (s.setTask t).groups = s.groups := rfl
@[simp] theorem State.setTask_engs (t : Task) : (s.setTask t).engs = s.engs := rfl
@[simp] theorem State.setTask_cores (t : Task) : (s.setTask t).cores = s.cores := rfl
@[simp] theorem State.setTask_clus (t : Task) : (s.setTask t).clus = s.clus := rfl
@[simp] theorem State.setTask_chans (t : Task) : (s.setTask t).chans = s.chans := rfl
@[simp] theorem State.setTask_waits (t : Task) : (s.setTask t).waits = s.waits := rfl
@[simp] theorem State.setTask_arrivals (t : Task) : (s.setTask t).arrivals = s.arrivals := rfl
@[simp] theorem State.setTask_jobs (t : Task) : (s.setTask t).jobs = s.jobs := rfl
@[simp] theorem State.setTask_parts (t : Task) : (s.setTask t).parts = s.parts := rfl
@[simp] theorem State.setTask_power (t : Task) : (s.setTask t).power = s.power := rfl
@[simp] theorem State.setTask_edgeDraw (t : Task) : (s.setTask t).edgeDraw = s.edgeDraw := rfl
@[simp] theorem State.setTask_powerOver (t : Task) : (s.setTask t).powerOver = s.powerOver := rfl
@[simp] theorem State.setTask_grng (t : Task) : (s.setTask t).grng = s.grng := rfl
@[simp] theorem State.setTask_win (t : Task) : (s.setTask t).win = s.win := rfl
@[simp] theorem State.setTask_tithes (t : Task) : (s.setTask t).tithes = s.tithes := rfl
@[simp] theorem State.setTask_titheSeq (t : Task) : (s.setTask t).titheSeq = s.titheSeq := rfl
@[simp] theorem State.setTask_packetsOut (t : Task) : (s.setTask t).packetsOut = s.packetsOut := rfl
@[simp] theorem State.setTask_restore (t : Task) : (s.setTask t).restore = s.restore := rfl
@[simp] theorem State.setTask_ports (t : Task) : (s.setTask t).ports = s.ports := rfl
@[simp] theorem State.setTask_gates (t : Task) : (s.setTask t).gates = s.gates := rfl
@[simp] theorem State.setTask_loop (t : Task) : (s.setTask t).loop = s.loop := rfl
@[simp] theorem State.setTask_beat (t : Task) : (s.setTask t).beat = s.beat := rfl
@[simp] theorem State.setTask_mbxWaits (t : Task) : (s.setTask t).mbxWaits = s.mbxWaits := rfl
@[simp] theorem State.setTask_mods (t : Task) : (s.setTask t).mods = s.mods := rfl
@[simp] theorem State.setTask_lostTags (t : Task) : (s.setTask t).lostTags = s.lostTags := rfl
@[simp] theorem State.setTask_hostLost (t : Task) : (s.setTask t).hostLost = s.hostLost := rfl
@[simp] theorem State.setTask_bootStage (t : Task) : (s.setTask t).bootStage = s.bootStage := rfl
@[simp] theorem State.setTask_stageWord (t : Task) : (s.setTask t).stageWord = s.stageWord := rfl
@[simp] theorem State.setTask_evHead (t : Task) : (s.setTask t).evHead = s.evHead := rfl
@[simp] theorem State.setTask_evTail (t : Task) : (s.setTask t).evTail = s.evTail := rfl
@[simp] theorem State.setTask_evLost (t : Task) : (s.setTask t).evLost = s.evLost := rfl
@[simp] theorem State.setTask_evOver (t : Task) : (s.setTask t).evOver = s.evOver := rfl
@[simp] theorem State.setTask_fw (t : Task) : (s.setTask t).fw = s.fw := rfl
@[simp] theorem State.setTask_cplq (t : Task) : (s.setTask t).cplq = s.cplq := rfl
@[simp] theorem State.setTask_sec (t : Task) : (s.setTask t).sec = s.sec := rfl
@[simp] theorem State.setTask_nv (t : Task) : (s.setTask t).nv = s.nv := rfl
@[simp] theorem State.setTask_shape (t : Task) : (s.setTask t).shape = s.shape := rfl
@[simp] theorem State.setTask_mesh (t : Task) : (s.setTask t).mesh = s.mesh := rfl
@[simp] theorem State.setTask_bring (t : Task) : (s.setTask t).bring = s.bring := rfl
@[simp] theorem State.setTask_shapeNew (t : Task) : (s.setTask t).shapeNew = s.shapeNew := rfl
@[simp] theorem State.setTask_coresUp (t : Task) : (s.setTask t).coresUp = s.coresUp := rfl
@[simp] theorem State.setTask_defects (t : Task) : (s.setTask t).defects = s.defects := rfl
@[simp] theorem State.setTask_fwTurn (t : Task) : (s.setTask t).fwTurn = s.fwTurn := rfl
@[simp] theorem State.setTask_seedPack (t : Task) : (s.setTask t).seedPack = s.seedPack := rfl
@[simp] theorem State.setTask_seedSets (t : Task) : (s.setTask t).seedSets = s.seedSets := rfl
@[simp] theorem State.setTask_minSvn (t : Task) : (s.setTask t).minSvn = s.minSvn := rfl
@[simp] theorem State.setTask_calDue (t : Task) : (s.setTask t).calDue = s.calDue := rfl
@[simp] theorem State.setTask_calLate (t : Task) : (s.setTask t).calLate = s.calLate := rfl
@[simp] theorem State.setTask_passedAt (t : Task) : (s.setTask t).passedAt = s.passedAt := rfl
@[simp] theorem State.setTask_testFirst (t : Task) : (s.setTask t).testFirst = s.testFirst := rfl
@[simp] theorem State.setTask_window_ (t : Task) : (s.setTask t).window_ = s.window_ := rfl
@[simp] theorem State.setTask_board (t : Task) : (s.setTask t).board = s.board := rfl

/-! `State.modTask`. -/

@[simp] theorem State.modTask_pending (i : Nat) (f : Task → Task) : (s.modTask i f).pending = s.pending := rfl
@[simp] theorem State.modTask_free (i : Nat) (f : Task → Task) : (s.modTask i f).free = s.free := rfl
@[simp] theorem State.modTask_outbox (i : Nat) (f : Task → Task) : (s.modTask i f).outbox = s.outbox := rfl
@[simp] theorem State.modTask_regs (i : Nat) (f : Task → Task) : (s.modTask i f).regs = s.regs := rfl
@[simp] theorem State.modTask_shadow (i : Nat) (f : Task → Task) : (s.modTask i f).shadow = s.shadow := rfl
@[simp] theorem State.modTask_suspects (i : Nat) (f : Task → Task) : (s.modTask i f).suspects = s.suspects := rfl
@[simp] theorem State.modTask_late (i : Nat) (f : Task → Task) : (s.modTask i f).late = s.late := rfl
@[simp] theorem State.modTask_ctrs (i : Nat) (f : Task → Task) : (s.modTask i f).ctrs = s.ctrs := rfl
@[simp] theorem State.modTask_snap (i : Nat) (f : Task → Task) : (s.modTask i f).snap = s.snap := rfl
@[simp] theorem State.modTask_snapBeat (i : Nat) (f : Task → Task) : (s.modTask i f).snapBeat = s.snapBeat := rfl
@[simp] theorem State.modTask_snapAsked (i : Nat) (f : Task → Task) : (s.modTask i f).snapAsked = s.snapAsked := rfl
@[simp] theorem State.modTask_rows (i : Nat) (f : Task → Task) : (s.modTask i f).rows = s.rows := rfl
@[simp] theorem State.modTask_lpddr (i : Nat) (f : Task → Task) : (s.modTask i f).lpddr = s.lpddr := rfl
@[simp] theorem State.modTask_checks (i : Nat) (f : Task → Task) : (s.modTask i f).checks = s.checks := rfl
@[simp] theorem State.modTask_lpPatrol (i : Nat) (f : Task → Task) : (s.modTask i f).lpPatrol = s.lpPatrol := rfl
@[simp] theorem State.modTask_window (i : Nat) (f : Task → Task) : (s.modTask i f).window = s.window := rfl
@[simp] theorem State.modTask_moves (i : Nat) (f : Task → Task) : (s.modTask i f).moves = s.moves := rfl
@[simp] theorem State.modTask_ceRows (i : Nat) (f : Task → Task) : (s.modTask i f).ceRows = s.ceRows := rfl
@[simp] theorem State.modTask_retiredRows (i : Nat) (f : Task → Task) : (s.modTask i f).retiredRows = s.retiredRows := rfl
@[simp] theorem State.modTask_copying (i : Nat) (f : Task → Task) : (s.modTask i f).copying = s.copying := rfl
@[simp] theorem State.modTask_epoch (i : Nat) (f : Task → Task) : (s.modTask i f).epoch = s.epoch := rfl
@[simp] theorem State.modTask_walk (i : Nat) (f : Task → Task) : (s.modTask i f).walk = s.walk := rfl
@[simp] theorem State.modTask_bringups (i : Nat) (f : Task → Task) : (s.modTask i f).bringups = s.bringups := rfl
@[simp] theorem State.modTask_seals (i : Nat) (f : Task → Task) : (s.modTask i f).seals = s.seals := rfl
@[simp] theorem State.modTask_pinned (i : Nat) (f : Task → Task) : (s.modTask i f).pinned = s.pinned := rfl
@[simp] theorem State.modTask_goneViews (i : Nat) (f : Task → Task) : (s.modTask i f).goneViews = s.goneViews := rfl
@[simp] theorem State.modTask_copyGone (i : Nat) (f : Task → Task) : (s.modTask i f).copyGone = s.copyGone := rfl
@[simp] theorem State.modTask_taskSeq (i : Nat) (f : Task → Task) : (s.modTask i f).taskSeq = s.taskSeq := rfl
@[simp] theorem State.modTask_groups (i : Nat) (f : Task → Task) : (s.modTask i f).groups = s.groups := rfl
@[simp] theorem State.modTask_engs (i : Nat) (f : Task → Task) : (s.modTask i f).engs = s.engs := rfl
@[simp] theorem State.modTask_cores (i : Nat) (f : Task → Task) : (s.modTask i f).cores = s.cores := rfl
@[simp] theorem State.modTask_clus (i : Nat) (f : Task → Task) : (s.modTask i f).clus = s.clus := rfl
@[simp] theorem State.modTask_chans (i : Nat) (f : Task → Task) : (s.modTask i f).chans = s.chans := rfl
@[simp] theorem State.modTask_waits (i : Nat) (f : Task → Task) : (s.modTask i f).waits = s.waits := rfl
@[simp] theorem State.modTask_arrivals (i : Nat) (f : Task → Task) : (s.modTask i f).arrivals = s.arrivals := rfl
@[simp] theorem State.modTask_jobs (i : Nat) (f : Task → Task) : (s.modTask i f).jobs = s.jobs := rfl
@[simp] theorem State.modTask_parts (i : Nat) (f : Task → Task) : (s.modTask i f).parts = s.parts := rfl
@[simp] theorem State.modTask_power (i : Nat) (f : Task → Task) : (s.modTask i f).power = s.power := rfl
@[simp] theorem State.modTask_edgeDraw (i : Nat) (f : Task → Task) : (s.modTask i f).edgeDraw = s.edgeDraw := rfl
@[simp] theorem State.modTask_powerOver (i : Nat) (f : Task → Task) : (s.modTask i f).powerOver = s.powerOver := rfl
@[simp] theorem State.modTask_grng (i : Nat) (f : Task → Task) : (s.modTask i f).grng = s.grng := rfl
@[simp] theorem State.modTask_win (i : Nat) (f : Task → Task) : (s.modTask i f).win = s.win := rfl
@[simp] theorem State.modTask_tithes (i : Nat) (f : Task → Task) : (s.modTask i f).tithes = s.tithes := rfl
@[simp] theorem State.modTask_titheSeq (i : Nat) (f : Task → Task) : (s.modTask i f).titheSeq = s.titheSeq := rfl
@[simp] theorem State.modTask_packetsOut (i : Nat) (f : Task → Task) : (s.modTask i f).packetsOut = s.packetsOut := rfl
@[simp] theorem State.modTask_restore (i : Nat) (f : Task → Task) : (s.modTask i f).restore = s.restore := rfl
@[simp] theorem State.modTask_ports (i : Nat) (f : Task → Task) : (s.modTask i f).ports = s.ports := rfl
@[simp] theorem State.modTask_gates (i : Nat) (f : Task → Task) : (s.modTask i f).gates = s.gates := rfl
@[simp] theorem State.modTask_loop (i : Nat) (f : Task → Task) : (s.modTask i f).loop = s.loop := rfl
@[simp] theorem State.modTask_beat (i : Nat) (f : Task → Task) : (s.modTask i f).beat = s.beat := rfl
@[simp] theorem State.modTask_mbxWaits (i : Nat) (f : Task → Task) : (s.modTask i f).mbxWaits = s.mbxWaits := rfl
@[simp] theorem State.modTask_mods (i : Nat) (f : Task → Task) : (s.modTask i f).mods = s.mods := rfl
@[simp] theorem State.modTask_lostTags (i : Nat) (f : Task → Task) : (s.modTask i f).lostTags = s.lostTags := rfl
@[simp] theorem State.modTask_hostLost (i : Nat) (f : Task → Task) : (s.modTask i f).hostLost = s.hostLost := rfl
@[simp] theorem State.modTask_bootStage (i : Nat) (f : Task → Task) : (s.modTask i f).bootStage = s.bootStage := rfl
@[simp] theorem State.modTask_stageWord (i : Nat) (f : Task → Task) : (s.modTask i f).stageWord = s.stageWord := rfl
@[simp] theorem State.modTask_evHead (i : Nat) (f : Task → Task) : (s.modTask i f).evHead = s.evHead := rfl
@[simp] theorem State.modTask_evTail (i : Nat) (f : Task → Task) : (s.modTask i f).evTail = s.evTail := rfl
@[simp] theorem State.modTask_evLost (i : Nat) (f : Task → Task) : (s.modTask i f).evLost = s.evLost := rfl
@[simp] theorem State.modTask_evOver (i : Nat) (f : Task → Task) : (s.modTask i f).evOver = s.evOver := rfl
@[simp] theorem State.modTask_fw (i : Nat) (f : Task → Task) : (s.modTask i f).fw = s.fw := rfl
@[simp] theorem State.modTask_cplq (i : Nat) (f : Task → Task) : (s.modTask i f).cplq = s.cplq := rfl
@[simp] theorem State.modTask_sec (i : Nat) (f : Task → Task) : (s.modTask i f).sec = s.sec := rfl
@[simp] theorem State.modTask_nv (i : Nat) (f : Task → Task) : (s.modTask i f).nv = s.nv := rfl
@[simp] theorem State.modTask_shape (i : Nat) (f : Task → Task) : (s.modTask i f).shape = s.shape := rfl
@[simp] theorem State.modTask_mesh (i : Nat) (f : Task → Task) : (s.modTask i f).mesh = s.mesh := rfl
@[simp] theorem State.modTask_bring (i : Nat) (f : Task → Task) : (s.modTask i f).bring = s.bring := rfl
@[simp] theorem State.modTask_shapeNew (i : Nat) (f : Task → Task) : (s.modTask i f).shapeNew = s.shapeNew := rfl
@[simp] theorem State.modTask_coresUp (i : Nat) (f : Task → Task) : (s.modTask i f).coresUp = s.coresUp := rfl
@[simp] theorem State.modTask_defects (i : Nat) (f : Task → Task) : (s.modTask i f).defects = s.defects := rfl
@[simp] theorem State.modTask_fwTurn (i : Nat) (f : Task → Task) : (s.modTask i f).fwTurn = s.fwTurn := rfl
@[simp] theorem State.modTask_seedPack (i : Nat) (f : Task → Task) : (s.modTask i f).seedPack = s.seedPack := rfl
@[simp] theorem State.modTask_seedSets (i : Nat) (f : Task → Task) : (s.modTask i f).seedSets = s.seedSets := rfl
@[simp] theorem State.modTask_minSvn (i : Nat) (f : Task → Task) : (s.modTask i f).minSvn = s.minSvn := rfl
@[simp] theorem State.modTask_calDue (i : Nat) (f : Task → Task) : (s.modTask i f).calDue = s.calDue := rfl
@[simp] theorem State.modTask_calLate (i : Nat) (f : Task → Task) : (s.modTask i f).calLate = s.calLate := rfl
@[simp] theorem State.modTask_passedAt (i : Nat) (f : Task → Task) : (s.modTask i f).passedAt = s.passedAt := rfl
@[simp] theorem State.modTask_testFirst (i : Nat) (f : Task → Task) : (s.modTask i f).testFirst = s.testFirst := rfl
@[simp] theorem State.modTask_window_ (i : Nat) (f : Task → Task) : (s.modTask i f).window_ = s.window_ := rfl
@[simp] theorem State.modTask_board (i : Nat) (f : Task → Task) : (s.modTask i f).board = s.board := rfl

/-! `State.dropTask`. -/

@[simp] theorem State.dropTask_pending (i : Nat) : (s.dropTask i).pending = s.pending := rfl
@[simp] theorem State.dropTask_free (i : Nat) : (s.dropTask i).free = s.free := rfl
@[simp] theorem State.dropTask_outbox (i : Nat) : (s.dropTask i).outbox = s.outbox := rfl
@[simp] theorem State.dropTask_regs (i : Nat) : (s.dropTask i).regs = s.regs := rfl
@[simp] theorem State.dropTask_shadow (i : Nat) : (s.dropTask i).shadow = s.shadow := rfl
@[simp] theorem State.dropTask_suspects (i : Nat) : (s.dropTask i).suspects = s.suspects := rfl
@[simp] theorem State.dropTask_late (i : Nat) : (s.dropTask i).late = s.late := rfl
@[simp] theorem State.dropTask_ctrs (i : Nat) : (s.dropTask i).ctrs = s.ctrs := rfl
@[simp] theorem State.dropTask_snap (i : Nat) : (s.dropTask i).snap = s.snap := rfl
@[simp] theorem State.dropTask_snapBeat (i : Nat) : (s.dropTask i).snapBeat = s.snapBeat := rfl
@[simp] theorem State.dropTask_snapAsked (i : Nat) : (s.dropTask i).snapAsked = s.snapAsked := rfl
@[simp] theorem State.dropTask_rows (i : Nat) : (s.dropTask i).rows = s.rows := rfl
@[simp] theorem State.dropTask_lpddr (i : Nat) : (s.dropTask i).lpddr = s.lpddr := rfl
@[simp] theorem State.dropTask_checks (i : Nat) : (s.dropTask i).checks = s.checks := rfl
@[simp] theorem State.dropTask_lpPatrol (i : Nat) : (s.dropTask i).lpPatrol = s.lpPatrol := rfl
@[simp] theorem State.dropTask_window (i : Nat) : (s.dropTask i).window = s.window := rfl
@[simp] theorem State.dropTask_moves (i : Nat) : (s.dropTask i).moves = s.moves := rfl
@[simp] theorem State.dropTask_ceRows (i : Nat) : (s.dropTask i).ceRows = s.ceRows := rfl
@[simp] theorem State.dropTask_retiredRows (i : Nat) : (s.dropTask i).retiredRows = s.retiredRows := rfl
@[simp] theorem State.dropTask_copying (i : Nat) : (s.dropTask i).copying = s.copying := rfl
@[simp] theorem State.dropTask_epoch (i : Nat) : (s.dropTask i).epoch = s.epoch := rfl
@[simp] theorem State.dropTask_walk (i : Nat) : (s.dropTask i).walk = s.walk := rfl
@[simp] theorem State.dropTask_bringups (i : Nat) : (s.dropTask i).bringups = s.bringups := rfl
@[simp] theorem State.dropTask_seals (i : Nat) : (s.dropTask i).seals = s.seals := rfl
@[simp] theorem State.dropTask_pinned (i : Nat) : (s.dropTask i).pinned = s.pinned := rfl
@[simp] theorem State.dropTask_goneViews (i : Nat) : (s.dropTask i).goneViews = s.goneViews := rfl
@[simp] theorem State.dropTask_copyGone (i : Nat) : (s.dropTask i).copyGone = s.copyGone := rfl
@[simp] theorem State.dropTask_taskSeq (i : Nat) : (s.dropTask i).taskSeq = s.taskSeq := rfl
@[simp] theorem State.dropTask_groups (i : Nat) : (s.dropTask i).groups = s.groups := rfl
@[simp] theorem State.dropTask_engs (i : Nat) : (s.dropTask i).engs = s.engs := rfl
@[simp] theorem State.dropTask_cores (i : Nat) : (s.dropTask i).cores = s.cores := rfl
@[simp] theorem State.dropTask_clus (i : Nat) : (s.dropTask i).clus = s.clus := rfl
@[simp] theorem State.dropTask_chans (i : Nat) : (s.dropTask i).chans = s.chans := rfl
@[simp] theorem State.dropTask_waits (i : Nat) : (s.dropTask i).waits = s.waits := rfl
@[simp] theorem State.dropTask_arrivals (i : Nat) : (s.dropTask i).arrivals = s.arrivals := rfl
@[simp] theorem State.dropTask_jobs (i : Nat) : (s.dropTask i).jobs = s.jobs := rfl
@[simp] theorem State.dropTask_parts (i : Nat) : (s.dropTask i).parts = s.parts := rfl
@[simp] theorem State.dropTask_power (i : Nat) : (s.dropTask i).power = s.power := rfl
@[simp] theorem State.dropTask_edgeDraw (i : Nat) : (s.dropTask i).edgeDraw = s.edgeDraw := rfl
@[simp] theorem State.dropTask_powerOver (i : Nat) : (s.dropTask i).powerOver = s.powerOver := rfl
@[simp] theorem State.dropTask_grng (i : Nat) : (s.dropTask i).grng = s.grng := rfl
@[simp] theorem State.dropTask_win (i : Nat) : (s.dropTask i).win = s.win := rfl
@[simp] theorem State.dropTask_tithes (i : Nat) : (s.dropTask i).tithes = s.tithes := rfl
@[simp] theorem State.dropTask_titheSeq (i : Nat) : (s.dropTask i).titheSeq = s.titheSeq := rfl
@[simp] theorem State.dropTask_packetsOut (i : Nat) : (s.dropTask i).packetsOut = s.packetsOut := rfl
@[simp] theorem State.dropTask_restore (i : Nat) : (s.dropTask i).restore = s.restore := rfl
@[simp] theorem State.dropTask_ports (i : Nat) : (s.dropTask i).ports = s.ports := rfl
@[simp] theorem State.dropTask_gates (i : Nat) : (s.dropTask i).gates = s.gates := rfl
@[simp] theorem State.dropTask_loop (i : Nat) : (s.dropTask i).loop = s.loop := rfl
@[simp] theorem State.dropTask_beat (i : Nat) : (s.dropTask i).beat = s.beat := rfl
@[simp] theorem State.dropTask_mbxWaits (i : Nat) : (s.dropTask i).mbxWaits = s.mbxWaits := rfl
@[simp] theorem State.dropTask_mods (i : Nat) : (s.dropTask i).mods = s.mods := rfl
@[simp] theorem State.dropTask_lostTags (i : Nat) : (s.dropTask i).lostTags = s.lostTags := rfl
@[simp] theorem State.dropTask_hostLost (i : Nat) : (s.dropTask i).hostLost = s.hostLost := rfl
@[simp] theorem State.dropTask_bootStage (i : Nat) : (s.dropTask i).bootStage = s.bootStage := rfl
@[simp] theorem State.dropTask_stageWord (i : Nat) : (s.dropTask i).stageWord = s.stageWord := rfl
@[simp] theorem State.dropTask_evHead (i : Nat) : (s.dropTask i).evHead = s.evHead := rfl
@[simp] theorem State.dropTask_evTail (i : Nat) : (s.dropTask i).evTail = s.evTail := rfl
@[simp] theorem State.dropTask_evLost (i : Nat) : (s.dropTask i).evLost = s.evLost := rfl
@[simp] theorem State.dropTask_evOver (i : Nat) : (s.dropTask i).evOver = s.evOver := rfl
@[simp] theorem State.dropTask_fw (i : Nat) : (s.dropTask i).fw = s.fw := rfl
@[simp] theorem State.dropTask_cplq (i : Nat) : (s.dropTask i).cplq = s.cplq := rfl
@[simp] theorem State.dropTask_sec (i : Nat) : (s.dropTask i).sec = s.sec := rfl
@[simp] theorem State.dropTask_nv (i : Nat) : (s.dropTask i).nv = s.nv := rfl
@[simp] theorem State.dropTask_shape (i : Nat) : (s.dropTask i).shape = s.shape := rfl
@[simp] theorem State.dropTask_mesh (i : Nat) : (s.dropTask i).mesh = s.mesh := rfl
@[simp] theorem State.dropTask_bring (i : Nat) : (s.dropTask i).bring = s.bring := rfl
@[simp] theorem State.dropTask_shapeNew (i : Nat) : (s.dropTask i).shapeNew = s.shapeNew := rfl
@[simp] theorem State.dropTask_coresUp (i : Nat) : (s.dropTask i).coresUp = s.coresUp := rfl
@[simp] theorem State.dropTask_defects (i : Nat) : (s.dropTask i).defects = s.defects := rfl
@[simp] theorem State.dropTask_fwTurn (i : Nat) : (s.dropTask i).fwTurn = s.fwTurn := rfl
@[simp] theorem State.dropTask_seedPack (i : Nat) : (s.dropTask i).seedPack = s.seedPack := rfl
@[simp] theorem State.dropTask_seedSets (i : Nat) : (s.dropTask i).seedSets = s.seedSets := rfl
@[simp] theorem State.dropTask_minSvn (i : Nat) : (s.dropTask i).minSvn = s.minSvn := rfl
@[simp] theorem State.dropTask_calDue (i : Nat) : (s.dropTask i).calDue = s.calDue := rfl
@[simp] theorem State.dropTask_calLate (i : Nat) : (s.dropTask i).calLate = s.calLate := rfl
@[simp] theorem State.dropTask_passedAt (i : Nat) : (s.dropTask i).passedAt = s.passedAt := rfl
@[simp] theorem State.dropTask_testFirst (i : Nat) : (s.dropTask i).testFirst = s.testFirst := rfl
@[simp] theorem State.dropTask_window_ (i : Nat) : (s.dropTask i).window_ = s.window_ := rfl
@[simp] theorem State.dropTask_board (i : Nat) : (s.dropTask i).board = s.board := rfl

end Sys2Proof.Machine
end

