-- ==== Sys2Proof/Laws/Regs.lean ====
section
/-! SUPPORT. The laws of the register files: what a write is read back as, and the shape of the field tables. -/

namespace Sys2Proof.Machine

@[simp] theorem State.rd_wr_same (s : State) (r : Reg) (w : Word) : (s.wr r w).rd r = w := by
  simp [State.rd, State.wr]

theorem State.rd_wr_ne (s : State) {r x : Reg} (w : Word) (h : x.addr ≠ r.addr) : (s.wr r w).rd x = s.rd x := by
  simp [State.rd, State.wr, SMap.get_put_ne, Ne.symm h]

@[simp] theorem State.rdS_wrS_same (s : State) (r : Reg) (w : Word) : (s.wrS r w).rdS r = w := by
  simp [State.rdS, State.wrS]

theorem State.rdS_wrS_ne (s : State) {r x : Reg} (w : Word) (h : x.addr ≠ r.addr) : (s.wrS r w).rdS x = s.rdS x := by
  simp [State.rdS, State.wrS, SMap.get_put_ne, Ne.symm h]

@[simp] theorem State.rdS_wr (s : State) (r x : Reg) (w : Word) : (s.wr r w).rdS x = s.rdS x := rfl

@[simp] theorem State.rd_wrS (s : State) (r x : Reg) (w : Word) : (s.wrS r w).rd x = s.rd x := rfl

/-- The fields of every register lie within it and apart from each other. -/
theorem Reg.fields_apart (r : Reg) : r.fieldsApart = true := by
  cases r
  case ttEntry g n k => match k with
    | 0 | 1 | 2 | 3 | 4 | _ + 5 => rfl
  case hatchEntry g n k => match k with
    | 0 | 1 | 2 | 3 | 4 | _ + 5 => rfl
  case layer g n k => match k with
    | 0 | 1 | 2 | 3 | 4 | _ + 5 => rfl
  case winState g n k => match k with
    | 0 | 1 | 2 | 3 | _ + 4 => rfl
  case seqEntry n k => match k with
    | 0 | 1 | 2 | 3 | _ + 4 => rfl
  case winCmd g k => match k with
    | 0 | 1 | 2 | 3 | 4 | 5 | 6 | 7 | _ + 8 => rfl
  all_goals rfl

theorem arm_addr_ne_apply (b : Blk) : (Reg.arm b).addr ≠ (Reg.apply b).addr := by
  show armAddr b ≠ armAddr b + 8
  omega

theorem apply_addr_ne_arm (b : Blk) : (Reg.apply b).addr ≠ (Reg.arm b).addr := (arm_addr_ne_apply b).symm

end Sys2Proof.Machine
end

