-- ==== Sys2Proof/Laws/Ops.lean ====
section
/-! SUPPORT. What each shared operation can do, said once: where a row has its occasion, what a read finds after a write of rows, LPDDR5X,
the window, counters, units and tasks, that every write keeps the canonical form, and what issuing a command comes to. -/

namespace Sys2Proof.Machine

variable (s : State)

/-! Occasions. -/

theorem need_next {c : Bool} {s u : State} {r : Res} (h : need c s r = .next u) : (c = true ∧ r = .next u) ∨ (c = false ∧ u = s) := by
  cases c with
  | true => exact .inl ⟨rfl, h⟩
  | false => exact .inr ⟨rfl, (Host.Outcome.next.inj h).symm⟩

@[simp] theorem need_true (r : Res) : need true s r = r := rfl

@[simp] theorem need_false (r : Res) : need false s r = .next s := rfl

theorem unitOk_next {c : Bool} {r : Res} {u : State} (h : unitOk c r = .next u) : c = true ∧ r = .next u := by
  cases c with
  | true => exact ⟨rfl, h⟩
  | false => cases h

@[simp] theorem unitOk_true (r : Res) : unitOk true r = r := rfl

/-! Fields. -/

/-- A field that lies within its register reads back as written, cut to its width. -/
theorem State.fld_setFld_same (r : Reg) (f : Fld) (v : Nat) (h : f.lo + f.len ≤ 64) : (s.setFld r f v).fld r f = v % 2 ^ f.len := by
  simp [State.fld, State.setFld, bits_setBits_same _ _ _ _ h]

/-- A write of a field leaves a field apart from it alone. -/
theorem State.fld_setFld_apart (r : Reg) (f g : Fld) (v : Nat) (h : f.lo + f.len ≤ g.lo ∨ g.lo + g.len ≤ f.lo) :
    (s.setFld r f v).fld r g = s.fld r g := by
  simp [State.fld, State.setFld, bits_setBits_apart _ _ _ _ _ _ h]

theorem State.fld_setFld_ne {r x : Reg} (f g : Fld) (v : Nat) (h : x.addr ≠ r.addr) : (s.setFld r f v).fld x g = s.fld x g := by
  simp [State.fld, State.setFld, State.rd_wr_ne s _ h]

theorem State.rd_setFld_ne {r x : Reg} (f : Fld) (v : Nat) (h : x.addr ≠ r.addr) : (s.setFld r f v).rd x = s.rd x :=
  State.rd_wr_ne s _ h

/-! Rows and LPDDR5X. -/

@[simp] theorem State.row_setRow_same (r : RowRef) (x : RowSt) : (s.setRow r x).row r = x := by
  simp [State.row, State.setRow]

theorem State.row_setRow_ne {r k : RowRef} (x : RowSt) (h : rowKey r ≠ rowKey k) : (s.setRow r x).row k = s.row k := by
  simp [State.row, State.setRow, SMap.get_put_ne rowInit s.rows x h]

/-- A write of one row changes no row outside a list that holds it. -/
theorem State.rowsElsewhere_setRow (r : RowRef) (x : RowSt) (rs : List RowRef) (h : r ∈ rs) : s.rowsElsewhere (s.setRow r x) rs :=
  fun _ hk => s.row_setRow_ne x (hk r h)

@[simp] theorem State.lp_setLp_same (k : Nat) (x : LpRow) : (s.setLp k x).lp k = x := by
  simp [State.lp, State.setLp]

theorem State.lp_setLp_ne {k j : Nat} (x : LpRow) (h : k ≠ j) : (s.setLp k x).lp j = s.lp j := by
  simp [State.lp, State.setLp, SMap.get_put_ne lpInit s.lpddr x h]

/-! Counters. -/

@[simp] theorem State.ctr_setCtr_same (c : Ctr) (u b v : Nat) : (s.setCtr c u b v).ctr c u b = v := by
  simp [State.ctr, State.setCtr]

/-- A counter counts and saturates (R437). -/
theorem State.ctr_count_same (c : Ctr) (u n b : Nat) : (s.count c u n b).ctr c u b = min (s.ctr c u b + n) (2 ^ 64 - 1) :=
  s.ctr_setCtr_same c u b _

theorem State.ctr_count_ne {c d : Ctr} {u v a b : Nat} (n : Nat) (h : ctrKey c u a ≠ ctrKey d v b) :
    (s.count c u n a).ctr d v b = s.ctr d v b := by
  simp [State.ctr, State.count, State.setCtr, SMap.get_put_ne zeroNat s.ctrs _ h]

/-! The window. -/

theorem winWriteBytes_get (m : List Host.Cell) (a : Nat) (l : List Byte) (x : Nat) :
    SMap.get zeroByte (winWriteBytes m a l) x = if a ≤ x ∧ x < a + l.length then l.getD (x - a) 0 else SMap.get zeroByte m x := by
  induction l generalizing m a with
  | nil => simp [winWriteBytes, show ¬ (a ≤ x ∧ x < a) by omega]
  | cons b t ih =>
    rw [winWriteBytes, ih, SMap.get_put]
    by_cases h : a = x
    · subst h; simp
    · by_cases hx : a + 1 ≤ x ∧ x < a + 1 + t.length
      · rw [if_pos hx, if_pos (by simp; omega), show x - a = (x - (a + 1)) + 1 by omega]; simp
      · rw [if_neg hx, if_neg h, if_neg (by simp; omega)]

@[simp] theorem length_bytesOf (n v : Nat) : (bytesOf n v).length = n := by simp [bytesOf]

/-- A byte of the window after a write: the value's own byte within the written range, as before outside it. -/
theorem State.winByte_winWrite (a n v x : Nat) :
    (s.winWrite a n v).winByte x = if a ≤ x ∧ x < a + n then (bytesOf n v).getD (x - a) 0 else s.winByte x := by
  simp [State.winByte, State.winWrite, winWriteBytes_get]

/-! Units. -/

@[simp] theorem State.eng_setEng_same (e : Nat) (x : Eng) : (s.setEng e x).eng e = x := by simp [State.eng, State.setEng]
theorem State.eng_setEng_ne {e k : Nat} (x : Eng) (h : e ≠ k) : (s.setEng e x).eng k = s.eng k := by
  simp [State.eng, State.setEng, SMap.get_put_ne _ s.engs x h]
@[simp] theorem State.core_setCore_same (c : Nat) (x : Core) : (s.setCore c x).core c = x := by simp [State.core, State.setCore]
theorem State.core_setCore_ne {c k : Nat} (x : Core) (h : c ≠ k) : (s.setCore c x).core k = s.core k := by
  simp [State.core, State.setCore, SMap.get_put_ne _ s.cores x h]
@[simp] theorem State.cl_setCl_same (c : Nat) (x : Clus) : (s.setCl c x).cl c = x := by simp [State.cl, State.setCl]
theorem State.cl_setCl_ne {c k : Nat} (x : Clus) (h : c ≠ k) : (s.setCl c x).cl k = s.cl k := by
  simp [State.cl, State.setCl, SMap.get_put_ne _ s.clus x h]
@[simp] theorem State.chan_setChan_same (cl ch : Nat) (x : Chan) : (s.setChan cl ch x).chan cl ch = x := by
  simp [State.chan, State.setChan]
theorem State.chan_setChan_ne {cl ch kl kh : Nat} (x : Chan) (h : chanKey cl ch ≠ chanKey kl kh) :
    (s.setChan cl ch x).chan kl kh = s.chan kl kh := by
  simp [State.chan, State.setChan, SMap.get_put_ne _ s.chans x h]
@[simp] theorem State.job_setJob_same (p j : Nat) (x : Job) : (s.setJob p j x).job p j = x := by simp [State.job, State.setJob]
theorem State.job_setJob_ne {p j q k : Nat} (x : Job) (h : jobKey p j ≠ jobKey q k) : (s.setJob p j x).job q k = s.job q k := by
  simp [State.job, State.setJob, SMap.get_put_ne _ s.jobs x h]
@[simp] theorem State.part_setPart_same (p : Nat) (x : Part) : (s.setPart p x).part p = x := by simp [State.part, State.setPart]
theorem State.part_setPart_ne {p q : Nat} (x : Part) (h : p ≠ q) : (s.setPart p x).part q = s.part q := by
  simp [State.part, State.setPart, SMap.get_put_ne _ s.parts x h]
@[simp] theorem State.port_setPort_same (p : Nat) (x : Port) : (s.setPort p x).port p = x := by simp [State.port, State.setPort]
theorem State.port_setPort_ne {p q : Nat} (x : Port) (h : p ≠ q) : (s.setPort p x).port q = s.port q := by
  simp [State.port, State.setPort, SMap.get_put_ne _ s.ports x h]
@[simp] theorem State.gate_setGate_same (g : Nat) (x : Gate) : (s.setGate g x).gate g = x := by simp [State.gate, State.setGate]
theorem State.gate_setGate_ne {g k : Nat} (x : Gate) (h : g ≠ k) : (s.setGate g x).gate k = s.gate k := by
  simp [State.gate, State.setGate, SMap.get_put_ne _ s.gates x h]

/-! Tasks. -/

theorem State.task?_id {id : Nat} {t : Task} (h : s.task? id = some t) : t.id = id := by
  simpa using List.find?_some h

/-- A task that is there reads back as it was put. -/
theorem State.task?_setTask_same (t : Task) (h : (s.task? t.id).isSome = true) : (s.setTask t).task? t.id = some t := by
  simp only [State.task?, State.setTask] at h ⊢
  generalize s.tasks = l at h ⊢
  induction l with
  | nil => simp at h
  | cons x l ih =>
    by_cases hx : x.id = t.id
    · simp [hx]
    · simp only [List.map_cons, if_neg hx, List.find?_cons] at h ⊢
      simp only [show (x.id == t.id) = false by simp [hx]] at h ⊢
      exact ih h

theorem State.task?_setTask_ne {t : Task} {id : Nat} (h : id ≠ t.id) : (s.setTask t).task? id = s.task? id := by
  simp only [State.task?, State.setTask]
  generalize s.tasks = l
  induction l with
  | nil => rfl
  | cons x l ih =>
    by_cases hx : x.id = t.id
    · simp [hx, Ne.symm h, ih]
    · simp [hx, List.find?_cons, ih]

@[simp] theorem State.task?_dropTask_same (id : Nat) : (s.dropTask id).task? id = none := by
  simp [State.task?, State.dropTask, List.find?_eq_none]

/-! The canonical form. -/

theorem State.storesWf_iff : s.storesWf = true ↔ SMap.wf rowInit s.rows = true ∧ SMap.wf lpInit s.lpddr = true
    ∧ SMap.wf zeroByte s.window = true ∧ SMap.wf resetAt s.regs = true ∧ SMap.wf resetAt s.shadow = true ∧ SMap.wf zeroNat s.ctrs = true := by
  simp [State.storesWf, and_assoc]

variable {s}

theorem State.storesWf_wr (h : s.storesWf = true) (r : Reg) (w : Word) : (s.wr r w).storesWf = true := by
  rw [State.storesWf_iff] at h ⊢
  exact ⟨h.1, h.2.1, h.2.2.1, SMap.wf_put _ _ h.2.2.2.1, h.2.2.2.2⟩

theorem State.storesWf_wrS (h : s.storesWf = true) (r : Reg) (w : Word) : (s.wrS r w).storesWf = true := by
  rw [State.storesWf_iff] at h ⊢
  exact ⟨h.1, h.2.1, h.2.2.1, h.2.2.2.1, SMap.wf_put _ _ h.2.2.2.2.1, h.2.2.2.2.2⟩

theorem State.storesWf_setFld (h : s.storesWf = true) (r : Reg) (f : Fld) (v : Nat) : (s.setFld r f v).storesWf = true :=
  State.storesWf_wr h _ _

theorem State.storesWf_setRow (h : s.storesWf = true) (r : RowRef) (x : RowSt) : (s.setRow r x).storesWf = true := by
  rw [State.storesWf_iff] at h ⊢
  exact ⟨SMap.wf_put _ _ h.1, h.2⟩

theorem State.storesWf_setLp (h : s.storesWf = true) (k : Nat) (x : LpRow) : (s.setLp k x).storesWf = true := by
  rw [State.storesWf_iff] at h ⊢
  exact ⟨h.1, SMap.wf_put _ _ h.2.1, h.2.2⟩

theorem State.storesWf_count (h : s.storesWf = true) (c : Ctr) (u n b : Nat) : (s.count c u n b).storesWf = true := by
  rw [State.storesWf_iff] at h ⊢
  exact ⟨h.1, h.2.1, h.2.2.1, h.2.2.2.1, h.2.2.2.2.1, SMap.wf_put _ _ h.2.2.2.2.2⟩

theorem winWriteBytes_wf {m : List Host.Cell} (h : SMap.wf zeroByte m = true) (a : Nat) (l : List Byte) :
    SMap.wf zeroByte (winWriteBytes m a l) = true := by
  induction l generalizing m a with
  | nil => exact h
  | cons b t ih => exact ih (SMap.wf_put a b h) (a + 1)

theorem State.storesWf_winWrite (h : s.storesWf = true) (a n v : Nat) : (s.winWrite a n v).storesWf = true := by
  rw [State.storesWf_iff] at h ⊢
  exact ⟨h.1, h.2.1, winWriteBytes_wf h.2.2.1 a _, h.2.2.2⟩

/-! Issuing. -/

/-- A core command of a core that exists always answers a next state: its effect, a wait, a block, a fault of its task, or nothing where it has
no occasion. -/
theorem issueRun_answers (op core : Nat) (ups : List Upset) (k : Task → Cmd → State → Run) (h : core < 2304) :
    ∃ u, issueRun op core ups s k = .next u := by
  simp only [issueRun, unitOk, decide_eq_true h, if_true]
  repeat' split
  all_goals exact ⟨_, rfl⟩

/-- The command that the running task issues next runs, and what its run leaves is the next state. -/
theorem issueRun_runs {op core : Nat} {ups : List Upset} {k : Task → Cmd → State → Run} {t : Task} {w : CmdWord} (h : core < 2304)
    (hn : s.nextCmd core = some (t, w)) (ho : cwOp w = op) (hc : opCodes.contains op = true) :
    issueRun op core ups s k = .next (s.settle t (s.cmd t w ups) true (k t (s.cmd t w ups) s)) := by
  subst ho
  unfold State.nextCmd at hn
  split at hn
  · cases hn
  · rename_i x hr
    split at hn
    · cases hn
    · rename_i hx
      split at hn
      · rename_i v hf
        obtain ⟨rfl, rfl⟩ := Prod.mk.inj (Option.some.inj hn)
        have ha : x.abort = false := by
          cases hb : x.abort <;> simp [hb] at hx ⊢
        have hm : cwOp v ∈ opCodes := by simpa using hc
        simp [issueRun, unitOk, h, hr, ha, hf, hm]
      · cases hn

/-- A firmware command that its row reads is run; one that it does not read changes nothing. -/
theorem fwExec_cases (op : Nat) (c : FwCmd) (h : fwOk c = true) :
    fwExec op c s = .next (if s.fwReads op c = true then s.fwRun c BringIn.none else s) := by
  simp only [fwExec, unitOk, h, if_true, need]
  split <;> rfl

end Sys2Proof.Machine
end

