-- ==== Sys2Proof/Tests/Slice0.lean ====
section
/-! SUPPORT. Tests: ill-formed commands are refused; for every statement of Obligations.lean concrete states that meet its hypotheses,
each clause's with it; single steps. Expected values come from the manual's tables. -/

-- One theorem at a time: the theorems of this file are evaluated by the kernel, and several at once would fill the memory.
set_option Elab.async false

open Sys2Proof Sys2Proof.Machine

namespace Sys2Proof.Machine

/-! Small states. -/

/-- A number with values at bit positions. -/
def tstBits (l : List (Nat × Nat)) : Nat := l.foldl (fun a p => a + p.2 * 2 ^ p.1) 0

def tstWord (op : Nat) (l : List (Nat × Nat)) : BitVec 128 := BitVec.ofNat 128 (op + tstBits l)

def State.tstRegs (s : State) (l : List (Reg × Nat)) : State := l.foldl (fun (s : State) p => s.wr p.1 (BitVec.ofNat 64 p.2)) s

def tstFull (d : Nat) : RowSt := ⟨BitVec.ofNat 4096 d, .full, none, none, none⟩
def tstNear (r d : Nat) : RowRef × RowSt := (.near 0 r, tstFull d)
def tstFulls (base n : Nat) : List (RowRef × RowSt) := (List.range n).map fun i => tstNear (base + i) 0x3C003C00

def State.tstRows (s : State) (l : List (RowRef × RowSt)) : State := l.foldl (fun (s : State) p => s.setRow p.1 p.2) s

/-- A device that is up, with partition 0 on die 0 and job 0 of it running; its quotas in cluster 0 are near rows 0 to 4,095 and loft rows
0 to 65,535. -/
def tstUp : State :=
  { State.reset with
    bootStage := 13, mods := [.x64, .x64], jobs := [(0, { Job.init with stat := .running })] }.tstRegs
    [(.beatCtrl, 0x201), (.mgtPart 0, 0x131100), (.dspJob 0 0, 1), (.clNquota 0 0, 4096 * 65536), (.clLquota 0 0, 65536 * 2 ^ 32)]

/-- A task of job 0: program of 8 words at loft row 0; it may write near rows 16 to 79 and push 4 rows to near silo 0. -/
def tstDesc : BitVec 512 :=
  BitVec.ofNat 512 (tstBits [(84, 8), (16, 255), (384, 1), (392, 16), (412, 64), (448, 4), (456, 0), (476, 4)])

def tstTask : Task := { newTask 7 0 tstDesc with stat := .running }

/-- That task runs on core 0 of the device with a command word next and some rows placed. -/
def tstRun (w : BitVec 128) (l : List (RowRef × RowSt)) : State :=
  { tstUp with tasks := [tstTask], taskSeq := 8 }.tstRows ((.loft 0 0, tstFull w.toNat) :: l)

def State.tstEng (s : State) (x : Eng) : State := { s with engs := [(0, x)] }
def State.tstCore (s : State) (x : Core) : State := { s with cores := [(0, x)] }
def State.tstTask (s : State) (t : Task) : State := { s with tasks := [t] }
def State.tstJob (s : State) (j : Job) : State := { s with jobs := [(0, j)] }

/-- One granary in service. -/
def State.tstOne (s : State) : State := { s with shape := { s.shape with deadGran := (List.range 23).map (· + 1) } }

/-- A test of the state that a command leaves. -/
def tstNext (o : Host.Outcome State Fault Refusal) (f : State → Bool) : Bool :=
  match o with
  | .next u => f u
  | _ => false

/-- The task that issues on core 0 is `t` and its next word is `w`. -/
def State.tstIs (s : State) (t : Task) (w : BitVec 128) : Bool := s.nextCmd 0 == some (t, w)

end Sys2Proof.Machine


/-- The first command is well formed, the second is not. -/
def tstWf (a b : Instr) : Bool := a.wf && !b.wf

/-! Ill-formed commands: one term that each check refuses, beside one that it lets pass. -/

theorem test_wf_core : tstWf (.vuLd 2303) (.vuLd 2304) = true := by decide +kernel
theorem test_wf_cluster : tstWf (.dispatch 287) (.dispatch 288) = true := by decide +kernel
theorem test_wf_channel : tstWf (.dmaResume 0 ⟨31, false⟩) (.dmaResume 0 ⟨32, false⟩) = true := by decide +kernel
theorem test_wf_channel_cluster : tstWf (.dmaResume 287 ⟨0, true⟩) (.dmaResume 288 ⟨0, true⟩) = true := by decide +kernel
theorem test_wf_granary : tstWf (.winGo 23) (.winGo 24) = true := by decide +kernel
theorem test_wf_gate : tstWf (.remoteTimeout 3 0) (.remoteTimeout 4 0) = true := by decide +kernel
theorem test_wf_remote_tag : tstWf (.remoteTimeout 0 8191) (.remoteTimeout 0 8192) = true := by decide +kernel
theorem test_wf_port : tstWf (.linkTrained 11) (.linkTrained 12) = true := by decide +kernel
theorem test_wf_frame_port : tstWf (.frameWrite 12 ⟨⟨0, 0⟩, 0⟩) (.frameWrite 13 ⟨⟨0, 0⟩, 0⟩) = true := by decide +kernel
theorem test_wf_partition : tstWf (.phaseChange 11) (.phaseChange 12) = true := by decide +kernel
theorem test_wf_job : tstWf (.killDrainDone 0 15) (.killDrainDone 0 16) = true := by decide +kernel
theorem test_wf_tensor : tstWf (.bringupDone ⟨32767, 8⟩) (.bringupDone ⟨32768, 8⟩) = true := by decide +kernel
theorem test_wf_hatch : tstWf (.hatchClosedDone 1023) (.hatchClosedDone 1024) = true := by decide +kernel
theorem test_wf_near_row : tstWf (.rowStateRetry (.near 2303 8191) .none) (.rowStateRetry (.near 0 8192) .none) = true := by decide +kernel
theorem test_wf_loft_row : tstWf (.rowStateRetry (.loft 287 1048575) .none) (.rowStateRetry (.loft 0 1048576) .none) = true := by decide +kernel
theorem test_wf_block_core : tstWf (.arm (.co 2591) false) (.arm (.co 2592) false) = true := by decide +kernel
theorem test_wf_block_engine : tstWf (.arm (.me 5183) false) (.disarm (.me 5184) false) = true := by decide +kernel
theorem test_wf_block_cluster : tstWf (.arm (.dsp 287) false) (.arm (.dsp 288) false) = true := by decide +kernel
theorem test_wf_block_granary : tstWf (.arm (.grn 23) false) (.arm (.grn 24) false) = true := by decide +kernel
theorem test_wf_block_gate : tstWf (.arm (.gate 3) false) (.arm (.gate 4) false) = true := by decide +kernel
theorem test_wf_mailbox_block : tstWf (.mailboxRead (.die 35) 63 1) (.mailboxRead (.die 36) 0 1) = true := by decide +kernel
theorem test_wf_mailbox : tstWf (.mailboxWrite .mgmt 63 1 0) (.mailboxWrite .mgmt 64 1 0) = true := by decide +kernel
theorem test_wf_lock : tstWf (.lockRead .mgmt 15 1) (.lockRead .mgmt 16 1) = true := by decide +kernel
theorem test_wf_entropy : tstWf (.rngHealthFail (.granary 23)) (.rngHealthFail (.granary 24)) = true := by decide +kernel
theorem test_wf_slot : tstWf (.taskRetire 0 3) (.taskRetire 0 4) = true := by decide +kernel
theorem test_wf_engine : tstWf (.stationaryShiftIn 0 1) (.stationaryShiftIn 0 2) = true := by decide +kernel
theorem test_wf_context : tstWf (.cacheFillComplete 0 ⟨7, []⟩) (.cacheFillComplete 0 ⟨8, []⟩) = true := by decide +kernel
theorem test_wf_page : tstWf (.pageWalk (.cluster 287) ⟨0, 16777215⟩) (.pageWalk (.cluster 287) ⟨0, 16777216⟩) = true := by decide +kernel
theorem test_wf_interface : tstWf (.pageWalk (.gate 3) ⟨11, 0⟩) (.pageWalk (.gate 4) ⟨11, 0⟩) = true := by decide +kernel
theorem test_wf_cell : tstWf (.lpddrPatrol 23 [⟨0, 527, 1⟩]) (.lpddrPatrol 23 [⟨0, 528, 1⟩]) = true := by decide +kernel
theorem test_wf_record : tstWf (.layerNormResult 0 0 4095 ⟨[], true⟩) (.layerNormResult 0 0 4096 ⟨[], true⟩) = true := by decide +kernel
theorem test_wf_module : tstWf (.moduleLinkLoss 1) (.moduleLinkLoss 2) = true := by decide +kernel
theorem test_wf_mailbox_of_command : tstWf (.telemetry ⟨31, 255, 0⟩) (.telemetry ⟨32, 255, 0⟩) = true := by decide +kernel
theorem test_wf_sender : tstWf (.telemetry ⟨0, 1, 0⟩) (.telemetry ⟨0, 0, 0⟩) = true := by decide +kernel
theorem test_wf_lpddr_row : tstWf (.rowRetireCopyDone 191 7 33554431) (.rowRetireCopyDone 192 0 0) = true := by decide +kernel
theorem test_wf_sensor : tstWf (.thermalTrip 1 23 15) (.thermalTrip 1 24 0) = true := by decide +kernel
theorem test_wf_analogue : tstWf (.atbSettle 1 0) (.atbSettle 2 0) = true := by decide +kernel
theorem test_wf_packet_row : tstWf (.reductionResult 0 0 [.loft 0 5]) (.reductionResult 0 0 [.loft 288 5]) = true := by decide +kernel
theorem test_wf_tick_sensor : tstWf (.tick ⟨[], [], 0, [⟨0, 35, 15, 0⟩]⟩) (.tick ⟨[], [], 0, [⟨0, 35, 16, 0⟩]⟩) = true := by decide +kernel

/-- The table gives its rows no bits: no word is a command. -/
theorem test_decode_none : decodeTableWord 16 0x1234 = none ∧ State.withFetchWord State.reset 16 0x1234 = State.reset := ⟨rfl, rfl⟩

/-- A meaning stops on a unit that does not exist. -/
theorem test_no_such_unit : exec (.vuLd 2304) State.reset = .fault .noSuchUnit := by rfl

/-! Witnesses for the statements of the queue, the registers and the beat. -/

theorem test_queue_runs_front : tstNext (step { State.reset with pending := [.beatRun, .beatRun] }) (fun u => u.pending == [.beatRun]) = true := by
  decide +kernel

theorem test_EmptyQueueIdles : State.reset.pending = [] := rfl

theorem test_StepKeepsStoresCanonical :
    tstUp.storesWf = true ∧ tstNext (step { tstUp with pending := [.beatRun] }) (fun u => u.storesWf) = true := by decide +kernel

def tstRegList : List Reg := [.mbxInten .mgmt, .coFaultLog 0, .grnErrLog 0, .dspSuspect 0, .beatSync, .dmaSrc 0 0]

theorem test_RegisterWriteByAccessType : ∀ r ∈ [Reg.mbxInten .mgmt, .coArithFlags 0, .coRngStatus 0, .dspSuspect 0],
    controlAgent 0x100 = true ∧ tstUp.reach 0x100 r.addr = some r ∧ ownRow r = false ∧ tstUp.mbxRegValue 0x100 r 5 = some 5 := by
  decide +kernel

theorem test_register_write_w1c : tstNext (exec (.registerWrite 0x100 (Reg.addr (.coArithFlags 0)) 5) (tstUp.tstRegs [(.coArithFlags 0, 7)]))
    (fun u => u.rd (.coArithFlags 0) == 2) = true := by decide +kernel

theorem test_ReservedBitsAreIgnored : tstUp.reach 0x100 (Reg.addr .beatLen) = some .beatLen
    ∧ tstNext (exec (.registerWrite 0x100 (Reg.addr (.coArithFlags 0)) 0xFFFFFFFFFFFFFFF0) tstUp) (fun u => u.rd (.coArithFlags 0) == 0) = true
    ∧ tstNext (exec (.shadowWrite 0x100 (Reg.addr .beatLen) 0xFFFFFFFFFFFFFFEC) tstUp) (fun u => u.rdS .beatLen == (u.rdS .beatLen &&& Reg.beatLen.listed)) = true := by
  decide +kernel

theorem test_FaultingAccessIsNotPerformed : controlAgent 0x400 = true ∧ tstUp.reach 0x400 (Reg.addr .beatCtrl) = none
    ∧ controlAgent 0x100 = true ∧ tstUp.reach 0x100 5 = none := by decide +kernel

theorem test_ShadowWriteDisarms : let s := tstUp.tstRegs [(.arm (.co 0), 1)]
    controlAgent 0x100 = true ∧ s.reach 0x100 (Reg.addr (.coArith 0)) = some (.coArith 0) ∧ (Reg.coArith 0).hasShadow = true
      ∧ (Reg.coArith 0).block = some (.co 0) ∧ Reg.coArith 0 ≠ .beatNumberSet ∧ s.armed (.co 0) = true := by decide +kernel

theorem test_ArmAndDisarm : blkOk (.co 2591) = true ∧ tstUp.armed (.co 2591) = false ∧ (tstUp.tstRegs [(.arm (.tt 23), 1)]).armed (.tt 23) = true
    ∧ tstUp.unitUp (Reg.arm (.tt 23)).addr = true ∧ tstUp.inReset (Reg.arm (.tt 23)).addr = false := by
  decide +kernel

/-- A granary out of service; a cluster of a partition that is being reset. -/
theorem test_ArmAndDisarm_stopped : tstUp.tstOne.unitUp (Reg.arm (.tt 1)).addr = false
    ∧ (tstUp.tstRegs [(.mgtPart 0, 0x51100)]).unitUp (Reg.arm (.dma 0)).addr = true
    ∧ (tstUp.tstRegs [(.mgtPart 0, 0x51100)]).inReset (Reg.arm (.dma 0)).addr = true := by decide +kernel

theorem test_RegisterWrite_reset : let s := tstUp.tstRegs [(.mgtPart 0, 0x51100)]; let r := Reg.coArithFlags 0
    s.reach 0x100 r.addr = some r ∧ ownRow r = false ∧ s.mbxRegValue 0x100 r 5 = some 5 ∧ s.inReset r.addr = true
      ∧ tstUp.inReset r.addr = false := by decide +kernel

/-- A winnower that runs names records 0 to 7. -/
theorem test_RegisterWrite_winnower : let s := tstUp.tstRegs [(.winStatus 0, 4), (.winCmd 0 0, 8 * 2 ^ 20)]; let r := Reg.winState 3 7 0
    s.reach 0x100 r.addr = some r ∧ ownRow r = false ∧ s.mbxRegValue 0x100 r 5 = some 5 ∧ s.inReset r.addr = false ∧ s.winHolds 7 = true
      ∧ s.winHolds 8 = false := by decide +kernel

theorem test_BeatRunAndNumberSet : isMgmt 0x100 = true
    ∧ tstNext (exec .beatRun State.reset) (fun u => u.flag .beatCtrl F.beatCtrlRun) = true := by decide +kernel

theorem test_TickAdvancesTheBeat_run : tstUp.flag .beatCtrl F.beatCtrlRun = true ∧ State.reset.flag .beatCtrl F.beatCtrlRun = false := by
  decide +kernel

/-- A device with ticks, up and with nothing to do. -/
def tstQuiet : State := { tstUp.tstRegs [(.mgtPart 0, 0)] with jobs := [] }

theorem test_TickAdvancesTheBeat_quiet : tstQuiet.flag .beatCtrl F.beatCtrlRun = true ∧ tstQuiet.storesWf = true ∧ (∀ p < 12, tstQuiet.partEn p = false)
    ∧ tstQuiet.armedNow = [] ∧ tstQuiet.jobs = [] ∧ tstQuiet.cores = [] ∧ tstQuiet.tasks = [] ∧ tstQuiet.fw = [] ∧ tstQuiet.calDue = []
    ∧ tstQuiet.groups = [] ∧ tstQuiet.seals = [] ∧ tstQuiet.parts = [] ∧ tstQuiet.chans = [] ∧ tstQuiet.packetsOut = [] ∧ tstQuiet.bring.isNone = true
    ∧ tstQuiet.win.isNone = true ∧ tstQuiet.restore.isNone = true ∧ tstQuiet.tithes = [] ∧ tstQuiet.copyGone = [] ∧ (tstQuiet.beatEdge []).beatNo = 1
    ∧ { tstQuiet with snapAsked := true }.snapAsked = true := by decide +kernel

theorem test_TickAdvancesTheBeat_edge :
    (List.find? (fun (c : Blk × Nat) => decide (c.1 = Blk.beat)) [(.co 3, 0)]) = none
    ∧ (List.find? (fun (c : Blk × Nat) => decide (c.1 = Blk.beat)) [(.co 3, 0), (.beat, 2)]) = some (.beat, 1 + 1)
    ∧ (List.find? (fun (c : Blk × Nat) => decide (c.1 = Blk.beat)) [(.beat, 0)]) = some (.beat, 0)
    ∧ { tstUp with beat := { tstUp.beat with setPending := true } }.beat.setPending = true
    ∧ (tstUp.tstRegs [(.beatSync, 1)]).fld .beatSync F.beatSyncMode = 1 ∧ (tstUp.tstRegs [(.beatSync, 2)]).fld .beatSync F.beatSyncMode = 2
    ∧ tstUp.fld .beatSync F.beatSyncMode = 0 := by decide +kernel

/-- A pulse of the number 256 is long (R36). -/
theorem test_tick_pulse : ((tstUp.tstRegs [(.beatSync, 1), (.beatNumber, 255)]).beatEdge []).outbox = [.pulse 32] := by decide +kernel

theorem test_BeatInPulses : let s := { tstUp.tstRegs [(.beatSync, 2 + 2 ^ 16), (.beatNumber, 5)] with beat := { tstUp.beat with lockRun := 15, since := 2 } }
    tstUp.fld .beatSync F.beatSyncMode ≠ 2 ∧ s.fld .beatSync F.beatSyncMode = 2 ∧ s.beat.lockRun = 15 ∧ s.beatNo.toNat % 256 ≠ 0
      ∧ (0 : Int) < 3 ∧ 2 ≤ s.beat.since ∧ s.flag .beatSync F.beatSyncLocked = true ∧ (16 : Int).natAbs ≤ 16 ∧ 64 < (-65 : Int).natAbs := by decide +kernel

/-! Witnesses for the statements of tasks and rows. -/

def tstGroup : Group := ⟨0, 5, 0, [7], some 9, some 16, none, some 0, 3, true, false, false⟩

theorem test_VerdictTimeoutDiscardsGroup : let s := { tstUp with tasks := [tstTask, { tstTask with id := 9, slot := 1 }], groups := [tstGroup] }
    clOk 0 = true ∧ (s.groups.find? fun x => x.cl == 0 && x.gid == 5 && x.timedOut) = some tstGroup
      ∧ tstNext (exec (.verdictTimeout 0 5) s) (fun u => u.tasks == [] && u.groups == []) = true := by decide +kernel

def tstAbort : State :=
  { (tstRun 0 [tstNear 1 5, (.near 0 17, ⟨3, .pending, some 7, none, none⟩), (.near 0 18, ⟨3, .full, none, some 7, none⟩)]) with
    tasks := [{ tstTask with abort := true }] }

theorem test_CarryAbortDiscardsTask : tstAbort.storesWf = true ∧ tstAbort.task? 7 = some { tstTask with abort := true }
    ∧ (tstAbort.row (.near 0 17)).tag = .pending ∧ (tstAbort.row (.near 0 17)).writer = some 7 ∧ (tstAbort.row (.near 0 18)).tag = .full
    ∧ (tstAbort.row (.near 0 18)).taker = some 7 ∧ (tstAbort.row (.near 0 1)).writer ≠ some 7 ∧ (tstAbort.row (.near 0 1)).taker ≠ some 7 := by
  decide +kernel

theorem test_DescriptorsLoadOrAreRefused_placed : let d := tstDesc ||| 0x400#512
    clOk 0 = true ∧ tstUp.mayLoad 0 d = true ∧ tstUp.descFails 0 d = 0
      ∧ (tstUp.flag (.dspJob 0 (descJob d)) F.dspJobFrozen && bitAt d 11) = false ∧ tstUp.groupFails 0 d = false := by decide +kernel

/-- Without REPLAY_SAFE the descriptor fails condition 5 of R155. -/
theorem test_DescriptorsLoadOrAreRefused_refused : tstUp.mayLoad 0 tstDesc = true ∧ tstUp.descFails 0 tstDesc = 5 := by decide +kernel

theorem test_DescriptorsLoadOrAreRefused_frozen : let s := tstUp.tstRegs [(.dspJob 0 0, 3)]; let d := tstDesc ||| 0xC00#512
    s.mayLoad 0 d = true ∧ s.descFails 0 d = 0 ∧ s.flag (.dspJob 0 (descJob d)) F.dspJobFrozen = true ∧ bitAt d 11 = true := by
  decide +kernel

def tstPool : State :=
  { (tstRun 0 [tstNear 1 5]).tstRegs [(.dspJob 0 0, 0x10001)] with tasks := [{ tstTask with stat := .pooled }, { tstTask with id := 9, slot := 1, stat := .pooled }] }

theorem test_DispatchPlacesTheChosen : clOk 0 = true ∧ tstPool.dispatches 0 = true
    ∧ (tstPool.choose 0).map (fun x => (x.1.id, x.2)) = some (7, 0) ∧ (tstPool.tstRegs [(.mgtPart 0, 0)]).dispatches 0 = false
    ∧ tstUp.choose 0 = none := by decide +kernel

theorem test_ControlCommands_end : (tstRun 0 []).tstIs tstTask 0 = true ∧ cwOp 0 = 0x00 ∧ stray (0 : BitVec 128) [(0, 8)] = false
    ∧ tstNext (exec (.ctlEnd 0) (tstRun 0 [])) (fun u => (u.task? 7).any fun t => t.stat == .completing) = true := by decide +kernel

theorem test_ControlCommands_fence : let s := (tstRun 1 []).tstEng { Eng.init with queue := [⟨7, 0, 0, [], [], 0, ⟨0, 0, []⟩, none⟩] }
    (tstRun 1 []).tstIs tstTask 1 = true ∧ cwOp 1 = 0x01 ∧ stray (1 : BitVec 128) [(0, 8)] = false ∧ (tstRun 1 []).incomplete tstTask = false
      ∧ s.tstIs tstTask 1 = true ∧ s.incomplete tstTask = true := by decide +kernel

def tstTag (op : Nat) : BitVec 128 := tstWord op [(33, 1), (53, 1)]

theorem test_ControlCommands_wait : let w := tstTag 0x61; let s := tstRun w (tstFulls 1 2)
    s.tstIs tstTask w = true ∧ cwOp w = 0x61 ∧ (s.issueChecks tstTask (tagRows tstTask w) [] (!stray w tagFields)).isOk = true
      ∧ (∀ r ∈ tagRows tstTask w, (s.row r).tag = .full) ∧ tagRows tstTask w ≠ [] := by decide +kernel

theorem test_TagTakeTakesRows : let w := tstTag 0x60; let s := tstRun w (tstFulls 1 2)
    s.tstIs tstTask w = true ∧ cwOp w = 0x60 ∧ (s.issueChecks tstTask (tagRows tstTask w) [] (!stray w tagFields)).isOk = true
      ∧ (∀ r ∈ tagRows tstTask w, (s.row r).tag = .full ∧ ((s.row r).taker = none ∨ (s.row r).taker = some 7))
      ∧ tstNext (exec (.tagTake 0) s) (fun u => (u.row (.near 0 1)).taker == some 7) = true := by decide +kernel

/-- Rows in the states of Table 8-2; task 9 runs on core 0, task 11 on core 1. -/
def tstRows82 : State :=
  { tstRun 0 [tstNear 1 5, (.near 0 17, ⟨3, .pending, some 9, none, none⟩), (.near 0 18, ⟨3, .pending, some 11, none, none⟩),
      (.near 0 19, ⟨3, .full, none, some 9, none⟩), (.near 0 20, ⟨3, .full, none, some 11, none⟩), (.near 0 21, ⟨3, .poison, none, none, none⟩),
      (.near 0 22, ⟨3, .pending, some 7, none, none⟩), (.near 0 23, ⟨3, .pending, some 7, some 9, none⟩),
      (.near 0 24, ⟨3, .pending, some 7, some 11, none⟩)] with
    tasks := [tstTask, { tstTask with id := 9, slot := 1 }, { tstTask with id := 11, core := 1 }], taskSeq := 12 }

theorem test_ReadsFollowTable82 : let s := tstRows82
    (s.row (.near 0 2)).tag = .empty ∧ (s.row (.near 0 21)).tag = .poison ∧ (s.row (.near 0 1)).tag = .full ∧ (s.row (.near 0 1)).taker = none
      ∧ (s.row (.near 0 19)).taker = some 9 ∧ s.onCore (some 9) tstTask.core = true ∧ (s.row (.near 0 20)).taker = some 11
      ∧ s.onCore (some 11) tstTask.core = false ∧ (s.row (.near 0 17)).writer = some 9 ∧ (s.row (.near 0 18)).writer = some 11
      ∧ (s.row (.near 0 17)).tag = .pending ∧ (s.row (.near 0 17)).taker = none := by decide +kernel

theorem test_WritesFollowTable82 : let s := tstRows82
    (s.row (.near 0 2)).tag = .empty ∧ (s.row (.near 0 1)).taker = none ∧ (s.row (.near 0 20)).tag = .full ∧ (s.row (.near 0 20)).taker ≠ none
      ∧ (s.row (.near 0 22)).tag = .pending ∧ (s.row (.near 0 22)).writer = some tstTask.id ∧ s.onCore (some 9) 0 = true
      ∧ s.onCore (some 11) 0 = false := by decide +kernel

theorem test_CommitAndDiscardFollowTable82 : let s := tstRows82
    s.storesWf = true ∧ (s.row (.near 0 22)).taker = none ∧ (s.row (.near 0 23)).taker = some 9 ∧ (s.row (.near 0 23)).writer = some 7
      ∧ (s.task? 11).isSome = true ∧ (s.row (.near 0 24)).taker = some 11 ∧ (s.row (.near 0 19)).taker = some 9 ∧ (s.row (.near 0 18)).writer = some 11
      ∧ ((s.commitRows [7, 9]).row (.near 0 23)).tag = .empty ∧ ((s.discardRows 7).row (.near 0 22)).tag = .empty := by decide +kernel

/-! Witnesses for the statements of the vector, matrix-vector and encoder commands. -/

theorem test_VectorLoadWidensALine : let w := tstWord 0x20 [(8, 1), (32, 1), (58, 3), (18, 1)]; let s := tstRun w [tstNear 1 0x3F804000]
    s.tstIs tstTask w = true ∧ cwOp w = 0x20 ∧ Fmt.ofCode (cwFmt w) = some .bf16
      ∧ (s.issueChecks tstTask (vuLdRows tstTask w .bf16) [] (!stray w (vuLdUsed .bf16) && decide (bits w 62 3 < Fmt.bf16.lines))).isOk = true
      ∧ (∀ r ∈ vuLdRows tstTask w .bf16, (s.row r).tag = .full ∧ (s.row r).taker = none)
      ∧ tstNext (exec (.vuLd 0) s) (fun u => (u.task? 7).any fun t => t.line 3 == 0x3F80000040000000) = true := by decide +kernel

/-- The same with a sidecar row and the row's last line. -/
theorem test_VectorLoad_sidecar : let w := tstWord 0x20 [(8, 4), (32, 1), (58, 15), (62, 3), (45, 2)]; let s := tstRun w [tstNear 1 5, tstNear 2 0x7F]
    s.tstIs tstTask w = true ∧ Fmt.ofCode (cwFmt w) = some .mx8e4m3
      ∧ (s.issueChecks tstTask (vuLdRows tstTask w .mx8e4m3) [] (!stray w (vuLdUsed .mx8e4m3) && decide (bits w 62 3 < Fmt.mx8e4m3.lines))).isOk = true
      ∧ (∀ r ∈ vuLdRows tstTask w .mx8e4m3, (s.row r).tag = .full ∧ (s.row r).taker = none) := by decide +kernel

theorem test_VectorStoreWritesARow : let w := tstWord 0x21 [(8, 1), (32, 79), (58, 3)]; let s := tstRun w []
    s.tstIs tstTask w = true ∧ cwOp w = 0x21 ∧ Fmt.ofCode (cwFmt w) = some .bf16 ∧ Fmt.bf16.sidecar = false ∧ vuStForm w .bf16 = true
      ∧ (s.quota tstTask [.near 0 (bits w 32 13)]).isOk = true ∧ tstTask.mayWrite 79 = true ∧ tstTask.mayWrite 80 = false
      ∧ (s.row (.near 0 79)).tag = .empty ∧ s.wantsSr 0 (cwRound w) = false := by decide +kernel

/-- min of 1.0 and -2.0, then a scalar move of the transcendental unit's form, then a reduction of registers. -/
theorem test_VectorArithmetic_op : let w := tstWord 0x22 [(36, 3), (41, 4), (46, 20)]; let s := tstRun w []
    s.tstIs tstTask w = true ∧ cwOp w = 0x22 ∧ vuOpForm w = true ∧ bits w 32 4 < 13 ∧ isScalar (opD w) = false := by decide +kernel

theorem test_VectorArithmetic_tx : let w := tstWord 0x23 [(36, 17), (41, 20)]; let s := tstRun w []
    s.tstIs tstTask w = true ∧ cwOp w = 0x23 ∧ vuTxForm w = true ∧ isScalar (opD w) = true := by decide +kernel

theorem test_VectorArithmetic_reduce : let w := tstWord 0x24 [(63, 1), (50, 1), (64, 1), (36, 5)]; let s := tstRun w [tstNear 1 5, tstNear 2 6]
    let rs := (reduceRows tstTask w .fp32).1 ++ (reduceRows tstTask w .fp32).2
    s.tstIs tstTask w = true ∧ cwOp w = 0x24 ∧ Fmt.ofCode (cwFmt w) = some .fp32 ∧ reduceForm w .fp32 = true
      ∧ (s.issueChecks tstTask rs [] true).isOk = true ∧ rs ≠ [] ∧ (∀ r ∈ rs, (s.row r).tag = .full ∧ (s.row r).taker = none) := by
  decide +kernel

theorem test_TapLoads : let w := tstWord 0x25 [(32, 3), (36, 128)]
    let s := (tstRun w []).tstEng { Eng.init with owner := some 7, tap := [(130, some 5)] }
    s.tstIs tstTask w = true ∧ cwOp w = 0x25 ∧ stray w [(0, 8), (17, 1), (32, 14)] = false ∧ bits w 36 10 % 128 = 0
      ∧ (s.eng (cmdEng tstTask w)).owner = some tstTask.id ∧ ((s.eng (cmdEng tstTask w)).queue.any fun (q : Cmd) => q.task == 7 && tapsInto q.word (bits w 36 10)) = false
      ∧ tstNext (exec (.vuTapld 0) s) (fun u => (u.task? 7).any fun t => t.line 3 == (5 <<< 64 : Row)) = true := by decide +kernel

theorem test_BackwardKernel : let w := tstWord 0x26 [(49, 1), (62, 2), (75, 3), (88, 16), (32, 1)]
    let s := tstRun w [tstNear 1 5, tstNear 2 6, tstNear 3 7]
    let q := nbwdRows tstTask w .fp32 .fp32
    let ins := q.1 ++ q.2.1 ++ q.2.2.1
    s.tstIs tstTask w = true ∧ cwOp w = 0x26 ∧ Fmt.ofCode (cwFmt w) = some .fp32 ∧ Fmt.ofCode (cwFmt2 w) = some .fp32
      ∧ (s.issueChecks tstTask ins q.2.2.2 (nbwdForm w .fp32)).isOk = true ∧ (∀ r ∈ ins, (s.row r).tag = .full ∧ (s.row r).taker = none)
      ∧ (∀ r ∈ q.2.2.2, (s.row r).tag = .empty) ∧ (s.core 0).buf = none ∧ (s.core 0).bufWait = [] := by decide +kernel

theorem test_RowBufferGrant : let s := (tstRun 0 []).tstCore { Core.init with bufWait := [(7, 0x26)] }
    coreOk 0 = true ∧ (s.core 0).buf = none ∧ (s.core 0).bufWait = [(7, 0x26)] := by decide +kernel

theorem test_MatrixVector_run : let w := tstWord 0x30 [(8, 2), (32, 1), (94, 1), (107, 16), (20, 1)]
    let s := tstRun w (tstNear 1 5 :: (List.range 32).map fun i => (.loft 0 (1 + i), tstFull 9))
    s.tstIs tstTask w = true ∧ cwOp w = 0x30 ∧ Fmt.ofCode (cwFmt w) = some .e4m3 ∧ (s.core 0).mvp = none
      ∧ (match mvpSpans w .e4m3 with
        | [a, b, c, d] => (spanRows tstTask a ++ spanRows tstTask b ++ spanRows tstTask c).all (fun r => (s.row r).tag == .full && (s.row r).taker == none)
            && (spanRows tstTask d).all (fun r => (s.row r).tag == .empty && tstTask.mayWrite (rowNo r)) && !(spanRows tstTask d).isEmpty
        | _ => false) = true
      ∧ (s.mvpChecks tstTask w).isOk = true := by decide +kernel

theorem test_MatrixVector_glean : let w := tstWord 0x31 [(8, 2), (32, 1), (73, 2), (89, 1), (102, 16), (20, 1)]
    let s := tstRun w [tstNear 1 5, tstNear 2 1, (.loft 0 1, tstFull 9)]
    s.tstIs tstTask w = true ∧ cwOp w = 0x31 ∧ Fmt.ofCode (cwFmt w) = some .e4m3 ∧ (s.core 0).mvp = none
      ∧ (match gleanSpans w .e4m3 with
        | [a, b, c, d] => (spanRows tstTask a ++ spanRows tstTask b ++ spanRows tstTask c).all (fun r => (s.row r).tag == .full && (s.row r).taker == none)
            && (spanRows tstTask d).all (fun r => (s.row r).tag == .empty && tstTask.mayWrite (rowNo r)) && !(spanRows tstTask d).isEmpty
        | _ => false) = true
      ∧ (s.gleanChecks tstTask w).isOk = true := by decide +kernel

/-- Four values in a group that may hold two: the block falls back to its dense form, 33 rows. -/
def tstEncWord : BitVec 128 := tstWord 0x40 [(8, 2), (32, 80), (45, 16), (58, 2), (62, 3)]
def tstEnc : State := tstRun tstEncWord (tstNear 80 (0x38 * (1 + 2 ^ 1024 + 2 ^ 2048 + 2 ^ 3072)) :: tstFulls 81 31)
def tstEncOut : List RowRef := (List.range 33).map fun i => .near 0 (16 + i)

theorem test_EncoderWritesTiles_out : (encWrites tstTask tstEncWord .e4m3 (encTiles tstEncWord .e4m3
    ((encSrc tstTask tstEncWord .e4m3).map fun r => encCanon .e4m3 (tstEnc.row r).data))).map Prod.fst = tstEncOut := by decide +kernel

theorem test_EncoderWritesTiles : let w := tstEncWord; let s := tstEnc; let src := encSrc tstTask w .e4m3
    s.tstIs tstTask w = true ∧ cwOp w = 0x40 ∧ Fmt.ofCode (cwFmt w) = some .e4m3 ∧ (s.encChecks tstTask w).isOk = true ∧ (s.core 0).enc = none ∧ (∀ r ∈ src, (s.row r).tag = .full ∧ (s.row r).taker = none)
      ∧ (s.quota tstTask tstEncOut).isOk = true ∧ inRange tstEncOut = true
      ∧ (∀ r ∈ tstEncOut, tstTask.mayWrite (rowNo r) = true ∧ (s.row r).tag = .empty) ∧ tstEncOut.Nodup := by decide +kernel

theorem test_CompareAndCountCounts : let w := tstWord 0x70 [(33, 1), (53, 1), (66, 1), (69, 5), (86, 1), (73, 16)]; let s := tstRun w [tstNear 1 5, tstNear 2 0]
    s.tstIs tstTask w = true ∧ cwOp w = 0x70 ∧ Fmt.ofCode (cwFmt w) = some .fp32
      ∧ (s.issueChecks tstTask (ccRows tstTask w) (ccMask tstTask w .fp32) (ccForm w .fp32)).isOk = true
      ∧ (∀ r ∈ ccRows tstTask w, (s.row r).tag = .full ∧ (s.row r).taker = none) ∧ (∀ r ∈ ccMask tstTask w .fp32, (s.row r).tag = .empty)
      ∧ ccMask tstTask w .fp32 ≠ [] := by decide +kernel

/-! Witnesses for the statements of silos, the gather unit, kicks, the engines and the core's own events. -/

/-- Near silo 0 of core 0: rows 128 to 131, enabled, with counts HEAD and TAIL. -/
def tstSilo (head tail : Nat) : List (Reg × Nat) :=
  [(.siloCfg 0 0, 128 + 4 * 2 ^ 20 + 2 ^ 48), (.siloPtr 0 0, head + tail * 2 ^ 32), (.siloPend 0 0, head + tail * 2 ^ 32)]

/-- HEAD and TAIL at 3: the two rows wrap from row 131 to row 128. -/
theorem test_SiloPush : let w := tstWord 0x62 [(41, 1), (54, 1)]; let s := (tstRun w [tstNear 1 5, tstNear 2 6]).tstRegs (tstSilo 3 3)
    let x := siloOf (bitAt w 32) 0 (bits w 33 8); let y := s.silo x; let near := nearRowsOf 0 (bits w 41 13) 2; let rs := siloRows x y y.tailP 2
    s.tstIs tstTask w = true ∧ cwOp w = 0x62 ∧ bits w 54 13 + 1 = 2 ∧ (s.quota tstTask near).isOk = true ∧ s.pushForm tstTask w = true
      ∧ tstTask.mayPush x 2 = true ∧ 2 ≤ y.credit ∧ y.tailP = y.tail ∧ (∀ r ∈ near, (s.row r).tag = .full ∧ (s.row r).taker = none)
      ∧ (∀ r ∈ rs, (s.row r).tag = .empty) ∧ rs.Nodup ∧ rs = [.near 0 131, .near 0 128] := by decide +kernel

theorem test_SiloPop : let w := tstWord 0x63 [(41, 16), (54, 1), (18, 1)]; let s := (tstRun w [tstNear 131 5, tstNear 128 6]).tstRegs (tstSilo 3 5)
    let x := siloOf (bitAt w 32) 0 (bits w 33 8); let y := s.silo x; let near := nearRowsOf 0 (bits w 41 13) 2; let rs := siloRows x y y.head 2
    s.tstIs tstTask w = true ∧ cwOp w = 0x63 ∧ cwAcc w = true ∧ (s.quota tstTask near).isOk = true ∧ s.popForm tstTask w = true
      ∧ (∀ r ∈ near, tstTask.mayWrite (rowNo r) = true ∧ (s.row r).tag = .empty) ∧ y.headP = y.head
      ∧ (∀ r ∈ rs, (s.row r).note = none ∧ (s.row r).tag = .full ∧ (s.row r).taker = none) ∧ rs = [.near 0 131, .near 0 128] := by
  decide +kernel

def tstGather : BitVec 128 := tstWord 0x80 [(32, 1), (57, 16)]
/-- Table 0: 100 entries of one row from loft row 64; the index list of one word at near row 1. -/
def tstTable (l : List (RowRef × RowSt)) (n : Nat) : State :=
  (tstRun tstGather ([tstNear 1 n] ++ l)).tstRegs [(.coGaShape 0 0, 100 + 2 ^ 32), (.coGaBase 0 0, 2 ^ 52 + 512 * 64)]
/-- A gather context of the task's command. -/
def tstCtx (s : State) (next : Nat) : GCtx := ⟨s.cmd tstTask tstGather [], next, some 5, true, true, none⟩
def tstGatherOk (s : State) : Bool :=
  s.tstIs tstTask tstGather && (s.issueChecks tstTask (nearRowsOf 0 1 1) (nearRowsOf 0 16 1) (s.gatherForm tstTask tstGather)).isOk
    && (freeCtx (s.core 0) == some 0) && (s.row (.near 0 1)).tag == .full && (s.row (.near 0 1)).taker == none

theorem test_Gather_words : cwOp tstGather = 0x80 ∧ bits tstGather 32 13 = 1 ∧ gaDst tstGather = 16 ∧ gaCount tstGather = 1 ∧ gaSpan tstGather = 1
    ∧ bitAt tstGather 70 = false ∧ gaTable tstGather = 0 ∧ gaSub tstGather = 0 := by decide +kernel

/-- Index 99, the last of the table, not in the cluster cache. -/
theorem test_Gather_miss : let s := tstTable [] 99
    tstGatherOk s = true ∧ bits (s.row (.near 0 1)).data 0 32 < bits (s.rd (.coGaShape 0 0)) 0 32
      ∧ s.gaIndex tstTask tstGather 0 = 99 ∧ s.gaRowNo tstTask tstGather 0 = 99 ∧ (s.tableRow tstTask tstGather 99).key = rowKey (.loft 0 163)
      ∧ s.tabFault tstTask (s.tableRow tstTask tstGather 99) = none ∧ (s.cacheLook 0 (rowKey (.loft 0 163)) []).1 = none := by decide +kernel

def tstCached : State :=
  { tstTable [] 5 with clus := [(0, { Clus.init with cache := [(cacheSet (rowKey (.loft 0 69)), [(rowKey (.loft 0 69), 77)])] })] }

theorem test_Gather_hit : tstGatherOk tstCached = true ∧ (tstCached.tableRow tstTask tstGather 5).key = rowKey (.loft 0 69)
    ∧ tstCached.gaRowNo tstTask tstGather 0 = 5 ∧ tstCached.tabFault tstTask (tstCached.tableRow tstTask tstGather 5) = none
    ∧ (tstCached.cacheLook 0 (rowKey (.loft 0 69)) []).1 = some 77 ∧ (tstCached.row (.near 0 16)).tag = .empty := by decide +kernel

theorem test_Gather_padding : let s := tstTable [] 0xFFFFFFFF
    tstGatherOk s = true ∧ s.gaIndex tstTask tstGather 0 = 0xFFFFFFFF ∧ (s.row (.near 0 16)).tag = .empty := by decide +kernel

theorem test_Gather_fill : let k := tstTable [(.loft 0 69, tstFull 33)] 5; let g := tstCtx k 0
    let s := k.tstCore { Core.init with gctx := [(2, some g)] }; let e := s.enter 0 g.cmd
    s.ctx 0 2 = some g ∧ g.fill = true ∧ s.task? g.task = some tstTask ∧ g.asks = some (e.gaRowNo tstTask tstGather 0)
      ∧ e.tableRow tstTask tstGather 5 = .loft (.loft 0 69) ∧ e.gaIndex tstTask tstGather 0 = 5
      ∧ (s.row (.loft 0 69)).tag = .full ∧ (s.row (.near 0 1)).tag = .full ∧ (s.row (.near 0 1)).taker = none
      ∧ 5 < bits (e.rd (.coGaShape 0 0)) 0 32 ∧ g.next + 1 = gaCount tstGather * gaSpan tstGather ∧ (s.row (.near 0 16)).tag = .empty
      ∧ tstNext (exec (.cacheFillComplete 0 ⟨2, []⟩) s) (fun u => (u.row (.near 0 16)).data == 33) = true := by decide +kernel

def tstKick (once : Nat) : BitVec 128 := tstWord 0x50 [(32, 3), (37, 1), (50, 2), (53, once)]
def tstChan (w : BitVec 128) (mode : Nat) : State := (tstRun w [tstNear 1 5]).tstRegs [(.dmaChcfg 0 3, mode)]

theorem test_Kick_direct : let w := tstKick 0; let s := tstChan w 1
    s.tstIs tstTask w = true ∧ cwOp w = 0x50 ∧ s.kickOk tstTask (bits w 32 5) = true ∧ stray w [(0, 8), (32, 22)] = false ∧ s.fld (.dmaChcfg 0 3) F.dmaChcfgMode = 1
      ∧ (s.quota tstTask [.near 0 1]).isOk = true ∧ bitAt w 53 = false ∧ (s.chan 0 3).queue.length < 16 ∧ (s.row (.near 0 1)).tag = .full
      ∧ (s.row (.near 0 1)).taker = none := by decide +kernel

theorem test_Kick_ring : let w := tstKick 1; let s := tstChan w 2
    s.tstIs tstTask w = true ∧ s.kickOk tstTask (bits w 32 5) = true ∧ stray w [(0, 8), (32, 22)] = false ∧ s.fld (.dmaChcfg 0 3) F.dmaChcfgMode = 2 ∧ bitAt w 53 = true
      ∧ bitAt tstTask.kick (bits w 50 3) = false := by decide +kernel

theorem test_Kick_again : let w := tstKick 1; let k := { tstTask with kick := 4 }; let s := (tstChan w 2).tstTask k
    s.tstIs k w = true ∧ s.kickOk k (bits w 32 5) = true ∧ stray w [(0, 8), (32, 22)] = false ∧ bitAt w 53 = true ∧ bitAt k.kick (bits w 50 3) = true := by decide +kernel

def tstLoad : BitVec 128 := tstWord 0x10 [(8, 2), (32, 80)]
def tstStream : BitVec 128 := tstWord 0x11 [(8, 2), (32, 1), (72, 1), (82, 3)]
def tstDrain (clear : Nat) : BitVec 128 := tstWord 0x12 [(8, 1), (32, 16), (71, 3), (81, 2), (92, clear)]
def tstBlock : Block := ⟨tstLoad, [5, 6, 7], 0, some 7⟩

theorem test_Engine_load : let s := tstRun tstLoad (tstFulls 80 32)
    s.tstIs tstTask tstLoad = true ∧ Fmt.ofCode (cwFmt tstLoad) = some .e4m3 ∧ cwSpf tstLoad = false ∧ cwOp tstLoad = 0x10
      ∧ (s.loadChecks tstTask tstLoad).isOk = true ∧ (∀ r ∈ loadNames tstTask tstLoad (some .e4m3), (s.row r).tag = .full ∧ (s.row r).taker = none)
      ∧ (s.eng (cmdEng tstTask tstLoad)).owner = none
      ∧ (s.engFor tstTask 0).queue = [] ∧ (s.engFor tstTask 0).staging = none
      ∧ tstNext (exec (.meLoad 0) s) (fun u => (u.eng 0).loaded && (u.eng 0).staging.isSome) = true := by decide +kernel

def tstStreaming : State :=
  (tstRun tstStream [tstNear 1 0x3838, tstNear 2 0x38]).tstEng { Eng.init with owner := some 7, loaded := true, cells := some tstBlock }

theorem test_Engine_stream : let w := tstStream; let s := tstStreaming
    s.tstIs tstTask w = true ∧ Fmt.ofCode (cwFmt w) = some .e4m3 ∧ cwSpf w = false ∧ cwOp w = 0x11 ∧ (s.streamChecks tstTask w).isOk = true
      ∧ bitAt w 71 = false ∧ (s.eng (cmdEng tstTask w)).owner = some tstTask.id ∧ (s.engFor tstTask 0).loaded = true
      ∧ (s.engFor tstTask 0).queue = [] ∧ (s.engFor tstTask 0).staging = none ∧ (s.engFor tstTask 0).cells = some tstBlock := by decide +kernel

theorem test_Engine_stream_rows : (tstStreaming.plainRows tstTask tstStream .e4m3 (match (blockArrs tstBlock).1 with
    | [a] => a.width / 128
    | l => l.length) (List.range (stNrows tstStream))).isOk = true := by decide +kernel

theorem test_Engine_drain : let w := tstDrain 1; let s := (tstRun w []).tstEng { Eng.init with owner := some 7, acc := [(3, some 0x3F800000)] }
    s.tstIs tstTask w = true ∧ Fmt.ofCode (cwFmt w) = some .bf16 ∧ cwSpf w = false ∧ cwOp w = 0x12 ∧ (s.drainChecks tstTask w).isOk = true
      ∧ (s.eng (cmdEng tstTask w)).owner = some tstTask.id ∧ (s.engFor tstTask 0).queue = [] ∧ drTmode w = 0 ∧ bitAt w 91 = false
      ∧ bitAt w 92 = true ∧ bitAt (tstDrain 0) 92 = false
      ∧ (∀ n ∈ (drainRows w .bf16).1 ++ (drainRows w .bf16).2, (s.row (.near 0 n)).tag = .empty) ∧ (drainRows w .bf16).1 ≠ [] := by decide +kernel

def tstWaiting (w : BitVec 128) : State := (tstRun w []).tstEng { Eng.init with owner := some 7, loaded := true, staging := some tstBlock }

theorem test_Engine_waits_load : let s := tstWaiting tstLoad
    s.tstIs tstTask tstLoad = true ∧ (s.eng (cmdEng tstTask tstLoad)).owner = some tstTask.id ∧ (s.eng (cmdEng tstTask tstLoad)).loaded = true
      ∧ (s.engFor tstTask 0).holds (s.cmd tstTask tstLoad []) = true ∧ (s.loadChecks tstTask tstLoad).isOk = true := by decide +kernel

theorem test_Engine_waits_stream : let s := tstWaiting tstStream
    s.tstIs tstTask tstStream = true ∧ (s.engFor tstTask 0).loaded = true
      ∧ (s.engFor tstTask 0).holds (s.cmd tstTask tstStream []) = true ∧ (s.streamChecks tstTask tstStream).isOk = true := by
  decide +kernel

/-- A drain behind a load that waits for the staged block's shift-in. -/
theorem test_Engine_waits_drain : let k := tstWaiting (tstDrain 0)
    let s := k.tstEng { k.eng 0 with queue := [k.cmd tstTask tstLoad []] }
    let q := s.cmd tstTask (tstDrain 0) []
    s.tstIs tstTask (tstDrain 0) = true ∧ (s.engFor tstTask 0).holds (((s.engFor tstTask 0).queue ++ [q]).headD q) = true ∧ (s.drainChecks tstTask (tstDrain 0)).isOk = true := by
  decide +kernel

theorem test_Engine_shift_in : ((tstWaiting tstLoad).eng (2 * 0 + 0)).staging = some tstBlock ∧ ((tstWaiting tstLoad).eng 0).queue = [] := by
  decide +kernel

theorem test_EngineRelease : let s := (tstRun 0 []).tstEng { Eng.init with owner := some 9 }
    let z := (tstRun 0 []).tstCore { Core.init with mvp := some 9, enc := some 8 }
    s.mayRelease 0 .me0 = true ∧ (s.eng 0).queue = [] ∧ (s.eng 1).queue = [] ∧ z.mayRelease 0 .mvp = true ∧ z.mayRelease 0 .enc = true := by
  decide +kernel

theorem test_TaskRetire : ∀ t ∈ [{ tstTask with stat := .completing, pc := 3, doneIssue := true }, { tstTask with stat := .completing, pc := 3, gatherBad := true },
      { tstTask with stat := .completing, pc := 3, gatherBad := true, fault := some ⟨3, 1, 0, 5, 6, 7⟩ }],
    let s := (tstRun 0 []).tstTask t
    s.taskIn 0 0 = some t ∧ s.task? t.id = some t ∧ t.stat = .completing ∧ t.abort = false ∧ s.incomplete t = false
      ∧ (s.tasks.filter fun u => decide (u.stat = .retired) && u.core == 0).length < 16
      ∧ tstNext (exec (.taskRetire 0 0) s) (fun u => (u.task? 7).any fun x => x.stat == .retired) = true := by decide +kernel

theorem test_TaskRetire_causes : retireCause { tstTask with gatherBad := true } ≠ none ∧ retireCause tstTask = none := by decide +kernel

theorem test_FaultJobStop : let s := (tstRun 0 []).tstJob { Job.init with stat := .running, stopSource := 1 }
    (s.job 0 0).stopSource ≠ 0 ∧ (s.job 0 0).stat = .running ∧ tstNext (exec (.faultJobStop 0 0) s) (fun u => (u.job 0 0).stopDue) = true := by
  decide +kernel

def tstBlocked : State :=
  { (tstRun 0 [tstNear 1 5]).tstTask { tstTask with stat := .blocked, why := some (.row (.near 0 1) .peek) } with waits := [(.near 0 1, .task 7)] }

theorem test_RowStateRetry : rowOk (.near 0 1) = true ∧ (tstRun 0 [tstNear 1 5]).waits = []
    ∧ (tstBlocked.waits.filter fun w => decide (w.1 = RowRef.near 0 1)) = [(.near 0 1, .task 7)]
    ∧ (tstBlocked.task? 7).any (fun t => t.stat == .blocked && !tstBlocked.waiting t && tstBlocked.nextWhy t == none) = true
    ∧ tstNext (exec (.rowStateRetry (.near 0 1) .none) tstBlocked) (fun u => (u.task? 7).any fun t => t.why == none) = true := by
  decide +kernel

/-- A tag.wait of near row 1 in flight. -/
def tstTagWait : State :=
  let w := tstWord 0x61 [(33, 1)]
  let s := tstRun w [tstNear 1 5]
  { s.tstTask { tstTask with stat := .blocked, pc := 1, flight := some (s.cmd tstTask w []) } with waits := [(.near 0 1, .task 7)] }

theorem test_RowStateRetry_flight : (tstTagWait.task? 7).any (fun t => match t.flight with
      | some q => cwOp q.word == 0x61 && ((tstTagWait.enter 0 q).tagWait t q.word).isOk && tagRows t q.word == [.near 0 1]
      | none => false) = true
    ∧ tstNext (exec (.rowStateRetry (.near 0 1) .none) tstTagWait) (fun u => (u.task? 7).any fun t => t.flight == none) = true := by
  decide +kernel

/-- The count of failures stays at 65,535 (R74). -/
theorem test_EntropyFallback : let s := tstUp.tstRegs [(.coRngStatus 1, 0xFFFF0003)]
    s.flag (.coRngStatus 1) F.coRngStatusFallback = true ∧ (s.core 1).rngBeat = 0
      ∧ tstNext (exec (.rngHealthFail (.core 1)) s) (fun u => u.fld (.coRngStatus 1) F.coRngStatusFailCount == 65535) = true := by decide +kernel

/-! Witnesses for the statements of memory and of the DMA. -/

theorem test_Caches : tstUp.clusterHole 287 = false ∧ tstUp.viaUp (.cluster 0) 0 = true ∧ tstUp.viaUp (.gate 3) 0 = true
    ∧ (∃ x ∈ [(0, 4, (9 : Word))], x.1 = 0 ∧ x.2.1 = 4) ∧ (tstUp.lp (leafPlace 0 4).1).err = 0 ∧ tstUp.tlbOf (.cluster 0) = [] ∧ tstUp.tlbOf (.gate 3) = []
    ∧ (tstUp.tstRegs [(.clScrub 0, 0x501)]).flag (.clScrub 0) F.clScrubPatrolEn = true ∧ 23 ∉ tstUp.shape.deadGran
    ∧ (tstUp.tstRegs [(.grnCfg 23, 0xFF)]).flag (.grnCfg 23) F.grnCfgScrubEn = true ∧ rowGranary 1 = 0 ∧ (lpPlace 1).2.2 < 24379392 := by
  decide +kernel

/-- 2^5 rows of the loft are due with 3 owed; 4 are missed. -/
theorem test_patrol_owed : tstNext (exec (.patrolScrub 0 ⟨[], [0, 0, 0, 0, 0, 0, 0, 0, 4]⟩)
    { tstUp.tstRegs [(.clScrub 0, 0x51)] with clus := [(0, { Clus.init with owed := 3 })] })
    (fun u => (u.cl 0).patrol == 31 && (u.cl 0).owed == 4) = true := by decide +kernel

/-- One byte of a codeword is corrected, three are more than the code corrects (R210). -/
theorem test_patrol_decodes : tstNext (exec (.lpddrPatrol 0 [⟨1, 9, 3⟩, ⟨2, 9, 3⟩, ⟨2, 10, 3⟩, ⟨2, 11, 3⟩]) ((tstUp.tstRegs [(.grnCfg 0, 0x11)]).setLp 1 (.of 5 false)))
    (fun u => (u.lp 1 == .of 5 false) && !(u.lp 1).poison && (u.lp 2).poison) = true := by decide +kernel

/-- Tensor i with its words; cluster count 0. -/
def tstTensor (i w0 rows w3 w4 : Nat) : List (Reg × Nat) :=
  [(.ttEntry 0 i 0, w0), (.ttEntry 0 i 1, 0), (.ttEntry 0 i 2, rows), (.ttEntry 0 i 3, w3), (.ttEntry 0 i 4, w4)]

theorem test_BringupDone : let s := { (tstUp.tstRegs (tstTensor 5 (1 + 255 * 2 ^ 12) 8 (2 ^ 9) 0)).setPage 0 0 (mkPage 1 3 5 0) with bringups := [⟨5, 0, true, 6, []⟩] }
    s.bringups.find? (fun b => b.tensor == 5) = some ⟨5, 0, true, 6, []⟩ ∧ (s.ttEff 5).rows = 8
      ∧ (∀ k, k < 8 → pgState (s.tensorLoc 5 k).page = 1 ∧ s.copying.contains (lpPlace (s.tensorLoc 5 k).key) = false)
      ∧ (∀ k, k < 8 → fillOk (s.row ((s.ttEff 5).loftRef k)) true = true)
      ∧ tstNext (exec (.bringupDone ⟨5, 2⟩) s) (fun u => (u.tt 5).res == 2 && u.bringups.isEmpty) = true := by
  decide +kernel

/-- GEN 255 wraps to 0 (R223). -/
theorem test_UnsealPinsClear : let s := { tstUp.tstRegs (tstTensor 5 (1 + 255 * 2 ^ 12) 4096 (2 ^ 9) 0) with seals := [⟨5, true, true⟩] }
    (s.tt 5).pins = 0 ∧ s.seals = [⟨5, true, true⟩] ∧ s.fw = [] ∧ (s.tt 5).gen = 255
      ∧ tstNext (exec (.unsealPinsClear 5) s) (fun u => (u.tt 5).gen == 0 && (u.tt 5).cls == 2) = true := by decide +kernel

/-- A touch of beat 7 with DEADLINE 2 is missed at beat 9, in learning (phase 0). -/
def tstTouch (mask : Bool) : Desc := fwDesc 0 (rowAddr (.near 0 2)) 1 false false ||| (if mask then BitVec.ofNat 1024 (2 ^ 31 + rowAddr (.near 0 3) * 2 ^ 576) else 0)
def tstTouching (mask : Bool) : Xfer := { Xfer.fresh 4 (tstTouch mask) with touch := some (5, 7), due := some true }
/-- The touched tensor has the fallback `fb`, its lower tensor 6 is sealed with RES `res`; the partition's phase is `ph`. -/
def tstMiss (fb res ph : Nat) (mask : Bool) : State :=
  let s := (tstUp.tstRegs (tstTensor 5 (1 + fb * 2 ^ 24 + 2 * 2 ^ 32 + 6 * 2 ^ 48) 4096 0 0 ++ tstTensor 6 (1 + res * 2 ^ 20) 8 0 0
      ++ [(.beatNumber, 9)])).setPage 0 0 (mkPage 1 3 5 0)
  { s.setRow (.near 0 3) (tstFull 1) with
    chans := [(0, { Chan.init with cur := some (tstTouching mask) })], parts := [(0, { s.part 0 with phase := ph })] }

def tstMissed (s : State) (x : Xfer) : Bool :=
  ((s.chan 0 0).tail ++ (s.chan 0 0).cur.toList).find? Xfer.late == some x && x.touch == some (5, 7)

theorem test_DeadlineMiss : tstMissed (tstMiss 1 2 0 false) (tstTouching false) = true ∧ ((tstMiss 1 2 0 false).part 0).phase = 0
    ∧ ((tstMiss 1 2 0 false).ttEff 5).deadline = 2 := by decide +kernel
theorem test_DeadlineMiss_lower : let s := tstMiss 1 2 1 false
    tstMissed s (tstTouching false) = true ∧ (s.part 0).phase = 1 ∧ (s.ttEff 5).fallback = 1 ∧ (s.tt 6).valid = true ∧ (s.tt 6).cls = 0
      ∧ (s.tt 6).res = 2 ∧ (s.ttEff 5).fbTensor = 6 ∧ ((tstMiss 1 1 1 false).tt 6).res = 1
      ∧ tstNext (exec (.deadlineMiss 0 0) s) (fun u => (u.chan 0 0).cur == some { tstTouching false with missed := true, lower := true }) = true := by
  decide +kernel
theorem test_DeadlineMiss_glean_skip : let s := tstMiss 2 0 1 true
    tstMissed s (tstTouching true) = true ∧ (s.ttEff 5).fallback = 2 ∧ (s.gleanMask (s.agentOf 0 0) (tstTouch true)).isSome = true
      ∧ s.gleanMask (s.agentOf 0 0) (tstTouch false) = none ∧ tstMissed (tstMiss 2 0 1 false) (tstTouching false) = true
      ∧ tstMissed (tstMiss 3 0 1 false) (tstTouching false) = true ∧ ((tstMiss 3 0 1 false).ttEff 5).fallback = 3 := by decide +kernel

/-- An update-owned tensor of job 0 on page 0 in frame 3, its step in the backward pass. -/
def tstAccum (sr : Nat) : State :=
  (tstUp.tstRegs (tstTensor 5 (1 + 2 * 2 ^ 9 + 2 ^ 28 + sr * 2 ^ 23) 4096 0 0)).setPage 0 0 (mkPage 1 3 5 0)
    |>.tstJob { Job.init with stat := .running, stage := .backward }

def tstLoc (s : State) : LpLoc := s.locate (.cluster ((s.clustersOf 0).headD 0)) 0 0 1
theorem test_Accumulate_first : let s := tstAccum 0; let l := (tstLoc s)
    s.partEn 0 = true ∧ (s.job 0 0).clearing = false ∧ pgState l.page = 1 ∧ s.classOk 0 0 l .accum = true ∧ s.isTouch (pgTensor l.page) = false
      ∧ SMap.get (fun _ => false) s.epoch (l.key / 8) = false
      ∧ tstNext (exec (.accumWrite 0 0 512 (.bf16 0x3F80) false) s) (fun u => u.lp l.key == .of 0x3F80 false) = true := by decide +kernel

/-- 1.0 and 2.0 is 3.0. -/
theorem test_Accumulate_later : let k := (tstLoc (tstAccum 0)).key; let s := { tstAccum 0 with epoch := [(k / 8, true)] }.setLp k (.of 0x3F80 false)
    (tstLoc s).key = k ∧ SMap.get (fun _ => false) s.epoch (k / 8) = true ∧ (s.lp k).err = 0
      ∧ (s.tt (pgTensor (tstLoc s).page)).sr = false
      ∧ tstNext (exec (.accumWrite 0 0 512 (.bf16 0x4000) false) s) (fun u => u.lp k == .of 0x4040 false) = true := by decide +kernel

theorem test_Accumulate_waits : let s := (tstAccum 0).tstJob { Job.init with stat := .running, stage := .backward, clearing := true }
    s.accumWaits 0 0 (tstLoc s) = true ∧ (tstAccum 0).accumWaits 0 0 (tstLoc (tstAccum 0)) = false ∧ pgState (tstLoc s).page = 1
      ∧ s.classOk 0 0 (tstLoc s) .accum = true
      ∧ tstNext (exec (.accumWrite 0 0 512 (.bf16 0x3F80) false) s) (fun u => u.arrivals == [.write 0 0 512 (.bf16 0x3F80) false]) = true := by decide +kernel

theorem test_Accumulate_refused : pgState (tstLoc tstUp).page ≠ 1 ∧ (tstUp.job 0 0).clearing = false ∧ tstUp.partEn 0 = true := by decide +kernel

def tstClears : State := { tstUp.tstJob { Job.init with stat := .running, clearing := true } with copying := [(191, 7, 5)] }

theorem test_ClearsAndCopiesEnd_idle : (∀ cl ch, (tstClears.chan cl ch).cur = none ∧ (tstClears.chan cl ch).tail = []) ∧ (∀ g, (tstClears.gate g).park = []) :=
  ⟨fun _ _ => ⟨rfl, rfl⟩, fun _ => rfl⟩
theorem test_ClearsAndCopiesEnd : tstClears.arrivals = [] ∧ tstClears.bringups = [] ∧ (tstClears.job 0 0).clearing = true ∧ (191, 7, 5) ∈ tstClears.copying := by decide +kernel

/-- A copy of near row 1 to near row 2 of core 0: k = 0 by peek, 1 by take, 2 malformed. -/
def tstCopy (k : Nat) : BitVec 1024 :=
  BitVec.ofNat 1024 ((fwDesc (rowAddr (.near 0 1)) (rowAddr (.near 0 2)) 1 false (k == 1)).toNat + (if k = 2 then 2 ^ 700 else 0))

/-- Channel 3 of cluster 0 in a mode and a state. -/
def tstDma (mode st : Nat) (k : Chan) : State :=
  { (tstRun 0 [tstNear 1 5]).tstRegs [(.dmaChcfg 0 3, mode), (.dmaCtrl 0 3, 16 * st)] with chans := [(3, k)] }

/-- The hypotheses of a one-row copy, as one Bool. -/
def tstOneRow (s : State) (d : BitVec 1024) : Bool :=
  let g := s.agentOf 0 3
  s.descOk g d && dOp d == 0 && !dElem d && !dAhead d && !dMaskEn d && (s.chan 0 3).tail.isEmpty && decide (s.clFlight 0 < 512) && dSkind d == 0 && dDkind d == 0 && dTotal d == 1 && (space (dSrc d) == 1 || space (dSrc d) == 2)
    && (space (dDst d) == 1 || space (dDst d) == 2)
    && s.sramRow g (dSrc d) 0 == some (.near 0 1) && s.sramRow g (dDst d) 0 == some (.near 0 2) && dmaReadOk (s.row (.near 0 1)) (dTake d)
    && fillOk (s.row (.near 0 2)) (dOver d)

theorem test_Desc_copy : ∀ k ∈ [0, 1], let s := tstDma 1 0 { Chan.init with queue := [tstCopy k] }
    (s.chan 0 3).next? = some (tstCopy k, Chan.init) ∧ (s.chan 0 3).cur = none ∧ s.chState 0 3 < 2 ∧ (s.chan 0 3).held.length ≤ 4
      ∧ (s.chan 0 3).tail = [] ∧ dFence (tstCopy k) = false ∧ tstOneRow s (tstCopy k) = true := by decide +kernel

theorem test_Desc_malformed : let s := tstDma 1 0 { Chan.init with queue := [tstCopy 2] }
    (s.chan 0 3).next? = some (tstCopy 2, Chan.init) ∧ s.descOk (s.agentOf 0 3) (tstCopy 2) = false := by decide +kernel

def tstFwCopy : State :=
  (tstDma 3 0 Chan.init).tstRegs [(.dmaSrc 0 3, rowAddr (.near 0 1)), (.dmaDst 0 3, rowAddr (.near 0 2)), (.dmaCnt 0 3, 1 + 2 ^ 25)]

theorem test_FirmwareCopy : let s := tstFwCopy
    s.chState 0 3 = 0 ∧ s.fld (.dmaChcfg 0 3) F.dmaChcfgMode = 3 ∧ s.fld (.dmaCnt 0 3) F.dmaCntRows = 1 ∧ (s.chan 0 3).cur = none
      ∧ fwDesc (s.fld (.dmaSrc 0 3) F.dmaSrcAddr) (s.fld (.dmaDst 0 3) F.dmaDstAddr) 1 (s.flag (.dmaCnt 0 3) F.dmaCntOverwrite)
          (s.flag (.dmaCnt 0 3) F.dmaCntTake) = tstCopy 1 ∧ tstOneRow s (tstCopy 1) = true
      ∧ tstNext (exec (.firmwareCopyStart 0 3) s) (fun u => (u.row (.near 0 2)).data == 5 && (u.row (.near 0 1)).tag == .empty) = true := by
  decide +kernel

def tstPaused : State := tstDma 1 2 { Chan.init with cur := some { (Xfer.fresh 2 (tstCopy 0)) with halt := some (.page 4) }, page := some (0, 4), queue := [tstCopy 0] }

theorem test_Resume_Abandon : tstPaused.chState 0 3 = 2 ∧ (tstPaused.chan 0 3).cur = some { (Xfer.fresh 2 (tstCopy 0)) with halt := some (.page 4) } ∧ tstOneRow tstPaused (tstCopy 0) = true
    ∧ tstFwCopy.chState 0 3 ≠ 2 := by decide +kernel

theorem test_Restart : (tstDma 2 3 { Chan.init with queue := [tstCopy 0] }).chState 0 3 = 3 ∧ tstPaused.chState 0 3 ≠ 3 := by decide +kernel

/-- A ring of two rows at loft row 64, 2 descriptors released. -/
def tstRing : State :=
  ((tstDma 2 1 Chan.init).tstRegs [(.dmaRing 0 3, 64 + 2 ^ 40), (.dmaRingPtr 0 3, 2 * 2 ^ 32)]).tstRows [(.loft 0 64, tstFull 5), (.loft 0 65, tstFull 6)]

theorem test_RingFetch : let s := tstRing; let n := min 16 (s.ringGap 0 3)
    s.fld (.dmaChcfg 0 3) F.dmaChcfgMode = 2 ∧ 0 < n ∧ ((List.range n).filterMap fun i => s.ringSlot 0 3 i).length = n
      ∧ (s.chan 0 3).buf.length ≤ 16 := by decide +kernel

def tstRecord (k : Chan) : State := (tstDma 2 1 k).tstRegs (tstSilo 3 3)
def tstEnded : Xfer := { Xfer.fresh 0 (tstCopy 0) with status := 2, cause := 1 }

theorem test_Records : let s := tstRecord { Chan.init with done := [tstEnded] }; let x := s.csSilo 0 3
    (s.chan 0 3).done = [tstEnded] ∧ recordDue tstEnded = true ∧ (s.agentOf 0 3).fw = false ∧ (s.chan 0 3).held = []
      ∧ (s.job (s.agentOf 0 3).part (s.agentOf 0 3).job).stat ≠ .killing ∧ (s.silo x).credit ≠ 0
      ∧ fillOk (s.row (siloRow x (s.silo x) (s.silo x).tail)) false = true ∧ recordDue (Xfer.fresh 0 (tstCopy 0 ||| 2 ^ 21)) = false := by decide +kernel

theorem test_RecordFlush : let s := tstRecord { Chan.init with held := [77] }; let x := s.csSilo 0 3
    (s.chan 0 3).held = [77] ∧ (s.silo x).credit ≠ 0 ∧ fillOk (s.row (siloRow x (s.silo x) (s.silo x).tail)) false = true := by decide +kernel

/-- A run-ahead row of near row 1 of core 0 from row 2 of tensor 5, under GEN 8. -/
def tstNote : GenNote := ⟨5, 8, 2, 0, 3, true, fwDesc 1024 (rowAddr (.near 0 1)) 1 false false, 0⟩

/-- The slot of near row 1, read from row 2 of tensor 5 at GEN 8, is to be read again; GEN is now 9. -/
def tstStale (pg : Nat) : State :=
  { (((tstUp.tstRegs (tstTensor 5 (1 + 9 * 2 ^ 12) 4096 0 0)).setPage 0 0 (mkPage pg 3 5 0)).setLp 12290 (.of 44 false)) with
    chans := [(3, { Chan.init with refetch := [(.near 0 1, tstNote)] })] }

theorem test_StaleRefetch : ∀ pg ∈ [1, 2], let s := tstStale pg; let l := s.locate (.cluster 0) (s.tt 5).part (s.tt 5).job 2
    s.refetchOf (.near 0 1) = some (3, tstNote) ∧ tstNote.rows = [2] ∧ dElem tstNote.desc = false ∧ (srcRows tstNote.desc tstNote.q).2.1 = 0 ∧ (s.row (.near 0 1)).tag = .empty
      ∧ (s.ttEff 5).cls = 0 ∧ pgState l.page = pg ∧ (s.ttEff 5).res ≠ 2 ∧ l.key = 12290 ∧ (s.lp 12290).err = 0
      ∧ tstNext (exec (.pfStaleRefetch (.near 0 1)) s) (fun u => !u.staleRow (.near 0 1) && (u.row (.near 0 1)).data == (if pg = 1 then 44 else 0)) = true := by
  decide +kernel

def tstOt : OtEnt := ⟨1, .read, 0, 3, 0, 2, 0, false⟩
theorem test_RemoteTimeout : let s := { tstUp with gates := [(3, { Gate.init with ot := [(8191, some tstOt)] })] }
    s.otGet 3 8191 = some tstOt ∧ (s.chan 0 3).cur = none ∧ (s.chan 0 3).tail = [] ∧ tstOt.expired = false ∧ tstOt.kind = .read := by decide +kernel

/-! Witnesses for the statements of kills, resets, phases, learning steps and the winnower. -/

def tstKill (drained : Bool) : State :=
  { (tstRun 0 [tstNear 1 5, (.loft 0 7, tstFull 4)]).setPage 0 9 (mkPage 1 3 5 0) with
    jobs := [(0, { Job.init with stat := .killing, drained := drained, reportT := 4 })], tasks := [] }

theorem test_KillDrainDone : (tstKill false).fw = [] ∧ (tstKill false).killDrained 0 0 = true ∧ (tstKill true).killDrained 0 0 = false := by decide +kernel

theorem test_KillScrubComplete : ((tstKill true).job 0 0).stat = .killing ∧ ((tstKill true).job 0 0).drained = true ∧ 9 ∈ (tstKill true).jobPages 0 0
    ∧ (tstKill true).storesWf = true ∧ (∀ x ∈ (tstKill true).pageList, pgFrame x.2 < 9141504) ∧ (tstKill true).moves = []
    ∧ (tstKill true).runCleared 0 = [] := by
  decide +kernel

def tstResetting : State :=
  { tstRun 0 [tstNear 1 5] with jobs := [], tasks := [tstTask, { tstTask with id := 9, cl := 9 }], taskSeq := 10 }.tstRegs [(.mgtPart 0, 0x51100)]

theorem test_PartitionResetDone : tstResetting.fw = [] ∧ tstResetting.resetting 0 = true ∧ (∀ j < 16, (tstResetting.job 0 j).stat = .free)
    ∧ tstResetting.partQuiet 0 = true ∧ 0 ∈ tstResetting.diesOf 0 ∧ 1 ∉ tstResetting.diesOf 0 := by decide +kernel

theorem test_HatchClosedDone : let s := tstUp.tstRegs [(.hatchEntry 0 1023 0, 2 + 3 * 65536)]
    (s.hatch 1023).state = 2 ∧ s.hatchBusy 1023 = false ∧ tstNext (exec (.hatchClosedDone 1023) s) (fun u => (u.hatch 1023).state == 0) = true := by
  decide +kernel

theorem test_PhaseChange : let s := { tstUp with parts := [(0, { Part.init with request := some (1, false) })] }
    s.fw = [] ∧ (s.part 0).request = some (1, false) ∧ s.phaseReady 0 = true := by decide +kernel

/-- A share of 4 slots of job 0 in a partition of phase 1, nothing queued. -/
def tstGen : State :=
  { tstUp.tstRegs [(.seqShare 0, 2 ^ 36 + 4 * 65536), (.seqPool 0, 1 * 2 ^ 9 + 2 ^ 40 * 8), (.seqSet 0, 0x40001), (.seqRows 0, 0x100000 + 100 * 2 ^ 28)] with
    parts := [(0, { Part.init with phase := 1 })] }

theorem test_GenStepBoundary : tstGen.shareEn 0 = true ∧ (tstGen.part 0).phase = 1 ∧ tstGen.seqEnded 0 = true
    ∧ (tstGen.job 0 (tstGen.seqCfg 0).job).stat = .running ∧ tstGen.hostLost = false ∧ (tstGen.part 0).request = none := by decide +kernel

/-- One granary, job 0 at step 3. -/
def tstStep (b : Job) : State := (tstUp.tstOne.tstRegs [(.gateCfg 0, 7)]).tstJob b
def tstPkt (t v : Nat) : BitVec 128 := (Packet.mk t (v != 0) v 5 0x40000000).word
def tstB : Job := { Job.init with stat := .running, t := 3 }
def tstRootCfg : StepCfg := { StepCfg.init with members := [7, 9, 11], root := 7 }
def tstMemberCfg : StepCfg := { StepCfg.init with members := [7, 9], root := 9 }

theorem test_EndOfBackward : let s := tstStep { tstB with stage := .backward }
    (s.job 0 0).stage = .backward ∧ (s.job 0 0).clearing = false ∧ s.jobIdle 0 0 = true := by decide +kernel

theorem test_DevicePacketFormed : let a := tstStep { tstB with stage := .reduce, packets := [(0, tstPkt 3 0)] }
    let m := tstStep { tstB with stage := .reduce, packets := [(0, tstPkt 3 0)], cfg := tstMemberCfg }
    (a.job 0 0).stage = .reduce ∧ a.alone (a.job 0 0).cfg = true ∧ (m.job 0 0).stage = .reduce ∧ m.isRoot tstMemberCfg = false := by decide +kernel

def tstRoot : State := tstStep { tstB with stage := .hold, cfg := tstRootCfg, device := some (tstPkt 3 0) }

/-- A row with packets of members 1 and 2 of a list, at slots 1 and 2; and one with the packet of member 1 only. -/
def tstRed (s : State) (w1 w2 : BitVec 128) (both : Bool) : State :=
  s.setRow (.loft 0 100) (tstFull (w1.toNat * 2 ^ 128 + w2.toNat * 2 ^ 256 + 2 ^ 3969 + (if both then 2 ^ 3970 else 0)))
def tstRedRows : List RowRef := [.loft 0 100]

/-- ROOT with the packets of both others, and of one. -/
theorem test_ReductionComplete : let a := tstRed tstRoot (tstPkt 3 0) (tstPkt 3 0) true; let b := tstRed tstRoot (tstPkt 3 0) 0 false
    tstRedRows.all rowExists = true ∧ a.rootWaits 0 0 = true ∧ (tstRoot.others tstRootCfg).length = 2 ∧ a.memberPackets tstRootCfg tstRedRows = [(9, tstPkt 3 0), (11, tstPkt 3 0)]
      ∧ b.rootWaits 0 0 = true ∧ b.memberPackets tstRootCfg tstRedRows = [(9, tstPkt 3 0)]
      ∧ tstNext (exec (.reductionComplete 0 0 tstRedRows) a) (fun u => (u.job 0 0).result.isSome && (u.row (.loft 0 100)).tag == .empty) = true := by
  decide +kernel

/-- ROOT is fabric 9, at place 1 of the members. -/
def tstMember : State := tstStep { tstB with stage := .hold, cfg := tstMemberCfg, device := some (tstPkt 3 0) }

theorem test_ReductionResult : let m := tstRed tstMember (tstPkt 3 0) 0 false; let z := tstRed (tstStep { tstB with cfg := tstMemberCfg }) (tstPkt 3 0) 0 false
    (m.job 0 0).stage = .hold ∧ (m.job 0 0).result = none ∧ m.resultIn 0 0 tstRedRows = some (tstPkt 3 0) ∧ m.awaits 0 0 = true
      ∧ z.resultIn 0 0 tstRedRows = some (tstPkt 3 0) ∧ z.awaits 0 0 = false ∧ (packetOf (tstPkt 3 0)).void = false
      ∧ (packetOf (tstPkt 3 0)).step = 3 ∧ (packetOf (tstPkt 3 1)).void = true
      ∧ tstNext (exec (.reductionResult 0 0 tstRedRows) m) (fun u => (u.job 0 0).arrived == some (tstPkt 3 0)) = true
      ∧ ((m.useResult 0 0 (tstPkt 3 0)).job 0 0).stage = .update := by decide +kernel

/-- Record 5's packet from ROOT, of the step of this device's own. -/
theorem test_LayerNormResult : let n : NormOut := ⟨5, tstPkt 3 0, true, .layerNorm, false⟩
    let s := tstRed (tstStep { tstB with cfg := tstMemberCfg, normOut := [n] }) (tstPkt 3 0) 0 false
    List.find? (fun (x : NormOut) => x.record == 5) (s.job 0 0).normOut = some n ∧ s.normIn tstMemberCfg n tstRedRows false = some (packetOf (tstPkt 3 0))
      ∧ s.winHolds 5 = false ∧ s.fw = [] ∧ (packetOf (tstPkt 3 0)).void = false ∧ (packetOf (tstPkt 3 0)).step = (packetOf n.pkt).step
      ∧ tstNext (exec (.layerNormResult 0 0 5 ⟨tstRedRows, false⟩) s) (fun u => u.normStep 0 5 == 3) = true := by decide +kernel

/-- W, G and moments of a record: tensors 1 to 4, update-owned. -/
def tstWinTensors : List (Reg × Nat) :=
  [(.ttEntry 0 1 0, 1025), (.ttEntry 0 1 2, 16), (.ttEntry 0 2 0, 1025 + 2 ^ 28), (.ttEntry 0 2 1, 8192), (.ttEntry 0 2 2, 16),
    (.ttEntry 0 3 0, 1025), (.ttEntry 0 3 1, 16384), (.ttEntry 0 3 2, 8), (.ttEntry 0 4 0, 1025), (.ttEntry 0 4 1, 20480), (.ttEntry 0 4 2, 8)]

/-- Record 3 with its tensors and granary 0's command of `n + 1` records from it, in a state. -/
def tstWin (norm t n st : Nat) : State :=
  (((tstUp.tstOne.tstRegs [(.layer 0 3 0, 1 + 4096 * 2 ^ 24), (.layer 0 3 1, 1 + 2 * 2 ^ 15 + 3 * 2 ^ 30 + 4 * 2 ^ 45)]).tstRegs tstWinTensors).tstRegs
    [(.winCmd 0 0, norm + 3 * 2 ^ 8 + n * 2 ^ 20), (.winCmd 0 1, t), (.winCmd 0 2, 0x3F800000), (.winStatus 0, st)]).setPage 0 0 (mkPage 1 3 1 0)

/-- A GO in RUNNING is ignored, with KS_BUSY in a STEP event. -/
theorem test_WinGo_busy : let s := { tstWin 0 1 0 4 with win := some ⟨0, 0, .update, 1, [(3, 1)], true, [0], false, 0, 0⟩ }
    s.winSt 0 = 4 ∧ tstNext (exec (.winGo 0) s) (fun u => u.winSt 0 == 4 && decide (u.evHead ≠ s.evHead)) = true := by decide +kernel

theorem test_WinGo : 0 ∉ (tstWin 0 1 0 0).shape.deadGran ∧ (tstWin 0 1 0 0).winSt 0 = 0 ∧ (tstWin 0 1 0 2).winSt 0 = 2
    ∧ tstNext (exec (.winGo 0) (tstWin 0 1 0 0)) (fun u => u.winSt 0 == 2 || u.winSt 0 == 3) = true := by decide +kernel

theorem test_WinRelease_withhold : let s := tstWin 0 1 0 2; let w := tstWin 0 1 0 3
    s.allAsked = true ∧ s.jobCopies (s.winPart 0) (s.winCmd 0).job = false ∧ (∀ h ∈ s.granaries, s.winSt h = 2) ∧ (s.winCmd 0).norm = false ∧ (s.winCmd 0).first + (s.winCmd 0).count ≤ 4096
      ∧ (tstWin 1 0 0 2).allAsked = true ∧ ((tstWin 1 0 0 2).winCmd 0).norm = true ∧ w.winSt 0 = 3 ∧ w.allAsked = true ∧ 0 ∈ w.granaries
      ∧ w.hostLost = false := by decide +kernel

def tstWinRun (k : WinKind) (l : List (Nat × Nat)) : WinRun := ⟨0, 0, k, 1, l, true, [0], false, 0, 0⟩

theorem test_WinPassDone : ∀ w ∈ [tstWinRun .update [(3, 1), (7, 2)], tstWinRun .update [(3, 1)], tstWinRun .layerNorm [(3, 1)], tstWinRun .lazyNorm [(3, 1)],
      tstWinRun .restore [(3, 1)]],
    let s := { tstWin 0 1 0 5 with win := some w }
    w.part < 12 ∧ w.job < 16 ∧ w.posted = true ∧ s.allAsked = true ∧ s.jobCopies w.part w.job = false ∧ (∀ h ∈ s.granaries, s.winSt h = 5)
      ∧ (∀ i ∈ s.updated 0 0, (s.layer i).lazy_ = false) := by decide +kernel

/-- Record 3 is lazy, and the step is divisible by 1,024. -/
theorem test_WinPassDone_lazy : let w := { tstWinRun .update [(3, 1)] with step := 1024 }
    let s := { (tstWin 0 1 0 5).tstRegs [(.layer 0 3 0, 33 + 4096 * 2 ^ 24)] with win := some w }
    (s.updated 0 0).filter (fun i => (s.layer i).lazy_) = [3] ∧ w.kind = .update ∧ w.step % 1024 = 0 ∧ s.allAsked = true
      ∧ s.jobCopies w.part w.job = false ∧ (∀ h ∈ s.granaries, s.winSt h = 5) := by decide +kernel

/-! Witnesses for the statements of links and the host. -/

/-- Port 5 in a state. -/
def tstPort (st : Nat) (x : Port) : State := { tstUp.tstRegs [(.gatePort 5, st * 2 ^ 32)] with ports := [(5, x)] }
def tstPort0 : Port := { Port.init with credits := 512 }
def tstFr (n : Nat) : Frame := ⟨BitVec.ofNat 96 n, BitVec.ofNat 4096 n⟩
/-- The frames sent on port 5, and nothing else. -/
def tstSent (l : List Emit) (fs : List Frame) : Bool :=
  (l.map fun e => match e with
    | .frame 5 g _ => some g
    | _ => none) == fs.map some
def tstCtlFrame (kind : Nat) (l : List (Nat × Nat)) : Frame := ⟨controlHdr kind l, 0⟩
/-- A HELLO goes out on port 5. -/
def tstHelloOut (e : Option Emit) : Bool := match e with
  | some (.hello 5 _) => true
  | _ => false

theorem test_LinkPortStates_train : let s := tstPort 1 tstPort0
    (s.gate (gateOf 5)).ot = [] ∧ s.portState 5 = 1 ∧ gateOf 5 ∉ s.shape.deadGate
      ∧ tstNext (exec (.linkTrained 5) s) (fun u => u.portState 5 == 2 && tstHelloOut u.outbox.getLast?) = true
      ∧ tstNext (exec (.linkTrainTimeout 5) s) (fun u => u.portState 5 == 6 && u.fld (.gatePort 5) F.gatePortReason == 1) = true := by decide +kernel

theorem test_LinkPortStates_windows : (tstPort 2 tstPort0).portState 5 = 2 ∧ (tstPort 3 tstPort0).portState 5 = 3 ∧ (tstPort 5 tstPort0).portUp 5 = true
    ∧ (tstPort 4 { tstPort0 with rekey := true }).portUp 5 = true
    ∧ berOutcome 1700000 0 = 4 ∧ berOutcome 1700000 1 = 5 ∧ berOutcome 1700001 0 = 5 ∧ berOutcome 17000001 0 = 6
    ∧ tstNext (exec (.linkBerWindow 5 1700000 3 1) (tstPort 3 tstPort0)) (fun u => u.portState 5 == 5) = true := by decide +kernel

theorem test_LinkPortStates_up : let s := tstPort 4 { tstPort0 with replays := 16, rekeyAsk := true, txSeg := 2 ^ 32 }
    let k := s.tstRegs [(.gatePort 5, 4 * 2 ^ 32 + 2)]
    s.portUp 5 = true ∧ k.portUp 5 = true ∧ k.flag (.gatePort 5) F.gatePortEncrypt = true ∧ (s.port 5).txSegment = []
      ∧ tstNext (exec (.linkRetrain 5 true) s) (fun u => u.portState 5 == 6 && u.fld (.gatePort 5) F.gatePortReason == 9) = true
      ∧ tstNext (exec (.portRekey 5) s) (fun u => (u.port 5).rekey && tstHelloOut u.outbox.head?) = true
      ∧ tstNext (exec (.segmentRekey 5) k) (fun u => (u.port 5).rekey && tstHelloOut u.outbox.head?) = true := by decide +kernel

theorem test_Replay : let s := tstPort 4 { tstPort0 with replay := [(7, tstFr 1), (8, tstFr 2)], unacked := 3, rxFreed := 2, rxNext := 9, rxArr := 9 }
    s.portUp 5 = true ∧ (s.port 5).segTags = [] ∧ (s.port 5).nak = false ∧ (s.port 5).dry = false
      ∧ tstNext (exec (.replayTimer 5) s) (fun u => u.outbox.length == 3 && (u.port 5).replays == 1) = true
      ∧ tstNext (exec (.ackTimer 5) s) (fun u => tstSent u.outbox [tstCtlFrame 1 [(8, 0), (16, 9), (16, 2)]] && (u.port 5).unacked == 0) = true
      ∧ tstNext (exec (.badCrcFrame 5) s) (fun u => tstSent u.outbox [tstCtlFrame 2 [(8, 0), (16, 9)]] && (u.port 5).nak) = true := by
  decide +kernel

theorem test_Replay_nak_dry : let s := tstPort 4 { tstPort0 with unacked := 3, rxFreed := 2, dry := true, nak := true }
    s.portUp 5 = true ∧ tstNext (exec (.ackTimer 5) s) (fun u => (u.port 5).rxFreed == 2 && (u.port 5).unacked == 0) = true
      ∧ tstNext (exec (.nakTimer 5) s) (fun u => tstSent u.outbox [tstCtlFrame 2 [(8, 0), (16, 0)]]) = true
      ∧ tstNext (exec (.badCrcFrame 5) s) (fun u => u.outbox == []) = true := by decide +kernel

theorem test_Replay_reserved : let s := tstPort 4 { tstPort0 with unacked := 30, rxNext := 65535, rxArr := 65535 }
    fType (BitVec.ofNat 96 7) = 7 ∧ fType (BitVec.ofNat 96 0x79) = 9 ∧ cKind (BitVec.ofNat 96 0x79) = 7 ∧ (s.port 5).rxHeld = []
      ∧ s.flag (.gatePort 5) F.gatePortEncrypt = false
      ∧ tstNext (exec (.reservedTypeFrame 5 7) s) (fun u => (u.port 5).rxNext == 0 && (u.port 5).unacked == 31) = true
      ∧ tstNext (exec (.reservedTypeFrame 5 0x79) s) (fun u => u.port 5 == s.port 5) = true := by decide +kernel

/-- A frame for row `off` of hatch 7 with tag 9, generation 5 and token 11. -/
def tstReq (kind off flags : Nat) (d : Row) : Frame :=
  ⟨BitVec.ofNat 96 (kind + 9 * 2 ^ 4 + flags * 2 ^ 17 + 7 * 2 ^ 20 + off * 2 ^ 30 + 5 * 2 ^ 56 + 11 * 2 ^ 64), d⟩
/-- Hatch 7 of gate 0 leads to rows of core 0's near store, or of partition space, for any peer; a frame waits on loopback. -/
def tstGate (s : State) (base : Nat) (f : Frame) : State :=
  { s.tstRegs [(.hatchEntry 0 7 0, 0x5003D + 11 * 2 ^ 32), (.hatchEntry 0 7 1, base), (.hatchEntry 0 7 2, 7)] with loop := [f] }
def tstNearBase : Nat := 2 * 2 ^ 52 + 512 * 16
/-- The frame is taken on loopback and passes its hatch's checks, or is refused. -/
def tstTakes (s : State) (f : Frame) : Bool :=
  (s.loop.head? == some f) && !s.shape.deadGate.contains 0 && s.wellFormed 12 f && (s.port 12).rxHeld.isEmpty && (s.gate (gateOf 12)).park.isEmpty
    && s.copying.isEmpty && s.moves.isEmpty
def tstLands (s : State) (f : Frame) : Bool := tstTakes s f && s.hatchCheck 12 f == 0
def tstTarget (s : State) (f : Frame) : Target := s.hatchRow 12 (s.hatchFor 12 (fHatch f.hdr)) (fOffset f.hdr)

theorem test_FramesLand_refused : ∀ k ∈ [1, 2, 3, 4, 5], let f := tstReq k 8 0 0; let s := tstGate tstUp tstNearBase f
    tstTakes s f = true ∧ fType f.hdr = k ∧ s.hatchCheck 12 f ≠ 0 := by decide +kernel

theorem test_FramesLand_write : let f := tstReq 1 1 0 33; let s := tstGate tstUp tstNearBase f; let k := s.setRow (.near 0 17) (tstFull 1)
    tstLands s f = true ∧ tstTarget s f = .row (.near 0 17) ∧ fillOk (s.row (.near 0 17)) false = true
      ∧ tstLands k f = true ∧ fillOk (k.row (.near 0 17)) false = false
      ∧ tstNext (exec (.frameWrite 12 ⟨f, 0⟩) s) (fun u => (u.row (.near 0 17)) == ⟨33, .full, none, none, none⟩) = true
      ∧ tstNext (exec (.frameWrite 12 ⟨f, 0⟩) k) (fun u => (u.gate 0).park == [⟨12, some 0, f, some (.near 0 17)⟩]) = true := by decide +kernel

/-- An overwrite with POISON of a FULL row; rows taken by no one are required. -/
theorem test_FramesLand_overwrite : let f := tstReq 2 1 2 33; let s := (tstGate tstUp tstNearBase f).setRow (.near 0 17) (tstFull 1)
    let k := s.setRow (.near 0 17) { tstFull 1 with taker := some 3 }
    tstLands s f = true ∧ fillOk (s.row (.near 0 17)) true = true ∧ tstLands k f = true ∧ fillOk (k.row (.near 0 17)) true = false
      ∧ tstNext (exec (.frameWriteOw 12 ⟨f, 0⟩) s) (fun u => (u.row (.near 0 17)) == ⟨33, .poison, none, none, none⟩) = true := by decide +kernel

/-- A scratch tensor of job 0 on page 0 in frame 3; and the update-owned one for accumulate-writes. -/
def tstScratch : State := (tstUp.tstRegs (tstTensor 5 (1 + 2 ^ 9) 4096 0 0)).setPage 0 0 (mkPage 1 3 5 0)

theorem test_FramesLand_memory : let f := tstReq 1 1 0 33; let s := tstGate tstScratch 0 f; let g := tstReq 3 1 0 0x3F80; let k := tstGate (tstAccum 0) 0 g
    tstLands s f = true ∧ tstLands k g = true ∧ (k.job 0 0).clearing = false
      ∧ tstTarget k g = .lp (k.locate (.gate 0) 0 0 1) 1 ∧ tstTarget s f = .lp (s.locate (.gate 0) 0 0 1) 1
      ∧ tstNext (exec (.frameWrite 12 ⟨f, 0⟩) s) (fun u => u.lp (3 * 4096 + 1) == .of 33 false) = true
      ∧ tstNext (exec (.frameAccum 12 ⟨g, 0⟩) k) (fun u => u.lp (3 * 4096 + 1) == .of 0x3F80 false) = true := by decide +kernel

/-- A count of values equal to 1 in one FP32 row, with its mask. -/
theorem test_FramesLand_count : let f := tstReq 4 1 0 (BitVec.ofNat 4096 (0x3F800000 + 2 ^ 35)); let s := (tstGate tstUp tstNearBase f).setRow (.near 0 17) (tstFull 0x3F800000)
    tstLands s f = true ∧ (Fmt.ofCode (countReq f.payload).fmt).isSome = true ∧ (countReq f.payload).mask = true
      ∧ s.firstUnread [.row (.near 0 17)] = none ∧ (countReq f.payload).rows = 1 ∧ tstTarget s f = .row (.near 0 17)
      ∧ tstNext (exec (.frameCountReq 12 ⟨f, 0⟩) s) (fun u => u.loop.length == 2 && u.loop.getLast? == some (batchOf (countHdr 9 1))) = true := by decide +kernel

theorem test_FramesLand_sreduce : let f := tstReq 5 1 0 (BitVec.ofNat 4096 (7 + 30 * 2 ^ 128)); let s := tstGate tstUp tstNearBase f
    tstLands s f = true ∧ tstTarget s f = .row (.near 0 17) ∧ (s.row (.near 0 17)).tag = .empty
      ∧ tstNext (exec (.frameSreduce 12 ⟨f, 0⟩) s) (fun u => bits (u.row (.near 0 17)).data 3840 128 == 7 && bitAt (u.row (.near 0 17)).data 3998) = true := by
  decide +kernel

/-- Channel 3 of cluster 0 awaits the one row of a COPY from a remote hatch to near row 1 of core 0. -/
def tstRdCopy : Desc := fwDesc (4 * 2 ^ 52 + 5) (rowAddr (.near 0 1)) 1 false false
def tstAwait (f : Frame) : State :=
  { tstUp.tstRegs [(.dmaChcfg 0 3, 1), (.dmaCtrl 0 3, 16)] with
    loop := [f], chans := [(3, { Chan.init with tail := [{ (Xfer.fresh 2 tstRdCopy) with next := 1, moves := [⟨0, [.asked], false⟩] }] })],
    gates := [(0, { Gate.init with ot := [(9, some ⟨12, .read, 0, 3, 2, 0, 0, false⟩)] })] }

theorem test_FramesLand_rdata_row : let f : Frame := ⟨responseHdr 6 9 false, 33⟩; let s := tstAwait f; let d := tstRdCopy; let g := s.agentOf 0 3
    tstTakes s f = true ∧ s.otGet 0 9 = some ⟨12, .read, 0, 3, 2, 0, 0, false⟩ ∧ dOp d = 0 ∧ dElem d = false ∧ dAhead d = false ∧ dMaskEn d = false
      ∧ dSkind d = 0 ∧ dDkind d = 0 ∧ dTotal d = 1 ∧ space (dSrc d) = 4 ∧ space (dDst d) = 2 ∧ s.sramRow g (dDst d) 0 = some (.near 0 1)
      ∧ fillOk (s.row (.near 0 1)) false = true ∧ s.chState 0 3 = 1 ∧ (s.chan 0 3).cur = none
      ∧ tstNext (exec (.frameRdata 12 ⟨f, 0⟩) s) (fun u => (u.row (.near 0 1)) == ⟨33, .full, none, none, none⟩ && (u.chan 0 3).done.length == 1) = true := by
  decide +kernel

theorem test_FramesLand_rdata : ∀ e ∈ [tstOt, { tstOt with expired := true }],
    let f : Frame := ⟨responseHdr 6 9 false, 33⟩
    let s := { tstUp with loop := [f], gates := [(0, { Gate.init with ot := [(9, some { e with port := 12 })] })] }
    tstTakes s f = true ∧ s.otGet (gateOf 12) (fTag f.hdr) = some { e with port := 12 } ∧ (s.chan e.cl e.ch).cur = none ∧ (s.chan e.cl e.ch).tail = []
      ∧ tstNext (exec (.frameRdata 12 ⟨f, 0⟩) s) (fun u => u.otGet 0 9 == none) = true := by decide +kernel

/-- A READ that takes its row. -/
theorem test_FramesLand_batch : let e := (tstReq 1 1 1 0).hdr; let f := batchOf e; let s := (tstGate tstUp tstNearBase f).setRow (.near 0 17) (tstFull 33)
    tstTakes s f = true ∧ batchEntries f = [e] ∧ fType e = 1 ∧ s.hatchCheck 12 (batchOf e) = 0 ∧ fFlag e = true
      ∧ s.hatchRow 12 (s.hatchFor 12 (fHatch e)) (fOffset e) = .row (.near 0 17) ∧ dmaReadOk (s.row (.near 0 17)) true = true
      ∧ tstNext (exec (.frameBatch 12 ⟨f, 0⟩) s) (fun u => (u.row (.near 0 17)).tag == .empty && u.loop == [⟨responseHdr 6 9 false, 33⟩]) = true := by
  decide +kernel

def tstCtl (s : State) (kind : Nat) (h : BitVec 96) : Bool := s.portUp 5 && fType h == 9 && cKind h == kind

theorem test_Control_refused : ∀ k ∈ [1, 2, 3, 4, 6], let h := controlHdr k [(88, 2 ^ 87)]
    tstCtl (tstPort 4 tstPort0) k h = true ∧ controlOk h = false := by decide +kernel

theorem test_Control_ack_nak : let h := controlHdr 1 [(8, 0), (16, 8), (16, 2)]; let n := controlHdr 2 [(8, 0), (16, 8)]; let m := controlHdr 2 [(8, 0), (16, 9)]
    let s := tstPort 4 { tstPort0 with replay := [(7, tstFr 1), (8, tstFr 2)], txNext := 9, credits := 511 }
    tstCtl s 1 h = true ∧ controlOk h = true ∧ (s.port 5).blocked = [] ∧ tstCtl s 2 n = true ∧ controlOk n = true ∧ controlOk m = true
      ∧ tstNext (exec (.ctlAck 5 h) s) (fun u => (u.port 5).replay == [(8, tstFr 2)] && (u.port 5).credits == 512) = true
      ∧ tstNext (exec (.ctlNak 5 n) s) (fun u => tstSent u.outbox [tstCtlFrame 3 [(8, 0), (16, 8)], tstFr 2]) = true
      ∧ tstNext (exec (.ctlNak 5 m) s) (fun u => u.ports == s.ports && u.outbox == s.outbox) = true := by decide +kernel

theorem test_Control_replay_idle : let h := controlHdr 3 [(8, 0), (16, 8)]; let i := controlHdr 6 []; let s := tstPort 4 { tstPort0 with nak := true, rxNext := 8 }
    tstCtl s 3 h = true ∧ controlOk h = true ∧ tstCtl s 6 i = true ∧ controlOk i = true ∧ (s.port 5).nak = true
      ∧ tstNext (exec (.ctlReplay 5 h) s) (fun u => (u.port 5).rxArr == 8 && !(u.port 5).nak) = true
      ∧ tstNext (exec (.ctlReplay 5 h) (tstPort 4 { tstPort0 with nak := true, rxNext := 9 })) (fun u => (u.port 5).nak) = true
      ∧ tstNext (exec (.ctlReplay 5 h) (tstPort 4 tstPort0)) (fun u => (u.port 5).rxArr == 8 && (u.port 5).rxNext == 0) = true := by decide +kernel

/-- A segment's tag, its true one and one that names another segment; the second failure holds the port down (reason 8). -/
theorem test_Control_tag : let h := controlHdr 4 [(24, 0), (32, 3)]; let w := controlHdr 4 [(24, 0), (32, 4)]
    let s := tstPort 4 { tstPort0 with segment := [tstFr 1], rxSeg := 3 }; let k := tstPort 4 { tstPort0 with segment := [tstFr 1], rxSeg := 3, segFail := true }
    tstCtl s 4 h = true ∧ controlOk h = true ∧ bits h 32 32 = 3 ∧ tstCtl s 4 w = true ∧ controlOk w = true ∧ bits w 32 32 ≠ 3
      ∧ (k.gate (gateOf 5)).ot = [] ∧ (tstPort 4 tstPort0).port 5 = tstPort0 ∧ tstPort0.segment = []
      ∧ tstNext (exec (.ctlSegTag 5 w 0) s) (fun u => (u.port 5).segFail && (u.port 5).nak) = true
      ∧ tstNext (exec (.ctlSegTag 5 w 0) k) (fun u => u.portState 5 == 6 && u.fld (.gatePort 5) F.gatePortReason == 8) = true := by decide +kernel

/-- The partner is fabric 9, the device fabric 7. -/
def tstHello (hello : Bool) : State :=
  { tstUp.tstRegs [(.gateCfg 0, 7), (.gatePort 5, 2 * 2 ^ 32 + 9 * 2 ^ 16)] with ports := [(5, { tstPort0 with hello := hello })] }

def tstHi (n : Nat) : Hello := ⟨BitVec.ofNat 16 n, 0, [], false, [], []⟩

/-- A HELLO may come while this device's own is out, and then a PROOF; which of the reasons holds rests on what the certificates and
signatures verify to. -/
theorem test_Control_handshake : let s := { tstHello false with ports := [(5, { tstPort0 with mine := some (8, tstHi 7) })] }
    let k := { tstHello true with ports := [(5, { tstPort0 with hello := true, mine := some (8, tstHi 7), theirs := some (tstHi 9) })] }
    s.portState 5 = 2 ∧ (s.port 5).hello = false ∧ (s.port 5).mine = some (8, tstHi 7) ∧ s.fld (.gatePort 5) F.gatePortPartner = 9 ∧ s.ownFabric = 7
      ∧ k.portState 5 = 2 ∧ (k.port 5).hello = true ∧ (k.port 5).rekey = false ∧ (k.port 5).mine = some (8, tstHi 7)
      ∧ (k.port 5).theirs = some (tstHi 9) ∧ helloPair (tstHi 9) (tstHi 7) = (tstHi 7, tstHi 9) := by decide +kernel

/-! The host. -/

/-- The check value of this CRC-32 over the nine digits 1 to 9. -/
theorem test_crc : crcBytes 9 0x393837363534333231 0xFFFFFFFF ^^^ 0xFFFFFFFF = 0xCBF43926 := by decide +kernel

def tstMods (a b : Mod) : State := { tstUp with mods := [a, b] }

theorem test_Modules : let s := tstMods .x64 (.x32 false); let k := tstMods .training .down
    s.mods.length = 2 ∧ 3 ≤ s.bootStage ∧ (s.modOf 0).up = true ∧ 2 ∈ s.tagsOf 0 ∧ 3 ∉ s.tagsOf 0 ∧ k.modOf 0 = .training ∧ k.anyUp = false ∧ k.hostLost = false
      ∧ tstNext (exec (.moduleLinkLoss 0) s) (fun u => decide (u.modOf 0 = .training) && u.lostTags.contains 254) = true
      ∧ tstNext (exec (.moduleTrained 0 (.half true) 3) k) (fun u => decide (u.modOf 0 = .x32 true)) = true := by decide +kernel

/-- A host transaction of a type with tag 5 at an address. -/
def tstHost (type addr size : Nat) : BitVec 128 := BitVec.ofNat 128 (type + 5 * 2 ^ 4 + size * 2 ^ 20 + addr * 2 ^ 32)

theorem test_HostTransactions : let s := tstUp; let r := tstHost 1 0x2000 1; let w := tstHost 2 0x2000 0
    s.carries 1 5 = true ∧ s.carries 0 5 = false ∧ hTag r = 5 ∧ hType r = 1 ∧ s.hostRefusal r false = 0 ∧ hAddr r = 0x2000 ∧ hType w = 2 ∧ s.hostRefusal w true = 0
      ∧ s.hostRefusal (tstHost 2 0x10 0) true = 0 ∧ hAddr (tstHost 2 0x10 0) = 0x10 ∧ s.hostRefusal (tstHost 2 0x40000 0) true = 2
      ∧ s.hostRefusal (tstHost 1 0x20 0) false = 1 ∧ s.hostRefusal (tstHost 1 0x2004 0) false = 1 ∧ s.hostRefusal (tstHost 1 0x2000 3) false = 5
      ∧ sidebandMay (tstHost 1 0x2000 0) = false ∧ s.hostRefusal (tstHost 1 0x18 0) false = 0 ∧ hAddr (tstHost 1 0x18 0) < 0x20 := by decide +kernel

theorem test_HostWrite_bytes : tstNext (exec (.hostWrite 1 (tstHost 2 0x2000 0) 0x0807060504030201) tstUp)
    (fun u => (u.winByte 0x2000).toNat == 1 && (u.winByte 0x2007).toNat == 8 && (u.winByte 0x2008).toNat == 0) = true := by decide +kernel

/-- Mailbox 3 of the management block, sent to by host tag 5: empty, full, full with a word waiting. -/
def tstMbx (full waits : Nat) : State :=
  { tstUp.tstRegs [(.mbxData .mgmt 3, 77), (.mbxSender .mgmt 3, 9), (.mbxStatus .mgmt, 8 * full), (.mbxWait .mgmt, 8 * waits)] with
    mbxWaits := if waits = 1 then [⟨.mgmt, 3, 6, 88, 10, none⟩] else [] }

theorem test_Mailbox_write : let s := tstMbx 0 0; let f := tstMbx 1 0; let w := tstMbx 1 1
    s.mbxReach .mgmt 5 = true ∧ mbxSends .mgmt 3 5 = true ∧ 5 ∉ s.lostTags ∧ s.receiverInReset .mgmt 3 = false ∧ s.mbxFull .mgmt 3 = false
      ∧ f.mbxFull .mgmt 3 = true ∧ f.mbxWaiting .mgmt 3 = false ∧ w.mbxFull .mgmt 3 = true ∧ w.mbxWaiting .mgmt 3 = true ∧ mbxSends .mgmt 40 5 = false
      ∧ s.mbxResets .mgmt 0x100 = false ∧ (tstUp.tstRegs [(.mgtPart 0, 0x51100)]).mbxResets (.die 0) 0x100 = true ∧ (tstUp.tstRegs [(.mgtPart 0, 0x51100)]).mbxReach (.die 0) 0x100 = true
      ∧ mbxReceives (.die 0) 40 0x100 = true ∧ tstNext (exec (.mailboxWrite .mgmt 3 5 99) s) (fun u => (u.rd (.mbxData .mgmt 3)).toNat == 99 && u.mbxFull .mgmt 3) = true
      ∧ tstNext (exec (.mailboxWrite .mgmt 3 5 99) f) (fun u => u.mbxWaits == [⟨.mgmt, 3, 5, 99, 10, none⟩]) = true
      ∧ tstNext (exec (.mailboxWrite .mgmt 3 5 99) w) (fun u => u.outbox == [.access 5 2 3 0]) = true := by decide +kernel

theorem test_Mailbox_read : let s := tstMbx 0 0; let f := tstMbx 1 0; let w := tstMbx 1 1
    s.mbxReach .mgmt 0x100 = true ∧ mbxReceives .mgmt 3 0x100 = true ∧ (f.takeWait .mgmt 3).1 = none ∧ (w.takeWait .mgmt 3).1 = some ⟨.mgmt, 3, 6, 88, 10, none⟩
      ∧ mbxReceives .mgmt 3 5 = false ∧ (SMap.get (fun _ => []) s.cplq 3).length = 0 ∧ (SMap.get (fun _ => []) s.cplq 35).length < 64
      ∧ tstNext (exec (.mailboxRead .mgmt 3 0x100) f) (fun u => u.outbox == [.access 0x100 0 0 77] && !u.mbxFull .mgmt 3) = true
      ∧ tstNext (exec (.mailboxRead .mgmt 3 0x100) w) (fun u => u.mbxFull .mgmt 3 && (u.rd (.mbxData .mgmt 3)).toNat == 88) = true
      ∧ tstNext (exec (.mailboxWaitTimeout .mgmt 3) w) (fun u => u.mbxWaits.isEmpty && !u.mbxWaiting .mgmt 3) = true := by decide +kernel

theorem test_Locks : let s := tstUp.tstRegs [(.mbxLock .mgmt 2, 5)]
    s.mbxReach .mgmt 5 = true ∧ mbxOuter .mgmt 5 = true ∧ mbxInner .mgmt 0x100 = true ∧ s.mbxReach .mgmt 0x100 = true
      ∧ tstNext (exec (.lockRead .mgmt 2 6) s) (fun u => u.outbox == [.access 6 0 0 5]) = true
      ∧ tstNext (exec (.lockRead .mgmt 3 6) s) (fun u => u.fld (.mbxLock .mgmt 3) F.mbxLockOwner == 6) = true
      ∧ tstNext (exec (.lockForce .mgmt 2 0x100) s) (fun u => u.fld (.mbxLock .mgmt 2) F.mbxLockOwner == 0) = true
      ∧ tstNext (exec (.lockForce .mgmt 2 6) s) (fun u => u.fld (.mbxLock .mgmt 2) F.mbxLockOwner == 5) = true := by decide +kernel

/-! Witnesses for the statements of firmware commands: word commands, and block commands at 0x2000 of the window. -/

def tstFwWord (op arg : Nat) : FwCmd := ⟨0, 1, BitVec.ofNat 64 (op + 5 * 2 ^ 16 + arg)⟩
def tstFwBlk (op n : Nat) : FwCmd := ⟨0, 1, BitVec.ofNat 64 (op + 2 ^ 8 + 5 * 2 ^ 16 + 0x2000 * 2 ^ 32 + (n - 1) * 2 ^ 50)⟩
/-- A state with the block of a command of `n` lines for partition 0: its result in `size` bytes at 0x60000, body fields at bytes. -/
def tstFwAt (s : State) (op n size : Nat) (body : List (Nat × Nat)) : State :=
  s.winWrite 0x2000 (64 * n) (op + 5 * 2 ^ 16 + (if size = 0 then 0 else 0x60000 * 2 ^ 64) + size * 2 ^ 96 + tstBits (body.map fun p => (8 * p.1, p.2)))
/-- The command is read at once and passes its checks. -/
def tstFirst (s : State) (op : Nat) (c : FwCmd) : Bool :=
  fwOk c && s.fwReads op c && s.fw.isEmpty && s.readStatus (s.readCmd c) == 0 && s.bring.isNone
/-- The status of the record of CID 5. -/
def tstStatus (o : Host.Outcome State Fault Refusal) (st : Nat) : Bool :=
  tstNext o fun u => u.fw.isEmpty && u.winRead 0x40142 2 == 5 && u.winRead 0x40140 2 == st
/-- The command waits. -/
def tstWaits (o : Host.Outcome State Fault Refusal) (w : FwWait) : Bool := tstNext o fun u => u.fw.map FwOut.wait == [w]

theorem test_Fw_refused : let c := tstFwWord 0x70 (2 ^ 47); let d := tstFwWord 0x70 0; let s := { tstUp with fw := [tstUp.readCmd d] }
    fwOk c = true ∧ tstUp.fwReads 0x70 c = true ∧ tstUp.readStatus (tstUp.readCmd c) = 2 ∧ (s.readCmd d).formOk = true ∧ s.resultOk (s.readCmd d) = true
      ∧ s.fwReads 0x70 d = true ∧ tstStatus (exec (.powerLimit c) tstUp) 2 = true := by decide +kernel

/-- Mailbox 0 of the management block holds the word of a POWER_LIMIT with a reserved bit set. -/
theorem test_Fw_mailbox : let c := tstFwWord 0x70 (2 ^ 47); let s := tstUp.tstRegs [(.mbxStatus .mgmt, 1), (.mbxData .mgmt 0, c.word.toNat), (.mbxSender .mgmt 0, 1)]
    s.fwReads 0x70 c = true ∧ s.mbxFull .mgmt c.mbox = true ∧ s.mbxWaits = [] ∧ (s.fwTake c).mbxFull .mgmt c.mbox = false
      ∧ (s.fwTake c).readStatus ((s.fwTake c).readCmd c) = 2 ∧ tstStatus (exec (.powerLimit c) s) 2 = true := by decide +kernel

def tstHot : State := { tstUp with board := { tstUp.board with temps := [(0, 95000)] } }

theorem test_Fw_reset : tstFirst tstUp 3 (tstFwWord 3 (2 ^ 32)) = true ∧ (tstUp.readCmd (tstFwWord 3 (2 ^ 32))).arg 32 1 = 1 ∧ tstUp.hot = false
    ∧ tstHot.hot = true ∧ tstStatus (exec (.deviceReset (tstFwWord 3 (2 ^ 32))) tstHot) 1 = true
    ∧ tstStatus (exec (.deviceReset (tstFwWord 3 0)) tstUp) 2 = true
    ∧ tstNext (exec (.deviceReset (tstFwWord 3 (2 ^ 32))) tstUp) (fun u => u.bootStage == 4 && u.rows.isEmpty) = true := by decide +kernel

theorem test_Fw_query : let s := tstFwAt tstUp 1 1 512 []
    tstFirst s 1 (tstFwBlk 1 1) = true := by decide +kernel

theorem test_Fw_inventory : let s := tstFwAt tstUp 2 1 5280 []
    tstFirst s 2 (tstFwBlk 2 1) = true := by decide +kernel

theorem test_Fw_env : let s := tstFwAt tstUp 4 1 0 [(16, 99), (28, 1)]
    tstFirst s 4 (tstFwBlk 4 1) = true ∧ tstNext (exec (.envSet (tstFwBlk 4 1)) s) (fun u => u.board.time == 99 && u.board.flowOk) = true := by decide +kernel

theorem test_Fw_cal_read : let s := tstFwAt tstUp 0x12 1 64 [(16, 0x20003)]; let k := tstFwAt (tstUp.setCal 0x20003 [1, 2, 3]) 0x12 1 64 [(16, 0x20003)]
    let c := tstFwBlk 0x12 1
    tstFirst s 0x12 c = true ∧ tstFirst k 0x12 c = true ∧ calRecord 0x20003 = true ∧ s.cal 0x20003 = none ∧ k.cal 0x20003 = some [1, 2, 3]
      ∧ tstStatus (exec (.calRead c) s) 3 = true
      ∧ tstNext (exec (.calRead c) k) (fun u => (u.winByte 0x60000).toNat == 1 && (u.winByte 0x60002).toNat == 3) = true := by decide +kernel

theorem test_Fw_quote : let s := tstFwAt { tstUp with ports := [(5, { Port.init with quote := some [7, 8] })] } 0x14 2 64 [(80, 6)]; let c := tstFwBlk 0x14 2
    tstFirst s 0x14 c = true ∧ (s.readCmd c).body 80 0 8 = 6 ∧ (s.port 5).quote = some [7, 8]
      ∧ tstNext (exec (.attestQuote c) s) (fun u => (u.winByte 0x60001).toNat == 8) = true := by decide +kernel

/-- The own quote; a port that holds none; a source that is no port. -/
theorem test_Fw_quotes : let s := tstFwAt { tstUp with nv := { Nv.init with chain := [[1], [2], [3]] } } 0x14 2 8192 []; let c := tstFwBlk 0x14 2; let m := tstFwAt tstUp 0x14 2 64 [(80, 6)]; let k := tstFwAt tstUp 0x14 2 64 [(80, 13)]
    tstFirst s 0x14 c = true ∧ (s.readCmd c).body 80 0 8 = 0 ∧ tstFirst m 0x14 c = true ∧ (m.port 5).quote = none ∧ tstFirst k 0x14 c = true
      ∧ tstStatus (exec (.attestQuote c) m) KS.noResource = true ∧ tstStatus (exec (.attestQuote c) k) KS.badArg = true := by decide +kernel

theorem test_Fw_packs : let s := tstFwAt tstUp 0x11 1 0 [(16, 0x60000), (20, 16)]; let k := tstFwAt tstUp 0x13 1 0 [(16, 0x20003), (20, 0x60000), (24, 16)]
    tstFirst s 0x11 (tstFwBlk 0x11 1) = true ∧ s.window_ = none ∧ staged 0x60000 16 = true ∧ tstFirst k 0x13 (tstFwBlk 0x13 1) = true
      ∧ calRecord 0x20003 = true ∧ k.runningOn (calDies 0x20003) = false ∧ tstUp.runningOn (calDies 0x40000) = true := by decide +kernel

/-! Settings, pages, steps. -/

/-- The job of partition 0 is live. -/
def tstLive (s : State) (c : FwCmd) : Bool :=
  let o := s.readCmd c
  s.partOn o.part && (decide ((s.job o.part o.job).stat = .running) || decide ((s.job o.part o.job).stat = .stopped))

theorem test_Fw_job_config : let s := tstFwAt tstUp 0x27 1 0 [(16, 1), (18, 2), (32, 7), (34, 32767)]; let c := tstFwBlk 0x27 1
    tstFirst s 0x27 c = true ∧ tstLive s c = true
      ∧ tstNext (exec (.jobConfig c) s) (fun u => (u.job 0 0).frozenNext == some (true, [7, 32767])) = true := by decide +kernel

theorem test_Fw_tithe : let s := tstFwAt tstUp 0x38 1 0 [(16, 9), (18, 1022), (20, 77), (24, 255), (26, 2), (32, 3), (33, 4)]; let c := tstFwBlk 0x38 1
    tstFirst s 0x38 c = true ∧ tstLive s c = true
      ∧ tstNext (exec (.titheConfig c) s) (fun u => (u.job 0 0).titheNext == some ⟨9, 1022, 77, 255, [3, 4]⟩) = true := by decide +kernel

theorem test_Fw_step_config : let s := tstFwAt tstUp 0x40 2 0 [(16, 5), (20, 6), (26, 9), (28, 10000), (30, 2), (64, 7), (66, 9)]; let c := tstFwBlk 0x40 2
    tstFirst s 0x40 c = true ∧ tstLive s c = true
      ∧ tstNext (exec (.stepConfig c) s) (fun u => (u.job 0 0).cfgNext == some ⟨5, 6, 9, 10000, 0, 0, false, [7, 9]⟩) = true := by decide +kernel

theorem test_Fw_page_map : let s := tstFwAt tstUp 0x33 1 0 [(16, 7), (20, 2), (24, 1), (26, 5)]; let k := tstFwAt tstUp 0x33 1 0 [(16, 7), (20, 2), (26, 5)]
    let c := tstFwBlk 0x33 1
    tstFirst s 0x33 c = true ∧ tstFirst k 0x33 c = true ∧ s.partOn 0 = true ∧ (s.job 0 0).stat ≠ .killing ∧ (s.readCmd c).body 24 0 8 = 1
      ∧ (s.readCmd c).body 20 0 32 = 2 ∧ pgState (s.pageOf 0 7) = 0 ∧ pgState (s.pageOf 0 8) = 0 ∧ s.foreignTensor (s.readCmd c) 5 = false
      ∧ s.storesWf = true ∧ 2 ≤ s.freeFrames ∧ s.chans = [] ∧ s.arrivals = [] ∧ s.bringups = []
      ∧ tstNext (exec (.pageMap c) k) (fun u => u.fw.isEmpty) = true := by decide +kernel

/-- Page 7 of partition 0 in a state, frame 3, pieces received. -/
def tstPaged (st : Nat) (x : Option PageMove) : State := { tstUp.setPage 0 7 (mkPage st 3 5 0) with moves := [(pageKey 0 7, x)] }

theorem test_Fw_page_in : let s := tstFwAt (tstPaged 2 none) 0x34 1 0 [(16, 7), (19, 1), (20, 0x60000)]
    let k := tstFwAt (tstPaged 2 (some ⟨4, [0, 2, 3], false⟩)) 0x34 1 0 [(16, 7), (19, 1), (20, 0x60000)]; let c := tstFwBlk 0x34 1; let o := s.readCmd c
    tstFirst s 0x34 c = true ∧ tstFirst k 0x34 c = true ∧ tstLive s c = true ∧ tstLive k c = true ∧ pgState (s.pageOf 0 7) = 2 ∧ pgJob (s.pageOf 0 7) = 0
      ∧ o.body 19 2 1 = 0 ∧ o.body 19 0 2 = 1 ∧ staged (o.body 20 0 32) (512 * 1024) = true ∧ s.freeFrame = some 0 ∧ k.chans = []
      ∧ k.arrivals = [] ∧ k.bringups = []
      ∧ SMap.get (fun _ => none) s.moves (pageKey 0 7) = none ∧ SMap.get (fun _ => none) k.moves (pageKey 0 7) = some ⟨4, [0, 2, 3], false⟩ := by decide +kernel

theorem test_Fw_page_abandon : let s := tstFwAt (tstPaged 2 (some ⟨4, [0, 2], false⟩)) 0x34 1 0 [(16, 7), (19, 4)]; let c := tstFwBlk 0x34 1
    tstFirst s 0x34 c = true ∧ tstLive s c = true ∧ pgState (s.pageOf 0 7) = 2 ∧ pgJob (s.pageOf 0 7) = 0 ∧ (s.readCmd c).body 19 2 1 = 1
      ∧ s.chans = [] ∧ s.arrivals = [] ∧ s.bringups = [] := by decide +kernel

/-- The second piece of a page-out, its poison map at RESULT_AT. -/
theorem test_Fw_page_out_map : let s := tstFwAt (tstPaged 1 (some ⟨3, [], true⟩)) 0x35 1 128 [(16, 7), (19, 1), (20, 0x80000), (24, 9)]; let c := tstFwBlk 0x35 1
    tstFirst s 0x35 c = true ∧ tstLive s c = true ∧ pgState (s.pageOf 0 7) = 1 ∧ pgJob (s.pageOf 0 7) = 0 ∧ (s.readCmd c).resultAt = 0x60000
      ∧ (s.readCmd c).body 19 0 2 = 1 ∧ staged ((s.readCmd c).body 20 0 32) (512 * 1024) = true
      ∧ SMap.get (fun _ => none) s.moves (pageKey 0 7) = some ⟨3, [], true⟩ := by decide +kernel

theorem test_Fw_page_out : ∀ q ∈ [(0, none), (3, some ⟨3, [0], true⟩)], let s := tstFwAt (tstPaged 1 q.2) 0x35 1 0 [(16, 7), (19, q.1), (20, 0x60000), (24, 9)]
    let c := tstFwBlk 0x35 1; let o := s.readCmd c
    tstFirst s 0x35 c = true ∧ tstLive s c = true ∧ pgState (s.pageOf 0 7) = 1 ∧ pgJob (s.pageOf 0 7) = 0 ∧ o.resultAt = 0 ∧ s.pageInUse 0 7 = false
      ∧ o.body 19 0 2 = q.1 ∧ staged (o.body 20 0 32) (512 * 1024) = true ∧ SMap.get (fun _ => none) s.moves (pageKey 0 7) = q.2
      ∧ pgFrame (s.pageOf 0 7) < 9141504 ∧ s.chans = [] ∧ s.arrivals = [] ∧ s.bringups = [] := by decide +kernel

theorem test_Fw_step_result : let s := tstFwAt (tstUp.tstJob { tstB with stage := .hold }) 0x42 1 0 [(16, (tstPkt 3 0).toNat)]; let c := tstFwBlk 0x42 1
    tstFirst s 0x42 c = true ∧ tstLive s c = true ∧ (s.job 0 0).stage = .hold ∧ (s.job 0 0).result = none ∧ (s.job 0 0).arrived = none ∧ (s.job 0 0).t = 3
      ∧ (packetOf (BitVec.ofNat 128 ((s.readCmd c).body 16 0 128))).step = 3
      ∧ tstNext (exec (.stepResult c) s) (fun u => decide ((u.job 0 0).arrived = some (tstPkt 3 0) ∧ (u.job 0 0).stage = .hold)) = true := by decide +kernel

theorem test_Fw_step_void : let s := tstUp.tstJob { tstB with stage := .reduce }; let c := tstFwWord 0x43 0
    tstFirst s 0x43 c = true ∧ tstLive s c = true ∧ (s.job 0 0).stage = .reduce ∧ s.hostLost = false
      ∧ tstNext (exec (.stepVoid c) s) (fun u => decide ((u.job 0 0).stage = .none)) = true := by decide +kernel

theorem test_Fw_seq_join : let s := tstFwAt tstGen 0x51 1 0 [(16, 123), (24, 10), (28, 20)]; let c := tstFwBlk 0x51 1
    tstFirst s 0x51 c = true ∧ s.partOn 0 = true ∧ (s.seqCfg 0).en = true
      ∧ List.find? (fun i => (s.slotEnt 0 i).state == 0) (List.range (s.seqCfg 0).count) = some 0 ∧ (s.seqCfg 0).first < 16384
      ∧ tstNext (exec (.seqJoin c) s) (fun u => (u.slotEnt 0 0).state == 1 && (u.slotEnt 0 0).prompt == 10) = true := by decide +kernel

/-! Commands that end with an apply. -/

theorem test_Fw_beat : let s := tstFwAt tstUp 5 1 0 [(16, 2 + 9 * 2 ^ 8)]; let c := tstFwBlk 5 1
    tstFirst s 5 c = true ∧ tstWaits (exec (.beatConfig c) s) (.apply [.beat]) = true
      ∧ tstNext (exec (.beatConfig c) s) (fun u => u.armed .beat && u.fldS .beatLen (F.beatLenLog2) == 9) = true := by decide +kernel

theorem test_Fw_power : tstFirst tstUp 0x70 (tstFwWord 0x70 (2 ^ 33)) = true ∧ tstFirst tstUp 0x71 (tstFwWord 0x71 (2 ^ 41)) = true
    ∧ tstWaits (exec (.powerLimit (tstFwWord 0x70 (2 ^ 33))) tstUp) (.apply [.pwr]) = true
    ∧ tstWaits (exec (.powerWeight (tstFwWord 0x71 (2 ^ 41))) tstUp) (.apply [.pwr]) = true := by decide +kernel

theorem test_Fw_create : let c := tstFwWord 0x20 (tstBits [(32, 1), (40, 1), (48, 1), (52, 1), (56, 9)])
    tstFirst tstUp 0x20 c = true ∧ (tstUp.readCmd c).part = 1 ∧ (tstUp.readCmd c).arg 56 8 = 9 ∧ tstUp.partEn 1 = false
      ∧ tstWaits (exec (.partitionCreate c) tstUp) (.apply [.mgt]) = true := by decide +kernel

theorem test_Fw_tensor : let s := tstFwAt tstUp.tstOne 0x30 2 0 [(16, 6), (64, 1 + 2 ^ 9), (80, 8)]; let c := tstFwBlk 0x30 2; let o := s.readCmd c
    tstFirst s 0x30 c = true ∧ tstLive s c = true ∧ o.body 16 0 16 = 6 ∧ s.foreignTensor o 6 = false ∧ s.seals = [] ∧ imageBad o 64 (.ttEntry 0 6) = false
      ∧ o.body 64 1 4 = 0 ∧ o.body 64 5 4 = 0
      ∧ tstWaits (exec (.tensorRegister c) s) (.apply [.tt 0]) = true := by decide +kernel

theorem test_Fw_layer : let s := tstFwAt tstUp.tstOne 0x36 2 0 [(16, 6), (64, 1)]; let c := tstFwBlk 0x36 2; let o := s.readCmd c
    tstFirst s 0x36 c = true ∧ tstLive s c = true ∧ o.body 16 0 16 = 6 ∧ (s.layer 6).valid = false ∧ imageBad o 64 (.layer 0 6) = false
      ∧ o.body 64 1 4 = 0 ∧ o.body 18 0 1 = 0
      ∧ tstWaits (exec (.layerRegister c) s) (.apply [.win 0]) = true := by decide +kernel

/-- A record of a stopped job, written with its state. -/
theorem test_Fw_layer_state : let s := tstFwAt (tstUp.tstOne.tstJob { Job.init with stat := .stopped }) 0x36 3 0 [(16, 6), (18, 1), (64, 1)]; let c := tstFwBlk 0x36 3; let o := s.readCmd c
    tstFirst s 0x36 c = true ∧ tstLive s c = true ∧ (s.layer 6).valid = false ∧ imageBad o 64 (.layer 0 6) = false
      ∧ o.body 18 0 1 = 1 ∧ (s.job 0 0).stat = .stopped
      ∧ (∀ i < 4, stray (BitVec.ofNat 64 (o.body (128 + 8 * i) 0 64)) ((winStateFields i).map fun f => (f.lo, f.len)) = false)
      ∧ tstWaits (exec (.layerRegister c) s) (.apply [.win 0]) = true := by decide +kernel

/-- A device with gate 0 in service only. -/
def tstGate0 : State := { tstUp with shape := { tstUp.shape with deadGate := [1, 2, 3] } }

theorem test_Fw_hatches : let s := tstFwAt tstGate0 0x61 2 0 [(16, 1023)]; let c := tstFwBlk 0x61 2; let o := s.readCmd c
    let k := tstGate0.tstRegs [(.hatchEntry 0 7 0, 1)]; let d := tstGate0.tstRegs [(.hatchEntry 0 7 0, 2)]; let x := tstFwWord 0x62 (7 * 2 ^ 32)
    tstFirst s 0x61 c = true ∧ o.body 16 0 16 = 1023 ∧ imageBad o 64 (.hatchEntry 0 1023) = false ∧ o.body 64 8 4 = 0 ∧ (s.hatch 1023).state = 0
      ∧ tstFirst k 0x62 x = true ∧ (k.hatch 7).state = 1 ∧ tstFirst d 0x62 x = true ∧ (d.hatch 7).state = 2 ∧ tstFirst tstGate0 0x62 x = true
      ∧ tstWaits (exec (.hatchOpen c) s) (.apply [.hatch 0]) = true ∧ tstWaits (exec (.hatchClose x) k) (.apply [.hatch 0]) = true
      ∧ tstWaits (exec (.hatchClose x) d) (.hatch 7) = true ∧ tstStatus (exec (.hatchClose x) tstGate0) 8 = true := by decide +kernel

theorem test_Fw_seq : let s := tstFwAt tstUp 0x50 1 0 [(16, 0)]; let c := tstFwBlk 0x50 1
    tstFirst s 0x50 c = true ∧ s.partOn 0 = true ∧ tstWaits (exec (.seqConfig c) s) (.apply [.seq]) = true := by decide +kernel

/-- Port 5 enabled for partner 9; a partner equal to the own fabric ID breaks rule. -/
theorem test_Fw_link : let s := tstFwAt tstUp 0x60 2 0 [(16, 7), (18, 32), (32, 1 + 9 * 2 ^ 16)]; let c := tstFwBlk 0x60 2; let o := s.readCmd c
    tstFirst s 0x60 c = true ∧ o.ports = [5] ∧ o.body 18 12 4 = 0 ∧ stray (BitVec.ofNat 64 (o.body 32 0 64)) [(0, 3), (16, 16)] = false
      ∧ s.shape.deadGate = [] ∧ (({ s with fw := [o] } : State).linkShadow o).firstRule (s.liveGates.map Blk.gate) = none
      ∧ tstWaits (exec (.linkConfig c) s) (.apply [.gate 0, .gate 1, .gate 2, .gate 3]) = true := by decide +kernel

theorem test_Fw_resume : let s := tstUp.tstJob { Job.init with stat := .stopped }; let c := tstFwWord 0x23 0
    tstFirst s 0x23 c = true ∧ c.blk = false ∧ s.partOn 0 = true ∧ (s.job 0 0).stat = .stopped ∧ 0 ∈ s.clustersOf 0 := by decide +kernel

theorem test_Fw_start : let s := tstFwAt (tstUp.tstJob Job.init) 0x23 1 0 []; let c := tstFwBlk 0x23 1
    tstFirst s 0x23 c = true ∧ c.blk = true ∧ s.partOn 0 = true ∧ (s.job 0 0).stat = .free ∧ (match s.readManifest 0 0 0 with | .unreadable => true | _ => false) = true
      ∧ tstStatus (exec (.jobStart c) s) 2 = true := by decide +kernel

/-! Commands that wait for what they ask for. -/

theorem test_Fw_partition : tstFirst tstUp 0x21 (tstFwWord 0x21 0) = true ∧ tstFirst tstUp 0x22 (tstFwWord 0x22 0) = true ∧ tstUp.partOn 0 = true
    ∧ tstWaits (exec (.partitionDestroy (tstFwWord 0x21 0)) tstUp) (.reset 0 true) = true
    ∧ tstWaits (exec (.partitionReset (tstFwWord 0x22 0)) tstUp) (.reset 0 false) = true := by decide +kernel

theorem test_Fw_job_stop_kill : let s := tstUp.tstJob { Job.init with stat := .stopped }
    tstFirst tstUp 0x24 (tstFwWord 0x24 0) = true ∧ (tstUp.job 0 0).stat = .running ∧ tstFirst s 0x24 (tstFwWord 0x24 0) = true ∧ (s.job 0 0).stat = .stopped
      ∧ tstFirst tstUp 0x25 (tstFwWord 0x25 0) = true ∧ tstLive tstUp (tstFwWord 0x25 0) = true
      ∧ tstWaits (exec (.jobStop (tstFwWord 0x24 0)) tstUp) (.stop 0 0) = true ∧ tstStatus (exec (.jobStop (tstFwWord 0x24 0)) s) 0 = true
      ∧ tstWaits (exec (.jobKill (tstFwWord 0x25 0)) tstUp) (.kill 0 0) = true := by decide +kernel

theorem test_Fw_seals : let s := tstUp.tstRegs (tstTensor 5 1025 8 0 0); let k := tstUp.tstRegs (tstTensor 5 1 8 0 0); let a := 5 * 2 ^ 40
    tstFirst s 0x31 (tstFwWord 0x31 a) = true ∧ (s.tt 5).valid = true ∧ (s.tt 5).view = false ∧ (s.tt 5).cls = 2 ∧ (k.tt 5).cls = 0
      ∧ s.foreignTensor (s.readCmd (tstFwWord 0x31 a)) 5 = false ∧ tstFirst k 0x32 (tstFwWord 0x32 a) = true
      ∧ tstWaits (exec (.tensorSeal (tstFwWord 0x31 a)) s) (.seal 5) = true ∧ tstWaits (exec (.tensorUnseal (tstFwWord 0x32 a)) k) (.seal 5) = true := by
  decide +kernel

theorem test_Fw_phase_norm : tstFirst tstUp 0x44 (tstFwWord 0x44 (2 ^ 40)) = true ∧ tstFirst tstUp 0x45 (tstFwWord 0x45 (3 * 2 ^ 40)) = true
    ∧ (tstUp.job 0 0).stage = .none ∧ tstWaits (exec (.phaseSet (tstFwWord 0x44 (2 ^ 40))) tstUp) (.phase 0) = true
    ∧ tstWaits (exec (.layerNorm (tstFwWord 0x45 (3 * 2 ^ 40))) tstUp) (.normAsk 0 0) = true := by decide +kernel

theorem test_Fw_seq_cancel : ∀ st ∈ [1, 4], let s := tstGen.setSlot 0 2 { tstGen.slotEnt 0 2 with state := st }; let c := tstFwWord 0x52 (2 ^ 41)
    tstFirst s 0x52 c = true ∧ s.partOn 0 = true ∧ (s.readCmd c).arg 40 14 = 2 ∧ 2 < (s.seqCfg 0).count ∧ (s.slotEnt 0 2).state = st := by decide +kernel

theorem test_Fw_reads : let s := tstFwAt tstUp 0x81 1 168 []; let c := tstFwBlk 0x81 1
    tstFirst tstUp 0x82 (tstFwWord 0x82 0) = true ∧ tstFirst s 0x81 c = true ∧ s.scopeBad (s.readCmd c) = false
      ∧ tstWaits (exec (.telemetry (tstFwWord 0x82 0)) tstUp) .snapshot = true ∧ tstWaits (exec (.countersRead c) s) .snapshot = true := by decide +kernel

/-- A window over die 1, where nothing runs. -/
theorem test_Fw_window : let s := tstFwAt tstUp 0x80 1 5264 [(16, 2), (24, 9), (30, 1)]; let c := tstFwBlk 0x80 1
    tstFirst s 0x80 c = true ∧ s.window_ = none ∧ s.runningOn (dieMask 2) = false ∧ s.runningOn (dieMask 1) = true
      ∧ tstWaits (exec (.testWindow c) s) .window = true := by decide +kernel

/-- A window that uses a seed set. -/
theorem test_Fw_window_seed : let s := tstFwAt { tstUp with seedSets := [3] } 0x80 1 5264 [(16, 2), (24, 9), (28, 3)]; let c := tstFwBlk 0x80 1
    tstFirst s 0x80 c = true ∧ s.window_ = none ∧ s.runningOn (dieMask 2) = false ∧ (s.readCmd c).body 28 0 16 ∈ s.seedSets
      ∧ tstWaits (exec (.testWindow c) s) .window = true := by decide +kernel

theorem test_Fw_step_begin : let s := tstFwAt (tstUp.tstJob { tstB with lastT := some 41 }) 0x41 1 0 [(16, 42)]; let c := tstFwBlk 0x41 1
    tstFirst s 0x41 c = true ∧ tstLive s c = true ∧ (s.part 0).phase = 0 ∧ (s.job 0 0).stage = .none ∧ s.lastUpdated 0 0 = 41 ∧ s.stepTensors 0 0 = []
      ∧ tstWaits (exec (.stepBegin c) s) (.stepStart 0 0) = true := by decide +kernel

theorem test_Fw_restore : let s := tstFwAt (tstUp.tstJob { Job.init with stat := .stopped }) 0x37 1 0 [(32, 42)]; let c := tstFwBlk 0x37 1
    tstFirst s 0x37 c = true ∧ s.partOn 0 = true ∧ (s.job 0 0).stat = .stopped ∧ s.layersOf 0 0 = []
      ∧ tstNext (exec (.jobRestore c) s) (fun u => u.restore.isSome) = true := by decide +kernel

/-- A restore from the tithe's partners. -/
theorem test_Fw_restore_tithe : let s := tstFwAt (tstUp.tstJob { Job.init with stat := .stopped, tithe := some ⟨0, 0, 0, 8, [1]⟩ }) 0x37 1 0 [(16, 1), (32, 42)]; let c := tstFwBlk 0x37 1
    tstFirst s 0x37 c = true ∧ s.partOn 0 = true ∧ (s.job 0 0).stat = .stopped ∧ s.layersOf 0 0 = [] ∧ (s.readCmd c).body 16 0 8 = 1
      ∧ (s.job 0 0).tithe.isSome = true ∧ tstNext (exec (.jobRestore c) s) (fun u => u.restore.isSome) = true := by decide +kernel

theorem test_Fw_image : let s := tstFwAt { tstUp with bootStage := 5 } 0x10 1 512 [(16, 0x60000), (20, 16)]; let c := tstFwBlk 0x10 1
    tstFirst s 0x10 c = true ∧ staged 0x60000 16 = true ∧ s.board.good = [] := by decide +kernel

/-! Counters, tests, power and the test access port. -/

def tstOut (op n size : Nat) (body : List (Nat × Nat)) (w : FwWait) : State :=
  let s := tstFwAt tstUp op n size body
  { s with fw := [{ s.readCmd (tstFwBlk op n) with wait := w }] }

theorem test_Board_snapshot : let s := tstOut 0x81 1 168 [] (.gather [(0, 0, some 7)]); let k := tstOut 0x82 1 168 [] (.gather [(0, 0, some 7)])
    (s.fw.map fun o => (o.wait, o.resultAt, o.op)) = [(.gather [(0, 0, some 7)], 0x60000, 0x81)]
      ∧ (k.fw.map fun o => (o.wait, o.resultAt, o.op)) = [(.gather [(0, 0, some 7)], 0x60000, 0x82)]
      ∧ tstNext (exec (.counterSnapshot []) k) (fun u => u.fw.isEmpty && u.winRead 0x40150 48 == 7) = true := by decide +kernel

theorem test_Board_window : let w : Window := ⟨tstFwBlk 0x80 1, 2, 9, 0, 1, none, 0, [], []⟩; let s := { tstUp with window_ := some w }
    let k := { tstOut 0x80 1 5264 [(16, 2), (24, 9), (30, 1)] .window with window_ := some { w with started := some 0 } }
    s.window_ = some w ∧ w.started = none ∧ s.flag .beatCtrl F.beatCtrlRun = true ∧ (k.fw.map fun o => (o.wait, o.resultAt)) = [(.window, 0x60000)]
      ∧ k.resultsInOrder { w with started := some 0 } [] = true
      ∧ tstNext (exec .testWindowStart s) (fun u => u.window_.map Window.started == some (some 9)) = true := by decide +kernel

theorem test_Board_watchdog : let s := (tstRun 0 []).tstCore { Core.init with quiet := 16 }
    s.coreHole 0 = false ∧ (s.running 0).isSome = true ∧ (s.core 0).quiet = 16 ∧ tstNext (exec (.coreWatchdog 0) s) (fun u => (u.core 0).dead) = true := by
  decide +kernel

def tstPowered (good : List PgPin) : State := { tstUp with board := { tstUp.board with pwrEn := true, good := good } }

theorem test_Board_power : State.reset.bootStage = 0 ∧ (tstPowered []).board.pwrEn = true ∧ (tstPowered []).bring = none
    ∧ tstNext (exec .mgtResetRelease State.reset) (fun u => u.bootStage == 4) = true
    ∧ sensorOk 0 35 15 = true ∧ (∀ k < 2, State.reset.flag (.atbRead k) F.atbReadValid = false)
    ∧ tstNext (exec (.thermalTrip 0 35 15) (tstPowered [])) (fun u => u.board.tripN && !u.board.pwrEn && u.bootStage == 0xFF) = true := by decide +kernel

theorem test_Board_rails : ∀ pin ∈ [PgPin.cmp, .lp], let s := tstPowered [pin]
    pin ∈ s.board.good ∧ tstNext (exec (.powerGoodLoss pin) s) (fun u => !u.board.pwrEn && u.bootStage == 0xFF && u.rows.isEmpty) = true := by decide +kernel

/-- After a trip the rail that was good still reports its loss. -/
theorem test_Board_after_trip : let s := { tstUp with bootStage := 0xFF, board := { tstUp.board with goodAtTrip := [.lp] } }
    PgPin.lp ∈ s.board.goodAtTrip ∧ tstNext (exec (.powerGoodLoss .lp) s) (fun u => u.board.goodAtTrip.isEmpty && u.bootStage == 0xFF) = true := by decide +kernel

theorem test_Board_bringing : let s := { tstOut 0x10 1 512 [(16, 0x60000), (20, 16)] .bringup with bootStage := 6, bring := some (tstFwBlk 0x10 1, BringIn.none) }
    (s.fw.map FwOut.cmd) = [tstFwBlk 0x10 1] ∧ s.railsGood = false ∧ tstStatus (exec .mainRailTimeout s) 6 = true := by decide +kernel

theorem test_Board_jtag : let s := { tstUp with bootStage := 5 }
    tstNext (exec .jtagClamp s) (fun u => u.board.ir == 3) = true ∧ tstNext (exec .jtagClamp tstUp) (fun u => u.board.ir == 0xFF) = true
      ∧ tstNext (exec .jtagIdcode s) (fun u => u.outbox == [.tdo 32 0x0D2365AB]) = true
      ∧ tstNext (exec (.jtagSamplePreload 0x2AAAA) s) (fun u => u.board.cells == 0x2AAAA) = true := by decide +kernel
end

section
/-! The reserved bits of a register (R6): the bits that its field table does not list. A field's write takes and sets none of them, and
neither does the fault event of a refused write, whose mailbox registers may be those that were written to. -/

namespace Sys2Proof.Machine

variable {s : State} {r x : Reg}

/-! Words whose reserved bits are 0. -/

/-- The reserved bits of a register in force are 0. -/
def State.reservedClear (s : State) (r : Reg) : Prop := s.rd r &&& ~~~r.listed = 0

/-- A word has no bit outside a mask where each of its bits is one of the mask's. -/
theorem and_not_eq_zero_iff {w m : Word} : w &&& ~~~m = 0 ↔ ∀ i, w.getLsbD i = true → m.getLsbD i = true := by
  constructor
  · intro h i hw
    have hi : i < 64 := BitVec.lt_of_getLsbD hw
    have hz : (w &&& ~~~m).getLsbD i = false := by simp [h]
    simpa [hw, hi] using hz
  · intro h
    apply BitVec.eq_of_getLsbD_eq
    intro i hi
    cases hw : w.getLsbD i with
    | false => simp [hw]
    | true => simp [h i hw]

/-- A bit is listed where it lies in one of the fields. -/
theorem Reg.getLsbD_listed (r : Reg) (i : Nat) :
    r.listed.getLsbD i = r.fields.any fun f => decide (i < 64) && decide (f.lo ≤ i) && decide (i < f.lo + f.len) := by
  have h (m : Word) (fs : List Fld) : (fs.foldl (fun m f => m ||| fieldMask 64 f.lo f.len) m).getLsbD i
      = (m.getLsbD i || fs.any fun f => decide (i < 64) && decide (f.lo ≤ i) && decide (i < f.lo + f.len)) := by
    induction fs generalizing m with
    | nil => simp
    | cons f fs ih => simp [ih, getLsbD_fieldMask, Bool.or_assoc]
  simpa [Reg.listed] using h 0 r.fields

/-- Every bit of a register's fields is listed. -/
theorem Reg.listed_of_mem {f : Fld} (hf : f ∈ r.fields) {i : Nat} (h : (fieldMask 64 f.lo f.len).getLsbD i = true) :
    r.listed.getLsbD i = true := by
  rw [r.getLsbD_listed, List.any_eq_true]
  exact ⟨f, hf, by rwa [getLsbD_fieldMask] at h⟩

/-! A write of a register's fields. -/

/-- A field takes none of the reserved bits of the written word. -/
theorem bits_and_listed {f : Fld} (hf : f ∈ r.fields) (v : Word) : bits (v &&& r.listed) f.lo f.len = bits v f.lo f.len := by
  apply Nat.eq_of_testBit_eq
  intro i
  simp only [testBit_bits, BitVec.getLsbD_and]
  by_cases hi : i < f.len ∧ f.lo + i < 64
  · rw [r.listed_of_mem hf (by simp [getLsbD_fieldMask, hi]), Bool.and_true]
  · have hv : i < f.len → v.getLsbD (f.lo + i) = false := fun h => BitVec.getLsbD_of_ge v _ (by omega)
    cases h : decide (i < f.len) with
    | false => rfl
    | true => rw [hv (of_decide_eq_true h)]; rfl

theorem fieldMask_and_listed {f : Fld} (hf : f ∈ r.fields) (v : Word) :
    fieldMask 64 f.lo f.len &&& (v &&& r.listed) = fieldMask 64 f.lo f.len &&& v := by
  apply BitVec.eq_of_getLsbD_eq
  intro i _
  cases h : (fieldMask 64 f.lo f.len).getLsbD i with
  | false => simp [h]
  | true => simp [h, r.listed_of_mem hf h]

theorem writeField_and_listed {f : Fld} (hf : f ∈ r.fields) (w v : Word) : writeField w (v &&& r.listed) f = writeField w v f := by
  simp only [writeField, bits_and_listed hf, fieldMask_and_listed hf]

theorem shadowField_and_listed {f : Fld} (hf : f ∈ r.fields) (w v : Word) : shadowField w (v &&& r.listed) f = shadowField w v f := by
  simp only [shadowField, bits_and_listed hf]

/-- A write of a field sets no reserved bit. -/
theorem setBits_reserved {f : Fld} (hf : f ∈ r.fields) {w : Word} (v : Nat) (hw : w &&& ~~~r.listed = 0) :
    setBits w f.lo f.len v &&& ~~~r.listed = 0 := by
  rw [and_not_eq_zero_iff] at hw ⊢
  intro i hi
  rw [getLsbD_setBits] at hi
  split at hi
  · next h => exact r.listed_of_mem hf (by simp [getLsbD_fieldMask, h])
  · exact hw i hi

theorem writeField_reserved {f : Fld} (hf : f ∈ r.fields) {w : Word} (v : Word) (hw : w &&& ~~~r.listed = 0) :
    writeField w v f &&& ~~~r.listed = 0 := by
  unfold writeField
  split
  · exact setBits_reserved hf _ hw
  · exact setBits_reserved hf _ hw
  · rw [and_not_eq_zero_iff] at hw ⊢
    intro i hi
    rw [BitVec.getLsbD_and, Bool.and_eq_true] at hi
    exact hw i hi.1
  · rw [and_not_eq_zero_iff] at hw ⊢
    intro i hi
    simp only [BitVec.getLsbD_or, BitVec.getLsbD_and, Bool.or_eq_true, Bool.and_eq_true] at hi
    obtain hi | ⟨hi, -⟩ := hi
    · exact hw i hi
    · exact r.listed_of_mem hf hi
  · exact hw

theorem shadowField_reserved {f : Fld} (hf : f ∈ r.fields) {w : Word} (v : Word) (hw : w &&& ~~~r.listed = 0) :
    shadowField w v f &&& ~~~r.listed = 0 := by
  unfold shadowField
  split
  · exact setBits_reserved hf _ hw
  · exact hw

theorem Reg.foldl_writeField_reserved (r : Reg) {w : Word} (v : Word) (hw : w &&& ~~~r.listed = 0) :
    r.fields.foldl (fun w f => writeField w v f) w &&& ~~~r.listed = 0 :=
  List.foldlRecOn (motive := fun w => w &&& ~~~r.listed = 0) r.fields _ hw fun _ hw _ hf => writeField_reserved hf v hw

theorem Reg.foldl_shadowField_reserved (r : Reg) {w : Word} (v : Word) (hw : w &&& ~~~r.listed = 0) :
    r.fields.foldl (fun w f => shadowField w v f) w &&& ~~~r.listed = 0 :=
  List.foldlRecOn (motive := fun w => w &&& ~~~r.listed = 0) r.fields _ hw fun _ hw _ hf => shadowField_reserved hf v hw

/-- A write takes none of the reserved bits of the written word. -/
theorem State.regWrite_and_listed (s : State) (r : Reg) (v : Word) : s.regWrite r (v &&& r.listed) = s.regWrite r v := by
  have hw (w : Word) := List.foldl_ext (fun w f => writeField w (v &&& r.listed) f) (fun w f => writeField w v f) w
    fun w _ hf => writeField_and_listed (r := r) hf w v
  have hs (w : Word) := List.foldl_ext (fun w f => shadowField w (v &&& r.listed) f) (fun w f => shadowField w v f) w
    fun w _ hf => shadowField_and_listed (r := r) hf w v
  simp only [State.regWrite, hw, hs]

/-- Neither do the rights in a mailbox block's registers rest on them. -/
theorem State.mbxRegValue_and_listed (s : State) (a : Nat) (r : Reg) (v : Word) :
    s.mbxRegValue a r (v &&& r.listed) = (s.mbxRegValue a r v).map (· &&& r.listed) := by
  cases r
  case mbxInten b =>
    have h (v : Word) : v &&& (Reg.mbxInten b).listed = v := BitVec.and_allOnes
    simp only [h, Option.map_id']
  case mbxTimeout | mbxToutLog => simp only [State.mbxRegValue]; split <;> rfl
  all_goals rfl

/-- A control core's write is performed as though the reserved bits were 0. -/
theorem State.agentWrite_and_listed {a addr : Nat} (h : s.reach a addr = some r) (v : Word) :
    s.agentWrite a addr (v &&& r.listed) = s.agentWrite a addr v := by
  simp only [State.agentWrite, h, State.mbxRegValue_and_listed]
  cases s.mbxRegValue a r v with
  | none => rfl
  | some v => simp only [Option.map_some, State.regWrite_and_listed]

/-! An event's mailbox. -/

/-- A write of any register sets no reserved bit of r where it sets none of its own. -/
theorem State.reservedClear_wr {w : Word} (h : s.reservedClear r) (hx : x.addr = r.addr → x.listed = r.listed)
    (hw : s.reservedClear x → w &&& ~~~x.listed = 0) : (s.wr x w).reservedClear r := by
  unfold State.reservedClear at *
  by_cases ha : x.addr = r.addr
  · have hr (s : State) : s.rd r = s.rd x := by simp only [State.rd, ha]
    rw [hr, ← hx ha] at h ⊢
    rw [State.rd_wr_same]
    exact hw h
  · rwa [State.rd_wr_ne s w (Ne.symm ha)]

/-- The registers that a write of mailbox n of a block can change (R359, Table 16-7). -/
def mbxWriteRegs (b : MbxBlk) (n : Nat) : List Reg := [.mbxData b n, .mbxSender b n, .mbxStatus b, .mbxWait b, .mbxToutLog b]

/-- Where a register lies at the address of one of these, the two list the same bits; so a write of the mailbox cannot reach reserved bits of
the register. Registers are told apart by address alone, so this has to be shown of each that a fault event may meet. -/
def Reg.agreesWithMbx (r : Reg) (b : MbxBlk) (n : Nat) : Prop := ∀ x ∈ mbxWriteRegs b n, x.addr = r.addr → x.listed = r.listed

theorem and_not_listed_of_full (h : r.listed = BitVec.allOnes 64) (w : Word) : w &&& ~~~r.listed = 0 := by
  simp [h]

theorem testBit_packBits_cons (w v : Nat) (t : List (Nat × Nat)) (i : Nat) :
    (packBits ((w, v) :: t)).testBit i = if i < w then v.testBit i else (packBits t).testBit (i - w) := by
  rw [packBits, Nat.add_comm, Nat.mul_comm, Nat.testBit_two_pow_mul_add _ (Nat.mod_lt v (Nat.two_pow_pos w)), Nat.testBit_mod_two_pow]
  split
  · next h => simp [h]
  · rfl

/-- The record of a write that ended without landing sets none of the log's reserved bits. -/
theorem mbxToutLog_word_reserved (b : MbxBlk) (n reason sender beat : Nat) :
    BitVec.ofNat 64 (packBits [(1, 1), (6, n), (1, 0), (2, reason), (6, 0), (16, sender), (32, beat)]) &&& ~~~(Reg.mbxToutLog b).listed = 0 := by
  rw [and_not_eq_zero_iff]
  intro i hi
  simp only [BitVec.getLsbD_ofNat, testBit_packBits_cons, Bool.and_eq_true, decide_eq_true_eq] at hi
  obtain ⟨h64, hi⟩ := hi
  rw [Reg.getLsbD_listed]
  by_contra hl
  simp only [Reg.fields, F.mbxToutLogValid, F.mbxToutLogMailbox, F.mbxToutLogReason, F.mbxToutLogSender, F.mbxToutLogAtBeat, List.any_cons,
    List.any_nil, Bool.or_eq_true, Bool.and_eq_true, decide_eq_true_eq, Bool.or_false] at hl
  have hgap : i = 7 ∨ i = 10 ∨ i = 11 ∨ i = 12 ∨ i = 13 ∨ i = 14 ∨ i = 15 := by omega
  obtain rfl | rfl | rfl | rfl | rfl | rfl | rfl := hgap
  all_goals simp at hi

section
variable {b : MbxBlk} {n : Nat}

theorem State.reservedClear_answer (h : s.reservedClear r) (host : Option (BitVec 128)) (a st q : Nat) :
    (s.answer host a st q).reservedClear r := by
  cases host <;> exact h

theorem State.reservedClear_mbxTimeout (hm : r.agreesWithMbx b n) (h : s.reservedClear r) (a q : Nat) :
    (s.mbxTimeout b n a q).reservedClear r := by
  unfold State.mbxTimeout
  extract_lets t
  have ht : t.reservedClear r := by
    unfold t
    split <;> exact h
  split
  · exact ht
  · exact State.reservedClear_wr ht (hm _ (by simp [mbxWriteRegs])) fun _ => mbxToutLog_word_reserved ..

theorem State.reservedClear_mbxLand (hm : r.agreesWithMbx b n) (h : s.reservedClear r) (a : Nat) (w : Word) :
    (s.mbxLand b n a w).reservedClear r := by
  unfold State.mbxLand
  extract_lets t u v
  have ht : t.reservedClear r := State.reservedClear_wr h (hm _ (by simp [mbxWriteRegs])) fun _ => and_not_listed_of_full rfl w
  have hu : u.reservedClear r := State.reservedClear_wr ht (hm _ (by simp [mbxWriteRegs])) (setBits_reserved (by simp [Reg.fields]) a)
  have hv : v.reservedClear r := State.reservedClear_wr hu (hm _ (by simp [mbxWriteRegs])) fun _ => and_not_listed_of_full rfl _
  repeat' split
  all_goals exact hv

theorem State.reservedClear_mbxWrite (hm : r.agreesWithMbx b n) (h : s.reservedClear r) (a : Nat) (w : Word) (host : Option (BitVec 128)) :
    (s.mbxWrite b n a w host).1.reservedClear r := by
  unfold State.mbxWrite
  split
  · exact State.reservedClear_answer (State.reservedClear_mbxTimeout hm h a 2) ..
  split
  · exact State.reservedClear_answer (State.reservedClear_mbxLand hm h a w) ..
  split
  · exact State.reservedClear_answer (State.reservedClear_mbxTimeout hm h a 3) ..
  · exact State.reservedClear_wr h (hm _ (by simp [mbxWriteRegs])) fun _ => and_not_listed_of_full rfl _

end

/-! A fault event. -/

theorem State.foldl_winWrite_regs (s : State) (a : Nat) (pay : Payload) :
    (pay.foldl (fun s p => s.winWrite (a + p.1) p.2.1 p.2.2) s).regs = s.regs
      ∧ (pay.foldl (fun s p => s.winWrite (a + p.1) p.2.1 p.2.2) s).shadow = s.shadow :=
  List.foldlRecOn (motive := fun t : State => t.regs = s.regs ∧ t.shadow = s.shadow) pay _ ⟨rfl, rfl⟩ fun _ h _ _ => h

section
variable {P : State → Prop} (hfiles : ∀ t u : State, u.regs = t.regs → u.shadow = t.shadow → P t → P u)
  (hmbx : ∀ (t : State) (w : Word), P t → P (t.mbxWrite .mgmt 63 agentMgmt w none).1)
include hfiles hmbx

theorem State.putEvent_induct (h : P s) (kind part job status : Nat) (pay : Payload) : P (s.putEvent kind part job status pay) := by
  unfold State.putEvent
  extract_lets a w t u v
  obtain ⟨hr, hs⟩ := State.foldl_winWrite_regs t a pay
  have hv : P v := hfiles s v (hr.trans (by simp only [t, State.winWrite_regs])) (hs.trans (by simp only [t, State.winWrite_shadow])) h
  split
  · exact hv
  · exact hmbx v _ hv

theorem State.post_induct (h : P s) (kind part job status : Nat) (pay : Payload) : P (s.post kind part job status pay) := by
  unfold State.post
  split
  · exact hfiles s _ rfl rfl h
  extract_lets t u
  have hu : P u := by
    unfold u
    split
    · exact h
    · exact hfiles t _ rfl rfl (State.putEvent_induct hfiles hmbx h ..)
  split
  · exact hfiles u _ rfl rfl hu
  · exact State.putEvent_induct hfiles hmbx hu ..

/-- A bus error keeps what no change beside the register files touches and what writes of the event's mailbox keep. -/
theorem State.busError_induct (h : P s) (agent addr : Nat) : P (s.busError agent addr) :=
  hfiles (s.fault agent 0x01 0 0 addr) _ rfl rfl (State.post_induct hfiles hmbx h ..)

end

/-- A bus error changes no shadow. -/
theorem State.busError_shadow (s : State) (agent addr : Nat) : (s.busError agent addr).shadow = s.shadow :=
  State.busError_induct (P := fun t => t.shadow = s.shadow) (fun _ _ _ hs h => hs.trans h)
    (fun _ _ h => (State.mbxSame_shadow (State.mbxSame_mbxWrite ..)).trans h) rfl agent addr

/-- A bus error sets no reserved bit of a register that agrees with the event's mailbox. -/
theorem State.reservedClear_busError (hm : r.agreesWithMbx .mgmt 63) (h : s.reservedClear r) (agent addr : Nat) :
    (s.busError agent addr).reservedClear r :=
  State.busError_induct (P := fun t => t.reservedClear r)
    (fun t u hr _ h => by unfold State.reservedClear State.rd at *; rwa [hr])
    (fun _ w h => State.reservedClear_mbxWrite hm h agentMgmt w none) h agent addr

/-! The registers of a mailbox block that refuse a write. -/

/-- The registers of a mailbox block begin at a multiple of 0x4000000 (Table 1-9). -/
theorem mbxBase_mod (b : MbxBlk) : mbxBase b % 0x4000000 = 0 := by
  cases b <;> simp only [mbxBase, mgtBase, grnBase, gateBase, clBase, regBase] <;> omega

/-- The number of a sender register is that of one of the 64 mailboxes (Table 16-5). -/
def Reg.senderInBlock : Reg → Bool
  | .mbxSender _ n => decide (n < 64)
  | _ => true

theorem senderInBlock_mbxSender {b : MbxBlk} {n : Nat} (h : n < 64) : (some (Reg.mbxSender b n)).all Reg.senderInBlock = true :=
  decide_eq_true h

theorem mbxRegAt_senderInBlock (b : MbxBlk) (o : Nat) : (mbxRegAt b o).all Reg.senderInBlock = true := by
  unfold mbxRegAt
  split
  · rfl
  split
  · exact senderInBlock_mbxSender (by omega)
  · simp [apply_ite (Option.all Reg.senderInBlock), Reg.senderInBlock]

theorem coreRegAt_senderInBlock (c o : Nat) : (coreRegAt c o).all Reg.senderInBlock = true := by
  simp [coreRegAt, apply_ite (Option.all Reg.senderInBlock), Reg.senderInBlock]

theorem clRegAt_senderInBlock (cl o : Nat) : (clRegAt cl o).all Reg.senderInBlock = true := by
  simp [clRegAt, apply_ite (Option.all Reg.senderInBlock), Reg.senderInBlock, mbxRegAt_senderInBlock]

theorem grnRegAt_senderInBlock (g o : Nat) : (grnRegAt g o).all Reg.senderInBlock = true := by
  simp [grnRegAt, apply_ite (Option.all Reg.senderInBlock), Reg.senderInBlock, mbxRegAt_senderInBlock]

theorem gateRegAt_senderInBlock (g o : Nat) : (gateRegAt g o).all Reg.senderInBlock = true := by
  simp [gateRegAt, apply_ite (Option.all Reg.senderInBlock), Reg.senderInBlock, mbxRegAt_senderInBlock]

theorem mgtRegAt_senderInBlock (o : Nat) : (mgtRegAt o).all Reg.senderInBlock = true := by
  simp [mgtRegAt, apply_ite (Option.all Reg.senderInBlock), Reg.senderInBlock, mbxRegAt_senderInBlock]

theorem Reg.ofAddr_senderInBlock (a : Nat) : (Reg.ofAddr a).all Reg.senderInBlock = true := by
  unfold Reg.ofAddr
  split
  · rfl
  dsimp only
  split
  · simp [apply_ite (Option.all Reg.senderInBlock), mbxRegAt_senderInBlock, clRegAt_senderInBlock, coreRegAt_senderInBlock]
  · simp [apply_ite (Option.all Reg.senderInBlock), grnRegAt_senderInBlock]
  · simp [apply_ite (Option.all Reg.senderInBlock), gateRegAt_senderInBlock]
  · simp [apply_ite (Option.all Reg.senderInBlock), mgtRegAt_senderInBlock]
  · rfl

/-- Registers of mailbox blocks that share an address share their offset in the block's unit. -/
theorem mbxOffset_eq {b c : MbxBlk} {o p : Nat} (h : mbxBase b + o = mbxBase c + p) (ho : o < 0x4000000) (hp : p < 0x4000000) : o = p := by
  have hb := mbxBase_mod b
  have hc := mbxBase_mod c
  omega

/-- A register of a mailbox block agrees with the event's mailbox where its offset is none of that mailbox's, or that of its own kind. -/
theorem Reg.agreesWithMbx_of_offset {b : MbxBlk} {o : Nat} (ha : r.addr = mbxBase b + o) (ho : o < 0x4000000)
    (hdata : o ≠ 0x51F8) (hsender : o = 0x53F8 → (Reg.mbxSender .mgmt 63).listed = r.listed)
    (hstatus : o = 0x5400 → (Reg.mbxStatus .mgmt).listed = r.listed) (hwait : o = 0x5408 → (Reg.mbxWait .mgmt).listed = r.listed)
    (hlog : o = 0x5420 → (Reg.mbxToutLog .mgmt).listed = r.listed) : r.agreesWithMbx .mgmt 63 := by
  intro x hx hxa
  rw [ha] at hxa
  have ho' {p : Nat} (h : mbxBase .mgmt + p = mbxBase b + o) (hp : p < 0x4000000) : o = p := (mbxOffset_eq h hp ho).symm
  simp only [mbxWriteRegs, List.mem_cons, List.not_mem_nil, or_false] at hx
  obtain rfl | rfl | rfl | rfl | rfl := hx
  · exact absurd (ho' hxa (by decide)) hdata
  · exact hsender (ho' hxa (by decide))
  · exact hstatus (ho' hxa (by decide))
  · exact hwait (ho' hxa (by decide))
  · exact hlog (ho' hxa (by decide))

/-- A register of which a mailbox block refuses a write agrees with the event's mailbox. -/
theorem State.agreesWithMbx_of_refused {a : Nat} {v : Word} (h : s.mbxRegValue a r v = none) (hr : r.senderInBlock = true) :
    r.agreesWithMbx .mgmt 63 := by
  cases r
  case mbxSender b n =>
    have hn : n < 64 := of_decide_eq_true hr
    refine Reg.agreesWithMbx_of_offset (b := b) (o := 0x5200 + 8 * n) rfl (by omega) (by omega) (fun _ => rfl) ?_ ?_ ?_
    all_goals
      intro ho
      exfalso
      omega
  case mbxStatus b => exact Reg.agreesWithMbx_of_offset (b := b) (o := 0x5400) rfl (by decide) (by decide) nofun (fun _ => rfl) nofun nofun
  case mbxWait b => exact Reg.agreesWithMbx_of_offset (b := b) (o := 0x5408) rfl (by decide) (by decide) nofun nofun (fun _ => rfl) nofun
  case mbxInten b => exact Reg.agreesWithMbx_of_offset (b := b) (o := 0x5410) rfl (by decide) (by decide) nofun nofun nofun nofun
  case mbxTimeout b => exact Reg.agreesWithMbx_of_offset (b := b) (o := 0x5418) rfl (by decide) (by decide) nofun nofun nofun nofun
  case mbxToutLog b => exact Reg.agreesWithMbx_of_offset (b := b) (o := 0x5420) rfl (by decide) (by decide) nofun nofun nofun fun _ => rfl
  all_goals cases h

/-! The reserved bits after a write by a control core. -/

theorem State.reservedClear_markWrite (h : s.reservedClear r) (x : Reg) : (s.markWrite x).reservedClear r := by
  unfold State.markWrite
  split <;> exact h

/-- A register whose writes are ordinary has no shadow. -/
theorem hasShadow_of_ownRow (h : ownRow r = false) : r.hasShadow = false := by
  cases hs : r.hasShadow with
  | false => rfl
  | true =>
    unfold ownRow at h
    split at h <;> simp [hs] at h

theorem State.disarm_shadow (s : State) (b : Blk) : (s.disarm b).shadow = s.shadow := by
  unfold State.disarm
  split <;> rfl

/-- What a write of a register does to the register files (R5, R53, R292): it is ignored, it writes the fields in force, or it writes those of the
shadow as well. -/
theorem State.regWrite_cases (s : State) (r : Reg) (v : Word) :
    s.regWrite r v = s
      ∨ (r.hasShadow = false ∧ s.regWrite r v = s.wr r (r.fields.foldl (fun w f => writeField w v f) (s.rd r)))
      ∨ (r.hasShadow = true ∧ (s.regWrite r v).shadow = (s.wrS r (r.fields.foldl (fun w f => shadowField w v f) (s.rdS r))).shadow) := by
  refine (ite_eq_or_eq _ _ _).imp id fun h => ?_
  rw [show s.regWrite r v = _ from h]
  cases hs : r.hasShadow with
  | false => exact .inl ⟨rfl, rfl⟩
  | true =>
    refine .inr ⟨rfl, ?_⟩
    simp only [if_true]
    cases r.block with
    | some b => exact State.disarm_shadow ..
    | none => rfl

theorem State.reservedClear_regWrite (hs : r.hasShadow = false) (h : s.reservedClear r) (v : Word) : (s.regWrite r v).reservedClear r := by
  obtain hw | ⟨-, hw⟩ | ⟨hc, -⟩ := s.regWrite_cases r v
  · rwa [hw]
  · rw [hw]
    exact State.reservedClear_wr h (fun _ => rfl) (r.foldl_writeField_reserved v)
  · rw [hs] at hc
    cases hc

theorem State.reach_ofAddr {a addr : Nat} (h : s.reach a addr = some r) : Reg.ofAddr addr = some r := by
  unfold State.reach at h
  split at h
  · next x hx =>
    rw [hx]
    split at h
    · exact h
    · cases h
  · cases h

/-- A control core's write sets no reserved bit of the register in force, be it performed or refused with a fault event. -/
theorem State.reservedClear_agentWrite {a addr : Nat} (hr : s.reach a addr = some r) (hs : r.hasShadow = false) (h : s.reservedClear r)
    (v : Word) : (s.agentWrite a addr v).reservedClear r := by
  have hn : r.senderInBlock = true := by
    have h := Reg.ofAddr_senderInBlock addr
    rwa [State.reach_ofAddr hr] at h
  unfold State.agentWrite
  simp only [hr]
  split
  · exact h
  split
  · next hv => exact State.reservedClear_busError (State.agreesWithMbx_of_refused hv hn) h a addr
  · exact State.reservedClear_markWrite (State.reservedClear_regWrite hs h _) r

theorem State.markWrite_shadow (s : State) (r : Reg) : (s.markWrite r).shadow = s.shadow := by
  unfold State.markWrite
  split <;> rfl

/-- The reserved bits of a register's shadow are 0. -/
def State.shadowReservedClear (s : State) (r : Reg) : Prop := s.rdS r &&& ~~~r.listed = 0

theorem State.shadowReservedClear_of_shadow {t : State} (h : s.shadowReservedClear r) (e : t.shadow = s.shadow) : t.shadowReservedClear r := by
  unfold State.shadowReservedClear State.rdS at *
  rwa [e]

theorem State.shadowReservedClear_regWrite (hs : r.hasShadow = true) (h : s.shadowReservedClear r) (v : Word) :
    (s.regWrite r v).shadowReservedClear r := by
  obtain hw | ⟨hc, -⟩ | ⟨-, hw⟩ := s.regWrite_cases r v
  · rwa [hw]
  · rw [hs] at hc
    cases hc
  · refine State.shadowReservedClear_of_shadow ?_ hw
    unfold State.shadowReservedClear
    rw [State.rdS_wrS_same]
    exact r.foldl_shadowField_reserved v h

theorem State.shadowReservedClear_agentWrite {a addr : Nat} (hr : s.reach a addr = some r) (hs : r.hasShadow = true)
    (h : s.shadowReservedClear r) (v : Word) : (s.agentWrite a addr v).shadowReservedClear r := by
  unfold State.agentWrite
  simp only [hr]
  split
  · exact h
  split
  · exact State.shadowReservedClear_of_shadow h (State.busError_shadow ..)
  · exact State.shadowReservedClear_of_shadow (State.shadowReservedClear_regWrite hs h _) (State.markWrite_shadow ..)

/-- Every reset value lies in its field, and the fields in the listed bits. -/
theorem Reg.reset_reserved (r : Reg) : r.reset &&& ~~~r.listed = 0 := by
  unfold Reg.reset Reg.listed
  cases r
  case ttEntry g n k => match k with
    | 0 | 1 | 2 | 3 | 4 | _ + 5 => simp only [Reg.fields, ttFields]; decide
  case hatchEntry g n k => match k with
    | 0 | 1 | 2 | 3 | 4 | _ + 5 => simp only [Reg.fields, hatchFields]; decide
  case layer g n k => match k with
    | 0 | 1 | 2 | 3 | 4 | _ + 5 => simp only [Reg.fields, layerFields]; decide
  case winState g n k => match k with
    | 0 | 1 | 2 | 3 | _ + 4 => simp only [Reg.fields, winStateFields]; decide
  all_goals simp only [Reg.fields]; decide

/-! The two rows. -/

theorem exec_registerWrite_of_reach {a addr : Nat} (hr : s.reach a addr = some r) (v : Word) :
    exec (.registerWrite a addr v) s = need (controlAgent a && !ownRow r) s (.next (s.agentWrite a addr v)) := by
  show execRegisterWrite a addr v s = _
  simp only [execRegisterWrite, hr]

theorem exec_shadowWrite_of_reach {a addr : Nat} (hr : s.reach a addr = some r) (v : Word) :
    exec (.shadowWrite a addr v) s
      = need (controlAgent a && (r.hasShadow && !decide (r = .beatNumberSet))) s (.next (s.agentWrite a addr v)) := by
  show execShadowWrite a addr v s = _
  simp only [execShadowWrite, hr]

theorem reservedClear_registerWrite {a addr : Nat} {v : Word} {t : State} (hr : s.reach a addr = some r)
    (ht : exec (.registerWrite a addr v) s = .next t) (h : s.reservedClear r) : t.reservedClear r := by
  rw [exec_registerWrite_of_reach hr] at ht
  obtain ⟨hc, ht⟩ | ⟨-, rfl⟩ := need_next ht
  · cases ht
    simp only [Bool.and_eq_true, Bool.not_eq_true'] at hc
    exact State.reservedClear_agentWrite hr (hasShadow_of_ownRow hc.2) h v
  · exact h

theorem shadowReservedClear_shadowWrite {a addr : Nat} {v : Word} {t : State} (hr : s.reach a addr = some r)
    (ht : exec (.shadowWrite a addr v) s = .next t) (h : s.shadowReservedClear r) : t.shadowReservedClear r := by
  rw [exec_shadowWrite_of_reach hr] at ht
  obtain ⟨hc, ht⟩ | ⟨-, rfl⟩ := need_next ht
  · cases ht
    simp only [Bool.and_eq_true] at hc
    exact State.shadowReservedClear_agentWrite hr hc.2.1 h v
  · exact h

end Sys2Proof.Machine

open Sys2Proof.Machine

/-- Settles O7: a write takes and sets bits of listed fields only, and so does the fault event of a refused one. -/
theorem reservedBitsAreIgnored : Obligations.ReservedBitsAreIgnored := by
  unfold Obligations.ReservedBitsAreIgnored
  intro a addr v s r hr
  refine ⟨?_, ?_, fun t ht h => reservedClear_registerWrite hr ht h, fun t ht h => shadowReservedClear_shadowWrite hr ht h, r.reset_reserved⟩
  · rw [exec_registerWrite_of_reach hr, exec_registerWrite_of_reach hr, State.agentWrite_and_listed hr]
  · rw [exec_shadowWrite_of_reach hr, exec_shadowWrite_of_reach hr, State.agentWrite_and_listed hr]
end

section
/-! What a commit and a discard do to the rows (Table 8-2, R42): to each row alone, by its own tag, writer and taker. -/

namespace Sys2Proof

/-- A change of every listed value is a change of what every key holds, where an unlisted key's value stands. -/
theorem SMap.get_mapVals {α : Type} [DecidableEq α] {d : Nat → α} {f : Nat → α → α} (hd : ∀ k, f k (d k) = d k) {m : SMap α}
    (h : SMap.wf d m = true) (x : Nat) : SMap.get d (SMap.mapVals d f m) x = f x (SMap.get d m x) := by
  induction m with
  | nil => exact (hd x).symm
  | cons p m ih =>
    obtain ⟨k, v⟩ := p
    simp only [SMap.wf, Bool.and_eq_true] at h
    obtain ⟨⟨habove, -⟩, hm⟩ := h
    have ih := ih hm
    unfold SMap.get at ih ⊢
    by_cases hx : k = x
    · subst hx
      have hnone := SMap.find?_above (SMap.above_mapVals d f habove) (Nat.le_refl k)
      by_cases hv : f k v = d k <;> simp [SMap.mapVals, SMap.find?, hv, hnone]
    · by_cases hv : f k v = d k <;> simp [SMap.mapVals, SMap.find?, hv, hx, ih]

end Sys2Proof

namespace Sys2Proof.Machine

section
variable {s : State} {ids : List Nat} {gone : Nat → Bool} {id k : Nat} {x : RowSt}

/-! One row. -/

/-- The row without a writer or a taker, free for the next one. -/
def RowSt.emptied (x : RowSt) : RowSt := { x with tag := .empty, writer := none, taker := none, note := none }

/-- The row's taker commits, or has committed. -/
def RowSt.takenBy (x : RowSt) (ids : List Nat) (gone : Nat → Bool) : Bool := x.taker.any fun k => ids.contains k || gone k

theorem RowSt.takenBy_of_none (h : x.taker = none) : x.takenBy ids gone = false := by
  simp [RowSt.takenBy, h]

theorem RowSt.takenBy_of_mem (h : x.taker = some k) (hk : k ∈ ids) : x.takenBy ids gone = true := by
  simp [RowSt.takenBy, h, hk]

theorem RowSt.takenBy_of_live (h : x.taker = some k) (hk : k ∉ ids) (hg : gone k = false) : x.takenBy ids gone = false := by
  simp [RowSt.takenBy, h, hk, hg]

/-- The row of a committed writer. -/
theorem commitRow_of_written (ht : x.tag = .pending) (hw : x.writer = some k) (hk : k ∈ ids) :
    commitRow ids gone x = if x.takenBy ids gone then x.emptied else { x with tag := .full, writer := none } := by
  cases h : x.taker <;> simp [commitRow, RowSt.takenBy, RowSt.emptied, ht, hw, hk, h]

/-- The row of a writer that is not among the committed tasks. -/
theorem commitRow_of_unwritten (ht : x.tag = .pending) (hw : x.writer = some k) (hk : k ∉ ids) : commitRow ids gone x = x := by
  simp [commitRow, ht, hw, hk]

theorem commitRow_of_full (ht : x.tag = .full) : commitRow ids gone x = if x.takenBy ids gone then x.emptied else x := by
  cases h : x.taker <;> simp [commitRow, RowSt.takenBy, RowSt.emptied, ht, h]

/-- The row of a discarded writer. -/
theorem discardRow_of_written (ht : x.tag = .pending) (hw : x.writer = some id) : (discardRow id x).tag = .empty := by
  simp [discardRow, ht, hw]

/-- A discarded task's take of a FULL row. -/
theorem discardRow_of_taken (ht : x.tag = .full) (hk : x.taker = some id) :
    (discardRow id x).tag = .full ∧ (discardRow id x).taker = none ∧ (discardRow id x).data = x.data := by
  by_cases hw : x.writer = some id <;> simp [discardRow, ht, hk, hw]

/-- A row that the discarded task neither wrote nor took. -/
theorem discardRow_of_other (hw : x.writer ≠ some id) (hk : x.taker ≠ some id) : discardRow id x = x := by
  simp [discardRow, hw, hk]

/-! Every row of the device. -/

theorem State.row_commitRows (h : s.storesWf = true) (ids : List Nat) (r : RowRef) :
    (s.commitRows ids).row r = commitRow ids (fun k => (s.task? k).isNone) (s.row r) :=
  SMap.get_mapVals (d := rowInit) (fun _ => rfl) (State.storesWf_iff s |>.1 h).1 (rowKey r)

theorem State.row_discardRows (h : s.storesWf = true) (id : Nat) (r : RowRef) : (s.discardRows id).row r = discardRow id (s.row r) :=
  SMap.get_mapVals (d := rowInit) (fun _ => rfl) (State.storesWf_iff s |>.1 h).1 (rowKey r)

end

end Sys2Proof.Machine

open Sys2Proof.Machine

/-- Settles O22: both go row by row, and each line of Table 8-2 is a case of the row's tag, writer and taker. -/
theorem commitAndDiscardFollowTable82 : Obligations.CommitAndDiscardFollowTable82 := by
  unfold Obligations.CommitAndDiscardFollowTable82
  refine ⟨fun s ids r hs => ?_, fun s id r hs => ?_⟩
  · rw [State.row_commitRows hs]
    refine ⟨fun k ht hw hk => ?_, fun k hk ht htk => ?_, fun ht hn => ?_, fun k ht hw hk => commitRow_of_unwritten ht hw hk⟩
    · rw [commitRow_of_written ht hw hk]
      refine ⟨fun hn => ?_, fun j hj htj => ?_, fun j hj hlive htj => ?_⟩
      · rw [RowSt.takenBy_of_none hn]
        exact ⟨rfl, rfl⟩
      · rw [RowSt.takenBy_of_mem htj hj]
        rfl
      · rw [RowSt.takenBy_of_live htj hj (Option.isNone_eq_false_iff.2 hlive)]
        exact ⟨rfl, htj⟩
    · rw [commitRow_of_full ht, RowSt.takenBy_of_mem htk hk]
      rfl
    · rw [commitRow_of_full ht, RowSt.takenBy_of_none hn]
      rfl
  · rw [State.row_discardRows hs]
    exact ⟨discardRow_of_written, discardRow_of_taken, discardRow_of_other⟩
end

section
/-! A write of a register with a shadow (R53): its RW-S fields are held in the shadow, those in force stand, and the block's armed request is
cancelled. -/

namespace Sys2Proof.Machine

variable {s : State} {r x : Reg} {b : Blk}

/-! The fields of a register, one after another. -/

theorem Reg.fields_within {f : Fld} (hf : f ∈ r.fields) : f.lo + f.len ≤ 64 := by
  have h := r.fields_apart
  simp only [Reg.fieldsApart, Bool.and_eq_true, List.all_eq_true, decide_eq_true_eq] at h
  obtain ⟨hwithin, -⟩ := h
  exact hwithin f hf

/-- Two fields lie apart: neither reaches into the other's bits. -/
def Fld.apart (f g : Fld) : Prop := f.lo + f.len ≤ g.lo ∨ g.lo + g.len ≤ f.lo

theorem Fld.apart.symm {f g : Fld} (h : f.apart g) : g.apart f := Or.symm h

theorem Reg.fields_pairwise_apart (r : Reg) : r.fields.Pairwise Fld.apart := by
  have h := r.fields_apart
  simp only [Reg.fieldsApart, Bool.and_eq_true, decide_eq_true_eq] at h
  obtain ⟨-, hapart⟩ := h
  exact hapart

theorem Reg.fields_apart_of_ne {f g : Fld} (hg : g ∈ r.fields) (hf : f ∈ r.fields) (h : g ≠ f) : g.apart f :=
  have : Std.Symm Fld.apart := ⟨fun _ _ => Fld.apart.symm⟩
  r.fields_pairwise_apart.forall hg hf h

theorem bits_shadowField_same {f : Fld} (ha : f.acc = .rws) (hl : f.lo + f.len ≤ 64) (w v : Word) :
    bits (shadowField w v f) f.lo f.len = bits v f.lo f.len := by
  rw [shadowField, ha, bits_setBits_same _ _ _ _ hl, Nat.mod_eq_of_lt (bits_lt ..)]

theorem bits_shadowField_apart {f g : Fld} (h : g.apart f) (w v : Word) : bits (shadowField w v g) f.lo f.len = bits w f.lo f.len := by
  unfold shadowField
  split
  · exact bits_setBits_apart _ _ _ _ _ _ h
  · rfl

theorem bits_writeField_rws {f : Fld} (ha : f.acc = .rws) (w v : Word) : writeField w v f = w := by
  rw [writeField, ha]

/-- A mask of one field's bits is 0 in a field apart from it. -/
theorem getLsbD_fieldMask_apart {f g : Fld} (h : g.apart f) {i : Nat} (hi : i < f.len) :
    (fieldMask 64 g.lo g.len).getLsbD (f.lo + i) = false := by
  unfold Fld.apart at h
  rw [getLsbD_fieldMask, Bool.and_assoc, ← Bool.decide_and, decide_eq_false (by omega : ¬ (g.lo ≤ f.lo + i ∧ f.lo + i < g.lo + g.len)),
    Bool.and_false]

/-- A field holds what its own bits say. -/
theorem bits_congr {m w : Word} {lo len : Nat} (h : ∀ i < len, m.getLsbD (lo + i) = w.getLsbD (lo + i)) : bits m lo len = bits w lo len := by
  apply Nat.eq_of_testBit_eq
  intro i
  rw [testBit_bits, testBit_bits]
  by_cases hi : i < len
  · rw [h i hi]
  · simp [hi]

theorem bits_writeField_apart {f g : Fld} (h : g.apart f) (w v : Word) : bits (writeField w v g) f.lo f.len = bits w f.lo f.len := by
  unfold writeField
  split
  · exact bits_setBits_apart _ _ _ _ _ _ h
  · exact bits_setBits_apart _ _ _ _ _ _ h
  · refine bits_congr fun i hi => ?_
    by_cases hn : f.lo + i < 64
    · simp only [BitVec.getLsbD_and, BitVec.getLsbD_not, getLsbD_fieldMask_apart h hi, hn, decide_true, Bool.false_and, Bool.not_false,
        Bool.and_true]
    · rw [BitVec.getLsbD_of_ge _ _ (Nat.le_of_not_lt hn), BitVec.getLsbD_of_ge _ _ (Nat.le_of_not_lt hn)]
  · exact bits_congr fun i hi => by simp [getLsbD_fieldMask_apart h hi]
  · rfl

/-- A run of field writes keeps a field that each of them keeps. -/
theorem bits_foldl_of_keeps {op : Word → Fld → Word} {fs : List Fld} {lo len : Nat}
    (h : ∀ g ∈ fs, ∀ w, bits (op w g) lo len = bits w lo len) (w : Word) : bits (fs.foldl op w) lo len = bits w lo len :=
  List.foldlRecOn (motive := fun u => bits u lo len = bits w lo len) fs op rfl fun u hu g hg => (h g hg u).trans hu

/-- A write of the fields in force leaves those that have a shadow as they are. -/
theorem Reg.bits_foldl_writeField {f : Fld} (hf : f ∈ r.fields) (ha : f.acc = .rws) (w v : Word) :
    bits (r.fields.foldl (fun w f => writeField w v f) w) f.lo f.len = bits w f.lo f.len := by
  refine bits_foldl_of_keeps (fun g hg u => ?_) w
  by_cases hgf : g = f
  · rw [hgf, bits_writeField_rws ha]
  · exact bits_writeField_apart (r.fields_apart_of_ne hg hf hgf) u v

/-- A write of a run of fields that lie apart holds each RW-S field of the written word. -/
theorem bits_foldl_shadowField {f : Fld} {fs : List Fld} (hp : fs.Pairwise Fld.apart) (hf : f ∈ fs) (ha : f.acc = .rws)
    (hl : f.lo + f.len ≤ 64) (w v : Word) : bits (fs.foldl (fun w f => shadowField w v f) w) f.lo f.len = bits v f.lo f.len := by
  induction fs generalizing w with
  | nil => cases hf
  | cons g fs ih =>
    obtain ⟨hg, hp⟩ := List.pairwise_cons.1 hp
    obtain rfl | hf := List.mem_cons.1 hf
    · rw [List.foldl_cons, bits_foldl_of_keeps fun h hh u => bits_shadowField_apart (hg h hh).symm u v]
      exact bits_shadowField_same ha hl w v
    · exact ih hp hf _

/-! A disarm. -/

theorem State.armed_unarm (s : State) (b : Blk) : (s.unarm b).armed b = false := by
  have h : (s.unarm b).fld (.arm b) F.armArm = 0 := s.fld_setFld_same (.arm b) F.armArm 0 (by decide)
  simp [State.armed, State.flag, h]

theorem State.rd_setApply_ne (s : State) (st rule : Nat) (h : x.addr ≠ (Reg.apply b).addr) :
    (s.setApply b st rule false).rd x = s.rd x :=
  (State.rd_setFld_ne _ _ _ h).trans (State.rd_setFld_ne _ _ _ h)

theorem State.applyState_setApply (s : State) (b : Blk) (st rule : Nat) (h : st < 8) :
    (s.setApply b st rule false).fld (.apply b) F.applyState = st :=
  calc (s.setApply b st rule false).fld (.apply b) F.applyState
    _ = (s.setFld (.apply b) F.applyState st).fld (.apply b) F.applyState := State.fld_setFld_apart _ _ _ _ _ (by decide)
    _ = st % 2 ^ F.applyState.len := State.fld_setFld_same _ _ _ _ (by decide)
    _ = st := Nat.mod_eq_of_lt h

theorem State.disarm_of_armed (h : s.armed b = true) : s.disarm b = (s.unarm b).setApply b 4 0 false := if_pos h

theorem State.disarm_of_not_armed (h : s.armed b = false) : s.disarm b = s := if_neg (by simp [h])

theorem State.armed_disarm (s : State) (b : Blk) : (s.disarm b).armed b = false := by
  cases h : s.armed b with
  | true =>
    have he : ((s.unarm b).setApply b 4 0 false).armed b = (s.unarm b).armed b := by
      simp only [State.armed, State.flag, State.fld, State.rd_setApply_ne _ _ _ (arm_addr_ne_apply b)]
    rw [State.disarm_of_armed h, he, State.armed_unarm]
  | false => rw [State.disarm_of_not_armed h, h]

/-- A cancelled request reads DISARMED (Table 2-6). -/
theorem State.applyState_disarm (h : s.armed b = true) : (s.disarm b).fld (.apply b) F.applyState = 4 := by
  rw [State.disarm_of_armed h]
  exact State.applyState_setApply _ _ _ _ (by decide)

theorem State.rd_disarm_ne (s : State) (harm : x.addr ≠ (Reg.arm b).addr) (happly : x.addr ≠ (Reg.apply b).addr) :
    (s.disarm b).rd x = s.rd x := by
  cases h : s.armed b with
  | true =>
    rw [State.disarm_of_armed h, State.rd_setApply_ne _ _ _ happly]
    exact State.rd_setFld_ne s _ _ harm
  | false => rw [State.disarm_of_not_armed h]

theorem State.rdS_disarm (s : State) (b : Blk) (x : Reg) : (s.disarm b).rdS x = s.rdS x := by
  simp only [State.rdS, State.disarm_shadow]

theorem State.disarm_frame (s : State) (b : Blk) :
    (s.disarm b).rows = s.rows ∧ (s.disarm b).lpddr = s.lpddr ∧ (s.disarm b).tasks = s.tasks := by
  unfold State.disarm
  split <;> exact ⟨rfl, rfl, rfl⟩

/-! The blocks that the tick applies. -/

theorem mem_insertBy {α : Type} {key : α → Nat} {a c : α} {l : List α} : a ∈ insertBy key c l ↔ a = c ∨ a ∈ l := by
  induction l with
  | nil => simp [insertBy]
  | cons d l ih =>
    unfold insertBy
    split
    · exact List.mem_cons
    · rw [List.mem_cons, ih, List.mem_cons, or_left_comm]

theorem mem_sortBy {α : Type} {key : α → Nat} {a : α} {l : List α} : a ∈ sortBy key l ↔ a ∈ l := by
  induction l with
  | nil => exact Iff.rfl
  | cons c l ih => rw [sortBy, mem_insertBy, ih, List.mem_cons]

theorem State.armed_of_mem_armedNow (h : b ∈ s.armedNow) : s.armed b = true := by
  obtain ⟨-, hb⟩ := List.mem_filter.1 (mem_sortBy.1 h)
  exact (Bool.and_eq_true_iff.1 hb).1

/-! The place of a register beside ARM and APPLY of its block. -/

/-- The number of a register lies within its table. Asked of those registers alone whose table, run on, would meet ARM of its block. -/
def Reg.numberInTable : Reg → Bool
  | .clNquota _ j => decide (j < 16)
  | .clLquota _ j => decide (j < 16)
  | .mgtPart p => decide (p < 12)
  | .pwrWeight p => decide (p < 12)
  | .atbSel k => decide (k < 2)
  | _ => true

theorem mbxRegAt_numberInTable (b : MbxBlk) (o : Nat) : (mbxRegAt b o).all Reg.numberInTable = true := by
  simp [mbxRegAt, apply_ite (Option.all Reg.numberInTable), Reg.numberInTable]

theorem coreRegAt_numberInTable (c o : Nat) : (coreRegAt c o).all Reg.numberInTable = true := by
  simp [coreRegAt, apply_ite (Option.all Reg.numberInTable), Reg.numberInTable]

theorem grnRegAt_numberInTable (g o : Nat) : (grnRegAt g o).all Reg.numberInTable = true := by
  simp [grnRegAt, apply_ite (Option.all Reg.numberInTable), Reg.numberInTable, mbxRegAt_numberInTable]

theorem gateRegAt_numberInTable (g o : Nat) : (gateRegAt g o).all Reg.numberInTable = true := by
  simp [gateRegAt, apply_ite (Option.all Reg.numberInTable), Reg.numberInTable, mbxRegAt_numberInTable]

/-- A slot's test of the offset bounds the number that the slot's register has. -/
theorem numberInTable_ite {c : Prop} [Decidable c] {q : Option Reg} (hx : c → x.numberInTable = true)
    (hq : q.all Reg.numberInTable = true) : (if c then some x else q).all Reg.numberInTable = true := by
  split
  · next h => exact hx h
  · exact hq

theorem clRegAt_numberInTable (cl o : Nat) : (clRegAt cl o).all Reg.numberInTable = true := by
  unfold clRegAt
  repeat' with_reducible refine numberInTable_ite ?_ ?_
  all_goals simp only [Reg.numberInTable, mbxRegAt_numberInTable, decide_eq_true_eq, implies_true]
  all_goals omega

theorem mgtRegAt_numberInTable (o : Nat) : (mgtRegAt o).all Reg.numberInTable = true := by
  unfold mgtRegAt
  repeat' with_reducible refine numberInTable_ite ?_ ?_
  all_goals simp only [Reg.numberInTable, mbxRegAt_numberInTable, decide_eq_true_eq, implies_true]
  all_goals omega

theorem Reg.ofAddr_numberInTable (a : Nat) : (Reg.ofAddr a).all Reg.numberInTable = true := by
  unfold Reg.ofAddr
  split
  · rfl
  dsimp only
  split
  · simp [apply_ite (Option.all Reg.numberInTable), mbxRegAt_numberInTable, clRegAt_numberInTable, coreRegAt_numberInTable]
  · simp [apply_ite (Option.all Reg.numberInTable), grnRegAt_numberInTable]
  · simp [apply_ite (Option.all Reg.numberInTable), gateRegAt_numberInTable]
  · simp [apply_ite (Option.all Reg.numberInTable), mgtRegAt_numberInTable]
  · rfl

/-- A register of a block lies at neither ARM nor APPLY of the block. -/
theorem Reg.addr_ne_of_block (hb : r.block = some b) (hn : r.numberInTable = true) :
    r.addr ≠ (Reg.arm b).addr ∧ r.addr ≠ (Reg.apply b).addr := by
  cases r <;> cases hb
  all_goals
    unfold Reg.addr armAddr
    dsimp only [Reg.numberInTable] at hn ⊢
    simp only [decide_eq_true_eq] at hn
    omega

/-! The write. -/

theorem State.rd_markWrite (s : State) (r x : Reg) : (s.markWrite r).rd x = s.rd x := by
  unfold State.markWrite
  split <;> rfl

theorem State.rdS_markWrite (s : State) (r x : Reg) : (s.markWrite r).rdS x = s.rdS x := by
  simp only [State.rdS, State.markWrite_shadow]

theorem State.markWrite_frame (s : State) (r : Reg) :
    (s.markWrite r).rows = s.rows ∧ (s.markWrite r).lpddr = s.lpddr ∧ (s.markWrite r).tasks = s.tasks := by
  unfold State.markWrite
  split <;> exact ⟨rfl, rfl, rfl⟩

/-- The two words of a register with a write taken: the fields in force, and those of the shadow. -/
def State.written (s : State) (r : Reg) (v : Word) : State :=
  (s.wr r (r.fields.foldl (fun w f => writeField w v f) (s.rd r))).wrS r (r.fields.foldl (fun w f => shadowField w v f) (s.rdS r))

/-- A write of a register of a block takes its fields and disarms the block (R53). -/
theorem State.regWrite_of_block (hs : r.hasShadow = true) (hb : r.block = some b) (v : Word) : s.regWrite r v = (s.written r v).disarm b := by
  refine (if_neg fun hw => ?_).trans ?_
  · split at hw
    · cases hb
    · cases hw
  · simp only [hs, hb, if_true]
    rfl

theorem State.rd_written_ne (s : State) (v : Word) (h : x.addr ≠ r.addr) : (s.written r v).rd x = s.rd x := s.rd_wr_ne _ h

theorem State.rdS_written_ne (s : State) (v : Word) (h : x.addr ≠ r.addr) : (s.written r v).rdS x = s.rdS x :=
  State.rdS_wrS_ne _ _ h

theorem State.bits_rd_written {f : Fld} (hf : f ∈ r.fields) (ha : f.acc = .rws) (s : State) (v : Word) :
    bits ((s.written r v).rd r) f.lo f.len = bits (s.rd r) f.lo f.len := by
  rw [State.written, State.rd_wrS, State.rd_wr_same, Reg.bits_foldl_writeField hf ha]

theorem State.bits_rdS_written {f : Fld} (hf : f ∈ r.fields) (ha : f.acc = .rws) (s : State) (v : Word) :
    bits ((s.written r v).rdS r) f.lo f.len = bits v f.lo f.len := by
  rw [State.written, State.rdS_wrS_same, bits_foldl_shadowField r.fields_pairwise_apart hf ha (Reg.fields_within hf)]

/-- No register of a mailbox block has a shadow, so the rights in those (R363) do not touch the write. -/
theorem State.mbxRegValue_of_block (hb : r.block = some b) (a : Nat) (v : Word) : s.mbxRegValue a r v = some v := by
  cases r <;> cases hb <;> rfl

theorem State.agentWrite_of_block {a addr : Nat} (hr : s.reach a addr = some r) (hs : r.hasShadow = true) (hb : r.block = some b)
    (hreset : s.inReset addr = false) (v : Word) :
    s.agentWrite a addr v = (((s.written r v).disarm b).markWrite r).emit (.access a 0 0 0) := by
  simp only [State.agentWrite, hr, hreset, State.mbxRegValue_of_block hb, State.regWrite_of_block hs hb]
  rfl

theorem State.numberInTable_of_reach {a addr : Nat} (hr : s.reach a addr = some r) : r.numberInTable = true := by
  have h := Reg.ofAddr_numberInTable addr
  rwa [State.reach_ofAddr hr] at h

section
variable {a addr : Nat} {v : Word} (hr : s.reach a addr = some r) (hs : r.hasShadow = true) (hb : r.block = some b)
  (hreset : s.inReset addr = false)
include hr hs hb hreset

theorem State.rdS_agentWrite_of_block (x : Reg) : (s.agentWrite a addr v).rdS x = (s.written r v).rdS x := by
  rw [State.agentWrite_of_block hr hs hb hreset]
  exact (State.rdS_markWrite ..).trans (State.rdS_disarm ..)

theorem State.rd_agentWrite_of_block (harm : x.addr ≠ (Reg.arm b).addr) (happly : x.addr ≠ (Reg.apply b).addr) :
    (s.agentWrite a addr v).rd x = (s.written r v).rd x := by
  rw [State.agentWrite_of_block hr hs hb hreset]
  exact (State.rd_markWrite ..).trans (State.rd_disarm_ne _ harm happly)

/-- ARM and APPLY of the block after the write are those of the disarm. -/
theorem State.fld_agentWrite_of_block (f : Fld) : (s.agentWrite a addr v).fld x f = ((s.written r v).disarm b).fld x f := by
  rw [State.agentWrite_of_block hr hs hb hreset]
  exact congrArg (bits · f.lo f.len) (State.rd_markWrite ..)

theorem State.armed_agentWrite_of_block : (s.agentWrite a addr v).armed b = false := by
  rw [State.armed, State.flag, State.fld_agentWrite_of_block hr hs hb hreset]
  exact State.armed_disarm ..

theorem State.agentWrite_of_block_frame :
    (s.agentWrite a addr v).rows = s.rows ∧ (s.agentWrite a addr v).lpddr = s.lpddr ∧ (s.agentWrite a addr v).tasks = s.tasks := by
  rw [State.agentWrite_of_block hr hs hb hreset]
  obtain ⟨hrows, hlp, htasks⟩ := ((s.written r v).disarm b).markWrite_frame r
  obtain ⟨hrows', hlp', htasks'⟩ := (s.written r v).disarm_frame b
  exact ⟨hrows.trans hrows', hlp.trans hlp', htasks.trans htasks'⟩

end

end Sys2Proof.Machine

open Sys2Proof.Machine

/-- Settles O9: the written words hold the RW-S fields in the shadow alone, and since the register lies apart from ARM and APPLY of its block,
an armed request is still there for the disarm to cancel. -/
theorem shadowWriteDisarms : Obligations.ShadowWriteDisarms := by
  unfold Obligations.ShadowWriteDisarms
  intro a addr v s r b ha hr hs hb hn hreset
  obtain ⟨harm, happly⟩ := Reg.addr_ne_of_block hb (State.numberInTable_of_reach hr)
  have hdisarmed : (s.agentWrite a addr v).armed b = false := State.armed_agentWrite_of_block hr hs hb hreset
  refine ⟨s.agentWrite a addr v, ?_, fun f hf hacc => ⟨?_, ?_⟩, fun x hx => ?_, fun x hx hxarm hxapply => ?_, hdisarmed, fun hnow => ?_,
    fun harmed => ?_, State.agentWrite_of_block_frame hr hs hb hreset⟩
  · simp [exec_shadowWrite_of_reach hr, ha, hs, hn]
  · rw [State.rdS_agentWrite_of_block hr hs hb hreset, State.bits_rdS_written hf hacc]
  · rw [State.rd_agentWrite_of_block hr hs hb hreset harm happly, State.bits_rd_written hf hacc]
  · rw [State.rdS_agentWrite_of_block hr hs hb hreset, State.rdS_written_ne s v hx]
  · rw [State.rd_agentWrite_of_block hr hs hb hreset hxarm hxapply, State.rd_written_ne s v hx]
  · exact Bool.false_ne_true (hdisarmed.symm.trans (State.armed_of_mem_armedNow hnow))
  · have hstill : (s.written r v).armed b = true := by
      rwa [State.armed, State.flag, State.fld, State.rd_written_ne s v harm.symm]
    rw [State.fld_agentWrite_of_block hr hs hb hreset, State.applyState_disarm hstill]
end

section
/-! Mailboxes and locks (R359, R360, R362): what landing, waiting and ending do to a mailbox's registers, and that a refused write does not reach
them. -/

namespace Sys2Proof.Machine

variable {s t u : State} {b : MbxBlk} {n a : Nat} {x : Reg}

/-! Small rules of the operations over mailboxes. -/

@[simp] theorem State.emit_outbox (s : State) (e : Emit) : (s.emit e).outbox = s.outbox ++ [e] := rfl

@[simp] theorem State.rd_emit (s : State) (e : Emit) : (s.emit e).rd x = s.rd x := rfl

@[simp] theorem State.mbxFull_emit (s : State) (e : Emit) : (s.emit e).mbxFull b n = s.mbxFull b n := rfl

@[simp] theorem State.rd_answer (s : State) (host : Option (BitVec 128)) (st q : Nat) : (s.answer host a st q).rd x = s.rd x := by
  cases host <;> rfl

/-- What an answer sends rests on the host's header and on what was sent before it alone. -/
theorem State.answer_outbox_congr (h : t.outbox = s.outbox) (host : Option (BitVec 128)) (st q : Nat) :
    (t.answer host a st q).outbox = (s.answer host a st q).outbox := by
  cases host <;> simp [State.answer, h]

theorem State.answer_frame (s : State) (host : Option (BitVec 128)) (st q : Nat) :
    (s.answer host a st q).mbxWaits = s.mbxWaits ∧ (s.answer host a st q).cplq = s.cplq := by
  cases host <;> exact ⟨rfl, rfl⟩

theorem State.bitAt_setBitOf_same (s : State) (r : Reg) (c : Bool) (hn : n < 64) : bitAt ((s.setBitOf r n c).rd r) n = c := by
  rw [State.setBitOf, State.rd_wr_same, bitAt_setBit_same _ _ _ hn]

theorem State.rd_setBitOf_ne (s : State) {r : Reg} (i : Nat) (c : Bool) (h : x.addr ≠ r.addr) : (s.setBitOf r i c).rd x = s.rd x :=
  s.rd_wr_ne _ h

theorem State.withMbxWaits_cplq (s : State) (l : List MbxWait) : ({ s with mbxWaits := l } : State).cplq = s.cplq := rfl

theorem State.withMbxWaits_outbox (s : State) (l : List MbxWait) : ({ s with mbxWaits := l } : State).outbox = s.outbox := rfl

theorem State.rd_withMbxWaits (s : State) (l : List MbxWait) : ({ s with mbxWaits := l } : State).rd x = s.rd x := rfl

theorem State.mbxSame_withMbxWaits (s : State) (l : List MbxWait) : s.mbxSame { s with mbxWaits := l } := rfl

theorem State.sameMem_of_mbxSame (h : s.mbxSame t) : s.sameMem t := ⟨State.mbxSame_rows h, State.mbxSame_lpddr h⟩

/-! Registers of mailbox blocks lie apart. -/

/-- Registers of mailbox blocks at different offsets lie apart, whichever blocks they are of. -/
theorem mbxAddr_ne_of_offset {r : Reg} {b c : MbxBlk} {o p : Nat} (hx : x.addr = mbxBase b + o) (hr : r.addr = mbxBase c + p)
    (h : o ≠ p ∧ o < 0x4000000 ∧ p < 0x4000000) : x.addr ≠ r.addr := by
  obtain ⟨hne, ho, hp⟩ := h
  exact fun he => hne (mbxOffset_eq (hx ▸ hr ▸ he) ho hp)

/-- No other block begins where the management block does (Table 1-9). -/
theorem mbxBase_eq_mgmt (hb : mbxOk b = true) (h : mbxBase b = mbxBase .mgmt) : b = .mgmt := by
  cases b
  case mgmt => rfl
  all_goals
    simp only [mbxOk, decide_eq_true_eq] at hb
    simp only [mbxBase, mgtBase, grnBase, gateBase, clBase, regBase] at h
    omega

/-! A word that lands. -/

/-- The word, its sender and the full mark as they are written when a word lands. -/
def State.wordLanded (s : State) (b : MbxBlk) (n a : Nat) (w : Word) : State :=
  ((s.wr (.mbxData b n) w).setFld (.mbxSender b n) F.mbxSenderSender a).setBitOf (.mbxStatus b) n true

section
variable (w : Word)

/-- A word that lands is written, and the receiver is told of it at most. -/
theorem State.mbxLand_cases (s : State) (b : MbxBlk) (n a : Nat) :
    s.mbxLand b n a w = s.wordLanded b n a w ∨ ∃ e, s.mbxLand b n a w = (s.wordLanded b n a w).emit e := by
  unfold State.mbxLand
  extract_lets
  split
  · right
    cases b
    case mgmt =>
      dsimp only
      split
      all_goals exact ⟨_, rfl⟩
    all_goals exact ⟨_, rfl⟩
  · exact .inl rfl

theorem State.rd_mbxLand (x : Reg) : (s.mbxLand b n a w).rd x = (s.wordLanded b n a w).rd x := by
  obtain h | ⟨e, h⟩ := s.mbxLand_cases w b n a
  · rw [h]
  · rw [h, State.rd_emit]

theorem State.rd_mbxLand_ne (hdata : x.addr ≠ (Reg.mbxData b n).addr) (hsender : x.addr ≠ (Reg.mbxSender b n).addr)
    (hstatus : x.addr ≠ (Reg.mbxStatus b).addr) : (s.mbxLand b n a w).rd x = s.rd x := by
  rw [State.rd_mbxLand, State.wordLanded, State.rd_setBitOf_ne _ _ _ hstatus, State.rd_setFld_ne _ _ _ hsender, State.rd_wr_ne _ _ hdata]

theorem State.mbxLand_frame (s : State) (b : MbxBlk) (n a : Nat) :
    (s.mbxLand b n a w).mbxWaits = s.mbxWaits ∧ (s.mbxLand b n a w).cplq = s.cplq := by
  have hlanded : (s.wordLanded b n a w).mbxWaits = s.mbxWaits ∧ (s.wordLanded b n a w).cplq = s.cplq := by
    rw [State.wordLanded, State.setBitOf_mbxWaits, State.setFld_mbxWaits, State.wr_mbxWaits, State.setBitOf_cplq, State.setFld_cplq,
      State.wr_cplq]
    exact ⟨rfl, rfl⟩
  obtain h | ⟨e, h⟩ := s.mbxLand_cases w b n a
  · rwa [h]
  · rwa [h, State.emit_mbxWaits, State.emit_cplq]

section
variable (hn : n < 64)
include hn

theorem State.rd_mbxData_mbxLand : (s.mbxLand b n a w).rd (.mbxData b n) = w := by
  have hstatus : (Reg.mbxData b n).addr ≠ (Reg.mbxStatus b).addr := mbxAddr_ne_of_offset rfl rfl (by omega)
  have hsender : (Reg.mbxData b n).addr ≠ (Reg.mbxSender b n).addr := mbxAddr_ne_of_offset rfl rfl (by omega)
  rw [State.rd_mbxLand, State.wordLanded, State.rd_setBitOf_ne _ _ _ hstatus, State.rd_setFld_ne _ _ _ hsender, State.rd_wr_same]

theorem State.mbxFull_mbxLand : (s.mbxLand b n a w).mbxFull b n = true := by
  rw [State.mbxFull, State.rd_mbxLand, State.wordLanded, State.bitAt_setBitOf_same _ _ _ hn]

theorem State.sender_mbxLand (ha : a < 2 ^ 16) : (s.mbxLand b n a w).fld (.mbxSender b n) F.mbxSenderSender = a := by
  have hstatus : (Reg.mbxSender b n).addr ≠ (Reg.mbxStatus b).addr := mbxAddr_ne_of_offset rfl rfl (by omega)
  rw [State.fld, State.rd_mbxLand, State.wordLanded, State.rd_setBitOf_ne _ _ _ hstatus]
  exact (State.fld_setFld_same _ _ _ _ (by decide)).trans (Nat.mod_eq_of_lt ha)

theorem State.mbxWaiting_mbxLand : (s.mbxLand b n a w).mbxWaiting b n = s.mbxWaiting b n := by
  rw [State.mbxWaiting, State.rd_mbxLand_ne w (mbxAddr_ne_of_offset rfl rfl (by omega))
    (mbxAddr_ne_of_offset rfl rfl (by omega)) (mbxAddr_ne_of_offset rfl rfl (by omega))]
  rfl

end

end

section
variable (s : State) (b : MbxBlk) (w : Word) (host : Option (BitVec 128)) (hn : n < 64)
include hn

/-- What the mailbox holds once a word has landed and been answered. -/
theorem State.answeredLand_mailbox (a : Nat) :
    let t := (s.mbxLand b n a w).answer host a 0 0
    t.rd (.mbxData b n) = w ∧ t.mbxFull b n = true ∧ t.mbxWaiting b n = s.mbxWaiting b n := by
  refine ⟨?_, ?_, ?_⟩
  · rw [State.rd_answer, State.rd_mbxData_mbxLand w hn]
  · rw [State.mbxFull, State.rd_answer]
    exact State.mbxFull_mbxLand w hn
  · rw [State.mbxWaiting, State.rd_answer]
    exact State.mbxWaiting_mbxLand w hn

theorem State.sender_answeredLand (ha : a < 2 ^ 16) :
    ((s.mbxLand b n a w).answer host a 0 0).fld (.mbxSender b n) F.mbxSenderSender = a := by
  rw [State.fld, State.rd_answer]
  exact State.sender_mbxLand w hn ha

end

/-! A write that ends without landing. -/

theorem State.rd_mbxTimeout_ne (q : Nat) (h : x.addr ≠ (Reg.mbxToutLog b).addr) : (s.mbxTimeout b n a q).rd x = s.rd x := by
  unfold State.mbxTimeout
  extract_lets t
  have ht : t.rd x = s.rd x := by
    unfold t
    split <;> rfl
  split
  · exact ht
  · exact (t.rd_wr_ne _ h).trans ht

theorem State.mbxTimeout_frame (s : State) (b : MbxBlk) (n a q : Nat) : (s.mbxTimeout b n a q).outbox = s.outbox
    ∧ (s.mbxTimeout b n a q).mbxWaits = s.mbxWaits ∧ (s.mbxTimeout b n a q).cplq = s.cplq := by
  unfold State.mbxTimeout
  extract_lets t
  have ht : t.outbox = s.outbox ∧ t.mbxWaits = s.mbxWaits ∧ t.cplq = s.cplq := by
    unfold t
    split
    · rw [State.count_outbox, State.count_mbxWaits, State.count_cplq]
      exact ⟨rfl, rfl, rfl⟩
    · exact ⟨rfl, rfl, rfl⟩
  split
  · exact ht
  · rwa [State.wr_outbox, State.wr_mbxWaits, State.wr_cplq]

/-! A mailbox that nothing reaches. -/

/-- No write has reached the mailbox: its word stands, it is full or empty as before, the waiting writes stand, and so do the stores. -/
def State.mbxStands (s t : State) (b : MbxBlk) (n : Nat) : Prop :=
  t.rd (.mbxData b n) = s.rd (.mbxData b n) ∧ t.mbxFull b n = s.mbxFull b n ∧ t.mbxWaits = s.mbxWaits ∧ s.sameMem t

theorem State.mbxStands_of_regs (hr : t.regs = s.regs) (hw : t.mbxWaits = s.mbxWaits) (hm : s.sameMem t) : s.mbxStands t b n := by
  refine ⟨?_, ?_, hw, hm⟩
  all_goals simp only [State.mbxFull, State.rd, hr]

theorem State.mbxStands_refl (s : State) : s.mbxStands s b n := State.mbxStands_of_regs rfl rfl ⟨rfl, rfl⟩

theorem State.mbxStands_trans (h : s.mbxStands t b n) (k : t.mbxStands u b n) : s.mbxStands u b n := by
  obtain ⟨hd, hf, hw, hrows, hlp⟩ := h
  obtain ⟨kd, kf, kw, krows, klp⟩ := k
  exact ⟨kd.trans hd, kf.trans hf, kw.trans hw, krows.trans hrows, klp.trans hlp⟩

theorem State.mbxStands_answer (h : s.mbxStands t b n) (host : Option (BitVec 128)) (st q : Nat) : s.mbxStands (t.answer host a st q) b n :=
  State.mbxStands_trans h (by cases host <;> exact State.mbxStands_of_regs rfl rfl ⟨rfl, rfl⟩)

theorem State.mbxStands_winWrite (h : s.mbxStands t b n) (a k v : Nat) : s.mbxStands (t.winWrite a k v) b n :=
  State.mbxStands_trans h (State.mbxStands_of_regs (t.winWrite_regs ..) (t.winWrite_mbxWaits ..) ⟨t.winWrite_rows .., t.winWrite_lpddr ..⟩)

/-- A write that ends by Table 16-7, at this mailbox or at another, leaves the mailbox as it is. -/
theorem State.mbxStands_mbxTimeout (hn : n < 64) (s : State) (c : MbxBlk) (m a q : Nat) : s.mbxStands (s.mbxTimeout c m a q) b n := by
  have hdata : (Reg.mbxData b n).addr ≠ (Reg.mbxToutLog c).addr := mbxAddr_ne_of_offset rfl rfl (by omega)
  have hstatus : (Reg.mbxStatus b).addr ≠ (Reg.mbxToutLog c).addr := mbxAddr_ne_of_offset rfl rfl (by omega)
  obtain ⟨-, hwaits, -⟩ := s.mbxTimeout_frame c m a q
  refine ⟨State.rd_mbxTimeout_ne q hdata, ?_, hwaits, State.sameMem_of_mbxSame (State.mbxSame_mbxTimeout ..)⟩
  rw [State.mbxFull, State.rd_mbxTimeout_ne q hstatus]
  rfl

/-! The event of a refused write. -/

/-- A word that lands in a mailbox of the management block leaves every other mailbox, of that block or of another, as it is. -/
theorem State.mbxStands_mgmtLand {m : Nat} (hb : mbxOk b = true) (hn : n < 64) (hm : m < 64) (hne : b = .mgmt → n ≠ m) (s : State)
    (a : Nat) (w : Word) : s.mbxStands (s.mbxLand .mgmt m a w) b n := by
  have hdata : (Reg.mbxData b n).addr ≠ (Reg.mbxData .mgmt m).addr := by
    intro he
    have hoff : 0x5000 + 8 * n = 0x5000 + 8 * m := mbxOffset_eq he (by omega) (by omega)
    obtain rfl : n = m := by omega
    exact hne (mbxBase_eq_mgmt hb (Nat.add_right_cancel he)) rfl
  obtain ⟨hwaits, -⟩ := s.mbxLand_frame w .mgmt m a
  refine ⟨State.rd_mbxLand_ne w hdata (mbxAddr_ne_of_offset rfl rfl (by omega))
    (mbxAddr_ne_of_offset rfl rfl (by omega)), ?_, hwaits, State.sameMem_of_mbxSame (State.mbxSame_mbxLand ..)⟩
  have hd : (Reg.mbxStatus b).addr ≠ (Reg.mbxData .mgmt m).addr := mbxAddr_ne_of_offset rfl rfl (by omega)
  have hs : (Reg.mbxStatus b).addr ≠ (Reg.mbxSender .mgmt m).addr := mbxAddr_ne_of_offset rfl rfl (by omega)
  by_cases hmgmt : b = .mgmt
  · subst hmgmt
    rw [State.mbxFull, State.rd_mbxLand, State.wordLanded, State.setBitOf, State.rd_wr_same, bitAt_setBit_ne _ _ _ _ (hne rfl).symm,
      State.rd_setFld_ne _ _ _ hs, State.rd_wr_ne _ _ hd]
    rfl
  · have hstatus : (Reg.mbxStatus b).addr ≠ (Reg.mbxStatus .mgmt).addr := fun he => hmgmt (mbxBase_eq_mgmt hb (Nat.add_right_cancel he))
    rw [State.mbxFull, State.rd_mbxLand_ne w hd hs hstatus]
    rfl

section
variable (hb : mbxOk b = true) (hn : n < 64) (hne : b = .mgmt → n ≠ 63)
include hb hn hne

theorem State.mbxStands_eventWrite (hf : s.mbxFull .mgmt 63 = false) (w : Word) :
    s.mbxStands (s.mbxWrite .mgmt 63 agentMgmt w none).1 b n := by
  unfold State.mbxWrite
  split
  · exact State.mbxStands_answer (State.mbxStands_mbxTimeout hn ..) ..
  · rw [hf]
    exact State.mbxStands_answer (State.mbxStands_mgmtLand hb hn (by decide) hne ..) ..

theorem State.mbxStands_putEvent (s : State) (kind part job status : Nat) (pay : Payload) :
    s.mbxStands (s.putEvent kind part job status pay) b n := by
  unfold State.putEvent
  extract_lets a w t u v
  have ht : s.mbxStands t b n := State.mbxStands_winWrite (State.mbxStands_winWrite (State.mbxStands_refl s) ..) ..
  have hu : s.mbxStands u b n :=
    List.foldlRecOn (motive := fun u => s.mbxStands u b n) pay _ ht fun _ h _ _ => State.mbxStands_winWrite h ..
  clear_value u
  have hv : s.mbxStands v b n := State.mbxStands_trans hu (State.mbxStands_of_regs rfl rfl ⟨rfl, rfl⟩)
  split
  · exact hv
  · next hf => exact State.mbxStands_trans hv (State.mbxStands_eventWrite hb hn hne (Bool.eq_false_of_not_eq_true hf) _)

theorem State.mbxStands_post (s : State) (kind part job status : Nat) (pay : Payload) :
    s.mbxStands (s.post kind part job status pay) b n := by
  unfold State.post
  split
  · exact State.mbxStands_of_regs rfl rfl ⟨rfl, rfl⟩
  extract_lets t u
  have hu : s.mbxStands u b n := by
    unfold u
    split
    · exact State.mbxStands_refl s
    · exact State.mbxStands_trans (State.mbxStands_putEvent hb hn hne ..) (State.mbxStands_of_regs rfl rfl ⟨rfl, rfl⟩)
  split
  · exact State.mbxStands_trans hu (State.mbxStands_of_regs rfl rfl ⟨rfl, rfl⟩)
  · exact State.mbxStands_trans hu (State.mbxStands_putEvent hb hn hne ..)

theorem State.mbxStands_busError (s : State) (agent addr : Nat) : s.mbxStands (s.busError agent addr) b n :=
  State.mbxStands_trans (State.mbxStands_post hb hn hne s ..) (State.mbxStands_of_regs rfl rfl ⟨rfl, rfl⟩)

/-- An access that breaks the rights reaches no mailbox but the event's (R363). -/
theorem State.mbxStands_mbxRefuse (s : State) (c : MbxBlk) (agent addr : Nat) : s.mbxStands (s.mbxRefuse c agent addr) b n := by
  unfold State.mbxRefuse
  repeat' split
  · exact State.mbxStands_of_regs rfl rfl ⟨rfl, rfl⟩
  all_goals exact State.mbxStands_busError hb hn hne ..

end

/-! A write by a sender. -/

theorem isHost_lt (h : isHost a = true) : a < 2 ^ 16 := by
  simp only [isHost, decide_eq_true_eq] at h
  omega

theorem isMgmt_lt (h : isMgmt a = true) : a < 2 ^ 16 := by
  simp only [isMgmt, decide_eq_true_eq] at h
  omega

theorem mbxInner_lt (hb : mbxOk b = true) (h : mbxInner b a = true) : a < 2 ^ 16 := by
  cases b
  case mgmt => exact isMgmt_lt h
  all_goals
    simp only [mbxOk, decide_eq_true_eq] at hb
    simp only [mbxInner, agentGranary, agentGate, agentCluster, beq_iff_eq] at h
    omega

theorem mbxOuter_lt (h : mbxOuter b a = true) : a < 2 ^ 16 := by
  cases b
  case mgmt => exact isHost_lt h
  case cluster cl =>
    simp only [mbxOuter, Bool.and_eq_true, decide_eq_true_eq] at h
    omega
  all_goals exact isMgmt_lt h

/-- A sender's agent ID fits its field (Tables 1-7, 16-5). -/
theorem mbxSends_lt (hb : mbxOk b = true) (h : mbxSends b n a = true) : a < 2 ^ 16 := by
  unfold mbxSends at h
  split at h
  · exact mbxOuter_lt h
  · exact mbxInner_lt hb h

section
variable {host : Option (BitVec 128)} {v : Word} (hr : s.receiverInReset b n = false)
include hr

theorem State.mbxWrite_of_empty (hf : s.mbxFull b n = false) :
    (s.mbxWrite b n a v host).1 = (s.mbxLand b n a v).answer host a 0 0 := by
  simp [State.mbxWrite, hr, hf]

theorem State.mbxWrite_of_full (hf : s.mbxFull b n = true) (hw : s.mbxWaiting b n = false) :
    (s.mbxWrite b n a v host).1 = { s.setBitOf (.mbxWait b) n true with
      mbxWaits := s.mbxWaits ++ [⟨b, n, a, v, s.fld (.mbxTimeout b) F.mbxTimeoutMs, host⟩] } := by
  simp only [State.mbxWrite, hr, hf, hw, Bool.not_true, Bool.false_eq_true, if_false]

theorem State.mbxWrite_of_waiting (hf : s.mbxFull b n = true) (hw : s.mbxWaiting b n = true) :
    (s.mbxWrite b n a v host).1 = (s.mbxTimeout b n a 3).answer host a 2 3 := by
  simp [State.mbxWrite, hr, hf, hw]

end

/-! A waiting write taken out. -/

theorem State.rd_takeWait (s : State) (b : MbxBlk) (n : Nat) : (s.takeWait b n).2.rd x = (s.setBitOf (.mbxWait b) n false).rd x :=
  State.rd_withMbxWaits ..

theorem State.takeWait_cplq (s : State) (b : MbxBlk) (n : Nat) : (s.takeWait b n).2.cplq = s.cplq :=
  (State.withMbxWaits_cplq ..).trans (s.setBitOf_cplq (.mbxWait b) n false)

theorem State.takeWait_outbox (s : State) (b : MbxBlk) (n : Nat) : (s.takeWait b n).2.outbox = s.outbox :=
  (State.withMbxWaits_outbox ..).trans (s.setBitOf_outbox (.mbxWait b) n false)

theorem State.mbxWaiting_takeWait (hn : n < 64) : (s.takeWait b n).2.mbxWaiting b n = false := by
  rw [State.mbxWaiting, State.rd_takeWait, State.bitAt_setBitOf_same _ _ _ hn]

/-- An emptied mailbox has the same waiting write as the full one. -/
theorem State.takeWait_emptied {o : Option MbxWait} (hw : (s.takeWait b n).1 = o) :
    (s.setBitOf (.mbxStatus b) n false).takeWait b n = (o, ((s.setBitOf (.mbxStatus b) n false).takeWait b n).2) :=
  Prod.ext ((congrArg (List.find? _) (s.setBitOf_mbxWaits (.mbxStatus b) n false)).trans hw) rfl

/-- A write behind which none waits takes its place: the mailbox keeps its word, and nothing is sent. -/
theorem State.waitPlaced_mailbox (hn : n < 64) (s : State) (b : MbxBlk) (l : List MbxWait) :
    let t : State := { s.setBitOf (.mbxWait b) n true with mbxWaits := l }
    t.mbxWaits = l ∧ t.mbxWaiting b n = true ∧ t.rd (.mbxData b n) = s.rd (.mbxData b n) ∧ t.outbox = s.outbox ∧ s.sameMem t := by
  have hwait : (Reg.mbxData b n).addr ≠ (Reg.mbxWait b).addr := mbxAddr_ne_of_offset rfl rfl (by omega)
  refine ⟨rfl, ?_, ?_, ?_, ?_⟩
  · rw [State.mbxWaiting, State.rd_withMbxWaits, State.bitAt_setBitOf_same _ _ _ hn]
  · rw [State.rd_withMbxWaits, State.rd_setBitOf_ne _ _ _ hwait]
  · rw [State.withMbxWaits_outbox, State.setBitOf_outbox]
  · exact State.sameMem_of_mbxSame (State.mbxSame_trans (State.mbxSame_wr (.mbxWait b) _) (State.mbxSame_withMbxWaits ..))

/-! A read by a receiver, and the end of a wait. -/

/-- Nothing is left to pump where no completion word is queued. -/
theorem State.pump_of_nil (h : SMap.get (fun _ => []) s.cplq n = []) (k : Nat) : s.pump n k = s := by
  cases k with
  | zero => rfl
  | succ k =>
    unfold State.pump
    split
    · rfl
    · simp only [h]

/-- The emptied mailbox's next word: the waiting write has left its place, lands and is answered. -/
def State.letWaitLand (s : State) (b : MbxBlk) (n : Nat) (w : MbxWait) : State :=
  (((s.setBitOf (.mbxStatus b) n false).takeWait b n).2.mbxLand b n w.sender w.data).answer w.host w.sender 0 0

theorem State.letWaitLand_cplq (s : State) (b : MbxBlk) (n : Nat) (w : MbxWait) : (s.letWaitLand b n w).cplq = s.cplq :=
  (State.answer_frame ..).2.trans ((State.mbxLand_frame ..).2.trans ((State.takeWait_cplq ..).trans (State.setBitOf_cplq ..)))

section
variable (hq : b = .mgmt → SMap.get (fun _ => []) s.cplq n = []) (hr : mbxReceives b n a = true) (hf : s.mbxFull b n = true)
include hq hr hf

theorem State.mbxRead_of_alone (hw : (s.takeWait b n).1 = none) :
    s.mbxRead b n a = (s.rd (.mbxData b n), s.setBitOf (.mbxStatus b) n false) := by
  simp only [State.mbxRead, hr, hf, Bool.not_true, Bool.false_eq_true, if_false]
  rw [State.takeWait_emptied hw]
  cases b
  case mgmt =>
    dsimp only
    rw [State.pump_of_nil (by rw [State.setBitOf_cplq]; exact hq rfl), ite_self]
  all_goals rfl

theorem State.mbxRead_of_waited {w : MbxWait} (hw : (s.takeWait b n).1 = some w) :
    s.mbxRead b n a = (s.rd (.mbxData b n), s.letWaitLand b n w) := by
  have hcplq := s.letWaitLand_cplq b n w
  simp only [State.mbxRead, hr, hf, Bool.not_true, Bool.false_eq_true, if_false]
  rw [State.takeWait_emptied hw]
  change (_, _) = (_, State.letWaitLand ..)
  unfold State.letWaitLand at hcplq ⊢
  cases b
  case mgmt =>
    dsimp only
    rw [State.pump_of_nil (by rw [hcplq]; exact hq rfl), ite_self]
  all_goals rfl

end

/-- A read of an empty mailbox by its receiver answers 0 and changes nothing (R360). -/
theorem State.mbxRead_of_empty (hr : mbxReceives b n a = true) (hf : s.mbxFull b n = false) : s.mbxRead b n a = (0, s) := by
  simp [State.mbxRead, hr, hf]

theorem State.mbxRead_of_not_receives (hr : mbxReceives b n a = false) : s.mbxRead b n a = (s.rd (.mbxData b n), s) := by
  simp [State.mbxRead, hr]

/-- What the receiver meets once the waiting write has landed. -/
theorem State.letWaitLand_mailbox (hn : n < 64) (s : State) (b : MbxBlk) (w : MbxWait) : (s.letWaitLand b n w).mbxFull b n = true
    ∧ (s.letWaitLand b n w).rd (.mbxData b n) = w.data ∧ (s.letWaitLand b n w).mbxWaiting b n = false := by
  obtain ⟨hdata, hfull, hwaiting⟩ :=
    ((s.setBitOf (.mbxStatus b) n false).takeWait b n).2.answeredLand_mailbox b w.data w.host hn w.sender
  exact ⟨hfull, hdata, hwaiting.trans (State.mbxWaiting_takeWait hn)⟩

/-- A waiting write that has left its place and ended with RECEIVER_SLOW (Table 16-7). -/
def State.waitEnded (s : State) (b : MbxBlk) (n : Nat) (w : MbxWait) : State :=
  ((s.takeWait b n).2.mbxTimeout b n w.sender 1).answer w.host w.sender 2 1

theorem State.waitEnded_cplq (s : State) (b : MbxBlk) (n : Nat) (w : MbxWait) : (s.waitEnded b n w).cplq = s.cplq := by
  obtain ⟨-, -, hended⟩ := (s.takeWait b n).2.mbxTimeout_frame b n w.sender 1
  exact (State.answer_frame ..).2.trans (hended.trans (State.takeWait_cplq ..))

/-- The wait is over, its sender has been answered, and the mailbox keeps its word. -/
theorem State.waitEnded_mailbox (hn : n < 64) (s : State) (b : MbxBlk) (w : MbxWait) :
    (s.waitEnded b n w).mbxWaits = (s.takeWait b n).2.mbxWaits ∧ (s.waitEnded b n w).mbxWaiting b n = false
      ∧ (s.waitEnded b n w).outbox = (s.answer w.host w.sender 2 1).outbox
      ∧ (s.waitEnded b n w).rd (.mbxData b n) = s.rd (.mbxData b n) ∧ s.sameMem (s.waitEnded b n w) := by
  have hwait : (Reg.mbxWait b).addr ≠ (Reg.mbxToutLog b).addr := mbxAddr_ne_of_offset rfl rfl (by omega)
  have hdata : (Reg.mbxData b n).addr ≠ (Reg.mbxToutLog b).addr := mbxAddr_ne_of_offset rfl rfl (by omega)
  have hmark : (Reg.mbxData b n).addr ≠ (Reg.mbxWait b).addr := mbxAddr_ne_of_offset rfl rfl (by omega)
  obtain ⟨hout, hwaits, -⟩ := (s.takeWait b n).2.mbxTimeout_frame b n w.sender 1
  unfold State.waitEnded
  refine ⟨(State.answer_frame ..).1.trans hwaits, ?_, State.answer_outbox_congr (hout.trans (s.takeWait_outbox b n)) .., ?_,
    State.sameMem_of_mbxSame ?_⟩
  · rw [State.mbxWaiting, State.rd_answer, State.rd_mbxTimeout_ne _ hwait]
    exact State.mbxWaiting_takeWait hn
  · rw [State.rd_answer, State.rd_mbxTimeout_ne _ hdata, State.rd_takeWait, State.rd_setBitOf_ne _ _ _ hmark]
  · exact State.mbxSame_trans (State.mbxSame_takeWait b n) (State.mbxSame_trans (State.mbxSame_mbxTimeout ..) (State.mbxSame_answer ..))

/-! The rows. -/

theorem State.tagLost_of_not_mem (h : a ∉ s.lostTags) : s.tagLost a = false := by
  simp [State.tagLost, h]

section
variable (hb : mbxOk b = true) (ha : 1 ≤ a) (hreach : s.mbxReach b a = true)
include hb

theorem exec_mailboxWaitTimeout {w : MbxWait} (hn : n < 64) (hq : b = .mgmt → SMap.get (fun _ => []) s.cplq n = [])
    (hw : (s.takeWait b n).1 = some w) : exec (.mailboxWaitTimeout b n) s = .next (s.waitEnded b n w)
      ∨ exec (.mailboxWaitTimeout b n) s = .next ((s.waitEnded b n w).count C.fwCplDropped 0) := by
  have hw' : s.takeWait b n = (some w, (s.takeWait b n).2) := Prod.ext hw rfl
  have hcplq := s.waitEnded_cplq b n w
  show execMailboxWaitTimeout b n s = _ ∨ execMailboxWaitTimeout b n s = _
  simp only [execMailboxWaitTimeout, hb, hn, decide_true, Bool.and_self, unitOk_true]
  rw [hw']
  unfold State.waitEnded at hcplq ⊢
  cases b
  case mgmt =>
    dsimp only
    split
    · exact .inr (congrArg Host.Outcome.next (State.pump_of_nil (by
        rw [State.count_cplq, hcplq]
        exact hq rfl) 64))
    · exact .inl rfl
  all_goals exact .inl rfl

include ha

theorem exec_mailboxWrite_of_not_sends (hn : n < 64) (hs : mbxSends b n a = false) (v : Word) :
    exec (.mailboxWrite b n a v) s = .next (s.mbxRefuse b a (Reg.mbxData b n).addr) := by
  show execMailboxWrite b n a v s = _
  simp [execMailboxWrite, hb, hn, ha, hs]

include hreach

section
variable (hn : n < 64)
include hn

theorem exec_mailboxWrite_of_sends (hs : mbxSends b n a = true) (ht : a ∉ s.lostTags) (v : Word) :
    exec (.mailboxWrite b n a v) s = .next (s.mbxWrite b n a v none).1 := by
  show execMailboxWrite b n a v s = _
  simp [execMailboxWrite, hb, hn, ha, hreach, hs, State.tagLost_of_not_mem ht]

theorem exec_mailboxRead_of_reset (hne : b ≠ .mgmt) (hs : mbxSends b n a = true ∨ mbxReceives b n a = true)
    (hreset : s.mbxResets b a = true) : exec (.mailboxRead b n a) s = .next (s.resetAnswer a) := by
  show execMailboxRead b n a s = _
  simp only [execMailboxRead, hb, hn, ha, hreach, hreset, hne, (Bool.or_eq_true ..).mpr hs, and_self, false_and, decide_true, decide_false,
    Bool.and_true, Bool.false_and, Bool.not_false, Bool.not_true, Bool.or_false, Bool.false_eq_true, unitOk_true, need_true, if_true, if_false]

/-- Where the block is not in reset and firmware has room for the completion word, the read is performed and answered. -/
theorem exec_mailboxRead_of_side (hroom : b = .mgmt → (SMap.get (fun _ => []) s.cplq (32 + n)).length < 64)
    (hs : mbxSends b n a = true ∨ mbxReceives b n a = true) (hreset : s.mbxResets b a = false) :
    exec (.mailboxRead b n a) s = .next ((s.mbxRead b n a).2.emit (.access a 0 0 (s.mbxRead b n a).1)) := by
  have hfree : (decide (b = .mgmt ∧ n < 31) && isMgmt a && decide (64 ≤ (SMap.get (fun _ => []) s.cplq (32 + n)).length)) = false := by
    by_cases hm : b = .mgmt
    · rw [decide_eq_false (Nat.not_le.2 (hroom hm)), Bool.and_false]
    · simp [hm]
  show execMailboxRead b n a s = _
  simp only [execMailboxRead, hb, hn, ha, hreach, hreset, hfree, (Bool.or_eq_true ..).mpr hs, and_self, decide_true, Bool.and_true, Bool.not_false,
    Bool.not_true, Bool.or_false, Bool.false_eq_true, unitOk_true, need_true, if_false]

end

section
variable {k : Nat} (hk : k < 16) (hside : mbxInner b a = true ∨ mbxOuter b a = true) (hreset : s.mbxResets b a = false)
include hk hside hreset

theorem exec_lockRead_of_side : exec (.lockRead b k a) s = .next ((s.lockRead b k a).2.emit
    (.access a 0 0 (BitVec.ofNat 64 (s.lockRead b k a).1))) := by
  show execLockRead b k a s = _
  simp only [execLockRead, hb, hk, ha, hreach, hreset, (Bool.or_eq_true ..).mpr hside, and_self, decide_true,
    Bool.and_self, Bool.not_true, Bool.or_self, Bool.false_eq_true, unitOk_true, if_false]

theorem exec_lockRelease_of_side (ht : a ∉ s.lostTags) :
    exec (.lockRelease b k a) s = .next ((s.lockWrite b k a 0).emit (.access a 0 0 0)) := by
  show execLockRelease b k a s = _
  simp only [execLockRelease, hb, hk, ha, hreach, hreset, (Bool.or_eq_true ..).mpr hside, State.tagLost_of_not_mem ht, and_self, decide_true,
    Bool.and_self, Bool.not_true, Bool.or_self, Bool.false_eq_true, unitOk_true, if_false]

theorem exec_lockForce_of_side (ht : a ∉ s.lostTags) :
    exec (.lockForce b k a) s = .next ((s.lockWrite b k a 0x80000000).emit (.access a 0 0 0)) := by
  show execLockForce b k a s = _
  simp only [execLockForce, hb, hk, ha, hreach, hreset, (Bool.or_eq_true ..).mpr hside, State.tagLost_of_not_mem ht, and_self, decide_true,
    Bool.and_self, Bool.not_true, Bool.or_self, Bool.true_or, Bool.false_eq_true, unitOk_true, if_false]

end

end

/-! Locks. -/

/-- A free lock goes to its reader; the owner reads 0, another agent the owner (R362). -/
theorem State.lockRead_eq (s : State) (b : MbxBlk) (k a : Nat) : s.lockRead b k a
    = (if s.fld (.mbxLock b k) F.mbxLockOwner = a then 0 else s.fld (.mbxLock b k) F.mbxLockOwner,
      if s.fld (.mbxLock b k) F.mbxLockOwner = 0 then s.wr (.mbxLock b k) (BitVec.ofNat 64 a) else s) := by
  by_cases hfree : s.fld (.mbxLock b k) F.mbxLockOwner = 0
  · simp [State.lockRead, hfree]
  · by_cases hown : s.fld (.mbxLock b k) F.mbxLockOwner = a
    · have ha : a ≠ 0 := hown ▸ hfree
      simp [State.lockRead, hown, ha]
    · simp [State.lockRead, hfree, hown]

theorem State.lockWrite_zero (s : State) (b : MbxBlk) (k a : Nat) :
    s.lockWrite b k a 0 = if s.fld (.mbxLock b k) F.mbxLockOwner = a then s.wr (.mbxLock b k) 0 else s := by
  have hv : bits 0#64 0 16 = 0 ∧ bitAt 0#64 31 = false := by decide
  simp [State.lockWrite, hv]

theorem State.lockWrite_force (s : State) (b : MbxBlk) (k a : Nat) :
    s.lockWrite b k a 0x80000000 = if isMgmt a then s.wr (.mbxLock b k) 0 else s := by
  have hv : bits 0x80000000#64 0 16 = 0 ∧ bitAt 0x80000000#64 31 = true := by decide
  simp [State.lockWrite, hv]

end Sys2Proof.Machine

open Sys2Proof.Machine

/-- Settles O54: each row is performed by the block's operation on the mailbox or lock, and of the registers that it writes only the mailbox's own
are asked after; the fault event of a refused write reaches mailbox 63 of the management block alone. -/
theorem mailboxesAndLocks : Obligations.MailboxesAndLocks := by
  unfold Obligations.MailboxesAndLocks
  intro b n a s hb ha hreach
  refine ⟨fun hn => ?_, fun k hk hside => ?_⟩
  · intro refused
    refine ⟨fun v hs ht hr => ?_, fun v hs hne => ?_, fun hreset hne hs => exec_mailboxRead_of_reset hb ha hreach hn hne hs hreset,
      fun hreset hcplq => ?_⟩
    · have hexec := exec_mailboxWrite_of_sends hb ha hreach hn hs ht v
      refine ⟨fun hf => ?_, fun hf hw => ?_, fun hf hw => ?_⟩
      · rw [State.mbxWrite_of_empty hr hf] at hexec
        obtain ⟨hdata, hfull, -⟩ := s.answeredLand_mailbox b v none hn a
        exact ⟨_, hexec, hdata, hfull, s.sender_answeredLand b v none hn (mbxSends_lt hb hs), List.getLast?_concat,
          State.sameMem_of_mbxSame (State.mbxSame_trans (State.mbxSame_mbxLand ..) (State.mbxSame_answer ..))⟩
      · rw [State.mbxWrite_of_full hr hf hw] at hexec
        exact ⟨_, hexec, s.waitPlaced_mailbox hn b _⟩
      · rw [State.mbxWrite_of_waiting hr hf hw] at hexec
        obtain ⟨hout, -⟩ := s.mbxTimeout_frame b n a 3
        exact ⟨⟨_, hexec, State.mbxStands_answer (State.mbxStands_mbxTimeout hn ..) ..⟩, _, hexec, congrArg (· ++ _) hout⟩
    · exact ⟨_, exec_mailboxWrite_of_not_sends hb ha hn hs v, State.mbxStands_mbxRefuse hb hn hne ..⟩
    · intro seen
      have hq (h : b = .mgmt) := List.length_eq_zero_iff.1 (hcplq h).1
      have hexec (hs : mbxSends b n a = true ∨ mbxReceives b n a = true) :=
        exec_mailboxRead_of_side hb ha hreach hn (fun h => (hcplq h).2) hs hreset
      have hseen : seen ((s.mbxRead b n a).2.emit (.access a 0 0 (s.mbxRead b n a).1)) (s.mbxRead b n a).1 :=
        ⟨List.getLast?_concat, State.sameMem_of_mbxSame (State.mbxSame_trans (State.mbxSame_mbxRead ..) (State.mbxSame_emit _))⟩
      refine ⟨fun hr hf hw => ?_, fun w hr hf hw => ?_, fun hr hf => ?_, fun hr hs => ?_, fun w hw => ?_⟩
      · have hexec := hexec (.inr hr)
        rw [State.mbxRead_of_alone hq hr hf hw] at hexec hseen
        exact ⟨_, hexec, hseen, (State.mbxFull_emit ..).trans (s.bitAt_setBitOf_same (.mbxStatus b) false hn),
          (State.rd_emit ..).trans (s.rd_setBitOf_ne n false (mbxAddr_ne_of_offset rfl rfl (by omega)))⟩
      · have hexec := hexec (.inr hr)
        rw [State.mbxRead_of_waited hq hr hf hw] at hexec hseen
        exact ⟨_, hexec, hseen, s.letWaitLand_mailbox hn b w⟩
      · rw [hexec (.inr hr), State.mbxRead_of_empty hr hf]
      · rw [hexec (.inl hs), State.mbxRead_of_not_receives hr]
      · obtain hexec | hexec := exec_mailboxWaitTimeout hb hn hq hw
        · exact ⟨_, hexec, s.waitEnded_mailbox hn b w⟩
        · exact ⟨_, hexec, s.waitEnded_mailbox hn b w⟩
  · intro r own hreset
    refine ⟨?_, fun ht => ⟨?_, ?_⟩⟩
    · rw [exec_lockRead_of_side hb ha hreach hk hside hreset, State.lockRead_eq, apply_ite (BitVec.ofNat 64)]
      rfl
    · rw [exec_lockRelease_of_side hb ha hreach hk hside hreset ht, State.lockWrite_zero]
    · rw [exec_lockForce_of_side hb ha hreach hk hside hreset ht, State.lockWrite_force]
end

section
/-! What an operation may change, said once for each: the fields of the state that it writes. A frame ("rows and LPDDR5X stand") is then read off,
and so is the canonical form of the stores, which every operation keeps. -/

-- one proof after another: as many tasks as there are lemmas here would need more memory than a check has
set_option Elab.async false

namespace Sys2Proof.Machine

/-- The fields of the state, by name; `taskIds` is written by what puts tasks into the pool, and `rx` by what moves the segment that a port receives. -/
inductive Field where
  | pending | free | outbox | regs | shadow | suspects | late | ctrs | snap | snapBeat | snapAsked | rows | lpddr | checks | lpPatrol | window
  | moves | ceRows | retiredRows | copying | epoch | walk | bringups | seals | pinned | goneViews | copyGone | tasks | taskSeq | groups | engs
  | cores | clus | chans | waits | arrivals | jobs | parts | power | edgeDraw | powerOver | grng | win | tithes | titheSeq | packetsOut | restore
  | ports | gates | loop | beat | mbxWaits | mods | lostTags | hostLost | bootStage | stageWord | evHead | evTail | evLost | evOver | fw | cplq
  | sec | nv | shape | mesh | bring | shapeNew | coresUp | defects | fwTurn | seedPack | seedSets | minSvn | calDue | calLate | passedAt
  | testFirst | window_ | board | taskIds | rx
  deriving DecidableEq

/-- What a port keeps of the segment that it receives (R333): the frames, their segment's number, and whether it failed before. -/
def Port.rxPlace (x : Port) : List Frame × Nat × Bool := (x.segment, x.rxSeg, x.segFail)

/-- Two states hold the same in a field; of the numbers of tasks, the second has none that the first has not. -/
def Field.same (s t : State) : Field → Prop
  | .pending => t.pending = s.pending | .free => t.free = s.free | .outbox => t.outbox = s.outbox | .regs => t.regs = s.regs
  | .shadow => t.shadow = s.shadow | .suspects => t.suspects = s.suspects | .late => t.late = s.late | .ctrs => t.ctrs = s.ctrs
  | .snap => t.snap = s.snap | .snapBeat => t.snapBeat = s.snapBeat | .snapAsked => t.snapAsked = s.snapAsked | .rows => t.rows = s.rows
  | .lpddr => t.lpddr = s.lpddr | .checks => t.checks = s.checks | .lpPatrol => t.lpPatrol = s.lpPatrol | .window => t.window = s.window
  | .moves => t.moves = s.moves | .ceRows => t.ceRows = s.ceRows | .retiredRows => t.retiredRows = s.retiredRows
  | .copying => t.copying = s.copying | .epoch => t.epoch = s.epoch | .walk => t.walk = s.walk | .bringups => t.bringups = s.bringups
  | .seals => t.seals = s.seals | .pinned => t.pinned = s.pinned | .goneViews => t.goneViews = s.goneViews | .copyGone => t.copyGone = s.copyGone
  | .tasks => t.tasks = s.tasks | .taskSeq => t.taskSeq = s.taskSeq | .groups => t.groups = s.groups | .engs => t.engs = s.engs
  | .cores => t.cores = s.cores | .clus => t.clus = s.clus | .chans => t.chans = s.chans | .waits => t.waits = s.waits
  | .arrivals => t.arrivals = s.arrivals | .jobs => t.jobs = s.jobs | .parts => t.parts = s.parts | .power => t.power = s.power
  | .edgeDraw => t.edgeDraw = s.edgeDraw | .powerOver => t.powerOver = s.powerOver | .grng => t.grng = s.grng | .win => t.win = s.win
  | .tithes => t.tithes = s.tithes | .titheSeq => t.titheSeq = s.titheSeq | .packetsOut => t.packetsOut = s.packetsOut
  | .restore => t.restore = s.restore | .ports => t.ports = s.ports | .gates => t.gates = s.gates | .loop => t.loop = s.loop
  | .beat => t.beat = s.beat | .mbxWaits => t.mbxWaits = s.mbxWaits | .mods => t.mods = s.mods | .lostTags => t.lostTags = s.lostTags
  | .hostLost => t.hostLost = s.hostLost | .bootStage => t.bootStage = s.bootStage | .stageWord => t.stageWord = s.stageWord
  | .evHead => t.evHead = s.evHead | .evTail => t.evTail = s.evTail | .evLost => t.evLost = s.evLost | .evOver => t.evOver = s.evOver
  | .fw => t.fw = s.fw | .cplq => t.cplq = s.cplq | .sec => t.sec = s.sec | .nv => t.nv = s.nv | .shape => t.shape = s.shape
  | .mesh => t.mesh = s.mesh | .bring => t.bring = s.bring | .shapeNew => t.shapeNew = s.shapeNew | .coresUp => t.coresUp = s.coresUp
  | .defects => t.defects = s.defects | .fwTurn => t.fwTurn = s.fwTurn | .seedPack => t.seedPack = s.seedPack
  | .seedSets => t.seedSets = s.seedSets | .minSvn => t.minSvn = s.minSvn | .calDue => t.calDue = s.calDue | .calLate => t.calLate = s.calLate
  | .passedAt => t.passedAt = s.passedAt | .testFirst => t.testFirst = s.testFirst | .window_ => t.window_ = s.window_
  | .board => t.board = s.board | .taskIds => ∀ id, s.task? id = none → t.task? id = none
  | .rx => ∀ p, (t.port p).rxPlace = (s.port p).rxPlace

/-- Every field. -/
def Field.all : List Field := [.pending, .free, .outbox, .regs, .shadow, .suspects, .late, .ctrs, .snap, .snapBeat, .snapAsked, .rows, .lpddr,
    .checks, .lpPatrol, .window, .moves, .ceRows, .retiredRows, .copying, .epoch, .walk, .bringups, .seals, .pinned, .goneViews, .copyGone, .tasks,
    .taskSeq, .groups, .engs, .cores, .clus, .chans, .waits, .arrivals, .jobs, .parts, .power, .edgeDraw, .powerOver, .grng, .win, .tithes, .titheSeq,
    .packetsOut, .restore, .ports, .gates, .loop, .beat, .mbxWaits, .mods, .lostTags, .hostLost, .bootStage, .stageWord, .evHead, .evTail, .evLost,
    .evOver, .fw, .cplq, .sec, .nv, .shape, .mesh, .bring, .shapeNew, .coresUp, .defects, .fwTurn, .seedPack, .seedSets, .minSvn, .calDue, .calLate,
    .passedAt, .testFirst, .window_, .board, .taskIds, .rx]

/-- The fields that are not listed. -/
def Field.but (l : List Field) : List Field := Field.all.filter fun f => f ∉ l

/-- A list of fields as a number, a bit for each. -/
def Field.mask (l : List Field) : Nat := l.foldr (fun f m => 1 <<< f.ctorIdx ||| m) 0

/-- Every field of the first list is in the second. -/
def Field.within (A B : List Field) : Bool := Nat.beq (mask A ||| mask B) (mask B)

theorem Field.ctorIdx_inj {f g : Field} (h : f.ctorIdx = g.ctorIdx) : f = g := by
  rw [← Field.ofNat_ctorIdx f, h, Field.ofNat_ctorIdx]

theorem Field.testBit_mask (l : List Field) (f : Field) : (mask l).testBit f.ctorIdx = decide (f ∈ l) := by
  induction l with
  | nil => simp [mask]
  | cons g l ih =>
    have hg : (1 <<< g.ctorIdx).testBit f.ctorIdx = decide (f = g) := by
      rw [Nat.one_shiftLeft, Nat.testBit_two_pow]
      exact decide_eq_decide.2 ⟨fun h => (Field.ctorIdx_inj h).symm, fun h => h ▸ rfl⟩
    rw [mask, List.foldr_cons, Nat.testBit_or, hg]
    rw [mask] at ih
    rw [ih]
    simp

theorem Field.mem_of_within {A B : List Field} (h : within A B) {f : Field} (hf : f ∈ A) : f ∈ B := by
  have hb := congrArg (Nat.testBit · f.ctorIdx) (Nat.eq_of_beq_eq_true h)
  simpa [Field.testBit_mask, hf] using hb

theorem Field.within_trans {A B C : List Field} (h : within B C) (k : within A B := by decide +kernel) : within A C := by
  have hB : mask B ||| mask C = mask C := Nat.eq_of_beq_eq_true h
  have hA : mask A ||| mask B = mask B := Nat.eq_of_beq_eq_true k
  rw [within, Nat.beq_eq, ← hB, ← Nat.lor_assoc, hA]

/-- The state with the listed fields of another. -/
def State.mix (s t : State) (l : List Field) : State :=
  { pending := if .pending ∈ l then t.pending else s.pending, free := if .free ∈ l then t.free else s.free,
    outbox := if .outbox ∈ l then t.outbox else s.outbox, regs := if .regs ∈ l then t.regs else s.regs,
    shadow := if .shadow ∈ l then t.shadow else s.shadow, suspects := if .suspects ∈ l then t.suspects else s.suspects,
    late := if .late ∈ l then t.late else s.late, ctrs := if .ctrs ∈ l then t.ctrs else s.ctrs, snap := if .snap ∈ l then t.snap else s.snap,
    snapBeat := if .snapBeat ∈ l then t.snapBeat else s.snapBeat, snapAsked := if .snapAsked ∈ l then t.snapAsked else s.snapAsked,
    rows := if .rows ∈ l then t.rows else s.rows, lpddr := if .lpddr ∈ l then t.lpddr else s.lpddr,
    checks := if .checks ∈ l then t.checks else s.checks, lpPatrol := if .lpPatrol ∈ l then t.lpPatrol else s.lpPatrol,
    window := if .window ∈ l then t.window else s.window, moves := if .moves ∈ l then t.moves else s.moves,
    ceRows := if .ceRows ∈ l then t.ceRows else s.ceRows, retiredRows := if .retiredRows ∈ l then t.retiredRows else s.retiredRows,
    copying := if .copying ∈ l then t.copying else s.copying, epoch := if .epoch ∈ l then t.epoch else s.epoch,
    walk := if .walk ∈ l then t.walk else s.walk, bringups := if .bringups ∈ l then t.bringups else s.bringups,
    seals := if .seals ∈ l then t.seals else s.seals, pinned := if .pinned ∈ l then t.pinned else s.pinned,
    goneViews := if .goneViews ∈ l then t.goneViews else s.goneViews, copyGone := if .copyGone ∈ l then t.copyGone else s.copyGone,
    tasks := if .tasks ∈ l then t.tasks else s.tasks, taskSeq := if .taskSeq ∈ l then t.taskSeq else s.taskSeq,
    groups := if .groups ∈ l then t.groups else s.groups, engs := if .engs ∈ l then t.engs else s.engs,
    cores := if .cores ∈ l then t.cores else s.cores, clus := if .clus ∈ l then t.clus else s.clus, chans := if .chans ∈ l then t.chans else s.chans,
    waits := if .waits ∈ l then t.waits else s.waits, arrivals := if .arrivals ∈ l then t.arrivals else s.arrivals,
    jobs := if .jobs ∈ l then t.jobs else s.jobs, parts := if .parts ∈ l then t.parts else s.parts, power := if .power ∈ l then t.power else s.power,
    edgeDraw := if .edgeDraw ∈ l then t.edgeDraw else s.edgeDraw, powerOver := if .powerOver ∈ l then t.powerOver else s.powerOver,
    grng := if .grng ∈ l then t.grng else s.grng, win := if .win ∈ l then t.win else s.win, tithes := if .tithes ∈ l then t.tithes else s.tithes,
    titheSeq := if .titheSeq ∈ l then t.titheSeq else s.titheSeq, packetsOut := if .packetsOut ∈ l then t.packetsOut else s.packetsOut,
    restore := if .restore ∈ l then t.restore else s.restore, ports := if .ports ∈ l then t.ports else s.ports,
    gates := if .gates ∈ l then t.gates else s.gates, loop := if .loop ∈ l then t.loop else s.loop, beat := if .beat ∈ l then t.beat else s.beat,
    mbxWaits := if .mbxWaits ∈ l then t.mbxWaits else s.mbxWaits, mods := if .mods ∈ l then t.mods else s.mods,
    lostTags := if .lostTags ∈ l then t.lostTags else s.lostTags, hostLost := if .hostLost ∈ l then t.hostLost else s.hostLost,
    bootStage := if .bootStage ∈ l then t.bootStage else s.bootStage, stageWord := if .stageWord ∈ l then t.stageWord else s.stageWord,
    evHead := if .evHead ∈ l then t.evHead else s.evHead, evTail := if .evTail ∈ l then t.evTail else s.evTail,
    evLost := if .evLost ∈ l then t.evLost else s.evLost, evOver := if .evOver ∈ l then t.evOver else s.evOver, fw := if .fw ∈ l then t.fw else s.fw,
    cplq := if .cplq ∈ l then t.cplq else s.cplq, sec := if .sec ∈ l then t.sec else s.sec, nv := if .nv ∈ l then t.nv else s.nv,
    shape := if .shape ∈ l then t.shape else s.shape, mesh := if .mesh ∈ l then t.mesh else s.mesh, bring := if .bring ∈ l then t.bring else s.bring,
    shapeNew := if .shapeNew ∈ l then t.shapeNew else s.shapeNew, coresUp := if .coresUp ∈ l then t.coresUp else s.coresUp,
    defects := if .defects ∈ l then t.defects else s.defects, fwTurn := if .fwTurn ∈ l then t.fwTurn else s.fwTurn,
    seedPack := if .seedPack ∈ l then t.seedPack else s.seedPack, seedSets := if .seedSets ∈ l then t.seedSets else s.seedSets,
    minSvn := if .minSvn ∈ l then t.minSvn else s.minSvn, calDue := if .calDue ∈ l then t.calDue else s.calDue,
    calLate := if .calLate ∈ l then t.calLate else s.calLate, passedAt := if .passedAt ∈ l then t.passedAt else s.passedAt,
    testFirst := if .testFirst ∈ l then t.testFirst else s.testFirst, window_ := if .window_ ∈ l then t.window_ else s.window_,
    board := if .board ∈ l then t.board else s.board }

/-- The second state comes of the first by changes of the listed fields alone, and if the stores were in canonical form, they are. -/
def State.changes (s : State) (M : List Field) (t : State) : Prop :=
  (∀ f, f ∉ M → Field.same s t f) ∧ (s.storesWf = true → t.storesWf = true)

variable {r s t u : State} {F M : List Field} {α β : Type}

theorem Field.same_trans {f : Field} (h : Field.same r s f) (k : Field.same s t f) : Field.same r t f := by
  cases f with
  | taskIds => exact fun id hi => k id (h id hi)
  | rx => exact fun p => (k p).trans (h p)
  | _ => exact Eq.trans k h

theorem Field.same_refl (f : Field) : Field.same s s f := by
  cases f with
  | taskIds => exact fun _ hi => hi
  | rx => exact fun _ => rfl
  | _ => rfl

theorem Field.same_mix (f : Field) (h : f ∉ M) (hi : .taskIds ∉ M → ∀ id, s.task? id = none → (s.mix t M).task? id = none)
    (hx : .rx ∉ M → ∀ p, ((s.mix t M).port p).rxPlace = (s.port p).rxPlace) : Field.same s (s.mix t M) f := by
  cases f with
  | taskIds => exact hi h
  | rx => exact hx h
  | _ => exact if_neg h

theorem State.changes.refl : s.changes M s := ⟨fun f _ => f.same_refl, id⟩

/-- A step after what came before it. -/
theorem State.changes.after (k : s.changes F t) (h : r.changes M s) (hF : Field.within F M := by decide +kernel) : r.changes M t :=
  ⟨fun f hf => Field.same_trans (h.1 f hf) (k.1 f fun hk => hf (Field.mem_of_within hF hk)), fun hw => k.2 (h.2 hw)⟩

theorem State.changes.trans (h : r.changes M s) (k : s.changes F t) (hF : Field.within F M := by decide +kernel) : r.changes M t := k.after h hF

/-- A field that is not listed holds the same. -/
theorem State.changes.same (h : s.changes M t) (f : Field) (hf : f ∉ M := by decide) : Field.same s t f := h.1 f hf

theorem State.changes.storesWf (h : s.changes M t) (hw : s.storesWf = true) : t.storesWf = true := h.2 hw

/-- An update of the listed fields. -/
theorem State.changes_of_all (h : t = s.mix t M) (hw : s.storesWf = true → t.storesWf = true)
    (hi : .taskIds ∉ M → ∀ id, s.task? id = none → t.task? id = none) (hx : .rx ∉ M → ∀ p, (t.port p).rxPlace = (s.port p).rxPlace) :
    s.changes M t :=
  ⟨fun f hf => h ▸ f.same_mix hf (fun hm => h ▸ hi hm) fun hm => h ▸ hx hm, hw⟩

/-- An update that moves no port's segment, or may. -/
theorem State.changes_of_ids (h : t = s.mix t M) (hw : s.storesWf = true → t.storesWf = true)
    (hi : .taskIds ∉ M → ∀ id, s.task? id = none → t.task? id = none)
    (hp : (decide (.ports ∉ M) || decide (.rx ∈ M)) = true := by decide +kernel) : s.changes M t := by
  refine State.changes_of_all h hw hi fun hm p => ?_
  have hp : .ports ∉ M := by simpa [hm] using hp
  have hports : t.ports = s.ports := by
    rw [h]
    exact if_neg hp
  rw [State.port, State.port, hports]

/-- An update that puts no task into the pool, or may. -/
theorem State.changes_of (h : t = s.mix t M) (hw : s.storesWf = true → t.storesWf = true)
    (ht : (decide (.tasks ∉ M) || decide (.taskIds ∈ M)) = true := by decide +kernel)
    (hp : (decide (.ports ∉ M) || decide (.rx ∈ M)) = true := by decide +kernel) : s.changes M t := by
  refine State.changes_of_ids h hw (fun hm id hid => ?_) hp
  have ht : .tasks ∉ M := by simpa [hm] using ht
  have htasks : t.tasks = s.tasks := by
    rw [h]
    exact if_neg ht
  rwa [State.task?, htasks]

theorem State.changes_ite {c : Prop} [Decidable c] (h : r.changes M s) (k : r.changes M t) : r.changes M (if c then s else t) := by
  split
  · exact h
  · exact k

theorem State.changes_ite_fst {c : Prop} [Decidable c] {p q : State × α} (h : r.changes M p.1) (k : r.changes M q.1) :
    r.changes M (if c then p else q).1 := by
  split
  · exact h
  · exact k

theorem State.changes_ite_snd {c : Prop} [Decidable c] {p q : α × State} (h : r.changes M p.2) (k : r.changes M q.2) :
    r.changes M (if c then p else q).2 := by
  split
  · exact h
  · exact k

theorem State.changes_ite_snd_snd {c : Prop} [Decidable c] {p q : α × β × State} (h : r.changes M p.2.2) (k : r.changes M q.2.2) :
    r.changes M (if c then p else q).2.2 := by
  split
  · exact h
  · exact k

theorem State.changes_have (h : s.changes M t) (k : s.changes M t → s.changes M u) : s.changes M u := k h

theorem State.changes_foldl {f : State → α → State} {l : List α} {i : State} (h : s.changes M i)
    (hf : ∀ t x, s.changes M t → s.changes M (f t x)) : s.changes M (l.foldl f i) := by
  induction l generalizing i with
  | nil => exact h
  | cons x l ih => exact ih (hf i x h)

theorem State.changes_foldl_fst {f : State × β → α → State × β} {l : List α} {i : State × β} (h : s.changes M i.1)
    (hf : ∀ t x, s.changes M t.1 → s.changes M (f t x).1) : s.changes M (l.foldl f i).1 := by
  induction l generalizing i with
  | nil => exact h
  | cons x l ih => exact ih (hf i x h)

theorem State.changes_foldl_snd {f : β × State → α → β × State} {l : List α} {i : β × State} (h : s.changes M i.2)
    (hf : ∀ t x, s.changes M t.2 → s.changes M (f t x).2) : s.changes M (l.foldl f i).2 := by
  induction l generalizing i with
  | nil => exact h
  | cons x l ih => exact ih (hf i x h)

theorem State.changes_foldl_snd_fst {γ : Type} {f : β × State × γ → α → β × State × γ} {l : List α} {i : β × State × γ} (h : s.changes M i.2.1)
    (hf : ∀ t x, s.changes M t.2.1 → s.changes M (f t x).2.1) : s.changes M (l.foldl f i).2.1 := by
  induction l generalizing i with
  | nil => exact h
  | cons x l ih => exact ih (hf i x h)

theorem State.changes_foldl_snd_snd {γ : Type} {f : β × γ × State → α → β × γ × State} {l : List α} {i : β × γ × State} (h : s.changes M i.2.2)
    (hf : ∀ t x, s.changes M t.2.2 → s.changes M (f t x).2.2) : s.changes M (l.foldl f i).2.2 := by
  induction l generalizing i with
  | nil => exact h
  | cons x l ih => exact ih (hf i x h)

/-- The state in a pair that a function answers. -/
theorem State.changes_snd {p : α × State} {a : α} (e : p = (a, t)) (h : s.changes M p.2) : s.changes M t := by
  subst e
  exact h
theorem State.changes_fst {p : State × α} {a : α} (e : p = (t, a)) (h : s.changes M p.1) : s.changes M t := by
  subst e
  exact h
theorem State.changes_snd_fst {γ : Type} {p : α × State × γ} {a : α} {c : γ} (e : p = (a, t, c)) (h : s.changes M p.2.1) : s.changes M t := by
  subst e
  exact h
theorem State.changes_snd_snd {p : α × β × State} {a : α} {b : β} (e : p = (a, b, t)) (h : s.changes M p.2.2) : s.changes M t := by
  subst e
  exact h

/-! What holds of the state that a result carries, if it carries one. -/

def Ex.all (P : α → Prop) : Ex α → Prop
  | .ok x => P x
  | .error _ => True

def Opt.all (P : α → Prop) : Option α → Prop
  | some x => P x
  | none => True

def Res.all (P : State → Prop) : Res → Prop
  | .next s => P s
  | _ => True

def Run.all (P : State → Prop) : Run → Prop
  | .done s => P s
  | .stop _ _ s => P s

def FwRes.all (P : State → Prop) : FwRes → Prop
  | .done _ s => P s
  | .wait _ s => P s
  | .silent s => P s

def GaStep.all (P : State → Prop) : GaStep → Prop
  | .row s => P s
  | .miss s _ => P s
  | .fault s _ => P s

def Check.all (P : State → Prop) : Check → Prop
  | .halt _ s => P s
  | _ => True

def Landed.all (P : State → Prop) : Landed → Prop
  | .done _ s => P s
  | .part _ s => P s
  | .sent _ s => P s
  | .wait s => P s
  | .halt _ s => P s

def Issue.all (P : State → Prop) : Issue → Prop
  | .go _ s => P s
  | .halt _ s => P s
  | .hold => True

def Served.all (P : State → Prop) : Served → Prop
  | .done s => P s
  | _ => True

section
variable {P Q : α → Prop}
theorem Ex.all_ok {x : α} (h : P x) : Ex.all P (.ok x) := h
theorem Ex.all_error {x} : Ex.all P (.error x) := trivial
theorem Ex.all.imp {r : Ex α} (h : Ex.all P r) (k : ∀ x, P x → Q x) : Ex.all Q r := by
  cases r with
  | ok _ => exact k _ h
  | error _ => exact trivial
theorem Ex.all.at {r q : Ex α} (h : Ex.all P r) (e : r = q) : Ex.all P q := e ▸ h
theorem Ex.all_ite {c : Prop} [Decidable c] {a b : Ex α} (h : Ex.all P a) (k : Ex.all P b) : Ex.all P (if c then a else b) := by
  split
  · exact h
  · exact k
theorem Ex.all_of {r q : Ex α} (e : r = q) (h : Ex.all P r) : Ex.all P q := e ▸ h
end

section
variable {P Q : α → Prop}
theorem Opt.all_some {x : α} (h : P x) : Opt.all P (.some x) := h
theorem Opt.all_none : Opt.all P (.none) := trivial
theorem Opt.all.imp {r : Option α} (h : Opt.all P r) (k : ∀ x, P x → Q x) : Opt.all Q r := by
  cases r with
  | some _ => exact k _ h
  | none => exact trivial
theorem Opt.all.at {r q : Option α} (h : Opt.all P r) (e : r = q) : Opt.all P q := e ▸ h
theorem Opt.all_ite {c : Prop} [Decidable c] {a b : Option α} (h : Opt.all P a) (k : Opt.all P b) : Opt.all P (if c then a else b) := by
  split
  · exact h
  · exact k
theorem Opt.all_of {r q : Option α} (e : r = q) (h : Opt.all P r) : Opt.all P q := e ▸ h
end

section
variable {P Q : State → Prop}
theorem Res.all_next {s : State} (h : P s) : Res.all P (.next s) := h
theorem Res.all_fault {f} : Res.all P (.fault f) := trivial
theorem Res.all_refused {f} : Res.all P (.refused f) := trivial
theorem Res.all.imp {r : Res} (h : Res.all P r) (k : ∀ x, P x → Q x) : Res.all Q r := by
  cases r with
  | next _ => exact k _ h
  | fault _ => exact trivial
  | refused _ => exact trivial
theorem Res.all.at {r q : Res} (h : Res.all P r) (e : r = q) : Res.all P q := e ▸ h
theorem Res.all_ite {c : Prop} [Decidable c] {a b : Res} (h : Res.all P a) (k : Res.all P b) : Res.all P (if c then a else b) := by
  split
  · exact h
  · exact k
theorem Res.all_of {r q : Res} (e : r = q) (h : Res.all P r) : Res.all P q := e ▸ h
end

section
variable {P Q : State → Prop}
theorem Run.all_done {s : State} (h : P s) : Run.all P (.done s) := h
theorem Run.all_stop {s : State} {x p} (h : P s) : Run.all P (.stop x p s) := h
theorem Run.all.imp {r : Run} (h : Run.all P r) (k : ∀ x, P x → Q x) : Run.all Q r := by
  cases r with
  | done _ => exact k _ h
  | stop _ _ _ => exact k _ h
theorem Run.all.at {r q : Run} (h : Run.all P r) (e : r = q) : Run.all P q := e ▸ h
theorem Run.all_ite {c : Prop} [Decidable c] {a b : Run} (h : Run.all P a) (k : Run.all P b) : Run.all P (if c then a else b) := by
  split
  · exact h
  · exact k
theorem Run.all_of {r q : Run} (e : r = q) (h : Run.all P r) : Run.all P q := e ▸ h
end

section
variable {P Q : State → Prop}
theorem FwRes.all_done {s : State} {e} (h : P s) : FwRes.all P (.done e s) := h
theorem FwRes.all_wait {s : State} {w} (h : P s) : FwRes.all P (.wait w s) := h
theorem FwRes.all_silent {s : State} (h : P s) : FwRes.all P (.silent s) := h
theorem FwRes.all.imp {r : FwRes} (h : FwRes.all P r) (k : ∀ x, P x → Q x) : FwRes.all Q r := by
  cases r with
  | done _ _ => exact k _ h
  | wait _ _ => exact k _ h
  | silent _ => exact k _ h
theorem FwRes.all.at {r q : FwRes} (h : FwRes.all P r) (e : r = q) : FwRes.all P q := e ▸ h
theorem FwRes.all_ite {c : Prop} [Decidable c] {a b : FwRes} (h : FwRes.all P a) (k : FwRes.all P b) : FwRes.all P (if c then a else b) := by
  split
  · exact h
  · exact k
theorem FwRes.all_of {r q : FwRes} (e : r = q) (h : FwRes.all P r) : FwRes.all P q := e ▸ h
end

section
variable {P Q : State → Prop}
theorem GaStep.all_row {s : State} (h : P s) : GaStep.all P (.row s) := h
theorem GaStep.all_miss {s : State} {k} (h : P s) : GaStep.all P (.miss s k) := h
theorem GaStep.all_fault {s : State} {a} (h : P s) : GaStep.all P (.fault s a) := h
theorem GaStep.all.imp {r : GaStep} (h : GaStep.all P r) (k : ∀ x, P x → Q x) : GaStep.all Q r := by
  cases r with
  | row _ => exact k _ h
  | miss _ _ => exact k _ h
  | fault _ _ => exact k _ h
theorem GaStep.all.at {r q : GaStep} (h : GaStep.all P r) (e : r = q) : GaStep.all P q := e ▸ h
theorem GaStep.all_ite {c : Prop} [Decidable c] {a b : GaStep} (h : GaStep.all P a) (k : GaStep.all P b) : GaStep.all P (if c then a else b) := by
  split
  · exact h
  · exact k
theorem GaStep.all_of {r q : GaStep} (e : r = q) (h : GaStep.all P r) : GaStep.all P q := e ▸ h
end

section
variable {P Q : State → Prop}
theorem Check.all_ok {p} : Check.all P (.ok p) := trivial
theorem Check.all_hold : Check.all P (.hold) := trivial
theorem Check.all_halt {s : State} {k} (h : P s) : Check.all P (.halt k s) := h
theorem Check.all.imp {r : Check} (h : Check.all P r) (k : ∀ x, P x → Q x) : Check.all Q r := by
  cases r with
  | ok _ => exact trivial
  | hold => exact trivial
  | halt _ _ => exact k _ h
theorem Check.all.at {r q : Check} (h : Check.all P r) (e : r = q) : Check.all P q := e ▸ h
theorem Check.all_ite {c : Prop} [Decidable c] {a b : Check} (h : Check.all P a) (k : Check.all P b) : Check.all P (if c then a else b) := by
  split
  · exact h
  · exact k
theorem Check.all_of {r q : Check} (e : r = q) (h : Check.all P r) : Check.all P q := e ▸ h
end

section
variable {P Q : State → Prop}
theorem Landed.all_done {s : State} {x} (h : P s) : Landed.all P (.done x s) := h
theorem Landed.all_part {s : State} {x} (h : P s) : Landed.all P (.part x s) := h
theorem Landed.all_sent {s : State} {x} (h : P s) : Landed.all P (.sent x s) := h
theorem Landed.all_wait {s : State} (h : P s) : Landed.all P (.wait s) := h
theorem Landed.all_halt {s : State} {k} (h : P s) : Landed.all P (.halt k s) := h
theorem Landed.all.imp {r : Landed} (h : Landed.all P r) (k : ∀ x, P x → Q x) : Landed.all Q r := by
  cases r with
  | done _ _ => exact k _ h
  | part _ _ => exact k _ h
  | sent _ _ => exact k _ h
  | wait _ => exact k _ h
  | halt _ _ => exact k _ h
theorem Landed.all.at {r q : Landed} (h : Landed.all P r) (e : r = q) : Landed.all P q := e ▸ h
theorem Landed.all_ite {c : Prop} [Decidable c] {a b : Landed} (h : Landed.all P a) (k : Landed.all P b) : Landed.all P (if c then a else b) := by
  split
  · exact h
  · exact k
theorem Landed.all_of {r q : Landed} (e : r = q) (h : Landed.all P r) : Landed.all P q := e ▸ h
end

section
variable {P Q : State → Prop}
theorem Issue.all_go {s : State} {m} (h : P s) : Issue.all P (.go m s) := h
theorem Issue.all_halt {s : State} {k} (h : P s) : Issue.all P (.halt k s) := h
theorem Issue.all_hold : Issue.all P (.hold) := trivial
theorem Issue.all.imp {r : Issue} (h : Issue.all P r) (k : ∀ x, P x → Q x) : Issue.all Q r := by
  cases r with
  | go _ _ => exact k _ h
  | halt _ _ => exact k _ h
  | hold => exact trivial
theorem Issue.all.at {r q : Issue} (h : Issue.all P r) (e : r = q) : Issue.all P q := e ▸ h
theorem Issue.all_ite {c : Prop} [Decidable c] {a b : Issue} (h : Issue.all P a) (k : Issue.all P b) : Issue.all P (if c then a else b) := by
  split
  · exact h
  · exact k
theorem Issue.all_of {r q : Issue} (e : r = q) (h : Issue.all P r) : Issue.all P q := e ▸ h
end

section
variable {P Q : State → Prop}
theorem Served.all_done {s : State} (h : P s) : Served.all P (.done s) := h
theorem Served.all_park {r} : Served.all P (.park r) := trivial
theorem Served.all_held : Served.all P (.held) := trivial
theorem Served.all.imp {r : Served} (h : Served.all P r) (k : ∀ x, P x → Q x) : Served.all Q r := by
  cases r with
  | done _ => exact k _ h
  | park _ => exact trivial
  | held => exact trivial
theorem Served.all.at {r q : Served} (h : Served.all P r) (e : r = q) : Served.all P q := e ▸ h
theorem Served.all_ite {c : Prop} [Decidable c] {a b : Served} (h : Served.all P a) (k : Served.all P b) : Served.all P (if c then a else b) := by
  split
  · exact h
  · exact k
theorem Served.all_of {r q : Served} (e : r = q) (h : Served.all P r) : Served.all P q := e ▸ h
end

theorem State.changes_getD {x : Option State} {d : State} (h : Opt.all (s.changes M) x) (k : s.changes M d) : s.changes M (x.getD d) := by
  cases x with
  | some _ => exact h
  | none => exact k

/-- What holds of the state that a step reaches. -/
theorem Res.all.next {P : State → Prop} {r : Res} (h : Res.all P r) (e : r = .next t) : P t := (h.at e : Res.all P (.next t))

theorem Ex.all_bind {P : β → Prop} {x : Ex α} {f : α → Ex β} (h : ∀ u, x = .ok u → Ex.all P (f u)) : Ex.all P (x >>= f) := by
  cases x with
  | ok u => exact h u rfl
  | error _ => trivial

theorem Ex.all_map {P : β → Prop} {x : Ex α} {f : α → β} (h : ∀ u, x = .ok u → P (f u)) : Ex.all P (x.map f) := by
  cases x with
  | ok u => exact h u rfl
  | error _ => trivial

theorem Opt.all_bind {P : β → Prop} {x : Option α} {f : α → Option β} (h : ∀ u, x = some u → Opt.all P (f u)) : Opt.all P (x >>= f) := by
  cases x with
  | some u => exact h u rfl
  | none => trivial

theorem Opt.all_map {P : β → Prop} {x : Option α} {f : α → β} (h : ∀ u, x = some u → P (f u)) : Opt.all P (x.map f) := by
  cases x with
  | some u => exact h u rfl
  | none => trivial

theorem Ex.all_badCommand {P : α → Prop} : Ex.all P badCommand := trivial

theorem State.all_badFmt {P : α → Prop} (s : State) (t : Task) (rs : List RowRef) : Ex.all P (s.badFmt t rs) :=
  Ex.all_bind fun _ _ => trivial

theorem Res.all_need {P : State → Prop} {c : Bool} {r : Res} (h : P s) (k : Res.all P r) : Res.all P (need c s r) := by
  cases c with
  | true => exact k
  | false => exact h

theorem Res.all_unitOk {P : State → Prop} {c : Bool} {r : Res} (k : Res.all P r) : Res.all P (unitOk c r) := by
  cases c with
  | true => exact k
  | false => trivial

theorem Run.all_whole {P : State → Prop} {x : Ex State} (h : P s) (k : Ex.all P x) : Run.all P (.whole s x) := by
  cases x with
  | ok _ => exact k
  | error _ => exact h

theorem Run.all_owned {P : State → Prop} {x : Ex State} {f : State → Ex State} (h : P s) (k : Ex.all P x)
    (hf : ∀ t, P t → Ex.all P (f t)) : Run.all P (.owned s x f) := by
  cases x with
  | ok t => exact Run.all_whole k (hf t k)
  | error _ => exact h

theorem Run.all_checked {P : State → Prop} {q : Cmd} {c : Ex Unit} {run : Run} (h : P s) (k : Run.all P run) : Run.all P (.checked s q c run) := by
  cases c with
  | ok _ => exact k
  | error _ => exact h

theorem Run.all_rows {P : State → Prop} {f : State → Progress → Ex (State × Progress)} {fin : State → Progress → State} {n : Nat} {p : Progress}
    (h : P s) (hf : ∀ t p, P t → Ex.all (fun r => P r.1) (f t p)) (hfin : ∀ t p, P t → P (fin t p)) : Run.all P (.rows f fin n p s) := by
  induction n generalizing s p with
  | zero => exact hfin s p h
  | succ n ih =>
    unfold Run.rows
    split
    · rename_i he
      exact ih ((hf s p h).at he)
    · exact h

/-! The stores. -/

theorem SMap.above_filter {m : SMap α} {x : Nat} (f : Nat × α → Bool) (h : SMap.above x m = true) : SMap.above x (m.filter f) = true := by
  induction m with
  | nil => rfl
  | cons p m ih =>
    obtain ⟨k, v⟩ := p
    simp only [SMap.above, Bool.and_eq_true] at h
    simp only [List.filter]
    split
    · simp [SMap.above, h.1, ih h.2]
    · exact ih h.2

/-- A store with entries taken out is canonical. -/
theorem SMap.wf_filter [DecidableEq α] {d : Nat → α} {m : SMap α} (f : Nat × α → Bool) (h : SMap.wf d m = true) :
    SMap.wf d (m.filter f) = true := by
  induction m with
  | nil => rfl
  | cons p m ih =>
    obtain ⟨k, v⟩ := p
    simp only [SMap.wf, Bool.and_eq_true] at h
    simp only [List.filter]
    split
    · simp only [SMap.wf, Bool.and_eq_true]
      exact ⟨⟨SMap.above_filter f h.1.1, h.1.2⟩, ih h.2⟩
    · exact ih h.2

theorem SMap.wf_moveCore {m : SMap Word} (c : Nat) (h : SMap.wf resetAt m = true) : SMap.wf resetAt (moveCore c m) = true := by
  unfold moveCore
  extract_lets fb at_ rest
  have hr : SMap.wf resetAt rest = true := SMap.wf_filter _ h
  generalize m.filter _ = l
  revert hr
  generalize rest = q
  intro hq
  induction l generalizing q with
  | nil => exact hq
  | cons p l ih => exact ih _ (SMap.wf_put _ _ hq)

/-- An operation keeps the stores canonical if it keeps each of those that it writes. -/
theorem State.storesWf_step (rows : SMap.wf rowInit s.rows = true → SMap.wf rowInit t.rows = true := by exact fun h => h)
    (lpddr : SMap.wf lpInit s.lpddr = true → SMap.wf lpInit t.lpddr = true := by exact fun h => h)
    (window : SMap.wf zeroByte s.window = true → SMap.wf zeroByte t.window = true := by exact fun h => h)
    (regs : SMap.wf resetAt s.regs = true → SMap.wf resetAt t.regs = true := by exact fun h => h)
    (shadow : SMap.wf resetAt s.shadow = true → SMap.wf resetAt t.shadow = true := by exact fun h => h)
    (ctrs : SMap.wf zeroNat s.ctrs = true → SMap.wf zeroNat t.ctrs = true := by exact fun h => h) (h : s.storesWf = true) : t.storesWf = true := by
  rw [State.storesWf_iff] at h ⊢
  obtain ⟨h1, h2, h3, h4, h5, h6⟩ := h
  exact ⟨rows h1, lpddr h2, window h3, regs h4, shadow h5, ctrs h6⟩

theorem State.changes.put_rows {x} (h : SMap.wf rowInit s.rows = true → SMap.wf rowInit x = true) : s.changes [.rows] { s with rows := x } :=
  State.changes_of rfl (State.storesWf_step (rows := h))
theorem State.changes.put_lpddr {x} (h : SMap.wf lpInit s.lpddr = true → SMap.wf lpInit x = true) : s.changes [.lpddr] { s with lpddr := x } :=
  State.changes_of rfl (State.storesWf_step (lpddr := h))
theorem State.changes.put_window {x} (h : SMap.wf zeroByte s.window = true → SMap.wf zeroByte x = true) :
    s.changes [.window] { s with window := x } :=
  State.changes_of rfl (State.storesWf_step (window := h))
theorem State.changes.put_regs {x} (h : SMap.wf resetAt s.regs = true → SMap.wf resetAt x = true) : s.changes [.regs] { s with regs := x } :=
  State.changes_of rfl (State.storesWf_step (regs := h))
theorem State.changes.put_shadow {x} (h : SMap.wf resetAt s.shadow = true → SMap.wf resetAt x = true) :
    s.changes [.shadow] { s with shadow := x } :=
  State.changes_of rfl (State.storesWf_step (shadow := h))
theorem State.changes.put_ctrs {x} (h : SMap.wf zeroNat s.ctrs = true → SMap.wf zeroNat x = true) : s.changes [.ctrs] { s with ctrs := x } :=
  State.changes_of rfl (State.storesWf_step (ctrs := h))

/-! Updates of fields that are no stores. -/


theorem State.changes_set_free (x) : s.changes [.free] { s with free := x } := State.changes_of rfl id

theorem State.changes_set_outbox (x) : s.changes [.outbox] { s with outbox := x } := State.changes_of rfl id

theorem State.changes_set_stageWord_evHead_evTail_evLost (x y z u) : s.changes [.stageWord, .evHead, .evTail, .evLost]
    { s with stageWord := x, evHead := y, evTail := z, evLost := u } := State.changes_of rfl id

theorem State.changes_set_engs (x) : s.changes [.engs] { s with engs := x } := State.changes_of rfl id

theorem State.changes_set_cores (x) : s.changes [.cores] { s with cores := x } := State.changes_of rfl id

theorem State.changes_set_clus (x) : s.changes [.clus] { s with clus := x } := State.changes_of rfl id

theorem State.changes_set_chans (x) : s.changes [.chans] { s with chans := x } := State.changes_of rfl id

theorem State.changes_set_jobs (x) : s.changes [.jobs] { s with jobs := x } := State.changes_of rfl id

theorem State.changes_set_parts (x) : s.changes [.parts] { s with parts := x } := State.changes_of rfl id

theorem State.changes_set_ports (x) : s.changes [.ports, .rx] { s with ports := x } := State.changes_of rfl id

theorem State.changes_set_gates (x) : s.changes [.gates] { s with gates := x } := State.changes_of rfl id

theorem State.changes_set_power (x) : s.changes [.power] { s with power := x } := State.changes_of rfl id

theorem State.task?_eq_none {id : Nat} : s.task? id = none ↔ ∀ x ∈ s.tasks, x.id ≠ id := by
  simp [State.task?]
theorem State.changes_set_tasks (x) (hx : ∀ y ∈ x, ∃ z ∈ s.tasks, z.id = y.id) : s.changes [.tasks] { s with tasks := x } :=
  State.changes_of_ids rfl id fun _ id hid => State.task?_eq_none.2 fun y hy => by
    obtain ⟨z, hz, e⟩ := hx y hy
    exact e ▸ State.task?_eq_none.1 hid z hz
/-- Tasks that change, but for their number. -/
theorem State.changes_map_tasks (f : Task → Task) (hf : ∀ x, (f x).id = x.id) : s.changes [.tasks] { s with tasks := s.tasks.map f } :=
  State.changes_set_tasks _ fun y hy => by
    obtain ⟨z, hz, rfl⟩ := List.mem_map.1 hy
    exact ⟨z, hz, (hf z).symm⟩
theorem State.changes_filter_tasks (f : Task → Bool) : s.changes [.tasks] { s with tasks := s.tasks.filter f } :=
  State.changes_set_tasks _ fun y hy => ⟨y, List.mem_of_mem_filter hy, rfl⟩

theorem State.changes_set_mbxWaits (x) : s.changes [.mbxWaits] { s with mbxWaits := x } := State.changes_of rfl id

theorem State.changes_set_cplq (x) : s.changes [.cplq] { s with cplq := x } := State.changes_of rfl id

theorem State.changes_set_evHead (x) : s.changes [.evHead] { s with evHead := x } := State.changes_of rfl id

theorem State.changes_set_evLost_evOver (x y) : s.changes [.evLost, .evOver] { s with evLost := x, evOver := y } := State.changes_of rfl id

theorem State.changes_set_evOver (x) : s.changes [.evOver] { s with evOver := x } := State.changes_of rfl id

theorem State.changes_set_suspects (x) : s.changes [.suspects] { s with suspects := x } := State.changes_of rfl id

theorem State.changes_set_nv_shape (x y) : s.changes [.nv, .shape] { s with nv := x, shape := y } := State.changes_of rfl id

theorem State.changes_set_shape (x) : s.changes [.shape] { s with shape := x } := State.changes_of rfl id

theorem State.changes_set_nv (x) : s.changes [.nv] { s with nv := x } := State.changes_of rfl id

theorem State.changes_set_waits (x) : s.changes [.waits] { s with waits := x } := State.changes_of rfl id

theorem State.changes_filter_tasks_groups (f : Task → Bool) (y) :
    s.changes [.tasks, .groups] { s with tasks := s.tasks.filter f, groups := y } :=
  State.changes_of_ids rfl id fun _ => (State.changes_filter_tasks f).1 .taskIds (by decide)

theorem State.changes_set_checks (x) : s.changes [.checks] { s with checks := x } := State.changes_of rfl id

theorem State.changes_set_copying (x) : s.changes [.copying] { s with copying := x } := State.changes_of rfl id

theorem State.changes_set_ceRows (x) : s.changes [.ceRows] { s with ceRows := x } := State.changes_of rfl id

theorem State.changes_set_arrivals (x) : s.changes [.arrivals] { s with arrivals := x } := State.changes_of rfl id

theorem State.changes_set_groups (x) : s.changes [.groups] { s with groups := x } := State.changes_of rfl id

theorem State.changes_set_tasks_taskSeq (x y) : s.changes [.tasks, .taskSeq, .taskIds] { s with tasks := x, taskSeq := y } := State.changes_of rfl id

theorem State.changes_set_taskSeq_groups (x y) : s.changes [.taskSeq, .groups] { s with taskSeq := x, groups := y } := State.changes_of rfl id

theorem State.changes_set_testFirst (x) : s.changes [.testFirst] { s with testFirst := x } := State.changes_of rfl id

theorem State.changes_set_grng (x) : s.changes [.grng] { s with grng := x } := State.changes_of rfl id

theorem State.changes_set_loop (x) : s.changes [.loop] { s with loop := x } := State.changes_of rfl id

theorem State.changes_set_epoch (x) : s.changes [.epoch] { s with epoch := x } := State.changes_of rfl id

theorem State.changes_set_bringups (x) : s.changes [.bringups] { s with bringups := x } := State.changes_of rfl id

theorem State.changes_set_bringups_waits (x y) : s.changes [.bringups, .waits] { s with bringups := x, waits := y } := State.changes_of rfl id

theorem State.changes_set_lpPatrol (x) : s.changes [.lpPatrol] { s with lpPatrol := x } := State.changes_of rfl id

theorem State.changes_set_walk (x) : s.changes [.walk] { s with walk := x } := State.changes_of rfl id

theorem State.changes_set_tithes (x) : s.changes [.tithes] { s with tithes := x } := State.changes_of rfl id

theorem State.changes_set_restore (x) : s.changes [.restore] { s with restore := x } := State.changes_of rfl id

theorem State.changes_set_packetsOut (x) : s.changes [.packetsOut] { s with packetsOut := x } := State.changes_of rfl id

theorem State.changes_set_late (x) : s.changes [.late] { s with late := x } := State.changes_of rfl id

theorem State.changes_set_beat (x) : s.changes [.beat] { s with beat := x } := State.changes_of rfl id

theorem State.changes_set_goneViews (x) : s.changes [.goneViews] { s with goneViews := x } := State.changes_of rfl id

theorem State.changes_set_pinned (x) : s.changes [.pinned] { s with pinned := x } := State.changes_of rfl id

theorem State.changes_set_free_mesh (x y) : s.changes [.free, .mesh] { s with free := x, mesh := y } := State.changes_of rfl id

theorem State.changes_set_fwTurn (x) : s.changes [.fwTurn] { s with fwTurn := x } := State.changes_of rfl id

theorem State.changes_set_fw (x) : s.changes [.fw] { s with fw := x } := State.changes_of rfl id

theorem State.changes_set_sec (x) : s.changes [.sec] { s with sec := x } := State.changes_of rfl id

theorem State.changes_set_sec_minSvn (x y) : s.changes [.sec, .minSvn] { s with sec := x, minSvn := y } := State.changes_of rfl id

theorem State.changes_set_calLate (x) : s.changes [.calLate] { s with calLate := x } := State.changes_of rfl id

theorem State.changes_set_calDue (x) : s.changes [.calDue] { s with calDue := x } := State.changes_of rfl id

theorem State.changes_set_walk_clus_gates (x y z) : s.changes [.walk, .clus, .gates] { s with walk := x, clus := y, gates := z } :=
    State.changes_of rfl id

theorem State.changes_set_moves (x) : s.changes [.moves] { s with moves := x } := State.changes_of rfl id

theorem State.changes_set_win (x) : s.changes [.win] { s with win := x } := State.changes_of rfl id

theorem State.changes_set_seals_tithes_packetsOut_restore (x y z u) : s.changes [.seals, .tithes, .packetsOut, .restore]
    { s with seals := x, tithes := y, packetsOut := z, restore := u } := State.changes_of rfl id

theorem State.changes_set_bootStage_stageWord (x y) : s.changes [.bootStage, .stageWord] { s with bootStage := x, stageWord := y } :=
    State.changes_of rfl id

theorem State.changes_set_board (x) : s.changes [.board] { s with board := x } := State.changes_of rfl id

theorem State.changes_set_seedPack_seedSets (x y) : s.changes [.seedPack, .seedSets] { s with seedPack := x, seedSets := y } :=
    State.changes_of rfl id

theorem State.changes_set_snapAsked (x) : s.changes [.snapAsked] { s with snapAsked := x } := State.changes_of rfl id

theorem State.changes_set_window_ (x) : s.changes [.window_] { s with window_ := x } := State.changes_of rfl id

theorem State.changes_set_bring (x) : s.changes [.bring] { s with bring := x } := State.changes_of rfl id

theorem State.changes_set_mesh (x) : s.changes [.mesh] { s with mesh := x } := State.changes_of rfl id

theorem State.changes_set_coresUp (x) : s.changes [.coresUp] { s with coresUp := x } := State.changes_of rfl id

theorem State.changes_set_shapeNew (x) : s.changes [.shapeNew] { s with shapeNew := x } := State.changes_of rfl id

theorem State.changes_set_seals (x) : s.changes [.seals] { s with seals := x } := State.changes_of rfl id

theorem State.changes_set_tithes_titheSeq (x y) : s.changes [.tithes, .titheSeq] { s with tithes := x, titheSeq := y } := State.changes_of rfl id

theorem State.changes_set_win_restore (x y) : s.changes [.win, .restore] { s with win := x, restore := y } := State.changes_of rfl id

theorem State.changes_set_retiredRows_copying (x y) : s.changes [.retiredRows, .copying] { s with retiredRows := x, copying := y } :=
    State.changes_of rfl id

theorem State.changes_set_mods (x) : s.changes [.mods] { s with mods := x } := State.changes_of rfl id

theorem State.changes_set_mbxWaits_lostTags (x y) : s.changes [.mbxWaits, .lostTags] { s with mbxWaits := x, lostTags := y } :=
    State.changes_of rfl id

theorem State.changes_set_hostLost (x) : s.changes [.hostLost] { s with hostLost := x } := State.changes_of rfl id

theorem State.changes_set_lostTags (x) : s.changes [.lostTags] { s with lostTags := x } := State.changes_of rfl id

theorem State.changes_set_evTail (x) : s.changes [.evTail] { s with evTail := x } := State.changes_of rfl id

theorem State.changes_set_passedAt (x) : s.changes [.passedAt] { s with passedAt := x } := State.changes_of rfl id

theorem State.changes_set_snap_snapBeat_snapAsked (x y z) : s.changes [.snap, .snapBeat, .snapAsked]
    { s with snap := x, snapBeat := y, snapAsked := z } := State.changes_of rfl id

theorem State.changes_set_edgeDraw_powerOver (x y) : s.changes [.edgeDraw, .powerOver] { s with edgeDraw := x, powerOver := y } :=
    State.changes_of rfl id

theorem State.changes_set_cores_grng (x y) : s.changes [.cores, .grng] { s with cores := x, grng := y } := State.changes_of rfl id

theorem State.changes_set_pending (x) : s.changes [.pending] { s with pending := x } := State.changes_of rfl id

/-! What each operation writes, in the order of the model's files. -/

/-! Ops. -/

theorem State.changes_wr (r w) : s.changes [.regs] (s.wr r w) := .put_regs fun h => SMap.wf_put _ _ h

theorem State.changes_setFld (r f v) : s.changes [.regs] (s.setFld r f v) := by
  unfold State.setFld
  exact (State.changes_wr ..).after .refl

theorem State.changes_setBitOf (r i b) : s.changes [.regs] (s.setBitOf r i b) := by
  unfold State.setBitOf
  exact (State.changes_wr ..).after .refl

theorem State.changes_wrS (r w) : s.changes [.shadow] (s.wrS r w) := .put_shadow fun h => SMap.wf_put _ _ h

theorem State.changes_freshWord : s.changes [.free] s.freshWord.2 := by
  unfold State.freshWord
  exact (State.changes_set_free ..).after .refl

theorem State.changes_emit (e) : s.changes [.outbox] (s.emit e) := by
  unfold State.emit
  exact (State.changes_set_outbox ..).after .refl

theorem State.changes_setCtr (c u b v) : s.changes [.ctrs] (s.setCtr c u b v) := .put_ctrs fun h => SMap.wf_put _ _ h

theorem State.changes_count (c unit n sub) : s.changes [.ctrs] (s.count c unit n sub) := by
  unfold State.count
  exact (State.changes_setCtr ..).after .refl

theorem State.changes_countCore (c core n) : s.changes [.ctrs] (s.countCore c core n) := by
  unfold State.countCore
  exact (State.changes_count ..).after .refl

theorem State.changes_countEng (c eng n) : s.changes [.ctrs] (s.countEng c eng n) := by
  unfold State.countEng
  exact (State.changes_count ..).after .refl

theorem State.changes_countJob (c p j n) : s.changes [.ctrs] (s.countJob c p j n) := by
  unfold State.countJob
  exact (State.changes_count ..).after .refl

theorem State.changes_winWrite (a n v) : s.changes [.window] (s.winWrite a n v) := .put_window fun h => winWriteBytes_wf h a _

theorem State.changes_winPutRow (a d) : s.changes [.window, .stageWord, .evHead, .evTail, .evLost] (s.winPutRow a d) := by
  unfold State.winPutRow
  exact State.changes_ite ((State.changes_winWrite ..).after ((State.changes_set_stageWord_evHead_evTail_evLost ..).after .refl))
      ((State.changes_winWrite ..).after .refl)

theorem State.changes_setRow (r x) : s.changes [.rows] (s.setRow r x) := .put_rows fun h => SMap.wf_put _ _ h

theorem State.changes_setLp (k x) : s.changes [.lpddr] (s.setLp k x) := .put_lpddr fun h => SMap.wf_put _ _ h

theorem State.changes_setEng (e x) : s.changes [.engs] (s.setEng e x) := by
  unfold State.setEng
  exact (State.changes_set_engs ..).after .refl

theorem State.changes_setCore (c x) : s.changes [.cores] (s.setCore c x) := by
  unfold State.setCore
  exact (State.changes_set_cores ..).after .refl

theorem State.changes_setCl (k x) : s.changes [.clus] (s.setCl k x) := by
  unfold State.setCl
  exact (State.changes_set_clus ..).after .refl

theorem State.changes_setChan (cl ch x) : s.changes [.chans] (s.setChan cl ch x) := by
  unfold State.setChan
  exact (State.changes_set_chans ..).after .refl

theorem State.changes_setJob (p j x) : s.changes [.jobs] (s.setJob p j x) := by
  unfold State.setJob
  exact (State.changes_set_jobs ..).after .refl

theorem State.changes_setPart (p x) : s.changes [.parts] (s.setPart p x) := by
  unfold State.setPart
  exact (State.changes_set_parts ..).after .refl

theorem State.changes_setPort (p x) : s.changes [.ports, .rx] (s.setPort p x) := by
  unfold State.setPort
  exact (State.changes_set_ports ..).after .refl

/-- A port is set and its segment stands. -/
theorem State.changes_setPort_rx {p x} (h : x.rxPlace = (s.port p).rxPlace) : s.changes [.ports] (s.setPort p x) := by
  refine State.changes_of_all rfl id (fun _ _ hid => hid) fun _ q => ?_
  by_cases hq : p = q
  · rw [← hq, State.port_setPort_same, h]
  · rw [State.port_setPort_ne s x hq]

theorem State.changes_setGate (g x) : s.changes [.gates] (s.setGate g x) := by
  unfold State.setGate
  exact (State.changes_set_gates ..).after .refl

theorem State.changes_setDie (d x) : s.changes [.power] (s.setDie d x) := by
  unfold State.setDie
  exact (State.changes_set_power ..).after .refl

theorem State.changes_setTask (t) : s.changes [.tasks] (s.setTask t) := by
  unfold State.setTask
  refine (State.changes_map_tasks _ fun x => ?_).after .refl
  split
  · next h => exact h.symm
  · rfl

theorem State.changes_modTask (id f) (hf : ∀ x, x.id = id → (f x).id = x.id := by exact fun _ _ => rfl) : s.changes [.tasks] (s.modTask id f) := by
  unfold State.modTask
  refine (State.changes_map_tasks _ fun x => ?_).after .refl
  split
  · next h => exact hf x h
  · rfl

theorem State.changes_dropTask (id) : s.changes [.tasks] (s.dropTask id) := by
  unfold State.dropTask
  exact (State.changes_filter_tasks ..).after .refl

theorem State.changes_mbxTimeout (b n sender reason) : s.changes [.regs, .ctrs] (s.mbxTimeout b n sender reason) := by
  unfold State.mbxTimeout
  extract_lets s1
  refine State.changes_have (t := s1) ?_ fun hs1 => ?_
  · unfold s1
    split
    · exact (State.changes_count ..).after .refl
    · exact .refl
  exact State.changes_ite hs1 ((State.changes_wr ..).after hs1)

theorem State.changes_answer (host sender status reason) : s.changes [.outbox] (s.answer host sender status reason) := by
  unfold State.answer
  split <;> exact (State.changes_emit ..).after .refl

theorem State.changes_mbxLand (b n sender w) : s.changes [.outbox, .regs] (s.mbxLand b n sender w) := by
  unfold State.mbxLand
  extract_lets s1 s2 s3
  refine State.changes_have (t := s2) ((State.changes_setFld ..).after ((State.changes_wr ..).after .refl)) fun hs2 => ?_
  refine State.changes_ite ?_ ((State.changes_setBitOf ..).after hs2)
  split
  · exact State.changes_ite ((State.changes_emit ..).after ((State.changes_setBitOf ..).after hs2)) ((State.changes_emit ..).after
        ((State.changes_setBitOf ..).after hs2))
  · exact (State.changes_emit ..).after ((State.changes_setBitOf ..).after hs2)

theorem State.changes_mbxWrite (b n sender w host) : s.changes [.outbox, .regs, .ctrs, .mbxWaits] (s.mbxWrite b n sender w host).1 := by
  unfold State.mbxWrite
  refine State.changes_ite_fst ((State.changes_answer ..).after ((State.changes_mbxTimeout ..).after .refl)) ?_
  refine State.changes_ite_fst ((State.changes_answer ..).after ((State.changes_mbxLand ..).after .refl)) ?_
  refine State.changes_ite_fst ((State.changes_answer ..).after ((State.changes_mbxTimeout ..).after .refl)) ?_
  exact (State.changes_set_mbxWaits ..).after ((State.changes_setBitOf ..).after .refl)

theorem State.changes_takeWait (b n) : s.changes [.regs, .mbxWaits] (s.takeWait b n).2 := by
  unfold State.takeWait
  exact (State.changes_set_mbxWaits ..).after ((State.changes_setBitOf ..).after .refl)

theorem State.changes_dropLocks (p) : s.changes [.regs] (s.dropLocks p) := by
  unfold State.dropLocks
  refine State.changes_foldl .refl fun _ _ ht => ?_
  split
  · exact State.changes_ite ((State.changes_wr ..).after ht) ht
  · exact ht

theorem State.changes_mbxReset (b lo) : s.changes [.outbox, .regs, .ctrs, .mbxWaits] (s.mbxReset b lo) := by
  unfold State.mbxReset
  refine State.changes_foldl .refl fun _ _ ht => ?_
  extract_lets n1 s2
  refine State.changes_have (t := s2) ?_ fun hs2 => ?_
  · unfold s2
    refine State.changes_ite ?_ ht
    split
    · exact (State.changes_count ..).after ((State.changes_setBitOf ..).after ht)
    · exact (State.changes_setBitOf ..).after ht
  split
  · rename_i he1
    exact (State.changes_answer ..).after ((State.changes_mbxTimeout ..).after ((State.changes_snd he1 (State.changes_takeWait ..)).after hs2))
  · exact hs2

theorem State.changes_pump (n a) : s.changes [.outbox, .regs, .ctrs, .mbxWaits, .cplq] (s.pump n a) := by
  induction a generalizing s n with
  | zero =>
    exact .refl
  | succ a ih =>
    unfold State.pump
    refine State.changes_ite .refl ?_
    split
    · exact .refl
    · extract_lets s1
      split
      · rename_i he2
        refine (ih ..).after ?_
        refine State.changes_ite ?_ ?_
        · exact (State.changes_count ..).after ((State.changes_fst he2 (State.changes_mbxWrite ..)).after ((State.changes_set_cplq ..).after .refl))
        · exact (State.changes_fst he2 (State.changes_mbxWrite ..)).after ((State.changes_set_cplq ..).after .refl)

theorem State.changes_postWord (n w) : s.changes [.outbox, .regs, .ctrs, .mbxWaits, .cplq] (s.postWord n w) := by
  unfold State.postWord
  exact (State.changes_pump ..).after ((State.changes_set_cplq ..).after .refl)

theorem State.changes_putEvent (kind part job status pay) : s.changes [.outbox, .regs, .ctrs, .window, .mbxWaits, .evHead] (s.putEvent kind part job
    status pay) := by
  unfold State.putEvent
  extract_lets a1 w02 s3 s4 s5
  refine State.changes_have (t := s3) ((State.changes_winWrite ..).after ((State.changes_winWrite ..).after .refl)) fun hs3 => ?_
  refine State.changes_have (t := s4) (State.changes_foldl hs3 fun _ _ ht => (State.changes_winWrite ..).after ht) fun hs4 => ?_
  exact State.changes_ite ((State.changes_set_evHead ..).after hs4) ((State.changes_mbxWrite ..).after ((State.changes_set_evHead ..).after hs4))

def Writes.post : List Field := [.outbox, .regs, .ctrs, .window, .mbxWaits, .evHead, .evLost, .evOver]

theorem State.changes_post (kind part job status pay) : s.changes Writes.post (s.post kind part job status pay) := by
  unfold State.post
  refine State.changes_ite ((State.changes_count ..).after ((State.changes_set_evLost_evOver ..).after .refl)) ?_
  extract_lets s1 s2
  refine State.changes_have (t := s2) (State.changes_ite .refl ((State.changes_set_evOver ..).after ((State.changes_putEvent ..).after .refl)))
      fun hs2 => ?_
  exact State.changes_ite ((State.changes_count ..).after ((State.changes_set_evLost_evOver ..).after hs2)) ((State.changes_putEvent ..).after hs2)

theorem State.changes_fault (agent cause detail index addr) : s.changes Writes.post (s.fault agent cause detail index addr) := by
  unfold State.fault
  exact (State.changes_post ..).after .refl

/-! Watch. -/

theorem State.changes_saveSuspects (cl) : s.changes [.suspects] (s.saveSuspects cl) := by
  unfold State.saveSuspects
  exact (State.changes_set_suspects ..).after .refl

theorem State.changes_loadSuspects (cl) : s.changes [.regs] (s.loadSuspects cl) := by
  unfold State.loadSuspects
  exact State.changes_foldl .refl fun _ _ ht => State.changes_foldl ht fun _ _ ht1 => (State.changes_setFld ..).after ht1

theorem State.changes_syncSuspect (cl) : s.changes [.regs] (s.syncSuspect cl) := by
  unfold State.syncSuspect
  exact (State.changes_setFld ..).after .refl

def Writes.newShape : List Field := [.outbox, .regs, .ctrs, .window, .mbxWaits, .evHead, .evLost, .evOver, .nv, .shape]

theorem State.changes_newShape : s.changes Writes.newShape s.newShape := by
  unfold State.newShape
  exact (State.changes_post ..).after ((State.changes_set_nv_shape ..).after .refl)

def Writes.markDead : List Field := [.outbox, .regs, .ctrs, .window, .cores, .mbxWaits, .evHead, .evLost, .evOver, .nv, .shape]

theorem State.changes_markDead (cl phys) : s.changes Writes.markDead (s.markDead cl phys) := by
  unfold State.markDead
  split
  · exact (State.changes_setCore ..).after .refl
  · exact State.changes_ite ((State.changes_newShape ..).after ((State.changes_set_shape ..).after .refl)) .refl

theorem State.changes_wlSettle (kind wh) : s.changes Writes.post (s.wlSettle kind wh) := by
  unfold State.wlSettle
  extract_lets s1 s2 s3
  refine State.changes_have (t := s2) ((State.changes_setCtr ..).after ((State.changes_setCtr ..).after .refl)) fun hs2 => ?_
  refine State.changes_have (t := s3) (State.changes_ite ((State.changes_syncSuspect ..).after hs2) hs2) fun hs3 => ?_
  exact State.changes_ite hs3 ((State.changes_fault ..).after hs3)

theorem State.changes_wlChange (kind wh unit row cause f) : s.changes Writes.markDead (s.wlChange kind wh unit row cause f) := by
  unfold State.wlChange
  extract_lets fin1 found2 fresh3 oldest4 x5 was6 x7
  generalize x5 = x5'
  split
  · exact (State.changes_count ..).after .refl
  · extract_lets s8 now9
    refine State.changes_have (t := s8) ((State.changes_wlSettle ..).after ((State.changes_set_nv ..).after .refl)) fun hs8 => ?_
    exact State.changes_ite ((State.changes_markDead ..).after hs8) hs8

theorem State.changes_suspectCore (c cause) : s.changes Writes.markDead (s.suspectCore c cause) := by
  unfold State.suspectCore
  exact (State.changes_wlChange ..).after .refl

theorem State.changes_memLog (r parity) : s.changes [.regs] (s.memLog r parity) := by
  unfold State.memLog
  exact State.changes_ite .refl ((State.changes_wr ..).after .refl)

theorem State.changes_memEvidence (r parity) : s.changes Writes.markDead (s.memEvidence r parity) := by
  unfold State.memEvidence
  split
  · extract_lets k1 l2 s3 s4
    refine State.changes_have (t := s4) ((State.changes_suspectCore ..).after ((State.changes_setCore ..).after .refl)) fun hs4 => ?_
    exact State.changes_ite ((State.changes_markDead ..).after hs4) hs4
  · exact State.changes_ite .refl ((State.changes_wlChange ..).after .refl)

def Writes.ceEvidence : List Field := [.outbox, .regs, .ctrs, .window, .cores, .clus, .mbxWaits, .evHead, .evLost, .evOver, .nv, .shape]

theorem State.changes_ceEvidence (r) : s.changes Writes.ceEvidence (s.ceEvidence r) := by
  unfold State.ceEvidence
  split
  · exact State.changes_ite ((State.changes_suspectCore ..).after ((State.changes_setCore ..).after .refl)) ((State.changes_setCore ..).after .refl)
  · exact State.changes_ite ((State.changes_wlChange ..).after ((State.changes_setCl ..).after .refl)) ((State.changes_setCl ..).after .refl)

def Writes.rowError : List Field := [.outbox, .regs, .ctrs, .rows, .window, .cores, .clus, .mbxWaits, .evHead, .evLost, .evOver, .nv, .shape]

theorem State.changes_rowError (r e) : s.changes Writes.rowError (s.rowError r e) := by
  unfold State.rowError
  extract_lets near1 det2 x3 s4 s5 s6 s7 s8
  refine State.changes_have (t := s4) ?_ fun hs4 => ?_
  · unfold s4
    split
    · exact (State.changes_countCore ..).after .refl
    · exact (State.changes_count ..).after .refl
  refine State.changes_have (t := s5) ?_ fun hs5 => ?_
  · unfold s5
    split
    · exact (State.changes_countCore ..).after .refl
    · exact (State.changes_count ..).after .refl
  refine State.changes_have (t := s6) (State.changes_ite hs5 ((State.changes_setRow ..).after hs5)) fun hs6 => ?_
  refine State.changes_have (t := s7) ?_ fun hs7 => ?_
  · unfold s7
    split
    · exact (State.changes_countCore ..).after .refl
    · exact (State.changes_count ..).after .refl
  split
  · exact .refl
  · exact (State.changes_ceEvidence ..).after hs4
  · exact (State.changes_memEvidence ..).after ((State.changes_fault ..).after ((State.changes_memLog ..).after hs6))
  · exact (State.changes_memEvidence ..).after ((State.changes_fault ..).after ((State.changes_memLog ..).after ((State.changes_setRow ..).after
        hs7)))

/-! Operands. -/

theorem State.changes_setSiloPtrs (x y) : s.changes [.regs] (s.setSiloPtrs x y) := by
  unfold State.setSiloPtrs
  exact (State.changes_wr ..).after ((State.changes_wr ..).after .refl)

/-! Flags. -/

theorem State.changes_addFlags (id f) : s.changes [.regs, .tasks] (s.addFlags id f) := by
  unfold State.addFlags
  split
  · exact .refl
  · exact (State.changes_setTask ..).after ((State.changes_wr ..).after .refl)

theorem State.changes_draw (c) : s.changes [.free, .cores] (s.draw c).2 := by
  unfold State.draw
  exact State.changes_ite_snd ((State.changes_setCore ..).after .refl) ((State.changes_set_free ..).after .refl)

theorem State.changes_draws (c a) : s.changes [.free, .cores] (s.draws c a).2 := by
  induction a generalizing s c with
  | zero =>
    exact .refl
  | succ a ih =>
    unfold State.draws
    split
    · rename_i he
      exact (ih ..).after ((State.changes_snd he (State.changes_draw ..)).after .refl)

theorem State.changes_roundings (c round n) : s.changes [.free, .ctrs, .cores] (s.roundings c round n).2 := by
  unfold State.roundings
  exact State.changes_ite_snd .refl (State.changes_ite_snd ((State.changes_countCore ..).after .refl) ((State.changes_draws ..).after .refl))

theorem State.changes_packFor (t f round vals) : s.changes [.free, .regs, .ctrs, .tasks, .cores] (s.packFor t f round vals).2.2 := by
  unfold State.packFor
  split
  · rename_i he
    exact (State.changes_addFlags ..).after ((State.changes_snd he (State.changes_roundings ..)).after .refl)

/-! Storage. -/

theorem State.changes_bind (id w) : s.changes [.tasks] (s.bind id w) := by
  unfold State.bind
  split
  · exact .refl
  · refine (State.changes_modTask _ _ fun x _ => ?_).after .refl
    split <;> rfl

theorem State.changes_readRow (t r take) : Ex.all (fun r0 : _ × State => s.changes [.rows, .tasks] r0.2) (s.readRow t r take) := by
  unfold State.readRow
  exact Ex.all_bind fun _ _ => Ex.all_ok ((State.changes_bind ..).after (State.changes_ite ((State.changes_setRow ..).after .refl) .refl))

theorem State.changes_readRows (t take a) : Ex.all (fun r0 : _ × State => s.changes [.rows, .tasks] r0.2) (s.readRows t take a) := by
  induction a generalizing s t take with
  | nil =>
    exact Ex.all_ok .refl
  | cons x a ih =>
    exact Ex.all_bind fun ⟨_, _⟩ hu => Ex.all_bind fun ⟨_, _⟩ hu1 => Ex.all_ok ((Ex.all_of hu1 (ih ..)).after ((Ex.all_of hu (State.changes_readRow
        ..)).after .refl))

theorem State.changes_staleDrop (r) : s.changes [.ctrs, .rows, .chans] (s.staleDrop r) := by
  unfold State.staleDrop
  split
  · exact .refl
  · exact (State.changes_countJob ..).after ((State.changes_countJob ..).after ((State.changes_setChan ..).after ((State.changes_setRow ..).after
        .refl)))

theorem State.changes_writeRow (t r d ow) : Ex.all (s.changes [.rows, .tasks]) (s.writeRow t r d ow) := by
  unfold State.writeRow
  exact Ex.all_bind fun _ _ => Ex.all_ok ((State.changes_bind ..).after ((State.changes_setRow ..).after .refl))

theorem State.changes_writeRows (t ow a) : Ex.all (s.changes [.rows, .tasks]) (s.writeRows t ow a) := by
  induction a generalizing s t ow with
  | nil =>
    exact Ex.all_ok .refl
  | cons x a ih =>
    exact Ex.all_bind fun _ hu => (ih ..).imp fun _ k => k.after ((Ex.all_of hu (State.changes_writeRow ..)).after .refl)

theorem State.changes_fill (r d poison note) : s.changes [.rows] (s.fill r d poison note) := by
  unfold State.fill
  exact (State.changes_setRow ..).after .refl

theorem State.changes_dmaTaken (r take) : s.changes [.rows] (s.dmaTaken r take) := by
  unfold State.dmaTaken
  exact State.changes_ite ((State.changes_setRow ..).after .refl) .refl

theorem State.changes_discardRows (id) : s.changes [.rows] (s.discardRows id) := by
  unfold State.discardRows
  exact State.changes.trans .refl (State.changes_of (M := [.rows]) rfl (State.storesWf_step (rows := SMap.wf_mapVals _ _)))

theorem State.changes_commitRows (ids) : s.changes [.rows] (s.commitRows ids) := by
  unfold State.commitRows
  exact State.changes.trans .refl (State.changes_of (M := [.rows]) rfl (State.storesWf_step (rows := SMap.wf_mapVals _ _)))

theorem State.changes_zeroRows (lo hi keep) : s.changes [.rows] (s.zeroRows lo hi keep) := by
  unfold State.zeroRows
  exact State.changes.trans .refl (State.changes_of (M := [.rows]) rfl (State.storesWf_step (rows := SMap.wf_filter _)))

theorem State.changes_bindAll (id ts) : s.changes [.tasks] (s.bindAll id ts) := by
  unfold State.bindAll
  exact State.changes_foldl .refl fun _ _ ht => State.changes_ite ht ((State.changes_bind ..).after ht)

theorem State.changes_commitSilos (t) : s.changes [.regs] (s.commitSilos t) := by
  unfold State.commitSilos
  exact State.changes_foldl (State.changes_foldl .refl fun _ _ ht => (State.changes_setSiloPtrs ..).after ht) fun _ _ ht => (State.changes_setSiloPtrs
      ..).after ht

theorem State.changes_discardSilos (t) : s.changes [.regs] (s.discardSilos t) := by
  unfold State.discardSilos
  exact State.changes_foldl (State.changes_foldl .refl fun _ _ ht => (State.changes_setSiloPtrs ..).after ht) fun _ _ ht => (State.changes_setSiloPtrs
      ..).after ht

theorem State.changes_poisonRead (r) : s.changes [.ctrs] (s.poisonRead r) := by
  unfold State.poisonRead
  split
  · exact (State.changes_countCore ..).after .refl
  · exact (State.changes_count ..).after .refl

theorem State.changes_meetRow (r) : s.changes [.ctrs] (s.meetRow r) := by
  unfold State.meetRow
  exact State.changes_ite ((State.changes_poisonRead ..).after .refl) .refl

/-! Tasks. -/

theorem State.changes_syncSlots (c) : s.changes [.regs] (s.syncSlots c) := by
  unfold State.syncSlots
  exact (State.changes_wr ..).after .refl

theorem State.changes_syncEng (e) : s.changes [.regs] (s.syncEng e) := by
  unfold State.syncEng
  exact (State.changes_wr ..).after .refl

theorem State.changes_syncUnits (c) : s.changes [.regs] (s.syncUnits c) := by
  unfold State.syncUnits
  exact (State.changes_wr ..).after ((State.changes_wr ..).after ((State.changes_syncEng ..).after ((State.changes_syncEng ..).after .refl)))

theorem State.changes_schedule (c switch) : s.changes [.regs, .ctrs, .tasks] (s.schedule c switch) := by
  unfold State.schedule
  extract_lets s1
  refine State.changes_have (t := s1) ?_ fun hs1 => ?_
  · unfold s1
    split
    · exact .refl
    · split
      · exact (State.changes_setTask ..).after (State.changes_ite ((State.changes_countCore ..).after .refl) .refl)
      · exact .refl
  exact (State.changes_syncSlots ..).after hs1

theorem State.changes_waitOn (r w) : s.changes [.waits] (s.waitOn r w) := by
  unfold State.waitOn
  exact State.changes_ite .refl ((State.changes_set_waits ..).after .refl)

theorem State.changes_blockTask (id y) : s.changes [.regs, .ctrs, .tasks, .waits] (s.blockTask id y) := by
  unfold State.blockTask
  split
  · exact .refl
  · extract_lets s1 s2
    refine State.changes_have (t := s2) ?_ fun hs2 => ?_
    · unfold s2
      split
      · exact (State.changes_waitOn ..).after ((State.changes_setTask ..).after .refl)
      · exact ((State.changes_setTask ..).after .refl)
    exact (State.changes_schedule ..).after hs2

theorem State.changes_requestStop (p j source rec) : s.changes [.jobs] (s.requestStop p j source rec) := by
  unfold State.requestStop
  exact State.changes_ite ((State.changes_setJob ..).after .refl) .refl

def Writes.reportFault : List Field := [.outbox, .regs, .ctrs, .window, .jobs, .mbxWaits, .evHead, .evLost, .evOver]

theorem State.changes_reportFault (t f) : s.changes Writes.reportFault (s.reportFault t f) := by
  unfold State.reportFault
  extract_lets c1 s2 s3 s4 s5 s6
  refine State.changes_have (t := s2) ((State.changes_countCore ..).after .refl) fun hs2 => ?_
  refine State.changes_have (t := s3) (State.changes_ite ((State.changes_fault ..).after hs2) hs2) fun hs3 => ?_
  refine State.changes_have (t := s5) ((State.changes_wr ..).after ((State.changes_wr ..).after hs3)) fun hs5 => ?_
  refine State.changes_have (t := s6) (State.changes_ite hs3 ((State.changes_wr ..).after hs5)) fun hs6 => ?_
  refine State.changes_ite ((State.changes_fault ..).after hs6) ?_
  split
  · exact (State.changes_requestStop ..).after hs6
  · exact hs6

def Writes.taskFault : List Field := [.outbox, .regs, .ctrs, .window, .tasks, .jobs, .mbxWaits, .evHead, .evLost, .evOver]

theorem State.changes_taskFault (id cause pc addr detail) : s.changes Writes.taskFault (s.taskFault id cause pc addr detail) := by
  unfold State.taskFault
  split
  · exact .refl
  · exact State.changes_ite .refl ((State.changes_reportFault ..).after ((State.changes_setTask ..).after .refl))

theorem State.changes_endIssue (id) : s.changes [.regs, .ctrs, .tasks] (s.endIssue id) := by
  unfold State.endIssue
  split
  · exact .refl
  · exact (State.changes_schedule ..).after ((State.changes_setTask ..).after .refl)

theorem State.changes_releaseAll (t) : s.changes [.regs, .engs, .cores, .waits] (s.releaseAll t) := by
  unfold State.releaseAll
  exact (State.changes_syncUnits ..).after ((State.changes_setCore ..).after ((State.changes_setEng ..).after ((State.changes_setEng ..).after
      ((State.changes_set_waits ..).after .refl))))

theorem State.changes_fillProg (id) : s.changes [.tasks] (s.fillProg id) := by
  unfold State.fillProg
  split
  · exact .refl
  · exact (State.changes_setTask ..).after .refl

theorem State.changes_pause (id) : s.changes [.regs, .ctrs, .tasks, .waits] (s.pause id) := by
  unfold State.pause
  split
  · exact .refl
  · exact State.changes_ite ((State.changes_blockTask ..).after .refl) .refl

theorem State.changes_unblock (id) : s.changes [.regs, .ctrs, .tasks, .waits] (s.unblock id) := by
  unfold State.unblock
  split
  · exact .refl
  · refine State.changes_ite .refl ?_
    split
    · exact (State.changes_schedule ..).after ((State.changes_setTask ..).after .refl)
    · exact (State.changes_blockTask ..).after .refl

theorem State.changes_wakeUnits (c) : s.changes [.regs, .ctrs, .tasks, .waits] (s.wakeUnits c) := by
  unfold State.wakeUnits
  exact (State.changes_syncSlots ..).after (State.changes_foldl .refl fun _ _ ht => (State.changes_unblock ..).after ht)

theorem State.changes_discardTask (id requeue) : s.changes [.regs, .rows, .tasks, .engs, .cores, .waits] (s.discardTask id requeue) := by
  unfold State.discardTask
  split
  · exact .refl
  · extract_lets s1 x2
    refine State.changes_have (t := s1) ((State.changes_releaseAll ..).after ((State.changes_discardSilos ..).after ((State.changes_discardRows
        ..).after .refl))) fun hs1 => ?_
    exact State.changes_ite ((State.changes_setTask ..).after hs1) ((State.changes_dropTask ..).after hs1)

theorem State.changes_requeueTask (id) : s.changes [.regs, .rows, .tasks, .engs, .cores, .waits] (s.requeueTask id) := by
  unfold State.requeueTask
  exact (State.changes_modTask ..).after ((State.changes_discardTask ..).after .refl)

theorem State.changes_removeTasks (ids) : s.changes [.regs, .rows, .tasks, .engs, .cores, .waits] (s.removeTasks ids) := by
  unfold State.removeTasks
  exact State.changes_foldl (State.changes_foldl .refl fun _ _ ht => (State.changes_discardTask ..).after ht) fun _ _ ht => (State.changes_requeueTask
      ..).after ht

def Writes.commitTasks : List Field := [.regs, .rows, .tasks, .groups, .engs, .cores, .waits]

theorem State.changes_commitTasks (ids) : s.changes Writes.commitTasks (s.commitTasks ids) := by
  unfold State.commitTasks
  exact (State.changes_filter_tasks_groups ..).after (State.changes_foldl ((State.changes_commitRows ..).after .refl)
      fun _ _ ht => (State.changes_releaseAll ..).after ((State.changes_commitSilos ..).after ht))

theorem State.changes_acquire (t e) : Ex.all (s.changes [.regs, .engs]) (s.acquire t e) := by
  unfold State.acquire
  exact Ex.all_bind fun _ _ => Ex.all_ite (Ex.all_ok .refl) (Ex.all_ok ((State.changes_syncUnits ..).after ((State.changes_setEng ..).after .refl)))

theorem SMap.wf_putRegs {m : SMap Word} (l : List (Nat × Word)) (h : SMap.wf resetAt m = true) : SMap.wf resetAt (putRegs m l) = true := by
  unfold putRegs
  induction l generalizing m with
  | nil => exact h
  | cons p l ih => exact ih (SMap.wf_put _ _ h)

theorem State.changes_enter (c q) : s.changes [.regs, .cores] (s.enter c q) := by
  unfold State.enter
  extract_lets k s1
  have hs : s.changes [.regs, .cores] s1 := State.changes.after (State.changes.put_regs (s := s) (SMap.wf_putRegs q.env)) .refl
  exact State.changes_ite hs ((State.changes_setCore ..).after hs)

theorem State.changes_leave (s' c q) : s.changes [.regs, .cores] (s.leave s' c q) := by
  unfold State.leave
  extract_lets s1 k
  have hs : s.changes [.regs, .cores] s1 := State.changes.after (State.changes.put_regs (s := s) (SMap.wf_putRegs _)) .refl
  exact State.changes_ite hs ((State.changes_setCore ..).after hs)

/-- A command's effect under the settings of its issue. -/
theorem State.all_under {c q k} (h : r.changes M s) (hk : ∀ t, r.changes M t → Ex.all (r.changes M) (k t)) (hM : Field.within [.regs, .cores] M := by
    decide +kernel) :
    Ex.all (r.changes M) (s.under c q k) :=
  Ex.all_bind fun _ hu => State.changes.after (State.changes_leave ..) ((hk _ (State.changes.after (State.changes_enter ..) h hM)).at hu) hM

theorem Run.all_leave {run : Run} (k : Run.all (r.changes M) run) (hM : Field.within [.regs, .cores] M := by decide +kernel) (s' : State) (c : Nat) (q
    : Cmd) :
    Run.all (r.changes M) (run.leave s' c q) := by
  cases run with
  | done _ => exact State.changes.after (State.changes_leave ..) k hM
  | stop _ _ _ => exact State.changes.after (State.changes_leave ..) k hM

theorem State.changes_advance (id last) : s.changes [.regs, .ctrs, .tasks, .cores] (s.advance id last) := by
  unfold State.advance
  split
  · exact .refl
  · refine State.changes_ite .refl ?_
    extract_lets s1 x2 s3
    refine State.changes_have (t := s1) ((State.changes_fillProg ..).after ((State.changes_setTask ..).after .refl)) fun hs1 => ?_
    exact State.changes_ite ((State.changes_endIssue ..).after ((State.changes_setCore ..).after hs1)) ((State.changes_setCore ..).after hs1)

theorem State.changes_failCmd (q cause addr) : s.changes Writes.taskFault (s.failCmd q cause addr) := by
  unfold State.failCmd
  exact (State.changes_endIssue ..).after ((State.changes_taskFault ..).after .refl)

theorem State.changes_dropBuf (t) : s.changes [.regs, .cores] (s.dropBuf t) := by
  unfold State.dropBuf
  exact State.changes_ite ((State.changes_syncUnits ..).after ((State.changes_setCore ..).after .refl)) .refl

theorem State.changes_useWaits (t q w) : s.changes [.ctrs, .rows, .chans] (s.useWaits t q w) := by
  unfold State.useWaits
  split
  · exact .refl
  · exact State.changes_ite .refl (State.changes_ite ((State.changes_staleDrop ..).after .refl) (State.changes_ite .refl ((State.changes_countJob
        ..).after .refl)))

def Writes.await : List Field := [.regs, .ctrs, .rows, .tasks, .cores, .chans, .waits]

theorem State.changes_await (t q fresh left w) : s.changes Writes.await (s.await t q fresh left w) := by
  unfold State.await
  extract_lets s1 s2 s3
  refine State.changes_have (t := s1) ((State.changes_modTask ..).after ((State.changes_useWaits ..).after .refl)) fun hs1 => ?_
  refine State.changes_have (t := s2) ?_ fun hs2 => ?_
  · unfold s2
    split
    · exact (State.changes_waitOn ..).after (State.changes_foldl hs1 fun _ _ ht1 => (State.changes_waitOn ..).after ht1)
    · exact (State.changes_waitOn ..).after hs1
  refine State.changes_have (t := s3) (State.changes_ite ((State.changes_pause ..).after ((State.changes_advance ..).after hs2)) hs2) fun hs3 => ?_
  exact (State.changes_syncUnits ..).after hs3

theorem State.changes_bufFreed (t q) : s.changes [.regs, .ctrs, .tasks, .waits] (s.bufFreed t q) := by
  unfold State.bufFreed
  exact State.changes_ite ((State.changes_wakeUnits ..).after .refl) .refl

def Writes.settle : List Field := [.outbox, .regs, .ctrs, .rows, .window, .tasks, .cores, .chans, .waits, .jobs, .mbxWaits, .evHead, .evLost,
  .evOver]

/-- What a command leaves when it has run: what it changed itself, and what its end or its stop does. -/
theorem State.changes_settle {t q fresh run} (h : r.changes M s) (k : Run.all (r.changes M) run) (hM : Field.within Writes.settle M := by
    decide +kernel) :
    r.changes M (s.settle t q fresh run) := by
  refine (fun h => ?_ : (∀ u : State, r.changes M u → ∀ v, u.changes Writes.settle v → r.changes M v) → _) fun u hu v hv => hv.after hu hM
  unfold State.settle
  split
  · refine h _ k _ ((State.changes_bufFreed ..).after (State.changes_ite ?_ ?_))
    · exact (State.changes_pause ..).after ((State.changes_advance ..).after .refl)
    · exact (State.changes_unblock ..).after ((State.changes_syncUnits ..).after ((State.changes_modTask ..).after .refl))
  · exact h _ k _ ((State.changes_await ..).after .refl)
  · exact h _ k _ ((State.changes_await ..).after .refl)
  · exact h _ k _ ((State.changes_blockTask ..).after .refl)
  · assumption
  · exact h _ k _ ((State.changes_bufFreed ..).after ((State.changes_failCmd ..).after ((State.changes_poisonRead ..).after
      ((State.changes_dropBuf ..).after ((State.changes_modTask ..).after .refl)))))
  · exact h _ k _ ((State.changes_bufFreed ..).after ((State.changes_failCmd ..).after ((State.changes_dropBuf ..).after
      ((State.changes_modTask ..).after .refl))))

/-- A core command that issues. -/
theorem changes_issueRun {op core ups k} (hk : ∀ t q, Run.all (s.changes M) (k t q s)) (hM : Field.within Writes.settle M := by decide +kernel) :
    Res.all (s.changes M) (issueRun op core ups s k) := by
  have settled : ∀ {t q fresh run}, Run.all (s.changes M) run → s.changes M (s.settle t q fresh run) := fun k => State.changes_settle .refl k
      (Field.within_trans hM)
  unfold issueRun
  refine Res.all_unitOk ?_
  split
  · exact Res.all_next .refl
  split
  · exact Res.all_next .refl
  split
  · exact Res.all_next ((State.changes_blockTask ..).after .refl (Field.within_trans hM))
  · exact Res.all_next (settled (Run.all_stop .refl))
  split
  · exact Res.all_next (settled (Run.all_stop .refl))
  split
  · exact Res.all_next .refl
  · exact Res.all_next (settled (hk _ _))

theorem changes_issue {op core k} (hk : ∀ t w, Ex.all (s.changes M) (k t w s)) (hM : Field.within Writes.settle M := by decide +kernel) :
    Res.all (s.changes M) (issue op core s k) :=
  changes_issueRun (fun t q => Run.all_whole .refl (hk t q.word)) hM

/-! Lpddr. -/

theorem State.changes_setBoth (r lo len v) : s.changes [.regs, .shadow] (s.setBoth r lo len v) := by
  unfold State.setBoth
  exact (State.changes_wrS ..).after ((State.changes_wr ..).after .refl)

theorem State.changes_ttSetAt (g i k lo len v) : s.changes [.regs, .shadow] (s.ttSetAt g i k lo len v) := by
  unfold State.ttSetAt
  exact (State.changes_setBoth ..).after .refl

theorem State.changes_ttSet (i k lo len v) : s.changes [.regs, .shadow] (s.ttSet i k lo len v) := by
  unfold State.ttSet
  exact State.changes_foldl .refl fun _ _ ht => (State.changes_ttSetAt ..).after ht

theorem State.changes_ttRes (i v) : s.changes [.regs, .shadow] (s.ttRes i v) := by
  unfold State.ttRes
  exact (State.changes_ttSet ..).after .refl

theorem State.changes_ttClass (i v) : s.changes [.regs, .shadow] (s.ttClass i v) := by
  unfold State.ttClass
  exact (State.changes_ttSet ..).after .refl

theorem State.changes_ttPins (i v) : s.changes [.regs, .shadow] (s.ttPins i v) := by
  unfold State.ttPins
  exact (State.changes_ttSet ..).after .refl

theorem State.changes_bumpGen (i) : s.changes [.regs, .shadow] (s.bumpGen i) := by
  unfold State.bumpGen
  exact (State.changes_ttSet ..).after .refl

theorem State.changes_lpCheck (key write) : s.changes [.ctrs, .checks] (s.lpCheck key write) := by
  unfold State.lpCheck
  exact State.changes_ite ((State.changes_set_checks ..).after .refl) ((State.changes_count ..).after ((State.changes_set_checks ..).after .refl))

theorem State.changes_lpWrite (key d poison) : s.changes [.ctrs, .lpddr, .checks] (s.lpWrite key d poison) := by
  unfold State.lpWrite
  exact (State.changes_setLp ..).after ((State.changes_lpCheck ..).after .refl)

def Writes.retireRow : List Field := [.outbox, .regs, .ctrs, .window, .copying, .cores, .mbxWaits, .evHead, .evLost, .evOver, .nv, .shape]

theorem State.changes_retireRow (dev ch row) : s.changes Writes.retireRow (s.retireRow dev ch row) := by
  unfold State.retireRow
  extract_lets s1
  refine State.changes_ite ((State.changes_wlChange ..).after .refl) ?_
  refine State.changes_ite ?_ ?_
  · exact (State.changes_count ..).after ((State.changes_wlChange ..).after .refl)
  · exact (State.changes_set_copying ..).after ((State.changes_wlChange ..).after .refl)

theorem State.changes_lpUe (key) : s.changes Writes.retireRow (s.lpUe key) := by
  unfold State.lpUe
  exact (State.changes_retireRow ..).after ((State.changes_fault ..).after (State.changes_ite ((State.changes_count ..).after .refl)
      ((State.changes_wr ..).after ((State.changes_wr ..).after ((State.changes_count ..).after .refl)))))

def Writes.lpCe : List Field := [.outbox, .regs, .ctrs, .lpddr, .window, .ceRows, .copying, .cores, .mbxWaits, .evHead, .evLost, .evOver, .nv,
  .shape]

theorem State.changes_lpCe (key) : s.changes Writes.lpCe (s.lpCe key) := by
  unfold State.lpCe
  split
  · extract_lets s1
    refine State.changes_have (t := s1) ((State.changes_count ..).after ((State.changes_setLp ..).after .refl)) fun hs1 => ?_
    exact State.changes_ite ((State.changes_retireRow ..).after hs1) ((State.changes_set_ceRows ..).after hs1)

def Writes.lpTouch : List Field := [.outbox, .regs, .ctrs, .lpddr, .checks, .window, .ceRows, .copying, .cores, .mbxWaits, .evHead, .evLost,
  .evOver, .nv, .shape]

theorem State.changes_lpTouch (key) : s.changes Writes.lpTouch (s.lpTouch key) := by
  unfold State.lpTouch
  extract_lets s1 x2 s3
  refine State.changes_have (t := s3) (State.changes_ite ((State.changes_lpCe ..).after ((State.changes_lpCheck ..).after .refl))
      ((State.changes_lpCheck ..).after .refl)) fun hs3 => ?_
  exact State.changes_ite ((State.changes_lpUe ..).after hs3) hs3

theorem State.changes_setPage (p pg w) : s.changes Writes.lpTouch (s.setPage p pg w) := by
  unfold State.setPage
  exact (State.changes_lpWrite ..).after ((State.changes_lpTouch ..).after .refl)

theorem State.changes_lpMeet (l) : s.changes Writes.lpTouch (s.lpMeet l) := by
  unfold State.lpMeet
  exact State.changes_ite .refl ((State.changes_lpTouch ..).after .refl)

theorem State.changes_lpMeets (ls) : s.changes Writes.lpTouch (s.lpMeets ls) := by
  unfold State.lpMeets
  exact State.changes_foldl .refl fun _ _ ht => (State.changes_lpMeet ..).after ht

theorem State.changes_classRefused (l agent detail row) : s.changes Writes.post (s.classRefused l agent detail row) := by
  unfold State.classRefused
  exact (State.changes_fault ..).after ((State.changes_count ..).after .refl)

theorem State.changes_pageFault (row) : s.changes [.ctrs] (s.pageFault row) := by
  unfold State.pageFault
  exact (State.changes_count ..).after .refl

theorem State.changes_standBy (a) : s.changes [.arrivals] (s.standBy a) := by
  unfold State.standBy
  exact State.changes_ite .refl ((State.changes_set_arrivals ..).after .refl)

/-! TaskCmds. -/

theorem State.changes_refuseDesc (cl d n) : s.changes Writes.reportFault (s.refuseDesc cl d n) := by
  unfold State.refuseDesc
  extract_lets s1
  refine State.changes_have (t := s1) ((State.changes_fault ..).after ((State.changes_count ..).after .refl)) fun hs1 => ?_
  split
  · exact (State.changes_requestStop ..).after hs1
  · exact hs1

theorem State.changes_joinGroup (t) : s.changes [.groups] (s.joinGroup t) := by
  unfold State.joinGroup
  refine State.changes_ite .refl ?_
  extract_lets upd1
  split <;> exact (State.changes_set_groups ..).after .refl

def Writes.loadDesc : List Field := [.outbox, .regs, .ctrs, .window, .tasks, .taskSeq, .groups, .jobs, .mbxWaits, .evHead, .evLost, .evOver, .taskIds]

theorem State.changes_loadDesc (cl d) : s.changes Writes.loadDesc (s.loadDesc cl d) := by
  unfold State.loadDesc
  extract_lets n1 t2
  refine State.changes_ite ((State.changes_refuseDesc ..).after .refl) ?_
  refine State.changes_ite ?_ ?_
  · exact (State.changes_count ..).after .refl
  · exact State.changes_ite ((State.changes_refuseDesc ..).after .refl) ((State.changes_joinGroup ..).after ((State.changes_set_tasks_taskSeq
        ..).after .refl))

theorem changes_execDescLoad (cl d) : Res.all (s.changes Writes.loadDesc) (execDescLoad cl d s) := by
  unfold execDescLoad
  exact Res.all_unitOk (Res.all_need .refl (Res.all_next ((State.changes_loadDesc ..).after .refl)))

theorem State.changes_place (t c) : s.changes [.regs, .ctrs, .tasks, .taskSeq, .groups] (s.place t c) := by
  unfold State.place
  extract_lets audit1 sus2 x3 s4 s5 s6 s7 s8
  refine State.changes_have (t := s5) ((State.changes_set_taskSeq_groups ..).after ((State.changes_setTask ..).after .refl)) fun hs5 => ?_
  refine State.changes_have (t := s7) (State.changes_ite ((State.changes_countCore ..).after ((State.changes_count ..).after hs5))
      ((State.changes_count ..).after hs5)) fun hs7 => ?_
  refine State.changes_have (t := s8) (State.changes_ite ((State.changes_count ..).after hs7) hs7) fun hs8 => ?_
  exact (State.changes_schedule ..).after ((State.changes_fillProg ..).after hs8)

theorem State.changes_dispatch (cl) : s.changes [.regs, .ctrs, .tasks, .taskSeq, .groups] (s.dispatch cl) := by
  unfold State.dispatch
  refine State.changes_ite .refl ?_
  split
  · exact (State.changes_place ..).after .refl
  · exact .refl

theorem changes_execDispatch (cl) : Res.all (s.changes [.regs, .ctrs, .tasks, .taskSeq, .groups]) (execDispatch cl s) := by
  unfold execDispatch
  exact Res.all_unitOk (Res.all_next ((State.changes_dispatch ..).after .refl))

theorem changes_execCtlEnd (core) : Res.all (s.changes Writes.settle) (execCtlEnd core s) := by
  unfold execCtlEnd
  exact changes_issue fun _ _ => Ex.all_bind fun _ _ => Ex.all_ok .refl

theorem changes_execCtlFence (core) : Res.all (s.changes Writes.settle) (execCtlFence core s) := by
  unfold execCtlFence
  exact changes_issue fun _ _ => Ex.all_bind fun _ _ => Ex.all_ite Ex.all_error (Ex.all_ok .refl)

theorem State.changes_tagTake (t q) : Run.all (s.changes [.rows, .tasks]) (s.tagTake t q) := by
  unfold State.tagTake
  exact Run.all_checked .refl (Run.all_rows .refl (fun _ _ ht => Ex.all_map fun ⟨_, _⟩ hu1 => (Ex.all_of hu1 (State.changes_readRow ..)).after ht)
      fun _ _ ht => ht)

theorem changes_execTagTake (core) : Res.all (s.changes Writes.settle) (execTagTake core s) := by
  unfold execTagTake
  exact changes_issueRun fun _ _ => (State.changes_tagTake ..).imp fun _ k => k.after .refl

theorem State.changes_tagWait (t w) : Ex.all (s.changes []) (s.tagWait t w) := by
  unfold State.tagWait
  extract_lets rows1
  refine Ex.all_bind fun _ _ => ?_
  split
  · exact Ex.all_error
  · exact Ex.all_error
  · exact Ex.all_ok .refl

theorem changes_execTagWait (core) : Res.all (s.changes Writes.settle) (execTagWait core s) := by
  unfold execTagWait
  exact changes_issue fun _ _ => (State.changes_tagWait ..).imp fun _ k => k.after .refl

theorem State.changes_pushRow (t x r) : Ex.all (s.changes [.regs, .ctrs, .rows, .tasks]) (s.pushRow t x r) := by
  unfold State.pushRow
  extract_lets y1
  refine Ex.all_ite Ex.all_error ?_
  refine Ex.all_bind fun ⟨_, _⟩ hu1 => ?_
  split
  · rename_i he2
    refine Ex.all_bind fun _ hu3 => ?_
    extract_lets s2 s3 s4
    have hs2 : s.changes [.regs, .ctrs, .rows, .tasks] s2 := (State.changes_bindAll ..).after ((Ex.all_of hu3 (State.changes_writeRow ..)).after
        (State.changes_snd (M := [.regs, .ctrs, .rows, .tasks]) he2 ((Ex.all_of hu1 (State.changes_readRow ..)).after .refl)))
    have hs3 : s.changes [.regs, .ctrs, .rows, .tasks] s3 := (State.changes_setSiloPtrs ..).after hs2
    exact Ex.all_ok ((State.changes_countCore ..).after ((State.changes_modTask ..).after hs3))

theorem State.changes_siloPush (t q) : Run.all (s.changes [.regs, .ctrs, .rows, .tasks]) (s.siloPush t q) := by
  unfold State.siloPush
  exact Run.all_checked .refl (Run.all_rows .refl (fun _ _ ht => Ex.all_map fun _ hu1 => (Ex.all_of hu1 (State.changes_pushRow ..)).after ht)
      fun _ _ ht => ht)

theorem changes_execSiloPush (core) : Res.all (s.changes Writes.settle) (execSiloPush core s) := by
  unfold execSiloPush
  exact changes_issueRun fun _ _ => (State.changes_siloPush ..).imp fun _ k => k.after .refl

theorem State.changes_popRow (t x take d p) : Ex.all (fun r0 : State × _ => s.changes [.regs, .ctrs, .rows, .tasks] r0.1) (s.popRow t x take d p) :=
    by
  unfold State.popRow
  extract_lets y1 p2 r3
  refine Ex.all_ite Ex.all_error ?_
  refine Ex.all_ite Ex.all_error ?_
  refine Ex.all_bind fun ⟨_, _⟩ hu2 => ?_
  split
  · rename_i he3
    refine Ex.all_bind fun _ hu4 => ?_
    refine Ex.all_ite (Ex.all_ok ((Ex.all_of hu4 (State.changes_writeRow ..)).after (State.changes_snd (M := [.regs, .ctrs, .rows, .tasks]) he3
        ((Ex.all_of hu2 (State.changes_readRow ..)).after .refl)))) ?_
    extract_lets s4 s5 s6 s7
    have hs4 : s.changes [.regs, .ctrs, .rows, .tasks] s4 := by
      unfold s4
      refine State.changes_ite ?_ ?_
      · exact (State.changes_countJob ..).after ((Ex.all_of hu4 (State.changes_writeRow ..)).after (State.changes_snd (M := [.regs, .ctrs, .rows,
            .tasks]) he3 ((Ex.all_of hu2 (State.changes_readRow ..)).after .refl)))
      · exact (Ex.all_of hu4 (State.changes_writeRow ..)).after (State.changes_snd (M := [.regs, .ctrs, .rows, .tasks]) he3 ((Ex.all_of hu2
            (State.changes_readRow ..)).after .refl))
    have hs6 : s.changes [.regs, .ctrs, .rows, .tasks] s6 := (State.changes_setSiloPtrs ..).after ((State.changes_bindAll ..).after hs4)
    exact Ex.all_ok ((State.changes_countCore ..).after ((State.changes_modTask ..).after hs6))

theorem State.changes_siloPop (t q) : Run.all (s.changes [.regs, .ctrs, .rows, .tasks]) (s.siloPop t q) := by
  unfold State.siloPop
  exact Run.all_checked .refl (Run.all_rows .refl (fun _ _ ht => (State.changes_popRow ..).imp fun _ k => k.after ht) fun _ _ ht => ht)

theorem changes_execSiloPop (core) : Res.all (s.changes Writes.settle) (execSiloPop core s) := by
  unfold execSiloPop
  exact changes_issueRun fun _ _ => (State.changes_siloPop ..).imp fun _ k => k.after .refl

theorem State.changes_uncharge (p) : s.changes Writes.markDead (s.uncharge p) := by
  unfold State.uncharge
  split
  · exact (State.changes_wlChange ..).after .refl
  · split
    · exact (State.changes_setCore ..).after .refl
    · exact .refl
  · exact .refl

def Writes.withdraw : List Field := [.outbox, .regs, .ctrs, .window, .cores, .mbxWaits, .evHead, .evLost, .evOver, .nv, .shape, .testFirst]

theorem State.changes_withdraw (t) : s.changes Writes.withdraw (s.withdraw t) := by
  unfold State.withdraw
  split
  · exact (State.changes_set_testFirst ..).after .refl
  · exact State.changes_foldl .refl fun _ _ ht1 => (State.changes_uncharge ..).after ht1

def Writes.retire : List Field := [.outbox, .regs, .ctrs, .window, .tasks, .cores, .jobs, .mbxWaits, .evHead, .evLost, .evOver, .nv, .shape,
  .testFirst]

theorem State.changes_retire (t) : s.changes Writes.retire (s.retire t) := by
  unfold State.retire
  extract_lets s1 s2 x3 s4
  refine State.changes_have (t := s1) ?_ fun hs1 => ?_
  · unfold s1
    split
    · exact .refl
    · exact (State.changes_taskFault ..).after (State.changes_ite ((State.changes_withdraw ..).after (State.changes_foldl .refl
          fun _ _ ht2 => (State.changes_countEng ..).after ht2)) .refl)
  refine State.changes_have (t := s4) ((State.changes_setCore ..).after ((State.changes_modTask ..).after hs1)) fun hs4 => ?_
  exact (State.changes_schedule ..).after hs4

theorem changes_execTaskRetire (core slot) : Res.all (s.changes Writes.retire) (execTaskRetire core slot s) := by
  unfold execTaskRetire
  refine Res.all_unitOk ?_
  split
  · exact Res.all_next .refl
  · exact Res.all_need .refl (Res.all_next ((State.changes_retire ..).after .refl))

/-! Tile. -/

theorem State.changes_violate (id e kind header) : s.changes [.regs, .ctrs, .tasks] (s.violate id e kind header) := by
  unfold State.violate
  extract_lets s1 s2
  refine State.changes_have (t := s2) ((State.changes_countEng ..).after ((State.changes_modTask _ _ fun x _ => ?_).after .refl)) fun hs2 => ?_
  · split <;> rfl
  · exact State.changes_ite hs2 ((State.changes_wr ..).after hs2)

theorem State.changes_violateAll (id e header kinds) : s.changes [.regs, .ctrs, .tasks] (s.violateAll id e header kinds) := by
  unfold State.violateAll
  exact State.changes_foldl .refl fun _ _ ht => (State.changes_violate ..).after ht

/-! Tally. -/

def Writes.tallyEvidence : List Field := [.outbox, .regs, .ctrs, .window, .tasks, .cores, .mbxWaits, .evHead, .evLost, .evOver, .nv, .shape]

theorem State.changes_tallyEvidence (id core kind column) : s.changes Writes.tallyEvidence (s.tallyEvidence id core kind column) := by
  unfold State.tallyEvidence
  extract_lets cl1 ph2 again3 s4 k5 l6 s7 s8
  refine State.changes_have (t := s8) (State.changes_ite ((State.changes_wlChange ..).after ((State.changes_setCore ..).after .refl))
      ((State.changes_setCore ..).after .refl)) fun hs8 => ?_
  exact State.changes_ite ((State.changes_modTask ..).after ((State.changes_wlChange ..).after .refl)) ((State.changes_modTask ..).after hs8)

theorem State.changes_tallied (id e vs) : s.changes Writes.tallyEvidence (s.tallied id e vs) := by
  unfold State.tallied
  extract_lets total1 s2 s3 s4 s5 s6 s7
  refine State.changes_have (t := s3) ((State.changes_countEng ..).after ((State.changes_countEng ..).after .refl)) fun hs3 => ?_
  refine State.changes_have (t := s5) ((State.changes_countEng ..).after ((State.changes_countEng ..).after hs3)) fun hs5 => ?_
  refine State.changes_have (t := s6) (State.changes_ite hs5 ((State.changes_modTask ..).after hs5)) fun hs6 => ?_
  split
  · exact hs6
  · extract_lets s8 s9 s10
    refine State.changes_have (t := s8) (State.changes_ite ((State.changes_setFld ..).after hs6) ((State.changes_wr ..).after ((State.changes_setFld
        ..).after hs6))) fun hs8 => ?_
    refine State.changes_have (t := s10) ((State.changes_modTask ..).after ((State.changes_fault ..).after hs8)) fun hs10 => ?_
    exact (State.changes_tallyEvidence ..).after hs10

/-! Engine. -/

theorem State.changes_stage (t w) : Ex.all (s.changes [.regs, .ctrs, .rows, .tasks, .engs]) (s.stage t w) := by
  unfold State.stage
  extract_lets e1 src2
  split
  · exact Ex.all_error
  refine Ex.all_bind fun ⟨_, s1⟩ hu1 => ?_
  have h1 : s.changes [.regs, .ctrs, .rows, .tasks, .engs] s1 := (Ex.all_of hu1 (State.changes_readRows ..)).after .refl
  refine Ex.all_bind fun _ _ => Ex.all_bind fun _ _ => Ex.all_bind fun ⟨_, s2⟩ hu2 => ?_
  have h2 : s.changes [.regs, .ctrs, .rows, .tasks, .engs] s2 := (Ex.all_of hu2 (State.changes_readRows ..)).after h1
  refine Ex.all_ite (Ex.all_bind fun ⟨_, s3⟩ hu3 => ?_) (Ex.all_bind fun ⟨_, s3⟩ hu3 => ?_)
  · have h3 : s.changes [.regs, .ctrs, .rows, .tasks, .engs] s3 := (Ex.all_of hu3 (State.changes_readRows ..)).after h2
    have h4 {x} := (State.changes_setEng e1 x).after h3
    exact Ex.all_ite (Ex.all_ok h4) (Ex.all_ok ((State.changes_violateAll ..).after (State.changes_ite h4 (State.changes_ite
      ((State.changes_countEng ..).after h4) (State.changes_ite ((State.changes_countEng ..).after h4) h4)))))
  · obtain ⟨-, rfl⟩ := Prod.mk.inj (Except.ok.inj hu3)
    have h4 {x} := (State.changes_setEng e1 x).after h2
    exact Ex.all_ite (Ex.all_ok h4) (Ex.all_ok ((State.changes_violateAll ..).after (State.changes_ite h4 (State.changes_ite
      ((State.changes_countEng ..).after h4) (State.changes_ite ((State.changes_countEng ..).after h4) h4)))))

theorem State.changes_readSet (t base ns) : Ex.all (fun r0 : _ × State => s.changes [.rows, .tasks] r0.2) (s.readSet t base ns) := by
  unfold State.readSet
  exact Ex.all_bind fun _ _ => Ex.all_bind fun _ _ => Ex.all_bind fun ⟨_, _⟩ hu2 => Ex.all_ok ((Ex.all_of hu2 (State.changes_readRows ..)).after
      .refl)

theorem State.changes_plainRows (t w f lines fed) : Ex.all (fun r0 : _ × State => s.changes [.rows, .tasks] r0.2) (s.plainRows t w f lines fed) := by
  unfold State.plainRows
  extract_lets perTile1 need2
  refine Ex.all_bind fun ⟨_, _⟩ hu => ?_
  split
  · rename_i he1
    extract_lets x3
    refine Ex.all_ite ?_ ?_
    · refine Ex.all_bind fun ⟨_, _⟩ hu3 => ?_
      exact Ex.all_ok ((Ex.all_of hu3 (State.changes_readSet ..)).after (State.changes_snd (M := [.rows, .tasks]) he1 ((Ex.all_of hu
          (State.changes_readSet ..)).after .refl)))
    · refine Ex.all_bind fun ⟨_, _⟩ hu3 => ?_
      exact Ex.all_ok (Ex.all_of hu3 ((Ex.all_ok (State.changes_snd (M := [.rows, .tasks]) he1 ((Ex.all_of hu (State.changes_readSet ..)).after
          .refl))) : Ex.all (fun r0 : _ × State => s.changes [.rows, .tasks] r0.2) _))

theorem State.changes_readTiles (t w f a) : Ex.all (fun r0 : _ × State => s.changes [.rows, .tasks] r0.2) (s.readTiles t w f a) := by
  induction a generalizing s t w f with
  | nil =>
    exact Ex.all_ok .refl
  | cons x a ih =>
    unfold State.readTiles
    extract_lets base1
    refine Ex.all_bind fun ⟨_, _⟩ hu => ?_
    split
    · rename_i he1
      extract_lets h2 bad3
      refine Ex.all_bind fun ⟨_, _⟩ hu2 => ?_
      split
      · rename_i he3
        refine Ex.all_bind fun ⟨_, _⟩ hu4 => ?_
        exact Ex.all_ok ((Ex.all_of hu4 (ih ..)).after (State.changes_snd (M := [.rows, .tasks]) he3 ((Ex.all_of hu2 (State.changes_readSet ..)).after
            (State.changes_snd (M := [.rows, .tasks]) he1 ((Ex.all_of hu (State.changes_readSet ..)).after .refl)))))

def Writes.passDone : List Field := [.outbox, .regs, .ctrs, .window, .tasks, .engs, .cores, .mbxWaits, .evHead, .evLost, .evOver, .nv, .shape]

theorem State.changes_passDone (t w masked fedRows outs) : s.changes Writes.passDone (s.passDone t w masked fedRows outs) := by
  unfold State.passDone
  extract_lets e1 base2 add3 x4 x5 acc6 acc7 r8 s9 s10 tot11 s12 s13 s14 s15 s16 s17
  refine State.changes_have (t := s10) ((State.changes_addFlags ..).after ((State.changes_setEng ..).after .refl)) fun hs10 => ?_
  refine State.changes_have (t := s13) ((State.changes_countEng ..).after ((State.changes_countEng ..).after hs10)) fun hs13 => ?_
  refine State.changes_have (t := s15) ((State.changes_countEng ..).after ((State.changes_countEng ..).after hs13)) fun hs15 => ?_
  refine State.changes_have (t := s17) ((State.changes_countEng ..).after ((State.changes_countEng ..).after hs15)) fun hs17 => ?_
  exact (State.changes_tallied ..).after hs17

def Writes.tiledPass : List Field := [.outbox, .regs, .ctrs, .rows, .window, .tasks, .engs, .cores, .mbxWaits, .evHead, .evLost, .evOver, .nv,
  .shape]

theorem State.changes_tiledPass (t w f bf tally tol arrs conflict ups fed masked) : Ex.all (s.changes Writes.tiledPass) (s.tiledPass t w f bf tally
    tol arrs conflict ups fed masked) := by
  unfold State.tiledPass
  extract_lets e1 lines2 first3 hdr4 seg5 refuse6 more7 inTile8
  refine Ex.all_bind fun ⟨_, _⟩ hu => ?_
  split
  · rename_i he1
    extract_lets s9
    have hs9 : s.changes Writes.tiledPass s9 := State.changes_foldl (State.changes_snd (M := Writes.tiledPass) he1 ((Ex.all_of hu
        (State.changes_readTiles ..)).after .refl)) fun _ _ ht2 => State.changes_ite ((State.changes_violate ..).after ht2) ht2
    split
    · exact Ex.all_ok ((State.changes_passDone ..).after ((State.changes_violate ..).after hs9))
    · refine Ex.all_bind fun ⟨_, _⟩ hu3 => ?_
      split
      · rename_i he4
        extract_lets s10 tiles11 badLine12 sl13 s14 s15 short16 s17 segRow18 slices19 denseFed20 dense21 segd22
        have hs10 : s.changes Writes.tiledPass s10 := State.changes_foldl (State.changes_snd (M := Writes.tiledPass) he4 ((Ex.all_of hu3
            (State.changes_readTiles ..)).after hs9)) fun _ _ ht5 => State.changes_ite ((State.changes_violate ..).after ht5) ht5
        have hs14 : s.changes Writes.tiledPass s14 := State.changes_foldl hs10 fun _ _ ht5 => (State.changes_violateAll ..).after ht5
        have hs15 : s.changes Writes.tiledPass s15 := by
          unfold s15
          refine State.changes_foldl hs14 fun _ _ ht5 => ?_
          refine State.changes_ite ht5 ?_
          split
          · exact (State.changes_countEng ..).after ht5
          · exact (State.changes_countEng ..).after ht5
          · exact ht5
        have hs17 : s.changes Writes.tiledPass s17 := State.changes_foldl hs15 fun _ _ ht5 => (State.changes_violate ..).after ht5
        split
        · exact Ex.all_ok ((State.changes_passDone ..).after ((State.changes_violate ..).after hs10))
        · exact Ex.all_ok ((State.changes_passDone ..).after hs17)

theorem State.changes_runStream (t w ups) : Ex.all (s.changes Writes.tiledPass) (s.runStream t w ups) := by
  unfold State.runStream
  extract_lets e1
  split
  swap
  · exact Ex.all_ok .refl
  refine Ex.all_ite (Ex.all_bind fun ⟨_, s1⟩ hu1 => ?_) (Ex.all_bind fun ⟨_, s1⟩ hu1 => ?_)
  · have h1 : s.changes Writes.tiledPass s1 := (Ex.all_of hu1 (State.changes_readRows ..)).after .refl
    refine Ex.all_ite ((State.changes_tiledPass ..).imp fun _ k => k.after h1) (Ex.all_bind fun ⟨_, _⟩ hu2 => ?_)
    exact Ex.all_ok ((State.changes_passDone ..).after ((Ex.all_of hu2 (State.changes_plainRows ..)).after h1))
  · obtain ⟨-, rfl⟩ := Prod.mk.inj (Except.ok.inj hu1)
    refine Ex.all_ite ((State.changes_tiledPass ..).imp fun _ k => k.after .refl) (Ex.all_bind fun ⟨_, _⟩ hu2 => ?_)
    exact Ex.all_ok ((State.changes_passDone ..).after ((Ex.all_of hu2 (State.changes_plainRows ..)).after .refl))

theorem State.changes_packDrain (t f round skip a) : s.changes [.free, .regs, .ctrs, .tasks, .cores] (s.packDrain t f round skip a).2 := by
  induction a generalizing s t f round skip with
  | nil =>
    exact .refl
  | cons x a ih =>
    unfold State.packDrain
    refine State.changes_ite_snd ((ih ..).after .refl) ?_
    extract_lets vals1
    split
    · rename_i he1
      exact (ih ..).after ((State.changes_snd_snd he1 (State.changes_packFor ..)).after .refl)

def Writes.runDrain : List Field := [.free, .regs, .ctrs, .rows, .tasks, .engs, .cores]

theorem State.changes_runDrain (t w) : Ex.all (s.changes Writes.runDrain) (s.runDrain t w) := by
  unfold State.runDrain
  extract_lets e1 near2 ents3 get4 ls5 nf6 tmode7
  split
  · exact Ex.all_error
  · refine Ex.all_bind fun ⟨_, _⟩ hu1 => ?_
    split
    · rename_i he2
      split
      · extract_lets s8 x9
        have hs8 : s.changes Writes.runDrain s8 := (State.changes_addFlags ..).after (State.changes_snd (M := Writes.runDrain) he2 ((Ex.all_of hu1
            (State.changes_readRows ..)).after .refl))
        split
        · rename_i he4
          refine Ex.all_ite ?_ ?_
          · extract_lets rows10 tiles11 ws12
            refine Ex.all_bind fun _ _ => ?_
            refine Ex.all_bind fun _ _ => ?_
            refine Ex.all_bind fun _ _ => ?_
            refine Ex.all_bind fun _ hu9 => ?_
            refine Ex.all_bind fun _ hu10 => ?_
            extract_lets x13 acc14
            exact Ex.all_ok ((State.changes_setEng ..).after (Ex.all_of hu10 ((Ex.all_ok ((State.changes_countCore ..).after ((Ex.all_of hu9
                (State.changes_writeRows ..)).after ((State.changes_snd he4 (State.changes_packDrain ..)).after hs8)))) : Ex.all (s.changes
                Writes.runDrain) _)))
          · split
            · extract_lets ws10 sw11
              refine Ex.all_bind fun _ _ => ?_
              refine Ex.all_bind fun _ hu8 => ?_
              exact Ex.all_ok ((State.changes_setEng ..).after ((Ex.all_of hu8 (State.changes_writeRows ..)).after ((State.changes_snd he4
                  (State.changes_packDrain ..)).after hs8)))

def Writes.runEng : List Field := [.free, .outbox, .regs, .ctrs, .rows, .window, .tasks, .engs, .cores, .mbxWaits, .evHead, .evLost, .evOver, .nv,
  .shape]

theorem State.changes_runEng (t q) : Ex.all (s.changes Writes.runEng) (s.runEng t q) := by
  unfold State.runEng
  split
  · exact (State.changes_stage ..).imp fun _ k => k.after .refl
  · exact (State.changes_runStream ..).imp fun _ k => k.after .refl
  · exact (State.changes_runDrain ..).imp fun _ k => k.after .refl

theorem State.changes_engWait (e q rest r a) : s.changes [.regs, .ctrs, .tasks, .engs, .waits] (s.engWait e q rest r a) := by
  unfold State.engWait
  exact (State.changes_pause ..).after ((State.changes_waitOn ..).after ((State.changes_setEng ..).after .refl))

def Writes.runQueue : List Field := [.free, .outbox, .regs, .ctrs, .rows, .window, .tasks, .engs, .cores, .waits, .jobs, .mbxWaits, .evHead,
  .evLost, .evOver, .nv, .shape]

theorem State.changes_runQueue (e a) : s.changes Writes.runQueue (s.runQueue e a) := by
  induction a generalizing s e with
  | zero =>
    exact .refl
  | succ a ih =>
    unfold State.runQueue
    extract_lets x1
    split
    · exact .refl
    · refine State.changes_ite .refl ?_
      extract_lets s2
      split
      · exact (ih ..).after ((State.changes_setEng ..).after .refl)
      · split
        · rename_i he3
          exact (ih ..).after ((State.changes_unblock ..).after (Ex.all_of he3 ((State.all_under ((State.changes_setEng ..).after .refl) (fun
              _ ht3 => (State.changes_runEng ..).imp fun _ k => k.after ht3) (by decide +kernel)) : Ex.all (s.changes Writes.runQueue) _)))
        · exact (State.changes_engWait ..).after .refl
        · exact (ih ..).after ((State.changes_failCmd ..).after ((State.changes_poisonRead ..).after ((State.changes_setEng ..).after .refl)))
        · exact (ih ..).after ((State.changes_failCmd ..).after ((State.changes_setEng ..).after .refl))
        · exact .refl

theorem State.changes_runEngine (e) : s.changes Writes.runQueue (s.runEngine e) := by
  unfold State.runEngine
  exact (State.changes_syncUnits ..).after ((State.changes_runQueue ..).after .refl)

theorem State.changes_engIssue (t q) : Ex.all (s.changes Writes.runQueue) (s.engIssue t q) := by
  unfold State.engIssue
  exact Ex.all_bind fun _ hu => Ex.all_ok ((State.changes_runEngine ..).after ((State.changes_setEng ..).after ((Ex.all_of hu (State.changes_acquire
      ..)).after .refl)))

def Writes.execEng : List Field := [.free, .outbox, .regs, .ctrs, .rows, .window, .tasks, .engs, .cores, .chans, .waits, .jobs, .mbxWaits,
  .evHead, .evLost, .evOver, .nv, .shape]

theorem changes_execEng {op core ups checks} (hk : ∀ t w, Ex.all (s.changes M) (checks s t w)) (hM : Field.within Writes.execEng M := by
    decide +kernel) :
    Res.all (s.changes M) (execEng op core ups s checks) := by
  refine changes_issueRun (fun t q => Run.all_whole .refl (Ex.all_bind fun _ hu => ?_)) (Field.within_trans hM)
  exact (State.changes_engIssue ..).imp fun _ k => k.after ((hk _ _).at hu) (Field.within_trans hM)

theorem changes_execMeLoad (core) : Res.all (s.changes Writes.execEng) (execMeLoad core s) := by
  unfold execMeLoad
  exact changes_execEng fun _ _ => Ex.all_map fun _ _ => .refl

theorem State.changes_streamReady (t w) : Ex.all (s.changes [.regs, .engs]) (s.streamReady t w) := by
  unfold State.streamReady
  exact Ex.all_bind fun _ _ => Ex.all_bind fun _ hu1 => Ex.all_bind fun _ _ => Ex.all_ok ((Ex.all_of hu1 (State.changes_acquire ..)).after .refl)

theorem changes_execMeStream (core upsets) : Res.all (s.changes Writes.execEng) (execMeStream core upsets s) := by
  unfold execMeStream
  exact changes_execEng fun _ _ => (State.changes_streamReady ..).imp fun _ k => k.after .refl

theorem State.changes_ownEnc (t) : Ex.all (s.changes [.cores]) (s.ownEnc t) := by
  unfold State.ownEnc
  exact Ex.all_bind fun _ _ => Ex.all_ok ((State.changes_setCore ..).after .refl)

theorem State.changes_drainReady (t w) : Ex.all (s.changes [.regs, .engs, .cores]) (s.drainReady t w) := by
  unfold State.drainReady
  refine Ex.all_bind fun _ _ => ?_
  refine Ex.all_bind fun _ hu1 => ?_
  refine Ex.all_ite ((State.changes_ownEnc ..).imp fun _ k => k.after ((Ex.all_of hu1 (State.changes_acquire ..)).after .refl)) ?_
  exact Ex.all_ok ((Ex.all_of hu1 (State.changes_acquire ..)).after .refl)

theorem changes_execMeDrain (core) : Res.all (s.changes Writes.execEng) (execMeDrain core s) := by
  unfold execMeDrain
  exact changes_execEng fun _ _ => (State.changes_drainReady ..).imp fun _ k => k.after .refl

theorem State.changes_shiftIn (e) : s.changes Writes.runQueue (s.shiftIn e) := by
  unfold State.shiftIn
  extract_lets x1
  split
  · exact .refl
  · exact (State.changes_runEngine ..).after ((State.changes_countEng ..).after ((State.changes_setEng ..).after .refl))

theorem changes_execStationaryShiftIn (core eng) : Res.all (s.changes Writes.runQueue) (execStationaryShiftIn core eng s) := by
  unfold execStationaryShiftIn
  exact Res.all_unitOk (Res.all_need .refl (Res.all_next ((State.changes_shiftIn ..).after .refl)))

theorem State.changes_freeEng (e) : s.changes [.engs] (s.freeEng e) := by
  unfold State.freeEng
  split
  · exact (State.changes_setEng ..).after .refl
  · exact .refl

theorem State.changes_releaseUnit (c u) : s.changes [.regs, .ctrs, .tasks, .engs, .cores, .waits] (s.releaseUnit c u) := by
  unfold State.releaseUnit
  extract_lets x1 s2
  refine State.changes_have (t := s2) ?_ fun hs2 => ?_
  · unfold s2
    split
    · exact (State.changes_freeEng ..).after .refl
    · exact (State.changes_freeEng ..).after .refl
    · exact (State.changes_setCore ..).after .refl
    · exact (State.changes_setCore ..).after .refl
  exact (State.changes_wakeUnits ..).after ((State.changes_syncUnits ..).after hs2)

theorem changes_execEngineRelease (core u) : Res.all (s.changes [.regs, .ctrs, .tasks, .engs, .cores, .waits]) (execEngineRelease core u s) := by
  unfold execEngineRelease
  exact Res.all_unitOk (Res.all_need .refl (Res.all_next ((State.changes_releaseUnit ..).after .refl)))

/-! Vector. -/

theorem State.changes_setLine (id i r) : s.changes [.tasks] (s.setLine id i r) := by
  unfold State.setLine
  exact (State.changes_modTask ..).after .refl

theorem State.changes_setScalar (id i v) : s.changes [.tasks] (s.setScalar id i v) := by
  unfold State.setScalar
  exact (State.changes_modTask ..).after .refl

theorem State.changes_vuLd (t w) : Ex.all (s.changes [.regs, .rows, .tasks]) (s.vuLd t w) := by
  unfold State.vuLd
  split
  · exact (State.all_badFmt ..)
  · extract_lets n1
    refine Ex.all_bind fun _ _ => ?_
    refine Ex.all_bind fun ⟨_, _⟩ hu2 => ?_
    split
    · rename_i he3
      extract_lets x2
      refine Ex.all_ite ?_ ?_
      · refine Ex.all_bind fun ⟨_, _⟩ hu5 => ?_
        exact Ex.all_ok ((State.changes_addFlags ..).after ((State.changes_setLine ..).after ((Ex.all_of hu5 (State.changes_readRows ..)).after
            (State.changes_snd (M := [.regs, .rows, .tasks]) he3 ((Ex.all_of hu2 (State.changes_readRow ..)).after .refl)))))
      · refine Ex.all_bind fun ⟨_, _⟩ hu5 => ?_
        exact Ex.all_ok ((State.changes_addFlags ..).after ((State.changes_setLine ..).after (Ex.all_of hu5 ((Ex.all_ok (State.changes_snd (M :=
            [.regs, .rows, .tasks]) he3 ((Ex.all_of hu2 (State.changes_readRow ..)).after .refl))) : Ex.all (fun r0 : _ × State => s.changes [.regs,
            .rows, .tasks] r0.2) _))))

theorem changes_execVuLd (core) : Res.all (s.changes Writes.settle) (execVuLd core s) := by
  unfold execVuLd
  exact changes_issue fun _ _ => (State.changes_vuLd ..).imp fun _ k => k.after .refl

theorem State.changes_vuSt (t w) : Ex.all (s.changes [.free, .regs, .ctrs, .rows, .tasks, .cores]) (s.vuSt t w) := by
  unfold State.vuSt
  split
  · exact (State.all_badFmt ..)
  · extract_lets n1 a2 sd3 near4 group5 vals6
    refine Ex.all_bind fun _ _ => ?_
    refine Ex.all_bind fun _ _ => ?_
    refine Ex.all_bind fun _ _ => ?_
    split
    · rename_i he4
      extract_lets s7 asm8 whole9
      have hs7 : s.changes [.free, .regs, .ctrs, .rows, .tasks, .cores] s7 := (State.changes_addFlags ..).after ((State.changes_snd_snd he4
          (State.changes_packFor ..)).after .refl)
      refine Ex.all_ite ((State.changes_writeRow ..).imp fun _ k => k.after hs7) ?_
      refine Ex.all_ite (Ex.all_bind fun _ _ => Ex.all_bind fun _ hu8 => Ex.all_ok ((State.changes_modTask ..).after ((Ex.all_of hu8
          (State.changes_writeRows ..)).after hs7))) ?_
      exact Ex.all_bind fun _ hu7 => Ex.all_ok ((State.changes_modTask ..).after ((Ex.all_of hu7 (State.changes_writeRow ..)).after hs7))

def Writes.execVuSt : List Field := [.free, .outbox, .regs, .ctrs, .rows, .window, .tasks, .cores, .chans, .waits, .jobs, .mbxWaits, .evHead,
  .evLost, .evOver]

theorem changes_execVuSt (core) : Res.all (s.changes Writes.execVuSt) (execVuSt core s) := by
  unfold execVuSt
  exact changes_issue fun _ _ => (State.changes_vuSt ..).imp fun _ k => k.after .refl

theorem State.changes_vuLanes (t w lanes) : Ex.all (fun r0 : _ × _ × State => s.changes [.free, .ctrs, .cores] r0.2.2) (s.vuLanes t w lanes) := by
  unfold State.vuLanes
  extract_lets k1 a2 b3 c4 rs5
  refine Ex.all_ite ?_ (Ex.all_ok .refl)
  split
  · exact Ex.all_error
  · split
    · rename_i he2
      exact Ex.all_ok ((State.changes_snd he2 (State.changes_roundings ..)).after .refl)

theorem State.changes_vuOp (t w) : Ex.all (s.changes [.free, .regs, .ctrs, .tasks, .cores]) (s.vuOp t w) := by
  unfold State.vuOp
  extract_lets k1 d2 lanes3 s4 x5 x6
  have hs4 : s.changes [.free, .regs, .ctrs, .tasks, .cores] s4 := State.changes_ite .refl ((State.changes_countCore ..).after .refl)
  refine Ex.all_bind fun _ _ => ?_
  refine Ex.all_ite (Ex.all_ok ((State.changes_addFlags ..).after ((State.changes_setScalar ..).after hs4))) ?_
  refine Ex.all_ite (Ex.all_ok ((State.changes_addFlags ..).after ((State.changes_setLine ..).after hs4))) ?_
  refine Ex.all_bind fun ⟨_, _, _⟩ hu3 => ?_
  split
  · rename_i he4
    extract_lets s7
    have hs7 : s.changes [.free, .regs, .ctrs, .tasks, .cores] s7 := by
      unfold s7
      refine State.changes_ite ?_ ?_
      · exact (State.changes_setScalar ..).after (State.changes_snd_snd (M := [.free, .regs, .ctrs, .tasks, .cores]) he4 ((Ex.all_of hu3
            (State.changes_vuLanes ..)).after hs4))
      · exact (State.changes_setLine ..).after (State.changes_snd_snd (M := [.free, .regs, .ctrs, .tasks, .cores]) he4 ((Ex.all_of hu3
            (State.changes_vuLanes ..)).after hs4))
    exact Ex.all_ok ((State.changes_addFlags ..).after hs7)

theorem changes_execVuOp (core) : Res.all (s.changes Writes.execVuSt) (execVuOp core s) := by
  unfold execVuOp
  exact changes_issue fun _ _ => (State.changes_vuOp ..).imp fun _ k => k.after .refl

theorem State.changes_vuTx (t w) : Ex.all (s.changes [.regs, .ctrs, .tasks]) (s.vuTx t w) := by
  unfold State.vuTx
  extract_lets fn1 d2 a3 fast4 xs5 rs6
  refine Ex.all_bind fun _ _ => ?_
  refine Ex.all_ite (Ex.all_ok ((State.changes_addFlags ..).after ((State.changes_setScalar ..).after .refl))) ?_
  exact Ex.all_ok ((State.changes_addFlags ..).after ((State.changes_setLine ..).after ((State.changes_countCore ..).after .refl)))

theorem changes_execVuTx (core) : Res.all (s.changes Writes.settle) (execVuTx core s) := by
  unfold execVuTx
  exact changes_issue fun _ _ => (State.changes_vuTx ..).imp fun _ k => k.after .refl

theorem State.changes_vuReduce (t w) : Ex.all (s.changes [.regs, .ctrs, .rows, .tasks]) (s.vuReduce t w) := by
  unfold State.vuReduce
  split
  · exact (State.all_badFmt ..)
  · extract_lets rop1 d2 n3 lineB4 prior5
    split
    · refine Ex.all_bind fun _ _ => ?_
      refine Ex.all_bind fun ⟨_, _⟩ hu3 => ?_
      split
      · rename_i he4
        refine Ex.all_bind fun ⟨_, _⟩ hu5 => ?_
        exact Ex.all_ok ((State.changes_addFlags ..).after ((State.changes_setScalar ..).after ((State.changes_countCore ..).after ((Ex.all_of hu5
            (State.changes_readRows ..)).after (State.changes_snd (M := [.regs, .ctrs, .rows, .tasks]) he4 ((Ex.all_of hu3 (State.changes_readRows
            ..)).after .refl))))))

theorem changes_execVuReduce (core) : Res.all (s.changes Writes.settle) (execVuReduce core s) := by
  unfold execVuReduce
  exact changes_issue fun _ _ => (State.changes_vuReduce ..).imp fun _ k => k.after .refl

theorem State.changes_vuTapld (t w) : Ex.all (s.changes [.tasks]) (s.vuTapld t w) := by
  unfold State.vuTapld
  exact Ex.all_bind fun _ _ => Ex.all_ite Ex.all_error (Ex.all_ok ((State.changes_setLine ..).after .refl))

theorem changes_execVuTapld (core) : Res.all (s.changes Writes.settle) (execVuTapld core s) := by
  unfold execVuTapld
  exact changes_issue fun _ _ => (State.changes_vuTapld ..).imp fun _ k => k.after .refl

theorem State.changes_nbwdPack (t f round base a) : s.changes [.free, .regs, .ctrs, .tasks, .cores] (s.nbwdPack t f round base a).2 := by
  induction a generalizing s t f round base with
  | nil =>
    exact .refl
  | cons x a ih =>
    unfold State.nbwdPack
    extract_lets rows1
    split
    · rename_i he
      have hhe := State.changes_snd (M := [.free, .regs, .ctrs, .tasks, .cores]) (s := s) he (by
        refine State.changes_foldl_snd .refl fun _ _ ht => ?_
        split
        · rename_i he1
          exact (State.changes_snd_snd he1 (State.changes_packFor ..)).after ht)
      exact (ih ..).after hhe

theorem State.changes_vuNbwd (t w) : Ex.all (s.changes [.free, .regs, .ctrs, .rows, .tasks, .cores]) (s.vuNbwd t w) := by
  unfold State.vuNbwd
  split
  · extract_lets mode1 nrows2
    refine Ex.all_bind fun ⟨_, _⟩ hu1 => ?_
    split
    · rename_i he2
      extract_lets res3 s4
      have hs4 : s.changes [.free, .regs, .ctrs, .rows, .tasks, .cores] s4 := (State.changes_addFlags ..).after (State.changes_snd (M := [.free,
          .regs, .ctrs, .rows, .tasks, .cores]) he2 ((Ex.all_of hu1 (State.changes_readRows ..)).after .refl))
      split
      · rename_i he3
        refine Ex.all_bind fun _ hu4 => ?_
        extract_lets s5 k6 s7
        have hs5 : s.changes [.free, .regs, .ctrs, .rows, .tasks, .cores] s5 := by
          unfold s5
          refine State.changes_ite ?_ ?_
          · exact (Ex.all_of hu4 (State.changes_writeRows ..)).after ((State.changes_snd he3 (State.changes_nbwdPack ..)).after hs4)
          · exact (State.changes_setLine ..).after ((Ex.all_of hu4 (State.changes_writeRows ..)).after ((State.changes_snd he3 (State.changes_nbwdPack
                ..)).after hs4))
        exact Ex.all_ok ((State.changes_syncUnits ..).after ((State.changes_countCore ..).after ((State.changes_setCore ..).after hs5)))
  · exact Ex.all_error

theorem State.changes_bufQueue (t w) : s.changes [.cores] (s.bufQueue t w) := by
  unfold State.bufQueue
  exact State.changes_ite .refl ((State.changes_setCore ..).after .refl)

theorem State.changes_nbwdRun (t w) : Run.all (s.changes [.free, .regs, .ctrs, .rows, .tasks, .cores]) (s.nbwdRun t w) := by
  unfold State.nbwdRun
  split
  · exact Run.all_stop .refl
  · refine Run.all_ite (Run.all_stop ((State.changes_bufQueue ..).after .refl)) ?_
    extract_lets x1 s2 x3
    have hs2 : s.changes [.free, .regs, .ctrs, .rows, .tasks, .cores] s2 := (State.changes_syncUnits ..).after ((State.changes_setCore ..).after
        .refl)
    split
    · rename_i he2
      exact Run.all_done ((Ex.all_of he2 (State.changes_vuNbwd ..)).after hs2)
    · exact Run.all_stop ((State.changes_syncUnits ..).after ((State.changes_setCore ..).after hs2))

theorem State.changes_finishVu (ids) : s.changes [.regs, .ctrs, .tasks] (s.finishVu ids) := by
  unfold State.finishVu
  refine State.changes_foldl .refl fun _ _ ht => ?_
  split
  · exact ht
  · split
    · exact ht
    · refine State.changes_ite ht ?_
      split
      · exact (State.changes_countCore ..).after ((State.changes_addFlags ..).after ht)
      · exact ht

theorem changes_execVuNbwd (core) : Res.all (s.changes Writes.execVuSt) (execVuNbwd core s) := by
  unfold execVuNbwd
  exact changes_issueRun fun _ _ => (State.changes_nbwdRun ..).imp fun _ k => k.after .refl

theorem State.changes_bufGrant (c) : s.changes [.regs, .ctrs, .tasks, .cores, .waits] (s.bufGrant c) := by
  unfold State.bufGrant
  extract_lets k1
  split
  · exact .refl
  · exact (State.changes_unblock ..).after ((State.changes_syncUnits ..).after ((State.changes_setCore ..).after .refl))

theorem changes_execRowBufferGrant (core) : Res.all (s.changes [.regs, .ctrs, .tasks, .cores, .waits]) (execRowBufferGrant core s) := by
  unfold execRowBufferGrant
  exact Res.all_unitOk (Res.all_need .refl (Res.all_next ((State.changes_bufGrant ..).after .refl)))

/-! CoreMisc. -/

theorem State.changes_putMask (t dst row n bs) : Ex.all (fun r0 : State × _ => s.changes [.rows, .tasks] r0.1) (s.putMask t dst row n bs) := by
  unfold State.putMask
  exact Ex.all_map fun _ hu => (Ex.all_of hu (State.changes_writeRow ..)).after .refl

theorem State.changes_ccRow (t w f p) : Ex.all (fun r0 : State × _ => s.changes [.regs, .ctrs, .rows, .tasks] r0.1) (s.ccRow t w f p) := by
  unfold State.ccRow
  extract_lets rows1 v2 done3
  refine Ex.all_ite (Ex.all_map fun ⟨_, _⟩ hu1 => (Ex.all_of hu1 (State.changes_putMask ..)).after .refl) ?_
  refine Ex.all_bind fun ⟨_, _⟩ hu1 => ?_
  split
  · rename_i he2
    extract_lets bs4 s5 s6 p7
    have hs5 : s.changes [.regs, .ctrs, .rows, .tasks] s5 := (State.changes_addFlags ..).after (State.changes_snd (M := [.regs, .ctrs, .rows, .tasks])
        he2 ((Ex.all_of hu1 (State.changes_readRow ..)).after .refl))
    refine Ex.all_ite (Ex.all_map fun ⟨_, _⟩ hu4 => (Ex.all_of hu4 (State.changes_putMask ..)).after ((State.changes_countCore ..).after hs5)) ?_
    exact Ex.all_ok ((State.changes_countCore ..).after hs5)

theorem State.changes_ccCount (t q) : Run.all (s.changes [.regs, .ctrs, .rows, .tasks]) (s.ccCount t q) := by
  unfold State.ccCount
  extract_lets w1
  split
  · exact Run.all_checked .refl (Run.all_done .refl)
  · exact Run.all_checked .refl (Run.all_rows .refl (fun _ _ ht1 => (State.changes_ccRow ..).imp fun _ k => k.after ht1)
        fun _ _ ht1 => (State.changes_setScalar ..).after ht1)

theorem changes_execCcCount (core) : Res.all (s.changes Writes.settle) (execCcCount core s) := by
  unfold execCcCount
  exact changes_issueRun fun _ _ => (State.changes_ccCount ..).imp fun _ k => k.after .refl

theorem State.changes_cacheSkip (cl key) : s.changes [.clus] (s.cacheSkip cl key) := by
  unfold State.cacheSkip
  exact (State.changes_setCl ..).after .refl

theorem State.changes_cacheLook (cl key worn) : s.changes [.ctrs, .clus] (s.cacheLook cl key worn).2 := by
  unfold State.cacheLook
  extract_lets k1 ls2
  split
  · exact .refl
  · exact State.changes_ite_snd ((State.changes_count ..).after ((State.changes_cacheSkip ..).after .refl)) ((State.changes_setCl ..).after .refl)

theorem State.changes_cacheFill (cl key r) : s.changes [.clus] (s.cacheFill cl key r) := by
  unfold State.cacheFill
  exact (State.changes_setCl ..).after .refl

theorem State.changes_cacheDrop (cl) : s.changes [.cores, .clus] (s.cacheDrop cl) := by
  unfold State.cacheDrop
  exact State.changes_foldl ((State.changes_setCl ..).after .refl) fun _ _ ht => (State.changes_setCore ..).after ht

theorem changes_execCcInvalidate (cl) : Res.all (s.changes [.regs, .cores, .clus]) (execCcInvalidate cl s) := by
  unfold execCcInvalidate
  exact Res.all_unitOk (Res.all_need .refl (Res.all_next ((State.changes_setFld ..).after ((State.changes_cacheDrop ..).after .refl))))

theorem State.changes_tabFault (t a) : Opt.all (fun r0 : _ × State => s.changes Writes.post r0.2) (s.tabFault t a) := by
  unfold State.tabFault
  split
  · exact Opt.all_some .refl
  · exact Opt.all_some ((State.changes_pageFault ..).after .refl)
  · exact Opt.all_some ((State.changes_classRefused ..).after .refl)
  · exact Opt.all_none

def Writes.gatherRow : List Field := [.outbox, .regs, .ctrs, .rows, .window, .tasks, .clus, .mbxWaits, .evHead, .evLost, .evOver]

theorem State.changes_gatherRow (t w q given worn) : Ex.all (GaStep.all (s.changes Writes.gatherRow)) (s.gatherRow t w q given worn) := by
  unfold State.gatherRow
  extract_lets span1 dst2 k3
  refine Ex.all_bind fun ⟨_, s1⟩ hu1 => ?_
  have h1 : s.changes Writes.gatherRow s1 := (Ex.all_of hu1 (State.changes_readRow ..)).after .refl
  refine Ex.all_ite (Ex.all_bind fun _ hu => Ex.all_ok (GaStep.all_row ?_)) ?_
  · have h2 := (Ex.all_of hu (State.changes_writeRow ..)).after h1
    exact State.changes_ite ((State.changes_countCore ..).after ((State.changes_modTask ..).after h2)) h2
  -- the row of the touch map, then the table row
  have rest : ∀ s2, s.changes Writes.gatherRow s2 → Ex.all (GaStep.all (s.changes Writes.gatherRow)) (k3 s2) := by
    intro s2 h2
    unfold k3
    extract_lets no tr
    split
    · rename_i he
      exact Ex.all_ok (GaStep.all_fault ((Opt.all_of he (State.changes_tabFault ..)).after h2))
    split
    · exact Ex.all_map fun _ hu => GaStep.all_row ((State.changes_countCore ..).after ((Ex.all_of hu (State.changes_writeRow ..)).after h2))
    split
    · exact Ex.all_ok (GaStep.all_miss ((State.changes_cacheLook ..).after .refl))
    · rename_i he
      exact Ex.all_map fun _ hu => GaStep.all_row ((State.changes_countCore ..).after ((State.changes_count ..).after
        ((Ex.all_of hu (State.changes_writeRow ..)).after ((State.changes_snd he (State.changes_cacheLook ..)).after h2))))
  refine Ex.all_ite ?_ (Ex.all_bind fun s2 hu => ?_)
  · exact Ex.all_bind fun _ _ => Ex.all_bind fun _ _ => Ex.all_bind fun _ _ => Ex.all_bind fun _ hu =>
      rest _ ((Ex.all_of hu (State.changes_writeRow ..)).after h1)
  · obtain rfl := Except.ok.inj hu
    exact rest _ h1

theorem State.changes_setCtx (core ctx g) : s.changes [.cores] (s.setCtx core ctx g) := by
  unfold State.setCtx
  exact (State.changes_setCore ..).after .refl

theorem State.changes_grantFills (cl) : s.changes [.cores] (s.grantFills cl) := by
  unfold State.grantFills
  exact State.changes_foldl .refl fun _ _ ht => (State.changes_setCtx ..).after ht

theorem State.changes_endGather (core ctx id) : s.changes [.regs, .ctrs, .tasks, .cores, .waits] (s.endGather core ctx id) := by
  unfold State.endGather
  exact (State.changes_wakeUnits ..).after ((State.changes_unblock ..).after ((State.changes_grantFills ..).after ((State.changes_setCore ..).after
      .refl)))

def Writes.runGather : List Field := [.outbox, .regs, .ctrs, .rows, .window, .tasks, .cores, .clus, .waits, .jobs, .mbxWaits, .evHead, .evLost,
  .evOver]

theorem State.changes_runGather (core ctx worn a) : s.changes Writes.runGather (s.runGather core ctx worn a) := by
  induction a generalizing s core ctx worn with
  | zero =>
    exact .refl
  | succ a ih =>
    unfold State.runGather
    split
    · exact .refl
    · extract_lets q1
      split
      · exact (State.changes_endGather ..).after .refl
      · refine State.changes_ite ((State.changes_endGather ..).after .refl) ?_
        split
        · rename_i he3
          exact (ih ..).after ((State.changes_setCtx ..).after ((State.changes_leave ..).after ((Ex.all_of he3 (State.changes_gatherRow ..)).after
              ((State.changes_enter ..).after .refl))))
        · rename_i he3
          extract_lets s2
          refine State.changes_have (t := s2) ((State.changes_countCore ..).after ((State.changes_count ..).after ((State.changes_leave ..).after
              ((Ex.all_of he3 (State.changes_gatherRow ..)).after ((State.changes_enter ..).after .refl))))) fun hs2 => ?_
          exact (State.changes_grantFills ..).after ((State.changes_setCtx ..).after hs2)
        · rename_i he3
          exact (State.changes_endGather ..).after ((State.changes_failCmd ..).after ((State.changes_leave ..).after ((Ex.all_of he3
              (State.changes_gatherRow ..)).after ((State.changes_enter ..).after .refl))))
        · exact (State.changes_pause ..).after ((State.changes_waitOn ..).after ((State.changes_setCtx ..).after .refl))
        · exact (State.changes_endGather ..).after ((State.changes_failCmd ..).after ((State.changes_poisonRead ..).after .refl))
        · exact (State.changes_endGather ..).after ((State.changes_failCmd ..).after .refl)
        · exact .refl

theorem State.changes_gaGather (t q worn) : Ex.all (s.changes Writes.runGather) (s.gaGather t q worn) := by
  unfold State.gaGather
  extract_lets w1 n2
  refine Ex.all_bind fun _ _ => ?_
  split
  · exact Ex.all_error
  · exact Ex.all_ok ((State.changes_runGather ..).after ((State.changes_setCtx ..).after .refl))

def Writes.execGaGather : List Field := [.outbox, .regs, .ctrs, .rows, .window, .tasks, .cores, .clus, .chans, .waits, .jobs, .mbxWaits, .evHead,
  .evLost, .evOver]

theorem changes_execGaGather (x) : Res.all (s.changes Writes.execGaGather) (execGaGather x s) := by
  unfold execGaGather
  exact changes_issueRun fun _ _ => Run.all_whole .refl ((State.changes_gaGather ..).imp fun _ k => k.after .refl)

theorem State.changes_fillLands (core ctx g cl key d worn) : s.changes Writes.runGather (s.fillLands core ctx g cl key d worn) := by
  unfold State.fillLands
  extract_lets s1
  refine State.changes_have (t := s1) ((State.changes_grantFills ..).after ((State.changes_setCtx ..).after .refl)) fun hs1 => ?_
  exact (State.changes_runGather ..).after (State.changes_ite ((State.changes_cacheFill ..).after hs1) hs1)

def Writes.fillDone : List Field := [.outbox, .regs, .ctrs, .rows, .lpddr, .checks, .window, .ceRows, .copying, .tasks, .cores, .clus, .waits,
  .jobs, .mbxWaits, .evHead, .evLost, .evOver, .nv, .shape]

theorem State.changes_fillDone (core ctx worn) : Opt.all (s.changes Writes.fillDone) (s.fillDone core ctx worn) := by
  unfold State.fillDone
  refine Opt.all_bind fun _ _ => ?_
  refine Opt.all_bind fun _ _ => ?_
  refine Opt.all_bind fun _ _ => ?_
  refine Opt.all_ite Opt.all_none ?_
  extract_lets q1 x2
  split
  · split
    · exact Opt.all_some ((State.changes_endGather ..).after ((State.changes_failCmd ..).after ((State.changes_poisonRead ..).after .refl)))
    · exact Opt.all_none
    · exact Opt.all_ite (Opt.all_some ((State.changes_fillLands ..).after .refl)) Opt.all_none
  · extract_lets s3 x4
    refine Opt.all_ite Opt.all_none ?_
    refine Opt.all_ite (Opt.all_some ((State.changes_endGather ..).after ((State.changes_failCmd ..).after ((State.changes_lpMeet ..).after .refl))))
        ?_
    exact Opt.all_some ((State.changes_fillLands ..).after ((State.changes_lpMeet ..).after .refl))
  · exact Opt.all_map fun ⟨_, _⟩ hu5 => (State.changes_endGather ..).after ((State.changes_failCmd ..).after ((Opt.all_of hu5 (State.changes_tabFault
        ..)).after .refl))

theorem changes_execCacheFillComplete (core x) : Res.all (s.changes Writes.fillDone) (execCacheFillComplete core x s) := by
  unfold execCacheFillComplete
  refine Res.all_unitOk ?_
  split
  · rename_i he
    exact Res.all_next ((Opt.all_of he (State.changes_fillDone ..)).after .refl)
  · exact Res.all_next .refl

def Writes.rngFail : List Field := [.outbox, .regs, .ctrs, .window, .cores, .grng, .mbxWaits, .evHead, .evLost, .evOver]

theorem State.changes_rngFail (u) : s.changes Writes.rngFail (s.rngFail u) := by
  unfold State.rngFail
  split
  · exact (State.changes_fault ..).after ((State.changes_setCore ..).after ((State.changes_setFld ..).after ((State.changes_setFld ..).after
        (State.changes_ite .refl ((State.changes_setFld ..).after .refl)))))
  · exact (State.changes_fault ..).after ((State.changes_set_grng ..).after .refl)

theorem changes_execRngHealthFail (u) : Res.all (s.changes Writes.rngFail) (execRngHealthFail u s) := by
  unfold execRngHealthFail
  exact Res.all_unitOk (Res.all_next ((State.changes_rngFail ..).after .refl))

theorem State.changes_rngExit (u) : s.changes [.regs, .grng] (s.rngExit u) := by
  unfold State.rngExit
  split
  · exact (State.changes_setFld ..).after .refl
  · exact (State.changes_set_grng ..).after .refl

theorem changes_execRngFallbackExit (u) : Res.all (s.changes [.regs, .grng]) (execRngFallbackExit u s) := by
  unfold execRngFallbackExit
  exact Res.all_unitOk (Res.all_need .refl (Res.all_next ((State.changes_rngExit ..).after .refl)))

theorem State.changes_patrolled (cl found missed) : s.changes Writes.rowError (s.patrolled cl found missed) := by
  unfold State.patrolled
  extract_lets rows1 n2 left3 s4 s5 x6 s7
  refine State.changes_have (t := s4) (State.changes_foldl .refl fun _ _ ht => State.changes_ite ((State.changes_rowError ..).after ht) ht)
      fun hs4 => ?_
  refine State.changes_have (t := s5) (State.changes_foldl hs4 fun _ _ ht => (State.changes_setCore ..).after ht) fun hs5 => ?_
  exact State.changes_ite ((State.changes_count ..).after ((State.changes_setCl ..).after hs5)) ((State.changes_setCl ..).after hs5)

theorem changes_execPatrolScrub (cl x) : Res.all (s.changes Writes.rowError) (execPatrolScrub cl x s) := by
  unfold execPatrolScrub
  exact Res.all_unitOk (Res.all_need .refl (Res.all_next ((State.changes_patrolled ..).after .refl)))

/-! LinkBase. -/

theorem State.changes_hatchSetAt (g n lo len v) : s.changes [.regs, .shadow] (s.hatchSetAt g n lo len v) := by
  unfold State.hatchSetAt
  exact (State.changes_setBoth ..).after .refl

theorem State.changes_hatchSet (n lo len v) : s.changes [.regs, .shadow] (s.hatchSet n lo len v) := by
  unfold State.hatchSet
  exact State.changes_foldl .refl fun _ _ ht => (State.changes_hatchSetAt ..).after ht

theorem State.changes_sendWire (p f) : s.changes [.outbox] (s.sendWire p f) := by
  unfold State.sendWire
  exact (State.changes_emit ..).after .refl

theorem State.changes_sendControl (p h) : s.changes [.outbox, .ports] (s.sendControl p h) := by
  unfold State.sendControl
  exact (State.changes_setPort_rx (by rfl)).after ((State.changes_sendWire ..).after .refl)

theorem State.changes_closeSegment (p) : s.changes [.outbox, .ports] (s.closeSegment p) := by
  unfold State.closeSegment
  exact State.changes_ite .refl ((State.changes_setPort_rx (by rfl)).after ((State.changes_sendWire ..).after .refl))

theorem State.changes_sendNow (p f) : s.changes [.outbox, .ctrs, .ports] (s.sendNow p f) := by
  unfold State.sendNow
  extract_lets x1 enc2 w3 seg4 s5 s6
  refine State.changes_have (t := s5) ((State.changes_setPort_rx (by rfl)).after ((State.changes_sendWire ..).after .refl)) fun hs5 => ?_
  refine State.changes_ite ?_ ?_
  · exact State.changes_ite ((State.changes_closeSegment ..).after ((State.changes_count ..).after hs5)) ((State.changes_count ..).after hs5)
  · exact State.changes_ite ((State.changes_sendControl ..).after ((State.changes_count ..).after hs5)) ((State.changes_count ..).after hs5)

theorem State.changes_sendFrame (p f) : s.changes [.outbox, .ctrs, .ports, .loop] (s.sendFrame p f) := by
  unfold State.sendFrame
  refine State.changes_ite ?_ ?_
  · exact (State.changes_set_loop ..).after .refl
  · exact State.changes_ite .refl (State.changes_ite ((State.changes_setPort_rx (by rfl)).after .refl) ((State.changes_sendNow ..).after .refl))

theorem State.changes_drainPort (p a) : s.changes [.outbox, .ctrs, .ports] (s.drainPort p a) := by
  induction a generalizing s p with
  | zero =>
    exact .refl
  | succ a ih =>
    unfold State.drainPort
    extract_lets x1
    split
    · exact .refl
    · exact State.changes_ite .refl ((ih ..).after ((State.changes_sendNow ..).after ((State.changes_setPort_rx (by rfl)).after .refl)))

theorem State.changes_syncGate (g) : s.changes [.regs] (s.syncGate g) := by
  unfold State.syncGate
  exact (State.changes_setFld ..).after ((State.changes_setFld ..).after .refl)

theorem State.changes_otAlloc (g e) : Opt.all (fun r0 : _ × State => s.changes [.regs, .gates] r0.2) (s.otAlloc g e) := by
  unfold State.otAlloc
  extract_lets x1 used2
  refine Opt.all_ite Opt.all_none ?_
  split
  · exact Opt.all_none
  · exact Opt.all_some ((State.changes_syncGate ..).after ((State.changes_setGate ..).after .refl))

theorem State.changes_otFree (g tag) : s.changes [.regs, .gates] (s.otFree g tag) := by
  unfold State.otFree
  exact (State.changes_syncGate ..).after ((State.changes_setGate ..).after .refl)

theorem State.changes_request (p e mk) : Opt.all (s.changes [.outbox, .regs, .ctrs, .ports, .gates, .loop]) (s.request p e mk) := by
  unfold State.request
  split
  · exact Opt.all_none
  · rename_i he
    exact Opt.all_some ((State.changes_sendFrame ..).after ((Opt.all_of he (State.changes_otAlloc ..)).after .refl))

theorem State.changes_linkEvent (p) : s.changes Writes.post (s.linkEvent p) := by
  unfold State.linkEvent
  exact (State.changes_post ..).after .refl

theorem State.changes_linkCount (p c) : s.changes Writes.post (s.linkCount p c) := by
  unfold State.linkCount
  exact (State.changes_post ..).after .refl

/-! Granary. -/

theorem State.changes_syncEpoch : s.changes [.regs] s.syncEpoch := by
  unfold State.syncEpoch
  exact State.changes_foldl .refl fun _ _ ht => (State.changes_setFld ..).after ht

theorem State.changes_freeDraws (a) : s.changes [.free] (s.freeDraws a).2 := by
  induction a generalizing s with
  | zero =>
    exact .refl
  | succ a ih =>
    exact (ih ..).after ((State.changes_set_free ..).after .refl)

theorem State.changes_granaryRoundings (g sr n) : s.changes [.free, .ctrs] (s.granaryRoundings g sr n).2 := by
  unfold State.granaryRoundings
  exact State.changes_ite_snd .refl (State.changes_ite_snd ((State.changes_count ..).after .refl) ((State.changes_freeDraws ..).after .refl))

theorem State.changes_accumCount (g j) : s.changes [.regs] (s.accumCount g j) := by
  unfold State.accumCount
  exact (State.changes_setFld ..).after .refl

theorem State.changes_accumNorm (g j row) : s.changes [.regs] (s.accumNorm g j row) := by
  unfold State.accumNorm
  exact (State.changes_setFld ..).after .refl

def Writes.accumApply : List Field := [.free, .outbox, .regs, .ctrs, .lpddr, .checks, .window, .ceRows, .copying, .epoch, .cores, .mbxWaits,
  .evHead, .evLost, .evOver, .nv, .shape]

theorem State.changes_accumApply (j l d final poison) : s.changes Writes.accumApply (s.accumApply j l d final poison) := by
  unfold State.accumApply
  extract_lets g1 e2 gran3 first4 s5 s6 s7 bad8 s9 old10 counted11
  refine State.changes_have (t := s6) (State.changes_foldl ((State.changes_count ..).after .refl) fun _ _ ht => State.changes_ite ht
      ((State.changes_lpWrite ..).after ht)) fun hs6 => ?_
  refine State.changes_have (t := s7) (State.changes_ite ((State.changes_set_epoch ..).after hs6) ((State.changes_count ..).after .refl))
      fun hs7 => ?_
  refine State.changes_have (t := s9) (State.changes_ite hs7 ((State.changes_lpTouch ..).after hs7)) fun hs9 => ?_
  refine State.changes_ite (State.changes_ite ((State.changes_accumCount ..).after ((State.changes_lpWrite ..).after hs9)) ((State.changes_lpWrite
      ..).after hs9)) ?_
  refine State.changes_ite (State.changes_ite ((State.changes_accumCount ..).after ((State.changes_lpWrite ..).after hs9)) ((State.changes_lpWrite
      ..).after hs9)) ?_
  split
  · rename_i he2
    have hhe2 := State.changes_snd (M := Writes.accumApply) (s := s) he2 (by
      generalize first4 = first4'
      split
      · exact hs9
      · split
        · rename_i he3
          exact (State.changes_snd he3 (State.changes_granaryRoundings ..)).after hs9
      · split
        · rename_i he3
          exact (State.changes_snd he3 (State.changes_granaryRoundings ..)).after hs9)
    exact State.changes_ite ((State.changes_accumCount ..).after ((State.changes_accumNorm ..).after ((State.changes_lpWrite ..).after hhe2)))
        ((State.changes_lpWrite ..).after hhe2)

def Writes.accumWrite : List Field := [.free, .outbox, .regs, .ctrs, .lpddr, .checks, .window, .ceRows, .copying, .epoch, .cores, .arrivals,
  .mbxWaits, .evHead, .evLost, .evOver, .nv, .shape]

theorem State.changes_accumWrite (p j addr d final) : s.changes Writes.accumWrite (s.accumWrite p j addr d final) := by
  unfold State.accumWrite
  extract_lets row1 l2
  refine State.changes_ite ?_ ?_
  · exact (State.changes_pageFault ..).after .refl
  · exact State.changes_ite ((State.changes_classRefused ..).after .refl) (State.changes_ite ((State.changes_standBy ..).after .refl)
        ((State.changes_accumApply ..).after .refl))

theorem changes_execAccumWrite (part job addr data final) : Res.all (s.changes Writes.accumWrite) (execAccumWrite part job addr data final s) := by
  unfold execAccumWrite
  exact Res.all_unitOk (Res.all_need .refl (Res.all_next ((State.changes_accumWrite ..).after .refl)))

theorem State.changes_syncBringups : s.changes [.regs] s.syncBringups := by
  unfold State.syncBringups
  exact State.changes_foldl .refl fun _ _ ht => (State.changes_setFld ..).after ((State.changes_setFld ..).after ht)

theorem State.changes_startBringups : s.changes [.bringups] s.startBringups := by
  unfold State.startBringups
  exact (State.changes_set_bringups ..).after .refl

theorem State.changes_bringUp (i row) : s.changes [.regs, .shadow, .ctrs, .bringups] (s.bringUp i row) := by
  unfold State.bringUp
  exact (State.changes_syncBringups ..).after ((State.changes_startBringups ..).after ((State.changes_set_bringups ..).after ((State.changes_countJob
      ..).after ((State.changes_ttRes ..).after .refl))))

theorem State.changes_modBringup (i f) : s.changes [.bringups] (s.modBringup i f) := by
  unfold State.modBringup
  exact (State.changes_set_bringups ..).after .refl

theorem State.changes_holdRow (i n) : s.changes [.bringups] (s.holdRow i n) := by
  unfold State.holdRow
  exact (State.changes_modBringup ..).after .refl

def Writes.landRow : List Field := [.outbox, .regs, .ctrs, .rows, .lpddr, .checks, .window, .ceRows, .copying, .bringups, .cores, .waits,
  .mbxWaits, .evHead, .evLost, .evOver, .nv, .shape]

theorem State.changes_landRow (i n) : s.changes Writes.landRow (s.landRow i n) := by
  unfold State.landRow
  extract_lets r1 l2 s3 d4 s5
  refine State.changes_have (t := s5) ((State.changes_modBringup ..).after ((State.changes_lpMeet ..).after .refl)) fun hs5 => ?_
  refine State.changes_ite ((State.changes_holdRow ..).after (State.changes_ite .refl ((State.changes_pageFault ..).after .refl))) ?_
  refine State.changes_ite ?_ ?_
  · exact (State.changes_holdRow ..).after .refl
  · exact State.changes_ite ((State.changes_countJob ..).after ((State.changes_fill ..).after hs5)) ((State.changes_waitOn ..).after
        ((State.changes_holdRow ..).after .refl))

theorem State.changes_dropBringup (i) : s.changes [.regs, .bringups, .waits] (s.dropBringup i) := by
  unfold State.dropBringup
  exact (State.changes_syncBringups ..).after ((State.changes_startBringups ..).after ((State.changes_set_bringups_waits ..).after .refl))

theorem State.changes_endBringup (i) : s.changes [.regs, .shadow, .bringups, .waits] (s.endBringup i) := by
  unfold State.endBringup
  split
  · exact State.changes_ite ((State.changes_dropBringup ..).after ((State.changes_ttRes ..).after .refl)) .refl
  · exact .refl

def Writes.comeRows : List Field := [.outbox, .regs, .shadow, .ctrs, .rows, .lpddr, .checks, .window, .ceRows, .copying, .bringups, .cores,
  .waits, .mbxWaits, .evHead, .evLost, .evOver, .nv, .shape]

theorem State.changes_comeRows (i n) : s.changes Writes.comeRows (s.comeRows i n) := by
  unfold State.comeRows
  split
  · exact .refl
  · exact (State.changes_endBringup ..).after (State.changes_foldl ((State.changes_modBringup ..).after .refl) fun _ _ ht1 => (State.changes_landRow
        ..).after ht1)

theorem State.changes_landWaiter (i n) : s.changes Writes.comeRows (s.landWaiter i n) := by
  unfold State.landWaiter
  split
  · exact State.changes_ite ((State.changes_endBringup ..).after ((State.changes_landRow ..).after .refl)) .refl
  · exact .refl

theorem State.changes_landHeldRows : s.changes Writes.comeRows s.landHeldRows := by
  unfold State.landHeldRows
  exact State.changes_foldl .refl fun _ _ ht => State.changes_foldl ht fun _ _ ht1 => (State.changes_landWaiter ..).after ht1

theorem changes_execBringupDone (x) : Res.all (s.changes Writes.comeRows) (execBringupDone x s) := by
  unfold execBringupDone
  exact Res.all_unitOk (Res.all_need .refl (Res.all_next ((State.changes_comeRows ..).after .refl)))

theorem State.changes_dropCopy (i) : s.changes [.regs, .shadow, .rows, .bringups, .copyGone, .waits] (s.dropCopy i) := by
  unfold State.dropCopy
  extract_lets e1 stays2 late3 s4 s5
  refine State.changes_have (t := s4) (State.changes.trans .refl (State.changes_of (M := [.rows, .copyGone]) rfl (State.storesWf_step (rows :=
      SMap.wf_mapVals _ _)))) fun hs4 => ?_
  refine State.changes_have (t := s5) (State.changes_ite ((State.changes_dropBringup ..).after hs4) hs4) fun hs5 => ?_
  exact (State.changes_ttRes ..).after hs5

theorem State.changes_dropLate : s.changes [.rows, .copyGone] s.dropLate := by
  unfold State.dropLate
  exact State.changes.trans .refl (State.changes_of (M := [.rows, .copyGone]) rfl (State.storesWf_step (rows := SMap.wf_mapVals _ _)))

theorem State.changes_dropCaches (p) : s.changes [.cores, .clus] (s.dropCaches p) := by
  unfold State.dropCaches
  exact State.changes_foldl .refl fun _ _ ht => State.changes_foldl ((State.changes_setCl ..).after ht) fun _ _ ht1 => (State.changes_setCore
      ..).after ht1

def Writes.unseal : List Field := [.regs, .shadow, .rows, .bringups, .copyGone, .cores, .clus, .waits]

theorem State.changes_unseal (i) : s.changes Writes.unseal (s.unseal i) := by
  unfold State.unseal
  exact State.changes_foldl ((State.changes_ttRes ..).after ((State.changes_bumpGen ..).after ((State.changes_ttClass ..).after
      ((State.changes_dropCopy ..).after .refl)))) fun _ _ ht => (State.changes_dropCaches ..).after ht

theorem State.changes_seal (i) : s.changes [.regs, .shadow] (s.seal i) := by
  unfold State.seal
  exact (State.changes_ttRes ..).after ((State.changes_bumpGen ..).after ((State.changes_ttClass ..).after .refl))

def Writes.lpPatrolled : List Field := [.outbox, .regs, .ctrs, .lpddr, .checks, .lpPatrol, .window, .ceRows, .copying, .cores, .mbxWaits, .evHead,
  .evLost, .evOver, .nv, .shape]

theorem State.changes_lpPatrolled (g) : s.changes Writes.lpPatrolled (s.lpPatrolled g) := by
  unfold State.lpPatrolled
  exact (State.changes_set_lpPatrol ..).after (State.changes_foldl .refl fun _ _ ht => (State.changes_lpTouch ..).after ht)

theorem State.changes_lpUpset (h) : s.changes [.lpddr] (s.lpUpset h) := by
  unfold State.lpUpset
  exact (State.changes_setLp ..).after .refl

theorem changes_execLpddrPatrol (g hits) : Res.all (s.changes Writes.lpPatrolled) (execLpddrPatrol g hits s) := by
  unfold execLpddrPatrol
  exact Res.all_unitOk (Res.all_need .refl (Res.all_next ((State.changes_lpPatrolled ..).after (State.changes_foldl .refl
      fun _ _ ht => (State.changes_lpUpset ..).after ht))))

theorem State.changes_setTlb (v l) : s.changes [.clus, .gates] (s.setTlb v l) := by
  unfold State.setTlb
  split
  · exact (State.changes_setCl ..).after .refl
  · exact (State.changes_setGate ..).after .refl

def Writes.pageWalk : List Field := [.outbox, .regs, .ctrs, .lpddr, .checks, .window, .ceRows, .copying, .walk, .cores, .clus, .gates, .mbxWaits,
  .evHead, .evLost, .evOver, .nv, .shape]

theorem State.changes_pageWalk (v p page) : s.changes Writes.pageWalk (s.pageWalk v p page) := by
  unfold State.pageWalk
  exact (State.changes_set_walk ..).after ((State.changes_setTlb ..).after (State.changes_ite .refl ((State.changes_lpTouch ..).after .refl)))

theorem changes_execPageWalk (via x) : Res.all (s.changes Writes.pageWalk) (execPageWalk via x s) := by
  unfold execPageWalk
  exact Res.all_unitOk (Res.all_need .refl (Res.all_next ((State.changes_pageWalk ..).after .refl)))

/-! Dma. -/

theorem State.changes_lpAllowed (g d row) : Check.all (s.changes Writes.post) (s.lpAllowed g d row) := by
  unfold State.lpAllowed
  extract_lets l1 first2 ahead3
  refine Check.all_ite (Check.all_halt .refl) ?_
  refine Check.all_ite (Check.all_ite (Check.all_halt .refl) Check.all_hold) ?_
  refine Check.all_ite ?_ ?_
  · refine Check.all_ite (Check.all_halt .refl) ?_
    refine Check.all_ite (Check.all_halt ((State.changes_pageFault ..).after .refl)) ?_
    exact Check.all_ite (Check.all_halt .refl) (Check.all_halt ((State.changes_pageFault ..).after .refl))
  · refine Check.all_ite (Check.all_halt .refl) ?_
    refine Check.all_ite (Check.all_ite (Check.all_halt .refl) (Check.all_halt ((State.changes_classRefused ..).after .refl))) ?_
    exact Check.all_ok

theorem State.changes_remoteAt (d a off source) : Check.all (s.changes []) (s.remoteAt d a off source) := by
  unfold State.remoteAt
  extract_lets b1
  refine Check.all_ite (Check.all_halt .refl) ?_
  refine Check.all_ite (Check.all_halt .refl) ?_
  split
  · exact Check.all_halt .refl
  · exact Check.all_ok

theorem State.changes_windowAt (g a off write) : Check.all (s.changes []) (s.windowAt g a off write) := by
  unfold State.windowAt
  exact Check.all_ite Check.all_ok (Check.all_halt .refl)

theorem State.changes_srcPlace (g d off) : Check.all (s.changes Writes.post) (s.srcPlace g d off) := by
  unfold State.srcPlace
  extract_lets a1
  refine Check.all_ite Check.all_ok ?_
  split
  · exact Check.all_ite (Check.all_halt .refl) ((State.changes_lpAllowed ..).imp fun _ k => k.after .refl)
  · exact (State.changes_remoteAt ..).imp fun _ k => k.after .refl
  · exact (State.changes_windowAt ..).imp fun _ k => k.after .refl
  · split
    · exact Check.all_ok
    · exact Check.all_halt .refl

theorem State.changes_dstPlace (g d q) : Check.all (s.changes Writes.post) (s.dstPlace g d q) := by
  unfold State.dstPlace
  extract_lets a1 off2 row3 l4 use5
  refine Check.all_ite Check.all_ok ?_
  split
  · refine Check.all_ite (Check.all_halt .refl) ?_
    refine Check.all_ite (Check.all_halt ((State.changes_pageFault ..).after .refl)) ?_
    refine Check.all_ite (Check.all_halt ((State.changes_pageFault ..).after .refl)) ?_
    exact Check.all_ite (Check.all_halt ((State.changes_classRefused ..).after .refl)) Check.all_ok
  · exact (State.changes_remoteAt ..).imp fun _ k => k.after .refl
  · exact (State.changes_windowAt ..).imp fun _ k => k.after .refl
  · split
    · exact Check.all_ok
    · exact Check.all_halt .refl

theorem State.changes_maskPlace (g d k) : Check.all (s.changes []) (s.maskPlace g d k) := by
  unfold State.maskPlace
  split
  · exact Check.all_ok
  · exact Check.all_halt .refl

theorem State.all_rowChecks (g d q) : ∀ c ∈ s.rowChecks g d q, Check.all (s.changes Writes.post) c := by
  intro c hc
  unfold State.rowChecks at hc
  extract_lets src n ks dst last at hc
  have hsrc : ∀ c ∈ src, Check.all (s.changes Writes.post) c := fun c hc => by
    obtain ⟨off, -, rfl⟩ := List.mem_map.1 hc
    exact (State.changes_srcPlace ..).imp fun _ k => k.after .refl
  have hdst : ∀ c ∈ dst, Check.all (s.changes Writes.post) c := by
    unfold dst
    split
    · split
      · intro c hc
        obtain ⟨off, -, rfl⟩ := List.mem_map.1 hc
        exact (State.changes_maskPlace ..).imp fun _ k => k.after .refl
      · exact fun c hc => nomatch hc
    · exact fun c hc => nomatch hc
    · exact List.forall_mem_singleton.2 ((State.changes_remoteAt ..).imp fun _ k => k.after .refl)
    · exact List.forall_mem_singleton.2 ((State.changes_dstPlace ..).imp fun _ k => k.after .refl)
  have hlast : ∀ c ∈ last, Check.all (s.changes Writes.post) c := by
    unfold last
    split
    · exact List.forall_mem_singleton.2 (Check.all_halt .refl)
    · exact fun c hc => nomatch hc
  split at hc
  · cases hc
  rcases List.mem_append.1 hc with hc | hc
  · rcases List.mem_append.1 hc with hc | hc
    · exact hsrc c hc
    · exact hdst c hc
  · exact hlast c hc

theorem Opt.all_firstCheck {P : State → Prop} {l : List Check} (h : ∀ c ∈ l, Check.all P c) : Opt.all (Check.all P) (firstCheck l) := by
  induction l with
  | nil => trivial
  | cons c l ih =>
    cases c with
    | ok _ => exact ih fun c hc => h c (.tail _ hc)
    | hold => exact h _ (.head _)
    | halt _ _ => exact h _ (.head _)

theorem State.changes_touchTensor (g x l) : s.changes [.ctrs] (s.touchTensor g x l).2 := by
  unfold State.touchTensor
  exact State.changes_ite_snd ((State.changes_countJob ..).after .refl) .refl

theorem State.changes_fromCopy (g i n note) : s.changes Writes.landRow (s.fromCopy g i n note).2 := by
  unfold State.fromCopy
  extract_lets ref1 w2 old3 x4 s5 y6
  refine State.changes_have (t := s5) (State.changes_ite ((State.changes_landRow ..).after ((State.changes_countJob ..).after ((State.changes_setRow
      ..).after .refl))) .refl) fun hs5 => ?_
  refine State.changes_ite_snd ((State.changes_waitOn ..).after .refl) ?_
  exact State.changes_ite_snd ((State.changes_meetRow ..).after hs5) ((State.changes_waitOn ..).after hs5)

theorem State.changes_lpPiece (g x row) : s.changes Writes.comeRows (s.lpPiece g x row).2.2 := by
  unfold State.lpPiece
  extract_lets d1 l2 e3 note4
  split
  rename_i s1 he
  have h : s.changes Writes.comeRows s1 := (State.changes_snd he (State.changes_touchTensor ..)).after .refl
  extract_lets s2 y2 direct touched r3 r4 s5 r5
  have hd : s.changes Writes.comeRows (direct ()).2.2 := State.changes_ite_snd_snd h ((State.changes_lpMeet ..).after h)
  have h5 : s.changes Writes.comeRows s5 := State.changes_ite ((State.changes_bringUp ..).after h) h
  generalize direct () = p at hd ⊢
  have copied {s2 i n k} (h : s.changes Writes.comeRows s2) : s.changes Writes.comeRows (s2.fromCopy g i n k).2 := (State.changes_fromCopy ..).after h
  refine State.changes_ite_snd_snd h (State.changes_ite_snd_snd (State.changes_ite_snd_snd h hd) (State.changes_ite_snd_snd hd
    (State.changes_ite_snd_snd h (State.changes_ite_snd_snd ?_ (State.changes_ite_snd_snd (State.changes_ite_snd_snd (copied h) hd)
      (State.changes_ite_snd_snd (State.changes_ite_snd_snd (copied h) h) (copied h5)))))))
  split
  · exact State.changes_ite_snd_snd hd h
  · exact h

theorem State.changes_siloPiece (g y) : s.changes [.regs, .ctrs, .rows, .chans, .waits] (s.siloPiece g y).2 := by
  unfold State.siloPiece
  extract_lets z1 r2 w3 x4 ran5 s6 s7
  refine State.changes_have (t := s6) ((State.changes_setSiloPtrs ..).after ((State.changes_dmaTaken ..).after ((State.changes_meetRow ..).after
      .refl))) fun hs6 => ?_
  refine State.changes_have (t := s7) (State.changes_ite ((State.changes_countJob ..).after .refl) .refl) fun hs7 => ?_
  refine State.changes_ite_snd ((State.changes_waitOn ..).after ((State.changes_staleDrop ..).after .refl)) ?_
  exact State.changes_ite_snd (State.changes_ite ((State.changes_countJob ..).after hs6) hs6) ((State.changes_waitOn ..).after hs7)

def Writes.readPiece : List Field := [.outbox, .regs, .shadow, .ctrs, .rows, .lpddr, .checks, .window, .ceRows, .copying, .bringups, .cores,
  .chans, .waits, .ports, .gates, .loop, .mbxWaits, .evHead, .evLost, .evOver, .nv, .shape]

theorem State.changes_readPiece (g x q i off) : s.changes Writes.readPiece (s.readPiece g x q i off).2.2 := by
  unfold State.readPiece
  extract_lets d1
  refine State.changes_ite_snd_snd ((State.changes_lpPiece ..).after .refl) ?_
  split
  · exact (State.changes_siloPiece ..).after .refl
  · extract_lets y2
    refine State.changes_ite_snd_snd ((State.changes_dmaTaken ..).after ((State.changes_meetRow ..).after .refl)) ?_
    exact (State.changes_waitOn ..).after .refl
  · exact .refl
  · split
    · exact (State.changes_count ..).after .refl
    · rename_i he2
      exact (Opt.all_of he2 (State.changes_request ..)).after .refl
  · exact .refl

theorem State.changes_readMove (g x m) : s.changes Writes.readPiece (s.readMove g x m).2.2 := by
  unfold State.readMove
  extract_lets offs1 r2
  unfold r2
  refine State.changes_foldl_snd_snd .refl fun _ _ ht => ?_
  split
  · extract_lets y3 s4
    refine State.changes_have (t := s4) ?_ fun hs4 => ?_
    · unfold s4
      split
      · exact (State.changes_count ..).after ((State.changes_readPiece ..).after ht)
      · exact (State.changes_readPiece ..).after ht
    exact hs4
  · exact ht

theorem State.changes_landedRow (g x sat poison) : Landed.all (s.changes [.ctrs]) (s.landedRow g x sat poison) := by
  unfold State.landedRow
  exact Landed.all_done ((State.changes_count ..).after ((State.changes_count ..).after .refl))

def Writes.landMove : List Field := [.free, .outbox, .regs, .ctrs, .rows, .lpddr, .checks, .window, .ceRows, .copying, .epoch, .cores, .waits,
  .arrivals, .ports, .gates, .loop, .mbxWaits, .stageWord, .evHead, .evTail, .evLost, .evOver, .nv, .shape]

theorem State.changes_landMove (g x m) : Landed.all (s.changes Writes.landMove) (s.landMove g x m) := by
  unfold State.landMove
  extract_lets d1 r2 ds3 poison4 w5 gen6 tok7 note8 k9
  split
  · split
    · exact Landed.all_wait .refl
    · rename_i he1
      have hhe1 := Check.all_of he1 (show Check.all (s.changes Writes.landMove) _ by
        refine Check.all_ite ((State.changes_remoteAt ..).imp fun _ k => k.after .refl) ?_
        exact (State.changes_dstPlace ..).imp fun _ k => k.after .refl)
      exact Landed.all_halt hhe1
    · exact Landed.all_wait .refl
    · refine Landed.all_ite ((State.changes_landedRow ..).imp fun _ k => k.after ((State.changes_fill ..).after .refl)) ?_
      exact Landed.all_wait ((State.changes_waitOn ..).after .refl)
    · extract_lets z10 q11
      refine Landed.all_ite (Landed.all_wait ((State.changes_waitOn ..).after .refl)) ?_
      exact (State.changes_landedRow ..).imp fun _ k => k.after ((State.changes_setSiloPtrs ..).after ((State.changes_fill ..).after .refl))
    · refine Landed.all_ite (Landed.all_wait ((State.changes_standBy ..).after .refl)) ?_
      refine Landed.all_ite ((State.changes_landedRow ..).imp fun _ k => k.after ((State.changes_accumApply ..).after .refl)) ?_
      exact (State.changes_landedRow ..).imp fun _ k => k.after ((State.changes_lpWrite ..).after .refl)
    · exact (State.changes_landedRow ..).imp fun _ k => k.after ((State.changes_winPutRow ..).after .refl)
    · extract_lets f10
      split
      · exact Landed.all_wait ((State.changes_count ..).after .refl)
      · rename_i he2
        exact Landed.all_sent ((State.changes_count ..).after ((State.changes_count ..).after ((Opt.all_of he2 (State.changes_request ..)).after
            .refl)))

theorem State.changes_putMaskRow (g x bs rest bad) : Landed.all (s.changes [.ctrs, .rows, .waits]) (s.putMaskRow g x bs rest bad) := by
  unfold State.putMaskRow
  split
  · refine Landed.all_ite ((State.changes_landedRow ..).imp fun _ k => k.after ((State.changes_fill ..).after .refl)) ?_
    exact Landed.all_wait ((State.changes_waitOn ..).after .refl)
  · rename_i he
    exact Landed.all_halt ((Check.all_of he (State.changes_maskPlace ..)).after .refl)
  · exact Landed.all_wait .refl

theorem State.changes_countMove (g x m) : Landed.all (s.changes [.ctrs, .rows, .waits]) (s.countMove g x m) := by
  unfold State.countMove
  extract_lets d1 poison2 row3 y4 last5
  split
  · exact Landed.all_halt .refl
  · extract_lets all6 bs7
    refine Landed.all_ite (Landed.all_done .refl) ?_
    refine Landed.all_ite ?_ (Landed.all_ite ((State.changes_putMaskRow ..).imp fun _ k => k.after .refl) (Landed.all_done .refl))
    split
    · rename_i he3
      refine Landed.all_ite (Landed.all_part ((Landed.all_of he3 (State.changes_putMaskRow ..)).after .refl)) ?_
      exact Landed.all_done ((Landed.all_of he3 (State.changes_putMaskRow ..)).after .refl)
    · exact (State.changes_putMaskRow ..).imp fun _ k => k.after .refl

theorem State.changes_settleMove (g x m) : Landed.all (s.changes Writes.landMove) (s.settleMove g x m) := by
  unfold State.settleMove
  refine Landed.all_ite ((State.changes_landMove ..).imp fun _ k => k.after .refl) ?_
  split
  · rename_i he1
    split
    · rename_i he2
      exact Landed.all_part ((Landed.all_of he2 (State.changes_countMove ..)).after ((Landed.all_of he1 (State.changes_countMove ..)).after .refl))
    · rename_i he2
      exact Landed.all_done ((Landed.all_of he2 (State.changes_countMove ..)).after ((Landed.all_of he1 (State.changes_countMove ..)).after .refl))
    · exact (State.changes_countMove ..).imp fun _ k => k.after ((Landed.all_of he1 (State.changes_countMove ..)).after .refl)
  · exact (State.changes_countMove ..).imp fun _ k => k.after .refl

def Writes.passMoves : List Field := [.free, .outbox, .regs, .shadow, .ctrs, .rows, .lpddr, .checks, .window, .ceRows, .copying, .epoch,
  .bringups, .cores, .chans, .waits, .arrivals, .ports, .gates, .loop, .mbxWaits, .stageWord, .evHead, .evTail, .evLost, .evOver, .nv, .shape]

theorem State.changes_passMoves (g x a b c) : s.changes Writes.passMoves (s.passMoves g x a b c).2.2 := by
  induction a generalizing s g x b c with
  | nil =>
    exact .refl
  | cons x a ih =>
    unfold State.passMoves
    extract_lets d1 keep2
    refine State.changes_ite_snd_snd ((ih ..).after .refl) ?_
    split
    · rename_i he1
      extract_lets ready3 noSrc4
      refine State.changes_ite_snd_snd ((ih ..).after (State.changes_snd_snd (M := Writes.passMoves) he1 (State.changes_ite_snd_snd .refl
          ((State.changes_readMove ..).after .refl)))) ?_
      split
      · rename_i he3
        exact (ih ..).after ((Landed.all_of he3 (State.changes_settleMove ..)).after (State.changes_snd_snd (M := Writes.passMoves) he1
            (State.changes_ite_snd_snd .refl ((State.changes_readMove ..).after .refl))))
      · rename_i he3
        exact (ih ..).after ((Landed.all_of he3 (State.changes_settleMove ..)).after (State.changes_snd_snd (M := Writes.passMoves) he1
            (State.changes_ite_snd_snd .refl ((State.changes_readMove ..).after .refl))))
      · rename_i he3
        exact (ih ..).after ((Landed.all_of he3 (State.changes_settleMove ..)).after (State.changes_snd_snd (M := Writes.passMoves) he1
            (State.changes_ite_snd_snd .refl ((State.changes_readMove ..).after .refl))))
      · rename_i he3
        exact (ih ..).after ((Landed.all_of he3 (State.changes_settleMove ..)).after (State.changes_snd_snd (M := Writes.passMoves) he1
            (State.changes_ite_snd_snd .refl ((State.changes_readMove ..).after .refl))))
      · rename_i he3
        exact (Landed.all_of he3 (State.changes_settleMove ..)).after (State.changes_snd_snd (M := Writes.passMoves) he1 (State.changes_ite_snd_snd
            .refl ((State.changes_readMove ..).after .refl)))

theorem State.changes_pass (g x) : s.changes Writes.passMoves (s.pass g x).2 := by
  unfold State.pass
  exact (State.changes_passMoves ..).after .refl

theorem State.changes_turn (d) : s.changes [.regs, .shadow] (s.turn d) := by
  unfold State.turn
  exact (State.changes_ttSet ..).after .refl

theorem State.changes_askCount (g x) : Issue.all (s.changes [.outbox, .regs, .ctrs, .ports, .gates, .loop]) (s.askCount g x) := by
  unfold State.askCount
  extract_lets d1 b2 body3
  split
  · exact Issue.all_halt .refl
  · split
    · exact Issue.all_hold
    · rename_i he1
      exact Issue.all_go ((Opt.all_of he1 (State.changes_request ..)).after .refl)

def Writes.issueRow : List Field := [.outbox, .regs, .shadow, .ctrs, .window, .ports, .gates, .loop, .mbxWaits, .evHead, .evLost, .evOver]

theorem State.changes_issueRow (g x used total) : Issue.all (s.changes Writes.issueRow) (s.issueRow g x used total) := by
  unfold State.issueRow
  extract_lets d q offs silo
  split
  · exact Issue.all_hold
  split
  · exact Issue.all_hold
  split
  · exact Issue.all_halt .refl
  split
  · rename_i he
    exact Issue.all_halt (State.changes.after ((Opt.all_firstCheck (State.all_rowChecks g d q)).at he) .refl)
  · exact Issue.all_hold
  split
  · exact Issue.all_go ((State.changes_turn ..).after .refl)
  split
  · exact (State.changes_askCount ..).imp fun _ k => k.after .refl
  · exact Issue.all_go (State.changes_ite ((State.changes_countJob ..).after .refl) .refl)

theorem State.changes_issueRows (g x used total a) : s.changes Writes.issueRow (s.issueRows g x used total a).2 := by
  induction a generalizing s g x used total with
  | zero =>
    exact .refl
  | succ a ih =>
    unfold State.issueRows
    refine State.changes_ite_snd .refl ?_
    split
    · exact .refl
    · rename_i he1
      refine State.changes_ite ?_ ?_
      · exact (State.changes_countJob ..).after ((Issue.all_of he1 (State.changes_issueRow ..)).after .refl)
      · exact (Issue.all_of he1 (State.changes_issueRow ..)).after .refl
    · rename_i he1
      exact (ih ..).after ((Issue.all_of he1 (State.changes_issueRow ..)).after .refl)

theorem State.changes_runXfer (g x tail other a) : s.changes Writes.passMoves (s.runXfer g x tail other a).2 := by
  induction a generalizing s g x tail other with
  | zero =>
    exact .refl
  | succ a ih =>
    unfold State.runXfer
    split
    · rename_i he
      extract_lets used1
      split
      · rename_i he1
        refine State.changes_ite_snd ((State.changes_snd he1 (State.changes_issueRows ..)).after ((State.changes_snd he (State.changes_pass ..)).after
            .refl)) ?_
        exact (ih ..).after ((State.changes_snd he1 (State.changes_issueRows ..)).after ((State.changes_snd he (State.changes_pass ..)).after .refl))

theorem State.changes_setChState (cl ch v) : s.changes [.regs] (s.setChState cl ch v) := by
  unfold State.setChState
  exact (State.changes_setFld ..).after .refl

theorem State.changes_syncChan (cl ch) : s.changes [.regs] (s.syncChan cl ch) := by
  unfold State.syncChan
  exact (State.changes_setFld ..).after ((State.changes_setFld ..).after .refl)

theorem State.changes_flushMask (g x a) : s.changes [.ctrs, .rows, .waits] (s.flushMask g x a).2 := by
  induction a generalizing s g x with
  | zero =>
    exact .refl
  | succ a ih =>
    unfold State.flushMask
    split
    · refine State.changes_ite_snd ((State.changes_waitOn ..).after .refl) ?_
      exact (ih ..).after ((State.changes_count ..).after ((State.changes_fill ..).after .refl))
    · rename_i he
      exact (Check.all_of he (State.changes_maskPlace ..)).after .refl
    · exact .refl

def Writes.stopChan : List Field := [.outbox, .regs, .ctrs, .window, .chans, .mbxWaits, .evHead, .evLost, .evOver]

theorem State.changes_stopChan (cl ch x cause detail addr) : s.changes Writes.stopChan (s.stopChan cl ch x cause detail addr) := by
  unfold State.stopChan
  exact (State.changes_setChState ..).after ((State.changes_setChan ..).after (State.changes_ite ((State.changes_fault ..).after .refl)
      ((State.changes_fault ..).after .refl)))

theorem State.changes_endXfer (cl ch x) : s.changes Writes.stopChan (s.endXfer cl ch x) := by
  unfold State.endXfer
  split
  · exact (State.changes_stopChan ..).after .refl
  · exact (State.changes_setChan ..).after .refl
  · exact (State.changes_setChan ..).after .refl

theorem State.changes_endTail (cl ch a) : s.changes Writes.stopChan (s.endTail cl ch a) := by
  induction a generalizing s cl ch with
  | zero =>
    exact .refl
  | succ a ih =>
    unfold State.endTail
    extract_lets k1
    split
    · exact .refl
    · exact State.changes_ite ((ih ..).after ((State.changes_endXfer ..).after ((State.changes_setChan ..).after .refl))) .refl

theorem State.changes_endCur (cl ch) : s.changes Writes.stopChan (s.endCur cl ch) := by
  unfold State.endCur
  extract_lets k1 g2
  split
  · exact .refl
  · refine State.changes_ite .refl ?_
    split
    · exact .refl
    · exact (State.changes_post ..).after ((State.changes_setChState ..).after ((State.changes_setChan ..).after .refl))
    · exact (State.changes_endXfer ..).after ((State.changes_setChan ..).after .refl)

theorem State.changes_resumeChan (cl ch) : s.changes Writes.passMoves (s.resumeChan cl ch) := by
  unfold State.resumeChan
  extract_lets g1 step2
  refine State.changes_ite .refl ?_
  split
  · rename_i he1
    extract_lets x3 s4 used5 other6 s7
    refine State.changes_have (t := s4) ((State.changes_setChan ..).after (State.changes_snd (M := Writes.passMoves) he1 (State.changes_foldl_snd
        .refl fun _ _ ht1 => (State.changes_flushMask ..).after ((State.changes_passMoves ..).after ht1)))) fun hs4 => ?_
    refine State.changes_have (t := s7) ?_ fun hs7 => ?_
    · unfold s7
      split
      · exact hs4
      · split
        · rename_i he3
          extract_lets k8
          split <;> exact (State.changes_setChan ..).after (State.changes_snd (M := Writes.passMoves) he3 (State.changes_ite_snd
              ((State.changes_runXfer ..).after hs4) ((State.changes_pass ..).after hs4)))
    exact (State.changes_syncChan ..).after ((State.changes_endCur ..).after ((State.changes_endTail ..).after hs7))

theorem State.changes_modXfer (cl ch id f) : s.changes Writes.passMoves (s.modXfer cl ch id f) := by
  unfold State.modXfer
  exact (State.changes_resumeChan ..).after ((State.changes_setChan ..).after .refl)

theorem State.changes_startDesc (cl ch d k) : s.changes Writes.passMoves (s.startDesc cl ch d k) := by
  unfold State.startDesc
  exact (State.changes_resumeChan ..).after ((State.changes_setChState ..).after ((State.changes_setChan ..).after .refl))

theorem changes_execDmaRingFetch (cl ch) : Res.all (s.changes [.regs, .ctrs, .chans]) (execDmaRingFetch cl ch s) := by
  unfold execDmaRingFetch
  exact Res.all_unitOk (Res.all_need .refl (Res.all_next ((State.changes_count ..).after ((State.changes_setFld ..).after ((State.changes_setChan
      ..).after .refl)))))

theorem State.changes_flushRecords (cl ch a) : s.changes [.regs, .rows, .chans] (s.flushRecords cl ch a) := by
  induction a generalizing s cl ch with
  | zero =>
    exact .refl
  | succ a ih =>
    unfold State.flushRecords
    extract_lets k1 x2 y3 r4
    split
    · exact .refl
    · exact State.changes_ite .refl ((ih ..).after ((State.changes_setSiloPtrs ..).after ((State.changes_fill ..).after ((State.changes_setChan
          ..).after .refl))))

theorem State.changes_settleChan (cl ch) : s.changes [.regs] (s.settleChan cl ch) := by
  unfold State.settleChan
  exact State.changes_ite ((State.changes_setChState ..).after .refl) .refl

theorem State.changes_transferEnd (cl ch x rest) : s.changes [.regs, .ctrs, .rows, .chans, .jobs] (s.transferEnd cl ch x rest) := by
  unfold State.transferEnd
  extract_lets g1 x2 s3 x4 s5 s6 x7 s8 s9
  refine State.changes_have (t := s5) ?_ fun hs5 => ?_
  · unfold s5
    refine State.changes_ite ?_ ?_
    · exact (State.changes_count ..).after ((State.changes_setChan ..).after .refl)
    · exact State.changes_ite ((State.changes_count ..).after ((State.changes_setChan ..).after .refl)) ((State.changes_setChan ..).after .refl)
  refine State.changes_have (t := s8) (State.changes_ite ((State.changes_wr ..).after hs5) ((State.changes_flushRecords ..).after
      ((State.changes_setChan ..).after ((State.changes_wr ..).after hs5)))) fun hs8 => ?_
  refine State.changes_have (t := s9) (State.changes_ite ((State.changes_requestStop ..).after hs8) hs8) fun hs9 => ?_
  exact (State.changes_settleChan ..).after hs9

theorem changes_execDmaTransferEnd (cl ch) : Res.all (s.changes [.regs, .ctrs, .rows, .chans, .jobs]) (execDmaTransferEnd cl ch s) := by
  unfold execDmaTransferEnd
  refine Res.all_unitOk ?_
  split
  · exact Res.all_next .refl
  · exact Res.all_next ((State.changes_transferEnd ..).after .refl)

theorem changes_execDmaRecordFlush (cl ch) : Res.all (s.changes [.regs, .rows, .chans]) (execDmaRecordFlush cl ch s) := by
  unfold execDmaRecordFlush
  exact Res.all_unitOk (Res.all_need .refl (Res.all_next ((State.changes_flushRecords ..).after .refl)))

theorem changes_execFirmwareCopyStart (cl ch) : Res.all (s.changes Writes.passMoves) (execFirmwareCopyStart cl ch s) := by
  unfold execFirmwareCopyStart
  exact Res.all_unitOk (Res.all_ite (Res.all_next .refl) (Res.all_next ((State.changes_startDesc ..).after .refl)))

theorem State.changes_resumePaused (cl ch) : s.changes Writes.passMoves (s.resumePaused cl ch) := by
  unfold State.resumePaused
  exact State.changes_ite .refl ((State.changes_resumeChan ..).after ((State.changes_setChState ..).after ((State.changes_setChan ..).after .refl)))

theorem State.changes_abandonChan (cl ch) : s.changes Writes.stopChan (s.abandonChan cl ch) := by
  unfold State.abandonChan
  extract_lets k1
  split
  · exact .refl
  · refine State.changes_ite ?_ ?_
    · exact .refl
    · exact (State.changes_fault ..).after ((State.changes_syncChan ..).after ((State.changes_setChState ..).after ((State.changes_setChan ..).after
          .refl)))

theorem changes_execDmaResume (cl x) : Res.all (s.changes Writes.passMoves) (execDmaResume cl x s) := by
  unfold execDmaResume
  exact Res.all_unitOk (Res.all_next (State.changes_ite ((State.changes_abandonChan ..).after .refl) ((State.changes_resumePaused ..).after .refl)))

theorem changes_execDmaAbandon (cl ch) : Res.all (s.changes Writes.stopChan) (execDmaAbandon cl ch s) := by
  unfold execDmaAbandon
  exact Res.all_unitOk (Res.all_next ((State.changes_abandonChan ..).after .refl))

theorem changes_execDmaRestart (cl ch) : Res.all (s.changes [.regs, .chans]) (execDmaRestart cl ch s) := by
  unfold execDmaRestart
  refine Res.all_unitOk ?_
  refine Res.all_ite (Res.all_next .refl) ?_
  exact Res.all_next ((State.changes_syncChan ..).after ((State.changes_setChState ..).after ((State.changes_setFld ..).after ((State.changes_setChan
      ..).after .refl))))

theorem State.changes_rereadRow (cl p j row) : s.changes Writes.lpTouch (s.rereadRow cl p j row).2 := by
  unfold State.rereadRow
  exact State.changes_ite_snd ((State.changes_meetRow ..).after .refl) ((State.changes_lpMeet ..).after .refl)

def Writes.refetch : List Field := [.outbox, .regs, .ctrs, .rows, .lpddr, .checks, .window, .ceRows, .copying, .cores, .chans, .mbxWaits, .evHead,
  .evLost, .evOver, .nv, .shape]

theorem State.changes_refetch (ch r n) : s.changes Writes.refetch (s.refetch ch r n) := by
  unfold State.refetch
  extract_lets cl1 k2 s3 e4 q5
  refine State.changes_ite ?_ ?_
  · exact (State.changes_fault ..).after ((State.changes_fill ..).after ((State.changes_setChan ..).after .refl))
  · exact (State.changes_fill ..).after (State.changes_foldl_snd ((State.changes_setChan ..).after .refl) fun _ _ ht1 => (State.changes_rereadRow
        ..).after ht1)

theorem changes_execPfStaleRefetch (r) : Res.all (s.changes Writes.refetch) (execPfStaleRefetch r s) := by
  unfold execPfStaleRefetch
  refine Res.all_unitOk ?_
  split
  · exact Res.all_next .refl
  · exact Res.all_need .refl (Res.all_next ((State.changes_refetch ..).after .refl))

theorem State.changes_deadlineTick : s.changes [.chans] s.deadlineTick := by
  unfold State.deadlineTick
  exact State.changes_foldl .refl fun _ _ ht => State.changes_ite ((State.changes_setChan ..).after ht) ht

theorem State.changes_deadlineMiss (g x) : s.changes Writes.passMoves (s.deadlineMiss g x) := by
  unfold State.deadlineMiss
  extract_lets e1 s2 go3 fb4
  refine State.changes_ite ((State.changes_modXfer ..).after ((State.changes_countJob ..).after .refl)) ?_
  split
  · split <;> exact (State.changes_modXfer ..).after ((State.changes_countJob ..).after ((State.changes_countJob ..).after .refl))
  · refine State.changes_ite ?_ ?_
    · exact (State.changes_modXfer ..).after ((State.changes_countJob ..).after ((State.changes_countJob ..).after .refl))
    · exact (State.changes_modXfer ..).after ((State.changes_countJob ..).after .refl)
  · exact (State.changes_modXfer ..).after ((State.changes_countJob ..).after ((State.changes_countJob ..).after .refl))
  · exact (State.changes_modXfer ..).after ((State.changes_countJob ..).after .refl)

theorem changes_execDeadlineMiss (cl ch) : Res.all (s.changes Writes.passMoves) (execDeadlineMiss cl ch s) := by
  unfold execDeadlineMiss
  refine Res.all_unitOk ?_
  extract_lets g1 k2
  split
  · exact Res.all_next .refl
  · exact Res.all_next ((State.changes_deadlineMiss ..).after .refl)

theorem State.changes_dmaKick (t w) : Ex.all (s.changes [.regs, .ctrs, .rows, .tasks, .chans]) (s.dmaKick t w) := by
  unfold State.dmaKick
  extract_lets ch1 desc2 k3 once4 mode5 ref6 clean7 x8 x9
  refine Ex.all_ite (Ex.all_ok ((State.changes_countCore ..).after .refl)) ?_
  refine Ex.all_ite ?_ ?_
  · refine Ex.all_bind fun _ _ => ?_
    refine Ex.all_bind fun _ _ => ?_
    refine Ex.all_ite ?_ ?_
    · refine Ex.all_ite ?_ ?_
      · refine Ex.all_bind fun _ hu6 => ?_
        refine Ex.all_ok ?_
        refine State.changes_ite ?_ ?_
        · exact (State.changes_modTask ..).after (Ex.all_of hu6 ((Ex.all_error) : Ex.all (s.changes [.regs, .ctrs, .rows, .tasks, .chans]) _))
        · exact (Ex.all_of hu6 ((Ex.all_error) : Ex.all (s.changes [.regs, .ctrs, .rows, .tasks, .chans]) _))
      · refine Ex.all_bind fun ⟨_, _⟩ hu6 => ?_
        split
        · rename_i he7
          extract_lets c10
          refine Ex.all_bind fun _ hu8 => ?_
          refine Ex.all_ok ?_
          refine State.changes_ite ?_ ?_
          · exact (State.changes_modTask ..).after (Ex.all_of hu8 ((Ex.all_ok ((State.changes_syncChan ..).after ((State.changes_setChan ..).after
                (State.changes_snd (M := [.regs, .ctrs, .rows, .tasks, .chans]) he7 ((Ex.all_of hu6 (State.changes_readRow ..)).after .refl))))) :
                Ex.all (s.changes [.regs, .ctrs, .rows, .tasks, .chans]) _))
          · exact (Ex.all_of hu8 ((Ex.all_ok ((State.changes_syncChan ..).after ((State.changes_setChan ..).after (State.changes_snd (M := [.regs,
                .ctrs, .rows, .tasks, .chans]) he7 ((Ex.all_of hu6 (State.changes_readRow ..)).after .refl))))) : Ex.all (s.changes [.regs, .ctrs,
                .rows, .tasks, .chans]) _))
    · refine Ex.all_bind fun _ hu5 => ?_
      refine Ex.all_ok ?_
      refine State.changes_ite ?_ ?_
      · exact (State.changes_modTask ..).after (Ex.all_of hu5 ((Ex.all_ok ((State.changes_setFld ..).after .refl)) : Ex.all (s.changes [.regs, .ctrs,
            .rows, .tasks, .chans]) _))
      · exact (Ex.all_of hu5 ((Ex.all_ok ((State.changes_setFld ..).after .refl)) : Ex.all (s.changes [.regs, .ctrs, .rows, .tasks, .chans]) _))
  · refine Ex.all_bind fun _ _ => ?_
    refine Ex.all_bind fun _ _ => ?_
    refine Ex.all_ite ?_ ?_
    · refine Ex.all_ite ?_ ?_
      · refine Ex.all_bind fun _ hu6 => ?_
        refine Ex.all_ok ?_
        refine State.changes_ite ?_ ?_
        · exact (State.changes_modTask ..).after (Ex.all_of hu6 ((Ex.all_error) : Ex.all (s.changes [.regs, .ctrs, .rows, .tasks, .chans]) _))
        · exact (Ex.all_of hu6 ((Ex.all_error) : Ex.all (s.changes [.regs, .ctrs, .rows, .tasks, .chans]) _))
      · refine Ex.all_bind fun ⟨_, _⟩ hu6 => ?_
        split
        · rename_i he7
          extract_lets c10
          refine Ex.all_bind fun _ hu8 => ?_
          refine Ex.all_ok ?_
          refine State.changes_ite ?_ ?_
          · exact (State.changes_modTask ..).after (Ex.all_of hu8 ((Ex.all_ok ((State.changes_syncChan ..).after ((State.changes_setChan ..).after
                (State.changes_snd (M := [.regs, .ctrs, .rows, .tasks, .chans]) he7 ((Ex.all_of hu6 (State.changes_readRow ..)).after .refl))))) :
                Ex.all (s.changes [.regs, .ctrs, .rows, .tasks, .chans]) _))
          · exact (Ex.all_of hu8 ((Ex.all_ok ((State.changes_syncChan ..).after ((State.changes_setChan ..).after (State.changes_snd (M := [.regs,
                .ctrs, .rows, .tasks, .chans]) he7 ((Ex.all_of hu6 (State.changes_readRow ..)).after .refl))))) : Ex.all (s.changes [.regs, .ctrs,
                .rows, .tasks, .chans]) _))
    · refine Ex.all_bind fun _ hu5 => ?_
      refine Ex.all_ok ?_
      refine State.changes_ite ?_ ?_
      · exact (State.changes_modTask ..).after (Ex.all_of hu5 ((Ex.all_ok ((State.changes_setFld ..).after .refl)) : Ex.all (s.changes [.regs, .ctrs,
            .rows, .tasks, .chans]) _))
      · exact (Ex.all_of hu5 ((Ex.all_ok ((State.changes_setFld ..).after .refl)) : Ex.all (s.changes [.regs, .ctrs, .rows, .tasks, .chans]) _))

theorem changes_execDmaKick (core) : Res.all (s.changes Writes.settle) (execDmaKick core s) := by
  unfold execDmaKick
  exact changes_issue fun _ _ => (State.changes_dmaKick ..).imp fun _ k => k.after .refl

theorem State.changes_resumePart (p) : s.changes Writes.passMoves (s.resumePart p) := by
  unfold State.resumePart
  exact State.changes_foldl .refl fun _ _ ht => State.changes_foldl ht fun _ _ ht1 => (State.changes_resumeChan ..).after ht1

/-! HatchRx. -/

theorem State.changes_refusedEffects (port f) : s.changes Writes.post (s.refusedEffects port f) := by
  unfold State.refusedEffects
  extract_lets q1 h2
  split
  · exact .refl
  · split
    · exact State.changes_ite ((State.changes_pageFault ..).after .refl) ((State.changes_classRefused ..).after .refl)
    · exact .refl

theorem State.changes_nack (port f code) : s.changes [.outbox, .ctrs, .ports, .loop] (s.nack port f code) := by
  unfold State.nack
  exact State.changes_ite ((State.changes_sendFrame ..).after .refl) ((State.changes_setPort_rx (by split <;> rfl)).after ((State.changes_count
      ..).after ((State.changes_sendFrame ..).after .refl)))

theorem State.changes_ack (port tag) : s.changes [.outbox, .ctrs, .ports, .loop] (s.ack port tag) := by
  unfold State.ack
  exact (State.changes_sendFrame ..).after .refl

theorem State.changes_rdata (port tag d poison) : s.changes [.outbox, .ctrs, .ports, .loop] (s.rdata port tag d poison) := by
  unfold State.rdata
  exact (State.changes_sendFrame ..).after .refl

theorem State.changes_meetTarget (t) : s.changes Writes.lpTouch (s.meetTarget t) := by
  unfold State.meetTarget
  split
  · exact (State.changes_lpMeet ..).after .refl
  · exact (State.changes_meetRow ..).after .refl
  · exact .refl

def Writes.land : List Field := [.free, .outbox, .regs, .ctrs, .rows, .lpddr, .checks, .window, .ceRows, .copying, .epoch, .cores, .ports, .loop,
  .mbxWaits, .evHead, .evLost, .evOver, .nv, .shape]

theorem State.changes_land (port f) : Served.all (s.changes Writes.land) (s.land port f) := by
  unfold State.land
  extract_lets q1 h2 kind3 poison4 t5 waitsLp6 c7 ts8 s9 s10
  have hs9 : s.changes Writes.land s9 := State.changes_foldl .refl fun _ _ ht => (State.changes_meetTarget ..).after ht
  have hs10 : s.changes Writes.land s10 := (State.changes_meetTarget ..).after .refl
  refine Served.all_ite Served.all_held ?_
  generalize kind3 = kind3'
  generalize t5 = t5'
  split
  · exact Served.all_done ((State.changes_ack ..).after ((State.changes_accumApply ..).after .refl))
  · split
    · exact Served.all_park
    · exact Served.all_held
    · exact Served.all_done ((State.changes_sendFrame ..).after (State.changes_ite (State.changes_foldl hs9 fun _ _ ht4 => (State.changes_rdata
          ..).after ht4) hs9))
  · exact Served.all_ite Served.all_park (Served.all_done ((State.changes_ack ..).after ((State.changes_fill ..).after .refl)))
  · extract_lets x11
    refine Served.all_ite (Served.all_done ((State.changes_rdata ..).after ((State.changes_dmaTaken ..).after ((State.changes_meetRow ..).after
        .refl)))) ?_
    exact Served.all_park
  · exact Served.all_done ((State.changes_rdata ..).after hs10)
  · exact Served.all_ite (Served.all_done ((State.changes_ack ..).after ((State.changes_fill ..).after .refl))) Served.all_park
  · exact Served.all_done ((State.changes_ack ..).after ((State.changes_lpWrite ..).after .refl))
  · exact Served.all_held

theorem State.changes_addPark (port num f r) : s.changes [.regs, .waits, .arrivals, .gates] (s.addPark port num f r) := by
  unfold State.addPark
  extract_lets g1 x2 s3
  refine State.changes_have (t := s3) ((State.changes_syncGate ..).after ((State.changes_setGate ..).after .refl)) fun hs3 => ?_
  split
  · exact (State.changes_set_waits ..).after hs3
  · exact (State.changes_standBy ..).after hs3

theorem State.changes_serveReq (ahead port f) : Served.all (s.changes Writes.land) (s.serveReq ahead port f) := by
  unfold State.serveReq
  extract_lets code1
  refine Served.all_ite (Served.all_done ((State.changes_nack ..).after (State.changes_ite ((State.changes_refusedEffects ..).after .refl) .refl))) ?_
  split
  · exact Served.all_park
  · exact (State.changes_land ..).imp fun _ k => k.after .refl

def Writes.tryReq : List Field := [.free, .outbox, .regs, .ctrs, .rows, .lpddr, .checks, .window, .ceRows, .copying, .epoch, .cores, .waits,
  .arrivals, .ports, .gates, .loop, .mbxWaits, .evHead, .evLost, .evOver, .nv, .shape]

theorem State.changes_tryReq (port num f) : Opt.all (s.changes Writes.tryReq) (s.tryReq port num f) := by
  unfold State.tryReq
  extract_lets full1
  split
  · rename_i he
    exact Opt.all_some ((Served.all_of he (State.changes_serveReq ..)).after .refl)
  · exact Opt.all_ite Opt.all_none (Opt.all_some ((State.changes_addPark ..).after .refl))
  · exact Opt.all_some ((State.changes_addPark ..).after .refl)

theorem State.changes_freePlace (port num) : s.changes [.ports] (s.freePlace port num) := by
  unfold State.freePlace
  exact State.changes_ite .refl ((State.changes_setPort_rx (by rfl)).after .refl)

theorem State.changes_retryHeld (port a) : s.changes Writes.tryReq (s.retryHeld port a) := by
  induction a generalizing s port with
  | zero =>
    exact .refl
  | succ a ih =>
    unfold State.retryHeld
    extract_lets x1
    split
    · exact .refl
    · split
      · exact .refl
      · rename_i he1
        exact (ih ..).after ((State.changes_freePlace ..).after ((State.changes_setPort_rx (by rfl)).after ((Opt.all_of he1 (State.changes_tryReq ..)).after
            .refl)))

theorem State.changes_retryGate (g) : s.changes Writes.tryReq (s.retryGate g) := by
  unfold State.retryGate
  exact State.changes_foldl .refl fun _ _ ht => (State.changes_retryHeld ..).after ht

theorem State.changes_keepPark (g e r) : s.changes [.regs, .waits, .arrivals, .gates] (s.keepPark g e r) := by
  unfold State.keepPark
  extract_lets x1 s2 w3
  refine State.changes_have (t := s2) ((State.changes_syncGate ..).after ((State.changes_setGate ..).after .refl)) fun hs2 => ?_
  split
  · exact State.changes_ite hs2 ((State.changes_set_waits ..).after hs2)
  · exact (State.changes_standBy ..).after hs2

theorem State.changes_landHeld (e) : Served.all (s.changes Writes.land) (s.landHeld e) := by
  unfold State.landHeld
  split
  · exact (State.changes_land ..).imp fun _ k => k.after .refl
  · split
    · rename_i he1
      exact Served.all_done ((State.changes_setFld ..).after ((Served.all_of he1 (State.changes_land ..)).after ((State.changes_setFld ..).after
          .refl)))
    · exact (State.changes_land ..).imp fun _ k => k.after ((State.changes_setFld ..).after .refl)

theorem State.changes_tryPark (g e) : s.changes Writes.tryReq (s.tryPark g e) := by
  unfold State.tryPark
  extract_lets _ drop place
  have dropped {s' k} (h : s.changes Writes.tryReq s') : s.changes Writes.tryReq (drop s' k) := (State.changes_set_waits ..).after h
  have placed {s'} (h : s.changes Writes.tryReq s') : s.changes Writes.tryReq (place s') := by
    unfold place
    split
    · exact (State.changes_freePlace ..).after h
    · exact h
  split
  · rename_i he
    have hs := Served.all_of he (P := s.changes Writes.tryReq) (Served.all_ite ((State.changes_landHeld ..).imp fun _ k => k.after .refl)
      ((State.changes_serveReq ..).imp fun _ k => k.after .refl))
    exact placed (dropped ((State.changes_syncGate ..).after ((State.changes_setGate ..).after hs)))
  · exact placed ((State.changes_keepPark ..).after (dropped .refl))
  · exact (State.changes_keepPark ..).after (dropped .refl)

theorem State.changes_retryPark (g e p) : s.changes Writes.tryReq (s.retryPark g e p) := by
  unfold State.retryPark
  extract_lets after1 n2 s3
  refine State.changes_ite ?_ ?_
  · exact (State.changes_retryGate ..).after (State.changes_foldl ((State.changes_tryPark ..).after .refl) fun _ _ ht1 => State.changes_ite
        ((State.changes_tryPark ..).after ht1) ht1)
  · exact ((State.changes_tryPark ..).after .refl)

theorem State.changes_retryParked (p) : s.changes Writes.tryReq (s.retryParked p) := by
  unfold State.retryParked
  exact State.changes_foldl .refl fun _ _ ht => State.changes_foldl ht fun _ _ ht1 => State.changes_ite ((State.changes_retryPark ..).after ht1) ht1

def Writes.landArrived : List Field := [.free, .outbox, .regs, .ctrs, .rows, .lpddr, .checks, .window, .ceRows, .copying, .epoch, .cores, .chans,
  .waits, .arrivals, .ports, .gates, .loop, .mbxWaits, .stageWord, .evHead, .evTail, .evLost, .evOver, .nv, .shape]

theorem State.changes_landArrived (cl ch xfer q) : s.changes Writes.landArrived (s.landArrived cl ch xfer q) := by
  unfold State.landArrived
  split
  · exact .refl
  · split
    · exact .refl
    · refine State.changes_ite .refl ?_
      extract_lets put1
      split
      · rename_i he3
        exact (State.changes_setChan ..).after ((Landed.all_of he3 (State.changes_landMove ..)).after .refl)
      · rename_i he3
        exact (Landed.all_of he3 (State.changes_landMove ..)).after .refl
      · exact .refl

theorem State.changes_retryArrival (a) : s.changes Writes.landArrived (s.retryArrival a) := by
  unfold State.retryArrival
  split
  · exact (State.changes_landArrived ..).after .refl
  · split
    · exact (State.changes_retryPark ..).after .refl
    · exact .refl
  · exact (State.changes_accumWrite ..).after .refl

theorem State.changes_granariesGo : s.changes Writes.passMoves s.granariesGo := by
  unfold State.granariesGo
  extract_lets s1 as2 s3
  refine State.changes_have (t := s1) ((State.changes_landHeldRows ..).after .refl) fun hs1 => ?_
  refine State.changes_have (t := s3) (State.changes_foldl ((State.changes_set_arrivals ..).after hs1) fun _ _ ht => (State.changes_retryArrival
      ..).after ht) fun hs3 => ?_
  exact State.changes_foldl hs3 fun _ _ ht => (State.changes_resumePart ..).after ht

theorem State.changes_setTithe (t) : s.changes [.tithes] (s.setTithe t) := by
  unfold State.setTithe
  exact (State.changes_set_tithes ..).after .refl

theorem State.changes_settleWin (g) : s.changes [.regs] (s.settleWin g) := by
  unfold State.settleWin
  exact State.changes_ite ((State.changes_setFld ..).after .refl) .refl

theorem State.changes_endTithe (t failed) : s.changes [.regs, .ctrs, .tithes] (s.endTithe t failed) := by
  unfold State.endTithe
  exact (State.changes_settleWin ..).after (State.changes_ite ((State.changes_count ..).after ((State.changes_set_tithes ..).after .refl))
      ((State.changes_set_tithes ..).after .refl))

def Writes.pushTithe : List Field := [.outbox, .regs, .ctrs, .tithes, .ports, .gates, .loop]

theorem State.changes_pushTithe (id a) : s.changes Writes.pushTithe (s.pushTithe id a) := by
  induction a generalizing s id with
  | zero =>
    exact .refl
  | succ a ih =>
    unfold State.pushTithe
    split
    · exact .refl
    · refine State.changes_ite .refl ?_
      split
      · exact .refl
      · split
        · exact (State.changes_endTithe ..).after .refl
        · split
          · exact .refl
          · rename_i he4
            exact (ih ..).after ((State.changes_setTithe ..).after ((Opt.all_of he4 (State.changes_request ..)).after .refl))

theorem State.changes_titheAck (id) : s.changes Writes.pushTithe (s.titheAck id) := by
  unfold State.titheAck
  split
  · exact .refl
  · refine State.changes_ite ?_ ?_
    · exact (State.changes_pushTithe ..).after ((State.changes_setTithe ..).after .refl)
    · exact State.changes_ite ((State.changes_endTithe ..).after .refl) ((State.changes_pushTithe ..).after ((State.changes_setTithe ..).after .refl))

def Writes.pushRestore : List Field := [.outbox, .regs, .ctrs, .restore, .ports, .gates, .loop]

theorem State.changes_pushRestore (a) : s.changes Writes.pushRestore (s.pushRestore a) := by
  induction a generalizing s with
  | zero =>
    exact .refl
  | succ a ih =>
    unfold State.pushRestore
    split
    · exact .refl
    · refine State.changes_ite .refl ?_
      split
      · extract_lets s1
        refine State.changes_have (t := s1) ((State.changes_set_restore ..).after .refl) fun hs1 => ?_
        split
        · split
          · exact .refl
          · rename_i he4
            exact (ih ..).after ((State.changes_set_restore ..).after ((Opt.all_of he4 (State.changes_request ..)).after .refl))
        · exact (ih ..).after hs1

theorem State.changes_restoreAns (row d) : s.changes Writes.pushRestore (s.restoreAns row d) := by
  unfold State.restoreAns
  split
  · exact .refl
  · exact (State.changes_pushRestore ..).after ((State.changes_set_restore ..).after .refl)

theorem State.changes_sendPacket (x) : Opt.all (s.changes [.outbox, .regs, .ctrs, .ports, .gates, .loop]) (s.sendPacket x) := by
  unfold State.sendPacket
  split
  · extract_lets off1
    split
    · exact Opt.all_some .refl
    · exact (State.changes_request ..).imp fun _ k => k.after .refl

def Writes.go : List Field := [.outbox, .regs, .ctrs, .packetsOut, .ports, .gates, .loop]

theorem State.pushPackets.changes_go (a) : s.changes Writes.go (State.pushPackets.go a s) := by
  induction a generalizing s with
  | zero =>
    exact .refl
  | succ a ih =>
    unfold State.pushPackets.go
    split
    · exact .refl
    · split
      · rename_i he1
        exact (ih ..).after ((State.changes_set_packetsOut ..).after ((Opt.all_of he1 (State.changes_sendPacket ..)).after .refl))
      · exact .refl

theorem State.changes_pushPackets : s.changes Writes.go s.pushPackets := by
  unfold State.pushPackets
  exact (State.pushPackets.changes_go ..).after .refl

def Writes.nacked : List Field := [.free, .outbox, .regs, .shadow, .ctrs, .rows, .lpddr, .checks, .window, .ceRows, .copying, .epoch, .bringups,
  .cores, .chans, .waits, .arrivals, .tithes, .restore, .ports, .gates, .loop, .mbxWaits, .stageWord, .evHead, .evTail, .evLost, .evOver, .nv,
  .shape]

theorem State.changes_nacked (e code) : s.changes Writes.nacked (s.nacked e code) := by
  unfold State.nacked
  split
  · split
    · exact (State.changes_endTithe ..).after .refl
    · exact .refl
  · exact (State.changes_restoreAns ..).after .refl
  · exact .refl
  · split
    · exact .refl
    · exact (State.changes_modXfer ..).after (State.changes_ite ((State.changes_countJob ..).after .refl) .refl)

theorem State.changes_timedOut (e) : s.changes Writes.nacked (s.timedOut e) := by
  unfold State.timedOut
  split
  · exact (State.changes_modXfer ..).after .refl
  · exact (State.changes_nacked ..).after .refl
  · exact (State.changes_nacked ..).after .refl
  · exact .refl
  · exact (State.changes_modXfer ..).after .refl

def Writes.otRoom : List Field := [.free, .outbox, .regs, .shadow, .ctrs, .rows, .lpddr, .checks, .window, .ceRows, .copying, .epoch, .bringups,
  .cores, .chans, .waits, .arrivals, .tithes, .packetsOut, .restore, .ports, .gates, .loop, .mbxWaits, .stageWord, .evHead, .evTail, .evLost,
  .evOver, .nv, .shape]

theorem State.changes_otRoom : s.changes Writes.otRoom s.otRoom := by
  unfold State.otRoom
  extract_lets s1
  refine State.changes_have (t := s1) (State.changes_foldl .refl fun _ _ ht => (State.changes_resumeChan ..).after ht) fun hs1 => ?_
  exact (State.changes_pushPackets ..).after ((State.changes_pushRestore ..).after (State.changes_foldl hs1 fun _ _ ht => (State.changes_pushTithe
      ..).after ht))

theorem State.changes_otFreed (g tag) : s.changes Writes.otRoom (s.otFreed g tag) := by
  unfold State.otFreed
  exact State.changes_ite ((State.changes_otRoom ..).after ((State.changes_otFree ..).after .refl)) ((State.changes_otFree ..).after .refl)

theorem State.changes_respond (port resp hdr d) : s.changes Writes.otRoom (s.respond port resp hdr d) := by
  unfold State.respond
  extract_lets g1 tag2 x3 s4
  refine State.changes_have (t := s4) (State.changes_ite .refl ((State.changes_count ..).after .refl)) fun hs4 => ?_
  split
  · exact .refl
  · refine State.changes_ite ((State.changes_count ..).after ((State.changes_otFreed ..).after .refl)) ?_
    split
    · exact (State.changes_modXfer ..).after ((State.changes_setGate ..).after .refl)
    · exact (State.changes_restoreAns ..).after ((State.changes_otFreed ..).after .refl)
    · exact (State.changes_titheAck ..).after ((State.changes_otFreed ..).after .refl)
    · exact (State.changes_otFreed ..).after .refl
    · exact (State.changes_modXfer ..).after ((State.changes_otFreed ..).after ((State.changes_count ..).after .refl))
    · exact (State.changes_modXfer ..).after ((State.changes_otFreed ..).after .refl)
    · exact (State.changes_nacked ..).after ((State.changes_otFreed ..).after hs4)
    · exact (State.changes_modXfer ..).after ((State.changes_otFreed ..).after .refl)

theorem State.deliverOne.changes_hold (port num f) : s.changes [.ports] (State.deliverOne.hold port num f s) := by
  unfold State.deliverOne.hold
  exact (State.changes_setPort_rx (by rfl)).after .refl

theorem State.deliverOne.changes_put (port num f) : s.changes Writes.tryReq (State.deliverOne.put port num f s) := by
  unfold State.deliverOne.put
  refine State.changes_ite ?_ ?_
  · exact (State.deliverOne.changes_hold ..).after .refl
  · exact State.changes_getD ((State.changes_tryReq ..).imp fun _ k => k.after .refl) ((State.deliverOne.changes_hold ..).after .refl)

theorem State.changes_deliverOne (port num f) : s.changes Writes.otRoom (s.deliverOne port num f) := by
  unfold State.deliverOne
  split
  · exact (State.changes_respond ..).after .refl
  · exact State.changes_ite ((State.deliverOne.changes_put ..).after .refl) ((State.changes_respond ..).after .refl)
  · exact (State.deliverOne.changes_put ..).after .refl

theorem State.changes_deliverFrame (port num f) : s.changes Writes.otRoom (s.deliverFrame port num f) := by
  unfold State.deliverFrame
  refine State.changes_ite ?_ ?_
  · exact State.changes_ite .refl ((State.changes_linkCount ..).after ((State.changes_count ..).after .refl))
  · exact State.changes_foldl .refl fun _ _ ht1 => (State.changes_deliverOne ..).after ht1

theorem State.changes_sendAck (port) : s.changes [.outbox, .ports] (s.sendAck port) := by
  unfold State.sendAck
  exact (State.changes_sendControl ..).after ((State.changes_setPort_rx (by rfl)).after .refl)

def Writes.receive : List Field := .rx :: Writes.otRoom

theorem State.changes_receive (port f) : s.changes Writes.receive (s.receive port f) := by
  unfold State.receive
  refine State.changes_ite ((State.changes_deliverFrame ..).after .refl) ?_
  extract_lets x1 num2 s3 s4 x5 s6
  refine State.changes_have (t := s4) ((State.changes_count ..).after ((State.changes_setPort ..).after .refl)) fun hs4 => ?_
  refine State.changes_have (t := s6) (State.changes_ite ((State.changes_setPort ..).after hs4) ((State.changes_freePlace ..).after
      ((State.changes_deliverFrame ..).after hs4))) fun hs6 => ?_
  exact State.changes_ite .refl (State.changes_ite ((State.changes_setPort ..).after .refl) (State.changes_ite ((State.changes_sendAck ..).after hs6)
      hs6))

/-! Link. -/

theorem State.changes_hello (p) : s.changes [.free, .outbox, .ports] (s.hello p) := by
  unfold State.hello
  exact (State.changes_emit ..).after ((State.changes_setPort_rx (by rfl)).after ((State.changes_set_free ..).after .refl))

theorem State.changes_dropPort (p) : s.changes Writes.receive (s.dropPort p) := by
  unfold State.dropPort
  extract_lets g1 x2 mine3 parked4 ot5 park6 s7 gone8 s9 s10 s11
  refine State.changes_have (t := s7) ((State.changes_syncGate ..).after ((State.changes_setGate ..).after .refl)) fun hs7 => ?_
  refine State.changes_have (t := s10) ((State.changes_setPort ..).after ((State.changes_set_waits ..).after hs7)) fun hs10 => ?_
  refine State.changes_have (t := s11) (State.changes_foldl hs10 fun _ _ ht => State.changes_ite ht ((State.changes_timedOut ..).after
      ((State.changes_count ..).after ht))) fun hs11 => ?_
  exact (State.changes_retryGate ..).after (State.changes_ite ((State.changes_otRoom ..).after hs11) hs11)

theorem State.changes_enterPort (p st reason) : s.changes Writes.receive (s.enterPort p st reason) := by
  unfold State.enterPort
  extract_lets was1 x2 s3 s4 now5 s6 s7 s8
  refine State.changes_have (t := s3) (State.changes_ite ((State.changes_setPort ..).after .refl) .refl) fun hs3 => ?_
  refine State.changes_have (t := s4) ((State.changes_setFld ..).after ((State.changes_setFld ..).after hs3)) fun hs4 => ?_
  refine State.changes_have (t := s6) (State.changes_ite ((State.changes_dropPort ..).after hs4) hs4) fun hs6 => ?_
  refine State.changes_have (t := s7) (State.changes_ite ((State.changes_setPort ..).after hs6) hs6) fun hs7 => ?_
  exact State.changes_ite ((State.changes_hello ..).after ((State.changes_linkEvent ..).after hs7)) ((State.changes_linkEvent ..).after hs7)

theorem State.changes_retrain (p fourth) : s.changes Writes.receive (s.retrain p fourth) := by
  unfold State.retrain
  exact State.changes_ite ((State.changes_enterPort ..).after ((State.changes_count ..).after .refl)) ((State.changes_enterPort ..).after
      ((State.changes_count ..).after .refl))

theorem State.changes_authFail (p reason) : s.changes Writes.receive (s.authFail p reason) := by
  unfold State.authFail
  exact (State.changes_enterPort ..).after ((State.changes_count ..).after .refl)

theorem changes_execLinkTrained (port) : Res.all (s.changes Writes.receive) (execLinkTrained port s) := by
  unfold execLinkTrained
  exact Res.all_unitOk (Res.all_need .refl (Res.all_next ((State.changes_enterPort ..).after .refl)))

theorem changes_execLinkTrainTimeout (port) : Res.all (s.changes Writes.receive) (execLinkTrainTimeout port s) := by
  unfold execLinkTrainTimeout
  exact Res.all_unitOk (Res.all_need .refl (Res.all_next ((State.changes_enterPort ..).after .refl)))

theorem changes_execAuthTimeout (port) : Res.all (s.changes Writes.receive) (execAuthTimeout port s) := by
  unfold execAuthTimeout
  exact Res.all_unitOk (Res.all_need .refl (Res.all_next ((State.changes_authFail ..).after .refl)))

theorem State.changes_berWindow (p bits words uncorr) : s.changes Writes.receive (s.berWindow p bits words uncorr) := by
  unfold State.berWindow
  extract_lets s1 st2
  refine State.changes_have (t := s1) ((State.changes_count ..).after ((State.changes_count ..).after .refl)) fun hs1 => ?_
  exact State.changes_ite hs1 ((State.changes_enterPort ..).after hs1)

theorem changes_execLinkBerWindow (port bits words uncorr) : Res.all (s.changes Writes.receive) (execLinkBerWindow port bits words uncorr s) := by
  unfold execLinkBerWindow
  exact Res.all_unitOk (Res.all_need .refl (Res.all_next ((State.changes_berWindow ..).after .refl)))

theorem changes_execLinkLockLoss (port fourth) : Res.all (s.changes Writes.receive) (execLinkLockLoss port fourth s) := by
  unfold execLinkLockLoss
  exact Res.all_unitOk (Res.all_need .refl (Res.all_next ((State.changes_retrain ..).after .refl)))

theorem changes_execLinkRetrain (port fourth) : Res.all (s.changes Writes.receive) (execLinkRetrain port fourth s) := by
  unfold execLinkRetrain
  exact Res.all_unitOk (Res.all_need .refl (Res.all_next ((State.changes_retrain ..).after .refl)))

theorem State.changes_resendOne (p q) : s.changes [.outbox, .ports] (s.resendOne p q) := by
  unfold State.resendOne
  extract_lets s1 x2 s3
  refine State.changes_have (t := s3) ((State.changes_setPort_rx (by rfl)).after ((State.changes_sendWire ..).after .refl)) fun hs3 => ?_
  have hx : x2.rxPlace = (s3.port p).rxPlace := by
    rw [State.port_setPort_same]
    rfl
  split
  · exact (State.changes_setPort_rx (by exact hx)).after ((State.changes_sendWire ..).after hs3)
  · exact State.changes_ite ((State.changes_sendControl ..).after hs3) hs3

theorem State.changes_resend (p l) : s.changes [.outbox, .ports] (s.resend p l) := by
  unfold State.resend
  exact State.changes_foldl .refl fun _ _ ht => (State.changes_resendOne ..).after ht

theorem State.changes_replayFrom (p n) : s.changes [.outbox, .ctrs, .ports] (s.replayFrom p n) := by
  unfold State.replayFrom
  exact State.changes_ite .refl ((State.changes_setPort_rx (by rfl)).after ((State.changes_resend ..).after ((State.changes_count ..).after
      ((State.changes_sendControl ..).after .refl))))

theorem changes_execReplayTimer (port) : Res.all (s.changes [.outbox, .ctrs, .ports]) (execReplayTimer port s) := by
  unfold execReplayTimer
  refine Res.all_unitOk ?_
  split
  · exact Res.all_next .refl
  · exact Res.all_need .refl (Res.all_next ((State.changes_replayFrom ..).after .refl))

theorem State.changes_sendNak (p) : s.changes [.outbox, .ports, .rx] (s.sendNak p) := by
  unfold State.sendNak
  exact (State.changes_sendControl ..).after ((State.changes_setPort ..).after .refl)

theorem changes_execNakTimer (port) : Res.all (s.changes [.outbox, .ports, .rx]) (execNakTimer port s) := by
  unfold execNakTimer
  exact Res.all_unitOk (Res.all_need .refl (Res.all_next ((State.changes_sendNak ..).after .refl)))

theorem changes_execAckTimer (port) : Res.all (s.changes [.outbox, .ports]) (execAckTimer port s) := by
  unfold execAckTimer
  exact Res.all_unitOk (Res.all_need .refl (Res.all_next ((State.changes_sendAck ..).after .refl)))

theorem State.changes_badCrc (p) : s.changes [.outbox, .ctrs, .ports, .rx] (s.badCrc p) := by
  unfold State.badCrc
  exact State.changes_ite ((State.changes_count ..).after .refl) ((State.changes_sendNak ..).after ((State.changes_count ..).after .refl))

theorem changes_execBadCrcFrame (port) : Res.all (s.changes [.outbox, .ctrs, .ports, .rx]) (execBadCrcFrame port s) := by
  unfold execBadCrcFrame
  exact Res.all_unitOk (Res.all_need .refl (Res.all_next ((State.changes_badCrc ..).after .refl)))

theorem State.changes_badControl (p) : s.changes Writes.post (s.badControl p) := by
  unfold State.badControl
  exact (State.changes_linkCount ..).after ((State.changes_count ..).after .refl)

theorem changes_execReservedTypeFrame (port hdr) : Res.all (s.changes Writes.receive) (execReservedTypeFrame port hdr s) := by
  unfold execReservedTypeFrame
  exact Res.all_unitOk (Res.all_need .refl (Res.all_next (State.changes_ite ((State.changes_badControl ..).after .refl) ((State.changes_receive
      ..).after .refl))))

theorem changes_control {kind port hdr k} (hk : s.changes M (k ())) (hM : Field.within Writes.post M := by decide +kernel) :
    Res.all (s.changes M) (control kind port hdr s k) :=
  Res.all_unitOk (Res.all_need .refl (Res.all_next (State.changes_ite hk ((State.changes_badControl ..).after .refl (Field.within_trans hM)))))

theorem State.changes_acked (p n credits) : s.changes [.outbox, .ctrs, .ports] (s.acked p n credits) := by
  unfold State.acked
  extract_lets x1 oldest2 k3 gone4 x5
  have hx : x5.rxPlace = x1.rxPlace := by
    show (if _ then _ else _ : Port).rxPlace = _
    split <;> rfl
  exact (State.changes_drainPort ..).after ((State.changes_setPort_rx (by exact hx)).after .refl)

def Writes.execCtlAck : List Field := [.outbox, .regs, .ctrs, .window, .ports, .mbxWaits, .evHead, .evLost, .evOver]

theorem changes_execCtlAck (port hdr) : Res.all (s.changes Writes.execCtlAck) (execCtlAck port hdr s) := by
  unfold execCtlAck
  exact changes_control ((State.changes_acked ..).after .refl)

theorem changes_execCtlNak (port hdr) : Res.all (s.changes Writes.execCtlAck) (execCtlNak port hdr s) := by
  unfold execCtlNak
  exact changes_control ((State.changes_replayFrom ..).after .refl)

theorem State.changes_replayed (p n) : s.changes [.ports, .rx] (s.replayed p n) := by
  unfold State.replayed
  exact State.changes_ite (State.changes_ite ((State.changes_setPort ..).after .refl) .refl) ((State.changes_setPort ..).after .refl)

theorem changes_execCtlReplay (port hdr) : Res.all (s.changes (.rx :: Writes.execCtlAck)) (execCtlReplay port hdr s) := by
  unfold execCtlReplay
  exact changes_control ((State.changes_replayed ..).after .refl)

theorem State.changes_segTag (p n gcm) : s.changes Writes.receive (s.segTag p n gcm) := by
  unfold State.segTag
  extract_lets x1 first2 fs3 s4 s5
  refine State.changes_ite .refl ?_
  refine State.changes_ite ?_ ?_
  · refine State.changes_foldl ((State.changes_setPort ..).after .refl) fun _ _ ht2 => ?_
    split
    · exact (State.changes_freePlace ..).after ((State.changes_deliverFrame ..).after ht2)
    · exact ht2
  · refine State.changes_ite ?_ ?_
    · exact (State.changes_enterPort ..).after ((State.changes_count ..).after .refl)
    · exact (State.changes_sendNak ..).after ((State.changes_setPort ..).after ((State.changes_count ..).after .refl))

theorem changes_execCtlSegTag (port hdr gcm) : Res.all (s.changes Writes.receive) (execCtlSegTag port hdr gcm s) := by
  unfold execCtlSegTag
  exact changes_control ((State.changes_segTag ..).after .refl)

theorem changes_execCtlIdle (port hdr) : Res.all (s.changes Writes.post) (execCtlIdle port hdr s) := by
  unfold execCtlIdle
  exact changes_control .refl

theorem State.changes_handshakeDone (p draw mine theirs) : s.changes Writes.receive (s.handshakeDone p draw mine theirs) := by
  unfold State.handshakeDone
  extract_lets x1 low2 s3
  refine State.changes_ite ?_ ?_
  · exact (State.changes_drainPort ..).after ((State.changes_setPort ..).after .refl)
  · exact (State.changes_enterPort ..).after ((State.changes_setPort ..).after .refl)

theorem State.changes_helloIn (p h) : s.changes Writes.receive (s.helloIn p h) := by
  unfold State.helloIn
  refine State.changes_ite ((State.changes_authFail ..).after .refl) ?_
  refine State.changes_ite ((State.changes_authFail ..).after .refl) ?_
  refine State.changes_ite ((State.changes_authFail ..).after .refl) ?_
  refine State.changes_ite ((State.changes_authFail ..).after .refl) ?_
  extract_lets x1 s2
  split
  · exact (State.changes_emit ..).after ((State.changes_setPort_rx (by rfl)).after .refl)
  · exact ((State.changes_setPort_rx (by rfl)).after .refl)

theorem State.changes_proofIn (p sig) : s.changes Writes.receive (s.proofIn p sig) := by
  unfold State.proofIn
  split
  · exact State.changes_ite ((State.changes_handshakeDone ..).after .refl) ((State.changes_authFail ..).after .refl)
  · exact .refl

theorem State.changes_handshake (p m) : s.changes Writes.receive (s.handshake p m) := by
  unfold State.handshake
  split
  · exact (State.changes_helloIn ..).after .refl
  · exact (State.changes_proofIn ..).after .refl

theorem changes_execCtlHandshake (port msg) : Res.all (s.changes Writes.receive) (execCtlHandshake port msg s) := by
  unfold execCtlHandshake
  exact Res.all_unitOk (Res.all_need .refl (Res.all_next ((State.changes_handshake ..).after .refl)))

theorem State.changes_startRekey (p) : s.changes [.free, .outbox, .ports] (s.startRekey p) := by
  unfold State.startRekey
  exact (State.changes_hello ..).after ((State.changes_setPort_rx (by rfl)).after ((State.changes_closeSegment ..).after .refl))

theorem changes_execPortRekey (port) : Res.all (s.changes [.free, .outbox, .ports]) (execPortRekey port s) := by
  unfold execPortRekey
  exact Res.all_unitOk (Res.all_need .refl (Res.all_next ((State.changes_startRekey ..).after .refl)))

theorem changes_execSegmentRekey (port) : Res.all (s.changes [.free, .outbox, .ports]) (execSegmentRekey port s) := by
  unfold execSegmentRekey
  exact Res.all_unitOk (Res.all_need .refl (Res.all_next ((State.changes_startRekey ..).after .refl)))

theorem State.changes_unloop (port) : s.changes [.loop] (s.unloop port) := by
  unfold State.unloop
  exact State.changes_ite ((State.changes_set_loop ..).after .refl) .refl

theorem State.changes_arrive (port f crc) : s.changes Writes.receive (s.arrive port f crc) := by
  unfold State.arrive
  exact State.changes_ite ((State.changes_badCrc ..).after .refl) ((State.changes_receive ..).after ((State.changes_unloop ..).after .refl))

theorem changes_frameIn (type_ port f crc) : Res.all (s.changes Writes.receive) (frameIn type_ port f crc s) := by
  unfold frameIn
  exact Res.all_unitOk (Res.all_need .refl (Res.all_next ((State.changes_arrive ..).after .refl)))

theorem changes_execFrameWrite (port f) : Res.all (s.changes Writes.receive) (execFrameWrite port f s) := by
  unfold execFrameWrite
  exact (changes_frameIn ..).imp fun _ k => k.after .refl

theorem changes_execFrameWriteOw (port f) : Res.all (s.changes Writes.receive) (execFrameWriteOw port f s) := by
  unfold execFrameWriteOw
  exact (changes_frameIn ..).imp fun _ k => k.after .refl

theorem changes_execFrameAccum (port f) : Res.all (s.changes Writes.receive) (execFrameAccum port f s) := by
  unfold execFrameAccum
  exact (changes_frameIn ..).imp fun _ k => k.after .refl

theorem changes_execFrameCountReq (port f) : Res.all (s.changes Writes.receive) (execFrameCountReq port f s) := by
  unfold execFrameCountReq
  exact (changes_frameIn ..).imp fun _ k => k.after .refl

theorem changes_execFrameSreduce (port f) : Res.all (s.changes Writes.receive) (execFrameSreduce port f s) := by
  unfold execFrameSreduce
  exact (changes_frameIn ..).imp fun _ k => k.after .refl

theorem changes_execFrameRdata (port f) : Res.all (s.changes Writes.receive) (execFrameRdata port f s) := by
  unfold execFrameRdata
  exact (changes_frameIn ..).imp fun _ k => k.after .refl

theorem changes_execFrameBatch (port f) : Res.all (s.changes Writes.receive) (execFrameBatch port f s) := by
  unfold execFrameBatch
  exact (changes_frameIn ..).imp fun _ k => k.after .refl

theorem State.changes_remoteTimeout (g tag e) : s.changes Writes.nacked (s.remoteTimeout g tag e) := by
  unfold State.remoteTimeout
  exact (State.changes_timedOut ..).after ((State.changes_count ..).after ((State.changes_setGate ..).after .refl))

theorem changes_execRemoteTimeout (gate tag) : Res.all (s.changes Writes.nacked) (execRemoteTimeout gate tag s) := by
  unfold execRemoteTimeout
  refine Res.all_unitOk ?_
  split
  · exact Res.all_next .refl
  · exact Res.all_need .refl (Res.all_next ((State.changes_remoteTimeout ..).after .refl))

/-! Apply. -/

theorem State.changes_setApply (b st rule stamp) : s.changes [.regs] (s.setApply b st rule stamp) := by
  unfold State.setApply
  extract_lets r1 s2
  refine State.changes_have (t := s2) ((State.changes_setFld ..).after ((State.changes_setFld ..).after .refl)) fun hs2 => ?_
  exact State.changes_ite ((State.changes_setFld ..).after hs2) hs2

theorem State.changes_armBlk (b late) : s.changes [.regs, .late] (s.armBlk b late) := by
  unfold State.armBlk
  refine State.changes_ite .refl ?_
  extract_lets s1
  refine State.changes_have (t := s1) ((State.changes_setApply ..).after ((State.changes_setFld ..).after .refl)) fun hs1 => ?_
  exact State.changes_ite ((State.changes_set_late ..).after hs1) hs1

theorem State.changes_unarm (b) : s.changes [.regs, .late] (s.unarm b) := by
  unfold State.unarm
  exact (State.changes_set_late ..).after ((State.changes_setFld ..).after .refl)

theorem State.changes_disarm (b) : s.changes [.regs, .late] (s.disarm b) := by
  unfold State.disarm
  exact State.changes_ite ((State.changes_setApply ..).after ((State.changes_unarm ..).after .refl)) .refl

theorem State.changes_regWrite (r v) : s.changes [.regs, .shadow, .late] (s.regWrite r v) := by
  unfold State.regWrite
  refine State.changes_ite .refl ?_
  extract_lets s1 s2
  refine State.changes_have (t := s2) ((State.changes_wrS ..).after ((State.changes_wr ..).after .refl)) fun hs2 => ?_
  refine State.changes_ite ?_ ((State.changes_wr ..).after .refl)
  split
  · exact (State.changes_disarm ..).after hs2
  · exact hs2

theorem State.changes_markWrite (r) : s.changes [.cores, .beat] (s.markWrite r) := by
  unfold State.markWrite
  split
  · exact (State.changes_set_beat ..).after .refl
  · exact (State.changes_setCore ..).after .refl
  · exact .refl

theorem State.changes_resetAnswer (agent) : s.changes [.outbox] (s.resetAnswer agent) := by
  unfold State.resetAnswer
  exact (State.changes_emit ..).after .refl

theorem State.changes_busError (agent addr) : s.changes Writes.post (s.busError agent addr) := by
  unfold State.busError
  exact (State.changes_emit ..).after ((State.changes_fault ..).after .refl)

def Writes.agentWrite : List Field := [.outbox, .regs, .shadow, .late, .ctrs, .window, .cores, .beat, .mbxWaits, .evHead, .evLost, .evOver]

theorem State.changes_agentWrite (agent addr v) : s.changes Writes.agentWrite (s.agentWrite agent addr v) := by
  unfold State.agentWrite
  split
  · exact (State.changes_busError ..).after .refl
  · refine State.changes_ite ((State.changes_resetAnswer ..).after .refl) ?_
    split
    · exact (State.changes_busError ..).after .refl
    · exact (State.changes_emit ..).after ((State.changes_markWrite ..).after ((State.changes_regWrite ..).after .refl))

theorem State.changes_withShadow (b) : s.changes [.regs] (s.withShadow b) := by
  unfold State.withShadow
  exact State.changes_foldl .refl fun _ _ ht => (State.changes_wr ..).after ht

theorem State.changes_revert (b) : s.changes [.shadow] (s.revert b) := by
  unfold State.revert
  exact State.changes_foldl .refl fun _ _ ht => (State.changes_wrS ..).after ht

theorem changes_ttApplied (o g) : s.changes [.regs, .shadow, .bringups, .goneViews, .waits] (ttApplied o s g) := by
  unfold ttApplied
  refine State.changes_foldl .refl fun _ _ ht => ?_
  extract_lets a1 b2 home3 s4 same5 s6
  refine State.changes_have (t := s4) (State.changes_ite ((State.changes_set_goneViews ..).after ht) ht) fun hs4 => ?_
  refine State.changes_have (t := s6) (State.changes_ite ((State.changes_dropBringup ..).after hs4) hs4) fun hs6 => ?_
  exact State.changes_ite hs4 ((State.changes_ttSetAt ..).after hs6)

theorem changes_viewPins (o g) : s.changes [.regs, .shadow, .pinned] (viewPins o s g) := by
  unfold viewPins
  exact State.changes_ite .refl (State.changes_foldl .refl fun _ _ ht1 => State.changes_ite ((State.changes_set_pinned ..).after
      ((State.changes_ttPins ..).after ht1)) ht1)

theorem changes_hatchApplied (o g) : s.changes [.regs, .shadow] (hatchApplied o s g) := by
  unfold hatchApplied
  exact State.changes_foldl .refl fun _ _ ht => State.changes_ite ((State.changes_hatchSetAt ..).after ht) ht

theorem changes_gateApplied (o g) : s.changes Writes.receive (gateApplied o s g) := by
  unfold gateApplied
  refine State.changes_foldl .refl fun _ _ ht => ?_
  extract_lets ask1 s2 on3 s4 x5
  refine State.changes_have (t := s2) ((State.changes_wrS ..).after ((State.changes_setFld ..).after ht)) fun hs2 => ?_
  refine State.changes_have (t := s4) (State.changes_ite ((State.changes_enterPort ..).after hs2) (State.changes_ite ((State.changes_enterPort
      ..).after hs2) hs2)) fun hs4 => ?_
  exact State.changes_ite ((State.changes_setPort_rx (by rfl)).after hs4) hs4

theorem changes_siloApplied (o b) : s.changes [.regs] (siloApplied o s b) := by
  unfold siloApplied
  exact State.changes_foldl .refl fun _ _ ht => State.changes_ite ((State.changes_wr ..).after ((State.changes_wr ..).after ht)) ht

theorem changes_coApplied (o c) : s.changes [.regs, .cores] (coApplied o s c) := by
  unfold coApplied
  extract_lets mode1 k2 load3 seed4 cmds5 held6 old7 s8 s9
  refine State.changes_have (t := s9) ((State.changes_setFld ..).after ((State.changes_setCore ..).after .refl)) fun hs9 => ?_
  exact State.changes_ite ((State.changes_setFld ..).after hs9) hs9

theorem changes_dspApplied (o cl) : s.changes [.regs] (dspApplied o s cl) := by
  unfold dspApplied
  exact State.changes_foldl .refl fun _ _ ht => State.changes_ite ((State.changes_wr ..).after ht) ht

theorem changes_mgtApplied (o) : s.changes [.regs] (mgtApplied o s) := by
  unfold mgtApplied
  exact State.changes_foldl .refl fun _ _ ht => State.changes_ite ((State.changes_setFld ..).after ht) (State.changes_ite ((State.changes_setFld
      ..).after ht) ht)

theorem State.changes_emptySets (o p ids) : s.changes [.rows] (State.emptySets o p ids s) := by
  unfold State.emptySets
  exact State.changes.trans .refl (State.changes_of (M := [.rows]) rfl (State.storesWf_step (rows := SMap.wf_mapVals _ _)))

theorem changes_seqApplied (o) : s.changes [.regs, .rows, .parts] (seqApplied o s) := by
  unfold seqApplied
  exact State.changes_foldl .refl fun _ _ ht => State.changes_ite ((State.changes_setFld ..).after ((State.changes_setFld ..).after
      ((State.changes_setPart ..).after ((State.changes_emptySets ..).after ht)))) ht

theorem changes_atbApplied : s.changes [.regs] (atbApplied s) := by
  unfold atbApplied
  exact State.changes_foldl .refl fun _ _ ht => (State.changes_setFld ..).after ht

theorem changes_beatApplied : s.changes [.regs] (beatApplied s) := by
  unfold beatApplied
  exact (State.changes_setFld ..).after .refl

def Writes.applied : List Field := [.free, .outbox, .regs, .shadow, .ctrs, .rows, .lpddr, .checks, .window, .ceRows, .copying, .epoch, .bringups,
  .pinned, .goneViews, .cores, .chans, .waits, .arrivals, .parts, .tithes, .packetsOut, .restore, .ports, .gates, .loop, .mbxWaits, .stageWord,
  .evHead, .evTail, .evLost, .evOver, .nv, .shape, .rx]

theorem changes_applied (o b) : s.changes Writes.applied (applied o s b) := by
  unfold applied
  split
  · exact (changes_beatApplied ..).after .refl
  · exact (changes_coApplied ..).after .refl
  · exact (changes_siloApplied ..).after .refl
  · exact (changes_siloApplied ..).after .refl
  · exact (changes_dspApplied ..).after .refl
  · exact (changes_viewPins ..).after ((changes_ttApplied ..).after .refl)
  · exact (changes_seqApplied ..).after .refl
  · exact (changes_gateApplied ..).after .refl
  · exact (changes_hatchApplied ..).after .refl
  · exact (changes_mgtApplied ..).after .refl
  · exact (changes_atbApplied ..).after .refl
  · exact .refl

def Writes.applyBlk : List Field := [.free, .outbox, .regs, .shadow, .late, .ctrs, .rows, .lpddr, .checks, .window, .ceRows, .copying, .epoch,
  .bringups, .pinned, .goneViews, .cores, .chans, .waits, .arrivals, .parts, .tithes, .packetsOut, .restore, .ports, .gates, .loop, .mbxWaits,
  .stageWord, .evHead, .evTail, .evLost, .evOver, .nv, .shape, .rx]

theorem State.changes_applyBlk (b rule) : s.changes Writes.applyBlk (s.applyBlk b rule) := by
  unfold State.applyBlk
  exact (State.changes_setApply ..).after ((State.changes_unarm ..).after (State.changes_ite ((changes_applied ..).after ((State.changes_withShadow
      ..).after .refl)) .refl))

theorem State.changes_fwApply (b l) : s.changes Writes.applyBlk (s.fwApply b l) := by
  unfold State.fwApply
  extract_lets put1 s2
  refine State.changes_have (t := s2) (State.changes_foldl .refl fun _ _ ht => (State.changes_wrS ..).after ht) fun hs2 => ?_
  refine State.changes_ite (State.changes_foldl hs2 fun _ _ ht1 => (State.changes_wr ..).after ht1) ?_
  refine State.changes_ite ?_ ?_
  · exact (State.changes_applyBlk ..).after hs2
  · exact (State.changes_applyBlk ..).after (State.changes_foldl ((State.changes_revert ..).after .refl) fun _ _ ht2 => (State.changes_wrS ..).after
        ht2)

theorem State.changes_armWrite {b k} (hk : s.changes M (k s)) (hM : Field.within Writes.post M := by decide +kernel) : s.changes M (s.armWrite b k) :=
    by
  unfold State.armWrite
  extract_lets a
  exact State.changes_ite ((State.changes_busError ..).after .refl (Field.within_trans hM))
    (State.changes_ite ((State.changes_resetAnswer ..).after .refl (Field.within_trans hM)) hk)

def Writes.execArm : List Field := [.outbox, .regs, .late, .ctrs, .window, .mbxWaits, .evHead, .evLost, .evOver]

theorem changes_execArm (b late) : Res.all (s.changes Writes.execArm) (execArm b late s) := by
  unfold execArm
  exact Res.all_unitOk (Res.all_next (State.changes_armWrite ((State.changes_armBlk ..).after .refl)))

theorem changes_execDisarm (b withArm) : Res.all (s.changes Writes.execArm) (execDisarm b withArm s) := by
  unfold execDisarm
  exact Res.all_unitOk (Res.all_next (State.changes_armWrite ((State.changes_disarm ..).after .refl)))

theorem changes_execShadowWrite (agent addr v) : Res.all (s.changes Writes.agentWrite) (execShadowWrite agent addr v s) := by
  unfold execShadowWrite
  exact Res.all_need .refl (Res.all_next ((State.changes_agentWrite ..).after .refl))

theorem changes_execRegisterWrite (agent addr v) : Res.all (s.changes Writes.agentWrite) (execRegisterWrite agent addr v s) := by
  unfold execRegisterWrite
  exact Res.all_need .refl (Res.all_next ((State.changes_agentWrite ..).after .refl))

theorem changes_execBeatNumberSetWrite (agent v) : Res.all (s.changes Writes.agentWrite) (execBeatNumberSetWrite agent v s) := by
  unfold execBeatNumberSetWrite
  exact Res.all_need .refl (Res.all_next ((State.changes_agentWrite ..).after .refl))

theorem changes_execBeatRun : Res.all (s.changes [.regs]) (execBeatRun s) := by
  unfold execBeatRun
  exact Res.all_next ((State.changes_setFld ..).after .refl)

/-! Mesh. -/

theorem State.changes_writeRoutes : s.changes [.free, .mesh] s.writeRoutes := by
  unfold State.writeRoutes
  exact (State.changes_set_free_mesh ..).after .refl

theorem State.changes_multicastMissed (agent) : s.changes Writes.post (s.multicastMissed agent) := by
  unfold State.multicastMissed
  exact (State.changes_fault ..).after .refl

/-! Mvp. -/

theorem State.changes_packOut (t ofmt round dst strips) : s.changes [.free, .regs, .ctrs, .tasks, .cores] (s.packOut t ofmt round dst strips).2 := by
  unfold State.packOut
  extract_lets f1 groups2
  refine State.changes_foldl_snd .refl fun _ _ ht => ?_
  split
  · rename_i he1
    exact (State.changes_snd_snd he1 (State.changes_packFor ..)).after ht

theorem State.changes_ownMvp (t) : Ex.all (s.changes [.regs, .cores]) (s.ownMvp t) := by
  unfold State.ownMvp
  exact Ex.all_bind fun _ _ => Ex.all_ok ((State.changes_syncUnits ..).after ((State.changes_setCore ..).after .refl))

theorem State.changes_mvpTaken (t w) : Ex.all (s.changes [.regs, .cores]) (s.mvpTaken t w) := by
  unfold State.mvpTaken
  exact Ex.all_bind fun _ _ => (State.changes_ownMvp ..).imp fun _ k => k.after .refl

theorem State.changes_mvpRun (t w) : Ex.all (s.changes [.free, .regs, .ctrs, .rows, .tasks, .cores]) (s.mvpRun t w) := by
  unfold State.mvpRun
  split
  · exact Ex.all_error
  · extract_lets src1 scale2 kblk3 ncb4 nvec5 vsrc6 dst7 pred8 rf9 nscale10
    refine Ex.all_bind fun ⟨_, _⟩ hu1 => ?_
    split
    · rename_i he2
      refine Ex.all_bind fun ⟨_, _⟩ hu3 => ?_
      split
      · rename_i he4
        refine Ex.all_bind fun ⟨_, _⟩ hu5 => ?_
        split
        · rename_i he6
          extract_lets x11 strip12 res13 fl14 s15 th16 on17 bs18
          have hs15 : s.changes [.free, .regs, .ctrs, .rows, .tasks, .cores] s15 := (State.changes_countCore ..).after ((State.changes_addFlags
              ..).after (State.changes_snd (M := [.free, .regs, .ctrs, .rows, .tasks, .cores]) he6 ((Ex.all_of hu5 (State.changes_readRows ..)).after
              (State.changes_snd (M := [.free, .regs, .ctrs, .rows, .tasks, .cores]) he4 ((Ex.all_of hu3 (State.changes_readRows ..)).after
              (State.changes_snd (M := [.free, .regs, .ctrs, .rows, .tasks, .cores]) he2 ((Ex.all_of hu1 (State.changes_readRows ..)).after
              .refl)))))))
          refine Ex.all_ite ((State.changes_writeRows ..).imp fun _ k => k.after hs15) ?_
          split
          · rename_i he8
            exact (State.changes_writeRows ..).imp fun _ k => k.after ((State.changes_snd he8 (State.changes_packOut ..)).after hs15)

theorem changes_execMvpRun (core) : Res.all (s.changes Writes.execVuSt) (execMvpRun core s) := by
  unfold execMvpRun
  exact changes_issueRun fun _ _ => Run.all_owned .refl ((State.changes_mvpTaken ..).imp fun _ k => k.after .refl) fun _ ht1 => (State.changes_mvpRun
      ..).imp fun _ k => k.after ht1

theorem State.changes_readRecords (t src rn want a) : Ex.all (fun r0 : _ × State => s.changes [.rows, .tasks] r0.2) (s.readRecords t src rn want a) :=
    by
  induction a generalizing s t src rn want with
  | nil =>
    exact Ex.all_ok .refl
  | cons x a ih =>
    exact Ex.all_bind fun ⟨_, _⟩ hu => Ex.all_bind fun ⟨_, _⟩ hu1 => Ex.all_ok ((Ex.all_of hu1 (ih ..)).after ((Ex.all_of hu (State.changes_readRows
        ..)).after .refl))

theorem State.changes_auditCount (t nvec mask us) : s.changes [.ctrs] (s.auditCount t nvec mask us) := by
  unfold State.auditCount
  exact (State.changes_countCore ..).after ((State.changes_countCore ..).after ((State.changes_countCore ..).after .refl))

theorem State.changes_gleanTaken (t w) : Ex.all (s.changes [.regs, .cores]) (s.gleanTaken t w) := by
  unfold State.gleanTaken
  exact Ex.all_bind fun _ _ => (State.changes_ownMvp ..).imp fun _ k => k.after .refl

theorem State.changes_mvpGlean (t w) : Ex.all (s.changes [.free, .regs, .ctrs, .rows, .tasks, .cores]) (s.mvpGlean t w) := by
  unfold State.mvpGlean
  split
  · exact Ex.all_error
  · extract_lets src1 down2 width3 neur4 msrc5 nvec6 vsrc7 dst8 line09 nl10 re11 rn12 nvrows13 nmask14 strips15 rowsDown16 want17
    refine Ex.all_bind fun ⟨_, _⟩ hu1 => ?_
    split
    · rename_i he2
      refine Ex.all_bind fun ⟨_, _⟩ hu3 => ?_
      split
      · rename_i he4
        extract_lets mask18 all19 sel20
        refine Ex.all_bind fun ⟨_, _⟩ hu5 => ?_
        split
        · rename_i he6
          extract_lets elem21 s22 res23 s24 us25 s26 s27 res28
          have hs22 : s.changes [.free, .regs, .ctrs, .rows, .tasks, .cores] s22 := (State.changes_countCore ..).after ((State.changes_countCore
              ..).after (State.changes_snd (M := [.free, .regs, .ctrs, .rows, .tasks, .cores]) he6 ((Ex.all_of hu5 (State.changes_readRecords
              ..)).after (State.changes_snd (M := [.free, .regs, .ctrs, .rows, .tasks, .cores]) he4 ((Ex.all_of hu3 (State.changes_readRows ..)).after
              (State.changes_snd (M := [.free, .regs, .ctrs, .rows, .tasks, .cores]) he2 ((Ex.all_of hu1 (State.changes_readRows ..)).after
              .refl)))))))
          have hs27 : s.changes [.free, .regs, .ctrs, .rows, .tasks, .cores] s27 := State.changes_ite ((State.changes_auditCount ..).after
              ((State.changes_addFlags ..).after hs22)) ((State.changes_addFlags ..).after hs22)
          refine Ex.all_ite ?_ ?_
          · split
            · rename_i he8
              exact (State.changes_writeRows ..).imp fun _ k => k.after ((State.changes_snd he8 (State.changes_packOut ..)).after
                  ((State.changes_addFlags ..).after hs22))
          · split
            · rename_i he8
              exact (State.changes_writeRows ..).imp fun _ k => k.after ((State.changes_snd he8 (State.changes_packOut ..)).after hs27)

theorem changes_execMvpGlean (core) : Res.all (s.changes Writes.execVuSt) (execMvpGlean core s) := by
  unfold execMvpGlean
  exact changes_issueRun fun _ _ => Run.all_owned .refl ((State.changes_gleanTaken ..).imp fun _ k => k.after .refl)
      fun _ ht1 => (State.changes_mvpGlean ..).imp fun _ k => k.after ht1

/-! Sparse. -/

theorem State.changes_encTaken (t w) : Ex.all (s.changes [.cores]) (s.encTaken t w) := by
  unfold State.encTaken
  exact Ex.all_bind fun _ _ => (State.changes_ownEnc ..).imp fun _ k => k.after .refl

theorem State.changes_spEnc (t w) : Ex.all (s.changes [.regs, .ctrs, .rows, .tasks]) (s.spEnc t w) := by
  unfold State.spEnc
  split
  · exact Ex.all_error
  · refine Ex.all_bind fun ⟨_, _⟩ hu1 => ?_
    split
    · rename_i he2
      extract_lets rows1 s2 tiles3 ws4
      have hs2 : s.changes [.regs, .ctrs, .rows, .tasks] s2 := (State.changes_addFlags ..).after (State.changes_snd (M := [.regs, .ctrs, .rows,
          .tasks]) he2 ((Ex.all_of hu1 (State.changes_readRows ..)).after .refl))
      refine Ex.all_bind fun _ _ => ?_
      refine Ex.all_bind fun _ _ => ?_
      exact Ex.all_bind fun _ _ => Ex.all_bind fun _ hu6 => Ex.all_ok ((State.changes_countCore ..).after ((Ex.all_of hu6 (State.changes_writeRows
          ..)).after hs2))

theorem changes_execSpEnc (core) : Res.all (s.changes Writes.settle) (execSpEnc core s) := by
  unfold execSpEnc
  exact changes_issueRun fun _ _ => Run.all_owned .refl ((State.changes_encTaken ..).imp fun _ k => k.after .refl) fun _ ht1 => (State.changes_spEnc
      ..).imp fun _ k => k.after ht1

/-! Resume. -/

def Writes.runCmd : List Field := [.free, .regs, .ctrs, .rows, .tasks, .cores, .chans]

theorem State.changes_runCmd (t q) : Run.all (s.changes Writes.runCmd) (s.runCmd t q) := by
  unfold State.runCmd
  split
  · exact Run.all_whole .refl ((State.changes_vuLd ..).imp fun _ k => k.after .refl)
  · exact Run.all_whole .refl ((State.changes_vuSt ..).imp fun _ k => k.after .refl)
  · exact Run.all_whole .refl ((State.changes_vuOp ..).imp fun _ k => k.after .refl)
  · exact Run.all_whole .refl ((State.changes_vuTx ..).imp fun _ k => k.after .refl)
  · exact Run.all_whole .refl ((State.changes_vuReduce ..).imp fun _ k => k.after .refl)
  · exact Run.all_whole .refl ((State.changes_vuTapld ..).imp fun _ k => k.after .refl)
  · exact (State.changes_nbwdRun ..).imp fun _ k => k.after .refl
  · exact Run.all_owned .refl ((State.changes_mvpTaken ..).imp fun _ k => k.after .refl) fun _ ht1 => (State.changes_mvpRun ..).imp fun _ k => k.after
        ht1
  · exact Run.all_owned .refl ((State.changes_gleanTaken ..).imp fun _ k => k.after .refl) fun _ ht1 => (State.changes_mvpGlean ..).imp
        fun _ k => k.after ht1
  · exact Run.all_owned .refl ((State.changes_encTaken ..).imp fun _ k => k.after .refl) fun _ ht1 => (State.changes_spEnc ..).imp fun _ k => k.after
        ht1
  · exact Run.all_whole .refl ((State.changes_dmaKick ..).imp fun _ k => k.after .refl)
  · exact (State.changes_tagTake ..).imp fun _ k => k.after .refl
  · exact Run.all_whole .refl ((State.changes_tagWait ..).imp fun _ k => k.after .refl)
  · exact (State.changes_siloPush ..).imp fun _ k => k.after .refl
  · exact (State.changes_siloPop ..).imp fun _ k => k.after .refl
  · exact (State.changes_ccCount ..).imp fun _ k => k.after .refl
  · exact Run.all_done .refl

theorem State.changes_resumeFlight (id) : s.changes Writes.execVuSt (s.resumeFlight id) := by
  unfold State.resumeFlight
  split
  · exact .refl
  · split
    · exact .refl
    · exact State.changes_settle .refl (Run.all_leave ((State.changes_runCmd ..).imp fun _ k => k.after ((State.changes_enter ..).after .refl)) (by
          decide +kernel) ..)

theorem State.changes_resumeTask (id) : s.changes Writes.execVuSt (s.resumeTask id) := by
  unfold State.resumeTask
  split
  · exact .refl
  · exact State.changes_ite ((State.changes_resumeFlight ..).after .refl) ((State.changes_unblock ..).after .refl)

theorem State.changes_resumeEng (e) : s.changes Writes.runQueue (s.resumeEng e) := by
  unfold State.resumeEng
  extract_lets x1
  split
  · exact .refl
  · exact (State.changes_unblock ..).after ((State.changes_runEngine ..).after ((State.changes_setEng ..).after .refl))

theorem State.changes_resumeGather (core ctx) : s.changes Writes.runGather (s.resumeGather core ctx) := by
  unfold State.resumeGather
  split
  · exact .refl
  · exact State.changes_ite .refl ((State.changes_unblock ..).after ((State.changes_runGather ..).after ((State.changes_setCtx ..).after .refl)))

def Writes.retryOne : List Field := [.free, .outbox, .regs, .shadow, .ctrs, .rows, .lpddr, .checks, .window, .ceRows, .copying, .epoch, .bringups,
  .tasks, .engs, .cores, .clus, .chans, .waits, .arrivals, .jobs, .ports, .gates, .loop, .mbxWaits, .stageWord, .evHead, .evTail, .evLost,
  .evOver, .nv, .shape]

theorem State.changes_retryOne (r w) : s.changes Writes.retryOne (s.retryOne r w) := by
  unfold State.retryOne
  split
  · exact (State.changes_resumeTask ..).after .refl
  · exact (State.changes_resumeEng ..).after .refl
  · exact (State.changes_resumeGather ..).after .refl
  · exact (State.changes_resumeChan ..).after .refl
  · exact (State.changes_landWaiter ..).after .refl
  · split
    · exact (State.changes_retryPark ..).after .refl
    · exact .refl

theorem State.changes_retryRow (r) : s.changes Writes.retryOne (s.retryRow r) := by
  unfold State.retryRow
  exact State.changes_foldl ((State.changes_set_waits ..).after .refl) fun _ _ ht => (State.changes_retryOne ..).after ht

theorem State.changes_wakeSilos (cl) : s.changes Writes.execVuSt (s.wakeSilos cl) := by
  unfold State.wakeSilos
  exact State.changes_foldl .refl fun _ _ ht => (State.changes_resumeFlight ..).after ht

theorem State.changes_wakeAfter (ts) : s.changes Writes.execVuSt (s.wakeAfter ts) := by
  unfold State.wakeAfter
  exact State.changes_foldl (State.changes_foldl .refl fun _ _ ht => (State.changes_wakeUnits ..).after ht) fun _ _ ht => (State.changes_wakeSilos
      ..).after ht

/-! FwBase. -/

theorem State.changes_mbxRead (b n agent) : s.changes [.outbox, .regs, .ctrs, .mbxWaits, .cplq] (s.mbxRead b n agent).2 := by
  unfold State.mbxRead
  extract_lets v1 s2 s3
  refine State.changes_have (t := s3) ?_ fun hs3 => ?_
  · unfold s3
    split
    · rename_i he
      exact (State.changes_answer ..).after ((State.changes_mbxLand ..).after ((State.changes_snd he (State.changes_takeWait ..)).after
          ((State.changes_setBitOf ..).after .refl)))
    · exact ((State.changes_setBitOf ..).after .refl)
  refine State.changes_ite_snd .refl ?_
  refine State.changes_ite_snd .refl ?_
  split
  · exact State.changes_ite ((State.changes_pump ..).after hs3) hs3
  · exact hs3

theorem State.changes_fwTake (c) : s.changes [.outbox, .regs, .ctrs, .mbxWaits, .cplq, .fwTurn] (s.fwTake c) := by
  unfold State.fwTake
  exact State.changes_ite .refl ((State.changes_set_fwTurn ..).after ((State.changes_mbxRead ..).after .refl))

theorem FwRes.changes_bad (status) : FwRes.all (s.changes []) (FwRes.bad s status) := by
  unfold FwRes.bad
  exact FwRes.all_done .refl

def Writes.completeWord : List Field := [.outbox, .regs, .ctrs, .window, .mbxWaits, .evHead, .evLost, .evOver, .cplq]

theorem State.changes_completeWord (c e) : s.changes Writes.completeWord (s.completeWord c e) := by
  unfold State.completeWord
  exact State.changes_ite ((State.changes_post ..).after .refl) ((State.changes_postWord ..).after .refl)

theorem State.changes_complete (c e) : s.changes Writes.completeWord (s.complete c e) := by
  unfold State.complete
  exact (State.changes_completeWord ..).after ((State.changes_winWrite ..).after ((State.changes_winWrite ..).after ((State.changes_winWrite ..).after
      .refl)))

def Writes.endCmd : List Field := [.outbox, .regs, .ctrs, .window, .mbxWaits, .evHead, .evLost, .evOver, .fw, .cplq]

theorem State.changes_endCmd (o e) : s.changes Writes.endCmd (s.endCmd o e) := by
  unfold State.endCmd
  exact (State.changes_complete ..).after ((State.changes_set_fw ..).after .refl)

theorem State.changes_cancel (status p) : s.changes Writes.endCmd (s.cancel status p) := by
  unfold State.cancel
  exact State.changes_foldl .refl fun _ _ ht => (State.changes_endCmd ..).after ht

theorem State.changes_complete? (w e) : s.changes Writes.endCmd (s.complete? w e) := by
  unfold State.complete?
  exact State.changes_foldl .refl fun _ _ ht => (State.changes_endCmd ..).after ht

theorem State.changes_setWait (o w) : s.changes [.fw] (s.setWait o w) := by
  unfold State.setWait
  exact (State.changes_set_fw ..).after .refl

theorem State.changes_fwShadow (r v) : s.changes [.shadow, .cores, .beat] (s.fwShadow r v) := by
  unfold State.fwShadow
  extract_lets s1
  split
  · exact (State.changes_markWrite ..).after ((State.changes_wrS ..).after .refl)
  · exact ((State.changes_wrS ..).after .refl)

theorem State.changes_fwArm (bs) : s.changes [.regs, .late] (s.fwArm bs) := by
  unfold State.fwArm
  exact State.changes_foldl .refl fun _ _ ht => (State.changes_armBlk ..).after ((State.changes_unarm ..).after ht)

theorem State.changes_fwRefused (bs) : s.changes [.regs, .shadow, .late] (s.fwRefused bs) := by
  unfold State.fwRefused
  exact (State.changes_wrS ..).after (State.changes_foldl .refl fun _ _ ht => (State.changes_revert ..).after ((State.changes_unarm ..).after ht))

/-! Security. -/

theorem State.changes_winPut (a l) : s.changes [.window] (s.winPut a l) := by
  unfold State.winPut
  exact State.changes.trans .refl (State.changes_of (M := [.window]) rfl (State.storesWf_step (window := fun h => winWriteBytes_wf h _ _)))

theorem State.changes_measure (kind detail over_) : s.changes [.sec] (s.measure kind detail over_) := by
  unfold State.measure
  exact (State.changes_set_sec ..).after .refl

theorem State.changes_commitFuses : s.changes [.sec] s.commitFuses := by
  unfold State.commitFuses
  exact State.changes_ite .refl ((State.changes_measure ..).after ((State.changes_set_sec ..).after .refl))

theorem State.changes_acceptImage (l) : s.changes [.sec, .minSvn] (s.acceptImage l) := by
  unfold State.acceptImage
  exact (State.changes_set_sec_minSvn ..).after ((State.changes_measure ..).after .refl)

theorem State.changes_calKeep (n) : s.changes [.calLate] (s.calKeep n) := by
  unfold State.calKeep
  exact State.changes_ite .refl ((State.changes_set_calLate ..).after .refl)

theorem State.changes_setCal (n l) : s.changes [.nv, .calLate] (s.setCal n l) := by
  unfold State.setCal
  exact (State.changes_set_nv ..).after ((State.changes_calKeep ..).after .refl)

theorem State.changes_calTakes (n) : s.changes [.calDue] (s.calTakes n) := by
  unfold State.calTakes
  exact (State.changes_set_calDue ..).after .refl

theorem State.changes_trimDie (d) : s.changes [.ctrs] (s.trimDie d) := by
  unfold State.trimDie
  exact State.changes_ite .refl ((State.changes_count ..).after .refl)

theorem State.changes_applyTrims : s.changes [.ctrs, .calDue, .calLate] s.applyTrims := by
  unfold State.applyTrims
  exact (State.changes_set_calDue ..).after (State.changes_foldl ((State.changes_set_calLate ..).after .refl) fun _ _ ht => (State.changes_trimDie
      ..).after ht)

/-! Seq. -/

theorem State.changes_setSeqEnt (n e) : s.changes [.regs] (s.setSeqEnt n e) := by
  unfold State.setSeqEnt
  exact (State.changes_wr ..).after ((State.changes_wr ..).after ((State.changes_wr ..).after ((State.changes_wr ..).after .refl)))

theorem State.changes_setSeq (p m) : s.changes [.parts] (s.setSeq p m) := by
  unfold State.setSeq
  exact (State.changes_setPart ..).after .refl

theorem State.changes_setSlot (p i e) : s.changes [.regs] (s.setSlot p i e) := by
  unfold State.setSlot
  exact (State.changes_setSeqEnt ..).after .refl

theorem State.changes_syncSeq (p) : s.changes [.regs] (s.syncSeq p) := by
  unfold State.syncSeq
  exact (State.changes_setFld ..).after ((State.changes_setFld ..).after ((State.changes_setFld ..).after ((State.changes_setFld ..).after
      ((State.changes_setFld ..).after .refl))))

theorem State.changes_writePool (c row d) : s.changes [.rows] (s.writePool c row d) := by
  unfold State.writePool
  exact State.changes_foldl .refl fun _ _ ht => (State.changes_fill ..).after ht

theorem State.changes_writeMap (p i) : s.changes [.rows] (s.writeMap p i) := by
  unfold State.writeMap
  exact State.changes_foldl .refl fun _ _ ht => (State.changes_writePool ..).after ht

theorem State.changes_takeSet (p i) : s.changes [.parts] (s.takeSet p i) := by
  unfold State.takeSet
  extract_lets c1 m2 x3
  generalize x3 = x3'
  split
  · exact .refl
  · exact (State.changes_setSeq ..).after .refl

theorem State.changes_takeSets (p i n) : s.changes [.regs, .rows, .parts] (s.takeSets p i n) := by
  unfold State.takeSets
  exact (State.changes_writeMap ..).after ((State.changes_setSlot ..).after (State.changes_foldl .refl fun _ _ ht => (State.changes_takeSet ..).after
      ht))

theorem State.changes_returnSets (p i) : s.changes [.parts] (s.returnSets p i) := by
  unfold State.returnSets
  exact (State.changes_setSeq ..).after .refl

theorem State.changes_freeReturned (p) : s.changes [.rows, .parts] (s.freeReturned p) := by
  unfold State.freeReturned
  exact (State.changes_setSeq ..).after ((State.changes_emptySets ..).after .refl)

theorem State.changes_leaveEvent (p i reason) : s.changes Writes.post (s.leaveEvent p i reason) := by
  unfold State.leaveEvent
  exact (State.changes_post ..).after .refl

def Writes.seqLeave : List Field := [.outbox, .regs, .ctrs, .window, .parts, .mbxWaits, .evHead, .evLost, .evOver, .fw, .cplq]

theorem State.changes_seqLeave (p i reason) : s.changes Writes.seqLeave (s.seqLeave p i reason) := by
  unfold State.seqLeave
  extract_lets e1 s2 s3 m4
  refine State.changes_have (t := s2) ((State.changes_leaveEvent ..).after .refl) fun hs2 => ?_
  refine State.changes_have (t := s3) (State.changes_ite ((State.changes_setSlot ..).after hs2) ((State.changes_setSlot ..).after
      ((State.changes_returnSets ..).after hs2))) fun hs3 => ?_
  exact (State.changes_complete? ..).after ((State.changes_setSeq ..).after hs3)

theorem State.changes_reenter (p i) : s.changes [.regs, .rows, .parts] (s.reenter p i) := by
  unfold State.reenter
  exact (State.changes_writeMap ..).after ((State.changes_setSlot ..).after ((State.changes_returnSets ..).after .refl))

theorem State.changes_applyResult (p e q fell) : s.changes [.regs] (s.applyResult p e q fell).1 := by
  unfold State.applyResult
  exact State.changes_ite_fst .refl ((State.changes_setSlot ..).after .refl)

theorem State.changes_seqResults (p) : s.changes [.regs, .rows, .parts] (s.seqResults p).1 := by
  unfold State.seqResults
  extract_lets c1 m2 s3 fell4
  refine State.changes_have (t := s3) (State.changes_foldl .refl fun _ _ ht => (State.changes_setSlot ..).after ht) fun hs3 => ?_
  split
  · rename_i he
    have hhe := State.changes_fst (M := [.regs, .rows, .parts]) (s := s) he (by
      refine State.changes_foldl_fst hs3 fun _ _ ht => ?_
      split
      · exact ht
      · exact (State.changes_applyResult ..).after ht)
    exact (State.changes_freeReturned ..).after (State.changes_foldl hhe fun _ _ ht1 => (State.changes_dmaTaken ..).after ht1)

def Writes.adoptView : List Field := [.regs, .shadow, .rows, .bringups, .pinned, .copyGone, .waits]

theorem State.changes_adoptView (i) : s.changes Writes.adoptView (s.adoptView i) := by
  unfold State.adoptView
  extract_lets e1 src2 pinned3 x4 unpin5 s6 s7
  refine State.changes_have (t := s6) ((State.changes_bumpGen ..).after ((State.changes_ttSet ..).after ((State.changes_dropCopy ..).after .refl)))
      fun hs6 => ?_
  refine State.changes_ite ?_ (State.changes_ite (State.changes_ite hs6 ((State.changes_set_pinned ..).after ((State.changes_ttPins ..).after hs6)))
      .refl)
  refine State.changes_ite ?_ .refl
  refine State.changes_ite ?_ ?_
  · exact (State.changes_set_pinned ..).after ((State.changes_ttPins ..).after ((State.changes_ttRes ..).after ((State.changes_dropCopy ..).after
        .refl)))
  · exact (State.changes_ttRes ..).after ((State.changes_dropCopy ..).after .refl)

theorem State.changes_adoptViews (p) : s.changes Writes.adoptView (s.adoptViews p) := by
  unfold State.adoptViews
  exact State.changes_foldl .refl fun _ _ ht => (State.changes_adoptView ..).after ht

def Writes.seqAdopt : List Field := [.regs, .shadow, .rows, .bringups, .pinned, .copyGone, .waits, .parts]

theorem State.changes_seqAdopt (p) : s.changes Writes.seqAdopt (s.seqAdopt p) := by
  unfold State.seqAdopt
  extract_lets c1 s2 g3 old4 x5 s6
  refine State.changes_have (t := s2) ((State.changes_adoptViews ..).after .refl) fun hs2 => ?_
  exact State.changes_ite (State.changes_foldl ((State.changes_setSeq ..).after hs2) fun _ _ ht1 => (State.changes_reenter ..).after ht1)
      ((State.changes_setSeq ..).after hs2)

theorem State.changes_seqLeaves (p fins bads) : s.changes Writes.seqLeave (s.seqLeaves p fins bads) := by
  unfold State.seqLeaves
  refine State.changes_foldl .refl fun _ _ ht => ?_
  split
  · exact (State.changes_seqLeave ..).after ht
  · exact ht

theorem State.changes_seqGrowth (p) : s.changes Writes.seqLeave (s.seqGrowth p) := by
  unfold State.seqGrowth
  exact State.changes_foldl .refl fun _ _ ht => State.changes_ite ((State.changes_seqLeave ..).after ht) ht

theorem State.changes_seqPreempt (p a) : s.changes [.regs, .rows, .parts] (s.seqPreempt p a) := by
  induction a generalizing s p with
  | zero =>
    exact .refl
  | succ a ih =>
    unfold State.seqPreempt
    extract_lets l1 need2
    split
    · exact State.changes_ite ((ih ..).after ((State.changes_reenter ..).after .refl)) .refl
    · exact .refl

theorem State.changes_seqAllocate (p) : s.changes [.regs, .rows, .parts] (s.seqAllocate p) := by
  unfold State.seqAllocate
  exact State.changes_foldl .refl fun _ _ ht => State.changes_ite ht ((State.changes_takeSets ..).after ht)

theorem State.changes_seqJoins (p a) : s.changes [.regs, .rows, .parts] (s.seqJoins p a) := by
  induction a generalizing s p with
  | nil =>
    exact .refl
  | cons x a ih =>
    exact State.changes_ite ((ih ..).after ((State.changes_takeSets ..).after ((State.changes_setSlot ..).after .refl))) .refl

theorem State.changes_emptyPlan (p) : s.changes [.rows] (s.emptyPlan p) := by
  unfold State.emptyPlan
  exact State.changes_foldl .refl fun _ _ ht => State.changes_foldl ht fun _ _ ht1 => (State.changes_setRow ..).after ht1

theorem State.changes_seqCompose (p) : s.changes [.regs, .rows, .parts] (s.seqCompose p) := by
  unfold State.seqCompose
  exact (State.changes_setSeq ..).after (State.changes_foldl (State.changes_foldl ((State.changes_writePool ..).after .refl)
      fun _ _ ht => (State.changes_writePool ..).after ht) fun _ _ ht => (State.changes_setSlot ..).after ht)

def Writes.seqBoundary : List Field := [.outbox, .regs, .shadow, .ctrs, .rows, .window, .bringups, .pinned, .copyGone, .waits, .parts, .mbxWaits,
  .evHead, .evLost, .evOver, .fw, .cplq]

theorem State.changes_seqBoundary (p compose) : s.changes Writes.seqBoundary (s.seqBoundary p compose) := by
  unfold State.seqBoundary
  split
  · rename_i he
    extract_lets s1 s2 s3 s4 s5 x6 s7 s8
    refine State.changes_have (t := s1) ((State.changes_seqLeaves ..).after ((State.changes_seqAdopt ..).after ((State.changes_fst he
        (State.changes_seqResults ..)).after .refl))) fun hs1 => ?_
    refine State.changes_have (t := s3) ((State.changes_seqPreempt ..).after ((State.changes_seqGrowth ..).after hs1)) fun hs3 => ?_
    refine State.changes_have (t := s4) ((State.changes_seqAllocate ..).after hs3) fun hs4 => ?_
    refine State.changes_have (t := s7) ((State.changes_emptyPlan ..).after ((State.changes_setSeq ..).after ((State.changes_seqJoins ..).after hs4)))
        fun hs7 => ?_
    refine State.changes_have (t := s8) (State.changes_ite ((State.changes_seqCompose ..).after hs7) hs7) fun hs8 => ?_
    exact (State.changes_syncSeq ..).after hs8

theorem State.changes_seqRollback (p) : s.changes [.regs, .rows, .parts] (s.seqRollback p) := by
  unfold State.seqRollback
  exact (State.changes_syncSeq ..).after ((State.changes_setSeq ..).after (State.changes_foldl (State.changes_foldl .refl
      fun _ _ ht => (State.changes_reenter ..).after ht) fun _ _ ht => (State.changes_setSlot ..).after ht))

theorem State.changes_seqKill (p j) : s.changes Writes.seqLeave (s.seqKill p j) := by
  unfold State.seqKill
  extract_lets c1 s2 x3
  refine State.changes_have (t := s2) (State.changes_foldl .refl fun _ _ ht => (State.changes_complete? ..).after ((State.changes_setSlot ..).after
      (State.changes_ite ht ((State.changes_leaveEvent ..).after ht)))) fun hs2 => ?_
  exact State.changes_ite .refl ((State.changes_syncSeq ..).after ((State.changes_setSeq ..).after hs2))

theorem State.changes_performSeqJoin (o) : FwRes.all (s.changes [.regs, .parts]) (s.performSeqJoin o) := by
  unfold State.performSeqJoin
  extract_lets p1 c2 m3 e4
  refine FwRes.all_ite ((FwRes.changes_bad ..).imp fun _ k => k.after .refl) ?_
  split
  · exact (FwRes.changes_bad ..).imp fun _ k => k.after .refl
  · exact FwRes.all_done ((State.changes_syncSeq ..).after ((State.changes_setSeq ..).after ((State.changes_setSlot ..).after .refl)))

theorem State.changes_performSeqCancel (o) : FwRes.all (s.changes [.parts]) (s.performSeqCancel o) := by
  unfold State.performSeqCancel
  extract_lets p1 i2 c3 m4
  refine FwRes.all_ite ((FwRes.changes_bad ..).imp fun _ k => k.after .refl) ?_
  split
  · exact (FwRes.changes_bad ..).imp fun _ k => k.after .refl
  · exact FwRes.all_done .refl
  · exact FwRes.all_wait ((State.changes_setSeq ..).after .refl)

theorem State.changes_performSeqConfig (o) : FwRes.all (s.changes [.regs, .shadow, .late, .cores, .beat]) (s.performSeqConfig o) := by
  unfold State.performSeqConfig
  extract_lets p1 w2 rs3 clear4 s5
  have hs5 : s.changes [.regs, .shadow, .late, .cores, .beat] s5 := (State.changes_fwShadow ..).after ((State.changes_fwShadow ..).after
      ((State.changes_fwShadow ..).after ((State.changes_fwShadow ..).after ((State.changes_fwShadow ..).after .refl))))
  exact FwRes.all_ite ((FwRes.changes_bad ..).imp fun _ k => k.after .refl) (FwRes.all_wait ((State.changes_fwArm ..).after hs5))

/-! Jobs. -/

theorem State.changes_clearFrame (f) : s.changes [.lpddr, .epoch]
    { s with lpddr := s.lpddr.filter fun p => !decide (f * 4096 ≤ p.1 ∧ p.1 < (f + 1) * 4096),
             epoch := s.epoch.filter fun p => !decide (f * 512 ≤ p.1 ∧ p.1 < (f + 1) * 512) } :=
  State.changes_of rfl (State.storesWf_step (lpddr := SMap.wf_filter _))

theorem State.changes_zeroFrame (f) : s.changes [.ctrs, .lpddr, .checks, .epoch] (s.zeroFrame f) :=
  (State.changes_clearFrame f).after (State.changes_foldl .refl fun _ _ ht => (State.changes_lpCheck ..).after ht)

theorem State.changes_dropTrans (p pg) : s.changes [.walk, .clus, .gates] (s.dropTrans p pg) := by
  unfold State.dropTrans
  exact (State.changes_set_walk_clus_gates ..).after .refl

def Writes.newPage : List Field := [.outbox, .regs, .shadow, .ctrs, .rows, .lpddr, .checks, .window, .ceRows, .copying, .walk, .bringups, .cores,
  .clus, .waits, .gates, .mbxWaits, .evHead, .evLost, .evOver, .nv, .shape]

theorem State.changes_newPage (p pg w) : s.changes Writes.newPage (s.newPage p pg w) := by
  unfold State.newPage
  extract_lets s1
  refine State.changes_have (t := s1) ((State.changes_setPage ..).after ((State.changes_dropTrans ..).after .refl)) fun hs1 => ?_
  exact State.changes_ite ((State.changes_landHeldRows ..).after hs1) hs1

theorem State.changes_noMove (p pg) : s.changes [.moves] (s.noMove p pg) := by
  unfold State.noMove
  exact (State.changes_set_moves ..).after .refl

def Writes.unmap : List Field := [.outbox, .regs, .shadow, .ctrs, .rows, .lpddr, .checks, .window, .moves, .ceRows, .copying, .epoch, .walk,
  .bringups, .cores, .clus, .waits, .gates, .mbxWaits, .evHead, .evLost, .evOver, .nv, .shape]

theorem State.changes_unmap (p pg) : s.changes Writes.unmap (s.unmap p pg) := by
  unfold State.unmap
  extract_lets w1 s2 s3
  refine State.changes_have (t := s2) ?_ fun hs2 => ?_
  · unfold s2
    split
    · exact State.changes_ite .refl ((State.changes_zeroFrame ..).after .refl)
    · exact .refl
  refine State.changes_have (t := s3) ((State.changes_newPage ..).after ((State.changes_noMove ..).after hs2)) fun hs3 => ?_
  split
  · exact (State.changes_zeroFrame ..).after hs3
  · exact (State.changes_post ..).after hs3
  · exact hs3

theorem State.changes_syncJobs (p) : s.changes [.regs] (s.syncJobs p) := by
  unfold State.syncJobs
  exact (State.changes_setFld ..).after .refl

theorem State.changes_clearRun (p js) : s.changes Writes.applyBlk (s.clearRun p js) := by
  unfold State.clearRun
  exact State.changes_foldl .refl fun _ _ ht => (State.changes_fwApply ..).after ht

def Writes.preemptAll : List Field := [.free, .outbox, .regs, .shadow, .late, .ctrs, .rows, .lpddr, .checks, .window, .ceRows, .copying, .epoch,
  .bringups, .pinned, .goneViews, .tasks, .engs, .cores, .chans, .waits, .arrivals, .jobs, .parts, .tithes, .packetsOut, .restore, .ports, .gates,
  .loop, .mbxWaits, .stageWord, .evHead, .evTail, .evLost, .evOver, .nv, .shape, .rx]

theorem State.changes_preemptAll (p js) : s.changes Writes.preemptAll (s.preemptAll p js) := by
  unfold State.preemptAll
  extract_lets cls1 s2 ts3 ids4 leaving5 s6
  refine State.changes_have (t := s6) (State.changes_foldl ((State.changes_finishVu ..).after ((State.changes_clearRun ..).after .refl))
      fun _ _ ht => (State.changes_requeueTask ..).after ht) fun hs6 => ?_
  exact State.changes_foldl ((State.changes_wakeAfter ..).after hs6) fun _ _ ht => (State.changes_setJob ..).after ht

theorem State.changes_dspPut (p put) : s.changes Writes.preemptAll (s.dspPut p put) := by
  unfold State.dspPut
  extract_lets others1 s2
  refine State.changes_have (t := s2) (State.changes_foldl .refl fun _ _ ht => (State.changes_fwApply ..).after ht) fun hs2 => ?_
  exact State.changes_ite hs2 ((State.changes_preemptAll ..).after hs2)

theorem State.changes_preempt (p j) : s.changes Writes.preemptAll (s.preempt p j) := by
  unfold State.preempt
  exact (State.changes_preemptAll ..).after .refl

theorem State.changes_stopForFault (p j) : s.changes Writes.preemptAll (s.stopForFault p j) := by
  unfold State.stopForFault
  exact (State.changes_setJob ..).after ((State.changes_post ..).after ((State.changes_preempt ..).after .refl))

theorem changes_execFaultJobStop (part job) : Res.all (s.changes [.jobs]) (execFaultJobStop part job s) := by
  unfold execFaultJobStop
  exact Res.all_unitOk (Res.all_need .refl (Res.all_next ((State.changes_setJob ..).after .refl)))

theorem State.changes_chanOff (cl ch both) : s.changes [.regs, .shadow] (s.chanOff cl ch both) := by
  unfold State.chanOff
  exact State.changes_ite ((State.changes_wrS ..).after ((State.changes_setFld ..).after .refl)) ((State.changes_setFld ..).after .refl)

theorem State.changes_drainChan (cl ch both) : s.changes [.regs, .shadow, .chans, .waits] (s.drainChan cl ch both) := by
  unfold State.drainChan
  extract_lets k1 cur2 s3 s4 s5 x6
  refine State.changes_have (t := s4) ((State.changes_set_waits ..).after ((State.changes_setChan ..).after .refl)) fun hs4 => ?_
  refine State.changes_ite ?_ ?_
  · exact (State.changes_syncChan ..).after ((State.changes_setChState ..).after ((State.changes_wr ..).after hs4))
  · exact (State.changes_chanOff ..).after ((State.changes_syncChan ..).after ((State.changes_setChState ..).after ((State.changes_setChan ..).after
        ((State.changes_wr ..).after hs4))))

theorem State.changes_applyHatches (is st) : s.changes Writes.applyBlk (s.applyHatches is st) := by
  unfold State.applyHatches
  exact State.changes_ite .refl (State.changes_foldl .refl fun _ _ ht1 => (State.changes_fwApply ..).after ht1)

theorem State.changes_closeHatches (p j) : s.changes Writes.applyBlk (s.closeHatches p j) := by
  unfold State.closeHatches
  exact State.changes_ite ((State.changes_applyHatches ..).after .refl) ((State.changes_retryParked ..).after ((State.changes_applyHatches ..).after
      .refl))

def Writes.clearTasks : List Field := [.free, .outbox, .regs, .ctrs, .rows, .window, .tasks, .groups, .engs, .cores, .chans, .waits, .jobs,
  .mbxWaits, .evHead, .evLost, .evOver]

theorem State.changes_clearTasks (p j) : s.changes Writes.clearTasks (s.clearTasks p j) := by
  unfold State.clearTasks
  extract_lets ids1 cls2 leaving3 s4 s5
  refine State.changes_have (t := s4) ((State.changes_removeTasks ..).after ((State.changes_finishVu ..).after .refl)) fun hs4 => ?_
  refine State.changes_ite ?_ ?_
  · exact ((State.changes_set_groups ..).after hs4)
  · exact State.changes_foldl ((State.changes_wakeAfter ..).after ((State.changes_set_groups ..).after hs4)) fun _ _ ht1 => (State.changes_syncSlots
        ..).after ((State.changes_wakeUnits ..).after ht1)

theorem State.changes_dropWin (p j) : s.changes [.regs, .win] (s.dropWin p j) := by
  unfold State.dropWin
  split
  · exact .refl
  · exact State.changes_ite .refl ((State.changes_set_win ..).after (State.changes_foldl .refl fun _ _ ht2 => State.changes_ite ((State.changes_setFld
        ..).after ht2) ht2))

def Writes.endClear : List Field := [.free, .outbox, .regs, .shadow, .ctrs, .rows, .lpddr, .checks, .window, .ceRows, .copying, .epoch, .bringups,
  .cores, .chans, .waits, .arrivals, .jobs, .ports, .gates, .loop, .mbxWaits, .stageWord, .evHead, .evTail, .evLost, .evOver, .nv, .shape]

theorem State.changes_endClear (p j) : s.changes Writes.endClear (s.endClear p j) := by
  unfold State.endClear
  refine State.changes_ite ?_ ?_
  · exact .refl
  · exact (State.changes_granariesGo ..).after ((State.changes_syncEpoch ..).after ((State.changes_set_arrivals ..).after ((State.changes_setJob
        ..).after .refl)))

def Writes.killStart : List Field := Field.but [.pending, .suspects, .snap, .snapBeat, .snapAsked, .lpPatrol, .moves, .retiredRows, .walk,
  .copyGone, .taskSeq, .clus, .power, .edgeDraw, .powerOver, .grng, .titheSeq, .beat, .mods, .lostTags, .hostLost, .bootStage, .sec, .mesh,
  .bring, .shapeNew, .coresUp, .defects, .fwTurn, .seedPack, .seedSets, .minSvn, .calDue, .calLate, .passedAt, .testFirst, .window_, .board]

theorem State.changes_killStart (p j) : s.changes Writes.killStart (s.killStart p j) := by
  unfold State.killStart
  extract_lets s1 s2 gs3 s4 s5 s6 x7 s8
  refine State.changes_have (t := s1) ((State.changes_clearTasks ..).after ((State.changes_dspPut ..).after .refl)) fun hs1 => ?_
  refine State.changes_have (t := s2) ((State.changes_dropWin ..).after ((State.changes_seqKill ..).after hs1)) fun hs2 => ?_
  refine State.changes_have (t := s4) ((State.changes_set_seals_tithes_packetsOut_restore ..).after hs2) fun hs4 => ?_
  refine State.changes_have (t := s5) (State.changes_foldl hs4 fun _ _ ht => (State.changes_settleWin ..).after ht) fun hs5 => ?_
  refine State.changes_have (t := s6) (State.changes_foldl hs5 fun _ _ ht => (State.changes_drainChan ..).after ht) fun hs6 => ?_
  refine State.changes_have (t := s8) ((State.changes_setJob ..).after ((State.changes_endClear ..).after hs6)) fun hs8 => ?_
  exact (State.changes_syncJobs ..).after ((State.changes_closeHatches ..).after hs8)

theorem State.changes_resetSilos (p j dropEn) : s.changes [.regs, .shadow] (s.resetSilos p j dropEn) := by
  unfold State.resetSilos
  refine State.changes_foldl .refl fun _ _ ht => ?_
  extract_lets y1 s2 r3
  refine State.changes_have (t := s2) ((State.changes_wr ..).after ((State.changes_wr ..).after ht)) fun hs2 => ?_
  exact State.changes_ite ht (State.changes_ite ((State.changes_wrS ..).after ((State.changes_setFld ..).after hs2)) hs2)

theorem State.changes_evict (p j gone) : s.changes [.ctrs] (s.evict p j gone) := by
  unfold State.evict
  exact State.changes_ite .refl ((State.changes_countJob ..).after .refl)

def Writes.killScrub : List Field := [.regs, .shadow, .ctrs, .rows, .bringups, .cores, .clus, .chans, .waits, .jobs]

theorem State.changes_killScrub (p j) : s.changes Writes.killScrub (s.killScrub p j) := by
  unfold State.killScrub
  extract_lets s1 s2 s3 s4 s5 x6
  refine State.changes_have (t := s1) (State.changes_foldl .refl fun _ _ ht => (State.changes_chanOff ..).after
    ((State.changes_syncChan ..).after ((State.changes_setChState ..).after ((State.changes_setChan ..).after ht)))) fun hs1 => ?_
  refine State.changes_have (t := s2) (State.changes_foldl hs1 fun _ _ ht => State.changes_ite ((State.changes_dropBringup ..).after ht) ht)
    fun hs2 => ?_
  refine State.changes_have (t := s3) ((State.changes_evict ..).after hs2) fun hs3 => ?_
  refine State.changes_have (t := s4) ?_ fun hs4 => ?_
  · unfold s4
    generalize s3 = s3 at hs3 ⊢
    exact State.changes.trans hs3 (State.changes_of (M := [.rows]) rfl (State.storesWf_step (rows := SMap.wf_filter _)))
  exact (State.changes_setJob ..).after ((State.changes_dropCaches ..).after ((State.changes_resetSilos ..).after hs4))

theorem State.changes_invalidate (is) : s.changes Writes.applyBlk (s.invalidate is) := by
  unfold State.invalidate
  exact State.changes_ite .refl (State.changes_foldl .refl fun _ _ ht1 => (State.changes_fwApply ..).after ht1)

def Writes.dropViews : List Field := [.free, .outbox, .regs, .shadow, .late, .ctrs, .rows, .lpddr, .checks, .window, .ceRows, .copying, .epoch,
  .bringups, .pinned, .goneViews, .copyGone, .cores, .chans, .waits, .arrivals, .parts, .tithes, .packetsOut, .restore, .ports, .gates, .loop,
  .mbxWaits, .stageWord, .evHead, .evTail, .evLost, .evOver, .nv, .shape, .rx]

theorem State.changes_dropViews (p j) : s.changes Writes.dropViews (s.dropViews p j) := by
  unfold State.dropViews
  exact State.changes_foldl .refl fun _ _ ht => (State.changes_post ..).after ((State.changes_set_goneViews ..).after ((State.changes_invalidate
      ..).after ((State.changes_dropCopy ..).after ht)))

def Writes.killViews : List Field := [.free, .outbox, .regs, .shadow, .late, .ctrs, .rows, .lpddr, .checks, .window, .ceRows, .copying, .epoch,
  .bringups, .pinned, .goneViews, .copyGone, .cores, .chans, .waits, .arrivals, .jobs, .parts, .tithes, .packetsOut, .restore, .ports, .gates,
  .loop, .mbxWaits, .stageWord, .evHead, .evTail, .evLost, .evOver, .nv, .shape, .rx]

theorem State.changes_killViews (p j) : s.changes Writes.killViews (s.killViews p j) := by
  unfold State.killViews
  exact (State.changes_setJob ..).after ((State.changes_dropViews ..).after .refl)

def Writes.killPages : List Field := [.outbox, .regs, .shadow, .ctrs, .rows, .lpddr, .checks, .window, .moves, .ceRows, .copying, .epoch, .walk,
  .bringups, .cores, .clus, .waits, .jobs, .gates, .mbxWaits, .evHead, .evLost, .evOver, .nv, .shape]

theorem State.changes_killPages (p j) : s.changes Writes.killPages (s.killPages p j) := by
  unfold State.killPages
  exact (State.changes_setJob ..).after (State.changes_foldl .refl fun _ _ ht => (State.changes_unmap ..).after ht)

theorem State.changes_killDone (p j) : s.changes Writes.preemptAll (s.killDone p j) := by
  unfold State.killDone
  extract_lets layers1 s2 s3 s4 s5 b6 x7
  refine State.changes_have (t := s2) ?_ fun hs2 => ?_
  · unfold s2
    refine State.changes_ite ?_ ?_
    · exact .refl
    · exact State.changes_foldl .refl fun _ _ ht1 => State.changes_foldl ((State.changes_fwApply ..).after ht1) fun _ _ ht2 => State.changes_foldl ht2
          fun _ _ ht3 => (State.changes_wr ..).after ht3
  refine State.changes_have (t := s4) (State.changes_foldl ((State.changes_invalidate ..).after hs2) fun _ _ ht => (State.changes_fwApply ..).after
      ht) fun hs4 => ?_
  exact (State.changes_syncJobs ..).after ((State.changes_setJob ..).after ((State.changes_dspPut ..).after hs4))

theorem State.changes_resetStart (p) : s.changes Writes.killStart (s.resetStart p) := by
  unfold State.resetStart
  extract_lets s1 s2 s3 s4 dies5 cls6 s7
  refine State.changes_have (t := s2) ?_ fun hs2 => ?_
  · unfold s2
    refine State.changes_foldl ((State.changes_setFld ..).after .refl) fun _ _ ht => ?_
    split
    · exact ht
    · exact ht
    · exact (State.changes_killStart ..).after ht
  refine State.changes_have (t := s3) (State.changes_foldl hs2 fun _ _ ht => (State.changes_mbxReset ..).after ht) fun hs3 => ?_
  refine State.changes_have (t := s4) (State.changes_foldl hs3 fun _ _ ht => (State.changes_mbxReset ..).after ht) fun hs4 => ?_
  exact (State.changes_retryParked ..).after ((State.changes_dropLocks ..).after hs4)

def Writes.resetUnits : List Field := [.regs, .shadow, .late, .rows, .tasks, .groups, .engs, .cores, .clus, .chans, .parts]

theorem State.changes_resetUnits (p) : s.changes Writes.resetUnits (s.resetUnits p) := by
  unfold State.resetUnits
  extract_lets dies1 cls2 inCl3 x4 x5 s6 s7 x8
  refine State.changes_have (t := s6) (State.changes.trans .refl (State.changes_of_ids (M := [.regs, .shadow, .late, .rows, .tasks, .groups, .engs,
      .cores, .clus, .chans]) rfl (State.storesWf_step (regs := SMap.wf_filter _) (shadow := SMap.wf_filter _) (rows := SMap.wf_filter _))
      fun _ => (State.changes_filter_tasks _).same .taskIds))
      fun hs6 => ?_
  refine State.changes_have (t := s7) (State.changes_foldl hs6 fun _ _ ht => (State.changes_syncSuspect ..).after ht) fun hs7 => ?_
  exact (State.changes_setPart ..).after hs7

def Writes.resetEnd : List Field := [.free, .outbox, .regs, .shadow, .late, .ctrs, .rows, .lpddr, .checks, .window, .moves, .ceRows, .copying,
  .epoch, .walk, .bringups, .pinned, .goneViews, .cores, .clus, .chans, .waits, .arrivals, .parts, .tithes, .packetsOut, .restore, .ports, .gates,
  .loop, .mbxWaits, .stageWord, .evHead, .evTail, .evLost, .evOver, .nv, .shape, .rx]

theorem State.changes_resetEnd (p destroy) : s.changes Writes.resetEnd (s.resetEnd p destroy) := by
  unfold State.resetEnd
  extract_lets x1 s2 s3
  refine State.changes_have (t := s3) (State.changes_foldl ((State.changes_setPart ..).after .refl) fun _ _ ht => (State.changes_unmap ..).after ht)
      fun hs3 => ?_
  refine State.changes_ite ?_ ?_
  · exact (State.changes_setFld ..).after ((State.changes_setPart ..).after .refl)
  · exact (State.changes_setPart ..).after ((State.changes_fwApply ..).after ((State.changes_setFld ..).after hs3))

theorem State.changes_rollStart (p j) : s.changes Writes.preemptAll (s.rollStart p j) := by
  unfold State.rollStart
  extract_lets s1 s2 x3
  refine State.changes_have (t := s1) ((State.changes_endClear ..).after (State.changes_ite ((State.changes_preempt ..).after .refl) .refl))
      fun hs1 => ?_
  refine State.changes_have (t := s2) (State.changes_foldl hs1 fun _ _ ht => (State.changes_drainChan ..).after ht) fun hs2 => ?_
  exact (State.changes_setJob ..).after ((State.changes_closeHatches ..).after hs2)

def Writes.rollJob : List Field := [.free, .outbox, .regs, .shadow, .ctrs, .rows, .window, .tasks, .groups, .engs, .cores, .chans, .waits, .jobs,
  .parts, .mbxWaits, .evHead, .evLost, .evOver]

theorem State.changes_rollJob (p j) : s.changes Writes.rollJob (s.rollJob p j) := by
  unfold State.rollJob
  extract_lets s1 keep2 s3 s4 s5 c6 s7 b8
  refine State.changes_have (t := s1) (State.changes_foldl .refl fun _ _ ht => (State.changes_drainChan ..).after ht) fun hs1 => ?_
  refine State.changes_have (t := s4) (State.changes.trans ((State.changes_evict ..).after hs1) (State.changes_of (M := [.rows]) rfl
      (State.storesWf_step (rows := SMap.wf_filter _)))) fun hs4 => ?_
  refine State.changes_have (t := s5) ((State.changes_clearTasks ..).after ((State.changes_resetSilos ..).after hs4)) fun hs5 => ?_
  refine State.changes_have (t := s7) (State.changes_ite ((State.changes_seqRollback ..).after hs5) hs5) fun hs7 => ?_
  exact (State.changes_setJob ..).after hs7

theorem State.changes_swapCore (c) : s.changes [.regs, .shadow, .rows, .engs, .cores] (s.swapCore c) := by
  unfold State.swapCore
  exact State.changes.trans .refl (State.changes_of (M := [.regs, .shadow, .rows, .engs, .cores]) rfl (State.storesWf_step (regs := SMap.wf_moveCore
      _) (shadow := SMap.wf_moveCore _) (rows := SMap.wf_filter _)))

def Writes.remap : List Field := [.free, .outbox, .regs, .shadow, .suspects, .ctrs, .rows, .window, .engs, .cores, .mbxWaits, .evHead, .evLost,
  .evOver, .nv, .shape, .mesh]

theorem State.changes_remap (c) : s.changes Writes.remap (s.remap c) := by
  unfold State.remap
  extract_lets cl1 fallow2 phys3 m4 s5 maps6 used7 x8 s9 s10
  refine State.changes_have (t := s5) ((State.changes_swapCore ..).after ((State.changes_saveSuspects ..).after .refl)) fun hs5 => ?_
  refine State.changes_have (t := s10) ((State.changes_newShape ..).after ((State.changes_syncSuspect ..).after ((State.changes_loadSuspects ..).after
      ((State.changes_set_shape ..).after hs5)))) fun hs10 => ?_
  exact State.changes_ite hs10 ((State.changes_writeRoutes ..).after hs10)

theorem State.changes_rollBegin (p) : s.changes Writes.preemptAll (s.rollBegin p) := by
  unfold State.rollBegin
  exact (State.changes_setPart ..).after (State.changes_foldl .refl fun _ _ ht => (State.changes_rollStart ..).after ht)

def Writes.rollback : List Field := [.free, .outbox, .regs, .shadow, .suspects, .ctrs, .rows, .window, .tasks, .groups, .engs, .cores, .chans,
  .waits, .jobs, .parts, .mbxWaits, .evHead, .evLost, .evOver, .nv, .shape, .mesh]

theorem State.changes_rollback (p) : s.changes Writes.rollback (s.rollback p) := by
  unfold State.rollback
  extract_lets js1 dead2 s3 hole4 s5 x6 s7
  refine State.changes_have (t := s3) (State.changes_foldl .refl fun _ _ ht => (State.changes_rollJob ..).after ht) fun hs3 => ?_
  refine State.changes_have (t := s5) (State.changes_foldl hs3 fun _ _ ht => (State.changes_remap ..).after ht) fun hs5 => ?_
  refine State.changes_ite ?_ ?_
  · exact .refl
  · exact State.changes_foldl ((State.changes_setPart ..).after hs5) fun _ _ ht1 => (State.changes_post ..).after ((State.changes_countJob ..).after
        ht1)

def Writes.deathTick : List Field := Field.but [.pending, .snap, .snapBeat, .snapAsked, .lpPatrol, .moves, .retiredRows, .walk, .seals, .copyGone,
  .taskSeq, .clus, .power, .edgeDraw, .powerOver, .grng, .win, .titheSeq, .beat, .mods, .lostTags, .hostLost, .bootStage, .fw, .cplq, .sec,
  .bring, .shapeNew, .coresUp, .defects, .fwTurn, .seedPack, .seedSets, .minSvn, .calDue, .calLate, .passedAt, .testFirst, .window_, .board]

theorem State.changes_deathTick (rolls) : s.changes Writes.deathTick (s.deathTick rolls) := by
  unfold State.deathTick
  exact State.changes_foldl (State.changes_foldl (State.changes_foldl .refl fun _ _ ht => (State.changes_remap ..).after ht)
      fun _ _ ht => (State.changes_rollBegin ..).after ht) fun _ _ ht => (State.changes_rollback ..).after ht

def Writes.phaseChange : List Field := [.free, .outbox, .regs, .shadow, .late, .ctrs, .rows, .lpddr, .checks, .window, .ceRows, .copying, .epoch,
  .bringups, .pinned, .goneViews, .cores, .clus, .chans, .waits, .arrivals, .parts, .tithes, .packetsOut, .restore, .ports, .gates, .loop,
  .mbxWaits, .stageWord, .evHead, .evTail, .evLost, .evOver, .fw, .cplq, .nv, .shape, .rx]

theorem State.changes_phaseChange (p ph glean) : s.changes Writes.phaseChange (s.phaseChange p ph glean) := by
  unfold State.phaseChange
  exact (State.changes_complete? ..).after ((State.changes_setPart ..).after ((State.changes_dropCaches ..).after (State.changes_foldl .refl
      fun _ _ ht => (State.changes_fwApply ..).after ht)))

/-! FwDevice. -/

theorem State.changes_performQuery (o) : FwRes.all (s.changes [.window]) (s.performQuery o) := by
  unfold State.performQuery
  exact FwRes.all_done ((State.changes_winPut ..).after .refl)

theorem State.changes_performInventory (o) : FwRes.all (s.changes [.window]) (s.performInventory o) := by
  unfold State.performInventory
  exact FwRes.all_done ((State.changes_winPut ..).after .refl)

def Writes.restarted : List Field := Field.but [.pending, .free, .outbox, .mods, .lostTags, .hostLost, .nv, .defects]

theorem State.changes_restarted : s.changes Writes.restarted s.restarted := State.changes_of rfl fun _ => rfl

theorem State.changes_enterStage (n) : s.changes [.bootStage, .stageWord] (s.enterStage n) := by
  unfold State.enterStage
  exact (State.changes_set_bootStage_stageWord ..).after .refl

theorem State.changes_romStart : s.changes [.bootStage, .stageWord, .sec] s.romStart := by
  unfold State.romStart
  exact (State.changes_enterStage ..).after ((State.changes_enterStage ..).after ((State.changes_measure ..).after ((State.changes_enterStage
      ..).after .refl)))

theorem State.changes_dropMbxWaits : s.changes [.outbox, .mbxWaits] s.dropMbxWaits := by
  unfold State.dropMbxWaits
  exact State.changes_foldl ((State.changes_set_mbxWaits ..).after .refl) fun _ _ ht => (State.changes_answer ..).after ht

def Writes.performReset : List Field := Field.but [.pending, .free, .mods, .lostTags, .hostLost, .nv, .defects]

theorem State.changes_performReset (o) : FwRes.all (s.changes Writes.performReset) (s.performReset o) := by
  unfold State.performReset
  refine FwRes.all_ite ((FwRes.changes_bad ..).imp fun _ k => k.after .refl) ?_
  refine FwRes.all_ite ((FwRes.changes_bad ..).imp fun _ k => k.after .refl) ?_
  exact FwRes.all_silent ((State.changes_romStart ..).after ((State.changes_restarted ..).after ((State.changes_dropMbxWaits ..).after .refl)))

theorem State.changes_performEnv (o) : FwRes.all (s.changes [.board]) (s.performEnv o) := by
  unfold State.performEnv
  exact FwRes.all_done ((State.changes_set_board ..).after .refl)

theorem State.changes_fwWords (l) : s.changes [.shadow, .cores, .beat] (s.fwWords l) := by
  unfold State.fwWords
  exact State.changes_foldl .refl fun _ _ ht => (State.changes_fwShadow ..).after ht

theorem State.changes_performBeat (o) : FwRes.all (s.changes [.regs, .shadow, .late, .cores, .beat]) (s.performBeat o) := by
  unfold State.performBeat
  exact FwRes.all_wait ((State.changes_fwArm ..).after (State.changes_ite ((State.changes_set_beat ..).after ((State.changes_fwWords ..).after
      ((State.changes_fwWords ..).after .refl))) ((State.changes_fwWords ..).after .refl)))

theorem State.changes_performPower (o) : FwRes.all (s.changes [.regs, .shadow, .late, .cores, .beat]) (s.performPower o) := by
  unfold State.performPower
  exact FwRes.all_wait ((State.changes_fwArm ..).after ((State.changes_fwWords ..).after .refl))

theorem State.changes_performWeight (o) : FwRes.all (s.changes [.regs, .shadow, .late, .cores, .beat]) (s.performWeight o) := by
  unfold State.performWeight
  refine FwRes.all_ite ((FwRes.changes_bad ..).imp fun _ k => k.after .refl) ?_
  exact FwRes.all_wait ((State.changes_fwArm ..).after ((State.changes_fwWords ..).after .refl))

theorem State.changes_performSeedpack (o) : FwRes.all (s.changes [.sec, .seedPack, .seedSets]) (s.performSeedpack o) := by
  unfold State.performSeedpack
  extract_lets a1 n2 l3 b4 v5 s6 x7
  refine FwRes.all_ite ((FwRes.changes_bad ..).imp fun _ k => k.after .refl) ?_
  refine FwRes.all_ite ((FwRes.changes_bad ..).imp fun _ k => k.after .refl) ?_
  split
  · exact FwRes.all_done ((State.changes_set_seedPack_seedSets ..).after ((State.changes_measure ..).after .refl))
  · exact (FwRes.changes_bad ..).imp fun _ k => k.after .refl

theorem State.changes_performCalRead (o) : FwRes.all (s.changes [.window]) (s.performCalRead o) := by
  unfold State.performCalRead
  extract_lets n1
  refine FwRes.all_ite ((FwRes.changes_bad ..).imp fun _ k => k.after .refl) ?_
  split
  · exact (FwRes.changes_bad ..).imp fun _ k => k.after .refl
  · exact FwRes.all_done ((State.changes_winPut ..).after .refl)

theorem State.changes_performCalWrite (o) : FwRes.all (s.changes [.sec, .nv, .calDue, .calLate]) (s.performCalWrite o) := by
  unfold State.performCalWrite
  extract_lets n1 a2 len3 fullCal4 l5
  refine FwRes.all_ite ((FwRes.changes_bad ..).imp fun _ k => k.after .refl) ?_
  refine FwRes.all_ite ((FwRes.changes_bad ..).imp fun _ k => k.after .refl) ?_
  split
  · refine FwRes.all_ite ((FwRes.changes_bad ..).imp fun _ k => k.after .refl) ?_
    refine FwRes.all_ite ((FwRes.changes_bad ..).imp fun _ k => k.after .refl) ?_
    exact FwRes.all_done ((State.changes_calTakes ..).after ((State.changes_setCal ..).after ((State.changes_measure ..).after .refl)))
  · exact (FwRes.changes_bad ..).imp fun _ k => k.after .refl

theorem State.changes_performQuote (o) : FwRes.all (s.changes [.window]) (s.performQuote o) := by
  unfold State.performQuote
  extract_lets src1
  refine FwRes.all_ite (FwRes.all_done ((State.changes_winPut ..).after .refl)) ?_
  refine FwRes.all_ite ((FwRes.changes_bad ..).imp fun _ k => k.after .refl) ?_
  split
  · exact FwRes.all_done ((State.changes_winPut ..).after .refl)
  · exact (FwRes.changes_bad ..).imp fun _ k => k.after .refl

theorem State.changes_performTelemetry : FwRes.all (s.changes [.snapAsked]) s.performTelemetry := by
  unfold State.performTelemetry
  exact FwRes.all_wait ((State.changes_set_snapAsked ..).after .refl)

theorem State.changes_performCounters (o) : FwRes.all (s.changes [.snapAsked]) (s.performCounters o) := by
  unfold State.performCounters
  refine FwRes.all_ite ((FwRes.changes_bad ..).imp fun _ k => k.after .refl) ?_
  exact FwRes.all_wait ((State.changes_set_snapAsked ..).after .refl)

theorem State.changes_armAll (bs) : FwRes.all (s.changes [.regs, .shadow, .late]) (s.armAll bs) := by
  unfold State.armAll
  split
  · exact FwRes.all_done ((State.changes_fwRefused ..).after .refl)
  · exact FwRes.all_wait ((State.changes_fwArm ..).after .refl)

theorem State.changes_linkShadow (o) : s.changes [.shadow, .cores, .beat] (s.linkShadow o) := by
  unfold State.linkShadow
  exact State.changes_foldl (State.changes_foldl .refl fun _ _ ht => (State.changes_fwShadow ..).after ht) fun _ _ ht => State.changes_foldl
      ((State.changes_fwShadow ..).after ht) fun _ _ ht1 => (State.changes_fwShadow ..).after ht1

theorem State.changes_performLink (o) : FwRes.all (s.changes [.regs, .shadow, .late, .cores, .beat]) (s.performLink o) := by
  unfold State.performLink
  extract_lets ps1 x2 w3
  refine FwRes.all_ite ((FwRes.changes_bad ..).imp fun _ k => k.after .refl) ?_
  refine FwRes.all_ite ((FwRes.changes_bad ..).imp fun _ k => k.after .refl) ?_
  exact (State.changes_armAll ..).imp fun _ k => k.after ((State.changes_linkShadow ..).after .refl)

theorem State.changes_measureLink (o) : s.changes [.sec] (s.measureLink o) := by
  unfold State.measureLink
  exact (State.changes_measure ..).after .refl

theorem State.changes_fwImage (o byte n gs r) : s.changes [.shadow, .cores, .beat] (s.fwImage o byte n gs r) := by
  unfold State.fwImage
  exact State.changes_foldl .refl fun _ _ ht => State.changes_foldl ht fun _ _ ht1 => (State.changes_fwShadow ..).after ht1

theorem State.changes_hatchShadow (n st) : s.changes [.shadow] (s.hatchShadow n st) := by
  unfold State.hatchShadow
  exact State.changes_foldl .refl fun _ _ ht => (State.changes_wrS ..).after ht

theorem State.changes_fwTables (bs) : FwRes.all (s.changes [.regs, .late]) (s.fwTables bs) := by
  unfold State.fwTables
  exact FwRes.all_wait ((State.changes_fwArm ..).after .refl)

theorem State.changes_performHatchOpen (o) : FwRes.all (s.changes [.regs, .shadow, .late, .cores, .beat]) (s.performHatchOpen o) := by
  unfold State.performHatchOpen
  extract_lets n1
  refine FwRes.all_ite ((FwRes.changes_bad ..).imp fun _ k => k.after .refl) ?_
  refine FwRes.all_ite ((FwRes.changes_bad ..).imp fun _ k => k.after .refl) ?_
  exact (State.changes_fwTables ..).imp fun _ k => k.after ((State.changes_hatchShadow ..).after ((State.changes_fwImage ..).after .refl))

theorem State.changes_performHatchClose (o) : FwRes.all (s.changes [.regs, .shadow, .late]) (s.performHatchClose o) := by
  unfold State.performHatchClose
  extract_lets n1
  split
  · exact (FwRes.changes_bad ..).imp fun _ k => k.after .refl
  · exact (State.changes_fwTables ..).imp fun _ k => k.after ((State.changes_hatchShadow ..).after .refl)
  · exact FwRes.all_wait .refl

theorem State.changes_performWindow (o) : FwRes.all (s.changes [.window_]) (s.performWindow o) := by
  unfold State.performWindow
  extract_lets mask1 pack2
  refine FwRes.all_ite ((FwRes.changes_bad ..).imp fun _ k => k.after .refl) ?_
  refine FwRes.all_ite ((FwRes.changes_bad ..).imp fun _ k => k.after .refl) ?_
  exact FwRes.all_wait ((State.changes_set_window_ ..).after .refl)

def Writes.fatal : List Field := [.outbox, .regs, .ctrs, .window, .mbxWaits, .bootStage, .stageWord, .evHead, .evLost, .evOver, .fw, .cplq,
  .bring]

theorem State.changes_fatal (c step) : s.changes Writes.fatal (s.fatal c step) := by
  unfold State.fatal
  extract_lets s1 s2
  refine State.changes_have (t := s1) ((State.changes_enterStage ..).after .refl) fun hs1 => ?_
  split
  · exact (State.changes_endCmd ..).after ((State.changes_set_bring ..).after hs1)
  · exact ((State.changes_set_bring ..).after hs1)

theorem State.changes_buildMaps (f) : s.changes [.regs, .shape] (s.buildMaps f) := by
  unfold State.buildMaps
  exact State.changes_foldl (State.changes_foldl ((State.changes_set_shape ..).after .refl) fun _ _ ht => (State.changes_loadSuspects ..).after ht)
      fun _ _ ht => (State.changes_syncSuspect ..).after ht

theorem State.changes_setShapeGen : s.changes [.nv, .shape] s.setShapeGen.1 := by
  unfold State.setShapeGen
  exact (State.changes_set_nv_shape ..).after .refl

def Writes.step6 : List Field := [.outbox, .regs, .ctrs, .window, .mbxWaits, .evHead, .evLost, .evOver, .sec, .nv, .calDue]

theorem State.changes_step6 (f) : s.changes Writes.step6 (s.step6 f) := by
  unfold State.step6
  extract_lets x1 x2 s3 bad4 x5 s6 good7 s8 s9
  refine State.changes_have (t := s3) (State.changes_ite ((State.changes_set_nv ..).after .refl) ((State.changes_fault ..).after
      ((State.changes_set_nv ..).after .refl))) fun hs3 => ?_
  refine State.changes_have (t := s8) ((State.changes_measure ..).after ((State.changes_set_nv ..).after hs3)) fun hs8 => ?_
  exact (State.changes_set_calDue ..).after ((State.changes_setFld ..).after hs8)

theorem State.changes_fence (dies clusters) : s.changes [.shape] (s.fence dies clusters) := by
  unfold State.fence
  exact (State.changes_set_shape ..).after .refl

theorem State.changes_fused : s.changes [.shape] s.fused := by
  unfold State.fused
  exact (State.changes_fence ..).after .refl

theorem State.changes_step7 (f) : s.changes [.free, .shape, .mesh] (s.step7 f) := by
  unfold State.step7
  exact (State.changes_writeRoutes ..).after ((State.changes_set_shape ..).after ((State.changes_fused ..).after ((State.changes_set_mesh ..).after
      .refl)))

def Writes.step8 : List Field := [.outbox, .regs, .ctrs, .window, .mbxWaits, .evHead, .evLost, .evOver, .shape, .coresUp]

theorem State.changes_step8 (f) : s.changes Writes.step8 (s.step8 f) := by
  unfold State.step8
  exact (State.changes_set_coresUp ..).after ((State.changes_fence ..).after ((State.changes_fence ..).after (State.changes_foldl .refl
      fun _ _ ht => (State.changes_multicastMissed ..).after ht)))

theorem State.changes_marchRow (m) : s.changes Writes.rowError (s.marchRow m) := by
  unfold State.marchRow
  split
  · refine State.changes_ite .refl ?_
    split
    · exact (State.changes_rowError ..).after .refl
    · exact .refl
  · exact State.changes_ite .refl ((State.changes_rowError ..).after .refl)

theorem State.changes_step9 (f) : s.changes Writes.rowError (s.step9 f) := by
  unfold State.step9
  exact (State.changes_set_shape ..).after ((State.changes_fence ..).after (State.changes_foldl .refl fun _ _ ht => (State.changes_marchRow ..).after
      ht))

def Writes.step10 : List Field := [.free, .regs, .rows, .nv, .shape, .mesh, .shapeNew]

theorem State.changes_step10 (f) : s.changes Writes.step10 (s.step10 f) := by
  unfold State.step10
  extract_lets bankBad1 s2 x3 first4 s5
  refine State.changes_have (t := s2) ((State.changes_buildMaps ..).after ((State.changes_fence ..).after .refl)) fun hs2 => ?_
  refine State.changes_have (t := s5) (State.changes_ite hs2 ((State.changes_writeRoutes ..).after hs2)) fun hs5 => ?_
  exact (State.changes_set_shapeNew ..).after ((State.changes_set_nv_shape ..).after (State.changes.trans hs5 (State.changes_of (M := [.rows]) rfl
      (State.storesWf_step (rows := fun _ => rfl)))))

theorem State.changes_step11 (f) : s.changes [.regs, .lpddr, .retiredRows, .epoch, .shape] (s.step11 f) := by
  unfold State.step11
  exact State.changes_foldl (State.changes.trans .refl (State.changes_of (M := [.lpddr, .retiredRows, .epoch, .shape]) rfl (State.storesWf_step
      (lpddr := fun _ => rfl)))) fun _ _ ht => (State.changes_setFld ..).after ht

theorem State.changes_step12 (f) : s.changes Writes.post (s.step12 f) := by
  unfold State.step12
  refine State.changes_foldl .refl fun _ _ ht => ?_
  extract_lets s1 q2
  refine State.changes_have (t := s1) ?_ fun hs1 => ?_
  · unfold s1
    split
    · exact (State.changes_count ..).after ((State.changes_count ..).after ht)
    · exact ht
  exact (State.changes_post ..).after hs1

def Writes.ready : List Field := [.outbox, .regs, .ctrs, .window, .mbxWaits, .bootStage, .stageWord, .evHead, .evLost, .evOver, .fw, .cplq, .sec,
  .bring]

theorem State.changes_ready (c) : s.changes Writes.ready (s.ready c) := by
  unfold State.ready
  extract_lets s1 s2 s3
  refine State.changes_have (t := s1) ((State.changes_enterStage ..).after ((State.changes_commitFuses ..).after .refl)) fun hs1 => ?_
  refine State.changes_have (t := s3) (State.changes_ite ((State.changes_post ..).after ((State.changes_set_bring ..).after hs1))
      ((State.changes_set_bring ..).after hs1)) fun hs3 => ?_
  split
  · exact (State.changes_endCmd ..).after ((State.changes_winPut ..).after hs3)
  · exact hs3

def Writes.bringStep : List Field := [.free, .outbox, .regs, .ctrs, .rows, .lpddr, .window, .retiredRows, .epoch, .cores, .clus, .mbxWaits,
  .bootStage, .stageWord, .evHead, .evLost, .evOver, .fw, .cplq, .sec, .nv, .shape, .mesh, .bring, .shapeNew, .coresUp]

theorem State.changes_bringStep (c f n) : s.changes Writes.bringStep (s.bringStep c f n) := by
  unfold State.bringStep
  split
  · extract_lets s1
    refine State.changes_have (t := s1) ((State.changes_step7 ..).after ((State.changes_enterStage ..).after .refl)) fun hs1 => ?_
    exact State.changes_ite hs1 ((State.changes_fatal ..).after hs1)
  · exact (State.changes_step8 ..).after ((State.changes_enterStage ..).after .refl)
  · exact (State.changes_step9 ..).after ((State.changes_enterStage ..).after .refl)
  · extract_lets s1
    refine State.changes_have (t := s1) ((State.changes_step10 ..).after ((State.changes_enterStage ..).after .refl)) fun hs1 => ?_
    exact State.changes_ite ((State.changes_fatal ..).after hs1) hs1
  · exact (State.changes_step11 ..).after ((State.changes_enterStage ..).after .refl)
  · exact (State.changes_step12 ..).after ((State.changes_enterStage ..).after .refl)
  · exact (State.changes_ready ..).after .refl
  · exact .refl

theorem State.changes_bringTick : s.changes Writes.bringStep s.bringTick := by
  unfold State.bringTick
  split
  · exact .refl
  · exact State.changes_ite ((State.changes_bringStep ..).after .refl) .refl

def Writes.bringOn : List Field := [.outbox, .regs, .ctrs, .window, .mbxWaits, .bootStage, .stageWord, .evHead, .evLost, .evOver, .sec, .nv,
  .calDue, .board]

theorem State.changes_bringOn : s.changes Writes.bringOn s.bringOn := by
  unfold State.bringOn
  split
  · exact .refl
  · refine State.changes_ite .refl ?_
    extract_lets s1 x2 s3
    refine State.changes_have (t := s1) (State.changes_ite ((State.changes_enterStage ..).after .refl) .refl) fun hs1 => ?_
    refine State.changes_have (t := s3) (State.changes_ite hs1 ((State.changes_emit ..).after ((State.changes_set_board ..).after hs1))) fun hs3 => ?_
    exact State.changes_ite ((State.changes_step6 ..).after hs3) hs3

theorem State.changes_performImage (o f) : FwRes.all (s.changes [.bootStage, .stageWord, .sec, .bring, .minSvn]) (s.performImage o f) := by
  unfold State.performImage
  extract_lets a1 n2 l3 s4
  have hs4 : s.changes [.bootStage, .stageWord, .sec, .bring, .minSvn] s4 := (State.changes_acceptImage ..).after ((State.changes_enterStage ..).after
      .refl)
  refine FwRes.all_ite ((FwRes.changes_bad ..).imp fun _ k => k.after .refl) ?_
  split
  · exact FwRes.all_wait ((State.changes_set_bring ..).after hs4)
  · exact (FwRes.changes_bad ..).imp fun _ k => k.after ((State.changes_enterStage ..).after .refl)

/-! FwPart. -/

theorem FwRes.changes_good (r0) : FwRes.all (s.changes []) (FwRes.good s r0) := by
  unfold FwRes.good
  exact FwRes.all_done .refl

def Writes.cancelFor : List Field := [.outbox, .regs, .shadow, .late, .ctrs, .window, .mbxWaits, .evHead, .evLost, .evOver, .fw, .cplq]

theorem State.changes_cancelFor (status o p) : s.changes Writes.cancelFor (s.cancelFor status o p) := by
  unfold State.cancelFor
  extract_lets other1 s2
  refine State.changes_have (t := s2) ?_ fun hs2 => ?_
  · unfold s2
    refine State.changes_foldl .refl fun _ _ ht => ?_
    split
    · exact (State.changes_fwRefused ..).after ht
    · exact ht
  exact (State.changes_cancel ..).after hs2

theorem State.changes_performCreate (o) : FwRes.all (s.changes [.regs, .shadow, .late, .cores, .beat]) (s.performCreate o) := by
  unfold State.performCreate
  extract_lets p1 w2
  refine FwRes.all_ite ((FwRes.changes_bad ..).imp fun _ k => k.after .refl) ?_
  exact FwRes.all_wait ((State.changes_fwArm ..).after ((State.changes_fwWords ..).after .refl))

theorem State.changes_performPartReset (o destroy) : FwRes.all (s.changes Writes.cancelFor) (s.performPartReset o destroy) := by
  unfold State.performPartReset
  exact FwRes.all_ite ((FwRes.changes_bad ..).imp fun _ k => k.after .refl) (FwRes.all_wait ((State.changes_cancelFor ..).after .refl))

theorem State.all_jobCheck {P : State → Prop} {o k} (h : P s) (hk : FwRes.all P k) : FwRes.all P (s.jobCheck o k) := by
  unfold State.jobCheck
  split
  · exact h
  split
  · exact h
  · exact h
  · exact hk

theorem State.changes_measureStart (o) : s.changes [.sec] (s.measureStart o) := by
  unfold State.measureStart
  exact (State.changes_measure ..).after .refl

theorem State.changes_dspShadow (p j f) : s.changes [.shadow, .cores, .beat] (s.dspShadow p j f) := by
  unfold State.dspShadow
  exact State.changes_foldl .refl fun _ _ ht => (State.changes_fwShadow ..).after ht

theorem State.changes_performResume (o) : FwRes.all (s.changes [.regs, .shadow, .late, .cores, .beat]) (s.performResume o) := by
  unfold State.performResume
  extract_lets p1 j2 b3
  refine State.all_jobCheck .refl ?_
  refine FwRes.all_ite ((FwRes.changes_bad ..).imp fun _ k => k.after .refl) ?_
  exact (State.changes_armAll ..).imp fun _ k => k.after ((State.changes_dspShadow ..).after .refl)

theorem State.changes_startShadow (o fresh m) : s.changes [.shadow, .cores, .jobs, .beat] (s.startShadow o fresh m) := by
  unfold State.startShadow
  extract_lets p1 j2 imgs3 cls4 x5 s6 s7 frozen8 s9
  refine State.changes_have (t := s7) ?_ fun hs7 => ?_
  · unfold s7
    refine State.changes_ite ?_ ?_
    · exact State.changes_foldl ((State.changes_setJob ..).after .refl) fun _ _ ht1 => (State.changes_fwWords ..).after ht1
    · exact ((State.changes_setJob ..).after .refl)
  exact State.changes_foldl ((State.changes_dspShadow ..).after hs7) fun _ _ ht => (State.changes_fwShadow ..).after ht

theorem State.changes_performStart (o) : FwRes.all (s.changes [.regs, .shadow, .late, .cores, .jobs, .beat]) (s.performStart o) := by
  unfold State.performStart
  extract_lets p1 j2 b3 fresh4 cls5 same6
  refine FwRes.all_ite ((FwRes.changes_bad ..).imp fun _ k => k.after .refl) ?_
  split
  · exact (FwRes.changes_bad ..).imp fun _ k => k.after .refl
  · exact (FwRes.changes_bad ..).imp fun _ k => k.after .refl
  · exact (FwRes.changes_bad ..).imp fun _ k => k.after .refl
  · exact (FwRes.changes_bad ..).imp fun _ k => k.after .refl
  · exact (FwRes.changes_bad ..).imp fun _ k => k.after .refl
  · refine FwRes.all_ite ((FwRes.changes_bad ..).imp fun _ k => k.after .refl) ?_
    refine FwRes.all_ite ((FwRes.changes_bad ..).imp fun _ k => k.after .refl) ?_
    exact (State.changes_armAll ..).imp fun _ k => k.after ((State.changes_startShadow ..).after .refl)

theorem State.changes_started (o) : s.changes Writes.clearTasks (s.started o) := by
  unfold State.started
  extract_lets p1 j2 b3 m4 s5 s6 x7 late8
  refine State.changes_have (t := s5) (State.changes_foldl .refl fun _ _ ht => (State.changes_wr ..).after ht) fun hs5 => ?_
  refine State.changes_have (t := s6) (State.changes.trans hs5 (State.changes_of (M := [.ctrs]) rfl (State.storesWf_step (ctrs := SMap.wf_filter _))))
      fun hs6 => ?_
  refine State.changes_ite ?_ ?_
  · exact State.changes_ite ((State.changes_syncJobs ..).after ((State.changes_setJob ..).after hs6)) ((State.changes_setJob ..).after
        ((State.changes_clearTasks ..).after .refl))
  · exact (State.changes_setJob ..).after .refl

theorem State.changes_performStop (o) : FwRes.all (s.changes []) (s.performStop o) := by
  unfold State.performStop
  exact State.all_jobCheck .refl (FwRes.all_ite ((FwRes.changes_good ..).imp fun _ k => k.after .refl) (FwRes.all_wait .refl))

theorem State.changes_performKill (o) : FwRes.all (s.changes Writes.cancelFor) (s.performKill o) := by
  unfold State.performKill
  extract_lets p1 j2 mine3 kill4
  refine FwRes.all_ite (FwRes.all_wait ((State.changes_cancelFor ..).after .refl)) ?_
  exact State.all_jobCheck .refl (FwRes.all_wait ((State.changes_cancelFor ..).after .refl))

theorem State.changes_performJobConfig (o) : FwRes.all (s.changes [.jobs]) (s.performJobConfig o) := by
  unfold State.performJobConfig
  extract_lets n1 l2 x3
  refine FwRes.all_ite ((FwRes.changes_bad ..).imp fun _ k => k.after .refl) ?_
  refine FwRes.all_ite ((FwRes.changes_bad ..).imp fun _ k => k.after .refl) ?_
  refine State.all_jobCheck .refl ?_
  refine FwRes.all_ite ((FwRes.changes_bad ..).imp fun _ k => k.after .refl) ?_
  exact (FwRes.changes_good ..).imp fun _ k => k.after ((State.changes_setJob ..).after .refl)

theorem State.changes_performTithe (o) : FwRes.all (s.changes [.jobs]) (s.performTithe o) := by
  unfold State.performTithe
  extract_lets n1 h2 k3 t4 x5
  refine State.all_jobCheck .refl ?_
  refine FwRes.all_ite ((FwRes.changes_bad ..).imp fun _ k => k.after .refl) ?_
  exact (FwRes.changes_good ..).imp fun _ k => k.after ((State.changes_setJob ..).after .refl)

theorem State.changes_performSeal (o undo) : FwRes.all (s.changes [.seals]) (s.performSeal o undo) := by
  unfold State.performSeal
  extract_lets t1
  refine FwRes.all_ite ((FwRes.changes_bad ..).imp fun _ k => k.after .refl) ?_
  refine State.all_jobCheck .refl ?_
  refine FwRes.all_ite ((FwRes.changes_bad ..).imp fun _ k => k.after .refl) ?_
  exact FwRes.all_ite ((FwRes.changes_bad ..).imp fun _ k => k.after .refl) (FwRes.all_wait ((State.changes_set_seals ..).after .refl))

def Writes.sealNow : List Field := [.outbox, .regs, .shadow, .ctrs, .rows, .window, .bringups, .seals, .copyGone, .cores, .clus, .waits,
  .mbxWaits, .evHead, .evLost, .evOver, .fw, .cplq]

theorem State.changes_sealNow (w) : s.changes Writes.sealNow (s.sealNow w) := by
  unfold State.sealNow
  exact (State.changes_complete? ..).after (State.changes_ite ((State.changes_unseal ..).after ((State.changes_set_seals ..).after .refl))
      ((State.changes_seal ..).after ((State.changes_set_seals ..).after .refl)))

theorem State.changes_performTensor (o) : FwRes.all (s.changes [.regs, .shadow, .late, .cores, .beat]) (s.performTensor o) := by
  unfold State.performTensor
  extract_lets t1
  refine FwRes.all_ite ((FwRes.changes_bad ..).imp fun _ k => k.after .refl) ?_
  refine State.all_jobCheck .refl ?_
  refine FwRes.all_ite ((FwRes.changes_bad ..).imp fun _ k => k.after .refl) ?_
  refine FwRes.all_ite ((FwRes.changes_bad ..).imp fun _ k => k.after .refl) ?_
  exact (State.changes_fwTables ..).imp fun _ k => k.after ((State.changes_fwImage ..).after .refl)

theorem State.changes_performLayer (o) : FwRes.all (s.changes [.regs, .shadow, .late, .cores, .beat]) (s.performLayer o) := by
  unfold State.performLayer
  extract_lets n1 old2 st3
  refine FwRes.all_ite ((FwRes.changes_bad ..).imp fun _ k => k.after .refl) ?_
  refine State.all_jobCheck .refl ?_
  refine FwRes.all_ite ((FwRes.changes_bad ..).imp fun _ k => k.after .refl) ?_
  exact (State.changes_fwTables ..).imp fun _ k => k.after ((State.changes_fwImage ..).after .refl)

theorem State.changes_layerState (o) : s.changes [.regs] (s.layerState o) := by
  unfold State.layerState
  exact State.changes_ite .refl (State.changes_foldl .refl fun _ _ ht1 => State.changes_foldl ht1 fun _ _ ht2 => (State.changes_wr ..).after ht2)

theorem State.changes_mapPage (o pg) : s.changes Writes.unmap (s.mapPage o pg) := by
  unfold State.mapPage
  extract_lets w1 t2
  refine State.changes_ite ((State.changes_unmap ..).after .refl) ?_
  refine State.changes_ite ((State.changes_newPage ..).after .refl) ?_
  split
  · exact (State.changes_newPage ..).after ((State.changes_zeroFrame ..).after .refl)
  · exact .refl

theorem State.changes_performPageMap (o) : FwRes.all (s.changes Writes.unmap) (s.performPageMap o) := by
  unfold State.performPageMap
  extract_lets p1 j2 first3 n4 st5 t6 pgs7 state8 s9
  have hs9 : s.changes Writes.unmap s9 := State.changes_foldl .refl fun _ _ ht => (State.changes_mapPage ..).after ht
  refine FwRes.all_ite ((FwRes.changes_bad ..).imp fun _ k => k.after .refl) ?_
  refine FwRes.all_ite ((FwRes.changes_bad ..).imp fun _ k => k.after .refl) ?_
  refine FwRes.all_ite ((FwRes.changes_bad ..).imp fun _ k => k.after .refl) ?_
  refine FwRes.all_ite ((FwRes.changes_bad ..).imp fun _ k => k.after .refl) ?_
  exact FwRes.all_ite ((FwRes.changes_bad ..).imp fun _ k => k.after .refl) ((FwRes.changes_good ..).imp fun _ k => k.after hs9)

theorem State.changes_copyIn (f k at_) : s.changes [.ctrs, .lpddr, .checks, .epoch] (s.copyIn f k at_) := by
  unfold State.copyIn
  exact State.changes_foldl .refl fun _ _ ht => (State.changes_set_epoch ..).after ((State.changes_lpWrite ..).after ht)

def Writes.performPageIn : List Field := [.free, .outbox, .regs, .shadow, .ctrs, .rows, .lpddr, .checks, .window, .moves, .ceRows, .copying,
  .epoch, .walk, .bringups, .cores, .clus, .chans, .waits, .arrivals, .ports, .gates, .loop, .mbxWaits, .stageWord, .evHead, .evTail, .evLost,
  .evOver, .nv, .shape]

theorem State.changes_performPageIn (o) : FwRes.all (s.changes Writes.performPageIn) (s.performPageIn o) := by
  unfold State.performPageIn
  extract_lets p1 pg2 w3 cur4 k5 x6 s7 frame8 done9
  have hs7 : s.changes Writes.performPageIn s7 := by
    unfold s7
    generalize cur4 = cur4'
    split
    · exact (State.changes_noMove ..).after ((State.changes_zeroFrame ..).after .refl)
    · exact .refl
  refine FwRes.all_ite ((FwRes.changes_bad ..).imp fun _ k => k.after .refl) ?_
  refine State.all_jobCheck .refl ?_
  refine FwRes.all_ite ((FwRes.changes_bad ..).imp fun _ k => k.after .refl) ?_
  refine FwRes.all_ite ((FwRes.changes_good ..).imp fun _ k => k.after (State.changes_foldl hs7 fun _ _ ht3 => (State.changes_abandonChan ..).after
      ht3)) ?_
  refine FwRes.all_ite ((FwRes.changes_bad ..).imp fun _ k => k.after .refl) ?_
  generalize frame8 = frame8'
  split
  · exact (FwRes.changes_bad ..).imp fun _ k => k.after .refl
  · extract_lets s10 s11 s12
    have hs10 : s.changes Writes.performPageIn s10 := State.changes_ite .refl ((State.changes_zeroFrame ..).after .refl)
    have hs12 : s.changes Writes.performPageIn s12 := (State.changes_newPage ..).after ((State.changes_noMove ..).after ((State.changes_copyIn
        ..).after hs10))
    refine FwRes.all_ite ((FwRes.changes_good ..).imp fun _ k => k.after ((State.changes_resumePart ..).after (State.changes_foldl hs12
        fun _ _ ht6 => (State.changes_resumePaused ..).after ht6))) ?_
    exact (FwRes.changes_good ..).imp fun _ k => k.after ((State.changes_set_moves ..).after ((State.changes_copyIn ..).after hs10))

theorem State.changes_performPageOut (o) : FwRes.all (s.changes Writes.performPageIn) (s.performPageOut o) := by
  unfold State.performPageOut
  extract_lets p1 pg2 w3 k4 x5 held6 s7
  refine FwRes.all_ite ((FwRes.changes_bad ..).imp fun _ k => k.after .refl) ?_
  refine State.all_jobCheck .refl ?_
  refine FwRes.all_ite ((FwRes.changes_bad ..).imp fun _ k => k.after .refl) ?_
  refine FwRes.all_ite (FwRes.all_wait .refl) ?_
  split
  · extract_lets s8 s9 s10
    have hs8 : s.changes Writes.performPageIn s8 := (State.changes_winPut ..).after ((State.changes_lpMeets ..).after .refl)
    have hs9 : s.changes Writes.performPageIn s9 := State.changes_ite hs8 ((State.changes_winPut ..).after hs8)
    have hs10 : s.changes Writes.performPageIn s10 := (State.changes_newPage ..).after ((State.changes_noMove ..).after hs9)
    refine FwRes.all_ite ((FwRes.changes_good ..).imp fun _ k => k.after ((State.changes_granariesGo ..).after ((State.changes_zeroFrame ..).after
        hs10))) ?_
    exact (FwRes.changes_good ..).imp fun _ k => k.after ((State.changes_set_moves ..).after hs9)

theorem State.changes_performPhase (o) : FwRes.all (s.changes [.parts]) (s.performPhase o) := by
  unfold State.performPhase
  exact FwRes.all_ite ((FwRes.changes_bad ..).imp fun _ k => k.after .refl) (FwRes.all_wait ((State.changes_setPart ..).after .refl))

def Writes.fwApplied : List Field := Field.but [.pending, .suspects, .snap, .snapBeat, .snapAsked, .lpPatrol, .moves, .retiredRows, .walk, .seals,
  .copyGone, .taskSeq, .clus, .power, .edgeDraw, .powerOver, .grng, .win, .titheSeq, .beat, .mods, .lostTags, .hostLost, .bootStage, .mesh,
  .bring, .shapeNew, .coresUp, .defects, .fwTurn, .seedPack, .seedSets, .minSvn, .calDue, .calLate, .passedAt, .testFirst, .window_, .board]

theorem State.changes_fwApplied (o) : s.changes Writes.fwApplied (s.fwApplied o) := by
  unfold State.fwApplied
  split
  · exact (State.changes_endCmd ..).after ((State.changes_setPart ..).after .refl)
  · extract_lets s1
    refine State.changes_have (t := s1) ((State.changes_started ..).after ((State.changes_measureStart ..).after .refl)) fun hs1 => ?_
    exact State.changes_ite ((State.changes_endCmd ..).after hs1) ((State.changes_endCmd ..).after ((State.changes_stopForFault ..).after hs1))
  · exact (State.changes_endCmd ..).after ((State.changes_layerState ..).after .refl)
  · exact (State.changes_endCmd ..).after ((State.changes_measureLink ..).after .refl)
  · exact (State.changes_endCmd ..).after .refl
  · exact (State.changes_setWait ..).after .refl
  · exact (State.changes_endCmd ..).after .refl

/-! Winnower. -/

theorem State.changes_setWinState (g st) : s.changes [.regs] (s.setWinState g st) := by
  unfold State.setWinState
  exact (State.changes_setFld ..).after .refl

theorem State.changes_setState (g i k lo len v) : s.changes [.regs] (s.setState g i k lo len v) := by
  unfold State.setState
  exact (State.changes_wr ..).after .refl

theorem State.changes_skewCheck (g t norm is) : s.changes [.regs, .ctrs] (s.skewCheck g t norm is).2 := by
  unfold State.skewCheck
  extract_lets bad1 s2
  generalize bad1 = bad1'
  split
  · exact .refl
  · exact State.changes_ite ((State.changes_count ..).after .refl) ((State.changes_wr ..).after ((State.changes_count ..).after .refl))

theorem State.changes_winCheck (g) : s.changes Writes.post (s.winCheck g) := by
  unfold State.winCheck
  extract_lets c1 refusal2 s3
  refine State.changes_have (t := s3) ?_ fun hs3 => ?_
  · unfold s3
    split
    · exact (State.changes_fault ..).after ((State.changes_count ..).after .refl)
    · exact .refl
  split
  · rename_i he
    have hhe := State.changes_snd (M := Writes.post) (s := s) he (by
      refine State.changes_ite_snd hs3 ?_
      split
      · rename_i he1
        exact (State.changes_snd he1 (State.changes_skewCheck ..)).after hs3)
    exact (State.changes_setWinState ..).after ((State.changes_setFld ..).after hhe)

theorem State.changes_winRoundings (g sr rows) : s.changes [.free, .ctrs] (s.winRoundings g sr rows).2 := by
  unfold State.winRoundings
  exact State.changes_ite_snd ((State.changes_freeDraws ..).after .refl) (State.changes_ite ((State.changes_count ..).after .refl) .refl)

theorem State.changes_writeCodes (ls live w cs) : s.changes [.ctrs, .lpddr, .checks] (s.writeCodes ls live w cs) := by
  unfold State.writeCodes
  extract_lets rows1
  refine State.changes_foldl .refl fun _ _ ht => ?_
  split
  · exact State.changes_ite ((State.changes_lpWrite ..).after ht) ht
  · exact ht

theorem State.changes_poisonRows (ls) : s.changes [.ctrs, .lpddr, .checks] (s.poisonRows ls) := by
  unfold State.poisonRows
  exact State.changes_foldl .refl fun _ _ ht => (State.changes_lpWrite ..).after ht

def Writes.winRefused : List Field := [.outbox, .regs, .ctrs, .window, .win, .mbxWaits, .evHead, .evLost, .evOver]

theorem State.changes_winRefused (g p j ls write) : s.changes Writes.winRefused (s.winRefused g p j ls write) := by
  unfold State.winRefused
  split
  · exact State.changes_ite ((State.changes_set_win ..).after ((State.changes_classRefused ..).after .refl)) ((State.changes_pageFault ..).after
        .refl)
  · exact .refl

theorem State.changes_setRowBits (l lo len v) : s.changes [.ctrs, .lpddr, .checks] (s.setRowBits l lo len v) := by
  unfold State.setRowBits
  exact State.changes_ite .refl ((State.changes_lpWrite ..).after .refl)

def Writes.setTrows : List Field := [.outbox, .regs, .ctrs, .lpddr, .checks, .window, .ceRows, .copying, .cores, .win, .mbxWaits, .evHead,
  .evLost, .evOver, .nv, .shape]

theorem State.changes_setTrows (r t) : s.changes Writes.setTrows (s.setTrows r t) := by
  unfold State.setTrows
  extract_lets hit1 p2
  refine State.changes_foldl .refl fun _ _ ht => ?_
  extract_lets ls3
  refine State.changes_ite ?_ ?_
  · exact (State.changes_winRefused ..).after ht
  · exact State.changes_foldl ((State.changes_lpMeets ..).after ht) fun _ _ ht2 => (State.changes_setRowBits ..).after ht2

def Writes.sendTithe : List Field := [.outbox, .regs, .ctrs, .tithes, .titheSeq, .ports, .gates, .loop]

theorem State.changes_sendTithe (g p j i k r t) : s.changes Writes.sendTithe (s.sendTithe g p j i k r t) := by
  unfold State.sendTithe
  split
  · exact .refl
  · extract_lets slot1 rows2 scale3 trows4 id5 all6
    refine State.changes_ite .refl ?_
    split
    · exact (State.changes_count ..).after .refl
    · exact (State.changes_count ..).after ((State.changes_pushTithe ..).after ((State.changes_set_tithes_titheSeq ..).after .refl))

theorem State.changes_markPoisoned (p j t) : s.changes [.jobs, .win] (s.markPoisoned p j t) := by
  unfold State.markPoisoned
  extract_lets b1 s2
  split
  · exact State.changes_ite ((State.changes_set_win ..).after ((State.changes_setJob ..).after .refl)) ((State.changes_setJob ..).after .refl)
  · exact ((State.changes_setJob ..).after .refl)

theorem State.changes_addPartial (g i x) : s.changes [.regs] (s.addPartial g i x) := by
  unfold State.addPartial
  exact (State.changes_setState ..).after .refl

def Writes.normGranule : List Field := [.outbox, .regs, .ctrs, .lpddr, .checks, .window, .ceRows, .copying, .cores, .jobs, .win, .mbxWaits,
  .evHead, .evLost, .evOver, .nv, .shape]

theorem State.changes_normGranule (g p j i k r t) : s.changes Writes.normGranule (s.normGranule g p j i k r t) := by
  unfold State.normGranule
  extract_lets ls1 xs2 s3 ws4
  refine State.changes_ite ((State.changes_winRefused ..).after .refl) ?_
  refine State.changes_ite ?_ ?_
  · exact (State.changes_markPoisoned ..).after ((State.changes_lpMeets ..).after .refl)
  · exact (State.changes_addPartial ..).after ((State.changes_lpMeets ..).after .refl)

theorem State.changes_publish (g k r tensor vals) : s.changes Writes.lpTouch (s.publish g k r tensor vals) := by
  unfold State.publish
  exact (State.changes_count ..).after ((State.changes_lpWrite ..).after ((State.changes_lpMeet ..).after ((State.changes_writeCodes ..).after
      .refl)))

def Writes.updateGranule : List Field := [.free, .outbox, .regs, .ctrs, .lpddr, .checks, .window, .ceRows, .copying, .cores, .jobs, .win, .tithes,
  .titheSeq, .ports, .gates, .loop, .mbxWaits, .evHead, .evLost, .evOver, .nv, .shape]

theorem State.changes_updateGranule (g p j i k r c eta) : s.changes Writes.updateGranule (s.updateGranule g p j i k r c eta) := by
  unfold State.updateGranule
  extract_lets lw1 lm2 lg3 ls4 pub5 lp6 lps7 rows8 lt9 s10 hit11 n12 live13 lives14 rw15 rm16 rg17 lr18 mine19 s20 s21 all22 s23 s24 s25 sc26 ws27
      ms28 gs29 b230 decay31 miss32 xs33 os34 done35 sq36 nbad37
  refine State.changes_have (t := s20) ((State.changes_count ..).after ((State.changes_count ..).after ((State.changes_lpMeets ..).after .refl)))
      fun hs20 => ?_
  refine State.changes_have (t := s21) (State.changes_ite ((State.changes_count ..).after hs20) ((State.changes_lpMeets ..).after .refl))
      fun hs21 => ?_
  refine State.changes_have (t := s24) ((State.changes_poisonRows ..).after ((State.changes_poisonRows ..).after ((State.changes_poisonRows ..).after
      ((State.changes_lpMeets ..).after hs21)))) fun hs24 => ?_
  refine State.changes_ite ((State.changes_winRefused ..).after .refl) ?_
  refine State.changes_ite hs21 ?_
  refine State.changes_ite ((State.changes_winRefused ..).after hs21) ?_
  refine State.changes_ite ((State.changes_markPoisoned ..).after ((State.changes_count ..).after ((State.changes_setState ..).after hs24))) ?_
  split
  · rename_i he4
    split
    · rename_i he5
      extract_lets wn38
      split
      · extract_lets s39 s40 s41 s42 was43 s44 s45 s46
        refine State.changes_have (t := s39) ((State.changes_writeCodes ..).after ((State.changes_writeCodes ..).after ((State.changes_snd he5
            (State.changes_winRoundings ..)).after ((State.changes_snd he4 (State.changes_winRoundings ..)).after ((State.changes_lpMeets ..).after
            hs21))))) fun hs39 => ?_
        refine State.changes_have (t := s40) ((State.changes_setRowBits ..).after hs39) fun hs40 => ?_
        refine State.changes_have (t := s41) ?_ fun hs41 => ?_
        · unfold s41
          generalize pub5 = pub5'
          split
          · exact (State.changes_publish ..).after hs40
          · exact hs40
        refine State.changes_have (t := s42) ((State.changes_addPartial ..).after hs41) fun hs42 => ?_
        refine State.changes_have (t := s44) ((State.changes_count ..).after ((State.changes_setState ..).after hs42)) fun hs44 => ?_
        refine State.changes_have (t := s45) (State.changes_ite hs42 (State.changes_ite ((State.changes_fault ..).after hs44) hs44)) fun hs45 => ?_
        refine State.changes_have (t := s46) ((State.changes_count ..).after ((State.changes_count ..).after hs45)) fun hs46 => ?_
        exact (State.changes_sendTithe ..).after hs46

theorem State.changes_passRecord (g c i) : s.changes Writes.updateGranule (s.passRecord g c i) := by
  unfold State.passRecord
  extract_lets r1 p2 eta3 mine4 s5 s6 s7
  refine State.changes_have (t := s5) ((State.changes_setFld ..).after ((State.changes_setState ..).after .refl)) fun hs5 => ?_
  refine State.changes_have (t := s6) ((State.changes_setState ..).after ((State.changes_setState ..).after hs5)) fun hs6 => ?_
  refine State.changes_have (t := s7) (State.changes_foldl hs6 fun _ _ ht => (State.changes_setFld ..).after ((State.changes_updateGranule ..).after
      ht)) fun hs7 => ?_
  exact State.changes_ite (State.changes_foldl hs5 fun _ _ ht1 => (State.changes_normGranule ..).after ht1) ((State.changes_setState ..).after hs7)

theorem State.changes_winPass (g) : s.changes Writes.updateGranule (s.winPass g) := by
  unfold State.winPass
  exact (State.changes_settleWin ..).after ((State.changes_setWinState ..).after (State.changes_foldl ((State.changes_setWinState ..).after .refl)
      fun _ _ ht => (State.changes_passRecord ..).after ht))

/-! Steps. -/

theorem State.changes_emptyRows (rows) : s.changes [.rows] (s.emptyRows rows) := by
  unfold State.emptyRows
  exact State.changes_foldl .refl fun _ _ ht => (State.changes_setRow ..).after ht

theorem State.changes_sendPackets (p j c ms record w) : s.changes Writes.go (s.sendPackets p j c ms record w) := by
  unfold State.sendPackets
  exact (State.changes_pushPackets ..).after ((State.changes_set_packetsOut ..).after .refl)

theorem State.changes_takeReport (p j t) : s.changes [.ctrs, .jobs] (s.takeReport p j t) := by
  unfold State.takeReport
  exact (State.changes_setJob ..).after (State.changes_foldl .refl fun _ _ ht => (State.changes_setCtr ..).after ht)

theorem State.changes_performStepConfig (o) : FwRes.all (s.changes [.jobs]) (s.performStepConfig o) := by
  unfold State.performStepConfig
  extract_lets n1 ms2 x3 f4 c5 x6
  refine State.all_jobCheck .refl ?_
  refine FwRes.all_ite ((FwRes.changes_bad ..).imp fun _ k => k.after .refl) ?_
  exact (FwRes.changes_good ..).imp fun _ k => k.after ((State.changes_setJob ..).after .refl)

theorem State.changes_performStepBegin (o) : FwRes.all (s.changes []) (s.performStepBegin o) := by
  unfold State.performStepBegin
  extract_lets p1 j2 b3 ts4
  refine State.all_jobCheck .refl ?_
  refine FwRes.all_ite ((FwRes.changes_bad ..).imp fun _ k => k.after .refl) ?_
  refine FwRes.all_ite ((FwRes.changes_bad ..).imp fun _ k => k.after .refl) ?_
  exact FwRes.all_ite ((FwRes.changes_bad ..).imp fun _ k => k.after .refl) (FwRes.all_wait .refl)

theorem State.changes_epochClear (p j) : s.changes [.regs, .epoch, .jobs] (s.epochClear p j) := by
  unfold State.epochClear
  exact (State.changes_syncEpoch ..).after ((State.changes_setJob ..).after (State.changes_foldl .refl fun _ _ ht => (State.changes_set_epoch
      ..).after ht))

theorem State.changes_askUnseal (p j t) : s.changes [.seals, .jobs] (s.askUnseal p j t) := by
  unfold State.askUnseal
  extract_lets b1 s2
  refine State.changes_have (t := s2) (State.changes_ite .refl ((State.changes_setJob ..).after .refl)) fun hs2 => ?_
  exact State.changes_ite ((State.changes_set_seals ..).after hs2) hs2

theorem State.changes_takeNext (p j) : s.changes Writes.preemptAll (s.takeNext p j) := by
  unfold State.takeNext
  extract_lets b1 s2 frozen3
  refine State.changes_have (t := s2) ?_ fun hs2 => ?_
  · unfold s2
    split
    · exact (State.changes_dspPut ..).after .refl
    · exact .refl
  exact (State.changes_setJob ..).after hs2

def Writes.stepStart : List Field := Field.but [.pending, .suspects, .snap, .snapBeat, .snapAsked, .lpPatrol, .moves, .retiredRows, .walk,
  .taskSeq, .groups, .clus, .power, .edgeDraw, .powerOver, .grng, .win, .titheSeq, .beat, .mods, .lostTags, .hostLost, .bootStage, .sec, .mesh,
  .bring, .shapeNew, .coresUp, .defects, .fwTurn, .seedPack, .seedSets, .minSvn, .calDue, .calLate, .passedAt, .testFirst, .window_, .board]

theorem State.changes_stepStart (p j t lr) : s.changes Writes.stepStart (s.stepStart p j t lr) := by
  unfold State.stepStart
  extract_lets s1 b2 s3 s4 s5 s6 s7
  refine State.changes_have (t := s1) ((State.changes_adoptViews ..).after ((State.changes_takeNext ..).after .refl)) fun hs1 => ?_
  refine State.changes_have (t := s4) (State.changes_foldl ((State.changes_setJob ..).after hs1) fun _ _ ht => (State.changes_wr ..).after
      ((State.changes_wr ..).after ht)) fun hs4 => ?_
  refine State.changes_have (t := s6) (State.changes_foldl ((State.changes_epochClear ..).after hs4) fun _ _ ht => (State.changes_ttSet ..).after ht)
      fun hs6 => ?_
  refine State.changes_have (t := s7) (State.changes_ite (State.changes_foldl hs6 fun _ _ ht1 => (State.changes_askUnseal ..).after ht1) hs6)
      fun hs7 => ?_
  exact (State.changes_complete? ..).after hs7

theorem State.changes_stepEvent (p j status normsq clip reason) : s.changes Writes.post (s.stepEvent p j status normsq clip reason) := by
  unfold State.stepEvent
  exact (State.changes_post ..).after .refl

theorem State.changes_endStep (p j) : s.changes [.ctrs, .jobs] (s.endStep p j) := by
  unfold State.endStep
  exact (State.changes_setJob ..).after ((State.changes_takeReport ..).after .refl)

theorem State.changes_voidStep (p j reason normsq) : s.changes Writes.reportFault (s.voidStep p j reason normsq) := by
  unfold State.voidStep
  exact (State.changes_endStep ..).after ((State.changes_stepEvent ..).after .refl)

theorem State.changes_granaryPacket (p j g) : s.changes [.regs, .ctrs, .jobs] (s.granaryPacket p j g) := by
  unfold State.granaryPacket
  extract_lets t1
  split
  · rename_i he
    exact (State.changes_setJob ..).after ((State.changes_snd he (State.changes_skewCheck ..)).after .refl)

theorem changes_execEndOfBackward (part job) : Res.all (s.changes [.regs, .ctrs, .jobs]) (execEndOfBackward part job s) := by
  unfold execEndOfBackward
  exact Res.all_unitOk (Res.all_need .refl (Res.all_next (State.changes_foldl ((State.changes_setJob ..).after .refl)
      fun _ _ ht => (State.changes_granaryPacket ..).after ht)))

def Writes.formResult : List Field := [.outbox, .regs, .ctrs, .jobs, .packetsOut, .ports, .gates, .loop]

theorem State.changes_formResult (p j l missing) : s.changes Writes.formResult (s.formResult p j l missing) := by
  unfold State.formResult
  exact (State.changes_sendPackets ..).after ((State.changes_setJob ..).after .refl)

theorem changes_execDevicePacketFormed (part job) : Res.all (s.changes Writes.formResult) (execDevicePacketFormed part job s) := by
  unfold execDevicePacketFormed
  refine Res.all_unitOk ?_
  refine Res.all_need .refl ?_
  refine Res.all_next ?_
  extract_lets b1 d2 s3
  refine State.changes_ite ?_ ?_
  · exact (State.changes_formResult ..).after ((State.changes_setJob ..).after .refl)
  · exact State.changes_ite ((State.changes_setJob ..).after .refl) ((State.changes_sendPackets ..).after ((State.changes_setJob ..).after .refl))

def Writes.execReductionComplete : List Field := [.outbox, .regs, .ctrs, .rows, .jobs, .packetsOut, .ports, .gates, .loop]

theorem changes_execReductionComplete (part job rows) : Res.all (s.changes Writes.execReductionComplete) (execReductionComplete part job rows s) := by
  unfold execReductionComplete
  refine Res.all_unitOk ?_
  extract_lets c1 l2
  refine Res.all_ite (Res.all_next ((State.changes_emptyRows ..).after ((State.changes_countJob ..).after .refl))) ?_
  exact Res.all_need .refl (Res.all_next ((State.changes_formResult ..).after ((State.changes_emptyRows ..).after .refl)))

theorem changes_execReduceTimeout (part job rows) : Res.all (s.changes Writes.execReductionComplete) (execReduceTimeout part job rows s) := by
  unfold execReduceTimeout
  exact Res.all_unitOk (Res.all_need .refl (Res.all_next ((State.changes_formResult ..).after ((State.changes_emptyRows ..).after .refl))))

theorem changes_execResultWaitTimeout (part job) : Res.all (s.changes Writes.post) (execResultWaitTimeout part job s) := by
  unfold execResultWaitTimeout
  exact Res.all_unitOk (Res.all_need .refl (Res.all_next ((State.changes_stepEvent ..).after .refl)))

def Writes.useResult : List Field := [.outbox, .regs, .ctrs, .window, .seals, .jobs, .mbxWaits, .evHead, .evLost, .evOver]

theorem State.changes_useResult (p j w) : s.changes Writes.useResult (s.useResult p j w) := by
  unfold State.useResult
  extract_lets b1 k2 b3 s4
  refine State.changes_ite ((State.changes_voidStep ..).after .refl) ?_
  refine State.changes_ite ?_ ?_
  · exact (State.changes_voidStep ..).after .refl
  · exact State.changes_foldl ((State.changes_setJob ..).after .refl) fun _ _ ht2 => (State.changes_askUnseal ..).after ht2

theorem State.changes_holdResult (p j w) : s.changes [.jobs] (s.holdResult p j w) := by
  unfold State.holdResult
  exact (State.changes_setJob ..).after .refl

theorem changes_execReductionResult (part job rows) : Res.all (s.changes [.ctrs, .rows, .jobs]) (execReductionResult part job rows s) := by
  unfold execReductionResult
  refine Res.all_unitOk ?_
  split
  · exact Res.all_next .refl
  · exact Res.all_next ((State.changes_emptyRows ..).after (State.changes_ite ((State.changes_holdResult ..).after .refl) ((State.changes_countJob
        ..).after .refl)))

theorem State.changes_resultTick : s.changes Writes.useResult s.resultTick := by
  unfold State.resultTick
  refine State.changes_foldl .refl fun _ _ ht => ?_
  split
  · exact (State.changes_useResult ..).after ht
  · exact ht

theorem State.changes_performStepResult (o) : FwRes.all (s.changes [.jobs]) (s.performStepResult o) := by
  unfold State.performStepResult
  extract_lets p1 j2 w3 b4
  refine State.all_jobCheck .refl ?_
  refine FwRes.all_ite ((FwRes.changes_bad ..).imp fun _ k => k.after .refl) ?_
  refine FwRes.all_ite ((FwRes.changes_bad ..).imp fun _ k => k.after .refl) ?_
  exact (FwRes.changes_good ..).imp fun _ k => k.after ((State.changes_holdResult ..).after .refl)

theorem State.changes_performStepVoid (o) : FwRes.all (s.changes Writes.reportFault) (s.performStepVoid o) := by
  unfold State.performStepVoid
  extract_lets p1 j2 b3
  refine State.all_jobCheck .refl ?_
  refine FwRes.all_ite ((FwRes.changes_bad ..).imp fun _ k => k.after .refl) ?_
  exact (FwRes.changes_good ..).imp fun _ k => k.after ((State.changes_voidStep ..).after (State.changes_ite ((State.changes_countJob ..).after .refl)
      .refl))

theorem State.changes_postRun (w) : s.changes [.regs, .win] (s.postRun w) := by
  unfold State.postRun
  split
  · exact (State.changes_set_win ..).after .refl
  · extract_lets b1 upd2 c3 ws4 s5
    refine State.changes_have (t := s5) ?_ fun hs5 => ?_
    · unfold s5
      refine State.changes_foldl .refl fun _ _ ht1 => ?_
      extract_lets s6
      refine State.changes_have (t := s6) (State.changes_foldl ht1 fun _ _ ht2 => (State.changes_wr ..).after ht2) fun hs6 => ?_
      exact State.changes_ite ((State.changes_setWinState ..).after hs6) hs6
    exact (State.changes_set_win ..).after hs5

theorem State.changes_postWin : s.changes [.regs, .win, .fw] s.postWin := by
  unfold State.postWin
  refine State.changes_ite .refl ?_
  extract_lets jobs1
  generalize jobs1 = jobs1'
  split
  · exact (State.changes_postRun ..).after .refl
  · split
    · exact (State.changes_postRun ..).after ((State.changes_setWait ..).after .refl)
    · exact .refl

theorem State.changes_performLayerNorm (o) : FwRes.all (s.changes []) (s.performLayerNorm o) := by
  unfold State.performLayerNorm
  exact State.all_jobCheck .refl (FwRes.all_ite ((FwRes.changes_bad ..).imp fun _ k => k.after .refl) (FwRes.all_wait .refl))

theorem changes_execWinGo (g) : Res.all (s.changes Writes.winRefused) (execWinGo g s) := by
  unfold execWinGo
  refine Res.all_unitOk ?_
  refine Res.all_ite ?_ ?_
  · refine Res.all_next ?_
    split
    · exact (State.changes_stepEvent ..).after .refl
    · exact .refl
  · refine Res.all_next ?_
    extract_lets s1
    split
    · exact State.changes_ite ((State.changes_set_win ..).after ((State.changes_winCheck ..).after .refl)) ((State.changes_winCheck ..).after .refl)
    · exact ((State.changes_winCheck ..).after .refl)

theorem changes_execWinRelease (g) : Res.all (s.changes Writes.updateGranule) (execWinRelease g s) := by
  unfold execWinRelease
  exact Res.all_unitOk (Res.all_need .refl (Res.all_next ((State.changes_winPass ..).after .refl)))

theorem State.changes_startNorms (w is full) : s.changes Writes.formResult (s.startNorms w is full) := by
  unfold State.startNorms
  exact State.changes_foldl .refl fun _ _ ht => State.changes_ite ((State.changes_setJob ..).after ht) ((State.changes_sendPackets ..).after
      ((State.changes_setJob ..).after ht))

theorem State.changes_askSeal (t) : s.changes [.seals] (s.askSeal t) := by
  unfold State.askSeal
  exact State.changes_ite ((State.changes_set_seals ..).after .refl) .refl

theorem State.changes_askSeals (w) : s.changes [.seals] (s.askSeals w) := by
  unfold State.askSeals
  exact State.changes_foldl .refl fun _ _ ht => State.changes_ite ((State.changes_askSeal ..).after ((State.changes_askSeal ..).after ht))
      ((State.changes_askSeal ..).after ht)

theorem State.changes_faultStop (p j) : s.changes [.jobs] (s.faultStop p j) := by
  unfold State.faultStop
  exact (State.changes_setJob ..).after ((State.changes_requestStop ..).after .refl)

def Writes.afterRuns : List Field := [.outbox, .regs, .ctrs, .lpddr, .checks, .window, .ceRows, .copying, .seals, .cores, .jobs, .win,
  .packetsOut, .ports, .gates, .loop, .mbxWaits, .evHead, .evLost, .evOver, .nv, .shape]

theorem State.changes_afterRuns (w) : s.changes Writes.afterRuns (s.afterRuns w) := by
  unfold State.afterRuns
  extract_lets p1 j2 x3 is4 lazies5 s6 s7 s8 is9 s10 s11 s12
  refine State.changes_have (t := s6) (State.changes_foldl .refl fun _ _ ht => (State.changes_setTrows ..).after ht) fun hs6 => ?_
  refine State.changes_have (t := s8) ((State.changes_startNorms ..).after .refl) fun hs8 => ?_
  refine State.changes_have (t := s10) (State.changes_ite ((State.changes_faultStop ..).after .refl) .refl) fun hs10 => ?_
  refine State.changes_have (t := s11) ((State.changes_startNorms ..).after hs10) fun hs11 => ?_
  refine State.changes_have (t := s12) ((State.changes_startNorms ..).after .refl) fun hs12 => ?_
  split
  · refine State.changes_ite ?_ ?_
    · exact (State.changes_postRun ..).after ((State.changes_startNorms ..).after hs6)
    · exact (State.changes_askSeals ..).after ((State.changes_set_win ..).after ((State.changes_startNorms ..).after hs6))
  · exact (State.changes_askSeals ..).after ((State.changes_set_win ..).after hs8)
  · exact (State.changes_set_win ..).after hs11
  · exact (State.changes_set_win ..).after hs12

theorem changes_execWinPassDone (part job) : Res.all (s.changes Writes.afterRuns) (execWinPassDone part job s) := by
  unfold execWinPassDone
  refine Res.all_unitOk ?_
  split
  · exact Res.all_next .refl
  · refine Res.all_need .refl ?_
    refine Res.all_next ?_
    split
    · exact (State.changes_postRun ..).after .refl
    · exact (State.changes_afterRuns ..).after .refl

def Writes.finishRun : List Field := [.outbox, .regs, .ctrs, .window, .jobs, .win, .mbxWaits, .evHead, .evLost, .evOver, .fw, .cplq]

theorem State.changes_finishRun (w) : s.changes Writes.finishRun (s.finishRun w) := by
  unfold State.finishRun
  extract_lets p1 j2 s3 b4 st5 x6 r7 s8 s9
  refine State.changes_have (t := s8) ((State.changes_setJob ..).after ((State.changes_set_win ..).after .refl)) fun hs8 => ?_
  refine State.changes_have (t := s9) ((State.changes_endStep ..).after ((State.changes_stepEvent ..).after hs8)) fun hs9 => ?_
  split
  · exact (State.changes_complete? ..).after ((State.changes_setJob ..).after ((State.changes_set_win ..).after .refl))
  · exact State.changes_ite hs9 ((State.changes_faultStop ..).after hs9)

def Writes.settleRun : List Field := [.outbox, .regs, .ctrs, .window, .seals, .jobs, .win, .mbxWaits, .evHead, .evLost, .evOver, .fw, .cplq]

theorem State.changes_settleRun : s.changes Writes.settleRun s.settleRun := by
  unfold State.settleRun
  split
  · exact .refl
  · refine State.changes_ite .refl ?_
    extract_lets sealing1
    refine State.changes_ite .refl ?_
    refine State.changes_ite ?_ ?_
    · exact State.changes_ite .refl (State.changes_ite ((State.changes_askSeals ..).after .refl) ((State.changes_finishRun ..).after .refl))
    · exact (State.changes_finishRun ..).after .refl

theorem State.changes_withheld (w) : s.changes Writes.settleRun (s.withheld w) := by
  unfold State.withheld
  extract_lets st1 s2 x3
  split
  · exact (State.changes_endStep ..).after ((State.changes_stepEvent ..).after ((State.changes_set_win ..).after .refl))
  · exact (State.changes_complete? ..).after ((State.changes_set_win ..).after .refl)
  · exact (State.changes_askSeals ..).after ((State.changes_set_win ..).after .refl)

theorem changes_execWinWithhold (g) : Res.all (s.changes Writes.settleRun) (execWinWithhold g s) := by
  unfold execWinWithhold
  refine Res.all_unitOk ?_
  refine Res.all_need .refl ?_
  refine Res.all_next ?_
  extract_lets s1
  refine State.changes_have (t := s1) ((State.changes_setWinState ..).after .refl) fun hs1 => ?_
  split
  · exact State.changes_ite ((State.changes_withheld ..).after hs1) hs1
  · exact hs1

theorem State.changes_normResult (p j n res) : s.changes Writes.finishRun (s.normResult p j n res) := by
  unfold State.normResult
  extract_lets b1 i2 own3 s4 void5 s6 st7 s8 b9 rest10
  refine State.changes_have (t := s6) ?_ fun hs6 => ?_
  · unfold s6
    refine State.changes_ite ?_ ?_
    · exact ((State.changes_setJob ..).after .refl)
    · exact State.changes_foldl ((State.changes_setJob ..).after .refl) fun _ _ ht1 => (State.changes_setState ..).after ((State.changes_setState
          ..).after ht1)
  refine State.changes_have (t := s8) ?_ fun hs8 => ?_
  · unfold s8
    split
    · exact State.changes_ite ((State.changes_set_win ..).after hs6) hs6
    · exact hs6
  refine State.changes_ite ?_ ?_
  · exact State.changes_ite hs8 ((State.changes_complete? ..).after ((State.changes_setJob ..).after hs8))
  · exact State.changes_ite ((State.changes_complete? ..).after hs6) hs6

def Writes.execLayerNormResult : List Field := [.outbox, .regs, .ctrs, .rows, .window, .jobs, .win, .packetsOut, .ports, .gates, .loop, .mbxWaits,
  .evHead, .evLost, .evOver, .fw, .cplq]

theorem changes_execLayerNormResult (part job record x) : Res.all (s.changes Writes.execLayerNormResult) (execLayerNormResult part job record x s) :=
    by
  unfold execLayerNormResult
  refine Res.all_unitOk ?_
  extract_lets c1 s2
  have hs2 : s.changes Writes.execLayerNormResult s2 := (State.changes_emptyRows ..).after .refl
  split
  · exact Res.all_next .refl
  · split
    · exact Res.all_next .refl
    · exact Res.all_next ((State.changes_normResult ..).after (State.changes_ite ((State.changes_sendPackets ..).after hs2) hs2))

theorem State.changes_performRestore (o) : FwRes.all (s.changes [.seals, .jobs, .restore]) (s.performRestore o) := by
  unfold State.performRestore
  extract_lets p1 j2 src3 addr4 n5 pages6 pages7 foreign8 b9 ws10 tithe11 s12 s13 r14
  have hs13 : s.changes [.seals, .jobs, .restore] s13 := State.changes_foldl ((State.changes_setJob ..).after .refl)
      fun _ _ ht => (State.changes_askUnseal ..).after ht
  refine FwRes.all_ite ((FwRes.changes_bad ..).imp fun _ k => k.after .refl) ?_
  refine State.all_jobCheck .refl ?_
  refine FwRes.all_ite ((FwRes.changes_bad ..).imp fun _ k => k.after .refl) ?_
  exact FwRes.all_ite ((FwRes.changes_bad ..).imp fun _ k => k.after .refl) (FwRes.all_wait ((State.changes_set_restore ..).after hs13))

theorem State.changes_restoreGranule (r slot i k q) : s.changes Writes.normGranule (s.restoreGranule r slot i k q).2 := by
  unfold State.restoreGranule
  extract_lets g lw lm ls lr all s7 s8 s9 s10 put
  refine State.changes_have (t := s8) (State.changes_ite ((State.changes_lpMeets ..).after .refl) ((State.changes_lpMeets ..).after
      ((State.changes_lpMeets ..).after .refl))) fun hs8 => ?_
  refine State.changes_have (t := s10) ((State.changes_setState ..).after ((State.changes_poisonRows ..).after ((State.changes_poisonRows ..).after
      hs8))) fun hs10 => ?_
  clear_value s10
  refine State.changes_ite_snd ((State.changes_winRefused ..).after .refl) ?_
  split
  · exact (State.changes_markPoisoned ..).after hs10
  · extract_lets h12 s13 s14 s15 ts16 s17
    refine State.changes_have (t := s13) (State.changes_foldl hs8 fun _ _ ht2 => (State.changes_lpWrite ..).after ht2) fun hs13 => ?_
    refine State.changes_have (t := s14) (State.changes_foldl hs13 fun _ _ ht2 => (State.changes_lpWrite ..).after ht2) fun hs14 => ?_
    refine State.changes_have (t := s15) ?_ fun hs15 => ?_
    · unfold s15
      generalize ls = l
      split
      · exact (State.changes_setRowBits ..).after hs14
      · exact hs14
    refine State.changes_have (t := s17) (State.changes_foldl hs15 fun _ _ ht2 => ?_) fun hs17 => ?_
    · split
      · exact (State.changes_setRowBits ..).after ht2
      · exact ht2
    exact (State.changes_count ..).after hs17

theorem State.changes_restoreAll (r) : s.changes Writes.normGranule (s.restoreAll r).2 := by
  unfold State.restoreAll
  extract_lets is1 s2 items3
  refine State.changes_have (t := s2) (State.changes_foldl .refl fun _ _ ht => State.changes_foldl ht fun _ _ ht1 => (State.changes_setState ..).after
      ht1) fun hs2 => ?_
  split
  · rename_i he
    have hhe := State.changes_snd_fst (M := Writes.normGranule) (s := s) he (by
      refine State.changes_foldl_snd_fst hs2 fun _ _ ht => ?_
      split
      · rename_i he1
        exact (State.changes_snd he1 (State.changes_restoreGranule ..)).after ht)
    exact hhe

def Writes.restoreCopy : List Field := [.outbox, .regs, .ctrs, .lpddr, .checks, .window, .ceRows, .copying, .cores, .jobs, .win, .restore,
  .mbxWaits, .evHead, .evLost, .evOver, .nv, .shape]

theorem State.changes_restoreCopy (r) : s.changes Writes.restoreCopy (s.restoreCopy r) := by
  unfold State.restoreCopy
  extract_lets is1 w2
  split
  · rename_i he
    extract_lets s3 b4 s5
    refine State.changes_have (t := s3) (State.changes_foldl ((State.changes_snd he (State.changes_restoreAll ..)).after
        ((State.changes_set_win_restore ..).after .refl)) fun _ _ ht1 => State.changes_foldl ht1 fun _ _ ht2 => (State.changes_setState ..).after ht2)
        fun hs3 => ?_
    split
    · exact (State.changes_postRun ..).after ((State.changes_setJob ..).after hs3)
    · exact ((State.changes_setJob ..).after hs3)

def Writes.restoreTick : List Field := [.outbox, .regs, .ctrs, .lpddr, .checks, .window, .ceRows, .copying, .cores, .jobs, .win, .restore, .ports,
  .gates, .loop, .mbxWaits, .evHead, .evLost, .evOver, .nv, .shape]

theorem State.changes_restoreTick : s.changes Writes.restoreTick s.restoreTick := by
  unfold State.restoreTick
  split
  · exact .refl
  · refine State.changes_ite .refl ?_
    extract_lets s1
    refine State.changes_have (t := s1) (State.changes_ite .refl ((State.changes_pushRestore ..).after ((State.changes_set_restore ..).after .refl)))
        fun hs1 => ?_
    split
    · exact hs1
    · exact State.changes_ite ((State.changes_pushRestore ..).after hs1) (State.changes_ite hs1 ((State.changes_restoreCopy ..).after hs1))

/-! Fw. -/

def Writes.perform : List Field := Field.but [.pending, .mods, .lostTags, .hostLost, .defects]

theorem State.changes_perform (o f) : FwRes.all (s.changes Writes.perform) (s.perform o f) := by
  unfold State.perform
  split
  · exact (State.changes_performQuery ..).imp fun _ k => k.after .refl
  · exact (State.changes_performInventory ..).imp fun _ k => k.after .refl
  · exact (State.changes_performReset ..).imp fun _ k => k.after .refl
  · exact (State.changes_performEnv ..).imp fun _ k => k.after .refl
  · exact (State.changes_performBeat ..).imp fun _ k => k.after .refl
  · exact (State.changes_performImage ..).imp fun _ k => k.after .refl
  · exact (State.changes_performSeedpack ..).imp fun _ k => k.after .refl
  · exact (State.changes_performCalRead ..).imp fun _ k => k.after .refl
  · exact (State.changes_performCalWrite ..).imp fun _ k => k.after .refl
  · exact (State.changes_performQuote ..).imp fun _ k => k.after .refl
  · exact (State.changes_performCreate ..).imp fun _ k => k.after .refl
  · exact (State.changes_performPartReset ..).imp fun _ k => k.after .refl
  · exact (State.changes_performPartReset ..).imp fun _ k => k.after .refl
  · refine FwRes.all_ite ((State.changes_performStart ..).imp fun _ k => k.after .refl) ?_
    exact (State.changes_performResume ..).imp fun _ k => k.after .refl
  · exact (State.changes_performStop ..).imp fun _ k => k.after .refl
  · exact (State.changes_performKill ..).imp fun _ k => k.after .refl
  · exact (State.changes_performJobConfig ..).imp fun _ k => k.after .refl
  · exact (State.changes_performTensor ..).imp fun _ k => k.after .refl
  · exact (State.changes_performSeal ..).imp fun _ k => k.after .refl
  · exact (State.changes_performSeal ..).imp fun _ k => k.after .refl
  · exact (State.changes_performPageMap ..).imp fun _ k => k.after .refl
  · exact (State.changes_performPageIn ..).imp fun _ k => k.after .refl
  · exact (State.changes_performPageOut ..).imp fun _ k => k.after .refl
  · exact (State.changes_performLayer ..).imp fun _ k => k.after .refl
  · exact (State.changes_performRestore ..).imp fun _ k => k.after .refl
  · exact (State.changes_performTithe ..).imp fun _ k => k.after .refl
  · exact (State.changes_performStepConfig ..).imp fun _ k => k.after .refl
  · exact (State.changes_performStepBegin ..).imp fun _ k => k.after .refl
  · exact (State.changes_performStepResult ..).imp fun _ k => k.after .refl
  · exact (State.changes_performStepVoid ..).imp fun _ k => k.after .refl
  · exact (State.changes_performPhase ..).imp fun _ k => k.after .refl
  · exact (State.changes_performLayerNorm ..).imp fun _ k => k.after .refl
  · exact (State.changes_performSeqConfig ..).imp fun _ k => k.after .refl
  · exact (State.changes_performSeqJoin ..).imp fun _ k => k.after .refl
  · exact (State.changes_performSeqCancel ..).imp fun _ k => k.after .refl
  · exact (State.changes_performLink ..).imp fun _ k => k.after .refl
  · exact (State.changes_performHatchOpen ..).imp fun _ k => k.after .refl
  · exact (State.changes_performHatchClose ..).imp fun _ k => k.after .refl
  · exact (State.changes_performPower ..).imp fun _ k => k.after .refl
  · exact (State.changes_performWeight ..).imp fun _ k => k.after .refl
  · exact (State.changes_performWindow ..).imp fun _ k => k.after .refl
  · exact (State.changes_performCounters ..).imp fun _ k => k.after .refl
  · exact (State.changes_performTelemetry ..).imp fun _ k => k.after .refl
  · exact (FwRes.changes_bad ..).imp fun _ k => k.after .refl

theorem State.changes_performNow (o f) : s.changes Writes.perform (s.performNow o f) := by
  unfold State.performNow
  split
  · rename_i he
    exact (State.changes_endCmd ..).after ((FwRes.all_of he (State.changes_perform ..)).after .refl)
  · rename_i he
    exact (State.changes_bringOn ..).after ((State.changes_setWait ..).after ((FwRes.all_of he (State.changes_perform ..)).after .refl))
  · rename_i he
    exact (FwRes.all_of he (State.changes_perform ..)).after .refl

theorem State.turns.changes_go (a) : s.changes Writes.perform (State.turns.go a s) := by
  induction a generalizing s with
  | zero =>
    exact .refl
  | succ a ih =>
    unfold State.turns.go
    split
    · exact (ih ..).after ((State.changes_performNow ..).after .refl)
    · exact .refl

theorem State.changes_turns : s.changes Writes.perform s.turns := by
  unfold State.turns
  exact (State.turns.changes_go ..).after .refl

theorem State.changes_fwRun (c f) : s.changes Writes.perform (s.fwRun c f) := by
  unfold State.fwRun
  extract_lets s1 o2 twin3 st4 now5 s6
  refine State.changes_have (t := s6) ((State.changes_set_fw ..).after ((State.changes_fwTake ..).after .refl)) fun hs6 => ?_
  refine State.changes_ite ((State.changes_completeWord ..).after ((State.changes_fwTake ..).after .refl)) ?_
  refine State.changes_ite ?_ ?_
  · exact (State.changes_complete ..).after ((State.changes_fwTake ..).after .refl)
  · exact State.changes_ite ((State.changes_turns ..).after ((State.changes_performNow ..).after hs6)) hs6

theorem changes_fwExec (op c) : Res.all (s.changes Writes.perform) (fwExec op c s) := by
  unfold fwExec
  exact Res.all_unitOk (Res.all_need .refl (Res.all_next ((State.changes_fwRun ..).after .refl)))

theorem changes_execImageLoad (c found) : Res.all (s.changes Writes.perform) (execImageLoad c found s) := by
  unfold execImageLoad
  exact Res.all_unitOk (Res.all_need .refl (Res.all_next ((State.changes_fwRun ..).after .refl)))

theorem changes_execDeviceReset (c) : Res.all (s.changes Writes.perform) (execDeviceReset c s) := by
  unfold execDeviceReset
  exact (changes_fwExec ..).imp fun _ k => k.after .refl

theorem changes_execPartitionCreate (c) : Res.all (s.changes Writes.perform) (execPartitionCreate c s) := by
  unfold execPartitionCreate
  exact (changes_fwExec ..).imp fun _ k => k.after .refl

theorem changes_execPartitionDestroy (c) : Res.all (s.changes Writes.perform) (execPartitionDestroy c s) := by
  unfold execPartitionDestroy
  exact (changes_fwExec ..).imp fun _ k => k.after .refl

theorem changes_execPartitionReset (c) : Res.all (s.changes Writes.perform) (execPartitionReset c s) := by
  unfold execPartitionReset
  exact (changes_fwExec ..).imp fun _ k => k.after .refl

theorem changes_execJobStart (c) : Res.all (s.changes Writes.perform) (execJobStart c s) := by
  unfold execJobStart
  exact (changes_fwExec ..).imp fun _ k => k.after .refl

theorem changes_execJobStop (c) : Res.all (s.changes Writes.perform) (execJobStop c s) := by
  unfold execJobStop
  exact (changes_fwExec ..).imp fun _ k => k.after .refl

theorem changes_execJobKill (c) : Res.all (s.changes Writes.perform) (execJobKill c s) := by
  unfold execJobKill
  exact (changes_fwExec ..).imp fun _ k => k.after .refl

theorem changes_execTensorSeal (c) : Res.all (s.changes Writes.perform) (execTensorSeal c s) := by
  unfold execTensorSeal
  exact (changes_fwExec ..).imp fun _ k => k.after .refl

theorem changes_execTensorUnseal (c) : Res.all (s.changes Writes.perform) (execTensorUnseal c s) := by
  unfold execTensorUnseal
  exact (changes_fwExec ..).imp fun _ k => k.after .refl

theorem changes_execStepVoid (c) : Res.all (s.changes Writes.perform) (execStepVoid c s) := by
  unfold execStepVoid
  exact (changes_fwExec ..).imp fun _ k => k.after .refl

theorem changes_execPhaseSet (c) : Res.all (s.changes Writes.perform) (execPhaseSet c s) := by
  unfold execPhaseSet
  exact (changes_fwExec ..).imp fun _ k => k.after .refl

theorem changes_execLayerNorm (c) : Res.all (s.changes Writes.perform) (execLayerNorm c s) := by
  unfold execLayerNorm
  exact (changes_fwExec ..).imp fun _ k => k.after .refl

theorem changes_execSeqCancel (c) : Res.all (s.changes Writes.perform) (execSeqCancel c s) := by
  unfold execSeqCancel
  exact (changes_fwExec ..).imp fun _ k => k.after .refl

theorem changes_execHatchClose (c) : Res.all (s.changes Writes.perform) (execHatchClose c s) := by
  unfold execHatchClose
  exact (changes_fwExec ..).imp fun _ k => k.after .refl

theorem changes_execPowerLimit (c) : Res.all (s.changes Writes.perform) (execPowerLimit c s) := by
  unfold execPowerLimit
  exact (changes_fwExec ..).imp fun _ k => k.after .refl

theorem changes_execPowerWeight (c) : Res.all (s.changes Writes.perform) (execPowerWeight c s) := by
  unfold execPowerWeight
  exact (changes_fwExec ..).imp fun _ k => k.after .refl

theorem changes_execTelemetry (c) : Res.all (s.changes Writes.perform) (execTelemetry c s) := by
  unfold execTelemetry
  exact (changes_fwExec ..).imp fun _ k => k.after .refl

theorem changes_execDeviceQuery (c) : Res.all (s.changes Writes.perform) (execDeviceQuery c s) := by
  unfold execDeviceQuery
  exact (changes_fwExec ..).imp fun _ k => k.after .refl

theorem changes_execInventory (c) : Res.all (s.changes Writes.perform) (execInventory c s) := by
  unfold execInventory
  exact (changes_fwExec ..).imp fun _ k => k.after .refl

theorem changes_execEnvSet (c) : Res.all (s.changes Writes.perform) (execEnvSet c s) := by
  unfold execEnvSet
  exact (changes_fwExec ..).imp fun _ k => k.after .refl

theorem changes_execBeatConfig (c) : Res.all (s.changes Writes.perform) (execBeatConfig c s) := by
  unfold execBeatConfig
  exact (changes_fwExec ..).imp fun _ k => k.after .refl

theorem changes_execSeedpackLoad (c) : Res.all (s.changes Writes.perform) (execSeedpackLoad c s) := by
  unfold execSeedpackLoad
  exact (changes_fwExec ..).imp fun _ k => k.after .refl

theorem changes_execCalRead (c) : Res.all (s.changes Writes.perform) (execCalRead c s) := by
  unfold execCalRead
  exact (changes_fwExec ..).imp fun _ k => k.after .refl

theorem changes_execCalWrite (c) : Res.all (s.changes Writes.perform) (execCalWrite c s) := by
  unfold execCalWrite
  exact (changes_fwExec ..).imp fun _ k => k.after .refl

theorem changes_execAttestQuote (c) : Res.all (s.changes Writes.perform) (execAttestQuote c s) := by
  unfold execAttestQuote
  exact (changes_fwExec ..).imp fun _ k => k.after .refl

theorem changes_execJobConfig (c) : Res.all (s.changes Writes.perform) (execJobConfig c s) := by
  unfold execJobConfig
  exact (changes_fwExec ..).imp fun _ k => k.after .refl

theorem changes_execTensorRegister (c) : Res.all (s.changes Writes.perform) (execTensorRegister c s) := by
  unfold execTensorRegister
  exact (changes_fwExec ..).imp fun _ k => k.after .refl

theorem changes_execPageMap (c) : Res.all (s.changes Writes.perform) (execPageMap c s) := by
  unfold execPageMap
  exact (changes_fwExec ..).imp fun _ k => k.after .refl

theorem changes_execPageIn (c) : Res.all (s.changes Writes.perform) (execPageIn c s) := by
  unfold execPageIn
  exact (changes_fwExec ..).imp fun _ k => k.after .refl

theorem changes_execPageOut (c) : Res.all (s.changes Writes.perform) (execPageOut c s) := by
  unfold execPageOut
  exact (changes_fwExec ..).imp fun _ k => k.after .refl

theorem changes_execLayerRegister (c) : Res.all (s.changes Writes.perform) (execLayerRegister c s) := by
  unfold execLayerRegister
  exact (changes_fwExec ..).imp fun _ k => k.after .refl

theorem changes_execJobRestore (c) : Res.all (s.changes Writes.perform) (execJobRestore c s) := by
  unfold execJobRestore
  exact (changes_fwExec ..).imp fun _ k => k.after .refl

theorem changes_execTitheConfig (c) : Res.all (s.changes Writes.perform) (execTitheConfig c s) := by
  unfold execTitheConfig
  exact (changes_fwExec ..).imp fun _ k => k.after .refl

theorem changes_execStepConfig (c) : Res.all (s.changes Writes.perform) (execStepConfig c s) := by
  unfold execStepConfig
  exact (changes_fwExec ..).imp fun _ k => k.after .refl

theorem changes_execStepBegin (c) : Res.all (s.changes Writes.perform) (execStepBegin c s) := by
  unfold execStepBegin
  exact (changes_fwExec ..).imp fun _ k => k.after .refl

theorem changes_execStepResult (c) : Res.all (s.changes Writes.perform) (execStepResult c s) := by
  unfold execStepResult
  exact (changes_fwExec ..).imp fun _ k => k.after .refl

theorem changes_execSeqConfig (c) : Res.all (s.changes Writes.perform) (execSeqConfig c s) := by
  unfold execSeqConfig
  exact (changes_fwExec ..).imp fun _ k => k.after .refl

theorem changes_execSeqJoin (c) : Res.all (s.changes Writes.perform) (execSeqJoin c s) := by
  unfold execSeqJoin
  exact (changes_fwExec ..).imp fun _ k => k.after .refl

theorem changes_execLinkConfig (c) : Res.all (s.changes Writes.perform) (execLinkConfig c s) := by
  unfold execLinkConfig
  exact (changes_fwExec ..).imp fun _ k => k.after .refl

theorem changes_execHatchOpen (c) : Res.all (s.changes Writes.perform) (execHatchOpen c s) := by
  unfold execHatchOpen
  exact (changes_fwExec ..).imp fun _ k => k.after .refl

theorem changes_execTestWindow (c) : Res.all (s.changes Writes.perform) (execTestWindow c s) := by
  unfold execTestWindow
  exact (changes_fwExec ..).imp fun _ k => k.after .refl

theorem changes_execCountersRead (c) : Res.all (s.changes Writes.perform) (execCountersRead c s) := by
  unfold execCountersRead
  exact (changes_fwExec ..).imp fun _ k => k.after .refl

/-! JobRows. -/

theorem changes_execKillDrainDone (part job) : Res.all (s.changes Writes.killScrub) (execKillDrainDone part job s) := by
  unfold execKillDrainDone
  exact Res.all_unitOk (Res.all_need .refl (Res.all_next ((State.changes_killScrub ..).after .refl)))

theorem changes_execKillScrubComplete (part job) : Res.all (s.changes Writes.killPages) (execKillScrubComplete part job s) := by
  unfold execKillScrubComplete
  exact Res.all_unitOk (Res.all_need .refl (Res.all_next ((State.changes_killPages ..).after .refl)))

def Writes.restartCores : List Field := [.free, .outbox, .regs, .ctrs, .window, .mbxWaits, .evHead, .evLost, .evOver, .nv, .shape, .mesh]

theorem State.changes_restartCores (p damaged) : s.changes Writes.restartCores (s.restartCores p damaged) := by
  unfold State.restartCores
  exact State.changes_ite .refl ((State.changes_writeRoutes ..).after ((State.changes_newShape ..).after ((State.changes_fence ..).after .refl)))

def Writes.execPartitionResetDone : List Field := [.free, .outbox, .regs, .shadow, .late, .ctrs, .rows, .window, .tasks, .groups, .engs, .cores,
  .clus, .chans, .parts, .mbxWaits, .evHead, .evLost, .evOver, .nv, .shape, .mesh]

theorem changes_execPartitionResetDone (x) : Res.all (s.changes Writes.execPartitionResetDone) (execPartitionResetDone x s) := by
  unfold execPartitionResetDone
  exact Res.all_unitOk (Res.all_need .refl (Res.all_next ((State.changes_restartCores ..).after ((State.changes_resetUnits ..).after .refl))))

theorem changes_execHatchClosedDone (hatch) : Res.all (s.changes Writes.perform) (execHatchClosedDone hatch s) := by
  unfold execHatchClosedDone
  exact Res.all_unitOk (Res.all_need .refl (Res.all_next ((State.changes_turns ..).after ((State.changes_complete? ..).after ((State.changes_hatchSet
      ..).after .refl)))))

theorem changes_execUnsealPinsClear (tensor) : Res.all (s.changes Writes.perform) (execUnsealPinsClear tensor s) := by
  unfold execUnsealPinsClear
  exact Res.all_unitOk (Res.all_need .refl (Res.all_next ((State.changes_turns ..).after ((State.changes_sealNow ..).after .refl))))

theorem changes_execPhaseChange (part) : Res.all (s.changes Writes.perform) (execPhaseChange part s) := by
  unfold execPhaseChange
  refine Res.all_unitOk ?_
  split
  · exact Res.all_next .refl
  · exact Res.all_need .refl (Res.all_next ((State.changes_turns ..).after ((State.changes_phaseChange ..).after .refl)))

def Writes.genBoundary : List Field := [.outbox, .regs, .shadow, .ctrs, .rows, .window, .bringups, .pinned, .copyGone, .waits, .jobs, .parts,
  .mbxWaits, .evHead, .evLost, .evOver, .fw, .cplq]

theorem State.changes_genBoundary (p) : s.changes Writes.genBoundary (s.genBoundary p) := by
  unfold State.genBoundary
  extract_lets j1 m2 compose3 s4 s5 x6 s7 x8
  refine State.changes_have (t := s4) ((State.changes_seqBoundary ..).after .refl) fun hs4 => ?_
  refine State.changes_have (t := s7) (State.changes_ite hs4 ((State.changes_setSeq ..).after ((State.changes_takeReport ..).after hs4)))
      fun hs7 => ?_
  exact State.changes_ite ((State.changes_setJob ..).after hs7) hs7

theorem changes_execGenStepBoundary (part) : Res.all (s.changes Writes.perform) (execGenStepBoundary part s) := by
  unfold execGenStepBoundary
  exact Res.all_unitOk (Res.all_need .refl (Res.all_next ((State.changes_turns ..).after ((State.changes_genBoundary ..).after .refl))))

/-! Retry. -/

theorem changes_execRowStateRetry (r err) : Res.all (s.changes Writes.retryOne) (execRowStateRetry r err s) := by
  unfold execRowStateRetry
  exact Res.all_unitOk (Res.all_next ((State.changes_retryRow ..).after ((State.changes_rowError ..).after .refl)))

theorem State.changes_wakeKicks (cl ch) : s.changes Writes.execVuSt (s.wakeKicks cl ch) := by
  unfold State.wakeKicks
  exact State.changes_foldl .refl fun _ _ ht => (State.changes_resumeFlight ..).after ht

def Writes.execDmaDescStart : List Field := [.free, .outbox, .regs, .shadow, .ctrs, .rows, .lpddr, .checks, .window, .ceRows, .copying, .epoch,
  .bringups, .tasks, .cores, .chans, .waits, .arrivals, .jobs, .ports, .gates, .loop, .mbxWaits, .stageWord, .evHead, .evTail, .evLost, .evOver,
  .nv, .shape]

theorem changes_execDmaDescStart (cl ch) : Res.all (s.changes Writes.execDmaDescStart) (execDmaDescStart cl ch s) := by
  unfold execDmaDescStart
  refine Res.all_unitOk ?_
  extract_lets k1
  split
  · exact Res.all_next .refl
  · exact Res.all_need .refl (Res.all_next ((State.changes_wakeKicks ..).after ((State.changes_startDesc ..).after .refl)))

theorem changes_execEpochClearDone (part job) : Res.all (s.changes Writes.endClear) (execEpochClearDone part job s) := by
  unfold execEpochClearDone
  exact Res.all_unitOk (Res.all_need .refl (Res.all_next ((State.changes_granariesGo ..).after ((State.changes_syncEpoch ..).after
      ((State.changes_setJob ..).after .refl)))))

def Writes.execRowRetireCopyDone : List Field := [.free, .outbox, .regs, .shadow, .ctrs, .rows, .lpddr, .checks, .window, .ceRows, .retiredRows,
  .copying, .epoch, .bringups, .cores, .chans, .waits, .arrivals, .ports, .gates, .loop, .mbxWaits, .stageWord, .evHead, .evTail, .evLost,
  .evOver, .nv, .shape]

theorem changes_execRowRetireCopyDone (dev ch row) : Res.all (s.changes Writes.execRowRetireCopyDone) (execRowRetireCopyDone dev ch row s) := by
  unfold execRowRetireCopyDone
  exact Res.all_unitOk (Res.all_need .refl (Res.all_next ((State.changes_granariesGo ..).after ((State.changes_set_retiredRows_copying ..).after
      .refl))))

/-! HostIf. -/

def Writes.setMod : List Field := [.outbox, .regs, .ctrs, .window, .mbxWaits, .mods, .evHead, .evLost, .evOver]

theorem State.changes_setMod (m x) : s.changes Writes.setMod (s.setMod m x) := by
  unfold State.setMod
  exact State.changes_ite .refl ((State.changes_post ..).after ((State.changes_set_mods ..).after .refl))

def Writes.loseModule : List Field := [.outbox, .regs, .ctrs, .window, .mbxWaits, .mods, .lostTags, .evHead, .evLost, .evOver, .cplq]

theorem State.changes_loseModule (m next) : s.changes Writes.loseModule (s.loseModule m next) := by
  unfold State.loseModule
  refine State.changes_ite ((State.changes_setMod ..).after .refl) ?_
  extract_lets tags1 mine2 s3 s4 s5 s6 s7
  refine State.changes_have (t := s3) (State.changes_foldl .refl fun _ _ ht1 => (State.changes_setBitOf ..).after ht1) fun hs3 => ?_
  refine State.changes_have (t := s4) ((State.changes_set_mbxWaits_lostTags ..).after hs3) fun hs4 => ?_
  refine State.changes_have (t := s6) ((State.changes_set_mods ..).after ((State.changes_dropLocks ..).after hs4)) fun hs6 => ?_
  refine State.changes_have (t := s7) ?_ fun hs7 => ?_
  · unfold s7
    refine State.changes_ite hs6 ?_
    refine State.changes_foldl hs6 fun _ _ ht2 => ?_
    extract_lets s8 s9
    refine State.changes_have (t := s9) ((State.changes_answer ..).after ((State.changes_mbxTimeout ..).after ((State.changes_takeWait ..).after
        ht2))) fun hs9 => ?_
    exact (State.changes_pump ..).after (State.changes_ite ((State.changes_count ..).after hs9) hs9)
  exact (State.changes_post ..).after hs7

theorem changes_execModuleTrainRequest (mdl) : Res.all (s.changes Writes.loseModule) (execModuleTrainRequest mdl s) := by
  unfold execModuleTrainRequest
  exact Res.all_unitOk (Res.all_need .refl (Res.all_next ((State.changes_loseModule ..).after .refl)))

def Writes.execModuleTrained : List Field := [.outbox, .regs, .ctrs, .window, .mbxWaits, .mods, .hostLost, .evHead, .evLost, .evOver]

theorem changes_execModuleTrained (mdl lanes repaired) : Res.all (s.changes Writes.execModuleTrained) (execModuleTrained mdl lanes repaired s) := by
  unfold execModuleTrained
  refine Res.all_unitOk ?_
  refine Res.all_need .refl ?_
  refine Res.all_next ?_
  extract_lets s1
  split
  · exact (State.changes_setMod ..).after ((State.changes_set_hostLost ..).after ((State.changes_count ..).after .refl))
  · exact (State.changes_setMod ..).after ((State.changes_set_hostLost ..).after ((State.changes_count ..).after .refl))
  · exact (State.changes_setMod ..).after ((State.changes_count ..).after .refl)

theorem changes_execModuleTrainTimeout (mdl) : Res.all (s.changes Writes.setMod) (execModuleTrainTimeout mdl s) := by
  unfold execModuleTrainTimeout
  exact Res.all_unitOk (Res.all_need .refl (Res.all_next ((State.changes_setMod ..).after .refl)))

theorem changes_execModuleLinkLoss (mdl) : Res.all (s.changes Writes.loseModule) (execModuleLinkLoss mdl s) := by
  unfold execModuleLinkLoss
  exact Res.all_unitOk (Res.all_need .refl (Res.all_next ((State.changes_loseModule ..).after .refl)))

theorem changes_execHostLoss : Res.all (s.changes [.hostLost]) (execHostLoss s) := by
  unfold execHostLoss
  exact Res.all_need .refl (Res.all_next ((State.changes_set_hostLost ..).after .refl))

theorem State.changes_lockRead (b k agent) : s.changes [.regs] (s.lockRead b k agent).2 := by
  unfold State.lockRead
  extract_lets r1 own2
  refine State.changes_ite_snd ((State.changes_wr ..).after .refl) ?_
  split <;> exact .refl

theorem State.changes_lockWrite (b k agent v) : s.changes [.regs] (s.lockWrite b k agent v) := by
  unfold State.lockWrite
  exact State.changes_ite ((State.changes_wr ..).after .refl) .refl

theorem State.changes_respondHost (h status reason d) : s.changes [.outbox] (s.respondHost h status reason d) := by
  unfold State.respondHost
  exact (State.changes_emit ..).after .refl

theorem State.changes_refuseHost (h reason) : s.changes [.outbox, .lostTags] (s.refuseHost h reason) := by
  unfold State.refuseHost
  exact (State.changes_respondHost ..).after (State.changes_ite ((State.changes_set_lostTags ..).after .refl) .refl)

theorem State.changes_hostRead (h) : s.changes [.outbox, .regs, .ctrs, .mbxWaits, .lostTags, .cplq] (s.hostRead h) := by
  unfold State.hostRead
  extract_lets a1 reason2 bytes3
  refine State.changes_ite ((State.changes_refuseHost ..).after .refl) ?_
  split
  · split
    · rename_i he2
      exact (State.changes_respondHost ..).after ((State.changes_snd he2 (State.changes_mbxRead ..)).after .refl)
  · split
    · rename_i he2
      exact (State.changes_respondHost ..).after ((State.changes_snd he2 (State.changes_lockRead ..)).after .refl)
  · exact (State.changes_respondHost ..).after .refl
  · exact (State.changes_respondHost ..).after .refl

def Writes.hostWrite : List Field := [.outbox, .regs, .ctrs, .window, .mbxWaits, .lostTags, .evTail]

theorem State.changes_hostWrite (h d) : s.changes Writes.hostWrite (s.hostWrite h d) := by
  unfold State.hostWrite
  extract_lets a1 w2 reason3
  refine State.changes_ite ((State.changes_refuseHost ..).after .refl) ?_
  split
  · exact (State.changes_mbxWrite ..).after .refl
  · exact (State.changes_respondHost ..).after ((State.changes_lockWrite ..).after .refl)
  · split
    · exact (State.changes_respondHost ..).after ((State.changes_wr ..).after .refl)
    · exact (State.changes_refuseHost ..).after .refl
  · exact State.changes_ite ((State.changes_set_evTail ..).after .refl) ((State.changes_winWrite ..).after .refl)

theorem changes_execHostRead (mdl hdr) : Res.all (s.changes [.outbox, .regs, .ctrs, .mbxWaits, .lostTags, .cplq]) (execHostRead mdl hdr s) := by
  unfold execHostRead
  exact Res.all_unitOk (Res.all_need .refl (Res.all_next ((State.changes_hostRead ..).after .refl)))

theorem changes_execHostWrite (mdl hdr data) : Res.all (s.changes Writes.hostWrite) (execHostWrite mdl hdr data s) := by
  unfold execHostWrite
  exact Res.all_unitOk (Res.all_need .refl (Res.all_next ((State.changes_hostWrite ..).after .refl)))

def Writes.execSidebandAccess : List Field := [.outbox, .regs, .ctrs, .window, .mbxWaits, .lostTags, .evTail, .cplq]

theorem changes_execSidebandAccess (mdl hdr data) : Res.all (s.changes Writes.execSidebandAccess) (execSidebandAccess mdl hdr data s) := by
  unfold execSidebandAccess
  refine Res.all_unitOk ?_
  refine Res.all_need .refl ?_
  exact Res.all_next (State.changes_ite ((State.changes_refuseHost ..).after .refl) (State.changes_ite ((State.changes_hostRead ..).after .refl)
      ((State.changes_hostWrite ..).after .refl)))

theorem State.changes_mbxRefuse (b agent addr) : s.changes Writes.post (s.mbxRefuse b agent addr) := by
  unfold State.mbxRefuse
  split
  · exact State.changes_ite ((State.changes_emit ..).after .refl) ((State.changes_busError ..).after .refl)
  · exact (State.changes_busError ..).after .refl

theorem State.changes_refuseTag (agent) : s.changes [.outbox, .lostTags] (s.refuseTag agent) := by
  unfold State.refuseTag
  exact (State.changes_emit ..).after ((State.changes_set_lostTags ..).after .refl)

def Writes.execMailboxWrite : List Field := [.outbox, .regs, .ctrs, .window, .mbxWaits, .lostTags, .evHead, .evLost, .evOver]

theorem changes_execMailboxWrite (b n sender data) : Res.all (s.changes Writes.execMailboxWrite) (execMailboxWrite b n sender data s) := by
  unfold execMailboxWrite
  exact Res.all_unitOk (Res.all_next (State.changes_ite ((State.changes_mbxRefuse ..).after .refl) (State.changes_ite ((State.changes_refuseTag
      ..).after .refl) ((State.changes_mbxWrite ..).after .refl))))

theorem changes_execMailboxRead (b n reader) : Res.all (s.changes Writes.completeWord) (execMailboxRead b n reader s) := by
  unfold execMailboxRead
  refine Res.all_unitOk ?_
  refine Res.all_need .refl ?_
  refine Res.all_next ?_
  refine State.changes_ite ((State.changes_mbxRefuse ..).after .refl) ?_
  refine State.changes_ite ((State.changes_resetAnswer ..).after .refl) ?_
  split
  · rename_i he2
    exact (State.changes_emit ..).after ((State.changes_snd he2 (State.changes_mbxRead ..)).after .refl)

theorem changes_execMailboxWaitTimeout (b n) : Res.all (s.changes [.outbox, .regs, .ctrs, .mbxWaits, .cplq]) (execMailboxWaitTimeout b n s) := by
  unfold execMailboxWaitTimeout
  refine Res.all_unitOk ?_
  split
  · exact Res.all_next .refl
  · rename_i he
    refine Res.all_next ?_
    extract_lets s1
    refine State.changes_have (t := s1) ((State.changes_answer ..).after ((State.changes_mbxTimeout ..).after ((State.changes_snd he
        (State.changes_takeWait ..)).after .refl))) fun hs1 => ?_
    split
    · exact State.changes_ite ((State.changes_pump ..).after ((State.changes_count ..).after hs1)) hs1
    · exact hs1

theorem changes_execLockRead (b k agent) : Res.all (s.changes Writes.post) (execLockRead b k agent s) := by
  unfold execLockRead
  refine Res.all_unitOk ?_
  refine Res.all_next ?_
  refine State.changes_ite ((State.changes_mbxRefuse ..).after .refl) ?_
  refine State.changes_ite ((State.changes_resetAnswer ..).after .refl) ?_
  split
  · rename_i he2
    exact (State.changes_emit ..).after ((State.changes_snd he2 (State.changes_lockRead ..)).after .refl)

theorem changes_execLockRelease (b k agent) : Res.all (s.changes Writes.execMailboxWrite) (execLockRelease b k agent s) := by
  unfold execLockRelease
  refine Res.all_unitOk ?_
  refine Res.all_next ?_
  refine State.changes_ite ((State.changes_mbxRefuse ..).after .refl) ?_
  refine State.changes_ite ?_ ?_
  · exact (State.changes_resetAnswer ..).after .refl
  · exact State.changes_ite ((State.changes_refuseTag ..).after .refl) ((State.changes_emit ..).after ((State.changes_lockWrite ..).after .refl))

theorem changes_execLockForce (b k agent) : Res.all (s.changes Writes.execMailboxWrite) (execLockForce b k agent s) := by
  unfold execLockForce
  refine Res.all_unitOk ?_
  refine Res.all_next ?_
  refine State.changes_ite ((State.changes_mbxRefuse ..).after .refl) ?_
  refine State.changes_ite ?_ ?_
  · exact (State.changes_resetAnswer ..).after .refl
  · exact State.changes_ite ((State.changes_refuseTag ..).after .refl) ((State.changes_emit ..).after ((State.changes_lockWrite ..).after .refl))

/-! Elec. -/

theorem changes_execMgtResetRelease : Res.all (s.changes [.bootStage, .stageWord, .sec]) (execMgtResetRelease s) := by
  unfold execMgtResetRelease
  exact Res.all_need .refl (Res.all_next ((State.changes_romStart ..).after ((State.changes_enterStage ..).after .refl)))

theorem changes_execMainPowerGood (pin) : Res.all (s.changes Writes.bringOn) (execMainPowerGood pin s) := by
  unfold execMainPowerGood
  exact Res.all_need .refl (Res.all_next ((State.changes_bringOn ..).after ((State.changes_set_board ..).after .refl)))

theorem changes_execMainRailTimeout : Res.all (s.changes Writes.fatal) (execMainRailTimeout s) := by
  unfold execMainRailTimeout
  split
  · exact Res.all_next .refl
  · exact Res.all_need .refl (Res.all_next ((State.changes_fatal ..).after .refl))

theorem State.changes_coresDown : s.changes [.outbox, .regs, .ctrs, .mbxWaits, .coresUp] s.coresDown := by
  unfold State.coresDown
  exact (State.changes_set_coresUp ..).after (State.changes_foldl .refl fun _ _ ht => (State.changes_mbxReset ..).after ht)

def Writes.powerLost : List Field := [.outbox, .regs, .ctrs, .rows, .lpddr, .window, .tasks, .groups, .engs, .waits, .mbxWaits, .bootStage,
  .stageWord, .evHead, .evLost, .evOver, .fw, .cplq, .bring, .coresUp, .board]

theorem State.changes_powerLost : s.changes Writes.powerLost s.powerLost := by
  unfold State.powerLost
  extract_lets s1 s2 s3 x4
  refine State.changes_have (t := s1) (State.changes_ite ((State.changes_emit ..).after .refl) .refl) fun hs1 => ?_
  refine State.changes_have (t := s2) ?_ fun hs2 => ?_
  · unfold s2
    split
    · exact (State.changes_fatal ..).after hs1
    · exact hs1
  refine State.changes_have (t := s3) ((State.changes_setFld ..).after ((State.changes_enterStage ..).after ((State.changes_coresDown ..).after hs2)))
      fun hs3 => ?_
  exact State.changes.trans hs3 (State.changes_of_ids (M := [.rows, .lpddr, .tasks, .groups, .engs, .waits, .board]) rfl (State.storesWf_step (rows :=
      fun _ => rfl) (lpddr := fun _ => rfl)) fun _ _ _ => rfl)

theorem changes_execPowerGoodLoss (pin) : Res.all (s.changes Writes.powerLost) (execPowerGoodLoss pin s) := by
  unfold execPowerGoodLoss
  exact Res.all_need .refl (Res.all_next ((State.changes_set_board ..).after ((State.changes_powerLost ..).after ((State.changes_fault ..).after
      .refl))))

def Writes.trip : List Field := [.outbox, .regs, .ctrs, .rows, .lpddr, .window, .tasks, .groups, .engs, .waits, .mbxWaits, .bootStage, .stageWord,
  .evHead, .evLost, .evOver, .fw, .cplq, .bring, .coresUp, .window_, .board]

theorem State.changes_trip (site index sensor) : s.changes Writes.trip (s.trip site index sensor) := by
  unfold State.trip
  exact (State.changes_powerLost ..).after ((State.changes_complete? ..).after ((State.changes_set_window_ ..).after ((State.changes_fault ..).after
      ((State.changes_emit ..).after ((State.changes_set_board ..).after .refl)))))

theorem changes_execThermalTrip (site index sensor) : Res.all (s.changes Writes.trip) (execThermalTrip site index sensor s) := by
  unfold execThermalTrip
  exact Res.all_unitOk (Res.all_next ((State.changes_trip ..).after ((State.changes_set_board ..).after .refl)))

theorem State.changes_tripHot (l) : s.changes Writes.trip (s.tripHot l) := by
  unfold State.tripHot
  exact State.changes_ite .refl (State.changes_foldl .refl fun _ _ ht1 => (State.changes_trip ..).after ht1)

theorem State.changes_jtag (ir) : s.changes Writes.bringOn (s.jtag ir) := by
  unfold State.jtag
  exact (State.changes_bringOn ..).after ((State.changes_set_board ..).after .refl)

theorem State.changes_jtagHold (ir) : s.changes Writes.bringOn (s.jtagHold ir) := by
  unfold State.jtagHold
  exact (State.changes_jtag ..).after .refl

theorem changes_execJtagExtest : Res.all (s.changes Writes.bringOn) (execJtagExtest s) := by
  unfold execJtagExtest
  exact Res.all_next ((State.changes_jtagHold ..).after .refl)

def Writes.execJtagSamplePreload : List Field := [.free, .outbox, .regs, .ctrs, .window, .mbxWaits, .bootStage, .stageWord, .evHead, .evLost,
  .evOver, .sec, .nv, .calDue, .board]

theorem changes_execJtagSamplePreload (pre) : Res.all (s.changes Writes.execJtagSamplePreload) (execJtagSamplePreload pre s) := by
  unfold execJtagSamplePreload
  exact Res.all_next ((State.changes_emit ..).after ((State.changes_set_board ..).after ((State.changes_jtag ..).after ((State.changes_set_free
      ..).after .refl))))

theorem changes_execJtagIdcode : Res.all (s.changes Writes.bringOn) (execJtagIdcode s) := by
  unfold execJtagIdcode
  exact Res.all_next ((State.changes_emit ..).after ((State.changes_jtag ..).after .refl))

theorem changes_execJtagClamp : Res.all (s.changes Writes.bringOn) (execJtagClamp s) := by
  unfold execJtagClamp
  exact Res.all_next ((State.changes_jtagHold ..).after .refl)

theorem changes_execJtagHighz : Res.all (s.changes Writes.bringOn) (execJtagHighz s) := by
  unfold execJtagHighz
  exact Res.all_next ((State.changes_jtagHold ..).after .refl)

theorem changes_execJtagStatus : Res.all (s.changes Writes.bringOn) (execJtagStatus s) := by
  unfold execJtagStatus
  exact Res.all_next ((State.changes_emit ..).after ((State.changes_jtag ..).after .refl))

theorem changes_execJtagBypass : Res.all (s.changes Writes.bringOn) (execJtagBypass s) := by
  unfold execJtagBypass
  exact Res.all_next ((State.changes_jtag ..).after .refl)

theorem changes_execJtagReset : Res.all (s.changes Writes.bringOn) (execJtagReset s) := by
  unfold execJtagReset
  exact Res.all_next ((State.changes_jtag ..).after .refl)

theorem changes_execAtbSettle (k code) : Res.all (s.changes [.regs]) (execAtbSettle k code s) := by
  unfold execAtbSettle
  exact Res.all_unitOk (Res.all_need .refl (Res.all_next ((State.changes_setFld ..).after ((State.changes_setFld ..).after .refl))))

/-! Reliab. -/

theorem changes_execTestWindowStart : Res.all (s.changes [.window_]) (execTestWindowStart s) := by
  unfold execTestWindowStart
  split
  · exact Res.all_next .refl
  · exact Res.all_need .refl (Res.all_next ((State.changes_set_window_ ..).after .refl))

theorem State.changes_coreTested (c) : s.changes [.regs, .shadow, .rows, .engs] (s.coreTested c) := by
  unfold State.coreTested
  exact State.changes.trans .refl (State.changes_of (M := [.regs, .shadow, .rows, .engs]) rfl (State.storesWf_step (regs := SMap.wf_filter _)
      (shadow := SMap.wf_filter _) (rows := SMap.wf_filter _)))

theorem State.changes_bankTested (cl bank) : s.changes [.rows] (s.bankTested cl bank) := by
  unfold State.bankTested
  exact State.changes.trans .refl (State.changes_of (M := [.rows]) rfl (State.storesWf_step (rows := SMap.wf_filter _)))

def Writes.wlPass : List Field := [.outbox, .regs, .ctrs, .window, .mbxWaits, .evHead, .evLost, .evOver, .nv]

theorem State.changes_wlPass (kind cl unit) : s.changes Writes.wlPass (s.wlPass kind cl unit) := by
  unfold State.wlPass
  split
  · exact State.changes_ite .refl ((State.changes_wlSettle ..).after ((State.changes_set_nv ..).after .refl))
  · exact .refl

theorem State.changes_wlFail (kind cl unit weak) : s.changes Writes.markDead (s.wlFail kind cl unit weak) := by
  unfold State.wlFail
  exact (State.changes_wlChange ..).after .refl

theorem State.changes_testCes (r) : s.changes Writes.rowError (s.testCes r) := by
  unfold State.testCes
  extract_lets x1
  generalize x1 = x1'
  split
  · exact State.changes_foldl .refl fun _ _ ht1 => (State.changes_rowError ..).after ht1
  · exact .refl

def Writes.unitTested : List Field := [.outbox, .regs, .shadow, .ctrs, .rows, .window, .engs, .cores, .clus, .mbxWaits, .evHead, .evLost, .evOver,
  .nv, .shape, .passedAt, .testFirst]

theorem State.changes_unitTested (r) : s.changes Writes.unitTested (s.unitTested r) := by
  unfold State.unitTested
  extract_lets kind1 die2 s3 s4 s5
  refine State.changes_have (t := s3) (State.changes_ite .refl ((State.changes_set_testFirst ..).after .refl)) fun hs3 => ?_
  refine State.changes_have (t := s4) ?_ fun hs4 => ?_
  · unfold s4
    refine State.changes_ite ((State.changes_bankTested ..).after hs3) ?_
    split
    · exact (State.changes_coreTested ..).after hs3
    · exact hs3
  refine State.changes_have (t := s5) ((State.changes_testCes ..).after ((State.changes_count ..).after hs4)) fun hs5 => ?_
  refine State.changes_ite ((State.changes_markDead ..).after .refl) ?_
  split
  · exact State.changes_ite hs5 ((State.changes_wlPass ..).after ((State.changes_set_passedAt ..).after hs5))
  · exact (State.changes_wlFail ..).after ((State.changes_count ..).after hs5)
  · exact (State.changes_wlFail ..).after ((State.changes_count ..).after hs5)
  · exact hs5

theorem State.changes_capture (w b) : s.changes [.nv, .calDue, .calLate] (s.capture w b) := by
  unfold State.capture
  exact State.changes_ite ((State.changes_calTakes ..).after ((State.changes_setCal ..).after .refl)) .refl

theorem State.changes_remapTested (w) : s.changes Writes.remap (s.remapTested w) := by
  unfold State.remapTested
  exact State.changes_foldl .refl fun _ _ ht => (State.changes_remap ..).after ht

def Writes.execTestWindowEnd : List Field := [.free, .outbox, .regs, .shadow, .suspects, .ctrs, .rows, .window, .engs, .cores, .clus, .mbxWaits,
  .evHead, .evLost, .evOver, .fw, .cplq, .nv, .shape, .mesh, .calDue, .calLate, .passedAt, .testFirst, .window_]

theorem changes_execTestWindowEnd (results recaptured) : Res.all (s.changes Writes.execTestWindowEnd) (execTestWindowEnd results recaptured s) := by
  unfold execTestWindowEnd
  split
  · exact Res.all_next .refl
  · refine Res.all_need .refl ?_
    refine Res.all_unitOk ?_
    refine Res.all_next ?_
    extract_lets full1 units2 s3 s4 fails5 hdr6 body7 s8 s9 x10
    refine State.changes_have (t := s3) (State.changes_foldl .refl fun _ _ ht1 => State.changes_ite ht1 ((State.changes_unitTested ..).after ht1))
        fun hs3 => ?_
    refine State.changes_have (t := s4) (State.changes_foldl hs3 fun _ _ ht1 => (State.changes_capture ..).after ht1) fun hs4 => ?_
    refine State.changes_have (t := s8) ?_ fun hs8 => ?_
    · unfold s8
      split
      · exact (State.changes_winPut ..).after hs4
      · exact hs4
    refine State.changes_have (t := s9) ((State.changes_remapTested ..).after hs8) fun hs9 => ?_
    exact (State.changes_complete? ..).after ((State.changes_set_window_ ..).after hs9)

theorem changes_execCoreWatchdog (core) : Res.all (s.changes [.ctrs, .cores]) (execCoreWatchdog core s) := by
  unfold execCoreWatchdog
  exact Res.all_unitOk (Res.all_need .refl (Res.all_next ((State.changes_setCore ..).after ((State.changes_count ..).after .refl))))

/-! Counters. -/

theorem State.changes_latch : s.changes [.snap, .snapBeat, .snapAsked, .fw] s.latch := by
  unfold State.latch
  exact State.changes_ite .refl ((State.changes_set_fw ..).after ((State.changes_set_snap_snapBeat_snapAsked ..).after .refl))

theorem State.changes_gathered1 (bytes o) : s.changes Writes.endCmd (s.gathered1 bytes o) := by
  unfold State.gathered1
  split
  · exact State.changes_ite ((State.changes_endCmd ..).after .refl) ((State.changes_endCmd ..).after ((State.changes_winPut ..).after .refl))
  · exact .refl

def Writes.execCounterSnapshot : List Field := [.free, .outbox, .regs, .ctrs, .window, .mbxWaits, .evHead, .evLost, .evOver, .fw, .cplq]

theorem changes_execCounterSnapshot (gauges) : Res.all (s.changes Writes.execCounterSnapshot) (execCounterSnapshot gauges s) := by
  unfold execCounterSnapshot
  exact Res.all_need .refl (Res.all_next (State.changes_foldl ((State.changes_set_free ..).after .refl) fun _ _ ht => (State.changes_gathered1
      ..).after ht))

/-! Beat. -/

theorem State.changes_restDie (budget over_ m d) : s.changes [.ctrs, .power] (s.restDie budget over_ m d) := by
  unfold State.restDie
  extract_lets x1 draw2 own3 b?4 credit5 short6 want7 rest8 s9
  refine State.changes_ite ?_ ?_
  · exact (State.changes_setDie ..).after .refl
  · exact State.changes_ite ((State.changes_count ..).after ((State.changes_setDie ..).after .refl)) ((State.changes_setDie ..).after .refl)

def Writes.powerTick : List Field := [.outbox, .regs, .ctrs, .window, .power, .edgeDraw, .powerOver, .mbxWaits, .evHead, .evLost, .evOver]

theorem State.changes_powerTick (m) : s.changes Writes.powerTick (s.powerTick m) := by
  unfold State.powerTick
  extract_lets f1 limit2 x3 cl4 budget5 s6 resting7 s8 s9
  refine State.changes_have (t := s6) (State.changes_foldl .refl fun _ _ ht => (State.changes_restDie ..).after ht) fun hs6 => ?_
  refine State.changes_have (t := s8) ((State.changes_setFld ..).after ((State.changes_setFld ..).after ((State.changes_setFld ..).after hs6)))
      fun hs8 => ?_
  refine State.changes_have (t := s9) (State.changes_ite hs8 ((State.changes_post ..).after hs8)) fun hs9 => ?_
  exact (State.changes_set_edgeDraw_powerOver ..).after hs9

theorem State.changes_takeTemps (l) : s.changes [.board] (s.takeTemps l) := by
  unfold State.takeTemps
  exact (State.changes_set_board ..).after .refl

def Writes.rerunTask : List Field := [.regs, .ctrs, .rows, .tasks, .engs, .cores, .waits]

theorem State.changes_rerunTask (id) : s.changes Writes.rerunTask (s.rerunTask id) := by
  unfold State.rerunTask
  split
  · exact .refl
  · next t e =>
    refine State.changes.after (State.changes_modTask _ _ fun x hx => (State.task?_id s e).trans hx.symm) ?_
    exact (State.changes_discardTask ..).after (State.changes_ite (State.changes_foldl .refl fun _ _ ht2 => (State.changes_countEng ..).after ht2) .refl)

theorem State.changes_badVerdict (g) : s.changes Writes.post (s.badVerdict g) := by
  unfold State.badVerdict
  extract_lets s1
  split
  · exact (State.changes_fault ..).after ((State.changes_count ..).after .refl)
  · exact ((State.changes_count ..).after .refl)

theorem State.changes_resolve (x limit) : s.changes Writes.clearTasks (s.resolve x limit) := by
  unfold State.resolve
  extract_lets leaving1 x2 s3 s4 s5 s6 left7 groups8 s9 s10 s11 s12 s13 here14 s15
  refine State.changes_have (t := s3) (State.changes_foldl .refl fun _ _ ht => (State.changes_count ..).after ht) fun hs3 => ?_
  refine State.changes_have (t := s4) (State.changes_foldl hs3 fun _ _ ht => (State.changes_badVerdict ..).after ht) fun hs4 => ?_
  refine State.changes_have (t := s5) (State.changes_foldl hs4 fun _ _ ht => (State.changes_count ..).after ht) fun hs5 => ?_
  refine State.changes_have (t := s6) (State.changes_foldl hs5 fun _ _ ht => (State.changes_count ..).after ht) fun hs6 => ?_
  refine State.changes_have (t := s10) ((State.changes_finishVu ..).after ((State.changes_commitTasks ..).after ((State.changes_set_groups ..).after
      hs6))) fun hs10 => ?_
  refine State.changes_have (t := s11) (State.changes_foldl hs10 fun _ _ ht => (State.changes_discardTask ..).after ht) fun hs11 => ?_
  refine State.changes_have (t := s12) (State.changes_foldl hs11 fun _ _ ht => (State.changes_rerunTask ..).after ht) fun hs12 => ?_
  refine State.changes_have (t := s13) (State.changes_foldl hs12 fun _ _ ht => (State.changes_requeueTask ..).after ht) fun hs13 => ?_
  refine State.changes_have (t := s15) ((State.changes_set_groups ..).after hs13) fun hs15 => ?_
  exact (State.changes_wakeAfter ..).after hs15

theorem State.changes_carryTick (x) : s.changes [.ctrs, .tasks] (s.carryTick x) := by
  unfold State.carryTick
  refine State.changes_foldl ((State.changes_map_tasks _ fun x => ?_).after .refl) fun _ _ ht => (State.changes_count ..).after ht
  split <;> rfl

theorem State.changes_addCycles (l) : s.changes [.tasks] (s.addCycles l) := by
  unfold State.addCycles
  exact (State.changes_map_tasks (fun t => { t with cycles := t.cycles + sumNat ((l.filter fun q => q.task == t.id).map EngTime.cycles) })
    fun _ => rfl).after .refl

theorem State.changes_settleAccts (charged refunds cl) : s.changes [.regs] (s.settleAccts charged refunds cl) := by
  unfold State.settleAccts
  extract_lets s1 run2 ratio3
  refine State.changes_have (t := s1) (State.changes_foldl .refl fun _ _ ht => State.changes_ite ht ((State.changes_wr ..).after ((State.changes_wr
      ..).after ht))) fun hs1 => ?_
  split
  · exact hs1
  · exact State.changes_ite hs1 (State.changes_foldl hs1 fun _ _ ht2 => (State.changes_wr ..).after ht2)

theorem State.changes_accounts (charged refunds) : s.changes [.regs] (s.accounts charged refunds) := by
  unfold State.accounts
  exact State.changes_foldl .refl fun _ _ ht => State.changes_foldl ht fun _ _ ht1 => (State.changes_settleAccts ..).after ht1

theorem State.changes_markSkew (n) : s.changes Writes.post (s.markSkew n) := by
  unfold State.markSkew
  exact State.changes_ite .refl ((State.changes_fault ..).after ((State.changes_count ..).after ((State.changes_setFld ..).after .refl)))

def Writes.beatEdge : List Field := [.free, .outbox, .regs, .shadow, .late, .ctrs, .rows, .lpddr, .checks, .window, .ceRows, .copying, .epoch,
  .bringups, .pinned, .goneViews, .cores, .chans, .waits, .arrivals, .parts, .tithes, .packetsOut, .restore, .ports, .gates, .loop, .beat,
  .mbxWaits, .stageWord, .evHead, .evTail, .evLost, .evOver, .nv, .shape, .rx]

theorem State.changes_beatEdge (checks) : s.changes Writes.beatEdge (s.beatEdge checks) := by
  unfold State.beatEdge
  extract_lets mine1 takes2 n3 due4 b5 s6 s7 s8 s9 mode10
  refine State.changes_have (t := s7) ((State.changes_set_beat ..).after ((State.changes_wr ..).after .refl)) fun hs7 => ?_
  refine State.changes_have (t := s8) (State.changes_ite ((State.changes_markSkew ..).after hs7) hs7) fun hs8 => ?_
  refine State.changes_have (t := s9) ?_ fun hs9 => ?_
  · unfold s9
    generalize mine1 = mine1'
    split
    · exact (State.changes_applyBlk ..).after hs8
    · exact hs8
  exact State.changes_ite ((State.changes_emit ..).after hs9) hs9

theorem State.changes_applyTick (checks) : s.changes Writes.applyBlk (s.applyTick checks) := by
  unfold State.applyTick
  extract_lets opened1 s2 closing3
  refine State.changes_have (t := s2) (State.changes_foldl .refl fun _ _ ht => (State.changes_applyBlk ..).after ht) fun hs2 => ?_
  exact State.changes_ite hs2 ((State.changes_retryParked ..).after hs2)

theorem State.changes_applied1 (checks o bs) : s.changes Writes.fwApplied (s.applied1 checks o bs) := by
  unfold State.applied1
  extract_lets found1 left2
  split
  · exact (State.changes_endCmd ..).after ((State.changes_fwRefused ..).after .refl)
  · exact State.changes_ite ((State.changes_fwApplied ..).after .refl) ((State.changes_setWait ..).after ((State.changes_fwArm ..).after .refl))

theorem State.changes_appliesDone (checks) : s.changes Writes.fwApplied (s.appliesDone checks) := by
  unfold State.appliesDone
  refine State.changes_foldl .refl fun _ _ ht => ?_
  split
  · exact (State.changes_applied1 ..).after ht
  · exact ht

theorem State.changes_sealTick : s.changes Writes.sealNow s.sealTick := by
  unfold State.sealTick
  exact State.changes_foldl .refl fun _ _ ht => State.changes_ite ((State.changes_sealNow ..).after ht) ((State.changes_countJob ..).after
      ((State.changes_set_seals ..).after ht))

def Writes.fwTick : List Field := Field.but [.pending, .suspects, .snap, .snapBeat, .snapAsked, .lpPatrol, .retiredRows, .taskSeq, .power,
  .edgeDraw, .powerOver, .grng, .titheSeq, .beat, .mods, .lostTags, .hostLost, .bootStage, .sec, .mesh, .bring, .shapeNew, .coresUp, .defects,
  .fwTurn, .seedPack, .seedSets, .minSvn, .calDue, .calLate, .passedAt, .testFirst, .window_, .board]

theorem State.changes_fwTick : s.changes Writes.fwTick s.fwTick := by
  unfold State.fwTick
  refine State.changes_foldl .refl fun _ _ ht => ?_
  split
  · exact State.changes_ite ht ((State.changes_killStart ..).after ht)
  · exact (State.changes_stepStart ..).after ht
  · split
    · rename_i he2
      exact (State.changes_endCmd ..).after ((FwRes.all_of he2 (State.changes_performPageOut ..)).after ht)
    · rename_i he2
      exact (FwRes.all_of he2 (State.changes_performPageOut ..)).after ht
    · rename_i he2
      exact (FwRes.all_of he2 (State.changes_performPageOut ..)).after ht
  · exact ht

def Writes.endTick : List Field := Field.but [.pending, .suspects, .snap, .snapBeat, .snapAsked, .lpPatrol, .retiredRows, .seals, .taskSeq,
  .groups, .power, .edgeDraw, .powerOver, .grng, .win, .titheSeq, .beat, .mods, .lostTags, .hostLost, .bootStage, .sec, .mesh, .bring, .shapeNew,
  .coresUp, .defects, .fwTurn, .seedPack, .seedSets, .minSvn, .calDue, .calLate, .passedAt, .testFirst, .window_, .board]

theorem State.changes_endTick : s.changes Writes.endTick s.endTick := by
  unfold State.endTick
  extract_lets s1
  refine State.changes_have (t := s1) ?_ fun hs1 => ?_
  · unfold s1
    refine State.changes_foldl .refl fun _ _ ht => ?_
    extract_lets p2 j3 b4
    refine State.changes_ite ?_ ?_
    · exact ht
    · exact State.changes_ite ((State.changes_complete? ..).after ((State.changes_killDone ..).after ht)) (State.changes_ite ((State.changes_killViews
          ..).after ht) ht)
  exact State.changes_foldl hs1 fun _ _ ht => State.changes_ite ht ((State.changes_complete? ..).after ((State.changes_complete? ..).after
      ((State.changes_resetEnd ..).after ht)))

theorem State.changes_stopsDone : s.changes Writes.endCmd s.stopsDone := by
  unfold State.stopsDone
  refine State.changes_foldl .refl fun _ _ ht => ?_
  split
  · exact State.changes_ite ((State.changes_endCmd ..).after ht) ht
  · exact ht

theorem State.changes_resetTick : s.changes Writes.killStart s.resetTick := by
  unfold State.resetTick
  refine State.changes_foldl .refl fun _ _ ht => ?_
  split
  · exact State.changes_ite ((State.changes_resetStart ..).after ht) ht
  · exact ht

theorem State.changes_portTick (p) : s.changes Writes.execCtlAck (s.portTick p) := by
  unfold State.portTick
  extract_lets x1 r2 next3 s4 s5
  refine State.changes_have (t := s5) ((State.changes_count ..).after ((State.changes_setPort_rx (by rfl)).after .refl)) fun hs5 => ?_
  exact State.changes_ite ((State.changes_setPort_rx (by rfl)).after .refl) (State.changes_ite hs5 ((State.changes_linkCount ..).after hs5))

theorem State.changes_coreTick : s.changes [.cores, .grng] s.coreTick := by
  unfold State.coreTick
  exact State.changes_foldl ((State.changes_set_cores_grng ..).after .refl) fun _ _ ht => State.changes_ite ht ((State.changes_setCore ..).after ht)

theorem State.changes_windowTick : s.changes [.window_] s.windowTick := by
  unfold State.windowTick
  exact (State.changes_set_window_ ..).after .refl

theorem State.changes_stopNow (p j) : s.changes Writes.preemptAll (s.stopNow p j) := by
  unfold State.stopNow
  exact State.changes_ite ((State.changes_stopForFault ..).after .refl) ((State.changes_setJob ..).after ((State.changes_preempt ..).after .refl))

theorem State.changes_adoptIdle : s.changes Writes.adoptView s.adoptIdle := by
  unfold State.adoptIdle
  exact State.changes_foldl .refl fun _ _ ht => State.changes_ite ((State.changes_adoptViews ..).after ht) ht

theorem State.changes_tick (m) : s.changes Writes.perform (s.tick m) := by
  unfold State.tick
  extract_lets limit1 checks2 stops3 rolls4 pre5 cycles6 charged7 s8 s9 s10 s11 x12 refunds13 s14 s15 s16 s17 s18 s19 s20
  refine State.changes_have (t := s8) ((State.changes_addCycles ..).after .refl) fun hs8 => ?_
  refine State.changes_have (t := s9) ((State.changes_takeTemps ..).after ((State.changes_set_late ..).after hs8)) fun hs9 => ?_
  refine State.changes_have (t := s10) ((State.changes_deadlineTick ..).after ((State.changes_beatEdge ..).after ((State.changes_powerTick ..).after
      hs9))) fun hs10 => ?_
  refine State.changes_have (t := s11) (State.changes_foldl hs10 fun _ _ ht => (State.changes_portTick ..).after ht) fun hs11 => ?_
  refine State.changes_have (t := s14) ((State.changes_applyTick ..).after ((State.changes_dropLate ..).after ((State.changes_resolve ..).after
      ((State.changes_carryTick ..).after hs11)))) fun hs14 => ?_
  refine State.changes_have (t := s15) (State.changes_foldl hs14 fun _ _ ht => (State.changes_stopNow ..).after ht) fun hs15 => ?_
  refine State.changes_have (t := s17) ((State.changes_appliesDone ..).after ((State.changes_latch ..).after ((State.changes_accounts ..).after
      ((State.changes_resetTick ..).after hs15)))) fun hs17 => ?_
  refine State.changes_have (t := s18) ((State.changes_stopsDone ..).after ((State.changes_endTick ..).after ((State.changes_fwTick ..).after hs17)))
      fun hs18 => ?_
  refine State.changes_have (t := s19) ((State.changes_postWin ..).after ((State.changes_restoreTick ..).after ((State.changes_settleRun ..).after
      ((State.changes_sealTick ..).after ((State.changes_adoptIdle ..).after ((State.changes_resultTick ..).after ((State.changes_deathTick ..).after
      hs18))))))) fun hs19 => ?_
  refine State.changes_have (t := s20) (State.changes_foldl ((State.changes_applyTrims ..).after hs19) fun _ _ ht => State.changes_ite ht
      ((State.changes_pushTithe ..).after ht)) fun hs20 => ?_
  exact (State.changes_turns ..).after ((State.changes_bringTick ..).after ((State.changes_windowTick ..).after ((State.changes_coreTick ..).after
      ((State.changes_pushPackets ..).after hs20))))

theorem changes_execTick (m) : Res.all (s.changes Writes.perform) (execTick m s) := by
  unfold execTick
  exact Res.all_next ((State.changes_tripHot ..).after (State.changes_ite ((State.changes_tick ..).after .refl) ((State.changes_takeTemps ..).after
      .refl)))

theorem State.changes_reportVerifier (g) : s.changes Writes.taskFault (s.reportVerifier g) := by
  unfold State.reportVerifier
  split
  · split
    · exact (State.changes_taskFault ..).after (State.changes_ite ((State.changes_setTask ..).after .refl) .refl)
    · exact (State.changes_reportFault ..).after .refl
    · exact .refl
  · exact .refl

theorem changes_execVerdictTimeout (cl group) : Res.all (s.changes Writes.clearTasks) (execVerdictTimeout cl group s) := by
  unfold execVerdictTimeout
  refine Res.all_unitOk ?_
  split
  · exact Res.all_next .refl
  · exact Res.all_next ((State.changes_wakeAfter ..).after ((State.changes_set_groups ..).after ((State.changes_removeTasks ..).after
        ((State.changes_finishVu ..).after ((State.changes_reportVerifier ..).after ((State.changes_count ..).after .refl))))))

def Writes.execCarryLimitAbort : List Field := [.free, .outbox, .regs, .ctrs, .rows, .window, .tasks, .engs, .cores, .chans, .waits, .jobs,
  .mbxWaits, .evHead, .evLost, .evOver]

theorem changes_execCarryLimitAbort (task) : Res.all (s.changes Writes.execCarryLimitAbort) (execCarryLimitAbort task s) := by
  unfold execCarryLimitAbort
  split
  · exact Res.all_next .refl
  · refine Res.all_need .refl ?_
    exact Res.all_next ((State.changes_wakeAfter ..).after ((State.changes_removeTasks ..).after ((State.changes_finishVu ..).after
        ((State.changes_taskFault ..).after ((State.changes_count ..).after .refl)))))

def Writes.loseLock : List Field := [.outbox, .regs, .ctrs, .window, .beat, .mbxWaits, .evHead, .evLost, .evOver]

theorem State.changes_loseLock : s.changes Writes.loseLock s.loseLock := by
  unfold State.loseLock
  extract_lets x1 s2
  refine State.changes_ite ?_ ?_
  · exact ((State.changes_set_beat ..).after .refl)
  · exact (State.changes_fault ..).after ((State.changes_setFld ..).after ((State.changes_setFld ..).after ((State.changes_set_beat ..).after .refl)))

theorem State.changes_beatIn (lag long) : s.changes Writes.loseLock (s.beatIn lag long) := by
  unfold State.beatIn
  extract_lets e1 s2 ahead3 next4 run5 x6 s7 s8 x9
  refine State.changes_have (t := s7) ((State.changes_set_beat ..).after ((State.changes_setFld ..).after .refl)) fun hs7 => ?_
  refine State.changes_have (t := s8) (State.changes_ite ((State.changes_loseLock ..).after hs7) (State.changes_ite ((State.changes_setFld ..).after
      hs7) hs7)) fun hs8 => ?_
  exact State.changes_ite hs8 (State.changes_ite ((State.changes_set_beat ..).after hs8) ((State.changes_markSkew ..).after hs8))

theorem changes_execBeatInPulse (lag long) : Res.all (s.changes Writes.loseLock) (execBeatInPulse lag long s) := by
  unfold execBeatInPulse
  exact Res.all_next (State.changes_ite ((State.changes_beatIn ..).after .refl) .refl)

theorem changes_execBeatInLoss : Res.all (s.changes Writes.loseLock) (execBeatInLoss s) := by
  unfold execBeatInLoss
  exact Res.all_need .refl (Res.all_next ((State.changes_loseLock ..).after .refl))

/-! Dispatch. -/

def Writes.exec : List Field := Field.but [.pending, .defects]

theorem changes_exec (i) : Res.all (s.changes Writes.exec) (exec i s) := by
  unfold exec
  split
  · exact (changes_execTick ..).imp fun _ k => k.after .refl
  · exact (changes_execVerdictTimeout ..).imp fun _ k => k.after .refl
  · exact (changes_execCarryLimitAbort ..).imp fun _ k => k.after .refl
  · exact (changes_execBeatRun ..).imp fun _ k => k.after .refl
  · exact (changes_execBeatNumberSetWrite ..).imp fun _ k => k.after .refl
  · exact (changes_execArm ..).imp fun _ k => k.after .refl
  · exact (changes_execDisarm ..).imp fun _ k => k.after .refl
  · exact (changes_execShadowWrite ..).imp fun _ k => k.after .refl
  · exact (changes_execRegisterWrite ..).imp fun _ k => k.after .refl
  · exact (changes_execBeatInPulse ..).imp fun _ k => k.after .refl
  · exact (changes_execBeatInLoss ..).imp fun _ k => k.after .refl
  · exact (changes_execDescLoad ..).imp fun _ k => k.after .refl
  · exact (changes_execDispatch ..).imp fun _ k => k.after .refl
  · exact (changes_execCtlEnd ..).imp fun _ k => k.after .refl
  · exact (changes_execCtlFence ..).imp fun _ k => k.after .refl
  · exact (changes_execMeLoad ..).imp fun _ k => k.after .refl
  · exact (changes_execMeStream ..).imp fun _ k => k.after .refl
  · exact (changes_execMeDrain ..).imp fun _ k => k.after .refl
  · exact (changes_execVuLd ..).imp fun _ k => k.after .refl
  · exact (changes_execVuSt ..).imp fun _ k => k.after .refl
  · exact (changes_execVuOp ..).imp fun _ k => k.after .refl
  · exact (changes_execVuTx ..).imp fun _ k => k.after .refl
  · exact (changes_execVuReduce ..).imp fun _ k => k.after .refl
  · exact (changes_execVuTapld ..).imp fun _ k => k.after .refl
  · exact (changes_execVuNbwd ..).imp fun _ k => k.after .refl
  · exact (changes_execRowBufferGrant ..).imp fun _ k => k.after .refl
  · exact (changes_execMvpRun ..).imp fun _ k => k.after .refl
  · exact (changes_execMvpGlean ..).imp fun _ k => k.after .refl
  · exact (changes_execSpEnc ..).imp fun _ k => k.after .refl
  · exact (changes_execDmaKick ..).imp fun _ k => k.after .refl
  · exact (changes_execTagTake ..).imp fun _ k => k.after .refl
  · exact (changes_execTagWait ..).imp fun _ k => k.after .refl
  · exact (changes_execSiloPush ..).imp fun _ k => k.after .refl
  · exact (changes_execSiloPop ..).imp fun _ k => k.after .refl
  · exact (changes_execCcCount ..).imp fun _ k => k.after .refl
  · exact (changes_execGaGather ..).imp fun _ k => k.after .refl
  · exact (changes_execRowStateRetry ..).imp fun _ k => k.after .refl
  · exact (changes_execTaskRetire ..).imp fun _ k => k.after .refl
  · exact (changes_execFaultJobStop ..).imp fun _ k => k.after .refl
  · exact (changes_execStationaryShiftIn ..).imp fun _ k => k.after .refl
  · exact (changes_execEngineRelease ..).imp fun _ k => k.after .refl
  · exact (changes_execCacheFillComplete ..).imp fun _ k => k.after .refl
  · exact (changes_execCcInvalidate ..).imp fun _ k => k.after .refl
  · exact (changes_execRngHealthFail ..).imp fun _ k => k.after .refl
  · exact (changes_execRngFallbackExit ..).imp fun _ k => k.after .refl
  · exact (changes_execPatrolScrub ..).imp fun _ k => k.after .refl
  · exact (changes_execLpddrPatrol ..).imp fun _ k => k.after .refl
  · exact (changes_execPageWalk ..).imp fun _ k => k.after .refl
  · exact (changes_execBringupDone ..).imp fun _ k => k.after .refl
  · exact (changes_execDeadlineMiss ..).imp fun _ k => k.after .refl
  · exact (changes_execAccumWrite ..).imp fun _ k => k.after .refl
  · exact (changes_execEpochClearDone ..).imp fun _ k => k.after .refl
  · exact (changes_execUnsealPinsClear ..).imp fun _ k => k.after .refl
  · exact (changes_execDmaDescStart ..).imp fun _ k => k.after .refl
  · exact (changes_execDmaRingFetch ..).imp fun _ k => k.after .refl
  · exact (changes_execDmaTransferEnd ..).imp fun _ k => k.after .refl
  · exact (changes_execDmaRecordFlush ..).imp fun _ k => k.after .refl
  · exact (changes_execFirmwareCopyStart ..).imp fun _ k => k.after .refl
  · exact (changes_execDmaResume ..).imp fun _ k => k.after .refl
  · exact (changes_execDmaAbandon ..).imp fun _ k => k.after .refl
  · exact (changes_execDmaRestart ..).imp fun _ k => k.after .refl
  · exact (changes_execPfStaleRefetch ..).imp fun _ k => k.after .refl
  · exact (changes_execRemoteTimeout ..).imp fun _ k => k.after .refl
  · exact (changes_execKillDrainDone ..).imp fun _ k => k.after .refl
  · exact (changes_execKillScrubComplete ..).imp fun _ k => k.after .refl
  · exact (changes_execEndOfBackward ..).imp fun _ k => k.after .refl
  · exact (changes_execDevicePacketFormed ..).imp fun _ k => k.after .refl
  · exact (changes_execReductionComplete ..).imp fun _ k => k.after .refl
  · exact (changes_execReduceTimeout ..).imp fun _ k => k.after .refl
  · exact (changes_execResultWaitTimeout ..).imp fun _ k => k.after .refl
  · exact (changes_execReductionResult ..).imp fun _ k => k.after .refl
  · exact (changes_execPhaseChange ..).imp fun _ k => k.after .refl
  · exact (changes_execWinGo ..).imp fun _ k => k.after .refl
  · exact (changes_execWinRelease ..).imp fun _ k => k.after .refl
  · exact (changes_execWinWithhold ..).imp fun _ k => k.after .refl
  · exact (changes_execWinPassDone ..).imp fun _ k => k.after .refl
  · exact (changes_execLayerNormResult ..).imp fun _ k => k.after .refl
  · exact (changes_execGenStepBoundary ..).imp fun _ k => k.after .refl
  · exact (changes_execPartitionResetDone ..).imp fun _ k => k.after .refl
  · exact (changes_execHatchClosedDone ..).imp fun _ k => k.after .refl
  · exact (changes_execPortRekey ..).imp fun _ k => k.after .refl
  · exact (changes_execSegmentRekey ..).imp fun _ k => k.after .refl
  · exact (changes_execLinkTrained ..).imp fun _ k => k.after .refl
  · exact (changes_execLinkTrainTimeout ..).imp fun _ k => k.after .refl
  · exact (changes_execAuthTimeout ..).imp fun _ k => k.after .refl
  · exact (changes_execLinkBerWindow ..).imp fun _ k => k.after .refl
  · exact (changes_execLinkLockLoss ..).imp fun _ k => k.after .refl
  · exact (changes_execLinkRetrain ..).imp fun _ k => k.after .refl
  · exact (changes_execReplayTimer ..).imp fun _ k => k.after .refl
  · exact (changes_execNakTimer ..).imp fun _ k => k.after .refl
  · exact (changes_execAckTimer ..).imp fun _ k => k.after .refl
  · exact (changes_execFrameWrite ..).imp fun _ k => k.after .refl
  · exact (changes_execFrameWriteOw ..).imp fun _ k => k.after .refl
  · exact (changes_execFrameAccum ..).imp fun _ k => k.after .refl
  · exact (changes_execFrameCountReq ..).imp fun _ k => k.after .refl
  · exact (changes_execFrameSreduce ..).imp fun _ k => k.after .refl
  · exact (changes_execFrameRdata ..).imp fun _ k => k.after .refl
  · exact (changes_execFrameBatch ..).imp fun _ k => k.after .refl
  · exact (changes_execCtlAck ..).imp fun _ k => k.after .refl
  · exact (changes_execCtlNak ..).imp fun _ k => k.after .refl
  · exact (changes_execCtlReplay ..).imp fun _ k => k.after .refl
  · exact (changes_execCtlSegTag ..).imp fun _ k => k.after .refl
  · exact (changes_execCtlHandshake ..).imp fun _ k => k.after .refl
  · exact (changes_execCtlIdle ..).imp fun _ k => k.after .refl
  · exact (changes_execModuleTrainRequest ..).imp fun _ k => k.after .refl
  · exact (changes_execModuleTrained ..).imp fun _ k => k.after .refl
  · exact (changes_execModuleTrainTimeout ..).imp fun _ k => k.after .refl
  · exact (changes_execModuleLinkLoss ..).imp fun _ k => k.after .refl
  · exact (changes_execHostRead ..).imp fun _ k => k.after .refl
  · exact (changes_execHostWrite ..).imp fun _ k => k.after .refl
  · exact (changes_execSidebandAccess ..).imp fun _ k => k.after .refl
  · exact (changes_execHostLoss ..).imp fun _ k => k.after .refl
  · exact (changes_execMailboxWrite ..).imp fun _ k => k.after .refl
  · exact (changes_execMailboxRead ..).imp fun _ k => k.after .refl
  · exact (changes_execMailboxWaitTimeout ..).imp fun _ k => k.after .refl
  · exact (changes_execLockRead ..).imp fun _ k => k.after .refl
  · exact (changes_execLockRelease ..).imp fun _ k => k.after .refl
  · exact (changes_execLockForce ..).imp fun _ k => k.after .refl
  · exact (changes_execDeviceReset ..).imp fun _ k => k.after .refl
  · exact (changes_execPartitionCreate ..).imp fun _ k => k.after .refl
  · exact (changes_execPartitionDestroy ..).imp fun _ k => k.after .refl
  · exact (changes_execPartitionReset ..).imp fun _ k => k.after .refl
  · exact (changes_execJobStart ..).imp fun _ k => k.after .refl
  · exact (changes_execJobStop ..).imp fun _ k => k.after .refl
  · exact (changes_execJobKill ..).imp fun _ k => k.after .refl
  · exact (changes_execTensorSeal ..).imp fun _ k => k.after .refl
  · exact (changes_execTensorUnseal ..).imp fun _ k => k.after .refl
  · exact (changes_execStepVoid ..).imp fun _ k => k.after .refl
  · exact (changes_execPhaseSet ..).imp fun _ k => k.after .refl
  · exact (changes_execLayerNorm ..).imp fun _ k => k.after .refl
  · exact (changes_execSeqCancel ..).imp fun _ k => k.after .refl
  · exact (changes_execHatchClose ..).imp fun _ k => k.after .refl
  · exact (changes_execPowerLimit ..).imp fun _ k => k.after .refl
  · exact (changes_execPowerWeight ..).imp fun _ k => k.after .refl
  · exact (changes_execTelemetry ..).imp fun _ k => k.after .refl
  · exact (changes_execDeviceQuery ..).imp fun _ k => k.after .refl
  · exact (changes_execInventory ..).imp fun _ k => k.after .refl
  · exact (changes_execEnvSet ..).imp fun _ k => k.after .refl
  · exact (changes_execBeatConfig ..).imp fun _ k => k.after .refl
  · exact (changes_execImageLoad ..).imp fun _ k => k.after .refl
  · exact (changes_execSeedpackLoad ..).imp fun _ k => k.after .refl
  · exact (changes_execCalRead ..).imp fun _ k => k.after .refl
  · exact (changes_execCalWrite ..).imp fun _ k => k.after .refl
  · exact (changes_execAttestQuote ..).imp fun _ k => k.after .refl
  · exact (changes_execJobConfig ..).imp fun _ k => k.after .refl
  · exact (changes_execTensorRegister ..).imp fun _ k => k.after .refl
  · exact (changes_execPageMap ..).imp fun _ k => k.after .refl
  · exact (changes_execPageIn ..).imp fun _ k => k.after .refl
  · exact (changes_execPageOut ..).imp fun _ k => k.after .refl
  · exact (changes_execLayerRegister ..).imp fun _ k => k.after .refl
  · exact (changes_execJobRestore ..).imp fun _ k => k.after .refl
  · exact (changes_execTitheConfig ..).imp fun _ k => k.after .refl
  · exact (changes_execStepConfig ..).imp fun _ k => k.after .refl
  · exact (changes_execStepBegin ..).imp fun _ k => k.after .refl
  · exact (changes_execStepResult ..).imp fun _ k => k.after .refl
  · exact (changes_execSeqConfig ..).imp fun _ k => k.after .refl
  · exact (changes_execSeqJoin ..).imp fun _ k => k.after .refl
  · exact (changes_execLinkConfig ..).imp fun _ k => k.after .refl
  · exact (changes_execHatchOpen ..).imp fun _ k => k.after .refl
  · exact (changes_execTestWindow ..).imp fun _ k => k.after .refl
  · exact (changes_execCountersRead ..).imp fun _ k => k.after .refl
  · exact (changes_execCounterSnapshot ..).imp fun _ k => k.after .refl
  · exact (changes_execTestWindowStart ..).imp fun _ k => k.after .refl
  · exact (changes_execTestWindowEnd ..).imp fun _ k => k.after .refl
  · exact (changes_execCoreWatchdog ..).imp fun _ k => k.after .refl
  · exact (changes_execRowRetireCopyDone ..).imp fun _ k => k.after .refl
  · exact (changes_execMgtResetRelease ..).imp fun _ k => k.after .refl
  · exact (changes_execPowerGoodLoss ..).imp fun _ k => k.after .refl
  · exact (changes_execThermalTrip ..).imp fun _ k => k.after .refl
  · exact (changes_execJtagExtest ..).imp fun _ k => k.after .refl
  · exact (changes_execJtagSamplePreload ..).imp fun _ k => k.after .refl
  · exact (changes_execJtagIdcode ..).imp fun _ k => k.after .refl
  · exact (changes_execJtagClamp ..).imp fun _ k => k.after .refl
  · exact (changes_execJtagHighz ..).imp fun _ k => k.after .refl
  · exact (changes_execJtagStatus ..).imp fun _ k => k.after .refl
  · exact (changes_execJtagBypass ..).imp fun _ k => k.after .refl
  · exact (changes_execJtagReset ..).imp fun _ k => k.after .refl
  · exact (changes_execBadCrcFrame ..).imp fun _ k => k.after .refl
  · exact (changes_execReservedTypeFrame ..).imp fun _ k => k.after .refl
  · exact (changes_execMainPowerGood ..).imp fun _ k => k.after .refl
  · exact (changes_execMainRailTimeout ..).imp fun _ k => k.after .refl
  · exact (changes_execAtbSettle ..).imp fun _ k => k.after .refl

/-! Step. -/

def Writes.step : List Field := Field.but [.defects]

theorem changes_step : Res.all (s.changes Writes.step) (step s) := by
  unfold step
  split
  · exact Res.all_next .refl
  · exact (changes_exec ..).imp fun _ k => k.after ((State.changes_set_pending ..).after .refl)

theorem State.changes_withFetchWord (nbits w) : s.changes [] (s.withFetchWord nbits w) := by
  unfold State.withFetchWord
  exact .refl

/-- A step that is taken writes what its command may write, and the queue. -/
theorem State.changes_of_step (h : step s = .next t) : s.changes Writes.step t := changes_step.next h

end Sys2Proof.Machine

open Sys2Proof.Machine

/-- Settles O5: each operation keeps the stores canonical with the fields that it does not write, and a step is made of operations. -/
theorem stepKeepsStoresCanonical : Obligations.StepKeepsStoresCanonical := by
  unfold Obligations.StepKeepsStoresCanonical
  intro s t h e
  exact (State.changes_of_step e).storesWf h
end

section
/-! The queue, the reset state and the registers (R5, R31, R34, R35, R51): a step is its command, a write takes each field by its access type, and
a refused access reaches the event's mailbox alone. -/

-- The frame conditions are evaluated in the kernel: theorems elaborated in parallel would each hold a thread while they wait for it.
set_option Elab.async false

namespace Sys2Proof.Machine

variable {s t : State} {r x : Reg} {b : Blk}

/-! A write of a register without a shadow takes each field by its access type (Table 0-3). -/

/-- What a write leaves in a field of a register (Table 0-3). -/
def Fld.after (f : Fld) (w v : Word) : Nat :=
  match f.acc with
  | .rw => bits v f.lo f.len
  | .rwi => bits v f.lo f.len
  | .w1c => bits (w &&& ~~~v) f.lo f.len
  | .w1s => bits (w ||| v) f.lo f.len
  | _ => bits w f.lo f.len

theorem getLsbD_fieldMask_inside {lo len i : Nat} (h : lo + len ≤ 64) (hi : i < len) : (fieldMask 64 lo len).getLsbD (lo + i) = true := by
  rw [getLsbD_fieldMask]
  simp
  omega

theorem bits_writeField_same {f : Fld} (h : f.lo + f.len ≤ 64) (w v : Word) : bits (writeField w v f) f.lo f.len = f.after w v := by
  obtain ⟨lo, len, acc, d⟩ := f
  have hset : bits (setBits w lo len (bits v lo len)) lo len = bits v lo len :=
    (bits_setBits_same _ _ _ _ h).trans (Nat.mod_eq_of_lt (bits_lt ..))
  cases acc
  case rw => exact hset
  case rwi => exact hset
  case w1c => exact bits_congr (len := len) fun i hi => by simp [writeField, getLsbD_fieldMask_inside h hi]
  case w1s => exact bits_congr (len := len) fun i hi => by simp [writeField, getLsbD_fieldMask_inside h hi]
  all_goals rfl

/-- What a write leaves in a field goes by the field's own bits. -/
theorem Fld.after_congr {f : Fld} {w u : Word} (h : bits w f.lo f.len = bits u f.lo f.len) (v : Word) : f.after w v = f.after u v := by
  have hbit : ∀ i < f.len, w.getLsbD (f.lo + i) = u.getLsbD (f.lo + i) := fun i hi => by
    have := congrArg (·.testBit i) h
    simpa [testBit_bits, hi] using this
  unfold Fld.after
  split
  · rfl
  · rfl
  · exact bits_congr fun i hi => by simp [hbit i hi]
  · exact bits_congr fun i hi => by simp [hbit i hi]
  · exact h

theorem bits_foldl_writeField_after {f : Fld} {fs : List Fld} (hp : fs.Pairwise Fld.apart) (hf : f ∈ fs) (hl : f.lo + f.len ≤ 64) (w v : Word) :
    bits (fs.foldl (fun w f => writeField w v f) w) f.lo f.len = f.after w v := by
  induction fs generalizing w with
  | nil => cases hf
  | cons g fs ih =>
    obtain ⟨hg, hp⟩ := List.pairwise_cons.1 hp
    obtain rfl | hm := List.mem_cons.1 hf
    · rw [List.foldl_cons, bits_foldl_of_keeps fun h hh u => bits_writeField_apart (hg h hh).symm u v]
      exact bits_writeField_same hl w v
    · rw [List.foldl_cons, ih hp hm]
      exact Fld.after_congr (bits_writeField_apart (hg f hm) w v) v

theorem State.sameStores_refl (s : State) : s.sameStores s :=
  ⟨rfl, rfl, rfl, rfl, rfl, rfl, rfl, rfl, rfl, rfl, rfl, rfl, rfl, rfl, rfl⟩

/-- A write of a register without a shadow writes its word alone, unless a winnower command in force names it (R292). -/
theorem State.regWrite_of_no_shadow (hs : r.hasShadow = false) (hw : ∀ g n i, r = .winState g n i → s.winHolds n = false) (v : Word) :
    s.regWrite r v = s.wr r (r.fields.foldl (fun w f => writeField w v f) (s.rd r)) := by
  refine (if_neg fun hc => ?_).trans (if_neg (by simp [hs]))
  split at hc
  · next g n i => simp [hw g n i rfl] at hc
  · cases hc

theorem State.regWrite_of_held {g n i : Nat} (hw : s.winHolds n = true) (v : Word) : s.regWrite (.winState g n i) v = s := if_pos hw

/-- Marks of a write are kept for registers that have a shadow only (R34, R75). -/
theorem State.markWrite_of_no_shadow (hs : r.hasShadow = false) (s : State) : s.markWrite r = s := by
  unfold State.markWrite
  split
  · cases hs
  · cases hs
  · rfl

theorem State.agentWrite_of_value {a addr : Nat} {v w : Word} (hr : s.reach a addr = some r) (hreset : s.inReset addr = false)
    (hv : s.mbxRegValue a r v = some w) : s.agentWrite a addr v = ((s.regWrite r w).markWrite r).emit (.access a 0 0 0) := by
  simp [State.agentWrite, hr, hreset, hv]

theorem State.agentWrite_of_reset {a addr : Nat} (hr : s.reach a addr = some r) (hreset : s.inReset addr = true) (v : Word) :
    s.agentWrite a addr v = s.emit (.access a 2 0 0) := by
  simp [State.agentWrite, hr, hreset, State.resetAnswer]

theorem State.agentWrite_of_not_reached {a addr : Nat} (hr : s.reach a addr = none) (v : Word) : s.agentWrite a addr v = s.busError a addr := by
  simp [State.agentWrite, hr]

theorem State.flag_of_fld_one {f : Fld} (h : s.fld r f = 1) : s.flag r f = true := by simp [State.flag, h]

/-! Arming (R51, R52). -/

theorem State.armBlk_of_not_armed (h : s.armed b = false) (late : Bool) : s.armBlk b late =
    (let u := (s.setFld (.arm b) F.armArm 1).setApply b 1 0 false
     if late then { u with late := u.late ++ [b] } else u) := if_neg (by simp [h])

theorem State.armBlk_of_armed (h : s.armed b = true) (late : Bool) : s.armBlk b late = s := if_pos h

/-- Only the request of the block, and its place among the late ones, is new. -/
theorem State.rd_armBlk (h : s.armed b = false) (late : Bool) (x : Reg) :
    (s.armBlk b late).rd x = ((s.setFld (.arm b) F.armArm 1).setApply b 1 0 false).rd x := by
  rw [State.armBlk_of_not_armed h]
  cases late <;> rfl

theorem State.armed_armBlk (s : State) (b : Blk) (late : Bool) : (s.armBlk b late).armed b = true := by
  cases h : s.armed b with
  | true => rw [State.armBlk_of_armed h, h]
  | false =>
    refine State.flag_of_fld_one ?_
    rw [State.fld, State.rd_armBlk h, State.rd_setApply_ne _ _ _ (arm_addr_ne_apply b)]
    exact State.fld_setFld_same _ _ _ _ (by decide)

theorem State.applyState_armBlk (h : s.armed b = false) (late : Bool) : (s.armBlk b late).fld (.apply b) F.applyState = 1 := by
  rw [State.fld, State.rd_armBlk h]
  exact State.applyState_setApply _ _ _ _ (by decide)

theorem State.mem_late_armBlk (h : s.armed b = false) : b ∈ (s.armBlk b true).late := by
  rw [State.armBlk_of_not_armed h]
  simp

theorem State.rd_armBlk_ne (s : State) (late : Bool) (harm : x.addr ≠ (Reg.arm b).addr) (happly : x.addr ≠ (Reg.apply b).addr) :
    (s.armBlk b late).rd x = s.rd x := by
  cases h : s.armed b with
  | true => rw [State.armBlk_of_armed h]
  | false => rw [State.rd_armBlk h, State.rd_setApply_ne _ _ _ happly, State.rd_setFld_ne _ _ _ harm]

/-- Registers, shadows and late requests are no stores. -/
theorem State.sameStores_of_changes (h : s.changes [.regs, .shadow, .late] u) : s.sameStores u :=
  ⟨h.same .rows, h.same .lpddr, h.same .window, h.same .ctrs, h.same .tasks, h.same .engs, h.same .chans, h.same .jobs, h.same .parts,
    h.same .ports, h.same .gates, h.same .fw, h.same .nv, h.same .shape, h.same .pending⟩

theorem State.armBlk_frame (s : State) (b : Blk) (late : Bool) : (s.armBlk b late).shadow = s.shadow ∧ s.sameStores (s.armBlk b late) := by
  have h := State.changes_armBlk (s := s) b late
  exact ⟨h.same .shadow, State.sameStores_of_changes (h.after .refl)⟩

theorem State.disarm_sameStores (s : State) (b : Blk) : (s.disarm b).shadow = s.shadow ∧ s.sameStores (s.disarm b) := by
  have h := State.changes_disarm (s := s) b
  exact ⟨h.same .shadow, State.sameStores_of_changes (h.after .refl)⟩

theorem State.armWrite_of_down (h : s.unitUp (Reg.arm b).addr = false) (k : State → State) :
    s.armWrite b k = s.busError agentMgmt (Reg.arm b).addr := by simp [State.armWrite, h]

theorem State.armWrite_of_reset (h : s.unitUp (Reg.arm b).addr = true) (hr : s.inReset (Reg.arm b).addr = true) (k : State → State) :
    s.armWrite b k = s.emit (.access agentMgmt 2 0 0) := by simp [State.armWrite, h, hr, State.resetAnswer]

theorem State.armWrite_of_up (h : s.unitUp (Reg.arm b).addr = true) (hr : s.inReset (Reg.arm b).addr = false) (k : State → State) :
    s.armWrite b k = k s := by simp [State.armWrite, h, hr]

theorem exec_arm (hb : blkOk b = true) (late : Bool) (s : State) :
    exec (.arm b late) s = .next (s.armWrite b fun s => s.armBlk b late) := by simp [exec, execArm, hb]

theorem exec_disarm (hb : blkOk b = true) (withArm : Bool) (s : State) :
    exec (.disarm b withArm) s = .next (s.armWrite b fun s => s.disarm b) := by simp [exec, execDisarm, hb]

/-! The beat's registers (R34, R35). -/

theorem State.reach_beatNumberSet {a : Nat} (h : isMgmt a = true) (s : State) : s.reach a (Reg.addr .beatNumberSet) = some .beatNumberSet := by
  have hu : s.unitUp (Reg.addr .beatNumberSet) = true := rfl
  have ha : Reg.ofAddr (Reg.addr .beatNumberSet) = some .beatNumberSet := by decide
  simp [State.reach, ha, hu, agentReaches, h]

theorem setBits_full (w v : Word) : setBits w 0 64 (bits v 0 64) = v := by
  refine BitVec.eq_of_getLsbD_eq fun i hi => ?_
  rw [getLsbD_setBits, testBit_bits]
  simp [hi]

end Sys2Proof.Machine

open Sys2Proof.Machine

/-- Settles O1. -/
theorem stepRunsFrontCommand : Obligations.StepRunsFrontCommand := fun _ _ _ => rfl

/-- Settles O2. -/
theorem emptyQueueIdles : Obligations.EmptyQueueIdles := by
  unfold Obligations.EmptyQueueIdles
  intro s h
  simp only [step, h]

/-- Settles O4: the stores and register files of the reset state are empty. -/
theorem storesCanonicalAtReset : Obligations.StoresCanonicalAtReset := rfl

/-- Settles O6: the fields of a register lie apart, so the field-by-field write leaves in each what its own access type says. -/
theorem registerWriteByAccessType : Obligations.RegisterWriteByAccessType := by
  unfold Obligations.RegisterWriteByAccessType
  intro a addr v s r ha hr ho hv
  have hs := hasShadow_of_ownRow ho
  have hrow : exec (.registerWrite a addr v) s = .next (s.agentWrite a addr v) := by
    simp [exec_registerWrite_of_reach hr, ha, ho]
  refine ⟨fun hreset => ?_, fun g n i hw hreset hheld => ?_, fun hreset hw => ⟨_, hrow, ?_⟩⟩
  · rw [hrow, State.agentWrite_of_reset hr hreset]
  · subst hw
    rw [hrow, State.agentWrite_of_value hr hreset hv, State.regWrite_of_held hheld, State.markWrite_of_no_shadow hs]
  · rw [State.agentWrite_of_value hr hreset hv, State.regWrite_of_no_shadow hs hw, State.markWrite_of_no_shadow hs]
    refine ⟨fun f hf => ?_, fun x hx => State.rd_wr_ne s _ hx, rfl, s.sameStores_refl⟩
    rw [State.rd_emit, State.rd_wr_same]
    exact bits_foldl_writeField_after r.fields_pairwise_apart hf (Reg.fields_within hf) _ v

/-- Settles O8: both rows answer such an access with the bus error, which posts its event and no more. -/
theorem faultingAccessIsNotPerformed : Obligations.FaultingAccessIsNotPerformed := by
  unfold Obligations.FaultingAccessIsNotPerformed
  intro a addr v s ha hr
  have hf := State.changes_busError (s := s) a addr
  refine ⟨s.busError a addr, ?_, ?_, rfl, State.busError_shadow .., hf.same .rows, hf.same .lpddr⟩
  · simp [exec, execRegisterWrite, ha, hr, State.agentWrite_of_not_reached hr]
  · simp [exec, execShadowWrite, ha, hr, State.agentWrite_of_not_reached hr]

/-- Settles O10: a write that reaches the unit sets or cancels the block's request, in ARM and APPLY alone. -/
theorem armAndDisarm : Obligations.ArmAndDisarm := by
  unfold Obligations.ArmAndDisarm
  intro b late withArm s hb
  rw [exec_arm hb, exec_disarm hb]
  refine ⟨fun hup => ?_, fun hup hr => ?_, fun hup hr => ?_⟩
  · simp only [State.armWrite_of_down hup, and_self]
  · simp only [State.armWrite_of_reset hup hr, and_self]
  · simp only [State.armWrite_of_up hup hr]
    obtain ⟨harm, hdisarm⟩ := And.intro (s.armBlk_frame b late) (s.disarm_sameStores b)
    refine ⟨⟨_, rfl, s.armed_armBlk b late, fun h => ⟨State.applyState_armBlk h late, ?_⟩, fun x => s.rd_armBlk_ne late, harm⟩,
      _, rfl, s.armed_disarm b, State.applyState_disarm, fun x => s.rd_disarm_ne, hdisarm⟩
    rintro rfl
    exact State.mem_late_armBlk h

/-- Settles O11: BEAT_NUMBER_SET is a register with a shadow whose write leaves a mark, and RUN lies apart from CARRY_LIMIT. -/
theorem beatRunAndNumberSet : Obligations.BeatRunAndNumberSet := by
  unfold Obligations.BeatRunAndNumberSet
  refine ⟨fun s => ⟨_, rfl, ?_, ?_, fun m => ⟨_, rfl⟩, fun x hx => s.rd_setFld_ne _ _ hx, rfl, s.sameStores_refl⟩, fun a v s ha => ?_⟩
  · exact State.flag_of_fld_one (s.fld_setFld_same .beatCtrl F.beatCtrlRun 1 (by decide))
  · exact s.fld_setFld_apart _ _ _ _ (by decide)
  · have hr := State.reach_beatNumberSet ha s
    have hb : Reg.block .beatNumberSet = some .beat := rfl
    have hreset : s.inReset (Reg.addr .beatNumberSet) = false := rfl
    have hc : controlAgent a = true := by simp [controlAgent, ha]
    obtain ⟨harm, happly⟩ := Reg.addr_ne_of_block hb (State.numberInTable_of_reach hr)
    refine ⟨s.agentWrite a (Reg.addr .beatNumberSet) v, by simp [exec, execBeatNumberSetWrite, hc], ?_, ?_, ?_,
      State.armed_agentWrite_of_block hr rfl hb hreset, State.agentWrite_of_block_frame hr rfl hb hreset⟩
    · rw [State.rdS_agentWrite_of_block hr rfl hb hreset]
      exact (State.rdS_wrS_same ..).trans (setBits_full ..)
    · rw [State.agentWrite_of_block hr rfl hb hreset]
      rfl
    · have hx : (Reg.beatNumber).addr ≠ (Reg.beatNumberSet).addr := by decide
      have harm' : (Reg.beatNumber).addr ≠ (Reg.arm .beat).addr := by decide
      have happly' : (Reg.beatNumber).addr ≠ (Reg.apply .beat).addr := by decide
      rw [State.beatNo, State.rd_agentWrite_of_block hr rfl hb hreset harm' happly', State.rd_written_ne s v hx]
      rfl
end

section
/-! What a task's commands find in rows and do to them (Table 8-2), and what issuing one leaves of the task and of the registers (R164 to R166). -/

-- The frame conditions are evaluated in the kernel: theorems elaborated in parallel would each hold a thread while they wait for it.
set_option Elab.async false

namespace Sys2Proof.Machine

variable {s u v : State} {t k : Task} {r : RowRef} {rs : List RowRef} {w : CmdWord} {core id : Nat}

/-! Tasks, read after a write of one. -/

theorem State.task?_modTask_same (h : s.task? id = some t) {f : Task → Task} (hf : ∀ x, (f x).id = x.id) :
    (s.modTask id f).task? id = some (f t) := by
  simp only [State.task?, State.modTask] at h ⊢
  generalize s.tasks = l at h ⊢
  induction l with
  | nil => cases h
  | cons x l ih =>
    by_cases hx : x.id = id
    · simp only [List.find?_cons, beq_iff_eq.2 hx, Option.some.injEq] at h
      subst h
      simp [hx, hf]
    · have hb : (x.id == id) = false := by simpa using hx
      simp only [List.find?_cons, hb] at h
      simp [hx, hb, ih h]

theorem State.mem_modTask {f : Task → Task} {x : Task} (h : x ∈ (s.modTask id f).tasks) :
    ∃ y ∈ s.tasks, x = if y.id = id then f y else y := by
  obtain ⟨y, hy, rfl⟩ := List.mem_map.1 h
  exact ⟨y, hy, rfl⟩

/-- The tasks of a number are one task: as after every write of it. -/
def State.holdsTask (s : State) (t : Task) : Prop := s.task? t.id = some t ∧ ∀ x ∈ s.tasks, x.id = t.id → x = t

theorem State.holdsTask_setTask (t : Task) (h : (s.task? t.id).isSome = true) : (s.setTask t).holdsTask t := by
  refine ⟨s.task?_setTask_same t h, fun x hx hid => ?_⟩
  obtain ⟨y, -, rfl⟩ := List.mem_map.1 hx
  by_cases hy : y.id = t.id
  · simp [hy]
  · simp [hy] at hid

theorem State.holdsTask_of_tasks (h : s.holdsTask t) (e : u.tasks = s.tasks) : u.holdsTask t := by
  simpa only [State.holdsTask, State.task?, e] using h

theorem State.holdsTask_setTask_ne (h : s.holdsTask t) (hk : k.id ≠ t.id) : (s.setTask k).holdsTask t := by
  refine ⟨(State.task?_setTask_ne s hk.symm).trans h.1, fun x hx hid => ?_⟩
  obtain ⟨y, hy, rfl⟩ := List.mem_map.1 hx
  by_cases hyk : y.id = k.id
  · simp [hyk] at hid
    exact absurd hid hk
  · simp [hyk] at hid ⊢
    exact h.2 y hy hid

/-! A task that issues, and its place after the command (R164 to R166). -/

theorem State.running_eq_some (h : s.running core = some t) : t.stat = .running ∧ t.core = core ∧ t ∈ s.tasks := by
  have hp := List.find?_some h
  simp only [Bool.and_eq_true, decide_eq_true_eq, beq_iff_eq] at hp
  exact ⟨hp.1, hp.2, List.mem_of_find?_eq_some h⟩

/-- A task that issues its next command word: it runs on the core, and nothing it has issued waits. -/
theorem State.nextCmd_eq_some (h : s.nextCmd core = some (t, w)) :
    s.task? t.id = some t ∧ t.stat = .running ∧ t.core = core ∧ t.flight = none ∧ s.heldUp t = false := by
  unfold State.nextCmd at h
  split at h
  · cases h
  · next x hr =>
    split at h
    · cases h
    · next hx =>
      have ht : x = t := by
        split at h
        · exact (Prod.mk.inj (Option.some.inj h)).1
        · cases h
      subst ht
      obtain ⟨hstat, hcore, -⟩ := State.running_eq_some hr
      simp only [State.waiting, Bool.or_eq_true, Bool.not_eq_true', decide_eq_false_iff_not, not_or, Bool.not_eq_true, not_not] at hx
      exact ⟨hx.2, hstat, hcore, by simpa using hx.1.2.1, hx.1.2.2⟩

/-- A task after one more command: its position moves on; after its last word, or after ctl.end, it completes. -/
def Task.issued (t : Task) (last : Bool) (prog : SMap (Option Row)) : Task :=
  if last || decide (t.progLen ≤ t.pc + 1) then { t with pc := t.pc + 1, prog := prog, stat := .completing, doneIssue := true, why := none }
  else { t with pc := t.pc + 1, prog := prog }

@[simp] theorem Task.issued_id (l : Bool) (m : SMap (Option Row)) : (t.issued l m).id = t.id := by unfold Task.issued; split <;> rfl
@[simp] theorem Task.issued_pc (l : Bool) (m : SMap (Option Row)) : (t.issued l m).pc = t.pc + 1 := by unfold Task.issued; split <;> rfl
@[simp] theorem Task.issued_core (l : Bool) (m : SMap (Option Row)) : (t.issued l m).core = t.core := by unfold Task.issued; split <;> rfl
@[simp] theorem Task.issued_flight (l : Bool) (m : SMap (Option Row)) : (t.issued l m).flight = t.flight := by
  unfold Task.issued; split <;> rfl
@[simp] theorem Task.issued_lines (l : Bool) (m : SMap (Option Row)) : (t.issued l m).lines = t.lines := by unfold Task.issued; split <;> rfl
@[simp] theorem Task.issued_scalars (l : Bool) (m : SMap (Option Row)) : (t.issued l m).scalars = t.scalars := by
  unfold Task.issued; split <;> rfl
@[simp] theorem Task.issued_pushes (l : Bool) (m : SMap (Option Row)) : (t.issued l m).pushes = t.pushes := by
  unfold Task.issued; split <;> rfl
@[simp] theorem Task.issued_pops (l : Bool) (m : SMap (Option Row)) : (t.issued l m).pops = t.pops := by
  unfold Task.issued; split <;> rfl
@[simp] theorem Task.issued_kick (l : Bool) (m : SMap (Option Row)) : (t.issued l m).kick = t.kick := by
  unfold Task.issued; split <;> rfl

theorem Task.issued_stat_of_running (h : t.stat = .running) (m : SMap (Option Row)) :
    (t.issued false m).stat = if t.pc + 1 < t.progLen then TStat.running else .completing := by
  unfold Task.issued
  by_cases hl : t.progLen ≤ t.pc + 1
  · simp [hl, Nat.not_lt.2 hl]
  · simp [hl, Nat.lt_of_not_le hl, h]

theorem Task.issued_stat_of_last (m : SMap (Option Row)) : (t.issued true m).stat = .completing := by simp [Task.issued]

theorem State.task?_fillProg (h : s.task? id = some t) : ∃ m, (s.fillProg id).task? id = some { t with prog := m } := by
  obtain rfl := State.task?_id s h
  unfold State.fillProg
  simp only [h]
  exact ⟨_, State.task?_setTask_same _ _ (by simp [h])⟩

theorem State.nextReady_eq_some {c : Nat} (h : s.nextReady c = some t) : t ∈ s.tasks ∧ t.stat = .ready := by
  unfold State.nextReady at h
  revert h
  refine List.foldlRecOn (motive := fun o : Option Task => o = some t → t ∈ s.tasks ∧ t.stat = .ready) _ _ (fun h => nomatch h)
    fun o ho x hx h => ?_
  obtain ⟨hm, hp⟩ := List.mem_filter.1 hx
  have hready : x.stat = .ready := by
    simp only [Bool.and_eq_true, decide_eq_true_eq] at hp
    exact hp.1
  cases o with
  | none => exact Option.some.inj h ▸ ⟨hm, hready⟩
  | some y =>
    dsimp only at h
    split at h
    · exact Option.some.inj h ▸ ⟨hm, hready⟩
    · exact ho h

/-- A core that runs no task starts a READY one, if it has one. -/
theorem State.schedule_cases (s : State) (c : Nat) (sw : Bool) : s.schedule c sw = s.syncSlots c
    ∨ ∃ (k : Task) (u : State), k ∈ s.tasks ∧ k.stat = .ready ∧ u.tasks = s.tasks ∧ u.regs = s.regs
      ∧ s.schedule c sw = (u.setTask { k with stat := .running }).syncSlots c := by
  unfold State.schedule
  cases hr : s.running c with
  | some k => exact .inl rfl
  | none =>
    cases hn : s.nextReady c with
    | none => exact .inl rfl
    | some k =>
      obtain ⟨hm, hready⟩ := State.nextReady_eq_some hn
      refine .inr ⟨k, if sw then s.countCore C.coSwitches c else s, hm, hready, ?_, ?_, rfl⟩ <;> cases sw <;> rfl

/-- The task that a core chooses to run next is READY, so no other task changes. -/
theorem State.holdsTask_schedule (h : s.holdsTask t) (hs : t.stat ≠ .ready) (c : Nat) (sw : Bool) : (s.schedule c sw).holdsTask t := by
  obtain hq | ⟨k, u, hm, hready, htasks, -, hq⟩ := s.schedule_cases c sw
  · rw [hq]
    exact State.holdsTask_of_tasks h ((State.changes_syncSlots ..).same .tasks)
  · have hid : k.id ≠ t.id := fun hid => hs (h.2 k hm hid ▸ hready)
    rw [hq]
    exact State.holdsTask_of_tasks (State.holdsTask_setTask_ne (k := { k with stat := .running }) (State.holdsTask_of_tasks h htasks) hid)
      ((State.changes_syncSlots ..).same .tasks)

theorem State.holdsTask_endIssue (h : s.task? id = some t) :
    (s.endIssue id).holdsTask { t with stat := .completing, doneIssue := true, why := none } := by
  obtain rfl := State.task?_id s h
  unfold State.endIssue
  simp only [h]
  exact State.holdsTask_schedule (State.holdsTask_setTask _ (by simp [h])) (by simp) _ _

theorem State.rd_schedule_ne {x : Reg} (c : Nat) (sw : Bool) (h : x.addr ≠ (Reg.coSlots c).addr) : (s.schedule c sw).rd x = s.rd x := by
  obtain hq | ⟨k, u, -, -, -, hregs, hq⟩ := s.schedule_cases c sw
  · rw [hq]
    exact s.rd_wr_ne _ h
  · rw [hq]
    exact (State.rd_wr_ne _ _ h).trans (congrArg (fun m => SMap.get resetAt m x.addr) hregs)

theorem State.rd_endIssue_ne {x : Reg} (ht : s.task? id = some t) (h : x.addr ≠ (Reg.coSlots t.core).addr) :
    (s.endIssue id).rd x = s.rd x := by
  unfold State.endIssue
  simp only [ht]
  exact State.rd_schedule_ne _ _ h

/-- The state of a task that has issued, before it may complete. -/
def State.moved (s : State) (t : Task) : State :=
  let u := (s.setTask { t with pc := t.pc + 1 }).fillProg t.id
  u.setCore t.core { u.core t.core with active := true }

theorem State.advance_of_running (h : s.task? id = some t) (hs : t.stat = .running) (last : Bool) :
    s.advance id last = if last || decide (t.progLen ≤ t.pc + 1) then (s.moved t).endIssue id else s.moved t := by
  obtain rfl := State.task?_id s h
  simp only [State.advance, h]
  exact if_neg fun hn => hn (.inl hs)

theorem State.task?_moved (h : s.task? t.id = some t) : ∃ m, (s.moved t).task? t.id = some { t with pc := t.pc + 1, prog := m } := by
  have hput : (s.setTask { t with pc := t.pc + 1 }).task? t.id = some { t with pc := t.pc + 1 } := s.task?_setTask_same _ (by simp [h])
  exact State.task?_fillProg hput

theorem State.moved_core (s : State) (t : Task) : (s.moved t).core t.core = { s.core t.core with active := true } := by
  refine (State.core_setCore_same ..).trans ?_
  have hf : (s.setTask { t with pc := t.pc + 1 }).changes [.tasks] ((s.setTask { t with pc := t.pc + 1 }).fillProg t.id) :=
    State.changes_fillProg ..
  simp only [State.core, show _ = _ from hf.same .cores]
  rfl

/-- What issuing leaves of the task. -/
theorem State.task?_advance (h : s.task? id = some t) (hs : t.stat = .running) (last : Bool) :
    ∃ m, (s.advance id last).task? id = some (t.issued last m) := by
  obtain rfl := State.task?_id s h
  obtain ⟨m, hm⟩ := State.task?_moved h
  rw [State.advance_of_running h hs]
  unfold Task.issued
  split
  · exact ⟨m, (State.holdsTask_endIssue hm).1⟩
  · exact ⟨m, hm⟩

/-- Issuing writes one register, the display of the core's slots. -/
theorem State.rd_advance_ne {x : Reg} (h : s.task? id = some t) (hs : t.stat = .running) (last : Bool)
    (hx : x.addr ≠ (Reg.coSlots t.core).addr) : (s.advance id last).rd x = s.rd x := by
  obtain rfl := State.task?_id s h
  obtain ⟨m, hm⟩ := State.task?_moved h
  have hregs : (s.moved t).rd x = s.rd x := by
    have hf : (s.setTask { t with pc := t.pc + 1 }).changes [.tasks] ((s.setTask { t with pc := t.pc + 1 }).fillProg t.id) :=
      State.changes_fillProg ..
    exact congrArg (fun m => SMap.get resetAt m x.addr) (show _ = _ from hf.same .regs)
  rw [State.advance_of_running h hs]
  split
  · exact (State.rd_endIssue_ne hm hx).trans hregs
  · exact hregs

theorem State.changes_moved (s : State) (t : Task) : s.changes [.tasks, .cores] (s.moved t) :=
  (State.changes_setCore ..).after ((State.changes_fillProg ..).after ((State.changes_setTask ..).after .refl))

theorem State.heldUp_advance (h : s.task? id = some t) (hs : t.stat = .running) (last : Bool) (hk : k.id = t.id) (hc : k.core = t.core) :
    (s.advance id last).heldUp k = s.heldUp t := by
  have hengs : (s.advance id last).engs = s.engs := (State.changes_advance (s := s) id last).same .engs
  have hcore : (s.advance id last).core t.core = { s.core t.core with active := true } := by
    obtain rfl := State.task?_id s h
    rw [State.advance_of_running h hs, ← State.moved_core]
    split
    · exact congrArg (fun m => SMap.get (fun _ => Core.init) m t.core) (show _ = _ from (State.changes_endIssue (s := s.moved t) t.id).same .cores)
    · rfl
  simp only [State.heldUp, State.eng, hengs, hc, hk, hcore]

/-- A task with nothing that waits goes on. -/
theorem State.pause_of_not_waiting (h : s.task? id = some t) (hw : s.waiting t = false) : s.pause id = s := by
  simp [State.pause, h, hw]

/-- A command that has had its effect at its issue leaves its task one word on. -/
theorem State.settle_done {q : Cmd} (hop : cwOp q.word ≠ 0x26) (h : u.task? t.id = some k) (hs : k.stat = .running)
    (hf : k.flight = none) (hu : u.heldUp k = false) : s.settle t q true (.done u) = u.advance t.id (cwOp q.word == 0) := by
  have hid : k.id = t.id := State.task?_id u h
  obtain ⟨m, hm⟩ := State.task?_advance h hs (cwOp q.word == 0)
  have hw : (u.advance t.id (cwOp q.word == 0)).waiting (k.issued (cwOp q.word == 0) m) = false := by
    simp [State.waiting, hf, State.heldUp_advance (k := k.issued (cwOp q.word == 0) m) h hs _ (by simp) (by simp), hu]
  simp [State.settle, State.pause_of_not_waiting hm hw, State.bufFreed, hop]

/-- What a task's command may leave of it: another place, other data, the same place in its program. -/
def Task.sameIssue (t k : Task) : Prop := k.stat = t.stat ∧ k.core = t.core ∧ k.pc = t.pc ∧ k.flight = t.flight ∧ k.desc = t.desc

theorem Task.sameIssue_refl (t : Task) : t.sameIssue t := ⟨rfl, rfl, rfl, rfl, rfl⟩

theorem State.heldUp_congr (hk : k.id = t.id) (hc : k.core = t.core) (he : u.engs = s.engs)
    (hg : (u.core t.core).gctx = (s.core t.core).gctx) : u.heldUp k = s.heldUp t := by
  simp only [State.heldUp, State.eng, he, hk, hc, hg]

/-- A core command that has its whole effect at its issue: its task's next word, and its effect `u`, with the task one word on. -/
structure State.issues (s : State) (core : Nat) (t : Task) (w : CmdWord) (u : State) (k : Task) : Prop where
  next : s.nextCmd core = some (t, w)
  task : u.task? t.id = some k
  same : t.sameIssue k
  held : u.heldUp k = false

theorem State.issues_of_frame (hn : s.nextCmd core = some (t, w)) (htasks : u.tasks = s.tasks) (he : u.engs = s.engs)
    (hg : (u.core t.core).gctx = (s.core t.core).gctx) : s.issues core t w u t := by
  obtain ⟨htask, -, -, -, hheld⟩ := State.nextCmd_eq_some hn
  exact ⟨hn, by rwa [State.task?, htasks], t.sameIssue_refl, (State.heldUp_congr rfl rfl he hg).trans hheld⟩

section
variable (h : s.issues core t w u k) {ups : List Upset} (hop : cwOp w ≠ 0x26)
include h hop

theorem State.issues.settle_eq :
    s.settle t (s.cmd t w ups) true (.done u) = u.advance t.id (cwOp w == 0) := by
  obtain ⟨-, hstat, -, hflight, -⟩ := State.nextCmd_eq_some h.next
  obtain ⟨hs, -, -, hf, -⟩ := h.same
  exact State.settle_done hop h.task (hs.trans hstat) (hf.trans hflight) h.held

theorem State.issues.task?_settle : ∃ m, (s.settle t (s.cmd t w ups) true (.done u)).task? t.id = some (k.issued (cwOp w == 0) m) := by
  obtain ⟨-, hstat, -, -, -⟩ := State.nextCmd_eq_some h.next
  rw [h.settle_eq hop]
  exact State.task?_advance h.task (h.same.1.trans hstat) _

theorem State.issues.issuedOne_settle (h0 : cwOp w ≠ 0) : (s.settle t (s.cmd t w ups) true (.done u)).issuedOne t := by
  obtain ⟨-, hstat, -, -, -⟩ := State.nextCmd_eq_some h.next
  obtain ⟨hs, -, hpc, -, hd⟩ := h.same
  obtain ⟨m, hm⟩ := h.task?_settle (ups := ups) hop
  have hl : (cwOp w == 0) = false := by simpa using h0
  refine ⟨_, hm, by simp [hpc], ?_⟩
  rw [hl, Task.issued_stat_of_running (hs.trans hstat), hpc, Task.progLen, hd]
  rfl

theorem State.issues.rd_settle {x : Reg} (hx : x.addr ≠ (Reg.coSlots t.core).addr) :
    (s.settle t (s.cmd t w ups) true (.done u)).rd x = u.rd x := by
  obtain ⟨-, hstat, -, -, -⟩ := State.nextCmd_eq_some h.next
  obtain ⟨hs, hc, -, -, -⟩ := h.same
  rw [h.settle_eq hop]
  exact State.rd_advance_ne h.task (hs.trans hstat) _ (hc ▸ hx)

theorem State.issues.changes_settle : u.changes [.regs, .ctrs, .tasks, .cores] (s.settle t (s.cmd t w ups) true (.done u)) := by
  rw [h.settle_eq hop]
  exact State.changes_advance ..

end

end Sys2Proof.Machine
end

section
/-! Rows that a task reads, takes and writes (Table 8-2), and the commands that do no more: ctl.end, ctl.fence, tag.wait, tag.take. -/

-- The frame conditions are evaluated in the kernel: theorems elaborated in parallel would each hold a thread while they wait for it.
set_option Elab.async false

namespace Sys2Proof.Machine

variable {s u : State} {t k : Task} {r x : RowRef} {rs : List RowRef} {w : CmdWord} {core id : Nat} {take ow : Bool} {d : Row}

/-! Rows, read after a change of them. -/

theorem State.row_congr (e : u.rows = s.rows) (r : RowRef) : u.row r = s.row r := by rw [State.row, e, State.row]

theorem State.row_setRow (s : State) (r k : RowRef) (y : RowSt) : (s.setRow r y).row k = if rowKey r = rowKey k then y else s.row k := by
  simp only [State.row, State.setRow, SMap.get_put]

theorem State.row_congr_key (h : rowKey r = rowKey x) (s : State) : s.row r = s.row x := by rw [State.row, h, State.row]

theorem State.bind_rows (s : State) (id : Nat) (o : Option Nat) : (s.bind id o).rows = s.rows := by
  cases o <;> rfl

theorem State.rowsElsewhere_of_rows (h : s.rowsElsewhere u rs) {v : State} (e : v.rows = u.rows) : s.rowsElsewhere v rs :=
  fun x hx => (State.row_congr e x).trans (h x hx)

/-- A task that was bound to a writer depends on it. -/
theorem State.mem_deps_bind {j : Nat} {y : Task} (hy : y ∈ (s.bind id (some j)).tasks) (hid : y.id = id) : j ∈ y.deps := by
  obtain ⟨z, -, rfl⟩ := State.mem_modTask hy
  by_cases hz : z.id = id
  · simp only [hz, if_true]
    split
    · next hc => simpa using hc
    · simp
  · simp only [hz, if_false] at hid

/-! One row (Table 8-2). -/

theorem State.readCheck_of_free (ht : (s.row r).tag = .full) (hk : (s.row r).taker = none ∨ (s.row r).taker = some t.id) (take : Bool) :
    s.readCheck t r take = .ok none := by
  obtain hk | hk := hk <;> simp [State.readCheck, ht, hk]

/-- A FULL row that no other task holds is read, and a take marks it. -/
theorem State.readRow_of_free (ht : (s.row r).tag = .full) (hk : (s.row r).taker = none ∨ (s.row r).taker = some t.id) (take : Bool) :
    s.readRow t r take = .ok ((s.row r).data, if take then s.setRow r { s.row r with taker := some t.id } else s) := by
  simp only [State.readRow, State.readCheck_of_free ht hk]
  rfl

/-- What a write leaves of a row. -/
def RowSt.writtenBy (x : RowSt) (id : Nat) (d : Row) : RowSt := { x with data := d, tag := .pending, writer := some id, note := none }

/-- A row that the write's check lets through holds the data, PENDING for the task. -/
theorem State.writeRow_of_check {o : Option Nat} (h : s.writeCheck t r ow = .ok o) (d : Row) :
    s.writeRow t r d ow = .ok ((s.setRow r ((s.row r).writtenBy t.id d)).bind t.id o) := by
  simp only [State.writeRow, h]
  rfl

theorem State.row_written (s : State) (r x : RowRef) (d : Row) (id : Nat) (o : Option Nat) :
    ((s.setRow r ((s.row r).writtenBy id d)).bind id o).row x = if rowKey r = rowKey x then (s.row r).writtenBy id d else s.row x :=
  (State.row_congr (State.bind_rows ..) x).trans (State.row_setRow ..)

/-- Where the check lets it through, the write lands in its row alone. -/
theorem State.writeRow_lands {o : Option Nat} (h : s.writeCheck t r ow = .ok o) (d : Row) : ∃ u, s.writeRow t r d ow = .ok u
    ∧ ((u.row r).data = d ∧ (u.row r).tag = .pending ∧ (u.row r).writer = some t.id ∧ s.rowsElsewhere u [r])
    ∧ ∀ j, o = some j → ∀ x ∈ u.tasks, x.id = t.id → j ∈ x.deps := by
  refine ⟨_, State.writeRow_of_check h d, ?_, ?_⟩
  · have hr := (s.row_written r r d t.id o).trans (if_pos rfl)
    refine ⟨congrArg RowSt.data hr, congrArg RowSt.tag hr, congrArg RowSt.writer hr, ?_⟩
    exact State.rowsElsewhere_of_rows (s.rowsElsewhere_setRow r _ [r] (List.mem_singleton_self r)) (State.bind_rows ..)
  · rintro j rfl y hy hid
    exact State.mem_deps_bind hy hid

/-! Rows one after another. -/

/-- A list of rows names a row. -/
def named (rs : List RowRef) (x : RowRef) : Prop := ∃ r ∈ rs, rowKey r = rowKey x

theorem named_of_mem (h : x ∈ rs) : named rs x := ⟨x, h, rfl⟩

theorem named_cons : named (r :: rs) x ↔ rowKey r = rowKey x ∨ named rs x := by simp [named]

theorem State.rowsElsewhere_iff : s.rowsElsewhere u rs ↔ ∀ x, ¬ named rs x → u.row x = s.row x := by
  simp only [State.rowsElsewhere, named, not_exists, not_and]

/-- Rows taken by a task. -/
def State.takeRows (s : State) (id : Nat) (rs : List RowRef) : State := rs.foldl (fun u r => u.setRow r { u.row r with taker := some id }) s

/-- Rows as a task's reads leave them. -/
def State.usedRows (s : State) (id : Nat) (take : Bool) (rs : List RowRef) : State := if take then s.takeRows id rs else s

theorem State.row_takeRows_of_not_named (h : ¬ named rs x) (s : State) (id : Nat) : (s.takeRows id rs).row x = s.row x := by
  induction rs generalizing s with
  | nil => rfl
  | cons r rs ih =>
    obtain ⟨hr, hrs⟩ := not_or.1 (mt named_cons.2 h)
    exact (ih hrs _).trans ((State.row_setRow ..).trans (if_neg hr))

theorem State.row_takeRows_of_named (h : named rs x) (s : State) (id : Nat) :
    (s.takeRows id rs).row x = { s.row x with taker := some id } := by
  induction rs generalizing s with
  | nil => simp [named] at h
  | cons r rs ih =>
    show ((s.setRow r { s.row r with taker := some id }).takeRows id rs).row x = _
    by_cases hn : named rs x
    · rw [ih hn, State.row_setRow]
      split
      · next hr => rw [State.row_congr_key hr]
      · rfl
    · have hr := (named_cons.1 h).resolve_right hn
      rw [State.row_takeRows_of_not_named hn, State.row_setRow, if_pos hr, State.row_congr_key hr]

theorem State.takeRows_eq (s : State) (id : Nat) (rs : List RowRef) : s.takeRows id rs = { s with rows := (s.takeRows id rs).rows } :=
  List.foldlRecOn (motive := fun u : State => u = { s with rows := u.rows }) rs _ rfl fun u hu r _ => by rw [hu]; rfl

theorem State.usedRows_eq (s : State) (id : Nat) (take : Bool) (rs : List RowRef) :
    s.usedRows id take rs = { s with rows := (s.usedRows id take rs).rows } := by
  cases take
  · rfl
  · exact s.takeRows_eq id rs

theorem State.row_usedRows_of_mem (h : x ∈ rs) (s : State) (id : Nat) (take : Bool) :
    (s.usedRows id take rs).row x = if take then { s.row x with taker := some id } else s.row x := by
  cases take
  · rfl
  · exact State.row_takeRows_of_named (named_of_mem h) s id

theorem State.rowsElsewhere_usedRows (s : State) (id : Nat) (take : Bool) (rs : List RowRef) : s.rowsElsewhere (s.usedRows id take rs) rs := by
  cases take
  · exact fun _ _ => rfl
  · exact State.rowsElsewhere_iff.2 fun x hx => State.row_takeRows_of_not_named hx s id

/-- Using a row does not keep the task from using another. -/
theorem State.canRead_usedRows (h : s.canRead id rs) (take : Bool) (l : List RowRef) : (s.usedRows id take l).canRead id rs := by
  cases take with
  | false => exact h
  | true =>
    intro x hx
    show ((s.takeRows id l).row x).tag = .full ∧ _
    by_cases hn : named l x
    · rw [State.usedRows, if_pos rfl, State.row_takeRows_of_named hn]
      exact ⟨(h x hx).1, .inr rfl⟩
    · rw [State.usedRows, if_pos rfl, State.row_takeRows_of_not_named hn]
      exact h x hx

theorem State.canRead_append {l : List RowRef} : s.canRead id (rs ++ l) ↔ s.canRead id rs ∧ s.canRead id l := by
  simp only [State.canRead, List.mem_append, or_imp, forall_and (p := fun x => x ∈ rs → _)]

/-- Rows that the task may read are read, each with its data. -/
theorem State.readRows_of_canRead (h : s.canRead t.id rs) (take : Bool) :
    s.readRows t take rs = .ok (rs.map fun r => (s.row r).data, s.usedRows t.id take rs) := by
  induction rs generalizing s with
  | nil => cases take <;> rfl
  | cons r rs ih =>
    have hr := h r (List.mem_cons_self ..)
    have hrs : (s.usedRows t.id take [r]).canRead t.id rs := State.canRead_usedRows (fun x hx => h x (List.mem_cons_of_mem r hx)) take [r]
    have hread : s.readRow t r take = .ok ((s.row r).data, s.usedRows t.id take [r]) := by
      rw [State.readRow_of_free hr.1 hr.2]
      rfl
    have hdata : ∀ x, ((s.usedRows t.id take [r]).row x).data = (s.row x).data := fun x => by
      cases take with
      | false => rfl
      | true =>
        by_cases hn : named [r] x
        · rw [State.usedRows, if_pos rfl, State.row_takeRows_of_named hn]
        · rw [State.usedRows, if_pos rfl, State.row_takeRows_of_not_named hn]
    simp only [State.readRows, hread]
    show (do let (ds, u) ← (s.usedRows t.id take [r]).readRows t take rs; return ((s.row r).data :: ds, u) : Ex (List Row × State)) = _
    rw [ih hrs]
    simp only [hdata]
    cases take <;> rfl

/-- Rows as a task's writes of them in order leave them. -/
def State.putRows (s : State) (id : Nat) (l : List (RowRef × Row)) : State :=
  l.foldl (fun u p => u.setRow p.1 ((u.row p.1).writtenBy id p.2)) s

theorem State.putRows_eq (s : State) (id : Nat) (l : List (RowRef × Row)) : s.putRows id l = { s with rows := (s.putRows id l).rows } :=
  List.foldlRecOn (motive := fun u : State => u = { s with rows := u.rows }) l _ rfl fun u hu r _ => by rw [hu]; rfl

/-- A write of the row by the task lands: it is EMPTY, or PENDING of the task's own. -/
def State.lands (s : State) (id : Nat) (r : RowRef) : Prop := (s.row r).tag = .empty ∨ (s.row r).tag = .pending ∧ (s.row r).writer = some id

theorem State.writeCheck_of_lands (h : s.lands t.id r) (ow : Bool) : s.writeCheck t r ow = .ok none := by
  obtain h | ⟨h, hw⟩ := h <;> simp [State.writeCheck, *]

theorem State.lands_setRow (h : s.lands id x) (r : RowRef) (d : Row) : (s.setRow r ((s.row r).writtenBy id d)).lands id x := by
  unfold State.lands
  rw [State.row_setRow]
  split
  · exact .inr ⟨rfl, rfl⟩
  · exact h

/-- Rows that the task may write are written. -/
theorem State.writeRows_of_lands {l : List (RowRef × Row)} (h : ∀ p ∈ l, s.lands t.id p.1) (ow : Bool) :
    s.writeRows t ow l = .ok (s.putRows t.id l) := by
  induction l generalizing s with
  | nil => rfl
  | cons p l ih =>
    have hw : s.writeRow t p.1 p.2 ow = .ok (s.setRow p.1 ((s.row p.1).writtenBy t.id p.2)) :=
      State.writeRow_of_check (State.writeCheck_of_lands (h p (List.mem_cons_self ..)) ow) p.2
    simp only [State.writeRows, hw]
    exact ih fun q hq => State.lands_setRow (h q (List.mem_cons_of_mem p hq)) p.1 p.2

theorem State.lands_of_writable (h : s.writable rs) (hx : x ∈ rs) : s.lands id x := .inl (h x hx)

theorem State.row_putRows_of_not_named {l : List (RowRef × Row)} (h : ¬ named (l.map Prod.fst) x) (s : State) (id : Nat) :
    (s.putRows id l).row x = s.row x := by
  induction l generalizing s with
  | nil => rfl
  | cons p l ih =>
    obtain ⟨hr, hrs⟩ := not_or.1 (mt named_cons.2 h)
    exact (ih hrs _).trans ((State.row_setRow ..).trans (if_neg hr))

/-- A row that was written is PENDING for its writer, with the data of one of its writes. -/
theorem State.row_putRows_of_named {l : List (RowRef × Row)} (h : named (l.map Prod.fst) x) (s : State) (id : Nat) :
    ∃ p ∈ l, rowKey p.1 = rowKey x ∧ (s.putRows id l).row x = (s.row x).writtenBy id p.2 := by
  induction l generalizing s with
  | nil => simp [named] at h
  | cons p l ih =>
    show ∃ q ∈ p :: l, _ ∧ ((s.setRow p.1 ((s.row p.1).writtenBy id p.2)).putRows id l).row x = _
    by_cases hn : named (l.map Prod.fst) x
    · obtain ⟨q, hq, hkey, hrow⟩ := ih hn (s.setRow p.1 ((s.row p.1).writtenBy id p.2))
      refine ⟨q, List.mem_cons_of_mem p hq, hkey, hrow.trans ?_⟩
      rw [State.row_setRow]
      split
      · next hr => rw [State.row_congr_key hr]; rfl
      · rfl
    · have hr := (named_cons.1 h).resolve_right hn
      refine ⟨p, List.mem_cons_self .., hr, ?_⟩
      rw [State.row_putRows_of_not_named hn, State.row_setRow, if_pos hr, State.row_congr_key hr]

theorem State.pendingOf_putRows (s : State) (id : Nat) (l : List (RowRef × Row)) : (s.putRows id l).pendingOf id (l.map Prod.fst) := by
  intro x hx
  obtain ⟨p, -, -, hrow⟩ := State.row_putRows_of_named (named_of_mem hx) s id
  rw [hrow]
  exact ⟨rfl, rfl⟩

theorem State.rowsElsewhere_putRows (s : State) (id : Nat) (l : List (RowRef × Row)) : s.rowsElsewhere (s.putRows id l) (l.map Prod.fst) :=
  State.rowsElsewhere_iff.2 fun _ hx => State.row_putRows_of_not_named hx s id

theorem State.pendingOf_congr (h : s.pendingOf id rs) (e : u.rows = s.rows) : u.pendingOf id rs :=
  fun x hx => State.row_congr e x ▸ h x hx

theorem State.canRead_congr (h : s.canRead id rs) (e : u.rows = s.rows) : u.canRead id rs :=
  fun x hx => State.row_congr e x ▸ h x hx

theorem State.writable_congr (h : s.writable rs) (e : u.rows = s.rows) : u.writable rs :=
  fun x hx => State.row_congr e x ▸ h x hx

/-! A task in the midst of its command. -/

theorem Task.sameIssue_trans {j : Task} (h : t.sameIssue k) (g : k.sameIssue j) : t.sameIssue j :=
  ⟨g.1.trans h.1, g.2.1.trans h.2.1, g.2.2.1.trans h.2.2.1, g.2.2.2.1.trans h.2.2.2.1, g.2.2.2.2.trans h.2.2.2.2⟩

theorem State.task?_setTask_of (h : (s.task? id).isSome = true) (hk : k.id = id) : (s.setTask k).task? id = some k := by
  subst hk
  exact s.task?_setTask_same k h

/-- The state that a command of a task has brought about so far: its core's engines and gather contexts stand, and of the task only what commands
write has changed, its vector registers to `lines` and `scalars`. -/
structure State.during (s : State) (core : Nat) (t : Task) (w : CmdWord) (lines : SMap Row) (scalars : SMap F32) (u : State) : Prop where
  next : s.nextCmd core = some (t, w)
  task : ∃ k, u.task? t.id = some k ∧ t.sameIssue k ∧ k.lines = lines ∧ k.scalars = scalars
  engs : u.engs = s.engs
  gctx : (u.core t.core).gctx = (s.core t.core).gctx

theorem State.during_start (h : s.nextCmd core = some (t, w)) : s.during core t w t.lines t.scalars s :=
  ⟨h, ⟨t, (State.nextCmd_eq_some h).1, t.sameIssue_refl, rfl, rfl⟩, rfl, rfl⟩

section
variable {v : State} {L : SMap Row} {S : SMap F32} (h : s.during core t w L S u)
include h

theorem State.during.of_frame (htasks : v.tasks = u.tasks) (hengs : v.engs = u.engs) (hg : (v.core t.core).gctx = (u.core t.core).gctx) :
    s.during core t w L S v := by
  obtain ⟨k, hk, hrest⟩ := h.task
  exact ⟨h.next, ⟨k, by rwa [State.task?, htasks], hrest⟩, hengs.trans h.engs, hg.trans h.gctx⟩

/-- Registers, counters and rows are no part of it. -/
theorem State.during.of_changes {M : List Field} (k : u.changes M v) (hM : Field.within M [.rows, .regs, .ctrs, .free] = true := by decide) :
    s.during core t w L S v := by
  have k : u.changes [.rows, .regs, .ctrs, .free] v := k.after .refl hM
  have hcores : v.cores = u.cores := k.same .cores
  exact h.of_frame (k.same .tasks) (k.same .engs) (by rw [State.core, hcores, State.core])

theorem State.during.mapTask {f : Task → Task} (hid : ∀ x, (f x).id = x.id) (hsame : ∀ x : Task, x.sameIssue (f x)) (hl : ∀ x, (f x).lines = x.lines)
    (hs : ∀ x, (f x).scalars = x.scalars) : s.during core t w L S (u.modTask t.id f) := by
  obtain ⟨k, hk, hsi, rfl, rfl⟩ := h.task
  exact ⟨h.next, ⟨f k, State.task?_modTask_same hk hid, Task.sameIssue_trans hsi (hsame k), hl k, hs k⟩, h.engs, h.gctx⟩

theorem State.during.setLine (i : Nat) (r : Row) : s.during core t w (SMap.put (fun _ => 0) L i r) S (u.setLine t.id i r) := by
  obtain ⟨k, hk, hsi, rfl, rfl⟩ := h.task
  exact ⟨h.next, ⟨_, State.task?_modTask_same hk fun _ => rfl, Task.sameIssue_trans hsi ⟨rfl, rfl, rfl, rfl, rfl⟩, rfl, rfl⟩, h.engs, h.gctx⟩

theorem State.during.setScalar (i : Nat) (x : F32) : s.during core t w L (SMap.put (fun _ => 0) S i x) (u.setScalar t.id i x) := by
  obtain ⟨k, hk, hsi, rfl, rfl⟩ := h.task
  exact ⟨h.next, ⟨_, State.task?_modTask_same hk fun _ => rfl, Task.sameIssue_trans hsi ⟨rfl, rfl, rfl, rfl, rfl⟩, rfl, rfl⟩, h.engs, h.gctx⟩

theorem State.during.addFlags (g : Flags) : s.during core t w L S (u.addFlags t.id g) := by
  obtain ⟨k, hk, hsi, rfl, rfl⟩ := h.task
  have hid : k.id = t.id := State.task?_id u hk
  unfold State.addFlags
  simp only [hk]
  exact ⟨h.next, ⟨_, State.task?_setTask_of (show (u.task? t.id).isSome = true by rw [hk]; rfl) hid,
    Task.sameIssue_trans hsi ⟨rfl, rfl, rfl, rfl, rfl⟩, rfl, rfl⟩, h.engs, h.gctx⟩

theorem State.during.issues : ∃ k, s.issues core t w u k ∧ k.lines = L ∧ k.scalars = S := by
  obtain ⟨-, -, -, -, hheld⟩ := State.nextCmd_eq_some h.next
  obtain ⟨k, hk, hsi, hrest⟩ := h.task
  exact ⟨k, ⟨h.next, hk, hsi, (State.heldUp_congr (State.task?_id u hk) hsi.2.1 h.engs h.gctx).trans hheld⟩, hrest⟩

/-- The command ends: its task is one word on, with its registers; nothing else changes but the display of the slots. -/
theorem State.during.settle {ups : List Upset} (hop : cwOp w ≠ 0x26) (h0 : cwOp w ≠ 0) :
    (s.settle t (s.cmd t w ups) true (.done u)).issuedOne t
      ∧ (∃ t', (s.settle t (s.cmd t w ups) true (.done u)).task? t.id = some t' ∧ t'.lines = L ∧ t'.scalars = S)
      ∧ u.changes [.regs, .ctrs, .tasks, .cores] (s.settle t (s.cmd t w ups) true (.done u))
      ∧ ∀ x : Reg, x.addr ≠ (Reg.coSlots t.core).addr → (s.settle t (s.cmd t w ups) true (.done u)).rd x = u.rd x := by
  obtain ⟨k, hi, hl, hs⟩ := h.issues
  obtain ⟨m, hm⟩ := hi.task?_settle (ups := ups) hop
  exact ⟨hi.issuedOne_settle hop h0, ⟨_, hm, by simpa using hl, by simpa using hs⟩, hi.changes_settle hop, fun x hx => hi.rd_settle hop hx⟩

end

end Sys2Proof.Machine

open Sys2Proof.Machine

/-- Settles O20: one case of the read's check for each cell, and a row that is read changes by its taker alone. -/
theorem readsFollowTable82 : Obligations.ReadsFollowTable82 := by
  unfold Obligations.ReadsFollowTable82
  intro s t r take
  refine ⟨fun ht => ?_, fun ht => ?_, fun ht hk => ?_, fun k ht hk hne => ⟨fun hheld => ?_, fun htake hoff => ?_⟩,
    fun k ht hk hne => ⟨fun hoff => ?_, fun hon => ?_⟩⟩
  · simp only [State.readRow, State.readCheck, ht]
    rfl
  · simp only [State.readRow, State.readCheck, ht]
    rfl
  · refine ⟨_, State.readRow_of_free ht hk take, ?_, ?_, ?_⟩
    · cases take <;> rfl
    · cases take <;> simp
    · cases take
      · exact fun _ _ => rfl
      · exact s.rowsElsewhere_setRow r _ [r] (List.mem_singleton_self r)
  · have hc : s.readCheck t r take = .error (.row r (if take then .take else .peek)) := by
      obtain htake | hon := hheld
      · simp [State.readCheck, ht, hk, hne, htake]
      · simp [State.readCheck, ht, hk, hne, hon]
    simp only [State.readRow, hc]
    rfl
  · subst htake
    have hc : s.readCheck t r false = .ok none := by simp [State.readCheck, ht, hk, hoff]
    simp only [State.readRow, hc]
    rfl
  · have hc : s.readCheck t r take = .error (.row r (if take then .take else .peek)) := by simp [State.readCheck, ht, hk, hoff]
    simp only [State.readRow, hc]
    rfl
  · have hc : s.readCheck t r take = .ok (some k) := by simp [State.readCheck, ht, hk, hon, hne]
    refine ⟨((if take then s.setRow r { s.row r with taker := some t.id } else s).bind t.id (some k)), ?_,
      fun x hx hid => State.mem_deps_bind hx hid, ?_, ?_⟩
    · simp only [State.readRow, hc]
      rfl
    · rw [State.row_congr (State.bind_rows ..)]
      cases take <;> simp [ht]
    · refine State.rowsElsewhere_of_rows ?_ (State.bind_rows ..)
      cases take
      · exact fun _ _ => rfl
      · exact s.rowsElsewhere_setRow r _ [r] (List.mem_singleton_self r)

/-- Settles O21: one case of the write's check for each cell; where it lets the write through, the row holds the data. -/
theorem writesFollowTable82 : Obligations.WritesFollowTable82 := by
  unfold Obligations.WritesFollowTable82
  intro s t r d ow landed
  have lands : ∀ {o}, s.writeCheck t r ow = .ok o → ∃ u, s.writeRow t r d ow = .ok u ∧ landed u := fun h => by
    obtain ⟨u, hu, hl, -⟩ := State.writeRow_lands h d
    exact ⟨u, hu, hl⟩
  have waits : s.writeCheck t r ow = .error (.row r (if ow then .over else .write)) →
      s.writeRow t r d ow = .error (.row r (if ow then .over else .write)) := fun h => by
    simp only [State.writeRow, h]
    rfl
  refine ⟨fun ht => ?_, fun ht hw => ?_, fun ht how hk => ?_, fun ht hw => ?_, fun k ht hw hne => ⟨fun hoff => ?_, fun how hon => ?_⟩⟩
  · obtain ht | ht := ht <;> exact lands (o := none) (by simp [State.writeCheck, ht])
  · refine waits ?_
    obtain how | hk := hw
    · simp [State.writeCheck, ht, how]
    · simp [State.writeCheck, ht, Option.isNone_iff_eq_none, hk]
  · exact lands (o := none) (by simp [State.writeCheck, ht, how, hk])
  · exact lands (o := none) (by simp [State.writeCheck, ht, hw])
  · refine waits ?_
    obtain how | hoff := hoff
    · simp [State.writeCheck, ht, hw, hne, how]
    · simp [State.writeCheck, ht, hw, hne, hoff]
  · obtain ⟨u, hu, hl, hdeps⟩ := State.writeRow_lands (s := s) (o := some k) (ow := ow) (r := r) (t := t)
      (by simp [State.writeCheck, ht, hw, hne, how, hon]) d
    exact ⟨u, hu, hl, hdeps k rfl⟩
end

section
/-! The commands that move no data: ctl.end, ctl.fence, tag.wait, tag.take (R159, R164 to R166). -/

-- The frame conditions are evaluated in the kernel: theorems elaborated in parallel would each hold a thread while they wait for it.
set_option Elab.async false

namespace Sys2Proof.Machine

variable {s u : State} {t k : Task} {r x : RowRef} {rs : List RowRef} {w : CmdWord} {core id : Nat}

/-! Commands that run to their end at their issue. -/

theorem require_true : require true = (.ok () : Ex Unit) := rfl

@[simp] theorem State.cmd_word (s : State) (t : Task) (w : CmdWord) (ups : List Upset) : (s.cmd t w ups).word = w := rfl

theorem issue_runs {op : Nat} {f : Task → CmdWord → State → Ex State} (h : core < 2304) (hn : s.nextCmd core = some (t, w)) (ho : cwOp w = op)
    (hc : opCodes.contains op = true) (he : f t w s = .ok u) : issue op core s f = .next (s.settle t (s.cmd t w []) true (.done u)) := by
  refine (issueRun_runs h hn ho hc).trans ?_
  rw [show (s.cmd t w []).word = w from rfl, he]
  rfl

/-- A command that moves rows one by one, none of which waits, ends: what holds before each step with its number holds at the end. -/
theorem Run.rows_done {f : State → Progress → Ex (State × Progress)} {fin : State → Progress → State} {n : Nat} {p : Progress}
    (I : Nat → State → Progress → Prop) (step : ∀ i v q, i < n → I i v q → ∃ v' q', f v q = .ok (v', q') ∧ I (i + 1) v' q') (h : I 0 s p) :
    ∃ v q, Run.rows f fin n p s = .done (fin v q) ∧ I n v q := by
  suffices ∀ k i v q, i + k = n → I i v q → ∃ v' q', Run.rows f fin k q v = .done (fin v' q') ∧ I n v' q' from
    this n 0 s p (Nat.zero_add n) h
  intro k
  induction k with
  | zero => exact fun i v q hi hv => ⟨v, q, rfl, by rwa [← hi]⟩
  | succ k ih =>
    intro i v q hi hv
    obtain ⟨v', q', hf, hI⟩ := step i v q (by omega) hv
    obtain ⟨v'', q'', hr, hn⟩ := ih (i + 1) v' q' (by omega) hI
    refine ⟨v'', q'', ?_, hn⟩
    simp only [Run.rows, hf]
    exact hr

theorem rowAt_of_lt {i : Nat} (h : i < rs.length) : rowAt rs i = rs[i] := by simp [rowAt, h]

theorem State.takeRows_concat (s : State) (id : Nat) (rs : List RowRef) (r : RowRef) :
    s.takeRows id (rs ++ [r]) = (s.takeRows id rs).setRow r { (s.takeRows id rs).row r with taker := some id } := by
  simp [State.takeRows]

/-- tag.take takes the rows that it may read. -/
theorem State.tagTake_done {q : Cmd} (hq : q.left = .init) (hc : s.issueChecks t (tagRows t q.word) [] (!stray q.word tagFields) = .ok ())
    (h : s.canRead t.id (tagRows t q.word)) : s.tagTake t q = .done (s.takeRows t.id (tagRows t q.word)) := by
  unfold State.tagTake
  simp only [hc, Run.checked, hq]
  generalize tagRows t q.word = rows at h
  obtain ⟨v, p, hr, -, rfl⟩ := Run.rows_done (s := s) (p := .init) (n := rows.length) (fin := fun s _ => s)
    (f := fun s p => (s.readRow t (rowAt rows p.rows) true).map fun r => (r.2, p.next))
    (fun i v p => p.rows = i ∧ v = s.takeRows t.id (rows.take i)) (by
      rintro i v p hi ⟨hp, rfl⟩
      have hat := (State.canRead_usedRows h true (rows.take i)) rows[i] (List.getElem_mem hi)
      refine ⟨_, p.next, ?_, congrArg (· + 1) hp, rfl⟩
      rw [hp, rowAt_of_lt hi, List.take_succ_eq_append_getElem hi, State.takeRows_concat]
      exact congrArg (Except.map _) (State.readRow_of_free hat.1 hat.2 true)) ⟨rfl, rfl⟩
  rwa [List.take_length] at hr

end Sys2Proof.Machine

open Sys2Proof.Machine

/-- Settles O18: none of the three changes anything but the place of its task. -/
theorem controlCommandsIssue : Obligations.ControlCommandsIssue := by
  unfold Obligations.ControlCommandsIssue
  intro core s t w hcore hn
  have hd := State.during_start hn
  refine ⟨fun hop hs => ?_, fun hop hs => ⟨fun hi => ?_, fun hi => ?_⟩, fun hop hc hfull => ?_⟩
  · obtain ⟨k, hi, -, -⟩ := hd.issues
    have h26 : cwOp w ≠ 0x26 := by rw [hop]; decide
    obtain ⟨m, hm⟩ := hi.task?_settle (ups := []) h26
    have hf := hi.changes_settle (ups := []) h26
    refine ⟨_, _, show execCtlEnd core s = _ from issue_runs hcore hn hop rfl (u := s) ?_, hm, ?_, ?_, hf.same .rows, hf.same .lpddr, fun x hx => hi.rd_settle h26 hx⟩
    · rw [hs]
      rfl
    · simpa [hop] using Task.issued_stat_of_last m
    · simpa using hi.same.2.2.1
  · show execCtlFence core s = _
    rw [execCtlFence, issue, issueRun_runs hcore hn hop rfl]
    simp only [State.cmd_word, hs, hi]
    rfl
  · obtain ⟨hone, -, hf, hrd⟩ := hd.settle (ups := []) (by rw [hop]; decide) (by rw [hop]; decide)
    refine ⟨_, show execCtlFence core s = _ from issue_runs hcore hn hop rfl (u := s) ?_, hone, hf.same .rows, hf.same .lpddr, hrd⟩
    simp only [hs, hi]
    rfl
  · obtain ⟨hone, -, hf, hrd⟩ := hd.settle (ups := []) (by rw [hop]; decide) (by rw [hop]; decide)
    refine ⟨_, show execTagWait core s = _ from issue_runs hcore hn hop rfl (u := s) ?_, hone, hf.same .rows, hf.same .lpddr, hrd⟩
    have hp : (tagRows t w).find? (fun r => decide ((s.row r).tag = .poison)) = none :=
      List.find?_eq_none.2 fun r hr => by simp [hfull r hr]
    have hw : (tagRows t w).find? (fun r => decide ((s.row r).tag ≠ .full)) = none :=
      List.find?_eq_none.2 fun r hr => by simp [hfull r hr]
    simp only [State.tagWait, hc, hp, hw]
    rfl

/-- Settles O19: each row is taken in turn, and a row taken may still be read by its taker. -/
theorem tagTakeTakesRows : Obligations.TagTakeTakesRows := by
  unfold Obligations.TagTakeTakesRows
  intro core s t w hcore hn hop hc hread
  have hd : s.during core t w t.lines t.scalars (s.takeRows t.id (tagRows t w)) := by
    rw [State.takeRows_eq]
    exact (State.during_start hn).of_frame rfl rfl rfl
  obtain ⟨hone, -, hf, hrd⟩ := hd.settle (ups := []) (by rw [hop]; decide) (by rw [hop]; decide)
  refine ⟨_, ?_, hone, fun r hr => ?_, ?_, ?_, fun x hx => (hrd x hx).trans ?_⟩
  · show issueRun 0x60 core [] s (fun t q s => s.tagTake t q) = _
    rw [issueRun_runs hcore hn hop rfl, State.tagTake_done (q := s.cmd t w []) rfl hc hread, State.cmd_word]
  · exact (State.row_congr (hf.same .rows) r).trans (State.row_takeRows_of_named (named_of_mem hr) s t.id)
  · exact State.rowsElsewhere_of_rows (s.rowsElsewhere_usedRows t.id true (tagRows t w)) (hf.same .rows)
  · exact (show _ = _ from hf.same .lpddr).trans (by rw [State.takeRows_eq])
  · rw [State.takeRows_eq]
    rfl
end

section
/-! The vector unit's loads, stores and arithmetic (R106 to R111): what they leave in registers, and the row of a store. -/

-- The frame conditions are evaluated in the kernel: theorems elaborated in parallel would each hold a thread while they wait for it.
set_option Elab.async false

namespace Sys2Proof.Machine

variable {s u v : State} {t k : Task} {r x : RowRef} {rs : List RowRef} {w : CmdWord} {core id : Nat} {L : SMap Row} {S : SMap F32}

theorem Ex.ok_bind {α β : Type} (a : α) (f : α → Ex β) : (Except.ok a >>= f) = f a := rfl

theorem State.data_usedRows (s : State) (id : Nat) (take : Bool) (rs : List RowRef) (x : RowRef) :
    ((s.usedRows id take rs).row x).data = (s.row x).data := by
  cases take with
  | false => rfl
  | true =>
    by_cases hn : named rs x
    · rw [State.usedRows, if_pos rfl, State.row_takeRows_of_named hn]
    · rw [State.usedRows, if_pos rfl, State.row_takeRows_of_not_named hn]

/-- A command whose row it is and that has its whole effect at its issue. -/
theorem issueRun_done {op : Nat} {ups : List Upset} {f : Task → Cmd → State → Run} (h : core < 2304) (hn : s.nextCmd core = some (t, w))
    (ho : cwOp w = op) (he : f t (s.cmd t w ups) s = .done u) (hd : s.during core t w L S u)
    (hop : (opCodes.contains op && op != 0x26 && op != 0) = true := by decide) :
    ∃ v, issueRun op core ups s f = .next v ∧ v.issuedOne t ∧ (∃ t', v.task? t.id = some t' ∧ t'.lines = L ∧ t'.scalars = S)
      ∧ u.changes [.regs, .ctrs, .tasks, .cores] v ∧ ∀ x : Reg, x.addr ≠ (Reg.coSlots t.core).addr → v.rd x = u.rd x := by
  simp only [Bool.and_eq_true, bne_iff_ne] at hop
  obtain ⟨⟨hc, h26⟩, h0⟩ := hop
  exact ⟨_, (issueRun_runs h hn ho hc).trans (by rw [he]), hd.settle (ho ▸ h26) (ho ▸ h0)⟩

theorem issue_done {op : Nat} {f : Task → CmdWord → State → Ex State} (h : core < 2304) (hn : s.nextCmd core = some (t, w))
    (ho : cwOp w = op) (he : f t w s = .ok u) (hd : s.during core t w L S u)
    (hop : (opCodes.contains op && op != 0x26 && op != 0) = true := by decide) :
    ∃ v, issue op core s f = .next v ∧ v.issuedOne t ∧ (∃ t', v.task? t.id = some t' ∧ t'.lines = L ∧ t'.scalars = S)
      ∧ u.changes [.regs, .ctrs, .tasks, .cores] v ∧ ∀ x : Reg, x.addr ≠ (Reg.coSlots t.core).addr → v.rd x = u.rd x :=
  issueRun_done (ups := []) h hn ho (by rw [State.cmd_word, he]; rfl) hd hop

theorem State.canRead_subset {l : List RowRef} (h : s.canRead id l) (hs : rs ⊆ l) : s.canRead id rs := fun x hx => h x (hs hx)

theorem State.readRow_of_canRead (h : s.canRead t.id [r]) (take : Bool) :
    s.readRow t r take = .ok ((s.row r).data, s.usedRows t.id take [r]) := by
  obtain ⟨ht, hk⟩ := h r (List.mem_singleton_self r)
  exact State.readRow_of_free ht hk take

theorem State.during.usedRows (h : s.during core t w L S u) (id : Nat) (take : Bool) (rs : List RowRef) :
    s.during core t w L S (u.usedRows id take rs) := by
  rw [State.usedRows_eq]
  exact h.of_frame rfl rfl rfl

theorem State.during.putRows (h : s.during core t w L S u) (id : Nat) (l : List (RowRef × Row)) : s.during core t w L S (u.putRows id l) := by
  rw [State.putRows_eq]
  exact h.of_frame rfl rfl rfl

theorem State.gctx_draw (s : State) (c : Nat) : ((s.draw c).2.core c).gctx = (s.core c).gctx := by
  unfold State.draw
  split
  · exact (congrArg Core.gctx (s.core_setCore_same c { s.core c with rng := (xorshift (s.core c).rng).1 })).trans rfl
  · rfl

theorem State.gctx_draws (s : State) (c n : Nat) : ((s.draws c n).2.core c).gctx = (s.core c).gctx := by
  induction n generalizing s with
  | zero => rfl
  | succ n ih => exact (ih _).trans (s.gctx_draw c)

theorem State.gctx_roundings (s : State) (c round n : Nat) : ((s.roundings c round n).2.core c).gctx = (s.core c).gctx := by
  unfold State.roundings
  split
  · rfl
  · split
    · rfl
    · exact s.gctx_draws c n

theorem State.during.roundings (h : s.during core t w L S u) (round n : Nat) : s.during core t w L S (u.roundings t.core round n).2 :=
  have hf := State.changes_roundings (s := u) t.core round n
  h.of_frame (hf.same .tasks) (hf.same .engs) (u.gctx_roundings t.core round n)

theorem State.during.packFor (h : s.during core t w L S u) (f : Fmt) (round : Nat) (vals : List Num) :
    s.during core t w L S (u.packFor t f round vals).2.2 := (h.roundings round f.perRow).addFlags _

/-- Without stochastic rounding a row is packed to nearest. -/
theorem State.packFor_of_rne {round : Nat} (h : s.wantsSr t.core round = false) (f : Fmt) (vals : List Num) :
    (s.packFor t f round vals).1 = (packRow f (s.sat t.core) (List.replicate f.perRow .rne) vals).1 := by
  simp [State.packFor, State.roundings, h]

theorem outputs_of_mayWrite {l : List Nat} (h : ∀ n ∈ l, t.mayWrite n = true) : outputs t l = .ok () := if_pos (List.all_eq_true.2 h)

theorem Task.line_of_put {i : Nat} {d : Row} (h : k.lines = SMap.put (fun _ => 0) L i d) (j : Nat) :
    k.line j = if i = j then d else SMap.get (fun _ => 0) L j := by
  unfold Task.line
  rw [h, SMap.get_put]

theorem Task.scalar_of_put {i : Nat} {y : F32} (h : k.scalars = SMap.put (fun _ => 0) S i y) (j : Nat) :
    k.scalar j = if i = j then y else SMap.get (fun _ => 0) S j := by
  unfold Task.scalar
  rw [h, SMap.get_put]

/-- A vu.ld of rows that the task may read: one line of the row, widened, in its line register. -/
theorem State.vuLd_of_canRead {f : Fmt} (hfmt : Fmt.ofCode (cwFmt w) = some f)
    (hc : s.issueChecks t (vuLdRows t w f) [] (!stray w (vuLdUsed f) && decide (bits w 62 3 < f.lines)) = .ok ())
    (hread : s.canRead t.id (vuLdRows t w f)) :
    ∃ g, s.vuLd t w = .ok (((s.usedRows t.id (cwAcc w) [.near t.core (bits w 32 13)]).setLine t.id (bits w 58 4)
      (ofRow32 ((lineAt f (s.row (.near t.core (bits w 32 13))).data (if f.sidecar then (s.row (.near t.core (bits w 45 13))).data else 0)
        (bits w 32 13 % f.served) (bits w 62 3)).map fun v => (lane [v] v).1))).addFlags t.id g) := by
  have hrow := State.readRow_of_canRead (State.canRead_subset hread (rs := [.near t.core (bits w 32 13)]) (by simp [vuLdRows])) (cwAcc w)
  cases hs : f.sidecar with
  | false =>
    simp only [State.vuLd, hfmt, hc, Ex.ok_bind, hrow, hs, List.map_map]
    exact ⟨_, rfl⟩
  | true =>
    have hscale : s.canRead t.id [.near t.core (bits w 45 13)] := State.canRead_subset hread (by simp [vuLdRows, hs])
    have hscale := State.readRows_of_canRead (State.canRead_usedRows hscale (cwAcc w) [.near t.core (bits w 32 13)]) false
    simp only [State.data_usedRows] at hscale
    simp only [State.vuLd, hfmt, hc, Ex.ok_bind, hrow, hs, if_true, hscale, List.map_map]
    exact ⟨_, rfl⟩

/-- A vu.st without a sidecar into a row that the task may write: packing changes registers, counters and the generator alone. -/
theorem State.vuSt_of_writable {f : Fmt} (hn : s.nextCmd core = some (t, w)) (hfmt : Fmt.ofCode (cwFmt w) = some f) (hs : f.sidecar = false)
    (hform : vuStForm w f = true) (hq : s.quota t [.near t.core (bits w 32 13)] = .ok ()) (hm : t.mayWrite (bits w 32 13) = true)
    (hw : s.writable [.near t.core (bits w 32 13)]) :
    ∃ v d, s.vuSt t w = .ok (v.putRows t.id [(.near t.core (bits w 32 13), d)]) ∧ s.during core t w t.lines t.scalars v
      ∧ v.rows = s.rows ∧ v.lpddr = s.lpddr
      ∧ (s.wantsSr t.core (cwRound w) = false → d = (packRow f (s.sat t.core) (List.replicate f.perRow .rne)
          ((List.range f.lines).flatMap fun l => lineNums (t.line (bits w 58 4 + l)))).1) := by
  obtain ⟨vals, hvals⟩ : ∃ l, l = (List.range f.lines).flatMap fun l => lineNums (t.line (bits w 58 4 + l)) := ⟨_, rfl⟩
  have hf := (State.changes_addFlags t.id (niOf vals)).after (M := [.free, .regs, .ctrs, .tasks, .cores])
    (State.changes_packFor (s := s) t f (cwRound w) vals)
  have hland := State.lands_of_writable (id := t.id) (State.writable_congr hw (hf.same .rows)) (List.mem_singleton_self _)
  refine ⟨_, (s.packFor t f (cwRound w) vals).1, ?_, ((State.during_start hn).packFor f (cwRound w) vals).addFlags (niOf vals),
    hf.same .rows, hf.same .lpddr, fun h => (State.packFor_of_rne h f vals).trans (by rw [hvals])⟩
  simp only [State.vuSt, hfmt, hs, Bool.false_eq_true, if_false, hq, hform, Bool.false_and, Bool.not_false, Bool.and_true, if_true, require_true,
    outputs_of_mayWrite (l := [bits w 32 13]) (by simpa using hm), Ex.ok_bind, ← hvals]
  exact State.writeRow_of_check (State.writeCheck_of_lands hland (cwOver w)) _

/-- The lanes of a vu.op, with the state that its draws leave. -/
theorem State.vuLanes_of_form (hd : s.during core t w L S u) (hform : vuOpForm w = true) (lanes : Nat) :
    ∃ vs g v, u.vuLanes t w lanes = .ok (vs, g, v) ∧ s.during core t w L S v
      ∧ (bits w 32 4 < 13 → vs = (List.range lanes).map fun i =>
          (lane ([((t.operand (opA w)).take lanes).getD i .zero, ((t.operand (opB w)).take lanes).getD i .zero,
            ((t.operand (opC w)).take lanes).getD i .zero].take (subArity (bits w 32 4)))
            (subOp (bits w 32 4) (((t.operand (opA w)).take lanes).getD i .zero) (((t.operand (opB w)).take lanes).getD i .zero)
              (((t.operand (opC w)).take lanes).getD i .zero))).1) := by
  unfold State.vuLanes
  by_cases hk : bits w 32 4 = 13
  · have hfmt : (Fmt.ofCode (cwFmt w)).isSome = true := by
      simp only [vuOpForm, hk, Bool.and_eq_true, bne_self_eq_false, Bool.false_or] at hform
      exact hform.2.2
    obtain ⟨f, hf⟩ := Option.isSome_iff_exists.1 hfmt
    simp only [hk, if_true, hf]
    exact ⟨_, _, _, rfl, hd.roundings (cwRound w) lanes, fun h => absurd h (by decide)⟩
  · simp only [hk, if_false]
    exact ⟨_, _, _, rfl, hd, fun _ => List.map_map⟩

theorem Task.length_operand (t : Task) (r : Nat) : (t.operand r).length = 128 := by
  unfold Task.operand
  split <;> simp [lineNums, row32]

/-- vu.op writes a register of its task: for an operation on lines, each lane of line D. -/
theorem State.vuOp_of_form (hn : s.nextCmd core = some (t, w)) (hform : vuOpForm w = true) :
    ∃ v L S, s.vuOp t w = .ok v ∧ s.during core t w L S v
      ∧ (bits w 32 4 < 13 → isScalar (opD w) = false → L = SMap.put (fun _ => 0) t.lines (opD w) (ofRow32 ((List.range 128).map fun i =>
            (lane ([(t.operand (opA w)).getD i .zero, (t.operand (opB w)).getD i .zero, (t.operand (opC w)).getD i .zero].take
              (subArity (bits w 32 4))) (subOp (bits w 32 4) ((t.operand (opA w)).getD i .zero) ((t.operand (opB w)).getD i .zero)
                ((t.operand (opC w)).getD i .zero))).1)) ∧ S = t.scalars) := by
  have hd : s.during core t w t.lines t.scalars (if isScalar (opD w) && bits w 32 4 != 14 then s else s.countCore C.vuLines t.core) := by
    split
    · exact State.during_start hn
    · exact (State.during_start hn).of_changes (State.changes_countCore ..)
  simp only [State.vuOp, hform, require_true, Ex.ok_bind]
  generalize (if isScalar (opD w) && bits w 32 4 != 14 then s else s.countCore C.vuLines t.core) = s1 at hd
  by_cases h14 : bits w 32 4 = 14
  · simp only [h14, if_true]
    exact ⟨_, _, _, rfl, (hd.setScalar ..).addFlags .., fun h => absurd h (by decide)⟩
  by_cases h15 : bits w 32 4 = 15
  · simp only [h15, if_true]
    exact ⟨_, _, _, rfl, (hd.setLine ..).addFlags .., fun h => absurd h (by decide)⟩
  obtain ⟨vs, g, v, hv, hd, hvs⟩ := State.vuLanes_of_form hd hform (if isScalar (opD w) then 1 else 128)
  simp only [h14, h15, if_false, hv, Ex.ok_bind]
  cases hs : isScalar (opD w) with
  | true => exact ⟨_, _, _, rfl, (hd.setScalar ..).addFlags .., fun _ h => nomatch h⟩
  | false =>
    refine ⟨_, _, _, rfl, (hd.setLine ..).addFlags .., fun h _ => ⟨?_, rfl⟩⟩
    rw [hvs h]
    simp [hs, List.take_of_length_le, Task.length_operand]

/-- vu.tx writes a register of its task. -/
theorem State.vuTx_of_form (hn : s.nextCmd core = some (t, w)) (hform : vuTxForm w = true) :
    ∃ v L S, s.vuTx t w = .ok v ∧ s.during core t w L S v
      ∧ (isScalar (opD w) = true → L = t.lines ∧ S = SMap.put (fun _ => 0) t.scalars (opD w % 16)
          (txLane (bits w 32 4) (s.flag (.vuCfg t.core) F.vuCfgTxFast) (t.scalar (opA w % 16))).1) := by
  have hd := State.during_start hn
  simp only [State.vuTx, hform, require_true, Ex.ok_bind]
  cases hs : isScalar (opD w) with
  | true => exact ⟨_, _, _, rfl, (hd.setScalar ..).addFlags .., fun _ => ⟨rfl, rfl⟩⟩
  | false =>
    exact ⟨_, _, _, rfl, ((hd.of_changes (State.changes_countCore C.vuTxLines t.core 1)).setLine ..).addFlags .., fun h => nomatch h⟩

/-- vu.reduce of rows that the task may read writes a scalar of it. -/
theorem State.vuReduce_of_canRead {f : Fmt} (hn : s.nextCmd core = some (t, w)) (hfmt : Fmt.ofCode (cwFmt w) = some f)
    (hform : reduceForm w f = true) (hc : s.issueChecks t ((reduceRows t w f).1 ++ (reduceRows t w f).2) [] true = .ok ())
    (hread : s.canRead t.id ((reduceRows t w f).1 ++ (reduceRows t w f).2)) :
    ∃ v x, s.vuReduce t w = .ok v ∧ s.during core t w t.lines (SMap.put (fun _ => 0) t.scalars (bits w 36 4) x) v
      ∧ s.changes [.regs, .tasks, .ctrs] v := by
  obtain ⟨hrows, hscales⟩ := State.canRead_append.1 hread
  simp only [State.vuReduce, hfmt, hform, hc, Ex.ok_bind, State.readRows_of_canRead hrows, State.readRows_of_canRead hscales, State.usedRows,
    Bool.false_eq_true, if_false]
  refine ⟨_, _, rfl, (((State.during_start hn).of_changes (State.changes_countCore ..)).setScalar ..).addFlags .., ?_⟩
  exact (State.changes_addFlags ..).after ((State.changes_setScalar ..).after ((State.changes_countCore ..).after .refl))

end Sys2Proof.Machine

open Sys2Proof Sys2Proof.Machine

/-- Settles O23: the row and its scales are FULL, so the load reads both, takes the row where it says so, and writes its line register. -/
theorem vectorLoadWidensALine : Obligations.VectorLoadWidensALine := by
  unfold Obligations.VectorLoadWidensALine
  intro core s t w f hcore hn hop hfmt hc hread n sc
  obtain ⟨g, hg⟩ := State.vuLd_of_canRead hfmt hc hread
  obtain ⟨u, hu, hone, ⟨t', ht', hl, hs⟩, hf, -⟩ :=
    issue_done (f := fun t w s => s.vuLd t w) hcore hn hop hg ((((State.during_start hn).usedRows ..).setLine ..).addFlags ..)
  have hf := hf.after ((State.changes_addFlags ..).after (M := [.regs, .ctrs, .tasks, .cores]) ((State.changes_setLine ..).after .refl))
  refine ⟨u, t', hu, hone, ht', ?_, fun i hi => ?_, hs, ?_, ?_, ?_⟩
  · rw [Task.line_of_put hl, if_pos rfl]
  · rw [Task.line_of_put hl, if_neg hi.symm]
    rfl
  · rw [State.row_congr (hf.same .rows), State.row_usedRows_of_mem (List.mem_singleton_self _)]
  · exact State.rowsElsewhere_of_rows (s.rowsElsewhere_usedRows _ _ _) (hf.same .rows)
  · exact (hf.same .lpddr).trans (by rw [State.usedRows_eq])

/-- Settles O24: the row is EMPTY, so the store's packed row lands in it, and packing changes registers and the generator alone. -/
theorem vectorStoreWritesARow : Obligations.VectorStoreWritesARow := by
  unfold Obligations.VectorStoreWritesARow
  intro core s t w f hcore hn hop hfmt hs hform hq hm hw
  obtain ⟨v, d, hst, hd, hrows, hlp, hdata⟩ := State.vuSt_of_writable hn hfmt hs hform hq hm hw
  obtain ⟨u, hu, hone, -, hf, -⟩ := issue_done (f := fun t w s => s.vuSt t w) hcore hn hop hst (hd.putRows ..)
  refine ⟨u, hu, hone, State.pendingOf_congr (State.pendingOf_putRows _ _ [_]) (hf.same .rows), fun hrne => ?_, ?_, ?_⟩
  · rw [State.row_congr (hf.same .rows), ← hdata hrne]
    exact congrArg RowSt.data (State.row_setRow_same ..)
  · exact State.rowsElsewhere_of_rows (fun x hx => (v.rowsElsewhere_putRows t.id [_] x hx).trans (State.row_congr hrows x)) (hf.same .rows)
  · exact (hf.same .lpddr).trans ((by rw [State.putRows_eq] : _ = v.lpddr).trans hlp)

/-- Settles O25: each of the three writes vector registers, the flags and counters. -/
theorem vectorArithmeticStaysInRegisters : Obligations.VectorArithmeticStaysInRegisters := by
  unfold Obligations.VectorArithmeticStaysInRegisters
  intro core s t w hcore hn
  refine ⟨fun hop hform => ?_, fun hop hform => ?_, fun f hop hfmt hform hc hread => ?_⟩
  · obtain ⟨v, L, S, hv, hd, hL⟩ := State.vuOp_of_form hn hform
    have hk := Ex.all.at (State.changes_vuOp t w) hv
    obtain ⟨u, hu, hone, ⟨t', ht', hl, hs⟩, hf, -⟩ := issue_done (f := fun t w s => s.vuOp t w) hcore hn hop hv hd
    refine ⟨u, t', hu, hone, ht', (hf.same .rows).trans (hk.same .rows), (hf.same .lpddr).trans (hk.same .lpddr), fun hsub hline => ?_⟩
    obtain ⟨hline', hscalars⟩ := hL hsub hline
    have hl := hl.trans hline'
    refine ⟨(Task.line_of_put hl _).trans (if_pos rfl), fun i hi => (Task.line_of_put hl i).trans (if_neg hi.symm), hs.trans hscalars⟩
  · obtain ⟨v, L, S, hv, hd, hL⟩ := State.vuTx_of_form hn hform
    have hk := Ex.all.at (State.changes_vuTx t w) hv
    obtain ⟨u, hu, hone, ⟨t', ht', hl, hs⟩, hf, -⟩ := issue_done (f := fun t w s => s.vuTx t w) hcore hn hop hv hd
    refine ⟨u, t', hu, hone, ht', (hf.same .rows).trans (hk.same .rows), (hf.same .lpddr).trans (hk.same .lpddr), fun hscalar => ?_⟩
    obtain ⟨hlines, hput⟩ := hL hscalar
    exact ⟨hl.trans hlines, (Task.scalar_of_put (hs.trans hput) _).trans (if_pos rfl)⟩
  · obtain ⟨v, x, hv, hd, hk⟩ := State.vuReduce_of_canRead hn hfmt hform hc hread
    obtain ⟨u, hu, hone, ⟨t', ht', hl, hs⟩, hf, -⟩ := issue_done (f := fun t w s => s.vuReduce t w) hcore hn hop hv hd
    exact ⟨u, t', hu, hone, ht', (hf.same .rows).trans (hk.same .rows), (hf.same .lpddr).trans (hk.same .lpddr), hl,
      fun i hi => (Task.scalar_of_put hs i).trans (if_neg hi.symm)⟩
end

section
/-! cc.count (R198, R199): its rows one by one, the mask rows as their bits are known, and the count. -/

-- The frame conditions are evaluated in the kernel: theorems elaborated in parallel would each hold a thread while they wait for it.
set_option Elab.async false

namespace Sys2Proof.Machine

variable {s u v : State} {t k : Task} {r x : RowRef} {rs m : List RowRef} {w : CmdWord} {core j : Nat} {L : SMap Row} {S : SMap F32}
  {f : Fmt}

theorem ccBits_append (pred : Nat) (y : Num) (a b : List Row) : ccBits f pred y (a ++ b) = ccBits f pred y a ++ ccBits f pred y b :=
  List.flatMap_append ..

theorem length_ccBits_singleton (pred : Nat) (y : Num) (d : Row) : (ccBits f pred y [d]).length = f.perRow := by simp [ccBits]

theorem Fmt.perRow_le (f : Fmt) : f.perRow ≤ 4096 := by cases f <;> decide

/-- The first rows of a list have been written by a task, and no others. -/
def State.wrote (s : State) (j : Nat) (rs : List RowRef) (u : State) : Prop := u.pendingOf j rs ∧ s.rowsElsewhere u rs

theorem State.wrote_nil (s : State) (j : Nat) : s.wrote j [] s := ⟨fun _ h => by simp at h, fun _ _ => rfl⟩

theorem State.wrote_of_rows (h : s.wrote j rs u) (e : v.rows = u.rows) : s.wrote j rs v :=
  ⟨State.pendingOf_congr h.1 e, State.rowsElsewhere_of_rows h.2 e⟩

/-- A row that is EMPTY at first may be written, whatever of the list has been written. -/
theorem State.lands_of_wrote (h : s.wrote j rs u) (hx : (s.row x).tag = .empty) : u.lands j x := by
  by_cases hn : named rs x
  · obtain ⟨y, hy, hkey⟩ := hn
    rw [State.lands, ← State.row_congr_key hkey]
    exact .inr (h.1 y hy)
  · exact .inl ((congrArg RowSt.tag (State.rowsElsewhere_iff.1 h.2 x hn)).trans hx)

/-- A FULL row stands while EMPTY ones are written. -/
theorem State.row_of_wrote (h : s.wrote j rs u) (hw : s.writable rs) (hx : (s.row x).tag = .full) : u.row x = s.row x := by
  refine State.rowsElsewhere_iff.1 h.2 x fun ⟨y, hy, hkey⟩ => ?_
  have he := hw y hy
  rw [State.row_congr_key hkey, hx] at he
  cases he

/-- One more row is written. -/
theorem State.wrote_setRow (h : s.wrote j rs u) (r : RowRef) (d : Row) :
    s.wrote j (rs ++ [r]) (u.setRow r ((u.row r).writtenBy j d)) := by
  refine ⟨fun x hx => ?_, State.rowsElsewhere_iff.2 fun x hx => ?_⟩
  · rw [State.row_setRow]
    split
    · exact ⟨rfl, rfl⟩
    · next hne =>
      obtain hx | hx := List.mem_append.1 hx
      · exact h.1 x hx
      · exact absurd (by rw [List.mem_singleton.1 hx]) hne
  · have hne : rowKey r ≠ rowKey x := fun hk => hx ⟨r, by simp, hk⟩
    rw [State.row_setRow, if_neg hne]
    exact State.rowsElsewhere_iff.1 h.2 x fun ⟨y, hy, hk⟩ => hx ⟨y, List.mem_append_left _ hy, hk⟩

/-- How far cc.count has come after `i` steps, where a mask of rows `m` takes `width` bits of each row read: the mask rows that are full have
been written, the bits that wait are those beyond them, and the count is that of the rows read. -/
structure State.counted (s : State) (core : Nat) (t : Task) (w : CmdWord) (f : Fmt) (m : List RowRef) (width i : Nat) (v : State) (p : Progress) :
    Prop where
  during : s.during core t w t.lines t.scalars v
  lpddr : v.lpddr = s.lpddr
  wrote : s.wrote t.id (m.take (if i ≤ (ccRows t w).length then width * i / 4096 else m.length)) v
  rows : p.rows = i
  base : p.base = ((ccBits f (bits w 66 3) (Num.of32 (w.extractLsb' 96 32)) (((ccRows t w).take i).map fun r => (s.row r).data)).filter id).length
  left : p.bits.length = width * i % 4096 ∨ (ccRows t w).length < i

/-- The next mask row is written once its bits are known. -/
theorem State.putMask_of_wrote {d n : Nat} {bs : List Bool} (hd : d < m.length) (hm : m[d] = .near t.core (bits w 73 13 + d))
    (hw : s.writable m) (hv : s.wrote t.id (m.take d) v) :
    ∃ row, v.putMask t (bits w 73 13) d n bs = .ok (v.setRow m[d] ((v.row m[d]).writtenBy t.id row), bs.drop n)
      ∧ s.wrote t.id (m.take (d + 1)) (v.setRow m[d] ((v.row m[d]).writtenBy t.id row)) := by
  have hland := State.lands_of_wrote hv (hw m[d] (List.getElem_mem hd))
  refine ⟨maskRow (bs.take n), ?_, ?_⟩
  · rw [State.putMask, ← hm, State.writeRow_of_check (State.writeCheck_of_lands hland false)]
    rfl
  · rw [List.take_succ_eq_append_getElem hd]
    exact State.wrote_setRow hv m[d] _

theorem ccMask_getElem {d : Nat} (h : d < (ccMask t w f).length) : (ccMask t w f)[d] = .near t.core (bits w 73 13 + d) := by
  simp [ccMask, nearRowsOf]

theorem ccMask_length : (ccMask t w f).length = ((if bitAt w 86 then f.perRow else 0) * (ccRows t w).length + 4095) / 4096 := by
  have hrows : (ccRows t w).length = bits w 53 13 + 1 := by
    unfold ccRows rowsOf
    split <;> simp [loftRowsOf, nearRowsOf]
  rw [hrows]
  cases hb : bitAt w 86 <;> simp [ccMask, nearRowsOf, hb]

theorem State.during.setRow (h : s.during core t w L S u) (r : RowRef) (y : RowSt) : s.during core t w L S (u.setRow r y) :=
  h.of_frame rfl rfl rfl

/-- A step of cc.count that reads a row. -/
theorem State.ccRow_of_read {i : Nat} {p : Progress} (hread : s.canRead t.id (ccRows t w)) (hw : s.writable (ccMask t w f))
    (hi : i < (ccRows t w).length) (h : s.counted core t w f (ccMask t w f) (if bitAt w 86 then f.perRow else 0) i v p) :
    ∃ v' p', v.ccRow t w f p = .ok (v', p')
      ∧ s.counted core t w f (ccMask t w f) (if bitAt w 86 then f.perRow else 0) (i + 1) v' p' := by
  obtain ⟨hd, hlp, hwrote, hrows, hbase, hleft⟩ := h
  have hleft := hleft.resolve_right (by omega)
  have hfull := hread _ (List.getElem_mem hi)
  have hrow : v.row (ccRows t w)[i] = s.row (ccRows t w)[i] :=
    State.row_of_wrote hwrote (fun x hx => hw x (List.mem_of_mem_take hx)) hfull.1
  obtain ⟨d, hdata⟩ : ∃ d, d = (s.row (ccRows t w)[i]).data := ⟨_, rfl⟩
  have hreads : v.readRow t (rowAt (ccRows t w) p.rows) false = .ok (d, v) := by
    rw [hrows, rowAt_of_lt hi, State.readRow_of_free (hrow ▸ hfull.1) (hrow ▸ hfull.2), hrow, hdata]
    rfl
  obtain ⟨bs, hbs⟩ : ∃ bs, bs = ccBits f (bits w 66 3) (Num.of32 (w.extractLsb' 96 32)) [d] := ⟨_, rfl⟩
  have hlen : bs.length = f.perRow := hbs ▸ length_ccBits_singleton ..
  obtain ⟨v2, hv2⟩ : ∃ u, u = (v.addFlags t.id (niOf (Num.of32 (w.extractLsb' 96 32)
    :: (List.range f.perRow).map fun k => elemAt f d 0 0 k))).countCore C.ccRows t.core := ⟨_, rfl⟩
  have hf : v.changes [.regs, .tasks, .ctrs] v2 := hv2 ▸ (State.changes_countCore ..).after ((State.changes_addFlags ..).after .refl)
  have hd2 : s.during core t w t.lines t.scalars v2 := hv2 ▸ (hd.addFlags _).of_changes (State.changes_countCore ..)
  have hwrote2 := State.wrote_of_rows hwrote (hf.same .rows)
  have hlp2 : v2.lpddr = s.lpddr := (hf.same .lpddr).trans hlp
  have hnot : ¬ (ccRows t w).length ≤ p.rows := by omega
  have hcount : p.base + (bs.filter id).length = ((ccBits f (bits w 66 3) (Num.of32 (w.extractLsb' 96 32))
      (((ccRows t w).take (i + 1)).map fun r => (s.row r).data)).filter id).length := by
    rw [List.take_succ_eq_append_getElem hi, List.map_append, ccBits_append, List.filter_append, List.length_append, hbase, hbs, hdata]
    rfl
  have hle : (if bitAt w 86 then f.perRow else 0) ≤ 4096 := by
    split
    · exact f.perRow_le
    · omega
  have hmask : bitAt w 86 = true → (if bitAt w 86 then f.perRow else 0) = f.perRow := fun h => if_pos h
  obtain ⟨new, hnewdef⟩ : ∃ l, l = if bitAt w 86 then p.bits ++ bs else [] := ⟨_, rfl⟩
  have hnew : new.length
      = (if bitAt w 86 then f.perRow else 0) * i % 4096 + if bitAt w 86 then f.perRow else 0 := by
    rw [hnewdef]
    split
    · next hm => rw [List.length_append, hleft, hlen, if_pos hm]
    · simp
  rw [if_pos (Nat.le_of_lt hi)] at hwrote2
  have hmlen := ccMask_length (t := t) (w := w) (f := f)
  have hmul : (if bitAt w 86 then f.perRow else 0) * (i + 1) ≤ (if bitAt w 86 then f.perRow else 0) * (ccRows t w).length :=
    Nat.mul_le_mul_left _ hi
  have hfirst : bitAt w 86 = true → f.perRow * i = (if bitAt w 86 then f.perRow else 0) * i := fun h => by rw [hmask h]
  have hon : 4096 ≤ new.length → bitAt w 86 = true := fun h => by
    by_contra hoff
    simp [hnewdef, hoff] at h
  generalize hW : (if bitAt w 86 then f.perRow else 0) = W at *
  have hnext : W * (i + 1) = W * i + W := Nat.mul_succ W i
  simp only [State.ccRow, hnot, if_false, hreads, Ex.ok_bind, ← hbs, ← hv2, ← hnewdef]
  by_cases hput : 4096 ≤ new.length
  · have hD : W * i / 4096 < (ccMask t w f).length := by omega
    have hi' : W * (i + 1) / 4096 = W * i / 4096 + 1 := by omega
    obtain ⟨row, hok, hw3⟩ := State.putMask_of_wrote (n := 4096) (bs := new) hD (ccMask_getElem hD) hw hwrote2
    rw [if_pos hput, hrows, hfirst (hon hput), hok]
    refine ⟨_, _, rfl, hd2.setRow .., hlp2, ?_, rfl, hcount, .inl ?_⟩
    · rw [if_pos (show i + 1 ≤ (ccRows t w).length from hi), hi']
      exact hw3
    · rw [List.length_drop]
      omega
  · rw [if_neg hput]
    refine ⟨_, _, rfl, hd2, hlp2, ?_, congrArg (· + 1) hrows, hcount, .inl (hnew.trans ?_)⟩
    · rw [if_pos (show i + 1 ≤ (ccRows t w).length from hi), show W * (i + 1) / 4096 = W * i / 4096 by omega]
      exact hwrote2
    · omega

/-- The last step of cc.count, for a mask row that its rows do not fill. -/
theorem State.ccRow_of_end {p : Progress} (hw : s.writable (ccMask t w f))
    (hm : (if bitAt w 86 then f.perRow else 0) * (ccRows t w).length % 4096 ≠ 0)
    (h : s.counted core t w f (ccMask t w f) (if bitAt w 86 then f.perRow else 0) (ccRows t w).length v p) :
    ∃ v' p', v.ccRow t w f p = .ok (v', p')
      ∧ s.counted core t w f (ccMask t w f) (if bitAt w 86 then f.perRow else 0) ((ccRows t w).length + 1) v' p' := by
  obtain ⟨hd, hlp, hwrote, hrows, hbase, -⟩ := h
  have hmlen := ccMask_length (t := t) (w := w) (f := f)
  have hon : (if bitAt w 86 then f.perRow else 0) = f.perRow := by
    split
    · rfl
    · next hoff => simp [hoff] at hm
  rw [hon] at hm hwrote hmlen
  rw [if_pos (Nat.le_refl _)] at hwrote
  have hD : f.perRow * (ccRows t w).length / 4096 < (ccMask t w f).length := by omega
  obtain ⟨row, hok, hw3⟩ := State.putMask_of_wrote (n := 4096) (bs := p.bits) hD (ccMask_getElem hD) hw hwrote
  have hdone : (ccRows t w).length ≤ p.rows := Nat.le_of_eq hrows.symm
  simp only [State.ccRow, if_pos hdone, hok]
  refine ⟨_, _, rfl, hd.setRow .., hlp, ?_, congrArg (· + 1) hrows, ?_, .inr (Nat.lt_succ_self _)⟩
  · rw [if_neg (Nat.not_succ_le_self _), show (ccMask t w f).length = f.perRow * (ccRows t w).length / 4096 + 1 by omega]
    exact hw3
  · rw [List.take_of_length_le (Nat.le_succ _)]
    rw [List.take_length] at hbase
    exact hbase

/-- cc.count of rows that the task may read, into mask rows that it may write. -/
theorem State.ccCount_done {q : Cmd} (hn : s.nextCmd core = some (t, w)) (hq : q.left = .init) (hqw : q.word = w)
    (hfmt : Fmt.ofCode (cwFmt w) = some f) (hc : s.issueChecks t (ccRows t w) (ccMask t w f) (ccForm w f) = .ok ())
    (hread : s.canRead t.id (ccRows t w)) (hw : s.writable (ccMask t w f)) :
    ∃ v, s.ccCount t q = .done v ∧ v.lpddr = s.lpddr ∧ s.wrote t.id (ccMask t w f) v
      ∧ s.during core t w t.lines (SMap.put (fun _ => 0) t.scalars (bits w 69 4) (rnd32 (Num.ofInt
          (((ccBits f (bits w 66 3) (Num.of32 (w.extractLsb' 96 32)) ((ccRows t w).map fun r => (s.row r).data)).filter id).length))).1) v := by
  have hstart : s.counted core t w f (ccMask t w f) (if bitAt w 86 then f.perRow else 0) 0 s .init := by
    refine ⟨State.during_start hn, rfl, ?_, rfl, rfl, .inl (by simp [Progress.init])⟩
    rw [if_pos (Nat.zero_le _), Nat.mul_zero, Nat.zero_div, List.take_zero]
    exact s.wrote_nil t.id
  have hsteps : ccSteps t w f = (ccRows t w).length ∧ (if bitAt w 86 then f.perRow else 0) * (ccRows t w).length % 4096 = 0
      ∨ ccSteps t w f = (ccRows t w).length + 1 ∧ (if bitAt w 86 then f.perRow else 0) * (ccRows t w).length % 4096 ≠ 0 := by
    unfold ccSteps
    by_cases hb : bitAt w 86 = true <;> by_cases hz : f.perRow * (ccRows t w).length % 4096 = 0 <;> simp [hb, hz]
  obtain ⟨v, p, hrun, hd, hlp, hwrote, -, hbase, -⟩ := Run.rows_done (f := fun s p => s.ccRow t w f p)
    (fin := fun s p => s.setScalar t.id (bits w 69 4) (rnd32 (Num.ofInt p.base)).1) (n := ccSteps t w f)
    (fun i v p => s.counted core t w f (ccMask t w f) (if bitAt w 86 then f.perRow else 0) i v p) (by
      intro i v p hi hv
      by_cases hlt : i < (ccRows t w).length
      · exact State.ccRow_of_read hread hw hlt hv
      · obtain ⟨hs, -⟩ | ⟨hs, hm⟩ := hsteps
        · omega
        · obtain rfl : i = (ccRows t w).length := by omega
          exact State.ccRow_of_end hw hm hv) hstart
  have hall : (if ccSteps t w f ≤ (ccRows t w).length then (if bitAt w 86 then f.perRow else 0) * ccSteps t w f / 4096
      else (ccMask t w f).length) = (ccMask t w f).length := by
    have hmlen := ccMask_length (t := t) (w := w) (f := f)
    obtain ⟨hs, hm⟩ | ⟨hs, hm⟩ := hsteps
    · rw [hs, if_pos (Nat.le_refl _)]
      omega
    · exact if_neg (by omega)
  rw [hall, List.take_length] at hwrote
  rw [List.take_of_length_le (by omega)] at hbase
  refine ⟨v.setScalar t.id (bits w 69 4) (rnd32 (Num.ofInt p.base)).1, ?_, hlp, State.wrote_of_rows hwrote rfl, hbase ▸ hd.setScalar ..⟩
  subst hqw
  simp only [State.ccCount, hfmt, hc, Run.checked, hq]
  exact hrun

end Sys2Proof.Machine

open Sys2Proof Sys2Proof.Machine

/-- Settles O29: each row read adds its elements to the count, and each mask row is written once its bits are known. -/
theorem compareAndCountCounts : Obligations.CompareAndCountCounts := by
  unfold Obligations.CompareAndCountCounts
  intro core s t w f hcore hn hop hfmt hc hread hw
  obtain ⟨v, hv, hlp, ⟨hpend, helse⟩, hd⟩ := State.ccCount_done (q := s.cmd t w []) hn rfl rfl hfmt hc hread hw
  obtain ⟨u, hu, hone, ⟨t', ht', hl, hs⟩, hf, -⟩ := issueRun_done (f := fun t q s => s.ccCount t q) hcore hn hop hv hd
  exact ⟨u, t', hu, hone, ht', (Task.scalar_of_put hs _).trans (if_pos rfl), hl, State.pendingOf_congr hpend (hf.same .rows),
    State.rowsElsewhere_of_rows helse (hf.same .rows), (hf.same .lpddr).trans hlp⟩
end

section
/-! sp.enc, mvp.run and mvp.glean (R119 to R124, R140 to R146): the unit taken, the rows read, and the output rows written. -/

-- The frame conditions are evaluated in the kernel: theorems elaborated in parallel would each hold a thread while they wait for it.
set_option Elab.async false

namespace Sys2Proof.Machine

variable {s u v : State} {t k : Task} {r x : RowRef} {rs m : List RowRef} {w : CmdWord} {core j : Nat} {L : SMap Row} {S : SMap F32}
  {f : Fmt}

/-! The core after a command. -/

theorem State.core_advance (h : s.task? j = some t) (hs : t.stat = .running) (last : Bool) :
    (s.advance j last).core t.core = { s.core t.core with active := true } := by
  obtain rfl := State.task?_id s h
  rw [State.advance_of_running h hs, ← State.moved_core]
  split
  · exact congrArg (fun m => SMap.get (fun _ => Core.init) m t.core) (show _ = _ from (State.changes_endIssue (s := s.moved t) t.id).same .cores)
  · rfl

theorem State.core_of_issueRun {op : Nat} {ups : List Upset} {f : Task → Cmd → State → Run} (h : core < 2304) (hn : s.nextCmd core = some (t, w))
    (ho : cwOp w = op) (he : f t (s.cmd t w ups) s = .done u) (hd : s.during core t w L S u) (hv : issueRun op core ups s f = .next v)
    (hop : (opCodes.contains op && op != 0x26) = true := by decide) : v.core t.core = { u.core t.core with active := true } := by
  simp only [Bool.and_eq_true, bne_iff_ne] at hop
  rw [issueRun_runs h hn ho hop.1, he] at hv
  obtain ⟨k, hi, -, -⟩ := hd.issues
  obtain ⟨-, hstat, -, -, -⟩ := State.nextCmd_eq_some hn
  have hset := Host.Outcome.next.inj hv
  rw [hi.settle_eq (ho ▸ hop.2)] at hset
  rw [← hset, ← hi.same.2.1]
  exact State.core_advance hi.task (hi.same.1.trans hstat) _

/-! Rows written together. -/

theorem State.writeRows_of_writable {l : List (RowRef × Row)} (hw : s.writable (l.map Prod.fst)) (e : v.rows = s.rows) (ow : Bool) :
    v.writeRows t ow l = .ok (v.putRows t.id l) :=
  State.writeRows_of_lands (fun _ hp => State.lands_of_writable (State.writable_congr hw e) (List.mem_map_of_mem hp)) ow

theorem State.putRows_wrote (s : State) (j : Nat) (l : List (RowRef × Row)) : s.wrote j (l.map Prod.fst) (s.putRows j l) :=
  ⟨State.pendingOf_putRows s j l, State.rowsElsewhere_putRows s j l⟩

theorem State.wrote_congr (h : u.wrote j rs v) (e : u.rows = s.rows) : s.wrote j rs v :=
  ⟨h.1, fun x hx => (h.2 x hx).trans (State.row_congr e x)⟩

/-- Where no row is written twice, each holds what was written to it. -/
theorem State.data_putRows {l : List (RowRef × Row)} (h : (l.map fun p => rowKey p.1).Nodup) {p : RowRef × Row} (hp : p ∈ l) (s : State) (j : Nat) :
    ((s.putRows j l).row p.1).data = p.2 := by
  obtain ⟨q, hq, hkey, hrow⟩ := State.row_putRows_of_named (named_of_mem (List.mem_map_of_mem (f := Prod.fst) hp)) s j
  rw [hrow, List.inj_on_of_nodup_map h hq hp hkey]
  rfl

/-! Quotas (R161). -/

/-- Quotas of near-store rows stand while their registers do. -/
theorem State.quota_of_near {l : List RowRef} (hl : ∀ x ∈ l, ∃ n, x = .near t.core n)
    (hr : u.rd (.clNquota (t.core / 8) t.job) = s.rd (.clNquota (t.core / 8) t.job)) : u.quota t l = s.quota t l := by
  have hin : ∀ x ∈ l, u.inQuota t.job x = s.inQuota t.job x := fun x hx => by
    obtain ⟨n, rfl⟩ := hl x hx
    exact decide_eq_decide.2 (by simp only [State.nearBase, State.nearRows, State.fld, hr])
  unfold State.quota
  rw [List.find?_congr]
  intro x hx
  rw [hin x hx]

theorem coArithFlags_addr_ne_clNquota {c j : Nat} (hc : c < 2304) (_ : j < 16) : (Reg.clNquota (c / 8) j).addr ≠ (Reg.coArithFlags c).addr := by
  show regBase 0 (c / 8 / 8) (c / 8 % 8 + 1) 15 + (0x100 + 0x10 * j) ≠ coreBase c + 0x218
  rw [coreBase, if_pos hc]
  unfold regBase
  omega

theorem State.rd_addFlags_ne (h : u.task? j = some t) (g : Flags) {y : Reg} (hy : y.addr ≠ (Reg.coArithFlags t.core).addr) :
    (u.addFlags j g).rd y = u.rd y := by
  simp only [State.addFlags, h]
  exact State.rd_wr_ne _ _ hy

theorem State.mvp_of_cores {o : Option Nat} {c : Nat} (e : u.cores = s.cores) (h : (s.core c).mvp = o) : (u.core c).mvp = o := by
  rwa [State.core, e]

/-! sp.enc (R140). -/

theorem ownUnit_of_free {o : Option Nat} {c : CoreUnit} (h : o = none ∨ o = some j) : ownUnit o j c = .ok (some j) := by
  obtain rfl | rfl := h <;> simp [ownUnit]

theorem State.encTaken_of_free (hc : s.encChecks t w = .ok ()) (h : (s.core t.core).enc = none ∨ (s.core t.core).enc = some t.id) :
    s.encTaken t w = .ok (s.setCore t.core { s.core t.core with enc := some t.id }) := by
  simp only [State.encTaken, hc, State.ownEnc, ownUnit_of_free h, Ex.ok_bind]
  rfl

theorem State.during.setCore (h : s.during core t w L S u) {y : Core} (hy : y.gctx = (u.core t.core).gctx) :
    s.during core t w L S (u.setCore t.core y) :=
  h.of_frame rfl rfl (by rw [State.core_setCore_same, hy])

theorem mem_encWrites {tiles : List (List Row × Bool)} {p : RowRef × Row} (h : p ∈ encWrites t w f tiles) : ∃ n, p.1 = .near t.core n := by
  obtain ⟨i, -, hp⟩ := List.mem_flatMap.1 h
  obtain ⟨k, -, rfl⟩ := List.mem_map.1 hp
  exact ⟨_, rfl⟩

/-- What sp.enc does once it has the encoder. -/
theorem State.spEnc_of_canRead (hcore : t.core < 2304) (hfmt : Fmt.ofCode (cwFmt w) = some f) (hd : s.during core t w L S v) (e : v.rows = s.rows)
    (hregs : v.regs = s.regs) (hread : s.canRead t.id (encSrc t w f)) {ws : List (RowRef × Row)}
    (hws : ws = encWrites t w f (encTiles w f ((encSrc t w f).map fun r => encCanon f (s.row r).data)))
    (hq : s.quota t (ws.map Prod.fst) = .ok ()) (hr : inRange (ws.map Prod.fst) = true) (hm : ∀ p ∈ ws, t.mayWrite (rowNo p.1) = true)
    (hw : s.writable (ws.map Prod.fst)) :
    ∃ u, v.spEnc t w = .ok u ∧ s.during core t w L S u ∧ u.cores = v.cores ∧ u.lpddr = v.lpddr
      ∧ ∃ z : State, z.rows = s.rows ∧ u.rows = (z.putRows t.id ws).rows := by
  obtain ⟨k, hk, hsi, -⟩ := hd.task
  obtain ⟨rows, hrows⟩ : ∃ l, l = ((encSrc t w f).map fun r => (s.row r).data).map (encCanon f) := ⟨_, rfl⟩
  obtain ⟨g, hg⟩ : ∃ g, g = niOf ((List.range rows.length).flatMap fun i => (List.range f.perRow).map fun j => elemAt f (rows.getD i 0) 0 0 j) :=
    ⟨_, rfl⟩
  have hreads := State.readRows_of_canRead (State.canRead_congr hread e) false
  simp only [State.usedRows, Bool.false_eq_true, if_false, fun r => State.row_congr e r] at hreads
  have hf : v.changes [.regs, .tasks] (v.addFlags t.id g) := State.changes_addFlags ..
  have hjob : t.job < 16 := bits_lt ..
  have hquota : (v.addFlags t.id g).quota t (ws.map Prod.fst) = .ok () := by
    refine (State.quota_of_near (fun x hx => ?_) ?_).trans hq
    · obtain ⟨p, hp, rfl⟩ := List.mem_map.1 hx
      exact mem_encWrites (hws ▸ hp)
    · rw [State.rd_addFlags_ne hk g (by rw [hsi.2.1]; exact coArithFlags_addr_ne_clNquota hcore hjob)]
      exact congrArg (fun m => SMap.get resetAt m _) hregs
  have hwrite := State.writeRows_of_writable (t := t) hw ((hf.same .rows).trans e) false
  have htiles : encWrites t w f (encTiles w f rows) = ws := by rw [hws, hrows, List.map_map]; rfl
  have hout : outputs t (ws.map fun p => rowNo p.1) = .ok () := outputs_of_mayWrite fun n hn => by
    obtain ⟨p, hp, rfl⟩ := List.mem_map.1 hn
    exact hm p hp
  simp only [State.spEnc, hfmt, hreads, Ex.ok_bind, ← hrows, ← hg, htiles, hquota, hr, require_true, hout, hwrite]
  refine ⟨_, rfl, ((hd.addFlags g).putRows t.id ws).of_changes (State.changes_countCore ..), ?_, ?_, v.addFlags t.id g, (hf.same .rows).trans e, rfl⟩
  · rw [State.putRows_eq]
    exact hf.same .cores
  · rw [State.putRows_eq]
    exact hf.same .lpddr

/-! The output rows of the matrix-vector path (R119, R142). -/

theorem length_chunks {α : Type} {n : Nat} (hn : 0 < n) (k : Nat) (l : List α) (h : l.length ≤ n * k) :
    (chunks n k l).length = (l.length + n - 1) / n := by
  induction k generalizing l with
  | zero =>
    have hz : l.length = 0 := by omega
    rw [hz]
    exact (Nat.div_eq_of_lt (by omega)).symm
  | succ k ih =>
    unfold chunks
    cases l with
    | nil => exact (Nat.div_eq_of_lt (by simp; omega)).symm
    | cons a l =>
      have hlen : ((a :: l).drop n).length ≤ n * k := by
        rw [List.length_drop]
        rw [Nat.mul_succ] at h
        omega
      simp only [List.isEmpty_cons, Bool.false_eq_true, if_false, List.length_cons, ih _ hlen, List.length_drop]
      by_cases hle : n ≤ l.length + 1
      · rw [show l.length + 1 + n - 1 = (l.length + 1 - n + n - 1) + n by omega, Nat.add_div_right _ hn]
      · rw [show l.length + 1 - n + n - 1 = n - 1 by omega, Nat.div_eq_of_lt (by omega),
          show l.length + 1 + n - 1 = l.length + n by omega, Nat.add_div_right _ hn, Nat.div_eq_of_lt (by omega)]

theorem length_flatMap_const {α β : Type} {g : α → List β} {n : Nat} (l : List α) (h : ∀ a ∈ l, (g a).length = n) :
    (l.flatMap g).length = l.length * n := by
  induction l with
  | nil => simp
  | cons a l ih =>
    rw [List.flatMap_cons, List.length_append, h a (List.mem_cons_self ..), ih fun b hb => h b (List.mem_cons_of_mem a hb), List.length_cons,
      Nat.succ_mul, Nat.add_comm]

theorem map_fst_maskRows (dst c : Nat) (bs : List Bool) (h : bs.length ≤ 4096 * 64) :
    (maskRows dst c bs).map Prod.fst = nearRowsOf c dst ((bs.length + 4095) / 4096) := by
  simp only [maskRows, List.map_map, nearRowsOf, length_chunks (by decide : 0 < 4096) 64 bs h]
  rfl

/-- A pack step keeps the core but for its generator. -/
theorem State.mvp_draw (s : State) (c : Nat) : ((s.draw c).2.core c).mvp = (s.core c).mvp := by
  unfold State.draw
  split
  · exact (congrArg Core.mvp (s.core_setCore_same c { s.core c with rng := (xorshift (s.core c).rng).1 })).trans rfl
  · rfl

theorem State.mvp_packFor (s : State) (t : Task) (f : Fmt) (round : Nat) (vals : List Num) :
    ((s.packFor t f round vals).2.2.core t.core).mvp = (s.core t.core).mvp := by
  have hdraws : ∀ n, ∀ s : State, ((s.draws t.core n).2.core t.core).mvp = (s.core t.core).mvp := fun n => by
    induction n with
    | zero => exact fun _ => rfl
    | succ n ih => exact fun s => (ih _).trans (s.mvp_draw t.core)
  have hround : ((s.roundings t.core round f.perRow).2.core t.core).mvp = (s.core t.core).mvp := by
    unfold State.roundings
    split
    · rfl
    · split
      · rfl
      · exact hdraws f.perRow s
  refine Eq.trans ?_ hround
  have hf := State.changes_addFlags (s := (s.roundings t.core round f.perRow).2) t.id
    (packRow f ((s.roundings t.core round f.perRow).2.sat t.core) (s.roundings t.core round f.perRow).1 vals).2.2
  exact congrArg (fun m => (SMap.get (fun _ => Core.init) m t.core).mvp) (hf.same .cores)

/-- Packing keeps the task in its command, and the rows packed are the output's from its first row. -/
theorem State.during.packOut (hd : s.during core t w L S u) (ofmt round dst : Nat) (strips : List (List (List Num))) :
    s.during core t w L S (u.packOut t ofmt round dst strips).2
      ∧ ((u.packOut t ofmt round dst strips).2.core t.core).mvp = (u.core t.core).mvp
      ∧ (u.packOut t ofmt round dst strips).1.map Prod.fst = nearRowsOf t.core dst
          (strips.flatMap fun st => if ofmt = 1 then chunks 2 8 st else st.map fun l => [l]).length := by
  unfold State.packOut
  extract_lets fm groups
  generalize groups.length = n
  induction n with
  | zero => exact ⟨hd, rfl, rfl⟩
  | succ n ih =>
    obtain ⟨hd, hm, hl⟩ := ih
    rw [List.range_succ, List.foldl_append]
    refine ⟨hd.packFor .., (State.mvp_packFor ..).trans hm, ?_⟩
    rw [List.foldl_cons, List.foldl_nil, List.map_append, hl]
    simp [nearRowsOf, List.range_succ]

/-- The rows of an output of `n` strips of `nvec` vectors. -/
theorem length_outGroups (ofmt nvec : Nat) {strips : List (List (List Num))} (hn : nvec ≤ 16) (h : ∀ st ∈ strips, st.length = nvec) :
    (strips.flatMap fun st => if ofmt = 1 then chunks 2 8 st else st.map fun l => [l]).length = outRows ofmt nvec strips.length := by
  refine length_flatMap_const strips fun st hst => ?_
  split
  · exact (length_chunks (by decide) 8 st (by rw [h st hst]; omega)).trans (by rw [h st hst]; rfl)
  · rw [List.length_map, h st hst]

/-- A command of the matrix-vector path that has read its rows, writes its output, and leaves the rest. -/
structure State.putsOut (s : State) (core : Nat) (t : Task) (w : CmdWord) (rs : List RowRef) (u : State) : Prop where
  during : s.during core t w t.lines t.scalars u
  wrote : s.wrote t.id rs u
  lpddr : u.lpddr = s.lpddr
  mvp : (u.core t.core).mvp = some t.id

theorem State.putsOut_of_writeRows (hd : s.during core t w t.lines t.scalars v) (e : v.rows = s.rows) (hlp : v.lpddr = s.lpddr)
    (hm : (v.core t.core).mvp = some t.id) (hw : s.writable rs) {l : List (RowRef × Row)} (hl : l.map Prod.fst = rs) (ow : Bool) :
    ∃ u, v.writeRows t ow l = .ok u ∧ s.putsOut core t w rs u := by
  subst hl
  refine ⟨_, State.writeRows_of_writable hw e ow, hd.putRows t.id l, State.wrote_congr (v.putRows_wrote t.id l) e, ?_, ?_⟩
  · rw [State.putRows_eq]
    exact hlp
  · rw [State.putRows_eq]
    exact hm

theorem State.ownMvp_of_free (h : (s.core t.core).mvp = none ∨ (s.core t.core).mvp = some t.id) :
    s.ownMvp t = .ok ((s.setCore t.core { s.core t.core with mvp := some t.id }).syncUnits t.core) := by
  simp only [State.ownMvp, ownUnit_of_free h, Ex.ok_bind]
  rfl

theorem spanRows_loft (t : Task) (base n : Nat) : spanRows t (true, base, n) = loftRowsOf t.cl base n := rfl

theorem spanRows_near (t : Task) (base n : Nat) : spanRows t (false, base, n) = nearRowsOf t.core base n := rfl

/-- mvp.run (R119, R142). -/
theorem State.mvpRun_of_canRead {a b c d : Bool × Nat × Nat} (hfmt : Fmt.ofCode (cwFmt w) = some f) (hspans : mvpSpans w f = [a, b, c, d])
    (hd : s.during core t w t.lines t.scalars v) (e : v.rows = s.rows) (hlp : v.lpddr = s.lpddr) (hm : (v.core t.core).mvp = some t.id)
    (hread : s.canRead t.id (spanRows t a ++ spanRows t b ++ spanRows t c)) (hw : s.writable (spanRows t d)) :
    ∃ u, v.mvpRun t w = .ok u ∧ s.putsOut core t w (spanRows t d) u := by
  simp only [mvpSpans, List.cons.injEq, and_true] at hspans
  obtain ⟨rfl, rfl, rfl, rfl⟩ := hspans
  simp only [State.canRead_append, spanRows_loft, spanRows_near] at hread hw ⊢
  obtain ⟨⟨hra, hrb⟩, hrc⟩ := hread
  have hra := State.readRows_of_canRead (State.canRead_congr hra e) false
  have hrb := State.readRows_of_canRead (State.canRead_congr hrb e) false
  have hrc := State.readRows_of_canRead (State.canRead_congr hrc e) false
  simp only [State.usedRows, Bool.false_eq_true, if_false] at hra hrb hrc
  simp only [State.mvpRun, hfmt, hra, hrb, hrc, Ex.ok_bind]
  cases hp : bitAt w 120 with
  | true =>
    simp only [hp, if_true] at hw ⊢
    refine State.putsOut_of_writeRows ((hd.addFlags _).of_changes (State.changes_countCore ..)) (((State.changes_addFlags ..).same .rows).trans e)
      (((State.changes_addFlags ..).same .lpddr).trans hlp) (State.mvp_of_cores ((State.changes_addFlags ..).same .cores) hm) hw ?_ (cwOver w)
    have hncb : bits w 81 10 < 2 ^ 10 := bits_lt ..
    refine (map_fst_maskRows _ _ _ ?_).trans (congrArg (nearRowsOf _ _) ?_) <;> rw [length_flatMap_const (n := 128) _ fun _ _ => (List.length_map ..).trans List.length_range] <;>
      simp only [List.length_map, List.length_range] <;> omega
  | false =>
    simp only [hp, Bool.false_eq_true, if_false] at hw ⊢
    have hd' := fun g => ((hd.addFlags g).of_changes (State.changes_countCore C.mvpBlocks t.core ((bits w 81 10 + 1) * (bits w 72 9 + 1))))
    refine State.putsOut_of_writeRows ((hd' _).packOut ..).1 ?_ ?_ (((hd' _).packOut ..).2.1.trans ?_) hw (((hd' _).packOut ..).2.2.trans ?_) (cwOver w)
    · exact ((State.changes_packOut ..).same .rows).trans (((State.changes_addFlags ..).same .rows).trans e)
    · exact ((State.changes_packOut ..).same .lpddr).trans (((State.changes_addFlags ..).same .lpddr).trans hlp)
    · exact State.mvp_of_cores ((State.changes_addFlags ..).same .cores) hm
    · have hnvec : bits w 91 3 < 2 ^ 3 := bits_lt ..
      refine congrArg (nearRowsOf _ _) ((length_outGroups _ (bits w 91 3 + 1) (by omega) ?_).trans ?_)
      · intro st hst
        obtain ⟨_, hl, rfl⟩ := List.mem_map.1 hst
        obtain ⟨_, -, rfl⟩ := List.mem_map.1 hl
        simp only [List.length_map, List.length_range]
      · simp only [List.length_map, List.length_range]

/-! The records of the gleaner (R143). -/

theorem mem_of_mem_dedup {α : Type} [DecidableEq α] {l : List α} {a : α} (h : a ∈ dedup l) : a ∈ l := by
  induction l with
  | nil => exact h
  | cons b l ih =>
    obtain rfl | h := List.mem_cons.1 h
    · exact List.mem_cons_self ..
    · exact List.mem_cons_of_mem b (ih (List.mem_filter.1 h).1)

/-- Rows of selected records that the task may read are read. -/
theorem State.readRecords_of_canRead {src rn n : Nat} {want sel : List Nat} (hwant : ∀ i ∈ want, i < rn) (hsel : ∀ k ∈ sel, k < n)
    (hread : v.canRead t.id (loftRowsOf t.cl src (n * rn))) : ∃ l, v.readRecords t src rn want sel = .ok (l, v) := by
  induction sel with
  | nil => exact ⟨_, rfl⟩
  | cons k sel ih =>
    obtain ⟨l, hl⟩ := ih fun j hj => hsel j (List.mem_cons_of_mem k hj)
    have hrec : v.canRead t.id (want.map fun i => RowRef.loft t.cl (src + k * rn + i)) := by
      refine State.canRead_subset hread fun x hx => ?_
      obtain ⟨i, hi, rfl⟩ := List.mem_map.1 hx
      have hk : (k + 1) * rn ≤ n * rn := Nat.mul_le_mul_right rn (hsel k (List.mem_cons_self ..))
      have hi := hwant i hi
      rw [Nat.succ_mul] at hk
      exact List.mem_map.2 ⟨k * rn + i, List.mem_range.2 (by omega), by rw [Nat.add_assoc]⟩
    simp only [State.readRecords, State.readRows_of_canRead hrec false, State.usedRows, Bool.false_eq_true, if_false, Ex.ok_bind, hl]
    exact ⟨_, rfl⟩

/-- The element rows and the scale rows that a down command asks of a record are the record's. -/
theorem gleanRows_lt (hform : gleanForm w f = true) (hdown : bitAt w 52 = true) {i : Nat}
    (hi : i ∈ dedup ((List.range (128 * (bits w 115 8 + 1))).map fun i => (128 * cwExt w + i) / f.perRow)) : i < (recordRows w f).1 := by
  obtain ⟨k, hk, rfl⟩ := List.mem_map.1 (mem_of_mem_dedup hi)
  have hk := List.mem_range.1 hk
  simp only [gleanForm, hdown, Bool.not_true, Bool.false_or, Bool.and_eq_true, decide_eq_true_eq] at hform
  obtain ⟨-, -, hlines⟩ := hform
  have hp : 0 < f.perRow := by cases f <;> decide
  calc (128 * cwExt w + k) / f.perRow < (128 * cwExt w + k) / f.perRow + 1 := Nat.lt_succ_self _
    _ = (128 * cwExt w + k + f.perRow) / f.perRow := (Nat.add_div_right _ hp).symm
    _ ≤ (128 * (bits w 53 8 + 1) + f.perRow - 1) / f.perRow := Nat.div_le_div_right (by omega)

theorem gleanScales_lt (hs : f.sidecar = true) {n : Nat} (hn : n < (recordRows w f).1) : n / f.served < (recordRows w f).2 := by
  cases f
  case mx8e4m3 => simp only [recordRows, Fmt.perRow, Fmt.lines, Fmt.served, Fmt.sidecar, if_true] at hn ⊢; omega
  case mx8e5m2 => simp only [recordRows, Fmt.perRow, Fmt.lines, Fmt.served, Fmt.sidecar, if_true] at hn ⊢; omega
  case mx4 => simp only [recordRows, Fmt.perRow, Fmt.lines, Fmt.served, Fmt.sidecar, if_true] at hn ⊢; omega
  all_goals cases hs

/-- The rows of a record that mp.glean asks for. -/
def gleanWant (w : CmdWord) (f : Fmt) : List Nat :=
  if bitAt w 52 then
    let rows := dedup ((List.range (128 * (bits w 115 8 + 1))).map fun i => (128 * cwExt w + i) / f.perRow)
    rows ++ (if f.sidecar then dedup (rows.map fun n => (recordRows w f).1 + n / f.served) else [])
  else List.range ((recordRows w f).1 + (recordRows w f).2)

theorem gleanWant_lt (hform : gleanForm w f = true) {i : Nat} (hi : i ∈ gleanWant w f) : i < (recordRows w f).1 + (recordRows w f).2 := by
  unfold gleanWant at hi
  split at hi
  · next hdown =>
    obtain hi | hi := List.mem_append.1 hi
    · exact Nat.lt_add_right _ (gleanRows_lt hform hdown hi)
    · split at hi
      · next hs =>
        obtain ⟨n, hn, rfl⟩ := List.mem_map.1 (mem_of_mem_dedup hi)
        exact Nat.add_lt_add_left (gleanScales_lt hs (gleanRows_lt hform hdown hn)) _
      · cases hi
  · exact List.mem_range.1 hi

/-- mvp.glean (R143 to R146). -/
theorem State.mvpGlean_of_canRead {a b c d : Bool × Nat × Nat} (hfmt : Fmt.ofCode (cwFmt w) = some f) (hform : gleanForm w f = true)
    (hspans : gleanSpans w f = [a, b, c, d]) (hd : s.during core t w t.lines t.scalars v) (e : v.rows = s.rows) (hlp : v.lpddr = s.lpddr)
    (hm : (v.core t.core).mvp = some t.id) (hread : s.canRead t.id (spanRows t a ++ spanRows t b ++ spanRows t c))
    (hw : s.writable (spanRows t d)) : ∃ u, v.mvpGlean t w = .ok u ∧ s.putsOut core t w (spanRows t d) u := by
  simp only [gleanSpans, List.cons.injEq, and_true] at hspans
  obtain ⟨rfl, rfl, rfl, rfl⟩ := hspans
  simp only [State.canRead_append, spanRows_loft, spanRows_near] at hread hw ⊢
  obtain ⟨⟨hra, hrb⟩, hrc⟩ := hread
  have hra := State.canRead_congr hra e
  have hrb := State.readRows_of_canRead (State.canRead_congr hrb e) false
  have hrc := State.readRows_of_canRead (State.canRead_congr hrc e) false
  simp only [State.usedRows, Bool.false_eq_true, if_false] at hrb hrc
  have hrecs : ∀ sel : List Nat, (∀ k ∈ sel, k < bits w 61 12 + 1) → ∃ l, v.readRecords t (bits w 32 20)
      ((recordRows w f).1 + (recordRows w f).2) (gleanWant w f) sel = .ok (l, v) := fun sel hsel =>
    State.readRecords_of_canRead (fun i hi => gleanWant_lt hform hi) hsel hra
  have hnvec : bits w 86 3 < 2 ^ 3 := bits_lt ..
  choose recs hrecs using fun p : Nat → Bool => hrecs ((List.range (bits w 61 12 + 1)).filter p) fun k hk =>
    List.mem_range.1 (List.mem_filter.1 hk).1
  unfold gleanWant at hrecs
  have hcount : ∀ n, s.during core t w t.lines t.scalars ((v.countCore C.glNeurons t.core (bits w 61 12 + 1)).countCore C.glSelected t.core n) :=
    fun n => (hd.of_changes (State.changes_countCore ..)).of_changes (State.changes_countCore ..)
  simp only [State.mvpGlean, hfmt, hrb, hrc, Ex.ok_bind, hrecs]
  cases hdown : bitAt w 52 with
  | true =>
    simp only [hdown, if_true, gleanStrips] at hw ⊢
    refine State.putsOut_of_writeRows (((hcount _).addFlags _).packOut ..).1 ?_ ?_ ((((hcount _).addFlags _).packOut ..).2.1.trans ?_) hw
      ((((hcount _).addFlags _).packOut ..).2.2.trans ?_) (cwOver w)
    · exact ((State.changes_packOut ..).same .rows).trans (((State.changes_addFlags ..).same .rows).trans e)
    · exact ((State.changes_packOut ..).same .lpddr).trans (((State.changes_addFlags ..).same .lpddr).trans hlp)
    · exact State.mvp_of_cores ((State.changes_addFlags ..).same .cores) hm
    · refine congrArg (nearRowsOf _ _) ((length_outGroups _ (bits w 86 3 + 1) (by omega) ?_).trans ?_)
      · intro st hst
        obtain ⟨_, hl, rfl⟩ := List.mem_map.1 hst
        obtain ⟨_, -, rfl⟩ := List.mem_map.1 hl
        simp only [List.length_map, List.length_range]
      · simp only [List.length_map, List.length_range]
  | false =>
    simp only [hdown, Bool.false_eq_true, if_false, gleanStrips] at hw ⊢
    have haudit : ∀ (u : State) mask us, u.changes [.ctrs] (if t.audit then u.auditCount t (bits w 86 3 + 1) mask us else u) := fun u mask us =>
      State.changes_ite (State.changes_auditCount ..) .refl
    refine State.putsOut_of_writeRows ((((hcount _).addFlags _).of_changes (haudit ..)).packOut ..).1 ?_ ?_
      (((((hcount _).addFlags _).of_changes (haudit ..)).packOut ..).2.1.trans ?_) hw
      (((((hcount _).addFlags _).of_changes (haudit ..)).packOut ..).2.2.trans ?_) (cwOver w)
    · exact ((State.changes_packOut ..).same .rows).trans (((haudit ..).same .rows).trans (((State.changes_addFlags ..).same .rows).trans e))
    · exact ((State.changes_packOut ..).same .lpddr).trans
        (((haudit ..).same .lpddr).trans (((State.changes_addFlags ..).same .lpddr).trans hlp))
    · exact State.mvp_of_cores ((haudit ..).same .cores) (State.mvp_of_cores ((State.changes_addFlags ..).same .cores) hm)
    · refine congrArg (nearRowsOf _ _) ((length_outGroups _ (bits w 86 3 + 1) (by omega) ?_).trans ?_)
      · intro st hst
        obtain ⟨_, -, rfl⟩ := List.mem_map.1 hst
        simp only [List.length_map, List.length_range]
      · simp only [List.length_map, List.length_range]

theorem State.spans_form {ss : List (Bool × Nat × Nat)} {form : Bool} (h : s.spans t ss form = .ok ()) : form = true := by
  unfold State.spans at h
  split at h
  · cases h
  · unfold require at h
    split at h
    · next hc => exact (Bool.and_eq_true _ _ ▸ hc).1
    · cases h

theorem gleanForm_of_checks (hfmt : Fmt.ofCode (cwFmt w) = some f) (h : s.gleanChecks t w = .ok ()) : gleanForm w f = true := by
  simp only [State.gleanChecks, hfmt] at h
  cases hs : s.spans t (gleanSpans w f) (gleanForm w f) with
  | error x => rw [hs] at h; cases h
  | ok _ => exact State.spans_form hs

/-- The state in which a task has just taken the unit. -/
def State.withMvp (s : State) (t : Task) : State := (s.setCore t.core { s.core t.core with mvp := some t.id }).syncUnits t.core

theorem State.during_withMvp (hn : s.nextCmd core = some (t, w)) : s.during core t w t.lines t.scalars (s.withMvp t) :=
  ((State.during_start hn).setCore (y := { s.core t.core with mvp := some t.id }) rfl).of_changes (State.changes_syncUnits ..)

theorem State.mvp_withMvp (s : State) (t : Task) : ((s.withMvp t).core t.core).mvp = some t.id :=
  State.mvp_of_cores ((State.changes_syncUnits ..).same .cores) (congrArg Core.mvp (State.core_setCore_same ..))

/-- What a command of the matrix-vector path comes to once it issues. -/
theorem issueRun_putsOut {op : Nat} {rs : List RowRef} {g : Task → Cmd → State → Run} (h : core < 2304) (hn : s.nextCmd core = some (t, w))
    (ho : cwOp w = op) (he : g t (s.cmd t w []) s = .done v) (hv : s.putsOut core t w rs v)
    (hop : (opCodes.contains op && op != 0x26 && op != 0) = true := by decide) :
    ∃ u, issueRun op core [] s g = .next u ∧ u.issuedOne t ∧ (u.core t.core).mvp = some t.id ∧ u.pendingOf t.id rs ∧ s.rowsElsewhere u rs
      ∧ u.lpddr = s.lpddr := by
  obtain ⟨u, hu, hone, -, hf, -⟩ := issueRun_done h hn ho he hv.during hop
  have hcore := State.core_of_issueRun h hn ho he hv.during hu (by simp only [Bool.and_eq_true] at hop ⊢; exact hop.1)
  obtain ⟨hpend, helse⟩ := State.wrote_of_rows hv.wrote (hf.same .rows)
  exact ⟨u, hu, hone, (congrArg Core.mvp hcore).trans hv.mvp, hpend, helse, (hf.same .lpddr).trans hv.lpddr⟩

end Sys2Proof.Machine

open Sys2Proof Sys2Proof.Machine

/-- Settles O28: the source rows are FULL and the rows of the tiles EMPTY; the quota of those stands while the encoder's flags are raised. -/
theorem encoderWritesTiles : Obligations.EncoderWritesTiles := by
  unfold Obligations.EncoderWritesTiles
  intro core s t w f hcore hn hop hfmt hc henc hread ws hq hr hm hw hnd
  obtain ⟨-, -, hc', -, -⟩ := State.nextCmd_eq_some hn
  have hd : s.during core t w t.lines t.scalars (s.setCore t.core { s.core t.core with enc := some t.id }) :=
    (State.during_start hn).setCore rfl
  obtain ⟨v, hv, hd, hcores, hlp, z, hz, hrows⟩ := State.spEnc_of_canRead (hc' ▸ hcore) hfmt hd rfl rfl hread rfl hq hr hm hw
  have hrun : Run.owned s (s.encTaken t w) (fun s => s.spEnc t w) = .done v := by
    rw [State.encTaken_of_free hc henc]
    simp only [Run.owned, hv]
    rfl
  obtain ⟨u, hu, hone, -, hf, -⟩ :=
    issueRun_done (f := fun t q s => .owned s (s.encTaken t q.word) fun s => s.spEnc t q.word) (ups := []) hcore hn hop hrun hd
  have hcore' := State.core_of_issueRun hcore hn hop hrun hd hu
  have hrows := (hf.same .rows).trans hrows
  have hkeys : (ws.map fun p => rowKey p.1).Nodup := by
    refine (List.map_map (f := Prod.fst) (g := rowKey) (l := ws)) ▸ List.Nodup.map_on (fun x hx y hy hxy => ?_) hnd
    obtain ⟨⟨p, hp, rfl⟩, q, hq, rfl⟩ := And.intro (List.mem_map.1 hx) (List.mem_map.1 hy)
    obtain ⟨⟨n, hp⟩, n', hq⟩ := And.intro (mem_encWrites hp) (mem_encWrites hq)
    rw [hp, hq] at hxy ⊢
    exact congrArg _ (Nat.add_left_cancel hxy)
  refine ⟨u, hu, hone, ?_, fun p hp => ?_, ?_, ?_, (hf.same .lpddr).trans hlp⟩
  · rw [hcore', State.core, hcores]
    exact congrArg Core.enc (State.core_setCore_same ..)
  · rw [State.row_congr hrows]
    exact State.data_putRows hkeys hp z t.id
  · exact State.pendingOf_congr (z.putRows_wrote t.id ws).1 hrows
  · exact State.rowsElsewhere_of_rows (State.wrote_congr (z.putRows_wrote t.id ws) hz).2 hrows

/-- Settles O27: the rows read are FULL and the rows written EMPTY, so the run goes through; an output has as many rows as its span. -/
theorem matrixVectorWritesItsOutput : Obligations.MatrixVectorWritesItsOutput := by
  unfold Obligations.MatrixVectorWritesItsOutput
  intro core s t w f a b c d hcore hn hfmt hfree hread hw
  have hd := State.during_withMvp hn
  have hf := (State.changes_syncUnits (s := s.setCore t.core { s.core t.core with mvp := some t.id }) t.core)
  have hown := State.ownMvp_of_free hfree
  refine ⟨fun hop hspans hc => ?_, fun hop hspans hc => ?_⟩
  · obtain ⟨v, hv, hout⟩ := State.mvpRun_of_canRead hfmt hspans hd (hf.same .rows) (hf.same .lpddr) (s.mvp_withMvp t) hread hw
    refine issueRun_putsOut (g := fun t q s => .owned s (s.mvpTaken t q.word) fun s => s.mvpRun t q.word) hcore hn hop ?_ hout
    simp only [State.cmd_word, State.mvpTaken, hc, hown, Ex.ok_bind, Run.owned]
    rw [show (s.setCore t.core { s.core t.core with mvp := some t.id }).syncUnits t.core = s.withMvp t from rfl, hv]
    rfl
  · obtain ⟨v, hv, hout⟩ := State.mvpGlean_of_canRead hfmt (gleanForm_of_checks hfmt hc) hspans hd (hf.same .rows) (hf.same .lpddr) (s.mvp_withMvp t) hread
      hw
    refine issueRun_putsOut (g := fun t q s => .owned s (s.gleanTaken t q.word) fun s => s.mvpGlean t q.word) hcore hn hop ?_ hout
    simp only [State.cmd_word, State.gleanTaken, hc, hown, Ex.ok_bind, Run.owned]
    rw [show (s.setCore t.core { s.core t.core with mvp := some t.id }).syncUnits t.core = s.withMvp t from rfl, hv]
    rfl
end

section
/-! Silos: their counts after a write of the pointers, and silo.push and silo.pop, row by row (R193 to R195). -/

-- The frame conditions are evaluated in the kernel: theorems elaborated in parallel would each hold a thread while they wait for it.
set_option Elab.async false

namespace Sys2Proof.Machine

variable {s u v : State} {t k : Task} {r : RowRef} {rs : List RowRef} {w : CmdWord} {core j : Nat} {L : SMap Row} {S : SMap F32}
  {x : SiloRef} {y z : Silo}

/-! The registers of a silo. -/

theorem bits_ofNat (n lo len : Nat) (h : lo + len ≤ 64) : bits (BitVec.ofNat 64 n) lo len = n / 2 ^ lo % 2 ^ len := by
  refine Nat.eq_of_testBit_eq fun i => ?_
  rw [testBit_bits, BitVec.getLsbD_ofNat, Nat.testBit_mod_two_pow, Nat.testBit_div_two_pow]
  by_cases hi : i < len
  · simp [hi, show lo + i < 64 by omega, Nat.add_comm]
  · simp [hi]

theorem siloPtrReg_ne_pend (x : SiloRef) : (siloPtrReg x).addr ≠ (siloPendReg x).addr := by
  cases x with
  | near c n => show coreBase c + _ ≠ coreBase c + _; omega
  | loft cl n => show clBase cl + _ ≠ clBase cl + _; omega

theorem siloCfgReg_ne_ptr (x : SiloRef) : (siloCfgReg x).addr ≠ (siloPtrReg x).addr := by
  cases x with
  | near c n => show coreBase c + _ ≠ coreBase c + _; omega
  | loft cl n => show clBase cl + _ ≠ clBase cl + _; omega

theorem siloCfgReg_ne_pend (x : SiloRef) : (siloCfgReg x).addr ≠ (siloPendReg x).addr := by
  cases x with
  | near c n => show coreBase c + _ ≠ coreBase c + _; omega
  | loft cl n => show clBase cl + _ ≠ clBase cl + _; omega

theorem State.silo_congr (hc : u.rd (siloCfgReg x) = s.rd (siloCfgReg x)) (hp : u.rd (siloPtrReg x) = s.rd (siloPtrReg x))
    (hq : u.rd (siloPendReg x) = s.rd (siloPendReg x)) : u.silo x = s.silo x := by
  simp only [State.silo, hc, hp, hq]

/-- The counts of a silo fit its registers. -/
structure Silo.fits (y : Silo) : Prop where
  head : y.head < 2 ^ 22
  tail : y.tail < 2 ^ 22
  headP : y.headP < 2 ^ 22
  tailP : y.tailP < 2 ^ 22
  pushCore : y.pushCore < 2 ^ 3
  popCore : y.popCore < 2 ^ 3
  size : y.size < 2 ^ 21

theorem State.silo_fits (s : State) (x : SiloRef) : (s.silo x).fits :=
  ⟨bits_lt .., bits_lt .., bits_lt .., bits_lt .., bits_lt .., bits_lt .., bits_lt ..⟩

/-- The configuration of a silo stands. -/
def Silo.sameCfg (y z : Silo) : Prop :=
  z.base = y.base ∧ z.size = y.size ∧ z.job = y.job ∧ z.en = y.en ∧ z.prodDma = y.prodDma ∧ z.consDma = y.consDma

theorem siloPend_bits {a b c p d q : Nat} (ha : a < 2 ^ 22) (hb : b < 2 ^ 22) (hc : c < 2 ^ 3) (hp : p < 2) (hd : d < 2 ^ 3) (hq : q < 2) :
    packBits [(22, a), (10, 0), (22, b), (2, 0), (3, c), (1, p), (3, d), (1, q)]
      = a + 2 ^ 32 * b + 2 ^ 56 * c + 2 ^ 59 * p + 2 ^ 60 * d + 2 ^ 63 * q := by
  simp only [packBits, Nat.mod_eq_of_lt ha, Nat.mod_eq_of_lt hb, Nat.mod_eq_of_lt hc, Nat.mod_eq_of_lt hd,
    Nat.mod_eq_of_lt (show p < 2 ^ 1 from hp), Nat.mod_eq_of_lt (show q < 2 ^ 1 from hq), Nat.zero_mod]
  ring

/-- A silo reads back as its counts were written. -/
theorem State.silo_setSiloPtrs (hf : z.fits) (hc : (s.silo x).sameCfg z) : (s.setSiloPtrs x z).silo x = z := by
  obtain ⟨hbase, hsize, hjob, hen, hprod, hcons⟩ := hc
  obtain ⟨hhead, htail, hheadP, htailP, hpush, hpop, -⟩ := hf
  have hcfg : (s.setSiloPtrs x z).rd (siloCfgReg x) = s.rd (siloCfgReg x) :=
    (State.rd_wr_ne _ _ (siloCfgReg_ne_pend x)).trans (State.rd_wr_ne _ _ (siloCfgReg_ne_ptr x))
  have hptr : (s.setSiloPtrs x z).rd (siloPtrReg x) = BitVec.ofNat 64 (packBits [(22, z.head), (10, 0), (22, z.tail)]) :=
    (State.rd_wr_ne _ _ (siloPtrReg_ne_pend x)).trans (State.rd_wr_same ..)
  have hpend : (s.setSiloPtrs x z).rd (siloPendReg x) = BitVec.ofNat 64 (packBits [(22, z.headP), (10, 0), (22, z.tailP), (2, 0),
      (3, z.pushCore), (1, b2n (z.tailP != z.tail)), (3, z.popCore), (1, b2n (z.headP != z.head))]) := State.rd_wr_same ..
  have hb2n : ∀ b, b2n b < 2 := fun b => by cases b <;> decide
  have hb := hb2n (z.tailP != z.tail)
  have hb' := hb2n (z.headP != z.head)
  unfold State.silo
  rw [hcfg, hptr, hpend]
  have hw : packBits [(22, z.head), (10, 0), (22, z.tail)] = z.head + 2 ^ 32 * z.tail := by
    simp only [packBits]
    omega
  have hq := siloPend_bits hheadP htailP hpush hb hpop hb'
  rw [hw, hq]
  show Silo.mk _ _ _ _ _ _ _ _ _ _ _ _ = z
  rw [bits_ofNat _ 0 22 (by decide), bits_ofNat _ 32 22 (by decide), bits_ofNat _ 0 22 (by decide), bits_ofNat _ 32 22 (by decide),
    bits_ofNat _ 56 3 (by decide), bits_ofNat _ 60 3 (by decide)]
  generalize b2n (z.tailP != z.tail) = p at hb ⊢
  generalize b2n (z.headP != z.head) = q at hb' ⊢
  obtain ⟨base, size, job, en, prodDma, consDma, head, tail, headP, tailP, pushCore, popCore⟩ := z
  simp only [State.silo] at hbase hsize hjob hen hprod hcons hhead htail hheadP htailP hpush hpop
  simp only [Silo.mk.injEq]
  refine ⟨hbase.symm, hsize.symm, hjob.symm, hen.symm, hprod.symm, hcons.symm, ?_, ?_, ?_, ?_, ?_, ?_⟩ <;> omega

theorem Silo.plus_lt (h : y.fits) (c n : Nat) : y.plus c n < 2 ^ 22 := by
  obtain ⟨-, -, -, -, -, -, hsize⟩ := h
  unfold Silo.plus Silo.modulus
  split
  · decide
  · exact lt_of_lt_of_le (Nat.mod_lt _ (by omega)) (by omega)

theorem Silo.plus_plus (y : Silo) (c i j : Nat) : y.plus (y.plus c i) j = y.plus c (i + j) := by
  unfold Silo.plus
  split
  · rfl
  · rw [Nat.mod_add_mod, Nat.add_assoc]

theorem siloRow_plus_zero (x : SiloRef) (y : Silo) (c : Nat) : siloRow x y (y.plus c 0) = siloRow x y c := by
  have h : (if y.size = 0 then 0 else y.plus c 0 % y.size) = if y.size = 0 then 0 else c % y.size := by
    unfold Silo.plus Silo.modulus
    split
    · rfl
    · rw [Nat.add_zero, Nat.mod_mul_left_mod]
  simp only [siloRow, h]

/-! silo.push (R194). -/

/-- A silo after pushes of `i` rows from a core. -/
def Silo.pushed (y : Silo) (c i : Nat) : Silo := if i = 0 then y else { y with tailP := y.plus y.tailP i, pushCore := c % 8 }

theorem Silo.pushed_succ (y : Silo) (c i : Nat) :
    { y.pushed c i with tailP := (y.pushed c i).plus (y.pushed c i).tailP 1, pushCore := c % 8 } = y.pushed c (i + 1) := by
  unfold Silo.pushed
  split
  · next h => simp [h]
  · exact congrArg (fun n => { y with tailP := n, pushCore := c % 8 }) (y.plus_plus ..)

theorem siloRow_pushed (x : SiloRef) (y : Silo) (c i : Nat) :
    siloRow x (y.pushed c i) (y.pushed c i).tailP = siloRow x y (y.plus y.tailP i) := by
  unfold Silo.pushed
  split
  · next h => rw [h, siloRow_plus_zero]
  · rfl

theorem Silo.credit_pushed {c i : Nat} (h : i < y.credit) : (y.pushed c i).credit ≠ 0 := by
  unfold Silo.pushed
  split
  · omega
  · simp only [Silo.credit, Silo.minus, Silo.plus, Silo.modulus] at h ⊢
    split at h
    · omega
    · next hs =>
      rw [if_neg hs, if_neg hs]
      have hb : y.head % (2 * y.size) < 2 * y.size := Nat.mod_lt _ (by omega)
      generalize hq : (y.tailP + 2 * y.size - y.head % (2 * y.size)) % (2 * y.size) = m at h
      have hm : ((y.tailP + i) % (2 * y.size) + 2 * y.size - y.head % (2 * y.size)) % (2 * y.size) = m + i := by
        rw [Nat.add_sub_assoc hb.le, Nat.mod_add_mod, show y.tailP + i + (2 * y.size - y.head % (2 * y.size))
          = y.tailP + 2 * y.size - y.head % (2 * y.size) + i by omega, Nat.add_mod, hq, Nat.mod_eq_of_lt (a := i) (by omega),
          Nat.mod_eq_of_lt (by omega)]
      omega

theorem Silo.pushCore_pushed {c i : Nat} (h : y.tailP = y.tail ∨ y.pushCore = c % 8) :
    ((y.pushed c i).tailP != (y.pushed c i).tail && (y.pushed c i).pushCore != c % 8) = false := by
  unfold Silo.pushed
  split
  · obtain h | h := h <;> simp [h]
  · simp

theorem State.during.bindAll (h : s.during core t w L S u) (ts : List Task) : s.during core t w L S (u.bindAll t.id ts) := by
  unfold State.bindAll
  refine List.foldlRecOn (motive := fun v => s.during core t w L S v) ts _ h fun v hv b _ => ?_
  split
  · exact hv
  · exact hv.mapTask (fun z => by split <;> rfl) (fun z => by split <;> exact ⟨rfl, rfl, rfl, rfl, rfl⟩) (fun z => by split <;> rfl)
      fun z => by split <;> rfl

/-- A silo's counts move with a task's appends or takes: no row changes. -/
theorem State.during.siloMoves (h : s.during core t w L S u) {f : Task → Task} (hid : ∀ x, (f x).id = x.id) (hsame : ∀ x : Task, x.sameIssue (f x))
    (hl : ∀ x, (f x).lines = x.lines) (hs : ∀ x, (f x).scalars = x.scalars) (ts : List Task) (hf : z.fits) (hc : (u.silo x).sameCfg z) (c : Ctr) (n : Nat) :
    s.during core t w L S ((((u.bindAll t.id ts).setSiloPtrs x z).modTask t.id f).countCore c n)
      ∧ ((((u.bindAll t.id ts).setSiloPtrs x z).modTask t.id f).countCore c n).silo x = z
      ∧ u.changes [.regs, .ctrs, .tasks] ((((u.bindAll t.id ts).setSiloPtrs x z).modTask t.id f).countCore c n) := by
  have hb : (u.bindAll t.id ts).regs = u.regs := (State.changes_bindAll (s := u) t.id ts).same .regs
  have hch : ((u.bindAll t.id ts).setSiloPtrs x z).changes [.ctrs, .tasks] ((((u.bindAll t.id ts).setSiloPtrs x z).modTask t.id f).countCore c n) :=
    (State.changes_countCore ..).after ((State.changes_modTask _ _ fun x _ => hid x).after .refl)
  have hq := hch.same .regs
  refine ⟨?_, ?_, ?_⟩
  · exact State.during.of_changes (((h.bindAll ts).of_changes (State.changes_setSiloPtrs x z)).mapTask hid hsame hl hs) (State.changes_countCore c n 1)
  · have hsilo : ∀ {a b : State}, b.regs = a.regs → b.silo x = a.silo x := fun e => by simp only [State.silo, State.rd, e]
    have hc' : ((u.bindAll t.id ts).silo x).sameCfg z := by rwa [hsilo hb]
    exact (hsilo hq).trans (State.silo_setSiloPtrs hf hc')
  · exact (State.changes_countCore ..).after ((State.changes_modTask _ _ fun x _ => hid x).after ((State.changes_setSiloPtrs ..).after
      ((State.changes_bindAll ..).after .refl)))

/-- One row of a push. -/
theorem State.pushRow_done (h : s.during core t w L S u) (hc : (u.silo x).credit ≠ 0)
    (hp : ((u.silo x).tailP != (u.silo x).tail && (u.silo x).pushCore != t.core % 8) = false) (hr : u.canRead t.id [r])
    (hl : u.lands t.id (siloRow x (u.silo x) (u.silo x).tailP)) : ∃ v, u.pushRow t x r = .ok v ∧ s.during core t w L S v
      ∧ v.silo x = { u.silo x with tailP := (u.silo x).plus (u.silo x).tailP 1, pushCore := t.core % 8 } ∧ v.lpddr = u.lpddr
      ∧ v.rows = (u.putRows t.id [(siloRow x (u.silo x) (u.silo x).tailP, (u.row r).data)]).rows := by
  obtain ⟨hhead, htail, hheadP, -, -, hpop, hsize⟩ := u.silo_fits x
  have hfits := Silo.plus_lt (u.silo_fits x) (u.silo x).tailP 1
  have hw := State.writeRow_of_check (State.writeCheck_of_lands hl false) (u.row r).data
  have hput := h.putRows t.id [(siloRow x (u.silo x) (u.silo x).tailP, (u.row r).data)]
  have hstill : ((u.silo x).credit = 0 || ((u.silo x).tailP != (u.silo x).tail && (u.silo x).pushCore != t.core % 8)) = false := by
    simp [hc, hp]
  simp only [State.pushRow, hstill, State.readRow_of_canRead hr, State.usedRows, Ex.ok_bind, hw, Bool.false_eq_true, if_false]
  generalize hu : u.putRows t.id [(siloRow x (u.silo x) (u.silo x).tailP, (u.row r).data)] = b at hput
  obtain ⟨hd, hsilo, hch⟩ := hput.siloMoves (x := x) (z := { u.silo x with tailP := (u.silo x).plus (u.silo x).tailP 1, pushCore := t.core % 8 })
    (f := fun u => { u with pushes := addTo u.pushes x 1 }) (fun _ => rfl) (fun _ => ⟨rfl, rfl, rfl, rfl, rfl⟩) (fun _ => rfl) (fun _ => rfl)
    (b.pushers x) ⟨hhead, htail, hheadP, hfits, Nat.mod_lt _ (by decide), hpop, hsize⟩ (by subst hu; exact ⟨rfl, rfl, rfl, rfl, rfl, rfl⟩)
    C.siloPushRows t.core
  subst hu
  exact ⟨_, rfl, hd, hsilo, hch.same .lpddr, hch.same .rows⟩

/-! Rows that a task moves one by one. -/

/-- The first `i` rows of `src`, which `id` reads, by take where `take` says so, have gone to those of `dst`. -/
structure State.movesRows (s : State) (id : Nat) (take : Bool) (src dst : List RowRef) (i : Nat) (v : State) : Prop where
  other : ∀ k, ¬ named (dst.take i) k → v.row k = (s.usedRows id take (src.take i)).row k
  landed : ∀ j r d, j < i → src[j]? = some r → dst[j]? = some d →
    (v.row d).tag = .pending ∧ (v.row d).writer = some id ∧ (v.row d).data = (s.row r).data

section
variable {id i : Nat} {take : Bool} {src dst : List RowRef} {d : RowRef}

theorem State.movesRows_start (s : State) (id : Nat) (take : Bool) (src dst : List RowRef) : s.movesRows id take src dst 0 s :=
  ⟨fun k _ => by cases take <;> rfl, fun _ _ _ h => absurd h (Nat.not_lt_zero _)⟩

theorem State.movesRows.congr (h : s.movesRows id take src dst i u) (e : v.rows = u.rows) : s.movesRows id take src dst i v :=
  ⟨fun k hk => (State.row_congr e k).trans (h.other k hk), fun j r d hj hr hd => by rw [State.row_congr e]; exact h.landed j r d hj hr hd⟩

theorem not_named_of_full {l : List RowRef} (hr : (s.row r).tag = .full) (hl : s.writable l) : ¬ named l r := by
  rintro ⟨y, hy, hkey⟩
  have := hl y hy
  rw [State.row_congr_key hkey, hr] at this
  cases this

theorem State.usedRows_concat (s : State) (id : Nat) (take : Bool) (l : List RowRef) (r : RowRef) :
    s.usedRows id take (l ++ [r]) = (s.usedRows id take l).usedRows id take [r] := by
  cases take
  · rfl
  · simp [State.usedRows, State.takeRows]

theorem State.row_usedRows_congr {k : RowRef} (h : u.row k = v.row k) (id : Nat) (take : Bool) (r : RowRef) :
    (u.usedRows id take [r]).row k = (v.usedRows id take [r]).row k := by
  cases take with
  | false => exact h
  | true =>
    show (u.takeRows id [r]).row k = (v.takeRows id [r]).row k
    by_cases hn : named [r] k
    · rw [State.row_takeRows_of_named hn, State.row_takeRows_of_named hn, h]
    · rw [State.row_takeRows_of_not_named hn, State.row_takeRows_of_not_named hn, h]

theorem State.writable_subset {l : List RowRef} (h : s.writable l) (hs : rs ⊆ l) : s.writable rs := fun x hx => h x (hs hx)

variable (hread : s.canRead id src) (hwrite : s.writable dst) (hnd : (dst.map rowKey).Nodup) (h : s.movesRows id take src dst i u)
  (hr : src[i]? = some r) (hd : dst[i]? = some d)

include hread hwrite h hr in
/-- The next row is as the task's reads so far leave it. -/
theorem State.movesRows.row_next : u.row r = (s.usedRows id take (src.take i)).row r :=
  h.other r (not_named_of_full (hread r (List.mem_of_getElem? hr)).1 (State.writable_subset hwrite (List.take_subset ..)))

include hread hwrite h hr in
theorem State.movesRows.canRead_next : u.canRead id [r] := by
  intro x hx
  obtain rfl := List.mem_singleton.1 hx
  rw [h.row_next hread hwrite hr]
  exact State.canRead_usedRows hread take (src.take i) x (List.mem_of_getElem? hr)

include hread hwrite h hr in
theorem State.movesRows.data_next : (u.row r).data = (s.row r).data := by
  rw [h.row_next hread hwrite hr, State.data_usedRows]

include hnd hd in
theorem not_named_take_of_nodup : ¬ named (dst.take i) d := by
  rintro ⟨y, hy, hkey⟩
  obtain ⟨j, hj, hyj⟩ := List.mem_take_iff_getElem.1 hy
  obtain ⟨hi, hdi⟩ := List.getElem?_eq_some_iff.1 hd
  have := List.nodup_iff_injective_get.1 hnd (a₁ := ⟨j, by simp; omega⟩) (a₂ := ⟨i, by simpa using hi⟩) (by simpa [hyj, hdi] using hkey)
  simp only [Fin.mk.injEq] at this
  omega

include hread hwrite hnd h hd in
theorem State.movesRows.lands_next : u.lands id d := by
  have hdt := hwrite d (List.mem_of_getElem? hd)
  have hu := h.other d (not_named_take_of_nodup hnd hd)
  refine .inl ?_
  rw [hu, ← hdt]
  refine congrArg RowSt.tag (State.rowsElsewhere_usedRows s id take (src.take i) d fun x hx hkey => ?_)
  have hx := (hread x (List.mem_of_mem_take hx)).1
  rw [State.row_congr_key hkey, hdt] at hx
  cases hx

include hread hwrite hnd h hr hd in
/-- One more row has gone. -/
theorem State.movesRows.step (hv : v.rows = ((u.usedRows id take [r]).putRows id [(d, (u.row r).data)]).rows) :
    s.movesRows id take src dst (i + 1) v := by
  obtain ⟨his, hri⟩ := List.getElem?_eq_some_iff.1 hr
  obtain ⟨hid, hdi⟩ := List.getElem?_eq_some_iff.1 hd
  have hne : ∀ x ∈ src, ∀ y ∈ dst, rowKey x ≠ rowKey y := fun x hx y hy hkey => by
    have hx := (hread x hx).1
    rw [State.row_congr_key hkey, hwrite y hy] at hx
    cases hx
  have hrow : ∀ k, rowKey d ≠ rowKey k → v.row k = (u.usedRows id take [r]).row k := fun k hk =>
    (State.row_congr hv k).trans (State.row_putRows_of_not_named (by simpa [named] using hk) ..)
  refine ⟨fun k hk => ?_, fun j a b hj ha hb => ?_⟩
  · rw [List.take_succ_eq_append_getElem hid, hdi] at hk
    rw [List.take_succ_eq_append_getElem his, hri, State.usedRows_concat, hrow k fun e => hk ⟨d, by simp, e⟩]
    exact State.row_usedRows_congr (h.other k fun ⟨y, hy, hkey⟩ => hk ⟨y, List.mem_append_left _ hy, hkey⟩) id take r
  · obtain hj | rfl := Nat.lt_succ_iff_lt_or_eq.1 hj
    · obtain ⟨hjd, hbj⟩ := List.getElem?_eq_some_iff.1 hb
      have hkey : rowKey d ≠ rowKey b := fun e => by
        refine not_named_take_of_nodup hnd hd ⟨b, List.mem_take_iff_getElem.2 ⟨j, by omega, hbj⟩, e.symm⟩
      have hb' : v.row b = u.row b := (hrow b hkey).trans (State.rowsElsewhere_usedRows u id take [r] b fun x hx => by
        obtain rfl := List.mem_singleton.1 hx
        exact hne x (List.mem_of_getElem? hr) b (List.mem_of_getElem? hb))
      rw [hb']
      exact h.landed j a b hj ha hb
    · obtain rfl : a = r := Option.some.inj (ha.symm.trans hr)
      obtain rfl : b = d := Option.some.inj (hb.symm.trans hd)
      have hdata := h.data_next hread hwrite hr
      obtain ⟨p, hp, -, hput⟩ := State.row_putRows_of_named (l := [(b, (u.row a).data)]) (named_of_mem (List.mem_singleton_self b)) (u.usedRows id take [a]) id
      obtain rfl := List.mem_singleton.1 hp
      rw [State.row_congr hv, hput]
      exact ⟨rfl, rfl, hdata⟩

variable (hlen : dst.length = src.length) (hall : s.movesRows id take src dst dst.length v)

include hlen hall

theorem State.movesRows.pendingOf : v.pendingOf id dst := by
  intro x hx
  obtain ⟨j, hj, rfl⟩ := List.mem_iff_getElem.1 hx
  obtain ⟨ht, hw, -⟩ := hall.landed j src[j] dst[j] hj (by simp) (by simp)
  exact ⟨ht, hw⟩

theorem State.movesRows.data {p : RowRef × RowRef} (hp : p ∈ dst.zip src) : (v.row p.1).data = (s.row p.2).data := by
  obtain ⟨j, hj, rfl⟩ := List.mem_iff_getElem.1 hp
  simp only [List.length_zip, lt_min_iff] at hj
  obtain ⟨-, -, hdata⟩ := hall.landed j src[j] dst[j] hj.1 (by simp) (by simp)
  simpa using hdata

theorem State.movesRows.rows_other {k : RowRef} (hk : ¬ named dst k) : v.row k = (s.usedRows id take src).row k := by
  have := hall.other k (by rwa [List.take_length])
  rwa [hlen, List.take_length] at this

end

/-- silo.push moves rows of the near store to a silo with room for them. -/
theorem State.siloPush_done {q : Cmd} {src : List RowRef} {n : Nat} (hn : s.nextCmd core = some (t, w)) (hqw : q.word = w) (hq : q.left = .init)
    (hx : siloOf (bitAt w 32) t.core (bits w 33 8) = x) (hcount : bits w 54 13 + 1 = n) (hsrc : nearRowsOf t.core (bits w 41 13) n = src)
    (hquota : s.quota t src = .ok ()) (hform : s.pushForm t w = true) (hmay : t.mayPush x n = true) (hcr : n ≤ (s.silo x).credit)
    (hp : (s.silo x).tailP = (s.silo x).tail ∨ (s.silo x).pushCore = t.core % 8) (hread : s.canRead t.id src)
    (hwrite : s.writable (siloRows x (s.silo x) (s.silo x).tailP n))
    (hnd : ((siloRows x (s.silo x) (s.silo x).tailP n).map rowKey).Nodup) :
    ∃ v, s.siloPush t q = .done v ∧ s.during core t w t.lines t.scalars v ∧ v.silo x = (s.silo x).pushed t.core n ∧ v.lpddr = s.lpddr
      ∧ s.movesRows t.id false src (siloRows x (s.silo x) (s.silo x).tailP n) n v := by
  subst hqw hsrc
  unfold State.siloPush
  simp only [hx, hcount, hq, show Progress.init.rows = 0 from rfl, Nat.sub_zero, hquota, hform, hmay, require_true, Ex.ok_bind, if_true, Run.checked]
  have hs : ∀ i, i < n → (nearRowsOf t.core (bits q.word 41 13) n)[i]? = some (.near t.core (bits q.word 41 13 + i)) := fun i hi => by
    simp [nearRowsOf, hi]
  obtain ⟨v, p, hr, -, hd, hsilo, hlp, hm⟩ := Run.rows_done (s := s) (p := .init) (n := n) (fin := fun s _ => s)
    (f := fun s p => (s.pushRow t x (rowAt (nearRowsOf t.core (bits q.word 41 13) n) p.rows)).map fun s => (s, p.next))
    (fun i v p => p.rows = i ∧ s.during core t q.word t.lines t.scalars v ∧ v.silo x = (s.silo x).pushed t.core i ∧ v.lpddr = s.lpddr
      ∧ s.movesRows t.id false (nearRowsOf t.core (bits q.word 41 13) n) (siloRows x (s.silo x) (s.silo x).tailP n) i v) (by
      rintro i v p hi ⟨hp', hd, hsilo, hlp, hm⟩
      have hri := hs i hi
      have hdi : (siloRows x (s.silo x) (s.silo x).tailP n)[i]? = some (siloRow x (v.silo x) (v.silo x).tailP) := by
        rw [hsilo, siloRow_pushed]
        simp [siloRows, hi]
      obtain ⟨v', hv', hd', hsilo', hlp', hrows⟩ := State.pushRow_done hd (by rw [hsilo]; exact Silo.credit_pushed (by omega))
        (by rw [hsilo]; exact Silo.pushCore_pushed hp) (hm.canRead_next hread hwrite hri) (hm.lands_next hread hwrite hnd hdi)
      refine ⟨v', p.next, ?_, congrArg (· + 1) hp', hd', ?_, hlp'.trans hlp, hm.step hread hwrite hnd hri hdi hrows⟩
      · rw [hp', rowAt, List.getD_eq_getElem?_getD, hri]
        exact congrArg (Except.map _) hv'
      · rw [hsilo', hsilo, Silo.pushed_succ])
    ⟨rfl, State.during_start hn, rfl, rfl, State.movesRows_start ..⟩
  exact ⟨v, hr, hd, hsilo, hlp, hm⟩

/-! silo.pop (R195). -/

/-- A silo after pops of `i` rows by a core. -/
def Silo.popped (y : Silo) (c i : Nat) : Silo := if i = 0 then y else { y with headP := y.plus y.head i, popCore := c % 8 }

theorem Silo.popped_succ (y : Silo) (c i : Nat) :
    { y.popped c i with headP := (y.popped c i).plus y.head (i + 1), popCore := c % 8 } = y.popped c (i + 1) := by
  unfold Silo.popped
  split <;> rfl

theorem siloRow_popped (x : SiloRef) (y : Silo) (c i n : Nat) : siloRow x (y.popped c i) ((y.popped c i).plus n i) = siloRow x y (y.plus n i) := by
  unfold Silo.popped
  split <;> rfl

theorem Silo.popCore_popped {c i : Nat} (h : y.headP = y.head) :
    ((y.popped c i).headP != (y.popped c i).head && (y.popped c i).popCore != c % 8) = false := by
  unfold Silo.popped
  split
  · simp [h]
  · simp

theorem Silo.popStart_of_none {c : Nat} (h : y.headP = y.head) : y.popStart c = y.head := by simp [Silo.popStart, h]

theorem State.note_usedRows (s : State) (id : Nat) (take : Bool) (rs : List RowRef) (x : RowRef) : ((s.usedRows id take rs).row x).note = (s.row x).note := by
  by_cases hn : take = true ∧ named rs x
  · obtain ⟨rfl, hn⟩ := hn
    rw [State.usedRows, if_pos rfl, State.row_takeRows_of_named hn]
  · cases take with
    | false => rfl
    | true => rw [State.usedRows, if_pos rfl, State.row_takeRows_of_not_named (by simpa using hn)]

/-- One row of a pop with TAKE, from count `b` and `p.rows`. -/
theorem State.popRow_done {d : RowRef} {p : Progress} {b : Nat} (h : s.during core t w L S u)
    (hp : ((u.silo x).headP != (u.silo x).head && (u.silo x).popCore != t.core % 8) = false)
    (hb : (if p.rows = 0 then (u.silo x).popStart t.core else p.base) = b) (hr : u.canRead t.id [siloRow x (u.silo x) ((u.silo x).plus b p.rows)])
    (hnote : (u.row (siloRow x (u.silo x) ((u.silo x).plus b p.rows))).note = none) (hl : u.lands t.id d)
    (hne : rowKey d ≠ rowKey (siloRow x (u.silo x) ((u.silo x).plus b p.rows))) :
    ∃ v, u.popRow t x true d p = .ok (v, { p with base := b, rows := p.rows + 1 }) ∧ s.during core t w L S v
      ∧ v.silo x = { u.silo x with headP := (u.silo x).plus b (p.rows + 1), popCore := t.core % 8 } ∧ v.lpddr = u.lpddr
      ∧ v.rows = ((u.usedRows t.id true [siloRow x (u.silo x) ((u.silo x).plus b p.rows)]).putRows t.id
          [(d, (u.row (siloRow x (u.silo x) ((u.silo x).plus b p.rows))).data)]).rows := by
  obtain ⟨hhead, htail, -, htailP, hpush, -, hsize⟩ := u.silo_fits x
  have hfits := Silo.plus_lt (u.silo_fits x) b (p.rows + 1)
  have hbase : (if p.rows = 0 then { p with base := (u.silo x).popStart t.core } else p) = { p with base := b } := by
    subst hb
    split <;> rfl
  generalize hrow : siloRow x (u.silo x) ((u.silo x).plus b p.rows) = r at hr hnote hne ⊢
  have hstale : u.staleUse r = false := by simp [State.staleUse, hnote]
  have hl' : (u.usedRows t.id true [r]).lands t.id d := by
    unfold State.lands
    rwa [State.rowsElsewhere_usedRows u t.id true [r] d (by simpa [eq_comm] using hne)]
  have hw := State.writeRow_of_check (State.writeCheck_of_lands hl' false) (u.row r).data
  have hput := (h.usedRows t.id true [r]).putRows t.id [(d, (u.row r).data)]
  simp only [State.popRow, hp, Bool.true_and, hbase, hrow, hstale, State.readRow_of_canRead hr, Ex.ok_bind, hw, Bool.false_eq_true, if_false,
    Bool.not_true]
  have hbn : ((((u.usedRows t.id true [r]).setRow d (((u.usedRows t.id true [r]).row d).writtenBy t.id (u.row r).data)).bind t.id none).row r).note
      = none := by
    rw [State.row_congr (State.bind_rows ..), State.row_setRow, if_neg hne, State.note_usedRows, hnote]
  simp only [hbn, Bool.false_eq_true, if_false]
  generalize hu : (u.usedRows t.id true [r]).putRows t.id [(d, (u.row r).data)] = c at hput
  have hsame : (c.silo x) = u.silo x := by
    subst hu
    rfl
  have hlp : c.lpddr = u.lpddr := by
    subst hu
    rfl
  obtain ⟨hd, hsilo, hch⟩ := hput.siloMoves (x := x) (z := { u.silo x with headP := (u.silo x).plus b (p.rows + 1), popCore := t.core % 8 })
    (f := fun u => { u with pops := addTo u.pops x 1 }) (fun _ => rfl) (fun _ => ⟨rfl, rfl, rfl, rfl, rfl⟩) (fun _ => rfl) (fun _ => rfl)
    (c.poppers x) ⟨hhead, htail, hfits, htailP, hpush, Nat.mod_lt _ (by decide), hsize⟩ (by rw [hsame]; exact ⟨rfl, rfl, rfl, rfl, rfl, rfl⟩)
    C.siloPopRows t.core
  subst hu
  exact ⟨_, rfl, hd, hsilo, (hch.same .lpddr).trans hlp, hch.same .rows⟩

/-- silo.pop with TAKE moves rows of a silo to the near store. -/
theorem State.siloPop_done {q : Cmd} {dst : List RowRef} {n : Nat} (hn : s.nextCmd core = some (t, w)) (hqw : q.word = w) (hq : q.left = .init)
    (hx : siloOf (bitAt w 32) t.core (bits w 33 8) = x) (hcount : bits w 54 13 + 1 = n) (hdst : nearRowsOf t.core (bits w 41 13) n = dst)
    (htake : cwAcc w = true) (hquota : s.quota t dst = .ok ()) (hform : s.popForm t w = true) (hmay : ∀ r ∈ dst, t.mayWrite (rowNo r) = true)
    (hp : (s.silo x).headP = (s.silo x).head) (hnote : ∀ r ∈ siloRows x (s.silo x) (s.silo x).head n, (s.row r).note = none)
    (hread : s.canRead t.id (siloRows x (s.silo x) (s.silo x).head n)) (hwrite : s.writable dst) (hnd : (dst.map rowKey).Nodup) :
    ∃ v, s.siloPop t q = .done v ∧ s.during core t w t.lines t.scalars v ∧ v.silo x = (s.silo x).popped t.core n ∧ v.lpddr = s.lpddr
      ∧ s.movesRows t.id true (siloRows x (s.silo x) (s.silo x).head n) dst n v := by
  subst hqw hdst
  unfold State.siloPop
  have hout : outputs t ((nearRowsOf t.core (bits q.word 41 13) n).map rowNo) = .ok () :=
    outputs_of_mayWrite fun r hr => by
      obtain ⟨z, hz, rfl⟩ := List.mem_map.1 hr
      exact hmay z hz
  simp only [hx, hcount, hq, show Progress.init.rows = 0 from rfl, Nat.sub_zero, hquota, hform, hout, htake, require_true, Ex.ok_bind, Run.checked]
  have hs : ∀ i, i < n → (nearRowsOf t.core (bits q.word 41 13) n)[i]? = some (.near t.core (bits q.word 41 13 + i)) := fun i hi => by
    simp [nearRowsOf, hi]
  obtain ⟨v, p, hr, -, -, hd, hsilo, hlp, hm⟩ := Run.rows_done (s := s) (p := .init) (n := n) (fin := fun s _ => s)
    (f := fun s p => s.popRow t x true (rowAt (nearRowsOf t.core (bits q.word 41 13) n) p.rows) p)
    (fun i v p => p.rows = i ∧ (i ≠ 0 → p.base = (s.silo x).head) ∧ s.during core t q.word t.lines t.scalars v
      ∧ v.silo x = (s.silo x).popped t.core i ∧ v.lpddr = s.lpddr
      ∧ s.movesRows t.id true (siloRows x (s.silo x) (s.silo x).head n) (nearRowsOf t.core (bits q.word 41 13) n) i v) (by
      rintro i v p hi ⟨hp', hbase, hd, hsilo, hlp, hm⟩
      have hdi := hs i hi
      have hri : (siloRows x (s.silo x) (s.silo x).head n)[i]? = some (siloRow x (v.silo x) ((v.silo x).plus (s.silo x).head p.rows)) := by
        rw [hsilo, hp', siloRow_popped]
        simp [siloRows, hi]
      have hmem := List.mem_of_getElem? hri
      obtain ⟨v', hv', hd', hsilo', hlp', hrows⟩ := State.popRow_done (p := p) (b := (s.silo x).head) hd
        (by rw [hsilo]; exact Silo.popCore_popped hp)
        (by
          split
          · next h0 => rw [hsilo, ← hp', h0]; exact Silo.popStart_of_none hp
          · next h0 => exact hbase (hp' ▸ h0))
        (hm.canRead_next hread hwrite hri)
        (by rw [hm.row_next hread hwrite hri, State.note_usedRows]; exact hnote _ hmem) (hm.lands_next hread hwrite hnd hdi)
        (fun e => by
          have hfull := (hread _ hmem).1
          rw [← State.row_congr_key e, hwrite _ (List.mem_of_getElem? hdi)] at hfull
          cases hfull)
      refine ⟨v', { p with base := (s.silo x).head, rows := p.rows + 1 }, ?_, congrArg (· + 1) hp', fun _ => rfl, hd', ?_, hlp'.trans hlp, hm.step hread hwrite hnd hri hdi hrows⟩
      · have hat : rowAt (nearRowsOf t.core (bits q.word 41 13) n) p.rows = .near t.core (bits q.word 41 13 + i) := by
          rw [rowAt, List.getD_eq_getElem?_getD, hp', hdi]
          rfl
        rw [hat]
        exact hv'
      · rw [hsilo', hsilo, hp', Silo.popped_succ])
    ⟨rfl, fun h => absurd rfl h, State.during_start hn, rfl, rfl, State.movesRows_start ..⟩
  exact ⟨v, hr, hd, hsilo, hlp, hm⟩

theorem nodup_nearRowsOf (c base n : Nat) : ((nearRowsOf c base n).map rowKey).Nodup := by
  rw [nearRowsOf, List.map_map]
  exact List.nodup_range.map fun a b h => by
    simp only [Function.comp_apply, rowKey] at h
    omega

theorem nodup_siloRows {from_ n : Nat} (h : (siloRows x y from_ n).Nodup) : ((siloRows x y from_ n).map rowKey).Nodup := by
  refine h.map_on fun a ha b hb hkey => ?_
  obtain ⟨i, -, rfl⟩ := List.mem_map.1 ha
  obtain ⟨j, -, rfl⟩ := List.mem_map.1 hb
  cases x with
  | near c k =>
    simp only [siloRow, rowKey] at hkey ⊢
    rw [Nat.add_left_cancel hkey]
  | loft c k =>
    simp only [siloRow, rowKey] at hkey ⊢
    rw [Nat.add_left_cancel hkey]

/-- A silo's registers are not those that show the slots of the core whose command uses it. -/
theorem siloRegs_ne_coSlots {loft : Bool} {c k : Nat} (hc : c < 2304) (hk : k < 256) :
    (siloCfgReg (siloOf loft c k)).addr ≠ (Reg.coSlots c).addr ∧ (siloPtrReg (siloOf loft c k)).addr ≠ (Reg.coSlots c).addr
      ∧ (siloPendReg (siloOf loft c k)).addr ≠ (Reg.coSlots c).addr := by
  cases loft with
  | false =>
    show coreBase c + _ ≠ coreBase c + _ ∧ coreBase c + _ ≠ coreBase c + _ ∧ coreBase c + _ ≠ coreBase c + _
    omega
  | true =>
    show clBase (c / 8) + _ ≠ coreBase c + _ ∧ clBase (c / 8) + _ ≠ coreBase c + _ ∧ clBase (c / 8) + _ ≠ coreBase c + _
    unfold clBase coreBase regBase
    rw [if_pos hc]
    omega

end Sys2Proof.Machine

open Sys2Proof Sys2Proof.Machine

/-- Settles O30: the silo's rows and the near store's are apart, so each row moves as it stood; the counts of the silo move with it. -/
theorem siloPushAndPop : Obligations.SiloPushAndPop := by
  unfold Obligations.SiloPushAndPop
  intro core s t w hcore hn x y n near
  obtain ⟨-, -, hcoreEq, -⟩ := State.nextCmd_eq_some hn
  have hlen : ∀ c, near.length = (siloRows x y c n).length := fun c => by simp [near, nearRowsOf, siloRows]
  have hregs := siloRegs_ne_coSlots (loft := bitAt w 32) (hcoreEq ▸ hcore) (bits_lt w 33 8)
  refine ⟨fun hop hq hform hmay hcr hp hread hwrite hnd => ?_, fun hop htake hq hform hmay hp hnote hread hwrite => ?_⟩
  · obtain ⟨v, hv, hd, hsilo, hlp, hm⟩ := State.siloPush_done (q := s.cmd t w []) hn rfl rfl rfl rfl rfl hq hform hmay hcr hp hread hwrite (nodup_siloRows hnd)
    obtain ⟨u, hu, hone, -, hch, hrd⟩ := issueRun_done (f := fun t q s => s.siloPush t q) hcore hn hop hv hd
    have hs : u.silo x = y.pushed t.core n := (State.silo_congr (hrd _ hregs.1) (hrd _ hregs.2.1) (hrd _ hregs.2.2)).trans hsilo
    have hm' : s.movesRows t.id false near (siloRows x y y.tailP n) (siloRows x y y.tailP n).length u := by
      rw [← hlen, show near.length = n by simp [near, nearRowsOf]]
      exact hm.congr (hch.same .rows)
    refine ⟨u, hu, hone, hm'.pendingOf (hlen _).symm, State.rowsElsewhere_iff.2 fun k hk => hm'.rows_other (hlen _).symm hk,
      fun p hp => hm'.data (hlen _).symm hp, ?_, ?_, ?_, (hch.same .lpddr).trans hlp⟩
    all_goals rw [hs]; rfl
  · obtain ⟨v, hv, hd, hsilo, hlp, hm⟩ := State.siloPop_done (q := s.cmd t w []) hn rfl rfl rfl rfl rfl htake hq hform hmay hp hnote hread hwrite
      (nodup_nearRowsOf ..)
    obtain ⟨u, hu, hone, -, hch, hrd⟩ := issueRun_done (f := fun t q s => s.siloPop t q) hcore hn hop hv hd
    have hs : u.silo x = y.popped t.core n := (State.silo_congr (hrd _ hregs.1) (hrd _ hregs.2.1) (hrd _ hregs.2.2)).trans hsilo
    have hm' : s.movesRows t.id true (siloRows x y y.head n) near near.length u := by
      rw [show near.length = n by simp [near, nearRowsOf]]
      exact hm.congr (hch.same .rows)
    refine ⟨u, hu, hone, hm'.pendingOf (hlen _), fun p hp => hm'.data (hlen _) hp, fun r hr => ?_,
      State.rowsElsewhere_iff.2 fun k hk => ?_, ?_, ?_, ?_, (hch.same .lpddr).trans hlp⟩
    · rw [hm'.rows_other (hlen _) (not_named_of_full (hread r hr).1 hwrite), State.row_usedRows_of_mem hr, if_pos rfl]
    · rw [hm'.rows_other (hlen _) fun ⟨z, hz, e⟩ => hk ⟨z, List.mem_append_left _ hz, e⟩]
      exact State.rowsElsewhere_usedRows s t.id true _ k fun z hz e => hk ⟨z, List.mem_append_right _ hz, e⟩
    all_goals rw [hs]; rfl
end

section
/-! dma.kick (R171, R233). -/

-- The frame conditions are evaluated in the kernel: theorems elaborated in parallel would each hold a thread while they wait for it.
set_option Elab.async false

namespace Sys2Proof.Machine

variable {s u : State} {t k : Task} {w : CmdWord} {core : Nat}

theorem State.rd_congr (h : u.regs = s.regs) (r : Reg) : u.rd r = s.rd r := by rw [State.rd, h, State.rd]

theorem State.fld_congr {r : Reg} (h : u.rd r = s.rd r) (f : Fld) : u.fld r f = s.fld r f := by rw [State.fld, h, State.fld]

theorem State.issues.done {op : Nat} {f : Task → CmdWord → State → Ex State} (h : s.issues core t w u k) (hc : core < 2304) (ho : cwOp w = op)
    (he : f t w s = .ok u) (hop : (opCodes.contains op && op != 0x26 && op != 0) = true := by decide) :
    ∃ v, issue op core s f = .next v ∧ v.issuedOne t ∧ (∃ m, v.task? t.id = some (k.issued false m))
      ∧ u.changes [.regs, .ctrs, .tasks, .cores] v ∧ ∀ x : Reg, x.addr ≠ (Reg.coSlots t.core).addr → v.rd x = u.rd x := by
  simp only [Bool.and_eq_true, bne_iff_ne] at hop
  obtain ⟨⟨hcodes, h26⟩, h0⟩ := hop
  obtain ⟨m, hm⟩ := h.task?_settle (ups := []) (ho ▸ h26)
  have hl : (cwOp w == 0) = false := by simpa [ho] using h0
  rw [hl] at hm
  exact ⟨_, issue_runs hc h.next ho hcodes he, h.issuedOne_settle (ho ▸ h26) (ho ▸ h0), ⟨m, hm⟩, h.changes_settle (ho ▸ h26), fun x hx => h.rd_settle (ho ▸ h26) hx⟩

/-- A task's kick bit, as a command with ONCE sets it. -/
def Task.kicked (t : Task) (once : Bool) (n : Nat) : Task := if once then { t with kick := setBit t.kick n true } else t

/-- The state with that bit of the task as the command leaves it. -/
def State.kicked (s : State) (id : Nat) (once : Bool) (n : Nat) : State :=
  if once then s.modTask id fun t => { t with kick := setBit t.kick n true } else s

theorem State.changes_kicked (id : Nat) (once : Bool) (n : Nat) : s.changes [.tasks] (s.kicked id once n) := by
  cases once with
  | false => exact .refl
  | true => exact (State.changes_modTask ..).after .refl

theorem State.issues.kick (h : s.issues core t w u t) (once : Bool) (n : Nat) : s.issues core t w (u.kicked t.id once n) (t.kicked once n) := by
  cases once with
  | false => exact h
  | true =>
    exact ⟨h.next, State.task?_modTask_same h.task fun _ => rfl, ⟨rfl, rfl, rfl, rfl, rfl⟩,
      (State.heldUp_congr rfl rfl rfl rfl).trans h.held⟩

theorem Task.bitAt_kicked {n : Nat} (h : n < 8) (m : SMap (Option Row)) : bitAt ((t.kicked true n).issued false m).kick n = true := by
  rw [Task.issued_kick]
  exact bitAt_setBit_same _ _ _ h

theorem coSlots_ne_cluster {c cl o : Nat} (hc : c < 2304) (_ : cl < 288) (ho : o < 0x4000000) : clBase cl + o ≠ (Reg.coSlots c).addr := by
  show clBase cl + o ≠ coreBase c + _
  unfold clBase coreBase regBase
  rw [if_pos hc]
  omega

theorem State.issues_of_changes {M : List Field} (hn : s.nextCmd core = some (t, w)) (h : s.changes M u)
    (hM : Field.within M [.rows, .regs, .ctrs, .free, .chans] = true := by decide) : s.issues core t w u t := by
  have h : s.changes [.rows, .regs, .ctrs, .free, .chans] u := h.after .refl hM
  have hcores : u.cores = s.cores := h.same .cores
  exact State.issues_of_frame hn (h.same .tasks) (h.same .engs) (by rw [State.core, hcores, State.core])

section
variable {ch : Nat} {desc : RowRef} (hclean : stray w [(0, 8), (32, 22)] = false)
include hclean

theorem State.dmaKick_seen (h1 : bitAt w 53 = true) (h2 : bitAt t.kick (bits w 50 3) = true) : s.dmaKick t w = .ok (s.countCore C.dmaKickSkipped t.core) := by
  simp only [State.dmaKick, hclean, h1, h2]
  rfl

variable (hch : bits w 32 5 = ch) (hok : s.kickOk t ch = true) (h1 : (bitAt w 53 && bitAt t.kick (bits w 50 3)) = false)
include hch hok h1

theorem State.dmaKick_direct (hdesc : .near t.core (bits w 37 13) = desc) (hm : s.fld (.dmaChcfg t.cl ch) F.dmaChcfgMode = 1) (hq : s.quota t [desc] = .ok ())
    (hlen : (s.chan t.cl ch).queue.length < 16) (hread : s.canRead t.id [desc]) :
    s.dmaKick t w = .ok (((s.setChan t.cl ch { s.chan t.cl ch with
        queue := (s.chan t.cl ch).queue ++ [(s.row desc).data.extractLsb' 0 1024] }).syncChan t.cl ch).kicked t.id (bitAt w 53) (bits w 50 3)) := by
  have hfull : ¬ 16 ≤ (s.chan t.cl ch).queue.length := by omega
  simp only [State.dmaKick, hclean, Bool.not_false, Bool.true_and, h1, hch, hdesc, hm, hq, hok, hfull, if_true, if_false, Bool.false_eq_true, require_true,
    Ex.ok_bind, State.readRow_of_canRead hread, State.usedRows]
  rfl

theorem State.dmaKick_ring (hm : s.fld (.dmaChcfg t.cl ch) F.dmaChcfgMode = 2) :
    s.dmaKick t w = .ok ((s.setFld (.dmaRingPtr t.cl ch) F.dmaRingPtrLimit
      ((s.fld (.dmaRingPtr t.cl ch) F.dmaRingPtrLimit + bits w 37 13 + 1) % 2 ^ 32)).kicked t.id (bitAt w 53) (bits w 50 3)) := by
  simp only [State.dmaKick, hclean, Bool.not_false, Bool.true_and, h1, hch, hm, hok, if_false, Bool.false_eq_true, require_true, Ex.ok_bind,
    show (2 : Nat) = 1 ↔ False by decide]
  rfl

end

end Sys2Proof.Machine

open Sys2Proof Sys2Proof.Machine

/-- Settles O32: the mask is looked at first; else the channel's mode says where the descriptor goes. -/
theorem kickSuppliesDescriptors : Obligations.KickSuppliesDescriptors := by
  unfold Obligations.KickSuppliesDescriptors
  intro core s t w hcore hn hop hcl ch ref mode hclean hok hq
  obtain ⟨-, -, hcoreEq, -, -⟩ := State.nextCmd_eq_some hn
  have hk : bits w 50 3 < 8 := bits_lt w 50 3
  have hstart : s.issues core t w s t := State.issues_of_frame hn rfl rfl rfl
  have hptr : (Reg.dmaRingPtr t.cl ch).addr ≠ (Reg.coSlots t.core).addr :=
    coSlots_ne_cluster (hcoreEq ▸ hcore) hcl (by have := bits_lt w 32 5; simp only [ch]; omega)
  have hseen : bitAt w 53 = false ∨ bitAt t.kick (bits w 50 3) = false → (bitAt w 53 && bitAt t.kick (bits w 50 3)) = false := by
    rintro (h | h) <;> simp [h]
  refine ⟨fun h1 h2 => ?_, fun h1 hm hlen hread => ?_, fun h1 hm => ?_⟩
  · have hch := State.changes_countCore (s := s) C.dmaKickSkipped t.core 1
    obtain ⟨v, hv, hone, -, hchv, hrd⟩ := (State.issues_of_changes hn hch).done (f := fun t w s => s.dmaKick t w) hcore hop (State.dmaKick_seen hclean h1 h2)
    have hall : s.changes [.regs, .ctrs, .tasks, .cores] v := hchv.after (hch.after .refl)
    exact ⟨v, hv, hone, hall.same .rows, hall.same .chans, fun x hx => (hrd x hx).trans (State.rd_congr (hch.same .regs) x)⟩
  · generalize hc : { s.chan t.cl ch with queue := (s.chan t.cl ch).queue ++ [(s.row ref).data.extractLsb' 0 1024] } = c
    have hch : s.changes [.regs, .chans] ((s.setChan t.cl ch c).syncChan t.cl ch) :=
      (State.changes_syncChan ..).after ((State.changes_setChan ..).after .refl)
    obtain ⟨v, hv, hone, ⟨m, ht⟩, hchv, hrd⟩ := ((State.issues_of_changes hn hch).kick (bitAt w 53) (bits w 50 3)).done (f := fun t w s => s.dmaKick t w)
      hcore hop (hc ▸ State.dmaKick_direct hclean rfl hok (hseen h1) rfl hm (hq hm) hlen hread)
    have hall : s.changes [.regs, .ctrs, .tasks, .cores, .chans] v := hchv.after ((State.changes_kicked ..).after (hch.after .refl))
    have hsame : ((s.setChan t.cl ch c).syncChan t.cl ch).changes [.regs, .ctrs, .tasks, .cores] v := hchv.after ((State.changes_kicked ..).after .refl)
    have hchans : v.chans = ((s.setChan t.cl ch c).syncChan t.cl ch).chans := hsame.same .chans
    refine ⟨v, _, hv, hone, ht, fun h => ?_, ?_, hall.same .rows, hall.same .lpddr⟩
    · rw [h]
      exact Task.bitAt_kicked hk m
    · rw [State.chan, hchans]
      exact State.chan_setChan_same ..
  · have hch := State.changes_setFld (s := s) (.dmaRingPtr t.cl ch) F.dmaRingPtrLimit
      ((s.fld (.dmaRingPtr t.cl ch) F.dmaRingPtrLimit + bits w 37 13 + 1) % 2 ^ 32)
    obtain ⟨v, hv, hone, ⟨m, ht⟩, hchv, hrd⟩ := ((State.issues_of_changes hn hch).kick (bitAt w 53) (bits w 50 3)).done (f := fun t w s => s.dmaKick t w)
      hcore hop (State.dmaKick_ring hclean rfl hok (hseen h1) hm)
    have hall : s.changes [.regs, .ctrs, .tasks, .cores] v := hchv.after ((State.changes_kicked ..).after (hch.after .refl))
    generalize hn' : (s.fld (.dmaRingPtr t.cl ch) F.dmaRingPtrLimit + bits w 37 13 + 1) % 2 ^ 32 = n at hall hrd
    have hregs : ((s.setFld (.dmaRingPtr t.cl ch) F.dmaRingPtrLimit n).kicked t.id (bitAt w 53) (bits w 50 3)).regs
      = (s.setFld (.dmaRingPtr t.cl ch) F.dmaRingPtrLimit n).regs := (State.changes_kicked ..).same .regs
    have hfld : ∀ f, v.fld (.dmaRingPtr t.cl ch) f = (s.setFld (.dmaRingPtr t.cl ch) F.dmaRingPtrLimit n).fld (.dmaRingPtr t.cl ch) f :=
      State.fld_congr ((hrd _ hptr).trans (State.rd_congr hregs _))
    refine ⟨v, _, hv, hone, ht, fun h => ?_, ?_, ?_, hall.same .chans, hall.same .rows, hall.same .lpddr⟩
    · rw [h]
      exact Task.bitAt_kicked hk m
    · rw [hfld, State.fld_setFld_same _ _ _ _ (by decide), ← hn']
      exact Nat.mod_mod _ _
    · rw [hfld, State.fld_setFld_apart _ _ _ _ _ (by decide)]
end

section
/-! Tasks that are removed: the timeout of a verdict, the abort of a carried task (R47, R49, R189). -/

-- The frame conditions are evaluated in the kernel: theorems elaborated in parallel would each hold a thread while they wait for it.
set_option Elab.async false

namespace Sys2Proof.Machine

variable {s u v : State} {t k : Task} {r : RowRef} {id j : Nat} {ids d e : List Nat} {rq : Bool}

/-- Where no task is put into the pool, none has a new number. -/
theorem State.changes.noneStays {M : List Field} (h : s.changes M u) (hid : s.task? id = none) (hM : .taskIds ∉ M := by decide) : u.task? id = none :=
  h.1 .taskIds hM id hid

/-! A task that is discarded. -/

theorem State.task?_discardTask (s : State) (id : Nat) : (s.discardTask id false).task? id = none := by
  unfold State.discardTask
  split
  · assumption
  · exact State.task?_dropTask_same ..

theorem State.task?_removeTasks (h : id ∈ ids) (s : State) : (s.removeTasks ids).task? id = none := by
  have hdrop : ∀ (l : List Nat) (s : State), id ∈ l → (l.foldl (fun (s : State) id => s.discardTask id false) s).task? id = none := by
    intro l
    induction l with
    | nil => exact fun _ hl => absurd hl List.not_mem_nil
    | cons j l ih =>
      intro s hl
      obtain rfl | hl := List.mem_cons.1 hl
      · have hch : (s.discardTask id false).changes [.regs, .rows, .tasks, .engs, .cores, .waits]
            (l.foldl (fun (s : State) id => s.discardTask id false) (s.discardTask id false)) :=
          State.changes_foldl .refl fun _ _ ht => (State.changes_discardTask ..).after ht
        exact hch.noneStays (s.task?_discardTask id)
      · exact ih _ hl
  unfold State.removeTasks
  have hch := State.changes_foldl (s := ids.foldl (fun (s : State) id => s.discardTask id false) s) (M := [.regs, .rows, .tasks, .engs, .cores, .waits])
    (l := (bound s.tasks s.tasks.length ids).filter fun id => !ids.contains id) (f := fun s id => s.requeueTask id) .refl
    fun _ _ ht => (State.changes_requeueTask ..).after ht
  exact hch.noneStays (hdrop ids s h)

theorem discardRow_of_empty {x : RowSt} (h : x.tag = .empty) : (discardRow id x).tag = .empty := by
  unfold discardRow
  split
  · rfl
  · dsimp only
    split <;> split <;> exact h

theorem discardRow_of_untaken {x : RowSt} (h : x.taker = none) (ht : x.tag = .full) :
    (discardRow id x).taker = none ∧ (discardRow id x).tag = .full := by
  by_cases hw : x.writer = some id <;> simp [discardRow, ht, h, hw]

theorem State.row_discardTask (hw : s.storesWf = true) (h : s.task? id = some t) (rq : Bool) (r : RowRef) :
    (s.discardTask id rq).row r = discardRow id (s.row r) := by
  have hrow := s.row_discardRows hw id r
  have hch : (s.discardRows id).changes [.regs, .engs, .cores, .waits] (((s.discardRows id).discardSilos t).releaseAll t) :=
    (State.changes_releaseAll ..).after ((State.changes_discardSilos ..).after .refl)
  have hrows := State.row_congr (hch.same .rows) r
  unfold State.discardTask
  simp only [h]
  cases rq with
  | false => exact (State.row_congr ((State.changes_dropTask id).same .rows) r).trans (hrows.trans hrow)
  | true => exact (State.row_congr ((State.changes_setTask _).same .rows) r).trans (hrows.trans hrow)

/-- What discards keep of a row, the re-queueing of tasks keeps. -/
theorem State.row_requeueTasks {P : RowSt → Prop} (hw : s.storesWf = true) (hP : ∀ i ∈ ids, ∀ x, P x → P (discardRow i x)) (h : P (s.row r)) :
    P ((ids.foldl (fun (s : State) id => s.requeueTask id) s).row r) := by
  induction ids generalizing s with
  | nil => exact h
  | cons i l ih =>
    refine ih ((State.changes_requeueTask i).storesWf hw) (fun j hj => hP j (List.mem_cons_of_mem i hj)) ?_
    show P ((s.discardTask i true).row r)
    cases ht : s.task? i with
    | none =>
      unfold State.discardTask
      simpa only [ht] using h
    | some t =>
      rw [State.row_discardTask hw ht]
      exact hP i (List.mem_cons_self ..) _ h

/-! What a task's fault and the end of its vu.nbwd leave of the tasks. -/

/-- The tasks are those of before, each as bound as one of its number was. -/
def State.keepsBinds (s u : State) : Prop :=
  ∃ f : Task → Task, u.tasks = s.tasks.map f ∧ ∀ x ∈ s.tasks, (f x).id = x.id ∧ ∃ y ∈ s.tasks, y.id = (f x).id ∧ y.stat = (f x).stat ∧ y.deps = (f x).deps

theorem State.keepsBinds_of_tasks (h : u.tasks = s.tasks) : s.keepsBinds u :=
  ⟨fun x => x, by rw [h, List.map_id'], fun x hx => ⟨rfl, x, hx, rfl, rfl, rfl⟩⟩

theorem State.keepsBinds.trans (h : s.keepsBinds u) (k : u.keepsBinds v) : s.keepsBinds v := by
  obtain ⟨f, hf, hfx⟩ := h
  obtain ⟨g, hg, hgx⟩ := k
  refine ⟨fun x => g (f x), by rw [hg, hf, List.map_map]; rfl, fun x hx => ?_⟩
  obtain ⟨hid, -⟩ := hfx x hx
  obtain ⟨hid', y, hy, hyid, hys, hyd⟩ := hgx (f x) (hf ▸ List.mem_map_of_mem hx)
  rw [hf] at hy
  obtain ⟨z, hz, rfl⟩ := List.mem_map.1 hy
  obtain ⟨-, y', hy', hi, hs, hd⟩ := hfx z hz
  exact ⟨hid'.trans hid, y', hy', hi.trans hyid, hs.trans hys, hd.trans hyd⟩

theorem State.keepsBinds_setTask (h : s.task? k.id = some t) (hs : k.stat = t.stat) (hd : k.deps = t.deps) : s.keepsBinds (s.setTask k) := by
  refine ⟨fun x => if x.id = k.id then k else x, rfl, fun x hx => ?_⟩
  dsimp only
  split
  · next e => exact ⟨e.symm, t, List.mem_of_find?_eq_some h, State.task?_id s h, hs.symm, hd.symm⟩
  · exact ⟨rfl, x, hx, rfl, rfl, rfl⟩

theorem State.keepsBinds_taskFault (s : State) (id cause pc addr detail : Nat) : s.keepsBinds (s.taskFault id cause pc addr detail) := by
  unfold State.taskFault
  split
  · exact State.keepsBinds_of_tasks rfl
  · next t ht =>
    split
    · exact State.keepsBinds_of_tasks rfl
    · obtain rfl := State.task?_id s ht
      have hset : s.keepsBinds (s.setTask { t with fault := some ⟨cause, pc, t.slot, s.beatNo, addr, detail⟩ }) := State.keepsBinds_setTask ht rfl rfl
      exact hset.trans (State.keepsBinds_of_tasks ((State.changes_reportFault _ _).same .tasks))

theorem State.keepsBinds_addFlags (s : State) (id : Nat) (f : Flags) : s.keepsBinds (s.addFlags id f) := by
  unfold State.addFlags
  split
  · exact State.keepsBinds_of_tasks rfl
  · next t ht =>
    obtain rfl := State.task?_id s ht
    exact State.keepsBinds_setTask (s := s.wr _ _) ht rfl rfl

theorem State.keepsBinds_finishVu (s : State) (ids : List Nat) : s.keepsBinds (s.finishVu ids) := by
  unfold State.finishVu
  refine List.foldlRecOn (motive := fun u : State => s.keepsBinds u) ids _ (State.keepsBinds_of_tasks rfl) fun u hu id _ => ?_
  refine hu.trans ?_
  split
  · exact State.keepsBinds_of_tasks rfl
  · split
    · exact State.keepsBinds_of_tasks rfl
    · split
      · exact State.keepsBinds_of_tasks rfl
      · split
        · exact (State.keepsBinds_addFlags ..).trans (State.keepsBinds_of_tasks ((State.changes_countCore ..).same .tasks))
        · exact State.keepsBinds_of_tasks rfl

theorem State.keepsBinds.isSome (h : s.keepsBinds u) (ht : s.task? id = some t) : ∃ k, u.task? id = some k := by
  obtain ⟨f, hf, hfx⟩ := h
  have hmem := List.mem_of_find?_eq_some ht
  refine Option.isSome_iff_exists.1 (List.find?_isSome.2 ⟨f t, hf ▸ List.mem_map_of_mem hmem, ?_⟩)
  simp [(hfx t hmem).1, State.task?_id s ht]

/-! The tasks bound to others. -/

/-- No task that is not among them is bound to one that is. -/
def boundClosed (ts : List Task) (d : List Nat) : Prop := ∀ x ∈ ts, x.stat ≠ .pooled → x.deps.any d.contains = true → x.id ∈ d

/-- The numbers of the tasks that are bound to those of a list, and not among them. -/
def boundTo (ts : List Task) (d : List Nat) : List Nat :=
  (ts.filter fun t => decide (t.stat ≠ .pooled) && !d.contains t.id && t.deps.any d.contains).map Task.id

theorem bound_succ (ts : List Task) (n : Nat) (d : List Nat) :
    bound ts (n + 1) d = if (boundTo ts d).isEmpty then d else bound ts n (d ++ boundTo ts d) := rfl

theorem mem_boundTo {ts : List Task} {i : Nat} : i ∈ boundTo ts d ↔ ∃ x ∈ ts, x.id = i ∧ x.stat ≠ .pooled ∧ i ∉ d ∧ x.deps.any d.contains = true := by
  simp only [boundTo, List.mem_map, List.mem_filter, Bool.and_eq_true, decide_eq_true_eq, Bool.not_eq_true']
  constructor
  · rintro ⟨x, ⟨hx, ⟨hs, hm⟩, hdeps⟩, rfl⟩
    exact ⟨x, hx, rfl, hs, by simpa using hm, hdeps⟩
  · rintro ⟨x, hx, rfl, hs, hm, hdeps⟩
    exact ⟨x, ⟨hx, ⟨hs, by simpa using hm⟩, hdeps⟩, rfl⟩

theorem any_contains_mono {l : List Nat} (hd : d ⊆ e) (h : l.any d.contains = true) : l.any e.contains = true := by
  obtain ⟨i, hi, hc⟩ := List.any_eq_true.1 h
  exact List.any_eq_true.2 ⟨i, hi, by simpa using hd (by simpa using hc)⟩

theorem boundClosed_of_boundTo {ts : List Task} (h : (boundTo ts d).isEmpty = true) : boundClosed ts d := fun x hx hs hdeps => by
  by_contra hm
  have := mem_boundTo.2 ⟨x, hx, rfl, hs, hm, hdeps⟩
  rw [List.isEmpty_iff.1 h] at this
  exact List.not_mem_nil this

theorem bound_subset_of_closed {ts : List Task} (h : boundClosed ts e) (n : Nat) (hd : d ⊆ e) : bound ts n d ⊆ e := by
  induction n generalizing d with
  | zero => exact hd
  | succ n ih =>
    rw [bound_succ]
    split
    · exact hd
    · refine ih (List.append_subset.2 ⟨hd, fun i hi => ?_⟩)
      obtain ⟨x, hx, rfl, hs, -, hdeps⟩ := mem_boundTo.1 hi
      exact h x hx hs (any_contains_mono hd hdeps)

theorem subset_bound (ts : List Task) (n : Nat) (d : List Nat) : d ⊆ bound ts n d := by
  induction n generalizing d with
  | zero => exact List.Subset.refl d
  | succ n ih =>
    rw [bound_succ]
    split
    · exact List.Subset.refl d
    · exact List.Subset.trans (List.subset_append_left ..) (ih _)

/-- Of tasks that are bound as some of others are, no more come to be bound. -/
theorem bound_mono {ts l : List Task} (h : ∀ x ∈ l, ∃ y ∈ ts, y.id = x.id ∧ y.stat = x.stat ∧ y.deps = x.deps) (n : Nat) (hd : d ⊆ e) :
    bound l n d ⊆ bound ts n e := by
  induction n generalizing d e with
  | zero => exact hd
  | succ n ih =>
    rw [bound_succ ts]
    split
    · next hc =>
      have hclosed : boundClosed l e := fun x hx hs hdeps => by
        obtain ⟨y, hy, hid, hst, hde⟩ := h x hx
        exact hid ▸ boundClosed_of_boundTo hc y hy (hst ▸ hs) (hde ▸ hdeps)
      exact bound_subset_of_closed hclosed (n + 1) hd
    · rw [bound_succ l]
      have hde : d ⊆ e ++ boundTo ts e := List.Subset.trans hd (List.subset_append_left ..)
      split
      · exact List.Subset.trans hde (subset_bound ..)
      · refine ih (List.append_subset.2 ⟨hde, fun i hi => ?_⟩)
        obtain ⟨x, hx, rfl, hs, -, hdeps⟩ := mem_boundTo.1 hi
        obtain ⟨y, hy, hid, hst, hyd⟩ := h x hx
        by_cases hm : x.id ∈ e
        · exact List.mem_append_left _ hm
        · exact List.mem_append_right _ (mem_boundTo.2 ⟨y, hy, hid, hst ▸ hs, hm, hyd ▸ any_contains_mono hd hdeps⟩)

/-- What is bound to the tasks after such changes was bound to them before. -/
theorem State.keepsBinds.bound_subset (h : s.keepsBinds u) (d : List Nat) : bound u.tasks u.tasks.length d ⊆ bound s.tasks s.tasks.length d := by
  obtain ⟨f, hf, hfx⟩ := h
  rw [hf, List.length_map]
  refine bound_mono (fun x hx => ?_) _ (List.Subset.refl d)
  obtain ⟨z, hz, rfl⟩ := List.mem_map.1 hx
  exact (hfx z hz).2

end Sys2Proof.Machine

open Sys2Proof Sys2Proof.Machine

/-- Settles O14: the group's tasks are dropped one by one, and nothing after that puts a task into the pool. -/
theorem verdictTimeoutDiscardsGroup : Obligations.VerdictTimeoutDiscardsGroup := by
  unfold Obligations.VerdictTimeoutDiscardsGroup
  intro cl gid s g hcl hg
  have he : exec (.verdictTimeout cl gid) s = execVerdictTimeout cl gid s := rfl
  rw [he, execVerdictTimeout, unitOk, if_pos hcl]
  simp only [hg]
  generalize hl : s.tasks.filter (fun t => (s.withBound (s.groupTasks [g])).contains t.id) = leaving
  have hfin : s.changes Writes.taskFault (((s.count C.specDiscard cl).reportVerifier g).finishVu (leaving.map Task.id)) :=
    (State.changes_finishVu ..).after ((State.changes_reportVerifier g).after ((State.changes_count ..).after .refl))
  generalize ((s.count C.specDiscard cl).reportVerifier g).finishVu (leaving.map Task.id) = s1 at hfin
  have hrem := State.changes_removeTasks (s := s1) (s.groupTasks [g])
  have hgone := fun id (h : id ∈ s.groupTasks [g]) => State.task?_removeTasks h s1
  generalize s1.removeTasks (s.groupTasks [g]) = s2 at hrem hgone
  have hend : s2.changes [.groups] { s2 with groups := s2.groups.filter fun x => !decide (x = g) } := (State.changes_set_groups _).after .refl
  have hg' : g ∉ ({ s2 with groups := s2.groups.filter fun x => !decide (x = g) } : State).groups := by simp
  generalize ({ s2 with groups := s2.groups.filter fun x => !decide (x = g) } : State) = s3 at hend hg'
  have hwake := State.changes_wakeAfter (s := s3) leaving
  have hnone : ∀ id, s2.task? id = none → (s3.wakeAfter leaving).task? id = none := fun id h => hwake.noneStays (hend.noneStays h)
  have hnew : ∀ id, s.task? id = none → (s3.wakeAfter leaving).task? id = none := fun id h => hnone id (hrem.noneStays (hfin.noneStays h))
  have hlp : (s3.wakeAfter leaving).lpddr = s.lpddr := ((hwake.same .lpddr).trans (hend.same .lpddr)).trans ((hrem.same .lpddr).trans (hfin.same .lpddr))
  have hgroups : (s3.wakeAfter leaving).groups = s3.groups := hwake.same .groups
  refine ⟨_, rfl, hgroups ▸ hg', fun id hid => ?_, hnew, hlp⟩
  cases ht : s.task? id with
  | none => exact hnew id ht
  | some t =>
    refine hnone id (hgone id (List.mem_filter.2 ⟨?_, by rw [ht]; rfl⟩))
    simpa using hid

/-- Settles O15: what its discard keeps of a row, the discards of the tasks bound to it keep. -/
theorem carryAbortDiscardsTask : Obligations.CarryAbortDiscardsTask := by
  unfold Obligations.CarryAbortDiscardsTask
  intro id s k hw hk habort
  have he : exec (.carryLimitAbort id) s = execCarryLimitAbort id s := rfl
  rw [he, execCarryLimitAbort]
  simp only [hk, habort, need, if_true]
  generalize hl : s.tasks.filter (fun t => (s.withBound [id]).contains t.id) = leaving
  have hfin : s.changes Writes.taskFault (((s.count C.dspCarryAbort k.cl).taskFault id 5 k.pc 0 0).finishVu (leaving.map Task.id)) :=
    (State.changes_finishVu ..).after ((State.changes_taskFault ..).after ((State.changes_count ..).after .refl))
  have hbinds : s.keepsBinds (((s.count C.dspCarryAbort k.cl).taskFault id 5 k.pc 0 0).finishVu (leaving.map Task.id)) :=
    (State.keepsBinds_of_tasks (u := s.count C.dspCarryAbort k.cl) rfl).trans
      ((State.keepsBinds_taskFault ..).trans (State.keepsBinds_finishVu ..))
  generalize ((s.count C.dspCarryAbort k.cl).taskFault id 5 k.pc 0 0).finishVu (leaving.map Task.id) = s1 at hfin hbinds
  obtain ⟨k1, hk1⟩ := hbinds.isSome hk
  have hrem := State.changes_removeTasks (s := s1) [id]
  have hwake := State.changes_wakeAfter (s := s1.removeTasks [id]) leaving
  have hlp : ((s1.removeTasks [id]).wakeAfter leaving).lpddr = s.lpddr := (hwake.same .lpddr).trans ((hrem.same .lpddr).trans (hfin.same .lpddr))
  refine ⟨_, rfl, hwake.noneStays (State.task?_removeTasks (List.mem_singleton_self id) s1), fun hsilos => ?_, hlp⟩
  have hrows : ((s1.removeTasks [id]).wakeAfter leaving).rows = (s1.removeTasks [id]).rows := by
    have hnone : (leaving.filter fun (t : Task) => !t.pushes.isEmpty || !t.pops.isEmpty) = [] := by
      subst hl
      simp only [List.filter_eq_nil_iff, List.mem_filter]
      rintro t ⟨ht, hm⟩
      obtain ⟨hp, hq⟩ := hsilos t ht (by simpa using hm)
      simp [hp, hq]
    unfold State.wakeAfter
    simp only [hnone]
    exact (State.changes_foldl (M := [.regs, .ctrs, .tasks, .waits]) .refl fun _ _ ht => (State.changes_wakeUnits ..).after ht).same .rows
  have hkeeps : ∀ {P : RowSt → Prop} (r : RowRef), (∀ i ∈ s.withBound [id], ∀ x, P x → P (discardRow i x)) → P (discardRow id (s.row r)) →
      P (((s1.removeTasks [id]).wakeAfter leaving).row r) := by
    intro P r hP hrow
    rw [State.row_congr hrows]
    have h1 : s1.storesWf = true := hfin.storesWf hw
    refine State.row_requeueTasks ((State.changes_discardTask id false).storesWf h1) (fun i hi => hP i ?_) ?_
    · exact hbinds.bound_subset [id] (List.mem_of_mem_filter hi)
    · show P ((s1.discardTask id false).row r)
      rw [State.row_discardTask h1 hk1, State.row_congr (hfin.same .rows)]
      exact hrow
  refine ⟨fun r ht hwr => ?_, fun r ht htk => ?_, fun r hr => ?_⟩
  · exact hkeeps (P := fun x => x.tag = .empty) r (fun i _ x hx => discardRow_of_empty hx) (discardRow_of_written ht hwr)
  · obtain ⟨htag, htaker, -⟩ := discardRow_of_taken ht htk
    exact hkeeps (P := fun x => x.taker = none ∧ x.tag = .full) r (fun i _ x hx => discardRow_of_untaken hx.1 hx.2) ⟨htaker, htag⟩
  · have hid : id ∈ s.withBound [id] := subset_bound _ _ _ (by simp [dedup])
    obtain ⟨hw0, hk0⟩ := hr id hid
    refine hkeeps (P := fun x => x = s.row r) r (fun i hi x hx => ?_) (discardRow_of_other hw0 hk0)
    subst hx
    obtain ⟨hwi, hki⟩ := hr i hi
    exact discardRow_of_other hwi hki
end

section
/-! What an event that firmware posts leaves alone; descriptors that are loaded, tasks that are placed, units that are released, tasks that retire
(R152 to R157, R166, R178, R180). -/

-- The frame conditions are evaluated in the kernel: theorems elaborated in parallel would each hold a thread while they wait for it.
set_option Elab.async false

namespace Sys2Proof.Machine

variable {s u v : State} {t k : Task} {id : Nat} {c : Ctr} {n b : Nat} {x : Reg}

/-! Events. -/

theorem State.ctr_congr (h : u.ctrs = s.ctrs) (c : Ctr) (n b : Nat) : u.ctr c n b = s.ctr c n b := by rw [State.ctr, h, State.ctr]

section
variable (he : ctrKey C.evLost 0 0 ≠ ctrKey c n b) (hm : ctrKey C.mbxTimeouts 0 0 ≠ ctrKey c n b)

include hm in
theorem State.ctr_mbxTimeout (s : State) (m a q : Nat) : (s.mbxTimeout .mgmt m a q).ctr c n b = s.ctr c n b := by
  unfold State.mbxTimeout
  dsimp only
  split
  · exact State.ctr_count_ne s 1 hm
  · exact (State.ctr_congr ((State.changes_wr _ _).same .ctrs) c n b).trans (State.ctr_count_ne s 1 hm)

include hm in
theorem State.ctr_mbxWrite (s : State) (m a : Nat) (w : Word) (h : Option (BitVec 128)) : (s.mbxWrite .mgmt m a w h).1.ctr c n b = s.ctr c n b := by
  have hans : ∀ (t : State) (st q : Nat), (t.answer h a st q).ctr c n b = t.ctr c n b := fun t st q =>
    State.ctr_congr ((State.changes_answer (s := t) h a st q).same .ctrs) c n b
  unfold State.mbxWrite
  split
  · exact (hans _ 2 2).trans (State.ctr_mbxTimeout hm s m a 2)
  · split
    · exact (hans _ 0 0).trans (State.ctr_congr ((State.changes_mbxLand (s := s) .mgmt m a w).same .ctrs) c n b)
    · split
      · exact (hans _ 2 3).trans (State.ctr_mbxTimeout hm s m a 3)
      · exact State.ctr_congr ((State.changes_setBitOf (s := s) (.mbxWait .mgmt) m true).same .ctrs) c n b

include hm in
theorem State.ctr_putEvent (s : State) (kind part job status : Nat) (pay : Payload) : (s.putEvent kind part job status pay).ctr c n b = s.ctr c n b := by
  unfold State.putEvent
  extract_lets a w t u v
  have ht : s.changes [.window] t := (State.changes_winWrite ..).after ((State.changes_winWrite ..).after .refl)
  have hu : s.changes [.window] u := State.changes_foldl ht fun _ _ ht => (State.changes_winWrite ..).after ht
  have hv : s.changes [.window, .evHead] v := (State.changes_set_evHead ..).after (hu.after .refl)
  have hctr := State.ctr_congr (hv.same .ctrs) c n b
  split
  · exact hctr
  · exact (State.ctr_mbxWrite hm v 63 agentMgmt v.evHead none).trans hctr

include he hm in
/-- An event counts nothing but itself, when it is lost, and timeouts of mailboxes. -/
theorem State.ctr_post (s : State) (kind part job status : Nat) (pay : Payload) : (s.post kind part job status pay).ctr c n b = s.ctr c n b := by
  unfold State.post
  split
  · exact State.ctr_count_ne _ 1 he
  · extract_lets t u
    have hu : u.ctr c n b = s.ctr c n b := by
      unfold u
      split
      · rfl
      · exact State.ctr_putEvent hm ..
    split
    · exact (State.ctr_count_ne (s := { u with evLost := u.evLost + 1, evOver := u.evOver + 1 }) 1 he).trans hu
    · exact (State.ctr_putEvent hm ..).trans hu

end

/-- The registers that an event's mailbox may change. -/
def eventRegs : List Reg := [.mbxData .mgmt 63, .mbxSender .mgmt 63, .mbxStatus .mgmt, .mbxWait .mgmt, .mbxToutLog .mgmt]

/-- An event changes no register but those of its mailbox. -/
theorem State.rd_post_ne (h : ∀ r ∈ eventRegs, x.addr ≠ r.addr) (s : State) (kind part job status : Nat) (pay : Payload) :
    (s.post kind part job status pay).rd x = s.rd x := by
  simp only [eventRegs, List.forall_mem_cons] at h
  obtain ⟨hdata, hsender, hstatus, hwait, htout, -⟩ := h
  refine State.post_induct (P := fun t => t.rd x = s.rd x) (fun t u hr _ ht => (State.rd_congr hr x).trans ht) (fun t w ht => ?_) rfl kind part job status pay
  refine Eq.trans ?_ ht
  unfold State.mbxWrite
  split
  · rw [State.rd_answer, State.rd_mbxTimeout_ne _ htout]
  · split
    · rw [State.rd_answer, State.rd_mbxLand_ne _ hdata hsender hstatus]
    · split
      · rw [State.rd_answer, State.rd_mbxTimeout_ne _ htout]
      · exact (State.rd_withMbxWaits ..).trans (State.rd_setBitOf_ne _ _ _ hwait)

/-! Descriptors. -/

theorem State.ctr_requestStop (s : State) (p j source : Nat) (rec : BitVec 256) (c : Ctr) (n b : Nat) :
    (s.requestStop p j source rec).ctr c n b = s.ctr c n b := State.ctr_congr ((State.changes_requestStop ..).same .ctrs) c n b

theorem State.ctr_refuseDesc (s : State) {cl : Nat} (hcl : cl < 288) (d : BitVec 512) (m : Nat) :
    (s.refuseDesc cl d m).ctr C.dspDescRefused cl = min (s.ctr C.dspDescRefused cl + 1) (2 ^ 64 - 1) := by
  have hfault : ((s.count C.dspDescRefused cl).fault (agentCluster cl) 0x0F m (bits d 48 16) 0).ctr C.dspDescRefused cl
      = min (s.ctr C.dspDescRefused cl + 1) (2 ^ 64 - 1) :=
    (State.ctr_post (by simp only [ctrKey, C.evLost, C.dspDescRefused]; omega) (by simp only [ctrKey, C.mbxTimeouts, C.dspDescRefused]; omega) ..).trans
      (State.ctr_count_same ..)
  unfold State.refuseDesc
  dsimp only
  split
  · exact (State.ctr_requestStop ..).trans hfault
  · exact hfault

/-! Placement. -/

theorem foldl_pick_mem {α : Type} {g : Option α → α → Option α} (hg : ∀ a p, g a p = some p ∨ g a p = a) {l : List α} {a : Option α} {y : α}
    (h : l.foldl g a = some y) : y ∈ l ∨ a = some y := by
  induction l generalizing a with
  | nil => exact .inr h
  | cons p l ih =>
    obtain hm | ha := ih h
    · exact .inl (List.mem_cons_of_mem p hm)
    · obtain e | e := hg a p
      · exact .inl (Option.some.inj (e.symm.trans ha) ▸ List.mem_cons_self ..)
      · exact .inr (e.symm.trans ha)

/-- The task that is chosen is in the pool, and the core has a free slot for it. -/
theorem State.choose_eq_some {cl c : Nat} (h : s.choose cl = some (k, c)) : k ∈ s.tasks ∧ s.coreFree c = true := by
  unfold State.choose at h
  dsimp only at h
  obtain ⟨⟨j, k', c'⟩, hfold, hp⟩ := Option.map_eq_some_iff.1 h
  obtain ⟨rfl, rfl⟩ := Prod.mk.inj hp
  obtain hmem | hnone := foldl_pick_mem (fun a p => by
    cases a with
    | none => exact .inl rfl
    | some q =>
      dsimp only
      split
      · exact .inl rfl
      · exact .inr rfl) hfold
  · obtain ⟨i, -, hi⟩ := List.mem_filterMap.1 hmem
    split at hi
    · obtain ⟨q, hq, he⟩ := Option.map_eq_some_iff.1 hi
      obtain ⟨rfl, rfl⟩ := Prod.mk.inj he
      obtain ⟨t, ht, hplace⟩ := List.exists_of_findSome?_eq_some hq
      obtain ⟨c'', hc, he⟩ := Option.map_eq_some_iff.1 hplace
      obtain ⟨rfl, rfl⟩ := Prod.mk.inj he
      unfold State.placeOn at hc
      split at hc
      · have hfree := List.find?_some hc
        simp only [Bool.and_eq_true] at hfree
        exact ⟨List.mem_of_mem_filter ht, hfree.1⟩
      · cases hc
    · cases hi
  · cases hnone

/-- A task that is READY stays so or begins to run. -/
theorem State.task?_schedule_of_ready (h : s.holdsTask t) (c : Nat) (sw : Bool) :
    (s.schedule c sw).task? t.id = some t ∨ (s.schedule c sw).task? t.id = some { t with stat := .running } := by
  have hsync : ∀ u : State, (u.syncSlots c).task? t.id = u.task? t.id := fun u => by
    rw [State.task?, (State.changes_syncSlots (s := u) c).same .tasks, State.task?]
  obtain hq | ⟨k, u, hm, -, htasks, -, hq⟩ := s.schedule_cases c sw
  · exact .inl (by rw [hq, hsync, h.1])
  · have hu := State.holdsTask_of_tasks h htasks
    rw [hq, hsync]
    by_cases hid : k.id = t.id
    · obtain rfl := h.2 k hm hid
      exact .inr (State.task?_setTask_of (k := { k with stat := .running }) (by rw [hu.1]; rfl) rfl)
    · exact .inl (State.holdsTask_setTask_ne (k := { k with stat := .running }) hu hid).1

theorem State.holdsTask_fillProg (h : s.holdsTask t) : ∃ m, (s.fillProg t.id).holdsTask { t with prog := m } := by
  unfold State.fillProg
  simp only [h.1]
  exact ⟨_, State.holdsTask_setTask { t with prog := _ } (by rw [h.1]; rfl)⟩

/-- A task that is placed is in its slot, READY or RUNNING. -/
theorem State.task?_place {c : Nat} (h : k ∈ s.tasks) : ∃ y, (s.place k c).task? k.id = some y ∧ y.core = c ∧ y.pc = 0 ∧ y.carry = 0
    ∧ (y.stat = .ready ∨ y.stat = .running) ∧ y.slot = (s.freeSlot c).getD 0 := by
  have hsome : (s.task? k.id).isSome = true := List.find?_isSome.2 ⟨k, h, by simp⟩
  unfold State.place
  extract_lets audit1 sus2 x3 s4 s5 s6 s7 s8
  have hs4 := s.holdsTask_setTask { x3 with
    stat := .ready, core := c, slot := (s.freeSlot c).getD 0, placed := s.taskSeq, audit := audit1, excl := none } hsome
  have hs5 : s4.changes [.ctrs, .taskSeq, .groups] s5 := (State.changes_set_taskSeq_groups ..).after .refl
  have hs7 : s4.changes [.ctrs, .taskSeq, .groups] s7 :=
    State.changes_ite ((State.changes_countCore ..).after ((State.changes_count ..).after hs5)) ((State.changes_count ..).after hs5)
  have hs8 : s4.changes [.ctrs, .taskSeq, .groups] s8 := State.changes_ite ((State.changes_count ..).after hs7) hs7
  have hheld := State.holdsTask_of_tasks hs4 (hs8.same .tasks)
  obtain ⟨m, hm⟩ := State.holdsTask_fillProg hheld
  obtain hr | hr := State.task?_schedule_of_ready hm c false
  · exact ⟨_, hr, rfl, rfl, rfl, .inl rfl, rfl⟩
  · exact ⟨_, hr, rfl, rfl, rfl, .inr rfl, rfl⟩

end Sys2Proof.Machine

open Sys2Proof Sys2Proof.Machine

/-- Settles O16: the checks say which of the three a descriptor comes to. -/
theorem descriptorsLoadOrAreRefused : Obligations.DescriptorsLoadOrAreRefused := by
  unfold Obligations.DescriptorsLoadOrAreRefused
  intro cl d s hcl hload
  have he : exec (.descLoad cl d) s = .next (s.loadDesc cl d) := by
    show execDescLoad cl d s = _
    rw [execDescLoad, unitOk, if_pos hcl, need, if_pos hload]
  have hall := State.changes_loadDesc (s := s) cl d
  refine ⟨_, he, hall.same .rows, hall.same .lpddr, hall.same .shadow, fun h => ?_, fun h hf hb => ?_, fun h hf hg => ?_⟩
  · rw [show s.loadDesc cl d = s.refuseDesc cl d (s.descFails cl d) from if_pos h]
    have hch := State.changes_refuseDesc (s := s) cl d (s.descFails cl d)
    exact ⟨hch.same .tasks, hch.same .groups, s.ctr_refuseDesc (by simpa [clOk] using hcl) d _⟩
  · rw [show s.loadDesc cl d = s.count C.dspFrozenDropped cl from (if_neg (by simp [h])).trans (if_pos (by simp [hf, hb]))]
    exact ⟨rfl, rfl, s.ctr_count_same ..⟩
  · rw [show s.loadDesc cl d = ({ s with tasks := s.tasks ++ [newTask s.taskSeq cl d], taskSeq := s.taskSeq + 1 } : State).joinGroup (newTask s.taskSeq cl d)
      from (if_neg (by simp [h])).trans ((if_neg (by simp [hf])).trans (if_neg (by simp [hg])))]
    have hch := State.changes_joinGroup (s := { s with tasks := s.tasks ++ [newTask s.taskSeq cl d], taskSeq := s.taskSeq + 1 }) (newTask s.taskSeq cl d)
    exact ⟨hch.same .tasks, hch.same .taskSeq, hch.same .regs⟩

/-- Settles O17: the chosen task is in the pool and its core has a free slot, which it takes; where the core runs no task, it begins to run. -/
theorem dispatchPlacesTheChosen : Obligations.DispatchPlacesTheChosen := by
  unfold Obligations.DispatchPlacesTheChosen
  intro cl s hcl
  have he : exec (.dispatch cl) s = .next (s.dispatch cl) := by
    show execDispatch cl s = _
    rw [execDispatch, unitOk, if_pos hcl]
  refine ⟨fun k c hd hch => ?_, fun h => ?_⟩
  · obtain ⟨hmem, hfree⟩ := State.choose_eq_some hch
    simp only [State.coreFree, Bool.and_eq_true, Option.isSome_iff_exists] at hfree
    obtain ⟨⟨⟨i, hi⟩, -⟩, -⟩ := hfree
    have hplace : s.dispatch cl = s.place k c := by simp [State.dispatch, hd, hch]
    obtain ⟨y, hy, hcore, hpc, hcarry, hstat, hslot⟩ := State.task?_place (c := c) hmem
    have hall := State.changes_place (s := s) k c
    rw [← hplace] at hy hall
    exact ⟨_, y, he, hy, hcore, hpc, hcarry, hstat, by rw [hslot, hi]; rfl, hall.same .rows, hall.same .lpddr, hall.same .shadow⟩
  · rw [he]
    obtain h | h := h
    · simp [State.dispatch, h]
    · simp [State.dispatch, h]
end

section
/-! Units that are released, tasks that retire, stops that fall due (R80, R166, R178, R180). -/

-- The frame conditions are evaluated in the kernel: theorems elaborated in parallel would each hold a thread while they wait for it.
set_option Elab.async false

namespace Sys2Proof.Machine

variable {s u v : State} {t k : Task} {id : Nat}

/-! Units. -/

theorem State.unitOwner_congr (he : u.engs = s.engs) (hc : u.cores = s.cores) (c : Nat) (x : CoreUnit) : u.unitOwner c x = s.unitOwner c x := by
  cases x <;> simp only [State.unitOwner, State.eng, State.core, he, hc]

theorem State.owner_freeEng (s : State) (e : Nat) : ((s.freeEng e).eng e).owner = none := by
  unfold State.freeEng
  split
  · next id h => simp [Eng.released, h]
  · next h => exact h

theorem State.unitOwner_releaseUnit (s : State) (c : Nat) (x : CoreUnit) : (s.releaseUnit c x).unitOwner c x = none := by
  have hwake : ∀ u : State, ((u.syncUnits c).wakeUnits c).unitOwner c x = u.unitOwner c x := fun u => by
    have hch : u.changes [.regs, .ctrs, .tasks, .waits] ((u.syncUnits c).wakeUnits c) :=
      (State.changes_wakeUnits ..).after ((State.changes_syncUnits ..).after .refl)
    exact State.unitOwner_congr (hch.same .engs) (hch.same .cores) c x
  unfold State.releaseUnit
  refine (hwake _).trans ?_
  cases x with
  | me0 => exact s.owner_freeEng _
  | me1 => exact s.owner_freeEng _
  | mvp => simp [State.unitOwner]
  | enc => simp [State.unitOwner]

/-! Retire. -/

/-- A task stands while its core chooses, unless it is READY. -/
theorem State.task?_schedule (h : s.task? id = some t) (hn : ∀ x ∈ s.tasks, x.id = id → x.stat ≠ .ready) (c : Nat) (sw : Bool) :
    (s.schedule c sw).task? id = some t := by
  have hsync : ∀ u : State, (u.syncSlots c).task? id = u.task? id := fun u => by
    rw [State.task?, (State.changes_syncSlots (s := u) c).same .tasks, State.task?]
  obtain hq | ⟨k, u, hm, hready, htasks, -, hq⟩ := s.schedule_cases c sw
  · rw [hq, hsync, h]
  · have hu : u.task? id = some t := by rwa [State.task?, htasks]
    rw [hq, hsync, State.task?_setTask_ne u (t := { k with stat := .running }) fun e => hn k hm e.symm hready, hu]

/-- A task as it retires, with the fault that it has by then. -/
theorem State.task?_retire (h : s.task? t.id = some t) : ∃ f, (s.retire t).task? t.id = some { t with stat := .retired, fault := f }
    ∧ (retireCause t = none → f = t.fault) ∧ (∀ g, t.fault = some g → f = some g)
    ∧ ∀ c d, t.fault = none → retireCause t = some (c, d) → f.map TFault.cause = some c := by
  have hend : ∀ (v : State) (y : Task), v.task? t.id = some y → ((v.modTask t.id fun u => { u with stat := .retired }).setCore t.core
      { (v.modTask t.id fun u => { u with stat := .retired }).core t.core with active := true }
        |>.schedule t.core true).task? t.id = some { y with stat := .retired } := fun v y hy => by
    refine State.task?_schedule ?_ (fun x hx hid => ?_) _ _
    · exact State.task?_modTask_same (f := fun u => { u with stat := .retired }) hy fun _ => rfl
    · obtain ⟨z, -, rfl⟩ := State.mem_modTask (s := v) (f := fun u => { u with stat := .retired }) hx
      by_cases hz : z.id = t.id
      · simp [hz]
      · simp [hz] at hid
  unfold State.retire
  cases hc : retireCause t with
  | none => exact ⟨t.fault, hend s t h, fun _ => rfl, fun g hg => hg, fun _ _ _ hc => absurd hc (by simp)⟩
  | some p =>
    obtain ⟨c, d⟩ := p
    dsimp only
    generalize hv : (if c = 6 ∧ t.fault.isNone = true then
      ((dedup t.badEngs).foldl (fun (s : State) e => s.countEng C.tallyRepeat e) s).withdraw t else s) = v
    have hv : v.task? t.id = some t := by
      have hch : s.changes Writes.withdraw v := hv ▸ State.changes_ite ((State.changes_withdraw ..).after (State.changes_foldl .refl
        fun _ _ ht => (State.changes_countEng ..).after ht)) .refl
      rwa [State.task?, hch.same .tasks]
    have hf : ∃ f, (v.taskFault t.id c (t.pc - 1) 0 d).task? t.id = some { t with fault := f } ∧ (∀ g, t.fault = some g → f = some g)
        ∧ (t.fault = none → f.map TFault.cause = some c) := by
      unfold State.taskFault
      simp only [hv]
      cases hf : t.fault with
      | some g =>
        refine ⟨some g, ?_, fun _ h => h, fun h => absurd h (by simp)⟩
        simp only [Option.isSome_some, if_true]
        rw [hv, ← hf]
      | none =>
        refine ⟨some ⟨c, t.pc - 1, t.slot, v.beatNo, 0, d⟩, ?_, fun g h => absurd h (by simp), fun _ => rfl⟩
        simp only [Option.isSome_none, Bool.false_eq_true, if_false]
        have hset := State.task?_setTask_of (s := v) (k := { t with fault := some ⟨c, t.pc - 1, t.slot, v.beatNo, 0, d⟩ })
          (by rw [hv]; rfl) rfl
        have hrep := State.changes_reportFault (s := v.setTask { t with fault := some ⟨c, t.pc - 1, t.slot, v.beatNo, 0, d⟩ })
          t ⟨c, t.pc - 1, t.slot, v.beatNo, 0, d⟩
        rw [State.task?, hrep.same .tasks]
        exact hset
    obtain ⟨f, hf, h2, h3⟩ := hf
    exact ⟨f, hend _ _ hf, fun h => absurd h (by simp), h2, fun _ _ hn h => by cases h; exact h3 hn⟩

end Sys2Proof.Machine

open Sys2Proof Sys2Proof.Machine

/-- Settles O34: nothing that follows a release gives the unit an owner; a task's own causes come before no fault that it has. -/
theorem releaseRetireAndStop : Obligations.ReleaseRetireAndStop := by
  unfold Obligations.ReleaseRetireAndStop
  refine ⟨fun core v s hc hm => ?_, fun core slot s t hc hslot hin ht hstat habort hinc hlen => ?_, fun p j s hp hj hsrc hrun => ?_⟩
  · have he : exec (.engineRelease core v) s = .next (s.releaseUnit core v) := by
      show execEngineRelease core v s = _
      rw [execEngineRelease, unitOk, if_pos (by simp [coreOk, hc]), need, if_pos hm]
    have hall := State.changes_releaseUnit (s := s) core v
    exact ⟨_, he, s.unitOwner_releaseUnit core v, hall.same .rows, hall.same .lpddr⟩
  · have he : exec (.taskRetire core slot) s = .next (s.retire t) := by
      show execTaskRetire core slot s = _
      rw [execTaskRetire, unitOk, if_pos (by simp [coreOk, hc, hslot])]
      simp only [hin]
      rw [need, if_pos (by simp [hstat, habort, hinc, hlen])]
    obtain ⟨f, hf, h1, h2, h3⟩ := State.task?_retire ht
    have hall := State.changes_retire (s := s) t
    exact ⟨_, _, he, hf, rfl, h1, h2, fun c d => h3 c d, hall.same .rows, hall.same .lpddr⟩
  · have he : exec (.faultJobStop p j) s = .next (s.setJob p j { s.job p j with stopDue := true }) := by
      show execFaultJobStop p j s = _
      rw [execFaultJobStop, unitOk, if_pos (by simp [hp, hj]), need, if_pos (by simp [hsrc, hrun])]
    exact ⟨_, he, State.job_setJob_same .., rfl, rfl, rfl⟩
end

section
/-! The entropy sources (R69, R74, R75, R228). -/

-- The frame conditions are evaluated in the kernel: theorems elaborated in parallel would each hold a thread while they wait for it.
set_option Elab.async false

namespace Sys2Proof.Machine

variable {s : State} {r : Reg} {f g : Fld}

theorem State.flag_setFld_one (h : f.lo + f.len ≤ 64) (hl : f.len = 1) (s : State) (r : Reg) : (s.setFld r f 1).flag r f = true := by
  rw [State.flag, State.fld_setFld_same _ _ _ _ h, hl]; rfl

theorem State.flag_setFld_zero (h : f.lo + f.len ≤ 64) (s : State) (r : Reg) : (s.setFld r f 0).flag r f = false := by
  rw [State.flag, State.fld_setFld_same _ _ _ _ h]; simp

theorem State.flag_setFld_apart (h : f.lo + f.len ≤ g.lo ∨ g.lo + g.len ≤ f.lo) (s : State) (r : Reg) (v : Nat) :
    (s.setFld r f v).flag r g = s.flag r g := by
  rw [State.flag, State.fld_setFld_apart _ _ _ _ _ h, State.flag]

theorem eventRegs_above {r : Reg} (h : r ∈ eventRegs) : mgtBase ≤ r.addr := by
  have hle : eventRegs.all (fun r => decide (mgtBase ≤ r.addr)) = true := by decide
  simpa using List.all_eq_true.1 hle r h

/-- An event changes no register below those of the management block. -/
theorem State.rd_post_below (h : r.addr < mgtBase) (s : State) (kind part job status : Nat) (pay : Payload) :
    (s.post kind part job status pay).rd r = s.rd r :=
  State.rd_post_ne (fun _ hx => Nat.ne_of_lt (h.trans_le (eventRegs_above hx))) s kind part job status pay

theorem core_below_mgt {c o : Nat} (hc : c < 2304) (ho : o < 0x4000000) : coreBase c + o < mgtBase := by
  unfold coreBase mgtBase regBase
  rw [if_pos hc]
  omega

/-- A core's source after a failed test, but for the event (R74). -/
def State.rngFailed (s : State) (c : Nat) : State :=
  ((if s.seeded c then s else s.setFld (.coRngStatus c) F.coRngStatusFallback 1).setFld (.coRngStatus c) F.coRngStatusFail 1).setFld
    (.coRngStatus c) F.coRngStatusFailCount (min (s.fld (.coRngStatus c) F.coRngStatusFailCount + 1) 65535)

theorem State.fallback_rngFailed (s : State) (c : Nat) :
    (s.rngFailed c).flag (.coRngStatus c) F.coRngStatusFallback = (!s.seeded c || s.flag (.coRngStatus c) F.coRngStatusFallback) := by
  rw [State.rngFailed, State.flag_setFld_apart (by decide), State.flag_setFld_apart (by decide)]
  cases h : s.seeded c with
  | true => simp
  | false => simpa using State.flag_setFld_one (by decide) rfl s _

theorem State.fail_rngFailed (s : State) (c : Nat) : (s.rngFailed c).flag (.coRngStatus c) F.coRngStatusFail = true := by
  rw [State.rngFailed, State.flag_setFld_apart (by decide)]
  exact State.flag_setFld_one (by decide) rfl ..

theorem State.failCount_rngFailed (s : State) (c : Nat) :
    (s.rngFailed c).fld (.coRngStatus c) F.coRngStatusFailCount = min (s.fld (.coRngStatus c) F.coRngStatusFailCount + 1) 65535 := by
  rw [State.rngFailed, State.fld_setFld_same _ _ _ _ (by decide)]
  exact Nat.mod_eq_of_lt (Nat.lt_of_le_of_lt (Nat.min_le_right ..) (by decide))

theorem State.rngFail_core (s : State) (c : Nat) :
    s.rngFail (.core c) = ((s.rngFailed c).setCore c { (s.rngFailed c).core c with rngBeat := 1 }).fault (agentCore c) 0x08 0 0 0 := by
  have hcount : (if s.seeded c then s else s.setFld (.coRngStatus c) F.coRngStatusFallback 1).fld (.coRngStatus c) F.coRngStatusFailCount
      = s.fld (.coRngStatus c) F.coRngStatusFailCount := by
    cases h : s.seeded c with
    | true => rfl
    | false => exact State.fld_setFld_apart _ _ _ _ _ (by decide)
  simp only [State.rngFail, State.rngFailed, hcount]

end Sys2Proof.Machine

open Sys2Proof Sys2Proof.Machine

/-- Settles O36: the event that reports the failure touches neither the status word nor the generators. -/
theorem entropyFallback : Obligations.EntropyFallback := by
  unfold Obligations.EntropyFallback
  refine ⟨fun c s hc => ?_, fun c s hc hfall hbeat => ?_, fun g s hg => ?_⟩
  · have he : exec (.rngHealthFail (.core c)) s = .next (s.rngFail (.core c)) := by
      show execRngHealthFail (.core c) s = _
      rw [execRngHealthFail, unitOk, if_pos (by simp [Machine.rngOk, coreOk, hc])]
    have hall := State.changes_rngFail (s := s) (.core c)
    have hrd : (s.rngFail (.core c)).rd (.coRngStatus c) = (s.rngFailed c).rd (.coRngStatus c) := by
      rw [State.rngFail_core]
      exact (State.rd_post_below (core_below_mgt hc (by decide)) ..).trans rfl
    have hfld : ∀ f, (s.rngFail (.core c)).fld (.coRngStatus c) f = (s.rngFailed c).fld (.coRngStatus c) f := State.fld_congr hrd
    have hstay : exec (.rngFallbackExit (.core c)) (s.rngFail (.core c)) = .next (s.rngFail (.core c)) := by
      have hcore : ((s.rngFail (.core c)).core c).rngBeat = 1 := by
        rw [State.rngFail_core]
        have hf := State.changes_fault (s := (s.rngFailed c).setCore c { (s.rngFailed c).core c with rngBeat := 1 }) (agentCore c) 0x08 0 0 0
        rw [State.core, hf.same .cores]
        exact congrArg Core.rngBeat (State.core_setCore_same ..)
      show execRngFallbackExit (.core c) _ = _
      rw [execRngFallbackExit, unitOk, if_pos (by simp [Machine.rngOk, coreOk, hc]), need, if_neg (by simp [State.rngMayExit, hcore])]
    exact ⟨_, he, by rw [State.flag, hfld]; exact s.fallback_rngFailed c, by rw [State.flag, hfld]; exact s.fail_rngFailed c,
      by rw [hfld]; exact s.failCount_rngFailed c, hstay, hall.same .rows, hall.same .lpddr⟩
  · have he : exec (.rngFallbackExit (.core c)) s = .next (s.rngExit (.core c)) := by
      show execRngFallbackExit (.core c) s = _
      rw [execRngFallbackExit, unitOk, if_pos (by simp [Machine.rngOk, coreOk, hc]), need, if_pos (by simp [State.rngMayExit, hfall, hbeat])]
    exact ⟨_, he, State.flag_setFld_zero (by decide) .., State.flag_setFld_apart (by decide) .., fun x hx => s.rd_setFld_ne _ _ hx,
      s.sameStores_refl⟩
  · have he : exec (.rngHealthFail (.granary g)) s = .next (s.rngFail (.granary g)) := by
      show execRngHealthFail (.granary g) s = _
      rw [execRngHealthFail, unitOk, if_pos (by simp [Machine.rngOk, granaryOk, hg])]
    have hall := State.changes_rngFail (s := s) (.granary g)
    have hf := State.changes_fault (s := { s with grng := SMap.put (fun _ => (0, false)) s.grng g (1, true) }) (agentGranary g) 0x08 1 0 0
    refine ⟨_, he, ?_, hall.same .rows, hall.same .lpddr⟩
    have hg : (s.rngFail (.granary g)).grng = SMap.put (fun _ => (0, false)) s.grng g (1, true) := hf.same .grng
    rw [State.granaryFallback, hg, SMap.get_put_same]
end

section
/-! Channels of the cluster DMA that are abandoned or restartedChan (R243, Table 10-5). -/

-- The frame conditions are evaluated in the kernel: theorems elaborated in parallel would each hold a thread while they wait for it.
set_option Elab.async false

namespace Sys2Proof.Machine

variable {s u : State} {cl ch : Nat} {r : Reg}

/-! The status register of a channel. -/

theorem cluster_below_mgt {o : Nat} (hc : cl < 288) (ho : o < 0x4000000) : clBase cl + o < mgtBase := by
  unfold clBase mgtBase regBase
  omega

theorem State.chan_congr (h : u.chans = s.chans) (cl ch : Nat) : u.chan cl ch = s.chan cl ch := by rw [State.chan, h, State.chan]

theorem State.chState_congr (h : u.rd (.dmaCtrl cl ch) = s.rd (.dmaCtrl cl ch)) : u.chState cl ch = s.chState cl ch := State.fld_congr h _

theorem State.chState_setChState (s : State) (cl ch : Nat) {n : Nat} (h : n < 8) : (s.setChState cl ch n).chState cl ch = n := by
  rw [State.chState, State.setChState, State.fld_setFld_same _ _ _ _ (by decide)]
  exact Nat.mod_eq_of_lt h

theorem State.chState_syncChan (s : State) (cl ch : Nat) : (s.syncChan cl ch).chState cl ch = s.chState cl ch := by
  rw [State.chState, State.syncChan, State.fld_setFld_apart _ _ _ _ _ (by decide), State.fld_setFld_apart _ _ _ _ _ (by decide), State.chState]

theorem State.rd_syncChan_ne (h : r.addr ≠ (Reg.dmaCtrl cl ch).addr) (s : State) : (s.syncChan cl ch).rd r = s.rd r := by
  rw [State.syncChan, State.rd_setFld_ne _ _ _ h, State.rd_setFld_ne _ _ _ h]

theorem State.chState_event (hc : cl < 288) (hh : ch < 32) (s : State) (a kind x y z : Nat) :
    (s.fault a kind x y z).chState cl ch = s.chState cl ch :=
  State.chState_congr (State.rd_post_below (cluster_below_mgt hc (by omega)) ..)

theorem dmaRingPtr_ne_dmaCtrl (cl ch : Nat) : (Reg.dmaRingPtr cl ch).addr ≠ (Reg.dmaCtrl cl ch).addr := by
  show clBase cl + (0x8010 + 0x40 * ch) ≠ clBase cl + (0x8030 + 0x40 * ch)
  omega

/-- A channel as RESTART leaves it, with `w` its new contents. -/
def State.restartedChan (s : State) (cl ch : Nat) (w : Chan) : State :=
  (((s.setChan cl ch w).setFld (.dmaRingPtr cl ch) F.dmaRingPtrFetch (s.fld (.dmaRingPtr cl ch) F.dmaRingPtrLimit)).setChState cl ch 0).syncChan cl ch

theorem State.fld_ringPtr_restartedChan (s : State) (cl ch : Nat) (w : Chan) (f : Fld) : (s.restartedChan cl ch w).fld (.dmaRingPtr cl ch) f
    = (s.setFld (.dmaRingPtr cl ch) F.dmaRingPtrFetch (s.fld (.dmaRingPtr cl ch) F.dmaRingPtrLimit)).fld (.dmaRingPtr cl ch) f := by
  refine State.fld_congr ?_ f
  rw [State.restartedChan, State.rd_syncChan_ne (dmaRingPtr_ne_dmaCtrl _ _), State.setChState, State.rd_setFld_ne _ _ _ (dmaRingPtr_ne_dmaCtrl _ _)]
  exact State.rd_congr rfl _

theorem State.chan_restartedChan (s : State) (cl ch : Nat) (w : Chan) : (s.restartedChan cl ch w).chan cl ch = w := by
  have hch : (s.setChan cl ch w).changes [.regs] (s.restartedChan cl ch w) :=
    (State.changes_syncChan ..).after ((State.changes_setChState ..).after ((State.changes_setFld ..).after .refl))
  exact (State.chan_congr (hch.same .chans) cl ch).trans (State.chan_setChan_same ..)

end Sys2Proof.Machine

open Sys2Proof Sys2Proof.Machine

/-- Settles O42: what follows the change of the channel's state writes other fields of its registers and other registers. -/
theorem abandonAndRestart : Obligations.AbandonAndRestart := by
  unfold Obligations.AbandonAndRestart
  intro cl ch s hcl hch
  have habandon : exec (.dmaAbandon cl ch) s = .next (s.abandonChan cl ch) := by
    show execDmaAbandon cl ch s = _
    rw [execDmaAbandon, unitOk, if_pos (by simp [hcl, hch])]
  refine ⟨fun h => ?_, fun x h hx => ?_, fun h => ?_, fun h => ?_⟩
  · rw [habandon, State.abandonChan]
    cases hcur : (s.chan cl ch).cur with
    | none => rfl
    | some x => simp only [if_pos h]
  · have hall := State.changes_abandonChan (s := s) cl ch
    refine ⟨_, habandon, ?_⟩
    rw [State.abandonChan] at hall ⊢
    simp only [hx, h, ne_eq, not_true_eq_false, if_false] at hall ⊢
    refine ⟨?_, ?_, hall.same .rows, hall.same .lpddr, hall.same .tasks⟩
    · rw [State.chState_event hcl hch, State.chState_syncChan, State.chState_setChState _ _ _ (by decide)]
    · have hch : (s.setChan cl ch { s.chan cl ch with cur := none, page := none, done := (s.chan cl ch).done ++ [{ x with status := 3 }] }).changes
          [.regs] ((_ : State).syncChan cl ch) := (State.changes_syncChan ..).after ((State.changes_setChState cl ch 3).after .refl)
      rw [State.chan_congr ((State.changes_fault ..).same .chans), State.chan_congr (hch.same .chans), State.chan_setChan_same]
  · show execDmaRestart cl ch s = _
    rw [execDmaRestart, unitOk, if_pos (by simp [hcl, hch]), if_pos h]
  · have he : exec (.dmaRestart cl ch) s = .next (s.restartedChan cl ch { s.chan cl ch with queue := [], buf := [], cur := none, tail := [] }) := by
      show execDmaRestart cl ch s = _
      rw [execDmaRestart, unitOk, if_pos (by simp [hcl, hch]), if_neg (by simp [h]), State.restartedChan]
    have hall : s.changes [.regs, .chans] (s.restartedChan cl ch { s.chan cl ch with queue := [], buf := [], cur := none, tail := [] }) :=
      (State.changes_syncChan ..).after ((State.changes_setChState ..).after ((State.changes_setFld ..).after ((State.changes_setChan ..).after .refl)))
    refine ⟨_, he, ?_, s.chan_restartedChan .., ?_, ?_, hall.same .rows, hall.same .lpddr, hall.same .tasks⟩
    · rw [State.restartedChan, State.chState_syncChan, State.chState_setChState _ _ _ (by decide)]
    · rw [State.fld_ringPtr_restartedChan, State.fld_setFld_same _ _ _ _ (by decide)]
      exact Nat.mod_eq_of_lt (bits_lt ..)
    · rw [State.fld_ringPtr_restartedChan, State.fld_setFld_apart _ _ _ _ _ (by decide)]
end

section
/-! Clears and copies end where no transfer waits (R227, R418). -/

-- The frame conditions are evaluated in the kernel: theorems elaborated in parallel would each hold a thread while they wait for it.
set_option Elab.async false

namespace Sys2Proof.Machine

variable {s t u : State} {cl ch : Nat}

/-! Channels with nothing in flight. -/

/-- Nothing of a transfer is in flight on a channel. -/
def State.idleChan (s : State) (cl ch : Nat) : Prop := (s.chan cl ch).cur = none ∧ (s.chan cl ch).tail = []

/-- Every channel stands, and so does all else but registers. -/
structure State.keepsChans (s t : State) : Prop where
  frame : s.changes [.regs, .chans] t
  chans : ∀ cl ch, t.chan cl ch = s.chan cl ch

theorem State.keepsChans.refl : s.keepsChans s := ⟨.refl, fun _ _ => rfl⟩

theorem State.keepsChans.trans (h : s.keepsChans t) (k : t.keepsChans u) : s.keepsChans u :=
  ⟨k.frame.after h.frame, fun cl ch => (k.chans cl ch).trans (h.chans cl ch)⟩

theorem State.keepsChans.idle (h : s.keepsChans t) (hi : s.idleChan cl ch) : t.idleChan cl ch := by
  rw [State.idleChan, h.chans]; exact hi

theorem State.keepsChans.foldl {α : Type} {f : State → α → State} (h : ∀ t a, s.keepsChans t → t.keepsChans (f t a)) (l : List α) (ht : s.keepsChans t) :
    s.keepsChans (l.foldl f t) := by
  induction l generalizing t with
  | nil => exact ht
  | cons a l ih => exact ih (ht.trans (h t a ht))

theorem State.keepsChans_syncChan (s : State) (cl ch : Nat) : s.keepsChans (s.syncChan cl ch) :=
  have h : s.changes [.regs] (s.syncChan cl ch) := State.changes_syncChan ..
  ⟨h.after .refl, fun k l => State.chan_congr (h.same .chans) k l⟩

/-- A channel with nothing in flight does not move. -/
theorem State.keepsChans_resumeChan (h : s.idleChan cl ch) : s.keepsChans (s.resumeChan cl ch) := by
  obtain ⟨hcur, htail⟩ := h
  have hput : s.keepsChans (s.setChan cl ch { s.chan cl ch with cur := none, tail := [] }) := by
    refine ⟨(State.changes_setChan ..).after .refl, fun k l => ?_⟩
    by_cases hk : chanKey cl ch = chanKey k l
    · have hs : ∀ t : State, t.chan k l = t.chan cl ch := fun t => by rw [State.chan, ← hk, State.chan]
      rw [hs, hs, State.chan_setChan_same, ← htail, ← hcur]
    · exact State.chan_setChan_ne _ _ hk
  unfold State.resumeChan
  split
  · exact .refl
  · simp only [htail, List.foldl_nil, State.chan_setChan_same, hcur, List.length_nil, State.endTail, State.endCur]
    exact hput.trans (State.keepsChans_syncChan ..)

theorem State.keepsChans_resumePart (h : ∀ cl ch, s.idleChan cl ch) (p : Nat) : s.keepsChans (s.resumePart p) :=
  .foldl (fun _ _ ht => .foldl (fun _ _ hu => State.keepsChans_resumeChan (hu.idle (ht.idle (h _ _)))) _ .refl) _ .refl

/-- Where no row waits to land, nothing happens when the granaries go on. -/
theorem State.landHeldRows_none (h : ∀ b ∈ s.bringups, b.held = []) : s.landHeldRows = s := by
  unfold State.landHeldRows
  generalize s.bringups = l at h
  induction l with
  | nil => rfl
  | cons b l ih =>
    rw [List.foldl_cons, h b (by simp), List.foldl_nil]
    exact ih fun x hx => h x (by simp [hx])

theorem State.keepsChans_granariesGo (hi : ∀ cl ch, s.idleChan cl ch) (ha : s.arrivals = []) (hb : ∀ b ∈ s.bringups, b.held = []) :
    s.keepsChans s.granariesGo := by
  have heta : ({ s with arrivals := [] } : State) = s := by rw [← ha]
  unfold State.granariesGo
  simp only [State.landHeldRows_none hb, ha, List.foldl_nil, heta]
  exact .foldl (fun _ _ ht => State.keepsChans_resumePart (fun _ _ => ht.idle (hi _ _)) _) _ .refl

end Sys2Proof.Machine

open Sys2Proof Sys2Proof.Machine

/-- Settles O40: with nothing in flight on the channels they stand when the granaries go on. -/
theorem clearsAndCopiesEnd : Obligations.ClearsAndCopiesEnd := by
  unfold Obligations.ClearsAndCopiesEnd
  intro s hchan hpark harr hheld
  refine ⟨fun p j hp hj hclear => ?_, fun dev ch row hdev hch hmem => ?_⟩
  · have he : exec (.epochClearDone p j) s = .next (s.setJob p j { s.job p j with clearing := false }).syncEpoch.granariesGo := by
      show execEpochClearDone p j s = _
      rw [execEpochClearDone, unitOk, if_pos (by simp [hp, hj]), need, if_pos hclear]
    have hsync := State.changes_syncEpoch (s := s.setJob p j { s.job p j with clearing := false })
    have hgo := State.keepsChans_granariesGo (s := (s.setJob p j { s.job p j with clearing := false }).syncEpoch)
      (fun cl k => by rw [State.idleChan, State.chan_congr (hsync.same .chans)]; exact hchan cl k)
      ((hsync.same .arrivals).trans harr) (by rw [hsync.same .bringups]; exact hheld)
    have hall : s.changes [.regs, .chans, .jobs] _ := hgo.frame.after (hsync.after ((State.changes_setJob ..).after .refl))
    refine ⟨_, he, ?_, hall.same .rows, hall.same .lpddr, hall.same .tasks⟩
    rw [State.job, hgo.frame.same .jobs, hsync.same .jobs]
    exact State.job_setJob_same ..
  · have he : exec (.rowRetireCopyDone dev ch row) s = .next ({ s with
        copying := s.copying.filter fun x => !decide (x = (dev, ch, row)), retiredRows := s.retiredRows ++ [(dev, ch, row)] } : State).granariesGo := by
      show execRowRetireCopyDone dev ch row s = _
      rw [execRowRetireCopyDone, unitOk, if_pos (by simp [hdev, hch]), need, if_pos (by simpa using hmem)]
    have hgo := State.keepsChans_granariesGo (s := { s with
        copying := s.copying.filter fun x => !decide (x = (dev, ch, row)), retiredRows := s.retiredRows ++ [(dev, ch, row)] }) hchan harr hheld
    refine ⟨_, he, ?_, ?_, hgo.frame.same .rows, hgo.frame.same .lpddr, hgo.frame.same .tasks⟩
    · rw [hgo.frame.same .copying]
      simp
    · rw [hgo.frame.same .retiredRows]
      simp
end

section
/-! Rows of LPDDR5X as they are read, run-ahead rows found stale, timeouts (R211, R247, R336). -/

-- The frame conditions are evaluated in the kernel: theorems elaborated in parallel would each hold a thread while they wait for it.
set_option Elab.async false

namespace Sys2Proof.Machine

variable {s u : State} {l : LpLoc} {x : LpRow}

/-! A row whose codewords are clean (R211). -/

theorem LpRow.found_of_clean (h : x.err = 0) : x.found = [] := if_pos h

theorem LpRow.fixed_of_clean (h : x.err = 0) : x.fixed = x := by rw [LpRow.fixed, LpRow.found_of_clean h]; rfl

theorem LpRow.poison_of_clean (h : x.err = 0) : x.poison = false := by rw [LpRow.poison, LpRow.found_of_clean h]; rfl

theorem LpRow.worn_of_clean (h : x.err = 0) : x.worn = false := by rw [LpRow.worn, LpRow.found_of_clean h]; rfl

theorem State.lp_congr (h : u.lpddr = s.lpddr) (k : Nat) : u.lp k = s.lp k := by rw [State.lp, h, State.lp]

/-- The controller's check rows alone see the read of a clean row. -/
theorem State.lpTouch_of_clean {key : Nat} (h : (s.lp key).err = 0) : s.changes [.ctrs, .checks] (s.lpTouch key) := by
  have hcheck := State.changes_lpCheck (s := s) key false
  have hlp : (s.lpCheck key false).lp key = s.lp key := State.lp_congr (hcheck.same .lpddr) key
  unfold State.lpTouch
  simp only [hlp, LpRow.worn_of_clean h, LpRow.poison_of_clean h, Bool.false_eq_true, if_false]
  exact hcheck

theorem State.lpMeet_of_clean (h : (s.lp l.key).err = 0) : s.changes [.ctrs, .checks] (s.lpMeet l) := by
  unfold State.lpMeet
  split
  · exact .refl
  · exact State.lpTouch_of_clean h

/-! What an access finds depends on registers, leaves and translation caches. -/

theorem State.ttAt_congr (hr : u.regs = s.regs) (g i : Nat) : u.ttAt g i = s.ttAt g i := by
  simp only [State.ttAt, State.rd, hr]

theorem State.homeGran_congr (hs : u.shape = s.shape) : u.homeGran = s.homeGran := by rw [State.homeGran, hs, State.homeGran]

theorem State.tt_congr (hr : u.regs = s.regs) (hs : u.shape = s.shape) (i : Nat) : u.tt i = s.tt i := by
  simp only [State.tt, State.ttAt_congr hr, State.homeGran_congr hs]

theorem State.ttSource_congr (hr : u.regs = s.regs) (g : Nat) : ∀ n i, u.ttSource g n i = s.ttSource g n i
  | 0, _ => rfl
  | n + 1, i => by simp only [State.ttSource, State.ttSource_congr hr g n, State.ttAt_congr hr]

theorem State.ttEff_congr (hr : u.regs = s.regs) (hs : u.shape = s.shape) (i : Nat) : u.ttEff i = s.ttEff i := by
  simp only [State.ttEff, State.ttEffAt, State.ttSource_congr hr, State.ttAt_congr hr, State.homeGran_congr hs]

theorem State.locate_congr (hr : u.regs = s.regs) (hs : u.shape = s.shape) (hl : u.lpddr = s.lpddr) (hc : u.clus = s.clus) (hg : u.gates = s.gates)
    (hw : u.walk = s.walk) (v : Via) (p j row : Nat) : u.locate v p j row = s.locate v p j row := by
  have heff := State.ttEff_congr hr hs
  have htt := State.tt_congr hr hs
  have hroot : ∀ i, u.ttRoot i = s.ttRoot i := fun i => by simp only [State.ttRoot, State.ttSource_congr hr, State.homeGran, hs]
  have hlist : u.ttListed = s.ttListed := by simp only [State.ttListed, State.homeGran, hr, hs]
  have hpage : ∀ p pg, u.pageOf p pg = s.pageOf p pg := fun p pg => by rw [State.pageOf, State.lp_congr hl, State.pageOf]
  have htrans : ∀ w p pg, u.translate w p pg = s.translate w p pg := fun w p pg => by
    simp only [State.translate, State.cl, State.gate, hc, hg, hw, hpage]
  have hown : ∀ w p row, u.ownLocVia w p row = s.ownLocVia w p row := fun w p row => by simp only [State.ownLocVia, htrans, htt]
  simp only [State.locate, hown, hlist, heff, htt, hroot]

theorem State.unwritten_congr (hr : u.regs = s.regs) (hs : u.shape = s.shape) (he : u.epoch = s.epoch) (l : LpLoc) : u.unwritten l = s.unwritten l := by
  simp only [State.unwritten, State.tt_congr hr hs, he]

theorem State.lpRead_congr (hr : u.regs = s.regs) (hs : u.shape = s.shape) (he : u.epoch = s.epoch) (hl : u.lpddr = s.lpddr) (l : LpLoc) :
    u.lpRead l = s.lpRead l := by
  simp only [State.lpRead, State.unwritten_congr hr hs he, State.lp_congr hl]

theorem State.lpRead_clean (h : (s.lp l.key).err = 0) : (s.lpRead l).poison = false := by
  unfold State.lpRead
  split
  · rfl
  · exact LpRow.poison_of_clean h

/-! A stale row of a slot (R247). -/

variable {ch src : Nat} {r : RowRef} {n : GenNote}

theorem State.rereadRow_of_clean {cl p j row : Nat} (hl : s.locate (.cluster cl) p j row = l) (h : (s.ttEff l.tensor).res ≠ 2)
    (hc : (s.lp l.key).err = 0) : s.rereadRow cl p j row = (((s.lpRead l).data, false), s.lpMeet l) := by
  have hm := State.lpMeet_of_clean hc
  have hread : (s.lpMeet l).lpRead l = s.lpRead l := State.lpRead_congr (hm.same .regs) (hm.same .shape) (hm.same .epoch) (hm.same .lpddr) l
  unfold State.rereadRow
  simp only [hl, if_neg (not_and.2 fun hres _ => h hres), hread, State.lpRead_clean hc]

/-- The state as the channel gives up its note of the stale row. -/
def State.unnoted (s : State) (ch : Nat) (r : RowRef) : State :=
  s.setChan (rowCluster r) ch { s.chan (rowCluster r) ch with
    refetch := (s.chan (rowCluster r) ch).refetch.filter fun (q : RowRef × GenNote) => !decide (q.1 = r) }

/-- A slot of one row is filled with the row as LPDDR5X has it now. -/
theorem State.refetch_clean {v : State} (hv : s.unnoted ch r = v) (hrows : n.rows = [src])
    (hl : v.locate (.cluster (rowCluster r)) (v.ttEff n.tensor).part (v.ttEff n.tensor).job src = l) (hpage : pgState l.page = 1)
    (hres : (v.ttEff l.tensor).res ≠ 2) (hclean : (v.lp l.key).err = 0) (helem : dElem n.desc = false) (hbyte : (srcRows n.desc n.q).2.1 = 0) :
    s.refetch ch r n = (v.lpMeet l).fill r (v.lpRead l).data false (some { n with gen := (v.ttEff n.tensor).gen }) := by
  unfold State.unnoted at hv
  unfold State.refetch
  simp only [hv, hrows, List.any_cons, List.any_nil, hl, hpage, List.foldl_cons, List.foldl_nil, State.rereadRow_of_clean hl hres hclean, helem,
    hbyte, joined, List.map_cons, List.map_nil, List.nil_append]
  simp

/-- A slot whose row's page is not PRESENT is poisoned. -/
theorem State.refetch_absent {v : State} (hv : s.unnoted ch r = v) (hrows : n.rows = [src])
    (hl : v.locate (.cluster (rowCluster r)) (v.ttEff n.tensor).part (v.ttEff n.tensor).job src = l) (hpage : pgState l.page ≠ 1) :
    s.refetch ch r n = (v.fill r 0 true none).fault (agentCluster (rowCluster r)) 0x0D ch n.tensor (rowAddr r) := by
  unfold State.unnoted at hv
  unfold State.refetch
  simp only [hv, hrows, List.any_cons, List.any_nil, hl]
  simp [hpage]

/-! A request with no response (R336). -/

theorem State.otGet_expired (s : State) (g tag : Nat) (e : OtEnt) :
    (s.setGate g { s.gate g with ot := SMap.insert (s.gate g).ot tag (some e) }).otGet g tag = some e := by
  rw [State.otGet, State.gate_setGate_same, SMap.get, SMap.find?_insert, if_pos rfl]
  rfl

/-- The transfer of a channel with nothing in flight is gone: nothing changes. -/
theorem State.keepsChans_modXfer {cl ch : Nat} (h : s.idleChan cl ch) (id : Nat) (f : Xfer → Xfer) : s.keepsChans (s.modXfer cl ch id f) := by
  have ⟨hcur, htail⟩ := h
  have hput : s.keepsChans (s.setChan cl ch (s.chan cl ch)) := by
    refine ⟨(State.changes_setChan ..).after .refl, fun k l => ?_⟩
    by_cases hk : chanKey cl ch = chanKey k l
    · have hs : ∀ t : State, t.chan k l = t.chan cl ch := fun t => by rw [State.chan, ← hk, State.chan]
      rw [hs, hs, State.chan_setChan_same]
    · exact State.chan_setChan_ne _ _ hk
  have hkeep : ({ s.chan cl ch with
      cur := (s.chan cl ch).cur.map (fun x => if x.id = id then f x else x),
      tail := (s.chan cl ch).tail.map (fun x => if x.id = id then f x else x) } : Chan) = s.chan cl ch := by
    rw [hcur, htail, Option.map_none, List.map_nil, ← hcur, ← htail]
  unfold State.modXfer
  simp only [hkeep]
  exact hput.trans (State.keepsChans_resumeChan (hput.idle h))

theorem State.keepsChans_timedOut {e : OtEnt} (h : s.idleChan e.cl e.ch) (hk : e.kind = .read ∨ e.kind = .write) : s.keepsChans (s.timedOut e) := by
  unfold State.timedOut
  obtain hk | hk := hk <;> simp only [hk] <;> exact State.keepsChans_modXfer h ..

end Sys2Proof.Machine

open Sys2Proof Sys2Proof.Machine

/-- Settles O44: the row of a slot is read again where nothing but its channel's note has changed; a channel with nothing in flight stands. -/
theorem staleRowsAndTimeouts : Obligations.StaleRowsAndTimeouts := by
  unfold Obligations.StaleRowsAndTimeouts
  refine ⟨fun r s ch src n hr hnote hempty hcls hrows => ?_, fun g tag s e hg he hexp hcur htail hkind => ?_⟩
  · have hexec : exec (.pfStaleRefetch r) s = .next (s.refetch ch r n) := by
      show execPfStaleRefetch r s = _
      rw [execPfStaleRefetch, unitOk, if_pos hr]
      simp only [hnote]
      rw [need, if_pos (by simp [hcls, hempty])]
    generalize hv : s.unnoted ch r = v
    have hch : s.changes [.chans] v := hv ▸ (State.changes_setChan ..)
    have htt : v.ttEff = s.ttEff := funext (State.ttEff_congr (hch.same .regs) (hch.same .shape))
    have hloc : v.locate = s.locate := by
      funext w p j row
      exact State.locate_congr (hch.same .regs) (hch.same .shape) (hch.same .lpddr) (hch.same .clus) (hch.same .gates) (hch.same .walk) w p j row
    have hrow : ∀ (t : State) (y : RowSt), t.rows = s.rows → (t.setRow r y).row r = y ∧ s.rowsElsewhere (t.setRow r y) [r] := fun t y ht =>
      ⟨State.row_setRow_same .., fun x hx => (t.rowsElsewhere_setRow r y [r] (by simp) x hx).trans (State.row_congr ht x)⟩
    refine ⟨fun hpage hres hclean helem hbyte => ?_, fun hpage => ?_⟩
    · have hre := State.refetch_clean (l := s.locate (.cluster (rowCluster r)) (s.ttEff n.tensor).part (s.ttEff n.tensor).job src) hv hrows
        (by rw [htt, hloc]) hpage (by rwa [htt]) (by rwa [State.lp_congr (hch.same .lpddr)]) helem hbyte
      have hmeet := State.lpMeet_of_clean (s := v) (l := s.locate (.cluster (rowCluster r)) (s.ttEff n.tensor).part (s.ttEff n.tensor).job src)
        (by rwa [State.lp_congr (hch.same .lpddr)])
      rw [State.lpRead_congr (hch.same .regs) (hch.same .shape) (hch.same .epoch) (hch.same .lpddr), htt] at hre
      obtain ⟨h1, h2⟩ := hrow _ ⟨(s.lpRead (s.locate (.cluster (rowCluster r)) (s.ttEff n.tensor).part (s.ttEff n.tensor).job src)).data, .full, none, none,
        some { n with gen := (s.ttEff n.tensor).gen }⟩ ((hmeet.same .rows).trans (hch.same .rows))
      exact ⟨_, hexec.trans (congrArg _ hre), h1, h2, (hmeet.same .lpddr).trans (hch.same .lpddr)⟩
    · have hre := State.refetch_absent (l := s.locate (.cluster (rowCluster r)) (s.ttEff n.tensor).part (s.ttEff n.tensor).job src) hv hrows
        (by rw [htt, hloc]) hpage
      rw [State.fill, if_pos rfl] at hre
      generalize hy : v.setRow r ⟨0, .poison, none, none, none⟩ = y at hre
      have hf := State.changes_fault (s := y) (agentCluster (rowCluster r)) 0x0D ch n.tensor (rowAddr r)
      have hlp : y.lpddr = v.lpddr := hy ▸ v.setRow_lpddr ..
      obtain ⟨h1, h2⟩ := hrow v ⟨0, .poison, none, none, none⟩ (hch.same .rows)
      rw [hy] at h1 h2
      rw [hre] at hexec
      exact ⟨_, hexec, (State.row_congr (hf.same .rows) r).trans h1, State.rowsElsewhere_of_rows h2 (hf.same .rows),
        (hf.same .lpddr).trans (hlp.trans (hch.same .lpddr))⟩
  · have hexec : exec (.remoteTimeout g tag) s = .next (s.remoteTimeout g tag e) := by
      show execRemoteTimeout g tag s = _
      rw [execRemoteTimeout, unitOk, if_pos (by simp [gateOk, hg])]
      simp only [he]
      rw [need, if_pos (by simp [hexp])]
    have hgate : s.changes [.gates, .ctrs] ((s.setGate g { s.gate g with
        ot := SMap.insert (s.gate g).ot tag (some { e with expired := true }) }).count C.gateTimeouts g) :=
      (State.changes_count ..).after ((State.changes_setGate ..).after .refl)
    have hkeep := State.keepsChans_timedOut (s := (s.setGate g { s.gate g with
        ot := SMap.insert (s.gate g).ot tag (some { e with expired := true }) }).count C.gateTimeouts g) (e := e)
      (by rw [State.idleChan, State.chan_congr (hgate.same .chans)]; exact ⟨hcur, htail⟩) hkind
    refine ⟨_, hexec, ?_, (hkeep.frame.same .rows).trans (hgate.same .rows), (hkeep.frame.same .lpddr).trans (hgate.same .lpddr),
      (hkeep.frame.same .tasks).trans (hgate.same .tasks), fun cl ch => (hkeep.chans cl ch).trans (State.chan_congr (hgate.same .chans) cl ch)⟩
    have hgates := (hkeep.frame.same .gates).trans ((State.changes_count (s := s.setGate g { s.gate g with
        ot := SMap.insert (s.gate g).ot tag (some { e with expired := true }) }) C.gateTimeouts g 1 0).same .gates)
    rw [State.remoteTimeout, State.otGet, State.gate, hgates]
    exact s.otGet_expired ..
end

section
/-! Descriptor rings and completion records (R197, R234, R242). -/

-- The frame conditions are evaluated in the kernel: theorems elaborated in parallel would each hold a thread while they wait for it.
set_option Elab.async false

namespace Sys2Proof.Machine

variable {s u : State} {cl ch : Nat}

/-! Records. -/

/-- A channel's DMA_LAST is none of the registers that its completion silo is read from. -/
theorem siloRegs_ne_dmaLast (hcl : cl < 288) (s : State) : (siloCfgReg (s.csSilo cl ch)).addr ≠ (Reg.dmaLast cl ch).addr
    ∧ (siloPtrReg (s.csSilo cl ch)).addr ≠ (Reg.dmaLast cl ch).addr ∧ (siloPendReg (s.csSilo cl ch)).addr ≠ (Reg.dmaLast cl ch).addr := by
  have hsilo : s.fld (.dmaChcfg cl ch) F.dmaChcfgCsSilo < 256 := bits_lt ..
  have hcore : s.fld (.dmaChcfg cl ch) F.dmaChcfgCsCore < 8 := bits_lt ..
  unfold State.csSilo
  dsimp only
  generalize s.fld (.dmaChcfg cl ch) F.dmaChcfgCsSilo = n at hsilo
  generalize s.fld (.dmaChcfg cl ch) F.dmaChcfgCsCore = k at hcore
  split
  · show clBase cl + _ ≠ clBase cl + _ ∧ clBase cl + _ ≠ clBase cl + _ ∧ clBase cl + _ ≠ clBase cl + _
    omega
  · show coreBase (8 * cl + k) + _ ≠ clBase cl + _ ∧ coreBase (8 * cl + k) + _ ≠ clBase cl + _ ∧ coreBase (8 * cl + k) + _ ≠ clBase cl + _
    unfold clBase coreBase regBase
    rw [if_pos (by omega)]
    omega

theorem State.flag_congr {r : Reg} (h : u.rd r = s.rd r) (f : Fld) : u.flag r f = s.flag r f := by rw [State.flag, State.fld_congr h, State.flag]

theorem State.csSilo_congr (h : u.rd (.dmaChcfg cl ch) = s.rd (.dmaChcfg cl ch)) : u.csSilo cl ch = s.csSilo cl ch := by
  simp only [State.csSilo, State.flag_congr h, State.fld_congr h]

theorem dmaLast_ne_dmaCtrl (cl ch : Nat) : (Reg.dmaLast cl ch).addr ≠ (Reg.dmaCtrl cl ch).addr := by
  show clBase cl + (0x8038 + 0x40 * ch) ≠ clBase cl + (0x8030 + 0x40 * ch)
  omega

theorem dmaChcfg_ne_dmaLast (cl ch : Nat) : (Reg.dmaChcfg cl ch).addr ≠ (Reg.dmaLast cl ch).addr := by
  show clBase cl + (0x8000 + 0x40 * ch) ≠ clBase cl + (0x8038 + 0x40 * ch)
  omega

theorem State.flushRecords_none (h : (s.chan cl ch).held = []) (n : Nat) : s.flushRecords cl ch n = s := by
  cases n with
  | zero => rfl
  | succ n => rw [State.flushRecords]; simp only [h]

/-- Where one record waits and its row is free, it lands at the silo's TAIL. -/
theorem State.flushRecords_one {rec_ : BitVec 256} {x : SiloRef} (hx : s.csSilo cl ch = x) (hh : (s.chan cl ch).held = [rec_]) (hc : (s.silo x).credit ≠ 0)
    (hf : fillOk (s.row (siloRow x (s.silo x) (s.silo x).tail)) false = true) (n : Nat) :
    (s.flushRecords cl ch (n + 1)).chan cl ch = { s.chan cl ch with held := [] }
      ∧ (s.flushRecords cl ch (n + 1)).row (siloRow x (s.silo x) (s.silo x).tail) = ⟨rec_.zeroExtend 4096, .full, none, none, none⟩
      ∧ s.rowsElsewhere (s.flushRecords cl ch (n + 1)) [siloRow x (s.silo x) (s.silo x).tail] := by
  obtain ⟨y, hy⟩ : ∃ y, y = s.silo x := ⟨_, rfl⟩
  obtain ⟨r, hr⟩ : ∃ r, r = siloRow x y y.tail := ⟨_, rfl⟩
  rw [← hy] at hc hf ⊢
  rw [← hr] at hf ⊢
  obtain ⟨v, hv⟩ : ∃ v, v = (s.setChan cl ch { s.chan cl ch with held := [] }).setRow r ⟨rec_.zeroExtend 4096, .full, none, none, none⟩ := ⟨_, rfl⟩
  obtain ⟨z, hz⟩ : ∃ z : Silo, z = { y with tail := y.plus y.tail 1, tailP := y.plus y.tailP 1 } := ⟨_, rfl⟩
  have hptr := State.changes_setSiloPtrs (s := v) x z
  have hchan : (v.setSiloPtrs x z).chan cl ch = { s.chan cl ch with held := [] } := by
    rw [State.chan_congr (hptr.same .chans), hv, State.chan_congr (State.setRow_chans ..), State.chan_setChan_same]
  have hstep : s.flushRecords cl ch (n + 1) = v.setSiloPtrs x z := by
    rw [State.flushRecords]
    simp only [hx, hh, ← hy, ← hr, hc, hf, Bool.not_true, Bool.false_eq_true, or_self, if_false, State.fill]
    rw [← hz, ← hv]
    exact State.flushRecords_none (by rw [hchan]) n
  rw [hstep]
  refine ⟨hchan, ?_, fun k hk => ?_⟩
  · rw [State.row_congr (hptr.same .rows), hv, State.row_setRow_same]
  · rw [State.row_congr (hptr.same .rows), hv, State.row_setRow_ne _ _ (hk r (by simp)), State.row_congr ((State.changes_setChan ..).same .rows)]

/-- A transfer that does not end well is counted. -/
def State.endCounted (s : State) (cl ch : Nat) (x : Xfer) : State :=
  if x.status = 1 then s.count C.dmaPartial cl 1 ch else if x.status = 2 then s.count C.dmaErrors cl 1 ch else s

theorem State.changes_endCounted (s : State) (cl ch : Nat) (x : Xfer) : s.changes [.ctrs] (s.endCounted cl ch x) :=
  State.changes_ite ((State.changes_count ..).after .refl) (State.changes_ite ((State.changes_count ..).after .refl) .refl)

/-- The state as the transfer at the head has left its record in DMA_LAST. -/
def State.lastShown (s : State) (cl ch : Nat) (x : Xfer) (rest : List Xfer) : State :=
  ((s.setChan cl ch { s.chan cl ch with done := rest }).endCounted cl ch x).wr (.dmaLast cl ch)
    ((record s (s.agentOf cl ch) x).extractLsb' 0 64)

theorem State.changes_lastShown (s : State) (cl ch : Nat) (x : Xfer) (rest : List Xfer) : s.changes [.regs, .ctrs, .chans] (s.lastShown cl ch x rest) :=
  (State.changes_wr ..).after ((State.changes_endCounted ..).after ((State.changes_setChan ..).after .refl))

theorem State.chan_lastShown (s : State) (cl ch : Nat) (x : Xfer) (rest : List Xfer) :
    (s.lastShown cl ch x rest).chan cl ch = { s.chan cl ch with done := rest } := by
  rw [State.lastShown, State.chan_congr ((State.changes_wr ..).same .chans), State.chan_congr ((State.changes_endCounted ..).same .chans),
    State.chan_setChan_same]

theorem State.rd_lastShown_ne {r : Reg} (h : r.addr ≠ (Reg.dmaLast cl ch).addr) (s : State) (x : Xfer) (rest : List Xfer) :
    (s.lastShown cl ch x rest).rd r = s.rd r := by
  rw [State.lastShown, State.rd_wr_ne _ _ h, State.rd_congr ((State.changes_endCounted ..).same .regs), State.rd_congr ((State.changes_setChan ..).same .regs)]

theorem State.changes_settled (s : State) (cl ch : Nat) (p j source : Nat) (rec_ : BitVec 256) (b : Bool) :
    s.changes [.regs, .jobs] ((if b then s.requestStop p j source rec_ else s).settleChan cl ch) :=
  (State.changes_settleChan ..).after (State.changes_ite ((State.changes_requestStop ..).after .refl) .refl)

theorem State.rd_settleChan_ne {r : Reg} (h : r.addr ≠ (Reg.dmaCtrl cl ch).addr) (s : State) : (s.settleChan cl ch).rd r = s.rd r := by
  unfold State.settleChan
  dsimp only
  split
  · exact s.rd_setFld_ne _ _ h
  · rfl

/-- A transfer that owes no record leaves its first word in DMA_LAST. -/
theorem State.transferEnd_quiet {x : Xfer} (h : recordDue x = false) (rest : List Xfer) :
    s.transferEnd cl ch x rest = (s.lastShown cl ch x rest).settleChan cl ch := by
  have hst : x.status = 0 := by
    unfold recordDue at h
    simp only [Bool.not_eq_false', Bool.and_eq_true, beq_iff_eq] at h
    exact h.1.2
  unfold State.transferEnd State.lastShown State.endCounted
  simp [h, hst, record]
  rfl

/-- The state as a transfer that owes a record has it held, and the records that are held have landed as far as they can. -/
def State.recordHeld (s : State) (cl ch : Nat) (rec_ : BitVec 256) : State :=
  (s.setChan cl ch { s.chan cl ch with held := (s.chan cl ch).held ++ [rec_] }).flushRecords cl ch 8

theorem State.recordHeld_one {rec_ : BitVec 256} {x : SiloRef} {v : State} (hx : v.csSilo cl ch = x) (hh : (v.chan cl ch).held = [])
    (hs : v.silo x = s.silo x) (hr : v.rows = s.rows) (hc : (s.silo x).credit ≠ 0)
    (hf : fillOk (s.row (siloRow x (s.silo x) (s.silo x).tail)) false = true) :
    (v.recordHeld cl ch rec_).chan cl ch = { v.chan cl ch with held := [] }
      ∧ (v.recordHeld cl ch rec_).row (siloRow x (s.silo x) (s.silo x).tail) = ⟨rec_.zeroExtend 4096, .full, none, none, none⟩
      ∧ s.rowsElsewhere (v.recordHeld cl ch rec_) [siloRow x (s.silo x) (s.silo x).tail] := by
  have hput := State.changes_setChan (s := v) cl ch { v.chan cl ch with held := (v.chan cl ch).held ++ [rec_] }
  have hchan := v.chan_setChan_same cl ch { v.chan cl ch with held := (v.chan cl ch).held ++ [rec_] }
  unfold State.recordHeld
  generalize v.setChan cl ch { v.chan cl ch with held := (v.chan cl ch).held ++ [rec_] } = w at hput hchan ⊢
  have hsilo : w.silo x = s.silo x := by
    rw [← hs]
    exact State.silo_congr (State.rd_congr (hput.same .regs) _) (State.rd_congr (hput.same .regs) _) (State.rd_congr (hput.same .regs) _)
  have hrows : w.rows = s.rows := (hput.same .rows).trans hr
  obtain ⟨h1, h2, h3⟩ := State.flushRecords_one (s := w) (x := x) (rec_ := rec_) ((State.csSilo_congr (State.rd_congr (hput.same .regs) _)).trans hx)
    (by rw [hchan, hh]; rfl) (by rwa [hsilo]) (by rw [hsilo, State.row_congr hrows]; exact hf) 7
  rw [hsilo] at h2 h3
  refine ⟨h1.trans (by rw [hchan]), h2, fun k hk => (h3 k hk).trans (State.row_congr hrows k)⟩

theorem State.silo_lastShown (hcl : cl < 288) (s : State) (y : Xfer) (rest : List Xfer) :
    (s.lastShown cl ch y rest).silo (s.csSilo cl ch) = s.silo (s.csSilo cl ch) := by
  obtain ⟨hcfg, hptr, hpend⟩ := siloRegs_ne_dmaLast (ch := ch) hcl s
  exact State.silo_congr (State.rd_lastShown_ne hcfg ..) (State.rd_lastShown_ne hptr ..) (State.rd_lastShown_ne hpend ..)

theorem State.transferEnd_due {x : Xfer} (h : recordDue x = true) (hfw : (s.agentOf cl ch).fw = false)
    (hk : (s.job (s.agentOf cl ch).part (s.agentOf cl ch).job).stat ≠ .killing) (rest : List Xfer) :
    ((s.lastShown cl ch x rest).recordHeld cl ch (record s (s.agentOf cl ch) x)).changes [.regs, .jobs] (s.transferEnd cl ch x rest) := by
  have hjob : (s.lastShown cl ch x rest).job (s.agentOf cl ch).part (s.agentOf cl ch).job = s.job (s.agentOf cl ch).part (s.agentOf cl ch).job := by
    rw [State.job, (State.changes_lastShown ..).same .jobs, State.job]
  have he : s.transferEnd cl ch x rest = (if !(s.agentOf cl ch).fw && decide (2 ≤ x.status) then
      ((s.lastShown cl ch x rest).recordHeld cl ch (record s (s.agentOf cl ch) x)).requestStop (s.agentOf cl ch).part (s.agentOf cl ch).job 2
        (record s (s.agentOf cl ch) x)
      else (s.lastShown cl ch x rest).recordHeld cl ch (record s (s.agentOf cl ch) x)).settleChan cl ch := by
    have hrec : record (s.setChan cl ch { s.chan cl ch with done := rest }) (s.agentOf cl ch) x = record s (s.agentOf cl ch) x := rfl
    have hin : ((s.agentOf cl ch).fw || !recordDue x
        || decide (((s.lastShown cl ch x rest).job (s.agentOf cl ch).part (s.agentOf cl ch).job).stat = .killing)) = false := by
      rw [hjob, hfw, h, decide_eq_false hk]; rfl
    unfold State.lastShown State.endCounted at hin
    unfold State.transferEnd State.recordHeld State.lastShown State.endCounted
    simp only [hrec, hin, Bool.false_eq_true, if_false]
  rw [he]
  exact State.changes_settled ..

end Sys2Proof.Machine

open Sys2Proof Sys2Proof.Machine

/-- Settles O43: the registers that a silo and a ring are read from stand until the record has landed. -/
theorem ringsAndRecords : Obligations.RingsAndRecords := by
  unfold Obligations.RingsAndRecords
  intro cl ch s hcl hch n ds x tail
  refine ⟨fun hmode hn hlen hbuf => ?_, fun y rest hdone hdue => ?_, fun y rest hdone hdue hfw hheld hkill hcred hfill => ?_, fun h hheld hcred hfill => ?_⟩
  · have he : exec (.dmaRingFetch cl ch) s = .next (((s.setChan cl ch { s.chan cl ch with buf := (s.chan cl ch).buf ++ ds }).setFld (.dmaRingPtr cl ch)
        F.dmaRingPtrFetch ((s.fld (.dmaRingPtr cl ch) F.dmaRingPtrFetch + n) % 2 ^ 32)).count C.dmaDescFetch cl 1 ch) := by
      show execDmaRingFetch cl ch s = _
      rw [execDmaRingFetch, unitOk, if_pos (by simp [hcl, hch])]
      exact if_pos (decide_eq_true ⟨hmode, hn, hlen, hbuf⟩)
    have hall : s.changes [.regs, .ctrs, .chans] (((s.setChan cl ch { s.chan cl ch with buf := (s.chan cl ch).buf ++ ds }).setFld (.dmaRingPtr cl ch)
        F.dmaRingPtrFetch ((s.fld (.dmaRingPtr cl ch) F.dmaRingPtrFetch + n) % 2 ^ 32)).count C.dmaDescFetch cl 1 ch) :=
      (State.changes_count ..).after ((State.changes_setFld ..).after ((State.changes_setChan ..).after .refl))
    refine ⟨_, he, ?_, ?_, ?_, hall.same .rows, hall.same .lpddr, hall.same .tasks⟩
    · rw [State.chan_congr ((State.changes_count ..).same .chans), State.chan_congr ((State.changes_setFld ..).same .chans), State.chan_setChan_same]
    · rw [State.fld_congr (State.rd_congr ((State.changes_count ..).same .regs) _), State.fld_setFld_same _ _ _ _ (by decide)]
      exact Nat.mod_mod ..
    · rw [State.fld_congr (State.rd_congr ((State.changes_count ..).same .regs) _), State.fld_setFld_apart _ _ _ _ _ (by decide)]
      exact State.fld_congr (State.rd_congr ((State.changes_setChan ..).same .regs) _) _
  · have he : exec (.dmaTransferEnd cl ch) s = .next ((s.lastShown cl ch y rest).settleChan cl ch) := by
      show execDmaTransferEnd cl ch s = _
      rw [execDmaTransferEnd, unitOk, if_pos (by simp [hcl, hch])]
      simp only [hdone, State.transferEnd_quiet hdue]
    have hall : s.changes [.regs, .ctrs, .chans] ((s.lastShown cl ch y rest).settleChan cl ch) :=
      (State.changes_settleChan ..).after ((State.changes_lastShown ..).after .refl)
    refine ⟨_, he, ?_, ?_, hall.same .rows, hall.same .lpddr, hall.same .tasks⟩
    · rw [State.chan_congr ((State.changes_settleChan ..).same .chans), State.chan_lastShown]
    · rw [State.rd_settleChan_ne (dmaLast_ne_dmaCtrl _ _), State.lastShown, State.rd_wr_same]
  · have he : exec (.dmaTransferEnd cl ch) s = .next (s.transferEnd cl ch y rest) := by
      show execDmaTransferEnd cl ch s = _
      rw [execDmaTransferEnd, unitOk, if_pos (by simp [hcl, hch])]
      simp only [hdone]
    have hend := State.transferEnd_due hdue hfw hkill rest
    have hall := State.changes_transferEnd (s := s) cl ch y rest
    obtain ⟨h1, h2, h3⟩ := State.recordHeld_one (x := x) (rec_ := record s (s.agentOf cl ch) y) (v := s.lastShown cl ch y rest)
      (State.csSilo_congr (State.rd_lastShown_ne (dmaChcfg_ne_dmaLast _ _) ..)) (by rw [State.chan_lastShown]; exact hheld)
      (State.silo_lastShown hcl ..) ((State.changes_lastShown ..).same .rows) hcred hfill
    rw [State.chan_lastShown] at h1
    refine ⟨_, he, (State.chan_congr (hend.same .chans) ..).trans (h1.trans ?_), (State.row_congr (hend.same .rows) _).trans h2,
      State.rowsElsewhere_of_rows h3 (hend.same .rows), hall.same .lpddr, hall.same .tasks⟩
    dsimp only
    rw [hheld]
  · have he : exec (.dmaRecordFlush cl ch) s = .next (s.flushRecords cl ch 8) := by
      show execDmaRecordFlush cl ch s = _
      rw [execDmaRecordFlush, unitOk, if_pos (by simp [hcl, hch]), need, if_pos (by simpa [hheld] using ⟨hcred, hfill⟩)]
    have hall := State.changes_flushRecords (s := s) cl ch 8
    obtain ⟨h1, h2, h3⟩ := State.flushRecords_one (x := x) rfl hheld hcred hfill 7
    exact ⟨_, he, h1, h2, h3, hall.same .lpddr, hall.same .tasks⟩
end

section
/-! Transfers of one row between rows of the SRAM stores (R236 to R240, R243, R244). -/

-- The frame conditions are evaluated in the kernel: theorems elaborated in parallel would each hold a thread while they wait for it.
set_option Elab.async false

namespace Sys2Proof.Machine

variable {s u v : State} {cl ch : Nat} {g : Agent} {d : Desc} {a b : RowRef} {x : Xfer}

/-! Rows that a channel may reach. -/

/-- All stands that says which rows of the SRAM stores an agent reaches: the device's shape, its partitions, and the quotas of its clusters. -/
structure State.sameSram (s u : State) : Prop where
  shape : u.shape = s.shape
  parts : ∀ p, u.rd (.mgtPart p) = s.rd (.mgtPart p)
  quotas : ∀ r : Reg, ∀ c < 288, ∀ o < 0x8000, r.addr = clBase c + o → u.rd r = s.rd r

/-- The row of the SRAM stores that an address names, whatever its quota. -/
def State.sramAt (s : State) (g : Agent) (a off : Nat) : Option RowRef :=
  if a % 512 ≠ 0 then none
  else if space a = 1 then
    if a % 2 ^ 52 / 2 ^ 29 < 288 ∧ a % 2 ^ 29 / 512 + off < 1048576 ∧ s.clusterHole (a % 2 ^ 52 / 2 ^ 29) = false
      ∧ s.partOfCluster (a % 2 ^ 52 / 2 ^ 29) = some g.part then some (.loft (a % 2 ^ 52 / 2 ^ 29) (a % 2 ^ 29 / 512 + off)) else none
  else if space a = 2 then
    if a % 2 ^ 52 / 2 ^ 22 < 2304 ∧ a % 2 ^ 22 / 512 + off < 8192 ∧ s.coreHole (a % 2 ^ 52 / 2 ^ 22) = false
      ∧ s.partOfCore (a % 2 ^ 52 / 2 ^ 22) = some g.part then some (.near (a % 2 ^ 52 / 2 ^ 22) (a % 2 ^ 22 / 512 + off)) else none
  else none

theorem State.sramRow_eq (s : State) (g : Agent) (a off : Nat) : s.sramRow g a off = (s.sramAt g a off).filter fun x => g.fw || s.inQuota g.job x := rfl

theorem State.sramAt_eq_some {n off : Nat} {r : RowRef} (h : s.sramAt g n off = some r) :
    (∃ c k, r = .near c k ∧ c < 2304) ∨ ∃ c k, r = .loft c k ∧ c < 288 := by
  unfold State.sramAt at h
  split at h
  · cases h
  · split at h
    · split at h
      · next hc => cases h; exact .inr ⟨_, _, rfl, hc.1⟩
      · cases h
    · split at h
      · split at h
        · next hc => cases h; exact .inl ⟨_, _, rfl, hc.1⟩
        · cases h
      · cases h

section
variable (h : s.sameSram u)
include h

theorem State.sameSram.partOfDie (k : Nat) : u.partOfDie k = s.partOfDie k := by
  have hin : ∀ p, u.dieIn p k = s.dieIn p k := fun p => by
    simp only [State.dieIn, State.partEn, State.flag_congr (h.parts p), State.fld_congr (h.parts p)]
  simp only [State.partOfDie, hin]

theorem State.sameSram.inQuota {j : Nat} (hj : j < 16) {r : RowRef}
    (hr : (∃ c n, r = .near c n ∧ c < 2304) ∨ ∃ c n, r = .loft c n ∧ c < 288) : u.inQuota j r = s.inQuota j r := by
  obtain ⟨c, n, rfl, hc⟩ | ⟨c, n, rfl, hc⟩ := hr
  · have hq : u.rd (.clNquota (c / 8) j) = s.rd (.clNquota (c / 8) j) := h.quotas _ (c / 8) (by omega) _ (by omega) rfl
    exact decide_eq_decide.2 (by simp only [State.nearBase, State.nearRows, State.fld_congr hq])
  · have hq : u.rd (.clLquota c j) = s.rd (.clLquota c j) := h.quotas _ c hc _ (by omega) rfl
    exact decide_eq_decide.2 (by simp only [State.loftBase, State.loftRows, State.fld_congr hq])

theorem State.sameSram.sramAt (g : Agent) (n off : Nat) : u.sramAt g n off = s.sramAt g n off := by
  have hhole : ∀ k, u.clusterHole k = s.clusterHole k := fun k => by simp only [State.clusterHole, h.shape]
  have hphys : ∀ c, u.physOf c = s.physOf c := fun c => by simp only [State.physOf, State.fallowPhys, State.coreMap, h.shape]
  have hcore : ∀ c, u.coreHole c = s.coreHole c := fun c => by simp only [State.coreHole, hphys, h.shape]
  have hpart : ∀ k, u.partOfCluster k = s.partOfCluster k := fun k => h.partOfDie _
  have hpartC : ∀ c, u.partOfCore c = s.partOfCore c := fun c => h.partOfDie _
  simp only [State.sramAt, hpart, hpartC, hhole, hcore]

theorem State.sameSram.sramRow (hj : g.job < 16) (n off : Nat) : u.sramRow g n off = s.sramRow g n off := by
  rw [State.sramRow_eq, State.sramRow_eq, h.sramAt]
  cases hr : s.sramAt g n off with
  | none => rfl
  | some r => simp only [Option.filter_some, h.inQuota hj (State.sramAt_eq_some hr)]

theorem State.sameSram.agentOf (hcfg : u.rd (.dmaChcfg cl ch) = s.rd (.dmaChcfg cl ch)) : u.agentOf cl ch = s.agentOf cl ch := by
  simp only [State.agentOf, State.partOfCluster, h.partOfDie, State.fld_congr hcfg]

end

/-- All stands that says which rows a channel reaches: of the registers in force only the channel's control word may differ. -/
structure State.sameReach (s : State) (cl ch : Nat) (u : State) : Prop where
  shape : u.shape = s.shape
  regs : ∀ r : Reg, r.addr ≠ (Reg.dmaCtrl cl ch).addr → u.rd r = s.rd r

theorem State.sameReach.refl : s.sameReach cl ch s := ⟨rfl, fun _ _ => rfl⟩

variable (h : s.sameReach cl ch u)
include h

theorem State.sameReach.trans (k : u.sameReach cl ch v) : s.sameReach cl ch v :=
  ⟨k.shape.trans h.shape, fun r hr => (k.regs r hr).trans (h.regs r hr)⟩

theorem State.sameReach.of_changes (k : u.changes [.ctrs, .rows, .chans, .tasks, .waits] v) : s.sameReach cl ch v :=
  h.trans ⟨k.same .shape, fun r _ => State.rd_congr (k.same .regs) r⟩

theorem State.sameReach.setChState (n : Nat) : s.sameReach cl ch (u.setChState cl ch n) :=
  h.trans ⟨(State.changes_setChState ..).same .shape, fun _ hr => u.rd_setFld_ne _ _ hr⟩

theorem State.sameReach.syncChan : s.sameReach cl ch (u.syncChan cl ch) :=
  h.trans ⟨(State.changes_syncChan ..).same .shape, fun _ hr => State.rd_syncChan_ne hr u⟩

omit h

theorem State.sameReach.sameSram (h : s.sameReach cl ch u) (hcl : cl < 288) (hch : ch < 32) : s.sameSram u := by
  refine ⟨h.shape, fun p => h.regs _ <| Nat.ne_of_gt <| (show clBase cl + (0x8030 + 0x40 * ch) < mgtBase from cluster_below_mgt hcl (by omega)).trans_le
    (Nat.le_add_right ..), fun r c hc o ho hr => h.regs r ?_⟩
  show r.addr ≠ clBase cl + (0x8030 + 0x40 * ch)
  rw [hr]
  unfold clBase regBase
  omega

variable (hcl : cl < 288) (hch : ch < 32)
include h hcl hch

theorem State.sameReach.sramRow (hj : g.job < 16) (n off : Nat) : u.sramRow g n off = s.sramRow g n off := (h.sameSram hcl hch).sramRow hj n off

theorem State.sameReach.agentOf : u.agentOf cl ch = s.agentOf cl ch := (h.sameSram hcl hch).agentOf <| h.regs _ (by
  show clBase cl + (0x8000 + 0x40 * ch) ≠ clBase cl + (0x8030 + 0x40 * ch)
  omega)

omit h hcl hch

/-! A row that is read, and one that lands. -/

theorem srcRows_zero (hop : dOp d = 0) (he : dElem d = false) (hs : space (dSrc d) ≠ 0) : srcRows d 0 = ([0], 0, 0) := by
  have hstride : strided d dSstride 0 = 0 := by simp [strided, dCoord]
  simp [srcRows, he, hop, hs, hstride, List.range_succ]

theorem dDrow_zero (d : Desc) : dDrow d 0 = 0 := by simp [dDrow, strided, dCoord]

theorem State.srcPlace_sram (hk : dSkind d = 0) (hs : space (dSrc d) = 1 ∨ space (dSrc d) = 2) (ha : s.sramRow g (dSrc d) 0 = some a) :
    s.srcPlace g d 0 = .ok (.row a) := by
  obtain hs | hs := hs <;> simp [State.srcPlace, hk, hs, ha]

theorem State.dstPlace_sram (hk : dDkind d = 0) (hs : space (dDst d) = 1 ∨ space (dDst d) = 2) (hb : s.sramRow g (dDst d) 0 = some b) :
    s.dstPlace g d 0 = .ok (.row b) := by
  obtain hs | hs := hs <;> simp [State.dstPlace, dDrow_zero, hk, hs, hb]

/-- Data of a row as DMA reads it. -/
def RowSt.piece (x : RowSt) : Piece := .got x.data (decide (x.tag = .poison)) none

/-- The state as DMA has read a row, which it may take. -/
def State.readBy (s : State) (g : Agent) (a : RowRef) (take : Bool) : State := ((s.meetRow a).dmaTaken a take).count C.dmaRowsRead g.cl 1 g.ch

/-- The state as a row of a transfer has landed. -/
def State.landedAt (s : State) (g : Agent) (b : RowRef) (data : Row) (poison : Bool) : State :=
  ((s.fill b data poison none).count C.dmaRowsWritten g.cl 1 g.ch).count C.dmaConvSat g.cl 0 g.ch

theorem State.changes_readBy (s : State) (g : Agent) (a : RowRef) (take : Bool) : s.changes [.rows, .ctrs] (s.readBy g a take) :=
  (State.changes_count ..).after ((State.changes_dmaTaken ..).after ((State.changes_meetRow ..).after .refl))

theorem State.changes_landedAt (s : State) (g : Agent) (b : RowRef) (data : Row) (poison : Bool) : s.changes [.rows, .ctrs] (s.landedAt g b data poison) :=
  (State.changes_count ..).after ((State.changes_count ..).after ((State.changes_fill ..).after .refl))

theorem State.row_readBy_same (s : State) (g : Agent) (a : RowRef) (take : Bool) : (s.readBy g a take).row a
    = if take then { s.row a with tag := .empty, writer := none, taker := none, note := none } else s.row a := by
  have hm : (s.meetRow a).row a = s.row a := State.row_congr ((State.changes_meetRow ..).same .rows) a
  rw [State.readBy, State.row_congr ((State.changes_count ..).same .rows)]
  cases take with
  | false => exact hm
  | true => exact (State.row_setRow_same ..).trans (by rw [hm]; rfl)

theorem State.row_readBy_ne {k : RowRef} (h : rowKey a ≠ rowKey k) (s : State) (g : Agent) (take : Bool) : (s.readBy g a take).row k = s.row k := by
  have hm : (s.meetRow a).row k = s.row k := State.row_congr ((State.changes_meetRow ..).same .rows) k
  rw [State.readBy, State.row_congr ((State.changes_count ..).same .rows)]
  cases take with
  | false => exact hm
  | true => exact (State.row_setRow_ne _ _ h).trans hm

theorem State.row_landedAt_same (s : State) (g : Agent) (b : RowRef) (data : Row) (poison : Bool) :
    (s.landedAt g b data poison).row b = ⟨data, if poison then .poison else .full, none, none, none⟩ := by
  rw [State.landedAt, State.row_congr ((State.changes_count ..).same .rows), State.row_congr ((State.changes_count ..).same .rows), State.fill,
    State.row_setRow_same]

theorem State.row_landedAt_ne {k : RowRef} (h : rowKey b ≠ rowKey k) (s : State) (g : Agent) (data : Row) (poison : Bool) :
    (s.landedAt g b data poison).row k = s.row k := by
  rw [State.landedAt, State.row_congr ((State.changes_count ..).same .rows), State.row_congr ((State.changes_count ..).same .rows), State.fill,
    State.row_setRow_ne _ _ h]

theorem State.readMove_one (hx : x.desc = d) (hop : dOp d = 0) (he : dElem d = false) (hk : dSkind d = 0)
    (hs : space (dSrc d) = 1 ∨ space (dSrc d) = 2) (ha : s.sramRow g (dSrc d) 0 = some a) (hr : dmaReadOk (s.row a) (dTake d) = true) :
    s.readMove g x ⟨0, [.todo], false⟩ = (⟨0, [(s.row a).piece], false⟩, x, s.readBy g a (dTake d)) := by
  have hpiece : s.readPiece g x 0 0 0 = ((s.row a).piece, x, (s.meetRow a).dmaTaken a (dTake d)) := by
    have hs0 : space (dSrc d) ≠ 0 := by omega
    simp [State.readPiece, hx, hs0, State.srcPlace_sram hk hs ha, hr, RowSt.piece]
  have hs0 : space (dSrc d) ≠ 0 := by omega
  simp [State.readMove, hx, srcRows_zero hop he hs0, List.range_succ, hpiece, RowSt.piece, State.readBy]

theorem State.landMove_one {data : Row} {bad : Bool} (hx : x.desc = d) (hop : dOp d = 0) (he : dElem d = false) (hs : space (dSrc d) ≠ 0) (hk : dDkind d = 0)
    (hd : space (dDst d) = 1 ∨ space (dDst d) = 2) (hb : s.sramRow g (dDst d) 0 = some b) (hf : fillOk (s.row b) (dOver d) = true) :
    s.landMove g x ⟨0, [.got data bad none], false⟩
      = .done { x with rows := x.rows + 1, sat := x.sat + 0, poison := x.poison || bad } (s.landedAt g b data bad) := by
  simp [State.landMove, hx, hop, he, srcRows_zero hop he hs, State.dstPlace_sram hk hd hb, hf, joined, Piece.data, Piece.bad, State.landedRow,
    State.landedAt]

/-! The transfer. -/

/-- The state as the one row of a copy has been read and has landed. -/
def State.rowCopied (s : State) (g : Agent) (d : Desc) (a b : RowRef) : State :=
  (s.readBy g a (dTake d)).landedAt g b (s.row a).data (decide ((s.row a).tag = .poison))

theorem State.changes_rowCopied (s : State) (g : Agent) (d : Desc) (a b : RowRef) : s.changes [.rows, .ctrs] (s.rowCopied g d a b) :=
  (State.changes_landedAt ..).after ((State.changes_readBy ..).after .refl)

theorem State.copied_rowCopied (hk : rowKey a ≠ rowKey b) (s : State) (g : Agent) (d : Desc) : s.copied (s.rowCopied g d a b) d a b := by
  refine ⟨?_, ?_, fun k hk => ?_, (s.changes_rowCopied g d a b).same .lpddr⟩
  · rw [State.rowCopied, State.row_landedAt_same]
    simp
  · rw [State.rowCopied, State.row_landedAt_ne hk.symm, State.row_readBy_same]
  · rw [State.rowCopied, State.row_landedAt_ne (hk b (by simp)), State.row_readBy_ne (hk a (by simp))]

theorem State.copied_congr {t : State} (h : s.copied u d a b) (hs : t.rows = s.rows) (hu : v.rows = u.rows) (hl : v.lpddr = t.lpddr) :
    t.copied v d a b := by
  obtain ⟨hb, ha, ho, -⟩ := h
  simp only [State.copied, State.rowsElsewhere, State.row_congr hs, State.row_congr hu]
  exact ⟨hb, ha, ho, hl⟩

theorem State.pass_none (h : x.moves = []) (s : State) (g : Agent) : s.pass g x = (x, s) := by
  simp only [State.pass, h, State.passMoves]
  rw [← h]

theorem State.sramRow_of_changes (hj : g.job < 16) (h : s.changes [.ctrs, .rows, .chans, .tasks, .waits] u) (n off : Nat) :
    u.sramRow g n off = s.sramRow g n off :=
  State.sameSram.sramRow ⟨h.same .shape, fun _ => State.rd_congr (h.same .regs) _, fun r _ _ _ _ _ => State.rd_congr (h.same .regs) r⟩ hj n off

/-- The one row in flight is read, and lands. -/
theorem State.pass_one (ho : s.oneRow g d a b) (hj : g.job < 16) (hx : x.desc = d) (hm : x.moves = [⟨0, [.todo], false⟩]) (hh : x.halt = none) :
    s.pass g x = ({ x with moves := [], rows := x.rows + 1, sat := x.sat + 0, poison := x.poison || decide ((s.row a).tag = .poison) },
      s.rowCopied g d a b) := by
  obtain ⟨hop, he, -, -, hsk, hdk, -, -, -, hs, hd, ha, hb, hk, hr, hf⟩ := ho
  have hread := State.readMove_one hx hop he hsk hs ha hr
  have hland := State.landMove_one (s := s.readBy g a (dTake d)) (data := (s.row a).data) (bad := decide ((s.row a).tag = .poison)) hx hop he (by omega) hdk hd
    ((State.sramRow_of_changes hj ((s.changes_readBy g a (dTake d)).after .refl) _ _).trans hb) (by rwa [State.row_readBy_ne hk])
  have hpast : x.past 0 = false := by simp [Xfer.past, hh]
  simp only [State.pass, hm, State.passMoves, hx, hpast, hread]
  simp [RowSt.piece, Piece.ready, State.settleMove, hx, hop, hland, State.rowCopied]

/-- The one row issues. -/
theorem State.issueRows_one (ho : s.oneRow g d a b) (hx : x.desc = d) (hn : x.next = 0) (hh : x.halt = none) {other : Nat} (hot : other < 512) :
    s.issueRows g x 0 other 64 = ({ x with next := 1, moves := x.moves ++ [⟨0, [.todo], false⟩] }, s) := by
  obtain ⟨hop, he, hah, hmask, hsk, hdk, htot, -, -, hs, hd, ha, hb, -, -, -⟩ := ho
  have hs0 : space (dSrc d) ≠ 0 := by omega
  have hcheck : firstCheck (s.rowChecks g d 0) = none := by
    simp [State.rowChecks, hop, srcRows_zero hop he hs0, State.srcPlace_sram hsk hs ha, State.dstPlace_sram hdk hd hb, hmask, firstCheck]
  have hissue : s.issueRow g x 0 other = .go ⟨0, [.todo], false⟩ s := by
    simp [State.issueRow, hx, hn, hah, srcRows_zero hop he hs0, hcheck, hop, Nat.not_le.2 hot]
  rw [State.issueRows]
  simp only [hx, hn, htot, hh, hissue, hop]
  rw [State.issueRows]
  simp [htot]

theorem State.issueRows_end (ho : dTotal x.desc ≤ x.next) (s : State) (g : Agent) (used total n : Nat) : s.issueRows g x used total n = (x, s) := by
  cases n with
  | zero => rfl
  | succ n => rw [State.issueRows, if_pos (.inl ho)]

/-- One round of a transfer: what its rows in flight do, and what it issues then. -/
theorem State.runXfer_succ {y z : Xfer} {w : State} {tail other : Nat} (hp : s.pass g x = (y, v))
    (hi : v.issueRows g y (tail + y.moves.length) (other + (tail + y.moves.length)) 64 = (z, w)) (n : Nat) :
    s.runXfer g x tail other (n + 1) = if z.next = y.next then (z, w) else w.runXfer g z tail other n := by
  rw [State.runXfer, hp]
  dsimp only
  rw [hi]

/-- A transfer of one row that is new runs to its end. -/
theorem State.runXfer_one (ho : s.oneRow g d a b) (hj : g.job < 16) (hx : x.desc = d) (hn : x.next = 0) (hm : x.moves = []) (hh : x.halt = none) {other : Nat}
    (hot : other < 512) : s.runXfer g x 0 other 3
      = ({ x with next := 1, moves := [], rows := x.rows + 1, sat := x.sat + 0, poison := x.poison || decide ((s.row a).tag = .poison) }, s.rowCopied g d a b) := by
  have htot : dTotal d = 1 := ho.2.2.2.2.2.2.1
  obtain ⟨y, hy⟩ : ∃ y : Xfer, y = { x with next := 1, moves := [⟨0, [.todo], false⟩] } := ⟨_, rfl⟩
  obtain ⟨z, hz⟩ : ∃ z : Xfer, z = { x with
      next := 1, moves := [], rows := x.rows + 1, sat := x.sat + 0, poison := x.poison || decide ((s.row a).tag = .poison) } := ⟨_, rfl⟩
  have hfirst : s.issueRows g x (0 + x.moves.length) (other + (0 + x.moves.length)) 64 = (y, s) := by
    rw [hm, hy, List.length_nil, Nat.zero_add, Nat.add_zero, State.issueRows_one ho hx hn hh hot, hm, List.nil_append]
  have hpass : s.pass g y = (z, s.rowCopied g d a b) := by
    rw [hy, hz, State.pass_one (x := { x with next := 1, moves := [⟨0, [.todo], false⟩] }) ho hj hx rfl hh]
  rw [← hz, State.runXfer_succ (State.pass_none hm s g) hfirst, if_neg (by rw [hy, hn]; exact Nat.one_ne_zero),
    State.runXfer_succ hpass (State.issueRows_end (by rw [hz, hx, htot]) _ _ _ _ _), if_pos rfl]

theorem Chan.flight_idle {k : Chan} (ht : k.tail = []) (hc : ∀ y, k.cur = some y → y.moves = []) : k.flight = 0 := by
  cases h : k.cur with
  | none => simp [Chan.flight, ht, h]
  | some y => simp [Chan.flight, ht, h, hc y h]

theorem State.clFlight_congr (h : ∀ n, n < 32 → (u.chan cl n).flight = (s.chan cl n).flight) : u.clFlight cl = s.clFlight cl := by
  unfold State.clFlight
  refine List.foldl_ext _ _ _ fun k n hn => ?_
  rw [h n (List.mem_range.1 hn)]

/-- The transfer behind no other ends once nothing of it is in flight. -/
theorem State.endTail_one {y : Xfer} (hc : (s.chan cl ch).cur = none) (ht : (s.chan cl ch).tail = [y]) (hd : y.drained = true) (hh : y.halt = none) :
    s.changes [.regs, .chans] (((s.endTail cl ch 1).endCur cl ch).syncChan cl ch)
      ∧ (((s.endTail cl ch 1).endCur cl ch).syncChan cl ch).chState cl ch = s.chState cl ch
      ∧ (((s.endTail cl ch 1).endCur cl ch).syncChan cl ch).chan cl ch = { s.chan cl ch with tail := [], done := (s.chan cl ch).done ++ [y] } := by
  have hend : s.endTail cl ch 1 = (s.setChan cl ch { s.chan cl ch with tail := [] }).setChan cl ch
      { s.chan cl ch with tail := [], done := (s.chan cl ch).done ++ [y] } := by
    rw [State.endTail]
    simp only [ht, hd, if_true, State.endXfer, hh, State.chan_setChan_same, State.endTail]
  have hput : s.changes [.chans] (s.endTail cl ch 1) := hend ▸ (State.changes_setChan ..).after ((State.changes_setChan ..).after .refl)
  have hchan : (s.endTail cl ch 1).chan cl ch = { s.chan cl ch with tail := [], done := (s.chan cl ch).done ++ [y] } := by
    rw [hend, State.chan_setChan_same]
  generalize s.endTail cl ch 1 = w at hput hchan ⊢
  have hcur : w.endCur cl ch = w := by
    rw [State.endCur]
    simp only [hchan, hc]
  have hsync := State.changes_syncChan (s := w) cl ch
  rw [hcur]
  exact ⟨hsync.after (hput.after .refl), (State.chState_syncChan ..).trans (State.chState_congr (State.rd_congr (hput.same .regs) _)),
    (State.chan_congr (hsync.same .chans) ..).trans hchan⟩

/-- The conditions of a copy of one row stand while its channel is written with the tail that it has. -/
theorem State.oneRow_setTail (ht : (s.chan cl ch).tail = []) (hv : v = s.setChan cl ch { s.chan cl ch with tail := [] }) (hj : g.job < 16)
    (h : s.oneRow g d a b) : v.oneRow g d a b := by
  have hput : s.changes [.chans] v := hv ▸ State.changes_setChan ..
  have hchan : ∀ k l, v.chan k l = s.chan k l := fun k l => by
    by_cases hk : chanKey cl ch = chanKey k l
    · have hs : ∀ t : State, t.chan k l = t.chan cl ch := fun t => by rw [State.chan, ← hk, State.chan]
      rw [hs, hs, hv, State.chan_setChan_same, ← ht]
    · rw [hv, State.chan_setChan_ne _ _ hk]
  have hfl : v.clFlight g.cl = s.clFlight g.cl := State.clFlight_congr fun n _ => by rw [hchan]
  have hsram := fun n off => State.sramRow_of_changes (u := v) hj (hput.after .refl) n off
  simpa only [State.oneRow, hchan, hfl, hsram, State.row_congr (hput.same .rows)] using h

/-- A channel with one transfer goes on with it, and ends it where it can. -/
theorem State.resumeChan_cur {y : Xfer} {w : State} (hc : (s.chan cl ch).cur = some x) (ht : (s.chan cl ch).tail = []) (hst : s.chState cl ch = 1)
    (hv : v = s.setChan cl ch { s.chan cl ch with tail := [] })
    (hpick : (if v.chState cl ch = 1 ∧ x.halt.isNone = true then v.runXfer (s.agentOf cl ch) x 0 (v.clFlight cl - (v.chan cl ch).flight)
      (dTotal x.desc + 2) else v.pass (s.agentOf cl ch) x) = (y, w)) (hw : w.chan cl ch = s.chan cl ch) :
    s.resumeChan cl ch =
      let r := if dTotal y.desc ≤ y.next ∧ y.halt.isNone = true ∨ y.halt = some .clip then w.setChan cl ch { s.chan cl ch with cur := none, tail := [y] }
        else w.setChan cl ch { s.chan cl ch with cur := some y, tail := [] }
      ((r.endTail cl ch (r.chan cl ch).tail.length).endCur cl ch).syncChan cl ch := by
  have hchan : v.chan cl ch = s.chan cl ch := by rw [hv, State.chan_setChan_same, ← ht]
  unfold State.resumeChan
  rw [if_neg (by rw [hst]; decide), ht]
  dsimp only [List.foldl_nil]
  rw [← hv]
  rw [hchan] at hpick ⊢
  rw [hc]
  dsimp only
  simp only [hpick]
  simp only [hw, ht, List.nil_append]

/-- A channel with one new transfer of one row takes it to its end. -/
theorem State.resumeChan_one (hc : (s.chan cl ch).cur = some x) (ht : (s.chan cl ch).tail = []) (hst : s.chState cl ch = 1)
    (ho : s.oneRow (s.agentOf cl ch) d a b) (hx : x.desc = d) (hn : x.next = 0) (hm : x.moves = []) (hg : x.got = []) (hh : x.halt = none) :
    s.copied (s.resumeChan cl ch) d a b ∧ (s.resumeChan cl ch).chState cl ch = 1 ∧ s.changes [.regs, .chans, .rows, .ctrs] (s.resumeChan cl ch)
      ∧ (s.resumeChan cl ch).chan cl ch = { s.chan cl ch with
          cur := none
          done := (s.chan cl ch).done ++ [{ x with next := 1, rows := x.rows + 1, poison := x.poison || decide ((s.row a).tag = .poison) }] } := by
  obtain ⟨y, hy⟩ : ∃ y : Xfer, y = { x with
    next := 1, moves := [], rows := x.rows + 1, sat := x.sat + 0, poison := x.poison || decide ((s.row a).tag = .poison) } := ⟨_, rfl⟩
  obtain ⟨v, hv⟩ : ∃ v, v = s.setChan cl ch { s.chan cl ch with tail := [] } := ⟨_, rfl⟩
  have hput : s.changes [.chans] v := hv ▸ State.changes_setChan ..
  have hchan : v.chan cl ch = s.chan cl ch := by rw [hv, State.chan_setChan_same, ← ht]
  have hkey : rowKey a ≠ rowKey b := ho.2.2.2.2.2.2.2.2.2.2.2.2.2.1
  have hstv : v.chState cl ch = 1 := (State.chState_congr (State.rd_congr (hput.same .regs) _)).trans hst
  have htot : dTotal d = 1 := ho.2.2.2.2.2.2.1
  have hov := State.oneRow_setTail ht hv (g := s.agentOf cl ch) (bits_lt ..) ho
  have hot : v.clFlight cl - (v.chan cl ch).flight < 512 := Nat.lt_of_le_of_lt (Nat.sub_le ..) hov.2.2.2.2.2.2.2.2.1
  have hrun := State.runXfer_one hov (bits_lt ..) hx hn hm hh hot
  have hrow : v.row a = s.row a := State.row_congr (hput.same .rows) a
  rw [hrow, ← hy] at hrun
  obtain ⟨w, hw⟩ : ∃ w, w = v.rowCopied (s.agentOf cl ch) d a b := ⟨_, rfl⟩
  have hcopy : v.changes [.rows, .ctrs] w := hw ▸ State.changes_rowCopied ..
  have hwchan : w.chan cl ch = s.chan cl ch := (State.chan_congr (hcopy.same .chans) ..).trans hchan
  have hpick : (if v.chState cl ch = 1 ∧ x.halt.isNone = true then v.runXfer (s.agentOf cl ch) x 0 (v.clFlight cl - (v.chan cl ch).flight)
      (dTotal x.desc + 2) else v.pass (s.agentOf cl ch) x) = (y, w) := by
    rw [if_pos ⟨hstv, by rw [hh]; rfl⟩, hx, htot, hrun, hw]
  have hres : s.resumeChan cl ch = ((((w.setChan cl ch { s.chan cl ch with cur := none, tail := [y] }).endTail cl ch 1).endCur cl ch).syncChan cl ch) := by
    rw [State.resumeChan_cur hc ht hst hv hpick hwchan, if_pos (.inl ⟨by rw [hy, hx, htot], by rw [hy]; simp [hh]⟩)]
    dsimp only
    rw [State.chan_setChan_same]
    rfl
  have hput2 : w.changes [.chans] (w.setChan cl ch { s.chan cl ch with cur := none, tail := [y] }) := State.changes_setChan ..
  obtain ⟨hch, hst2, hchan2⟩ := State.endTail_one (s := w.setChan cl ch { s.chan cl ch with cur := none, tail := [y] }) (cl := cl) (ch := ch) (y := y)
    (by rw [State.chan_setChan_same]) (by rw [State.chan_setChan_same]) (by rw [hy]; simp [Xfer.drained, hg]) (by rw [hy]; exact hh)
  rw [← hres] at hch hst2 hchan2
  have hregs : w.regs = s.regs := (hcopy.same .regs).trans (hput.same .regs)
  refine ⟨?_, hst2.trans ((State.chState_congr (State.rd_congr ((hput2.same .regs).trans hregs) _)).trans hst), ?_, ?_⟩
  · exact State.copied_congr (hw ▸ State.copied_rowCopied hkey v _ d) (hput.same .rows).symm ((hch.same .rows).trans (hput2.same .rows))
      ((hch.same .lpddr).trans ((hput2.same .lpddr).trans ((hcopy.same .lpddr).trans (hput.same .lpddr))))
  · exact hch.after (hput2.after (hcopy.after (hput.after .refl)))
  · rw [hchan2, State.chan_setChan_same, hy]
    simp [ht, hm]

theorem State.stopChan_eq (s : State) (cl ch : Nat) (x : Xfer) (c e addr : Nat) : (s.stopChan cl ch x c e addr).chState cl ch = 3
    ∧ s.changes (.chans :: Writes.post) (s.stopChan cl ch x c e addr)
    ∧ (s.stopChan cl ch x c e addr).chan cl ch = { s.chan cl ch with
        done := (s.chan cl ch).done ++ [{ x with status := 2, cause := c, detail := e }] } := by
  refine ⟨State.chState_setChState _ _ _ (by decide), ?_, ?_⟩
  · exact (State.changes_setChState ..).after ((State.changes_setChan ..).after (State.changes_ite ((State.changes_fault ..).after .refl)
      ((State.changes_fault ..).after .refl)))
  · rw [State.stopChan]
    dsimp only
    rw [State.chan_congr ((State.changes_setChState ..).same .chans), State.chan_setChan_same]

/-- A channel whose one transfer has been refused stops. -/
theorem State.resumeChan_stop {c e addr : Nat} (hc : (s.chan cl ch).cur = some x) (ht : (s.chan cl ch).tail = [])
    (hst : s.chState cl ch = 1) (hm : x.moves = []) (hg : x.got = []) (hh : x.halt = some (.stop c e addr)) :
    (s.resumeChan cl ch).chState cl ch = 3 ∧ s.changes (.chans :: Writes.post) (s.resumeChan cl ch)
      ∧ (s.resumeChan cl ch).chan cl ch = { s.chan cl ch with
          cur := none, done := (s.chan cl ch).done ++ [{ x with status := 2, cause := c, detail := e }] } := by
  obtain ⟨v, hv⟩ : ∃ v, v = s.setChan cl ch { s.chan cl ch with tail := [] } := ⟨_, rfl⟩
  have hput : s.changes [.chans] v := hv ▸ State.changes_setChan ..
  have hchan : v.chan cl ch = s.chan cl ch := by rw [hv, State.chan_setChan_same, ← ht]
  have hpick : (if v.chState cl ch = 1 ∧ x.halt.isNone = true then v.runXfer (s.agentOf cl ch) x 0 (v.clFlight cl - (v.chan cl ch).flight)
      (dTotal x.desc + 2) else v.pass (s.agentOf cl ch) x) = (x, v) := by
    rw [if_neg (by rw [hh]; simp), State.pass_none hm]
  have hres := State.resumeChan_cur hc ht hst hv hpick hchan
  rw [if_neg (by rw [hh]; simp)] at hres
  dsimp only at hres
  obtain ⟨w, hw⟩ : ∃ w, w = v.setChan cl ch { s.chan cl ch with cur := some x, tail := [] } := ⟨_, rfl⟩
  have hwchan : w.chan cl ch = { s.chan cl ch with cur := some x, tail := [] } := by rw [hw, State.chan_setChan_same]
  have hwch : s.changes [.chans] w := hw ▸ (State.changes_setChan ..).after (hput.after .refl)
  obtain ⟨z, hz⟩ : ∃ z, z = w.setChan cl ch { s.chan cl ch with cur := none, tail := [] } := ⟨_, rfl⟩
  have hzch : s.changes [.chans] z := hz ▸ (State.changes_setChan ..).after (hwch.after .refl)
  have hzchan : z.chan cl ch = { s.chan cl ch with cur := none } := by rw [hz, State.chan_setChan_same, ← ht]
  obtain ⟨h3, hstop, hchan3⟩ := z.stopChan_eq cl ch x c e addr
  have hcur : w.endCur cl ch = z.stopChan cl ch x c e addr := by
    unfold State.endCur
    simp only [hwchan, Xfer.drained, hm, hg, hh, List.isEmpty_nil, Bool.and_self, Bool.not_true, Bool.false_eq_true, if_false, State.endXfer]
    rw [hz]
  rw [← hw, hwchan, List.length_nil, State.endTail, hcur] at hres
  have hsync := State.changes_syncChan (s := z.stopChan cl ch x c e addr) cl ch
  rw [hres]
  refine ⟨(State.chState_syncChan ..).trans h3, hsync.after (hstop.after (hzch.after .refl)), (State.chan_congr (hsync.same .chans) ..).trans ?_⟩
  rw [hchan3, hzchan]

/-! Channels that start a transfer. -/

/-- The state as a channel starts its transfer. -/
def State.launched (s : State) (cl ch : Nat) (k : Chan) : State := (s.setChan cl ch k).setChState cl ch 1

theorem State.changes_launched (s : State) (cl ch : Nat) (k : Chan) : s.changes [.regs, .chans] (s.launched cl ch k) :=
  (State.changes_setChState ..).after ((State.changes_setChan ..).after .refl)

theorem State.chan_launched (s : State) (cl ch : Nat) (k : Chan) : (s.launched cl ch k).chan cl ch = k :=
  (State.chan_congr ((State.changes_setChState ..).same .chans) ..).trans (State.chan_setChan_same ..)

theorem State.sameReach_launched (s : State) (cl ch : Nat) (k : Chan) : s.sameReach cl ch (s.launched cl ch k) :=
  (State.sameReach.refl.of_changes ((State.changes_setChan ..).after .refl)).setChState 1

/-- A channel that starts a new transfer of one row takes it to its end. -/
theorem State.launched_one {k : Chan} (hcl : cl < 288) (hch : ch < 32) (ho : s.oneRow (s.agentOf cl ch) d a b)
    (hcur : ∀ y, (s.chan cl ch).cur = some y → y.moves = []) (hc : k.cur = some x) (ht : k.tail = []) (hx : x.desc = d) (hn : x.next = 0)
    (hm : x.moves = []) (hg : x.got = []) (hh : x.halt = none) :
    s.copied ((s.launched cl ch k).resumeChan cl ch) d a b ∧ ((s.launched cl ch k).resumeChan cl ch).chState cl ch = 1
      ∧ s.changes [.regs, .chans, .rows, .ctrs] ((s.launched cl ch k).resumeChan cl ch)
      ∧ ((s.launched cl ch k).resumeChan cl ch).chan cl ch = { k with
          cur := none
          done := k.done ++ [{ x with next := 1, rows := x.rows + 1, poison := x.poison || decide ((s.row a).tag = .poison) }] } := by
  obtain ⟨v, hv⟩ : ∃ v, v = s.launched cl ch k := ⟨_, rfl⟩
  rw [← hv]
  have hlaunch : s.changes [.regs, .chans] v := hv ▸ s.changes_launched cl ch k
  have hreach : s.sameReach cl ch v := hv ▸ s.sameReach_launched cl ch k
  have hchan : v.chan cl ch = k := by rw [hv, State.chan_launched]
  have hst : v.chState cl ch = 1 := by rw [hv, State.launched, State.chState_setChState _ _ _ (by decide)]
  have hrow : ∀ r, v.row r = s.row r := State.row_congr (hlaunch.same .rows)
  have hov : v.oneRow (v.agentOf cl ch) d a b := by
    obtain ⟨hop, he, hah, hmask, hsk, hdk, htot, htail, hfl, hs, hd, ha, hb, hk, hr, hf⟩ := ho
    have hsram := fun n off => hreach.sramRow (g := s.agentOf cl ch) hcl hch (bits_lt ..) n off
    have hflight : v.clFlight cl = s.clFlight cl := State.clFlight_congr fun n hn => by
      by_cases hkey : chanKey cl ch = chanKey cl n
      · have hnch : n = ch := by unfold chanKey at hkey; omega
        rw [hnch, hchan, Chan.flight_idle ht fun y hy => by rw [hc] at hy; cases hy; exact hm, show (s.chan cl ch).flight = 0 from Chan.flight_idle htail hcur]
      · rw [hv, State.launched, State.chan_congr ((State.changes_setChState ..).same .chans), State.chan_setChan_ne _ _ hkey]
    rw [hreach.agentOf hcl hch]
    exact ⟨hop, he, hah, hmask, hsk, hdk, htot, (congrArg Chan.tail hchan).trans ht, hflight ▸ hfl, hs, hd, (hsram ..).trans ha, (hsram ..).trans hb, hk,
      by rwa [hrow], by rwa [hrow]⟩
  obtain ⟨h1, h2, h3, h4⟩ := State.resumeChan_one (by rw [hchan, hc]) (by rw [hchan, ht]) hst hov hx hn hm hg hh
  rw [hchan, hrow] at h4
  exact ⟨State.copied_congr h1 (hlaunch.same .rows).symm rfl ((h3.same .lpddr).trans (hlaunch.same .lpddr)), h2, h3.after (hlaunch.after .refl), h4⟩

theorem Chan.next?_eq_some {k k' : Chan} (h : k.next? = some (d, k')) : k'.cur = k.cur ∧ k'.tail = k.tail ∧ k'.done = k.done := by
  unfold Chan.next? at h
  split at h <;> cases h <;> exact ⟨rfl, rfl, rfl⟩

/-- Without a command in flight no kick waits for a channel's queue. -/
theorem State.wakeKicks_none (h : ∀ t ∈ s.tasks, t.flight = none) (cl ch : Nat) : s.wakeKicks cl ch = s := by
  unfold State.wakeKicks
  dsimp only
  rw [List.filter_eq_nil_iff.2 fun t ht => by simp [h t ht]]
  rfl

end Sys2Proof.Machine

open Sys2Proof Sys2Proof.Machine

/-- Settles O41: a refused descriptor halts its transfer before its first row; one of one row issues it, reads it and lands it. -/
theorem descriptorsRunOrStop : Obligations.DescriptorsRunOrStop := by
  unfold Obligations.DescriptorsRunOrStop
  refine ⟨fun cl ch s d k hcl hch hnext hcur hst hheld htail hfence hflight => ?_, fun cl ch s hcl hch => ?_, fun cl ch s hcl hch => ?_⟩
  · obtain ⟨hkcur, hktail, hkdone⟩ := Chan.next?_eq_some hnext
    have he : exec (.dmaDescStart cl ch) s = .next ((s.startDesc cl ch d k).wakeKicks cl ch) := by
      have hok : (s.chan cl ch).fenceOk d = true := by
        obtain h | h := hfence <;> simp [Chan.fenceOk, h, htail]
      show execDmaDescStart cl ch s = _
      rw [execDmaDescStart, unitOk, if_pos (by simp [hcl, hch])]
      simp only [hnext]
      rw [need, if_pos (by simp [hcur, hst, hheld, hok])]
    have hwake : ∀ u : State, u.tasks = s.tasks → u.wakeKicks cl ch = u := fun u hu => State.wakeKicks_none (by rw [hu]; exact hflight) cl ch
    have hcur0 : ∀ y, (s.chan cl ch).cur = some y → y.moves = [] := fun y hy => by rw [hcur] at hy; cases hy
    refine ⟨fun hbad => ?_, fun a b hok ho => ?_⟩
    · obtain ⟨x, hx⟩ : ∃ x : Xfer, x = { (Xfer.fresh k.seq d) with halt := some (.stop 1 0 0) } := ⟨_, rfl⟩
      obtain ⟨v, hv⟩ : ∃ v, v = s.launched cl ch { k with seq := k.seq + 1, cur := some x } := ⟨_, rfl⟩
      have hchan : v.chan cl ch = { k with seq := k.seq + 1, cur := some x } := by rw [hv, State.chan_launched]
      have hstart : s.startDesc cl ch d k = v.resumeChan cl ch := by
        simp only [State.startDesc, hbad, Bool.false_eq_true, if_false, hv, hx, State.launched]
      obtain ⟨h1, h2, h3⟩ := State.resumeChan_stop (s := v) (x := x) (c := 1) (e := 0) (addr := 0) (by rw [hchan]) (by rw [hchan]; exact hktail.trans htail)
        (by rw [hv, State.launched, State.chState_setChState _ _ _ (by decide)]) (by rw [hx]; rfl) (by rw [hx]; rfl) (by rw [hx])
      have hall : s.changes (.chans :: Writes.post) (v.resumeChan cl ch) := h2.after ((hv ▸ s.changes_launched ..).after .refl)
      rw [hstart, hwake _ (hall.same .tasks)] at he
      refine ⟨_, he, h1, h3.trans ?_, hall.same .rows, hall.same .lpddr, hall.same .tasks⟩
      rw [hchan, hx]
      rfl
    · have hstart : s.startDesc cl ch d k = (s.launched cl ch { k with seq := k.seq + 1, cur := some (Xfer.fresh k.seq d) }).resumeChan cl ch := by
        simp only [State.startDesc, hok, if_true, State.launched]
      obtain ⟨h1, h2, h3, h4⟩ := State.launched_one (k := { k with seq := k.seq + 1, cur := some (Xfer.fresh k.seq d) }) (x := Xfer.fresh k.seq d) hcl hch ho hcur0 rfl
        (hktail.trans htail) rfl rfl rfl rfl rfl
      rw [hstart, hwake _ (h3.same .tasks)] at he
      refine ⟨_, he, h1, h2, h4.trans ?_⟩
      simp [State.oneRowDone, Xfer.fresh]
  · refine ⟨fun hst => ?_, fun a b hst hmode hrows hcur => ?_⟩
    · show execFirmwareCopyStart cl ch s = _
      rw [execFirmwareCopyStart, unitOk, if_pos (by simp [hcl, hch])]
      dsimp only
      rw [if_pos (.inl hst)]
    · intro d hok ho
      have he : exec (.firmwareCopyStart cl ch) s = .next (s.startDesc cl ch d (s.chan cl ch)) := by
        show execFirmwareCopyStart cl ch s = _
        rw [execFirmwareCopyStart, unitOk, if_pos (by simp [hcl, hch])]
        dsimp only
        rw [hst, hmode, hrows, if_neg (by decide)]
      have hstart : s.startDesc cl ch d (s.chan cl ch) = (s.launched cl ch { s.chan cl ch with
          seq := (s.chan cl ch).seq + 1, cur := some (Xfer.fresh (s.chan cl ch).seq d) }).resumeChan cl ch := by
        simp only [State.startDesc, hok, if_true, State.launched]
      obtain ⟨h1, h2, -, h4⟩ := State.launched_one (k := { s.chan cl ch with seq := (s.chan cl ch).seq + 1, cur := some (Xfer.fresh (s.chan cl ch).seq d) })
        (x := Xfer.fresh (s.chan cl ch).seq d) hcl hch ho (fun y hy => by rw [hcur] at hy; cases hy) rfl ho.2.2.2.2.2.2.2.1 rfl rfl rfl rfl rfl
      rw [hstart] at he
      refine ⟨_, he, h1, h2, h4.trans ?_⟩
      simp [State.oneRowDone, Xfer.fresh]
  · have he : ∀ ab, exec (.dmaResume cl ⟨ch, ab⟩) s = .next (if ab then s.abandonChan cl ch else s.resumePaused cl ch) := fun ab => by
      show execDmaResume cl ⟨ch, ab⟩ s = _
      rw [execDmaResume, unitOk, if_pos (by simp [hcl, hch])]
    refine ⟨?_, fun hst => ?_, fun i h d a b hst hcur ho => ?_⟩
    · show _ = execDmaAbandon cl ch s
      rw [he, execDmaAbandon, unitOk, if_pos rfl, if_pos (by simp [hcl, hch])]
    · rw [he, if_neg (by decide), State.resumePaused, if_pos hst]
    · have hop : dOp d ≠ 2 := by rw [ho.1]; decide
      have hstart : s.resumePaused cl ch = (s.launched cl ch { s.chan cl ch with
          cur := some { (Xfer.fresh i d) with resumed := true }, page := none }).resumeChan cl ch := by
        have hrow : Xfer.stopRow { (Xfer.fresh i d) with halt := h } = 0 := if_neg fun hc => hop hc.1
        simp only [State.resumePaused, hst, ne_eq, not_true_eq_false, if_false, hcur, Option.map_some, hrow, State.launched]
        rfl
      obtain ⟨h1, h2, -, h4⟩ := State.launched_one (k := { s.chan cl ch with cur := some { (Xfer.fresh i d) with resumed := true }, page := none })
        (x := { (Xfer.fresh i d) with resumed := true }) hcl hch ho (fun y hy => by rw [hcur] at hy; cases hy; rfl) rfl ho.2.2.2.2.2.2.2.1 rfl rfl rfl rfl rfl
      refine ⟨_, (he false).trans (by rw [if_neg (by decide), hstart]), h1, h2, h4.trans ?_⟩
      simp [State.oneRowDone, Xfer.fresh]
end

section
/-! Accesses of a row with what its codes find, and what waits on the row (R189 to R191). -/

-- The frame conditions are evaluated in the kernel: theorems elaborated in parallel would each hold a thread while they wait for it.
set_option Elab.async false

namespace Sys2Proof.Machine

variable {s u v : State} {r : RowRef} {id : Nat} {t : Task}

/-! What the codes find in a row. -/

theorem State.rows_rowError_single (s : State) (r : RowRef) : (s.rowError r .single).rows = s.rows := by
  have hcount : s.changes [.ctrs] (match r with
      | .near c _ => s.countCore C.memCeNear c
      | .loft cl _ => s.count C.memCeLoft cl) := by
    cases r with
    | near c n => exact (State.changes_countCore ..).after .refl
    | loft cl n => exact (State.changes_count ..).after .refl
  exact ((State.changes_ceEvidence ..).same .rows).trans (hcount.same .rows)

/-- The log, the event and the evidence of a bad row touch no row. -/
theorem State.rows_reportRow (s : State) (r : RowRef) (parity : Bool) (agent kind det x y : Nat) :
    (((s.memLog r parity).fault agent kind det x y).memEvidence r parity).rows = s.rows :=
  ((State.changes_memEvidence ..).same .rows).trans (((State.changes_fault ..).same .rows).trans ((State.changes_memLog ..).same .rows))

/-- A row that its codes find bad. -/
def State.poisoned (s : State) (r : RowRef) (x : RowSt) : State := s.setRow r { x with tag := .poison }

theorem State.row_poisoned (hrows : v.rows = s.rows) (r : RowRef) (x : RowSt) :
    (v.poisoned r x).row r = { x with tag := .poison } ∧ s.rowsElsewhere (v.poisoned r x) [r] :=
  ⟨State.row_setRow_same .., fun k hk => (v.rowsElsewhere_setRow r _ [r] (by simp) k hk).trans (State.row_congr hrows k)⟩

theorem State.rows_rowError_double (s : State) (r : RowRef) : ∃ v : State, v.rows = s.rows
    ∧ (s.rowError r .double).rows = (if (s.row r).tag = .empty then v else v.poisoned r (s.row r)).rows := by
  cases r with
  | near c n =>
    have hcount : s.changes [.ctrs] (s.countCore C.memUeNear c) := (State.changes_countCore ..).after .refl
    generalize hv : s.countCore C.memUeNear c = v at hcount
    refine ⟨v, hcount.same .rows, ?_⟩
    unfold State.rowError
    simp only [hv]
    exact State.rows_reportRow ..
  | loft cl n =>
    have hcount : s.changes [.ctrs] (s.count C.memUeLoft cl) := (State.changes_count ..).after .refl
    generalize hv : s.count C.memUeLoft cl = v at hcount
    refine ⟨v, hcount.same .rows, ?_⟩
    unfold State.rowError
    simp only [hv]
    exact State.rows_reportRow ..

theorem State.row_rowError_double (s : State) (r : RowRef) :
    (s.rowError r .double).row r = (if (s.row r).tag = .empty then s.row r else { s.row r with tag := .poison })
      ∧ s.rowsElsewhere (s.rowError r .double) [r] := by
  obtain ⟨v, hrows, hv⟩ := s.rows_rowError_double r
  rw [State.row_congr hv]
  split at hv
  · next he => exact ⟨by rw [if_pos he, if_pos he, State.row_congr hrows], fun k _ => State.row_congr (hv.trans hrows) k⟩
  · next he =>
    obtain ⟨h1, h2⟩ := State.row_poisoned hrows r (s.row r)
    rw [if_neg he, if_neg he]
    exact ⟨h1, State.rowsElsewhere_of_rows h2 hv⟩

theorem State.rows_rowError_parity (s : State) (r : RowRef) :
    ∃ v : State, v.rows = s.rows ∧ (s.rowError r .parity).rows = (v.poisoned r (s.row r)).rows := by
  cases r with
  | near c n =>
    have hcount : s.changes [.ctrs] (s.countCore C.tagParityNear c) := (State.changes_countCore ..).after .refl
    generalize hv : s.countCore C.tagParityNear c = v at hcount
    refine ⟨v, hcount.same .rows, ?_⟩
    unfold State.rowError
    simp only [hv]
    exact State.rows_reportRow ..
  | loft cl n =>
    have hcount : s.changes [.ctrs] (s.count C.tagParityLoft cl) := (State.changes_count ..).after .refl
    generalize hv : s.count C.tagParityLoft cl = v at hcount
    refine ⟨v, hcount.same .rows, ?_⟩
    unfold State.rowError
    simp only [hv]
    exact State.rows_reportRow ..

theorem State.row_rowError_parity (s : State) (r : RowRef) :
    (s.rowError r .parity).row r = { s.row r with tag := .poison } ∧ s.rowsElsewhere (s.rowError r .parity) [r] := by
  obtain ⟨v, hrows, hv⟩ := s.rows_rowError_parity r
  obtain ⟨h1, h2⟩ := State.row_poisoned hrows r (s.row r)
  exact ⟨(State.row_congr hv r).trans h1, State.rowsElsewhere_of_rows h2 hv⟩

theorem State.retryRow_none (h : ∀ w ∈ s.waits, w.1 ≠ r) : s.retryRow r = s := by
  have hno : (s.waits.filter fun (w : RowRef × Waiter) => decide (w.1 = r)) = [] := List.filter_eq_nil_iff.2 fun w hw => by simp [h w hw]
  have hall : (s.waits.filter fun (w : RowRef × Waiter) => !decide (w.1 = r)) = s.waits := List.filter_eq_self.2 fun w hw => by simp [h w hw]
  unfold State.retryRow
  simp only [hno, hall, List.map_nil, List.foldl_nil]

/-! A task whose command no longer waits. -/

/-- No command of the task is in flight. -/
def State.flightless (s : State) (id : Nat) : Prop := (s.task? id).isSome = true ∧ ∀ x ∈ s.tasks, x.id = id → x.flight = none

theorem State.flightless_congr (h : s.flightless id) (ht : u.tasks = s.tasks) : u.flightless id := by
  rwa [State.flightless, State.task?, ht]

theorem State.flightless_setTask {k : Task} (h : s.flightless id) (hk : k.id = id → k.flight = none) : (s.setTask k).flightless id := by
  refine ⟨?_, fun x hx hid => ?_⟩
  · by_cases hkid : k.id = id
    · rw [State.task?_setTask_of h.1 hkid]; rfl
    · rw [State.task?_setTask_ne s fun e => hkid e.symm]; exact h.1
  · obtain ⟨y, hy, rfl⟩ := List.mem_map.1 hx
    by_cases hyk : y.id = k.id
    · rw [if_pos hyk] at hid ⊢; exact hk hid
    · rw [if_neg hyk] at hid ⊢; exact h.2 y hy hid

theorem State.flightless_schedule (h : s.flightless id) (c : Nat) (sw : Bool) : (s.schedule c sw).flightless id := by
  have hsync : ∀ u : State, u.flightless id → (u.syncSlots c).flightless id := fun u hu =>
    State.flightless_congr hu ((State.changes_syncSlots (s := u) c).same .tasks)
  obtain hq | ⟨k, u, hm, -, htasks, -, hq⟩ := s.schedule_cases c sw <;> rw [hq]
  · exact hsync _ h
  · exact hsync _ (State.flightless_setTask (State.flightless_congr h htasks) fun hid => h.2 k hm hid)

theorem State.flightless_blockTask (h : s.flightless id) (j : Nat) (y : Why) : (s.blockTask j y).flightless id := by
  unfold State.blockTask
  split
  · exact h
  · next t ht =>
    have hset : (s.setTask { t with stat := .blocked, why := some y }).flightless id :=
      State.flightless_setTask h fun hid => h.2 t (List.mem_of_find?_eq_some ht) hid
    refine State.flightless_schedule ?_ _ _
    cases y with
    | row r a => exact State.flightless_congr hset ((State.changes_waitOn ..).same .tasks)
    | _ => exact hset

theorem State.flightless_unblock (h : s.flightless id) (j : Nat) : (s.unblock j).flightless id := by
  unfold State.unblock
  split
  · exact h
  · next t ht =>
    split
    · exact h
    · split
      · exact State.flightless_schedule (State.flightless_setTask (k := { t with stat := .ready, why := none }) h
          fun hid => h.2 t (List.mem_of_find?_eq_some ht) hid) _ _
      · exact State.flightless_blockTask h _ _

theorem State.flightless_modTask (h : (s.task? id).isSome = true) : (s.modTask id fun u => { u with flight := none }).flightless id := by
  obtain ⟨t, ht⟩ := Option.isSome_iff_exists.1 h
  refine ⟨?_, fun x hx hid => ?_⟩
  · rw [State.task?_modTask_same (f := fun u => { u with flight := none }) ht fun _ => rfl]; rfl
  · obtain ⟨y, -, rfl⟩ := State.mem_modTask (s := s) (f := fun u => { u with flight := none }) hx
    by_cases hy : y.id = id
    · simp [hy]
    · simp [hy] at hid

theorem State.regs_enter (s : State) (c : Nat) (q : Cmd) : (s.enter c q).regs = putRegs s.regs q.env := by
  unfold State.enter
  dsimp only
  split <;> rfl

theorem State.runCmd_tagWait {q : Cmd} (h : cwOp q.word = 0x61) (s : State) (t : Task) : s.runCmd t q = .whole s (s.tagWait t q.word) := by
  unfold State.runCmd
  rw [h]
  rfl

theorem State.resumeFlight_done {q : Cmd} (h : s.task? id = some t) (hf : t.flight = some q) (hop : cwOp q.word ≠ 0x26)
    (hr : ((s.enter t.core q).runCmd t q).leave s t.core q = .done v) :
    s.resumeFlight id = ((v.modTask t.id fun u => { u with flight := none }).syncUnits t.core).unblock t.id := by
  unfold State.resumeFlight
  simp only [h, hf, hr, State.settle, State.bufFreed, if_neg hop]
  rfl

/-- A tag.wait looks at rows and quotas alone, and changes nothing. -/
theorem State.tagWait_congr {w : CmdWord} (hr : u.regs = s.regs) (hrows : u.rows = s.rows) (h : s.tagWait t w = .ok v) : u.tagWait t w = .ok u := by
  have hin : ∀ j x, u.inQuota j x = s.inQuota j x := fun j x => by
    cases x <;> exact decide_eq_decide.2 (by simp only [State.nearBase, State.nearRows, State.loftBase, State.loftRows, State.fld, State.rd, hr])
  have hq : ∀ l, u.quota t l = s.quota t l := fun l => by simp only [State.quota, hin]
  have hchecks : ∀ a b f, u.issueChecks t a b f = s.issueChecks t a b f := fun a b f => by simp only [State.issueChecks, hq]
  unfold State.tagWait at h ⊢
  dsimp only at h ⊢
  simp only [hchecks, State.row_congr hrows]
  cases hc : s.issueChecks t (tagRows t w) [] (!stray w tagFields) with
  | error x => rw [hc] at h; cases h
  | ok a =>
    rw [hc] at h
    simp only [Ex.ok_bind] at h ⊢
    split at h
    · cases h
    · cases h
    · rfl

end Sys2Proof.Machine

open Sys2Proof Sys2Proof.Machine

/-- Settles O35: what waits on a row is told apart by its waiters; the command in flight is gone whatever its task does next. -/
theorem rowStateRetry : Obligations.RowStateRetry := by
  unfold Obligations.RowStateRetry
  intro r s hr
  have he : ∀ e, exec (.rowStateRetry r e) s = .next ((s.rowError r e).retryRow r) := fun e => by
    show execRowStateRetry r e s = _
    rw [execRowStateRetry, unitOk, if_pos hr]
  refine ⟨fun hno => ?_, fun id t hws ht hid => ⟨fun hblk hwait hwhy => ?_, fun q v hfl hop hv => ?_⟩⟩
  · have hstay : ∀ e, (s.rowError r e).retryRow r = s.rowError r e := fun e =>
      State.retryRow_none (by rw [(State.changes_rowError (s := s) r e).same .waits]; exact hno)
    have hlp : ∀ e, (s.rowError r e).lpddr = s.lpddr := fun e => (State.changes_rowError (s := s) r e).same .lpddr
    simp only [he, hstay]
    exact ⟨rfl, ⟨_, rfl, s.rows_rowError_single r, hlp _⟩, ⟨_, rfl, hlp _, (s.row_rowError_double r).symm⟩,
      ⟨_, rfl, hlp _, (s.row_rowError_parity r).symm⟩⟩
  all_goals
    subst hid
    obtain ⟨w, hw⟩ : ∃ w : State, w = { s with waits := s.waits.filter fun (w : RowRef × Waiter) => !decide (w.1 = r) } := ⟨_, rfl⟩
    have hch : s.changes [.waits] w := hw ▸ State.changes_set_waits ..
    have hwt : w.task? t.id = some t := by rw [State.task?, hch.same .tasks]; exact ht
    have hgo : (s.rowError r .none).retryRow r = w.resumeTask t.id := by
      show s.retryRow r = _
      unfold State.retryRow
      simp only [hws, List.map_cons, List.map_nil, List.foldl_cons, List.foldl_nil, ← hw]
      rfl
  · have hheld : w.waiting t = false := by
      rw [State.waiting, State.heldUp_congr (s := s) (t := t) rfl rfl (hch.same .engs) (by rw [State.core, hch.same .cores, State.core])]; exact hwait
    have hfl : t.flight.isSome = false := by
      simp only [State.waiting, Bool.or_eq_false_iff] at hwait
      exact hwait.1
    have hwhyw : w.nextWhy t = none := by rw [hw]; exact hwhy
    have hgo2 : w.resumeTask t.id = (w.setTask { t with stat := .ready, why := none }).schedule t.core true := by
      unfold State.resumeTask State.unblock
      simp only [hwt, hfl, hblk, hheld, hwhyw]
      simp
    rw [hgo2] at hgo
    have hholds := w.holdsTask_setTask { t with stat := .ready, why := none } (by rw [hwt]; rfl)
    have hall : w.changes [.regs, .ctrs, .tasks] ((w.setTask { t with stat := .ready, why := none }).schedule t.core true) :=
      (State.changes_schedule ..).after ((State.changes_setTask ..).after .refl)
    have hnow : ∀ x ∈ ((w.setTask { t with stat := .ready, why := none }).schedule t.core true).waits, x.1 ≠ r := by
      rw [hall.same .waits, hw]
      intro x hx
      simpa using (List.mem_filter.1 hx).2
    have hrows := (hall.same .rows).trans (hch.same .rows)
    have hlp := (hall.same .lpddr).trans (hch.same .lpddr)
    obtain hready | hrun := State.task?_schedule_of_ready hholds t.core true
    · exact ⟨_, _, (he _).trans (congrArg _ hgo), hready, .inl rfl, rfl, hnow, hrows, hlp⟩
    · exact ⟨_, _, (he _).trans (congrArg _ hgo), hrun, .inr rfl, rfl, hnow, hrows, hlp⟩
  · obtain ⟨x, hx⟩ : ∃ x, x = w.enter t.core q := ⟨_, rfl⟩
    have hwx : w.changes [.regs, .cores] x := hx ▸ State.changes_enter ..
    have hsx : s.changes [.regs, .cores] (s.enter t.core q) := State.changes_enter ..
    have hdone : x.tagWait t q.word = .ok x :=
      State.tagWait_congr (by rw [hx, State.regs_enter, State.regs_enter, hch.same .regs])
        ((hwx.same .rows).trans ((hch.same .rows).trans (hsx.same .rows).symm)) hv
    obtain ⟨y, hy⟩ : ∃ y, y = x.leave w t.core q := ⟨_, rfl⟩
    have hxy : x.changes [.regs, .cores] y := hy ▸ State.changes_leave ..
    have hsy : s.changes [.regs, .cores, .waits] y := hxy.after (hwx.after (hch.after .refl))
    have hgo2 : w.resumeTask t.id = ((y.modTask t.id fun u => { u with flight := none }).syncUnits t.core).unblock t.id := by
      have hrun : (x.runCmd t q).leave w t.core q = .done y := by
        rw [State.runCmd_tagWait hop, hdone, hy]
        rfl
      rw [hx] at hrun
      unfold State.resumeTask
      simp only [hwt, hfl, Option.isSome_some, if_true]
      exact State.resumeFlight_done hwt hfl (by rw [hop]; decide) hrun
    have hfree : (y.modTask t.id fun u => { u with flight := none }).flightless t.id :=
      State.flightless_modTask (by rw [State.task?, hsy.same .tasks]; exact Option.isSome_iff_exists.2 ⟨_, ht⟩)
    have hsync := State.changes_syncUnits (s := y.modTask t.id fun u => { u with flight := none }) t.core
    have hend := State.flightless_unblock (State.flightless_congr hfree (hsync.same .tasks)) t.id
    have hall : s.changes [.regs, .cores, .waits, .tasks, .ctrs]
        (((y.modTask t.id fun u => { u with flight := none }).syncUnits t.core).unblock t.id) :=
      (State.changes_unblock ..).after (hsync.after ((State.changes_modTask ..).after (hsy.after .refl)))
    obtain ⟨t', ht'⟩ := Option.isSome_iff_exists.1 hend.1
    exact ⟨_, t', (he _).trans (congrArg _ (hgo.trans hgo2)), ht', hend.2 t' (List.mem_of_find?_eq_some ht') (by simpa using List.find?_some ht'),
      hall.same .rows, hall.same .lpddr⟩
end

section
/-! Cluster caches, patrols and page walks (R192, R201, R211, R212). -/

-- The frame conditions are evaluated in the kernel: theorems elaborated in parallel would each hold a thread while they wait for it.
set_option Elab.async false

namespace Sys2Proof.Machine

variable {s u v : State} {x : LpRow} {key : Nat} {r : RowRef}

/-! A row that has been put right stays as it is (R211). -/

def RsFound.corrected : RsFound → Bool
  | .symbol _ _ => true
  | _ => false

theorem LpRow.fix_of_not_corrected {f : RsFound} (h : f.corrected = false) (x : LpRow) (k : Nat) : x.fix k f = x := by
  cases f with
  | symbol i v => cases h
  | _ => rfl

theorem LpRow.bits_fix {k j : Nat} (hk : k < 4) (x : LpRow) (f : RsFound) :
    bits (x.fix k f).err (32 * j) 32 = if j = k ∧ f.corrected = true then 0 else bits x.err (32 * j) 32 := by
  cases f with
  | symbol i v =>
    by_cases hj : j = k
    · subst hj
      rw [if_pos ⟨rfl, rfl⟩]
      exact (bits_setBits_same _ _ _ _ (by omega)).trans (Nat.zero_mod _)
    · rw [if_neg (by simp [hj])]
      exact bits_setBits_apart _ _ _ _ _ _ (by omega)
  | _ => simp [LpRow.fix, RsFound.corrected]

/-- What decoding finds in codeword k. -/
def LpRow.word (x : LpRow) (k : Nat) : RsFound := rsDecode (bits x.err (32 * k) 32)

theorem LpRow.fixed_eq (h : x.err ≠ 0) : x.fixed = (((x.fix 0 (x.word 0)).fix 1 (x.word 1)).fix 2 (x.word 2)).fix 3 (x.word 3) := by
  rw [LpRow.fixed, LpRow.found, if_neg h]
  rfl

theorem LpRow.bits_fixed (h : x.err ≠ 0) {j : Nat} (hj : j < 4) :
    bits x.fixed.err (32 * j) 32 = if (x.word j).corrected = true then 0 else bits x.err (32 * j) 32 := by
  rw [LpRow.fixed_eq h]
  simp only [LpRow.bits_fix (by decide : (0 : Nat) < 4), LpRow.bits_fix (by decide : (1 : Nat) < 4), LpRow.bits_fix (by decide : (2 : Nat) < 4),
    LpRow.bits_fix (by decide : (3 : Nat) < 4)]
  interval_cases j <;> simp

theorem LpRow.word_fixed (h : x.err ≠ 0) {j : Nat} (hj : j < 4) : (x.fixed.word j).corrected = false := by
  rw [LpRow.word, LpRow.bits_fixed h hj]
  cases hc : (x.word j).corrected with
  | true => rfl
  | false => exact hc

theorem LpRow.fixed_fixed (x : LpRow) : x.fixed.fixed = x.fixed := by
  by_cases h : x.err = 0
  · rw [LpRow.fixed_of_clean h, LpRow.fixed_of_clean h]
  · by_cases hf : x.fixed.err = 0
    · exact LpRow.fixed_of_clean hf
    · rw [LpRow.fixed_eq hf]
      simp only [LpRow.fix_of_not_corrected (LpRow.word_fixed h _), Nat.reduceLT]

theorem State.lp_lpCe (s : State) (key k : Nat) : (s.lpCe key).lp k = if k = key then (s.lp key).fixed else s.lp k := by
  obtain ⟨v, hv⟩ : ∃ v, v = s.setLp key (s.lp key).fixed := ⟨_, rfl⟩
  have hlp : ∀ u : State, u.lpddr = v.lpddr → u.lp k = if k = key then (s.lp key).fixed else s.lp k := fun u hu => by
    rw [State.lp_congr hu, hv]
    by_cases hk : k = key
    · rw [if_pos hk, hk, State.lp_setLp_same]
    · rw [if_neg hk, State.lp_setLp_ne _ _ (Ne.symm hk)]
  have hc := State.changes_count (s := v) C.grnCe (rowGranary key) 1 0
  unfold State.lpCe
  dsimp only
  rw [← hv]
  split
  · exact hlp _ (((State.changes_retireRow ..).same .lpddr).trans (hc.same .lpddr))
  · exact hlp _ (hc.same .lpddr)

/-- A row that is met stands, or is put right; no other row changes. -/
theorem State.lp_lpTouch (s : State) (key k : Nat) : (s.lpTouch key).lp k = s.lp k ∨ k = key ∧ (s.lpTouch key).lp k = (s.lp k).fixed := by
  obtain ⟨v, hv⟩ : ∃ v, v = s.lpCheck key false := ⟨_, rfl⟩
  have hlp : ∀ k, v.lp k = s.lp k := State.lp_congr (hv ▸ (State.changes_lpCheck ..).same .lpddr)
  have hue : ∀ (u : State) (b : Bool), (if b then u.lpUe key else u).lp k = u.lp k := fun u b => by
    cases b with
    | false => rfl
    | true => exact State.lp_congr ((State.changes_lpUe ..).same .lpddr) k
  unfold State.lpTouch
  dsimp only
  rw [← hv, hue]
  split
  · rw [State.lp_lpCe]
    split
    · next hk => exact .inr ⟨hk, by rw [hlp, hk]⟩
    · exact .inl (hlp k)
  · exact .inl (hlp k)

/-- Rows that are met stand, or are put right. -/
theorem State.lp_touched (s : State) (keys : List Nat) (k : Nat) :
    ((keys.foldl (fun (s : State) k => s.lpTouch k) s).lp k = s.lp k ∨ (keys.foldl (fun (s : State) k => s.lpTouch k) s).lp k = (s.lp k).fixed)
      ∧ (k ∉ keys → (keys.foldl (fun (s : State) k => s.lpTouch k) s).lp k = s.lp k) := by
  induction keys generalizing s with
  | nil => exact ⟨.inl rfl, fun _ => rfl⟩
  | cons key keys ih =>
    obtain ⟨h1, h2⟩ := ih (s.lpTouch key)
    rw [List.foldl_cons]
    obtain ht | ⟨hk, ht⟩ := s.lp_lpTouch key k
    · rw [ht] at h1 h2
      exact ⟨h1, fun hn => h2 fun h => hn (List.mem_cons_of_mem _ h)⟩
    · rw [ht, LpRow.fixed_fixed] at h1
      exact ⟨.inr (h1.elim id id), fun hn => absurd (hk ▸ List.mem_cons_self) hn⟩

/-! Patrols. -/

theorem rowGranary_lpKey {g k row : Nat} (hg : g < 24) (hk : k < 64) : rowGranary (lpKey (8 * g + k / 8) (k % 8) row) = g := by
  have hdev : (8 * g + k / 8) % 8 = k / 8 ∧ (8 * g + k / 8) / 8 = g := by omega
  unfold rowGranary lpKey
  rw [hdev.1, hdev.2]
  omega

theorem State.lp_upset (s : State) (hits : List LpHit) {k : Nat} (h : ∀ x ∈ hits, x.row ≠ k) :
    (hits.foldl (fun (s : State) h => s.lpUpset h) s).lp k = s.lp k := by
  induction hits generalizing s with
  | nil => rfl
  | cons x hits ih =>
    rw [List.foldl_cons, ih _ fun y hy => h y (List.mem_cons_of_mem _ hy), State.lpUpset, State.lp_setLp_ne _ _ (h x (List.mem_cons_self ..))]

/-- What an access finds in a row touches no other row. -/
theorem State.rowsElsewhere_rowError (s : State) (r : RowRef) (e : RowErr) : s.rowsElsewhere (s.rowError r e) [r] := by
  cases e with
  | none => exact fun _ _ => rfl
  | single => exact fun k _ => State.row_congr (s.rows_rowError_single r) k
  | double => exact (s.row_rowError_double r).2
  | parity => exact (s.row_rowError_parity r).2

/-- Where the patrols of near stores and lofts stand, and what they owe to the next beat, is the same. -/
structure State.samePatrol (s u : State) : Prop where
  near : ∀ c, (u.core c).patrol = (s.core c).patrol ∧ (u.core c).owed = (s.core c).owed
  loft : ∀ k, (u.cl k).patrol = (s.cl k).patrol ∧ (u.cl k).owed = (s.cl k).owed

theorem State.samePatrol.refl : s.samePatrol s := ⟨fun _ => ⟨rfl, rfl⟩, fun _ => ⟨rfl, rfl⟩⟩

theorem State.samePatrol.trans (h : s.samePatrol u) (k : u.samePatrol v) : s.samePatrol v :=
  ⟨fun c => ⟨(k.near c).1.trans (h.near c).1, (k.near c).2.trans (h.near c).2⟩,
    fun c => ⟨(k.loft c).1.trans (h.loft c).1, (k.loft c).2.trans (h.loft c).2⟩⟩

theorem State.core_congr (h : u.cores = s.cores) (c : Nat) : u.core c = s.core c := by rw [State.core, h, State.core]

theorem State.cl_congr (h : u.clus = s.clus) (k : Nat) : u.cl k = s.cl k := by rw [State.cl, h, State.cl]

theorem State.samePatrol_of (hc : u.cores = s.cores) (hk : u.clus = s.clus) : s.samePatrol u :=
  ⟨fun c => by rw [State.core_congr hc]; exact ⟨rfl, rfl⟩, fun k => by rw [State.cl_congr hk]; exact ⟨rfl, rfl⟩⟩

theorem State.samePatrol_setCore {x : Core} {c : Nat} (hp : x.patrol = (s.core c).patrol) (ho : x.owed = (s.core c).owed) : s.samePatrol (s.setCore c x) := by
  refine ⟨fun k => ?_, fun k => ⟨congrArg Clus.patrol (State.cl_congr ((State.changes_setCore ..).same .clus) k),
    congrArg Clus.owed (State.cl_congr ((State.changes_setCore ..).same .clus) k)⟩⟩
  by_cases hk : c = k
  · subst hk
    rw [State.core_setCore_same]; exact ⟨hp, ho⟩
  · rw [State.core_setCore_ne _ _ hk]; exact ⟨rfl, rfl⟩

theorem State.samePatrol_setCl {x : Clus} {c : Nat} (hp : x.patrol = (s.cl c).patrol) (ho : x.owed = (s.cl c).owed) : s.samePatrol (s.setCl c x) := by
  refine ⟨fun k => ⟨congrArg Core.patrol (State.core_congr ((State.changes_setCl ..).same .cores) k),
    congrArg Core.owed (State.core_congr ((State.changes_setCl ..).same .cores) k)⟩, fun k => ?_⟩
  by_cases hk : c = k
  · subst hk
    rw [State.cl_setCl_same]; exact ⟨hp, ho⟩
  · rw [State.cl_setCl_ne _ _ hk]; exact ⟨rfl, rfl⟩

theorem State.samePatrol_ite {c : Prop} [Decidable c] (h : s.samePatrol u) (k : s.samePatrol v) : s.samePatrol (if c then u else v) := by
  split <;> assumption

theorem State.samePatrol_markDead (s : State) (cl phys : Nat) : s.samePatrol (s.markDead cl phys) := by
  unfold State.markDead
  split
  · exact State.samePatrol_setCore rfl rfl
  · refine State.samePatrol_ite ?_ .refl
    have h : s.changes Writes.newShape (State.newShape { s with shape := { s.shape with noFallow := s.shape.noFallow ++ [cl] } }) :=
      (State.changes_newShape ..).after ((State.changes_set_shape ..).after .refl)
    exact State.samePatrol_of (h.same .cores) (h.same .clus)

theorem State.samePatrol_wlChange (s : State) (kind wh unit row cause : Nat) (f : WlEnt → WlEnt) : s.samePatrol (s.wlChange kind wh unit row cause f) := by
  unfold State.wlChange
  extract_lets fin1 found2 fresh3 oldest4 x5 was6 x7
  generalize x5 = x5'
  split
  · have h := State.changes_count (s := s) C.wlFull 0 1 0
    exact State.samePatrol_of (h.same .cores) (h.same .clus)
  · extract_lets s8 now9
    have h : s.changes (.nv :: Writes.post) s8 := (State.changes_wlSettle ..).after ((State.changes_set_nv ..).after .refl)
    have h8 : s.samePatrol s8 := State.samePatrol_of (h.same .cores) (h.same .clus)
    exact State.samePatrol_ite (h8.trans (State.samePatrol_markDead ..)) h8

theorem State.samePatrol_memEvidence (s : State) (r : RowRef) (parity : Bool) : s.samePatrol (s.memEvidence r parity) := by
  unfold State.memEvidence
  split
  · extract_lets k l s1 s2
    have h1 : s.samePatrol s1 := State.samePatrol_setCore rfl rfl
    have h2 : s.samePatrol s2 := h1.trans (State.samePatrol_wlChange ..)
    exact State.samePatrol_ite (h2.trans (State.samePatrol_markDead ..)) h2
  · exact State.samePatrol_ite .refl (State.samePatrol_wlChange ..)

theorem State.samePatrol_ceEvidence (s : State) (r : RowRef) : s.samePatrol (s.ceEvidence r) := by
  unfold State.ceEvidence
  split
  · extract_lets k l s1
    have h1 : s.samePatrol s1 := State.samePatrol_setCore rfl rfl
    exact State.samePatrol_ite (h1.trans (State.samePatrol_wlChange ..)) h1
  · extract_lets bank k l s1
    have h1 : s.samePatrol s1 := State.samePatrol_setCl rfl rfl
    exact State.samePatrol_ite (h1.trans (State.samePatrol_wlChange ..)) h1

theorem State.samePatrol_reportRow (h : s.samePatrol u) (r : RowRef) (parity : Bool) (agent kind det x y : Nat) :
    s.samePatrol (((u.memLog r parity).fault agent kind det x y).memEvidence r parity) := by
  have hf : u.changes (.regs :: Writes.post) ((u.memLog r parity).fault agent kind det x y) :=
    (State.changes_fault ..).after ((State.changes_memLog ..).after .refl)
  exact (h.trans (State.samePatrol_of (hf.same .cores) (hf.same .clus))).trans (State.samePatrol_memEvidence ..)

theorem State.samePatrol_rowError (s : State) (r : RowRef) (e : RowErr) : s.samePatrol (s.rowError r e) := by
  have hcount : ∀ (a b : Ctr) (u : State), (u = match r with
      | .near c _ => s.countCore a c
      | .loft cl _ => s.count b cl) → s.samePatrol u := by
    rintro a b u rfl
    cases r with
    | near c n => exact State.samePatrol_of ((State.changes_countCore ..).same .cores) ((State.changes_countCore ..).same .clus)
    | loft cl n => exact State.samePatrol_of ((State.changes_count ..).same .cores) ((State.changes_count ..).same .clus)
  have hrow : ∀ (u : State) (y : RowSt), s.samePatrol u → s.samePatrol (u.setRow r y) := fun u y h =>
    h.trans (State.samePatrol_of (State.setRow_cores ..) (State.setRow_clus ..))
  unfold State.rowError
  cases e with
  | none => exact .refl
  | single => exact (hcount C.memCeNear C.memCeLoft _ rfl).trans (State.samePatrol_ceEvidence ..)
  | double =>
    have h := hcount C.memUeNear C.memUeLoft _ rfl
    exact State.samePatrol_reportRow (State.samePatrol_ite h (hrow _ _ h)) ..
  | parity => exact State.samePatrol_reportRow (hrow _ _ (hcount C.tagParityNear C.tagParityLoft _ rfl)) ..

theorem State.foundErrors (s : State) (rows : List RowRef) (found : List (RowRef × RowErr)) {u : State}
    (hu : u = found.foldl (fun (s : State) (p : RowRef × RowErr) => if rows.contains p.1 then s.rowError p.1 p.2 else s) s) :
    s.samePatrol u ∧ s.rowsElsewhere u (found.map Prod.fst) := by
  subst hu
  induction found generalizing s with
  | nil => exact ⟨.refl, fun _ _ => rfl⟩
  | cons p found ih =>
    rw [List.foldl_cons, List.map_cons]
    obtain ⟨h1, h2⟩ := ih (if rows.contains p.1 then s.rowError p.1 p.2 else s)
    refine ⟨(State.samePatrol_ite (State.samePatrol_rowError ..) .refl).trans h1, fun k hk => ?_⟩
    rw [h2 k fun x hx => hk x (List.mem_cons_of_mem _ hx)]
    split
    · exact s.rowsElsewhere_rowError p.1 p.2 k fun x hx => hk x (by simp only [List.mem_singleton] at hx; simp [hx])
    · rfl

theorem State.core_foldl_setCore (b : Nat) (f : Nat → Core → Core) {l : List Nat} (hl : l.Nodup) (s : State) {i : Nat} (hi : i ∈ l) :
    (l.foldl (fun (s : State) i => s.setCore (b + i) (f i (s.core (b + i)))) s).core (b + i) = f i (s.core (b + i)) := by
  have hother : ∀ (l : List Nat) (s : State), i ∉ l →
      (l.foldl (fun (s : State) i => s.setCore (b + i) (f i (s.core (b + i)))) s).core (b + i) = s.core (b + i) := by
    intro l
    induction l with
    | nil => exact fun _ _ => rfl
    | cons j l ih =>
      intro s hn
      simp only [List.mem_cons, not_or] at hn
      rw [List.foldl_cons, ih _ hn.2, State.core_setCore_ne _ _ (by omega)]
  induction l generalizing s with
  | nil => cases hi
  | cons j l ih =>
    rw [List.nodup_cons] at hl
    rw [List.foldl_cons]
    obtain rfl | hi := List.mem_cons.1 hi
    · rw [hother l _ hl.1, State.core_setCore_same]
    · rw [ih hl.2 _ hi, State.core_setCore_ne]
      rintro he
      exact hl.1 (by rwa [show j = i by omega])

theorem State.patrolled_eq (s : State) (cl : Nat) (found : List (RowRef × RowErr)) (missed : List Nat) :
    ((s.patrolled cl found missed).cl cl).patrol = ((s.cl cl).patrol + (s.patrolDue cl 8 - s.patrolLeft cl missed 8)) % 1048576
      ∧ ((s.patrolled cl found missed).cl cl).owed = s.patrolLeft cl missed 8
      ∧ (∀ i, i < 8 → ((s.patrolled cl found missed).core (8 * cl + i)).patrol
            = ((s.core (8 * cl + i)).patrol + (s.patrolDue cl i - s.patrolLeft cl missed i)) % 8192
          ∧ ((s.patrolled cl found missed).core (8 * cl + i)).owed = s.patrolLeft cl missed i)
      ∧ s.rowsElsewhere (s.patrolled cl found missed) (found.map Prod.fst) := by
  unfold State.patrolled
  extract_lets rows n left s1 s2 x3 s3
  obtain ⟨hpatrol, hrows⟩ := s.foundErrors rows found (u := s1) rfl
  have h2 : s1.changes [.cores] s2 := State.changes_foldl .refl fun _ _ ht => (State.changes_setCore ..).after ht
  have h3 : s2.changes [.clus] s3 := State.changes_setCl ..
  have hlast : s3.changes [.ctrs] (if (List.range 9).any fun i => decide (left i ≠ 0) then s3.count C.scrubDeferred cl else s3) :=
    State.changes_ite ((State.changes_count ..).after .refl) .refl
  have hcore : ∀ i, i < 8 → s2.core (8 * cl + i)
      = { s1.core (8 * cl + i) with patrol := ((s1.core (8 * cl + i)).patrol + n i) % 8192, owed := left i } := fun i hi =>
    State.core_foldl_setCore (8 * cl) (fun i x => { x with patrol := (x.patrol + n i) % 8192, owed := left i }) List.nodup_range s1 (List.mem_range.2 hi)
  have hcl : s3.cl cl = { s2.cl cl with patrol := ((s2.cl cl).patrol + n 8) % 1048576, owed := left 8 } := State.cl_setCl_same ..
  have hs2 : (s2.cl cl).patrol = (s.cl cl).patrol := by rw [State.cl_congr (h2.same .clus)]; exact (hpatrol.loft cl).1
  rw [State.cl_congr (hlast.same .clus), hcl]
  refine ⟨by rw [← hs2], rfl, fun i hi => ?_, ?_⟩
  · rw [State.core_congr (hlast.same .cores), State.core_congr (h3.same .cores), hcore i hi]
    exact ⟨by rw [← (hpatrol.near _).1], rfl⟩
  · exact State.rowsElsewhere_of_rows hrows ((hlast.same .rows).trans ((h3.same .rows).trans (h2.same .rows)))

theorem State.cache_cacheDrop (s : State) (cl : Nat) : ((s.cacheDrop cl).cl cl).cache = [] ∧ ∀ k, k ≠ cl → (s.cacheDrop cl).cl k = s.cl k := by
  have h : (s.setCl cl { s.cl cl with cache := [] }).changes [.cores] (s.cacheDrop cl) :=
    State.changes_foldl .refl fun _ _ ht => (State.changes_setCore ..).after ht
  refine ⟨?_, fun k hk => ?_⟩
  · rw [State.cl_congr (h.same .clus), State.cl_setCl_same]
  · rw [State.cl_congr (h.same .clus), State.cl_setCl_ne _ _ hk.symm]

/-! Page walks. -/

theorem State.translate_lpTouch (s : State) (key p pg : Nat) : (s.lpTouch key).translate none p pg = s.translate none p pg := by
  have hpage : (s.lpTouch key).pageOf p pg = s.pageOf p pg := by
    have hfix : ((s.lpTouch key).lp (leafPlace p pg).1).fixed = (s.lp (leafPlace p pg).1).fixed := by
      obtain h | ⟨-, h⟩ := s.lp_lpTouch key (leafPlace p pg).1
      · rw [h]
      · rw [h, LpRow.fixed_fixed]
    rw [State.pageOf, hfix, State.pageOf]
  have hwalk : (s.lpTouch key).walk = s.walk := (State.changes_lpTouch ..).same .walk
  simp only [State.translate, hwalk, hpage]

theorem State.tlbOf_setTlb (s : State) (v : Via) (l : List (Nat × Nat × Word)) : (s.setTlb v l).tlbOf v = l := by
  cases v with
  | cluster cl => exact congrArg Clus.tlb (State.cl_setCl_same ..)
  | gate g => exact congrArg Gate.tlb (State.gate_setGate_same ..)

/-- The state as a walk has the page's word: a miss of the walk cache has met the leaf's row. -/
def State.walked (s : State) (p page : Nat) : State :=
  if s.walk.any fun x => x.1 == p && x.2.1 == page then s else s.lpTouch (leafPlace p page).1

theorem State.changes_walked (s : State) (p page : Nat) : s.changes Writes.lpTouch (s.walked p page) :=
  State.changes_ite .refl ((State.changes_lpTouch ..).after .refl)

theorem State.translate_walked (s : State) (p page q pg : Nat) : (s.walked p page).translate none q pg = s.translate none q pg := by
  unfold State.walked
  split
  · rfl
  · exact State.translate_lpTouch ..

theorem State.walked_of_hit {p page : Nat} (h : ∃ x ∈ s.walk, x.1 = p ∧ x.2.1 = page) : s.walked p page = s :=
  if_pos (List.any_eq_true.2 (by simpa using h))

theorem State.walked_of_clean {p page : Nat} (h : (s.lp (leafPlace p page).1).err = 0) : s.changes [.ctrs, .checks] (s.walked p page) :=
  State.changes_ite .refl ((State.lpTouch_of_clean h).after .refl)

theorem State.pageWalk_eq (s : State) (v : Via) (p page : Nat) : ((s.pageWalk v p page).tlbOf v).head? = some (p, page, s.translate none p page)
    ∧ ((s.pageWalk v p page).tlbOf v).length ≤ 512 ∧ (p, page, s.translate none p page) ∈ (s.pageWalk v p page).walk
    ∧ (s.walked p page).changes [.clus, .gates, .walk] (s.pageWalk v p page) := by
  obtain ⟨u, hu⟩ : ∃ u, u = s.walked p page := ⟨_, rfl⟩
  have hw := s.translate_walked p page p page
  have hdef := hu
  unfold State.walked at hdef
  rw [← hu] at hw ⊢
  unfold State.pageWalk
  dsimp only
  rw [← hdef, hw]
  obtain ⟨l, hl⟩ : ∃ l, l = ((p, page, s.translate none p page) :: (u.tlbOf v).filter fun (x : Nat × Nat × Word) => !(x.1 == p && x.2.1 == page)).take 512 := ⟨_, rfl⟩
  rw [← hl]
  have htlb : ∀ w : State, w.clus = (u.setTlb v l).clus → w.gates = (u.setTlb v l).gates → w.tlbOf v = l := fun w hc hg => by
    rw [← u.tlbOf_setTlb v l]
    cases v with
    | cluster cl => exact congrArg Clus.tlb (State.cl_congr hc cl)
    | gate g => simp only [State.tlbOf, State.gate, hg]
  refine ⟨?_, ?_, List.mem_cons_self, (State.changes_set_walk ..).after ((State.changes_setTlb ..).after .refl)⟩
  · exact (congrArg List.head? (htlb _ rfl rfl)).trans (by rw [hl]; rfl)
  · exact (congrArg List.length (htlb _ rfl rfl)).trans_le (by rw [hl]; exact List.length_take_le ..)

end Sys2Proof.Machine

open Sys2Proof Sys2Proof.Machine

/-- Settles O37: what a patrol finds leaves the patrols' places alone; a row put right once reads as it did before. -/
theorem cachesPatrolsAndWalks : Obligations.CachesPatrolsAndWalks := by
  unfold Obligations.CachesPatrolsAndWalks
  refine ⟨fun cl s hcl hhole => ?_, fun cl found missed s hcl hhole hen => ?_, fun g hits s hg hdead hen hhits => ?_, fun via p page s hp hpage hup hvia hmiss => ?_⟩
  · have he : exec (.ccInvalidate cl) s = .next ((s.cacheDrop cl).setFld (.clCcCtrl cl) F.clCcCtrlInvBusy 0) := by
      show execCcInvalidate cl s = _
      rw [execCcInvalidate, unitOk, if_pos (by simp [clOk, hcl]), need, if_pos (by simp [hhole])]
    have hset := State.changes_setFld (s := s.cacheDrop cl) (.clCcCtrl cl) F.clCcCtrlInvBusy 0
    have hdrop := State.changes_cacheDrop (s := s) cl
    obtain ⟨h1, h2⟩ := s.cache_cacheDrop cl
    exact ⟨_, he, by rw [State.cl_congr (hset.same .clus)]; exact h1, fun k hk => (State.cl_congr (hset.same .clus) k).trans (h2 k hk),
      (hset.same .rows).trans (hdrop.same .rows), (hset.same .lpddr).trans (hdrop.same .lpddr)⟩
  · have he : exec (.patrolScrub cl ⟨found, missed⟩) s = .next (s.patrolled cl found missed) := by
      show execPatrolScrub cl ⟨found, missed⟩ s = _
      rw [execPatrolScrub, unitOk, if_pos (by simp [clOk, hcl]), need, if_pos (by simp [hhole, hen])]
    obtain ⟨h1, h2, h3, h4⟩ := s.patrolled_eq cl found missed
    exact ⟨_, he, h1, h2, h3, h4, (State.changes_patrolled ..).same .lpddr⟩
  · have he : exec (.lpddrPatrol g hits) s = .next ((hits.foldl (fun (s : State) h => s.lpUpset h) s).lpPatrolled g) := by
      have hall : (hits.all fun h => rowGranary h.row == g && decide (h.pos < 528 ∧ (lpPlace h.row).2.2 < 24379392)) = true :=
        List.all_eq_true.2 fun x hx => by simpa [and_assoc] using hhits x hx
      show execLpddrPatrol g hits s = _
      rw [execLpddrPatrol, unitOk, if_pos (by simp [hg]), need, if_pos (by rw [hall, hen]; simpa using hdead)]
    obtain ⟨v, hv⟩ : ∃ v, v = hits.foldl (fun (s : State) h => s.lpUpset h) s := ⟨_, rfl⟩
    have hup : s.changes [.lpddr] v := hv ▸ State.changes_foldl .refl fun _ _ ht => (State.changes_setLp ..).after ht
    rw [← hv] at he ⊢
    have hpat := State.changes_lpPatrolled (s := v) g
    have hlp : ∀ k, (v.lpPatrolled g).lp k = v.lp k ∨ (v.lpPatrolled g).lp k = (v.lp k).fixed := fun k => (v.lp_touched _ k).1
    refine ⟨_, he, hlp, fun k hk => ?_, ?_, (hpat.same .rows).trans (hup.same .rows)⟩
    · have hkeep : (v.lpPatrolled g).lp k = v.lp k := (v.lp_touched _ k).2 fun hmem => by
        obtain ⟨i, -, hmem⟩ := List.mem_flatMap.1 hmem
        obtain ⟨j, hj, rfl⟩ := List.mem_map.1 hmem
        exact hk (rowGranary_lpKey hg (List.mem_range.1 hj))
      rw [hkeep, hv]
      exact s.lp_upset hits fun x hx hxk => hk (by rw [← hxk]; exact (hhits x hx).1)
    · have hfld : v.fld (.grnCfg g) F.grnCfgScrubLog2 = s.fld (.grnCfg g) F.grnCfgScrubLog2 := State.fld_congr (State.rd_congr (hup.same .regs) _) _
      rw [State.lpPatrolled, hfld, hup.same .lpPatrol]
      exact SMap.get_put_same ..
  · have he : exec (.pageWalk via ⟨p, page⟩) s = .next (s.pageWalk via p page) := by
      have hno : ((s.tlbOf via).any fun e => e.1 == p && e.2.1 == page) = false := by
        refine List.any_eq_false.2 fun x hx => ?_
        simpa using hmiss x hx
      show execPageWalk via ⟨p, page⟩ s = _
      unfold execPageWalk
      rw [unitOk, if_pos (by cases via <;> simp [hvia, hp]), need, if_pos (by rw [hno, hup]; simpa using hpage)]
    obtain ⟨h1, h2, h3, h4⟩ := s.pageWalk_eq via p page
    have hwalk := s.changes_walked p page
    refine ⟨_, he, h1, h2, h3, (h4.same .rows).trans (hwalk.same .rows), (h4.same .tasks).trans (hwalk.same .tasks), fun h => ?_, fun h => ?_⟩
    · have hc : s.changes [.ctrs, .checks] (s.walked p page) := by
        obtain h | h := h
        · rw [State.walked_of_hit h]; exact .refl
        · exact State.walked_of_clean h
      exact ⟨(h4.same .lpddr).trans (hc.same .lpddr), (h4.same .regs).trans (hc.same .regs)⟩
    · rw [h4.same .ctrs, State.walked_of_hit h]
end

section
/-! Accumulate-writes (R214, R216, R227). -/

-- The frame conditions are evaluated in the kernel: theorems elaborated in parallel would each hold a thread while they wait for it.
set_option Elab.async false

namespace Sys2Proof.Machine

variable {s u v : State} {l : LpLoc} {r : Row} {key : Nat}

theorem State.lp_lpWrite (s : State) (key k : Nat) (d : Row) (bad : Bool) : (s.lpWrite key d bad).lp k = if k = key then .of d bad else s.lp k := by
  by_cases hk : k = key
  · rw [if_pos hk, hk, State.lpWrite, State.lp_setLp_same]
  · rw [if_neg hk, State.lpWrite, State.lp_setLp_ne _ _ (Ne.symm hk), State.lp_congr ((State.changes_lpCheck ..).same .lpddr)]

theorem State.isTouch_congr (hr : u.regs = s.regs) (hs : u.shape = s.shape) (i : Nat) : u.isTouch i = s.isTouch i := by
  simp only [State.isTouch, hr, State.homeGran_congr hs, State.rd]

/-- The other rows of a granule are zeroed by its first accumulate-write. -/
def State.zeroOthers (s : State) (key : Nat) (is : List Nat) : State :=
  is.foldl (fun (s : State) i => if 8 * (key / 8) + i = key then s else s.lpWrite (8 * (key / 8) + i) 0 false) s

theorem State.changes_zeroOthers (s : State) (key : Nat) (is : List Nat) : s.changes [.ctrs, .lpddr, .checks] (s.zeroOthers key is) :=
  State.changes_foldl .refl fun _ _ ht => State.changes_ite ht ((State.changes_lpWrite ..).after ht)

theorem State.lp_zeroOthers (s : State) (key k : Nat) (is : List Nat) :
    (s.zeroOthers key is).lp k = if k ≠ key ∧ ∃ i ∈ is, k = 8 * (key / 8) + i then .of 0 false else s.lp k := by
  induction is generalizing s with
  | nil =>
    rw [if_neg (fun h => by obtain ⟨-, i, hi, -⟩ := h; cases hi)]
    rfl
  | cons i is ih =>
    have hstep : s.zeroOthers key (i :: is) = (if 8 * (key / 8) + i = key then s else s.lpWrite (8 * (key / 8) + i) 0 false).zeroOthers key is := rfl
    rw [hstep, ih]
    by_cases hk : k ≠ key ∧ ∃ j ∈ is, k = 8 * (key / 8) + j
    · obtain ⟨hne, j, hj, he⟩ := hk
      rw [if_pos ⟨hne, j, hj, he⟩, if_pos ⟨hne, j, List.mem_cons_of_mem _ hj, he⟩]
    · rw [if_neg hk]
      split
      · next hi =>
        rw [if_neg]
        rintro ⟨hne, j, hj, he⟩
        obtain rfl | hj := List.mem_cons.1 hj
        · exact hne (he.trans hi)
        · exact hk ⟨hne, j, hj, he⟩
      · next hi =>
        rw [State.lp_lpWrite]
        by_cases he : k = 8 * (key / 8) + i
        · rw [if_pos he, if_pos ⟨fun h => hi (he.symm.trans h), i, List.mem_cons_self, he⟩]
        · rw [if_neg he, if_neg]
          rintro ⟨hne, j, hj, hej⟩
          obtain rfl | hj := List.mem_cons.1 hj
          · exact he hej
          · exact hk ⟨hne, j, hj, hej⟩

/-- The first BF16 accumulate-write to a granule. -/
theorem State.accumApply_first {j : Nat} (hf : SMap.get (fun _ => false) s.epoch (l.key / 8) = false) (ht : s.isTouch (pgTensor l.page) = false) :
    (s.accumApply j l (.bf16 r) false false).lp l.key = .of (canonBf16 r) false
      ∧ (∀ k, k / 8 = l.key / 8 → k ≠ l.key → (s.accumApply j l (.bf16 r) false false).lp k = .of 0 false)
      ∧ (∀ k, k / 8 ≠ l.key / 8 → (s.accumApply j l (.bf16 r) false false).lp k = s.lp k)
      ∧ SMap.get (fun _ => false) (s.accumApply j l (.bf16 r) false false).epoch (l.key / 8) = true := by
  obtain ⟨v, hv⟩ : ∃ v, v = (s.count C.grnAccRows (rowGranary l.key)).zeroOthers l.key (List.range 8) := ⟨_, rfl⟩
  obtain ⟨w, hw⟩ : ∃ w : State, w = { v with epoch := SMap.put (fun _ => false) v.epoch (l.key / 8) true } := ⟨_, rfl⟩
  have hsv : s.changes [.ctrs, .lpddr, .checks] v := hv ▸ (State.changes_zeroOthers ..).after ((State.changes_count ..).after .refl)
  have hsw : s.changes [.ctrs, .lpddr, .checks, .epoch] w := hw ▸ (State.changes_set_epoch ..).after (hsv.after .refl)
  have htw : w.isTouch (pgTensor l.page) = false := (State.isTouch_congr (hsw.same .regs) (hsw.same .shape) _).trans ht
  have he : s.accumApply j l (.bf16 r) false false = w.lpWrite l.key (canonBf16 r) false := by
    unfold State.accumApply
    unfold State.zeroOthers at hv
    simp only [hf, Bool.not_false, if_true, ← hv, ← hw, htw, Bool.not_true, Bool.false_and, Bool.or_self, Bool.false_eq_true, if_false]
  have hepoch : (w.lpWrite l.key (canonBf16 r) false).epoch = w.epoch := (State.changes_lpWrite ..).same .epoch
  have hvk : ∀ k, v.lp k = if k ≠ l.key ∧ ∃ i ∈ List.range 8, k = 8 * (l.key / 8) + i then .of 0 false else s.lp k := fun k => by
    rw [hv, State.lp_zeroOthers, State.lp_congr ((State.changes_count ..).same .lpddr)]
  have hwk : ∀ k, w.lp k = v.lp k := State.lp_congr (by rw [hw])
  rw [he]
  refine ⟨by rw [State.lp_lpWrite, if_pos rfl], fun k hk hne => ?_, fun k hk => ?_, ?_⟩
  · rw [State.lp_lpWrite, if_neg hne, hwk, hvk, if_pos ⟨hne, k % 8, List.mem_range.2 (Nat.mod_lt _ (by decide)), by omega⟩]
  · rw [State.lp_lpWrite, if_neg fun h => hk (by rw [h]), hwk, hvk, if_neg]
    rintro ⟨-, i, hi, h⟩
    have := List.mem_range.1 hi
    omega
  · rw [hepoch, hw]
    exact SMap.get_put_same (fun _ => false) v.epoch (l.key / 8) true

/-- A later BF16 accumulate-write to a row whose codewords are clean. -/
theorem State.accumApply_later {j : Nat} (hf : SMap.get (fun _ => false) s.epoch (l.key / 8) = true) (hc : (s.lp l.key).err = 0)
    (hsr : (s.tt (pgTensor l.page)).sr = false) (ht : s.isTouch (pgTensor l.page) = false) (k : Nat) :
    (s.accumApply j l (.bf16 r) false false).lp k = if k = l.key then .of (accumRow (List.replicate 256 .rne)
        (((bf16Nums (s.lp l.key).data).zip (bf16Nums r)).map fun q => (add32 q.1 q.2).1)) false else s.lp k := by
  obtain ⟨c, hcount⟩ : ∃ c, c = s.count C.grnAccRows (rowGranary l.key) := ⟨_, rfl⟩
  have hsc : s.changes [.ctrs] c := hcount ▸ State.changes_count ..
  have hclp : c.lp l.key = s.lp l.key := State.lp_congr (hsc.same .lpddr) _
  obtain ⟨w, hw⟩ : ∃ w, w = c.lpTouch l.key := ⟨_, rfl⟩
  have hcw : c.changes [.ctrs, .checks] w := hw ▸ State.lpTouch_of_clean (by rwa [hclp])
  have hwlp : ∀ k, w.lp k = s.lp k := State.lp_congr ((hcw.same .lpddr).trans (hsc.same .lpddr))
  have htw : w.isTouch (pgTensor l.page) = false :=
    (State.isTouch_congr ((hcw.same .regs).trans (hsc.same .regs)) ((hcw.same .shape).trans (hsc.same .shape)) _).trans ht
  have hclean := LpRow.poison_of_clean hc
  have he : s.accumApply j l (.bf16 r) false false = w.lpWrite l.key (accumRow (List.replicate 256 .rne)
      (((bf16Nums (s.lp l.key).data).zip (bf16Nums r)).map fun q => (add32 q.1 q.2).1)) false := by
    unfold State.accumApply
    simp only [hf, Bool.not_true, Bool.false_eq_true, if_false, ← hcount, ← hw, hclp, hclean, hwlp, htw, Bool.and_false, Bool.or_self, hsr,
      State.granaryRoundings, Bool.not_false, if_true, accumVals]
  rw [he, State.lp_lpWrite, hwlp]

/-- What becomes of an accumulate-write, by where it is found to lie. -/
theorem State.accumWrite_at {p j addr : Nat} (hl : s.locate (.cluster ((s.clustersOf p).headD 0)) p j (addr / 512) = l) (d : AccData) (final : Bool) :
    s.accumWrite p j addr d final = if pgState l.page ≠ 1 then s.pageFault (addr / 512)
      else if !s.classOk p j l .accum then s.classRefused l (agentGranary (rowGranary l.key)) 3 (addr / 512)
      else if s.accumWaits p j l then s.standBy (.write p j addr d final) else s.accumApply j l d final false := by
  subst hl; rfl

end Sys2Proof.Machine

open Sys2Proof Sys2Proof.Machine

/-- Settles O39: one row of the granule is written, and only the first write of a step touches others. -/
theorem accumulateWritesAdd : Obligations.AccumulateWritesAdd := by
  unfold Obligations.AccumulateWritesAdd
  intro p j addr r s hp hj hen hal haddr l
  have he : exec (.accumWrite p j addr (.bf16 r) false) s = .next (s.accumWrite p j addr (.bf16 r) false) := by
    show execAccumWrite p j addr (.bf16 r) false s = _
    rw [execAccumWrite, unitOk, if_pos (by simp [hp, hj]), need, if_pos (by simpa [hen, hal] using haddr)]
  have hall := State.changes_accumWrite (s := s) p j addr (.bf16 r) false
  have hat := State.accumWrite_at (s := s) (l := l) (p := p) (j := j) (addr := addr) rfl (.bf16 r) false
  refine ⟨fun href => ?_, fun hpage hclass hwait => ?_, fun hpage hclass hwait htouch => ?_⟩
  · have hw : s.changes Writes.post (s.accumWrite p j addr (.bf16 r) false) := by
      rw [hat]
      split
      · exact (State.changes_pageFault ..).after .refl
      · next hpg =>
        rw [if_pos (by rw [href.resolve_left hpg]; rfl)]
        exact State.changes_classRefused ..
    exact ⟨_, he, hw.same .lpddr, hw.same .rows, hw.same .epoch⟩
  · rw [if_neg (by simp [hpage]), if_neg (by simp [hclass]), if_pos hwait] at hat
    have hs := State.changes_standBy (s := s) (.write p j addr (.bf16 r) false)
    rw [hat] at he
    refine ⟨_, he, ?_, hs.same .lpddr, hs.same .rows, hs.same .epoch⟩
    unfold State.standBy
    split
    · next h => simpa using h
    · exact List.mem_append_right _ (List.mem_singleton.2 rfl)
  · rw [if_neg (by simp [hpage]), if_neg (by simp [hclass]), if_neg (by simp [hwait])] at hat
    refine ⟨fun hf => ?_, fun hf hc hsr => ?_⟩
    · obtain ⟨h1, h2, h3, h4⟩ := State.accumApply_first (r := r) (j := j) hf htouch
      exact ⟨_, he, hat ▸ h1, hat ▸ h2, hat ▸ h3, hat ▸ h4, hall.same .rows⟩
    · have h := State.accumApply_later (r := r) (j := j) hf hc hsr htouch
      rw [← hat] at h
      exact ⟨_, he, (h _).trans (if_pos rfl), fun k hk => (h k).trans (if_neg hk), hall.same .rows⟩
end

section
/-! A bring-up whose last two rows lie in one physical row (R211, R220, R418). -/

-- The frame conditions are evaluated in the kernel: theorems elaborated in parallel would each hold a thread while they wait for it.
set_option Elab.async false

namespace Sys2Proof.Machine

/-- Two pages of a partition name one frame. The bring-up of tensor 0, of 4,097 rows on those pages, has two rows to come: row 4,096 and, at
the wrap, row 0. Both are physical row 0, which holds the poison pattern. -/
def twoPagesOneFrame : State :=
  let leaf : Row := BitVec.ofNat 4096 (packBits [(64, (mkPage 1 0 0 0).toNat), (64, (mkPage 1 0 0 0).toNat)])
  { State.reset with
    regs := [((Reg.ttEntry 0 0 0).addr, 0x100001), ((Reg.ttEntry 0 0 2).addr, 4097)]
    lpddr := [(0, .of 0 true), ((leafPlace 0 0).1, .of leaf false)]
    bringups := [⟨0, 1, true, 4095, []⟩] }

theorem rows_twoPagesOneFrame : (twoPagesOneFrame.ttEff 0).rows = 4097 := by decide +kernel

theorem page_twoPagesOneFrame {k : Nat} (hk : k < 4097) : pgState (twoPagesOneFrame.tensorLoc 0 k).page = 1 := by
  have hrow : (twoPagesOneFrame.ttEff 0).base / 512 + k = k := by
    rw [show (twoPagesOneFrame.ttEff 0).base = 0 by decide +kernel]; omega
  have hpage : k / 4096 = 0 ∨ k / 4096 = 1 := by omega
  show pgState (twoPagesOneFrame.translate none _ ((_ + k) / 4096)) = 1
  rw [hrow]
  obtain h | h := hpage <;> rw [h] <;> decide +kernel

/-- The read of the first row finds it uncorrectable and begins its copy to a spare, so the second is held. -/
theorem res_twoPagesOneFrame : ((twoPagesOneFrame.comeRows 0 2).tt 0).res = 1 := by decide +kernel

end Sys2Proof.Machine

open Sys2Proof Sys2Proof.Machine

/-- Refutes O38: where two pages of the tensor name one frame whose row is uncorrectable, the first of its rows to land retires the physical
row (R211), the second waits for the copy (R418), and the tensor is not RESIDENT. -/
theorem not_tensorCopiesAndDeadlines : ¬ Obligations.TensorCopiesAndDeadlines := by
  unfold Obligations.TensorCopiesAndDeadlines
  rintro ⟨h, -, -⟩
  obtain ⟨u, hu, hres, -⟩ := h 0 2 twoPagesOneFrame ⟨0, 1, true, 4095, []⟩ (by decide) rfl rfl (by rw [rows_twoPagesOneFrame]) rfl (fun _ _ => rfl)
    fun k hk => ⟨page_twoPagesOneFrame (rows_twoPagesOneFrame ▸ hk), rfl⟩
  have he : exec (.bringupDone ⟨0, 2⟩) twoPagesOneFrame = .next (twoPagesOneFrame.comeRows 0 2) := rfl
  rw [he] at hu
  obtain rfl := Host.Outcome.next.inj hu
  rw [res_twoPagesOneFrame] at hres
  cases hres
end

section
/-! Registers that stand while others are written. -/

-- The frame conditions are evaluated in the kernel: theorems elaborated in parallel would each hold a thread while they wait for it.
set_option Elab.async false

namespace Sys2Proof.Machine

variable {s t u : State} {K : Nat → Prop} {α : Type}

/-- The registers at the addresses `K` stand. -/
def State.keepsRegs (K : Nat → Prop) (s u : State) : Prop := ∀ r : Reg, K r.addr → u.rd r = s.rd r

theorem State.keepsRegs.refl : s.keepsRegs K s := fun _ _ => rfl

theorem State.keepsRegs.trans (h : s.keepsRegs K t) (k : t.keepsRegs K u) : s.keepsRegs K u := fun r hr => (k r hr).trans (h r hr)

theorem State.keepsRegs.mono {L : Nat → Prop} (h : s.keepsRegs K u) (hL : ∀ a, L a → K a) : s.keepsRegs L u := fun r hr => h r (hL _ hr)

theorem State.keepsRegs_of_regs (h : u.regs = s.regs) : s.keepsRegs K u := fun r _ => State.rd_congr h r

theorem State.keepsRegs_of_changes {M : List Field} (h : s.changes M u) (hM : .regs ∉ M := by decide) : s.keepsRegs K u :=
  State.keepsRegs_of_regs (h.same .regs hM)

theorem State.keepsRegs_wr {r : Reg} (hr : ¬ K r.addr) (w : Word) : s.keepsRegs K (s.wr r w) := fun _ hx =>
  State.rd_wr_ne _ _ fun he => hr (he ▸ hx)

theorem State.keepsRegs_setFld {r : Reg} (hr : ¬ K r.addr) (f : Fld) (v : Nat) : s.keepsRegs K (s.setFld r f v) := State.keepsRegs_wr hr _

theorem State.keepsRegs_setBoth {r : Reg} (hr : ¬ K r.addr) (lo len v : Nat) : s.keepsRegs K (s.setBoth r lo len v) := State.keepsRegs_wr hr _

theorem State.keepsRegs_foldl {f : State → α → State} {l : List α} (hf : ∀ x ∈ l, ∀ t, s.keepsRegs K t → s.keepsRegs K (f t x))
    (h : s.keepsRegs K u) : s.keepsRegs K (l.foldl f u) := by
  induction l generalizing u with
  | nil => exact h
  | cons x l ih => exact ih (fun y hy => hf y (List.mem_cons_of_mem _ hy)) (hf x List.mem_cons_self u h)

theorem State.keepsRegs_ite {c : Prop} [Decidable c] (h : s.keepsRegs K t) (k : s.keepsRegs K u) : s.keepsRegs K (if c then t else u) := by
  split
  · exact h
  · exact k

theorem State.keepsRegs.fld (h : s.keepsRegs K u) {r : Reg} (hr : K r.addr) (f : Fld) : u.fld r f = s.fld r f := State.fld_congr (h r hr) f

/-- The registers in force of u are those of s after writes at the addresses A. -/
inductive State.writesAt (A : Nat → Prop) (s : State) : State → Prop
  | same {u : State} (h : u.regs = s.regs) : State.writesAt A s u
  | write {t u : State} (h : State.writesAt A s t) (r : Reg) (w : Word) (hr : A r.addr) (hu : u.regs = (t.wr r w).regs) : State.writesAt A s u

section
variable {A B : Nat → Prop}

theorem State.writesAt.of_regs (h : s.writesAt A t) (hu : u.regs = t.regs) : s.writesAt A u := by
  cases h with
  | same h => exact .same (hu.trans h)
  | write h r w hr ht => exact .write h r w hr (hu.trans ht)

theorem State.writesAt.wr (h : s.writesAt A t) {r : Reg} (hr : A r.addr) (w : Word) : s.writesAt A (t.wr r w) := .write h r w hr rfl

theorem State.writesAt.setFld (h : s.writesAt A t) {r : Reg} (hr : A r.addr) (f : Fld) (v : Nat) : s.writesAt A (t.setFld r f v) := h.wr hr _

theorem State.writesAt.trans (h : s.writesAt A t) (k : t.writesAt A u) : s.writesAt A u := by
  induction k with
  | same hu => exact h.of_regs hu
  | write _ r w hr hu ih => exact (ih.wr hr w).of_regs hu

theorem State.writesAt.mono (h : s.writesAt A u) (hAB : ∀ a, A a → B a) : s.writesAt B u := by
  induction h with
  | same h => exact .same h
  | write _ r w hr hu ih => exact .write ih r w (hAB _ hr) hu

theorem State.changes.writesAt {M : List Field} (k : t.changes M u) (h : s.writesAt A t) (hM : .regs ∉ M := by decide) : s.writesAt A u :=
  h.of_regs (k.same .regs hM)

theorem State.writesAt_foldl {f : State → α → State} {l : List α} (hf : ∀ x ∈ l, ∀ t, s.writesAt A t → s.writesAt A (f t x))
    (h : s.writesAt A u) : s.writesAt A (l.foldl f u) := List.foldlRecOn _ _ h fun t ht x hx => hf x hx t ht

theorem State.writesAt_ite {c : Prop} [Decidable c] (h : s.writesAt A t) (k : s.writesAt A u) : s.writesAt A (if c then t else u) := by
  split
  · exact h
  · exact k

/-- The registers elsewhere stand. -/
theorem State.writesAt.keepsRegs (h : s.writesAt A u) (hK : ∀ a, K a → ¬ A a) : s.keepsRegs K u := by
  induction h with
  | same h => exact State.keepsRegs_of_regs h
  | write _ r w hr hu ih => exact ih.trans ((State.keepsRegs_wr (fun h => hK _ h hr) w).trans (State.keepsRegs_of_regs hu))

end

theorem State.keepsRegs.flag (h : s.keepsRegs K u) {r : Reg} (hr : K r.addr) (f : Fld) : u.flag r f = s.flag r f := by
  rw [State.flag, h.fld hr, State.flag]

end Sys2Proof.Machine

/-! What the maps of the partitions and their quotas say depends on a few registers and the shape. -/

namespace Sys2Proof.Machine

variable {s u : State} {p j : Nat}

/-- The registers of the management dies, and the quotas of the clusters. -/
def mapAddr (a : Nat) : Prop := mgtBase ≤ a ∨ (a % 0x4000000 < 0x200 ∧ 0x100 ≤ a % 0x4000000)

theorem mapAddr_mgtPart (p : Nat) : mapAddr (Reg.mgtPart p).addr := .inl (Nat.le_add_right _ _)

theorem clusterOffset_mod {o : Nat} (cl : Nat) (ho : o < 0x4000000) : (clBase cl + o) % 0x4000000 = o := by
  unfold clBase regBase
  omega

theorem coreOffset_mod {o : Nat} (c : Nat) (ho : o < 0x4000000) : (coreBase c + o) % 0x4000000 = o := by
  unfold coreBase regBase
  split <;> omega

theorem granary_below_mgt {g o : Nat} (hg : g < 24) (ho : o < 0x4000000) : grnBase g + o < mgtBase := by
  unfold grnBase mgtBase regBase
  omega

theorem granaryOffset_mod {o : Nat} (g : Nat) (ho : o < 0x4000000) : (grnBase g + o) % 0x4000000 = o := by
  unfold grnBase regBase
  omega

theorem mapAddr_clNquota (cl : Nat) (hj : j < 16) : mapAddr (Reg.clNquota cl j).addr := by
  refine .inr ?_
  show (clBase cl + (0x100 + 0x10 * j)) % 0x4000000 < 0x200 ∧ 0x100 ≤ (clBase cl + (0x100 + 0x10 * j)) % 0x4000000
  rw [clusterOffset_mod cl (by omega)]
  omega

theorem mapAddr_clLquota (cl : Nat) (hj : j < 16) : mapAddr (Reg.clLquota cl j).addr := by
  refine .inr ?_
  show (clBase cl + (0x108 + 0x10 * j)) % 0x4000000 < 0x200 ∧ 0x100 ≤ (clBase cl + (0x108 + 0x10 * j)) % 0x4000000
  rw [clusterOffset_mod cl (by omega)]
  omega

theorem not_mapAddr_cluster {cl o : Nat} (hc : cl < 288) (ho : o < 0x4000000) (hl : o < 0x100 ∨ 0x200 ≤ o) : ¬ mapAddr (clBase cl + o) := by
  rintro (h | h)
  · exact absurd (cluster_below_mgt hc ho) (Nat.not_lt.2 h)
  · rw [clusterOffset_mod cl ho] at h
    omega

theorem not_mapAddr_granary {g o : Nat} (hg : g < 24) (ho : o < 0x4000000) (hl : o < 0x100 ∨ 0x200 ≤ o) : ¬ mapAddr (grnBase g + o) := by
  rintro (h | h)
  · exact absurd (granary_below_mgt hg ho) (Nat.not_lt.2 h)
  · rw [granaryOffset_mod g ho] at h
    omega

/-- The partitions, their shape and their quotas are the same in both states. -/
structure State.sameMap (s u : State) : Prop where
  shape : u.shape = s.shape
  regs : s.keepsRegs mapAddr u

theorem State.sameMap.refl : s.sameMap s := ⟨rfl, .refl⟩

theorem State.sameMap.trans {v : State} (h : s.sameMap u) (k : u.sameMap v) : s.sameMap v := ⟨k.shape.trans h.shape, h.regs.trans k.regs⟩

theorem State.sameMap_of_regs (hr : u.regs = s.regs) (hs : u.shape = s.shape) : s.sameMap u := ⟨hs, State.keepsRegs_of_regs hr⟩

theorem State.sameMap_of_changes {M : List Field} (h : s.changes M u) (hr : .regs ∉ M := by decide) (hs : .shape ∉ M := by decide) : s.sameMap u := ⟨h.same .shape hs, State.keepsRegs_of_changes h hr⟩

namespace State.sameMap

variable (h : s.sameMap u)
include h

theorem dieIn (p d : Nat) : u.dieIn p d = s.dieIn p d := by
  simp only [State.dieIn, State.partEn, h.regs.flag (mapAddr_mgtPart p), h.regs.fld (mapAddr_mgtPart p)]

theorem dieHole (d : Nat) : u.dieHole d = s.dieHole d := by rw [State.dieHole, h.shape, State.dieHole]

theorem clusterHole (cl : Nat) : u.clusterHole cl = s.clusterHole cl := by rw [State.clusterHole, h.shape, State.clusterHole]

theorem coreHole (c : Nat) : u.coreHole c = s.coreHole c := by
  have hphys : u.physOf c = s.physOf c := by simp only [State.physOf, State.fallowPhys, State.coreMap, h.shape]
  rw [State.coreHole, hphys, h.shape, State.coreHole]

theorem partOfDie (d : Nat) : u.partOfDie d = s.partOfDie d := by simp only [State.partOfDie, h.dieIn]

theorem diesOf (p : Nat) : u.diesOf p = s.diesOf p := by simp only [State.diesOf, h.dieIn, h.dieHole]

theorem clustersOf (p : Nat) : u.clustersOf p = s.clustersOf p := by simp only [State.clustersOf, h.diesOf, h.clusterHole]

theorem coresOf (p : Nat) : u.coresOf p = s.coresOf p := by simp only [State.coresOf, h.clustersOf, h.coreHole]

theorem inNear (cl row : Nat) (hj : j < 16) : u.inNear cl j row = s.inNear cl j row := by
  have hbase : u.nearBase cl j = s.nearBase cl j := h.regs.fld (mapAddr_clNquota cl hj) _
  have hrows : u.nearRows cl j = s.nearRows cl j := h.regs.fld (mapAddr_clNquota cl hj) _
  rw [State.inNear, hbase, hrows, State.inNear]

theorem inLoft (cl row : Nat) (hj : j < 16) : u.inLoft cl j row = s.inLoft cl j row := by
  have hbase : u.loftBase cl j = s.loftBase cl j := h.regs.fld (mapAddr_clLquota cl hj) _
  have hrows : u.loftRows cl j = s.loftRows cl j := h.regs.fld (mapAddr_clLquota cl hj) _
  rw [State.inLoft, hbase, hrows, State.inLoft]

theorem partOfCluster (cl : Nat) : u.partOfCluster cl = s.partOfCluster cl := h.partOfDie _

theorem partOfCore (c : Nat) : u.partOfCore c = s.partOfCore c := h.partOfDie _

theorem quotaKeys (p k : Nat) (hj : j < 16) : u.quotaKeys p j k = s.quotaKeys p j k := by
  rw [State.quotaKeys, State.quotaKeys]
  congr 1
  · dsimp only
    rw [h.partOfCore, h.inNear _ _ hj]
  · dsimp only
    rw [h.partOfCluster, h.inLoft _ _ hj]

end State.sameMap

theorem mem_clustersOf {cl : Nat} (h : cl ∈ s.clustersOf p) : cl < 288 ∧ s.clusterHole cl = false ∧ cl / 8 ∈ s.diesOf p := by
  simp only [State.clustersOf, List.mem_flatMap, List.mem_filterMap, List.mem_range] at h
  obtain ⟨d, hd, k, hk, hc⟩ := h
  split at hc
  · cases hc
  · next hh =>
    cases hc
    have hd36 : d < 36 := List.mem_range.1 (List.mem_filter.1 hd).1
    refine ⟨by omega, by simpa using hh, ?_⟩
    rwa [show (8 * d + k) / 8 = d by omega]

theorem mem_jobChans {c : Nat × Nat} (h : c ∈ s.jobChans p j) : c.1 < 288 ∧ c.2 < 32 := by
  simp only [State.jobChans, List.mem_flatMap, List.mem_filterMap, List.mem_range] at h
  obtain ⟨cl, hcl, ch, hch, hc⟩ := h
  split at hc
  · cases hc
    exact ⟨(mem_clustersOf hcl).1, hch⟩
  · cases hc

theorem SMap.get_filter_key {α : Type} (d : Nat → α) (m : SMap α) (f : Nat → Bool) (k : Nat) :
    SMap.get d (m.filter fun x => f x.1) k = if f k then SMap.get d m k else d k := by
  have hfind : SMap.find? (m.filter fun x => f x.1) k = if f k then SMap.find? m k else none := by
    induction m with
    | nil => simp [SMap.find?]
    | cons x m ih =>
      obtain ⟨i, v⟩ := x
      by_cases hf : f i
      · rw [List.filter_cons_of_pos (by simpa using hf)]
        by_cases hi : i = k
        · subst hi; simp [SMap.find?, hf]
        · simp [SMap.find?, hi, ih]
      · rw [List.filter_cons_of_neg (by simpa using hf), ih]
        by_cases hi : i = k
        · subst hi; simp [hf]
        · simp [SMap.find?, hi]
  unfold SMap.get
  rw [hfind]
  split <;> simp_all

end Sys2Proof.Machine

/-! The end of a kill's drain: the scrub of its rows (R203). -/

namespace Sys2Proof.Machine

variable {s t u : State} {p j cl ch : Nat} {K : Nat → Prop}

/-- The registers of a cluster's DMA. -/
theorem keepsRegs_dmaOff (hK : ∀ o, 0x8000 ≤ o → o < 0x10000 → ¬ K (clBase cl + o)) (hch : ch < 32) (k : Chan) (both : Bool) :
    s.keepsRegs K ((((s.setChan cl ch k).setChState cl ch 0).syncChan cl ch).chanOff cl ch both) := by
  have hctrl : ¬ K (Reg.dmaCtrl cl ch).addr := hK _ (by omega) (by omega)
  have hcfg : ¬ K (Reg.dmaChcfg cl ch).addr := hK _ (by omega) (by omega)
  have h1 : s.keepsRegs K (((s.setChan cl ch k).setChState cl ch 0).syncChan cl ch) :=
    .trans (.trans (.trans (State.keepsRegs_of_regs (u := s.setChan cl ch k) rfl) (State.keepsRegs_setFld hctrl _ _)) (State.keepsRegs_setFld hctrl _ _))
      (State.keepsRegs_setFld hctrl _ _)
  have h2 : s.keepsRegs K ((((s.setChan cl ch k).setChState cl ch 0).syncChan cl ch).setFld (.dmaChcfg cl ch) F.dmaChcfgMode 0) :=
    h1.trans (State.keepsRegs_setFld hcfg _ _)
  unfold State.chanOff
  exact State.keepsRegs_ite (h2.trans (State.keepsRegs_of_regs rfl)) h2

theorem keepsRegs_syncBringups (hK : ∀ g, g < 24 → ¬ K (Reg.grnStatus g).addr) : s.keepsRegs K s.syncBringups :=
  State.keepsRegs_foldl (fun g hg _ ht => (ht.trans (State.keepsRegs_setFld (hK g (List.mem_range.1 hg)) _ _)).trans
    (State.keepsRegs_setFld (hK g (List.mem_range.1 hg)) _ _)) .refl

theorem not_mapAddr_grnStatus {g : Nat} (hg : g < 24) : ¬ mapAddr (Reg.grnStatus g).addr := not_mapAddr_granary hg (by decide) (by decide)

theorem State.sameMap_dropBringup (s : State) (i : Nat) : s.sameMap (s.dropBringup i) :=
  ⟨(State.changes_dropBringup ..).same .shape, by
    unfold State.dropBringup
    exact .trans (State.keepsRegs_of_changes (M := [.bringups, .waits]) ((State.changes_startBringups ..).after (State.changes_set_bringups_waits ..)))
      (keepsRegs_syncBringups fun _ => not_mapAddr_grnStatus)⟩

/-- The state after the channels of a job are off and its bring-ups given up, as its rows go. -/
def State.chansOff (s : State) (p j : Nat) : State :=
  (s.jobChans p j).foldl (fun (s : State) c =>
    ((s.setChan c.1 c.2 Chan.init).setChState c.1 c.2 0).syncChan c.1 c.2 |>.chanOff c.1 c.2 true) s

def State.bringupsOff (s : State) (p j : Nat) : State :=
  (s.tensorsOf p j).foldl (fun (s : State) i => if (s.tt i).res = 1 then s.dropBringup i else s) s

theorem State.sameMap_foldl {α : Type} {f : State → α → State} {l : List α} (hf : ∀ x ∈ l, ∀ t : State, t.sameMap (f t x)) : s.sameMap (l.foldl f s) := by
  induction l generalizing s with
  | nil => exact .refl
  | cons x l ih => exact (hf x List.mem_cons_self s).trans (ih fun y hy => hf y (List.mem_cons_of_mem _ hy))

theorem State.sameMap_chansOff (s : State) (p j : Nat) : s.sameMap (s.chansOff p j) :=
  State.sameMap_foldl fun c hc _ =>
    ⟨((State.changes_chanOff ..).after ((State.changes_syncChan ..).after ((State.changes_setChState ..).after ((State.changes_setChan ..).after
        (.refl (M := [.regs, .shadow, .chans]))))) : State.changes _ _ _).same .shape,
      keepsRegs_dmaOff (fun o hl ho => not_mapAddr_cluster (mem_jobChans hc).1 (by omega) (by omega)) (mem_jobChans hc).2 _ _⟩

theorem State.sameMap_bringupsOff (s : State) (p j : Nat) : s.sameMap (s.bringupsOff p j) :=
  State.sameMap_foldl fun i _ t => by
    split
    · exact t.sameMap_dropBringup i
    · exact .refl

/-- The rows of the job's quota go; every other stands. -/
theorem State.row_killScrub (hj : j < 16) (r : RowRef) :
    (s.killScrub p j).row r = if s.quotaKeys p j (rowKey r) then rowInit (rowKey r) else s.row r := by
  obtain ⟨v, hv⟩ : ∃ v, v = (s.chansOff p j).bringupsOff p j := ⟨_, rfl⟩
  have hmap : s.sameMap v := hv ▸ (s.sameMap_chansOff p j).trans (State.sameMap_bringupsOff _ p j)
  have hrows : v.rows = s.rows := hv ▸ ((State.changes_foldl (State.changes_foldl .refl fun _ _ ht => (State.changes_chanOff ..).after
    ((State.changes_syncChan ..).after ((State.changes_setChState ..).after ((State.changes_setChan ..).after ht)))) fun _ _ ht =>
      State.changes_ite ((State.changes_dropBringup ..).after ht) ht : s.changes [.regs, .shadow, .chans, .bringups, .waits] _).same .rows)
  obtain ⟨e, he⟩ : ∃ e, e = v.evict p j (v.quotaKeys p j) := ⟨_, rfl⟩
  have hevict : v.changes [.ctrs] e := he ▸ State.changes_evict ..
  have hmapE : s.sameMap e := hmap.trans (State.sameMap_of_changes hevict)
  obtain ⟨f, hf⟩ : ∃ f : State, f = { e with rows := e.rows.filter fun x => !e.quotaKeys p j x.1 } := ⟨_, rfl⟩
  have hfrow : f.row r = if s.quotaKeys p j (rowKey r) then rowInit (rowKey r) else s.row r := by
    rw [hf]
    show SMap.get rowInit (e.rows.filter fun x => !e.quotaKeys p j x.1) (rowKey r) = _
    rw [SMap.get_filter_key rowInit e.rows (fun k => !e.quotaKeys p j k), hmapE.quotaKeys _ _ hj, hevict.same .rows, hrows]
    cases s.quotaKeys p j (rowKey r) <;> rfl
  have hlast : s.killScrub p j = ((f.resetSilos p j true).dropCaches p).setJob p j
      { ((f.resetSilos p j true).dropCaches p).job p j with drained := true } := by
    rw [hf, he, hv]; rfl
  rw [hlast]
  exact (State.row_congr (((State.changes_setJob ..).after ((State.changes_dropCaches ..).after ((State.changes_resetSilos ..).after
    (.refl (M := [.regs, .shadow, .cores, .clus, .jobs]))))).same .rows) r).trans hfrow

theorem State.drained_killScrub (s : State) (p j : Nat) : ((s.killScrub p j).job p j).drained = true := by
  rw [State.killScrub, State.job_setJob_same]

end Sys2Proof.Machine
end

section
/-! Page entries, and frames that are written to zero (R209, R212, R215). -/

-- The frame conditions are evaluated in the kernel: theorems elaborated in parallel would each hold a thread while they wait for it.
set_option Elab.async false

namespace Sys2Proof.Machine

variable {s t u : State} {p q pg pg' j f : Nat} {w : Word}

/-! Where entries lie. -/

/-- The first row of the frames that hold the leaves. -/
def leafRows : Nat := 9141504 * 4096

theorem leafRows_le_leafPlace (p pg : Nat) : leafRows ≤ (leafPlace p pg).1 := by
  simp only [leafRows, leafPlace]
  omega

theorem leafPlace_word_lt (p pg : Nat) : (leafPlace p pg).2 < 64 := Nat.mod_lt _ (by decide)

theorem leafPlace_inj (hp : pg < 2 ^ 24) (hq : pg' < 2 ^ 24) (h : leafPlace p pg = leafPlace q pg') : p = q ∧ pg = pg' := by
  simp only [leafPlace, dirLeaf, Prod.mk.injEq] at h
  omega

/-! An entry that is written. -/

theorem LpRow.fixed_of (d : Row) : (LpRow.of d false).fixed = LpRow.of d false := LpRow.fixed_of_clean rfl

theorem State.fixed_lpTouch (s : State) (key k : Nat) : ((s.lpTouch key).lp k).fixed = (s.lp k).fixed := by
  obtain h | ⟨-, h⟩ := s.lp_lpTouch key k
  · rw [h]
  · rw [h, LpRow.fixed_fixed]

theorem bits_toNat_ofNat (w : Word) : BitVec.ofNat 64 (w.toNat % 2 ^ 64) = w := by
  rw [Nat.mod_eq_of_lt w.isLt, BitVec.ofNat_toNat]
  exact BitVec.setWidth_eq w

theorem State.lp_setPage (s : State) (p pg k : Nat) (w : Word) : ((s.setPage p pg w).lp k).fixed =
    if k = (leafPlace p pg).1 then .of (setBits (s.lp (leafPlace p pg).1).fixed.data (64 * (leafPlace p pg).2) 64 w.toNat) false else (s.lp k).fixed := by
  simp only [State.setPage, State.lp_lpWrite, State.fixed_lpTouch]
  split
  · exact LpRow.fixed_of _
  · exact s.fixed_lpTouch _ k

theorem State.pageOf_setPage (s : State) (p pg q pg' : Nat) (w : Word) : (s.setPage p pg w).pageOf q pg' =
    if leafPlace q pg' = leafPlace p pg then w else s.pageOf q pg' := by
  have hlt := leafPlace_word_lt p pg
  have hlt' := leafPlace_word_lt q pg'
  simp only [State.pageOf, State.lp_setPage]
  by_cases hk : (leafPlace q pg').1 = (leafPlace p pg).1
  · rw [if_pos hk]
    by_cases hw : (leafPlace q pg').2 = (leafPlace p pg).2
    · rw [if_pos (Prod.ext hk hw), hw]
      simp only [LpRow.of]
      rw [bits_setBits_same _ _ _ _ (by omega), bits_toNat_ofNat]
    · rw [if_neg fun h => hw (congrArg Prod.snd h), hk]
      simp only [LpRow.of]
      rw [bits_setBits_apart _ _ _ _ _ _ (by omega)]
  · rw [if_neg hk, if_neg fun h => hk (congrArg Prod.fst h)]

theorem State.pageOf_congr (h : u.lpddr = s.lpddr) (p pg : Nat) : u.pageOf p pg = s.pageOf p pg := by
  simp only [State.pageOf, State.lp_congr h]

/-! Frames. -/

/-- The rows of a frame and its granules are forgotten. -/
def State.clearFrame (s : State) (f : Nat) : State :=
  { s with lpddr := s.lpddr.filter fun p => !decide (f * 4096 ≤ p.1 ∧ p.1 < (f + 1) * 4096),
           epoch := s.epoch.filter fun p => !decide (f * 512 ≤ p.1 ∧ p.1 < (f + 1) * 512) }

theorem State.lp_clearFrame (s : State) (f k : Nat) : (s.clearFrame f).lp k = if f * 4096 ≤ k ∧ k < (f + 1) * 4096 then lpInit k else s.lp k := by
  show SMap.get lpInit (List.filter (fun x : Nat × LpRow => !decide (f * 4096 ≤ x.1 ∧ x.1 < (f + 1) * 4096)) s.lpddr) k = _
  rw [SMap.get_filter_key lpInit s.lpddr (fun k => !decide (f * 4096 ≤ k ∧ k < (f + 1) * 4096))]
  by_cases hk : f * 4096 ≤ k ∧ k < (f + 1) * 4096
  · rw [if_neg (by simp [hk]), if_pos hk]
  · rw [if_pos (by simp [hk]), if_neg hk, State.lp]

theorem State.lp_zeroFrame (s : State) (f k : Nat) : (s.zeroFrame f).lp k = if f * 4096 ≤ k ∧ k < (f + 1) * 4096 then lpInit k else s.lp k :=
  (State.lp_clearFrame _ f k).trans (congrArg _ (State.lp_congr ((State.changes_foldl .refl fun _ _ ht =>
    (State.changes_lpCheck ..).after ht : s.changes [.ctrs, .checks] _).same .lpddr) k))

/-- Entries lie in frames that hold no page. -/
theorem State.pageOf_zeroFrame (hf : f < 9141504) (s : State) (p pg : Nat) : (s.zeroFrame f).pageOf p pg = s.pageOf p pg := by
  have hl := leafRows_le_leafPlace p pg
  simp only [State.pageOf, State.lp_zeroFrame]
  rw [if_neg (by unfold leafRows at hl; omega)]

/-! Pages that become ABSENT. -/

theorem State.newPage_zero (s : State) (p pg : Nat) : s.newPage p pg 0 = (s.dropTrans p pg).setPage p pg 0 := rfl

theorem SMap.mem_of_mem_erase {α : Type} {m : SMap α} {k : Nat} {x : Nat × α} (h : x ∈ SMap.erase m k) : x ∈ m := by
  induction m with
  | nil => exact h
  | cons y m ih =>
    obtain ⟨i, v⟩ := y
    rw [SMap.erase] at h
    split at h
    · exact List.mem_cons_of_mem _ (ih h)
    · obtain rfl | h := List.mem_cons.1 h
      · exact List.mem_cons_self
      · exact List.mem_cons_of_mem _ (ih h)

theorem SMap.mem_of_find? {α : Type} {m : SMap α} {k : Nat} {v : α} (h : SMap.find? m k = some v) : (k, v) ∈ m := by
  induction m with
  | nil => cases h
  | cons y m ih =>
    obtain ⟨i, w⟩ := y
    rw [SMap.find?] at h
    split at h
    · next hi => cases h; cases hi; exact List.mem_cons_self
    · exact List.mem_cons_of_mem _ (ih h)

theorem SMap.mem_of_get_ne {α : Type} {d : Nat → α} {m : SMap α} {k : Nat} (h : SMap.get d m k ≠ d k) : (k, SMap.get d m k) ∈ m := by
  unfold SMap.get at h ⊢
  cases hv : SMap.find? m k with
  | none => rw [hv] at h; exact absurd rfl h
  | some v => exact SMap.mem_of_find? hv

/-- Every frame that a move of a page is under way to may be assigned. -/
def State.movesInFrames (s : State) : Prop := ∀ m ∈ s.moves, ∀ x, m.2 = some x → x.frame < 9141504

/-- The frame that a page's move has taken is zero again. -/
def State.moveGone (s : State) (p pg : Nat) : State :=
  match SMap.get (fun _ => none) s.moves (pageKey p pg) with
  | some x => if x.out then s else s.zeroFrame x.frame
  | none => s

theorem State.changes_moveGone (s : State) (p pg : Nat) : s.changes [.ctrs, .lpddr, .checks, .epoch] (s.moveGone p pg) := by
  unfold State.moveGone
  split
  · exact State.changes_ite .refl (State.changes_zeroFrame ..)
  · exact .refl

theorem State.pageOf_moveGone (hm : s.movesInFrames) (p pg q pg' : Nat) : (s.moveGone p pg).pageOf q pg' = s.pageOf q pg' := by
  unfold State.moveGone
  split
  · next x hx =>
    split
    · rfl
    · refine State.pageOf_zeroFrame (hm (pageKey p pg, some x) ?_ x rfl) ..
      rw [← hx]
      exact SMap.mem_of_get_ne (by rw [hx]; nofun)
  · rfl

/-- The page's entry is 0. -/
def State.entryGone (s : State) (p pg : Nat) : State := (((s.moveGone p pg).noMove p pg).dropTrans p pg).setPage p pg 0

theorem State.changes_entryGone (s : State) (p pg : Nat) : s.changes [.outbox, .regs, .ctrs, .lpddr, .checks, .window, .moves, .ceRows, .copying, .epoch,
    .walk, .cores, .clus, .gates, .mbxWaits, .evHead, .evLost, .evOver, .nv, .shape] (s.entryGone p pg) :=
  (State.changes_setPage ..).after ((State.changes_dropTrans ..).after ((State.changes_noMove ..).after ((State.changes_moveGone ..).after .refl)))

theorem State.pageOf_entryGone (hm : s.movesInFrames) (p pg q pg' : Nat) :
    (s.entryGone p pg).pageOf q pg' = if leafPlace q pg' = leafPlace p pg then 0 else s.pageOf q pg' := by
  rw [State.entryGone, State.pageOf_setPage, State.pageOf_congr (u := ((s.moveGone p pg).noMove p pg).dropTrans p pg) (s := s.moveGone p pg) rfl,
    State.pageOf_moveGone hm]

theorem State.unmap_eq (s : State) (p pg : Nat) : s.unmap p pg = match pgState (s.pageOf p pg) with
    | 1 => (s.entryGone p pg).zeroFrame (pgFrame (s.pageOf p pg))
    | 2 => (s.entryGone p pg).post 10 p (pgJob (s.pageOf p pg)) 0 [(8, 3, pg), (12, 3, pgFrame (s.pageOf p pg))]
    | _ => s.entryGone p pg := by
  unfold State.unmap State.entryGone State.moveGone
  rfl

/-- What unmapping changes. -/
theorem State.changes_unmap_rows (s : State) (p pg : Nat) : s.changes [.outbox, .regs, .ctrs, .lpddr, .checks, .window, .moves, .ceRows, .copying, .epoch,
    .walk, .cores, .clus, .gates, .mbxWaits, .evHead, .evLost, .evOver, .nv, .shape] (s.unmap p pg) := by
  rw [State.unmap_eq]
  split
  · exact (State.changes_zeroFrame ..).after (State.changes_entryGone ..)
  · exact (State.changes_post ..).after (State.changes_entryGone ..)
  · exact State.changes_entryGone ..

theorem State.moves_unmap (s : State) (p pg : Nat) : (s.unmap p pg).moves = SMap.erase s.moves (pageKey p pg) := by
  have hg : (s.moveGone p pg).moves = s.moves := (s.changes_moveGone p pg).same .moves
  have he : (s.entryGone p pg).moves = SMap.erase s.moves (pageKey p pg) :=
    ((State.changes_setPage (s := ((s.moveGone p pg).noMove p pg).dropTrans p pg) ..).same .moves).trans (by
      show SMap.erase (s.moveGone p pg).moves (pageKey p pg) = _
      rw [hg])
  rw [State.unmap_eq]
  split
  · exact ((State.changes_zeroFrame ..).same .moves).trans he
  · exact ((State.changes_post ..).same .moves).trans he
  · exact he

theorem State.movesInFrames_unmap (h : s.movesInFrames) (p pg : Nat) : (s.unmap p pg).movesInFrames := fun m hm => by
  rw [State.moves_unmap] at hm
  exact h m (SMap.mem_of_mem_erase hm)

theorem State.pageOf_unmap (hm : s.movesInFrames) (hf : pgState (s.pageOf p pg) = 1 → pgFrame (s.pageOf p pg) < 9141504) (q pg' : Nat) :
    (s.unmap p pg).pageOf q pg' = if leafPlace q pg' = leafPlace p pg then 0 else s.pageOf q pg' := by
  rw [← State.pageOf_entryGone hm, State.unmap_eq]
  split
  · next h1 => exact State.pageOf_zeroFrame (hf h1) ..
  · exact State.pageOf_congr ((State.changes_post ..).same .lpddr) ..
  · rfl

/-! Pages of a list that become ABSENT. -/

theorem State.unmapAll (hm : s.movesInFrames) (l : List Nat) (hl : ∀ pg ∈ l, pg < 2 ^ 24)
    (hf : ∀ pg ∈ l, pgFrame (s.pageOf p pg) < 9141504) :
    (∀ q pg, pg < 2 ^ 24 → (l.foldl (fun (s : State) pg => s.unmap p pg) s).pageOf q pg = if q = p ∧ pg ∈ l then 0 else s.pageOf q pg) := by
  induction l generalizing s with
  | nil => intro q pg _; simp
  | cons x l ih =>
    intro q pg hpg
    have hx : x < 2 ^ 24 := hl x List.mem_cons_self
    have hone := State.pageOf_unmap hm fun _ => hf x List.mem_cons_self
    have hstep : ∀ y ∈ l, pgFrame ((s.unmap p x).pageOf p y) < 9141504 := fun y hy => by
      rw [hone]
      split
      · decide
      · exact hf y (List.mem_cons_of_mem _ hy)
    rw [List.foldl_cons, ih (State.movesInFrames_unmap hm p x) (fun y hy => hl y (List.mem_cons_of_mem _ hy)) hstep q pg hpg, hone q pg]
    by_cases hpx : q = p ∧ pg = x
    · obtain ⟨rfl, rfl⟩ := hpx
      simp
    · have hne : leafPlace q pg ≠ leafPlace p x := fun h => hpx (leafPlace_inj hpg hx h)
      have hmem : (q = p ∧ pg ∈ x :: l) ↔ (q = p ∧ pg ∈ l) := by
        simp only [List.mem_cons]
        constructor
        · rintro ⟨h, rfl | h'⟩
          · exact absurd ⟨h, rfl⟩ hpx
          · exact ⟨h, h'⟩
        · rintro ⟨h, h'⟩
          exact ⟨h, .inr h'⟩
      simp only [if_neg hne, hmem]

theorem SMap.lt_of_above {α : Type} {m : SMap α} {k : Nat} {x : Nat × α} (h : SMap.above k m = true) (hx : x ∈ m) : k < x.1 := by
  induction m with
  | nil => cases hx
  | cons y m ih =>
    obtain ⟨i, v⟩ := y
    simp only [SMap.above, Bool.and_eq_true, decide_eq_true_eq] at h
    obtain rfl | hx := List.mem_cons.1 hx
    · exact h.1
    · exact ih h.2 hx

theorem SMap.get_of_mem {α : Type} [DecidableEq α] {d : Nat → α} {m : SMap α} {x : Nat × α} (h : SMap.wf d m = true) (hx : x ∈ m) :
    SMap.get d m x.1 = x.2 := by
  have hfind : SMap.find? m x.1 = some x.2 := by
    induction m with
    | nil => cases hx
    | cons y m ih =>
      obtain ⟨i, v⟩ := y
      simp only [SMap.wf, Bool.and_eq_true] at h
      obtain ⟨⟨habove, -⟩, hwf⟩ := h
      obtain rfl | hx := List.mem_cons.1 hx
      · simp [SMap.find?]
      · rw [SMap.find?, if_neg (Nat.ne_of_lt (SMap.lt_of_above habove hx)), ih hwf hx]
  rw [SMap.get, hfind]
  rfl

theorem State.wf_lpddr (h : s.storesWf = true) : SMap.wf lpInit s.lpddr = true := by
  simp only [State.storesWf, Bool.and_eq_true] at h
  obtain ⟨⟨⟨⟨⟨-, hlp⟩, -⟩, -⟩, -⟩, -⟩ := h
  exact hlp

/-- A listed page is the one that its entry stands for. -/
theorem State.pageOf_of_mem_pageList (h : s.storesWf = true) {x : Nat × Word} (hx : x ∈ s.pageList) : s.pageOf (x.1 / 2 ^ 24) (x.1 % 2 ^ 24) = x.2 := by
  simp only [State.pageList, List.mem_flatMap, List.mem_filter, List.mem_filterMap, List.mem_range, decide_eq_true_eq] at hx
  obtain ⟨y, ⟨hy, hle⟩, i, hi, hw⟩ := hx
  split at hw
  · cases hw
  · cases hw
    have hlp : s.lp y.1 = y.2 := SMap.get_of_mem (State.wf_lpddr h) hy
    dsimp only
    have hplace : leafPlace (((y.1 - 9141504 * 4096) / 64 * 4096 + (y.1 - 9141504 * 4096) % 64 * 64 + i) / 2 ^ 24)
        (((y.1 - 9141504 * 4096) / 64 * 4096 + (y.1 - 9141504 * 4096) % 64 * 64 + i) % 2 ^ 24) = (y.1, i) := by
      simp only [leafPlace, dirLeaf, Prod.mk.injEq]
      omega
    rw [State.pageOf, hplace, hlp]

theorem State.mem_jobPages {pg : Nat} (h : pg ∈ s.jobPages p j) : ∃ x ∈ s.pageList, p = x.1 / 2 ^ 24 ∧ pg = x.1 % 2 ^ 24 := by
  simp only [State.jobPages, List.mem_filterMap] at h
  obtain ⟨x, hx, hc⟩ := h
  split at hc
  · next hp => cases hc; exact ⟨x, hx, hp.1.symm, rfl⟩
  · cases hc

/-- The pages of a scrubbed job are ABSENT, the others stand (R203, R215). -/
theorem State.pageOf_killPages (hwf : s.storesWf = true) (hpages : ∀ x ∈ s.pageList, pgFrame x.2 < 9141504) (hm : s.movesInFrames) (q : Nat) {pg : Nat}
    (hpg : pg < 2 ^ 24) : (s.killPages p j).pageOf q pg = if q = p ∧ pg ∈ s.jobPages p j then 0 else s.pageOf q pg := by
  refine (State.pageOf_congr ((State.changes_setJob ..).same .lpddr) q pg).trans (State.unmapAll hm _ (fun x hx => ?_) (fun x hx => ?_) q pg hpg)
  · obtain ⟨y, -, -, rfl⟩ := State.mem_jobPages hx
    exact Nat.mod_lt _ (by decide)
  · obtain ⟨y, hy, rfl, rfl⟩ := State.mem_jobPages hx
    rw [State.pageOf_of_mem_pageList hwf hy]
    exact hpages y hy

theorem State.changes_killPages_rows (s : State) (p j : Nat) : s.changes [.outbox, .regs, .ctrs, .lpddr, .checks, .window, .moves, .ceRows, .copying,
    .epoch, .walk, .cores, .clus, .gates, .mbxWaits, .evHead, .evLost, .evOver, .nv, .shape, .jobs] (s.killPages p j) :=
  (State.changes_setJob ..).after (State.changes_foldl .refl fun _ _ ht => (State.changes_unmap_rows ..).after ht)

theorem State.job_killPages (s : State) (p j : Nat) : (s.killPages p j).job p j = { s.job p j with scrubbed := true } := by
  obtain ⟨v, hv⟩ : ∃ v, v = (s.jobPages p j).foldl (fun (s : State) pg => s.unmap p pg) s := ⟨_, rfl⟩
  have hjobs : v.jobs = s.jobs := hv ▸ (State.changes_foldl .refl fun _ _ ht => (State.changes_unmap_rows ..).after ht :
    s.changes [.outbox, .regs, .ctrs, .lpddr, .checks, .window, .moves, .ceRows, .copying, .epoch, .walk, .cores, .clus, .gates, .mbxWaits,
      .evHead, .evLost, .evOver, .nv, .shape] _).same .jobs
  rw [State.killPages]
  dsimp only
  rw [← hv, State.job_setJob_same]
  simp only [State.job, hjobs]

end Sys2Proof.Machine
end

section
/-! The end of a partition's reset, and of the close of a hatch (R318, R344). -/

-- The frame conditions are evaluated in the kernel: theorems elaborated in parallel would each hold a thread while they wait for it.
set_option Elab.async false

namespace Sys2Proof.Machine

variable {s t u v : State} {p j n : Nat}

/-! The units of a partition that are reset. -/

/-- The units of the partition are as after power-on. -/
def State.unitsGone (s : State) (p : Nat) : State :=
  let inCl := fun (cl : Nat) => (s.diesOf p).contains (cl / 8)
  { s with
    rows := s.rows.filter fun x => !inCl (if x.1 < 2 ^ 32 then x.1 / 8192 / 8 else (x.1 - 2 ^ 32) / 2 ^ 20),
    engs := s.engs.filter fun x => !inCl (x.1 / 16),
    cores := SMap.mapVals (fun _ => Core.init) (fun i (k : Core) => if inCl (i / 8) then
      { Core.init with ueBeats := k.ueBeats, ceBeats := k.ceBeats, mmBeats := k.mmBeats, dead := k.dead } else k) s.cores,
    clus := SMap.mapVals (fun _ => Clus.init) (fun i (k : Clus) => if inCl i then { Clus.init with ceBeats := k.ceBeats } else k) s.clus,
    chans := s.chans.filter fun x => !inCl (x.1 / 32),
    tasks := s.tasks.filter fun t => !inCl t.cl,
    groups := s.groups.filter fun g => !inCl g.cl,
    late := s.late.filter fun b => !decide ((armAddr b) / 0x10000000000 % 16 = 0 ∧ inCl (8 * regIndex (armAddr b) + (regUnit (armAddr b) - 1))),
    regs := s.regs.filter fun x => !s.resetsReg p x.1,
    shadow := s.shadow.filter fun x => !s.resetsReg p x.1 }

theorem State.resetUnits_eq (s : State) (p : Nat) : ∃ t : State, s.resetUnits p = t.setPart p
    { s.part p with phase := 0, gleanLearn := false, request := none, resetOver := true }
      ∧ (s.unitsGone p).changes [.regs] t ∧ (s.unitsGone p).keepsRegs (fun a => mgtBase ≤ a) t := by
  have hch : (s.unitsGone p).changes [.regs] ((s.clustersOf p).foldl (fun (s : State) cl => s.syncSuspect cl) (s.unitsGone p)) :=
    State.changes_foldl .refl fun _ _ ht => (State.changes_syncSuspect ..).after ht
  have hparts : ((s.clustersOf p).foldl (fun (s : State) cl => s.syncSuspect cl) (s.unitsGone p)).part p = s.part p := by
    rw [State.part, hch.same .parts]
    rfl
  refine ⟨_, ?_, hch, State.keepsRegs_foldl (fun cl hcl t ht => ht.trans (State.keepsRegs_setFld ?_ _ _)) .refl⟩
  · rw [← hparts]; rfl
  · exact Nat.not_le.2 (cluster_below_mgt (mem_clustersOf hcl).1 (by decide))

theorem not_resetsReg_mgtPart (hp : p < 12) (q : Nat) : s.resetsReg q (Reg.mgtPart p).addr = false := by
  have hsite : regSite (Reg.mgtPart p).addr = 3 := by
    show (mgtBase + (0x2000 + 0x10 * p)) / 0x10000000000 % 16 = 3
    unfold mgtBase regBase
    omega
  rw [State.resetsReg, hsite]
  rfl

theorem State.rd_mgtPart_unitsGone (hp : p < 12) (q : Nat) : (s.unitsGone q).rd (.mgtPart p) = s.rd (.mgtPart p) := by
  show SMap.get resetAt (s.regs.filter fun x => !s.resetsReg q x.1) _ = _
  rw [SMap.get_filter_key resetAt s.regs (fun a => !s.resetsReg q a), not_resetsReg_mgtPart hp]
  rfl

theorem State.diesOf_congr (hs : u.shape = s.shape) (hr : u.rd (.mgtPart p) = s.rd (.mgtPart p)) : u.diesOf p = s.diesOf p := by
  have hin : ∀ d, u.dieIn p d = s.dieIn p d := fun d => by
    simp only [State.dieIn, State.partEn, State.flag, State.fld_congr hr]
  simp only [State.diesOf, hin, State.dieHole, hs]

theorem State.diesOf_lt {d : Nat} (h : d ∈ s.diesOf p) : d < 36 := List.mem_range.1 (List.mem_filter.1 h).1

/-- The near rows of a core in the partition are reset, those of another stand. -/
theorem State.near_unitsGone {c r : Nat} (hc : c < 2304) (hr : r < 8192) :
    (s.unitsGone p).row (.near c r) = if c / 64 ∈ s.diesOf p then rowInit (c * 8192 + r) else s.row (.near c r) := by
  show SMap.get rowInit (s.rows.filter fun x => !(s.diesOf p).contains ((if x.1 < 2 ^ 32 then x.1 / 8192 / 8 else (x.1 - 2 ^ 32) / 2 ^ 20) / 8)) _ = _
  rw [SMap.get_filter_key rowInit s.rows (fun k => !(s.diesOf p).contains ((if k < 2 ^ 32 then k / 8192 / 8 else (k - 2 ^ 32) / 2 ^ 20) / 8))]
  have hkey : rowKey (.near c r) = c * 8192 + r := rfl
  have hlt : c * 8192 + r < 2 ^ 32 := by omega
  have hdie : (c * 8192 + r) / 8192 / 8 / 8 = c / 64 := by omega
  rw [hkey, if_pos hlt, hdie, State.row, hkey]
  by_cases hd : c / 64 ∈ s.diesOf p
  · simp [hd]
  · simp [hd]

/-! Control cores that are restarted. -/

theorem mem_dedup {α : Type} [DecidableEq α] {l : List α} {a : α} (h : a ∈ l) : a ∈ dedup l := by
  induction l with
  | nil => cases h
  | cons x l ih =>
    rw [dedup]
    by_cases hx : a = x
    · exact hx ▸ List.mem_cons_self
    · obtain rfl | h := List.mem_cons.1 h
      · exact absurd rfl hx
      · exact List.mem_cons_of_mem _ (List.mem_filter.2 ⟨ih h, by simpa using hx⟩)

theorem State.dieHole_fence {d : Nat} {dies : List Nat} (h : d ∈ dies) (s : State) (cls : List Nat) : (s.fence dies cls).dieHole d = true := by
  show (sortBy id (dedup (s.shape.dieHoles ++ dies))).contains d = true
  exact List.contains_iff_mem.2 (mem_sortBy.2 (mem_dedup (List.mem_append_right _ h)))

theorem State.shape_newShape (s : State) : s.newShape.shape = { s.shape with gen := s.shape.gen + 1 } := by
  unfold State.newShape
  exact (State.changes_post ..).same .shape

theorem State.dieHole_newShape (s : State) (d : Nat) : s.newShape.writeRoutes.dieHole d = s.dieHole d := by
  rw [State.dieHole, State.changes_writeRoutes.same .shape, State.shape_newShape, State.dieHole]

theorem State.rd_newShape_below_events {r : Reg} (h : ∀ x ∈ eventRegs, r.addr ≠ x.addr) (s : State) : s.newShape.rd r = s.rd r := by
  unfold State.newShape
  exact State.rd_post_ne h ..

theorem eventRegs_from {r : Reg} (h : r ∈ eventRegs) : mgtBase + 0x5000 ≤ r.addr := by
  have hle : eventRegs.all (fun r => decide (mgtBase + 0x5000 ≤ r.addr)) = true := by decide
  simpa using List.all_eq_true.1 hle r h

theorem mgtPart_ne_eventRegs (hp : p < 12) : ∀ x ∈ eventRegs, (Reg.mgtPart p).addr ≠ x.addr := fun x hx => by
  have ha : (Reg.mgtPart p).addr = mgtBase + (0x2000 + 0x10 * p) := rfl
  have hle := eventRegs_from hx
  omega

/-- The restart of the control cores leaves the partition's register. -/
theorem State.rd_mgtPart_restartCores (hp : p < 12) (s : State) (q : Nat) (damaged : List (Nat × Nat × List Byte)) :
    (s.restartCores q damaged).rd (.mgtPart p) = s.rd (.mgtPart p) := by
  unfold State.restartCores
  extract_lets src f dies cls
  split
  · rfl
  · rw [State.rd_congr (State.changes_writeRoutes.same .regs), State.rd_newShape_below_events (mgtPart_ne_eventRegs hp),
      State.rd_congr ((State.changes_fence ..).same .regs)]

/-- A die whose portion of the image fails is a hole. -/
theorem State.dieHole_restartCores {d : Nat} {damaged : List (Nat × Nat × List Byte)} (hd : d ∈ s.diesOf p) (hh : s.dieHole d = false)
    (hf : s.portionOk { BringIn.none with damaged := damaged } (agentDie d) = false) : (s.restartCores p damaged).dieHole d = true := by
  unfold State.restartCores
  extract_lets src f dies cls
  have hmem : d ∈ dies := List.mem_filter.2 ⟨hd, by rw [hh, hf]; rfl⟩
  rw [if_neg (by rw [List.isEmpty_eq_false_iff.2 (List.ne_nil_of_mem hmem)]; simp), State.dieHole_newShape]
  exact State.dieHole_fence hmem ..

theorem State.portionOk_congr (h : u.sec = s.sec) (f : BringIn) (a : Nat) : u.portionOk f a = s.portionOk f a := by
  have hr : u.received f a = s.received f a := by
    funext k
    rw [State.received, h, State.received]
  rw [State.portionOk, hr, h, State.portionOk]

theorem State.tasks_unitsGone {k : Task} (h : k ∈ (s.unitsGone p).tasks) : k ∈ s.tasks ∧ k.cl / 8 ∉ s.diesOf p := by
  obtain ⟨hk, hc⟩ := List.mem_filter.1 (show k ∈ s.tasks.filter fun t => !(s.diesOf p).contains (t.cl / 8) from h)
  exact ⟨hk, by simpa using hc⟩

theorem execPartitionResetDone_ends (hp : p < 12) {damaged : List (Nat × Nat × List Byte)} (hr : s.resetting p = true)
    (ho : (s.part p).resetOver = false) (hf : ∀ j, j < 16 → (s.job p j).stat = .free) (hq : s.partQuiet p = true) :
    ∃ u, exec (.partitionResetDone ⟨p, damaged⟩) s = .next u
      ∧ (∀ d ∈ s.diesOf p, s.dieHole d = false → s.portionOk { BringIn.none with damaged := damaged } (agentDie d) = false → u.dieHole d = true)
      ∧ u.fld (.mgtPart p) F.mgtPartState = 2 ∧ u.part p = { s.part p with phase := 0, gleanLearn := false, request := none, resetOver := true }
      ∧ (∀ t ∈ u.tasks, t ∈ s.tasks ∧ t.cl / 8 ∉ s.diesOf p)
      ∧ (∀ c r, c < 2304 → r < 8192 →
          u.row (.near c r) = if c / 64 ∈ s.diesOf p then rowInit (c * 8192 + r) else s.row (.near c r)) ∧ u.lpddr = s.lpddr := by
  have hjobs : ((List.range 16).all fun j => decide ((s.job p j).stat = .free)) = true :=
    List.all_eq_true.2 fun j hj => decide_eq_true (hf j (List.mem_range.1 hj))
  have he : exec (.partitionResetDone ⟨p, damaged⟩) s = .next ((s.resetUnits p).restartCores p damaged) := by
    show execPartitionResetDone ⟨p, damaged⟩ s = _
    rw [execPartitionResetDone, unitOk, if_pos (by simpa using hp), need, if_pos (by rw [hr, ho, hjobs, hq]; rfl)]
  obtain ⟨t, hu, hch, hregs⟩ := s.resetUnits_eq p
  have hset : t.changes [.parts] (s.resetUnits p) := hu ▸ State.changes_setPart ..
  have hend : (s.resetUnits p).changes Writes.restartCores ((s.resetUnits p).restartCores p damaged) := State.changes_restartCores ..
  have hrd : (s.resetUnits p).rd (.mgtPart p) = s.rd (.mgtPart p) :=
    (State.rd_congr (hset.same .regs) _).trans ((hregs _ (Nat.le_add_right _ _)).trans (State.rd_mgtPart_unitsGone hp p))
  have hdies : (s.resetUnits p).diesOf p = s.diesOf p := State.diesOf_congr ((hset.same .shape).trans (hch.same .shape)) hrd
  have hsec : (s.resetUnits p).sec = s.sec := (hset.same .sec).trans (hch.same .sec)
  have hhole : ∀ d, (s.resetUnits p).dieHole d = s.dieHole d := fun d => by
    rw [State.dieHole, hset.same .shape, hch.same .shape]; rfl
  refine ⟨_, he, fun d hd hh hfail => ?_, ?_, ?_, fun k hk => ?_, fun c r hc hr => ?_, ?_⟩
  · exact State.dieHole_restartCores (hdies ▸ hd) ((hhole d).trans hh) ((State.portionOk_congr hsec _ _).trans hfail)
  · rw [State.fld_congr (State.rd_mgtPart_restartCores hp _ _ _), State.fld_congr hrd]
    simpa [State.resetting] using hr
  · rw [State.part, hend.same .parts, hu]
    exact State.part_setPart_same ..
  · rw [hend.same .tasks, hset.same .tasks, hch.same .tasks] at hk
    exact State.tasks_unitsGone hk
  · rw [State.row_congr ((hend.same .rows).trans ((hset.same .rows).trans (hch.same .rows))), State.near_unitsGone hc hr]
  · exact (hend.same .lpddr).trans ((hset.same .lpddr).trans (hch.same .lpddr))

end Sys2Proof.Machine

/-! Hatches whose state changes (R344). -/

namespace Sys2Proof.Machine

variable {s u : State} {n k g : Nat}

theorem State.rd_setBoth_same (s : State) (r : Reg) (lo len v : Nat) : (s.setBoth r lo len v).rd r = setBits (s.rd r) lo len v := State.rd_wr_same ..

theorem State.rd_setBoth_ne {r x : Reg} (h : x.addr ≠ r.addr) (s : State) (lo len v : Nat) : (s.setBoth r lo len v).rd x = s.rd x :=
  State.rd_wr_ne _ _ h

/-- Replicas that all take a field leave every other register. -/
theorem State.rd_replicas_ne {f : Nat → Reg} {x : Reg} (l : List Nat) (h : ∀ g ∈ l, x.addr ≠ (f g).addr) (s : State) (lo len v : Nat) :
    (l.foldl (fun (s : State) g => s.setBoth (f g) lo len v) s).rd x = s.rd x := by
  induction l generalizing s with
  | nil => rfl
  | cons y l ih => rw [List.foldl_cons, ih (fun g hg => h g (List.mem_cons_of_mem _ hg)), State.rd_setBoth_ne (h y List.mem_cons_self)]

/-- Each replica takes the field. -/
theorem State.rd_replicas {f : Nat → Reg} {l : List Nat} (hl : l.Nodup) (h : ∀ a ∈ l, ∀ b ∈ l, a ≠ b → (f a).addr ≠ (f b).addr) (hg : g ∈ l)
    (s : State) (lo len v : Nat) : (l.foldl (fun (s : State) g => s.setBoth (f g) lo len v) s).rd (f g) = setBits (s.rd (f g)) lo len v := by
  induction l generalizing s with
  | nil => cases hg
  | cons y l ih =>
    obtain ⟨hy, hl⟩ := List.nodup_cons.1 hl
    rw [List.foldl_cons]
    by_cases he : g = y
    · subst he
      rw [State.rd_replicas_ne l fun a ha => h g List.mem_cons_self a (List.mem_cons_of_mem _ ha) fun e => hy (e ▸ ha), State.rd_setBoth_same]
    · have hg : g ∈ l := (List.mem_cons.1 hg).resolve_left he
      rw [ih hl (fun a ha b hb => h a (List.mem_cons_of_mem _ ha) b (List.mem_cons_of_mem _ hb)) hg,
        State.rd_setBoth_ne (h g (List.mem_cons_of_mem _ hg) y List.mem_cons_self he)]

theorem hatchEntry_ne {g h n k i j : Nat} (_ : g < 4) (_ : h < 4) (hn : n < 1024) (hk : k < 1024) (hi : i < 8) (hj : j < 8)
    (hne : g ≠ h ∨ n ≠ k ∨ i ≠ j) : (Reg.hatchEntry g n i).addr ≠ (Reg.hatchEntry h k j).addr := by
  show gateBase g + 0x80000 + 64 * n + 8 * i ≠ gateBase h + 0x80000 + 64 * k + 8 * j
  unfold gateBase regBase
  omega

theorem State.homeGate_lt (s : State) : s.homeGate < 4 := by
  unfold State.homeGate
  cases h : (List.range 4).find? fun g => !s.shape.deadGate.contains g with
  | none => decide
  | some g => exact List.mem_range.1 (List.mem_of_find?_eq_some h)

theorem State.rd_hatchSet_word (s : State) (hg : g < 4) (hn : n < 1024) (lo len v : Nat) :
    (s.hatchSet n lo len v).rd (.hatchEntry g n 0) = setBits (s.rd (.hatchEntry g n 0)) lo len v :=
  State.rd_replicas (f := fun g => .hatchEntry g n 0) List.nodup_range
    (fun _ ha _ hb hne => hatchEntry_ne (List.mem_range.1 ha) (List.mem_range.1 hb) hn hn (by decide) (by decide) (.inl hne)) (List.mem_range.2 hg) s lo len v

theorem State.rd_hatchSet_apart (s : State) {i : Nat} (hg : g < 4) (hn : n < 1024) (hk : k < 1024) (hi : i < 8) (hne : n ≠ k ∨ i ≠ 0) (lo len v : Nat) :
    (s.hatchSet n lo len v).rd (.hatchEntry g k i) = s.rd (.hatchEntry g k i) :=
  State.rd_replicas_ne (f := fun g => .hatchEntry g n 0) (List.range 4) (fun _ ha => hatchEntry_ne hg (List.mem_range.1 ha) hk hn hi (by decide)
    (.inr (hne.imp Ne.symm id))) s lo len v

theorem State.homeGate_congr (h : u.shape = s.shape) : u.homeGate = s.homeGate := by rw [State.homeGate, h, State.homeGate]

theorem bits_setBits_state (w : Word) {v lo len : Nat} (h : 2 ≤ lo) : bits (setBits w 0 2 v) lo len = bits w lo len :=
  bits_setBits_apart _ _ _ _ _ _ (.inl h)

theorem bitAt_setBits_state (w : Word) {v i : Nat} (h : 2 ≤ i) : bitAt (setBits w 0 2 v) i = bitAt w i := by
  rw [bitAt, getLsbD_setBits, if_neg (by omega), bitAt]

theorem hatchOfWords_state (w w1 w2 w3 w4 : Word) {v : Nat} (hv : v < 4) :
    hatchOfWords (setBits w 0 2 v) w1 w2 w3 w4 = { hatchOfWords w w1 w2 w3 w4 with state := v } := by
  have hstate : bits (setBits w 0 2 v) 0 2 = v := (bits_setBits_same _ _ _ _ (by decide)).trans (Nat.mod_eq_of_lt hv)
  simp only [hatchOfWords, hstate, bitAt_setBits_state w (by decide : 2 ≤ 2), bitAt_setBits_state w (by decide : 2 ≤ 3),
    bitAt_setBits_state w (by decide : 2 ≤ 4), bitAt_setBits_state w (by decide : 2 ≤ 5), bits_setBits_state w (by decide : 2 ≤ 8),
    bits_setBits_state w (by decide : 2 ≤ 12), bits_setBits_state w (by decide : 2 ≤ 16), bits_setBits_state w (by decide : 2 ≤ 24),
    bits_setBits_state w (by decide : 2 ≤ 32)]

/-- A hatch whose state is set is otherwise as it was. -/
theorem State.hatch_hatchSet_state (s : State) (hn : n < 1024) {v : Nat} (hv : v < 4) : (s.hatchSet n 0 2 v).hatch n = { s.hatch n with state := v } := by
  have hg := s.homeGate_lt
  have hhome : (s.hatchSet n 0 2 v).homeGate = s.homeGate := State.homeGate_congr ((State.changes_hatchSet ..).same .shape)
  rw [State.hatch, hhome, State.hatchAt, State.rd_hatchSet_word s hg hn]
  simp only [State.rd_hatchSet_apart s hg hn hn (by decide : 1 < 8) (.inr (by decide)), State.rd_hatchSet_apart s hg hn hn (by decide : 2 < 8)
    (.inr (by decide)), State.rd_hatchSet_apart s hg hn hn (by decide : 3 < 8) (.inr (by decide)), State.rd_hatchSet_apart s hg hn hn (by decide : 4 < 8)
    (.inr (by decide))]
  exact hatchOfWords_state _ _ _ _ _ hv

theorem State.hatch_hatchSet_ne (s : State) (hn : n < 1024) (hk : k < 1024) (hne : n ≠ k) (lo len v : Nat) :
    (s.hatchSet n lo len v).hatch k = s.hatch k := by
  have hg := s.homeGate_lt
  have hhome : (s.hatchSet n lo len v).homeGate = s.homeGate := State.homeGate_congr ((State.changes_hatchSet ..).same .shape)
  rw [State.hatch, hhome, State.hatchAt, State.rd_hatchSet_apart s hg hn hk (by decide) (.inl hne), State.rd_hatchSet_apart s hg hn hk (by decide) (.inl hne),
    State.rd_hatchSet_apart s hg hn hk (by decide) (.inl hne), State.rd_hatchSet_apart s hg hn hk (by decide) (.inl hne),
    State.rd_hatchSet_apart s hg hn hk (by decide) (.inl hne)]
  rfl

end Sys2Proof.Machine

namespace Sys2Proof.Machine

variable {s : State} {p j n : Nat}

/-! Where no command of firmware is outstanding. -/

theorem State.complete?_idle (h : s.fw = []) (w : FwWait) (e : FwOut → FwEnd) : s.complete? w e = s := by
  rw [State.complete?, State.fwWaiting, h]
  rfl

theorem State.turns_idle (h : s.fw = []) : s.turns = s := by
  rw [State.turns, h]
  rfl

theorem exec_killDrainDone (hp : p < 12) (hj : j < 16) (hd : s.killDrained p j = true) : exec (.killDrainDone p j) s = .next (s.killScrub p j) := by
  show execKillDrainDone p j s = _
  rw [execKillDrainDone, unitOk, if_pos (by simp [hp, hj]), need, if_pos hd]

theorem exec_killScrubComplete (hp : p < 12) (hj : j < 16) (hk : (s.job p j).stat = .killing) (hv : (s.job p j).viewless = true)
    (hs : (s.job p j).scrubbed = false) : exec (.killScrubComplete p j) s = .next (s.killPages p j) := by
  show execKillScrubComplete p j s = _
  rw [execKillScrubComplete, unitOk, if_pos (by simp [hp, hj]), need, if_pos (by simp [hk, hv, hs])]

theorem exec_hatchClosedDone (hf : s.fw = []) (hn : n < 1024) (hc : (s.hatch n).state = 2) (hb : s.hatchBusy n = false) :
    exec (.hatchClosedDone n) s = .next (s.hatchSet n 0 2 0) := by
  have hfw : (s.hatchSet n 0 2 0).fw = [] := ((State.changes_hatchSet ..).same .fw).trans hf
  show execHatchClosedDone n s = _
  rw [execHatchClosedDone, unitOk, if_pos (by simp [hn]), need, if_pos (by simp [hc, hb]), State.complete?_idle hfw, State.turns_idle hfw]

end Sys2Proof.Machine

open Sys2Proof Sys2Proof.Machine

/-- Settles O45: the rows of the quotas, the job's pages, the units and the hatch go each by the lemma of its own operation. -/
theorem killAndResetEnds : Obligations.KillAndResetEnds := by
  unfold Obligations.KillAndResetEnds
  intro s hfw
  refine ⟨fun p j hp hj hd => ?_, fun p j hp hj hk hv hs hwf hpages hmoves => ?_, fun p damaged hp hr ho hf hq => ?_, fun n hn hc hb => ?_⟩
  · have h : s.changes Writes.killScrub (s.killScrub p j) := State.changes_killScrub ..
    exact ⟨_, exec_killDrainDone hp hj hd, s.drained_killScrub p j, fun r => State.row_killScrub hj r, h.same .lpddr, h.same .tasks⟩
  · have h := s.changes_killPages_rows p j
    exact ⟨_, exec_killScrubComplete hp hj hk hv hs, s.job_killPages p j, fun q pg hpg => State.pageOf_killPages hwf hpages hmoves q hpg,
      h.same .tasks, h.same .rows⟩
  · exact execPartitionResetDone_ends hp hr ho hf hq
  · exact ⟨_, exec_hatchClosedDone hfw hn hc hb, s.hatch_hatchSet_state hn (by decide), fun k hk hne => s.hatch_hatchSet_ne hn hk hne.symm _ _ _,
      State.sameStores_of_changes ((State.changes_hatchSet ..).after .refl)⟩

end

section
/-! The boundary of a generation step in a state whose stores are not in canonical form (R298, R299). -/

-- The frame conditions are evaluated in the kernel: theorems elaborated in parallel would each hold a thread while they wait for it.
set_option Elab.async false

namespace Sys2Proof.Machine

/-- Partition 0 generates with a share of no entries and a pool of no clusters, a phase change waits, and near row 0 is listed twice: EMPTY first, FULL
behind it. -/
def rowListedTwice : State :=
  { State.reset with
    regs := [((Reg.seqShare 0).addr, 2 ^ 36)]
    jobs := [(0, { Job.init with stat := .running })]
    parts := [(0, { Part.init with phase := 1, request := some (0, false) })]
    rows := [(0, RowSt.init), (0, { RowSt.init with tag := .full })] }

theorem boundary_rowListedTwice : rowListedTwice.shareEn 0 = true ∧ rowListedTwice.seqEnded 0 = true
    ∧ (rowListedTwice.job 0 (rowListedTwice.seqCfg 0).job).stat = .running ∧ (rowListedTwice.part 0).phase = 1 := by decide +kernel

/-- The return of the pool's freed sets passes over every listed row and drops the entries that an unlisted row stands for; the FULL one remains. -/
theorem tag_rowListedTwice : (((rowListedTwice.genBoundary 0).turns).row (.near 0 0)).tag = .full := by decide +kernel

end Sys2Proof.Machine

open Sys2Proof Sys2Proof.Machine

/-- Refutes O46: the statement asks nothing of the form in which the rows are kept. Where near row 0 is listed twice, EMPTY before FULL, the boundary
drops the first entry as it passes over the rows for the freed page sets (R298), and the near row reads FULL afterwards. -/
theorem not_phasesAndGenerationSteps : ¬ Obligations.PhasesAndGenerationSteps := by
  unfold Obligations.PhasesAndGenerationSteps
  intro h
  obtain ⟨hshare, hended, hjob, hphase⟩ := boundary_rowListedTwice
  obtain ⟨-, hstep⟩ := h 0 rowListedTwice (by decide) rfl
  obtain ⟨u, hu, -, -, hnear⟩ := hstep hshare hphase hended hjob rfl
  have he : exec (.genStepBoundary 0) rowListedTwice = .next (rowListedTwice.genBoundary 0).turns := by
    show execGenStepBoundary 0 rowListedTwice = _
    rw [execGenStepBoundary, unitOk, if_pos (by decide), need, if_pos (by simp [hshare, hended, hjob, hphase])]
  rw [he] at hu
  obtain rfl := Host.Outcome.next.inj hu
  have htag := congrArg RowSt.tag (hnear 0 0 (by decide) (by decide))
  rw [tag_rowListedTwice] at htag
  cases htag
end

section
/-! The rows of a learning step (R262 to R267, R275, R283). -/

-- The frame conditions are evaluated in the kernel: theorems elaborated in parallel would each hold a thread while they wait for it.
set_option Elab.async false

namespace Sys2Proof.Machine

variable {s t u v : State} {p j g : Nat} {J : SMap Job}

/-! Packets go out whatever the jobs are. -/

def State.withJobs (s : State) (J : SMap Job) : State := { s with jobs := J }

theorem State.withJobs_closeSegment : (s.withJobs J).closeSegment p = (s.closeSegment p).withJobs J := by
  unfold State.closeSegment
  rw [apply_ite (fun u : State => u.withJobs J)]
  rfl

theorem State.withJobs_sendNow (f : Frame) : (s.withJobs J).sendNow p f = (s.sendNow p f).withJobs J := by
  unfold State.sendNow
  extract_lets x enc w seg a b x' enc' w' seg' a' b'
  have hb : b = b'.withJobs J := rfl
  rw [hb, apply_ite (fun u : State => u.withJobs J), apply_ite (fun u : State => u.withJobs J), apply_ite (fun u : State => u.withJobs J),
    State.withJobs_closeSegment]
  rfl

theorem State.withJobs_sendFrame (f : Frame) : (s.withJobs J).sendFrame p f = (s.sendFrame p f).withJobs J := by
  unfold State.sendFrame
  rw [apply_ite (fun u : State => u.withJobs J), apply_ite (fun u : State => u.withJobs J)]
  refine if_congr Iff.rfl rfl (if_congr Iff.rfl rfl ?_)
  extract_lets x x'
  rw [apply_ite (fun u : State => u.withJobs J), State.withJobs_sendNow]
  rfl

theorem State.withJobs_setFld (r : Reg) (f : Fld) (n : Nat) : (s.withJobs J).setFld r f n = (s.setFld r f n).withJobs J := rfl

theorem State.withJobs_setGate (x : Gate) : (s.withJobs J).setGate g x = (s.setGate g x).withJobs J := rfl

theorem State.gate_withJobs : (s.withJobs J).gate g = s.gate g := rfl

theorem State.withJobs_syncGate : (s.withJobs J).syncGate g = (s.syncGate g).withJobs J := by
  rw [State.syncGate, State.gate_withJobs, State.withJobs_setFld, State.withJobs_setFld, State.syncGate]

theorem State.withJobs_otAlloc (e : OtEnt) : (s.withJobs J).otAlloc g e = (s.otAlloc g e).map fun x => (x.1, x.2.withJobs J) := by
  unfold State.otAlloc
  generalize List.range 8192 = l
  rw [State.gate_withJobs]
  dsimp only
  split
  · rfl
  · cases List.find? (fun i => !(List.map Prod.fst (s.gate g).ot).contains i) l with
    | none => rfl
    | some i => exact congrArg (fun u => some (i, u)) (by rw [State.withJobs_setGate, State.withJobs_syncGate])

theorem State.withJobs_request (e : OtEnt) (mk : Nat → Frame) : (s.withJobs J).request p e mk = (s.request p e mk).map fun u => u.withJobs J := by
  unfold State.request
  rw [State.withJobs_otAlloc]
  cases s.otAlloc (gateOf p) e with
  | none => rfl
  | some x => exact congrArg some (State.withJobs_sendFrame _)

theorem State.withJobs_sendPacket (x : RedOut) : (s.withJobs J).sendPacket x = (s.sendPacket x).map fun u => u.withJobs J := by
  unfold State.sendPacket
  split
  next _ hatch first gen token _ =>
  dsimp only
  have hr : ∀ off, (s.withJobs J).route x.fabric hatch off = s.route x.fabric hatch off := fun _ => rfl
  rw [hr]
  cases s.route x.fabric hatch (first + x.place / 31) with
  | none => rfl
  | some q => exact State.withJobs_request _ _

theorem State.withJobs_pushPackets : (s.withJobs J).pushPackets = s.pushPackets.withJobs J := by
  have hgo : ∀ n (s : State), State.pushPackets.go n (s.withJobs J) = (State.pushPackets.go n s).withJobs J := by
    intro n
    induction n with
    | zero => exact fun _ => rfl
    | succ n ih =>
      intro s
      rw [State.pushPackets.go, State.pushPackets.go]
      have hout : (s.withJobs J).packetsOut = s.packetsOut := rfl
      rw [hout]
      cases s.packetsOut with
      | nil => rfl
      | cons x rest =>
        dsimp only
        rw [State.withJobs_sendPacket]
        cases s.sendPacket x with
        | none => rfl
        | some u => exact ih { u with packetsOut := rest }
  exact hgo _ s

/-! Rows that are read and emptied. -/

variable {rows : List RowRef} {r : RowRef} {w : BitVec 128} {b : Job}

theorem State.emptyRows_cons (s : State) (x : RowRef) (rows : List RowRef) :
    s.emptyRows (x :: rows) = (s.setRow x { s.row x with data := 0, tag := .empty }).emptyRows rows := by
  unfold State.emptyRows
  rw [List.foldl_cons]

theorem State.rowsElsewhere_emptyRows (s : State) (rows : List RowRef) : s.rowsElsewhere (s.emptyRows rows) rows := by
  induction rows generalizing s with
  | nil => exact fun _ _ => rfl
  | cons x rows ih =>
    intro y hy
    rw [State.emptyRows_cons, ih _ y fun z hz => hy z (List.mem_cons_of_mem _ hz), State.row_setRow, if_neg (hy x List.mem_cons_self)]

theorem State.tag_emptyRows_of_empty (h : (s.row r).tag = .empty) : ((s.emptyRows rows).row r).tag = .empty := by
  induction rows generalizing s with
  | nil => exact h
  | cons x rows ih =>
    rw [State.emptyRows_cons]
    refine ih ?_
    rw [State.row_setRow]
    split
    · rfl
    · exact h

theorem State.tag_emptyRows (h : r ∈ rows) : ((s.emptyRows rows).row r).tag = .empty := by
  induction rows generalizing s with
  | nil => cases h
  | cons x rows ih =>
    obtain rfl | h := List.mem_cons.1 h
    · rw [State.emptyRows_cons]
      exact State.tag_emptyRows_of_empty (by rw [State.row_setRow, if_pos rfl])
    · rw [State.emptyRows_cons]
      exact ih h

/-! Only jobs change, or only what an event or a packet on its way changes. -/

theorem State.rowsElsewhere_of_changes {M : List Field} (h : s.changes M u) (hM : .rows ∉ M := by decide) : s.rowsElsewhere u rows :=
  fun r _ => State.row_congr (h.same .rows hM) r

theorem State.job_congr (h : u.jobs = s.jobs) (p j : Nat) : u.job p j = s.job p j := by rw [State.job, h, State.job]

theorem State.ownFabric_congr (hr : u.regs = s.regs) (hs : u.shape = s.shape) : u.ownFabric = s.ownFabric := by
  rw [State.ownFabric, State.homeGate_congr hs, State.fld_congr (State.rd_congr hr _), State.ownFabric]

theorem State.granaries_congr (hs : u.shape = s.shape) : u.granaries = s.granaries := by rw [State.granaries, hs, State.granaries]

theorem State.job_sendPackets (s : State) (c : StepCfg) (ms : List Nat) (rec : Option Nat) (w : BitVec 128) (p' j' : Nat) :
    (s.sendPackets p j c ms rec w).job p' j' = s.job p' j' := State.job_congr ((State.changes_sendPackets ..).same .jobs) _ _

/-! The end of the backward pass (R264). -/

theorem State.job_granaryPacket (s : State) (p j g : Nat) : ∃ w, (s.granaryPacket p j g).job p j = { s.job p j with packets := (s.job p j).packets ++ [(g, w)] } := by
  unfold State.granaryPacket
  extract_lets t0
  split
  next skew v hv =>
  have hj : v.job p j = s.job p j := State.job_congr ((State.changes_snd hv (State.changes_skewCheck ..)).same .jobs) _ _
  extract_lets n bad k c
  exact ⟨k.word, by rw [State.job_setJob_same, show c = s.job p j from hj]⟩

theorem State.job_granaryPackets (s : State) (p j : Nat) (l : List Nat) :
    ((l.foldl (fun (s : State) g => s.granaryPacket p j g) s).job p j).stage = (s.job p j).stage
      ∧ ((l.foldl (fun (s : State) g => s.granaryPacket p j g) s).job p j).packets.map Prod.fst = (s.job p j).packets.map Prod.fst ++ l := by
  induction l generalizing s with
  | nil => simp
  | cons g l ih =>
    obtain ⟨w, hw⟩ := s.job_granaryPacket p j g
    obtain ⟨hstage, hpackets⟩ := ih (s.granaryPacket p j g)
    rw [List.foldl_cons, hstage, hpackets, hw]
    simp

theorem exec_endOfBackward (hp : p < 12) (hj : j < 16) (hs : (s.job p j).stage = .backward) (hc : (s.job p j).clearing = false) (hi : s.jobIdle p j = true) :
    ∃ u, exec (.endOfBackward p j) s = .next u ∧ (u.job p j).stage = .reduce ∧ (u.job p j).packets.map Prod.fst = s.granaries
      ∧ s.changes [.regs, .ctrs, .jobs] u := by
  have hall := changes_execEndOfBackward (s := s) p j
  obtain ⟨v, hv⟩ : ∃ v, v = s.setJob p j { s.job p j with stage := .reduce, packets := [] } := ⟨_, rfl⟩
  have he : execEndOfBackward p j s = .next (v.granaries.foldl (fun (s : State) g => s.granaryPacket p j g) v) := by
    rw [execEndOfBackward, unitOk, if_pos (by simp [hp, hj]), need, if_pos (by simp [hs, hc, hi]), hv]
  rw [he] at hall
  obtain ⟨hstage, hpackets⟩ := v.job_granaryPackets p j v.granaries
  have hjob : v.job p j = { s.job p j with stage := .reduce, packets := [] } := hv ▸ State.job_setJob_same ..
  refine ⟨_, he, ?_, ?_, hall⟩
  · rw [hstage, hjob]
  · rw [hpackets, hjob, List.map_nil, List.nil_append, hv]
    rfl

/-! The packets of the device and of its members, and the result (R264, R265). -/

/-- The result of a device's packet and of other members' packets. -/
def State.resultOf (s : State) (b : Job) (l : List (Nat × BitVec 128)) (missing : Bool) : BitVec 128 :=
  (combine b.t ((sortBy (fun (x : Nat × BitVec 128) => x.1) ((s.ownFabric, b.device.getD 0) :: l)).map fun (x : Nat × BitVec 128) => packetOf x.2) missing
    (some b.cfg.expectFinal)).word

theorem State.formResult_eq (s : State) (p j : Nat) (l : List (Nat × BitVec 128)) (missing : Bool) :
    s.formResult p j l missing = (s.setJob p j { s.job p j with result := some (s.resultOf (s.job p j) l missing) }).sendPackets p j (s.job p j).cfg
      (s.others (s.job p j).cfg) none (s.resultOf (s.job p j) l missing) := rfl

theorem State.others_congr (hr : u.regs = s.regs) (hs : u.shape = s.shape) (c : StepCfg) : u.others c = s.others c := by
  rw [State.others, State.ownFabric_congr hr hs, State.others]

theorem State.resultOf_congr (hr : u.regs = s.regs) (hs : u.shape = s.shape) (l : List (Nat × BitVec 128)) (miss : Bool) :
    u.resultOf b l miss = s.resultOf b l miss := by
  rw [State.resultOf, State.ownFabric_congr hr hs, State.resultOf]

/-- The result that is formed once the rows of the packets have been read. -/
theorem State.formResult_emptyRows (s : State) (p j : Nat) (rows : List RowRef) (l : List (Nat × BitVec 128)) (missing : Bool) :
    (s.emptyRows rows).formResult p j l missing = ((s.emptyRows rows).setJob p j
      { s.job p j with result := some (s.resultOf (s.job p j) l missing) }).sendPackets p j (s.job p j).cfg (s.others (s.job p j).cfg) none
        (s.resultOf (s.job p j) l missing) := by
  have h : s.changes [.rows] (s.emptyRows rows) := State.changes_emptyRows ..
  have hjob : (s.emptyRows rows).job p j = s.job p j := State.job_congr (h.same .jobs) p j
  rw [State.formResult_eq, hjob, State.resultOf_congr (h.same .regs) (h.same .shape), State.others_congr (h.same .regs) (h.same .shape)]

/-- What a result that is formed from read rows changes. -/
theorem State.formed_emptyRows (s : State) (p j : Nat) (rows : List RowRef) (l : List (Nat × BitVec 128)) (missing : Bool) :
    ((s.emptyRows rows).formResult p j l missing).job p j = { s.job p j with result := some (s.resultOf (s.job p j) l missing) }
      ∧ (∀ r ∈ rows, (((s.emptyRows rows).formResult p j l missing).row r).tag = .empty)
      ∧ s.rowsElsewhere ((s.emptyRows rows).formResult p j l missing) rows
      ∧ ((s.emptyRows rows).formResult p j l missing).lpddr = s.lpddr ∧ ((s.emptyRows rows).formResult p j l missing).tasks = s.tasks := by
  have h : (s.emptyRows rows).changes Writes.formResult ((s.emptyRows rows).formResult p j l missing) := State.changes_formResult ..
  have he : s.changes [.rows] (s.emptyRows rows) := State.changes_emptyRows ..
  refine ⟨?_, fun r hr => ?_, State.rowsElsewhere_of_rows (s.rowsElsewhere_emptyRows rows) (h.same .rows), (h.same .lpddr).trans (he.same .lpddr),
    (h.same .tasks).trans (he.same .tasks)⟩
  · rw [State.formResult_emptyRows, State.job_sendPackets, State.job_setJob_same]
  · rw [State.row_congr (h.same .rows)]
    exact State.tag_emptyRows hr

/-! Packets as they are laid out (Table 11-3). -/

theorem bits_ofNat_128 (n lo len : Nat) (h : lo + len ≤ 128) : bits (BitVec.ofNat 128 n) lo len = n / 2 ^ lo % 2 ^ len := by
  refine Nat.eq_of_testBit_eq fun i => ?_
  rw [testBit_bits, BitVec.getLsbD_ofNat, Nat.testBit_mod_two_pow, Nat.testBit_div_two_pow]
  by_cases hi : i < len
  · simp [hi, show lo + i < 128 by omega, Nat.add_comm]
  · simp [hi]

theorem step_packetOf_word (k : Packet) : (packetOf k.word).step = k.step % 2 ^ 48 := by
  show bits (BitVec.ofNat 128 (packBits _)) 0 48 = _
  rw [bits_ofNat_128 _ _ _ (by decide)]
  simp only [packBits]
  omega

theorem reason_packetOf_word (k : Packet) : (packetOf k.word).reason = k.reason % 2 ^ 7 := by
  show bits (BitVec.ofNat 128 (packBits _)) 49 7 = _
  rw [bits_ofNat_128 _ _ _ (by decide)]
  simp only [packBits]
  omega

theorem void_packetOf_word (k : Packet) : (packetOf k.word).void = k.void := by
  have h : bits (BitVec.ofNat 128 (packBits [(48, k.step), (1, b2n k.void), (7, k.reason), (40, k.rows), (32, k.normsq.toNat)])) 48 1 = b2n k.void := by
    rw [bits_ofNat_128 _ _ _ (by decide)]
    have hb : b2n k.void < 2 := by cases k.void <;> decide
    simp only [packBits]
    omega
  have ht := testBit_bits k.word 48 1 0
  rw [show bits k.word 48 1 = b2n k.void from h] at ht
  show k.word.getLsbD 48 = k.void
  cases hv : k.void <;> rw [hv] at ht <;> simpa [b2n] using ht.symm

theorem foldl_min_le_init (l : List Nat) (c : Nat) : l.foldl min c ≤ c := by
  induction l generalizing c with
  | nil => exact Nat.le_refl c
  | cons y l ih => exact (ih (min c y)).trans (Nat.min_le_left _ _)

theorem foldl_min_le {l : List Nat} {c x : Nat} (h : x = c ∨ x ∈ l) : l.foldl min c ≤ x := by
  induction l generalizing c with
  | nil => exact (h.resolve_right List.not_mem_nil).ge
  | cons y l ih =>
    obtain rfl | h := h
    · exact foldl_min_le_init _ _
    · obtain rfl | h := List.mem_cons.1 h
      · exact (foldl_min_le_init l _).trans (Nat.min_le_right _ _)
      · exact ih (.inr h)

/-- Packets of which one is missing combine to a void one, for that cause or a lower one (Table 11-4). -/
theorem combine_missing (t : Nat) (l : List Packet) (e : Option Nat) :
    (combine t l true e).void = true ∧ (combine t l true e).reason ≤ 2 ∧ (combine t l true e).step = t := by
  unfold combine
  extract_lets n rows skew own causes
  have hmem : 2 ∈ causes := List.mem_append_left _ (List.mem_append_right _ (by simp))
  cases hc : causes with
  | nil => rw [hc] at hmem; cases hmem
  | cons c cs =>
    rw [hc] at hmem
    exact ⟨rfl, foldl_min_le (List.mem_cons.1 hmem), rfl⟩

/-! The rows of the reduction. -/

variable {l : List (Nat × BitVec 128)}

theorem State.sendPackets_none (s : State) (c : StepCfg) (rec : Option Nat) (w : BitVec 128) : s.sendPackets p j c [] rec w = s.pushPackets := by
  rw [State.sendPackets, List.map_nil, List.append_nil]

theorem State.setJob_eq (s : State) (b : Job) : s.setJob p j b = s.withJobs (SMap.put (fun _ => Job.init) s.jobs (jobKey p j) b) := rfl

theorem exec_devicePacketFormed (hp : p < 12) (hj : j < 16) (hb : s.job p j = b) (hs : b.stage = .reduce) {d : BitVec 128}
    (hd : d = (combine b.t (b.packets.map fun (x : Nat × BitVec 128) => packetOf x.2) false none).word) {held : State}
    (hh : held = s.setJob p j { b with stage := .hold, device := some d }) :
    exec (.devicePacketFormed p j) s = .next (if s.alone b.cfg then held.formResult p j [] false
      else if s.isRoot b.cfg then held else held.sendPackets p j b.cfg [b.cfg.root] none d) := by
  show execDevicePacketFormed p j s = _
  rw [execDevicePacketFormed, unitOk, if_pos (by simp [hp, hj]), need, if_pos (by simp [hb, hs]), hh, hd, ← hb]
  rfl

theorem devicePacketFormed_ends (hp : p < 12) (hj : j < 16) (hb : s.job p j = b) (hs : b.stage = .reduce) {d : BitVec 128}
    (hd : d = (combine b.t (b.packets.map fun (x : Nat × BitVec 128) => packetOf x.2) false none).word) {held : State}
    (hh : held = s.setJob p j { b with stage := .hold, device := some d }) :
    ∃ u, exec (.devicePacketFormed p j) s = .next u ∧ (u.job p j).stage = .hold ∧ (u.job p j).device = some d
      ∧ (s.alone b.cfg = true → (u.job p j).result.isSome = true ∧ u.outbox = held.pushPackets.outbox)
      ∧ (s.isRoot b.cfg = false → u = held.sendPackets p j b.cfg [b.cfg.root] none d) ∧ s.changes Writes.formResult u := by
  have hset : s.changes [.jobs] held := hh ▸ State.changes_setJob ..
  have hjob : held.job p j = { b with stage := .hold, device := some d } := hh ▸ State.job_setJob_same ..
  refine ⟨_, exec_devicePacketFormed hp hj hb hs hd hh, ?_⟩
  by_cases ha : s.alone b.cfg = true
  · have hroot : s.isRoot b.cfg = true := by rw [State.isRoot, ha, Bool.true_or]
    have hothers : held.others b.cfg = [] := by
      rw [State.others_congr (hset.same .regs) (hset.same .shape)]
      exact List.isEmpty_iff.1 ha
    rw [if_pos ha, hroot]
    have hform := held.formResult_eq p j [] false
    rw [hjob] at hform
    rw [show ({ b with stage := .hold, device := some d } : Job).cfg = b.cfg from rfl, hothers] at hform
    refine ⟨?_, ?_, fun _ => ⟨?_, ?_⟩, nofun, (State.changes_formResult ..).after (hset.after .refl)⟩
    · rw [hform, State.job_sendPackets, State.job_setJob_same]
    · rw [hform, State.job_sendPackets, State.job_setJob_same]
    · rw [hform, State.job_sendPackets, State.job_setJob_same]
      rfl
    · rw [hform, State.sendPackets_none, State.setJob_eq, State.withJobs_pushPackets]
      rfl
  · rw [if_neg ha]
    by_cases hroot : s.isRoot b.cfg = true
    · rw [if_pos hroot, hjob]
      exact ⟨rfl, rfl, fun h => absurd h ha, fun h => absurd (hroot.symm.trans h) (by decide), hset.after .refl⟩
    · rw [if_neg hroot, State.job_sendPackets, hjob]
      exact ⟨rfl, rfl, fun h => absurd h ha, fun _ => rfl, (State.changes_sendPackets ..).after (hset.after .refl)⟩

theorem exec_reductionComplete (hp : p < 12) (hj : j < 16) (hr : rows.all rowExists = true) (hw : s.rootWaits p j = true)
    (hl : (s.memberPackets (s.job p j).cfg rows).length = (s.others (s.job p j).cfg).length) :
    exec (.reductionComplete p j rows) s = .next ((s.emptyRows rows).formResult p j (s.memberPackets (s.job p j).cfg rows) false) := by
  show execReductionComplete p j rows s = _
  rw [execReductionComplete, unitOk, if_pos (by simp [hp, hj, hr])]
  dsimp only
  rw [hw, if_neg (by decide), need, if_pos (by rw [hl]; exact beq_self_eq_true _)]

theorem exec_reduceTimeout (hp : p < 12) (hj : j < 16) (hr : rows.all rowExists = true) (hw : s.rootWaits p j = true)
    (hl : (s.memberPackets (s.job p j).cfg rows).length < (s.others (s.job p j).cfg).length) :
    exec (.reduceTimeout p j rows) s = .next ((s.emptyRows rows).formResult p j (s.memberPackets (s.job p j).cfg rows) true) := by
  show execReduceTimeout p j rows s = _
  rw [execReduceTimeout, unitOk, if_pos (by simp [hp, hj, hr])]
  dsimp only
  rw [need, if_pos (by rw [hw]; simpa using hl)]

theorem exec_resultWaitTimeout (hp : p < 12) (hj : j < 16) (hs : (s.job p j).stage = .hold) (hr : (s.job p j).result = none) :
    exec (.resultWaitTimeout p j) s = .next (s.stepEvent p j KS.timeout 0 0 0) := by
  show execResultWaitTimeout p j s = _
  rw [execResultWaitTimeout, unitOk, if_pos (by simp [hp, hj]), need, if_pos (by simp [hs, hr])]

theorem exec_reductionResult (hp : p < 12) (hj : j < 16) (hr : rows.all rowExists = true) (hw : s.resultIn p j rows = some w) :
    exec (.reductionResult p j rows) s = .next ((if s.awaits p j then s.holdResult p j w else s.countJob C.redLate p j).emptyRows rows) := by
  show execReductionResult p j rows s = _
  rw [execReductionResult, unitOk, if_pos (by simp [hp, hj, hr]), hw]

/-- A result that is missing packets is void (R265, Table 11-4). -/
theorem resultOf_missing (s : State) (b : Job) (l : List (Nat × BitVec 128)) : (packetOf (s.resultOf b l true)).void = true
    ∧ (packetOf (s.resultOf b l true)).reason ≤ 2 ∧ (packetOf (s.resultOf b l true)).step = b.t % 2 ^ 48 := by
  rw [State.resultOf, void_packetOf_word, reason_packetOf_word, step_packetOf_word]
  obtain ⟨hvoid, hreason, hstep⟩ := combine_missing b.t ((sortBy (fun (x : Nat × BitVec 128) => x.1) ((s.ownFabric, b.device.getD 0) :: l)).map
    fun (x : Nat × BitVec 128) => packetOf x.2) (some b.cfg.expectFinal)
  exact ⟨hvoid, (Nat.mod_le _ _).trans hreason, by rw [hstep]⟩

/-! The result is used (R266, R267). -/

theorem State.job_askUnseal (s : State) (p j t : Nat) : ∃ l, (s.askUnseal p j t).job p j = { s.job p j with pub := l } := by
  unfold State.askUnseal
  extract_lets b v
  have hv : ∃ l, v.job p j = { s.job p j with pub := l } := by
    unfold v
    split
    · exact ⟨_, rfl⟩
    · exact ⟨_, State.job_setJob_same ..⟩
  split
  · exact hv
  · exact hv

theorem State.job_askUnseals (s : State) (p j : Nat) (f : State → Nat → Nat) (l : List Nat) :
    ∃ k, (l.foldl (fun (s : State) i => s.askUnseal p j (f s i)) s).job p j = { s.job p j with pub := k } := by
  induction l generalizing s with
  | nil => exact ⟨_, rfl⟩
  | cons i l ih =>
    obtain ⟨k, hk⟩ := ih (s.askUnseal p j (f s i))
    obtain ⟨m, hm⟩ := s.job_askUnseal p j (f s i)
    exact ⟨k, by rw [List.foldl_cons, hk, hm]⟩

theorem State.useResult_valid (hv : (packetOf w).void = false) (hs : (packetOf w).step = (s.job p j).t) :
    ((s.useResult p j w).job p j).stage = .update
      ∧ ((s.useResult p j w).job p j).clip = clipOf (s.job p j).cfg.maxNorm (packetOf w).normsq ∧ ((s.useResult p j w).job p j).result = some w := by
  unfold State.useResult
  extract_lets b k c v
  rw [if_neg (by rw [show k.void = false from hv]; decide), if_neg (by rw [show k.step = b.t from hs]; exact fun h => h rfl)]
  obtain ⟨l, hl⟩ := v.job_askUnseals p j (fun s i => (s.layer i).w) (v.updated p j)
  rw [hl, show v.job p j = _ from State.job_setJob_same ..]
  exact ⟨rfl, rfl, rfl⟩

theorem State.useResult_void (hv : (packetOf w).void = true) :
    ((s.useResult p j w).job p j).stage = .none ∧ ((s.useResult p j w).job p j).result = none := by
  unfold State.useResult
  extract_lets b k c v
  rw [if_pos (show k.void = true from hv), State.voidStep, State.endStep, State.job_setJob_same]
  exact ⟨rfl, rfl⟩

/-! Packets on their way change no register of a granary. -/

variable {K : Nat → Prop} {n : NormOut} {res : Packet} {i : Nat}

theorem gateBase_mono (g : Nat) : gateBase 0 ≤ gateBase g := by
  unfold gateBase regBase
  omega

/-- The registers that count what is outstanding at the gates. -/
def gateOtAddr (a : Nat) : Prop := ∃ g, a = (Reg.gateOt g).addr

theorem gateOtAddr_from {a : Nat} (h : gateOtAddr a) : gateBase 0 ≤ a := by
  obtain ⟨g, rfl⟩ := h
  exact (gateBase_mono g).trans (Nat.le_add_right _ _)

theorem State.writesAt_syncGate (s : State) (g : Nat) : s.writesAt gateOtAddr (s.syncGate g) :=
  ((State.writesAt.same rfl).setFld ⟨g, rfl⟩ _ _).setFld ⟨g, rfl⟩ _ _

theorem State.writesAt_request {e : OtEnt} {mk : Nat → Frame} (h : s.request p e mk = some u) : s.writesAt gateOtAddr u := by
  unfold State.request at h
  split at h
  · cases h
  next tag v hv =>
  cases h
  have halloc : s.writesAt gateOtAddr v := by
    unfold State.otAlloc at hv
    generalize List.range 8192 = l at hv
    dsimp only at hv
    split at hv
    · cases hv
    · split at hv
      · cases hv
      · cases hv
        refine State.writesAt.trans (.same ?_) (State.writesAt_syncGate _ _)
        rfl
  exact (State.changes_sendFrame ..).writesAt halloc

theorem State.writesAt_sendPacket {x : RedOut} (h : s.sendPacket x = some u) : s.writesAt gateOtAddr u := by
  unfold State.sendPacket at h
  split at h
  dsimp only at h
  split at h
  · cases h
    exact .same rfl
  · exact State.writesAt_request h

theorem State.writesAt_pushPackets (s : State) : s.writesAt gateOtAddr s.pushPackets := by
  have hgo : ∀ n (s : State), s.writesAt gateOtAddr (State.pushPackets.go n s) := by
    intro n
    induction n with
    | zero => exact fun _ => .same rfl
    | succ n ih =>
      intro s
      rw [State.pushPackets.go]
      split
      · exact .same rfl
      · split
        · next v hv =>
          refine State.writesAt.trans ?_ (ih _)
          exact (State.writesAt_sendPacket hv).of_regs rfl
        · exact .same rfl
  exact hgo _ s

theorem State.writesAt_sendPackets (s : State) (c : StepCfg) (ms : List Nat) (rec : Option Nat) (w : BitVec 128) :
    s.writesAt gateOtAddr (s.sendPackets p j c ms rec w) := by
  unfold State.sendPackets
  refine State.writesAt.trans (.same ?_) (State.writesAt_pushPackets _)
  rfl

theorem State.keepsRegs_sendPackets (s : State) (c : StepCfg) (ms : List Nat) (rec : Option Nat) (w : BitVec 128) :
    s.keepsRegs (fun a => a < gateBase 0) (s.sendPackets p j c ms rec w) :=
  (s.writesAt_sendPackets c ms rec w).keepsRegs fun _ ha hg => Nat.not_lt.2 (gateOtAddr_from hg) ha

theorem granary_below_gates {o : Nat} (hg : g < 24) (ho : o < 0x4000000) : grnBase g + o < gateBase 0 := by
  unfold grnBase gateBase regBase
  omega

/-! The norm of a record in a granary (R283). -/

theorem winState_offset {k : Nat} (g : Nat) : (Reg.winState g i k).addr = grnBase g + (0x480000 + 32 * i + 8 * k) := by
  show grnBase g + 0x480000 + 32 * i + 8 * k = _
  omega

theorem winState_ne {h a b : Nat} (_ : g < 24) (_ : h < 24) (_ : i < 4096) (ha : a < 4) (hb : b < 4) (hne : g ≠ h ∨ a ≠ b) :
    (Reg.winState g i a).addr ≠ (Reg.winState h i b).addr := by
  rw [winState_offset, winState_offset]
  unfold grnBase regBase
  omega

/-- What a granary's record takes of a result. -/
def State.normValue (s : State) (g i : Nat) (full : Bool) (x : F32) : F32 :=
  if full then x else (rnd32 (add32 (.of32 (s.wnormsq g i)) (.of32 x)).1).1

def State.normTaken (s : State) (i : Nat) (full : Bool) (x : F32) (step g : Nat) : State :=
  (s.setState g i 2 0 32 (s.normValue g i full x).toNat).setState g i 1 0 48 step

theorem extract_setBits_low (w : Word) (v : F32) : (setBits w 0 32 v.toNat).extractLsb' 0 32 = v := by
  apply BitVec.eq_of_toNat_eq
  exact (bits_setBits_same w 0 32 v.toNat (by decide)).trans (Nat.mod_eq_of_lt v.isLt)

theorem State.normTaken_same (hg : g < 24) (hi : i < 4096) (s : State) (full : Bool) (x : F32) (step : Nat) :
    (s.normTaken i full x step g).wnormsq g i = s.normValue g i full x ∧ (s.normTaken i full x step g).normStep g i = step % 2 ^ 48 := by
  constructor
  · rw [State.wnormsq, State.normTaken, State.setState, State.rd_wr_ne _ _ (winState_ne hg hg hi (by decide) (by decide) (.inr (by decide))),
      State.setState, State.rd_wr_same, extract_setBits_low]
  · rw [State.normStep, State.normTaken, State.setState, State.rd_wr_same, bits_setBits_same _ _ _ _ (by decide)]

theorem State.normTaken_ne {h : Nat} (hg : g < 24) (hh : h < 24) (hne : h ≠ g) (hi : i < 4096) (s : State) (full : Bool) (x : F32) (step : Nat) :
    (s.normTaken i full x step g).wnormsq h i = s.wnormsq h i ∧ (s.normTaken i full x step g).normStep h i = s.normStep h i := by
  have hrd : ∀ a, a < 4 → (s.normTaken i full x step g).rd (.winState h i a) = s.rd (.winState h i a) := fun a ha => by
    rw [State.normTaken, State.setState, State.rd_wr_ne _ _ (winState_ne hh hg hi ha (by decide) (.inl hne)), State.setState,
      State.rd_wr_ne _ _ (winState_ne hh hg hi ha (by decide) (.inl hne))]
  exact ⟨by rw [State.wnormsq, hrd 2 (by decide), State.wnormsq], by rw [State.normStep, hrd 1 (by decide), State.normStep]⟩

theorem State.normsTaken (hi : i < 4096) (full : Bool) (x : F32) (step : Nat) (l : List Nat) (hl : l.Nodup) (hlt : ∀ g ∈ l, g < 24) (s : State) :
    (∀ g ∈ l, (l.foldl (fun (s : State) g => s.normTaken i full x step g) s).wnormsq g i = s.normValue g i full x
        ∧ (l.foldl (fun (s : State) g => s.normTaken i full x step g) s).normStep g i = step % 2 ^ 48)
      ∧ (∀ g, g < 24 → g ∉ l → (l.foldl (fun (s : State) g => s.normTaken i full x step g) s).wnormsq g i = s.wnormsq g i
        ∧ (l.foldl (fun (s : State) g => s.normTaken i full x step g) s).normStep g i = s.normStep g i) := by
  induction l generalizing s with
  | nil => exact ⟨nofun, fun _ _ _ => ⟨rfl, rfl⟩⟩
  | cons a l ih =>
    obtain ⟨ha, hl⟩ := List.nodup_cons.1 hl
    have hlt' : ∀ g ∈ l, g < 24 := fun g hg => hlt g (List.mem_cons_of_mem _ hg)
    have ha24 : a < 24 := hlt a List.mem_cons_self
    obtain ⟨hin, hout⟩ := ih hl hlt' (s.normTaken i full x step a)
    rw [List.foldl_cons]
    refine ⟨fun g hg => ?_, fun g hg hn => ?_⟩
    · by_cases hga : g = a
      · subst hga
        rw [(hout g ha24 ha).1, (hout g ha24 ha).2]
        exact s.normTaken_same ha24 hi full x step
      · have hg : g ∈ l := (List.mem_cons.1 hg).resolve_left hga
        rw [(hin g hg).1, (hin g hg).2, State.normValue, (s.normTaken_ne ha24 (hlt' g hg) hga hi full x step).1]
        exact ⟨rfl, rfl⟩
    · have hga : g ≠ a := fun h => hn (h ▸ List.mem_cons_self)
      rw [(hout g hg fun h => hn (List.mem_cons_of_mem _ h)).1, (hout g hg fun h => hn (List.mem_cons_of_mem _ h)).2]
      exact s.normTaken_ne ha24 hg hga hi full x step

theorem State.changes_normsTaken (i : Nat) (full : Bool) (x : F32) (step : Nat) (l : List Nat) (s : State) :
    s.changes [.regs] (l.foldl (fun (s : State) g => s.normTaken i full x step g) s) :=
  State.changes_foldl .refl fun _ _ ht => (State.changes_setState ..).after ((State.changes_setState ..).after ht)

/-- A valid result of a record that no running command names is taken in every granary. -/
theorem State.normResult_taken (hf : s.fw = []) (hv : res.void = false) (hs : res.step = (packetOf n.pkt).step) (hw : s.winHolds n.record = false) :
    s.normResult p j n res = s.granaries.foldl (fun (s : State) g => s.normTaken n.record n.full res.normsq (packetOf n.pkt).step g)
      (s.setJob p j { s.job p j with normOut := (s.job p j).normOut.filter fun x => x.record != n.record }) := by
  unfold State.normResult
  extract_lets b i own v void w st x c rest
  have hvoid : void = false := by
    show (res.void || res.step != own.step) = false
    rw [hv, hs]
    simp [own]
  have hholds : v.winHolds i = false := hw
  have hfold : w = s.granaries.foldl (fun (s : State) g => s.normTaken n.record n.full res.normsq (packetOf n.pkt).step g) v := by
    unfold w
    rw [hvoid, hholds]
    rfl
  have hfw : w.fw = [] := by
    rw [hfold, (State.changes_normsTaken ..).same .fw]
    exact hf
  rw [hvoid, if_neg (by decide), State.complete?_idle hfw, ite_self]
  exact hfold

theorem State.winHolds_congr (h : s.keepsRegs (fun a => a < gateBase 0) u) (i : Nat) : u.winHolds i = s.winHolds i := by
  have hnames : ∀ g, g < 24 → u.winNamesIn [1, 4] g i = s.winNamesIn [1, 4] g i := fun g hg => by
    rw [State.winNamesIn, h (.winCmd g 0) (granary_below_gates hg (by decide)), h.fld (r := .winStatus g) (granary_below_gates hg (by decide)),
      State.winNamesIn]
  unfold State.winHolds
  rw [Bool.eq_iff_iff, List.any_eq_true, List.any_eq_true]
  exact exists_congr fun g => and_congr_right fun hg => by rw [hnames g (List.mem_range.1 hg)]

theorem State.wnormsq_congr (h : s.keepsRegs (fun a => a < gateBase 0) u) (hg : g < 24) (hi : i < 4096) : u.wnormsq g i = s.wnormsq g i := by
  rw [State.wnormsq, h (.winState g i 2) (by rw [winState_offset]; exact granary_below_gates hg (by omega)), State.wnormsq]

theorem State.isRoot_congr (hr : u.regs = s.regs) (hs : u.shape = s.shape) (c : StepCfg) : u.isRoot c = s.isRoot c := by
  rw [State.isRoot, State.alone, State.others_congr hr hs, State.ownFabric_congr hr hs, State.isRoot, State.alone]

theorem mem_granaries (h : g ∈ s.granaries) : g < 24 := List.mem_range.1 (List.mem_filter.1 h).1

/-- The result of a record's norm is sent to the members where the device is ROOT. -/
def State.normSent (s : State) (p j rec : Nat) (rows : List RowRef) (r : Packet) : State :=
  if s.isRoot (s.job p j).cfg then (s.emptyRows rows).sendPackets p j (s.job p j).cfg (s.others (s.job p j).cfg) (some rec) r.word else s.emptyRows rows

theorem State.changes_normSent (s : State) (p j rec : Nat) (rows : List RowRef) (r : Packet) :
    (s.emptyRows rows).changes Writes.go (s.normSent p j rec rows r) ∧ s.keepsRegs (fun a => a < gateBase 0) (s.normSent p j rec rows r) := by
  have h : s.changes [.rows] (s.emptyRows rows) := State.changes_emptyRows ..
  unfold State.normSent
  split
  · exact ⟨State.changes_sendPackets .., (State.keepsRegs_of_changes h).trans (State.keepsRegs_sendPackets _ _ _ _ _)⟩
  · exact ⟨.refl, State.keepsRegs_of_changes h⟩

theorem exec_layerNormResult {late : Bool} {rec : Nat} {r : Packet} (hp : p < 12) (hj : j < 16) (hr : rows.all rowExists = true)
    (hn : List.find? (fun (x : NormOut) => x.record == rec) (s.job p j).normOut = some n) (hi : s.normIn (s.job p j).cfg n rows late = some r) :
    exec (.layerNormResult p j rec ⟨rows, late⟩) s = .next ((s.normSent p j rec rows r).normResult p j n r) := by
  have h : s.changes [.rows] (s.emptyRows rows) := State.changes_emptyRows ..
  show execLayerNormResult p j rec ⟨rows, late⟩ s = _
  rw [execLayerNormResult, unitOk, if_pos (by simp [hp, hj, hr])]
  dsimp only
  rw [hn]
  dsimp only
  rw [hi]
  dsimp only
  rw [State.isRoot_congr (h.same .regs) (h.same .shape), State.others_congr (h.same .regs) (h.same .shape), State.normSent]

theorem layerNormResult_ends {late : Bool} {rec : Nat} {r : Packet} (hp : p < 12) (hj : j < 16) (hr : rows.all rowExists = true)
    (hn : List.find? (fun (x : NormOut) => x.record == rec) (s.job p j).normOut = some n) (hi : s.normIn (s.job p j).cfg n rows late = some r)
    (hrec : rec < 4096) (hf : s.fw = []) (hw : s.winHolds rec = false) (hv : r.void = false) (hs : r.step = (packetOf n.pkt).step) :
    ∃ u, exec (.layerNormResult p j rec ⟨rows, late⟩) s = .next u
      ∧ (∀ x ∈ (u.job p j).normOut, x.record ≠ rec) ∧ (s.rowsElsewhere u rows ∧ u.lpddr = s.lpddr ∧ u.tasks = s.tasks)
      ∧ (∀ g ∈ s.granaries, u.normStep g rec = r.step
        ∧ u.wnormsq g rec = if n.full then r.normsq else (rnd32 (add32 (.of32 (s.wnormsq g rec)) (.of32 r.normsq)).1).1) := by
  have hrecord : n.record = rec := by simpa using List.find?_some hn
  have hempty : s.changes [.rows] (s.emptyRows rows) := State.changes_emptyRows ..
  obtain ⟨hsent, hregs⟩ := s.changes_normSent p j rec rows r
  obtain ⟨v, hv'⟩ : ∃ v, v = s.normSent p j rec rows r := ⟨_, rfl⟩
  rw [← hv'] at hsent hregs
  have hholds : v.winHolds n.record = false := by rw [hrecord, State.winHolds_congr hregs, hw]
  have hgran : v.granaries = s.granaries := State.granaries_congr ((hsent.same .shape).trans (hempty.same .shape))
  have htaken := State.normResult_taken (p := p) (j := j) (((hsent.same .fw).trans (hempty.same .fw)).trans hf) hv hs hholds
  obtain ⟨x, hx⟩ : ∃ x, x = v.setJob p j { v.job p j with normOut := (v.job p j).normOut.filter fun x => x.record != n.record } := ⟨_, rfl⟩
  rw [hgran, ← hx, hrecord] at htaken
  have hset : v.changes [.jobs] x := hx ▸ State.changes_setJob ..
  have hfold := State.changes_normsTaken rec n.full r.normsq (packetOf n.pkt).step s.granaries x
  obtain ⟨hin, -⟩ := State.normsTaken hrec n.full r.normsq (packetOf n.pkt).step s.granaries (List.nodup_range.filter _) (fun g hg => mem_granaries hg) x
  have hregsX : s.keepsRegs (fun a => a < gateBase 0) x := hregs.trans (State.keepsRegs_of_changes hset)
  refine ⟨_, exec_layerNormResult hp hj hr hn hi, ?_⟩
  rw [← hv', htaken]
  refine ⟨fun y hy => ?_, ⟨?_, ?_, ?_⟩, fun g hg => ?_⟩
  · rw [State.job_congr (hfold.same .jobs), hx, State.job_setJob_same] at hy
    have hne := (List.mem_filter.1 hy).2
    rw [hrecord] at hne
    simpa using hne
  · exact State.rowsElsewhere_of_rows (s.rowsElsewhere_emptyRows rows) ((hfold.same .rows).trans ((hset.same .rows).trans (hsent.same .rows)))
  · exact (hfold.same .lpddr).trans ((hset.same .lpddr).trans ((hsent.same .lpddr).trans (hempty.same .lpddr)))
  · exact (hfold.same .tasks).trans ((hset.same .tasks).trans ((hsent.same .tasks).trans (hempty.same .tasks)))
  · obtain ⟨hnorm, hstep⟩ := hin g hg
    have hlt : (packetOf n.pkt).step < 2 ^ 48 := bits_lt ..
    refine ⟨?_, ?_⟩
    · rw [hstep, hs, Nat.mod_eq_of_lt hlt]
    · rw [hnorm, State.normValue, State.wnormsq_congr hregsX (mem_granaries hg) hrec]

end Sys2Proof.Machine

open Sys2Proof Sys2Proof.Machine

/-- Settles O47: each row of the learning step by the equation of its own meaning; rows that are read are EMPTY, and packets on their way, events and
the fields of jobs change nothing else. -/
theorem learningStepRows : Obligations.LearningStepRows := by
  unfold Obligations.LearningStepRows
  intro p j s hp hj b stands result own held
  have hstands : ∀ {M : List Field} {u : State} (h : s.changes M u), .rows ∉ M → .lpddr ∉ M → .tasks ∉ M → stands u [] :=
    fun h hr hl ht => ⟨fun r _ => State.row_congr (h.same .rows hr) r, h.same .lpddr hl, h.same .tasks ht⟩
  refine ⟨fun hs hc hi => ?_, fun hs => ?_, fun rows hr hw => ⟨fun hl => ?_, fun hl => ?_⟩, fun hs hr => ⟨exec_resultWaitTimeout hp hj hs hr, ?_⟩,
    fun rows w hr hw => ⟨fun ha => ?_, fun ha => ?_⟩, fun w => ⟨fun hv hs => ?_, fun hv => State.useResult_void hv, ?_⟩,
    fun rec rows late n r hr hn hi hrec hf hw hv hs => layerNormResult_ends hp hj hr hn hi hrec hf hw hv hs⟩
  · obtain ⟨u, he, hstage, hpackets, hu⟩ := exec_endOfBackward hp hj hs hc hi
    exact ⟨u, he, hstage, hpackets, hstands hu (by decide) (by decide) (by decide)⟩
  · obtain ⟨u, he, hstage, hdev, halone, hroot, hu⟩ := devicePacketFormed_ends (b := b) hp hj rfl hs (d := own) rfl (held := held) rfl
    exact ⟨u, he, hstage, hdev, halone, hroot, hstands hu (by decide) (by decide) (by decide)⟩
  · obtain ⟨hjob, htag, helse, hlp, htasks⟩ := s.formed_emptyRows p j rows (s.memberPackets b.cfg rows) false
    exact ⟨_, exec_reductionComplete hp hj hr hw hl, congrArg Job.result hjob, htag, ⟨helse, hlp, htasks⟩, State.formResult_emptyRows ..⟩
  · obtain ⟨hjob, -, helse, hlp, htasks⟩ := s.formed_emptyRows p j rows (s.memberPackets b.cfg rows) true
    obtain ⟨hvoid, hreason, hstep⟩ := resultOf_missing s b (s.memberPackets b.cfg rows)
    exact ⟨_, _, exec_reduceTimeout hp hj hr hw hl, congrArg Job.result hjob, hvoid, hreason, hstep, helse, hlp, htasks⟩
  · exact (State.changes_stepEvent ..).same .jobs
  · have h : (s.holdResult p j w).changes [.rows] ((s.holdResult p j w).emptyRows rows) := State.changes_emptyRows ..
    have hh : s.changes [.jobs] (s.holdResult p j w) := State.changes_holdResult ..
    refine ⟨_, exec_reductionResult hp hj hr hw, ?_⟩
    rw [ha, if_pos rfl]
    refine ⟨?_, fun r hr => State.tag_emptyRows hr, ?_, (h.same .lpddr).trans (hh.same .lpddr), (h.same .tasks).trans (hh.same .tasks)⟩
    · rw [State.job_congr (h.same .jobs), State.holdResult, State.job_setJob_same]
    · intro r hr
      rw [State.rowsElsewhere_emptyRows _ _ r hr, State.row_congr (hh.same .rows)]
  · rw [exec_reductionResult hp hj hr hw, ha]
    rfl
  · obtain ⟨hstage, hclip, hresult⟩ := State.useResult_valid hv hs
    exact ⟨hstage, hclip, hresult⟩
  · exact hstands (State.changes_useResult ..) (by decide) (by decide) (by decide)
end

section
/-! A counter read that ends while no module of the host is up (R361, R371, R441). -/

-- The frame conditions are evaluated in the kernel: theorems elaborated in parallel would each hold a thread while they wait for it.
set_option Elab.async false

namespace Sys2Proof.Machine

/-- A TELEMETRY whose result address is 0x60000, holding what a tick latched for it. -/
def gatheredTelemetry : FwOut := ⟨⟨0, 1, 0x82⟩, BitVec.ofNat 32768 (0x60000 * 2 ^ 64), .gather []⟩

/-- That command is outstanding, and no UCIe module is up: the outbound mailboxes have no receiver. -/
def hostModulesDown : State := { State.reset with fw := [gatheredTelemetry] }

theorem execCounterSnapshot_hostModulesDown :
    exec (.counterSnapshot []) hostModulesDown
      = .next (State.gathered1 { hostModulesDown with free := hostModulesDown.free + 1 } (hostModulesDown.heldBytes []) gatheredTelemetry) := rfl

/-- The completion word is dropped, and dropped words are counted (R371). -/
theorem ctrs_hostModulesDown :
    (State.gathered1 { hostModulesDown with free := hostModulesDown.free + 1 } (hostModulesDown.heldBytes []) gatheredTelemetry).ctrs.length = 2 := by
  decide +kernel

end Sys2Proof.Machine

open Sys2Proof Sys2Proof.Machine

/-- Refutes O60: the completion of a counter read may count. Where no module of the host is up, the completion word of the read has no receiver, so that
it is dropped, and MBX_TIMEOUTS and the counter of dropped words move on (R361, R371), whereas the statement says that every counter stands. -/
theorem not_boardAndTestRows : ¬ Obligations.BoardAndTestRows := by
  unfold Obligations.BoardAndTestRows
  intro h
  obtain ⟨hsnapshot, -⟩ := h hostModulesDown
  obtain ⟨u, hu, -, -, hctrs, -⟩ := hsnapshot [] gatheredTelemetry [] rfl rfl (by decide +kernel)
  rw [execCounterSnapshot_hostModulesDown] at hu
  obtain rfl := Host.Outcome.next.inj hu
  have hlen := congrArg List.length hctrs
  rw [ctrs_hostModulesDown] at hlen
  cases hlen
end

section
/-! The host window byte by byte (R355), and the completion of a firmware command (R371). -/

-- The frame conditions are evaluated in the kernel: theorems elaborated in parallel would each hold a thread while they wait for it.
set_option Elab.async false

namespace Sys2Proof

/-- The address of a command's completion record (Table 17-4). -/
def FwCmd.record (c : FwCmd) : Nat := 0x40000 + 64 * (c.cid % 1024)

theorem FwCmd.record_bounds (c : FwCmd) : 0x40000 ≤ c.record ∧ c.record + 64 ≤ 0x50000 := by
  have : c.cid % 1024 < 1024 := Nat.mod_lt _ (by decide)
  simp only [FwCmd.record]
  omega

theorem FwCmd.cid_lt (c : FwCmd) : c.cid < 2 ^ 16 := (c.word.extractLsb' 16 16).isLt

end Sys2Proof

namespace Sys2Proof.Machine

variable {s u v : State}

/-! Bytes. -/

theorem State.winByte_winPut (s : State) (a : Nat) (l : List Byte) (b : Nat) :
    (s.winPut a l).winByte b = if a ≤ b ∧ b < a + l.length then l.getD (b - a) 0 else s.winByte b :=
  winWriteBytes_get s.window a l b

theorem State.winByte_congr (h : u.window = s.window) (a : Nat) : u.winByte a = s.winByte a := by rw [State.winByte, State.winByte, h]

theorem State.winRead_congr {a n : Nat} (h : ∀ i < n, u.winByte (a + i) = s.winByte (a + i)) : u.winRead a n = s.winRead a n :=
  congrArg (packNat 8) (List.map_congr_left fun i hi => by rw [h i (List.mem_range.1 hi)])

theorem packNat_bytes (v n : Nat) : packNat 8 ((List.range n).map fun i => v / 2 ^ (8 * i) % 2 ^ 8) = v % 2 ^ (8 * n) := by
  induction n generalizing v with
  | zero => simp [packNat, Nat.mod_one]
  | succ n ih =>
    rw [List.range_succ_eq_map, List.map_cons, List.map_map, packNat, show ((fun i => v / 2 ^ (8 * i) % 2 ^ 8) ∘ Nat.succ)
      = fun i => v / 2 ^ 8 / 2 ^ (8 * i) % 2 ^ 8 from funext fun i => by
        rw [Function.comp, Nat.div_div_eq_div_mul, ← Nat.pow_add, show 8 + 8 * i = 8 * (i + 1) by omega], ih,
      show 8 * (n + 1) = 8 + 8 * n by omega, Nat.pow_add, Nat.mod_mul]
    simp [Nat.mul_comm]

/-- What the bytes of a number read. -/
theorem State.winRead_of_bytes {a n v : Nat} (h : ∀ i < n, s.winByte (a + i) = BitVec.ofNat 8 (v / 2 ^ (8 * i))) : s.winRead a n = v % 2 ^ (8 * n) := by
  rw [State.winRead, ← packNat_bytes]
  exact congrArg (packNat 8) (List.map_congr_left fun i hi => by rw [h i (List.mem_range.1 hi), BitVec.toNat_ofNat])

theorem getD_bytesOf {n i : Nat} (h : i < n) (v : Nat) : (bytesOf n v).getD i 0 = BitVec.ofNat 8 (v / 2 ^ (8 * i)) := by
  rw [bytesOf, List.getD_eq_getElem _ _ (by simpa using h), List.getElem_map, List.getElem_range]

theorem State.winRead_winWrite (s : State) {a k m n v : Nat} (h : k + m ≤ n) :
    (s.winWrite a n v).winRead (a + k) m = v / 2 ^ (8 * k) % 2 ^ (8 * m) := by
  refine State.winRead_of_bytes fun i hi => ?_
  rw [State.winByte_winWrite, if_pos (by omega), show a + k + i - a = k + i by omega, getD_bytesOf (by omega), Nat.div_div_eq_div_mul, ← Nat.pow_add,
    Nat.mul_add]

theorem State.holds_winPut (s : State) (a : Nat) (l : List Byte) : (s.winPut a l).holds a l := fun i hi => by
  rw [State.winByte_winPut, if_pos (by omega), Nat.add_sub_cancel_left]

/-! What stands in the window. -/

/-- The bytes of the window at a set of addresses are the same. -/
structure State.keepsWindow (K : Nat → Prop) (s u : State) : Prop where
  byte : ∀ a, K a → u.winByte a = s.winByte a

section
variable {K L : Nat → Prop}

theorem State.keepsWindow_of_window (h : u.window = s.window) : s.keepsWindow K u := ⟨fun a _ => State.winByte_congr h a⟩

theorem State.keepsWindow.refl : s.keepsWindow K s := ⟨fun _ _ => rfl⟩

theorem State.keepsWindow.trans (h : s.keepsWindow K u) (k : u.keepsWindow K v) : s.keepsWindow K v :=
  ⟨fun a ha => (k.byte a ha).trans (h.byte a ha)⟩

theorem State.keepsWindow.mono (h : s.keepsWindow K u) (hL : ∀ a, L a → K a) : s.keepsWindow L u := ⟨fun a ha => h.byte a (hL a ha)⟩

theorem State.keepsWindow.winRead (h : s.keepsWindow K u) {a n : Nat} (hK : ∀ i < n, K (a + i)) : u.winRead a n = s.winRead a n :=
  State.winRead_congr fun i hi => h.byte _ (hK i hi)

theorem State.keepsWindow.holds (h : s.keepsWindow K u) {a : Nat} {l : List Byte} (hK : ∀ i < l.length, K (a + i)) (hs : s.holds a l) :
    u.holds a l := fun i hi => (h.byte _ (hK i hi)).trans (hs i hi)

theorem State.keepsWindow_winPut (s : State) {a : Nat} {l : List Byte} (hK : ∀ b, K b → b < a ∨ a + l.length ≤ b) : s.keepsWindow K (s.winPut a l) :=
  ⟨fun b hb => by rw [State.winByte_winPut, if_neg (by have := hK b hb; omega)]⟩

theorem State.keepsWindow_winWrite (s : State) {a n v : Nat} (hK : ∀ b, K b → b < a ∨ a + n ≤ b) : s.keepsWindow K (s.winWrite a n v) :=
  s.keepsWindow_winPut (by rwa [length_bytesOf])

end

/-! Event records lie in the ring at 0x50000 (R357). -/

/-- Outside the event ring. -/
def offRing (a : Nat) : Prop := a < 0x50000 ∨ 0x60000 ≤ a

/-- A payload lies within its record. -/
def Payload.fits (pay : Payload) : Prop := ∀ p ∈ pay, p.1 + p.2.1 ≤ 64

theorem fits_singleton {p : Nat × Nat × Nat} (h : p.1 + p.2.1 ≤ 64) : Payload.fits [p] := List.forall_mem_singleton.2 h

theorem State.keepsWindow_putEvent {pay : Payload} (hp : Payload.fits pay) (kind part job status : Nat) :
    s.keepsWindow offRing (s.putEvent kind part job status pay) := by
  unfold State.putEvent
  extract_lets a w0 s1 s2 s3
  have ha : ∀ b, offRing b → b < a ∨ a + 64 ≤ b := fun b hb => by simp only [offRing] at hb; omega
  have h1 : s.keepsWindow offRing s1 := (s.keepsWindow_winWrite ha).trans (State.keepsWindow_winWrite _ fun b hb => by have := ha b hb; omega)
  have hfold (l : Payload) (hl : Payload.fits l) (t : State) : t.keepsWindow offRing (l.foldl (fun s p => s.winWrite (a + p.1) p.2.1 p.2.2) t) := by
    induction l generalizing t with
    | nil => exact .refl
    | cons p l ih =>
      obtain ⟨hp, hl⟩ := List.forall_mem_cons.1 hl
      exact (t.keepsWindow_winWrite fun b hb => by have := ha b hb; omega).trans (ih hl _)
  have h3 : s.keepsWindow offRing s3 := ⟨(h1.trans (hfold pay hp s1)).byte⟩
  split
  · exact h3
  · exact h3.trans (State.keepsWindow_of_window ((State.changes_mbxWrite ..).same .window))

theorem State.keepsWindow_post {pay : Payload} (hp : Payload.fits pay) (kind part job status : Nat) :
    s.keepsWindow offRing (s.post kind part job status pay) := by
  unfold State.post
  extract_lets s1 s2
  have h2 : s.keepsWindow offRing s2 := by
    unfold s2
    split
    · exact .refl
    · exact ⟨(State.keepsWindow_putEvent (fits_singleton (Nat.le_of_ble_eq_true rfl)) ..).byte⟩
  split
  · exact State.keepsWindow_of_window ((State.changes_count ..).same .window)
  · split
    · exact h2.trans (State.keepsWindow_of_window ((State.changes_count ..).same .window))
    · exact h2.trans (State.keepsWindow_putEvent hp ..)

/-! Completion (R371). -/

theorem State.keepsWindow_completeWord (s : State) (c : FwCmd) (e : FwEnd) : s.keepsWindow offRing (s.completeWord c e) := by
  unfold State.completeWord
  extract_lets w
  split
  · exact State.keepsWindow_post (fits_singleton (Nat.le_of_ble_eq_true rfl)) ..
  · exact State.keepsWindow_of_window ((State.changes_postWord ..).same .window)

/-- The record of a completed command holds its status, its CID and its result. -/
theorem State.winRead_complete (s : State) (c : FwCmd) {e : FwEnd} (he : e.status < 2 ^ 16) :
    (s.complete c e).winRead c.record 2 = e.status ∧ (s.complete c e).winRead (c.record + 2) 2 = c.cid
      ∧ (s.complete c e).winRead (c.record + 16) 48 = e.result % 2 ^ 384 := by
  have hb := c.record_bounds
  have hcid := c.cid_lt
  unfold State.complete
  extract_lets a w0
  have ha : a = c.record := rfl
  obtain ⟨t, ht⟩ : ∃ t, t = s.winWrite a 8 w0 := ⟨_, rfl⟩
  rw [← ht]
  obtain ⟨t', ht'⟩ : ∃ t', t' = (t.winWrite (a + 8) 8 s.beatNo.toNat).winWrite (a + 16) 48 e.result := ⟨_, rfl⟩
  rw [← ht']
  have hk := t'.keepsWindow_completeWord c e
  have hoff (k n : Nat) (h : k + n ≤ 64) : ∀ i < n, offRing (c.record + k + i) := fun i _ => by simp only [offRing]; omega
  have hlow : t.keepsWindow (fun b => b < a + 8) t' := by
    rw [ht']
    exact (t.keepsWindow_winWrite fun b hb => .inl hb).trans (State.keepsWindow_winWrite _ fun b hb => .inl (by omega))
  have hword (k : Nat) (h : k + 2 ≤ 8) : (t'.completeWord c e).winRead (c.record + k) 2 = w0 / 2 ^ (8 * k) % 2 ^ 16 := by
    rw [hk.winRead (hoff k 2 (by omega)), hlow.winRead (fun i _ => by omega), ht, ← ha, State.winRead_winWrite _ h]
  refine ⟨?_, ?_, ?_⟩
  · rw [show c.record = c.record + 0 from rfl, hword 0 (by decide)]
    simp only [w0, packBits]
    omega
  · rw [hword 2 (by decide)]
    simp only [w0, packBits]
    omega
  · rw [hk.winRead (hoff 16 48 (by decide)), ht', ← ha, show a + 16 = a + 16 + 0 from rfl, State.winRead_winWrite _ (by decide), Nat.mul_zero, Nat.pow_zero,
      Nat.div_one]

/-! The read of a mailbox (R360). -/

/-- Firmware's read empties a mailbox that no other write waits for. -/
theorem State.mbxFull_fwTake {c : FwCmd} (hc : c.mbox < 32) (hf : s.mbxFull .mgmt c.mbox = true)
    (hw : ∀ w ∈ s.mbxWaits, w.blk = .mgmt → w.n ≠ c.mbox) : (s.fwTake c).mbxFull .mgmt c.mbox = false := by
  have hn : ((s.setBitOf (.mbxStatus .mgmt) c.mbox false).takeWait .mgmt c.mbox).1 = none := by
    rw [State.takeWait, List.find?_eq_none]
    intro w hm
    simpa using fun hb => hw w hm hb
  have ht : (s.mbxRead .mgmt c.mbox agentMgmt).2 = s.setBitOf (.mbxStatus .mgmt) c.mbox false := by
    have hr : mbxReceives .mgmt c.mbox agentMgmt = true := by rw [mbxReceives, if_pos hc]; rfl
    simp only [State.mbxRead, hr, hf, Bool.not_true, Bool.false_eq_true, if_false]
    rw [if_neg (show ¬ 32 ≤ c.mbox by omega)]
    split
    next heq => exact absurd (hn.symm.trans (congrArg Prod.fst heq)) (Option.some_ne_none _).symm
    next => rfl
  rw [State.fwTake, if_neg (by simp [hf]), ht]
  exact s.bitAt_setBitOf_same _ _ (by omega)

/-- What a command that is refused writes as it is read: its mailbox, its record and its word. -/
def Writes.refusedWord : List Field := .fwTurn :: Writes.completeWord

/-! The rows of the firmware commands (R365). -/

/-- What bring-up finds is asked of IMAGE_LOAD only. -/
def findings (op : Nat) (f : BringIn) : BringIn := if op = 0x10 then f else BringIn.none

theorem exec_fwRows (c : FwCmd) (f : BringIn) (s : State) : ∀ q ∈ fwRows c f,
    exec q.2 s = (unitOk (fwOk c) <| need (s.fwReads q.1 c) s <| .next (s.fwRun c (findings q.1 f))) := by
  simp only [fwRows, List.forall_mem_cons, List.not_mem_nil, false_implies, implies_true, and_true]
  and_intros
  all_goals rfl

theorem exec_fwRow {c : FwCmd} {f : BringIn} {q : Nat × Instr} (hq : q ∈ fwRows c f) (hc : fwOk c = true) (hr : s.fwReads q.1 c = true) :
    exec q.2 s = .next (s.fwRun c (findings q.1 f)) := by
  rw [exec_fwRows c f s q hq, unitOk, if_pos hc, need, if_pos hr]

/-- The checks that are made when a command is read end with a status of Table 17-5. -/
theorem State.readStatus_lt (s : State) (o : FwOut) : s.readStatus o < 2 ^ 16 := by
  unfold State.readStatus
  split_ifs <;> decide

end Sys2Proof.Machine

open Sys2Proof Sys2Proof.Machine

/-- Settles O55: each row performs State.fwRun, whose branches are the checks. -/
theorem firmwareRefusesByItsChecks : Obligations.FirmwareRefusesByItsChecks := by
  unfold Obligations.FirmwareRefusesByItsChecks
  intro c f s q hq hc hr t o st twin
  have hmbox : c.mbox < 32 := by have := of_decide_eq_true hc; omega
  have hexec := exec_fwRow hq hc hr
  refine ⟨fun hform hresult htwin => ?_, fun hno hst => ?_, fun hf hw => State.mbxFull_fwTake hmbox hf hw⟩
  · rw [hexec, State.fwRun]
    exact congrArg Host.Outcome.next (if_pos (by rw [hform, hresult]; exact htwin))
  · have hk : s.changes Writes.refusedWord (t.complete c (.of st)) := (State.changes_complete ..).after ((State.changes_fwTake ..).after .refl)
    refine ⟨?_, ⟨hk.same .rows, hk.same .lpddr⟩, hk.same .fw, (t.winRead_complete c (t.readStatus_lt o)).1⟩
    rw [hexec, State.fwRun]
    refine congrArg Host.Outcome.next ((if_neg ?_).trans (if_pos hst))
    rcases hno with h | h
    · simp only [t, o] at h
      simp [h]
    · simp only [t, twin] at h
      simp [h]
end

section
/-! What goes onto a wire and what a port keeps of it: control frames, replays, acknowledgements (R328, R329). -/

-- The frame conditions are evaluated in the kernel: theorems elaborated in parallel would each hold a thread while they wait for it.
set_option Elab.async false

namespace Sys2Proof.Machine

variable {s u : State} {p : Nat}

theorem State.port_congr (h : u.ports = s.ports) (p : Nat) : u.port p = s.port p := by rw [State.port, State.port, h]

theorem State.portState_congr (h : u.rd (.gatePort p) = s.rd (.gatePort p)) : u.portState p = s.portState p := State.fld_congr h _

theorem portOk_of_lt (hp : p < 12) : portOk p = true := decide_eq_true hp

/-! Control frames. -/

theorem State.port_sendControl (s : State) (p : Nat) (h : BitVec 96) : (s.sendControl p h).port p = { s.port p with sinceCtl := 0 } :=
  State.port_setPort_same ..

theorem State.outbox_sendControl (s : State) (p : Nat) (h : BitVec 96) :
    (s.sendControl p h).outbox = s.outbox ++ [.frame p ⟨h, 0⟩ (crc32 ⟨h, 0⟩)] := rfl

/-- A NAK names the first number that has not been passed up. -/
theorem State.outbox_sendNak (s : State) (p : Nat) : (s.sendNak p).outbox
    = s.outbox ++ [.frame p ⟨controlHdr 2 [(8, 0), (16, (s.port p).ackNext)], 0⟩ (crc32 ⟨controlHdr 2 [(8, 0), (16, (s.port p).ackNext)], 0⟩)] := rfl

theorem State.port_sendNak (s : State) (p : Nat) :
    (s.sendNak p).port p = { s.port p with nak := true, rxNext := (s.port p).ackNext, segment := [], sinceCtl := 0 } := by
  unfold State.sendNak
  extract_lets x n
  rw [State.port_sendControl, State.port_setPort_same]

theorem State.outbox_sendAck (s : State) (p : Nat) : (s.sendAck p).outbox = s.outbox ++
    [.frame p ⟨controlHdr 1 [(8, 0), (16, (s.port p).ackNext), (16, if (s.port p).dry then 0 else (s.port p).rxFreed)], 0⟩
      (crc32 ⟨controlHdr 1 [(8, 0), (16, (s.port p).ackNext), (16, if (s.port p).dry then 0 else (s.port p).rxFreed)], 0⟩)] := rfl

theorem State.port_sendAck (s : State) (p : Nat) : (s.sendAck p).port p
    = { s.port p with unacked := 0, rxFreed := (s.port p).rxFreed - (if (s.port p).dry then 0 else (s.port p).rxFreed), sinceCtl := 0 } := by
  unfold State.sendAck
  extract_lets x n
  rw [State.port_sendControl, State.port_setPort_same]

/-! Replay. -/

/-- A frame goes out again alone where no tag follows it and fewer than 49 frames went out since the last control frame. -/
theorem State.resendOne_plain {q : Nat × Frame} (ht : (s.port p).segTags = []) (hc : (s.port p).sinceCtl + 1 < 49) :
    s.resendOne p q = (s.sendWire p q.2).setPort p { s.port p with sinceCtl := (s.port p).sinceCtl + 1 } := by
  have hx : (s.sendWire p q.2).port p = s.port p := rfl
  unfold State.resendOne
  extract_lets t x t'
  have hf : x.segTags.find? (fun t => t.1 == q.1) = none := by
    show (s.port p).segTags.find? _ = none
    rw [ht, List.find?_nil]
  rw [hf]
  exact if_neg (Nat.not_le.2 hc)

/-- The outgoing frames of a port from a list. -/
def framesOut (p : Nat) (l : List (Nat × Frame)) : List Emit := l.map fun q => .frame p q.2 (crc32 q.2)

theorem State.resend_plain (l : List (Nat × Frame)) (s : State) (ht : (s.port p).segTags = []) (hc : (s.port p).sinceCtl + l.length < 49) :
    (s.resend p l).outbox = s.outbox ++ framesOut p l ∧ (s.resend p l).port p = { s.port p with sinceCtl := (s.port p).sinceCtl + l.length } := by
  induction l generalizing s with
  | nil => exact ⟨(List.append_nil _).symm, rfl⟩
  | cons q l ih =>
    rw [List.length_cons] at hc
    have hstep := State.resendOne_plain (q := q) ht (show (s.port p).sinceCtl + 1 < 49 by omega)
    have hport : (s.resendOne p q).port p = { s.port p with sinceCtl := (s.port p).sinceCtl + 1 } := by rw [hstep, State.port_setPort_same]
    have hout : (s.resendOne p q).outbox = s.outbox ++ framesOut p [q] := by rw [hstep]; rfl
    obtain ⟨ho, hx⟩ := ih (s.resendOne p q) (by rw [hport]; exact ht) (by rw [hport]; show (s.port p).sinceCtl + 1 + l.length < 49; omega)
    rw [hport] at hx
    refine ⟨?_, ?_⟩
    · show ((s.resendOne p q).resend p l).outbox = _
      rw [ho, hout, List.append_assoc]
      rfl
    · show ((s.resendOne p q).resend p l).port p = _
      rw [hx, List.length_cons]
      simp only [Nat.add_assoc, Nat.add_comm 1]

/-- A replay from a number that the buffer holds: REPLAY with the number, then the frames from it on. -/
theorem State.replayFrom_plain {n : Nat} {l : List (Nat × Frame)} (hl : (s.port p).replay.dropWhile (fun q => q.1 != n) = l) (hne : l ≠ [])
    (ht : (s.port p).segTags = []) (hc : l.length < 49) :
    (s.replayFrom p n).outbox = s.outbox ++ .frame p ⟨controlHdr 3 [(8, 0), (16, n)], 0⟩ (crc32 ⟨controlHdr 3 [(8, 0), (16, n)], 0⟩) :: framesOut p l
      ∧ (s.replayFrom p n).port p = { s.port p with sinceCtl := l.length, replays := (s.port p).replays + 1 }
      ∧ s.changes [.outbox, .ports, .ctrs] (s.replayFrom p n) := by
  have hrun : s.replayFrom p n = (((s.sendControl p (controlHdr 3 [(8, 0), (16, n)])).count C.linkReplay p).resend p l).setPort p
      { (((s.sendControl p (controlHdr 3 [(8, 0), (16, n)])).count C.linkReplay p).resend p l).port p with
        replays := ((((s.sendControl p (controlHdr 3 [(8, 0), (16, n)])).count C.linkReplay p).resend p l).port p).replays + 1 } := by
    unfold State.replayFrom
    extract_lets l' t t'
    subst hl
    exact if_neg (by rw [List.isEmpty_iff]; exact hne)
  obtain ⟨t, ht0⟩ : ∃ t, t = (s.sendControl p (controlHdr 3 [(8, 0), (16, n)])).count C.linkReplay p := ⟨_, rfl⟩
  have hport : t.port p = { s.port p with sinceCtl := 0 } := by
    rw [ht0]
    exact s.port_sendControl p _
  have hout : t.outbox = s.outbox ++ [.frame p ⟨controlHdr 3 [(8, 0), (16, n)], 0⟩ (crc32 ⟨controlHdr 3 [(8, 0), (16, n)], 0⟩)] := by rw [ht0]; rfl
  obtain ⟨ho, hx⟩ := t.resend_plain l (by rw [hport]; exact ht) (by rw [hport]; show 0 + l.length < 49; omega)
  rw [← ht0] at hrun
  rw [hrun]
  refine ⟨?_, ?_, ?_⟩
  · show (t.resend p l).outbox = _
    rw [ho, hout, List.append_assoc]
    rfl
  · rw [State.port_setPort_same, hx, hport]
    simp only [Nat.zero_add]
  · rw [ht0]
    exact (State.changes_setPort_rx (by rfl)).after ((State.changes_resend ..).after ((State.changes_count ..).after ((State.changes_sendControl ..).after .refl)))

/-! Frames of a reserved TYPE (R341). -/

theorem State.wellFormed_reserved {f : Frame} (h : fType f.hdr = 0 ∨ fType f.hdr = 7 ∨ 10 ≤ fType f.hdr) : s.wellFormed p f = false := by
  have h6 : ¬ (1 ≤ fType f.hdr ∧ fType f.hdr ≤ 6) := by omega
  have h8 : fType f.hdr ≠ 8 := by omega
  unfold State.wellFormed
  extract_lets t
  simp [t, h6, h8]

/-- A malformed frame is counted, and nothing of it lands. -/
theorem State.deliverFrame_malformed {n : Nat} {f : Frame} (hp : p < 12) (h : s.wellFormed p f = false) : s.deliverFrame p n f = s.badControl p := by
  rw [State.deliverFrame, h, Bool.not_false, if_pos rfl, if_neg (by omega), State.badControl]

/-- The place of a frame of which nothing stays is free. -/
theorem State.freePlace_free {n : Nat} (hp : p < 12) (hh : (s.port p).rxHeld = []) (hpark : (s.gate (gateOf p)).park = []) :
    s.freePlace p n = s.setPort p { s.port p with rxFreed := (s.port p).rxFreed + 1 } := by
  unfold State.freePlace
  extract_lets x kept
  have hx : x.rxHeld = [] := hh
  have hk : kept = false := by simp [kept, hx, hpark]
  exact if_neg (by simp [hk]; omega)

theorem State.gate_congr (h : u.gates = s.gates) (g : Nat) : u.gate g = s.gate g := by rw [State.gate, State.gate, h]

theorem State.encrypts_congr (h : u.regs = s.regs) (p : Nat) : u.encrypts p = s.encrypts p := by
  rw [State.encrypts, State.flag, State.fld_congr (State.rd_congr h _), State.encrypts, State.flag]

/-- A malformed frame in its turn takes its number and returns its place. -/
theorem State.receive_malformed {f : Frame} (hp : p < 12) (hw : ∀ t : State, t.wellFormed p f = false) (hn : (s.port p).nak = false)
    (ha : (s.port p).rxArr = (s.port p).rxNext) (hh : (s.port p).rxHeld = []) (hu : (s.port p).unacked < 31) (hpark : (s.gate (gateOf p)).park = [])
    (he : s.encrypts p = false) :
    s.sameMem (s.receive p f) ∧ (s.receive p f).port p = { s.port p with
      rxArr := ((s.port p).rxNext + 1) % 65536, rxNext := ((s.port p).rxNext + 1) % 65536, unacked := (s.port p).unacked + 1,
      rxFreed := (s.port p).rxFreed + 1 } := by
  obtain ⟨x, hx⟩ : ∃ x, x = { s.port p with
      rxArr := ((s.port p).rxNext + 1) % 65536, rxNext := ((s.port p).rxNext + 1) % 65536, unacked := (s.port p).unacked + 1 } := ⟨_, rfl⟩
  obtain ⟨t, ht⟩ : ∃ t, t = (s.setPort p x).count C.linkFramesRx p := ⟨_, rfl⟩
  have htp : t.port p = x := by rw [ht]; exact State.port_setPort_same ..
  have hk : s.changes [.ports, .ctrs, .rx] t := by
    rw [ht]
    exact (State.changes_count ..).after ((State.changes_setPort ..).after .refl)
  have hb : t.changes Writes.post (t.badControl p) := State.changes_badControl ..
  have hbp : (t.badControl p).port p = x := (State.port_congr (hb.same .ports) p).trans htp
  have hbg : ((t.badControl p).gate (gateOf p)).park = [] := by rw [State.gate_congr (hb.same .gates), State.gate_congr (hk.same .gates), hpark]
  have hbh : ((t.badControl p).port p).rxHeld = [] := by rw [hbp, hx]; exact hh
  have hrun : s.receive p f = (t.badControl p).setPort p { x with rxFreed := x.rxFreed + 1 } := by
    unfold State.receive
    rw [if_neg (by omega)]
    extract_lets y n t1 t2 z t3
    rw [if_neg (show ¬ (s.port p).nak = true by rw [hn]; decide), if_neg (not_not.2 ha)]
    have ht2 : t2 = t := by rw [ht, hx]
    have ht3 : t3 = (t.badControl p).setPort p { x with rxFreed := x.rxFreed + 1 } := by
      show (if t2.encrypts p then _ else _) = _
      rw [ht2, if_neg (by rw [State.encrypts_congr (hk.same .regs), he]; decide), State.deliverFrame_malformed hp (hw t), State.freePlace_free hp hbh hbg, hbp]
    rw [ht3, if_neg]
    rw [State.port_setPort_same, hx]
    show ¬ 32 ≤ (s.port p).unacked + 1
    omega
  rw [hrun, State.port_setPort_same, hx]
  exact ⟨⟨(hb.same .rows).trans (hk.same .rows), (hb.same .lpddr).trans (hk.same .lpddr)⟩, rfl⟩

end Sys2Proof.Machine

open Sys2Proof Sys2Proof.Machine

/-- Settles O50: each row goes by what its control frame, its replay or its malformed frame does. -/
theorem replayAndAcknowledge : Obligations.ReplayAndAcknowledge := by
  unfold Obligations.ReplayAndAcknowledge
  intro p s hp hup x wire ctl naked
  have hok := portOk_of_lt hp
  have hack {t : State} (hs : t = s.sendAck p) : s.sameMem t ∧ t.regs = s.regs ∧ t.ctrs = s.ctrs := by
    have hk : s.changes [.outbox, .ports] (s.sendAck p) := State.changes_sendAck ..
    subst hs
    exact ⟨⟨hk.same .rows, hk.same .lpddr⟩, hk.same .regs, hk.same .ctrs⟩
  have hackrun (hu : 0 < x.unacked) : exec (.ackTimer p) s = .next (s.sendAck p) := by
    show execAckTimer p s = _
    rw [execAckTimer, unitOk, if_pos hok]
    exact if_pos (by rw [hup, decide_eq_true hu]; rfl)
  refine ⟨fun q r hq ht hc => ?_, fun hn => ?_, fun hu hd => ?_, fun hu hd => ?_, ?_, fun h => ⟨fun ht hk => ?_, fun ht hn ha hh hu hpark he => ?_⟩⟩
  · have hl : (s.port p).replay.dropWhile (fun f => f.1 != q.1) = x.replay := by
      show x.replay.dropWhile _ = x.replay
      rw [hq, List.dropWhile_cons_of_neg (by simp)]
    obtain ⟨ho, hx, hk⟩ := State.replayFrom_plain hl (by rw [hq]; exact List.cons_ne_nil _ _) ht hc
    refine ⟨s.replayFrom p q.1, ?_, ho, hx, ⟨hk.same .rows, hk.same .lpddr⟩, hk.same .regs⟩
    show execReplayTimer p s = _
    rw [execReplayTimer, unitOk, if_pos hok, show (s.port p).replay = q :: r from hq]
    exact if_pos hup
  · have hk : s.changes [.outbox, .ports, .rx] (s.sendNak p) := State.changes_sendNak ..
    refine ⟨s.sendNak p, ?_, s.outbox_sendNak p, s.port_sendNak p, ⟨hk.same .rows, hk.same .lpddr⟩, hk.same .regs, hk.same .ctrs⟩
    show execNakTimer p s = _
    rw [execNakTimer, unitOk, if_pos hok, need, if_pos (by rw [hup]; exact hn)]
  · have hd' : (s.port p).dry = false := hd
    obtain ⟨hm, hr, hc⟩ := hack rfl
    refine ⟨s.sendAck p, hackrun hu, ?_, ?_, hm, hr, hc⟩
    · rw [s.outbox_sendAck p, hd']; rfl
    · rw [s.port_sendAck p]; simp [x, hd']
  · have hd' : (s.port p).dry = true := hd
    obtain ⟨hm, hr, hc⟩ := hack rfl
    refine ⟨s.sendAck p, hackrun hu, ?_, ?_, hm, hr, hc⟩
    · rw [s.outbox_sendAck p, hd']; rfl
    · rw [s.port_sendAck p]; simp [x, hd']
  · obtain ⟨t, ht⟩ : ∃ t, t = s.count C.linkCrcErr p := ⟨_, rfl⟩
    have hkt : s.changes [.ctrs] t := ht ▸ State.changes_count ..
    have htp : t.port p = x := State.port_congr (hkt.same .ports) p
    have hk : t.changes [.outbox, .ports, .rx] (t.sendNak p) := State.changes_sendNak ..
    have hctr : t.ctr C.linkCrcErr p = min (s.ctr C.linkCrcErr p + 1) (2 ^ 64 - 1) := by rw [ht]; exact State.ctr_count_same ..
    have hrun : exec (.badCrcFrame p) s = .next (if x.nak then t else t.sendNak p) := by
      show execBadCrcFrame p s = _
      rw [execBadCrcFrame, unitOk, if_pos hok, need, if_pos hup, State.badCrc, ← ht]
      show Host.Outcome.next (if (t.port p).nak = true then t else t.sendNak p) = _
      rw [htp]
    cases hn : x.nak
    · refine ⟨t.sendNak p, by rw [hrun, hn]; rfl, (State.ctr_congr (hk.same .ctrs) ..).trans hctr, ?_, ?_,
        ⟨(hk.same .rows).trans (hkt.same .rows), (hk.same .lpddr).trans (hkt.same .lpddr)⟩, (hk.same .regs).trans (hkt.same .regs)⟩
      · rw [t.port_sendNak p, htp]; rfl
      · rw [t.outbox_sendNak p, htp, hkt.same .outbox]; rfl
    · refine ⟨t, by rw [hrun, hn]; rfl, hctr, htp, ?_, ⟨hkt.same .rows, hkt.same .lpddr⟩, hkt.same .regs⟩
      rw [hkt.same .outbox]
      exact (List.append_nil _).symm
  · have hk' : s.changes Writes.post (s.badControl p) := State.changes_badControl ..
    refine ⟨s.badControl p, ?_, hk'.same .ports, ⟨hk'.same .rows, hk'.same .lpddr⟩⟩
    show execReservedTypeFrame p h s = _
    rw [execReservedTypeFrame, unitOk, if_pos hok]
    have hctl : (fType h == 9 && decide (cKind h = 0 ∨ 7 ≤ cKind h)) = true := by simp [ht, hk]
    simp only [hctl, hup, need, Bool.true_or, Bool.and_self, if_true]
  · have hplain : s.plain p ⟨h, 0⟩ = ⟨h, 0⟩ := if_neg fun hc => by rw [State.encrypts, he] at hc; exact absurd hc.2 (by decide)
    obtain ⟨hm, hx⟩ := State.receive_malformed (f := ⟨h, 0⟩) hp (fun t => State.wellFormed_reserved ht) hn ha hh hu hpark he
    refine ⟨s.receive p ⟨h, 0⟩, ?_, hm, hx⟩
    show execReservedTypeFrame p h s = _
    rw [execReservedTypeFrame, unitOk, if_pos hok]
    have hctl : (fType h == 9 && decide (cKind h = 0 ∨ 7 ≤ cKind h)) = false := by
      rw [beq_eq_false_iff_ne.2 (by omega), Bool.false_and]
    simp only [hctl, hup, need, ht, hplain, decide_true, Bool.or_true, Bool.and_self, if_true, Bool.false_eq_true, if_false]
end

section
/-! The states of a port (Tables 15-4 and 19-2), where no request of its gate is outstanding and none is kept in a receive buffer. -/

-- The frame conditions are evaluated in the kernel: theorems elaborated in parallel would each hold a thread while they wait for it.
set_option Elab.async false

namespace Sys2Proof.Machine

variable {s u : State} {p st reason : Nat}

/-- No request of the port's gate is outstanding, and no port keeps a request in its receive buffer. -/
structure State.gateQuiet (s : State) (p : Nat) : Prop where
  ot : (s.gate (gateOf p)).ot = []
  held : ∀ q, (s.port q).rxHeld = []

theorem State.gateQuiet.congr (h : s.gateQuiet p) (hg : u.gates = s.gates) (hp : u.ports = s.ports) : u.gateQuiet p :=
  ⟨by rw [State.gate_congr hg, h.ot], fun q => by rw [State.port_congr hp, h.held q]⟩

theorem State.sameMem_of_changes {M : List Field} (h : s.changes M u) (hr : .rows ∉ M := by decide) (hl : .lpddr ∉ M := by decide) : s.sameMem u :=
  ⟨h.same .rows hr, h.same .lpddr hl⟩

theorem State.sameMem.trans {v : State} (h : s.sameMem u) (k : u.sameMem v) : s.sameMem v := ⟨k.1.trans h.1, k.2.trans h.2⟩

theorem gatePort_below_mgt (hp : p < 12) : (Reg.gatePort p).addr < mgtBase := by
  show gateBase (p / 3) + (0x100 + 0x100 * (p % 3)) < mgtBase
  unfold gateBase mgtBase regBase
  omega

theorem gateOf_lt (hp : p < 12) : gateOf p < 4 := by
  rw [gateOf, if_neg (by omega)]
  omega

theorem gateOt_ne_gatePort {g : Nat} (_ : g < 4) (_ : p < 12) : (Reg.gatePort p).addr ≠ (Reg.gateOt g).addr := by
  show gateBase (p / 3) + (0x100 + 0x100 * (p % 3)) ≠ gateBase g + 0x10
  unfold gateBase regBase
  omega

/-! Nothing goes on where nothing is kept. -/

theorem State.retryHeld_empty (h : (s.port p).rxHeld = []) (k : Nat) : s.retryHeld p k = s := by
  cases k with
  | zero => rfl
  | succ k => rw [State.retryHeld, h]

theorem State.retryGate_empty (h : ∀ q, (s.port q).rxHeld = []) (g : Nat) : s.retryGate g = s :=
  List.foldlRecOn _ _ (motive := fun t => t = s) rfl fun t ht q _ => by rw [ht, State.retryHeld_empty (h q)]

/-- A port that leaves READY starts again, and nothing of the stores or of another port changes. -/
theorem State.dropPort_quiet (hp : p < 12) (h : s.gateQuiet p) : s.sameMem (s.dropPort p) ∧ (s.dropPort p).port p = (s.port p).started
    ∧ (s.dropPort p).rd (.gatePort p) = s.rd (.gatePort p) := by
  unfold State.dropPort
  extract_lets g x mine parked ot park s1 gone s2 s3 s4
  have hmine : mine = [] := by
    show x.ot.filterMap _ = []
    rw [show x.ot = [] from h.ot, List.filterMap_nil]
  have hne := gateOt_ne_gatePort (gateOf_lt hp) hp
  have hrd : s1.rd (.gatePort p) = s.rd (.gatePort p) := (State.rd_setFld_ne _ _ _ hne).trans (State.rd_setFld_ne _ _ _ hne)
  have h1 : s.changes [.gates, .regs] s1 := (State.changes_syncGate ..).after ((State.changes_setGate ..).after .refl)
  have h2 : s1.changes [.waits] s2 := State.changes_set_waits ..
  have h4 : s4 = s2.setPort p (s2.port p).started := by
    show mine.foldl _ s3 = s3
    rw [hmine, List.foldl_nil]
  clear_value s4 s2 s1 mine
  have hports : s2.ports = s.ports := (h2.same .ports).trans (h1.same .ports)
  have hport : s2.port p = s.port p := State.port_congr hports p
  have hheld : ∀ q, (s4.port q).rxHeld = [] := fun q => by
    rw [h4]
    by_cases hq : p = q
    · subst hq
      rw [State.port_setPort_same]
      rfl
    · rw [State.port_setPort_ne s2 _ hq, State.port_congr hports, h.held]
  have hk : s2.changes [.ports, .rx] s4 := h4 ▸ State.changes_setPort ..
  rw [if_neg (by rw [hmine]; simp), State.retryGate_empty hheld]
  refine ⟨⟨(hk.same .rows).trans ((h2.same .rows).trans (h1.same .rows)), (hk.same .lpddr).trans ((h2.same .lpddr).trans (h1.same .lpddr))⟩, ?_, ?_⟩
  · rw [h4, State.port_setPort_same, hport]
  · rw [State.rd_congr (hk.same .regs), State.rd_congr (h2.same .regs), hrd]

/-- The states in which a port carries frames. -/
def upState (st : Nat) : Bool := decide (st = 4 ∨ st = 5)

/-- A port's state and the reason for it are set. -/
def State.markPort (s : State) (p st reason : Nat) : State :=
  (s.setFld (.gatePort p) F.gatePortState st).setFld (.gatePort p) F.gatePortReason reason

theorem State.changes_markPort (p st reason) : s.changes [.regs] (s.markPort p st reason) :=
  (State.changes_setFld ..).after ((State.changes_setFld ..).after .refl)

theorem State.portIn_markPort (s : State) (p : Nat) (hst : st < 8) (hr : reason < 16) : (s.markPort p st reason).portIn p st reason := by
  refine ⟨?_, ?_⟩
  · show (State.setFld ..).fld (.gatePort p) F.gatePortState = st
    rw [State.fld_setFld_apart _ _ _ _ _ (by decide), State.fld_setFld_same _ _ _ _ (by decide)]
    exact Nat.mod_eq_of_lt hst
  · show (State.setFld ..).fld (.gatePort p) F.gatePortReason = reason
    rw [State.fld_setFld_same _ _ _ _ (by decide)]
    exact Nat.mod_eq_of_lt hr

theorem State.portUp_markPort (s : State) (p : Nat) (hst : st < 8) (hr : reason < 16) : (s.markPort p st reason).portUp p = upState st := by
  rw [State.portUp, (s.portIn_markPort p hst hr).1, upState]

theorem State.portIn_congr (h : u.rd (.gatePort p) = s.rd (.gatePort p)) (hs : s.portIn p st reason) : u.portIn p st reason :=
  ⟨(State.fld_congr h _).trans hs.1, (State.fld_congr h _).trans hs.2⟩

theorem State.rd_linkEvent (hp : p < 12) (s : State) (q : Nat) : (s.linkEvent q).rd (.gatePort p) = s.rd (.gatePort p) :=
  State.rd_post_below (gatePort_below_mgt hp) ..

/-- A port enters a state other than AUTHENTICATING: it starts again where it comes up or goes down, and stays as it is otherwise. -/
theorem State.enterPort_settled (hp : p < 12) (h : s.gateQuiet p) (h2 : st ≠ 2) (hst : st < 8) (hr : reason < 16) :
    (s.enterPort p st reason).portIn p st reason ∧ s.sameMem (s.enterPort p st reason)
      ∧ (s.enterPort p st reason).port p = (if s.portUp p = upState st then s.port p else (s.port p).started) := by
  unfold State.enterPort
  extract_lets was x s1 s2 now s3 s4 s5
  have hs2 : s2 = s.markPort p st reason := by
    have h1 : s1 = s := if_neg h2
    show (s1.setFld _ _ _).setFld _ _ _ = _
    rw [h1, State.markPort]
  have hnow : now = s2.portUp p := rfl
  have hwas : was = s.portUp p := rfl
  have h3 : s3 = if (was && !now) = true then s2.dropPort p else s2 := rfl
  have h4 : s4 = if (!was && now) = true then s3.setPort p (s3.port p).started else s3 := rfl
  have h5 : s4.changes Writes.post s5 := State.changes_linkEvent ..
  have hr5 : s5.rd (.gatePort p) = s4.rd (.gatePort p) := s4.rd_linkEvent hp p
  rw [if_neg h2]
  clear_value s5 s4 s3 now s2 was
  have hk : s.changes [.regs] s2 := hs2 ▸ State.changes_markPort ..
  have hin : s2.portIn p st reason := hs2 ▸ s.portIn_markPort p hst hr
  rw [hs2, s.portUp_markPort p hst hr] at hnow
  have hport : s2.port p = s.port p := State.port_congr (hk.same .ports) p
  have hm : s.sameMem s2 := State.sameMem_of_changes hk
  have hsettled : s4.rd (.gatePort p) = s2.rd (.gatePort p) ∧ s.sameMem s4
      ∧ s4.port p = if s.portUp p = upState st then s.port p else (s.port p).started := by
    rw [← hnow, ← hwas]
    match was, now with
    | false, false =>
      obtain rfl := h3.trans (if_neg (by decide))
      obtain rfl := h4.trans (if_neg (by decide))
      exact ⟨rfl, hm, hport.trans (if_pos rfl).symm⟩
    | false, true =>
      obtain rfl := h3.trans (if_neg (by decide))
      rw [h4.trans (if_pos (by decide)), if_neg (by decide), State.port_setPort_same, hport]
      exact ⟨State.rd_congr ((State.changes_setPort ..).same .regs) _, hm.trans (State.sameMem_of_changes (State.changes_setPort ..)), rfl⟩
    | true, false =>
      obtain ⟨hdm, hdp, hdr⟩ := State.dropPort_quiet hp (h.congr (hk.same .gates) (hk.same .ports))
      rw [h4.trans (if_neg (by decide)), h3.trans (if_pos (by decide)), if_neg (by decide), hdp, hport]
      exact ⟨hdr, hm.trans hdm, rfl⟩
    | true, true =>
      obtain rfl := h3.trans (if_neg (by decide))
      obtain rfl := h4.trans (if_neg (by decide))
      exact ⟨rfl, hm, hport.trans (if_pos rfl).symm⟩
  obtain ⟨hrd, hmem, hp4⟩ := hsettled
  exact ⟨State.portIn_congr (hr5.trans hrd) hin, hmem.trans (State.sameMem_of_changes h5), (State.port_congr (h5.same .ports) p).trans hp4⟩

/-! The handshake begins (R332). -/

/-- What a HELLO says of its sender (R332, R391). -/
structure State.saysHello (s : State) (p : Nat) (h : Hello) : Prop where
  fabric : h.fabric = BitVec.ofNat 16 s.ownFabric
  encrypt : h.encrypt = s.encrypts p
  chain : h.chain = s.nv.chain
  quote : h.quote = s.quoted (bytesOf 64 h.nonce.toNat)

/-- A new handshake draws a key, forgets the old messages, and sends its HELLO. -/
theorem State.hello_sends (s : State) (p : Nat) : ∃ h : Hello, s.saysHello p h ∧ (s.hello p).outbox = s.outbox ++ [.hello p h]
    ∧ (s.hello p).port p = { s.port p with hello := false, proof := false, mine := some (s.free + 8, h), theirs := none } := by
  unfold State.hello
  extract_lets n nonce h t
  exact ⟨h, ⟨rfl, rfl, rfl, rfl⟩, rfl, State.port_setPort_same ..⟩

theorem State.closeSegment_empty (h : (s.port p).txSegment = []) : s.closeSegment p = s := by
  unfold State.closeSegment
  extract_lets x tag f tags
  exact if_pos (by show (s.port p).txSegment.isEmpty = true; rw [h]; rfl)

theorem State.startRekey_sends (ht : (s.port p).txSegment = []) : ∃ h : Hello, s.saysHello p h ∧ (s.startRekey p).outbox = s.outbox ++ [.hello p h]
    ∧ (s.startRekey p).port p
      = { s.port p with rekey := true, rekeyAsk := false, hello := false, proof := false, mine := some (s.free + 8, h), theirs := none }
    ∧ s.changes [.free, .outbox, .ports] (s.startRekey p) := by
  obtain ⟨x, hx⟩ : ∃ x, x = { s.port p with rekey := true, rekeyAsk := false } := ⟨_, rfl⟩
  have hrun : s.startRekey p = (s.setPort p x).hello p := by
    rw [State.startRekey, State.closeSegment_empty ht, hx]
  obtain ⟨h, hh, ho, hy⟩ := (s.setPort p x).hello_sends p
  rw [hrun]
  refine ⟨h, ⟨hh.fabric, hh.encrypt, hh.chain, hh.quote⟩, ho, ?_, (State.changes_hello ..).after ((State.changes_setPort_rx (by rw [hx]; rfl)).after .refl)⟩
  rw [hy, State.port_setPort_same, hx]
  rfl

theorem gateCfg_ne_gatePort {g : Nat} (_ : p < 12) : (Reg.gateCfg g).addr ≠ (Reg.gatePort p).addr := by
  show gateBase g ≠ gateBase (p / 3) + (0x100 + 0x100 * (p % 3))
  unfold gateBase regBase
  omega

theorem gateCfg_below_mgt {g : Nat} (hg : g < 4) : (Reg.gateCfg g).addr < mgtBase := by
  show gateBase g < mgtBase
  unfold gateBase mgtBase regBase
  omega

/-- A port enters AUTHENTICATING from a state in which it carries nothing: it forgets its partner's quote and says HELLO. -/
theorem State.enterPort_authenticating (hp : p < 12) (hdown : s.portUp p = false) : ∃ h : Hello, (s.enterPort p 2 0).portIn p 2 0
    ∧ (s.enterPort p 2 0).port p
      = { s.port p with quote := none, hello := false, proof := false, mine := some (s.free + 8, h), theirs := none }
    ∧ (s.enterPort p 2 0).outbox.getLast? = some (.hello p h) ∧ h.fabric = BitVec.ofNat 16 s.ownFabric ∧ h.encrypt = s.encrypts p ∧ h.chain = s.nv.chain
    ∧ s.sameMem (s.enterPort p 2 0) := by
  unfold State.enterPort
  extract_lets was x s1 s2 now s3 s4 s5
  have hwas : was = false := hdown
  have h1 : s1 = s.setPort p { s.port p with quote := none } := if_pos rfl
  have hs2 : s2 = s1.markPort p 2 0 := rfl
  have hnow : now = s2.portUp p := rfl
  have h3 : s3 = if (was && !now) = true then s2.dropPort p else s2 := rfl
  have h4 : s4 = if (!was && now) = true then s3.setPort p (s3.port p).started else s3 := rfl
  have h5 : s4.changes Writes.post s5 := State.changes_linkEvent ..
  have hpost (r : Reg) (hr : r.addr < mgtBase) : s5.rd r = s4.rd r := State.rd_post_below hr ..
  rw [if_pos rfl]
  clear_value s5 s4 s3 now s2 s1 was
  rw [hs2, s1.portUp_markPort p (by decide) (by decide)] at hnow
  have h32 : s3 = s2 := h3.trans (if_neg (by simp [hwas]))
  have h43 : s4 = s3 := h4.trans (if_neg (by simp [hnow, upState]))
  rw [h43, h32] at h5
  simp only [h43, h32] at hpost
  have hk1 : s.changes [.ports, .rx] s1 := h1 ▸ State.changes_setPort ..
  have hk2 : s1.changes [.regs] s2 := hs2 ▸ State.changes_markPort ..
  have hin : s2.portIn p 2 0 := hs2 ▸ s1.portIn_markPort p (by decide) (by decide)
  have hport : s5.port p = { s.port p with quote := none } := by
    rw [State.port_congr (h5.same .ports), State.port_congr (hk2.same .ports), h1, State.port_setPort_same]
  obtain ⟨h, hh, ho, hx⟩ := s5.hello_sends p
  have hk6 : s5.changes [.free, .outbox, .ports] (s5.hello p) := State.changes_hello ..
  have hword {r : Reg} (hr : r.addr < mgtBase) (hne : r.addr ≠ (Reg.gatePort p).addr) : s5.rd r = s.rd r := by
    rw [hpost r hr, hs2, State.markPort, State.rd_setFld_ne _ _ _ hne, State.rd_setFld_ne _ _ _ hne, State.rd_congr (hk1.same .regs)]
  refine ⟨h, ?_, ?_, ?_, ?_, ?_, ?_, ?_⟩
  · exact State.portIn_congr ((State.rd_congr (hk6.same .regs) _).trans (hpost _ (gatePort_below_mgt hp))) hin
  · rw [hx, hport, (h5.same .free), (hk2.same .free), (hk1.same .free)]
  · rw [ho, List.getLast?_append, List.getLast?_singleton]
    rfl
  · rw [hh.fabric, State.ownFabric, State.ownFabric, State.homeGate_congr ((h5.same .shape).trans ((hk2.same .shape).trans (hk1.same .shape))),
      State.fld_congr (hword (gateCfg_below_mgt s.homeGate_lt) (gateCfg_ne_gatePort hp)) _]
  · rw [hh.encrypt, State.encrypts, State.encrypts, State.flag, State.flag, State.fld_congr (hpost _ (gatePort_below_mgt hp)), hs2, State.markPort,
      State.fld_setFld_apart _ _ _ _ _ (by decide), State.fld_setFld_apart _ _ _ _ _ (by decide), State.fld_congr (State.rd_congr (hk1.same .regs) _)]
  · rw [hh.chain, h5.same .nv, hk2.same .nv, hk1.same .nv]
  · exact (State.sameMem_of_changes hk1).trans ((State.sameMem_of_changes hk2).trans ((State.sameMem_of_changes h5).trans (State.sameMem_of_changes hk6)))

theorem berOutcome_ne (b k : Nat) : berOutcome b k ≠ 2 ∧ berOutcome b k < 8 ∧ berOutcome b k ≠ 3 := by
  unfold berOutcome
  split_ifs <;> decide

end Sys2Proof.Machine

open Sys2Proof Sys2Proof.Machine

/-- Settles O49: every change of state is an entry to a state (State.enterPort_settled), but for the start of a handshake. -/
theorem linkPortStates : Obligations.LinkPortStates := by
  unfold Obligations.LinkPortStates
  intro p s hp hot hheld x speaks rekeys
  have hok := portOk_of_lt hp
  have hq : s.gateQuiet p := ⟨hot, hheld⟩
  have hcount (c : Ctr) (n : Nat) : (s.count c p n).gateQuiet p := hq.congr rfl rfl
  have hstate {n : Nat} (h : s.portState p = n) : s.portUp p = upState n := by rw [State.portUp, h, upState]
  have hretrain (fourth : Bool) (hup : s.portUp p = true) : (if fourth then (s.retrain p fourth).portIn p 6 9 else (s.retrain p fourth).portIn p 1 0)
      ∧ (s.retrain p fourth).port p = x.started ∧ s.sameMem (s.retrain p fourth) := by
    have h6 := State.enterPort_settled hp (hcount C.linkRetrain 1) (st := 6) (reason := 9) (by decide) (by decide) (by decide)
    have h1 := State.enterPort_settled hp (hcount C.linkRetrain 1) (st := 1) (reason := 0) (by decide) (by decide) (by decide)
    have hup' : (s.count C.linkRetrain p).portUp p = true := hup
    rw [hup', if_neg (by decide)] at h6 h1
    obtain ⟨hi6, hm6, hx6⟩ := h6
    obtain ⟨hi1, hm1, hx1⟩ := h1
    cases fourth
    · have hrun : s.retrain p false = (s.count C.linkRetrain p).enterPort p 1 0 := by rw [State.retrain, if_neg Bool.false_ne_true]
      rw [if_neg Bool.false_ne_true, hrun]
      exact ⟨hi1, hx1, hm1⟩
    · have hrun : s.retrain p true = (s.count C.linkRetrain p).enterPort p 6 9 := by rw [State.retrain, if_pos rfl]
      rw [if_pos rfl, hrun]
      exact ⟨hi6, hx6, hm6⟩
  have hrekey {i : Instr} (ht : x.txSegment = []) (he : exec i s = .next (s.startRekey p)) : rekeys i := by
    obtain ⟨h, hh, ho, hx, hk⟩ := State.startRekey_sends ht
    exact ⟨s.startRekey p, h, he, hk.same .regs, State.sameMem_of_changes hk, ⟨hh.fabric, hh.encrypt, hh.chain, hh.quote⟩, ho, hx⟩
  refine ⟨fun h1 hdead => ?_, fun h1 => ?_, fun h2 => ?_, fun b c k h3 => ?_, fun fourth hup => ⟨?_, fun hrep => ?_⟩, fun hup hask ht => hrekey ht ?_,
    fun hup he hre hseg ht => hrekey ht ?_⟩
  · obtain ⟨h, hin, hx, ho, hf, hen, hch, hm⟩ := State.enterPort_authenticating hp ((hstate h1).trans (by decide))
    refine ⟨s.enterPort p 2 0, h, ?_, hin, hx, ho, hf, hen, hch, hm⟩
    show execLinkTrained p s = _
    rw [execLinkTrained, unitOk, if_pos hok, need, if_pos (by simp [h1, hdead])]
  · obtain ⟨hin, hm, hx⟩ := State.enterPort_settled hp hq (st := 6) (reason := 1) (by decide) (by decide) (by decide)
    rw [hstate h1, if_pos (by decide)] at hx
    refine ⟨s.enterPort p 6 1, ?_, hin, hx, hm⟩
    show execLinkTrainTimeout p s = _
    rw [execLinkTrainTimeout, unitOk, if_pos hok, need, if_pos (by simp [h1])]
  · obtain ⟨hin, hm, -⟩ := State.enterPort_settled hp (hcount C.linkAuthFail 1) (st := 6) (reason := 6) (by decide) (by decide) (by decide)
    rw [← State.authFail] at hin hm
    refine ⟨s.authFail p 6, ?_, hin, hm⟩
    show execAuthTimeout p s = _
    rw [execAuthTimeout, unitOk, if_pos hok, need, if_pos (by simpa using h2)]
  · obtain ⟨t, ht⟩ : ∃ t, t = (s.count C.linkFecCorr p c).count C.linkFecUncorr p k := ⟨_, rfl⟩
    have hk : s.changes [.ctrs] t := ht ▸ (State.changes_count ..).after ((State.changes_count ..).after .refl)
    have hts : t.portState p = s.portState p := State.portState_congr (State.rd_congr (hk.same .regs) _)
    obtain ⟨hb2, hb8, hb3⟩ := berOutcome_ne b k
    obtain ⟨hin, hm, hx⟩ := State.enterPort_settled hp (hq.congr (hk.same .gates) (hk.same .ports)) hb2 hb8
      (reason := if berOutcome b k = 6 then 2 else 0) (by split <;> decide)
    refine ⟨s.berWindow p b c k, ?_, ?_⟩
    · show execLinkBerWindow p b c k s = _
      rw [execLinkBerWindow, unitOk, if_pos hok, need, if_pos (by simpa using h3)]
    · have hrun : s.berWindow p b c k = if berOutcome b k = t.portState p then t else t.enterPort p (berOutcome b k) (if berOutcome b k = 6 then 2 else 0) := by
        rw [State.berWindow, ← ht]
      rw [hrun, hts]
      by_cases he : berOutcome b k = s.portState p
      · rw [if_pos he]
        exact ⟨hts.trans he.symm, fun h => absurd (he.trans h) hb3, State.sameMem_of_changes hk⟩
      · rw [if_neg he]
        refine ⟨hin.1, fun h h6 => ?_, (State.sameMem_of_changes hk).trans hm⟩
        have hup : upState (berOutcome b k) = true := by
          have : berOutcome b k = 4 ∨ berOutcome b k = 5 := by
            revert h6
            unfold berOutcome
            split_ifs <;> simp
          exact decide_eq_true this
        rw [hx, State.portUp, hts, h, hup, if_neg (by decide), State.port_congr (hk.same .ports)]
  · obtain ⟨hin, hx, hm⟩ := hretrain fourth hup
    refine ⟨s.retrain p fourth, ?_, hin, hx, hm⟩
    show execLinkLockLoss p fourth s = _
    rw [execLinkLockLoss, unitOk, if_pos hok, need, if_pos hup]
  · obtain ⟨hin, hx, hm⟩ := hretrain fourth hup
    refine ⟨s.retrain p fourth, ?_, hin, hx, hm⟩
    show execLinkRetrain p fourth s = _
    rw [execLinkRetrain, unitOk, if_pos hok, need, if_pos (by rw [hup]; exact decide_eq_true hrep)]
  · show execPortRekey p s = _
    rw [execPortRekey, unitOk, if_pos hok, need, if_pos (by rw [hup]; exact hask)]
  · show execSegmentRekey p s = _
    rw [execSegmentRekey, unitOk, if_pos hok]
    refine if_pos ?_
    simp only [hup, he, show (s.port p).rekey = false from hre, Bool.and_self, Bool.not_false, Bool.true_and]
    exact decide_eq_true hseg
end

section
/-! The host's modules, and its transactions (R349 to R355, R361, R362). -/

-- The frame conditions are evaluated in the kernel: theorems elaborated in parallel would each hold a thread while they wait for it.
set_option Elab.async false

namespace Sys2Proof.Machine

variable {s u v : State} {m n k : Nat}

theorem State.modOf_congr (h : u.mods = s.mods) (m : Nat) : u.modOf m = s.modOf m := by rw [State.modOf, h, State.modOf]

theorem modOf_set {l : List Mod} (hl : l.length = 2) (x : Mod) {k : Nat} (hm : m < 2) : (l.set m x).getD k .down = if m = k then x else l.getD k .down := by
  obtain ⟨a, b, rfl⟩ := List.length_eq_two.1 hl
  match m, hm with
  | 0, _ => match k with
    | 0 | 1 | _ + 2 => rfl
  | 1, _ => match k with
    | 0 | 1 | _ + 2 => rfl

/-- A module enters a state, and the event of it is posted; the other module stands. -/
theorem State.modOf_setMod (hl : s.mods.length = 2) (hm : m < 2) (x : Mod) (k : Nat) : (s.setMod m x).modOf k = if m = k then x else s.modOf k := by
  unfold State.setMod
  split
  next h =>
    split
    next hk => rw [← hk, h]
    next => rfl
  next => rw [State.modOf_congr ((State.changes_post ..).same .mods), State.modOf, modOf_set hl x hm, State.modOf]

theorem State.sameMem_setMod (m : Nat) (x : Mod) : s.sameMem (s.setMod m x) := State.sameMem_of_changes (State.changes_setMod ..)

/-! Locks (R362). -/

/-- The owner of a management lock. -/
def State.lockOwner (s : State) (k : Nat) : Nat := s.fld (.mbxLock .mgmt k) F.mbxLockOwner

/-- The addresses of the management block's locks. -/
def lockAt (a : Nat) : Prop := ∃ k < 16, a = (Reg.mbxLock .mgmt k).addr

theorem State.keepsRegs.lockOwner (h : s.keepsRegs lockAt u) (hk : k < 16) : u.lockOwner k = s.lockOwner k := h.fld ⟨k, hk, rfl⟩ _

/-- A lock that no list of registers names is free. -/
theorem lockOwner_unlisted (hk : k < 16) : bits (resetAt (Reg.mbxLock .mgmt k).addr) 0 16 = 0 ∧ Reg.ofAddr (Reg.mbxLock .mgmt k).addr = some (.mbxLock .mgmt k) := by
  revert k
  decide

/-- One register of the list in the release of locks. -/
def State.dropLock (p : Nat → Bool) (s : State) (r : Reg) : State := match r with
  | .mbxLock _ _ => if s.fld r F.mbxLockOwner ≠ 0 ∧ p (s.fld r F.mbxLockOwner) = true then s.wr r 0 else s
  | _ => s

theorem State.dropLocks_eq (s : State) (p : Nat → Bool) :
    s.dropLocks p = (s.regs.filterMap fun (x : Nat × Word) => Reg.ofAddr x.1).foldl (State.dropLock p) s := rfl

/-- The owner is none of those whose locks are released. -/
def State.released (s : State) (p : Nat → Bool) (k : Nat) : Prop := s.lockOwner k = 0 ∨ p (s.lockOwner k) = false

theorem fld_zero (r : Reg) : (s.wr r 0).fld r F.mbxLockOwner = 0 := by
  rw [State.fld, State.rd_wr_same]
  rfl

theorem State.released_dropLock {p : Nat → Bool} (h : s.released p k) (r : Reg) : (s.dropLock p r).released p k := by
  unfold State.dropLock
  split
  next r b i =>
    split
    · by_cases ha : (Reg.mbxLock .mgmt k).addr = (Reg.mbxLock b i).addr
      · exact .inl (by rw [State.lockOwner, State.fld, State.rd, ha]; exact fld_zero (.mbxLock b i))
      · rwa [State.released, State.lockOwner, State.fld_congr (State.rd_wr_ne _ _ ha)]
    · exact h
  · exact h

/-- After the release no lock of the management block is left with an owner that is released. -/
theorem State.released_dropLocks (hk : k < 16) (s : State) {p : Nat → Bool} : (s.dropLocks p).released p k := by
  obtain ⟨hreset, haddr⟩ := lockOwner_unlisted hk
  rw [State.dropLocks_eq]
  have hkeep (l : List Reg) (t : State) (h : t.released p k) : (l.foldl (State.dropLock p) t).released p k :=
    List.foldlRecOn (motive := fun t : State => t.released p k) l _ h fun _ ht r _ => State.released_dropLock ht r
  have hmeet (l : List Reg) (t : State) (h : Reg.mbxLock .mgmt k ∈ l) : (l.foldl (State.dropLock p) t).released p k := by
    induction l generalizing t with
    | nil => cases h
    | cons r l ih =>
      rcases List.mem_cons.1 h with rfl | h
      · refine hkeep l _ ?_
        show (if t.lockOwner k ≠ 0 ∧ p (t.lockOwner k) = true then t.wr (.mbxLock .mgmt k) 0 else t).released p k
        split
        · exact .inl (fld_zero _)
        next hn =>
          rw [State.released]
          by_contra hc
          exact hn (by simpa using hc)
      · exact ih _ h
  by_cases hl : ∃ w, ((Reg.mbxLock .mgmt k).addr, w) ∈ s.regs
  · obtain ⟨w, hw⟩ := hl
    exact hmeet _ _ (List.mem_filterMap.2 ⟨_, hw, haddr⟩)
  · refine hkeep _ _ (.inl ?_)
    rw [State.lockOwner, State.fld, State.rd, SMap.get, show SMap.find? s.regs (Reg.mbxLock .mgmt k).addr = none from ?_]
    · exact hreset
    · by_contra hc
      obtain ⟨w, hw⟩ := Option.ne_none_iff_exists'.1 hc
      exact hl ⟨w, SMap.mem_of_find? hw⟩

/-! The operations that follow the release change no lock. -/

theorem lockAt_eventRegs {x : Reg} (hx : lockAt x.addr) : ∀ r ∈ eventRegs, x.addr ≠ r.addr := by
  obtain ⟨k, hk, ha⟩ := hx
  rw [ha]
  clear ha
  revert k
  decide

theorem State.keepsRegs_post_lock (s : State) (kind part job status : Nat) (pay : Payload) : s.keepsRegs lockAt (s.post kind part job status pay) :=
  fun _ hx => State.rd_post_ne (lockAt_eventRegs hx) ..

theorem State.keepsRegs_mbxTimeout_lock (s : State) (n a q : Nat) : s.keepsRegs lockAt (s.mbxTimeout .mgmt n a q) :=
  fun _ hx => State.rd_mbxTimeout_ne _ (lockAt_eventRegs hx _ (by simp [eventRegs]))

theorem State.keepsRegs_takeWait_lock (s : State) (n : Nat) : s.keepsRegs lockAt (s.takeWait .mgmt n).2 := fun _ hx =>
  (s.rd_takeWait .mgmt n).trans (State.rd_setBitOf_ne _ _ _ (lockAt_eventRegs hx _ (by simp [eventRegs])))

/-- A completion word whose receiver, the host, is in reset ends at once. -/
theorem State.mbxWrite_hostless (hn : 32 ≤ n) (hup : s.mods.any Mod.up = false) (a : Nat) (w : Word) :
    s.mbxWrite .mgmt n a w none = ((s.mbxTimeout .mgmt n a 2).answer none a 2 2, true) := by
  rw [State.mbxWrite, if_pos]
  rw [State.receiverInReset]
  simp [hup, show ¬ n < 32 by omega]

/-- What a pump of completion words does where no module is up: their writes end, none waits, no lock changes. -/
theorem State.pump_hostless (hn : 32 ≤ n) (k : Nat) (s : State) (hup : s.mods.any Mod.up = false) :
    s.keepsRegs lockAt (s.pump n k) ∧ (s.pump n k).mbxWaits = s.mbxWaits := by
  induction k generalizing s with
  | zero => exact ⟨.refl, rfl⟩
  | succ k ih =>
    unfold State.pump
    split
    · exact ⟨.refl, rfl⟩
    · split
      · exact ⟨.refl, rfl⟩
      next w t hq =>
        extract_lets s1
        have hup1 : s1.mods.any Mod.up = false := hup
        rw [State.mbxWrite_hostless hn hup1]
        dsimp only
        rw [if_pos rfl]
        obtain ⟨v, hv⟩ : ∃ v, v = ((s1.mbxTimeout .mgmt n agentMgmt 2).answer none agentMgmt 2 2).count C.fwCplDropped 0 := ⟨_, rfl⟩
        have hk : s.changes [.regs, .ctrs, .outbox, .cplq] v := hv ▸ (State.changes_count ..).after ((State.changes_answer ..).after
          ((State.changes_mbxTimeout ..).after ((State.changes_set_cplq ..).after .refl)))
        have hl : s.keepsRegs lockAt v := by
          rw [hv]
          exact (s1.keepsRegs_mbxTimeout_lock n agentMgmt 2).trans (State.keepsRegs_of_regs
            (((State.changes_count ..).same .regs).trans ((State.changes_answer ..).same .regs)))
        rw [← hv]
        obtain ⟨hr, hw⟩ := ih v (by rw [hk.same .mods]; exact hup)
        exact ⟨hl.trans hr, hw.trans (hk.same .mbxWaits)⟩

/-- Every write of the host that waits in the second state waits in the first. -/
def State.noNewHostWaits (s u : State) : Prop := ∀ w ∈ u.mbxWaits, isHost w.sender = true → w ∈ s.mbxWaits

theorem State.noNewHostWaits_of_eq (h : u.mbxWaits = s.mbxWaits) : s.noNewHostWaits u := fun _ hw _ => h ▸ hw

theorem State.noNewHostWaits.trans (h : s.noNewHostWaits u) (k : u.noNewHostWaits v) : s.noNewHostWaits v := fun w hw hs => h w (k w hw hs) hs

theorem State.noNewHostWaits_mbxWrite (s : State) (b : MbxBlk) (n : Nat) (w : Word) : s.noNewHostWaits (s.mbxWrite b n agentMgmt w none).1 := by
  unfold State.mbxWrite
  split
  · exact State.noNewHostWaits_of_eq (((State.changes_answer ..).same .mbxWaits).trans ((State.changes_mbxTimeout ..).same .mbxWaits))
  · split
    · exact State.noNewHostWaits_of_eq (((State.changes_answer ..).same .mbxWaits).trans ((State.changes_mbxLand ..).same .mbxWaits))
    · split
      · exact State.noNewHostWaits_of_eq (((State.changes_answer ..).same .mbxWaits).trans ((State.changes_mbxTimeout ..).same .mbxWaits))
      · intro x hx hs
        rcases List.mem_append.1 hx with hx | hx
        · exact hx
        · obtain rfl := List.mem_singleton.1 hx
          exact absurd hs (show ¬ isHost agentMgmt = true by decide)

theorem State.noNewHostWaits_putEvent (s : State) (kind part job status : Nat) (pay : Payload) :
    s.noNewHostWaits (s.putEvent kind part job status pay) := by
  unfold State.putEvent
  extract_lets a w0 s1 s2 s3
  have h1 : s.changes [.window] s1 := (State.changes_winWrite ..).after ((State.changes_winWrite ..).after .refl)
  have h2 : s1.changes [.window] s2 := State.changes_foldl .refl fun _ _ ht => (State.changes_winWrite ..).after ht
  have h3 : s.noNewHostWaits s3 := State.noNewHostWaits_of_eq ((h2.same .mbxWaits).trans (h1.same .mbxWaits))
  split
  · exact h3
  · exact h3.trans (s3.noNewHostWaits_mbxWrite _ _ _)

theorem State.noNewHostWaits_post (s : State) (kind part job status : Nat) (pay : Payload) : s.noNewHostWaits (s.post kind part job status pay) := by
  unfold State.post
  extract_lets s1 s2
  have h2 : s.noNewHostWaits s2 := by
    unfold s2
    split
    · exact State.noNewHostWaits_of_eq rfl
    · exact fun w hw hs => s.noNewHostWaits_putEvent 0 0 0 0 [(8, 8, s.evOver)] w hw hs
  split
  · exact State.noNewHostWaits_of_eq rfl
  · split
    · exact h2.trans (State.noNewHostWaits_of_eq rfl)
    · exact h2.trans (s2.noNewHostWaits_putEvent _ _ _ _ _)

/-- What the loss of the last module leaves alone (R361): the modules, the locks, and of the host's waiting writes none is new. -/
structure State.hostEnds (s u : State) : Prop where
  mods : u.mods = s.mods
  lost : u.lostTags = s.lostTags
  locks : s.keepsRegs lockAt u
  waits : s.noNewHostWaits u

theorem State.hostEnds.trans (h : s.hostEnds u) (k : u.hostEnds v) : s.hostEnds v :=
  ⟨k.mods.trans h.mods, k.lost.trans h.lost, h.locks.trans k.locks, h.waits.trans k.waits⟩

theorem State.hostEnds.refl : s.hostEnds s := ⟨rfl, rfl, .refl, State.noNewHostWaits_of_eq rfl⟩

/-- One write that waited for the host ends. -/
def State.endHostWait (s : State) (w : MbxWait) : State :=
  let s := (s.takeWait .mgmt w.n).2
  let s := (s.mbxTimeout .mgmt w.n w.sender 2).answer w.host w.sender 2 2
  (if w.n < 63 then s.count C.fwCplDropped 0 else s).pump w.n 64

theorem State.hostEnds_endHostWait {w : MbxWait} (hn : 32 ≤ w.n) (hup : s.mods.any Mod.up = false) : s.hostEnds (s.endHostWait w) := by
  unfold State.endHostWait
  extract_lets s1 s2
  obtain ⟨s3, h3⟩ : ∃ s3, s3 = if w.n < 63 then s2.count C.fwCplDropped 0 else s2 := ⟨_, rfl⟩
  rw [← h3]
  have hk2 : s1.changes [.regs, .ctrs, .outbox] s2 := (State.changes_answer ..).after ((State.changes_mbxTimeout ..).after .refl)
  have hk3 : s2.changes [.ctrs] s3 := h3 ▸ State.changes_ite (State.changes_count ..) .refl
  have hk1 : s.changes [.regs, .mbxWaits] s1 := State.changes_takeWait ..
  have hw1 : s.noNewHostWaits s1 := fun x hx _ => (List.mem_filter.1 hx).1
  have hl2 : s1.keepsRegs lockAt s2 := (s1.keepsRegs_mbxTimeout_lock w.n w.sender 2).trans (State.keepsRegs_of_regs ((State.changes_answer ..).same .regs))
  have hmods : s3.mods = s.mods := (hk3.same .mods).trans ((hk2.same .mods).trans (hk1.same .mods))
  have hlost : s3.lostTags = s.lostTags := (hk3.same .lostTags).trans ((hk2.same .lostTags).trans (hk1.same .lostTags))
  obtain ⟨hr, hw⟩ := State.pump_hostless hn 64 s3 (by rw [hmods]; exact hup)
  have hk4 : s3.changes [.outbox, .regs, .ctrs, .mbxWaits, .cplq] (s3.pump w.n 64) := State.changes_pump ..
  exact ⟨(hk4.same .mods).trans hmods, (hk4.same .lostTags).trans hlost,
    (s.keepsRegs_takeWait_lock w.n).trans (hl2.trans ((State.keepsRegs_of_regs (hk3.same .regs)).trans hr)),
    hw1.trans (State.noNewHostWaits_of_eq (hw.trans ((hk3.same .mbxWaits).trans (hk2.same .mbxWaits))))⟩

/-- The loss of a module (R354, R361, R362): of its tags every one is marked, no mailbox write of them waits, and no lock is theirs. -/
theorem State.loseModule_up (hup : (s.modOf m).up = true) (next : Mod) :
    (s.loseModule m next).mods = s.mods.set m next ∧ (∀ t ∈ s.tagsOf m, t ∈ (s.loseModule m next).lostTags)
      ∧ (∀ w ∈ (s.loseModule m next).mbxWaits, isHost w.sender = true → w.sender ∉ s.tagsOf m)
      ∧ ∀ k < 16, (s.loseModule m next).lockOwner k ∉ s.tagsOf m := by
  unfold State.loseModule
  rw [hup, Bool.not_true, if_neg Bool.false_ne_true]
  extract_lets tags mine s1 s2 s3 s4 s5
  have h1 : s.changes [.regs] s1 := State.changes_foldl .refl fun _ _ ht => (State.changes_setBitOf ..).after ht
  have hw2 : s2.mbxWaits = s1.mbxWaits.filter fun w => !mine w := rfl
  have hl2 : s2.lostTags = dedup (s1.lostTags ++ tags) := rfl
  have hm2 : s2.mods = s1.mods := rfl
  have h3 : s2.changes [.regs] s3 := State.changes_dropLocks ..
  have hr3 : ∀ k < 16, s3.released (fun a => tags.contains a) k := fun k hk => s2.released_dropLocks hk
  have hm4 : s4.mods = s3.mods.set m next := rfl
  have h4 : s3.changes [.mods] s4 := State.changes_set_mods ..
  have h5 : s4.hostEnds s5 := by
    unfold s5
    split
    · exact .refl
    next hany =>
      have hany' : s4.mods.any Mod.up = false := by simpa [State.anyUp] using hany
      refine (List.foldlRecOn (motive := fun t : State => s4.hostEnds t) _ _ State.hostEnds.refl fun t ht w hw => ?_)
      have hn : w.blk = .mgmt ∧ 32 ≤ w.n := of_decide_eq_true (List.mem_filter.1 hw).2
      exact ht.trans (State.hostEnds_endHostWait (s := t) hn.2 (by rw [ht.mods]; exact hany'))
  clear_value s5 s4 s3 s2 s1
  obtain ⟨s6, h6⟩ : ∃ s6, s6 = s5.post 6 0 0 0 [(8, 1, m), (9, 1, modCode next)] := ⟨_, rfl⟩
  have hk6 : s5.changes Writes.post s6 := h6 ▸ State.changes_post ..
  have hk : s4.hostEnds s6 := h5.trans ⟨hk6.same .mods, hk6.same .lostTags, h6 ▸ s5.keepsRegs_post_lock _ _ _ _ _, h6 ▸ s5.noNewHostWaits_post _ _ _ _ _⟩
  rw [← h6]
  refine ⟨?_, fun t ht => ?_, fun w hw hs => ?_, fun k hk16 => ?_⟩
  · rw [hk.mods, hm4, h3.same .mods, hm2, h1.same .mods]
  · rw [hk.lost, h4.same .lostTags, h3.same .lostTags, hl2]
    exact mem_dedup (List.mem_append_right _ ht)
  · have hold := hk.waits w hw hs
    rw [h4.same .mbxWaits, h3.same .mbxWaits, hw2] at hold
    have hnot := (List.mem_filter.1 hold).2
    simpa [mine, hs, tags] using hnot
  · have h0 : 0 ∉ s.tagsOf m := by simp [State.tagsOf]
    rw [hk.locks.lockOwner hk16, State.lockOwner, State.fld_congr (State.rd_congr (h4.same .regs) _)]
    rcases hr3 k hk16 with h | h
    · rw [← State.lockOwner, h]
      exact h0
    · rw [← State.lockOwner]
      simpa [tags] using h

/-! Host transactions (R352 to R355). -/

theorem hReg_window {a : Nat} (h : a < 0x100000) : hReg a = none := if_neg (by omega)

theorem State.hostRead_window {h : BitVec 128} (ha : hAddr h < 0x100000) (hr : s.hostRefusal h false = 0) :
    s.hostRead h = s.emit (.response (answerHdr h 0 0) (BitVec.ofNat 2048 (packNat 8 ((List.range (hLen h)).map fun i =>
      (if hAddr h < 0x1000 then s.headerByte (hAddr h + i) else s.winByte (hAddr h + i)).toNat)))) := by
  unfold State.hostRead
  extract_lets a reason bytes
  rw [if_neg (not_not.2 hr), show hReg a = none from hReg_window ha]
  simp only [bytes, List.map_map]
  rfl

theorem State.hostWrite_window {h : BitVec 128} (ha : hAddr h < 0x100000) (hr : s.hostRefusal h true = 0) (d : BitVec 2048) :
    s.hostWrite h d = if hAddr h = 0x10 then { s with evTail := d.extractLsb' 0 64 } else s.winWrite (hAddr h) (hLen h) (bits d 0 (8 * hLen h)) := by
  unfold State.hostWrite
  extract_lets a w reason
  rw [if_neg (not_not.2 hr), show hReg a = none from hReg_window ha]

/-- A refused transaction is answered with its reason, and nothing else of it is performed. -/
theorem State.refuseHost_frame (s : State) (h : BitVec 128) (r : Nat) : (s.refuseHost h r).outbox = s.outbox ++ [.response (answerHdr h 1 r) 0]
    ∧ s.sameMem (s.refuseHost h r) ∧ (s.refuseHost h r).regs = s.regs ∧ (s.refuseHost h r).window = s.window := by
  unfold State.refuseHost
  split
  · exact ⟨rfl, ⟨rfl, rfl⟩, rfl, rfl⟩
  · exact ⟨rfl, ⟨rfl, rfl⟩, rfl, rfl⟩

theorem hLen_le (h : BitVec 128) : hLen h ≤ 256 := by
  unfold hLen
  match hSize h with
  | 0 | 1 | 2 => decide
  | _ + 3 => exact Nat.zero_le _

/-- A byte of the written data. -/
theorem getD_bytesOf_bits (d : BitVec 2048) {n i : Nat} (hi : i < n) : (bytesOf n (bits d 0 (8 * n))).getD i 0 = d.extractLsb' (8 * i) 8 := by
  rw [getD_bytesOf hi]
  apply BitVec.eq_of_toNat_eq
  rw [BitVec.toNat_ofNat, BitVec.extractLsb'_toNat, bits, BitVec.extractLsb'_toNat, Nat.shiftRight_zero, Nat.shiftRight_eq_div_pow,
    show 8 * n = 8 * i + (8 * n - 8 * i) by omega, Nat.pow_add, Nat.mod_mul_right_div_self, Nat.mod_mod_of_dvd _ (Nat.pow_dvd_pow 2 (by omega))]

end Sys2Proof.Machine

open Sys2Proof Sys2Proof.Machine

/-- Settles O53: the loss of a module by State.loseModule_up, the window by its bytes. -/
theorem hostModulesAndTransactions : Obligations.HostModulesAndTransactions := by
  unfold Obligations.HostModulesAndTransactions
  intro s
  have hmodule {m : Nat} (hm : m < 2) : decide (m < 2) = true := decide_eq_true hm
  have hside (hb : 3 ≤ s.bootStage) : s.sidebandUp = true := decide_eq_true hb
  have hloss {m : Nat} (hm : m < 2) (hl : s.mods.length = 2) :
      (s.loseModule m .training).modOf m = .training ∧ (s.loseModule m .training).modOf (1 - m) = s.modOf (1 - m) := by
    have hne : m ≠ 1 - m := by omega
    cases hup : (s.modOf m).up
    · have hrun : s.loseModule m .training = s.setMod m .training := by rw [State.loseModule, hup]; rfl
      rw [hrun, State.modOf_setMod hl hm, State.modOf_setMod hl hm, if_pos rfl, if_neg hne]
      exact ⟨rfl, rfl⟩
    · obtain ⟨hmods, -⟩ := State.loseModule_up hup .training
      rw [State.modOf, hmods, modOf_set hl _ hm, State.modOf, hmods, modOf_set hl _ hm, if_pos rfl, if_neg hne]
      exact ⟨rfl, rfl⟩
  have hmem (m : Nat) : s.sameMem (s.loseModule m .training) := State.sameMem_of_changes (State.changes_loseModule ..)
  refine ⟨fun m hm hl => ⟨fun hb => ?_, fun hup => ?_, fun ht => ⟨fun n => ?_, ?_⟩⟩, fun hany hlost => ?_,
    fun m h hm hc ht => ⟨fun hr => ?_, fun hr hlo hhi => ?_⟩, fun m h d hm hc ht => ⟨fun hr => ?_, fun hr ha => ?_, fun hr hlo hhi => ?_⟩,
    fun m h d hm hb => ⟨fun hmay => ?_, fun ht ha hr => ?_⟩⟩
  · refine ⟨_, ?_, (hloss hm hl).1, (hloss hm hl).2, hmem m⟩
    show execModuleTrainRequest m s = _
    rw [execModuleTrainRequest, unitOk, if_pos (hmodule hm), need, if_pos (hside hb)]
  · obtain ⟨-, htags, hwaits, hlocks⟩ := State.loseModule_up hup .training
    refine ⟨_, ?_, (hloss hm hl).1, hmem m, htags, hwaits, hlocks⟩
    show execModuleLinkLoss m s = _
    rw [execModuleLinkLoss, unitOk, if_pos (hmodule hm), need, if_pos hup]
  · obtain ⟨t, htdef⟩ : ∃ t, t = s.count C.hostLaneRepair 0 n := ⟨_, rfl⟩
    have hk : s.changes [.ctrs] t := htdef ▸ State.changes_count ..
    have hrun (l : Lanes) : exec (.moduleTrained m l n) s = .next (match l with
        | .all => ({ t with hostLost := false } : State).setMod m .x64
        | .half upper => ({ t with hostLost := false } : State).setMod m (.x32 upper)
        | .neither => t.setMod m .down) := by
      show execModuleTrained m l n s = _
      cases l <;> rw [execModuleTrained, unitOk, if_pos (hmodule hm), need, if_pos (decide_eq_true ht), htdef]
    have hup (x : Mod) (hx : x ≠ .training) : (({ t with hostLost := false } : State).setMod m x).modOf m = x
        ∧ (({ t with hostLost := false } : State).setMod m x).hostLost = false ∧ s.sameMem (({ t with hostLost := false } : State).setMod m x) := by
      have hk' : s.changes [.ctrs, .hostLost] ({ t with hostLost := false } : State) := (State.changes_set_hostLost ..).after (hk.after .refl)
      refine ⟨?_, (State.changes_setMod ..).same .hostLost, (State.sameMem_of_changes hk').trans (State.sameMem_setMod m x)⟩
      rw [State.modOf_setMod (by rw [hk'.same .mods]; exact hl) hm, if_pos rfl]
    refine ⟨⟨_, hrun .all, hup .x64 (by decide)⟩, fun up => ⟨_, hrun (.half up), hup (.x32 up) (by simp)⟩, ⟨_, hrun .neither, ?_, ?_, ?_⟩⟩
    · rw [State.modOf_setMod (by rw [hk.same .mods]; exact hl) hm, if_pos rfl]
    · exact ((State.changes_setMod ..).same .hostLost).trans (hk.same .hostLost)
    · exact (State.sameMem_of_changes hk).trans (State.sameMem_setMod m .down)
  · refine ⟨s.setMod m .down, ?_, ?_, State.sameMem_setMod m .down⟩
    · show execModuleTrainTimeout m s = _
      rw [execModuleTrainTimeout, unitOk, if_pos (hmodule hm), need, if_pos (decide_eq_true ht)]
    · rw [State.modOf_setMod hl hm, if_pos rfl]
  · show execHostLoss s = _
    rw [execHostLoss, need, if_pos (by rw [hany, hlost]; rfl)]
  · obtain ⟨ho, hm', hregs, hw⟩ := s.refuseHost_frame h (s.hostRefusal h false)
    refine ⟨_, ?_, ho, hm', hregs, hw⟩
    show execHostRead m h s = _
    rw [execHostRead, unitOk, if_pos (hmodule hm), need, if_pos (by rw [hc, ht]; rfl), State.hostRead]
    exact congrArg Host.Outcome.next (if_pos hr)
  · show execHostRead m h s = _
    rw [execHostRead, unitOk, if_pos (hmodule hm), need, if_pos (by rw [hc, ht]; rfl), State.hostRead_window hhi hr]
    simp only [if_neg (Nat.not_lt.2 hlo)]
    rfl
  · obtain ⟨ho, hm', hregs, hw⟩ := s.refuseHost_frame h (s.hostRefusal h true)
    refine ⟨_, ?_, ho, hm', hregs, hw⟩
    show execHostWrite m h d s = _
    rw [execHostWrite, unitOk, if_pos (hmodule hm), need, if_pos (by rw [hc, ht]; rfl), State.hostWrite]
    exact congrArg Host.Outcome.next (if_pos hr)
  · show execHostWrite m h d s = _
    rw [execHostWrite, unitOk, if_pos (hmodule hm), need, if_pos (by rw [hc, ht]; rfl), State.hostWrite_window (by rw [ha]; decide) hr, if_pos ha]
  · refine ⟨s.winWrite (hAddr h) (hLen h) (bits d 0 (8 * hLen h)), ?_, fun i hi => ?_, fun a ha => ?_, ⟨rfl, rfl⟩, rfl, rfl⟩
    · show execHostWrite m h d s = _
      rw [execHostWrite, unitOk, if_pos (hmodule hm), need, if_pos (by rw [hc, ht]; rfl), State.hostWrite_window hhi hr, if_neg (by omega)]
    · rw [State.winByte_winWrite, if_pos (by omega), Nat.add_sub_cancel_left, getD_bytesOf_bits d hi]
    · rw [State.winByte_winWrite, if_neg (by omega)]
  · show execSidebandAccess m h d s = _
    rw [execSidebandAccess, unitOk, if_pos (hmodule hm), need, if_pos (hside hb), hmay]
    rfl
  · have hmay : sidebandMay h = true := by
      unfold sidebandMay
      simp only [ht, show hAddr h < 0x1000 by omega, decide_true, Bool.true_or]
    show execSidebandAccess m h d s = _
    rw [execSidebandAccess, unitOk, if_pos (hmodule hm), need, if_pos (hside hb), hmay, if_neg (by decide), if_pos ht,
      State.hostRead_window (by omega) hr]
    simp only [if_pos (show hAddr h < 0x1000 by omega)]
end

section
/-! A firmware command that is performed when it is read, with nothing outstanding (R365, R368, R374). -/

-- The frame conditions are evaluated in the kernel: theorems elaborated in parallel would each hold a thread while they wait for it.
set_option Elab.async false

namespace Sys2Proof.Machine

variable {s t u v p : State} {c : FwCmd} {o : FwOut} {f : BringIn} {e : FwEnd}

/-! The read of a command: the mailbox, and what it answers, change. -/

/-- The mailboxes of the management dies. -/
def mailboxAddr (a : Nat) : Prop := mgtBase + 0x5000 ≤ a ∧ a < mgtBase + 0x5580

/-- The registers outside the mailboxes of the management dies. -/
def offMailboxes (a : Nat) : Prop := ¬ mailboxAddr a

theorem offMailboxes_below {a : Nat} (h : a < mgtBase + 0x5000) : offMailboxes a := fun hm => Nat.lt_irrefl _ (h.trans_le hm.1)

theorem mailboxAddr_of_offset {r : Reg} {k : Nat} (hr : r.addr = mgtBase + (0x5000 + k)) (hk : k < 0x580) : mailboxAddr r.addr := by
  unfold mailboxAddr
  omega

/-- The registers that a word for a mailbox of the management dies may change. -/
def mbxRegs (n : Nat) : List Reg := [.mbxData .mgmt n, .mbxSender .mgmt n, .mbxStatus .mgmt, .mbxWait .mgmt, .mbxToutLog .mgmt]

theorem mailboxAddr_mbxRegs {n : Nat} (hn : n < 64) : ∀ r ∈ mbxRegs n, mailboxAddr r.addr := by
  simp only [mbxRegs, List.forall_mem_cons, List.not_mem_nil, false_imp_iff, implies_true, and_true]
  exact ⟨mailboxAddr_of_offset (k := 8 * n) rfl (by omega),
    mailboxAddr_of_offset (k := 0x200 + 8 * n) (by show mgtBase + (0x5200 + 8 * n) = _; omega) (by omega),
    mailboxAddr_of_offset (k := 0x400) rfl (by decide), mailboxAddr_of_offset (k := 0x408) rfl (by decide),
    mailboxAddr_of_offset (k := 0x420) rfl (by decide)⟩

theorem State.writesAt_mbxLand {A : Nat → Prop} {n : Nat} (h : s.writesAt A t) (hA : ∀ r ∈ mbxRegs n, A r.addr) (a : Nat) (w : Word) :
    s.writesAt A (t.mbxLand .mgmt n a w) := by
  simp only [mbxRegs, List.forall_mem_cons, List.not_mem_nil, false_imp_iff, implies_true, and_true] at hA
  obtain ⟨hdata, hsender, hstatus, -, -⟩ := hA
  unfold State.mbxLand
  extract_lets s1 s2 s3
  have h3 : s.writesAt A s3 := ((h.wr hdata _).wr hsender _).wr hstatus _
  split
  · exact h3.of_regs (by dsimp only; split <;> rfl)
  · exact h3

theorem State.writesAt_fwTake (s : State) (c : FwCmd) (hc : c.mbox < 32) : s.writesAt mailboxAddr (s.fwTake c) := by
  unfold State.fwTake
  split
  · exact .same rfl
  · refine State.writesAt.of_regs (t := (s.mbxRead .mgmt c.mbox agentMgmt).2) ?_ rfl
    unfold State.mbxRead
    extract_lets w s1 s2
    split
    · exact .same rfl
    · have h1 : s.writesAt mailboxAddr s1 := .wr (.same rfl) (mailboxAddr_of_offset (k := 0x400) rfl (by decide)) _
      have h2 : s.writesAt mailboxAddr s2 := by
        unfold s2
        split
        next w' t' heq =>
          have ht : t' = (s1.takeWait .mgmt c.mbox).2 := (congrArg Prod.snd heq).symm
          have htake : s.writesAt mailboxAddr t' := ht ▸ (h1.wr (mailboxAddr_of_offset (r := .mbxWait .mgmt) (k := 0x408) rfl (by decide)) _).of_regs rfl
          exact (State.writesAt_mbxLand htake (mailboxAddr_mbxRegs (by omega)) _ _).of_regs ((State.changes_answer ..).same .regs)
        next => exact h1
      show s.writesAt mailboxAddr (if 32 ≤ c.mbox then s2.pump c.mbox 64 else s2)
      rw [if_neg (by omega)]
      exact h2

theorem State.keepsRegs_fwTake (s : State) (c : FwCmd) (hc : c.mbox < 32) : s.keepsRegs offMailboxes (s.fwTake c) :=
  (s.writesAt_fwTake c hc).keepsRegs fun _ => id

theorem State.mbxSame.eq (h : s.mbxSame t) : t = { s with
    regs := t.regs, outbox := t.outbox, mbxWaits := t.mbxWaits, cplq := t.cplq, ctrs := t.ctrs, fwTurn := t.fwTurn } :=
  congrArg (fun x : State => { x with
    regs := t.regs, outbox := t.outbox, mbxWaits := t.mbxWaits, cplq := t.cplq, ctrs := t.ctrs, fwTurn := t.fwTurn }) h

/-! The checks see nothing of the mailbox. -/

theorem State.readCmd_congr (h : t.window = s.window) (c : FwCmd) : t.readCmd c = s.readCmd c := by
  rw [State.readCmd, State.readCmd, State.winRead_congr fun i _ => State.winByte_congr h _]

theorem State.resultOk_mbxSame (h : s.mbxSame t) (o : FwOut) : t.resultOk o = s.resultOk o := by
  rw [h.eq]
  rfl

theorem mgtPart_offMailboxes {q : Nat} (hq : q < 12) : offMailboxes (Reg.mgtPart q).addr := offMailboxes_below <| by
  show mgtBase + (0x2000 + 0x10 * q) < mgtBase + 0x5000
  omega

theorem hatchEntry_offMailboxes {g n k : Nat} (hg : g < 4) (hn : n < 1024) (hk : k < 8) : offMailboxes (Reg.hatchEntry g n k).addr := offMailboxes_below <| by
  show gateBase g + 0x80000 + 64 * n + 8 * k < mgtBase + 0x5000
  unfold gateBase mgtBase regBase
  omega

section
variable (hr : s.keepsRegs offMailboxes t)
include hr

theorem State.partEn_keepsRegs {q : Nat} (hq : q < 12) : t.partEn q = s.partEn q := hr.flag (mgtPart_offMailboxes hq) _

theorem State.resetting_keepsRegs {q : Nat} (hq : q < 12) : t.resetting q = s.resetting q := by
  rw [State.resetting, hr.fld (mgtPart_offMailboxes hq), State.resetting]

theorem State.partOn_keepsRegs (q : Nat) : t.partOn q = s.partOn q := by
  unfold State.partOn
  by_cases hq : q < 12
  · rw [State.partEn_keepsRegs hr hq]
  · rw [decide_eq_false hq, Bool.false_and, Bool.false_and]

variable (hs : t.shape = s.shape)
include hs

theorem State.hatch_keepsRegs {n : Nat} (hn : n < 1024) : t.hatch n = s.hatch n := by
  have hg := s.homeGate_lt
  rw [State.hatch, State.homeGate_congr hs, State.hatch, State.hatchAt, State.hatchAt]
  rw [hr _ (hatchEntry_offMailboxes hg hn (by decide)), hr _ (hatchEntry_offMailboxes hg hn (by decide)),
    hr _ (hatchEntry_offMailboxes hg hn (by decide)), hr _ (hatchEntry_offMailboxes hg hn (by decide)), hr _ (hatchEntry_offMailboxes hg hn (by decide))]

theorem State.namedPart_keepsRegs (o : FwOut) : t.namedPart o = s.namedPart o := by
  rw [State.namedPart, State.hatch_keepsRegs hr hs (bits_lt ..), State.namedPart]

end

theorem State.readStatus_congr (h : s.mbxSame t) (hr : s.keepsRegs offMailboxes t) (o : FwOut) : t.readStatus o = s.readStatus o := by
  have hs : t.shape = s.shape := by rw [h.eq]
  have hfw : t.fw = s.fw := State.mbxSame_fw h
  have hparts : t.parts = s.parts := by rw [h.eq]
  have hname : ∀ o, t.namedPart o = s.namedPart o := State.namedPart_keepsRegs hr hs
  have hright : t.hasRight o = s.hasRight o := by
    unfold State.hasRight
    rw [hname]
    simp only [State.partOn_keepsRegs hr, State.part, hparts]
  have hbefore : ∀ a b, t.before a b = s.before a b := fun a b => by
    unfold State.before
    simp only [hname]
  have hturn : t.hasTurn o = s.hasTurn o := by
    unfold State.hasTurn State.ahead
    rw [hfw]
    simp only [hbefore]
  have hqueue : t.queueLen o = s.queueLen o := by
    unfold State.queueLen
    rw [hfw]
    simp only [hname]
  unfold State.readStatus
  have hboot : t.bootStage = s.bootStage := by rw [h.eq]
  simp only [State.resultOk_mbxSame h, hright, hturn, hqueue, hboot, State.mbxSame_bring h, hname]
  cases s.namedPart o with
  | none => rfl
  | some q =>
    by_cases hq : q < 12
    · simp only [State.resetting_keepsRegs hr hq]
    · simp only [decide_eq_false hq, Bool.false_and]

/-! The device as firmware performs the command. -/

/-- The device as firmware sees it when it has read a command. -/
structure State.asRead (s p : State) (o : FwOut) : Prop where
  eq : p = { s with regs := p.regs, outbox := p.outbox, mbxWaits := p.mbxWaits, cplq := p.cplq, ctrs := p.ctrs, fwTurn := p.fwTurn, fw := [o] }
  writes : s.writesAt mailboxAddr p

theorem State.asRead.regs (h : s.asRead p o) : s.keepsRegs offMailboxes p := h.writes.keepsRegs fun _ => id

theorem State.asRead_fwTake (hc : c.mbox < 32) (o : FwOut) : s.asRead { s.fwTake c with fw := [o] } o :=
  ⟨congrArg (fun x : State => { x with fw := [o] }) (State.mbxSame_fwTake c).eq, (s.writesAt_fwTake c hc).of_regs rfl⟩

theorem State.asRead.fw (h : s.asRead p o) : p.fw = [o] := by rw [h.eq]

theorem State.asRead.sameMem (h : s.asRead p o) : s.sameMem p := ⟨by rw [h.eq], by rw [h.eq]⟩

theorem formless_op : ∀ op < 256, fwOps.contains op = true ∨ ((blockBody op).isNone = true ∧ (wordArgs op).isNone = true) := by decide +kernel

/-- A command in good form has an OP of the tables. -/
theorem formOk_op (h : o.formOk = true) : fwOps.contains o.op = true := by
  obtain hop | ⟨hb, hw⟩ := formless_op o.op (bits_lt ..)
  · exact hop
  · unfold FwOut.formOk at h
    rw [Option.isNone_iff_eq_none.1 hb, Option.isNone_iff_eq_none.1 hw] at h
    simp at h

/-- What passes every check when it is read is in good form, its results fit, and the bring-up stage serves it. -/
theorem State.readStatus_zero (h : s.readStatus o = 0) : o.formOk = true ∧ s.resultOk o = true ∧ stageServes s.bootStage o.op = true := by
  unfold State.readStatus at h
  split at h
  · exact absurd h (by decide)
  next hform =>
    split at h
    · exact absurd h (by decide)
    next hstage =>
      simp only [Bool.or_eq_true, Bool.not_eq_true', not_or, Bool.not_eq_false] at hform hstage
      exact ⟨hform.1, hform.2, hstage.1⟩

theorem State.hasTurn_alone (h : s.fw = [o]) : s.hasTurn o = true := by
  rw [State.hasTurn, State.ahead, h]
  simp

/-- The device as firmware sees it when it has read a command with nothing outstanding. -/
def State.fwSees (s : State) (c : FwCmd) : State := { s.fwTake c with fw := [s.readCmd c] }

theorem State.asRead_fwSees (hc : c.mbox < 32) : s.asRead (s.fwSees c) (s.readCmd c) := State.asRead_fwTake hc _

/-- A command that passes its checks with nothing outstanding is performed at once. -/
theorem exec_fwSees {q : Nat × Instr} (hq : q ∈ fwRows c f) (h : s.fwFirst q.1 c) : s.asRead (s.fwSees c) (s.readCmd c)
    ∧ exec q.2 s = .next ((s.fwSees c).performNow (s.readCmd c) (findings q.1 f)).turns ∧ (s.readCmd c).op = q.1 := by
  obtain ⟨hok, hreads, hfw, hstatus⟩ := h
  have hc : c.mbox < 32 := by have := of_decide_eq_true hok; omega
  have hsame := State.mbxSame_fwTake (s := s) c
  have hread : (s.fwTake c).readCmd c = s.readCmd c := State.readCmd_congr (State.mbxSame_window hsame) c
  have hst : (s.fwTake c).readStatus (s.readCmd c) = 0 := (State.readStatus_congr hsame (s.keepsRegs_fwTake c hc) _).trans hstatus
  have hfw' : (s.fwTake c).fw = [] := (State.mbxSame_fw hsame).trans hfw
  refine ⟨State.asRead_fwSees hc, ?_, ?_⟩
  · have hturn : (s.fwTake c).hasTurn (s.readCmd c) = true := by
      rw [State.hasTurn, State.ahead, hfw']
      rfl
    rw [exec_fwRow hq hok hreads, State.fwRun]
    simp only [hread, hst, hfw', hturn, List.any_nil, Bool.and_false, Bool.false_eq_true, if_false, ne_eq, not_true_eq_false, Bool.or_true, if_true,
      List.nil_append, State.fwSees]
  · obtain ⟨hform, -, -⟩ := State.readStatus_zero hstatus
    have hop : fwOps.contains c.op = true := formOk_op hform
    unfold State.fwReads at hreads
    simp only [hop, Bool.not_true, Bool.or_false, Bool.and_eq_true, beq_iff_eq] at hreads
    exact hreads.1.1.2

theorem exec_fwFirst {q : Nat × Instr} (hq : q ∈ fwRows c f) (h : s.fwFirst q.1 c) : ∃ p, s.asRead p (s.readCmd c)
    ∧ exec q.2 s = .next (p.performNow (s.readCmd c) (findings q.1 f)).turns ∧ (s.readCmd c).op = q.1 := ⟨_, exec_fwSees hq h⟩

/-! How a command ends (R371). -/

/-- With no command waiting for its turn nothing follows. -/
theorem State.turns_of_none (h : ∀ o ∈ s.fw, o.wait ≠ .turn) : s.turns = s := by
  have hf : List.find? (fun (o : FwOut) => decide (o.wait = FwWait.turn) && s.hasTurn o) s.fw = none :=
    List.find?_eq_none.2 fun o ho => by simp [h o ho]
  have hgo : ∀ n, State.turns.go n s = s := fun n => by
    cases n with
    | zero => rfl
    | succ n => rw [State.turns.go, hf]
  exact hgo _

theorem State.fw_complete (h : s.fw = []) (c : FwCmd) (e : FwEnd) : (s.complete c e).fw = [] := ((State.changes_complete ..).same .fw).trans h

/-- The window outside the record and the event ring stands when a command completes. -/
theorem State.keepsWindow_complete (s : State) (c : FwCmd) (e : FwEnd) : s.keepsWindow (fun a => 0x60000 ≤ a) (s.complete c e) := by
  have hb := c.record_bounds
  unfold State.complete
  extract_lets a w0
  have ha : a = c.record := rfl
  exact (((s.keepsWindow_winWrite fun b hb => .inr (by omega)).trans (State.keepsWindow_winWrite _ fun b hb => .inr (by omega))).trans
    (State.keepsWindow_winWrite _ fun b hb => .inr (by omega))).trans ((State.keepsWindow_completeWord _ c e).mono fun _ h => .inr h)

theorem State.completed_complete (h : s.fw = []) (c : FwCmd) {e : FwEnd} (he : e.status < 2 ^ 16) : (s.complete c e).completed c e.status :=
  ⟨s.fw_complete h c e, (s.winRead_complete c he).1, (s.winRead_complete c he).2.1⟩

/-- What a command that ends at once does: v is the device when it ends. -/
theorem State.performNow_done (hp : p.perform o f = .done e v) (hfw : v.fw = [o]) :
    (p.performNow o f).turns = ({ v with fw := [] } : State).complete o.cmd e := by
  have hnow : p.performNow o f = ({ v with fw := [] } : State).complete o.cmd e := by
    rw [State.performNow, hp]
    show v.endCmd o e = _
    rw [State.endCmd, hfw, List.filter_cons_of_neg (by simp), List.filter_nil]
  rw [hnow, State.turns_idle (State.fw_complete rfl ..)]

/-- The end of a command that ends at once: its record, and of the device what its performing has made. -/
structure State.ends (v u : State) (c : FwCmd) (e : FwEnd) : Prop where
  completed : u.completed c e.status
  changes : v.changes (.fw :: Writes.completeWord) u
  window : v.keepsWindow (fun a => 0x60000 ≤ a) u

theorem State.ends.sameMem (h : State.ends v u c e) : v.sameMem u := State.sameMem_of_changes h.changes

theorem State.ends.holds (h : State.ends v u c e) {a : Nat} {l : List Byte} (ha : 0x60000 ≤ a) (hv : v.holds a l) : u.holds a l :=
  h.window.holds (fun _ _ => by omega) hv

/-- A command that ends at once is completed with its end's status; v is what its performing makes of the device. -/
theorem exec_endsAs {q : Nat × Instr} (hq : q ∈ fwRows c f) (h : s.fwFirst q.1 c)
    (hp : (s.readCmd c).op = q.1 → (s.fwSees c).perform (s.readCmd c) (findings q.1 f) = .done e v) (hfw : v.fw = (s.fwSees c).fw)
    (he : e.status < 2 ^ 16) : ∃ u, exec q.2 s = .next u ∧ State.ends v u c e := by
  obtain ⟨hread, hrun, hop⟩ := exec_fwSees hq h
  refine ⟨_, hrun, ?_⟩
  obtain ⟨w, hw⟩ : ∃ w : State, w = { v with fw := [] } := ⟨_, rfl⟩
  have hk : v.changes [.fw] w := hw ▸ State.changes_set_fw ..
  rw [State.performNow_done (hp hop) (hfw.trans hread.fw), ← hw, show (s.readCmd c).cmd = c from rfl]
  exact ⟨State.completed_complete (by rw [hw]) c he, (State.changes_complete ..).after (hk.after .refl),
    .trans (State.keepsWindow_of_window (hk.same .window)) (State.keepsWindow_complete _ _ _)⟩

/-- The same for whatever the read of the command leaves; F is what its performing makes of the device. -/
theorem exec_ends {q : Nat × Instr} (hq : q ∈ fwRows c f) (h : s.fwFirst q.1 c) {F : State → State}
    (hp : ∀ p, s.asRead p (s.readCmd c) → (s.readCmd c).op = q.1 → p.perform (s.readCmd c) (findings q.1 f) = .done e (F p) ∧ (F p).fw = p.fw)
    (he : e.status < 2 ^ 16) : ∃ p u, s.asRead p (s.readCmd c) ∧ exec q.2 s = .next u ∧ State.ends (F p) u c e := by
  obtain ⟨hread, -, hop⟩ := exec_fwSees hq h
  obtain ⟨u, hrun, hends⟩ := exec_endsAs hq h (fun hop => (hp _ hread hop).1) (hp _ hread hop).2 he
  exact ⟨_, u, hread, hrun, hends⟩

/-! Where results go. -/

/-- A block command whose results need bytes has them in the staging area. -/
theorem State.resultAt_staged (h : s.resultOk o = true) (hb : o.cmd.blk = true) (hn : s.resultNeed o ≠ 0) : 0x60000 ≤ o.resultAt := by
  unfold State.resultOk at h
  rw [hb, Bool.not_true, if_neg Bool.false_ne_true] at h
  extract_lets n at h
  rw [if_neg (fun hc => hn hc.2)] at h
  simp only [Bool.and_eq_true, decide_eq_true_eq] at h
  exact h.2.1

/-- A command without a word form is a block command. -/
theorem formOk_blk (h : o.formOk = true) (hw : wordArgs o.op = none) : o.cmd.blk = true := by
  by_contra hb
  unfold FwOut.formOk at h
  rw [hw] at h
  simp [hb] at h

end Sys2Proof.Machine
end

section
/-! Device-wide commands that answer at once (R372, R377, R378, R387, R390, R407 to R409). -/

-- The frame conditions are evaluated in the kernel: theorems elaborated in parallel would each hold a thread while they wait for it.
set_option Elab.async false

namespace Sys2Proof.Machine

variable {s t u v p : State} {c : FwCmd} {o : FwOut} {f : BringIn} {e : FwEnd}

/-! What firmware reads of the device is not in the mailbox. -/

theorem gatePort_offMailboxes {q : Nat} (hq : q < 12) : offMailboxes (Reg.gatePort q).addr :=
  offMailboxes_below ((gatePort_below_mgt hq).trans_le (Nat.le_add_right ..))

theorem gateCfg_offMailboxes {g : Nat} (hg : g < 4) : offMailboxes (Reg.gateCfg g).addr :=
  offMailboxes_below ((gateCfg_below_mgt hg).trans_le (Nat.le_add_right ..))

section
variable (h : s.asRead p o)
include h

theorem State.asRead.winBytes (a n : Nat) : p.winBytes a n = s.winBytes a n := by rw [h.eq]; rfl

theorem State.asRead.verify (k : Nat) (l : List Byte) : p.verify k l = s.verify k l := by rw [h.eq]; rfl

theorem State.asRead.cal (n : Nat) : p.cal n = s.cal n := by rw [h.eq]; rfl

theorem State.asRead.port (n : Nat) : p.port n = s.port n := by rw [h.eq]; rfl

theorem State.asRead.inventoryList : p.inventoryList = s.inventoryList := by rw [h.eq]; rfl

theorem State.asRead.beatNo : p.beatNo = s.beatNo := h.regs _ (offMailboxes_below (show mgtBase + 0x10 < mgtBase + 0x5000 by omega))

theorem State.asRead.ownFabric : p.ownFabric = s.ownFabric := by
  rw [State.ownFabric, State.homeGate_congr (show p.shape = s.shape by rw [h.eq]), h.regs.fld (gateCfg_offMailboxes s.homeGate_lt), State.ownFabric]

theorem State.asRead.attest (l : List Byte) : p.attest l = s.attest l := by
  have hsec : p.sec = s.sec := by rw [h.eq]
  have hnv : p.nv = s.nv := by rw [h.eq]
  have hshape : p.shape = s.shape := by rw [h.eq]
  simp only [State.attest, State.quoted, State.quoteOf, h.beatNo, h.ownFabric, hsec, hnv, hshape]

theorem State.asRead.shapeRecord : p.shapeRecord = s.shapeRecord := by
  have hports : (List.range 12).map p.portState = (List.range 12).map s.portState :=
    List.map_congr_left fun q hq => h.regs.fld (gatePort_offMailboxes (List.mem_range.1 hq)) _
  unfold State.shapeRecord
  rw [hports, h.eq]
  rfl

theorem State.asRead.dieIn {q : Nat} (hq : q < 12) (d : Nat) : p.dieIn q d = s.dieIn q d := by
  have hr := mgtPart_offMailboxes hq
  unfold State.dieIn
  rw [State.partEn_keepsRegs h.regs hq, h.regs.fld hr, h.regs.fld hr, h.regs.fld hr, h.regs.fld hr]

theorem State.asRead.partOfDie (d : Nat) : p.partOfDie d = s.partOfDie d :=
  List.find?_congr fun _ hq => h.dieIn (List.mem_range.1 hq) d

theorem State.asRead.runningOn (l : List Nat) : p.runningOn l = s.runningOn l := by
  have hjob : ∀ q j, p.job q j = s.job q j := fun q j => by rw [h.eq]; rfl
  unfold State.runningOn
  simp only [h.partOfDie, hjob]

end

/-- An answer put where the staging area has room stands when the command has ended. -/
theorem exec_answers {q : Nat × Instr} (hq : q ∈ fwRows c f) (h : s.fwFirst q.1 c) {l : List Byte}
    (hp : ∀ p, s.asRead p (s.readCmd c) → (s.readCmd c).op = q.1 →
      p.perform (s.readCmd c) (findings q.1 f) = .done e (p.winPut (s.readCmd c).resultAt l)) (he : e.status < 2 ^ 16)
    (hn : (s.readCmd c).cmd.blk = true → (s.readCmd c).op = q.1 → s.resultNeed (s.readCmd c) ≠ 0 ∨ l = []) (hw : wordArgs q.1 = none) :
    ∃ u, exec q.2 s = .next u ∧ u.completed c e.status ∧ u.holds (s.readCmd c).resultAt l ∧ s.sameMem u := by
  obtain ⟨p, u, hread, hrun, hends⟩ := exec_ends hq h (F := fun p => p.winPut (s.readCmd c).resultAt l) (fun p hp' hop => ⟨hp p hp' hop, rfl⟩) he
  refine ⟨u, hrun, hends.completed, ?_, hread.sameMem.trans (State.sameMem.trans ⟨rfl, rfl⟩ hends.sameMem)⟩
  obtain ⟨hform, hres, -⟩ := State.readStatus_zero h.2.2.2
  obtain ⟨-, -, -, hop⟩ := exec_fwFirst hq h
  have hblk := formOk_blk hform (by rw [hop]; exact hw)
  rcases hn hblk hop with hn | rfl
  · exact hends.holds (State.resultAt_staged hres hblk hn) (State.holds_winPut _ _ _)
  · exact fun i hi => absurd hi (Nat.not_lt_zero i)

/-- A command that is refused as it is performed ends with a status, and changes nothing. -/
theorem exec_refuses {q : Nat × Instr} (hq : q ∈ fwRows c f) (h : s.fwFirst q.1 c) {k : Nat}
    (hp : ∀ p, s.asRead p (s.readCmd c) → (s.readCmd c).op = q.1 → p.perform (s.readCmd c) (findings q.1 f) = .bad p k) (hk : k < 2 ^ 16) :
    ∃ p u, s.asRead p (s.readCmd c) ∧ exec q.2 s = .next u ∧ State.ends p u c (.of k) :=
  exec_ends hq h (F := fun p => p) (fun p hp' hop => ⟨hp p hp' hop, rfl⟩) hk

/-! The full reset (R372). -/

theorem State.logCount_measure (s : State) (kind detail : Nat) (l : List Byte) : (s.measure kind detail l).sec.logCount = s.sec.logCount + 1 := rfl

/-- What the boot ROM leaves of a device that has been reset. -/
theorem State.romStart_frame (s : State) : s.romStart.bootStage = 4 ∧ s.romStart.sec.logCount = s.sec.logCount + 1 ∧ s.romStart.sec.thermo = s.sec.thermo
    ∧ s.romStart.sec.revoke = s.sec.revoke ∧ s.changes [.bootStage, .stageWord, .sec] s.romStart :=
  ⟨rfl, rfl, rfl, rfl, State.changes_romStart ..⟩

/-- The non-volatile store, the fuses, the modules and the fenced units outlast a full reset; everything else starts again. -/
theorem State.restarted_frame (s : State) : s.restarted.nv = s.nv ∧ s.restarted.pending = s.pending ∧ s.restarted.mods = s.mods
    ∧ s.restarted.defects = s.defects ∧ s.restarted.sec = { Sec.init with thermo := s.sec.thermo, revoke := s.sec.revoke } := ⟨rfl, rfl, rfl, rfl, rfl⟩

theorem State.beatNo_restarted (s : State) : s.restarted.beatNo = 0 := rfl

/-- The full reset: what stands is the non-volatile store, the fuses, the modules and the fenced units, and no command is outstanding. -/
theorem exec_deviceReset_runs (h : s.fwFirst 0x03 c) (harg : (s.readCmd c).arg 32 1 ≠ 0) (hot : s.hot = false) :
    ∃ p, s.asRead p (s.readCmd c) ∧ exec (.deviceReset c) s = .next p.dropMbxWaits.restarted.romStart := by
  obtain ⟨p, hread, hrun, hop⟩ := exec_fwFirst (q := (0x03, .deviceReset c)) (f := BringIn.none) (by simp [fwRows]) h
  refine ⟨p, hread, hrun.trans (congrArg Host.Outcome.next ?_)⟩
  have hhot : p.hot = false := by rw [State.hot, show p.board = s.board by rw [hread.eq]]; exact hot
  have hp : p.perform (s.readCmd c) (findings 0x03 BringIn.none) = .silent p.dropMbxWaits.restarted.romStart := by
    simp only [State.perform, hop, State.performReset, if_neg harg, hhot]
    rfl
  have hfw : (p.dropMbxWaits.restarted.romStart).fw = [] := ((State.changes_romStart ..).same .fw).trans rfl
  rw [State.performNow, hp]
  exact State.turns_idle hfw

/-! Calibration records (R408, R409). -/

/-- The record is kept, and until the next tick the old one stands in force. -/
theorem State.cal_setCal {l : List Byte} (s : State) (n : Nat) (hl : l ≠ []) : (s.setCal n l).cal n = some l ∧ (s.setCal n l).calNow n = s.calNow n := by
  have hnv : (s.setCal n l).nv = { s.nv with cal := SMap.put (fun _ => []) s.nv.cal n l, bad := s.nv.bad.filter fun k => k != n } := by
    rw [State.setCal, show (s.calKeep n).nv = s.nv from (State.changes_calKeep ..).same .nv]
  have hlate : (s.setCal n l).calLate = (s.calKeep n).calLate := rfl
  refine ⟨?_, ?_⟩
  · rw [State.cal, hnv]
    dsimp only
    rw [if_neg (by simp), SMap.put, if_neg hl, SMap.find?_insert, if_pos rfl]
  · by_cases hx : (s.calLate.any fun x => x.1 == n) = true
    · obtain ⟨x, hf⟩ := Option.isSome_iff_exists.1 (List.find?_isSome.2 (List.any_eq_true.1 hx))
      have hkeep : (s.calKeep n).calLate = s.calLate := by rw [State.calKeep, if_pos hx]
      rw [State.calNow, State.calNow, hlate, hkeep, hf]
    · have hnone : s.calLate.find? (fun x => x.1 == n) = none := List.find?_eq_none.2 fun x hm he => hx (List.any_eq_true.2 ⟨x, hm, he⟩)
      have hkeep : (s.calKeep n).calLate = s.calLate ++ [(n, s.cal n)] := by rw [State.calKeep, if_neg hx]
      rw [State.calNow, State.calNow, hlate, hkeep, List.find?_append, hnone, Option.none_or, List.find?_cons_of_pos (by simp)]

theorem State.cal_congr (h : u.nv = s.nv) (n : Nat) : u.cal n = s.cal n := by rw [State.cal, h, State.cal]

theorem State.calNow_congr (h : u.nv = s.nv) (hl : u.calLate = s.calLate) (n : Nat) : u.calNow n = s.calNow n := by
  rw [State.calNow, hl, State.calNow, State.cal_congr h]

/-- An object that verifies is not empty. -/
theorem State.verify_ne_nil {k : Nat} {l : List Byte} (h : s.verify k l = 0) : l ≠ [] := by
  rintro rfl
  unfold State.verify at h
  extract_lets key own cert svn at h
  rw [if_pos (.inr (.inr (.inr (by simp)))) ] at h
  exact absurd h (by decide)

theorem State.verify_lt (s : State) (k : Nat) (l : List Byte) : s.verify k l < 2 ^ 16 := by
  unfold State.verify
  extract_lets key own cert svn
  split_ifs <;> decide

/-- The status with which a CAL_WRITE ends whose checks of state pass (R408, R409): the object's, then its record's, then that of the store's room. -/
def State.calStatus (s : State) (n : Nat) (l : List Byte) : Nat :=
  if s.verify 3 l ≠ 0 then s.verify 3 l else if objNum (objBody l) 0 4 ≠ n then KS.badArg
  else if 448 * 1024 < s.calBytes - ((s.cal n).getD []).length + l.length then KS.noResource else 0

theorem State.asRead.calStatus (h : s.asRead p o) (n : Nat) (l : List Byte) : p.calStatus n l = s.calStatus n l := by
  rw [State.calStatus, h.verify, h.cal, show p.calBytes = s.calBytes by rw [h.eq]; rfl, State.calStatus]

theorem State.calStatus_lt (s : State) (n : Nat) (l : List Byte) : s.calStatus n l < 2 ^ 16 := by
  have := s.verify_lt 3 l
  unfold State.calStatus
  split_ifs
  · exact this
  all_goals decide

theorem State.performCalWrite_status (hrec : calRecord (o.body 16 0 32) = true) (hst : staged (o.body 20 0 32) (o.body 24 0 32) = true)
    (hrun : s.runningOn (calDies (o.body 16 0 32)) = false) (hw : ∀ w, s.window_ = some w → w.pack ≠ 0xFFFF) {l : List Byte}
    (hl : l = s.winBytes (o.body 20 0 32) (o.body 24 0 32)) :
    s.performCalWrite o = if s.calStatus (o.body 16 0 32) l = 0 then
      .done .good (((s.measure 4 (o.body 16 0 32 + objKey l * 2 ^ 32) (l.take 128)).setCal (o.body 16 0 32) l).calTakes (o.body 16 0 32))
    else .bad s (s.calStatus (o.body 16 0 32) l) := by
  subst hl
  unfold State.performCalWrite State.calStatus
  extract_lets n a len fullCal l
  have hfull : fullCal = false := by
    unfold fullCal
    cases hs : s.window_ with
    | none => rfl
    | some w => simpa using hw w hs
  rw [hrec, hst, hrun, hfull, Bool.not_true, Bool.or_self, Bool.or_self, if_neg Bool.false_ne_true, if_neg Bool.false_ne_true]
  cases hv : s.verify 3 l with
  | zero =>
    rw [if_neg (not_not.2 rfl)]
    by_cases h1 : objNum (objBody l) 0 4 ≠ n
    · rw [if_pos h1, if_pos h1, if_neg (by decide)]
      rfl
    · by_cases h2 : 448 * 1024 < s.calBytes - ((s.cal n).getD []).length + l.length
      · rw [if_neg h1, if_neg h1, if_pos h2, if_pos h2, if_neg (by decide)]
        rfl
      · rw [if_neg h1, if_neg h1, if_neg h2, if_neg h2, if_pos rfl]
        rfl
  | succ k =>
    rw [if_pos (Nat.succ_ne_zero k), if_neg (Nat.succ_ne_zero k)]
    rfl

end Sys2Proof.Machine

open Sys2Proof Sys2Proof.Machine

/-- Settles O56: each command is one that answers (exec_answers), is refused (exec_refuses) or ends with what it made (exec_ends). -/
theorem firmwareAnswersForTheDevice : Obligations.FirmwareAnswersForTheDevice := by
  unfold Obligations.FirmwareAnswersForTheDevice
  intro c s o num
  refine ⟨fun h => ⟨fun harg hot => ?_, fun harg hot => ?_, fun harg => ?_⟩, fun h => ?_, fun h => ?_, fun h => ?_, fun h hn => ⟨fun hc => ?_, fun l hc => ?_⟩,
    fun h hsrc => ?_, fun h h1 hsrc => ?_, fun q h h1 h12 hq => ?_, fun h hw hst => ?_, fun h hw hrec hst hrun => ?_⟩
  · obtain ⟨p, hread, hrun⟩ := exec_deviceReset_runs h (by rw [harg]; decide) hot
    obtain ⟨t, ht⟩ : ∃ t, t = p.dropMbxWaits := ⟨_, rfl⟩
    have hkt : p.changes [.outbox, .mbxWaits] t := ht ▸ State.changes_dropMbxWaits
    rw [← ht] at hrun
    obtain ⟨hboot, hlog, hth, hrev, hk⟩ := t.restarted.romStart_frame
    obtain ⟨hnv, hpend, hmods, hdef, hsec⟩ := t.restarted_frame
    refine ⟨_, hrun, hboot, hk.same .fw, hk.same .rows, hk.same .lpddr, hk.same .tasks, hk.same .jobs, ?_, ?_, ?_, ?_, ?_, ?_, ?_, ?_⟩
    · exact (State.rd_congr (hk.same .regs) _).trans t.beatNo_restarted
    · rw [hk.same .nv, hnv, hkt.same .nv, hread.eq]
    · rw [hk.same .pending, hpend, hkt.same .pending, hread.eq]
    · rw [hlog, hsec]; rfl
    · rw [hth, hsec, hkt.same .sec, hread.eq]
    · rw [hrev, hsec, hkt.same .sec, hread.eq]
    · rw [hk.same .mods, hmods, hkt.same .mods, hread.eq]
    · rw [hk.same .defects, hdef, hkt.same .defects, hread.eq]
  · obtain ⟨p, u, hread, hrun, hends⟩ := exec_refuses (q := (0x03, .deviceReset c)) (f := BringIn.none) (by simp [fwRows]) h (k := KS.busy)
      (fun p hread hop => by
        have hhot : p.hot = true := by rw [State.hot, show p.board = s.board by rw [hread.eq]]; exact hot
        simp only [State.perform, hop, State.performReset, show (s.readCmd c).arg 32 1 ≠ 0 by rw [show (s.readCmd c).arg 32 1 = 1 from harg]; decide,
          hhot, if_true, if_false]) (by decide)
    exact ⟨u, hrun, hends.completed, hread.sameMem.trans hends.sameMem⟩
  · obtain ⟨p, u, hread, hrun, hends⟩ := exec_refuses (q := (0x03, .deviceReset c)) (f := BringIn.none) (by simp [fwRows]) h (k := KS.badArg)
      (fun p _ hop => by simp only [State.perform, hop, State.performReset, show (s.readCmd c).arg 32 1 = 0 from harg, if_true]) (by decide)
    exact ⟨u, hrun, hends.completed, hread.sameMem.trans hends.sameMem⟩
  · exact exec_answers (q := (0x01, .deviceQuery c)) (f := BringIn.none) (by simp [fwRows]) h (e := .good)
      (fun p hread hop => by simp only [State.perform, hop, State.performQuery, hread.shapeRecord]) (by decide)
      (fun hb hop => .inl (by simp only [State.resultNeed, hb, hop]; decide)) rfl
  · exact exec_answers (q := (0x02, .inventory c)) (f := BringIn.none) (by simp [fwRows]) h (e := { FwEnd.good with r0 := 330 })
      (fun p hread hop => by simp only [State.perform, hop, State.performInventory, hread.inventoryList]) (by decide)
      (fun hb hop => .inl (by simp only [State.resultNeed, hb, hop]; decide)) rfl
  · obtain ⟨p, u, hread, hrun, hends⟩ := exec_ends (q := (0x04, .envSet c)) (f := BringIn.none) (by simp [fwRows]) h (e := .good)
      (F := fun p => { p with board := { p.board with
        time := BitVec.ofNat 64 (o.body 16 0 64), coolant := BitVec.ofNat 32 (num 24), flowOk := decide (o.body 28 0 1 = 1) } })
      (fun p _ hop => ⟨by simp only [State.perform, hop, State.performEnv]; rfl, rfl⟩) (by decide)
    refine ⟨u, hrun, hends.completed, hread.sameMem.trans (State.sameMem.trans ⟨rfl, rfl⟩ hends.sameMem), ?_⟩
    rw [hends.changes.same .board, hread.eq]
  · obtain ⟨p, u, hread, hrun, hends⟩ := exec_refuses (q := (0x12, .calRead c)) (f := BringIn.none) (by simp [fwRows]) h (k := KS.noResource)
      (fun p hread hop => by
        simp only [State.perform, hop, State.performCalRead, show calRecord ((s.readCmd c).body 16 0 32) = true from hn, hread.cal,
          show s.cal ((s.readCmd c).body 16 0 32) = none from hc, Bool.not_true, Bool.false_eq_true, if_false]) (by decide)
    exact ⟨u, hrun, hends.completed, hread.sameMem.trans hends.sameMem⟩
  · exact exec_answers (q := (0x12, .calRead c)) (f := BringIn.none) (by simp [fwRows]) h (e := .good)
      (fun p hread hop => by
        simp only [State.perform, hop, State.performCalRead, show calRecord ((s.readCmd c).body 16 0 32) = true from hn, hread.cal,
          show s.cal ((s.readCmd c).body 16 0 32) = some l from hc, Bool.not_true, Bool.false_eq_true, if_false]) (by decide)
      (fun hb hop => by
        simp only [State.resultNeed, hb, hop, show s.cal ((s.readCmd c).body 16 0 32) = some l from hc]
        cases l
        · exact .inr rfl
        · exact .inl (by simp)) rfl
  · obtain ⟨u, hrun, hc, hh, hm⟩ := exec_answers (q := (0x14, .attestQuote c)) (f := BringIn.none) (by simp [fwRows]) h (e := .good)
      (l := s.attest (bytesOf 64 (o.body 16 0 512)))
      (fun p hread hop => by
        simp only [State.perform, hop, State.performQuote, show (s.readCmd c).body 80 0 8 = 0 from hsrc, hread.attest, if_true]; rfl) (by decide)
      (fun hb hop => .inl (by
        simp only [State.resultNeed, hb, hop, show (s.readCmd c).body 80 0 8 = 0 from hsrc, Bool.not_true, Bool.false_eq_true, if_false, if_true]
        omega)) rfl
    exact ⟨u, hrun, hc, hm, hh⟩
  · have h0 : (s.readCmd c).body 80 0 8 ≠ 0 := Nat.one_le_iff_ne_zero.1 h1
    obtain ⟨p, u, hread, hrun, hends⟩ := exec_refuses (q := (0x14, .attestQuote c)) (f := BringIn.none) (by simp [fwRows]) h
      (k := if 12 < o.body 80 0 8 then KS.badArg else KS.noResource) (fun p hread hop => by
        simp only [State.perform, hop, State.performQuote, if_neg h0, hread.port]
        by_cases h12 : 12 < (s.readCmd c).body 80 0 8
        · rw [if_pos h12, if_pos h12]
        · rw [if_neg h12, if_neg h12, show (s.port ((s.readCmd c).body 80 0 8 - 1)).quote = none from hsrc.resolve_left h12]) (by split <;> decide)
    exact ⟨u, hrun, hends.completed, hread.sameMem.trans hends.sameMem⟩
  · have h0 : (s.readCmd c).body 80 0 8 ≠ 0 := Nat.one_le_iff_ne_zero.1 h1
    have hq' : (s.port ((s.readCmd c).body 80 0 8 - 1)).quote = some q := hq
    exact exec_answers (q := (0x14, .attestQuote c)) (f := BringIn.none) (by simp [fwRows]) h (e := .good)
      (fun p hread hop => by
        simp only [State.perform, hop, State.performQuote, if_neg h0, hread.port, if_neg (show ¬ 12 < (s.readCmd c).body 80 0 8 from Nat.not_lt.2 h12), hq'])
      (by decide)
      (fun hb hop => by
        simp only [State.resultNeed, hb, hop, if_neg h0, hq', Bool.not_true, Bool.false_eq_true, if_false]
        cases q
        · exact .inr rfl
        · exact .inl (by simp)) rfl
  · have hwin : ∀ p, s.asRead p (s.readCmd c) → p.window_ = none := fun p hp => by rw [hp.eq]; exact hw
    have hst' : staged ((s.readCmd c).body 16 0 32) ((s.readCmd c).body 20 0 32) = true := hst
    intro l
    by_cases hv : s.verify 2 l = 0
    · obtain ⟨p, u, hread, hrun, hends⟩ := exec_ends (q := (0x11, .seedpackLoad c)) (f := BringIn.none) (by simp [fwRows]) h
        (e := { FwEnd.good with r0 := objNum (objBody l) 0 4 })
        (F := fun p => { p.measure 5 (objSvn l + objNum (objBody l) 0 4 * 65536) (l.take 128) with
          seedPack := some (objNum (objBody l) 0 4), seedSets := (List.range (objNum (objBody l) 4 2)).map fun i => objNum (objBody l) (16 + 16 * i) 2 })
        (fun p hread hop => ⟨by
          simp only [State.perform, hop, State.performSeedpack, hwin p hread, hst', hread.winBytes, hread.verify, Option.isSome_none, Bool.not_true,
            Bool.false_eq_true, if_false, show s.verify 2 (s.winBytes ((s.readCmd c).body 16 0 32) ((s.readCmd c).body 20 0 32)) = 0 from hv]
          rfl, rfl⟩) (show 0 < 2 ^ 16 by decide)
      refine ⟨u, hrun, hv ▸ hends.completed, hread.sameMem.trans (State.sameMem.trans ⟨rfl, rfl⟩ hends.sameMem), fun _ => ⟨?_, ?_, ?_⟩, fun hn => absurd hv hn⟩
      · rw [hends.changes.same .seedPack]
      · rw [hends.changes.same .sec]
        show p.sec.logCount + 1 = s.sec.logCount + 1
        rw [hread.eq]
      · rw [hends.changes.same .seedSets]
    · obtain ⟨k, hk⟩ := Nat.exists_eq_succ_of_ne_zero hv
      obtain ⟨p, u, hread, hrun, hends⟩ := exec_refuses (q := (0x11, .seedpackLoad c)) (f := BringIn.none) (by simp [fwRows]) h (k := s.verify 2 l)
        (fun p hread hop => by
          have hk' : s.verify 2 (s.winBytes ((s.readCmd c).body 16 0 32) ((s.readCmd c).body 20 0 32)) = k + 1 := hk
          simp only [State.perform, hop, State.performSeedpack, hwin p hread, hst', hread.winBytes, hread.verify, Option.isSome_none, Bool.not_true,
            Bool.false_eq_true, if_false, hk']
          rw [hk]) (s.verify_lt 2 l)
      refine ⟨u, hrun, hends.completed, hread.sameMem.trans hends.sameMem, fun hz => absurd hz hv, fun _ => ⟨?_, ?_⟩⟩
      · rw [hends.changes.same .seedPack, hread.eq]
      · rw [hends.changes.same .sec, hread.eq]
  · have hst' : staged ((s.readCmd c).body 20 0 32) ((s.readCmd c).body 24 0 32) = true := hst
    have hrec' : calRecord ((s.readCmd c).body 16 0 32) = true := hrec
    have hrun' : s.runningOn (calDies ((s.readCmd c).body 16 0 32)) = false := hrun
    intro l st
    have hst0 : st = s.calStatus ((s.readCmd c).body 16 0 32) l := rfl
    have hperform {p : State} (hread : s.asRead p (s.readCmd c)) : p.performCalWrite (s.readCmd c) = if st = 0 then
          .done .good (((p.measure 4 (num 16 + objKey l * 2 ^ 32) (l.take 128)).setCal (num 16) l).calTakes (num 16))
        else .bad p st := by
      rw [State.performCalWrite_status hrec' hst' (by rw [hread.runningOn]; exact hrun') (fun w hs => hw w (by rw [← hs, hread.eq]))
        (hread.winBytes _ _).symm, hread.calStatus, hst0]
    have hlt : st < 2 ^ 16 := s.calStatus_lt _ l
    clear_value st
    by_cases hz : st = 0
    · obtain ⟨p, u, hread, hrunu, hends⟩ := exec_ends (q := (0x13, .calWrite c)) (f := BringIn.none) (by simp [fwRows]) h (e := .good)
        (F := fun p => ((p.measure 4 (num 16 + objKey l * 2 ^ 32) (l.take 128)).setCal (num 16) l).calTakes (num 16))
        (fun p hread hop => ⟨by
          simp only [State.perform, hop, hperform hread, hz, if_true], ((State.changes_calTakes ..).same .fw).trans (((State.changes_setCal ..).same .fw).trans
            ((State.changes_measure ..).same .fw))⟩) (by decide)
      obtain ⟨t, ht⟩ : ∃ t, t = p.measure 4 (num 16 + objKey l * 2 ^ 32) (l.take 128) := ⟨_, rfl⟩
      have hkt : p.changes [.sec] t := ht ▸ State.changes_measure ..
      rw [← ht] at hends
      have hk : t.changes [.nv, .calLate, .calDue] ((t.setCal (num 16) l).calTakes (num 16)) :=
        (State.changes_calTakes ..).after ((State.changes_setCal ..).after .refl)
      have hne : l ≠ [] := State.verify_ne_nil (s := s) (k := 3) (by
        by_contra hv
        rw [hst0, State.calStatus, if_pos hv] at hz
        exact hv hz)
      obtain ⟨hcal, hnow⟩ := t.cal_setCal (num 16) hne
      refine ⟨u, hrunu, hz ▸ hends.completed,
        hread.sameMem.trans ((State.sameMem_of_changes hkt).trans ((State.sameMem_of_changes hk).trans hends.sameMem)), fun _ => ⟨?_, ?_, ?_⟩, fun hn => absurd hz hn⟩
      · rw [State.cal_congr (hends.changes.same .nv)]
        exact hcal
      · rw [State.calNow_congr (hends.changes.same .nv) (hends.changes.same .calLate)]
        refine hnow.trans (State.calNow_congr ?_ ?_ _)
        · rw [hkt.same .nv, hread.eq]
        · rw [hkt.same .calLate, hread.eq]
      · rw [hends.changes.same .sec, hk.same .sec, ht, State.logCount_measure, hread.eq]
    · obtain ⟨p, u, hread, hrunu, hends⟩ := exec_refuses (q := (0x13, .calWrite c)) (f := BringIn.none) (by simp [fwRows]) h (k := st)
        (fun p hread hop => by simp only [State.perform, hop, hperform hread, hz, if_false]) hlt
      refine ⟨u, hrunu, hends.completed, hread.sameMem.trans hends.sameMem, fun h0 => absurd h0 hz, fun _ => ⟨?_, ?_⟩⟩
      · rw [hends.changes.same .nv, hread.eq]
      · rw [hends.changes.same .sec, hread.eq]
end

section
/-! What firmware reads of the tables of the device does not change as it reads its mailbox. -/

-- The frame conditions are evaluated in the kernel: theorems elaborated in parallel would each hold a thread while they wait for it.
set_option Elab.async false

namespace Sys2Proof.Machine

variable {s t u p : State} {o : FwOut} {a g n : Nat} {α β : Type} {A : Nat → Prop}

/-! The listed registers of a table. -/

section
variable {k : Nat} {f : Nat → Option β} (hf : f k = none)
include hf

theorem SMap.filterMap_erase (m : SMap α) : ((SMap.erase m k).map Prod.fst).filterMap f = (m.map Prod.fst).filterMap f := by
  induction m with
  | nil => rfl
  | cons x m ih =>
    obtain ⟨y, v⟩ := x
    rw [SMap.erase]
    split
    next h => rw [ih, List.map_cons, List.filterMap_cons_none (h ▸ hf)]
    next => rw [List.map_cons, List.map_cons, List.filterMap_cons, List.filterMap_cons, ih]

theorem SMap.filterMap_insert (m : SMap α) (w : α) : ((SMap.insert m k w).map Prod.fst).filterMap f = (m.map Prod.fst).filterMap f := by
  induction m with
  | nil => exact List.filterMap_cons_none hf
  | cons x m ih =>
    obtain ⟨y, v⟩ := x
    rw [SMap.insert]
    split
    · exact List.filterMap_cons_none hf
    · split
      next h => rw [List.map_cons, List.map_cons, List.filterMap_cons_none hf, List.filterMap_cons_none (h ▸ hf)]
      next => rw [List.map_cons, List.map_cons, List.filterMap_cons, List.filterMap_cons, ih]

theorem SMap.filterMap_put [DecidableEq α] (d : Nat → α) (m : SMap α) (w : α) :
    ((SMap.put d m k w).map Prod.fst).filterMap f = (m.map Prod.fst).filterMap f := by
  rw [SMap.put]
  split
  · exact SMap.filterMap_erase hf m
  · exact SMap.filterMap_insert hf m w

end

/-- A list of registers by what their addresses name does not see writes at addresses that name nothing. -/
theorem State.writesAt.filterMap (h : s.writesAt A u) {f : Nat → Option β} (hf : ∀ a, A a → f a = none) :
    (u.regs.map Prod.fst).filterMap f = (s.regs.map Prod.fst).filterMap f := by
  induction h with
  | same h => rw [h]
  | write _ r w hr hu ih => rw [hu, ← ih]; exact SMap.filterMap_put (hf _ hr) _ _ _

/-! The layer records lie in the granaries. -/

/-- A register that is no word of a layer record, or one of a granary's records. -/
def Reg.layerInTable : Reg → Bool
  | .layer g n _ => decide (g < 24 ∧ n < 4096)
  | _ => true

/-- A register that is no word of a layer record. -/
def Reg.noLayer : Reg → Bool
  | .layer .. => false
  | _ => true

theorem mbxRegAt_noLayer (b : MbxBlk) (o : Nat) : (mbxRegAt b o).all Reg.noLayer = true := by
  simp [mbxRegAt, apply_ite (Option.all Reg.noLayer), Reg.noLayer]

theorem mgtRegAt_noLayer (o : Nat) : (mgtRegAt o).all Reg.noLayer = true := by
  simp [mgtRegAt, apply_ite (Option.all Reg.noLayer), Reg.noLayer, mbxRegAt_noLayer]

theorem coreRegAt_noLayer (c o : Nat) : (coreRegAt c o).all Reg.noLayer = true := by
  simp [coreRegAt, apply_ite (Option.all Reg.noLayer), Reg.noLayer]

theorem clRegAt_noLayer (cl o : Nat) : (clRegAt cl o).all Reg.noLayer = true := by
  simp [clRegAt, apply_ite (Option.all Reg.noLayer), Reg.noLayer, mbxRegAt_noLayer]

theorem gateRegAt_noLayer (g o : Nat) : (gateRegAt g o).all Reg.noLayer = true := by
  simp [gateRegAt, apply_ite (Option.all Reg.noLayer), Reg.noLayer, mbxRegAt_noLayer]

theorem layerInTable_of_noLayer {x : Option Reg} (h : x.all Reg.noLayer = true) : x.all Reg.layerInTable = true := by
  cases x with
  | none => rfl
  | some r =>
    cases r with
    | layer => exact absurd h (by simp [Reg.noLayer])
    | _ => rfl

theorem grnRegAt_layerInTable {g : Nat} (hg : g < 24) (o : Nat) : (grnRegAt g o).all Reg.layerInTable = true := by
  have hrest := layerInTable_of_noLayer (mbxRegAt_noLayer (.granary g) o)
  simp [grnRegAt, apply_ite (Option.all Reg.layerInTable), Reg.layerInTable, hg, hrest]
  omega

theorem Reg.ofAddr_layerInTable (a : Nat) : (Reg.ofAddr a).all Reg.layerInTable = true := by
  unfold Reg.ofAddr
  split
  · rfl
  dsimp only
  split
  · simp [apply_ite (Option.all Reg.layerInTable), layerInTable_of_noLayer, mbxRegAt_noLayer, clRegAt_noLayer, coreRegAt_noLayer]
  · split
    next => rfl
    next h => exact grnRegAt_layerInTable (by omega) _
  · simp [apply_ite (Option.all Reg.layerInTable), layerInTable_of_noLayer, gateRegAt_noLayer]
  · simp [apply_ite (Option.all Reg.layerInTable), layerInTable_of_noLayer, mgtRegAt_noLayer]
  · rfl

theorem layerNo_of_noLayer {x : Option Reg} (h : x.all Reg.noLayer = true) : x.bind (layerNo g) = none := by
  cases x with
  | none => rfl
  | some r =>
    cases r with
    | layer => exact absurd h (by simp [Reg.noLayer])
    | _ => rfl

theorem layerNo_of_mailboxAddr (h : mailboxAddr a) (g : Nat) : (Reg.ofAddr a).bind (layerNo g) = none := by
  have hsite : regSite a = 3 := by
    unfold mailboxAddr mgtBase regBase at h
    unfold regSite
    omega
  refine layerNo_of_noLayer ?_
  unfold Reg.ofAddr
  simp only [hsite, apply_ite (Option.all Reg.noLayer), mgtRegAt_noLayer, Option.all_none, ite_self]

/-- The records that are listed are records of the table. -/
theorem State.lt_of_mem_listedOf (h : n ∈ s.listedOf (layerNo g)) : n < 4096 := by
  obtain ⟨a, -, ha⟩ := List.mem_filterMap.1 (mem_of_mem_dedup h)
  obtain ⟨r, hr, hn⟩ := Option.bind_eq_some_iff.1 ha
  have hin := Reg.ofAddr_layerInTable a
  rw [hr] at hin
  cases r with
  | layer g' n' k' =>
    rw [layerNo] at hn
    split at hn
    · obtain ⟨-, hlt⟩ := of_decide_eq_true (show decide (g' < 24 ∧ n' < 4096) = true from hin)
      exact Option.some.inj hn ▸ hlt
    · exact absurd hn (by simp)
  | _ => exact absurd hn (by simp [layerNo])

/-! The tables as firmware has read a command. -/

theorem State.homeGran_lt (s : State) : s.homeGran < 24 := by
  unfold State.homeGran
  cases hf : (List.range 24).find? fun g => !s.shape.deadGran.contains g with
  | none => decide
  | some g => exact List.mem_range.1 (List.mem_of_find?_eq_some hf)

theorem granary_offMailboxes {r : Reg} {g k : Nat} (hg : g < 24) (hr : r.addr = grnBase g + k) (hk : k < 0x4000000) : offMailboxes r.addr :=
  offMailboxes_below (hr ▸ (granary_below_mgt hg hk).trans_le (Nat.le_add_right ..))

/-- The shape and the tables of tensors and records are the same in both states. -/
structure State.sameTables (s p : State) : Prop where
  shape : p.shape = s.shape
  shadow : p.shadow = s.shadow
  regs : ∀ r : Reg, ∀ g < 24, ∀ k < 0x480000, 0x100000 ≤ k → r.addr = grnBase g + k → p.rd r = s.rd r
  listed : ∀ g, (p.regs.map Prod.fst).filterMap (fun a => (Reg.ofAddr a).bind (layerNo g))
    = (s.regs.map Prod.fst).filterMap fun a => (Reg.ofAddr a).bind (layerNo g)

/-- The records of a job are records of the table. -/
theorem State.lt_of_mem_layersOf {q j i : Nat} (h : i ∈ s.layersOf q j) : i < 4096 :=
  State.lt_of_mem_listedOf (List.mem_of_mem_filter (mem_sortBy.1 h))

theorem any_congr {l : List α} {f g : α → Bool} (h : ∀ x ∈ l, f x = g x) : l.any f = l.any g := by
  induction l with
  | nil => rfl
  | cons x l ih => rw [List.any_cons, List.any_cons, h x List.mem_cons_self, ih fun y hy => h y (List.mem_cons_of_mem _ hy)]

section
variable (h : s.sameTables p)
include h

theorem State.sameTables.homeGran : p.homeGran = s.homeGran := State.homeGran_congr h.shape

theorem State.sameTables.tt {i : Nat} (hi : i < 32768) : p.tt i = s.tt i := by
  have hrd : ∀ k < 8, p.rd (.ttEntry s.homeGran i k) = s.rd (.ttEntry s.homeGran i k) := fun k hk =>
    h.regs _ _ s.homeGran_lt (0x100000 + 64 * i + 8 * k) (by omega) (by omega) (by show grnBase _ + 0x100000 + 64 * i + 8 * k = _; omega)
  simp only [State.tt, h.homeGran, State.ttAt, hrd _ (show 0 < 8 by decide), hrd _ (show 1 < 8 by decide), hrd _ (show 2 < 8 by decide),
    hrd _ (show 3 < 8 by decide), hrd _ (show 4 < 8 by decide)]

theorem State.sameTables.layer {i : Nat} (hi : i < 4096) : p.layer i = s.layer i := by
  have hrd : ∀ k < 8, p.rd (.layer s.homeGran i k) = s.rd (.layer s.homeGran i k) := fun k hk =>
    h.regs _ _ s.homeGran_lt (0x400000 + 64 * i + 8 * k) (by omega) (by omega) (by show grnBase _ + 0x400000 + 64 * i + 8 * k = _; omega)
  simp only [State.layer, h.homeGran, State.layerAt, hrd _ (show 0 < 8 by decide), hrd _ (show 1 < 8 by decide), hrd _ (show 2 < 8 by decide),
    hrd _ (show 3 < 8 by decide), hrd _ (show 4 < 8 by decide)]

theorem State.sameTables.layersOf (q j : Nat) : p.layersOf q j = s.layersOf q j := by
  have hlist : p.listedOf (layerNo s.homeGran) = s.listedOf (layerNo s.homeGran) := by
    rw [State.listedOf, List.filterMap_append, h.listed, h.shadow, ← List.filterMap_append, State.listedOf]
  rw [State.layersOf, h.homeGran, hlist, State.layersOf]
  refine congrArg _ (List.filter_congr fun i hi => ?_)
  rw [h.layer (State.lt_of_mem_listedOf hi), h.tt (bits_lt ..)]

theorem State.sameTables.layer_map {β : Type} (f : Layer → β) (q j : Nat) :
    (p.layersOf q j).map (fun i => f (p.layer i)) = (s.layersOf q j).map fun i => f (s.layer i) := by
  rw [h.layersOf]
  exact List.map_congr_left fun i hi => by rw [h.layer (State.lt_of_mem_layersOf hi)]

theorem State.sameTables.slots (q j : Nat) : p.slots q j = s.slots q j := by
  rw [State.slots, h.layersOf, State.slots]
  exact List.foldl_ext _ _ _ fun a i hi => by rw [h.layer (State.lt_of_mem_layersOf hi)]

theorem State.sameTables.stepTensors (q j : Nat) : p.stepTensors q j = s.stepTensors q j := by
  rw [State.stepTensors, h.layersOf, State.stepTensors]
  refine congrArg dedup (List.flatMap_congr fun i hi => ?_)
  simp only [h.layer (State.lt_of_mem_layersOf hi)]

/-- The records that an update names, where the partition's dies and the frozen records are the same too. -/
theorem State.sameTables.updated {q j : Nat} (hf : ∀ t, p.frozenW q j t = s.frozenW q j t) : p.updated q j = s.updated q j := by
  rw [State.updated, h.layersOf, State.updated]
  exact List.filter_congr fun i hi => by rw [h.layer (State.lt_of_mem_layersOf hi), hf]

end

theorem State.dieIn_keepsRegs (h : s.keepsRegs (fun a => a = (Reg.mgtPart n).addr) u) (d : Nat) : u.dieIn n d = s.dieIn n d := by
  simp only [State.dieIn, State.partEn, h.flag rfl, h.fld rfl]

/-- What is frozen depends on the shape, the partition's register and those of the job in the clusters. -/
theorem State.frozenW_congr {q j : Nat} (hs : u.shape = s.shape) (hm : s.keepsRegs (fun a => a = (Reg.mgtPart q).addr) u)
    (hc : s.keepsRegs (fun a => ∃ cl < 288, a = (Reg.dspJob cl j).addr) u) (hj : (u.job q j).frozen = (s.job q j).frozen) (t : Nat) :
    u.frozenW q j t = s.frozenW q j t := by
  have hdies : u.diesOf q = s.diesOf q := List.filter_congr fun d _ => by rw [State.dieIn_keepsRegs hm, State.dieHole, hs, State.dieHole]
  have hhole : ∀ cl, u.clusterHole cl = s.clusterHole cl := fun cl => by rw [State.clusterHole, hs, State.clusterHole]
  have hcl : u.clustersOf q = s.clustersOf q := by simp only [State.clustersOf, hdies, hhole]
  rw [State.frozenW, hj, hcl, State.frozenW]
  exact congrArg _ (any_congr fun cl hcl => hc.flag ⟨cl, (mem_clustersOf hcl).1, rfl⟩ _)

section
variable (h : s.asRead p o)
include h

theorem State.asRead.shape : p.shape = s.shape := by rw [h.eq]

theorem State.asRead.job (q j : Nat) : p.job q j = s.job q j := by rw [h.eq]; rfl

theorem State.asRead.part (q : Nat) : p.part q = s.part q := by rw [h.eq]; rfl

theorem State.asRead.seals : p.seals = s.seals := by rw [h.eq]

theorem State.asRead.partOn (q : Nat) : p.partOn q = s.partOn q := State.partOn_keepsRegs h.regs q

theorem State.asRead.rd_granary {r : Reg} {k : Nat} (hr : r.addr = grnBase g + k) (hg : g < 24) (hk : k < 0x4000000) : p.rd r = s.rd r :=
  h.regs r (granary_offMailboxes hg hr hk)

theorem State.asRead.tables : s.sameTables p :=
  ⟨h.shape, by rw [h.eq], fun _ _ hg k hk _ hr => h.rd_granary hr hg (by omega), fun g => h.writes.filterMap fun _ ha => layerNo_of_mailboxAddr ha g⟩

theorem State.asRead.homeGran : p.homeGran = s.homeGran := h.tables.homeGran

theorem State.asRead.tt {i : Nat} (hi : i < 32768) : p.tt i = s.tt i := h.tables.tt hi

theorem State.asRead.layer {i : Nat} (hi : i < 4096) : p.layer i = s.layer i := h.tables.layer hi

theorem State.asRead.layersOf (q j : Nat) : p.layersOf q j = s.layersOf q j := h.tables.layersOf q j

theorem State.asRead.slots (q j : Nat) : p.slots q j = s.slots q j := h.tables.slots q j

theorem State.asRead.layer_map {β : Type} (f : Layer → β) (q j : Nat) :
    (p.layersOf q j).map (fun i => f (p.layer i)) = (s.layersOf q j).map fun i => f (s.layer i) := h.tables.layer_map f q j

theorem State.asRead.stepTensors (q j : Nat) : p.stepTensors q j = s.stepTensors q j := h.tables.stepTensors q j

theorem State.asRead.clustersOf {q : Nat} (hq : q < 12) : p.clustersOf q = s.clustersOf q := by
  have hdies : p.diesOf q = s.diesOf q := List.filter_congr fun d _ => by rw [h.dieIn hq, State.dieHole, h.shape, State.dieHole]
  have hhole : ∀ cl, p.clusterHole cl = s.clusterHole cl := fun cl => by rw [State.clusterHole, h.shape, State.clusterHole]
  simp only [State.clustersOf, hdies, hhole]

theorem State.asRead.frozenW {q j : Nat} (hq : q < 12) (hj : j < 16) (t : Nat) : p.frozenW q j t = s.frozenW q j t := by
  refine State.frozenW_congr h.shape (h.regs.mono ?_) (h.regs.mono ?_) (by rw [h.job]) t
  · rintro _ rfl
    exact mgtPart_offMailboxes hq
  · rintro _ ⟨cl, hcl, rfl⟩
    exact offMailboxes_below ((cluster_below_mgt (o := 0x400 + 0x20 * j) hcl (by omega)).trans_le (Nat.le_add_right ..))

theorem State.asRead.lastUpdated {q j : Nat} (hq : q < 12) (hj : j < 16) : p.lastUpdated q j = s.lastUpdated q j := by
  have hupd : p.updated q j = s.updated q j := h.tables.updated (h.frozenW hq hj)
  rw [State.lastUpdated, hupd, State.lastUpdated]
  cases hu : s.updated q j with
  | nil => rw [h.job]
  | cons i l =>
    have hi : i < 4096 := State.lt_of_mem_layersOf (List.mem_of_mem_filter (hu ▸ List.mem_cons_self : i ∈ s.updated q j))
    show p.lastStep p.homeGran i = s.lastStep s.homeGran i
    rw [h.homeGran, State.lastStep, h.rd_granary (k := 0x480000 + 32 * i + 8 * 0)
      (by show grnBase _ + 0x480000 + 32 * i + 8 * 0 = _; omega) s.homeGran_lt (by omega), State.lastStep]

theorem State.asRead.seqCfg {q : Nat} (hq : q < 12) : p.seqCfg q = s.seqCfg q := by
  have hrd : ∀ r : Reg, (∃ k < 0x40, r.addr = mgtBase + (0x3000 + k + 0x40 * q)) → p.rd r = s.rd r := fun r ⟨k, hk, hr⟩ =>
    h.regs r (offMailboxes_below (by omega))
  have hshare := State.fld_congr (hrd (.seqShare q) ⟨0, by decide, rfl⟩)
  have hpool := State.fld_congr (hrd (.seqPool q) ⟨8, by decide, rfl⟩)
  have hset := State.fld_congr (hrd (.seqSet q) ⟨16, by decide, rfl⟩)
  have hstep := State.fld_congr (hrd (.seqStep q) ⟨24, by decide, rfl⟩)
  have hrows := State.fld_congr (hrd (.seqRows q) ⟨32, by decide, rfl⟩)
  simp only [State.seqCfg, State.flag, hshare, hpool, hset, hstep, hrows]

theorem State.asRead.slotEnt {q : Nat} (hq : q < 12) (i : Nat) : p.slotEnt q i = s.slotEnt q i := by
  have hrd : ∀ n k, p.rd (.seqEntry n k) = s.rd (.seqEntry n k) := fun n k => h.regs _ fun hm => by
    have := hm.2
    rw [show (Reg.seqEntry n k).addr = mgtBase + 0x200000 + 32 * n + 8 * k from rfl] at this
    omega
  simp only [State.slotEnt, h.seqCfg hq, State.seqEnt, hrd]

end

end Sys2Proof.Machine
end

section
/-! Commands that wait for what they ask for (R223, R262, R268, R287, R299, R318, R319, R374, R385, R393, R420, R435, R441). -/

-- The frame conditions are evaluated in the kernel: theorems elaborated in parallel would each hold a thread while they wait for it.
set_option Elab.async false

namespace Sys2Proof.Machine

variable {s t u p : State} {c : FwCmd} {o : FwOut} {f : BringIn} {w : FwWait}

/-- With one command outstanding, that command waits. -/
theorem State.waitsFor_setWait (h : s.fw = [o]) (w : FwWait) : (s.setWait o w).waitsFor o w := by
  rw [State.waitsFor, State.setWait, h, List.map_cons, List.map_nil, if_pos rfl]

theorem State.bringOn_none (h : s.bring = none) : s.bringOn = s := by rw [State.bringOn, h]

/-- What a command that waits does. -/
theorem State.performNow_wait (hp : p.perform o f = .wait w u) (hfw : u.fw = [o]) (hw : w ≠ .turn) :
    (p.performNow o f).turns = (u.setWait o w).bringOn := by
  have hwait := State.waitsFor_setWait hfw w
  have hnow : p.performNow o f = (u.setWait o w).bringOn := by rw [State.performNow, hp]
  rw [hnow]
  refine State.turns_of_none fun x hx => ?_
  rw [(State.changes_bringOn ..).same .fw, hwait, List.mem_singleton] at hx
  rw [hx]
  exact hw

/-- A command that asks for something waits for it; F is what its asking makes of the device. -/
theorem exec_waits {q : Nat × Instr} (hq : q ∈ fwRows c f) (h : s.fwFirst q.1 c) (hbring : s.bring = none) (hw : w ≠ .turn) {F : State → State}
    {k : State → Prop} (hp : ∀ p, s.asRead p (s.readCmd c) → (s.readCmd c).op = q.1 → p.perform (s.readCmd c) (findings q.1 f) = .wait w (F p))
    (hF : ∀ p : State, p.changes [.jobs, .parts, .seals, .snapAsked, .window_, .restore] (F p))
    (hk : ∀ p u, s.asRead p (s.readCmd c) → (F p).changes [.fw] u → k u) :
    ∃ u, exec q.2 s = .next u ∧ u.waitsFor (s.readCmd c) w ∧ s.sameMem u ∧ k u := by
  obtain ⟨p, hread, hrun, hop⟩ := exec_fwFirst hq h
  have hfw : (F p).fw = [s.readCmd c] := ((hF p).same .fw).trans hread.fw
  have hset := State.changes_setWait (s := F p) (s.readCmd c) w
  have hnone : ((F p).setWait (s.readCmd c) w).bring = none := (hset.same .bring).trans (((hF p).same .bring).trans (by rw [hread.eq]; exact hbring))
  have hturns : (p.performNow (s.readCmd c) (findings q.1 f)).turns = (F p).setWait (s.readCmd c) w := by
    rw [State.performNow_wait (hp p hread hop) hfw hw, State.bringOn_none hnone]
  refine ⟨_, hrun.trans (congrArg _ hturns), State.waitsFor_setWait hfw w, ?_, hk p _ hread hset⟩
  exact hread.sameMem.trans ((State.sameMem_of_changes (hF p)).trans (State.sameMem_of_changes hset))

/-- A command that only waits. -/
theorem exec_waits_only {q : Nat × Instr} (hq : q ∈ fwRows c f) (h : s.fwFirst q.1 c) (hbring : s.bring = none) (hw : w ≠ .turn)
    (hp : ∀ p, s.asRead p (s.readCmd c) → (s.readCmd c).op = q.1 → p.perform (s.readCmd c) (findings q.1 f) = .wait w p) :
    ∃ u, exec q.2 s = .next u ∧ u.waitsFor (s.readCmd c) w ∧ s.sameMem u ∧ u.parts = s.parts ∧ u.jobs = s.jobs :=
  exec_waits hq h hbring hw (F := id) hp (fun _ => .refl) fun p _ hread hk =>
    ⟨(hk.same .parts).trans (by rw [id, hread.eq]), (hk.same .jobs).trans (by rw [id, hread.eq])⟩

/-- A running or stopped job passes the check. -/
theorem State.jobCheck_live (hon : s.partOn o.part = true) (hstat : (s.job o.part o.job).stat = .running ∨ (s.job o.part o.job).stat = .stopped)
    (k : FwRes) : s.jobCheck o k = k := by
  rw [State.jobCheck, hon, Bool.not_true, if_neg Bool.false_ne_true]
  rcases hstat with h | h <;> rw [h]

/-- No other command is outstanding that the end of a job or a partition could end. -/
theorem State.cancelFor_alone (h : s.fw = [o]) (st : Nat) (q : FwOut → Bool) : s.cancelFor st o q = s := by
  unfold State.cancelFor
  extract_lets other v
  have hnone : s.fw.filter other = [] := by rw [h]; exact List.filter_cons_of_neg (by simp [other])
  have hv : v = s := by unfold v; rw [hnone]; rfl
  rw [hv, State.cancel, hnone]
  rfl

theorem State.performPartReset_alone (hon : s.partOn o.part = true) (h : s.fw = [o]) (destroy : Bool) :
    s.performPartReset o destroy = .wait (.reset o.part destroy) s := by
  rw [State.performPartReset, hon, State.cancelFor_alone h]
  rfl

theorem State.performKill_alone (hlive : s.partOn o.part = true ∧ ((s.job o.part o.job).stat = .running ∨ (s.job o.part o.job).stat = .stopped))
    (h : s.fw = [o]) : s.performKill o = .wait (.kill o.part o.job) s := by
  obtain ⟨hon, hstat⟩ := hlive
  have hfree : decide ((s.job o.part o.job).stat = .free) = false := by rcases hstat with h | h <;> rw [h] <;> rfl
  unfold State.performKill
  simp only [hfree, Bool.and_false, Bool.false_and, Bool.false_eq_true, if_false, State.cancelFor_alone h, State.jobCheck_live hon hstat]

theorem State.performSeal_live {undo : Bool} (hon : s.partOn o.part = true)
    (hstat : (s.job o.part o.job).stat = .running ∨ (s.job o.part o.job).stat = .stopped) (hown : s.foreignTensor o (o.arg 40 15) = false)
    (hseals : ∀ q ∈ s.seals, q.tensor ≠ o.arg 40 15) (hv : (s.tt (o.arg 40 15)).valid = true) (hview : (s.tt (o.arg 40 15)).view = false)
    (hcls : (s.tt (o.arg 40 15)).cls = if undo then 0 else 2) :
    s.performSeal o undo = .wait (.seal (o.arg 40 15)) { s with seals := s.seals ++ [⟨o.arg 40 15, undo, false⟩] } := by
  have hidle : (s.seals.any fun w => w.tensor == o.arg 40 15) = false := List.any_eq_false.2 fun q hq => by simp [hseals q hq]
  rw [State.performSeal, if_neg (by rw [hown]; exact Bool.false_ne_true), State.jobCheck_live hon hstat, hidle, if_neg Bool.false_ne_true, hv, hview, hcls]
  simp

/-- A seal or an unseal is asked for. -/
theorem exec_seal_waits {q : Nat × Instr} {undo : Bool} (hq : q ∈ fwRows c f) (h : s.fwFirst q.1 c) (hbring : s.bring = none)
    (hp : ∀ p : State, (s.readCmd c).op = q.1 → p.perform (s.readCmd c) (findings q.1 f) = p.performSeal (s.readCmd c) undo)
    (hlive : s.partOn (s.readCmd c).part = true ∧ ((s.job (s.readCmd c).part (s.readCmd c).job).stat = .running
      ∨ (s.job (s.readCmd c).part (s.readCmd c).job).stat = .stopped)) {t : Nat} (ht : t = (s.readCmd c).arg 40 15)
    (hown : s.foreignTensor (s.readCmd c) t = false) (hseals : ∀ q ∈ s.seals, q.tensor ≠ t) (hv : (s.tt t).valid = true)
    (hview : (s.tt t).view = false) (hcls : (s.tt t).cls = if undo then 0 else 2) :
    ∃ u, exec q.2 s = .next u ∧ u.waitsFor (s.readCmd c) (.seal t) ∧ s.sameMem u ∧ u.seals = s.seals ++ [⟨t, undo, false⟩] := by
  obtain ⟨hon, hstat⟩ := hlive
  refine exec_waits hq h hbring (by simp) (F := fun p => { p with seals := p.seals ++ [⟨t, undo, false⟩] }) (fun p hread hop => ?_)
    (fun _ => (State.changes_set_seals ..).after .refl) fun p u hread hk => (hk.same .seals).trans (by rw [hread.eq])
  have htt := hread.tt (show t < 32768 from ht ▸ bits_lt ..)
  subst ht
  rw [hp p hop]
  exact State.performSeal_live ((hread.partOn _).trans hon) (by rw [hread.job]; exact hstat) (by rw [State.foreignTensor, htt]; exact hown)
    (by rw [hread.seals]; exact hseals) (by rw [htt]; exact hv) (by rw [htt]; exact hview) (by rw [htt]; exact hcls)

theorem State.performNorm_idle (hon : s.partOn o.part = true) (hidle : (s.job o.part o.job).stat = .stopped
    ∨ ((s.job o.part o.job).stat = .running ∧ (s.job o.part o.job).stage = .none)) : s.performLayerNorm o = .wait (.normAsk o.part o.job) s := by
  have hok : ¬ ((s.job o.part o.job).stat ≠ .stopped ∧ (s.job o.part o.job).stage ≠ .none) := fun h => by
    rcases hidle with hs | ⟨-, hs⟩
    · exact h.1 hs
    · exact h.2 hs
  rw [State.performLayerNorm, State.jobCheck_live hon (hidle.symm.imp_left And.left), if_neg hok]

theorem State.performStepBegin_due (hon : s.partOn o.part = true)
    (hstat : (s.job o.part o.job).stat = .running ∨ (s.job o.part o.job).stat = .stopped) (hphase : (s.part o.part).phase = 0)
    (hstage : (s.job o.part o.job).stage = .none) (hstep : o.body 16 0 48 = (s.lastUpdated o.part o.job + 1) % 2 ^ 48)
    (hts : ∀ q ∈ s.stepTensors o.part o.job, q ∉ (s.job o.part o.job).pub → (s.tt q).cls = 0 ∧ ∀ x ∈ s.seals, x.tensor ≠ q) :
    s.performStepBegin o = .wait (.stepStart o.part o.job) s := by
  have hmem : ∀ q ∈ (s.stepTensors o.part o.job).filter (fun t => !(s.job o.part o.job).pub.contains t),
      (s.tt q).cls = 0 ∧ ∀ x ∈ s.seals, x.tensor ≠ q := fun q hq => by
    obtain ⟨hq, hpub⟩ := List.mem_filter.1 hq
    exact hts q hq fun h => by simp [h] at hpub
  unfold State.performStepBegin
  extract_lets p j b ts
  rw [State.jobCheck_live hon hstat, if_neg, if_neg, if_neg (not_not.2 hstep)]
  · rintro (h | h | h)
    · exact h hphase
    · exact h hstage
    · obtain ⟨q, hq, hc⟩ := List.any_eq_true.1 h
      simp [(hmem q hq).1] at hc
  · intro h
    obtain ⟨q, hq, hx⟩ := List.any_eq_true.1 h
    obtain ⟨x, hx, he⟩ := List.any_eq_true.1 hx
    exact (hmem q hq).2 x hx (by simpa using he)

theorem State.performWindow_free (hnone : s.window_ = none) (hrun : s.runningOn (dieMask (BitVec.ofNat 36 (o.body 16 0 36)).toNat) = false)
    (hpack : o.body 28 0 16 = 0 ∨ (if o.body 28 0 16 = 0xFFFF then BitVec.ofNat 36 (o.body 16 0 36) = BitVec.allOnes 36 else o.body 28 0 16 ∈ s.seedSets)) :
    s.performWindow o = .wait .window { s with
      window_ := some ⟨o.cmd, BitVec.ofNat 36 (o.body 16 0 36), o.body 24 0 32, o.body 28 0 16, o.body 30 0 3, none, 0, [], []⟩ } := by
  unfold State.performWindow
  extract_lets mask pack
  rw [hnone, if_neg (by simp), hrun, Bool.false_or, if_neg]
  rw [Bool.not_eq_true', Bool.not_eq_false]
  rcases hpack with h | h
  · rw [show pack = 0 from h]; rfl
  · split at h
    next hk => simp [show pack = 0xFFFF from hk, show mask = BitVec.allOnes 36 from h]
    next hk => simp [show pack ≠ 0xFFFF from hk, show pack ∈ s.seedSets from h]

theorem State.asRead.scopeBad (h : s.asRead p o) (o' : FwOut) : p.scopeBad o' = s.scopeBad o' := by
  have hdie : ∀ d, p.dieHole d = s.dieHole d := fun d => by rw [h.eq]; rfl
  have hcluster : ∀ cl, p.clusterHole cl = s.clusterHole cl := fun cl => by rw [h.eq]; rfl
  have hcore : ∀ k, p.coreHole k = s.coreHole k := fun k => by rw [h.eq]; rfl
  simp only [State.scopeBad, h.partOn, hdie, hcluster, hcore]

/-! The cancel of a sequence (R299). -/

/-- The sequences to cancel, one more among them. -/
def SeqMgr.cancel (m : SeqMgr) (i : Nat) : SeqMgr := { m with cancels := if m.cancels.contains i then m.cancels else m.cancels ++ [i] }

theorem SeqMgr.mem_cancel (m : SeqMgr) (i : Nat) : i ∈ (m.cancel i).cancels := by
  unfold SeqMgr.cancel
  dsimp only
  split
  next h => exact List.contains_iff_mem.1 h
  next => exact List.mem_append_right _ List.mem_cons_self

section
variable (hon : s.partOn o.part = true) (hlt : o.arg 40 14 < (s.seqCfg o.part).count)
include hon hlt

theorem State.performSeqCancel_left (hst : (s.slotEnt o.part (o.arg 40 14)).state = 4) : s.performSeqCancel o = .done .good s := by
  unfold State.performSeqCancel
  extract_lets p i cfg
  rw [if_neg (by simp [p, hon, cfg, i, hlt]), hst]
  rfl

theorem State.performSeqCancel_held {n : Nat} (hst : (s.slotEnt o.part (o.arg 40 14)).state = n) (h1 : 1 ≤ n) (h3 : n ≤ 3) :
    s.performSeqCancel o = .wait (.leave o.part (o.arg 40 14)) (s.setSeq o.part ((s.seqMgr o.part).cancel (o.arg 40 14))) := by
  unfold State.performSeqCancel
  extract_lets p i cfg
  rw [if_neg (by simp [p, hon, cfg, i, hlt]), hst]
  interval_cases n <;> rfl

end

theorem State.stepTensors_lt {q j i : Nat} (h : i ∈ s.stepTensors q j) : i < 32768 := by
  obtain ⟨k, -, hi⟩ := List.mem_flatMap.1 (mem_of_mem_dedup h)
  rcases List.mem_cons.1 hi with rfl | hi
  · exact bits_lt ..
  · split at hi
    · simp only [List.mem_cons, List.not_mem_nil, or_false] at hi
      rcases hi with rfl | rfl <;> exact bits_lt ..
    · exact absurd hi List.not_mem_nil

/-! The restore of a job (R435). -/

/-- The source of a restore is there: pages of the job, or the job's tithe. -/
def State.restoreReads (s : State) (p j src addr : Nat) : Prop :=
  (src = 0 ∧ addr % 512 = 0 ∧ addr < 2 ^ 45 ∧ ∀ g, addr / 512 / 4096 ≤ g → g * 4096 < addr / 512 + 25 * s.slots p j →
      pgState (s.pageOf p g) = 1 ∧ pgJob (s.pageOf p g) = j)
    ∨ (src = 1 ∧ addr < 2 ^ 16 ∧ ((s.job p j).titheNext.isSome = true ∨ (s.job p j).tithe.isSome = true))

theorem State.asRead.restoreReads (h : s.asRead p o) (q j src addr : Nat) : p.restoreReads q j src addr = s.restoreReads q j src addr := by
  have hpage : ∀ g, p.pageOf q g = s.pageOf q g := State.pageOf_congr (by rw [h.eq]) q
  simp only [State.restoreReads, h.slots, h.job, hpage]

/-- What asking for the unseal of a job's weights leaves. -/
def State.unsealAsked (s : State) (p j : Nat) : State :=
  ((s.layersOf p j).map fun i => (s.layer i).w).foldl (fun (s : State) t => s.askUnseal p j t)
    (s.setJob p j { s.job p j with stage := .none, packets := [], device := none, result := none })

theorem State.unsealAsked_stage (s : State) (p j : Nat) : ((s.unsealAsked p j).job p j).stage = .none := by
  obtain ⟨k, hk⟩ := State.job_askUnseals (s.setJob p j { s.job p j with stage := .none, packets := [], device := none, result := none }) p j
    (fun _ t => t) ((s.layersOf p j).map fun i => (s.layer i).w)
  rw [State.unsealAsked, hk, State.job_setJob_same]

theorem State.changes_unsealAsked (s : State) (p j : Nat) : s.changes [.jobs, .seals] (s.unsealAsked p j) :=
  State.changes_foldl ((State.changes_setJob ..).after .refl) fun _ _ ht => (State.changes_askUnseal ..).after ht

/-- The run of a restore as it is asked for. -/
def State.restoreAsked (s : State) (o : FwOut) : RestoreRun :=
  let b := s.job o.part o.job
  let tithe := match b.titheNext with
    | some t => some t
    | none => b.tithe
  ⟨o.part, o.job, o.body 16 0 8, o.body 24 0 64, o.body 32 0 64, false, o.body 24 0 64, tithe.getD ⟨0, 0, 0, 0, []⟩, 0,
    if o.body 16 0 8 = 1 then 25 * s.slots o.part o.job else 0, [], 0⟩

theorem State.performRestore_ready (hon : s.partOn o.part = true) (hstat : (s.job o.part o.job).stat = .stopped) (hstep : o.body 32 0 64 < 2 ^ 48)
    (hsrc : s.restoreReads o.part o.job (o.body 16 0 8) (o.body 24 0 64))
    (hseals : ∀ q ∈ s.seals, q.tensor ∈ (s.layersOf o.part o.job).map (fun i => (s.layer i).w) → q.tensor ∈ (s.job o.part o.job).pub) :
    s.performRestore o = .wait (.restore o.part o.job) { s.unsealAsked o.part o.job with restore := some (s.restoreAsked o) } := by
  unfold State.performRestore
  extract_lets p j src addr n all pages foreign b ws tithe s1 s2 r
  have hpages : ∀ g ∈ pages, addr / 512 / 4096 ≤ g ∧ g * 4096 < addr / 512 + 25 * s.slots p j := fun g hg => by
    obtain ⟨hall, hlt⟩ := List.mem_filter.1 hg
    obtain ⟨k, -, rfl⟩ := List.mem_map.1 hall
    exact ⟨Nat.le_add_right _ _, of_decide_eq_true hlt⟩
  have hbusy : (ws.any fun t => s.seals.any fun w => w.tensor == t && !b.pub.contains t) = false :=
    List.any_eq_false.2 fun t ht h => by
      obtain ⟨x, hx, he⟩ := List.any_eq_true.1 h
      obtain ⟨heq, hpub⟩ := Bool.and_eq_true_iff.1 he
      have heq' : x.tensor = t := eq_of_beq heq
      have := hseals x hx (heq' ▸ ht)
      simp [b, p, j, ← heq', this] at hpub
  have hforeign : ¬ (src = 0 ∧ foreign = true) := fun ⟨h0, hf⟩ => by
    obtain ⟨g, hg, hp⟩ := List.any_eq_true.1 hf
    obtain ⟨hle, hlt⟩ := hpages g hg
    rcases hsrc with ⟨-, -, -, hps⟩ | ⟨h1, -⟩
    · exact (of_decide_eq_true hp).2 (hps g hle hlt).2
    · exact absurd (h0.symm.trans h1) (by decide)
  have hgood : ¬ (b.stat ≠ .stopped ∨ 1 < src ∨ 2 ^ 48 ≤ o.body 32 0 64 ∨ (src = 1 ∧ (tithe.isNone = true ∨ 2 ^ 16 ≤ addr))
      ∨ (src = 0 ∧ (addr % 512 ≠ 0 ∨ 2 ^ 45 ≤ addr ∨ pages.any (fun g => decide (pgState (s.pageOf p g) ≠ 1)) = true))) := by
    rcases hsrc with ⟨h0, halign, hlt, hps⟩ | ⟨h1, hlt, htithe⟩
    · rintro (h | h | h | ⟨h, -⟩ | ⟨-, h | h | h⟩)
      · exact h hstat
      · omega
      · omega
      · omega
      · exact h halign
      · omega
      · obtain ⟨g, hg, hp⟩ := List.any_eq_true.1 h
        obtain ⟨hle, hlt⟩ := hpages g hg
        exact of_decide_eq_true hp (hps g hle hlt).1
    · rintro (h | h | h | ⟨-, h | h⟩ | ⟨h, -⟩)
      · exact h hstat
      · omega
      · omega
      · unfold tithe at h
        split at h
        next => exact absurd h (by simp)
        next hnext => rw [Option.isNone_iff_eq_none.1 h, hnext] at htithe; simp at htithe
      · omega
      · omega
  rw [if_neg hforeign, State.jobCheck_live hon (.inr hstat), hbusy, if_neg Bool.false_ne_true, if_neg hgood]
  rfl

/-! The load of the firmware image (R385, R393). -/

theorem State.bootStage_step6 (s : State) (f : BringIn) : (s.step6 f).bootStage = s.bootStage := (State.changes_step6 ..).same .bootStage

/-- Step 6 measures the calibration set, and nothing else of security changes. -/
theorem State.imageOk_step6 (s : State) (f : BringIn) : (s.step6 f).sec.imageOk = s.sec.imageOk := by
  unfold State.step6
  extract_lets _ _ s3 _ _ _ _ _ s8
  have h3 : s3.sec = s.sec := by
    unfold s3
    split
    · rfl
    · exact (State.changes_fault ..).same .sec
  show s8.sec.imageOk = s.sec.imageOk
  rw [← h3]
  rfl

/-- Bring-up goes on from step 5. -/
theorem State.bringOn_accepted (hb : s.bring = some (c, f)) (hstage : s.bootStage = 5) :
    s.bringOn.bootStage = (if s.jtagHolds then 5 else 6) ∧ s.bringOn.sec.imageOk = s.sec.imageOk
      ∧ (s.jtagHolds = false → s.bringOn.board.pwrEn = true) ∧ (s.railsGood = false → s.bringOn.sec = s.sec) := by
  unfold State.bringOn
  rw [hb]
  dsimp only
  by_cases hj : s.jtagHolds = true
  · rw [if_pos ⟨by omega, hj⟩, hstage, if_pos hj]
    exact ⟨rfl, rfl, fun h => absurd (hj.symm.trans h) (by decide), fun _ => rfl⟩
  · rw [if_neg fun h => hj h.2, if_pos (by omega : s.bootStage < 6), if_neg hj]
    obtain ⟨v, hv, hstage, hsec, hpwr, hgood⟩ : ∃ v, v = (if (s.enterStage 6).board.pwrEn then s.enterStage 6
        else State.emit { s.enterStage 6 with board := { (s.enterStage 6).board with pwrEn := true } } (.pwrEn true))
        ∧ v.bootStage = 6 ∧ v.sec = s.sec ∧ v.board.pwrEn = true ∧ v.board.good = s.board.good := by
      refine ⟨_, rfl, ?_⟩
      split
      next h => exact ⟨rfl, rfl, h, rfl⟩
      · exact ⟨rfl, rfl, rfl, rfl⟩
    rw [← hv]
    have hrails : v.railsGood = s.railsGood := by rw [State.railsGood, hgood, State.railsGood]
    split
    next h =>
      refine ⟨(v.bootStage_step6 f).trans hstage, (v.imageOk_step6 f).trans (by rw [hsec]), fun _ => ?_, fun hr => ?_⟩
      · rw [(State.changes_step6 ..).same .board, hpwr]
      · exact absurd (h.2.1.symm.trans (hrails.trans hr)) (by decide)
    next => exact ⟨hstage, by rw [hsec], fun _ => hpwr, fun _ => hsec⟩

/-- The load of an image. -/
theorem exec_imageLoad_accepted (h : s.fwFirst 0x10 c) {l : List Byte} (hl : l = s.winBytes ((s.readCmd c).body 16 0 32) ((s.readCmd c).body 20 0 32))
    (hstaged : staged ((s.readCmd c).body 16 0 32) ((s.readCmd c).body 20 0 32) = true) (hlen : (s.readCmd c).body 20 0 32 ≤ 655360)
    (hv : s.verify 1 l = 0) (f : BringIn) : ∃ u, exec (.imageLoad c f) s = .next u ∧ s.sameMem u ∧ u.waitsFor (s.readCmd c) .bringup
      ∧ u.bring = some (c, f) ∧ u.sec.imageOk = true ∧ u.bootStage = (if s.jtagHolds then 5 else 6) ∧ (s.jtagHolds = false → u.board.pwrEn = true)
      ∧ (s.railsGood = false → u.sec.logCount = s.sec.logCount + 1) := by
  obtain ⟨p, hread, hrun, hop⟩ := exec_fwFirst (q := (0x10, .imageLoad c f)) (f := f) (by simp [fwRows]) h
  obtain ⟨v, hvdef⟩ : ∃ v : State, v = { (p.enterStage 5).acceptImage l with bring := some (c, f) } := ⟨_, rfl⟩
  have hp : p.perform (s.readCmd c) (findings 0x10 f) = .wait .bringup v := by
    simp only [State.perform, hop, State.performImage, hstaged, ← hl, hread.winBytes, hread.verify, hv, hvdef]
    rw [if_neg (by simp [hlen])]
    rfl
  have hk : p.changes [.bootStage, .stageWord, .sec, .minSvn, .bring] v := by
    rw [hvdef]
    exact (State.changes_set_bring ..).after ((State.changes_acceptImage ..).after ((State.changes_enterStage ..).after .refl))
  have hfw : v.fw = [s.readCmd c] := (hk.same .fw).trans hread.fw
  have hset := State.changes_setWait (s := v) (s.readCmd c) .bringup
  obtain ⟨x, hx⟩ : ∃ x, x = v.setWait (s.readCmd c) .bringup := ⟨_, rfl⟩
  rw [← hx] at hset
  have hboard : x.board = s.board := (hset.same .board).trans ((hk.same .board).trans (by rw [hread.eq]))
  have hsec : x.sec = v.sec := hset.same .sec
  have hbring : x.bring = some (c, f) := (hset.same .bring).trans (by rw [hvdef])
  have hon := State.changes_bringOn (s := x)
  obtain ⟨hstage, hok, hpwr, hlog⟩ := State.bringOn_accepted hbring ((hset.same .bootStage).trans (by rw [hvdef]; rfl))
  refine ⟨x.bringOn, ?_, ?_, ?_, (hon.same .bring).trans hbring, hok.trans (by rw [hsec, hvdef]; rfl), ?_, ?_, ?_⟩
  · rw [hrun, State.performNow_wait hp hfw (by simp), hx]
  · exact hread.sameMem.trans ((State.sameMem_of_changes hk).trans ((State.sameMem_of_changes hset).trans (State.sameMem_of_changes hon)))
  · rw [State.waitsFor, hon.same .fw, hx]
    exact State.waitsFor_setWait hfw _
  · rw [hstage, State.jtagHolds, hboard, State.jtagHolds]
  · rwa [State.jtagHolds, hboard] at hpwr
  · intro hr
    have hr' : x.railsGood = false := by rw [State.railsGood, hboard]; exact hr
    rw [hlog hr', hsec, hvdef]
    show p.sec.logCount + 1 = _
    rw [hread.eq]

theorem exec_imageLoad_refused (h : s.fwFirst 0x10 c) (hbring : s.bring = none) {l : List Byte}
    (hl : l = s.winBytes ((s.readCmd c).body 16 0 32) ((s.readCmd c).body 20 0 32))
    (hstaged : staged ((s.readCmd c).body 16 0 32) ((s.readCmd c).body 20 0 32) = true) (hlen : (s.readCmd c).body 20 0 32 ≤ 655360)
    (hv : s.verify 1 l ≠ 0) (f : BringIn) : ∃ u, exec (.imageLoad c f) s = .next u ∧ s.sameMem u ∧ u.completed c (s.verify 1 l)
      ∧ u.bring = none ∧ u.bootStage = 4 := by
  obtain ⟨p, u, hread, hrun, hends⟩ := exec_ends (q := (0x10, .imageLoad c f)) (f := f) (by simp [fwRows]) h (F := fun p => p.enterStage 4)
    (e := .of (s.verify 1 l)) (fun p hread hop => ⟨by
      simp only [State.perform, hop, State.performImage, hstaged, ← hl, hread.winBytes, hread.verify]
      rw [if_neg (by simp [hlen])]
      rfl, rfl⟩) (s.verify_lt 1 l)
  have hk := State.changes_enterStage (s := p) 4
  refine ⟨u, hrun, hread.sameMem.trans ((State.sameMem_of_changes hk).trans hends.sameMem), hends.completed, ?_, hends.changes.same .bootStage⟩
  rw [hends.changes.same .bring, hk.same .bring, hread.eq]
  exact hbring

end Sys2Proof.Machine

open Sys2Proof Sys2Proof.Machine

/-- Settles O59: each command performs what it asks for as it is read, and the wait that follows changes the list of outstanding commands alone. -/
theorem firmwareAsksAndWaits : Obligations.FirmwareAsksAndWaits := by
  unfold Obligations.FirmwareAsksAndWaits
  intro c s hbring o p j b on live t asks ok
  have hlive (h : live) : s.partOn o.part = true ∧ ((s.job o.part o.job).stat = .running ∨ (s.job o.part o.job).stat = .stopped) := h
  have hp12 (h : on) : p < 12 := of_decide_eq_true (Bool.and_eq_true_iff.1 h).1
  have hone (i : Instr) (w : FwWait) (h : ∃ u, exec i s = .next u ∧ u.waitsFor o w ∧ s.sameMem u ∧ u.parts = s.parts ∧ u.jobs = s.jobs) :
      asks i w (fun u => u.parts = s.parts) ∧ asks i w (fun u => u.jobs = s.jobs) ∧ asks i w ok := by
    obtain ⟨u, hrun, hw, hmem, hparts, hjobs⟩ := h
    exact ⟨⟨u, hrun, hw, hmem, hparts⟩, ⟨u, hrun, hw, hmem, hjobs⟩, ⟨u, hrun, hw, hmem, trivial⟩⟩
  refine ⟨?destroy, ?reset, ?stop, ?stopped, ?kill, ?sealed, ?unsealed, ?phase, ?norm, ?cancel, ?telemetry, ?counters, ?window, ?step, ?restore, ?image⟩
  case destroy =>
    exact fun h hon => (hone _ _ (exec_waits_only (q := (0x21, .partitionDestroy c)) (f := BringIn.none) (by simp [fwRows]) h hbring (by simp)
      fun v hv hop => by
        simp only [State.perform, hop]
        exact State.performPartReset_alone ((hv.partOn _).trans hon) hv.fw true)).1
  case reset =>
    exact fun h hon => (hone _ _ (exec_waits_only (q := (0x22, .partitionReset c)) (f := BringIn.none) (by simp [fwRows]) h hbring (by simp)
      fun v hv hop => by
        simp only [State.perform, hop]
        exact State.performPartReset_alone ((hv.partOn _).trans hon) hv.fw false)).1
  case stop =>
    refine fun h hon hstat => (hone _ _ (exec_waits_only (q := (0x24, .jobStop c)) (f := BringIn.none) (by simp [fwRows]) h hbring (by simp)
      fun v hv hop => ?_)).2.1
    have hstat' : (v.job (s.readCmd c).part (s.readCmd c).job).stat = .running := by rw [hv.job]; exact hstat
    simp only [State.perform, hop]
    rw [State.performStop, State.jobCheck_live ((hv.partOn _).trans hon) (.inl hstat'), if_neg (by rw [hstat']; decide)]
  case stopped =>
    intro h hon hstat
    obtain ⟨v, u, hv, hrun, hends⟩ := exec_ends (q := (0x24, .jobStop c)) (f := BringIn.none) (by simp [fwRows]) h (F := fun v => v) (e := .good)
      (fun v hv hop => by
        refine ⟨?_, rfl⟩
        have hstat' : (v.job (s.readCmd c).part (s.readCmd c).job).stat = .stopped := by rw [hv.job]; exact hstat
        simp only [State.perform, hop]
        rw [State.performStop, State.jobCheck_live ((hv.partOn _).trans hon) (.inr hstat'), if_pos hstat']
        rfl) (by decide)
    exact ⟨u, hrun, hends.completed, hv.sameMem.trans hends.sameMem⟩
  case kill =>
    exact fun h hl => (hone _ _ (exec_waits_only (q := (0x25, .jobKill c)) (f := BringIn.none) (by simp [fwRows]) h hbring (by simp)
      fun v hv hop => by
        simp only [State.perform, hop]
        exact State.performKill_alone (by rw [hv.partOn, hv.job]; exact hl) hv.fw)).2.1
  case norm =>
    refine fun h hon hidle => (hone _ _ (exec_waits_only (q := (0x45, .layerNorm c)) (f := BringIn.none) (by simp [fwRows]) h hbring (by simp)
      fun v hv hop => ?_)).2.2
    simp only [State.perform, hop]
    exact State.performNorm_idle ((hv.partOn _).trans hon) (by rw [hv.job]; exact hidle)
  case step =>
    intro h hl hphase hstage hstep hts
    refine (hone _ _ (exec_waits_only (q := (0x41, .stepBegin c)) (f := BringIn.none) (by simp [fwRows]) h hbring (by simp) fun v hv hop => ?_)).2.1
    simp only [State.perform, hop]
    have hpart : p < 12 := hp12 hl.1
    refine State.performStepBegin_due ((hv.partOn _).trans hl.1) (by rw [hv.job]; exact hl.2) (by rw [hv.part]; exact hphase)
      (by rw [hv.job]; exact hstage) (by rw [hv.lastUpdated hpart (bits_lt ..)]; exact hstep) fun q hq hpub => ?_
    rw [hv.stepTensors] at hq
    rw [hv.job] at hpub
    rw [hv.tt (State.stepTensors_lt hq), hv.seals]
    exact hts q hq hpub
  case sealed =>
    exact fun h hl hown hseals hv hview hcls => exec_seal_waits (q := (0x31, .tensorSeal c)) (f := BringIn.none) (undo := false) (by simp [fwRows]) h hbring
      (fun p hop => by simp only [State.perform, hop]) hl rfl hown hseals hv hview hcls
  case unsealed =>
    exact fun h hl hown hseals hv hview hcls => exec_seal_waits (q := (0x32, .tensorUnseal c)) (f := BringIn.none) (undo := true) (by simp [fwRows]) h hbring
      (fun p hop => by simp only [State.perform, hop]) hl rfl hown hseals hv hview hcls
  case phase =>
    intro h hon hph
    refine exec_waits (q := (0x44, .phaseSet c)) (f := BringIn.none) (by simp [fwRows]) h hbring (by simp)
      (F := fun v => v.setPart p { v.part p with request := some (o.arg 40 2, o.arg 42 1 == 1) }) (fun v hv hop => ?_)
      (fun _ => (State.changes_setPart ..).after .refl) fun v u hv hk => ?_
    · simp only [State.perform, hop]
      unfold State.performPhase
      extract_lets ph
      rw [if_neg]
      rw [hv.partOn, Bool.or_eq_true, not_or]
      exact ⟨by simpa using hon, fun he => hph (eq_of_beq he)⟩
    · rw [State.part, hk.same .parts]
      exact (State.part_setPart_same ..).trans (by rw [hv.part])
  case telemetry =>
    exact fun h => exec_waits (q := (0x82, .telemetry c)) (f := BringIn.none) (by simp [fwRows]) h hbring (by simp)
      (F := fun v => { v with snapAsked := true }) (fun v hv hop => by simp only [State.perform, hop, State.performTelemetry])
      (fun _ => (State.changes_set_snapAsked ..).after .refl) fun v u hv hk => hk.same .snapAsked
  case counters =>
    refine fun h hscope => exec_waits (q := (0x81, .countersRead c)) (f := BringIn.none) (by simp [fwRows]) h hbring (by simp)
      (F := fun v => { v with snapAsked := true }) (fun v hv hop => ?_)
      (fun _ => (State.changes_set_snapAsked ..).after .refl) fun v u hv hk => hk.same .snapAsked
    simp only [State.perform, hop, State.performCounters]
    rw [if_neg (by rw [hv.scopeBad]; exact ne_true_of_eq_false hscope)]
  case window =>
    intro h hnone mask pack hrun hpack
    refine exec_waits (q := (0x80, .testWindow c)) (f := BringIn.none) (by simp [fwRows]) h hbring (by simp)
      (F := fun v => { v with window_ := some ⟨c, mask, o.body 24 0 32, pack, o.body 30 0 3, none, 0, [], []⟩ }) (fun v hv hop => ?_)
      (fun _ => (State.changes_set_window_ ..).after .refl) fun v u hv hk => hk.same .window_
    simp only [State.perform, hop]
    exact State.performWindow_free (by rw [hv.eq]; exact hnone) (by rw [hv.runningOn]; exact hrun) (by rw [show v.seedSets = s.seedSets by rw [hv.eq]]; exact hpack)
  case cancel =>
    intro h hon hlt
    have hcount {v : State} (hv : s.asRead v o) : o.arg 40 14 < (v.seqCfg o.part).count := by rw [hv.seqCfg (hp12 hon)]; exact hlt
    refine ⟨fun h4 => ?_, fun h1 h3 => ?_⟩
    · obtain ⟨v, u, hv, hrun, hends⟩ := exec_ends (q := (0x52, .seqCancel c)) (f := BringIn.none) (by simp [fwRows]) h (F := fun v => v) (e := .good)
        (fun v hv hop => ⟨by
          simp only [State.perform, hop]
          exact State.performSeqCancel_left ((hv.partOn _).trans hon) (hcount hv) (by rw [hv.slotEnt (hp12 hon)]; exact h4), rfl⟩) (by decide)
      exact ⟨u, hrun, hends.completed, hv.sameMem.trans hends.sameMem⟩
    · refine exec_waits (q := (0x52, .seqCancel c)) (f := BringIn.none) (by simp [fwRows]) h hbring (by simp)
        (F := fun v => v.setSeq p ((v.seqMgr p).cancel (o.arg 40 14))) (fun v hv hop => ?_)
        (fun _ => (State.changes_setPart ..).after .refl) fun v u hv hk => ?_
      · simp only [State.perform, hop]
        exact State.performSeqCancel_held ((hv.partOn _).trans hon) (hcount hv) (by rw [hv.slotEnt (hp12 hon)]) h1 h3
      · rw [State.seqMgr, State.part, hk.same .parts]
        exact (congrArg (fun x : Part => o.arg 40 14 ∈ x.seq.cancels) (State.part_setPart_same ..)).mpr (SeqMgr.mem_cancel ..)
  case restore =>
    intro h hon hstat hstep src at_ hseals hsrc
    refine exec_waits (q := (0x37, .jobRestore c)) (f := BringIn.none) (by simp [fwRows]) h hbring (by simp)
      (F := fun v => { v.unsealAsked p j with restore := some (v.restoreAsked o) }) (fun v hv hop => ?_)
      (fun v => (State.changes_set_restore ..).after ((State.changes_unsealAsked ..).after .refl)) fun v u hv hk => ?_
    · simp only [State.perform, hop]
      exact State.performRestore_ready ((hv.partOn _).trans hon) (by rw [hv.job]; exact hstat) hstep (by rw [hv.restoreReads]; exact hsrc)
        (by rw [hv.seals, hv.layer_map, hv.job]; exact hseals)
    · exact ⟨(congrArg Job.stage (State.job_congr (hk.same .jobs) p j)).trans (v.unsealAsked_stage p j), v.restoreAsked o, hk.same .restore,
        rfl, rfl, rfl, rfl, rfl, rfl⟩
  case image =>
    intro f h l hstaged hlen
    by_cases hv : s.verify 1 l = 0
    · obtain ⟨u, hrun, hmem, hrest⟩ := exec_imageLoad_accepted h rfl hstaged hlen hv f
      exact ⟨u, hrun, hmem, fun _ => hrest, fun hne => absurd hv hne⟩
    · obtain ⟨u, hrun, hmem, hrest⟩ := exec_imageLoad_refused h hbring rfl hstaged hlen hv f
      exact ⟨u, hrun, hmem, fun he => absurd he hv, fun _ => hrest⟩

end

section
/-! Shadows that firmware writes, and the blocks that it arms for an apply (R52, R374). -/

-- The frame conditions are evaluated in the kernel: theorems elaborated in parallel would each hold a thread while they wait for it.
set_option Elab.async false

namespace Sys2Proof.Machine

variable {s t u v p : State} {c : FwCmd} {o : FwOut} {f : BringIn} {r x : Reg} {b : Blk} {α : Type}

/-! A walk through a list that makes a fact true of each entry, and keeps what it has made true. -/

theorem foldl_keeps {P : State → Prop} {f : State → α → State} {l : List α} (hf : ∀ x ∈ l, ∀ t, P t → P (f t x)) (h : P s) : P (l.foldl f s) := by
  induction l generalizing s with
  | nil => exact h
  | cons x l ih => exact ih (fun y hy => hf y (List.mem_cons_of_mem _ hy)) (hf x List.mem_cons_self s h)

theorem foldl_makes {P : α → State → Prop} {f : State → α → State} {l : List α} (hx : ∀ x ∈ l, ∀ t, P x (f t x))
    (hy : ∀ x ∈ l, ∀ y ∈ l, ∀ t, P x t → P x (f t y)) (s : State) : ∀ x ∈ l, P x (l.foldl f s) := by
  induction l generalizing s with
  | nil => exact fun _ h => absurd h List.not_mem_nil
  | cons y l ih =>
    intro x hm
    rw [List.foldl_cons]
    rcases List.mem_cons.1 hm with rfl | hm
    · exact foldl_keeps (fun z hz t => hy x List.mem_cons_self z (List.mem_cons_of_mem _ hz) t) (hx x List.mem_cons_self s)
    · exact ih (fun z hz => hx z (List.mem_cons_of_mem _ hz)) (fun z hz w hw => hy z (List.mem_cons_of_mem _ hz) w (List.mem_cons_of_mem _ hw)) _ x hm

/-! A shadow that firmware writes. -/

theorem State.rdS_fwShadow_same (s : State) (r : Reg) (v : Word) : (s.fwShadow r v).rdS r = r.fields.foldl (fun w f => shadowField w v f) (s.rdS r) := by
  unfold State.fwShadow
  split <;> exact State.rdS_wrS_same ..

theorem State.rdS_fwShadow_ne (s : State) (v : Word) (h : x.addr ≠ r.addr) : (s.fwShadow r v).rdS x = s.rdS x := by
  unfold State.fwShadow
  split <;> exact State.rdS_wrS_ne _ _ h

/-- What a write leaves in a shadow depends on the shadow before it. -/
theorem State.rdS_fwShadow_congr (h : t.rdS r = s.rdS r) (v : Word) : (t.fwShadow r v).rdS r = (s.fwShadow r v).rdS r := by
  rw [State.rdS_fwShadow_same, h, State.rdS_fwShadow_same]

theorem State.fwImage_eq (s : State) (o : FwOut) (byte n : Nat) (gs : List Nat) (r : Nat → Nat → Reg) : s.fwImage o byte n gs r
    = s.fwWords (gs.flatMap fun g => (List.range n).map fun k => (r g k, o.body (byte + 8 * k) 0 64)) := by
  simp only [State.fwImage, State.fwWords, List.foldl_flatMap, List.foldl_map]

theorem State.rdS_fwWords_ne {l : List (Reg × Nat)} (h : ∀ y ∈ l, x.addr ≠ y.1.addr) : (s.fwWords l).rdS x = s.rdS x :=
  foldl_keeps (P := fun t => t.rdS x = s.rdS x) (fun y hy t ht => (t.rdS_fwShadow_ne _ (h y hy)).trans ht) rfl

/-- Writes of different registers do not meet. -/
theorem State.rdS_fwWords {l : List (Reg × Nat)} (hl : (l.map fun x => x.1.addr).Nodup) {y : Reg × Nat} (hy : y ∈ l) :
    (s.fwWords l).rdS y.1 = (s.fwShadow y.1 (BitVec.ofNat 64 y.2)).rdS y.1 := by
  induction l generalizing s with
  | nil => exact absurd hy List.not_mem_nil
  | cons z l ih =>
    rw [List.map_cons, List.nodup_cons] at hl
    obtain ⟨hz, hl⟩ := hl
    show ((s.fwShadow z.1 (BitVec.ofNat 64 z.2)).fwWords l).rdS y.1 = _
    rcases List.mem_cons.1 hy with rfl | hy
    · exact State.rdS_fwWords_ne fun w hw he => hz (List.mem_map.2 ⟨w, hw, he.symm⟩)
    · rw [ih hl hy]
      exact State.rdS_fwShadow_congr (State.rdS_fwShadow_ne _ _ fun he => hz (List.mem_map.2 ⟨y, hy, he⟩)) _

/-! The blocks that firmware arms. -/

theorem dvd_regBase (a b c d : Nat) : 16 ∣ regBase a b c d := by
  unfold regBase
  omega

theorem dvd_coreBase (c : Nat) : 16 ∣ coreBase c := by
  unfold coreBase
  split <;> exact dvd_regBase ..

theorem dvd_armAddr (b : Blk) : 16 ∣ armAddr b := by
  cases b with
  | co c | vu c | mvp c | silo c => exact Nat.dvd_add (dvd_coreBase c) (by decide)
  | me e => exact Nat.dvd_add (Nat.dvd_add (dvd_coreBase _) (Nat.dvd_mul_right_of_dvd (by decide) _)) (by decide)
  | _ => exact Nat.dvd_add (dvd_regBase ..) (by decide)

theorem arm_addr_ne_apply_any (b b' : Blk) : (Reg.arm b).addr ≠ (Reg.apply b').addr := by
  have h := dvd_armAddr b
  have h' := dvd_armAddr b'
  show armAddr b ≠ armAddr b' + 8
  omega

theorem State.armed_congr (h : t.rd (.arm b) = s.rd (.arm b)) : t.armed b = s.armed b := by
  rw [State.armed, State.flag, State.fld, h, State.armed, State.flag, State.fld]

theorem State.armed_of_addr {b' : Blk} (h : (Reg.arm b).addr = (Reg.arm b').addr) (s : State) : s.armed b = s.armed b' := by
  rw [State.armed, State.flag, State.fld, State.rd, h, State.armed, State.flag, State.fld, State.rd]

theorem State.rd_unarm_ne (s : State) (h : x.addr ≠ (Reg.arm b).addr) : (s.unarm b).rd x = s.rd x :=
  (State.rd_congr (s := s.setFld (.arm b) F.armArm 0) rfl x).trans (State.rd_setFld_ne _ _ _ h)

/-- A block that is armed stays so as another is armed anew. -/
theorem State.armed_rearm (h : s.armed b = true) (b' : Blk) : ((s.unarm b').armBlk b' false).armed b = true := by
  by_cases he : (Reg.arm b).addr = (Reg.arm b').addr
  · rw [State.armed_of_addr he]
    exact State.armed_armBlk ..
  · rw [State.armed_congr ((State.rd_armBlk_ne _ _ he (arm_addr_ne_apply_any b b')).trans (State.rd_unarm_ne s he)), h]

theorem State.allArmed_fwArm (s : State) (bs : List Blk) : (s.fwArm bs).allArmed bs :=
  foldl_makes (P := fun b t => t.armed b = true) (fun b _ t => (t.unarm b).armed_armBlk b false) (fun _ _ b' _ _ h => State.armed_rearm h b') s

/-! A command that ends with an apply. -/

/-- The device u as a command of s waits for the apply of the blocks bs, its shadows those of v. -/
structure State.arms (s v u : State) (o : FwOut) (bs : List Blk) : Prop where
  waits : u.waitsFor o (.apply bs)
  armed : u.allArmed bs
  mem : s.sameMem u
  shadow : u.shadow = v.shadow
  jobs : u.jobs = v.jobs
  parts : u.parts = s.parts
  sec : u.sec = s.sec

/-- A command that arms its blocks; F is what its writes make of the device. -/
theorem exec_arms {q : Nat × Instr} (hq : q ∈ fwRows c f) (h : s.fwFirst q.1 c) (hbring : s.bring = none) {bs : List Blk}
    (hp : (s.readCmd c).op = q.1 → (s.fwSees c).perform (s.readCmd c) (findings q.1 f) = .wait (.apply bs) (v.fwArm bs))
    (hv : (s.fwSees c).changes [.shadow, .cores, .jobs, .beat] v) :
    ∃ u, exec q.2 s = .next u ∧ State.arms s v u (s.readCmd c) bs := by
  obtain ⟨hread, hrun, hop⟩ := exec_fwSees hq h
  have harm := State.changes_fwArm (s := v) bs
  have hset := State.changes_setWait (s := v.fwArm bs) (s.readCmd c) (.apply bs)
  have hfw : (v.fwArm bs).fw = [s.readCmd c] := (harm.same .fw).trans ((hv.same .fw).trans hread.fw)
  have hkeep : (v.fwArm bs).parts = s.parts ∧ (v.fwArm bs).sec = s.sec ∧ (v.fwArm bs).bring = none := by
    rw [harm.same .parts, hv.same .parts, harm.same .sec, hv.same .sec, harm.same .bring, hv.same .bring, hread.eq]
    exact ⟨rfl, rfl, hbring⟩
  obtain ⟨hparts, hsec, hnone⟩ := hkeep
  refine ⟨_, hrun.trans (congrArg _ ?_), State.waitsFor_setWait hfw _, fun b hb => ?_, ?_, (hset.same .shadow).trans (harm.same .shadow),
    (hset.same .jobs).trans (harm.same .jobs), (hset.same .parts).trans hparts, (hset.same .sec).trans hsec⟩
  · rw [State.performNow_wait (hp hop) hfw (by simp), State.bringOn_none ((hset.same .bring).trans hnone)]
  · rw [State.armed_congr (State.rd_congr (hset.same .regs) _)]
    exact v.allArmed_fwArm bs b hb
  · exact hread.sameMem.trans ((State.sameMem_of_changes hv).trans ((State.sameMem_of_changes harm).trans (State.sameMem_of_changes hset)))

theorem State.rdS_congr (h : t.shadow = s.shadow) (r : Reg) : t.rdS r = s.rdS r := by rw [State.rdS, h, State.rdS]

theorem State.asRead.shadow (h : s.asRead p o) : p.shadow = s.shadow := by rw [h.eq]

/-- A command that writes words to shadows and arms their blocks; what it writes beside them is apart from them. -/
theorem exec_armsWords {q : Nat × Instr} (hq : q ∈ fwRows c f) (h : s.fwFirst q.1 c) (hbring : s.bring = none) {bs : List Blk} {l : List (Reg × Nat)}
    (hp : (s.readCmd c).op = q.1 → (s.fwSees c).perform (s.readCmd c) (findings q.1 f) = .wait (.apply bs) (v.fwArm bs))
    (hv : (s.fwSees c).changes [.shadow, .cores, .beat] v) (hl : (l.map fun x => x.1.addr).Nodup) {k : List (Reg × Nat)} (hk : k ⊆ l)
    (hw : ∀ y ∈ k, v.rdS y.1 = ((s.fwSees c).fwWords l).rdS y.1) :
    ∃ u, exec q.2 s = .next u ∧ u.waitsFor (s.readCmd c) (.apply bs) ∧ u.allArmed bs ∧ (∀ y ∈ k, s.shadowed u y.1 y.2) ∧ s.sameMem u
      ∧ u.jobs = s.jobs ∧ u.parts = s.parts ∧ u.sec = s.sec ∧ u.shadow = v.shadow := by
  obtain ⟨u, hrun, harms⟩ := exec_arms hq h hbring hp (hv.after .refl)
  obtain ⟨hread, -⟩ := exec_fwSees hq h
  refine ⟨u, hrun, harms.waits, harms.armed, fun y hy => ?_, harms.mem, ?_, harms.parts, harms.sec, harms.shadow⟩
  · rw [State.shadowed, State.rdS_congr harms.shadow, hw y hy, State.rdS_fwWords hl (hk hy)]
    exact State.rdS_fwShadow_congr (State.rdS_congr hread.shadow _) _
  · rw [harms.jobs, hv.same .jobs, hread.eq]

/-- A command that writes words to shadows alone. -/
theorem exec_armsFwWords {q : Nat × Instr} (hq : q ∈ fwRows c f) (h : s.fwFirst q.1 c) (hbring : s.bring = none) {bs : List Blk} (l : List (Reg × Nat))
    (hp : (s.readCmd c).op = q.1 → (s.fwSees c).perform (s.readCmd c) (findings q.1 f) = .wait (.apply bs) (((s.fwSees c).fwWords l).fwArm bs))
    (hl : (l.map fun x => x.1.addr).Nodup) :
    ∃ u, exec q.2 s = .next u ∧ u.waitsFor (s.readCmd c) (.apply bs) ∧ u.allArmed bs ∧ (∀ y ∈ l, s.shadowed u y.1 y.2) ∧ s.sameMem u
      ∧ u.jobs = s.jobs ∧ u.parts = s.parts ∧ u.sec = s.sec ∧ u.shadow = ((s.fwSees c).fwWords l).shadow :=
  exec_armsWords hq h hbring hp (State.changes_fwWords ..) hl (List.Subset.refl _) fun _ _ => rfl

end Sys2Proof.Machine
end

section
/-! The commands that end with an apply (R52, R374). -/

-- The frame conditions are evaluated in the kernel: theorems elaborated in parallel would each hold a thread while they wait for it.
set_option Elab.async false

namespace Sys2Proof.Machine

variable {s t u v p : State} {c : FwCmd} {o : FwOut} {r x : Reg} {b : Blk}

/-! What starts and links read of the device is not in the mailbox. -/

section
variable (h : s.asRead p o)
include h

theorem State.asRead.granaries : p.granaries = s.granaries := by rw [State.granaries, h.shape, State.granaries]

theorem State.asRead.liveGates : p.liveGates = s.liveGates := by rw [State.liveGates, h.shape, State.liveGates]

theorem State.asRead.hatch {n : Nat} (hn : n < 1024) : p.hatch n = s.hatch n := State.hatch_keepsRegs h.regs h.shape hn

theorem State.asRead.rd_cluster {cl k : Nat} (hcl : cl < 288) (hr : r.addr = clBase cl + k) (hk : k < 0x4000000) : p.rd r = s.rd r :=
  h.regs r (offMailboxes_below (hr ▸ (cluster_below_mgt hcl hk).trans_le (Nat.le_add_right ..)))

theorem State.asRead.foreignTensor (o' : FwOut) {i : Nat} (hi : i < 32768) : p.foreignTensor o' i = s.foreignTensor o' i := by
  rw [State.foreignTensor, h.tt hi, State.foreignTensor]

theorem State.asRead.manifestHole (m : List Row) : p.manifestHole m = s.manifestHole m := by rw [h.eq]; rfl

theorem State.asRead.resumeBlks {q j : Nat} (hq : q < 12) : p.resumeBlks q j = s.resumeBlks q j := by
  rw [State.resumeBlks, h.clustersOf hq, State.resumeBlks]
  refine congrArg (fun l => l.map Blk.dma ++ _) (List.filter_congr fun cl hcl => any_congr fun ch hch => ?_)
  have hrd := h.rd_cluster (r := .dmaChcfg cl ch) (mem_clustersOf hcl).1 rfl (by have := List.mem_range.1 hch; omega)
  rw [State.fld_congr hrd, hrd, State.rdS_congr h.shadow]

theorem State.asRead.manifestImages (q : Nat) (fresh : Bool) (m : List Row) : p.manifestImages q fresh m = s.manifestImages q fresh m := by
  have hblk : ∀ b, p.imageBlk q fresh b = s.imageBlk q fresh b := fun b => by
    cases b <;> simp only [State.imageBlk, State.partOfCore, State.partOfCluster, h.partOfDie]
  simp only [State.manifestImages, hblk]

theorem State.asRead.startBlks {q : Nat} (hq : q < 12) (fresh : Bool) (m : List Row) : p.startBlks q fresh m = s.startBlks q fresh m := by
  simp only [State.startBlks, h.clustersOf hq, h.manifestImages]

theorem State.asRead.pageTensor (w : Word) : p.tt (pgTensor w) = s.tt (pgTensor w) := h.tt (show pgTensor w < 32768 from bits_lt ..)

theorem State.asRead.ownLoc (q row : Nat) : p.ownLoc q row = s.ownLoc q row := by
  have hpage : ∀ g, p.pageOf q g = s.pageOf q g := State.pageOf_congr (by rw [h.eq]) q
  have hwalk : p.walk = s.walk := by rw [h.eq]
  simp only [State.ownLoc, State.ownLocVia, State.translate, hpage, hwalk, h.pageTensor]

theorem State.asRead.lpRead (l : LpLoc) : p.lpRead l = s.lpRead l := by
  have hlp : ∀ k, p.lp k = s.lp k := State.lp_congr (by rw [h.eq])
  have hepoch : p.epoch = s.epoch := by rw [h.eq]
  have hun : p.unwritten l = s.unwritten l := by rw [State.unwritten, h.pageTensor, hepoch, State.unwritten]
  rw [State.lpRead, hun, hlp, State.lpRead]

theorem State.asRead.readManifest (q j addr : Nat) : p.readManifest q j addr = s.readManifest q j addr := by
  simp only [State.readManifest, h.ownLoc, h.lpRead]

end

/-! Images of table entries. -/

theorem nodup_image {gs : List Nat} (hgs : gs.Nodup) {n : Nat} {r : Nat → Nat → Reg} (w : Nat → Nat → Nat)
    (hr : ∀ g ∈ gs, ∀ g' ∈ gs, ∀ k < n, ∀ k' < n, (r g k).addr = (r g' k').addr → g = g' ∧ k = k') :
    ((gs.flatMap fun g => (List.range n).map fun k => (r g k, w g k)).map fun x => x.1.addr).Nodup := by
  rw [List.map_flatMap, List.nodup_flatMap]
  refine ⟨fun g hg => ?_, hgs.imp_of_mem fun hg hg' hne => ?_⟩
  · rw [List.map_map]
    exact List.Nodup.map_on (fun k hk k' hk' he => (hr g hg g hg k (List.mem_range.1 hk) k' (List.mem_range.1 hk') he).2) List.nodup_range
  · rw [Function.onFun, List.map_map, List.map_map]
    intro a ha ha'
    obtain ⟨k, hk, rfl⟩ := List.mem_map.1 ha
    obtain ⟨k', hk', he⟩ := List.mem_map.1 ha'
    exact hne (hr _ hg _ hg' k (List.mem_range.1 hk) k' (List.mem_range.1 hk') he.symm).1

theorem granary_addr_inj {g g' a a' : Nat} (ha : a < 0x4000000) (ha' : a' < 0x4000000) (h : grnBase g + a = grnBase g' + a') : g = g' ∧ a = a' := by
  unfold grnBase regBase at h
  omega

theorem gate_addr_inj {g g' a a' : Nat} (ha : a < 0x4000000) (ha' : a' < 0x4000000) (h : gateBase g + a = gateBase g' + a') : g = g' ∧ a = a' := by
  unfold gateBase regBase at h
  omega

theorem ttEntry_addr (g n k : Nat) : (Reg.ttEntry g n k).addr = grnBase g + (0x100000 + 64 * n + 8 * k) := by
  show grnBase g + 0x100000 + 64 * n + 8 * k = _
  omega

theorem ttEntry_addr_inj {g g' t k k' : Nat} (ht : t < 32768) (hk : k < 5) (hk' : k' < 5)
    (h : (Reg.ttEntry g t k).addr = (Reg.ttEntry g' t k').addr) : g = g' ∧ k = k' := by
  rw [ttEntry_addr, ttEntry_addr] at h
  obtain ⟨hg, ha⟩ := granary_addr_inj (by omega) (by omega) h
  exact ⟨hg, by omega⟩

theorem layer_addr (g n k : Nat) : (Reg.layer g n k).addr = grnBase g + (0x400000 + 64 * n + 8 * k) := by
  show grnBase g + 0x400000 + 64 * n + 8 * k = _
  omega

theorem layer_addr_inj {g g' n k k' : Nat} (hn : n < 4096) (hk : k < 5) (hk' : k' < 5)
    (h : (Reg.layer g n k).addr = (Reg.layer g' n k').addr) : g = g' ∧ k = k' := by
  rw [layer_addr, layer_addr] at h
  obtain ⟨hg, ha⟩ := granary_addr_inj (by omega) (by omega) h
  exact ⟨hg, by omega⟩

theorem hatchEntry_addr (g n k : Nat) : (Reg.hatchEntry g n k).addr = gateBase g + (0x80000 + 64 * n + 8 * k) := by
  show gateBase g + 0x80000 + 64 * n + 8 * k = _
  omega

theorem hatchEntry_addr_inj {g g' n k k' : Nat} (hn : n < 1024) (hk : k < 5) (hk' : k' < 5)
    (h : (Reg.hatchEntry g n k).addr = (Reg.hatchEntry g' n k').addr) : g = g' ∧ k = k' := by
  rw [hatchEntry_addr, hatchEntry_addr] at h
  obtain ⟨hg, ha⟩ := gate_addr_inj (by omega) (by omega) h
  exact ⟨hg, by omega⟩

/-! What the commands write. -/

/-- The writes of BEAT_CONFIG. -/
def beatWords (o : FwOut) : List (Reg × Nat) :=
  [(.beatSync, packBits [(2, o.body 16 0 2), (2, 0), (12, o.body 16 32 12)]), (.beatLen, o.body 16 8 5), (.beatCtrl, packBits [(8, 0), (4, o.body 16 16 4)])]

/-- What BEAT_CONFIG writes: with a number to set, that too. -/
def State.beatWritten (s : State) (o : FwOut) : State :=
  let s := s.fwWords (beatWords o)
  if o.body 16 63 1 = 1 then
    let s := s.fwWords [(.beatNumberSet, o.body 24 0 64)]
    { s with beat := { s.beat with setPending := true } }
  else s

theorem State.performBeat_eq (s : State) (o : FwOut) : s.performBeat o = .wait (.apply [.beat]) ((s.beatWritten o).fwArm [.beat]) := rfl

theorem State.changes_beatWritten (s : State) (o : FwOut) : s.changes [.shadow, .cores, .beat] (s.beatWritten o) := by
  unfold State.beatWritten
  extract_lets v w
  have hv : s.changes [.shadow, .cores, .beat] v := (State.changes_fwWords ..).after .refl
  split
  · exact (State.changes_set_beat ..).after ((State.changes_fwWords ..).after hv)
  · exact hv

theorem State.rdS_beatWritten {y : Reg × Nat} (hy : y ∈ beatWords o) : (s.beatWritten o).rdS y.1 = (s.fwWords (beatWords o)).rdS y.1 := by
  have hne : y.1.addr ≠ (Reg.beatNumberSet).addr := by
    simp only [beatWords, List.mem_cons, List.not_mem_nil, or_false] at hy
    rcases hy with rfl | rfl | rfl <;> simp only <;> decide
  unfold State.beatWritten
  extract_lets v w
  have hw : w.rdS y.1 = v.rdS y.1 := State.rdS_fwShadow_ne v _ hne
  clear_value w
  split
  · exact hw
  · rfl

section
variable (hon : s.partOn o.part = true) (hstat : (s.job o.part o.job).stat = .running ∨ (s.job o.part o.job).stat = .stopped)
include hon hstat

theorem State.performTensor_ok (ht : o.body 16 0 16 < 32768) (hown : s.foreignTensor o (o.body 16 0 16) = false)
    (hseals : ∀ q ∈ s.seals, q.tensor ≠ o.body 16 0 16) (himage : imageBad o 64 (.ttEntry 0 (o.body 16 0 16)) = false)
    (hpart : o.body 64 1 4 = o.part) (hjob : o.body 64 5 4 = o.job) :
    s.performTensor o = (s.fwImage o 64 5 s.granaries fun g k => .ttEntry g (o.body 16 0 16) k).fwTables (s.granaries.map Blk.tt) := by
  have hidle : (s.seals.any fun w => w.tensor == o.body 16 0 16) = false := List.any_eq_false.2 fun q hq => by simp [hseals q hq]
  unfold State.performTensor
  extract_lets t
  rw [if_neg (by rw [show s.foreignTensor o t = false from hown]; exact Bool.false_ne_true), State.jobCheck_live hon hstat, hidle,
    if_neg Bool.false_ne_true, if_neg (by simp [t, ht, himage, hpart, hjob])]

theorem State.performLayer_ok (hn : o.body 16 0 16 < 4096) (hown : (s.layer (o.body 16 0 16)).valid = true →
      (s.layer (o.body 16 0 16)).job = o.job ∧ (s.tt (s.layer (o.body 16 0 16)).w).part = o.part)
    (himage : imageBad o 64 (.layer 0 (o.body 16 0 16)) = false) (hjob : o.body 64 1 4 = o.job)
    (hstate : o.body 18 0 1 = 1 → (s.job o.part o.job).stat = .stopped
      ∧ ∀ i, i < 4 → stray (BitVec.ofNat 64 (o.body (128 + 8 * i) 0 64)) ((winStateFields i).map fun f => (f.lo, f.len)) = false) :
    s.performLayer o = (s.fwImage o 64 5 s.granaries fun g k => .layer g (o.body 16 0 16) k).fwTables (s.granaries.map Blk.win) := by
  unfold State.performLayer
  extract_lets n old st
  have hdenied : ¬ (old.valid && (old.job != o.job || (s.tt old.w).part != o.part)) = true := fun h => by
    obtain ⟨hv, hne⟩ := Bool.and_eq_true_iff.1 h
    obtain ⟨hj, hp⟩ := hown hv
    simp [old, n, hj, hp] at hne
  have hst : (o.body 18 0 1 == 1 && (st || decide ((s.job o.part o.job).stat ≠ .stopped))) = false := by
    by_cases h1 : o.body 18 0 1 = 1
    · obtain ⟨hstop, hstray⟩ := hstate h1
      have hno : st = false := List.any_eq_false.2 fun i hi => by simp [hstray i (List.mem_range.1 hi)]
      simp [hno, hstop]
    · simp [h1]
  rw [if_neg hdenied, State.jobCheck_live hon hstat, if_neg (by rw [hst]; simp [n, hn, himage, hjob])]

end

theorem State.performHatchOpen_ok (hn : o.body 16 0 16 < 1024) (himage : imageBad o 64 (.hatchEntry 0 (o.body 16 0 16)) = false)
    (hpart : o.body 64 8 4 = o.part) (hst : (s.hatch (o.body 16 0 16)).state = 0) :
    s.performHatchOpen o = ((s.fwImage o 64 5 s.liveGates fun g k => .hatchEntry g (o.body 16 0 16) k).hatchShadow (o.body 16 0 16) 1).fwTables
      (s.liveGates.map Blk.hatch) := by
  unfold State.performHatchOpen
  extract_lets n
  rw [if_neg (by simp [n, hn, himage, hpart]), if_neg (not_not.2 hst)]

theorem State.performHatchClose_open (h : (s.hatch (o.arg 32 10)).state = 1) :
    s.performHatchClose o = (s.hatchShadow (o.arg 32 10) 2).fwTables (s.liveGates.map Blk.hatch) := by
  unfold State.performHatchClose
  extract_lets n
  rw [show (s.hatch n).state = 1 from h]
  rfl

theorem State.performHatchClose_closing (h : (s.hatch (o.arg 32 10)).state = 2) : s.performHatchClose o = .wait (.hatch (o.arg 32 10)) s := by
  unfold State.performHatchClose
  extract_lets n
  rw [show (s.hatch n).state = 2 from h]
  rfl

theorem State.performHatchClose_closed (h : (s.hatch (o.arg 32 10)).state = 0) : s.performHatchClose o = .bad s KS.hatchClosed := by
  unfold State.performHatchClose
  extract_lets n
  rw [show (s.hatch n).state = 0 from h]
  rfl

theorem nodup_granaries (s : State) : s.granaries.Nodup := List.nodup_range.filter _

theorem nodup_liveGates (s : State) : s.liveGates.Nodup := List.nodup_range.filter _

theorem lt_of_mem_liveGates {g : Nat} (h : g ∈ s.liveGates) : g < 4 := List.mem_range.1 (List.mem_of_mem_filter h)

/-- The state of a hatch, in every replica's shadow. -/
theorem State.rdS_hatchShadow {n st : Nat} (hn : n < 1024) (hst : st < 4) {g : Nat} (hg : g ∈ s.liveGates) :
    bits ((s.hatchShadow n st).rdS (.hatchEntry g n 0)) 0 2 = st := by
  have hset : ∀ t : State, ∀ g, bits ((t.wrS (.hatchEntry g n 0) (setBits (t.rdS (.hatchEntry g n 0)) 0 2 st)).rdS (.hatchEntry g n 0)) 0 2 = st := fun t g => by
    rw [State.rdS_wrS_same, bits_setBits_same _ _ _ _ (by decide)]
    exact Nat.mod_eq_of_lt hst
  exact foldl_makes (P := fun g t => bits (t.rdS (.hatchEntry g n 0)) 0 2 = st) (fun g _ t => hset t g) (fun g _ g' _ t ht => by
    by_cases he : g = g'
    · exact he ▸ hset t g
    · rw [State.rdS_wrS_ne _ _ fun ha => he (hatchEntry_addr_inj hn (by decide) (by decide) ha).1]
      exact ht) s g hg

/-- The other words stand. -/
theorem State.rdS_hatchShadow_ne {n st g k : Nat} (hn : n < 1024) (hk : k < 5) (h0 : k ≠ 0) :
    (s.hatchShadow n st).rdS (.hatchEntry g n k) = s.rdS (.hatchEntry g n k) :=
  foldl_keeps (P := fun t => t.rdS (.hatchEntry g n k) = s.rdS (.hatchEntry g n k)) (fun g' _ t ht =>
    (State.rdS_wrS_ne _ _ fun ha => h0 (hatchEntry_addr_inj hn hk (by decide) ha).2).trans ht) rfl

/-! Blocks that are armed together. -/

theorem State.armAll_passes {bs : List Blk} (h : s.firstRule bs = none) : s.armAll bs = .wait (.apply bs) (s.fwArm bs) := by
  rw [State.armAll, h]

theorem State.armAll_fails {bs : List Blk} (h : s.firstRule bs ≠ none) : ∃ e : FwEnd, e.status = KS.badArg ∧ s.armAll bs = .done e (s.fwRefused bs) := by
  obtain ⟨⟨b, k⟩, hb⟩ := Option.ne_none_iff_exists'.1 h
  exact ⟨⟨KS.badArg, 0, 0, blockCode b, k⟩, rfl, by rw [State.armAll, hb]⟩

/-- A command whose blocks fail a rule ends with KS_BAD_ARG. -/
theorem exec_armAll_fails {q : Nat × Instr} {f : BringIn} (hq : q ∈ fwRows c f) (h : s.fwFirst q.1 c) {bs : List Blk}
    (hp : (s.readCmd c).op = q.1 → (s.fwSees c).perform (s.readCmd c) (findings q.1 f) = v.armAll bs) (hrule : v.firstRule bs ≠ none)
    (hv : (s.fwSees c).changes [.shadow, .cores, .jobs, .beat] v) : ∃ u, exec q.2 s = .next u ∧ u.completed c KS.badArg ∧ s.sameMem u := by
  obtain ⟨e, hst, he⟩ := State.armAll_fails hrule
  have hk := State.changes_fwRefused (s := v) bs
  obtain ⟨u, hrun, hends⟩ := exec_endsAs hq h (fun hop => (hp hop).trans he) ((hk.same .fw).trans (hv.same .fw)) (by rw [hst]; decide)
  obtain ⟨hread, -⟩ := exec_fwSees hq h
  refine ⟨u, hrun, hst ▸ hends.completed, ?_⟩
  exact hread.sameMem.trans ((State.sameMem_of_changes hv).trans ((State.sameMem_of_changes hk).trans hends.sameMem))

/-- A field with a shadow holds, of a word that firmware writes, its bits. -/
theorem State.fldS_fwShadow {f : Fld} (hf : f ∈ r.fields) (ha : f.acc = .rws) (s : State) (w : Word) : (s.fwShadow r w).fldS r f = bits w f.lo f.len := by
  rw [State.fldS, State.rdS_fwShadow_same]
  exact bits_foldl_shadowField r.fields_pairwise_apart hf ha (Reg.fields_within hf) _ w

theorem State.fldS_fwShadow_ne {f : Fld} (h : x.addr ≠ r.addr) (s : State) (w : Word) : (s.fwShadow r w).fldS x f = s.fldS x f := by
  rw [State.fldS, State.rdS_fwShadow_ne _ _ h, State.fldS]

/-! Links. -/

theorem gateCfg_ne_of_offset {g a : Nat} {r : Reg} {q : Nat} (hr : r.addr = gateBase q + a) (ha : a < 0x4000000) (h0 : a ≠ 0) :
    (Reg.gateCfg g).addr ≠ r.addr := fun he =>
  h0 (gate_addr_inj (a := 0) (by decide) ha (he.trans hr)).2.symm

theorem State.fldS_linkShadow (s : State) (o : FwOut) {g : Nat} (hg : g ∈ s.liveGates) :
    (s.linkShadow o).fldS (.gateCfg g) F.gateCfgFabricId = o.body 16 0 16 := by
  have hset : ∀ t : State, ∀ g, (t.fwShadow (.gateCfg g) (setBits (t.rdS (.gateCfg g)) 0 16 (o.body 16 0 16))).fldS (.gateCfg g) F.gateCfgFabricId
      = o.body 16 0 16 := fun t g => by
    rw [State.fldS_fwShadow List.mem_cons_self rfl]
    exact (bits_setBits_same _ _ _ _ (by decide)).trans (Nat.mod_eq_of_lt (bits_lt ..))
  unfold State.linkShadow
  extract_lets at_ v
  have hv : v.fldS (.gateCfg g) F.gateCfgFabricId = o.body 16 0 16 :=
    foldl_makes (P := fun g t => t.fldS (.gateCfg g) F.gateCfgFabricId = o.body 16 0 16) (fun g _ t => hset t g) (fun g _ g' _ t ht => by
      by_cases he : g = g'
      · exact he ▸ hset t g
      · rw [State.fldS_fwShadow_ne (x := .gateCfg g) (r := .gateCfg g') fun ha => he (gate_addr_inj (g := g) (g' := g') (a := 0) (a' := 0) (by decide) (by decide) ha).1]
        exact ht) s g hg
  refine foldl_keeps (P := fun t => t.fldS (.gateCfg g) F.gateCfgFabricId = o.body 16 0 16) (fun i _ t ht => ?_) hv
  refine foldl_keeps (P := fun t => t.fldS (.gateCfg g) F.gateCfgFabricId = o.body 16 0 16) (fun k hk t ht => ?_) ?_
  · rw [State.fldS_fwShadow_ne (gateCfg_ne_of_offset rfl (by have := List.mem_range.1 hk; omega) (by omega))]
    exact ht
  · rw [State.fldS_fwShadow_ne (gateCfg_ne_of_offset rfl (by omega) (by omega))]
    exact ht

theorem body_of_bitAt {n : Nat} (h : bitAt (BitVec.ofNat 64 (o.body n 0 64)) 0 = true) : o.body n 0 1 = 1 := by
  have hbit : ∀ len, 0 < len → (o.body n 0 len).testBit 0 = o.blk.getLsbD (8 * n) := fun len hlen => by
    rw [FwOut.body, testBit_bits]
    simp [hlen]
  have h1 : (o.body n 0 1).testBit 0 = true := by
    rw [hbit 1 (by decide), ← hbit 64 (by decide)]
    rw [bitAt, BitVec.getLsbD_ofNat] at h
    exact (Bool.and_eq_true_iff.1 h).2
  have hlt : o.body n 0 1 < 2 ^ 1 := bits_lt ..
  rw [Nat.testBit_zero, decide_eq_true_eq] at h1
  omega

theorem State.performLink_ok (hmask : o.body 18 12 4 = 0) (hlen : 32 + 72 * o.ports.length ≤ o.cmd.len)
    (hstray : ∀ i, i < o.ports.length → stray (BitVec.ofNat 64 (o.body (32 + 72 * i) 0 64)) [(0, 3), (16, 16)] = false)
    (hgate : ∀ i, i < o.ports.length → o.body (32 + 72 * i) 0 1 = 1 → o.ports.getD i 0 / 3 ∉ s.shape.deadGate) :
    s.performLink o = (s.linkShadow o).armAll (s.liveGates.map Blk.gate) := by
  unfold State.performLink
  extract_lets ps at_ w
  rw [if_neg, if_neg]
  · intro h
    obtain ⟨i, hi, hd⟩ := List.any_eq_true.1 h
    obtain ⟨hbit, hdead⟩ := Bool.and_eq_true_iff.1 hd
    refine hgate i (List.mem_range.1 hi) ?_ (List.contains_iff_mem.1 hdead)
    exact body_of_bitAt hbit
  · rintro (h | h | h)
    · exact h hmask
    · exact absurd hlen (Nat.not_le.2 h)
    · obtain ⟨i, hi, hs⟩ := List.any_eq_true.1 h
      rw [show w i = BitVec.ofNat 64 (o.body (32 + 72 * i) 0 64) from rfl, hstray i (List.mem_range.1 hi)] at hs
      exact absurd hs Bool.false_ne_true

/-! Starts. -/

theorem clReg_addr_inj {cl cl' a a' : Nat} (ha : a < 0x4000000) (ha' : a' < 0x4000000)
    (h : clBase cl + a = clBase cl' + a') : cl = cl' ∧ a = a' := by
  unfold clBase regBase at h
  omega

/-- Every cluster of the partition has the job's RUN. -/
theorem State.fldS_dspShadow_run (s : State) (q : Nat) {j : Nat} (hj : j < 16) {cl : Nat} (hcl : cl ∈ s.clustersOf q) :
    (s.dspShadow q j fun v => setBits v 0 1 1).fldS (.dspJob cl j) F.dspJobRun = 1 := by
  have hset : ∀ t : State, ∀ cl, (t.fwShadow (.dspJob cl j) (setBits (t.rdS (.dspJob cl j)) 0 1 1)).fldS (.dspJob cl j) F.dspJobRun = 1 := fun t cl => by
    rw [State.fldS_fwShadow List.mem_cons_self rfl]
    exact bits_setBits_same _ _ _ _ (by decide)
  refine foldl_makes (P := fun cl t => t.fldS (.dspJob cl j) F.dspJobRun = 1) (fun cl _ t => hset t cl) (fun x _ y _ t ht => ?_) s cl hcl
  by_cases he : x = y
  · exact he ▸ hset t x
  · rw [State.fldS_fwShadow_ne (x := .dspJob x j) (r := .dspJob y j) fun ha => he
      (clReg_addr_inj (a := 0x400 + 0x20 * j) (a' := 0x400 + 0x20 * j) (by omega) (by omega) ha).1]
    exact ht

theorem State.performResume_ok (hon : s.partOn o.part = true) (hstat : (s.job o.part o.job).stat = .stopped)
    (hhole : s.manifestHole (s.job o.part o.job).manifest = false) :
    s.performResume o = (s.dspShadow o.part o.job fun w => setBits w 0 1 1).armAll (s.resumeBlks o.part o.job) := by
  unfold State.performResume
  extract_lets p j b
  rw [State.jobCheck_live hon (.inr hstat), if_neg]
  rintro (h | h)
  · exact h hstat
  · exact absurd (hhole.symm.trans h) Bool.false_ne_true

section
variable (hon : s.partOn o.part = true) (hstat : (s.job o.part o.job).stat = .free ∨ (s.job o.part o.job).stat = .stopped)
include hon hstat

theorem State.performStart_refused {k : Nat} (hk : (s.readManifest o.part o.job (o.body 16 0 45) = .foreign ∧ k = KS.denied)
    ∨ (s.readManifest o.part o.job (o.body 16 0 45) = .none ∧ k = KS.signature)
    ∨ (s.readManifest o.part o.job (o.body 16 0 45) = .unreadable ∧ k = KS.badArg)) : s.performStart o = .bad s k := by
  unfold State.performStart
  extract_lets p j b
  rw [if_neg (by simp [p, hon])]
  rcases hk with ⟨hm, rfl⟩ | ⟨hm, rfl⟩ | ⟨hm, rfl⟩ <;> rcases hstat with hb | hb <;> rw [show b.stat = _ from hb, hm]

/-- A manifest that is there goes by the partition's rollback, the holes it names and the quotas. -/
theorem State.performStart_rows {m : List Row} (hm : s.readManifest o.part o.job (o.body 16 0 45) = .rows m) : s.performStart o =
    (if (s.part o.part).rolling then .bad s KS.busy
    else if s.manifestHole m || (!decide ((s.job o.part o.job).stat = .free)
        && !(s.clustersOf o.part).all fun cl => (s.rd (.clNquota cl o.job)).toNat == o.nearQuota && (s.rd (.clLquota cl o.job)).toNat == o.loftQuota)
      then .bad s KS.badArg
    else (s.startShadow o (decide ((s.job o.part o.job).stat = .free)) m).armAll (s.startBlks o.part (decide ((s.job o.part o.job).stat = .free)) m)) := by
  unfold State.performStart
  extract_lets p j b fresh
  have hf : fresh = decide ((s.job o.part o.job).stat = .free) := rfl
  rw [← hf, if_neg (by simp [p, hon])]
  clear_value fresh
  rcases hstat with hb | hb <;> rw [show b.stat = _ from hb, hm]

end

/-- A start keeps its manifest, and writes shadows beside that. -/
theorem State.changes_startShadow_manifest (s : State) (o : FwOut) (fresh : Bool) (m : List Row) :
    (s.setJob o.part o.job { s.job o.part o.job with manifestNext := m }).changes [.shadow, .cores, .beat] (s.startShadow o fresh m) := by
  unfold State.startShadow
  extract_lets _ p j imgs cls _ w v frozen
  have hv : w.changes [.shadow, .cores, .beat] v := by
    unfold v
    split
    · exact State.changes_foldl .refl fun _ _ ht => (State.changes_fwWords ..).after ht
    · exact .refl
  exact State.changes_foldl ((State.changes_dspShadow ..).after hv) fun _ _ ht => (State.changes_fwShadow ..).after ht

theorem State.job_startShadow (s : State) (o : FwOut) (fresh : Bool) (m : List Row) :
    (s.startShadow o fresh m).job o.part o.job = { s.job o.part o.job with manifestNext := m } :=
  (State.job_congr ((s.changes_startShadow_manifest o fresh m).same .jobs) ..).trans (State.job_setJob_same ..)

/-! SEQ_CONFIG (R304). -/

/-- The registers that SEQ_CONFIG writes. -/
def seqRegs (p : Nat) : List Reg := [Reg.seqShare p, .seqPool p, .seqSet p, .seqStep p, .seqRows p]

/-- The registers that SEQ_CONFIG writes, with their words. -/
def seqWords (o : FwOut) : List (Reg × Nat) := (List.range 5).map fun i => ((seqRegs o.part).getD i .beatCtrl, o.body (16 + 8 * i) 0 64)

theorem State.performSeqConfig_ok (hon : s.partOn o.part = true) (hclear : ∀ i, i < 5 →
      stray (BitVec.ofNat 64 (o.body (16 + 8 * i) 0 64)) (((seqRegs o.part).getD i .beatCtrl).fields.map fun f => (f.lo, f.len)) = false) :
    s.performSeqConfig o = .wait (.apply [.seq]) ((s.fwWords (seqWords o)).fwArm [.seq]) := by
  unfold State.performSeqConfig
  extract_lets p w rs clear v
  have hall : clear = true := List.all_eq_true.2 fun i hi => by
    rw [Bool.not_eq_true']
    exact hclear i (List.mem_range.1 hi)
  rw [if_neg (by simp [p, hon, hall])]
  rfl

theorem nodup_seqWords (o : FwOut) : ((seqWords o).map fun x => x.1.addr).Nodup := by
  have haddr : ((seqWords o).map fun x => x.1.addr) = [0, 8, 16, 24, 32].map fun k => mgtBase + (0x3000 + k + 0x40 * o.part) := rfl
  rw [haddr]
  exact List.Nodup.map (fun a b h => by omega) (by decide)

end Sys2Proof.Machine

open Sys2Proof Sys2Proof.Machine

/-- Settles O58: firmware writes shadows of different registers and arms blocks, so each shadow is its own write's; nothing else changes. -/
theorem firmwareArmsApplies : Obligations.FirmwareArmsApplies := by
  unfold Obligations.FirmwareArmsApplies
  intro c s hbring o p j k arms image named live hs
  have harms {i : Instr} {bs : List Blk} {l : List (Reg × Nat)} {w : SMap Word} (h : ∃ u, exec i s = .next u ∧ u.waitsFor o (.apply bs) ∧ u.allArmed bs
      ∧ (∀ q ∈ l, s.shadowed u q.1 q.2) ∧ s.sameMem u ∧ u.jobs = s.jobs ∧ u.parts = s.parts ∧ u.sec = s.sec ∧ u.shadow = w) : arms i bs l := by
    obtain ⟨u, hrun, hw, ha, hl, hm, hj, hp, hsec, -⟩ := h
    exact ⟨u, hrun, hw, ha, hl, hm, hj, hp, hsec⟩
  refine ⟨?beat, ?limit, ?weight, ?create, ?tensor, ?layer, ?openHatch, ?closeHatch, ?seq, ?link, ?resume, ?start⟩
  case beat =>
    exact fun h => harms (exec_armsWords (q := (0x05, .beatConfig c)) (f := BringIn.none) (by simp [fwRows]) h hbring
      (fun hop => by simp only [State.perform, hop]; exact State.performBeat_eq ..) (State.changes_beatWritten ..) (l := beatWords o)
      (by simp only [beatWords, List.map_cons, List.map_nil]; decide) (by simp [beatWords]) fun y hy => State.rdS_beatWritten (by simp [beatWords] at hy ⊢; tauto))
  case limit =>
    exact fun h => harms (exec_armsFwWords (q := (0x70, .powerLimit c)) (f := BringIn.none) (by simp [fwRows]) h hbring
      [(.pwrLimit, o.arg 32 15), (.pwrCfg, o.arg 48 4)] (fun hop => by simp only [State.perform, hop]; rfl)
      (by simp only [List.map_cons, List.map_nil]; decide))
  case weight =>
    exact fun h hp => harms (exec_armsFwWords (q := (0x71, .powerWeight c)) (f := BringIn.none) (by simp [fwRows]) h hbring
      [(.pwrWeight p, o.arg 40 8)] (fun hop => by simp only [State.perform, hop, State.performWeight]; rw [if_neg (Nat.not_le.2 hp)])
      (List.nodup_singleton _))
  case create =>
    intro h hp howner hoff
    obtain ⟨hread, -⟩ := exec_fwSees (q := (0x20, .partitionCreate c)) (f := BringIn.none) (by simp [fwRows]) h
    refine harms (exec_armsFwWords (q := (0x20, .partitionCreate c)) (f := BringIn.none) (by simp [fwRows]) h hbring [(.mgtPart p, _)]
      (fun hop => ?_) (List.nodup_singleton _))
    have hoff' : (s.fwSees c).partEn (s.readCmd c).part = false := (State.partEn_keepsRegs hread.regs hp).trans hoff
    simp only [State.perform, hop]
    unfold State.performCreate
    extract_lets q w
    rw [if_neg (by rintro (h | h | h); exacts [absurd hp (Nat.not_lt.2 h), howner h, absurd (hoff'.symm.trans h) Bool.false_ne_true])]
  case tensor =>
    intro h hl t ht hown hseals himage hpart hjob
    obtain ⟨hread, -⟩ := exec_fwSees (q := (0x30, .tensorRegister c)) (f := BringIn.none) (by simp [fwRows]) h
    refine harms (exec_armsFwWords (q := (0x30, .tensorRegister c)) (f := BringIn.none) (by simp [fwRows]) h hbring _ (fun hop => ?_)
      (nodup_image (nodup_granaries s) _ fun g _ g' _ k hk k' hk' => ttEntry_addr_inj ht hk hk'))
    simp only [State.perform, hop]
    rw [State.performTensor_ok ((hread.partOn _).trans hl.1) (by rw [hread.job]; exact hl.2) ht (by rw [hread.foreignTensor _ ht]; exact hown)
      (by rw [hread.seals]; exact hseals) himage hpart hjob, hread.granaries, State.fwImage_eq]
    rfl
  case layer =>
    intro h hl n hn hown himage hjob hstate
    obtain ⟨hread, -⟩ := exec_fwSees (q := (0x36, .layerRegister c)) (f := BringIn.none) (by simp [fwRows]) h
    refine harms (exec_armsFwWords (q := (0x36, .layerRegister c)) (f := BringIn.none) (by simp [fwRows]) h hbring _ (fun hop => ?_)
      (nodup_image (nodup_granaries s) _ fun g _ g' _ k hk k' hk' => layer_addr_inj hn hk hk'))
    simp only [State.perform, hop]
    rw [State.performLayer_ok ((hread.partOn _).trans hl.1) (by rw [hread.job]; exact hl.2) hn
      (by rw [hread.layer hn, hread.tt (bits_lt ..)]; exact hown) himage hjob (by rw [hread.job]; exact hstate), hread.granaries, State.fwImage_eq]
    rfl
  case openHatch =>
    intro h n hn himage hpart hst
    have hread := (exec_fwSees (q := (0x61, .hatchOpen c)) (f := BringIn.none) (by simp [fwRows]) h).1
    obtain ⟨v, hv⟩ : ∃ v, v = ((s.fwSees c).fwImage o 64 5 s.liveGates fun g k => .hatchEntry g n k) := ⟨_, rfl⟩
    have hgates : v.liveGates = s.liveGates := by
      rw [State.liveGates, hv, (State.changes_fwImage ..).same .shape, hread.shape, State.liveGates]
    obtain ⟨u, hrun, hrest⟩ := exec_armsWords (q := (0x61, .hatchOpen c)) (f := BringIn.none) (v := v.hatchShadow n 1)
      (l := s.liveGates.flatMap fun g => (List.range 5).map fun k => (.hatchEntry g n k, o.body (64 + 8 * k) 0 64))
      (k := s.liveGates.flatMap fun g => image (fun i => .hatchEntry g n (i + 1)) 72 4) (by simp [fwRows]) h hbring
      (fun hop => by
        simp only [State.perform, hop]
        rw [State.performHatchOpen_ok hn himage hpart (by rw [hread.hatch hn]; exact hst), hread.liveGates, hv]
        rfl)
      ((State.changes_hatchShadow ..).after (hv ▸ (State.changes_fwImage ..)))
      (nodup_image (nodup_liveGates s) _ fun g _ g' _ k hk k' hk' => hatchEntry_addr_inj hn hk hk')
      (fun y hy => by
        obtain ⟨g, hg, hy⟩ := List.mem_flatMap.1 hy
        obtain ⟨i, hi, rfl⟩ := List.mem_map.1 hy
        have hi4 := List.mem_range.1 hi
        refine List.mem_flatMap.2 ⟨g, hg, List.mem_map.2 ⟨i + 1, List.mem_range.2 (by omega), ?_⟩⟩
        show (Reg.hatchEntry g n (i + 1), o.body (64 + 8 * (i + 1)) 0 64) = (Reg.hatchEntry g n (i + 1), o.body (72 + 8 * i) 0 64)
        rw [show 64 + 8 * (i + 1) = 72 + 8 * i by omega])
      (fun y hy => by
        obtain ⟨g, hg, hy⟩ := List.mem_flatMap.1 hy
        obtain ⟨i, hi, rfl⟩ := List.mem_map.1 hy
        have hi4 := List.mem_range.1 hi
        rw [State.rdS_hatchShadow_ne hn (by omega) (by omega), hv, State.fwImage_eq])
    refine ⟨harms ⟨u, hrun, hrest⟩, u, hrun, fun g hg => ?_⟩
    obtain ⟨-, -, -, -, -, -, -, hshadow⟩ := hrest
    rw [State.rdS_congr hshadow]
    exact State.rdS_hatchShadow hn (by decide) (hgates ▸ hg)
  case closeHatch =>
    intro h
    have hn : o.arg 32 10 < 1024 := bits_lt ..
    have hread := (exec_fwSees (q := (0x62, .hatchClose c)) (f := BringIn.none) (by simp [fwRows]) h).1
    have hgates : (s.fwSees c).liveGates = s.liveGates := hread.liveGates
    refine ⟨fun h1 => ?_, fun h2 => ?_, fun h0 => ?_⟩
    · obtain ⟨u, hrun, hrest⟩ := exec_armsWords (q := (0x62, .hatchClose c)) (f := BringIn.none) (v := (s.fwSees c).hatchShadow (o.arg 32 10) 2)
        (l := []) (k := []) (bs := hs) (by simp [fwRows]) h hbring (fun hop => by
          simp only [State.perform, hop]
          exact (State.performHatchClose_open (by rw [hread.hatch hn]; exact h1 : ((s.fwSees c).hatch (o.arg 32 10)).state = 1)).trans (by rw [hgates]; rfl))
        ((State.changes_hatchShadow ..).after .refl) List.nodup_nil (List.Subset.refl _) (fun y hy => absurd hy List.not_mem_nil)
      refine ⟨harms ⟨u, hrun, hrest⟩, u, hrun, fun g hg => ?_⟩
      obtain ⟨-, -, -, -, -, -, -, hshadow⟩ := hrest
      rw [State.rdS_congr hshadow]
      exact State.rdS_hatchShadow hn (by decide) (hgates ▸ hg)
    · obtain ⟨u, hrun, hw, hmem, -⟩ := exec_waits_only (q := (0x62, .hatchClose c)) (f := BringIn.none) (w := .hatch (o.arg 32 10)) (by simp [fwRows]) h
        hbring (by simp) fun v hv hop => by
          simp only [State.perform, hop]
          exact State.performHatchClose_closing (by rw [hv.hatch hn]; exact h2 : (v.hatch (o.arg 32 10)).state = 2)
      exact ⟨u, hrun, hw, hmem⟩
    · obtain ⟨v, u, hv, hrun, hends⟩ := exec_refuses (q := (0x62, .hatchClose c)) (f := BringIn.none) (k := KS.hatchClosed) (by simp [fwRows]) h
        (fun v hv hop => by
          simp only [State.perform, hop]
          exact State.performHatchClose_closed (by rw [hv.hatch hn]; exact h0 : (v.hatch (o.arg 32 10)).state = 0)) (by decide)
      exact ⟨u, hrun, hends.completed, hv.sameMem.trans hends.sameMem⟩
  case seq =>
    intro h hon rs hclear
    obtain ⟨hread, -⟩ := exec_fwSees (q := (0x50, .seqConfig c)) (f := BringIn.none) (by simp [fwRows]) h
    exact harms (exec_armsFwWords (q := (0x50, .seqConfig c)) (f := BringIn.none) (by simp [fwRows]) h hbring (seqWords o)
      (fun hop => by simp only [State.perform, hop]; exact State.performSeqConfig_ok ((hread.partOn _).trans hon) hclear) (nodup_seqWords o))
  case link =>
    intro h hmask hlen hstray hgate gs
    have hread := (exec_fwSees (q := (0x60, .linkConfig c)) (f := BringIn.none) (by simp [fwRows]) h).1
    have hgates : (s.fwSees c).liveGates = s.liveGates := hread.liveGates
    obtain ⟨v, hv⟩ : ∃ v, v = (s.fwSees c).linkShadow o := ⟨_, rfl⟩
    have hk : (s.fwSees c).changes [.shadow, .cores, .beat] v := hv ▸ State.changes_linkShadow ..
    have hperform (hop : (s.readCmd c).op = 0x60) : (s.fwSees c).perform (s.readCmd c) BringIn.none = v.armAll gs := by
      simp only [State.perform, hop]
      rw [State.performLink_ok hmask hlen hstray (by rw [hread.shape]; exact hgate), hgates, hv]
    have hrule : (k.linkShadow o).firstRule gs = v.firstRule gs := by rw [hv]; rfl
    rw [hrule]
    refine ⟨fun hpass => ?_, fun hfail => exec_armAll_fails (q := (0x60, .linkConfig c)) (f := BringIn.none) (by simp [fwRows]) h hperform hfail
      (hk.after .refl)⟩
    obtain ⟨u, hrun, hrest⟩ := exec_armsWords (q := (0x60, .linkConfig c)) (f := BringIn.none) (v := v) (l := []) (k := []) (bs := gs) (by simp [fwRows])
      h hbring (fun hop => (hperform hop).trans (State.armAll_passes hpass)) hk List.nodup_nil (List.Subset.refl _) (fun y hy => absurd hy List.not_mem_nil)
    refine ⟨harms ⟨u, hrun, hrest⟩, u, hrun, fun g hg => ?_⟩
    obtain ⟨-, -, -, -, -, -, -, hshadow⟩ := hrest
    rw [State.fldS, State.rdS_congr hshadow, hv]
    exact State.fldS_linkShadow _ o (hgates ▸ hg)
  case resume =>
    intro h hblk hon hstat hhole x
    have hread := (exec_fwSees (q := (0x23, .jobStart c)) (f := BringIn.none) (by simp [fwRows]) h).1
    have hp : p < 12 := of_decide_eq_true (Bool.and_eq_true_iff.1 hon).1
    obtain ⟨v, hv⟩ : ∃ v, v = (s.fwSees c).dspShadow p j fun w => setBits w 0 1 1 := ⟨_, rfl⟩
    have hk : (s.fwSees c).changes [.shadow, .cores, .beat] v := hv ▸ State.changes_dspShadow ..
    have hperform (hop : (s.readCmd c).op = 0x23) : (s.fwSees c).perform (s.readCmd c) BringIn.none = v.armAll (s.resumeBlks p j) := by
      simp only [State.perform, hop]
      rw [if_neg (by rw [show (s.readCmd c).cmd.blk = false from hblk]; exact Bool.false_ne_true),
        State.performResume_ok ((hread.partOn _).trans hon) (by rw [hread.job]; exact hstat) (by rw [hread.job, hread.manifestHole]; exact hhole),
        hread.resumeBlks hp, hv]
    have hrule : x.firstRule (s.resumeBlks p j) = v.firstRule (s.resumeBlks p j) := by rw [hv]; rfl
    rw [hrule]
    refine ⟨fun hpass => ?_, fun hfail => exec_armAll_fails (q := (0x23, .jobStart c)) (f := BringIn.none) (by simp [fwRows]) h hperform hfail
      (hk.after .refl)⟩
    obtain ⟨u, hrun, hrest⟩ := exec_armsWords (q := (0x23, .jobStart c)) (f := BringIn.none) (v := v) (l := []) (k := []) (bs := s.resumeBlks p j)
      (by simp [fwRows]) h hbring (fun hop => (hperform hop).trans (State.armAll_passes hpass)) hk List.nodup_nil (List.Subset.refl _)
      (fun y hy => absurd hy List.not_mem_nil)
    refine ⟨harms ⟨u, hrun, hrest⟩, u, hrun, fun cl hcl => ?_⟩
    obtain ⟨-, -, -, -, -, -, -, hshadow⟩ := hrest
    rw [State.fldS, State.rdS_congr hshadow, hv]
    exact State.fldS_dspShadow_run _ p (bits_lt ..) (hread.clustersOf hp ▸ hcl)
  case start =>
    intro h hblk hon hstat
    have hread := (exec_fwSees (q := (0x23, .jobStart c)) (f := BringIn.none) (by simp [fwRows]) h).1
    have hp : p < 12 := of_decide_eq_true (Bool.and_eq_true_iff.1 hon).1
    have hon' : (s.fwSees c).partOn (s.readCmd c).part = true := (hread.partOn _).trans hon
    have hstat' : ((s.fwSees c).job (s.readCmd c).part (s.readCmd c).job).stat = .free
        ∨ ((s.fwSees c).job (s.readCmd c).part (s.readCmd c).job).stat = .stopped := by rw [hread.job]; exact hstat
    have hman : (s.fwSees c).readManifest (s.readCmd c).part (s.readCmd c).job ((s.readCmd c).body 16 0 45) = s.readManifest p j (o.body 16 0 45) :=
      hread.readManifest ..
    have hperform (hop : (s.readCmd c).op = 0x23) : (s.fwSees c).perform (s.readCmd c) BringIn.none = (s.fwSees c).performStart o := by
      simp only [State.perform, hop]
      rw [if_pos (show (s.readCmd c).cmd.blk = true from hblk)]
    have hrefused (k : Nat) (hk : k < 2 ^ 16) (hw : (s.readCmd c).op = 0x23 → (s.fwSees c).performStart o = .bad (s.fwSees c) k) : named (.jobStart c) k := by
      obtain ⟨u, hrun, hends⟩ := exec_endsAs (q := (0x23, .jobStart c)) (f := BringIn.none) (e := .of k) (by simp [fwRows]) h
        (fun hop => (hperform hop).trans (hw hop)) rfl hk
      exact ⟨u, hrun, hends.completed, hread.sameMem.trans hends.sameMem⟩
    split
    next hm => exact hrefused _ (by decide) fun _ => State.performStart_refused hon' hstat' (.inl ⟨hman.trans hm, rfl⟩)
    next hm => exact hrefused _ (by decide) fun _ => State.performStart_refused hon' hstat' (.inr (.inl ⟨hman.trans hm, rfl⟩))
    next hm => exact hrefused _ (by decide) fun _ => State.performStart_refused hon' hstat' (.inr (.inr ⟨hman.trans hm, rfl⟩))
    next m hm =>
      intro fresh x bs quotas
      have hj : (s.readCmd c).job < 16 := bits_lt ..
      obtain ⟨v, hv⟩ : ∃ v, v = (s.fwSees c).startShadow o fresh m := ⟨_, rfl⟩
      have hk : (s.fwSees c).changes [.shadow, .cores, .jobs, .beat] v := hv ▸ State.changes_startShadow ..
      have hrule : x.firstRule bs = v.firstRule bs := by rw [hv]; rfl
      have hquotas : ((s.clustersOf p).all fun cl => ((s.fwSees c).rd (.clNquota cl j)).toNat == o.nearQuota
          && ((s.fwSees c).rd (.clLquota cl j)).toNat == o.loftQuota) = true
          ↔ ∀ cl ∈ s.clustersOf p, (s.rd (.clNquota cl j)).toNat = o.nearQuota ∧ (s.rd (.clLquota cl j)).toNat = o.loftQuota := by
        rw [List.all_eq_true]
        refine forall₂_congr fun cl hcl => ?_
        have hcl' := (mem_clustersOf hcl).1
        rw [hread.rd_cluster (r := .clNquota cl j) hcl' rfl (by show 0x100 + 0x10 * (s.readCmd c).job < _; omega),
          hread.rd_cluster (r := .clLquota cl j) hcl' rfl (by show 0x108 + 0x10 * (s.readCmd c).job < _; omega)]
        simp only [Bool.and_eq_true, beq_iff_eq]
      have hrows : (s.fwSees c).performStart o = if (s.part p).rolling then .bad (s.fwSees c) KS.busy
          else if s.manifestHole m = true ∨ ¬ quotas then .bad (s.fwSees c) KS.badArg else v.armAll bs := by
        rw [State.performStart_rows hon' hstat' (hman.trans hm), hread.part, hread.manifestHole, hread.job, hread.clustersOf hp, hread.startBlks hp, hv]
        refine if_congr Iff.rfl rfl (if_congr ?_ rfl rfl)
        rw [Bool.or_eq_true, Bool.and_eq_true, Bool.not_eq_true', Bool.not_eq_true', ← Bool.not_eq_true, ← Bool.not_eq_true, ← not_or]
        exact or_congr Iff.rfl (not_congr (or_congr Iff.rfl hquotas))
      refine ⟨fun hroll => hrefused _ (by decide) fun _ => by rw [hrows, if_pos hroll], fun hroll hbad => ?_, fun hroll hhole hq hpass => ?_⟩
      · by_cases hbad' : s.manifestHole m = true ∨ ¬ quotas
        · exact hrefused _ (by decide) fun _ => by rw [hrows, if_neg (by rw [hroll]; exact Bool.false_ne_true), if_pos hbad']
        · have hfail : v.firstRule bs ≠ none := hrule ▸ (or_assoc.2 hbad).resolve_left hbad'
          exact exec_armAll_fails (q := (0x23, .jobStart c)) (f := BringIn.none) (by simp [fwRows]) h (fun hop => (hperform hop).trans
            (by rw [hrows, if_neg (by rw [hroll]; exact Bool.false_ne_true), if_neg hbad'])) hfail hk
      · obtain ⟨u, hrun, harm⟩ := exec_arms (q := (0x23, .jobStart c)) (f := BringIn.none) (v := v) (bs := bs) (by simp [fwRows]) h hbring
          (fun hop => (hperform hop).trans (by
            rw [hrows, if_neg (by rw [hroll]; exact Bool.false_ne_true), if_neg (not_or.2 ⟨by rw [hhole]; exact Bool.false_ne_true, not_not.2 hq⟩)]
            exact State.armAll_passes (hrule ▸ hpass))) hk
        refine ⟨u, hrun, harm.waits, harm.armed, (State.job_congr harm.jobs ..).trans ?_, harm.sec, harm.mem⟩
        rw [hv]
        exact (State.job_startShadow ..).trans (by rw [hread.job])

end

section
/-! Control frames and the handshake (Table 15-3, R328, R329, R332, R333). -/

-- The frame conditions are evaluated in the kernel: theorems elaborated in parallel would each hold a thread while they wait for it.
set_option Elab.async false

namespace Sys2Proof.Machine

variable {s u : State} {p st reason : Nat}

/-- A control frame of a row's kind takes effect, or is discarded for a stray bit. -/
theorem control_arrives {kind : Nat} {h : BitVec 96} (ha : s.ctlArrives p kind h) (k : Unit → State) :
    control kind p h s k = .next (if controlOk h then k () else s.badControl p) := by
  obtain ⟨hp, hup, ht, hc⟩ := ha
  rw [control, unitOk, if_pos (portOk_of_lt hp), need, if_pos (by rw [hup, ht, hc]; simp)]

theorem State.drainPort_empty (h : (s.port p).blocked = []) (k : Nat) : s.drainPort p k = s := by
  cases k with
  | zero => rfl
  | succ k => rw [State.drainPort, h]

/-- The number of the oldest frame that has not been acknowledged. -/
def Port.oldest (x : Port) : Nat := (x.replay.head?.map Prod.fst).getD x.txNext

/-- An acknowledgement with nothing waiting for credits: the frames before its number are gone, and its credits are there. -/
theorem State.acked_settled {n credits : Nat} (hb : (s.port p).blocked = []) : s.changes [.ports] (s.acked p n credits)
    ∧ ((s.acked p n credits).port p).credits = min ((s.port p).credits + credits) 512
    ∧ ((s.acked p n credits).port p).replay = (if 0 < (n + 65536 - (s.port p).oldest) % 65536
          ∧ (n + 65536 - (s.port p).oldest) % 65536 ≤ (s.port p).replay.length
        then (s.port p).replay.drop ((n + 65536 - (s.port p).oldest) % 65536) else (s.port p).replay)
    ∧ ((s.acked p n credits).port p).rxNext = (s.port p).rxNext ∧ ((s.acked p n credits).port p).txNext = (s.port p).txNext := by
  unfold State.acked
  extract_lets x oldest k gone y
  have ho : oldest = (s.port p).oldest := by
    show (match (s.port p).replay with | q :: _ => q.1 | [] => (s.port p).txNext) = _
    rw [Port.oldest]
    cases (s.port p).replay <;> rfl
  have hk : k = (n + 65536 - (s.port p).oldest) % 65536 := by rw [← ho]
  have hy : y = if 0 < k ∧ k ≤ (s.port p).replay.length then { s.port p with
      replay := (s.port p).replay.drop k, replays := 0, segTags := (s.port p).segTags.filter fun t => !gone.contains t.1 } else s.port p := rfl
  rw [← hk]
  clear_value y k gone oldest
  have hkeeps : y.blocked = (s.port p).blocked ∧ y.credits = (s.port p).credits ∧ y.rxNext = (s.port p).rxNext ∧ y.txNext = (s.port p).txNext
      ∧ y.rxPlace = (s.port p).rxPlace := by
    rw [hy]
    split <;> exact ⟨rfl, rfl, rfl, rfl, rfl⟩
  obtain ⟨hbl, hc, hr, ht, hx⟩ := hkeeps
  rw [State.drainPort_empty (by rw [State.port_setPort_same]; exact hbl.trans hb), State.port_setPort_same]
  refine ⟨State.changes_setPort_rx hx, by rw [hc], ?_, hr, ht⟩
  show y.replay = _
  rw [hy]
  split <;> rfl

/-! The segment of an encrypting port. -/

theorem State.rxPlace_congr {M : List Field} (h : s.changes M u) (hM : .rx ∉ M := by decide) (p : Nat) : (u.port p).rxPlace = (s.port p).rxPlace :=
  h.same .rx hM p

/-- A segment that verifies passes up: the port is ready for the next one, whatever its frames do. -/
theorem State.segTag_good {n : Nat} {g : BitVec 128} (hn : (s.port p).nak = false) (hs : (s.port p).segment ≠ [])
    (hg : n = (s.port p).rxSeg % 2 ^ 32
      ∧ g = Config.gcmTag (s.port p).keyRx (s.port p).rxSeg ((s.port p).segment.map fun f => (f.hdr, f.payload))) :
    ((s.segTag p n g).port p).rxPlace = ([], (s.port p).rxSeg + 1, false) := by
  unfold State.segTag
  extract_lets x first fs t
  rw [if_neg (by simp [x, hn, hs]), if_pos hg]
  refine List.foldlRecOn _ _ (motive := fun (v : State) => (v.port p).rxPlace = ([], (s.port p).rxSeg + 1, false)) ?_ fun v hv i _ => ?_
  · show (t.port p).rxPlace = _
    rw [show t.port p = _ from State.port_setPort_same ..]
    rfl
  · cases fs[i]? with
    | none => exact hv
    | some f =>
      have h1 : v.changes Writes.otRoom (v.deliverFrame p ((first + i) % 65536) (cipher x.keyRx x.rxSeg i f)) := State.changes_deliverFrame ..
      exact (State.rxPlace_congr (State.changes_freePlace ..) (by decide) p).trans ((State.rxPlace_congr h1 (by decide) p).trans hv)

/-- The first failure of a segment asks for it again. -/
theorem State.segTag_bad {n : Nat} {g : BitVec 128} (hn : (s.port p).nak = false) (hs : (s.port p).segment ≠ [])
    (hg : ¬ (n = (s.port p).rxSeg % 2 ^ 32
      ∧ g = Config.gcmTag (s.port p).keyRx (s.port p).rxSeg ((s.port p).segment.map fun f => (f.hdr, f.payload)))) :
    s.segTag p n g = if (s.port p).segFail then (s.count C.linkSegTagFail p).enterPort p 6 8
      else ((s.count C.linkSegTagFail p).setPort p { s.port p with segFail := true }).sendNak p := by
  unfold State.segTag
  extract_lets x first fs t
  rw [if_neg (by simp [x, hn, hs]), if_neg hg]

/-! Ports that are down. -/

/-- A port that carries no frames enters another such state. -/
theorem State.enterPort_down (hp : p < 12) (h : s.portUp p = false) (h2 : st ≠ 2) (hst : st < 8) (hr : reason < 16) (hdown : upState st = false) :
    (s.enterPort p st reason).portIn p st reason ∧ s.sameMem (s.enterPort p st reason) ∧ (s.enterPort p st reason).port p = s.port p := by
  unfold State.enterPort
  extract_lets was x s1 s2 now s3 s4 s5
  have hs2 : s2 = s.markPort p st reason := by
    have h1 : s1 = s := if_neg h2
    show (s1.setFld _ _ _).setFld _ _ _ = _
    rw [h1, State.markPort]
  have hnow : now = false := by
    show s2.portUp p = false
    rw [hs2, s.portUp_markPort p hst hr, hdown]
  have hwas : was = false := h
  have h4 : s4 = s2 := by
    have h3 : s3 = s2 := if_neg (show ¬ (was && !now) = true by rw [hnow, hwas]; decide)
    rw [← h3]
    exact if_neg (show ¬ (!was && now) = true by rw [hnow, hwas]; decide)
  have h5 : s4.changes Writes.post s5 := State.changes_linkEvent ..
  have hr5 : s5.rd (.gatePort p) = s4.rd (.gatePort p) := s4.rd_linkEvent hp p
  rw [if_neg h2]
  clear_value s5 s4 s2
  subst h4
  have hk : s.changes [.regs] s4 := hs2 ▸ State.changes_markPort ..
  have hin : s4.portIn p st reason := hs2 ▸ s.portIn_markPort p hst hr
  exact ⟨State.portIn_congr hr5 hin, (State.sameMem_of_changes hk).trans (State.sameMem_of_changes h5),
    (State.port_congr (h5.same .ports) p).trans (State.port_congr (hk.same .ports) p)⟩

/-- A handshake that fails in AUTHENTICATING holds the port down. -/
theorem State.authFail_holds (hp : p < 12) (h : s.portState p = 2) (hr : reason < 16) :
    (s.authFail p reason).portIn p 6 reason ∧ s.sameMem (s.authFail p reason) := by
  have hdown : (s.count C.linkAuthFail p).portUp p = false := by
    show decide (s.portState p = 4 ∨ s.portState p = 5) = false
    rw [h]
    decide
  obtain ⟨hin, hm, -⟩ := State.enterPort_down hp hdown (st := 6) (reason := reason) (by decide) (by decide) hr (by decide)
  exact ⟨hin, hm⟩

/-- The first check of Table 15-5 that a HELLO fails, 0 for none. -/
def State.helloReason (s : State) (p : Nat) (h : Hello) : Nat :=
  if Config.chainLeads Config.rootKey h.chain = false then 3 else if Config.sha512 (helloKey h) ≠ s.keyHash p then 4
  else if h.fabric.toNat ≠ s.fld (.gatePort p) F.gatePortPartner ∨ h.fabric.toNat = s.ownFabric then 5
  else if h.encrypt ≠ s.encrypts p then 7 else 0

theorem State.helloReason_lt (s : State) (p : Nat) (h : Hello) : s.helloReason p h < 16 := by
  unfold State.helloReason
  split_ifs <;> decide

/-- A HELLO that fails a check holds the port down for it; one that passes is answered. -/
theorem State.helloIn_eq (s : State) (p : Nat) (h : Hello) {m : Nat × Hello} (hm : (s.port p).mine = some m) :
    s.helloIn p h = if s.helloReason p h = 0 then
        (s.setPort p { s.port p with hello := true, theirs := some h, quote := some (h.quote ++ chainBytes h.chain) }).emit
          (.proof p (bytesOf 132 (Config.sign (proofDigest m.2 h)).toNat))
      else s.authFail p (s.helloReason p h) := by
  unfold State.helloIn State.helloReason
  by_cases h3 : Config.chainLeads Config.rootKey h.chain = false
  · simp only [h3, Bool.not_false, if_true]
    rfl
  rw [Bool.not_eq_false] at h3
  by_cases h4 : Config.sha512 (helloKey h) ≠ s.keyHash p
  · simp only [h3, Bool.not_true, h4, Bool.false_eq_true, Bool.true_eq_false, if_false, if_true, not_false_eq_true, ne_eq]
    rfl
  by_cases h5 : h.fabric.toNat ≠ s.fld (.gatePort p) F.gatePortPartner ∨ h.fabric.toNat = s.ownFabric
  · simp only [h3, Bool.not_true, if_neg h4, if_pos h5, Bool.false_eq_true, Bool.true_eq_false, if_false]
    rfl
  by_cases h7 : h.encrypt ≠ s.encrypts p
  · simp only [h3, Bool.not_true, if_neg h4, if_neg h5, if_pos h7, Bool.false_eq_true, Bool.true_eq_false, if_false]
    rfl
  · simp only [h3, Bool.not_true, if_neg h4, if_neg h5, if_neg h7, Bool.false_eq_true, Bool.true_eq_false, if_false, if_true]
    rw [State.port_setPort_same]
    simp only [hm]

end Sys2Proof.Machine

open Sys2Proof Sys2Proof.Machine

/-- Settles O52: a control frame by what it does to its port; a segment that verifies by what delivery leaves of a port's segment (Field.rx). -/
theorem controlFramesActOnPorts : Obligations.ControlFramesActOnPorts := by
  unfold Obligations.ControlFramesActOnPorts
  intro p s x wire refused
  have harr {kind : Nat} {h : BitVec 96} (ha : s.ctlArrives p kind h) (hok : controlOk h = true) (k : Unit → State) :
      control kind p h s k = .next (k ()) := by rw [control_arrives ha, if_pos hok]
  have hbad {kind : Nat} {h : BitVec 96} {i : Instr} (ha : s.ctlArrives p kind h) (hok : controlOk h = false) (k : Unit → State)
      (he : exec i s = control kind p h s k) : refused i := by
    have hk : s.changes Writes.post (s.badControl p) := State.changes_badControl ..
    exact ⟨s.badControl p, by rw [he, control_arrives ha, if_neg (by rw [hok]; decide)], hk.same .ports, State.sameMem_of_changes hk⟩
  refine ⟨fun h g c hc ha hok => ?_, fun h ha hok hb => ?_, fun h ha hok ht => ?_, fun h ha hok => ?_, fun h g ha hok => ?_, fun h ha hok => ?_,
    fun h m hp h2 hh hm => ?_, fun sig m h hp h2 hh hr hm ht => ?_⟩
  · simp only [List.mem_cons, List.not_mem_nil, or_false] at hc
    rcases hc with rfl | rfl | rfl | rfl | rfl
    · exact hbad ha hok (fun _ => s.acked p (bits h 16 16) (bits h 32 16)) rfl
    · exact hbad ha hok (fun _ => s.replayFrom p (bits h 16 16)) rfl
    · exact hbad ha hok (fun _ => s.replayed p (bits h 16 16)) rfl
    · exact hbad ha hok (fun _ => s.segTag p (bits h 32 32) g) rfl
    · exact hbad ha hok (fun _ => s) rfl
  · obtain ⟨hk, hc, hr, hn, ht⟩ := State.acked_settled (n := bits h 16 16) (credits := bits h 32 16) hb
    exact ⟨_, harr ha hok fun _ => s.acked p (bits h 16 16) (bits h 32 16), hk.same .outbox, State.sameMem_of_changes hk, hk.same .regs, hc, hr, hn, ht⟩
  · have he : exec (.ctlNak p h) s = .next (s.replayFrom p (bits h 16 16)) := harr ha hok fun _ => s.replayFrom p (bits h 16 16)
    refine ⟨fun hl => ?_, fun hl hlen => ?_⟩
    · rw [he]
      unfold State.replayFrom
      extract_lets l t t'
      exact congrArg _ (if_pos (by rw [List.isEmpty_iff]; exact hl))
    · obtain ⟨ho, hx, hk⟩ := State.replayFrom_plain rfl hl ht hlen
      exact ⟨_, he, State.sameMem_of_changes hk, hk.same .regs, ho, hx⟩
  · have he : exec (.ctlReplay p h) s = .next (s.replayed p (bits h 16 16)) := harr ha hok fun _ => s.replayed p (bits h 16 16)
    have hk : s.changes [.ports, .rx] (s.replayed p (bits h 16 16)) := State.changes_replayed ..
    refine ⟨_, he, hk.same .outbox, State.sameMem_of_changes hk, fun hn heq => ?_, fun hn hne => ?_, fun hn => ?_⟩
    · rw [State.replayed, if_pos hn, if_pos heq, State.port_setPort_same]
    · rw [State.replayed, if_pos hn, if_neg hne]
    · rw [State.replayed, if_neg (by rw [show (s.port p).nak = false from hn]; decide), State.port_setPort_same]
  · have he : exec (.ctlSegTag p h g) s = .next (s.segTag p (bits h 32 32) g) := harr ha hok fun _ => s.segTag p (bits h 32 32) g
    have hp : p < 12 := ha.1
    intro good
    refine ⟨fun hno => ?_, fun hn hs hg => ?_, fun hn hs hg hf => ?_, fun hn hs hg hf hot hheld => ?_⟩
    · rw [he]
      unfold State.segTag
      extract_lets x' first fs t
      refine congrArg _ (if_pos ?_)
      rcases hno with hn | hs
      · exact Bool.or_eq_true_iff.2 (.inl hn)
      · exact Bool.or_eq_true_iff.2 (.inr (List.isEmpty_iff.2 hs))
    · have hx := State.segTag_good hn hs hg
      exact ⟨_, he, congrArg Prod.fst hx, congrArg (fun q => q.2.1) hx, congrArg (fun q => q.2.2) hx⟩
    · have hrun := State.segTag_bad hn hs hg
      rw [if_neg (by rw [show (s.port p).segFail = false from hf]; decide)] at hrun
      refine ⟨_, he, ?_, ?_⟩
      · rw [hrun]
        exact State.sameMem_of_changes (M := [.ctrs, .outbox, .ports, .rx])
          ((State.changes_sendNak ..).after ((State.changes_setPort ..).after ((State.changes_count ..).after .refl)))
      · rw [hrun, State.port_sendNak, State.port_setPort_same]
        rfl
    · have hrun := State.segTag_bad hn hs hg
      rw [if_pos hf] at hrun
      have hq : (s.count C.linkSegTagFail p).gateQuiet p := (⟨hot, hheld⟩ : s.gateQuiet p).congr rfl rfl
      obtain ⟨hin, hm, -⟩ := State.enterPort_settled hp hq (st := 6) (reason := 8) (by decide) (by decide) (by decide)
      rw [hrun] at he
      exact ⟨_, he, hin, hm⟩
  · exact harr ha hok fun _ => s
  · have he : exec (.ctlHandshake p (.hello h)) s = .next (s.helloIn p h) := by
      show execCtlHandshake p (.hello h) s = _
      rw [execCtlHandshake, unitOk, if_pos (portOk_of_lt hp), need, if_pos (by rw [h2, show (s.port p).hello = false from hh]; rfl)]
      rfl
    intro reason
    have hreason : reason = s.helloReason p h := rfl
    rw [s.helloIn_eq p h hm, ← hreason] at he
    have hlt : reason < 16 := s.helloReason_lt p h
    clear_value reason
    by_cases h0 : reason = 0
    · rw [if_pos h0] at he
      refine ⟨_, he, ⟨rfl, rfl⟩, ?_⟩
      rw [if_pos h0]
      exact ⟨rfl, rfl, State.port_setPort_same ..⟩
    · rw [if_neg h0] at he
      obtain ⟨hin, hmem⟩ := State.authFail_holds hp h2 hlt
      refine ⟨_, he, hmem, ?_⟩
      rw [if_neg h0]
      exact hin
  · intro low
    have he : exec (.ctlHandshake p (.proof sig)) s = .next (s.proofIn p sig) := by
      show execCtlHandshake p (.proof sig) s = _
      rw [execCtlHandshake, unitOk, if_pos (portOk_of_lt hp), need, if_pos (by rw [h2, show (s.port p).hello = true from hh]; rfl)]
      rfl
    have hrun : s.proofIn p sig = if signedBy (helloKey h) (proofDigest m.2 h) sig then s.handshakeDone p m.1 m.2 h else s.authFail p 3 := by
      rw [State.proofIn, show (s.port p).mine = some m from hm, show (s.port p).theirs = some h from ht]
    rw [hrun] at he
    by_cases hsig : signedBy (helloKey h) (proofDigest m.2 h) sig = true
    · rw [if_pos hsig] at he
      obtain ⟨t, htt⟩ : ∃ t, t = s.setPort p { s.port p with
          rxSeg := 0, txSeg := 0, rekey := false, proof := true, mine := none,
          keyRx := pairKey m.1 m.2 h (!low), keyTx := pairKey m.1 m.2 h low } := ⟨_, rfl⟩
      have hdone : s.handshakeDone p m.1 m.2 h = t.enterPort p 3 0 := by
        unfold State.handshakeDone
        rw [htt]
        exact if_neg (show ¬ (s.port p).rekey = true by rw [show (s.port p).rekey = false from hr]; decide)
      have hdown : t.portUp p = false := by
        rw [htt]
        show decide (s.portState p = 4 ∨ s.portState p = 5) = false
        rw [h2]
        decide
      obtain ⟨hin, hmem, hx⟩ := State.enterPort_down hp hdown (st := 3) (reason := 0) (by decide) (by decide) (by decide) (by decide)
      rw [hdone] at he
      refine ⟨_, he, State.sameMem.trans ?_ hmem, ?_⟩
      · rw [htt]
        exact ⟨rfl, rfl⟩
      · rw [if_pos hsig]
        refine ⟨hin, ?_⟩
        rw [hx, htt, State.port_setPort_same]
    · rw [if_neg hsig] at he
      obtain ⟨hin, hmem⟩ := State.authFail_holds hp h2 (reason := 3) (by decide)
      refine ⟨_, he, hmem, ?_⟩
      rw [if_neg hsig]
      exact hin
end

section
/-! Registers that a pass of a winnower writes (R276, R286): those of events, of what is outstanding at the gates, and of the granaries. -/

-- The frame conditions are evaluated in the kernel: theorems elaborated in parallel would each hold a thread while they wait for it.
set_option Elab.async false

namespace Sys2Proof.Machine

variable {s t u : State} {A : Nat → Prop} {n : Nat}

/-! Mailboxes and events. -/

section
variable (hA : ∀ r ∈ mbxRegs n, A r.addr)
include hA

theorem State.writesAt_mbxWrite (h : s.writesAt A t) (a : Nat) (w : Word) (host : Option (BitVec 128)) :
    s.writesAt A (t.mbxWrite .mgmt n a w host).1 := by
  have htout (reason : Nat) : s.writesAt A (t.mbxTimeout .mgmt n a reason) := by
    unfold State.mbxTimeout
    exact State.writesAt_ite ((State.changes_count ..).writesAt h) (((State.changes_count ..).writesAt h).wr (hA _ (by simp [mbxRegs])) _)
  unfold State.mbxWrite
  split
  · exact (State.changes_answer ..).writesAt (htout 2)
  split
  · exact (State.changes_answer ..).writesAt (State.writesAt_mbxLand h hA a w)
  split
  · exact (State.changes_answer ..).writesAt (htout 3)
  · exact State.writesAt.of_regs (h.wr (hA _ (by simp [mbxRegs])) _) rfl

theorem State.writesAt_pump (k : Nat) (h : s.writesAt A t) : s.writesAt A (t.pump n k) := by
  induction k generalizing t with
  | zero => exact h
  | succ k ih =>
    unfold State.pump
    split
    · exact h
    split
    · exact h
    next w l _ =>
      have hw := State.writesAt_mbxWrite hA (h.of_regs (u := { t with cplq := SMap.put (fun _ => []) t.cplq n l }) rfl) agentMgmt w none
      exact ih (State.writesAt_ite ((State.changes_count ..).writesAt hw) hw)

end

theorem State.writesAt_post (hA : ∀ r ∈ mbxRegs 63, A r.addr) (h : s.writesAt A t) (kind part job status : Nat) (pay : Payload) :
    s.writesAt A (t.post kind part job status pay) :=
  State.post_induct (P := s.writesAt A) (fun _ _ hr _ h => h.of_regs hr) (fun _ w h => State.writesAt_mbxWrite hA h agentMgmt w none) h ..

/-- The registers of the management dies. -/
def mgtAddr (a : Nat) : Prop := mgtBase ≤ a

theorem mgtAddr_mbxRegs (n : Nat) : ∀ r ∈ mbxRegs n, mgtAddr r.addr := by
  simp only [mbxRegs, List.forall_mem_cons, List.not_mem_nil, false_imp_iff, implies_true, and_true]
  exact ⟨Nat.le_add_right .., Nat.le_add_right .., Nat.le_add_right .., Nat.le_add_right .., Nat.le_add_right ..⟩

theorem State.writesAt_completeWord (h : s.writesAt mgtAddr t) (c : FwCmd) (e : FwEnd) : s.writesAt mgtAddr (t.completeWord c e) := by
  unfold State.completeWord
  extract_lets w
  split
  · exact State.writesAt_post (mgtAddr_mbxRegs 63) h ..
  · unfold State.postWord
    exact State.writesAt_pump (mgtAddr_mbxRegs _) _ (h.of_regs rfl)

theorem State.writesAt_endCmd (h : s.writesAt mgtAddr t) (o : FwOut) (e : FwEnd) : s.writesAt mgtAddr (t.endCmd o e) := by
  unfold State.endCmd State.complete
  exact State.writesAt_completeWord ((State.changes_winWrite ..).writesAt ((State.changes_winWrite ..).writesAt ((State.changes_winWrite ..).writesAt
    ((State.changes_set_fw ..).writesAt h)))) ..

theorem State.writesAt_complete? (h : s.writesAt mgtAddr t) (w : FwWait) (e : FwOut → FwEnd) : s.writesAt mgtAddr (t.complete? w e) := by
  unfold State.complete?
  exact State.writesAt_foldl (fun o _ _ h => State.writesAt_endCmd h o (e o)) h

/-! Reads of LPDDR5X. -/

/-- The registers that a pass writes outside the state entries: events, outstanding requests, error logs and the state of a winnower. No table and no
register of a partition or cluster is among them. -/
def passAddr (a : Nat) : Prop :=
  grnBase 0 ≤ a ∧ a % 0x4000000 < 0x100000 ∧ (a % 0x4000000 < 0x1000 ∨ 0x5000 ≤ a % 0x4000000)

theorem passAddr_granary {g o : Nat} (ho : o < 0x1000) : passAddr (grnBase g + o) := by
  have hmod := granaryOffset_mod g (o := o) (by omega)
  refine ⟨?_, by omega, by omega⟩
  unfold grnBase regBase
  omega

theorem passAddr_grnErrLog (g : Nat) : passAddr (Reg.grnErrLog g).addr := passAddr_granary (o := 0x10) (by decide)

theorem passAddr_grnErrRow (g : Nat) : passAddr (Reg.grnErrRow g).addr := passAddr_granary (o := 0x18) (by decide)

theorem passAddr_winStatus (g : Nat) : passAddr (Reg.winStatus g).addr := passAddr_granary (o := 0x548) (by decide)

theorem passAddr_gateOt {a : Nat} (h : gateOtAddr a) : passAddr a := by
  obtain ⟨g, rfl⟩ := h
  show passAddr (gateBase g + 0x10)
  unfold passAddr gateBase grnBase regBase
  omega

theorem passAddr_mbxRegs : ∀ r ∈ mbxRegs 63, passAddr r.addr := fun r hr => by
  obtain ⟨h1, h2⟩ := mailboxAddr_mbxRegs (by decide) r hr
  unfold mgtBase regBase at h1 h2
  unfold passAddr grnBase regBase
  omega

theorem State.passes_post (h : s.writesAt passAddr t) (kind part job status : Nat) (pay : Payload) :
    s.writesAt passAddr (t.post kind part job status pay) := State.writesAt_post passAddr_mbxRegs h ..

/-- The registers are written in a pass's places, and the device's shape stands. -/
structure State.passes (s u : State) : Prop where
  writes : s.writesAt passAddr u
  shape : u.shape = s.shape

theorem State.passes.refl : s.passes s := ⟨.same rfl, rfl⟩

theorem State.passes.trans (h : s.passes t) (k : t.passes u) : s.passes u := ⟨h.writes.trans k.writes, k.shape.trans h.shape⟩

theorem State.changes.passes {M : List Field} (k : t.changes M u) (h : s.passes t) (hr : .regs ∉ M := by decide) (hs : .shape ∉ M := by decide) :
    s.passes u := ⟨k.writesAt h.writes hr, (k.same .shape hs).trans h.shape⟩

theorem State.passes.wr (h : s.passes t) {r : Reg} (hr : passAddr r.addr) (w : Word) : s.passes (t.wr r w) := ⟨h.writes.wr hr w, h.shape⟩

theorem State.passes.fault (h : s.passes t) (agent cause detail index addr : Nat) : s.passes (t.fault agent cause detail index addr) :=
  ⟨State.passes_post h.writes .., ((State.changes_post ..).same .shape).trans h.shape⟩

theorem State.passes.foldl {α : Type} {f : State → α → State} {l : List α} (h : s.passes u) (hf : ∀ t x, s.passes t → s.passes (f t x)) :
    s.passes (l.foldl f u) := List.foldlRecOn _ _ h fun t ht x _ => hf t x ht

theorem State.passes.ite {c : Prop} [Decidable c] (h : s.passes t) (k : s.passes u) : s.passes (if c then t else u) := by
  split
  · exact h
  · exact k

/-- A change of the list about a row of LPDDR5X. -/
theorem State.passes.wlRow (h : s.passes t) (wh unit row cause : Nat) (f : WlEnt → WlEnt) : s.passes (t.wlChange 3 wh unit row cause f) := by
  have hset {t : State} (h : s.passes t) : s.passes (t.wlSettle 3 wh) := by
    unfold State.wlSettle
    extract_lets t1 t2 t3
    have h3 : s.passes t3 := (State.changes_setCtr ..).passes ((State.changes_setCtr ..).passes h)
    exact .ite h3 (h3.fault ..)
  unfold State.wlChange
  extract_lets fin found fresh oldest w' was listed
  generalize w' = w''
  split
  · exact (State.changes_count ..).passes h
  · extract_lets t' now
    rw [if_neg (by simp)]
    exact hset ((State.changes_set_nv ..).passes h)

theorem State.passes.retireRow (h : s.passes t) (dev ch row : Nat) : s.passes (t.retireRow dev ch row) := by
  unfold State.retireRow
  extract_lets t'
  have h' : s.passes t' := h.wlRow ..
  exact .ite h' (.ite ((State.changes_count ..).passes h') ((State.changes_set_copying ..).passes h'))

theorem State.passes.lpTouch (h : s.passes t) (key : Nat) : s.passes (t.lpTouch key) := by
  have hce {t : State} (h : s.passes t) : s.passes (t.lpCe key) := by
    unfold State.lpCe
    split
    extract_lets t'
    have h' : s.passes t' := (State.changes_count ..).passes ((State.changes_setLp ..).passes h)
    exact .ite (h'.retireRow ..) ((State.changes_set_ceRows ..).passes h')
  have hue {t : State} (h : s.passes t) : s.passes (t.lpUe key) := by
    unfold State.lpUe
    split
    extract_lets g t1 t2 t3
    have h1 : s.passes t1 := (State.changes_count ..).passes h
    have h2 : s.passes t2 := .ite h1 ((h1.wr (passAddr_grnErrLog g) _).wr (passAddr_grnErrRow g) _)
    exact (h2.fault ..).retireRow ..
  unfold State.lpTouch
  extract_lets t1 x t2
  have h1 : s.passes t1 := (State.changes_lpCheck ..).passes h
  have h2 : s.passes t2 := .ite (hce h1) h1
  exact .ite (hue h2) h2

theorem State.passes.lpMeet (h : s.passes t) (l : LpLoc) : s.passes (t.lpMeet l) := by
  unfold State.lpMeet
  exact .ite h (h.lpTouch _)

theorem State.passes.lpMeets (h : s.passes t) (ls : List LpLoc) : s.passes (t.lpMeets ls) := by
  unfold State.lpMeets
  exact h.foldl fun _ l h => h.lpMeet l

theorem State.passes.winRefused (h : s.passes t) (g p j : Nat) (ls : List LpLoc) (write : Bool) : s.passes (t.winRefused g p j ls write) := by
  unfold State.winRefused
  split
  · split
    · extract_lets t'
      have h' : s.passes t' := State.passes.fault ((State.changes_count ..).passes h) ..
      exact (State.changes_set_win ..).passes h'
    · exact (State.changes_pageFault ..).passes h
  · exact h

theorem State.passes.request (h : s.passes t) {p : Nat} {e : OtEnt} {mk : Nat → Frame} (hr : t.request p e mk = some u) : s.passes u :=
  ⟨h.writes.trans ((State.writesAt_request hr).mono fun _ => passAddr_gateOt),
    ((Opt.all_of hr (State.changes_request ..) : t.changes _ u).same .shape).trans h.shape⟩

theorem State.passes.sendPackets (h : s.passes t) (p j : Nat) (c : StepCfg) (ms : List Nat) (rec : Option Nat) (w : BitVec 128) :
    s.passes (t.sendPackets p j c ms rec w) :=
  ⟨h.writes.trans ((State.writesAt_sendPackets ..).mono fun _ => passAddr_gateOt), ((State.changes_sendPackets ..).same .shape).trans h.shape⟩

/-! Tithes. -/

theorem State.passes.endTithe (h : s.passes t) (x : TitheRun) (failed : Bool) : s.passes (t.endTithe x failed) := by
  have hs {t : State} (h : s.passes t) (g : Nat) : s.passes (t.settleWin g) := by
    unfold State.settleWin
    exact .ite (h.wr (passAddr_winStatus g) _) h
  unfold State.endTithe
  extract_lets t'
  have h' : s.passes t' := (State.changes_set_tithes ..).passes h
  exact hs (.ite ((State.changes_count ..).passes h') h') _

theorem State.passes.pushTithe (h : s.passes t) (id k : Nat) : s.passes (t.pushTithe id k) := by
  induction k generalizing t with
  | zero => exact h
  | succ k ih =>
    unfold State.pushTithe
    split
    · exact h
    split
    · exact h
    split
    · exact h
    split
    · exact h.endTithe ..
    split
    · exact h
    next v hv => exact ih ((State.changes_setTithe ..).passes (h.request hv))

theorem State.passes.sendTithe (h : s.passes t) (g p j i k : Nat) (r : Layer) (step : Nat) : s.passes (t.sendTithe g p j i k r step) := by
  unfold State.sendTithe
  split
  · exact h
  · extract_lets slot rows scale trows id all
    refine .ite h ?_
    split
    · exact (State.changes_count ..).passes h
    · exact (State.changes_count ..).passes (State.passes.pushTithe ((State.changes_set_tithes_titheSeq ..).passes h) ..)

end Sys2Proof.Machine
end

section
/-! The check, the release and the withholding of a winnower's command (R276, R286 to R289). -/

-- The frame conditions are evaluated in the kernel: theorems elaborated in parallel would each hold a thread while they wait for it.
set_option Elab.async false

namespace Sys2Proof.Machine

variable {s t u : State} {g p j i : Nat} {K : Nat → Prop}

/-! The check. -/

/-- A record of the command in a granary is at another step. -/
def State.winSkewed (s : State) (g : Nat) : Bool :=
  (List.range (s.winCmd g).count).any fun i => (s.skewOf g ((s.winCmd g).first + i) (s.winCmd g).t (s.winCmd g).norm).isSome

/-- The status that the check of a command ends with. -/
def State.checkStatus (s : State) (g : Nat) : Nat := if s.winRefusal g ≠ 0 then s.winRefusal g else if s.winSkewed g then KS.stepSkew else 0

theorem State.winRefusal_le (s : State) (g : Nat) : s.winRefusal g ≤ 4 := by
  unfold State.winRefusal
  extract_lets c is one lr
  split_ifs <;> decide

theorem State.checkStatus_lt (s : State) (g : Nat) : s.checkStatus g < 256 := by
  have h := s.winRefusal_le g
  unfold State.checkStatus
  split_ifs
  · omega
  · decide
  · decide

theorem State.skewCheck_fst (s : State) (g c : Nat) (norm : Bool) (is : List Nat) :
    (s.skewCheck g c norm is).1 = is.any fun i => (s.skewOf g i c norm).isSome := by
  unfold State.skewCheck
  extract_lets bad t
  have hb : bad = is.filterMap fun i => (s.skewOf g i c norm).map fun x => (i, x) := rfl
  have hany : (is.any fun i => (s.skewOf g i c norm).isSome) = !bad.isEmpty := by
    rw [hb]
    clear hb t bad
    induction is with
    | nil => rfl
    | cons i is ih =>
      rw [List.any_cons, List.filterMap_cons]
      cases s.skewOf g i c norm with
      | none => exact ih
      | some x => rfl
  rw [hany]
  clear_value bad
  cases bad with
  | nil => rfl
  | cons x l => rfl

/-- The check writes its status and its state, after what it reports. -/
theorem State.winCheck_eq (s : State) (g : Nat) : ∃ t, s.changes Writes.post t ∧ s.winCheck g
    = (t.setFld (.winStatus g) F.winStatusFailStatus (s.checkStatus g)).setWinState g (if s.checkStatus g = 0 then 2 else 3) := by
  unfold State.winCheck State.checkStatus
  extract_lets c refusal v
  have hv : s.changes Writes.post v := by
    unfold v
    split
    · exact (State.changes_fault ..).after ((State.changes_count ..).after .refl)
    · exact .refl
  by_cases hr : refusal = 0
  · have hvs : v = s := by
      unfold v
      rw [hr]
      rfl
    have hsk := s.skewCheck_fst g c.t c.norm ((List.range c.count).map fun i => c.first + i)
    rw [List.any_map] at hsk
    have hany : (s.skewCheck g c.t c.norm ((List.range c.count).map fun i => c.first + i)).1 = s.winSkewed g := hsk
    have hk : s.changes [.regs, .ctrs] (s.skewCheck g c.t c.norm ((List.range c.count).map fun i => c.first + i)).2 := State.changes_skewCheck ..
    rw [hvs]
    clear_value v
    generalize s.skewCheck g c.t c.norm ((List.range c.count).map fun i => c.first + i) = q at hany hk
    obtain ⟨b, w⟩ := q
    have hb : b = s.winSkewed g := hany
    subst hb
    rw [if_neg (not_not.2 hr), if_neg (not_not.2 hr)]
    exact ⟨w, hk.after .refl, rfl⟩
  · rw [if_pos hr, if_pos hr]
    exact ⟨v, hv, rfl⟩

theorem State.winSt_setWinState (s : State) (g : Nat) {st : Nat} (h : st < 8) : (s.setWinState g st).winSt g = st := by
  rw [State.winSt, State.setWinState, State.fld_setFld_same _ _ _ _ (by decide)]
  exact Nat.mod_eq_of_lt h

theorem State.winCheck_status (s : State) (g : Nat) : (s.winCheck g).winSt g = (if s.checkStatus g = 0 then 2 else 3)
    ∧ (s.winCheck g).fld (.winStatus g) F.winStatusFailStatus = s.checkStatus g := by
  obtain ⟨t, -, ht⟩ := s.winCheck_eq g
  rw [ht]
  refine ⟨State.winSt_setWinState _ _ (by split <;> decide), ?_⟩
  rw [State.setWinState, State.fld_setFld_apart _ _ _ _ _ (by decide), State.fld_setFld_same _ _ _ _ (by decide)]
  exact Nat.mod_eq_of_lt (s.checkStatus_lt g)

theorem State.checkStatus_eq_zero : s.checkStatus g = 0 ↔ ¬ (s.winRefusal g ≠ 0 ∨ s.winSkewed g = true) := by
  unfold State.checkStatus
  by_cases hr : s.winRefusal g = 0
  · rw [if_neg (not_not.2 hr)]
    by_cases hk : s.winSkewed g = true
    · rw [if_pos hk]
      exact ⟨fun h => absurd h (by decide), fun h => absurd (.inr hk) h⟩
    · rw [if_neg hk]
      exact ⟨fun _ h => h.elim (fun h => h hr) hk, fun _ => rfl⟩
  · rw [if_pos hr]
    exact ⟨fun h => absurd h hr, fun h => absurd (.inl hr) h⟩

/-! The rows of LPDDR5X that a pass of norms reads. -/

/-- Every row of LPDDR5X stands, or is put right. -/
def State.corrects (s u : State) : Prop := ∀ k, u.lp k = s.lp k ∨ u.lp k = (s.lp k).fixed

theorem State.corrects.trans (h : s.corrects t) (k : t.corrects u) : s.corrects u := fun key => by
  obtain h | h := h key <;> obtain k | k := k key
  · exact .inl (k.trans h)
  · exact .inr (k.trans (congrArg _ h))
  · exact .inr (k.trans h)
  · exact .inr (by rw [k, h, LpRow.fixed_fixed])

theorem State.changes.corrects {M : List Field} (k : t.changes M u) (h : s.corrects t) (hM : .lpddr ∉ M := by decide) : s.corrects u :=
  h.trans fun key => .inl (State.lp_congr (k.same .lpddr hM) key)

theorem State.corrects_foldl {α : Type} {f : State → α → State} {l : List α} (h : s.corrects u) (hf : ∀ t x, s.corrects t → s.corrects (f t x)) :
    s.corrects (l.foldl f u) := List.foldlRecOn _ _ h fun t ht x _ => hf t x ht

theorem State.corrects.lpMeets (h : s.corrects t) (ls : List LpLoc) : s.corrects (t.lpMeets ls) := by
  unfold State.lpMeets
  refine State.corrects_foldl h fun v l hv => hv.trans fun key => ?_
  unfold State.lpMeet
  split
  · exact .inl rfl
  · exact (v.lp_lpTouch l.key key).imp_right And.right

theorem State.corrects.normGranule {k step : Nat} {r : Layer} (h : s.corrects t) : s.corrects (t.normGranule g p j i k r step) := by
  unfold State.normGranule
  extract_lets ls xs v ws
  split
  · exact (State.changes_winRefused ..).corrects h
  split
  · exact (State.changes_markPoisoned ..).corrects (h.lpMeets ls)
  · exact (State.changes_addPartial ..).corrects (h.lpMeets ls)

theorem State.corrects.passRecord {c : WinCmd} (h : s.corrects t) (hn : c.norm = true) : s.corrects (t.passRecord g c i) := by
  unfold State.passRecord
  extract_lets r p eta mine v
  rw [if_pos hn]
  exact State.corrects_foldl ((State.changes_setFld ..).corrects ((State.changes_setState ..).corrects h)) fun _ _ hv => hv.normGranule

/-- A pass of norms changes no row but by correcting it (R211). -/
theorem State.corrects_winPass (hn : (s.winCmd g).norm = true) : s.corrects (s.winPass g) := by
  unfold State.winPass
  exact (State.changes_settleWin ..).corrects ((State.changes_setWinState ..).corrects (State.corrects_foldl
    ((State.changes_setWinState ..).corrects fun _ => .inl rfl) fun _ _ h => h.passRecord hn))

/-! The steps of the records that a pass updates. -/

/-- The words of the state entries that hold a record's last step, and the tables. -/
def stepAddr (a : Nat) : Prop := a % 32 = 0 ∧ 0x100000 ≤ a % 0x4000000

theorem not_stepAddr_of_passAddr {a : Nat} (h : stepAddr a) : ¬ passAddr a := fun hp => Nat.not_le.2 hp.2.1 h.2

theorem grnBase_mod (g : Nat) : grnBase g % 32 = 0 := by
  unfold grnBase regBase
  omega

theorem not_stepAddr_winState {k : Nat} (hk : 0 < k) (h4 : k < 4) (g i : Nat) : ¬ stepAddr (Reg.winState g i k).addr := fun h => by
  have hm := h.1
  have hb := grnBase_mod g
  rw [winState_offset] at hm
  omega

theorem State.changes.keepsRegs {M : List Field} (k : t.changes M u) (h : s.keepsRegs K t) (hM : .regs ∉ M := by decide) : s.keepsRegs K u :=
  h.trans (State.keepsRegs_of_changes k hM)

theorem State.passes.keepsSteps (h : t.passes u) (k : s.keepsRegs stepAddr t) : s.keepsRegs stepAddr u :=
  k.trans (h.writes.keepsRegs fun _ => not_stepAddr_of_passAddr)

theorem State.keepsSteps_setState {k lo len v : Nat} (h : s.keepsRegs stepAddr t) (hk : 0 < k := by decide) (h4 : k < 4 := by decide) :
    s.keepsRegs stepAddr (t.setState g i k lo len v) := h.trans (State.keepsRegs_wr (not_stepAddr_winState hk h4 g i) _)

theorem State.keepsSteps_winStatus {f : Fld} {v : Nat} (h : s.keepsRegs stepAddr t) : s.keepsRegs stepAddr (t.setFld (.winStatus g) f v) :=
  State.passes.keepsSteps (State.passes.refl.wr (passAddr_winStatus g) _) h

theorem State.passes.publish (h : s.passes t) (g k : Nat) (r : Layer) (tensor : Nat) (vals : List Num) : s.passes (t.publish g k r tensor vals) := by
  unfold State.publish
  extract_lets bs v w
  have hv : s.passes v := (State.changes_writeCodes ..).passes h
  have hw : s.passes w := by
    unfold w
    generalize v.tensorRows tensor (r.n / 1024 + k / 4) 1 = l
    cases l with
    | nil => exact hv
    | cons x l => exact (State.changes_lpWrite ..).passes (hv.lpMeet x)
  exact (State.changes_count ..).passes hw

theorem State.keepsSteps_addPartial {x : Num} (h : s.keepsRegs stepAddr t) : s.keepsRegs stepAddr (t.addPartial g i x) :=
  State.keepsSteps_setState h

theorem State.keepsSteps_updateGranule {k : Nat} {r : Layer} {c : WinCmd} {eta : Num} :
    s.keepsRegs stepAddr (s.updateGranule g p j i k r c eta) := by
  unfold State.updateGranule
  extract_lets lw lm lg ls pub lp lps rows lt s10 hit n live lives rw_ rm rg lr mine s20 s21 all s23 s24 s25 sc ws ms gs b2 decay miss xs os done sq nbad
  have h10 : s.passes s10 := State.passes.refl.lpMeets _
  have h20 : s.passes s20 := (State.changes_count ..).passes ((State.changes_count ..).passes h10)
  have h21 : s.passes s21 := .ite ((State.changes_count ..).passes h20) h10
  have h23 : s.passes s23 := h21.lpMeets _
  have h24 : s.passes s24 :=
    (State.changes_poisonRows ..).passes ((State.changes_poisonRows ..).passes ((State.changes_poisonRows ..).passes h23))
  refine State.keepsRegs_ite ((State.passes.refl.winRefused ..).keepsSteps .refl) ?_
  refine State.keepsRegs_ite (h21.keepsSteps .refl) ?_
  refine State.keepsRegs_ite ((h21.winRefused ..).keepsSteps .refl) ?_
  refine State.keepsRegs_ite ?_ ?_
  · exact (State.changes_markPoisoned ..).keepsRegs ((State.changes_count ..).keepsRegs
      (State.keepsSteps_setState (h24.keepsSteps .refl)))
  split
  next dw v1 hv1 =>
  split
  next dm v2 hv2 =>
  have h2 : s.passes v2 := (State.changes_snd hv2 (State.changes_winRoundings ..)).passes
    ((State.changes_snd hv1 (State.changes_winRoundings ..)).passes h23)
  extract_lets wn
  split
  next sc' mn _ =>
  extract_lets s39 s40 s41 s42 was s44 s45 s46
  have h39 : s.passes s39 := (State.changes_writeCodes ..).passes ((State.changes_writeCodes ..).passes h2)
  have h40 : s.passes s40 := by
    unfold s40
    generalize ls = l
    cases l with
    | nil => exact h39
    | cons x l => exact (State.changes_setRowBits ..).passes h39
  have h41 : s.passes s41 := by
    unfold s41
    generalize pub = x
    cases x with
    | none => exact h40
    | some x => exact h40.publish ..
  have h42 : s.keepsRegs stepAddr s42 := State.keepsSteps_addPartial (h41.keepsSteps .refl)
  have h44 : s.keepsRegs stepAddr s44 := (State.changes_count ..).keepsRegs (State.keepsSteps_setState h42)
  have h45 : s.keepsRegs stepAddr s45 :=
    State.keepsRegs_ite h42 (State.keepsRegs_ite ((State.passes.refl.fault ..).keepsSteps h44) h44)
  have h46 : s.keepsRegs stepAddr s46 := (State.changes_count ..).keepsRegs ((State.changes_count ..).keepsRegs h45)
  exact (State.passes.refl.sendTithe ..).keepsSteps h46

theorem stepAddr_winState (hi : i < 4096) (g : Nat) : stepAddr (Reg.winState g i 0).addr := by
  have hm := granaryOffset_mod g (o := 0x480000 + 32 * i + 8 * 0) (by omega)
  have hb := grnBase_mod g
  rw [winState_offset]
  refine ⟨by omega, ?_⟩
  rw [hm]
  omega

/-- Before it leaves its step, an update of a record keeps the last steps of all records. -/
theorem State.passRecord_update {c : WinCmd} (hn : c.norm = false) (s : State) (g i : Nat) :
    ∃ v, s.keepsRegs stepAddr v ∧ s.passRecord g c i = v.setState g i 0 0 48 c.t := by
  unfold State.passRecord
  extract_lets r p eta mine t1 t2 t3
  rw [if_neg (by rw [hn]; decide)]
  have h1 : s.keepsRegs stepAddr t1 := State.keepsSteps_winStatus (State.keepsSteps_setState .refl)
  have h2 : s.keepsRegs stepAddr t2 := State.keepsSteps_setState (State.keepsSteps_setState h1)
  refine ⟨t3, ?_, rfl⟩
  exact State.keepsRegs_foldl (fun k _ v hv => State.keepsSteps_winStatus (hv.trans State.keepsSteps_updateGranule)) h2

theorem State.lastStep_passRecord {c : WinCmd} (hn : c.norm = false) (hc : c.t < 2 ^ 48) (s : State) (g i : Nat) :
    (s.passRecord g c i).lastStep g i = c.t ∧ ∀ k < 4096, k ≠ i → i < 4096 → (s.passRecord g c i).lastStep g k = s.lastStep g k := by
  obtain ⟨v, hv, hrun⟩ := State.passRecord_update hn s g i
  rw [hrun]
  refine ⟨?_, fun k hk hne hi => ?_⟩
  · rw [State.lastStep, State.setState, State.rd_wr_same, bits_setBits_same _ _ _ _ (by decide)]
    exact Nat.mod_eq_of_lt hc
  · have haddr : (Reg.winState g k 0).addr ≠ (Reg.winState g i 0).addr := by
      rw [winState_offset, winState_offset]
      omega
    rw [State.lastStep, State.setState, State.rd_wr_ne _ _ haddr, hv _ (stepAddr_winState hk g), State.lastStep]

/-- A released update leaves its step in every record that it names. -/
theorem State.lastStep_winPass (hn : (s.winCmd g).norm = false) (hle : (s.winCmd g).first + (s.winCmd g).count ≤ 4096) (hi : i < (s.winCmd g).count) :
    (s.winPass g).lastStep g ((s.winCmd g).first + i) = (s.winCmd g).t := by
  unfold State.winPass
  extract_lets c v
  have hc : c.t < 2 ^ 48 := bits_lt ..
  have hfold : ∀ n, c.first + n ≤ 4096 → ∀ t : State, ∀ k < n,
      ((List.range n).foldl (fun (s : State) i => s.passRecord g c (c.first + i)) t).lastStep g (c.first + k) = c.t := by
    intro n
    induction n with
    | zero => exact fun _ _ k hk => absurd hk (Nat.not_lt_zero k)
    | succ n ih =>
      intro hle t k hk
      rw [List.range_succ, List.foldl_append, List.foldl_cons, List.foldl_nil]
      obtain ⟨hsame, hother⟩ := State.lastStep_passRecord hn hc
        ((List.range n).foldl (fun (s : State) i => s.passRecord g c (c.first + i)) t) g (c.first + n)
      obtain hkn | rfl := Nat.lt_succ_iff_lt_or_eq.1 hk
      · rw [hother _ (by omega) (by omega) (by omega), ih (by omega) t k hkn]
      · exact hsame
  have hk : v.keepsRegs stepAddr ((v.setWinState g 4).settleWin g) := by
    unfold State.settleWin State.setWinState
    exact State.keepsRegs_ite (State.keepsSteps_winStatus (State.keepsSteps_winStatus .refl)) (State.keepsSteps_winStatus .refl)
  have hlt : c.first + i < 4096 := by
    have h1 : c.first + c.count ≤ 4096 := hle
    have h2 : i < c.count := hi
    omega
  rw [State.lastStep, hk _ (stepAddr_winState hlt g)]
  exact hfold c.count hle _ i hi

theorem State.winSt_winPass (s : State) (g : Nat) : (s.winPass g).winSt g = 4 ∨ (s.winPass g).winSt g = 5 := by
  unfold State.winPass
  extract_lets c v
  have hset := v.winSt_setWinState g (st := 4) (by decide)
  unfold State.settleWin
  split
  · exact .inr (State.winSt_setWinState (v.setWinState g 4) g (st := 5) (by decide))
  · exact .inl hset

/-! A withheld command. -/

theorem State.winSt_congr (h : s.keepsRegs (fun a => ¬ mgtAddr a) u) (hg : g < 24) : u.winSt g = s.winSt g :=
  h.fld (r := .winStatus g) (Nat.not_le.2 (granary_below_mgt hg (o := 0x548) (by decide))) _

/-- What follows a withheld command leaves the winnowers as they are. -/
theorem State.keepsRegs_withheld (s : State) (w : WinRun) : s.keepsRegs (fun a => ¬ mgtAddr a) (s.withheld w) := by
  unfold State.withheld
  extract_lets st v v'
  have hv : s.writesAt mgtAddr v := .same rfl
  split
  · exact (State.changes_endStep ..).keepsRegs ((State.writesAt_post (mgtAddr_mbxRegs 63) hv ..).keepsRegs fun _ => id)
  · exact (State.writesAt_complete? hv ..).keepsRegs fun _ => id
  · exact (State.changes_askSeals ..).keepsRegs (State.keepsRegs_of_regs rfl)

end Sys2Proof.Machine
end

section
/-! The end of a run of the winnowers (R283, R289), and their rows. -/

-- The frame conditions are evaluated in the kernel: theorems elaborated in parallel would each hold a thread while they wait for it.
set_option Elab.async false

namespace Sys2Proof.Machine

variable {s t u : State} {w : WinRun} {g p j i : Nat}

/-! The next run. -/

/-- The command of a run's head (Table 12-2). -/
def State.runHead (s : State) (w : WinRun) (first n : Nat) : WinCmd :=
  ⟨!decide (w.kind = .update), decide (w.kind = .update) && (s.job w.part w.job).cfg.publish,
    if decide (w.kind = .update) then (s.job w.part w.job).pubSel else 0, w.job, first, n, w.step,
    if decide (w.kind = .update) then (s.job w.part w.job).clip else 0x3F800000, if decide (w.kind = .update) then (s.job w.part w.job).lr else 0,
    if decide (w.kind = .update) then (s.job w.part w.job).cfg.b1 else 0, if decide (w.kind = .update) then (s.job w.part w.job).cfg.b2 else 0⟩

/-- A command is written into a granary, whose winnower waits for GO again where it withheld the last one. -/
def State.cmdPut (s : State) (ws : List Nat) (g : Nat) : State :=
  let t := (List.range 8).foldl (fun (s : State) k => s.wr (.winCmd g k) (BitVec.ofNat 64 (ws.getD k 0))) s
  if t.winSt g = 6 then t.setWinState g 0 else t

theorem State.postRun_cons {first n : Nat} {rs : List (Nat × Nat)} (h : w.runs = (first, n) :: rs) : s.postRun w
    = { s.granaries.foldl (fun (s' : State) g => s'.cmdPut (s.runHead w first n).words g) s with win := some { w with posted := true, asked := [] } } := by
  unfold State.postRun State.cmdPut
  simp only [h]
  rfl

theorem winCmd_ne {h k : Nat} (_ : g < 24) (_ : h < 24) (hk : k < 8) (hne : g ≠ h ∨ k ≠ 0) : (Reg.winCmd g 0).addr ≠ (Reg.winCmd h k).addr := by
  show grnBase g + (0x500 + 8 * 0) ≠ grnBase h + (0x500 + 8 * k)
  unfold grnBase regBase
  omega

theorem winCmd_ne_winStatus {h : Nat} (_ : g < 24) (_ : h < 24) : (Reg.winCmd g 0).addr ≠ (Reg.winStatus h).addr := by
  show grnBase g + (0x500 + 8 * 0) ≠ grnBase h + 0x548
  unfold grnBase regBase
  omega

/-- The first word of a granary's command, as a command is put into a granary. -/
theorem State.rd_cmdPut {h : Nat} (hg : g < 24) (hh : h < 24) (s : State) (ws : List Nat) :
    (s.cmdPut ws h).rd (.winCmd g 0) = if g = h then BitVec.ofNat 64 (ws.getD 0 0) else s.rd (.winCmd g 0) := by
  have hrest : ∀ t : State, ((List.range' 1 7).foldl (fun (s : State) k => s.wr (.winCmd h k) (BitVec.ofNat 64 (ws.getD k 0))) t).rd (.winCmd g 0)
      = t.rd (.winCmd g 0) := fun t =>
    List.foldlRecOn _ _ (motive := fun v : State => v.rd (.winCmd g 0) = t.rd (.winCmd g 0)) rfl fun v hv k hk => by
      have hk := List.mem_range'_1.1 hk
      rw [State.rd_wr_ne _ _ (winCmd_ne hg hh (by omega) (.inr (by omega))), hv]
  have hall : ((List.range 8).foldl (fun (s : State) k => s.wr (.winCmd h k) (BitVec.ofNat 64 (ws.getD k 0))) s).rd (.winCmd g 0)
      = if g = h then BitVec.ofNat 64 (ws.getD 0 0) else s.rd (.winCmd g 0) := by
    rw [show List.range 8 = 0 :: List.range' 1 7 from rfl, List.foldl_cons, hrest]
    by_cases hgh : g = h
    · rw [if_pos hgh, hgh, State.rd_wr_same]
    · rw [if_neg hgh, State.rd_wr_ne _ _ (winCmd_ne hg hh (by decide) (.inl hgh))]
  unfold State.cmdPut
  extract_lets t
  split
  · rw [State.setWinState, State.rd_setFld_ne _ _ _ (winCmd_ne_winStatus hg hh)]
    exact hall
  · exact hall

theorem State.rd_cmdPuts (ws : List Nat) (hg : g < 24) (l : List Nat) (hl : ∀ h ∈ l, h < 24) (s : State) :
    (l.foldl (fun (s : State) g => s.cmdPut ws g) s).rd (.winCmd g 0) = if g ∈ l then BitVec.ofNat 64 (ws.getD 0 0) else s.rd (.winCmd g 0) := by
  induction l generalizing s with
  | nil => rfl
  | cons h l ih =>
    rw [List.foldl_cons, ih (fun x hx => hl x (List.mem_cons_of_mem _ hx)), State.rd_cmdPut hg (hl h List.mem_cons_self)]
    by_cases hgl : g ∈ l
    · rw [if_pos hgl, if_pos (List.mem_cons_of_mem _ hgl)]
    · rw [if_neg hgl]
      by_cases hgh : g = h
      · rw [if_pos hgh, if_pos (hgh ▸ List.mem_cons_self)]
      · rw [if_neg hgh, if_neg (by simp [hgh, hgl])]

/-- The first word of a command names its job and its records. -/
theorem WinCmd.word_zero (c : WinCmd) (hf : c.first < 4096) (hc : c.count ≤ 4096) (hj : c.job < 16) :
    bits (BitVec.ofNat 64 (c.words.getD 0 0)) 8 12 = c.first ∧ bits (BitVec.ofNat 64 (c.words.getD 0 0)) 20 13 = c.count
      ∧ bits (BitVec.ofNat 64 (c.words.getD 0 0)) 4 4 = c.job := by
  have hw : c.words.getD 0 0 = packBits [(2, b2n c.norm), (1, b2n c.publish), (1, c.pubSel), (4, c.job), (12, c.first), (13, c.count)] := rfl
  rw [hw, bits_ofNat _ _ _ (by decide), bits_ofNat _ _ _ (by decide), bits_ofNat _ _ _ (by decide)]
  simp only [packBits]
  omega

theorem State.winCmd_postRun {first n : Nat} {rs : List (Nat × Nat)} (h : w.runs = (first, n) :: rs) (hf : first < 4096) (hn : n ≤ 4096)
    (hj : w.job < 16) (hg : g ∈ s.granaries) :
    ((s.postRun w).winCmd g).first = first ∧ ((s.postRun w).winCmd g).count = n ∧ ((s.postRun w).winCmd g).job = w.job := by
  obtain ⟨c, hc⟩ : ∃ c, c = s.runHead w first n := ⟨_, rfl⟩
  have hrd : (s.postRun w).rd (.winCmd g 0) = BitVec.ofNat 64 (c.words.getD 0 0) := by
    have hputs := State.rd_cmdPuts c.words (mem_granaries hg) s.granaries (fun _ => mem_granaries) s
    rw [if_pos hg] at hputs
    rw [State.postRun_cons h, ← hc]
    exact hputs
  obtain ⟨h1, h2, h3⟩ := c.word_zero (by rw [hc]; exact hf) (by rw [hc]; exact hn) (by rw [hc]; exact hj)
  rw [← hrd] at h1 h2 h3
  refine ⟨h1.trans (by rw [hc]; rfl), h2.trans (by rw [hc]; rfl), h3.trans (by rw [hc]; rfl)⟩

/-! What the tables say of the records after a pass. -/

theorem grnRegAt_noLayer_low (g : Nat) {o : Nat} (ho : o < 0x100000) : (grnRegAt g o).all Reg.noLayer = true := by
  have h1 : ¬ (0x100000 ≤ o ∧ o < 0x300000 ∧ o % 8 = 0) := by omega
  have h2 : ¬ (0x400000 ≤ o ∧ o < 0x440000 ∧ o % 8 = 0) := by omega
  have h3 : ¬ (0x480000 ≤ o ∧ o < 0x4A0000 ∧ o % 8 = 0) := by omega
  rw [grnRegAt, if_neg h1, if_neg h2, if_neg h3]
  simp [apply_ite (Option.all Reg.noLayer), Reg.noLayer, mbxRegAt_noLayer]

theorem layerNo_of_passAddr {a : Nat} (h : passAddr a) (g : Nat) : (Reg.ofAddr a).bind (layerNo g) = none := by
  refine layerNo_of_noLayer ?_
  unfold Reg.ofAddr
  split
  · rfl
  dsimp only
  split
  · simp [apply_ite (Option.all Reg.noLayer), mbxRegAt_noLayer, clRegAt_noLayer, coreRegAt_noLayer]
  · split
    · rfl
    · exact grnRegAt_noLayer_low _ h.2.1
  · simp [apply_ite (Option.all Reg.noLayer), gateRegAt_noLayer]
  · simp [apply_ite (Option.all Reg.noLayer), mgtRegAt_noLayer]
  · rfl

theorem State.passes.sameTables (h : s.passes u) (hs : u.shadow = s.shadow) : s.sameTables u := by
  refine ⟨h.shape, hs, fun r g hg k hk hlo hr => ?_, fun g => h.writes.filterMap fun _ ha => layerNo_of_passAddr ha g⟩
  refine h.writes.keepsRegs (K := fun a => a = r.addr) (fun a ha hp => ?_) r rfl
  have hmod := granaryOffset_mod g (o := k) (by omega)
  rw [ha, hr] at hp
  have := hp.2.1
  omega

theorem State.passes.frozenW (h : s.passes u) (hp : p < 12) (hj : (u.job p j).frozen = (s.job p j).frozen) (hj16 : j < 16) (x : Nat) :
    u.frozenW p j x = s.frozenW p j x := by
  refine State.frozenW_congr h.shape (h.writes.keepsRegs ?_) (h.writes.keepsRegs ?_) hj x
  · rintro _ rfl ⟨-, -, ha⟩
    have hm : (Reg.mgtPart p).addr = mgtBase + (0x2000 + 0x10 * p) := rfl
    unfold mgtBase regBase at hm
    omega
  · rintro _ ⟨cl, hcl, rfl⟩ ⟨ha, -, -⟩
    have hm : (Reg.dspJob cl j).addr = clBase cl + (0x400 + 0x20 * j) := rfl
    unfold clBase regBase at hm
    unfold grnBase regBase at ha
    omega

/-- Records of which nothing that an update reads has changed: the tables, and what of the job is frozen. -/
structure State.sameRecords (s u : State) (p j : Nat) : Prop where
  passes : s.passes u
  shadow : u.shadow = s.shadow
  frozen : (u.job p j).frozen = (s.job p j).frozen

theorem State.sameRecords.refl : s.sameRecords s p j := ⟨.refl, rfl, rfl⟩

theorem State.sameRecords.updated (h : s.sameRecords u p j) (hp : p < 12) (hj : j < 16) : u.updated p j = s.updated p j :=
  (h.passes.sameTables h.shadow).updated (h.passes.frozenW hp h.frozen hj)

theorem State.changes.sameRecords {M : List Field} (k : t.changes M u) (h : s.sameRecords t p j) (hr : .regs ∉ M := by decide)
    (hs : .shape ∉ M := by decide) (hd : .shadow ∉ M := by decide) (hj : .jobs ∉ M := by decide) : s.sameRecords u p j :=
  ⟨k.passes h.passes hr hs, (k.same .shadow hd).trans h.shadow, by rw [State.job_congr (k.same .jobs hj), h.frozen]⟩

theorem State.sameRecords.setTrows (h : s.sameRecords t p j) (r : Layer) (step : Nat) : s.sameRecords (t.setTrows r step) p j := by
  have hk : t.changes Writes.setTrows (t.setTrows r step) := State.changes_setTrows ..
  refine ⟨?_, (hk.same .shadow).trans h.shadow, by rw [State.job_congr (hk.same .jobs), h.frozen]⟩
  unfold State.setTrows
  extract_lets hit q
  refine h.passes.foldl fun v x hv => ?_
  extract_lets ls
  refine .ite (hv.winRefused ..) ((hv.lpMeets ls).foldl fun v' y hv' => ?_)
  cases ls with
  | nil => exact hv'
  | cons l ls => exact (State.changes_setRowBits ..).passes hv'

theorem State.sameRecords.startNorms (h : s.sameRecords t w.part w.job) (is : List Nat) (full : Bool) :
    s.sameRecords (t.startNorms w is full) w.part w.job := by
  unfold State.startNorms
  refine List.foldlRecOn _ _ (motive := fun v : State => s.sameRecords v w.part w.job) h fun v hv i _ => ?_
  extract_lets b k n v'
  have hv' : s.sameRecords v' w.part w.job := by
    have hk : v.changes [.jobs] v' := State.changes_setJob ..
    refine ⟨hk.passes hv.passes, (hk.same .shadow).trans hv.shadow, ?_⟩
    rw [show v'.job w.part w.job = _ from State.job_setJob_same ..]
    exact hv.frozen
  split
  · exact hv'
  · have hk : v'.changes Writes.go (v'.sendPackets w.part w.job b.cfg [b.cfg.root] (some i) k) := State.changes_sendPackets ..
    exact ⟨hv'.passes.sendPackets .., (hk.same .shadow).trans hv'.shadow, by rw [State.job_congr (hk.same .jobs), hv'.frozen]⟩

/-! The seals that a run ends with. -/

theorem State.askSeal_keeps {q : SealWait} (h : q ∈ s.seals) (x : Nat) : q ∈ (s.askSeal x).seals := by
  unfold State.askSeal
  split
  · exact List.mem_append_left _ h
  · exact h

theorem State.askSeal_asks {x : Nat} (h : (s.tt x).cls = 2) : ∃ q ∈ (s.askSeal x).seals, q.tensor = x := by
  unfold State.askSeal
  by_cases hs : (s.seals.any fun w => w.tensor == x) = true
  · obtain ⟨q, hq, hx⟩ := List.any_eq_true.1 hs
    rw [if_neg (by simp [hs])]
    exact ⟨q, hq, by simpa using hx⟩
  · rw [if_pos (by rw [decide_eq_true h, Bool.true_and]; simpa using hs)]
    exact ⟨_, List.mem_append_right _ List.mem_cons_self, rfl⟩

/-- What is asked of one record. -/
def State.askRecord (s : State) (publish : Bool) (sel i : Nat) : State :=
  let r := s.layer i
  let s := s.askSeal r.w
  if r.pub && publish then s.askSeal (pubOf r sel) else s

theorem State.changes_askRecord (publish : Bool) (sel i : Nat) : s.changes [.seals] (s.askRecord publish sel i) := by
  unfold State.askRecord
  exact State.changes_ite ((State.changes_askSeal ..).after (State.changes_askSeal ..)) (State.changes_askSeal ..)

theorem State.askRecord_asks {publish : Bool} {sel : Nat} (h : (s.tt (s.layer i).w).cls = 2) :
    ∃ q ∈ (s.askRecord publish sel i).seals, q.tensor = (s.layer i).w := by
  obtain ⟨q, hq, hx⟩ := State.askSeal_asks h
  unfold State.askRecord
  extract_lets r t
  split
  · exact ⟨q, State.askSeal_keeps hq _, hx⟩
  · exact ⟨q, hq, hx⟩

theorem State.askRecords_asks (publish : Bool) (sel : Nat) (is : List Nat) (s : State) :
    (∀ q ∈ s.seals, q ∈ (is.foldl (fun (s : State) i => s.askRecord publish sel i) s).seals)
      ∧ ∀ i ∈ is, (s.tt (s.layer i).w).cls = 2 → ∃ q ∈ (is.foldl (fun (s : State) i => s.askRecord publish sel i) s).seals, q.tensor = (s.layer i).w := by
  induction is generalizing s with
  | nil => exact ⟨fun _ => id, fun i hi => absurd hi List.not_mem_nil⟩
  | cons a is ih =>
    obtain ⟨hkeep, hask⟩ := ih (s.askRecord publish sel a)
    have hk : s.changes [.seals] (s.askRecord publish sel a) := State.changes_askRecord ..
    have hsees : (∀ i, (s.askRecord publish sel a).layer i = s.layer i) ∧ ∀ x, (s.askRecord publish sel a).tt x = s.tt x := by
      have hr := hk.same .regs
      have hg := State.homeGran_congr (hk.same .shape)
      exact ⟨fun i => by simp only [State.layer, State.layerAt, hg, State.rd_congr hr], fun x => by simp only [State.tt, State.ttAt, hg, State.rd_congr hr]⟩
    rw [List.foldl_cons]
    refine ⟨fun q hq => hkeep q ?_, fun i hi h2 => ?_⟩
    · unfold State.askRecord
      extract_lets r t
      split
      · exact State.askSeal_keeps (State.askSeal_keeps hq _) _
      · exact State.askSeal_keeps hq _
    · obtain rfl | hi := List.mem_cons.1 hi
      · obtain ⟨q, hq, hx⟩ := State.askRecord_asks (publish := publish) (sel := sel) h2
        exact ⟨q, hkeep q hq, hx⟩
      · obtain ⟨q, hq, hx⟩ := hask i hi (by rw [hsees.1, hsees.2]; exact h2)
        exact ⟨q, hq, hx.trans (by rw [hsees.1])⟩

/-- The seals of the weights that a run has updated are asked for. -/
theorem State.askSeals_asks (hk : w.kind ≠ .restore) (h : i ∈ s.updated w.part w.job) (h2 : (s.tt (s.layer i).w).cls = 2) :
    ∃ q ∈ (s.askSeals w).seals, q.tensor = (s.layer i).w := by
  have hrun : s.askSeals w = (s.updated w.part w.job).foldl
      (fun (t : State) i => t.askRecord ((s.job w.part w.job).cfg.publish && decide (w.kind ≠ .restore)) (s.job w.part w.job).pubSel i) s := by
    unfold State.askSeals State.askRecord
    simp only [if_neg hk, Bool.and_assoc]
  rw [hrun]
  exact (State.askRecords_asks _ _ _ s).2 i h h2

/-- The same of a state in which the records are the same. -/
theorem State.sameRecords.askSeals_asks (hr : s.sameRecords t w.part w.job) (hp : w.part < 12) (hj : w.job < 16) (hk : w.kind ≠ .restore)
    (h : i ∈ s.updated w.part w.job) (h2 : (s.tt (s.layer i).w).cls = 2) : ∃ q ∈ (t.askSeals w).seals, q.tensor = (s.layer i).w := by
  have htab := hr.passes.sameTables hr.shadow
  have hlayer := htab.layer (State.lt_of_mem_layersOf (List.mem_of_mem_filter h))
  have hw : (s.layer i).w < 32768 := bits_lt ..
  obtain ⟨q, hq, hx⟩ := State.askSeals_asks (s := t) hk (by rw [hr.updated hp hj]; exact h) (by rw [hlayer, htab.tt hw]; exact h2)
  exact ⟨q, hq, hx.trans (by rw [hlayer])⟩

theorem runsOf_ne_nil {l : List Nat} (h : l ≠ []) : runsOf l ≠ [] := by
  cases l with
  | nil => exact absurd rfl h
  | cons x l =>
    rw [runsOf]
    split
    · split <;> exact List.cons_ne_nil _ _
    · exact List.cons_ne_nil _ _

/-! What follows the last run. -/

/-- The lazy records that the update names. -/
def State.lazies (s : State) (p j : Nat) : List Nat := (s.updated p j).filter fun i => (s.layer i).lazy_

/-- The last run of an update that ends without lazy norms, or of the lazy norms: the norms start, and the seals are asked for. -/
theorem State.afterRuns_seals (hk : w.kind = .update ∨ w.kind = .lazyNorm)
    (ha : ¬ (w.kind = .update ∧ s.lazies w.part w.job ≠ [] ∧ w.step % 1024 = 0)) :
    ∃ t is full, s.sameRecords t w.part w.job ∧ (w.kind ≠ .update ∨ s.lazies w.part w.job = [] → t = s)
      ∧ s.afterRuns w = ({ t.startNorms w is full with win := some { w with runs := [], posted := false, asked := [] } } : State).askSeals
          { w with runs := [], posted := false, asked := [] } := by
  obtain ⟨l, hl⟩ : ∃ l, l = s.lazies w.part w.job := ⟨_, rfl⟩
  obtain hk | hk := hk
  · refine ⟨l.foldl (fun (s : State) i => s.setTrows (s.layer i) w.step) s, s.updated w.part w.job, false, ?_, fun h => ?_, ?_⟩
    · exact List.foldlRecOn _ _ (motive := fun v : State => s.sameRecords v w.part w.job) .refl fun v hv i _ => hv.setTrows ..
    · have hnil : l = [] := hl.trans (h.resolve_left (not_not.2 hk))
      rw [hnil, List.foldl_nil]
    · have hno : ¬ (w.step % 1024 = 0 ∧ l.isEmpty = false) := fun ⟨h1, h2⟩ => ha ⟨hk, by rw [← hl]; simpa using h2, h1⟩
      rw [hl] at hno ⊢
      unfold State.afterRuns
      simp only [hk]
      exact if_neg hno
  · refine ⟨s, l, true, .refl, fun _ => rfl, ?_⟩
    rw [hl]
    unfold State.afterRuns
    simp only [hk]
    rfl

/-- The last run of an update in a step of lazy norms. -/
theorem State.afterRuns_again (hk : w.kind = .update) (hl : s.lazies w.part w.job ≠ []) (hs : w.step % 1024 = 0) : ∃ t : State, s.afterRuns w
    = t.postRun { w with runs := runsOf (s.lazies w.part w.job), posted := false, asked := [], kind := .lazyNorm } := by
  unfold State.afterRuns
  simp only [hk]
  exact ⟨_, if_pos ⟨hs, by simpa [State.lazies] using hl⟩⟩

theorem State.win_postRun (h : w.runs ≠ []) : (s.postRun w).win = some { w with posted := true, asked := [] } := by
  obtain ⟨⟨first, n⟩, rs, hr⟩ := List.exists_cons_of_ne_nil h
  rw [State.postRun_cons hr]

theorem exec_winPassDone (hw : s.win = some w) (hp : w.part < 12) (hj : w.job < 16) (hpo : w.posted = true) (ha : s.allAsked = true)
    (hc : s.jobCopies w.part w.job = false) (hd : ∀ h ∈ s.granaries, s.winSt h = 5) :
    exec (.winPassDone w.part w.job) s = .next (match w.runs with
      | _ :: r :: rs => s.postRun { w with runs := r :: rs }
      | _ => s.afterRuns w) := by
  have hall : (s.granaries.all fun g => s.winSt g == 5) = true := List.all_eq_true.2 fun g hg => beq_iff_eq.2 (hd g hg)
  show execWinPassDone w.part w.job s = _
  rw [execWinPassDone, unitOk, if_pos (decide_eq_true ⟨hp, hj⟩), hw]
  exact if_pos (by simp [hpo, ha, hc, hall])

/-- The last run of a restore starts its norms. -/
theorem State.afterRuns_restore (hk : w.kind = .restore) : s.afterRuns w
    = { s.startNorms w (s.layersOf w.part w.job) true with win := some { w with runs := [], posted := false, asked := [] } } := by
  unfold State.afterRuns
  simp only [hk]

theorem granary_serves (hg : g < 24) (hd : g ∉ s.shape.deadGran) (r : Res) :
    unitOk (decide (g < 24 ∧ s.shape.deadGran.contains g = false)) r = r := by
  rw [unitOk, if_pos (decide_eq_true ⟨hg, by simpa using hd⟩)]

/-- The winnower's answer is marked in the command in force. -/
def State.markAnswer (s : State) (g : Nat) : State :=
  match s.win with
  | some w => if w.posted then { s with win := some { w with asked := dedup (w.asked ++ [g]) } } else s
  | none => s

theorem State.changes_markAnswer (s : State) (g : Nat) : s.changes [.win] (s.markAnswer g) := by
  unfold State.markAnswer
  split
  · exact State.changes_ite (State.changes_set_win ..) .refl
  · exact .refl

theorem exec_winGo_checks (hg : g < 24) (hd : g ∉ s.shape.deadGran) (h : s.winSt g = 0 ∨ s.winSt g = 5) :
    exec (.winGo g) s = .next ((s.winCheck g).markAnswer g) := by
  have hno : ¬ (s.winSt g ≠ 0 ∧ s.winSt g ≠ 5) := by omega
  show execWinGo g s = _
  rw [execWinGo, granary_serves hg hd, if_neg hno]
  generalize s.winCheck g = c
  rfl

theorem exec_winGo_busy (hg : g < 24) (hd : g ∉ s.shape.deadGran) (h : s.winSt g ≠ 0 ∧ s.winSt g ≠ 5) :
    (s.win = none → exec (.winGo g) s = .next s) ∧ ∀ w, s.win = some w → exec (.winGo g) s = .next (s.stepEvent w.part w.job KS.busy 0 0 0) := by
  refine ⟨fun hw => ?_, fun w hw => ?_⟩
  · show execWinGo g s = _
    rw [execWinGo, granary_serves hg hd, if_pos h, hw]
  · show execWinGo g s = _
    rw [execWinGo, granary_serves hg hd, if_pos h, hw]

end Sys2Proof.Machine

open Sys2Proof Sys2Proof.Machine

/-- Settles O48: a check by what it writes, a pass by what stands of the registers and rows that it meets, and the end of a run by what it asks for. -/
theorem winnowerRows : Obligations.WinnowerRows := by
  unfold Obligations.WinnowerRows
  refine fun s => ⟨fun g hg hd => ?_, fun w hw hp hj hpo ha hc hdone => ?_⟩
  · intro c skew
    have hskew : skew = s.winSkewed g := rfl
    have hc : c = s.winCmd g := rfl
    clear_value skew c
    subst hskew hc
    refine ⟨fun h0 h5 => ?_, fun h => ?_, fun h2 ha hj hall => ?_, fun h ha hex _ => ?_⟩
    · obtain ⟨hnone, hsome⟩ := exec_winGo_busy hg hd ⟨h0, h5⟩
      refine ⟨hnone, fun w hw => ⟨hsome w hw, ?_, ?_⟩⟩
      · exact (State.changes_stepEvent ..).same .win
      · exact State.winSt_congr ((State.writesAt_post (mgtAddr_mbxRegs 63) (.same rfl) ..).keepsRegs fun _ => id) hg
    · obtain ⟨hst, hfail⟩ := s.winCheck_status g
      have hk : s.changes Writes.post (s.winCheck g) := State.changes_winCheck ..
      have hm : (s.winCheck g).changes [.win] ((s.winCheck g).markAnswer g) := State.changes_markAnswer ..
      have hregs := hm.same .regs
      refine ⟨_, exec_winGo_checks hg hd h, (hm.same .rows).trans (hk.same .rows), (hm.same .lpddr).trans (hk.same .lpddr), ?_, ?_⟩
      · rw [State.winSt, State.fld_congr (State.rd_congr hregs _), ← State.winSt, hst]
        by_cases hz : s.checkStatus g = 0
        · rw [if_pos hz, if_neg (State.checkStatus_eq_zero.1 hz)]
        · rw [if_neg hz, if_pos (not_not.1 (mt State.checkStatus_eq_zero.2 hz))]
      · rw [State.fld_congr (State.rd_congr hregs _), hfail, State.checkStatus]
    · have hall' : (s.granaries.all fun h => s.winSt h == 2 || s.winSt h == 4 || s.winSt h == 5) = true :=
        List.all_eq_true.2 fun h hh => by simpa [or_assoc] using hall h hh
      refine ⟨s.winPass g, ?_, s.winSt_winPass g, (State.changes_winPass ..).same .rows, fun hn => State.corrects_winPass hn,
        fun hn hle i hi => State.lastStep_winPass hn hle hi⟩
      show execWinRelease g s = _
      rw [execWinRelease, granary_serves hg hd]
      exact if_pos (by rw [h2, ha, hj, hall']; rfl)
    · obtain ⟨t, ht⟩ : ∃ t, t = s.setWinState g 6 := ⟨_, rfl⟩
      have hany : (s.granaries.any fun h => s.winSt h == 3 || s.winSt h == 6) = true := by
        obtain ⟨x, hx, h6⟩ := hex
        exact List.any_eq_true.2 ⟨x, hx, by simpa using h6⟩
      have hkt : s.changes [.regs] t := ht ▸ State.changes_setWinState ..
      have h6 : t.winSt g = 6 := by rw [ht, State.winSt_setWinState _ _ (by decide)]
      have hrun : exec (.winWithhold g) s = .next (match t.win with
          | some w => if w.posted && t.granaries.all fun h => t.winSt h == 6 then t.withheld w else t
          | none => t) := by
        rw [ht]
        show execWinWithhold g s = _
        rw [execWinWithhold, granary_serves hg hd]
        exact if_pos (by rw [ha, hany, Bool.and_true, Bool.and_true]; simpa using h)
      refine ⟨_, hrun, ?_⟩
      cases t.win with
      | none => exact ⟨h6, hkt.same .rows, hkt.same .lpddr⟩
      | some w =>
        dsimp only
        split
        · have hk : t.changes Writes.settleRun (t.withheld w) := State.changes_withheld ..
          exact ⟨(State.winSt_congr (t.keepsRegs_withheld w) hg).trans h6, (hk.same .rows).trans (hkt.same .rows), (hk.same .lpddr).trans (hkt.same .lpddr)⟩
        · exact ⟨h6, hkt.same .rows, hkt.same .lpddr⟩
  · have hrun := exec_winPassDone hw hp hj hpo ha hc hdone
    refine ⟨fun x r rs hr => ?_, fun x hr => ⟨fun hk => ?_, fun hk => ?_⟩⟩
    · rw [hr] at hrun
      have hk : s.changes [.regs, .win] (s.postRun { w with runs := r :: rs }) := State.changes_postRun ..
      refine ⟨_, hrun, State.win_postRun (List.cons_ne_nil _ _), fun h1 h2 g hg => ?_, hk.same .rows, hk.same .lpddr⟩
      exact State.winCmd_postRun (w := { w with runs := r :: rs }) rfl h1 h2 hj hg
    · rw [hr] at hrun
      obtain ⟨t, is, ht, hend⟩ : ∃ t is, s.changes [.jobs] t ∧ s.afterRuns w = { t.startNorms w is true with win := none } := by
        unfold State.afterRuns
        simp only [hk]
        exact ⟨_, _, State.changes_ite (State.changes_faultStop ..) .refl, rfl⟩
      have hn : t.changes Writes.formResult (t.startNorms w is true) := State.changes_startNorms ..
      exact ⟨_, hrun.trans (congrArg _ hend), rfl, (hn.same .rows).trans (ht.same .rows), (hn.same .lpddr).trans (ht.same .lpddr)⟩
    · intro lazies again
      have hlz : lazies = s.lazies w.part w.job := rfl
      rw [hr] at hrun
      have hall : s.changes Writes.afterRuns (s.afterRuns w) := State.changes_afterRuns ..
      obtain ⟨w', hw'⟩ : ∃ w' : WinRun, w' = { w with runs := [], posted := false, asked := [] } := ⟨_, rfl⟩
      have hend : ¬ again → w.kind ≠ .restore → ∃ t is full, s.sameRecords t w.part w.job ∧ (w.kind ≠ .update ∨ lazies = [] → t = s)
          ∧ s.afterRuns w = ({ t.startNorms w is full with win := some w' } : State).askSeals w' := fun hno hre => by
        rw [hw']
        exact State.afterRuns_seals (by cases h : w.kind <;> simp_all) hno
      refine ⟨s.afterRuns w, hrun, hall.same .rows, fun h => ?_, fun hno => ?_, fun hno hre i hi h2 => ?_, fun hag => ?_⟩
      · by_cases hre : w.kind = .restore
        · rw [State.afterRuns_restore hre]
          exact (State.changes_startNorms ..).same .lpddr
        · obtain ⟨t, is, full, -, hts, hrun⟩ := hend (fun ⟨h1, h2, _⟩ => h.elim (fun h => h h1) h2) hre
          rw [hrun, hts h]
          exact ((State.changes_askSeals ..).same .lpddr).trans ((State.changes_startNorms ..).same .lpddr)
      · rw [← hw']
        by_cases hre : w.kind = .restore
        · rw [State.afterRuns_restore hre, hw']
        · obtain ⟨t, is, full, -, -, hrun⟩ := hend hno hre
          rw [hrun]
          exact (State.changes_askSeals ..).same .win
      · obtain ⟨t, is, full, ht, -, hrun⟩ := hend hno hre
        rw [hrun]
        have hrec : s.sameRecords { t.startNorms w is full with win := some w' } w'.part w'.job := by
          rw [hw']
          exact (State.changes_set_win ..).sameRecords (ht.startNorms is full)
        exact hrec.askSeals_asks (by rw [hw']; exact hp) (by rw [hw']; exact hj) (by rw [hw']; exact hre) (by rw [hw']; exact hi) h2
      · obtain ⟨hup, hne, hst⟩ := hag
        obtain ⟨t, ht⟩ := State.afterRuns_again hup hne hst
        have hwin := State.win_postRun (s := t) (w := { w with runs := runsOf lazies, posted := false, asked := [], kind := .lazyNorm })
          (runsOf_ne_nil hne)
        rw [ht]
        exact ⟨_, hwin, rfl, rfl, rfl⟩
end

section
/-! A page-out beside a bring-up of a tensor that the table does not hold (R214, R365). -/

-- The frame conditions are evaluated in the kernel: theorems elaborated in parallel would each hold a thread while they wait for it.
set_option Elab.async false

namespace Sys2Proof.Machine

/-- PAGE_OUT of the first piece of page 0, read from mailbox 1; its block lies at 0x1000. -/
def firstPageOut : FwCmd := ⟨1, 1, BitVec.ofNat 64 (packBits [(8, 0x35), (1, 1), (23, 0), (18, 0x1000)])⟩

/-- An index past the end of the tensor table: the words of its entry would lie where MBX_STATUS and the registers after it lie. -/
def tensorPastTable : Nat := (mgtBase + 0x5400 - grnBase 0 - 0x100000) / 64

/-- Page 0 of a running job is PRESENT; mailbox 1 holds that command, and a bring-up of the tensor past the table is listed. While the mailbox is FULL,
the tensor's entry reads as one of partition 1; once firmware has read the word, as one of partition 0 with a row in page 0. -/
def strayBringup : State := { State.reset with
  bootStage := 13
  regs := [((Reg.mgtPart 0).addr, setBits 0 F.mgtPartEn.lo F.mgtPartEn.len 1), ((Reg.mbxData .mgmt 1).addr, firstPageOut.word),
    ((Reg.mbxSender .mgmt 1).addr, 1), ((Reg.mbxStatus .mgmt).addr, 2), ((Reg.mbxInten .mgmt).addr, 1)]
  window := [(0x1000, 0x35), (0x1016, 6)]
  lpddr := [(9141504 * 4096, ⟨1, 0⟩)]
  jobs := [(jobKey 0 0, { Job.init with stat := .running })]
  bringups := [⟨tensorPastTable, 0, true, 0, []⟩] }

theorem strayBringup_first : strayBringup.fwFirst 0x35 firstPageOut := by
  refine ⟨?_, ?_, rfl, ?_⟩ <;> decide +kernel

/-- What the command names: page 0 of partition 0 and job 0, its first piece, and the staging area. -/
theorem firstPageOut_names : (strayBringup.readCmd firstPageOut).part = 0 ∧ (strayBringup.readCmd firstPageOut).job = 0
    ∧ (strayBringup.readCmd firstPageOut).body 16 0 24 = 0 ∧ (strayBringup.readCmd firstPageOut).body 19 0 2 = 0
    ∧ (strayBringup.readCmd firstPageOut).body 20 0 32 = 0x60000 := by
  refine ⟨?_, ?_, ?_, ?_, ?_⟩ <;> decide +kernel

theorem strayBringup_job : strayBringup.partOn 0 = true ∧ (strayBringup.job 0 0).stat = .running ∧ strayBringup.pageOf 0 0 = mkPage 1 0 0 0 := by
  refine ⟨?_, ?_, ?_⟩ <;> decide +kernel

/-- No bring-up is at work on page 0 while the mailbox is FULL, and one is once it has been read. -/
theorem strayBringup_pageInUse : strayBringup.pageInUse 0 0 = false ∧ (strayBringup.fwSees firstPageOut).pageInUse 0 0 = true := by
  constructor <;> decide +kernel

/-- A command is still outstanding. -/
def Res.commandWaits (r : Res) : Bool :=
  match r with
  | .next u => !u.fw.isEmpty
  | _ => false

theorem commandWaits_strayBringup : Res.commandWaits (exec (.pageOut firstPageOut) strayBringup) = true := by decide +kernel

end Sys2Proof.Machine

open Sys2Proof Sys2Proof.Machine

/-- Refutes O57: a page-out may wait although no bring-up is at work on its page when the command arrives. The statement asks about the state before
firmware has read the mailbox. Where a bring-up is listed for a tensor past the table, whose entry would lie at the mailbox registers, the read of the
command is what puts the bring-up on the page, so that the command waits for it and does not complete. -/
theorem not_firmwarePagesStepsAndSettings : ¬ Obligations.FirmwarePagesStepsAndSettings := by
  unfold Obligations.FirmwarePagesStepsAndSettings
  intro h
  obtain ⟨-, -, -, -, -, -, hout, -⟩ := h firstPageOut strayBringup
  obtain ⟨hpart, hjob, hpage, hpiece, hat⟩ := firstPageOut_names
  obtain ⟨hon, hstat, hent⟩ := strayBringup_job
  rw [hpart, hjob, hpage, hpiece, hat, hent] at hout
  obtain ⟨hfirst, -⟩ := hout strayBringup_first ⟨hon, .inl hstat⟩ (by decide) (by decide) (by decide)
  obtain ⟨u, hu, ⟨hfw, -, -⟩, -⟩ := hfirst (by decide) (.inr ⟨rfl, strayBringup_pageInUse.1⟩)
  have hwaits := commandWaits_strayBringup
  rw [hu, Res.commandWaits, hfw] at hwaits
  cases hwaits
end

section
/-! A gather that ends where two tasks have one id (R165, R169). -/

-- The frame conditions are evaluated in the kernel: theorems elaborated in parallel would each hold a thread while they wait for it.
set_option Elab.async false

namespace Sys2Proof.Machine

/-- ga.gather of the one index at near row 1 to near row 16. -/
def oneIndexGather : CmdWord := BitVec.ofNat 128 (packBits [(8, 0x80), (24, 0), (13, 1), (12, 0), (13, 16)])

/-- A program of 8 words, and near row 16 as the output. -/
def gatherDesc : BitVec 512 := BitVec.ofNat 512 (packBits [(84, 0), (12, 8), (288, 0), (3, 1), (5, 0), (20, 16), (20, 1)])

/-- Task 1, which issues that gather on core 0. -/
def gatherTask : Task := { newTask 1 0 gatherDesc with stat := .running, prog := [(0, some (oneIndexGather.zeroExtend 4096))] }

/-- Another task with id 1: it is READY on core 1, at its word 5. -/
def gatherNamesake : Task := { newTask 1 0 gatherDesc with stat := .ready, core := 1, pc := 5 }

/-- A task with id 2 that waits on a core for a gather context. -/
def contextWaiter (c : Nat) : Task := { newTask 2 0 gatherDesc with stat := .blocked, core := c, placed := 1, why := some (.unit .gather) }

/-- The index is the padding index. The gather ends at once, and wakes id 2 of core 0; id 2 names the task of core 1, so that core 1 is scheduled, and
the namesake there begins to run in the place of every task with id 1. -/
def sharedTaskIds : State := { State.reset with
  regs := [((Reg.coGaShape 0 0).addr, BitVec.ofNat 64 (1 + 2 ^ 32)), ((Reg.clNquota 0 0).addr, BitVec.ofNat 64 (4096 * 65536))]
  rows := [(1, ⟨0xFFFFFFFF, .full, none, none, none⟩)]
  tasks := [gatherTask, contextWaiter 1, contextWaiter 0, gatherNamesake] }

theorem oneIndexGather_fields : cwOp oneIndexGather = 0x80 ∧ gaCount oneIndexGather = 1 ∧ gaSpan oneIndexGather = 1 ∧ gaDst oneIndexGather = 16
    ∧ bits oneIndexGather 32 13 = 1 := by decide +kernel

theorem sharedTaskIds_next : sharedTaskIds.nextCmd 0 = some (gatherTask, oneIndexGather) := by decide +kernel

theorem sharedTaskIds_ready : sharedTaskIds.issueChecks gatherTask (nearRowsOf 0 1 1) (nearRowsOf 0 16 1)
      (sharedTaskIds.gatherForm gatherTask oneIndexGather) = .ok ()
    ∧ freeCtx (sharedTaskIds.core 0) = some 0 ∧ sharedTaskIds.gaIndex gatherTask oneIndexGather 0 = 0xFFFFFFFF
    ∧ (sharedTaskIds.row (.near 0 1)).tag = .full ∧ (sharedTaskIds.row (.near 0 1)).taker = none ∧ (sharedTaskIds.row (.near 0 16)).tag = .empty := by
  refine ⟨?_, ?_, ?_, ?_, ?_, ?_⟩ <;> decide +kernel

/-- The position of task 1 when a command has run. -/
def Res.taskPc (r : Res) : Option Nat :=
  match r with
  | .next u => (u.task? 1).map Task.pc
  | _ => none

theorem taskPc_sharedTaskIds : Res.taskPc (exec (.gaGather ⟨0, []⟩) sharedTaskIds) = some 6 := by decide +kernel

end Sys2Proof.Machine

open Sys2Proof Sys2Proof.Machine

/-- Refutes O31: the statement does not ask that no two tasks have one id. A gather of a padding index ends as it issues and wakes the tasks of its core
that wait for a context; where one of them shares its id with a task of another core, that core is scheduled, and where the task that it starts there
has the id of the one that issued the gather, this takes its place: its position is then that task's, and not one word further on. -/
theorem not_gatherParksAndFills : ¬ Obligations.GatherParksAndFills := by
  unfold Obligations.GatherParksAndFills
  rintro ⟨hissue, -⟩
  obtain ⟨hop, hcount, hspan, hdst, hlist⟩ := oneIndexGather_fields
  obtain ⟨hchecks, hctx, hindex, hfull, htaker, hempty⟩ := sharedTaskIds_ready
  have hcore : gatherTask.core = 0 := rfl
  have h := hissue 0 [] sharedTaskIds gatherTask oneIndexGather 0 (by decide) sharedTaskIds_next hop
  simp only [hcore, hlist, hcount, hspan, hdst] at h
  obtain ⟨-, -, hpad⟩ := h hchecks hctx (List.forall_mem_singleton.2 ⟨hfull, .inl htaker⟩)
  obtain ⟨u, hu, ⟨t', ht', hpc, -⟩, -⟩ := hpad trivial trivial hindex (List.forall_mem_singleton.2 hempty)
  have hsix := taskPc_sharedTaskIds
  rw [hu, Res.taskPc, show u.task? 1 = some t' from ht', Option.map_some, hpc] at hsix
  exact absurd hsix (by decide)
end

section
/-! Frames that arrive and are passed up at once, and the requests in them (R328, R337, R338). -/

-- The frame conditions are evaluated in the kernel: theorems elaborated in parallel would each hold a thread while they wait for it.
set_option Elab.async false

namespace Sys2Proof.Machine

variable {s u v t : State} {p n : Nat} {f : Frame} {crc : BitVec 32} {e : BitVec 96} {r : RowRef}

/-! States that differ in ports, counters and the loopback's queue alone. -/

/-- The second state is the first with other ports, counters and frames on loopback. -/
def State.alike (s v : State) : Prop := ∃ P C L, v = { s with ports := P, ctrs := C, loop := L }

theorem State.alike.hatchFor (h : s.alike v) (p n : Nat) : v.hatchFor p n = s.hatchFor p n := by obtain ⟨_, _, _, rfl⟩ := h; rfl

theorem State.alike.hatchRow (h : s.alike v) (p : Nat) (k : Hatch) (i : Nat) : v.hatchRow p k i = s.hatchRow p k i := by
  obtain ⟨_, _, _, rfl⟩ := h; rfl

theorem State.alike.hatchCheck (h : s.alike v) (p : Nat) (f : Frame) : v.hatchCheck p f = s.hatchCheck p f := by obtain ⟨_, _, _, rfl⟩ := h; rfl

theorem State.alike.wellFormed (h : s.alike v) (p : Nat) (f : Frame) : v.wellFormed p f = s.wellFormed p f := by obtain ⟨_, _, _, rfl⟩ := h; rfl

theorem State.alike.copyingRow (h : s.alike v) (k : Nat) : v.copyingRow k = s.copyingRow k := by obtain ⟨_, _, _, rfl⟩ := h; rfl

theorem State.alike.job (h : s.alike v) (p j : Nat) : v.job p j = s.job p j := by obtain ⟨_, _, _, rfl⟩ := h; rfl

theorem State.alike.rows (h : s.alike v) : v.rows = s.rows := by obtain ⟨_, _, _, rfl⟩ := h; rfl

theorem State.alike.lpddr (h : s.alike v) : v.lpddr = s.lpddr := by obtain ⟨_, _, _, rfl⟩ := h; rfl

theorem State.alike.row (h : s.alike v) (r : RowRef) : v.row r = s.row r := State.row_congr h.rows r

theorem State.alike.sameMem (h : s.alike v) : s.sameMem v := ⟨h.rows, h.lpddr⟩

/-! The arrival. -/

/-- A port passes a frame up under a number: no request of the port or its gate waits, and the frame has left the loopback's queue. -/
structure State.passesUp (s : State) (p : Nat) (v : State) (n : Nat) : Prop where
  alike : s.alike v
  held : (v.port p).rxHeld = []
  park : (v.gate (gateOf p)).park = []
  num : n = if p = 12 then 0 else (s.port p).rxNext
  loop : p = 12 → v.loop = s.loop.drop 1

theorem State.takesFrame.wellFormed (h : s.takesFrame p f crc) : s.wellFormed p f = true := h.2.1

/-- What a port does once it has passed a frame up. -/
theorem State.receive_passed (hp : p < 12) (hn : (s.port p).nak = false) (ha : (s.port p).rxArr = (s.port p).rxNext) (he : s.encrypts p = false)
    (hh : (s.port p).rxHeld = []) (hk : (s.gate (gateOf p)).park = []) :
    ∃ v n, s.passesUp p v n ∧ (v.deliverFrame p n f).changes [.outbox, .ports] (s.receive p f) := by
  obtain ⟨x, hx⟩ : ∃ x, x = { s.port p with
      rxArr := ((s.port p).rxNext + 1) % 65536, rxNext := ((s.port p).rxNext + 1) % 65536, unacked := (s.port p).unacked + 1 } := ⟨_, rfl⟩
  obtain ⟨v, hv⟩ : ∃ v, v = (s.setPort p x).count C.linkFramesRx p := ⟨_, rfl⟩
  have hport : v.port p = x := by rw [hv]; exact State.port_setPort_same ..
  have henc : v.encrypts p = false := by rw [hv]; exact he
  refine ⟨v, (s.port p).rxNext, ⟨hv ▸ ⟨_, _, _, rfl⟩, by rw [hport, hx]; exact hh, by rw [hv]; exact hk, (if_neg (by omega)).symm, by omega⟩, ?_⟩
  have hfree : (v.deliverFrame p (s.port p).rxNext f).changes [.outbox, .ports]
      ((v.deliverFrame p (s.port p).rxNext f).freePlace p (s.port p).rxNext) := (State.changes_freePlace ..).after .refl
  unfold State.receive
  rw [if_neg (by omega)]
  extract_lets y m t1 t2 z t3
  have h3 : t3 = (v.deliverFrame p (s.port p).rxNext f).freePlace p (s.port p).rxNext := by
    have h2 : t2 = v := by rw [hv, hx]
    show (if t2.encrypts p then _ else _) = _
    rw [h2, if_neg (by rw [henc]; decide)]
  rw [if_neg (show ¬ (s.port p).nak = true by rw [hn]; decide), if_neg (not_not.2 ha), h3]
  exact State.changes_ite ((State.changes_sendAck ..).after hfree) hfree

theorem State.plain_eq (h : p = 12 ∨ s.encrypts p = false) : s.plain p f = f :=
  if_neg fun ⟨hp, he⟩ => by
    obtain h | h := h
    · exact hp h
    · rw [h] at he; exact absurd he (by decide)

/-- A frame that a port takes arrives, and is passed up. -/
theorem State.takesFrame.passes (h : s.takesFrame p f crc) {ty : Nat} (hty : fType f.hdr = ty) :
    ∃ v n u, s.passesUp p v n ∧ frameIn ty p f crc s = .next u ∧ (v.deliverFrame p n f).changes [.outbox, .ports] u
      ∧ (p = 12 → u = v.deliverFrame p n f) := by
  obtain ⟨hport, -, hheld, hpark⟩ := h
  have hrun (hok : (portOk p || p == 12) = true) (hr : s.reaches p f = true) (hpl : s.plain p f = f) : frameIn ty p f crc s = .next (s.arrive p f crc) := by
    rw [frameIn, unitOk, if_pos hok, need, if_pos]
    rw [hr, hpl, hty]
    simp
  obtain ⟨rfl, hloop, hdead⟩ | ⟨hp, hup, hnak, harr, henc, hcrc⟩ := hport
  · refine ⟨s.unloop 12, 0, s.arrive 12 f crc, ⟨⟨_, _, _, rfl⟩, hheld, hpark, rfl, fun _ => rfl⟩, hrun rfl ?_ (State.plain_eq (.inl rfl)),
      ?_, fun _ => ?_⟩
    · simp [State.reaches, hdead, hloop]
    · exact State.changes.refl
    · rfl
  · have hne : p ≠ 12 := by omega
    obtain ⟨v, n, hv, hch⟩ := State.receive_passed (f := f) hp hnak harr henc hheld hpark
    have harrive : s.arrive p f crc = s.receive p f := by
      rw [State.arrive, if_neg (fun h => h.2 hcrc), State.unloop, if_neg hne]
    refine ⟨v, n, s.receive p f, hv, ?_, hch, fun h => absurd h hne⟩
    rw [hrun (by rw [portOk_of_lt hp]; rfl) (by rw [State.reaches, if_neg hne]; exact hup) (State.plain_eq (.inr henc)), harrive]

/-! What the transaction layer makes of it. -/

theorem State.deliverFrame_one (hw : v.wellFormed p f = true) (h8 : fType f.hdr ≠ 8) : v.deliverFrame p n f = v.deliverOne p n f := by
  rw [State.deliverFrame, hw]
  simp [h8]

theorem State.deliverFrame_batch (hw : v.wellFormed p f = true) (h8 : fType f.hdr = 8) (hb : batchEntries f = [e]) :
    v.deliverFrame p n f = v.deliverOne p n (batchOf e) := by
  rw [State.deliverFrame, hw]
  simp [h8, hb]

theorem fType_batchOf (e : BitVec 96) : fType (batchOf e).hdr = 8 := by
  show fType (BitVec.ofNat 96 (packBits [(4, 8), (6, 1)])) = 8
  decide

theorem entry_batchOf (e : BitVec 96) : (batchOf e).payload.extractLsb' 0 96 = e := by
  refine BitVec.eq_of_getLsbD_eq fun i hi => ?_
  simp only [batchOf, BitVec.getLsbD_extractLsb', BitVec.zeroExtend, BitVec.getLsbD_setWidth, Nat.zero_add, hi]
  simp
  omega

theorem reqHdr_batchOf (e : BitVec 96) : reqHdr (batchOf e) = e := by rw [reqHdr, reqKind, if_pos (fType_batchOf e), entry_batchOf]

/-- A request is tried where none waits before it. -/
theorem State.passesUp.put_done (hv : s.passesUp p v n) (h : v.serveReq [] p f = .done t) : State.deliverOne.put p n f v = t := by
  rw [State.deliverOne.put, hv.held]
  simp [State.tryReq, hv.park, h]

theorem State.passesUp.put_park (hv : s.passesUp p v n) (h : v.serveReq [] p f = .park r) : State.deliverOne.put p n f v = v.addPark p n f (some r) := by
  rw [State.deliverOne.put, hv.held]
  simp [State.tryReq, hv.park, h]

theorem State.deliverOne_put (h6 : fType f.hdr ≠ 6) (h8 : fType f.hdr ≠ 8) : v.deliverOne p n f = State.deliverOne.put p n f v := by
  unfold State.deliverOne
  split
  · next h => exact absurd h h6
  · next h => exact absurd h h8
  · rfl

theorem State.deliverOne_batchOf (h : fType e = 1) : v.deliverOne p n (batchOf e) = State.deliverOne.put p n (batchOf e) v := by
  unfold State.deliverOne
  rw [fType_batchOf, entry_batchOf]
  exact if_pos h

theorem State.serveReq_ok (h : v.hatchCheck p f = 0) : v.serveReq [] p f = v.land p f := by
  rw [State.serveReq, h]
  rfl

/-- A request that its hatch refuses has effects, and is answered with its code. -/
theorem State.serveReq_refused (h : v.hatchCheck p f ≠ 0) :
    v.serveReq [] p f = .done ((if v.hatchCheck p f = 3 then v.refusedEffects p f else v).nack p f (v.hatchCheck p f)) := if_pos h

theorem State.sameMem_refused (s : State) (p : Nat) (f : Frame) (c : Nat) :
    s.sameMem ((if c = 3 then s.refusedEffects p f else s).nack p f c) := by
  have hk : s.changes (.loop :: .ports :: Writes.post) (if c = 3 then s.refusedEffects p f else s) :=
    State.changes_ite ((State.changes_refusedEffects ..).after .refl) .refl
  have hn := State.changes_nack (s := if c = 3 then s.refusedEffects p f else s) p f c
  exact ⟨(hn.same .rows).trans (hk.same .rows), (hn.same .lpddr).trans (hk.same .lpddr)⟩

theorem State.loop_refused (s : State) (f : Frame) (c : Nat) :
    ((if c = 3 then s.refusedEffects 12 f else s).nack 12 f c).loop = s.loop ++ [batchOf (nackHdr (fTag (reqHdr f)) c)] := by
  have hk : s.changes Writes.post (if c = 3 then s.refusedEffects 12 f else s) :=
    State.changes_ite ((State.changes_refusedEffects ..).after .refl) .refl
  show (if c = 3 then s.refusedEffects 12 f else s).loop ++ _ = _
  rw [hk.same .loop]

end Sys2Proof.Machine
end

section
/-! Requests that have passed their checks land (R227, R335, R342, R343). -/

-- The frame conditions are evaluated in the kernel: theorems elaborated in parallel would each hold a thread while they wait for it.
set_option Elab.async false

namespace Sys2Proof.Machine

variable {s u v t : State} {p n : Nat} {f : Frame} {r : RowRef} {l : LpLoc} {i : Nat}

/-- The first row that a request names. -/
def State.target (s : State) (p : Nat) (f : Frame) : Target := s.hatchRow p (s.hatchFor p (fHatch (reqHdr f))) (fOffset (reqHdr f))

theorem State.alike.target (h : s.alike v) (p : Nat) (f : Frame) : v.target p f = s.target p f := by
  rw [State.target, h.hatchRow, h.hatchFor, State.target]

/-- Nothing holds a request where no row is being copied and its job is not being cleared. -/
theorem State.not_held (hc : ∀ k, s.copyingRow k = false) {k : Hatch} (hj : reqKind f = 3 → (s.job k.part k.job).clearing = false) (o : Nat) :
    ¬ (((List.range (reqRows f)).any fun i => match s.hatchRow p k (o + i) with
      | .lp l _ => s.copyingRow l.key
      | _ => false) || (reqKind f == 3 && (s.job k.part k.job).clearing)) = true := by
  have hw : ((List.range (reqRows f)).any fun i => match s.hatchRow p k (o + i) with
      | .lp l _ => s.copyingRow l.key
      | _ => false) = false := List.any_eq_false.2 fun i _ => by split <;> simp [hc]
  rw [hw, Bool.false_or, Bool.and_eq_true, beq_iff_eq]
  rintro ⟨h3, hclear⟩
  rw [hj h3] at hclear
  exact absurd hclear (by decide)

section
variable (hc : ∀ k, s.copyingRow k = false)
include hc

theorem State.land_write_row (hk : reqKind f = 1 ∨ reqKind f = 2) (ht : s.target p f = .row r) :
    s.land p f = if fillOk (s.row r) (reqKind f == 2) then .done ((s.fill r f.payload (fPoison (reqHdr f)) none).ack p (fTag (reqHdr f))) else .park r := by
  unfold State.target at ht
  unfold State.land
  refine (if_neg (State.not_held hc (fun h => absurd h (by omega)) _)).trans ?_
  obtain hk | hk := hk <;> simp only [ht, hk]

theorem State.land_write_lp (hk : reqKind f = 1 ∨ reqKind f = 2) (ht : s.target p f = .lp l i) :
    s.land p f = .done ((s.lpWrite l.key f.payload (fPoison (reqHdr f))).ack p (fTag (reqHdr f))) := by
  unfold State.target at ht
  unfold State.land
  refine (if_neg (State.not_held hc (fun h => absurd h (by omega)) _)).trans ?_
  obtain hk | hk := hk <;> simp only [ht, hk]

theorem State.land_accum (hk : reqKind f = 3) (ht : s.target p f = .lp l i)
    (hj : (s.job (s.hatchFor p (fHatch (reqHdr f))).part (s.hatchFor p (fHatch (reqHdr f))).job).clearing = false) :
    s.land p f = .done ((s.accumApply (s.hatchFor p (fHatch (reqHdr f))).job l (.bf16 f.payload) (fFlag (reqHdr f)) (fPoison (reqHdr f))).ack p
      (fTag (reqHdr f))) := by
  unfold State.target at ht
  unfold State.land
  refine (if_neg (State.not_held hc (fun _ => hj) _)).trans ?_
  simp only [ht, hk]

theorem State.land_sreduce (hk : reqKind f = 5) (ht : s.target p f = .row r) (hp : (s.row r).tag ≠ .pending) (hf : (s.row r).taker = none) :
    s.land p f = .done ((s.fill r (reduceSlot (if (s.row r).tag = .empty then 0 else (s.row r).data) f.payload) false none).ack p (fTag (reqHdr f))) := by
  unfold State.target at ht
  unfold State.land
  refine (if_neg (State.not_held hc (fun h => absurd h (by omega)) _)).trans ?_
  simp only [ht, hk, hf, decide_eq_false hp]
  rfl

theorem State.land_read_row (hk : reqKind f = 8) (ht : s.target p f = .row r) (hr : dmaReadOk (s.row r) (fFlag (reqHdr f)) = true) :
    s.land p f = .done (((s.meetRow r).dmaTaken r (fFlag (reqHdr f))).rdata p (fTag (reqHdr f)) (s.row r).data (decide ((s.row r).tag = .poison))) := by
  unfold State.target at ht
  unfold State.land
  refine (if_neg (State.not_held hc (fun h => absurd h (by omega)) _)).trans ?_
  simp only [ht, hk, hr]
  rfl

/-- The rows that a request for a count names. -/
def State.countTargets (s : State) (p : Nat) (f : Frame) : List Target :=
  (List.range (countReq f.payload).rows).map fun i => s.hatchRow p (s.hatchFor p (fHatch (reqHdr f))) (fOffset (reqHdr f) + i)

/-- The state as the rows of a list have been read. -/
def State.met (s : State) (ts : List Target) : State := ts.foldl (fun (s : State) t => s.meetTarget t) s

/-- The mask rows of an answer go out. -/
def State.sendMasks (s : State) (p tag : Nat) (ms : List (Row × Bool)) : State := ms.foldl (fun (s : State) m => s.rdata p tag m.1 m.2) s

theorem State.land_count {fm : Fmt} (hk : reqKind f = 4) (hfm : Fmt.ofCode (countReq f.payload).fmt = some fm) (hr : s.firstUnread (s.countTargets p f) = none)
    {ms : List (Row × Bool) × Nat}
    (hm : ms = countRows fm (countReq f.payload) ((s.countTargets p f).map fun t => (s.met (s.countTargets p f)).targetRow t)) :
    s.land p f = .done ((if (countReq f.payload).mask then (s.met (s.countTargets p f)).sendMasks p (fTag (reqHdr f)) ms.1
      else s.met (s.countTargets p f)).sendFrame p (batchOf (countHdr (fTag (reqHdr f)) ms.2))) := by
  subst hm
  unfold State.countTargets at hr
  unfold State.land
  refine (if_neg (State.not_held hc (fun h => absurd h (by omega)) _)).trans ?_
  simp only [hk, hr, hfm]
  rfl

end

end Sys2Proof.Machine
end

section
/-! What stands of LPDDR5X while rows are read, and the rows that an accumulate-write leaves (R211, R227). -/

-- The frame conditions are evaluated in the kernel: theorems elaborated in parallel would each hold a thread while they wait for it.
set_option Elab.async false

namespace Sys2Proof.Machine

variable {s u v t : State} {p : Nat} {f : Frame} {l : LpLoc} {x : LpRow} {r : Row}

/-! Rows read again. -/

theorem LpRow.poison_eq (x : LpRow) : x.poison = (List.range 4).any fun k => decide (x.word k = .bad) := by
  by_cases h : x.err = 0
  · have hword : ∀ k, x.word k = .clean := fun k => by rw [LpRow.word, h]; rw [show bits (0 : BitVec 128) (32 * k) 32 = 0 by simp [bits]]; rfl
    rw [LpRow.poison_of_clean h]
    simp [hword]
  · rw [LpRow.poison, LpRow.found, if_neg h, List.any_map]
    rfl

/-- A corrected row is poisoned where the row was. -/
theorem LpRow.poison_fixed (x : LpRow) : x.fixed.poison = x.poison := by
  by_cases h : x.err = 0
  · rw [LpRow.fixed_of_clean h]
  · rw [LpRow.poison_eq, LpRow.poison_eq]
    refine any_congr fun j hj => ?_
    have hbits := LpRow.bits_fixed h (List.mem_range.1 hj)
    rw [LpRow.word, hbits]
    cases hc : (x.word j).corrected with
    | false => rfl
    | true =>
      cases hw : x.word j with
      | symbol => rfl
      | _ => rw [hw] at hc; exact absurd hc (by decide)

/-- Rows have been read: they stand, or their codewords are put right. -/
structure State.hasRead (s u : State) : Prop where
  passes : s.passes u
  corrects : s.corrects u
  frame : s.changes Writes.lpTouch u

theorem State.hasRead.lpMeet (h : s.hasRead t) (l : LpLoc) : s.hasRead (t.lpMeet l) :=
  ⟨h.passes.lpMeet l, h.corrects.lpMeets [l], (State.changes_lpMeet ..).after h.frame⟩

theorem State.hasRead.meetTarget (h : s.hasRead t) (x : Target) : s.hasRead (t.meetTarget x) := by
  cases x with
  | row r =>
    have hk : t.changes [.ctrs] (t.meetRow r) := State.changes_meetRow ..
    exact ⟨hk.passes h.passes, hk.corrects h.corrects, hk.after h.frame⟩
  | lp l i => exact h.lpMeet l
  | bad => exact h

theorem State.hasRead_met (s : State) (ts : List Target) : s.hasRead (s.met ts) :=
  List.foldlRecOn _ _ (motive := s.hasRead) ⟨.refl, fun _ => .inl rfl, .refl⟩ fun _ h x _ => h.meetTarget x

theorem pgTensor_lt (w : Word) : pgTensor w < 32768 := bits_lt ..

theorem State.hasRead.lpRead (h : s.hasRead u) (l : LpLoc) : u.lpRead l = s.lpRead l := by
  have hunw : u.unwritten l = s.unwritten l := by
    rw [State.unwritten, (h.passes.sameTables (h.frame.same .shadow)).tt (pgTensor_lt _), h.frame.same .epoch, State.unwritten]
  rw [State.lpRead, State.lpRead, hunw]
  obtain hk | hk := h.corrects l.key
  · rw [hk]
  · rw [hk, LpRow.fixed_fixed, LpRow.poison_fixed]

theorem State.hasRead.targetRow (h : s.hasRead u) (x : Target) : u.targetRow x = s.targetRow x := by
  cases x with
  | row r => simp only [State.targetRow, State.row_congr (h.frame.same .rows)]
  | lp l i => simp only [State.targetRow, h.lpRead]
  | bad => rfl

theorem State.alike.targetRow (h : s.alike v) (x : Target) : v.targetRow x = s.targetRow x := by obtain ⟨_, _, _, rfl⟩ := h; rfl

theorem State.alike.firstUnread (h : s.alike v) (ts : List Target) : v.firstUnread ts = s.firstUnread ts := by
  induction ts with
  | nil => rfl
  | cons x ts ih =>
    cases x with
    | row r => simp only [State.firstUnread, h.row, ih]
    | _ => simp only [State.firstUnread, ih]

end Sys2Proof.Machine
end

section
/-! What an accumulate-write makes of the stores rests on the stores, the registers and the draws alone (R227, R229, R281). -/

-- The frame conditions are evaluated in the kernel: theorems elaborated in parallel would each hold a thread while they wait for it.
set_option Elab.async false

namespace Sys2Proof.Machine

variable {s u v t w : State} {l : LpLoc} {r : Row}

/-! Touch maps. -/

section
variable {α : Type} {k : Nat} {P : Nat × α → Bool} (hP : ∀ w, P (k, w) = false)
include hP

theorem SMap.any_erase (m : SMap α) : (SMap.erase m k).any P = m.any P := by
  induction m with
  | nil => rfl
  | cons x m ih =>
    obtain ⟨y, w⟩ := x
    rw [SMap.erase]
    split
    next h => rw [ih, List.any_cons, h, hP, Bool.false_or]
    next => rw [List.any_cons, List.any_cons, ih]

theorem SMap.any_insert (m : SMap α) (w : α) : (SMap.insert m k w).any P = m.any P := by
  induction m with
  | nil => simp [SMap.insert, hP]
  | cons x m ih =>
    obtain ⟨y, z⟩ := x
    rw [SMap.insert]
    split
    · rw [List.any_cons, hP, Bool.false_or]
    · split
      next h => rw [List.any_cons, List.any_cons, hP, ← h, hP]
      next => rw [List.any_cons, List.any_cons, ih]

theorem SMap.any_put [DecidableEq α] (d : Nat → α) (m : SMap α) (w : α) : (SMap.put d m k w).any P = m.any P := by
  rw [SMap.put]
  split
  · exact SMap.any_erase hP m
  · exact SMap.any_insert hP m w

end

theorem State.writesAt.any {A : Nat → Prop} (h : s.writesAt A u) {P : Nat × Word → Bool} (hP : ∀ a, A a → ∀ w, P (a, w) = false) :
    u.regs.any P = s.regs.any P := by
  induction h with
  | same h => rw [h]
  | write _ r w hr hu ih => rw [hu, ← ih]; exact SMap.any_put (hP _ hr) _ _ _

/-- A register entry is a layer record's first word that names a tensor as its touch map. -/
def State.touchEntry (s : State) (i : Nat) (e : Nat × Word) : Bool :=
  match Reg.ofAddr e.1 with
  | some (.layer g n 0) => g == s.homeGran && bitAt e.2 0 && bitAt e.2 5 && bits (s.rd (.layer g n 2)) 45 15 == i
  | _ => false

theorem State.isTouch_eq (s : State) (i : Nat) : s.isTouch i = s.regs.any (s.touchEntry i) := rfl

theorem State.touchEntry_passAddr (s : State) (i : Nat) {a : Nat} (ha : passAddr a) (w : Word) : s.touchEntry i (a, w) = false := by
  unfold State.touchEntry
  split
  · next g n h =>
    have hn := layerNo_of_passAddr ha g
    rw [show Reg.ofAddr a = some (.layer g n 0) from h] at hn
    exact absurd hn (by simp [layerNo])
  · rfl

theorem State.hasRead.touchEntry (h : s.hasRead u) (i : Nat) (e : Nat × Word) : u.touchEntry i e = s.touchEntry i e := by
  have htab := h.passes.sameTables (h.frame.same .shadow)
  have hin := Reg.ofAddr_layerInTable e.1
  unfold State.touchEntry
  split
  · next g n hr =>
    rw [hr] at hin
    obtain ⟨hg, hn⟩ := of_decide_eq_true (show decide (g < 24 ∧ n < 4096) = true from hin)
    have hrd : u.rd (.layer g n 2) = s.rd (.layer g n 2) := htab.regs _ g hg (0x400000 + 64 * n + 8 * 2) (by omega) (by omega) (by
      show grnBase g + 0x400000 + 64 * n + 8 * 2 = _
      omega)
    rw [hrd, htab.homeGran]
  · rfl

theorem State.hasRead.isTouch (h : s.hasRead u) (i : Nat) : u.isTouch i = s.isTouch i := by
  rw [State.isTouch_eq, h.passes.writes.any fun a ha w => u.touchEntry_passAddr i ha w, State.isTouch_eq, funext (h.touchEntry i)]

/-! The state in which an accumulate-write meets its row. -/

/-- The granule of the row has not been written in the step. -/
def State.firstIn (s : State) (l : LpLoc) : Bool := !SMap.get (fun _ => false) s.epoch (l.key / 8)

/-- The granule's other rows are zeroed by its first accumulate-write; a later one reads the row. -/
def State.accumReady (s : State) (l : LpLoc) : State :=
  let c := s.count C.grnAccRows (rowGranary l.key)
  let z := c.zeroOthers l.key (List.range 8)
  if s.firstIn l then { z with epoch := SMap.put (fun _ => false) z.epoch (l.key / 8) true } else c.lpTouch l.key

/-- The row that an accumulate-write leaves: `w` is the state in which it meets the row, `rs` how it rounds. -/
def State.accumLeft (s w : State) (l : LpLoc) (r : Row) (poison : Bool) (rs : List Rnd) : LpRow :=
  if poison || (!s.firstIn l && (s.lp l.key).poison) then .of 0 true
  else if w.isTouch (pgTensor l.page) then .of (touchRow (s.firstIn l) (w.lp l.key).data (.bf16 r)) false
  else if s.firstIn l then .of (canonBf16 r) false
  else .of (accumRow rs (((bf16Nums (w.lp l.key).data).zip (bf16Nums r)).map fun q => (add32 q.1 q.2).1)) false

/-- How an accumulate-write rounds. -/
def State.accumRounds (s w : State) (l : LpLoc) : List Rnd := (w.granaryRoundings (rowGranary l.key) (s.tt (pgTensor l.page)).sr 256).1

theorem State.lpddr_lpWrite (s : State) (key : Nat) (d : Row) (b : Bool) : (s.lpWrite key d b).lpddr = SMap.put lpInit s.lpddr key (.of d b) := by
  have h : s.changes [.ctrs, .checks] (s.lpCheck key true) := (State.changes_lpCheck ..).after .refl
  show SMap.put lpInit (s.lpCheck key true).lpddr key _ = _
  rw [h.same .lpddr]

/-- A FINAL write is counted, and its row's squares added, in registers. -/
theorem State.stores_counted (b : Bool) {t : State} (h : s.changes [.regs] t) :
    (if b then t else s).lpddr = s.lpddr ∧ (if b then t else s).epoch = s.epoch := by
  cases b with
  | false => exact ⟨rfl, rfl⟩
  | true => exact ⟨h.same .lpddr, h.same .epoch⟩

theorem State.stores_finalWrite (s : State) (g j key : Nat) (d : Row) (bad final : Bool) :
    (if final then (s.lpWrite key d bad).accumCount g j else s.lpWrite key d bad).lpddr = SMap.put lpInit s.lpddr key (.of d bad)
      ∧ (if final then (s.lpWrite key d bad).accumCount g j else s.lpWrite key d bad).epoch = s.epoch := by
  obtain ⟨hl, he⟩ := State.stores_counted (s := s.lpWrite key d bad) final (State.changes_accumCount g j)
  exact ⟨hl.trans (s.lpddr_lpWrite key d bad), he.trans ((State.changes_lpWrite ..).same .epoch)⟩

theorem State.stores_finalRow (s : State) (g j key : Nat) (d : Row) (final : Bool) :
    (if final then ((s.lpWrite key d false).accumNorm g j d).accumCount g j else s.lpWrite key d false).lpddr = SMap.put lpInit s.lpddr key (.of d false)
      ∧ (if final then ((s.lpWrite key d false).accumNorm g j d).accumCount g j else s.lpWrite key d false).epoch = s.epoch := by
  obtain ⟨hl, he⟩ := State.stores_counted (s := s.lpWrite key d false) final
    ((State.changes_accumCount g j).after ((State.changes_accumNorm g j d).after .refl))
  exact ⟨hl.trans (s.lpddr_lpWrite key d false), he.trans ((State.changes_lpWrite ..).same .epoch)⟩

theorem State.accumApply_stores (s : State) (j : Nat) (l : LpLoc) (r : Row) (final poison : Bool) :
    (s.accumApply j l (.bf16 r) final poison).lpddr = SMap.put lpInit (s.accumReady l).lpddr l.key
        (s.accumLeft (s.accumReady l) l r poison (s.accumRounds (s.accumReady l) l))
      ∧ (s.accumApply j l (.bf16 r) final poison).epoch = (s.accumReady l).epoch := by
  obtain ⟨w, hw⟩ : ∃ w, w = s.accumReady l := ⟨_, rfl⟩
  rw [← hw]
  unfold State.accumReady State.zeroOthers at hw
  unfold State.accumApply State.accumLeft
  cases hf : s.firstIn l with
  | true =>
    have hf' : SMap.get (fun _ => false) s.epoch (l.key / 8) = false := by simpa [State.firstIn] using hf
    rw [hf, if_pos rfl] at hw
    simp only [hf', Bool.not_false, if_true, ← hw, Bool.not_true, Bool.false_and, Bool.or_false]
    by_cases hp : poison = true
    · simp only [if_pos hp]
      exact w.stores_finalWrite ..
    · by_cases ht : w.isTouch (pgTensor l.page) = true
      · simp only [if_neg hp, if_pos ht]
        exact w.stores_finalWrite ..
      · simp only [if_neg hp, if_neg ht]
        exact w.stores_finalRow ..
  | false =>
    have hf' : SMap.get (fun _ => false) s.epoch (l.key / 8) = true := by simpa [State.firstIn] using hf
    rw [hf, if_neg (by decide)] at hw
    have hlp : (s.count C.grnAccRows (rowGranary l.key)).lp l.key = s.lp l.key := rfl
    simp only [hf', Bool.not_true, Bool.false_eq_true, if_false, ← hw, hlp]
    by_cases hp : (poison || !false && (s.lp l.key).poison) = true
    · simp only [if_pos hp]
      exact w.stores_finalWrite ..
    · by_cases ht : w.isTouch (pgTensor l.page) = true
      · simp only [if_neg hp, if_pos ht]
        exact w.stores_finalWrite ..
      · simp only [if_neg hp, if_neg ht]
        have hr : w.changes [.free, .ctrs] (w.granaryRoundings (rowGranary l.key) (s.tt (pgTensor l.page)).sr 256).2 :=
          State.changes_granaryRoundings ..
        rw [← hr.same .lpddr, ← hr.same .epoch]
        exact State.stores_finalRow ..

/-! Two states that differ in ports, counters and loopback alone. -/

theorem State.lpddr_lpCe (s : State) (key : Nat) : (s.lpCe key).lpddr = SMap.put lpInit s.lpddr key (s.lp key).fixed := by
  unfold State.lpCe
  split
  extract_lets t
  have ht : t.lpddr = SMap.put lpInit s.lpddr key (s.lp key).fixed := rfl
  split
  · exact ((State.changes_retireRow ..).same .lpddr).trans ht
  · exact ht

theorem State.lpddr_lpTouch (s : State) (key : Nat) :
    (s.lpTouch key).lpddr = if (s.lp key).worn then SMap.put lpInit s.lpddr key (s.lp key).fixed else s.lpddr := by
  obtain ⟨v, hv⟩ : ∃ v, v = s.lpCheck key false := ⟨_, rfl⟩
  have hl : v.lpddr = s.lpddr := hv ▸ (State.changes_lpCheck ..).same .lpddr
  have hue : ∀ (u : State) (b : Bool), (if b then u.lpUe key else u).lpddr = u.lpddr := fun u b => by
    cases b with
    | false => rfl
    | true => exact (State.changes_lpUe ..).same .lpddr
  unfold State.lpTouch
  dsimp only
  rw [← hv, hue, State.lp_congr hl]
  split
  · rw [State.lpddr_lpCe, hl, State.lp_congr hl]
  · exact hl

theorem State.lpddr_zeroOthers (h : v.lpddr = s.lpddr) (key : Nat) (is : List Nat) : (v.zeroOthers key is).lpddr = (s.zeroOthers key is).lpddr := by
  induction is generalizing s v with
  | nil => exact h
  | cons i is ih =>
    refine ih ?_
    dsimp only
    split
    · exact h
    · rw [State.lpddr_lpWrite, State.lpddr_lpWrite, h]

theorem State.freeDraws_congr (h : v.free = s.free) (n : Nat) : (v.freeDraws n).1 = (s.freeDraws n).1 := by
  induction n generalizing s v with
  | zero => rfl
  | succ n ih =>
    exact congrArg₂ (fun w l => Rnd.sr (bits w 48 16) :: l) (congrArg Config.freeWord h)
      (ih (v := { v with free := v.free + 1 }) (s := { s with free := s.free + 1 }) (congrArg (· + 1) h))

theorem State.granaryRoundings_congr (hf : v.free = s.free) (hg : v.grng = s.grng) (g : Nat) (sr : Bool) (n : Nat) :
    (v.granaryRoundings g sr n).1 = (s.granaryRoundings g sr n).1 := by
  have hfall : v.granaryFallback g = s.granaryFallback g := by rw [State.granaryFallback, hg, State.granaryFallback]
  unfold State.granaryRoundings
  rw [hfall]
  split
  · rfl
  · split
    · rfl
    · exact State.freeDraws_congr hf n

theorem State.hasRead.lpTouch (h : s.hasRead t) (key : Nat) : s.hasRead (t.lpTouch key) := by
  refine ⟨h.passes.lpTouch key, h.corrects.trans fun k => ?_, (State.changes_lpTouch ..).after h.frame⟩
  obtain hk | ⟨-, hk⟩ := t.lp_lpTouch key k
  · exact .inl hk
  · exact .inr hk

theorem State.hasRead_count (c : Ctr) (g : Nat) : s.hasRead (s.count c g) := by
  have hk : s.changes [.ctrs] (s.count c g) := State.changes_count ..
  exact ⟨hk.passes .refl, hk.corrects fun _ => .inl rfl, hk.after .refl⟩

theorem State.isTouch_accumReady (s : State) (l : LpLoc) (i : Nat) : (s.accumReady l).isTouch i = s.isTouch i := by
  unfold State.accumReady
  extract_lets c z
  have hz : s.changes [.ctrs, .lpddr, .checks] z := (State.changes_zeroOthers ..).after ((State.changes_count ..).after .refl)
  split
  · exact State.isTouch_congr (u := { z with epoch := _ }) (hz.same .regs) (hz.same .shape) i
  · exact ((State.hasRead_count C.grnAccRows (rowGranary l.key)).lpTouch l.key).isTouch i

theorem State.changes_accumReady (s : State) (l : LpLoc) : s.changes (.epoch :: Writes.lpTouch) (s.accumReady l) := by
  unfold State.accumReady
  extract_lets c z
  have hc : s.changes [.ctrs] c := State.changes_count ..
  have hz : s.changes [.ctrs, .lpddr, .checks] z := (State.changes_zeroOthers ..).after (hc.after .refl)
  exact State.changes_ite ((State.changes_set_epoch ..).after (hz.after .refl)) ((State.changes_lpTouch ..).after (hc.after .refl))

theorem State.alike.firstIn (h : s.alike v) (l : LpLoc) : v.firstIn l = s.firstIn l := by obtain ⟨_, _, _, rfl⟩ := h; rfl

theorem State.epoch_accumReady (s : State) (l : LpLoc) :
    (s.accumReady l).epoch = if s.firstIn l then SMap.put (fun _ => false) s.epoch (l.key / 8) true else s.epoch := by
  unfold State.accumReady
  extract_lets c z
  have hc : s.changes [.ctrs] c := State.changes_count ..
  have hz : c.changes [.ctrs, .lpddr, .checks] z := State.changes_zeroOthers ..
  have ht : c.changes Writes.lpTouch (c.lpTouch l.key) := State.changes_lpTouch ..
  clear_value z c
  split
  · rw [← hc.same .epoch, ← hz.same .epoch]
  · rw [ht.same .epoch, hc.same .epoch]

theorem State.lpddr_accumReady (s : State) (l : LpLoc) : (s.accumReady l).lpddr =
    if s.firstIn l then ((s.count C.grnAccRows (rowGranary l.key)).zeroOthers l.key (List.range 8)).lpddr
    else if (s.lp l.key).worn then SMap.put lpInit s.lpddr l.key (s.lp l.key).fixed else s.lpddr := by
  unfold State.accumReady
  extract_lets c z
  have hc : s.changes [.ctrs] c := State.changes_count ..
  have hlp : c.lp l.key = s.lp l.key := State.lp_congr (hc.same .lpddr) _
  have hz : ((s.count C.grnAccRows (rowGranary l.key)).zeroOthers l.key (List.range 8)).lpddr = z.lpddr := rfl
  rw [hz]
  clear_value z c
  split
  · rfl
  · rw [State.lpddr_lpTouch, hlp, hc.same .lpddr]

theorem State.alike.accumReady (h : s.alike v) (l : LpLoc) :
    (v.accumReady l).lpddr = (s.accumReady l).lpddr ∧ (v.accumReady l).epoch = (s.accumReady l).epoch := by
  have hz : ((v.count C.grnAccRows (rowGranary l.key)).zeroOthers l.key (List.range 8)).lpddr
      = ((s.count C.grnAccRows (rowGranary l.key)).zeroOthers l.key (List.range 8)).lpddr :=
    State.lpddr_zeroOthers (((State.changes_count ..).same .lpddr).trans (h.lpddr.trans ((State.changes_count ..).same .lpddr).symm)) ..
  have he : v.epoch = s.epoch := by obtain ⟨_, _, _, rfl⟩ := h; rfl
  rw [State.lpddr_accumReady, State.lpddr_accumReady, State.epoch_accumReady, State.epoch_accumReady, h.firstIn, hz, State.lp_congr h.lpddr, h.lpddr, he]
  exact ⟨rfl, rfl⟩

/-- An accumulate-write leaves the same in both. -/
theorem State.alike.accumApply (h : s.alike v) (j : Nat) (l : LpLoc) (r : Row) (final poison : Bool) :
    (v.accumApply j l (.bf16 r) final poison).lpddr = (s.accumApply j l (.bf16 r) final poison).lpddr
      ∧ (v.accumApply j l (.bf16 r) final poison).epoch = (s.accumApply j l (.bf16 r) final poison).epoch := by
  obtain ⟨hl, he⟩ := h.accumReady l
  obtain ⟨hvl, hve⟩ := v.accumApply_stores j l r final poison
  obtain ⟨hsl, hse⟩ := s.accumApply_stores j l r final poison
  have hv := v.changes_accumReady l
  have hs := s.changes_accumReady l
  have htt : v.tt (pgTensor l.page) = s.tt (pgTensor l.page) := by obtain ⟨_, _, _, rfl⟩ := h; rfl
  have htouch : (v.accumReady l).isTouch (pgTensor l.page) = (s.accumReady l).isTouch (pgTensor l.page) := by
    rw [State.isTouch_accumReady, State.isTouch_accumReady]
    obtain ⟨_, _, _, rfl⟩ := h
    rfl
  have hrounds : v.accumRounds (v.accumReady l) l = s.accumRounds (s.accumReady l) l := by
    rw [State.accumRounds, htt]
    refine State.granaryRoundings_congr ?_ ?_ ..
    · rw [hv.same .free, hs.same .free]
      obtain ⟨_, _, _, rfl⟩ := h
      rfl
    · rw [hv.same .grng, hs.same .grng]
      obtain ⟨_, _, _, rfl⟩ := h
      rfl
  have hleft : v.accumLeft (v.accumReady l) l r poison (v.accumRounds (v.accumReady l) l)
      = s.accumLeft (s.accumReady l) l r poison (s.accumRounds (s.accumReady l) l) := by
    rw [hrounds]
    unfold State.accumLeft
    rw [h.firstIn, htouch, State.lp_congr h.lpddr, State.lp_congr hl]
  exact ⟨by rw [hvl, hsl, hl, hleft], by rw [hve, hse, he]⟩

end Sys2Proof.Machine
end

section
/-! A row of a copy that comes from a remote hatch (R238, R243, R336). -/

-- The frame conditions are evaluated in the kernel: theorems elaborated in parallel would each hold a thread while they wait for it.
set_option Elab.async false

namespace Sys2Proof.Machine

variable {s u v t : State} {p g tag cl ch : Nat} {e : OtEnt} {d : Desc} {b : RowRef} {row : Row} {bad : Bool} {x : Xfer}

/-! An outstanding entry is freed. -/

theorem State.otGet_otFree (s : State) (g tag : Nat) : (s.otFree g tag).otGet g tag = none := by
  have hk : (s.setGate g { s.gate g with ot := SMap.erase (s.gate g).ot tag }).changes [.regs] (s.otFree g tag) := State.changes_syncGate ..
  rw [State.otGet, State.gate_congr (hk.same .gates), State.gate_setGate_same, SMap.get, SMap.find?_erase, if_pos rfl]
  rfl

theorem State.rd_otFree_ne {r : Reg} (h : r.addr ≠ (Reg.gateOt g).addr) (s : State) (tag : Nat) : (s.otFree g tag).rd r = s.rd r :=
  (State.rd_setFld_ne _ _ _ h).trans (State.rd_setFld_ne _ _ _ h)

/-- Rooms are asked for only where the table was full. -/
theorem State.otFreed_room (h : (s.gate g).ot.length < 8192) (tag : Nat) : s.otFreed g tag = s.otFree g tag := by
  unfold State.otFreed
  exact if_neg (by simp [h])

theorem dmaCtrl_ne_gateOt (cl ch g : Nat) : (Reg.dmaCtrl cl ch).addr ≠ (Reg.gateOt g).addr := by
  show clBase cl + (0x8030 + 0x40 * ch) ≠ gateBase g + 0x10
  unfold clBase gateBase regBase
  omega

theorem dmaChcfg_ne_gateOt (cl ch g : Nat) : (Reg.dmaChcfg cl ch).addr ≠ (Reg.gateOt g).addr := by
  show clBase cl + (0x8000 + 0x40 * ch) ≠ gateBase g + 0x10
  unfold clBase gateBase regBase
  omega

/-- The register of a gate's outstanding entries says nothing of who reaches a row. -/
theorem State.sameSram_otFree (hg : g < 4) (s : State) (tag : Nat) : s.sameSram (s.otFree g tag) := by
  refine ⟨(State.changes_otFree ..).same .shape, fun p => State.rd_otFree_ne ?_ s tag, fun r c hc o ho hr => State.rd_otFree_ne ?_ s tag⟩
  · show mgtBase + (0x2000 + 0x10 * p) ≠ gateBase g + 0x10
    unfold mgtBase gateBase regBase
    omega
  · show r.addr ≠ gateBase g + 0x10
    rw [hr]
    unfold clBase gateBase regBase
    omega

/-! The response. -/

theorem State.respond_expired (he : s.otGet (gateOf p) tag = some e) (hx : e.expired = true) {hdr : BitVec 96} (ht : fTag hdr = tag)
    (hl : (s.gate (gateOf p)).ot.length < 8192) : s.respond p 1 hdr row = (s.otFree (gateOf p) tag).count C.gateLateResp (gateOf p) := by
  unfold State.respond
  simp only [ht, he, hx, if_true, State.otFreed_room hl]

theorem State.respond_read (he : s.otGet (gateOf p) tag = some e) (hx : e.expired = false) (hk : e.kind = .read) {hdr : BitVec 96} (ht : fTag hdr = tag)
    (hl : (s.gate (gateOf p)).ot.length < 8192) : s.respond p 1 hdr row = ((s.count C.dmaRowsRead e.cl 1 e.ch).otFree (gateOf p) tag).modXfer
      e.cl e.ch e.xfer fun x => x.arrived e.dst e.sub row (fPoison hdr) := by
  have hl' : ((s.count C.dmaRowsRead e.cl 1 e.ch).gate (gateOf p)).ot.length < 8192 := hl
  unfold State.respond
  simp only [ht, he, hx, hk, Bool.false_eq_true, if_false, State.otFreed_room hl']

/-! The row lands, and the transfer ends. -/

/-- The one row of a copy as it awaits its source row, and as it has it. -/
def Xfer.oneAsked (i : Nat) (d : Desc) (src : Piece) : Xfer := { (Xfer.fresh i d) with next := 1, moves := [⟨0, [src], false⟩] }

theorem Xfer.arrived_oneAsked (i : Nat) (d : Desc) (row : Row) (bad : Bool) :
    (Xfer.oneAsked i d .asked).arrived 0 0 row bad = Xfer.oneAsked i d (.got row bad none) := by
  simp [Xfer.oneAsked, Xfer.arrived, Xfer.lost, Xfer.past, Xfer.fresh]

theorem State.pass_got {g : Agent} {i : Nat} (hop : dOp d = 0) (he : dElem d = false) (hs : space (dSrc d) ≠ 0) (hk : dDkind d = 0)
    (hd : space (dDst d) = 1 ∨ space (dDst d) = 2) (hb : s.sramRow g (dDst d) 0 = some b) (hf : fillOk (s.row b) (dOver d) = true) :
    s.pass g (Xfer.oneAsked i d (.got row bad none))
      = ({ (Xfer.fresh i d) with next := 1, rows := 1, poison := bad }, s.landedAt g b row bad) := by
  have hx : (Xfer.oneAsked i d (.got row bad none)).desc = d := rfl
  have hland := State.landMove_one (data := row) (bad := bad) hx hop he hs hk hd hb hf
  have hpast : (Xfer.oneAsked i d (.got row bad none)).past 0 = false := rfl
  have hread : s.readMove g (Xfer.oneAsked i d (.got row bad none)) ⟨0, [.got row bad none], false⟩
      = (⟨0, [.got row bad none], false⟩, Xfer.oneAsked i d (.got row bad none), s) := by
    simp [State.readMove, List.range_succ]
  have hmoves : (Xfer.oneAsked i d (.got row bad none)).moves = [⟨0, [.got row bad none], false⟩] := rfl
  simp only [State.pass, hmoves, State.passMoves, hpast, hread]
  simp [Piece.ready, State.settleMove, hx, hop, hland]
  simp [Xfer.oneAsked, Xfer.fresh]

/-- A channel with one transfer behind its head goes on with it, and ends it where nothing of it is in flight any more. -/
theorem State.resumeChan_tail {y : Xfer} {w : State} (hc : (s.chan cl ch).cur = none) (ht : (s.chan cl ch).tail = [x]) (hst : s.chState cl ch = 1)
    (hp : s.pass (s.agentOf cl ch) x = (y, w)) (hw : w.chan cl ch = s.chan cl ch) (hg : y.got = []) :
    s.resumeChan cl ch = (((w.setChan cl ch { s.chan cl ch with tail := [y] }).endTail cl ch 1).endCur cl ch).syncChan cl ch := by
  unfold State.resumeChan
  rw [if_neg (by rw [hst]; decide)]
  simp only [ht, List.foldl_cons, List.foldl_nil, hp, hg, List.length_nil, State.flushMask, List.nil_append, hw,
    State.chan_setChan_same, hc, List.length_singleton]

/-- The row that a copy awaits comes: it lands, and the transfer ends. -/
theorem State.awaitsRow.lands (h : s.awaitsRow e d b) (row : Row) (bad : Bool) :
    let u := s.modXfer e.cl e.ch e.xfer fun x => x.arrived 0 0 row bad
    u.row b = ⟨row, if bad then .poison else .full, none, none, none⟩ ∧ s.rowsElsewhere u [b] ∧ s.changes [.rows, .ctrs, .regs, .chans] u
      ∧ u.chan e.cl e.ch = { s.chan e.cl e.ch with
          tail := [], done := (s.chan e.cl e.ch).done ++ [{ (Xfer.fresh e.xfer d) with next := 1, rows := 1, poison := bad }] } := by
  obtain ⟨hop, hel, -, -, -, hdk, -, hsrc, hdst, hb, hf, hst, hcur, htail⟩ := h
  have htail' : (s.chan e.cl e.ch).tail = [Xfer.oneAsked e.xfer d .asked] := htail
  obtain ⟨k, hk⟩ : ∃ k : Chan, k = { s.chan e.cl e.ch with tail := [Xfer.oneAsked e.xfer d (.got row bad none)] } := ⟨_, rfl⟩
  obtain ⟨v, hv⟩ : ∃ v, v = s.setChan e.cl e.ch k := ⟨_, rfl⟩
  have hrun : (s.modXfer e.cl e.ch e.xfer fun x => x.arrived 0 0 row bad) = v.resumeChan e.cl e.ch := by
    have hid : (Xfer.oneAsked e.xfer d .asked).id = e.xfer := rfl
    rw [hv, hk, State.modXfer]
    simp only [htail', hcur, Option.map_none, List.map_cons, List.map_nil, hid, if_true, Xfer.arrived_oneAsked]
  have hput : s.changes [.chans] v := hv ▸ State.changes_setChan ..
  have hchan : v.chan e.cl e.ch = k := by rw [hv, State.chan_setChan_same]
  have hrow : ∀ r, v.row r = s.row r := State.row_congr (hput.same .rows)
  have hsram : v.sramRow (s.agentOf e.cl e.ch) (dDst d) 0 = some b := (State.sramRow_of_changes (bits_lt ..) (hput.after .refl) _ _).trans hb
  obtain ⟨w, hw⟩ : ∃ w, w = v.landedAt (s.agentOf e.cl e.ch) b row bad := ⟨_, rfl⟩
  have hland : v.changes [.rows, .ctrs] w := hw ▸ State.changes_landedAt ..
  have hpass : v.pass (v.agentOf e.cl e.ch) (Xfer.oneAsked e.xfer d (.got row bad none))
      = ({ (Xfer.fresh e.xfer d) with next := 1, rows := 1, poison := bad }, w) := by
    have hagent : v.agentOf e.cl e.ch = s.agentOf e.cl e.ch := by rw [hv]; rfl
    rw [hagent, hw]
    exact State.pass_got hop hel (by omega) hdk hdst hsram (by rw [hrow]; exact hf)
  have hres := State.resumeChan_tail (s := v) (by rw [hchan, hk]; exact hcur) (by rw [hchan, hk])
    ((State.chState_congr (State.rd_congr (hput.same .regs) _)).trans hst) hpass (State.chan_congr (hland.same .chans) _ _) rfl
  rw [hchan] at hres
  obtain ⟨z, hz⟩ : ∃ z, z = w.setChan e.cl e.ch { k with tail := [{ (Xfer.fresh e.xfer d) with next := 1, rows := 1, poison := bad }] } := ⟨_, rfl⟩
  have hzput : w.changes [.chans] z := hz ▸ State.changes_setChan ..
  have hzchan : z.chan e.cl e.ch = { k with tail := [{ (Xfer.fresh e.xfer d) with next := 1, rows := 1, poison := bad }] } := by
    rw [hz, State.chan_setChan_same]
  obtain ⟨hend, -, hchan'⟩ := State.endTail_one (s := z) (cl := e.cl) (ch := e.ch) (by rw [hzchan, hk]; exact hcur) (by rw [hzchan]) rfl rfl
  rw [← hz] at hres
  intro u
  have hu : u = (((z.endTail e.cl e.ch 1).endCur e.cl e.ch).syncChan e.cl e.ch) := hrun.trans hres
  rw [← hu] at hend hchan'
  have hrows : u.rows = w.rows := (hend.same .rows).trans (hzput.same .rows)
  refine ⟨?_, fun r hr => ?_, hend.after (hzput.after (hland.after (hput.after .refl))), ?_⟩
  · rw [State.row_congr hrows, hw, State.row_landedAt_same]
  · rw [State.row_congr hrows, hw, State.row_landedAt_ne (hr b (by simp)), hrow]
  · rw [hchan', hzchan, hk]

theorem State.alike.count (h : s.alike v) (c : Ctr) (i n k : Nat) : s.alike (v.count c i n k) := by obtain ⟨_, _, _, rfl⟩ := h; exact ⟨_, _, _, rfl⟩

/-- A copy awaits its row all the same once its entry is freed. -/
theorem State.awaitsRow.otFree (h : s.awaitsRow e d b) (hv : s.alike v) (hg : g < 4) (tag : Nat) : (v.otFree g tag).awaitsRow e d b := by
  obtain ⟨hop, hel, hah, hmask, hsk, hdk, htot, hsrc, hdst, hb, hf, hst, hcur, htail⟩ := h
  have hk := State.changes_otFree (s := v) g tag
  have hsv : ∀ r : Reg, v.rd r = s.rd r := by obtain ⟨_, _, _, rfl⟩ := hv; exact fun _ => rfl
  have hsame := State.sameSram_otFree hg v tag
  have hreach : s.sameSram (v.otFree g tag) :=
    ⟨hsame.shape.trans (by obtain ⟨_, _, _, rfl⟩ := hv; rfl), fun p => (hsame.parts p).trans (hsv _),
      fun r c hc o ho hr => (hsame.quotas r c hc o ho hr).trans (hsv r)⟩
  have hchan : (v.otFree g tag).chan e.cl e.ch = s.chan e.cl e.ch :=
    (State.chan_congr (hk.same .chans) _ _).trans (by obtain ⟨_, _, _, rfl⟩ := hv; rfl)
  have hagent : (v.otFree g tag).agentOf e.cl e.ch = s.agentOf e.cl e.ch :=
    hreach.agentOf ((State.rd_otFree_ne (dmaChcfg_ne_gateOt _ _ _) v tag).trans (hsv _))
  refine ⟨hop, hel, hah, hmask, hsk, hdk, htot, hsrc, hdst, ?_, ?_, ?_, by rw [hchan, hcur], by rw [hchan, htail]⟩
  · rw [hagent, hreach.sramRow (bits_lt ..), hb]
  · rw [State.row_congr (hk.same .rows), hv.row, hf]
  · rw [State.chState_congr ((State.rd_otFree_ne (dmaCtrl_ne_gateOt _ _ _) v tag).trans (hsv _)), hst]

end Sys2Proof.Machine
end

section
/-! What lands of a frame that passes its checks (R227, R327, R335, R336, R338, R342, R343). -/

-- The frame conditions are evaluated in the kernel: theorems elaborated in parallel would each hold a thread while they wait for it.
set_option Elab.async false

namespace Sys2Proof.Machine

variable {s u v t w : State} {p n ty i : Nat} {f : Frame} {crc : BitVec 32} {r : RowRef} {l : LpLoc} {e : BitVec 96}

theorem reqHdr_of_ne (h8 : fType f.hdr ≠ 8) : reqHdr f = f.hdr := if_neg h8

theorem State.takesFrame.gate (h : s.takesFrame p f crc) : gateOf p < 4 := by
  obtain ⟨⟨rfl, -⟩ | ⟨hp, -⟩, -⟩ := h
  · decide
  · exact gateOf_lt hp

/-- A frame has arrived and been passed up, and what has been made of it is `w`: the port then frees its place and may acknowledge it. -/
structure State.arrives (s : State) (p : Nat) (v w u : State) : Prop where
  alike : s.alike v
  frame : w.changes [.outbox, .ports] u
  loopback : p = 12 → u = w ∧ v.loop = s.loop.drop 1

theorem State.arrives.row (h : s.arrives p v w u) (r : RowRef) : u.row r = w.row r := State.row_congr (h.frame.same .rows) r

theorem State.arrives.lp (h : s.arrives p v w u) (k : Nat) : u.lp k = w.lp k := State.lp_congr (h.frame.same .lpddr) k

/-- A request in a frame of its own is tried, and is done with. -/
theorem State.takesFrame.done (h : s.takesFrame p f crc) (hty : fType f.hdr = ty) (h6 : ty ≠ 6) (h8 : ty ≠ 8) {made : State → State}
    (hs : ∀ v, s.alike v → v.serveReq [] p f = .done (made v)) : ∃ v u, frameIn ty p f crc s = .next u ∧ s.arrives p v (made v) u := by
  obtain ⟨v, n, u, hv, hrun, hch, h12⟩ := h.passes hty
  have hput : v.deliverFrame p n f = made v := by
    rw [State.deliverFrame_one (by rw [hv.alike.wellFormed]; exact h.wellFormed) (by omega), State.deliverOne_put (by omega) (by omega),
      hv.put_done (hs v hv.alike)]
  rw [hput] at hch h12
  exact ⟨v, u, hrun, hv.alike, hch, fun hp => ⟨h12 hp, hv.loop hp⟩⟩

theorem State.takesFrame.lands (h : s.takesFrame p f crc) (hty : fType f.hdr = ty) (h6 : ty ≠ 6) (h8 : ty ≠ 8) (hok : s.hatchCheck p f = 0)
    {made : State → State} (hl : ∀ v, s.alike v → v.land p f = .done (made v)) :
    ∃ v u, frameIn ty p f crc s = .next u ∧ s.arrives p v (made v) u :=
  h.done hty h6 h8 fun v hv => by rw [State.serveReq_ok (by rw [hv.hatchCheck, hok]), hl v hv]

theorem State.takesFrame.refused (h : s.takesFrame p f crc) (hty : fType f.hdr = ty) (h6 : ty ≠ 6) (h8 : ty ≠ 8) (hok : ¬ s.hatchCheck p f = 0) :
    ∃ u, frameIn ty p f crc s = .next u ∧ s.sameMem u
      ∧ (p = 12 → u.loop = s.loop.drop 1 ++ [batchOf (nackHdr (fTag f.hdr) (s.hatchCheck p f))]) := by
  obtain ⟨v, u, hrun, hu⟩ := h.done hty h6 h8 (made := fun v => (if s.hatchCheck p f = 3 then v.refusedEffects p f else v).nack p f (s.hatchCheck p f))
    fun v hv => by
      rw [← hv.hatchCheck] at hok ⊢
      exact State.serveReq_refused hok
  refine ⟨u, hrun, (hu.alike.sameMem.trans (v.sameMem_refused p f _)).trans (State.sameMem_of_changes hu.frame), ?_⟩
  rintro rfl
  obtain ⟨h12, hl⟩ := hu.loopback rfl
  rw [h12, State.loop_refused, hl, reqHdr_of_ne (by omega)]

/-- A request that is parked stands in its gate's table, and among the waiters of its row. -/
theorem State.addPark_parks (s : State) (p n : Nat) (f : Frame) (r : RowRef) :
    ((s.addPark p n f (some r)).gate (gateOf p)).park = (s.gate (gateOf p)).park ++ [⟨p, some n, f, some r⟩]
      ∧ (r, Waiter.park (gateOf p) (fTag (reqHdr f)) p) ∈ (s.addPark p n f (some r)).waits := by
  obtain ⟨x, hx⟩ : ∃ x : Gate, x = { s.gate (gateOf p) with park := (s.gate (gateOf p)).park ++ [⟨p, some n, f, some r⟩] } := ⟨_, rfl⟩
  obtain ⟨t, ht⟩ : ∃ t, t = (s.setGate (gateOf p) x).syncGate (gateOf p) := ⟨_, rfl⟩
  have hrun : s.addPark p n f (some r) = { t with waits := t.waits ++ [(r, .park (gateOf p) (fTag (reqHdr f)) p)] } := by
    rw [ht, hx]
    rfl
  have hgates : t.gates = (s.setGate (gateOf p) x).gates := by rw [ht]; exact (State.changes_syncGate ..).same .gates
  have hadd : (s.addPark p n f (some r)).gates = (s.setGate (gateOf p) x).gates := by rw [hrun]; exact hgates
  refine ⟨?_, by rw [hrun]; exact List.mem_append.2 (.inr (List.mem_singleton.2 rfl))⟩
  rw [State.gate_congr hadd, State.gate_setGate_same, hx]

section
variable (hc : ∀ k, s.copyingRow k = false)
include hc

theorem State.alike.notCopying (h : s.alike v) : ∀ k, v.copyingRow k = false := fun k => by rw [h.copyingRow, hc]

theorem State.takesFrame.fills (h : s.takesFrame p f crc) (hty : fType f.hdr = ty) (h12 : ty = 1 ∨ ty = 2) (hok : s.hatchCheck p f = 0)
    (ht : s.target p f = .row r) (hf : fillOk (s.row r) (ty == 2) = true) :
    ∃ u, frameIn ty p f crc s = .next u ∧ u.row r = ⟨f.payload, if fPoison f.hdr then .poison else .full, none, none, none⟩
      ∧ s.rowsElsewhere u [r] ∧ u.lpddr = s.lpddr := by
  obtain ⟨v, u, hrun, hu⟩ := h.lands hty (by omega) (by omega) hok (made := fun v => (v.fill r f.payload (fPoison f.hdr) none).ack p (fTag f.hdr))
    fun v hv => by
      rw [State.land_write_row (hv.notCopying hc) (by rw [reqKind, hty]; exact h12) (by rw [hv.target, ht]), reqKind, hty, hv.row, hf, if_pos rfl,
        reqHdr_of_ne (by omega)]
  have hack : (v.fill r f.payload (fPoison f.hdr) none).changes [.outbox, .ctrs, .ports, .loop]
    ((v.fill r f.payload (fPoison f.hdr) none).ack p (fTag f.hdr)) := State.changes_ack ..
  have hrow (k : RowRef) : u.row k = (v.fill r f.payload (fPoison f.hdr) none).row k := (hu.row k).trans (State.row_congr (hack.same .rows) k)
  refine ⟨u, hrun, ?_, fun k hk => ?_, ?_⟩
  · rw [hrow, State.fill, State.row_setRow_same]
  · rw [hrow, State.fill, State.row_setRow_ne _ _ (hk r (by simp)), hu.alike.row]
  · rw [hu.frame.same .lpddr, hack.same .lpddr]
    exact hu.alike.lpddr

theorem State.takesFrame.parks (h : s.takesFrame p f crc) (hty : fType f.hdr = ty) (h12 : ty = 1 ∨ ty = 2) (hok : s.hatchCheck p f = 0)
    (ht : s.target p f = .row r) (hf : fillOk (s.row r) (ty == 2) = false) :
    ∃ u, frameIn ty p f crc s = .next u
      ∧ (u.gate (gateOf p)).park = [⟨p, some (if p = 12 then 0 else (s.port p).rxNext), f, some r⟩]
      ∧ (r, Waiter.park (gateOf p) (fTag f.hdr) p) ∈ u.waits ∧ s.sameMem u := by
  obtain ⟨v, n, u, hv, hrun, hch, -⟩ := h.passes hty
  have hland : v.serveReq [] p f = .park r := by
    rw [State.serveReq_ok (by rw [hv.alike.hatchCheck, hok]), State.land_write_row (hv.alike.notCopying hc) (by rw [reqKind, hty]; exact h12)
      (by rw [hv.alike.target, ht]), reqKind, hty, hv.alike.row, hf, if_neg (by decide)]
  have hput : v.deliverFrame p n f = v.addPark p n f (some r) := by
    rw [State.deliverFrame_one (by rw [hv.alike.wellFormed]; exact h.wellFormed) (by omega), State.deliverOne_put (by omega) (by omega), hv.put_park hland]
  rw [hput] at hch
  have hadd : v.changes [.regs, .waits, .arrivals, .gates] (v.addPark p n f (some r)) := State.changes_addPark ..
  obtain ⟨hpark, hwait⟩ := v.addPark_parks p n f r
  generalize v.addPark p n f (some r) = w at hch hadd hpark hwait
  refine ⟨u, hrun, ?_, ?_, hv.alike.sameMem.trans ((State.sameMem_of_changes hadd).trans (State.sameMem_of_changes hch))⟩
  · rw [State.gate_congr (hch.same .gates), hpark, hv.park, hv.num]
    rfl
  · rw [hch.same .waits, ← reqHdr_of_ne (f := f) (by omega)]
    exact hwait

theorem State.takesFrame.writesLp (h : s.takesFrame p f crc) (hty : fType f.hdr = ty) (h12 : ty = 1 ∨ ty = 2) (hok : s.hatchCheck p f = 0)
    (ht : s.target p f = .lp l i) :
    ∃ u, frameIn ty p f crc s = .next u ∧ u.lp l.key = .of f.payload (fPoison f.hdr) ∧ (∀ k, k ≠ l.key → u.lp k = s.lp k) ∧ u.rows = s.rows := by
  obtain ⟨v, u, hrun, hu⟩ := h.lands hty (by omega) (by omega) hok (made := fun v => (v.lpWrite l.key f.payload (fPoison f.hdr)).ack p (fTag f.hdr))
    fun v hv => by
      rw [State.land_write_lp (hv.notCopying hc) (by rw [reqKind, hty]; exact h12) (by rw [hv.target, ht]), reqHdr_of_ne (by omega)]
  have hack : (v.lpWrite l.key f.payload (fPoison f.hdr)).changes [.outbox, .ctrs, .ports, .loop]
    ((v.lpWrite l.key f.payload (fPoison f.hdr)).ack p (fTag f.hdr)) := State.changes_ack ..
  have hlp (k : Nat) : u.lp k = (v.lpWrite l.key f.payload (fPoison f.hdr)).lp k := (hu.lp k).trans (State.lp_congr (hack.same .lpddr) k)
  refine ⟨u, hrun, ?_, fun k hk => ?_, ?_⟩
  · rw [hlp, State.lp_lpWrite, if_pos rfl]
  · rw [hlp, State.lp_lpWrite, if_neg hk, State.lp_congr hu.alike.lpddr]
  · rw [hu.frame.same .rows, hack.same .rows, (State.changes_lpWrite ..).same .rows]
    exact hu.alike.rows

theorem State.takesFrame.accumulates (h : s.takesFrame p f crc) (hty : fType f.hdr = 3) (hok : s.hatchCheck p f = 0) (ht : s.target p f = .lp l i)
    {k : Hatch} (hk : k = s.hatchFor p (fHatch f.hdr)) (hj : (s.job k.part k.job).clearing = false) :
    ∃ u, frameIn 3 p f crc s = .next u ∧ u.lpddr = (s.accumApply k.job l (.bf16 f.payload) (fFlag f.hdr) (fPoison f.hdr)).lpddr
      ∧ u.epoch = (s.accumApply k.job l (.bf16 f.payload) (fFlag f.hdr) (fPoison f.hdr)).epoch ∧ u.rows = s.rows := by
  subst hk
  obtain ⟨v, u, hrun, hu⟩ := h.lands hty (by omega) (by omega) hok
    (made := fun v => (v.accumApply (s.hatchFor p (fHatch f.hdr)).job l (.bf16 f.payload) (fFlag f.hdr) (fPoison f.hdr)).ack p (fTag f.hdr))
    fun v hv => by
      have hh : v.hatchFor p (fHatch (reqHdr f)) = s.hatchFor p (fHatch f.hdr) := by rw [hv.hatchFor, reqHdr_of_ne (by omega)]
      rw [State.land_accum (hv.notCopying hc) hty (by rw [hv.target, ht]) (by rw [hh, hv.job, hj]), hh, reqHdr_of_ne (by omega)]
  obtain ⟨a, ha⟩ : ∃ a, a = v.accumApply (s.hatchFor p (fHatch f.hdr)).job l (.bf16 f.payload) (fFlag f.hdr) (fPoison f.hdr) := ⟨_, rfl⟩
  have hacc : v.changes Writes.accumApply a := ha ▸ State.changes_accumApply ..
  have hack : a.changes [.outbox, .ctrs, .ports, .loop] (a.ack p (fTag f.hdr)) := State.changes_ack ..
  rw [← ha] at hu
  obtain ⟨hl, he⟩ := hu.alike.accumApply (s.hatchFor p (fHatch f.hdr)).job l f.payload (fFlag f.hdr) (fPoison f.hdr)
  rw [← ha] at hl he
  refine ⟨u, hrun, ?_, ?_, ?_⟩
  · rw [hu.frame.same .lpddr, hack.same .lpddr, hl]
  · rw [hu.frame.same .epoch, hack.same .epoch, he]
  · rw [hu.frame.same .rows, hack.same .rows, hacc.same .rows]
    exact hu.alike.rows

theorem State.takesFrame.reduces (h : s.takesFrame p f crc) (hty : fType f.hdr = 5) (hok : s.hatchCheck p f = 0) (ht : s.target p f = .row r)
    (hp : (s.row r).tag ≠ .pending) (hn : (s.row r).taker = none) :
    ∃ u, frameIn 5 p f crc s = .next u
      ∧ u.row r = ⟨reduceSlot (if (s.row r).tag = .empty then 0 else (s.row r).data) f.payload, .full, none, none, none⟩
      ∧ s.rowsElsewhere u [r] ∧ u.lpddr = s.lpddr := by
  obtain ⟨d, hd⟩ : ∃ d, d = reduceSlot (if (s.row r).tag = .empty then 0 else (s.row r).data) f.payload := ⟨_, rfl⟩
  obtain ⟨v, u, hrun, hu⟩ := h.lands hty (by omega) (by omega) hok (made := fun v => (v.fill r d false none).ack p (fTag f.hdr))
    fun v hv => by
      rw [State.land_sreduce (hv.notCopying hc) hty (by rw [hv.target, ht]) (by rw [hv.row]; exact hp) (by rw [hv.row, hn]),
        reqHdr_of_ne (by omega), hv.row, hd]
  have hack : (v.fill r d false none).changes [.outbox, .ctrs, .ports, .loop] ((v.fill r d false none).ack p (fTag f.hdr)) := State.changes_ack ..
  have hrow (k : RowRef) : u.row k = (v.fill r d false none).row k := (hu.row k).trans (State.row_congr (hack.same .rows) k)
  rw [← hd]
  refine ⟨u, hrun, ?_, fun k hk => ?_, ?_⟩
  · rw [hrow, State.fill, State.row_setRow_same]
    rfl
  · rw [hrow, State.fill, State.row_setRow_ne _ _ (hk r (by simp)), hu.alike.row]
  · rw [hu.frame.same .lpddr, hack.same .lpddr]
    exact hu.alike.lpddr

end

end Sys2Proof.Machine
end

section
/-! Counts, reads and their answers, and the frames that pass their checks (R327, R335, R341, R342). -/

-- The frame conditions are evaluated in the kernel: theorems elaborated in parallel would each hold a thread while they wait for it.
set_option Elab.async false

namespace Sys2Proof.Machine

variable {s u v t : State} {p n tag : Nat} {f : Frame} {crc : BitVec 32} {r b : RowRef} {e : BitVec 96} {o : OtEnt} {d : Desc}

/-! Counts. -/

/-- A mask row of a count as it is answered. -/
def maskFrame (tag : Nat) (m : Row × Bool) : Frame := ⟨responseHdr 6 tag m.2, if m.2 then 0 else m.1⟩

theorem State.changes_sendMasks (s : State) (p tag : Nat) (ms : List (Row × Bool)) : s.changes [.outbox, .ctrs, .ports, .loop] (s.sendMasks p tag ms) :=
  State.changes_foldl .refl fun _ _ ht => (State.changes_rdata ..).after ht

theorem State.loop_sendMasks (s : State) (tag : Nat) (ms : List (Row × Bool)) : (s.sendMasks 12 tag ms).loop = s.loop ++ ms.map (maskFrame tag) := by
  induction ms generalizing s with
  | nil => exact (List.append_nil _).symm
  | cons m ms ih =>
    refine (ih (s.rdata 12 tag m.1 m.2)).trans ?_
    show (s.loop ++ [maskFrame tag m]) ++ _ = _
    rw [List.append_assoc]
    rfl

/-- The state as a count has been answered. -/
def State.countAnswered (s : State) (p : Nat) (f : Frame) (ms : List (Row × Bool) × Nat) : State :=
  (if (countReq f.payload).mask then s.sendMasks p (fTag (reqHdr f)) ms.1 else s).sendFrame p (batchOf (countHdr (fTag (reqHdr f)) ms.2))

theorem State.changes_countAnswered (s : State) (p : Nat) (f : Frame) (ms : List (Row × Bool) × Nat) :
    s.changes [.outbox, .ctrs, .ports, .loop] (s.countAnswered p f ms) :=
  (State.changes_sendFrame ..).after (State.changes_ite ((s.changes_sendMasks ..).after .refl) .refl)

theorem State.loop_countAnswered (s : State) (f : Frame) (ms : List (Row × Bool) × Nat) : (s.countAnswered 12 f ms).loop =
    s.loop ++ (if (countReq f.payload).mask then ms.1.map (maskFrame (fTag (reqHdr f))) else []) ++ [batchOf (countHdr (fTag (reqHdr f)) ms.2)] := by
  show (if (countReq f.payload).mask then s.sendMasks 12 (fTag (reqHdr f)) ms.1 else s).loop ++ _ = _
  split
  · rw [s.loop_sendMasks]
  · rw [List.append_nil]

theorem State.alike.countTargets (h : s.alike v) (p : Nat) (f : Frame) : v.countTargets p f = s.countTargets p f := by
  simp only [State.countTargets, h.hatchFor, h.hatchRow]

theorem State.takesFrame.counts (h : s.takesFrame 12 f crc) (hc : ∀ k, s.copyingRow k = false) (hty : fType f.hdr = 4) (hok : s.hatchCheck 12 f = 0)
    {fm : Fmt} (hfm : Fmt.ofCode (countReq f.payload).fmt = some fm) (hr : s.firstUnread (s.countTargets 12 f) = none) {ms : List (Row × Bool) × Nat}
    (hm : ms = countRows fm (countReq f.payload) ((s.countTargets 12 f).map fun t => s.targetRow t)) :
    ∃ u, frameIn 4 12 f crc s = .next u ∧ u.rows = s.rows ∧ (∀ k, u.lp k = s.lp k ∨ u.lp k = (s.lp k).fixed)
      ∧ u.loop = s.loop.drop 1 ++ (if (countReq f.payload).mask then ms.1.map (maskFrame (fTag f.hdr)) else [])
        ++ [batchOf (countHdr (fTag f.hdr) ms.2)] := by
  obtain ⟨v, u, hrun, hu⟩ := h.lands hty (by omega) (by omega) hok (made := fun v => (v.met (s.countTargets 12 f)).countAnswered 12 f ms) fun v hv => by
    have hts := hv.countTargets 12 f
    rw [State.land_count (hv.notCopying hc) hty hfm (by rw [hts, hv.firstUnread, hr]) (ms := ms)
      (by rw [hm, hts]; exact congrArg _ (List.map_congr_left fun x _ => ((v.hasRead_met _).targetRow x).trans (hv.targetRow x)).symm), hts]
    rfl
  obtain ⟨w, hw⟩ : ∃ w, w = v.met (s.countTargets 12 f) := ⟨_, rfl⟩
  have hread : v.hasRead w := hw ▸ v.hasRead_met _
  have hans := w.changes_countAnswered 12 f ms
  rw [← hw] at hu
  obtain ⟨h12, hloop⟩ := hu.loopback rfl
  refine ⟨u, hrun, ?_, fun k => ?_, ?_⟩
  · rw [hu.frame.same .rows, hans.same .rows, hread.frame.same .rows]
    exact hu.alike.rows
  · rw [hu.lp, State.lp_congr (hans.same .lpddr), ← State.lp_congr hu.alike.lpddr]
    exact hread.corrects k
  · rw [h12, State.loop_countAnswered, hread.frame.same .loop, hloop, reqHdr_of_ne (by omega)]

/-! Responses. -/

theorem State.alike.otGet (h : s.alike v) (g tag : Nat) : v.otGet g tag = s.otGet g tag := by obtain ⟨_, _, _, rfl⟩ := h; rfl

theorem State.alike.gate (h : s.alike v) (g : Nat) : v.gate g = s.gate g := by obtain ⟨_, _, _, rfl⟩ := h; rfl

theorem State.alike.chan (h : s.alike v) (cl ch : Nat) : v.chan cl ch = s.chan cl ch := by obtain ⟨_, _, _, rfl⟩ := h; rfl

theorem State.takesFrame.responds (h : s.takesFrame p f crc) (hty : fType f.hdr = 6) :
    ∃ v u, frameIn 6 p f crc s = .next u ∧ s.arrives p v (v.respond p 1 f.hdr f.payload) u := by
  obtain ⟨v, n, u, hv, hrun, hch, h12⟩ := h.passes hty
  have hdel : v.deliverFrame p n f = v.respond p 1 f.hdr f.payload := by
    rw [State.deliverFrame_one (by rw [hv.alike.wellFormed]; exact h.wellFormed) (by omega)]
    unfold State.deliverOne
    simp only [hty]
  rw [hdel] at hch h12
  exact ⟨v, u, hrun, hv.alike, hch, fun hp => ⟨h12 hp, hv.loop hp⟩⟩

theorem State.otGet_congr (h : u.gates = s.gates) (g tag : Nat) : u.otGet g tag = s.otGet g tag := by
  rw [State.otGet, State.gate_congr h, State.otGet]

/-- A response that comes late, or that no transfer awaits, frees its entry. -/
theorem State.takesFrame.frees (h : s.takesFrame p f crc) (hty : fType f.hdr = 6) (ho : s.otGet (gateOf p) (fTag f.hdr) = some o)
    (hl : (s.gate (gateOf p)).ot.length < 8192) (hx : o.expired = true ∨ (o.kind = .read ∧ s.idleChan o.cl o.ch)) :
    ∃ u, frameIn 6 p f crc s = .next u ∧ u.otGet (gateOf p) (fTag f.hdr) = none ∧ s.sameMem u := by
  obtain ⟨v, u, hrun, hu⟩ := h.responds hty
  have ho' : v.otGet (gateOf p) (fTag f.hdr) = some o := by rw [hu.alike.otGet, ho]
  have hl' : (v.gate (gateOf p)).ot.length < 8192 := by rw [hu.alike.gate]; exact hl
  have hfreed : ∃ w, v.respond p 1 f.hdr f.payload = w ∧ w.otGet (gateOf p) (fTag f.hdr) = none ∧ v.sameMem w := by
    by_cases hex : o.expired = true
    · have hfree : v.changes [.regs, .gates] (v.otFree (gateOf p) (fTag f.hdr)) := State.changes_otFree ..
      have hcount : (v.otFree (gateOf p) (fTag f.hdr)).changes [.ctrs] ((v.otFree (gateOf p) (fTag f.hdr)).count C.gateLateResp (gateOf p)) :=
        State.changes_count ..
      exact ⟨_, State.respond_expired ho' hex rfl hl', (State.otGet_congr (hcount.same .gates) _ _).trans (v.otGet_otFree _ _),
        (State.sameMem_of_changes hfree).trans (State.sameMem_of_changes hcount)⟩
    · obtain ⟨hk, hidle⟩ := hx.resolve_left hex
      obtain ⟨c, hc⟩ : ∃ c, c = v.count C.dmaRowsRead o.cl 1 o.ch := ⟨_, rfl⟩
      have hcount : v.changes [.ctrs] c := hc ▸ State.changes_count ..
      have hfree : c.changes [.regs, .gates] (c.otFree (gateOf p) (fTag f.hdr)) := State.changes_otFree ..
      have hkeep := State.keepsChans_modXfer (s := c.otFree (gateOf p) (fTag f.hdr)) (cl := o.cl) (ch := o.ch)
        (by rw [State.idleChan, State.chan_congr (hfree.same .chans), State.chan_congr (hcount.same .chans), hu.alike.chan]; exact hidle)
        o.xfer fun x => x.arrived o.dst o.sub f.payload (fPoison f.hdr)
      refine ⟨_, State.respond_read ho' (by simpa using hex) hk rfl hl', ?_, ?_⟩
      · rw [← hc, State.otGet_congr (hkeep.frame.same .gates)]
        exact c.otGet_otFree _ _
      · rw [← hc]
        exact (State.sameMem_of_changes hcount).trans ((State.sameMem_of_changes hfree).trans (State.sameMem_of_changes hkeep.frame))
  obtain ⟨w, hw, hnone, hmem⟩ := hfreed
  rw [hw] at hu
  exact ⟨u, hrun, (State.otGet_congr (hu.frame.same .gates) _ _).trans hnone, (hu.alike.sameMem.trans hmem).trans (State.sameMem_of_changes hu.frame)⟩

/-- The row that a copy awaits. -/
theorem State.takesFrame.brings (h : s.takesFrame p f crc) (hty : fType f.hdr = 6) (ho : s.otGet (gateOf p) (fTag f.hdr) = some o)
    (hl : (s.gate (gateOf p)).ot.length < 8192) (hx : o.expired = false) (hk : o.kind = .read) (hdst : o.dst = 0) (hsub : o.sub = 0) (ha : s.awaitsRow o d b) :
    ∃ u, frameIn 6 p f crc s = .next u ∧ u.otGet (gateOf p) (fTag f.hdr) = none
      ∧ u.row b = ⟨f.payload, if fPoison f.hdr then .poison else .full, none, none, none⟩ ∧ s.rowsElsewhere u [b] ∧ u.lpddr = s.lpddr
      ∧ u.chan o.cl o.ch = { s.chan o.cl o.ch with
          tail := [], done := (s.chan o.cl o.ch).done ++ [{ (Xfer.fresh o.xfer d) with next := 1, rows := 1, poison := fPoison f.hdr }] } := by
  obtain ⟨v, u, hrun, hu⟩ := h.responds hty
  have hresp := State.respond_read (row := f.payload) (hu.alike.otGet (gateOf p) (fTag f.hdr) |>.trans ho) hx hk rfl (by rw [hu.alike.gate]; exact hl)
  obtain ⟨c, hc⟩ : ∃ c, c = v.count C.dmaRowsRead o.cl 1 o.ch := ⟨_, rfl⟩
  have hsc : s.alike c := hc ▸ hu.alike.count ..
  have hfree : c.changes [.regs, .gates] (c.otFree (gateOf p) (fTag f.hdr)) := State.changes_otFree ..
  obtain ⟨hrow, helse, hch, hchan⟩ := (ha.otFree hsc h.gate (fTag f.hdr)).lands f.payload (fPoison f.hdr)
  rw [hresp, ← hc, hdst, hsub] at hu
  have hrows : (c.otFree (gateOf p) (fTag f.hdr)).rows = s.rows := (hfree.same .rows).trans hsc.rows
  refine ⟨u, hrun, ?_, ?_, fun k hk' => ?_, ?_, ?_⟩
  · rw [State.otGet_congr (hu.frame.same .gates), State.otGet_congr (hch.same .gates), c.otGet_otFree]
  · rw [hu.row, hrow]
  · rw [hu.row, helse k hk', State.row_congr hrows]
  · rw [hu.frame.same .lpddr, hch.same .lpddr, hfree.same .lpddr]
    exact hsc.lpddr
  · rw [State.chan_congr (hu.frame.same .chans), hchan, State.chan_congr (hfree.same .chans), hsc.chan]

/-! Reads. -/

theorem State.row_dmaTaken_same (s : State) (r : RowRef) (take : Bool) : (s.dmaTaken r take).row r =
    if take then { s.row r with tag := .empty, writer := none, taker := none, note := none } else s.row r := by
  cases take with
  | false => rfl
  | true => exact State.row_setRow_same ..

theorem State.row_dmaTaken_ne {k : RowRef} (h : rowKey r ≠ rowKey k) (s : State) (take : Bool) : (s.dmaTaken r take).row k = s.row k := by
  cases take with
  | false => rfl
  | true => exact State.row_setRow_ne _ _ h

theorem State.takesFrame.reads (h : s.takesFrame p f crc) (hc : ∀ k, s.copyingRow k = false) (hty : fType f.hdr = 8) (hb : batchEntries f = [e])
    (he : fType e = 1) (hok : s.hatchCheck p (batchOf e) = 0) (ht : s.hatchRow p (s.hatchFor p (fHatch e)) (fOffset e) = .row r)
    (hr : dmaReadOk (s.row r) (fFlag e) = true) :
    ∃ u, frameIn 8 p f crc s = .next u ∧ s.rowsElsewhere u [r] ∧ u.lpddr = s.lpddr
      ∧ u.row r = (if fFlag e then { s.row r with tag := .empty, writer := none, taker := none, note := none } else s.row r)
      ∧ (p = 12 → u.loop = s.loop.drop 1
          ++ [⟨responseHdr 6 (fTag e) (decide ((s.row r).tag = .poison)), if decide ((s.row r).tag = .poison) then 0 else (s.row r).data⟩]) := by
  obtain ⟨v, n, u, hv, hrun, hch, h12⟩ := h.passes hty
  have htarget : v.target p (batchOf e) = .row r := by rw [hv.alike.target, State.target, reqHdr_batchOf, ht]
  have hland : v.serveReq [] p (batchOf e) = .done (((v.meetRow r).dmaTaken r (fFlag e)).rdata p (fTag e) (s.row r).data
      (decide ((s.row r).tag = .poison))) := by
    rw [State.serveReq_ok (by rw [hv.alike.hatchCheck, hok]), State.land_read_row (hv.alike.notCopying hc) (fType_batchOf e) htarget
      (by rw [reqHdr_batchOf, hv.alike.row, hr]), reqHdr_batchOf, hv.alike.row]
  have hdel : v.deliverFrame p n f = ((v.meetRow r).dmaTaken r (fFlag e)).rdata p (fTag e) (s.row r).data (decide ((s.row r).tag = .poison)) := by
    rw [State.deliverFrame_batch (by rw [hv.alike.wellFormed]; exact h.wellFormed) hty hb, State.deliverOne_batchOf he, hv.put_done hland]
  rw [hdel] at hch h12
  have hmeet : v.changes [.ctrs] (v.meetRow r) := State.changes_meetRow ..
  have htake : (v.meetRow r).changes [.rows] ((v.meetRow r).dmaTaken r (fFlag e)) := State.changes_dmaTaken ..
  have hans : ((v.meetRow r).dmaTaken r (fFlag e)).changes [.outbox, .ctrs, .ports, .loop] (((v.meetRow r).dmaTaken r (fFlag e)).rdata p (fTag e)
    (s.row r).data (decide ((s.row r).tag = .poison))) := State.changes_rdata ..
  have hrow (k : RowRef) : u.row k = ((v.meetRow r).dmaTaken r (fFlag e)).row k :=
    (State.row_congr (hch.same .rows) k).trans (State.row_congr (hans.same .rows) k)
  have hvrow (k : RowRef) : (v.meetRow r).row k = s.row k := (State.row_congr (hmeet.same .rows) k).trans (hv.alike.row k)
  refine ⟨u, hrun, fun k hk => ?_, ?_, ?_, ?_⟩
  · rw [hrow, State.row_dmaTaken_ne (hk r (by simp)), hvrow]
  · rw [hch.same .lpddr, hans.same .lpddr, htake.same .lpddr, hmeet.same .lpddr]
    exact hv.alike.lpddr
  · rw [hrow, State.row_dmaTaken_same, hvrow]
  · rintro rfl
    rw [h12 rfl]
    show ((v.meetRow r).dmaTaken r (fFlag e)).loop ++ _ = _
    rw [htake.same .loop, hmeet.same .loop, hv.loop rfl]

end Sys2Proof.Machine

open Sys2Proof Sys2Proof.Machine

/-- Settles O51: a frame that its port passes up at once meets the stores that it arrived at. -/
theorem framesLand : Obligations.FramesLand := by
  unfold Obligations.FramesLand
  intro p f crc s htakes hc q h t left ok
  have htarget : ∀ ty : Nat, ty ≠ 8 → fType q = ty → s.target p f = t := fun ty h8 hty => by rw [State.target, reqHdr_of_ne (ne_of_eq_of_ne hty h8)]
  refine ⟨fun c hmem hty hok => ?_, fun c hmem hty hok => ?_, fun l n hty hok ht hj => ?_, fun fm hty hok hp hfm => ?_, fun r hty hok ht hp hn => ?_,
    fun e hty ho hl => ⟨fun hx => ?_, fun d b hx hk hdst hsub ha => ?_⟩, fun e r hty hb he hok ht hr => ?_⟩
  · have hall : ∀ ty : Nat, ty ≠ 6 → ty ≠ 8 → fType q = ty → _ := fun ty h6 h8 hty => htakes.refused hty h6 h8 hok
    simp only [List.mem_cons, List.not_mem_nil, or_false] at hmem
    obtain rfl | rfl | rfl | rfl | rfl := hmem
    · exact hall 1 (by decide) (by decide) hty
    · exact hall 2 (by decide) (by decide) hty
    · exact hall 3 (by decide) (by decide) hty
    · exact hall 4 (by decide) (by decide) hty
    · exact hall 5 (by decide) (by decide) hty
  · simp only [List.mem_cons, List.not_mem_nil, or_false] at hmem
    obtain rfl | rfl := hmem
    · exact ⟨fun r ht hf => htakes.fills hc hty (.inl rfl) hok ((htarget 1 (by decide) hty).trans ht) hf,
        fun r ht hf => htakes.parks hc hty (.inl rfl) hok ((htarget 1 (by decide) hty).trans ht) hf,
        fun l n ht => htakes.writesLp hc hty (.inl rfl) hok ((htarget 1 (by decide) hty).trans ht)⟩
    · exact ⟨fun r ht hf => htakes.fills hc hty (.inr rfl) hok ((htarget 2 (by decide) hty).trans ht) hf,
        fun r ht hf => htakes.parks hc hty (.inr rfl) hok ((htarget 2 (by decide) hty).trans ht) hf,
        fun l n ht => htakes.writesLp hc hty (.inr rfl) hok ((htarget 2 (by decide) hty).trans ht)⟩
  · exact htakes.accumulates hc hty hok ((htarget _ (by decide) hty).trans ht) rfl hj
  · subst hp
    intro c ts ms hr
    have hts : ts = s.countTargets 12 f := by
      rw [State.countTargets, reqHdr_of_ne (ne_of_eq_of_ne hty (by decide))]
    rw [hts] at hr
    exact htakes.counts hc hty hok hfm hr (by rw [← hts])
  · exact htakes.reduces hc hty hok ((htarget _ (by decide) hty).trans ht) hp hn
  · exact htakes.frees hty ho hl hx
  · exact htakes.brings hty ho hl hx hk hdst hsub ha
  · exact htakes.reads hc hty hb he hok ht hr
end
